-- ==== Sys2Proof/Word.lean ====
section
/-!
DEFINITION. The words of the AX-1 model: bytes, bit-vector words, ticks, and sparse tables.
Quantities the manual counts (ticks, indices, sequence numbers, identifiers) are Nat; quantities it
treats as bits (windows, bit maps, digests, raw payload bytes) are bit vectors or lists of bytes.
-/
namespace Sys2Proof

abbrev Byte := BitVec 8
abbrev Word16 := BitVec 16
abbrev Word32 := BitVec 32
abbrev Word64 := BitVec 64
/-- The integer S of the 96-bit array window (R38). -/
abbrev Win96 := BitVec 96
/-- The integer S of the 128-bit Square window (R43). -/
abbrev Win128 := BitVec 128
/-- One count of the fleet count, 1 ns of fleet time (00_scope). -/
abbrev Tick := Nat
/-- A sparse table: keys strictly rising, an unlisted key reads as the table's default. -/
abbrev KMap (α : Type) := List (Nat × α)

end Sys2Proof
end

