-- ==== Sys2Proof/Config.lean ====
section
/-!
DEFINITION. What an implementation fixes and the source leaves open: the free values (opaque, no body),
the configuration fields of Tables 10.5, 11.7, 12.7, 13.9, 14.6, 15.8 and 16.7 with ranges and defaults,
the types of a parsed step program, and the module's constants.
-/
namespace Sys2Proof

/-- The numeric sensors of R415; the source numbers none of them (log 12). -/
inductive PldmSensor where
  | inputPower
  | dieTemp (die : Nat)
  | stackTemp (stack : Nat)
  | portTemp (port : Nat)
  | portRxMin (port : Nat)
  | stageVolts (stage : Nat)
  | stageAmps (stage : Nat)
  deriving DecidableEq, Repr

/-- The state sensors of R415. -/
inductive PldmState where
  | calState
  | portState (port : Nat)
  | timState
  deriving DecidableEq, Repr

namespace Config

/-- FREE VALUE (log 10): the n-th value the source leaves open. Nothing constrains it. -/
opaque freeNat : Nat → Nat
/-- FREE VALUE (log 10): the n-th open yes-or-no outcome. -/
opaque freeBool : Nat → Bool
/-- FREE VALUE (log 11): leakage of partition p in mW, fused at test (15 R379). -/
opaque pleakMw : Nat → Nat
/-- FREE VALUE (log 11): the DER bytes of the slot-0 identity certificate chain's leaf (16 R409). -/
opaque identityCert : List Byte
/-- FREE VALUE (log 11): the bytes of SPDM certificate chain slot 0 (16 R409). -/
opaque identityChain : List Byte
/-- FREE VALUE (log 11): the bytes of SPDM certificate chain slot 1, issued at boot number `boot` for a firmware measurement (16 R409). -/
opaque aliasChain : Nat → List Byte → List Byte
/-- FREE VALUE (log 11): the SHA-384 digest in fused Mbawen key slot k, no bytes for an empty slot (16 R392). -/
opaque mbawenKeyDigest : Nat → List Byte
/-- FREE VALUE (log 11): the revocation bit of fused Mbawen key slot k (16 R392). -/
opaque mbawenKeyRevoked : Nat → Bool
/-- FREE VALUE (log 11): a signature of the module's identity key over a message (16 R410). -/
opaque identitySign : List Byte → List Byte
/-- FREE VALUE (log 11): the ROM measurement, SPDM index 1 (16 R410). -/
opaque romMeasurement : List Byte
/-- FREE VALUE (log 11): PF0's Vendor ID register (16 R413). -/
opaque pcieVendorId : Nat
/-- FREE VALUE (log 12): what an SPDM message body carries where the AX-1 manual defers to SPDM 1.3. -/
opaque spdmBody : Nat → List Byte → List Byte
/-- FREE VALUE (log 12): whether the verify data of an SPDM FINISH is right for a session. -/
opaque finishOk : Nat → List Byte → Bool
/-- FREE VALUE (log 12): the version entries GetPLDMVersion and Get MCTP Version Support answer for a type. -/
opaque pldmVersion : Nat → List Byte
opaque mctpVersion : Nat → List Byte
/-- FREE VALUE (log 12): the version word of the vendor-defined message set (16 R413). -/
opaque vendorVersion : Nat
/-- FREE VALUE (log 12): a PLDM platform descriptor record's bytes, deferred to the PLDM specification (16 R415). -/
opaque pldmPdr : Nat → List Byte
/-- FREE VALUE (log 12): which sensor a sensor ID names. -/
opaque numericSensor : Nat → Option PldmSensor
opaque stateSensor : Nat → Option PldmState
/-- FREE VALUE (log 13): the correctly rounded value of a function whose enclosure did not decide the
rounding; the interval method of Machine/Elementary.lean reaches it only there (02 R54). -/
opaque undecidedRound : Nat → Nat → Nat
/-- FREE VALUE (log 14): a program-defined or random-initialisation operator's element (02 R51, uses 0x03 and 0x80-0xFF). -/
opaque randomElement : Nat → Nat → Nat

end Config

/-! ### The parsed step program (05 R116-R119, 06 R149) -/

/-- What an operator does; the numbers of the opcodes are not in the source (log 15). -/
inductive OpKind where
  | mma
  | add | sub | mul | fma | div | rcp | sqrt | rsqrt
  | exp | exp2 | log | log2 | tanh | erf | sigmoid | max | min
  | cvt | silu | gelu
  | dropout (threshold keep : Nat)
  | random (use : Nat)
  | redSum | redSumSq | redDot | redMax | redMin
  | softmax | rmsnorm (eps : Nat) | layernorm (eps : Nat)
  /-- A transposition job: output logical dimension d is input dimension perm[d]. -/
  | xpose (perm : List Nat)
  | move
  | other (code : Nat)
  deriving DecidableEq, Repr

/-- An operator descriptor (R118). -/
structure OpDesc where
  opId : Nat
  layer : Nat
  kind : OpKind
  inputs : List Nat
  output : Nat
  placement : Nat
  depOff : Nat
  attr : Nat
  /-- Commit group and COLL_ID of a collective the operator triggers. -/
  coll : Option (Nat × Nat)
  deriving DecidableEq, Repr

/-- An entry of a dependency list (R120). -/
inductive Dep where
  | op (id : Nat)
  | barrier (id : Nat)
  deriving DecidableEq, Repr

/-- A barrier: it releases when the operators it depends on have completed and all cores arrived. -/
structure BarrierDesc where
  barrierId : Nat
  after : List Nat
  deriving DecidableEq, Repr

/-- A tensor descriptor (Table 5.4). -/
structure Tensor where
  tensorId : Nat
  format : Nat
  rank : Nat
  order : Nat
  persistent : Bool
  hostIo : Bool
  dims : List Nat
  base : Nat
  scaleId : Nat
  metaId : Nat
  /-- Some RSV field of the descriptor is nonzero. -/
  rsvSet : Bool
  deriving DecidableEq, Repr

/-- A collective descriptor (Table 6.8). -/
structure Collective where
  collId : Nat
  op : Nat
  inForm : Nat
  inTensor : Nat
  outTensor : Nat
  blocks : Nat
  waveBlocks : Nat
  rootLocus : Nat
  rsvSet : Bool
  deriving DecidableEq, Repr

/-- A loaded step program (Table 5.3). -/
structure Program where
  arithRev : Nat
  deadline : Nat
  tensors : List Tensor
  operators : List OpDesc
  /-- The dependency list of each operator, in operator order. -/
  deps : List (List Dep)
  barriers : List BarrierDesc
  collectives : List Collective
  deriving DecidableEq, Repr

namespace Config
/-- FREE VALUE (log 15): the operator a 64-byte operator descriptor encodes; R118 gives the contents and no layout. -/
opaque parseOperator : List Byte → Option OpDesc
/-- FREE VALUE (log 15): the dependency list at an offset of the dependency region. -/
opaque parseDeps : List Byte → Nat → List Dep
/-- FREE VALUE (log 15): the barrier a 64-byte barrier entry encodes. -/
opaque parseBarrier : List Byte → Option BarrierDesc
end Config

/-! ### Configuration fields -/

/-- The configuration in force: scalars by FIELD_ID, structured fields as their encoded bytes (16 R393, R400). -/
structure Cfg where
  scal : KMap Int
  blob : KMap (List Byte)
  deriving DecidableEq, Repr

/-- A scalar configuration field: FIELD_ID, least, greatest, default. -/
structure CfgRow where
  id : Nat
  lo : Int
  hi : Int
  dflt : Int
  deriving DecidableEq, Repr

/-- Tables 10.5, 11.7, 12.7, 13.9, 14.6, 15.8: scalar fields in ascending FIELD_ID. -/
def Cfg.rowsA : List CfgRow := [
  ⟨0x0A01, 1, 15, 3⟩, ⟨0x0A02, 30, 50, 44⟩, ⟨0x0A03, 1, 64, 8⟩, ⟨0x0A04, 1, 64, 32⟩,
  ⟨0x0A05, 0, 65535, 1000⟩, ⟨0x0A06, 8, 32, 8⟩, ⟨0x0A07, 0, 65535, 4096⟩, ⟨0x0A08, 1, 15, 3⟩, ⟨0x0A09, 1, 64, 4⟩,
  ⟨0x0B01, 2, 8, 3⟩, ⟨0x0B02, 30, 40, 34⟩, ⟨0x0B03, 2, 12, 6⟩, ⟨0x0B04, 100, 10000, 500⟩,
  ⟨0x0B05, 200, 20000, 1000⟩, ⟨0x0B06, 1, 100, 10⟩, ⟨0x0B07, 50, 250, 250⟩, ⟨0x0B08, 200, 1000, 1000⟩,
  ⟨0x0B09, 500, 20000, 2000⟩, ⟨0x0B0A, 0, 4, 2⟩, ⟨0x0B0B, 0, 1000, 100⟩, ⟨0x0B0C, 0, 1, 0⟩,
  ⟨0x0C01, 0, 26624, 16384⟩, ⟨0x0C02, 0, 1048576, 0⟩, ⟨0x0C03, 10, 3600, 600⟩, ⟨0x0C04, 0, 8, 0⟩,
  ⟨0x0C06, 1024, 65535, 39200⟩, ⟨0x0C07, 1, 64, 16⟩, ⟨0x0C08, 100, 10000, 500⟩]

/-- The rest of the scalar fields, Table 13.9 onwards. -/
def Cfg.rowsB : List CfgRow := [
  ⟨0x0D01, 262144, 16777216, 1048576⟩, ⟨0x0D02, 1024, 65536, 8192⟩, ⟨0x0D03, 0, 131072, 0⟩,
  ⟨0x0D04, 0, 16777216, 20000⟩, ⟨0x0D05, 1, 64, 8⟩, ⟨0x0D06, 1, 64, 32⟩,
  ⟨0x0D07, 0x3F800000, 0x42800000, 0x40800000⟩, ⟨0x0D08, 0x3F000000, 0x42800000, 0x40000000⟩,
  ⟨0x0D09, 18, 131072, 64⟩, ⟨0x0D0A, 0, 255, 255⟩, ⟨0x0D0B, 1024, 65535, 39201⟩,
  ⟨0x0D0D, 10, 3600, 600⟩, ⟨0x0D0E, 100, 200000, 10000⟩, ⟨0x0D0F, 1048576, 268435456, 67108864⟩,
  ⟨0x0E01, 1048576, 17179869184, 1073741824⟩, ⟨0x0E02, 100, 60000, 2000⟩, ⟨0x0E03, 0, 3, 1⟩,
  ⟨0x0F01, 0, 1099511627776, 0⟩, ⟨0x0F02, 0, 3, 1⟩, ⟨0x0F03, 0, 5500, 0⟩, ⟨0x0F04, 0, 4096, 256⟩, ⟨0x0F05, 85, 105, 100⟩]

/-- Table 16.7: scalar fields. -/
def Cfg.rowsC : List CfgRow := [
  ⟨0x1001, 50000, 1000000000, 200000⟩, ⟨0x1002, 0, 2, 1⟩, ⟨0x1003, 100, 60000, 2000⟩, ⟨0x1004, 1, 64, 64⟩,
  ⟨0x1005, 0, 100000000, 20000⟩, ⟨0x1006, 0, 1536, 96⟩, ⟨0x1007, 0, 4, 2⟩, ⟨0x1008, 4, 16, 8⟩,
  ⟨0x1009, 0, 134217727, 0⟩, ⟨0x100A, 0, 4, 2⟩, ⟨0x100B, 1, 64, 4⟩, ⟨0x100C, 1, 16, 16⟩, ⟨0x100D, 1, 16, 16⟩,
  ⟨0x100E, 1, 16, 16⟩, ⟨0x100F, 1, 32, 1⟩, ⟨0x1010, 0, 15, 15⟩, ⟨0x1011, 1000000, 1000000000, 50000000⟩,
  ⟨0x1012, 0, 2, 0⟩, ⟨0x1014, 0, 1, 1⟩, ⟨0x1015, 0, 1, 0⟩, ⟨0x101A, 0, 1, 0⟩,
  ⟨0x101B, 0, 4611686018427387904, 0⟩, ⟨0x101C, 0, 15, 8⟩, ⟨0x101D, 1000, 50000, 10000⟩,
  ⟨0x101E, 100, 1000000, 10000⟩, ⟨0x101F, 0, 15, 0⟩, ⟨0x1020, 0, 127, 0⟩, ⟨0x1021, -7, 0, -4⟩,
  ⟨0x1022, 0, 3, 1⟩, ⟨0x1023, 0, 2, 0⟩, ⟨0x1024, 0, 1, 0⟩, ⟨0x1025, 2000, 1000000, 50000⟩, ⟨0x1026, 0, 3, 1⟩]

/-- Every scalar field of the module (R400). -/
def Cfg.rows : List CfgRow := Cfg.rowsA ++ Cfg.rowsB ++ Cfg.rowsC

/-- A structured field: FIELD_ID, least and greatest encoded length, default bytes. -/
structure CfgBlobRow where
  id : Nat
  lenLo : Nat
  lenHi : Nat
  dflt : List Byte
  deriving DecidableEq, Repr

/-- The structured fields (R393): every element always present, except CFG_VENT_STATIC. -/
def Cfg.blobRows : List CfgBlobRow := [
  ⟨0x0C05, 144, 144, List.replicate 144 0⟩, ⟨0x0C09, 160, 160, List.replicate 160 0⟩,
  ⟨0x0D0C, 136, 136, List.replicate 136 0⟩, ⟨0x0D10, 0, 576, []⟩,
  ⟨0x1013, 32, 32, List.replicate 32 0x0F⟩, ⟨0x1016, 4, 4, [1, 1, 2, 6]⟩,
  ⟨0x1017, 68, 68, List.replicate 68 0⟩, ⟨0x1018, 64, 64, List.replicate 64 0⟩, ⟨0x1019, 9, 9, List.replicate 9 0⟩]

/-- The configuration with every field at its default. -/
def Cfg.dflt : Cfg := { scal := [], blob := [] }

/-! ### Constants of the module -/

/-- Arithmetic revision of this edition (Table 0.7). -/
def arithRev : Nat := 2
/-- The alignment quantum Q of R232, in ticks. -/
def alignQuantum : Nat := 163840
/-- Clusters of the module (Table 1.5). -/
def numClusters : Nat := 4096
/-- Slots of a cluster (Table 1.1). -/
def slotsPerCluster : Nat := 272
/-- The window of the sample count, 2^20 ticks (13 R333). -/
def samplePeriod : Nat := 1048576

end Sys2Proof
end

