-- ==== Sys2Proof/Syntax.lean ====
section
/-!
DEFINITION. The commands of the block: one constructor of `Instr` per row of spec/opcode_table.json, with the operands
its message, register write or event carries. Operand records come first.
-/
namespace Sys2Proof

/-- A packet delivered to this module (Table 6.2) with the port it came in by and its arrival stamp (R162). -/
structure Hdr where
  src : Nat
  srcEp : Nat
  dstEp : Nat
  seq : Nat
  incarn : Nat
  injTick : Nat
  tv : Bool
  domain : Nat
  step : Nat
  attempt : Nat
  layer : Nat
  opId : Nat
  cm : Bool
  echo : Bool
  port : Nat
  stamp : Nat
  deriving DecidableEq, Repr

/-- The identifiers a core command carries (R60): context, operator, logical core, and the slot it runs on. -/
structure CoreCmd where
  ctx : Nat
  opId : Nat
  core : Nat
  slot : Nat
  deriving DecidableEq, Repr

/-- An element of an array operand as delivered: bits and block scale (R32). -/
structure InElem where
  bits : Nat
  scale : Nat
  deriving DecidableEq, Repr

/-- A hardware disturbance of one accumulator cell: tile row, column 0–3 or 4 for the check cell, bits flipped. -/
structure CellFault where
  row : Nat
  col : Nat
  mask : Nat
  deriving DecidableEq, Repr

/-- One tile pass: the 64 × 64 block it belongs to, four A rows, four B columns, 2:4 metadata nibbles, the bubbles
of the pass by cause, where its outputs go in near store, and disturbances. -/
structure Tile where
  blockRow : Nat
  blockCol : Nat
  aRows : List (List InElem)
  bCols : List (List InElem)
  nibbles : List (List Nat)
  operandBubbles : Nat
  anchorBubbles : Nat
  sliceBubbles : Nat
  /-- The windows are sent on, to the window adder or a Square, instead of converted here. -/
  raw : Bool
  nearOff : Nat
  faults : List CellFault
  deriving DecidableEq, Repr

/-- The share of an anchor pass: for each row, its elements; and for each reduction index, the partner elements. -/
structure AnchShare where
  rows : List (Nat × List InElem)
  partners : List (List InElem)
  deriving DecidableEq, Repr

/-- Where a SEND delivers: the window adder of a cluster, or the Square of a collective's block (R70). -/
inductive SendTo where
  /-- Output row and column of the operator, and the number of parts that make it. -/
  | adder (row col parts : Nat) (colCount : Nat)
  | squareRaw (coll block elem : Nat)
  | squareVal (coll block elem bits : Nat)
  deriving DecidableEq, Repr

/-- What the storage code and the path do to one read (R100, R101, R253). -/
inductive ReadOutcome where
  | good
  | corrected
  | uncorrectable
  /-- The first read arrives with bits of byte `off` flipped; the second read is good. -/
  | pathFlip (off mask : Nat)
  deriving DecidableEq, Repr

/-- The hardware's observation of one shadowed instance (R256, R257, R263): the digests of primary, shadow and, where a vote ran, vote. -/
structure ShadowObs where
  /-- The primary's logical core; for a transposition job its partition. -/
  core : Nat
  digP : Nat
  digQ : Nat
  digT : Option Nat
  /-- 0 base, 1 suspect, 2 directed, 3 vote (Table 10.2). -/
  why : Nat
  deriving DecidableEq, Repr

/-- A submission entry (Table 5.12). -/
structure SqEntry where
  opcode : Nat
  flags : Nat
  seq : Nat
  ctx : Nat
  payloadLen : Nat
  payloadAddr : Nat
  payloadCrc : Nat
  /-- Bytes 32–63. -/
  param : List Byte
  /-- Some RSV field of the entry is nonzero. -/
  rsvSet : Bool
  deriving DecidableEq, Repr

/-- FAULT_REPORT PARAM (Table 10.1). -/
structure FaultParam where
  kind : Nat
  source : Nat
  physValid : Bool
  logicalValid : Bool
  tileRow : Nat
  layer : Nat
  opId : Nat
  physCore : Nat
  logicalCore : Nat
  addr : Nat
  detail : Nat
  deriving DecidableEq, Repr

/-- One DATA packet of a block (Table 6.3). -/
structure DataPart where
  bulk : Bool
  tensorId : Nat
  addr : Nat
  check : Nat
  part : Nat
  ackReq : Bool
  payload : List Byte
  deriving DecidableEq, Repr

/-- A RED packet (Tables 6.2, 6.3, R148): per anchor block its anchor, its 32 entries and its 32 flag nibbles. -/
structure RedPkt where
  collId : Nat
  op : Nat
  form : Nat
  nb : Nat
  contrib : Nat
  firstBlock : Nat
  anchors : List Int
  /-- Entries block by block, 32 per block: window bits (W-form), or element bits, or exponents. -/
  entries : List Nat
  nibbles : List Nat
  /-- A disturbance of the second fold adder's copy (R252). -/
  upset : Nat
  deriving DecidableEq, Repr

/-- A TEL packet (Table 13.2). -/
structure TelPkt where
  tree : Nat
  op : Nat
  group : Nat
  contrib : Nat
  short : Bool
  key : Nat
  entries : List Nat
  upset : Nat
  deriving DecidableEq, Repr

/-- An Ethernet frame arriving on an edge port, as the port's filter sees it (Table 7.8). -/
structure EdgeFrame where
  length : Nat
  etherType : Nat
  tagged : Bool
  vid : Nat
  /-- IPv6 with an extension header or a fragment. -/
  extension : Bool
  /-- UDP checksum present and right. -/
  udpOk : Bool
  dstPort : Nat
  /-- A neighbour claims this port's address (R406). -/
  claimsAddress : Bool
  deriving DecidableEq, Repr

/-- A PTP message (IEEE 1588-2019 as limited by Table 8.3). -/
structure PtpMsg where
  domain : Nat
  seqId : Nat
  seconds : Nat
  nanos : Nat
  corrNs : Int
  twoStep : Bool
  /-- Local time of arrival, fleet count or local ns. -/
  rx : Nat
  sourceId : Nat
  deriving DecidableEq, Repr

/-- The dataset of an Announce that the best master clock algorithm compares. -/
structure AnnounceData where
  priority1 : Nat
  clockClass : Nat
  accuracy : Nat
  variance : Nat
  priority2 : Nat
  grandmaster : Nat
  stepsRemoved : Nat
  utcOffset : Int
  deriving DecidableEq, Repr

/-- A datagram of the shard protocol (Table 12.4). -/
structure ShardMsg where
  gateway : Nat
  version : Nat
  handle : Nat
  offset : Nat
  jobId : Nat
  participant : Nat
  shard : Nat
  status : Nat
  window : Nat
  payload : List Byte
  deriving DecidableEq, Repr

/-- The requester of an MCTP command: binding (0 I3C, 1 PCIe VDM), endpoint ID, SPDM session if secured, instance number. -/
structure Req where
  binding : Nat
  eid : Nat
  session : Option Nat
  inst : Nat
  deriving DecidableEq, Repr

/-- A unit whose progress counter is watched (Table 11.3). -/
inductive HangUnit where
  | sequencer (cluster core : Nat)
  | clusterControl (cluster : Nat)
  | dma (part : Nat)
  | xpose (part engine : Nat)
  | geyser (part : Nat)
  | square (die : Nat)
  | crossing (die : Nat)
  | port (p : Nat)
  | calCore (half core : Nat)
  deriving DecidableEq, Repr

/-- What a Fumarole or Caldera reads at a sample count besides the counters the State holds (Table 13.1). -/
structure Reading where
  cls : Nat
  index : Nat
  /-- Signed 1/16 °C, as an integer. -/
  temp : Int
  /-- Matrix-unit cycles since power-up (class 0), output mV (class 3), RX power in 1/100 dBm plus 2^15 (class 1). -/
  aux : Nat
  /-- Input current in mA (class 3). -/
  aux2 : Nat
  deriving DecidableEq, Repr

/-- A command of the block. -/
inductive Instr where
  -- the life of a step
  | stepLaunch (ctx : Nat)
  | stepConfirmSend (ctx : Nat)
  | stepConfirm (h : Hdr)
  | commit (h : Hdr) (launch : Nat) (hold : Bool) (epoch : Nat)
  | commitDeadline (ctx : Nat)
  | faultReport (h : Hdr) (f : FaultParam)
  | reexecCollect (ctx : Nat)
  | reexec (h : Hdr) (launch : Nat) (epoch : Nat)
  | moduleLost (h : Hdr) (lost spare : Nat) (epoch : Nat)
  -- core commands
  | anch (c : CoreCmd) (share : AnchShare)
  | mma (c : CoreCmd) (tile : Tile)
  | vec (c : CoreCmd) (first : Nat) (ins : List (List InElem)) (nearOff : Nat)
  | move (c : CoreCmd) (src dst len : Nat) (rd : ReadOutcome)
  | send (c : CoreCmd) (dest : SendTo)
  | wait (c : CoreCmd) (barrier : Nat)
  | dma (ctx opId src dst len : Nat) (rd : ReadOutcome)
  -- operators and engines
  | operatorStart (ctx opId cluster : Nat)
  | operatorComplete (ctx opId cluster : Nat) (shadows : List ShadowObs)
  | batchWaitExpiry (cluster : Nat)
  | sliceStreamDone (cluster opId : Nat)
  | xposeJobComplete (part engine : Nat) (flips : List (Nat × Nat)) (rd : ReadOutcome)
  | scrubSlot (level unit : Nat) (rd : ReadOutcome) (foregroundWrote : Bool)
  | calGapStart (count : Nat)
  | calGapEnd (failed : List (Nat × Nat))
  -- mailbox commands
  | identify (ring : Nat)
  | attach (ring : Nat)
  | ctxLoad (ring : Nat)
  | ctxArm (ring : Nat)
  | ctxHold (ring : Nat)
  | ctxResume (ring : Nat)
  | ctxTeardown (ring : Nat)
  | tensorWrite (ring : Nat)
  | tensorRead (ring : Nat) (rd : ReadOutcome)
  | dumpRequest (ring : Nat) (list : List Byte)
  | fingerprintGet (ring : Nat)
  | policySet (ring : Nat)
  | nop (ring : Nat)
  | commandAccept (ring : Nat) (e : SqEntry) (payload : List Byte)
  | sqDoorbell (ring tail : Nat)
  | ringEnWrite (ring : Nat) (en : Bool)
  | mbxEnableWrite (en : Bool)
  | cqHeadWrite (ring head : Nat)
  | mbxHeartbeat (value : Nat)
  | registerWrite (offset value : Nat)
  -- PCIe resets and host loss
  | pcieHotReset
  | pcieLinkDown
  | pcieFlr
  | pf1Flr
  | busMasterDisable
  | hostHbTimeout
  | pcieLinkDownTimeout
  -- job messages
  | armed (h : Hdr) (digest : Nat)
  | start (h : Hdr) (launch policy epoch : Nat)
  | pmap (h : Hdr) (part bitmap epoch : Nat)
  | resume (h : Hdr) (launch epoch : Nat)
  | hostLoss (h : Hdr) (tick : Nat)
  | drain (h : Hdr) (td epoch : Nat)
  | drainStart (ctx : Nat)
  | drainEnd (ctx : Nat)
  | drained (h : Hdr)
  | routeBreak (h : Hdr) (dim after : Nat) (isBreak : Bool) (effective : Nat)
  | routeBreakEffective (dim : Nat)
  | ack (h : Hdr) (seqAcked : Nat)
  | notReady (h : Hdr) (hintUs seqRefused : Nat)
  | cnEcho (h : Hdr) (vc : Nat)
  | ctrlRetransmit (dst ep seq : Nat)
  | limiterIncrease (dst vc : Nat)
  -- crossings and packets
  | packetForward (die inPort : Nat) (header : BitVec 512) (now : Nat)
  | crossingReserve (die out vc : Nat)
  | crossingReserveEnd (die out vc : Nat)
  | dataPacket (h : Hdr) (d : DataPart) (rd : ReadOutcome)
  | redUp (h : Hdr) (r : RedPkt)
  | redDown (h : Hdr) (r : RedPkt)
  | telUp (h : Hdr) (t : TelPkt)
  | telDown (h : Hdr) (t : TelPkt)
  -- optical ports
  | credit (port : Nat) (flit : BitVec 512)
  | ident (port : Nat) (flit : BitVec 512)
  | lsmFastRetrain (port : Nat) (flit : BitVec 512)
  | lsmFullRetrain (port : Nat) (flit : BitVec 512)
  | lsmWidth4 (port : Nat) (flit : BitVec 512)
  | lsmSpare (port : Nat) (flit : BitVec 512)
  | lsmGrant (port : Nat) (flit : BitVec 512)
  | lsmDone (port : Nat) (flit : BitVec 512)
  | codewordFlagged (port lane firstLost : Nat) (uncorrectable : Bool)
  | nakRetry (port : Nat)
  | lossOfSignal (port lane : Nat)
  | laneCeLimit (port lane : Nat)
  | laneUeLimit (port lane : Nat)
  | portLcfTimeout (port : Nat)
  | fastRetrainTimeout (port : Nat)
  | portStart (port : Nat)
  | partnerReady (port lanes : Nat)
  | equaliseDone (port : Nat)
  | alignDone (port lanes : Nat)
  | attemptTimeout (port : Nat)
  | backoffExpiry (port : Nat)
  | heldExpiry (port : Nat)
  | heldSignalLoss (port : Nat)
  | edgeLinkUp (port : Nat) (duplicate : Bool)
  | edgeLinkDown (port : Nat)
  | edgeFrameReceive (port : Nat) (f : EdgeFrame)
  -- time
  | timeLcfSend (port : Nat)
  | timeLcf (port : Nat) (flit : BitVec 512) (stamp : Nat)
  | offerExpiry (port : Nat)
  | rootSeqAdvance (count : Nat)
  | rootClaimTimer
  | ptpUnlockTimeout
  | sync (port : Nat) (m : PtpMsg)
  | followUp (port : Nat) (m : PtpMsg)
  | delayResp (port : Nat) (m : PtpMsg)
  | delayReq (port : Nat) (m : PtpMsg)
  | announce (port : Nat) (m : PtpMsg) (a : AnnounceData)
  | ptpSyncSend (port : Nat)
  | ptpAnnounceSend (port : Nat)
  | ptpDelayReqSend (port : Nat)
  -- determinism
  | alignStart
  | alignQuiesce
  | alignApply
  | alignComplete (inBounds : Bool)
  | packetRelease
  -- containment and recovery
  | hangWindowExpiry (u : HangUnit)
  | partitionRefillDone (part : Nat)
  | dieLinkFail (pos : Nat)
  | calHalfFault (half cause : Nat)
  | selfTest (passA passB : Bool)
  | calOwnAcquire (half : Nat)
  | calOwnTimeout
  | coordBeatSend (ctx : Nat)
  | coordBeat (h : Hdr) (leaseEnd epoch : Nat)
  | leaseEnd (ctx : Nat)
  | leaseExpiry (ctx : Nat)
  | interlockInFall
  | interlockStuck (ctx : Nat)
  | takeover (h : Hdr) (newLocus epoch : Nat)
  | takeoverState (h : Hdr) (attempt : Nat) (confirmed faulted hasLaunch held : Bool) (launch epoch : Nat)
  | takeoverStateTimeout (ctx locus : Nat)
  | probe (h : Hdr) (epoch : Nat)
  | probeReply (h : Hdr) (attempt status level : Nat)
  | probeTimeout (ctx locus : Nat)
  | stepHold (h : Hdr) (reason epoch : Nat)
  | selfLost (h : Hdr) (reason : Nat)
  | recoveryNotice (h : Hdr) (attempt ready : Nat)
  -- Geyser
  | geyBind (h : Hdr) (jobId : Nat)
  | geyBindReply (h : Hdr) (accepted : Bool) (jobId : Nat)
  | geyBindRetry (ctx : Nat)
  | geyBindTimeout (ctx : Nat)
  | geySpareReady (h : Hdr) (jobId : Nat)
  | geyTake (h : Hdr) (lost spare epoch : Nat)
  | takeCopyComplete (ctx : Nat)
  | geyTakeDone (h : Hdr) (stateSum : Nat)
  | geyReseed (h : Hdr) (mask : Nat)
  | geyFetch (h : Hdr) (tensorId block : Nat)
  | geyCkpt (h : Hdr) (epoch : Nat)
  | geyCkptDone (h : Hdr) (status : Nat)
  | ckptTimeout (ctx : Nat)
  | geyRestore (h : Hdr) (jobId epoch : Nat)
  | restoreComplete (ctx : Nat)
  | geyRestored (h : Hdr) (status stateSum : Nat)
  | openReply (m : ShardMsg)
  | shardData (m : ShardMsg)
  | dack (m : ShardMsg)
  | closeReply (m : ShardMsg)
  | fetchReply (m : ShardMsg)
  | shardRto (handle : Nat)
  | dackTimer (handle : Nat)
  | gwDownExpiry (gateway : Nat)
  -- telemetry
  | sampleLatch (k : Nat) (readings : List Reading)
  | sampleMissed (cls index : Nat)
  | telSendBy (tree group key attempt : Nat)
  | telFinalize (tree group key attempt : Nat)
  | telSlotRelease (tree group key : Nat)
  | subscribe (port addr udp subId version : Nat) (body : List Byte)
  | unsubscribe (addr udp subId : Nat)
  | subscriptionLeaseEnd (addr udp subId : Nat)
  | recordAged (addr udp subId seq : Nat)
  -- event recorder
  | evrRecordClose (seq : Nat)
  | evrInfo (r : Req)
  | evrFreeze (r : Req)
  | evrRead (r : Req) (fromSeq maxCount minSev : Nat)
  | evrRelease (r : Req)
  | evrClear (r : Req) (uptoSeq maxSev : Nat)
  | evrFreezeTimeout
  -- power
  | ledgerUpdate (stage mv ma : Nat)
  | pwrGrant (r : Req) (ctx grant effective : Nat)
  | pwrCeiling (r : Req) (watts : Nat)
  | pwrDemand (r : Req) (ctx : Nat)
  | vcoreUndervoltage (part : Nat)
  | frequencyMargin (part reading : Nat)
  | tjThrottle (part temp : Nat)
  | tjTrip (part temp : Nat)
  | railOvervoltage (stage mv : Nat)
  | inputPowerLimit (watts : Nat)
  | comparatorRelease (limit unit : Nat)
  | phaseRetire (stage phase reason : Nat)
  | railPowerGood (group : Nat)
  -- start-up and identity
  | powerOn
  | slotSelect
  | triesClear
  | opticsRelease
  | runEntry (failedSlots : List (Nat × Nat))
  | locusAssign (r : Req) (locus : Nat)
  | mbIdentify (r : Req)
  | idAccept (r : Req) (scope portMask : Nat)
  | idStatus (r : Req)
  | imgBegin (r : Req) (length : Nat)
  | imgWrite (r : Req) (offset : Nat) (bytes : List Byte)
  | imgCommit (r : Req)
  | imgAbort (r : Req)
  | imgStatus (r : Req)
  | imgWriterIdle
  | secverAdvance (r : Req) (v : Nat)
  | ownerProvision (r : Req) (pubkey sig : List Byte)
  | moduleReset (r : Req)
  | ctxResumeReq (r : Req) (ctx : Nat)
  | geyRestoreReq (r : Req) (ctx jobId k : Nat)
  -- PLDM
  | getTid (r : Req)
  | getPldmVersion (r : Req) (pldmType : Nat)
  | getPldmTypes (r : Req)
  | getPldmCommands (r : Req) (pldmType : Nat)
  | getPdr (r : Req) (handle : Nat)
  | getSensorReading (r : Req) (sensor : Nat)
  | getStateSensorReadings (r : Req) (sensor : Nat)
  | pldmFullRetrain (r : Req) (port : Nat)
  | releaseHold (r : Req) (port : Nat)
  | alignRetry (r : Req)
  | regRead (r : Req) (block inst offset length : Nat)
  | regW1c (r : Req) (block inst offset mask : Nat)
  -- MCTP control
  | setEndpointId (binding eid : Nat)
  | getEndpointId (binding : Nat)
  | getMctpVersionSupport (r : Req) (msgType : Nat)
  | getMessageTypeSupport (r : Req)
  | getVendorDefinedMessageSupport (r : Req) (selector : Nat)
  -- SPDM
  | getVersion (r : Req)
  | getCapabilities (r : Req) (body : List Byte)
  | negotiateAlgorithms (r : Req) (body : List Byte)
  | getDigests (r : Req)
  | getCertificate (r : Req) (slot offset length : Nat)
  | challenge (r : Req) (slot : Nat) (nonce : List Byte)
  | getMeasurements (r : Req) (index : Nat) (nonce : List Byte)
  | keyExchange (r : Req) (reqSessionId : Nat) (body : List Byte)
  -- pins and the input
  | pgoodFall
  | resetNFall
  | pciePerstN (level : Bool)
  | testEnHigh
  | inputUndervoltage
  | inputOvervoltage
  | inputCollapse
  | pcieLinkUp (width rate : Nat)
  | dynamicAddressAssignment (addr : Nat)
  -- SPDM sessions
  | finish (r : Req) (session : Nat) (body : List Byte)
  | keyUpdate (r : Req) (session op : Nat)
  | endSession (r : Req) (session : Nat)
  | respondIfReady (r : Req) (token : Nat)
  -- late timers
  | announceReceiptTimeout (port : Nat)
  | actionBoundExpiry (u : HangUnit) (level : Nat)
  | busyRetryDelayExpiry (handle : Nat)
  deriving DecidableEq, Repr

end Sys2Proof
end

