-- ==== Sys2Proof/Decode.lean ====
section
/-!
DEFINITION. Reading a command from a word. No row of spec/opcode_table.json gives bits: commands reach the module as
messages, register writes and events, so no word spells a command.
-/
namespace Sys2Proof

/-- The command a word of `nbits` bits spells: none for every word, since no row gives bits. -/
def decodeTableWord (_nbits _w : Nat) : Option Instr := none

end Sys2Proof
end

