-- ==== Sys2Proof/Machine/Bits.lean ====
section
/-!
DEFINITION. Helpers on sparse tables, bytes, bit fields, serial numbers and counters (00_scope R5 R6,
03 R88, 05 R126, 06 R159). They stand here, and not in Word.lean, so that they can be mended.
-/
namespace Sys2Proof

/-- Look a key up in a sparse table. -/
def KMap.find {α : Type} : KMap α → Nat → Option α
  | [], _ => none
  | (k, v) :: m, q => if q = k then some v else KMap.find m q

/-- Look a key up, an unlisted key reading as `d`. -/
def KMap.getD {α : Type} (m : KMap α) (q : Nat) (d : α) : α := (KMap.find m q).getD d

/-- Store a value under a key, keeping the keys strictly rising. -/
def KMap.put {α : Type} : KMap α → Nat → α → KMap α
  | [], q, w => [(q, w)]
  | (k, v) :: m, q, w =>
    if q = k then (k, w) :: m
    else if q < k then (q, w) :: (k, v) :: m
    else (k, v) :: KMap.put m q w

/-- Remove a key. -/
def KMap.del {α : Type} (m : KMap α) (q : Nat) : KMap α := m.filter (fun e => e.1 != q)

/-- Change the value under a key, an unlisted key reading as `d`. -/
def KMap.upd {α : Type} (m : KMap α) (q : Nat) (d : α) (f : α → α) : KMap α :=
  KMap.put m q (f (KMap.getD m q d))

/-- The keys are strictly rising. -/
def KMap.sorted {α : Type} : KMap α → Bool
  | [] => true
  | [_] => true
  | a :: b :: m => decide (a.1 < b.1) && KMap.sorted (b :: m)

/-- Bits [hi:lo] of a natural number (R5). -/
def bitsOf (n hi lo : Nat) : Nat := (n >>> lo) % 2 ^ (hi + 1 - lo)

/-- Bit i of a natural number. -/
def bitAt (n i : Nat) : Bool := n.testBit i

/-- Set or clear bit i. -/
def setBit (n i : Nat) (b : Bool) : Nat :=
  if n.testBit i == b then n else if b then n + 2 ^ i else n - 2 ^ i

/-- 1 for true, 0 for false. -/
def b2n (b : Bool) : Nat := if b then 1 else 0

/-- The low w bits of n placed at bit position lo. -/
def field (n w lo : Nat) : Nat := (n % 2 ^ w) <<< lo

/-- The set bit positions below w, ascending. -/
def bitList (n w : Nat) : List Nat := (List.range w).filter (fun i => n.testBit i)

/-- The number of set bits below w. -/
def popCount (n w : Nat) : Nat := (bitList n w).length

/-- A natural number as k bytes, little-endian (R6). -/
def leBytes : Nat → Nat → List Byte
  | 0, _ => []
  | k + 1, n => BitVec.ofNat 8 n :: leBytes k (n / 256)

/-- k bytes, most significant first (network byte order, R6). -/
def beBytes (k n : Nat) : List Byte := (leBytes k n).reverse

/-- The little-endian value of a byte list (R6). -/
def leNat : List Byte → Nat
  | [] => 0
  | b :: bs => b.toNat + 256 * leNat bs

/-- The value of a byte list, most significant byte first. -/
def beNat (bs : List Byte) : Nat := leNat bs.reverse

/-- Bytes [i, i + n) of a list, short where the list ends. -/
def slice {α : Type} (l : List α) (i n : Nat) : List α := (l.drop i).take n

/-- The little-endian value of n bytes at offset i. -/
def leAt (l : List Byte) (i n : Nat) : Nat := leNat (slice l i n)

/-- A list padded with zero bytes, or cut, to n bytes. -/
def fitBytes (n : Nat) (l : List Byte) : List Byte := (l ++ List.replicate (n - l.length) 0#8).take n

/-- d = (s − h) mod 2^w, the distance of serial-number arithmetic (R126, R159). -/
def serialDist (w s h : Nat) : Nat := (s % 2 ^ w + 2 ^ w - h % 2 ^ w) % 2 ^ w

/-- How far s lies after h in serial arithmetic, negative where s is older (R126, R363). -/
def serialOff (w s h : Nat) : Int := let d := serialDist w s h; if d < 2 ^ (w - 1) then d else (d : Int) - 2 ^ w

/-- s is newer than h: 1 ≤ d < 2^(w−1). -/
def serialNewer (w s h : Nat) : Bool :=
  let d := serialDist w s h
  decide (1 ≤ d) && decide (d < 2 ^ (w - 1))

/-- A utilisation counter of w bits wraps (R88). -/
def wrapAdd (w c n : Nat) : Nat := (c + n) % 2 ^ w

/-- An error counter of w bits saturates at its largest value (R88). -/
def satAdd (w c n : Nat) : Nat := if c + n < 2 ^ w then c + n else 2 ^ w - 1

/-- A signed value in w bits of two's complement. -/
def ofInt (w : Nat) (i : Int) : Nat := (i % (2 ^ w : Int)).toNat

/-- The signed value of w bits of two's complement. -/
def toInt (w n : Nat) : Int := if n % 2 ^ w < 2 ^ (w - 1) then (n % 2 ^ w : Nat) else ((n % 2 ^ w : Nat) : Int) - (2 ^ w : Nat)

/-- ceil(a / b). -/
def ceilDiv (a b : Nat) : Nat := if b = 0 then 0 else (a + b - 1) / b

/-- The least multiple of q that is at least a. -/
def roundUp (a q : Nat) : Nat := ceilDiv a q * q

/-- The sum of a list. -/
def sumL : List Nat → Nat
  | [] => 0
  | x :: xs => x + sumL xs

/-- The largest member of a list, 0 of the empty list. -/
def maxL : List Nat → Nat
  | [] => 0
  | x :: xs => max x (maxL xs)

/-- Insert a value into an ascending list without repeats. -/
def insertAsc : Nat → List Nat → List Nat
  | x, [] => [x]
  | x, y :: ys => if x = y then y :: ys else if x < y then x :: y :: ys else y :: insertAsc x ys

/-- Two lists of bytes are equal. -/
def sameBytes (a b : List Byte) : Bool := a == b

end Sys2Proof
end

