-- ==== Sys2Proof/Machine/Digest.lean ====
section
/-!
DEFINITION. Checks and digests: CRC-32C (04 R95), SHA-256 (05 R113, 09 R242, 12 R328), SHA-384 and ECDSA on P-384
(16 R391, R392), the block check (R95) and the state-sum terms' inputs. The algorithms' constants are those of
their public standards (log 17).
-/
namespace Sys2Proof

/-! ### CRC-32C -/

/-- One bit of the reflected CRC-32C, polynomial 0x1EDC_6F41. -/
def crcBit (c : Word32) : Word32 := if c.getLsbD 0 then (c >>> 1) ^^^ 0x82F63B78#32 else c >>> 1

/-- One byte of the CRC-32C. -/
def crcByte (c : Word32) (b : Byte) : Word32 :=
  let c := c ^^^ b.setWidth 32
  crcBit (crcBit (crcBit (crcBit (crcBit (crcBit (crcBit (crcBit c)))))))

/-- CRC-32C of a byte list: initial value and final exclusive-or all ones (R95). -/
def crc32c (bs : List Byte) : Word32 := (bs.foldl crcByte 0xFFFFFFFF#32) ^^^ 0xFFFFFFFF#32

/-! ### SHA-256 -/

def sha256K : List Word32 := [
  0x428A2F98#32, 0x71374491#32, 0xB5C0FBCF#32, 0xE9B5DBA5#32, 0x3956C25B#32, 0x59F111F1#32, 0x923F82A4#32, 0xAB1C5ED5#32,
  0xD807AA98#32, 0x12835B01#32, 0x243185BE#32, 0x550C7DC3#32, 0x72BE5D74#32, 0x80DEB1FE#32, 0x9BDC06A7#32, 0xC19BF174#32,
  0xE49B69C1#32, 0xEFBE4786#32, 0x0FC19DC6#32, 0x240CA1CC#32, 0x2DE92C6F#32, 0x4A7484AA#32, 0x5CB0A9DC#32, 0x76F988DA#32,
  0x983E5152#32, 0xA831C66D#32, 0xB00327C8#32, 0xBF597FC7#32, 0xC6E00BF3#32, 0xD5A79147#32, 0x06CA6351#32, 0x14292967#32,
  0x27B70A85#32, 0x2E1B2138#32, 0x4D2C6DFC#32, 0x53380D13#32, 0x650A7354#32, 0x766A0ABB#32, 0x81C2C92E#32, 0x92722C85#32,
  0xA2BFE8A1#32, 0xA81A664B#32, 0xC24B8B70#32, 0xC76C51A3#32, 0xD192E819#32, 0xD6990624#32, 0xF40E3585#32, 0x106AA070#32,
  0x19A4C116#32, 0x1E376C08#32, 0x2748774C#32, 0x34B0BCB5#32, 0x391C0CB3#32, 0x4ED8AA4A#32, 0x5B9CCA4F#32, 0x682E6FF3#32,
  0x748F82EE#32, 0x78A5636F#32, 0x84C87814#32, 0x8CC70208#32, 0x90BEFFFA#32, 0xA4506CEB#32, 0xBEF9A3F7#32, 0xC67178F2#32]

def sha256Init : List Word32 := [
  0x6A09E667#32, 0xBB67AE85#32, 0x3C6EF372#32, 0xA54FF53A#32, 0x510E527F#32, 0x9B05688C#32, 0x1F83D9AB#32, 0x5BE0CD19#32]

/-- Message padding of the SHA-2 family: 0x80, zeros, the bit length in `lenBytes` bytes, to a multiple of `block`. -/
def shaPad (block lenBytes : Nat) (m : List Byte) : List Byte :=
  let used := m.length + 1 + lenBytes
  m ++ [0x80#8] ++ List.replicate (ceilDiv used block * block - used) 0#8 ++ beBytes lenBytes (8 * m.length)

/-- Big-endian words of k bytes, `n` of them. -/
def beWords (k w : Nat) : Nat → List Byte → List (BitVec w)
  | 0, _ => []
  | n + 1, bs => BitVec.ofNat w (beNat (bs.take k)) :: beWords k w n (bs.drop k)

/-- Extend the message schedule, newest word first, by one word per remaining constant; the answer stands oldest first. -/
def sha256Schedule : Nat → List Word32 → List Word32
  | 0, w => w.reverse
  | n + 1, w =>
    let a := w.getD 14 0
    let b := w.getD 1 0
    let s0 := a.rotateRight 7 ^^^ a.rotateRight 18 ^^^ (a >>> 3)
    let s1 := b.rotateRight 17 ^^^ b.rotateRight 19 ^^^ (b >>> 10)
    sha256Schedule n ((w.getD 15 0 + s0 + w.getD 6 0 + s1) :: w)

/-- One round of SHA-256 on the working variables. -/
def sha256Round (s : List Word32) (kw : Word32 × Word32) : List Word32 :=
  match s with
  | [a, b, c, d, e, f, g, h] =>
    let s1 := e.rotateRight 6 ^^^ e.rotateRight 11 ^^^ e.rotateRight 25
    let t1 := h + s1 + ((e &&& f) ^^^ (~~~e &&& g)) + kw.1 + kw.2
    let s0 := a.rotateRight 2 ^^^ a.rotateRight 13 ^^^ a.rotateRight 22
    let t2 := s0 + ((a &&& b) ^^^ (a &&& c) ^^^ (b &&& c))
    [t1 + t2, a, b, c, d + t1, e, f, g]
  | s => s

def sha256Blocks : Nat → List Byte → List Word32 → List Word32
  | 0, _, h => h
  | n + 1, bs, h =>
    let w := sha256Schedule 48 (beWords 4 32 16 bs).reverse
    let r := (sha256K.zip w).foldl sha256Round h
    sha256Blocks n (bs.drop 64) (List.zipWith (· + ·) h r)

/-- SHA-256 of a byte list, 32 bytes. -/
def sha256 (m : List Byte) : List Byte :=
  let p := shaPad 64 8 m
  ((sha256Blocks (p.length / 64) p sha256Init).map (fun w => beBytes 4 w.toNat)).flatten

/-! ### SHA-384 -/

def sha512Ka : List Word64 := [
  0x428A2F98D728AE22#64, 0x7137449123EF65CD#64, 0xB5C0FBCFEC4D3B2F#64, 0xE9B5DBA58189DBBC#64,
  0x3956C25BF348B538#64, 0x59F111F1B605D019#64, 0x923F82A4AF194F9B#64, 0xAB1C5ED5DA6D8118#64,
  0xD807AA98A3030242#64, 0x12835B0145706FBE#64, 0x243185BE4EE4B28C#64, 0x550C7DC3D5FFB4E2#64,
  0x72BE5D74F27B896F#64, 0x80DEB1FE3B1696B1#64, 0x9BDC06A725C71235#64, 0xC19BF174CF692694#64,
  0xE49B69C19EF14AD2#64, 0xEFBE4786384F25E3#64, 0x0FC19DC68B8CD5B5#64, 0x240CA1CC77AC9C65#64,
  0x2DE92C6F592B0275#64, 0x4A7484AA6EA6E483#64, 0x5CB0A9DCBD41FBD4#64, 0x76F988DA831153B5#64,
  0x983E5152EE66DFAB#64, 0xA831C66D2DB43210#64, 0xB00327C898FB213F#64, 0xBF597FC7BEEF0EE4#64,
  0xC6E00BF33DA88FC2#64, 0xD5A79147930AA725#64, 0x06CA6351E003826F#64, 0x142929670A0E6E70#64,
  0x27B70A8546D22FFC#64, 0x2E1B21385C26C926#64, 0x4D2C6DFC5AC42AED#64, 0x53380D139D95B3DF#64,
  0x650A73548BAF63DE#64, 0x766A0ABB3C77B2A8#64, 0x81C2C92E47EDAEE6#64, 0x92722C851482353B#64]
def sha512Kb : List Word64 := [
  0xA2BFE8A14CF10364#64, 0xA81A664BBC423001#64, 0xC24B8B70D0F89791#64, 0xC76C51A30654BE30#64,
  0xD192E819D6EF5218#64, 0xD69906245565A910#64, 0xF40E35855771202A#64, 0x106AA07032BBD1B8#64,
  0x19A4C116B8D2D0C8#64, 0x1E376C085141AB53#64, 0x2748774CDF8EEB99#64, 0x34B0BCB5E19B48A8#64,
  0x391C0CB3C5C95A63#64, 0x4ED8AA4AE3418ACB#64, 0x5B9CCA4F7763E373#64, 0x682E6FF3D6B2B8A3#64,
  0x748F82EE5DEFB2FC#64, 0x78A5636F43172F60#64, 0x84C87814A1F0AB72#64, 0x8CC702081A6439EC#64,
  0x90BEFFFA23631E28#64, 0xA4506CEBDE82BDE9#64, 0xBEF9A3F7B2C67915#64, 0xC67178F2E372532B#64,
  0xCA273ECEEA26619C#64, 0xD186B8C721C0C207#64, 0xEADA7DD6CDE0EB1E#64, 0xF57D4F7FEE6ED178#64,
  0x06F067AA72176FBA#64, 0x0A637DC5A2C898A6#64, 0x113F9804BEF90DAE#64, 0x1B710B35131C471B#64,
  0x28DB77F523047D84#64, 0x32CAAB7B40C72493#64, 0x3C9EBE0A15C9BEBC#64, 0x431D67C49C100D4C#64,
  0x4CC5D4BECB3E42B6#64, 0x597F299CFC657E2A#64, 0x5FCB6FAB3AD6FAEC#64, 0x6C44198C4A475817#64]

def sha384Init : List Word64 := [
  0xCBBB9D5DC1059ED8#64, 0x629A292A367CD507#64, 0x9159015A3070DD17#64, 0x152FECD8F70E5939#64,
  0x67332667FFC00B31#64, 0x8EB44A8768581511#64, 0xDB0C2E0D64F98FA7#64, 0x47B5481DBEFA4FA4#64]

/-- The schedule of SHA-384, newest word first. -/
def sha512Schedule : Nat → List Word64 → List Word64
  | 0, w => w.reverse
  | n + 1, w =>
    let a := w.getD 14 0
    let b := w.getD 1 0
    let s0 := a.rotateRight 1 ^^^ a.rotateRight 8 ^^^ (a >>> 7)
    let s1 := b.rotateRight 19 ^^^ b.rotateRight 61 ^^^ (b >>> 6)
    sha512Schedule n ((w.getD 15 0 + s0 + w.getD 6 0 + s1) :: w)

def sha512Round (s : List Word64) (kw : Word64 × Word64) : List Word64 :=
  match s with
  | [a, b, c, d, e, f, g, h] =>
    let s1 := e.rotateRight 14 ^^^ e.rotateRight 18 ^^^ e.rotateRight 41
    let t1 := h + s1 + ((e &&& f) ^^^ (~~~e &&& g)) + kw.1 + kw.2
    let s0 := a.rotateRight 28 ^^^ a.rotateRight 34 ^^^ a.rotateRight 39
    let t2 := s0 + ((a &&& b) ^^^ (a &&& c) ^^^ (b &&& c))
    [t1 + t2, a, b, c, d + t1, e, f, g]
  | s => s

def sha512Blocks : Nat → List Byte → List Word64 → List Word64
  | 0, _, h => h
  | n + 1, bs, h =>
    let w := sha512Schedule 64 (beWords 8 64 16 bs).reverse
    let r := ((sha512Ka ++ sha512Kb).zip w).foldl sha512Round h
    sha512Blocks n (bs.drop 128) (List.zipWith (· + ·) h r)

/-- SHA-384 of a byte list, 48 bytes. -/
def sha384 (m : List Byte) : List Byte :=
  let p := shaPad 128 16 m
  (((sha512Blocks (p.length / 128) p sha384Init).map (fun w => beBytes 8 w.toNat)).flatten).take 48

/-! ### ECDSA on P-384 -/

def p384P : Nat := 0xFFFFFFFFFFFFFFFFFFFFFFFFFFFFFFFFFFFFFFFFFFFFFFFFFFFFFFFFFFFFFFFEFFFFFFFF0000000000000000FFFFFFFF
def p384B : Nat := 0xB3312FA7E23EE7E4988E056BE3F82D19181D9C6EFE8141120314088F5013875AC656398D8A2ED19D2A85C8EDD3EC2AEF
def p384N : Nat := 0xFFFFFFFFFFFFFFFFFFFFFFFFFFFFFFFFFFFFFFFFFFFFFFFFC7634D81F4372DDF581A0DB248B0A77AECEC196ACCC52973
def p384Gx : Nat := 0xAA87CA22BE8B05378EB1C71EF320AD746E1D3B628BA79B9859F741E082542A385502F25DBF55296C3A545E3872760AB7
def p384Gy : Nat := 0x3617DE4A96262C6F5D9E98BF9292DC29F8F41DBD289A147CE9DA3113B5F0B8C00A60B1CE1D7E819D7A431D7C90EA0E5F

/-- b^e mod m by the low `k` bits of e. -/
def powMod : Nat → Nat → Nat → Nat → Nat
  | 0, _, _, _ => 1
  | k + 1, b, e, m =>
    let r := powMod k (b * b % m) (e / 2) m
    if e % 2 = 1 then b * r % m else r

/-- Inverse modulo an odd prime below 2^384 (Fermat). -/
def invMod (a m : Nat) : Nat := powMod 384 (a % m) (m - 2) m

/-- Point addition on the curve, none the point at infinity. -/
def p384Add (a b : Option (Nat × Nat)) : Option (Nat × Nat) :=
  match a, b with
  | none, b => b
  | a, none => a
  | some (x1, y1), some (x2, y2) =>
    if x1 = x2 ∧ (y1 + y2) % p384P = 0 then none
    else
      let l := if x1 = x2 then (3 * x1 * x1 + p384P - 3) * invMod (2 * y1) p384P % p384P
               else (y2 + p384P - y1) * invMod (x2 + p384P - x1) p384P % p384P
      let x := (l * l + 2 * p384P - x1 - x2) % p384P
      some (x, (l * (x1 + p384P - x) + p384P - y1) % p384P)

/-- Scalar multiplication by the low `k` bits. -/
def p384Mul : Nat → Nat → Option (Nat × Nat) → Option (Nat × Nat)
  | 0, _, _ => none
  | k + 1, e, a =>
    if e = 0 then none
    else
      let r := p384Mul k (e / 2) (p384Add a a)
      if e % 2 = 1 then p384Add a r else r

/-- ECDSA verification with a SEC1 uncompressed public key (97 bytes), r then s (96 bytes), and a SHA-384 digest (16 R391). -/
def ecdsaVerify (pub sig digest : List Byte) : Bool :=
  let x := beNat (slice pub 1 48)
  let y := beNat (slice pub 49 48)
  let r := beNat (slice sig 0 48)
  let s := beNat (slice sig 48 48)
  let onCurve := (y * y) % p384P == (x * x * x + p384P * 3 - 3 * x + p384B) % p384P
  if pub.length != 97 || sig.length != 96 || leAt pub 0 1 != 4 || !onCurve || r == 0 || s == 0
      || decide (p384P ≤ x) || decide (p384P ≤ y) || decide (p384N ≤ r) || decide (p384N ≤ s) then false
  else
    let w := invMod s p384N
    let e := beNat digest
    match p384Add (p384Mul 384 (e * w % p384N) (some (p384Gx, p384Gy))) (p384Mul 384 (r * w % p384N) (some (x, y))) with
    | none => false
    | some (px, _) => px % p384N == r

/-- Some public key with the SHA-384 given verifies the signature over the digest: the keys a signature can belong to are recovered
from it, since the module holds only the digest of an owner key (16 R399). -/
def ecdsaByDigest (keyDigest sig digest : List Byte) : Bool :=
  let r := beNat (slice sig 0 48)
  let s := beNat (slice sig 48 48)
  let ri := invMod r p384N
  let e := beNat digest % p384N
  let try_ (x y : Nat) : Bool :=
    match p384Add (p384Mul 384 (s * ri % p384N) (some (x, y))) (p384Mul 384 (e * ri % p384N) (some (p384Gx, p384P - p384Gy))) with
    | none => false
    | some (qx, qy) =>
      let key := 4#8 :: (beBytes 48 qx ++ beBytes 48 qy)
      sha384 key == keyDigest && ecdsaVerify key sig digest
  sig.length == 96 && r != 0 && [r, r + p384N].any (fun x =>
    let y := powMod 384 ((x * x * x + 3 * p384P - 3 * x + p384B) % p384P) ((p384P + 1) / 4) p384P
    decide (x < p384P) && (try_ x y || try_ x (p384P - y)))

end Sys2Proof
end

