-- ==== Sys2Proof/Machine/CfgOps.lean ====
section
/-!
DEFINITION. Reading configuration fields, their ranges and the cross-field conditions (16 R393, R400, R401).
-/
namespace Sys2Proof

/-- The row of a scalar field. -/
def Cfg.rowOf (id : Nat) : Option CfgRow := Cfg.rows.find? (fun r => r.id == id)

/-- The row of a structured field. -/
def Cfg.blobRowOf (id : Nat) : Option CfgBlobRow := Cfg.blobRows.find? (fun r => r.id == id)

/-- A scalar field's value in force, its default where no entry sets it (R393). -/
def Cfg.int (c : Cfg) (id : Nat) : Int :=
  (KMap.find c.scal id).getD (((Cfg.rowOf id).map (·.dflt)).getD 0)

/-- A nonnegative scalar field. -/
def Cfg.nat (c : Cfg) (id : Nat) : Nat := (c.int id).toNat

/-- A structured field's bytes in force. -/
def Cfg.bytes (c : Cfg) (id : Nat) : List Byte :=
  (KMap.find c.blob id).getD (((Cfg.blobRowOf id).map (·.dflt)).getD [])

def Cfg.transientLimit (c : Cfg) : Nat := c.nat 0x0A01
def Cfg.transientWindow (c : Cfg) : Nat := c.nat 0x0A02
def Cfg.suspectS (c : Cfg) : Nat := c.nat 0x0A03
def Cfg.suspectW (c : Cfg) : Nat := c.nat 0x0A04
def Cfg.lateMargin (c : Cfg) : Nat := c.nat 0x0A05
def Cfg.suspectShadow (c : Cfg) : Nat := c.nat 0x0A06
def Cfg.directSteps (c : Cfg) : Nat := c.nat 0x0A07
def Cfg.directTemp (c : Cfg) : Nat := c.nat 0x0A08
def Cfg.directUtil (c : Cfg) : Nat := c.nat 0x0A09
def Cfg.escalateCount (c : Cfg) : Nat := c.nat 0x0B01
def Cfg.escalateWindow (c : Cfg) : Nat := c.nat 0x0B02
def Cfg.reexecLimit (c : Cfg) : Nat := c.nat 0x0B03
def Cfg.hangFwUs (c : Cfg) : Nat := c.nat 0x0B04
def Cfg.hangHwUs (c : Cfg) : Nat := c.nat 0x0B05
def Cfg.hangFabricMs (c : Cfg) : Nat := c.nat 0x0B06
def Cfg.coordBeatUs (c : Cfg) : Nat := c.nat 0x0B07
def Cfg.coordLeaseUs (c : Cfg) : Nat := c.nat 0x0B08
def Cfg.coordProbeUs (c : Cfg) : Nat := c.nat 0x0B09
def Cfg.coordExtend (c : Cfg) : Nat := c.nat 0x0B0A
def Cfg.coordCollectUs (c : Cfg) : Nat := c.nat 0x0B0B
def Cfg.coordInterlock (c : Cfg) : Bool := c.nat 0x0B0C == 1
def Cfg.geyRegionMib (c : Cfg) : Nat := c.nat 0x0C01
def Cfg.geyCkptEvery (c : Cfg) : Nat := c.nat 0x0C02
def Cfg.geyCkptTimeoutS (c : Cfg) : Nat := c.nat 0x0C03
def Cfg.geyGwCount (c : Cfg) : Nat := c.nat 0x0C04
def Cfg.geyUdpPort (c : Cfg) : Nat := c.nat 0x0C06
def Cfg.geyStreams (c : Cfg) : Nat := c.nat 0x0C07
def Cfg.geyRtoUs (c : Cfg) : Nat := c.nat 0x0C08
def Cfg.treeWait (c : Cfg) : Nat := c.nat 0x0D01
def Cfg.hopTicks (c : Cfg) : Nat := c.nat 0x0D02
def Cfg.fleetSize (c : Cfg) : Nat := c.nat 0x0D03
def Cfg.stragMargin (c : Cfg) : Nat := c.nat 0x0D04
def Cfg.stragS (c : Cfg) : Nat := c.nat 0x0D05
def Cfg.stragW (c : Cfg) : Nat := c.nat 0x0D06
def Cfg.driftEnter (c : Cfg) : Nat := c.nat 0x0D07
def Cfg.driftExit (c : Cfg) : Nat := c.nat 0x0D08
def Cfg.driftMinN (c : Cfg) : Nat := c.nat 0x0D09
def Cfg.driftMask (c : Cfg) : Nat := c.nat 0x0D0A
def Cfg.ventUdpPort (c : Cfg) : Nat := c.nat 0x0D0B
def Cfg.ventLeaseMaxS (c : Cfg) : Nat := c.nat 0x0D0D
def Cfg.ventBudgetMbps (c : Cfg) : Nat := c.nat 0x0D0E
def Cfg.ventMaxAge (c : Cfg) : Nat := c.nat 0x0D0F
def Cfg.evrFoldTicks (c : Cfg) : Nat := c.nat 0x0E01
def Cfg.evrFreezeMaxMs (c : Cfg) : Nat := c.nat 0x0E02
def Cfg.evrClearChannels (c : Cfg) : Nat := c.nat 0x0E03
def Cfg.pwrDefaultGrant (c : Cfg) : Nat := c.nat 0x0F01
def Cfg.pwrGrantChannels (c : Cfg) : Nat := c.nat 0x0F02
def Cfg.pwrCeilingW (c : Cfg) : Nat := c.nat 0x0F03
def Cfg.pwrLaunchSpacing (c : Cfg) : Nat := c.nat 0x0F04
def Cfg.tjThrottle (c : Cfg) : Nat := c.nat 0x0F05
def Cfg.launchMargin (c : Cfg) : Nat := c.nat 0x1001
def Cfg.hostLossPolicy (c : Cfg) : Nat := c.nat 0x1002
def Cfg.hostHbWindowMs (c : Cfg) : Nat := c.nat 0x1003
def Cfg.batchRows (c : Cfg) : Nat := c.nat 0x1004
def Cfg.batchWait (c : Cfg) : Nat := c.nat 0x1005
def Cfg.tsliceReserveMib (c : Cfg) : Nat := c.nat 0x1006
def Cfg.scrubShare (c : Cfg) : Nat := c.nat 0x1007
def Cfg.geySlotEvery (c : Cfg) : Nat := c.nat 0x1008
def Cfg.calGapPhase (c : Cfg) : Nat := c.nat 0x1009
def Cfg.hbmPcReserve (c : Cfg) : Nat := c.nat 0x100A
def Cfg.hbmPcUeLimit (c : Cfg) : Nat := c.nat 0x100B
/-- CFG_FAB_EXTENT_X, _Y, _Z, _G for dimension d = 0..3 (R135). -/
def Cfg.extent (c : Cfg) (d : Nat) : Nat := c.nat (0x100C + d)
def Cfg.fabWrap (c : Cfg) : Nat := c.nat 0x1010
def Cfg.fabMaxAge (c : Cfg) : Nat := c.nat 0x1011
def Cfg.prtDivision (c : Cfg) : Nat := c.nat 0x1012
def Cfg.learnEmpty (c : Cfg) : Bool := c.nat 0x1014 == 1
def Cfg.acceptMap (c : Cfg) : Bool := c.nat 0x1015 == 1
def Cfg.timEntry (c : Cfg) : Bool := c.nat 0x101A == 1
def Cfg.epochSec (c : Cfg) : Nat := c.nat 0x101B
def Cfg.rootPrio (c : Cfg) : Nat := c.nat 0x101C
def Cfg.slewPpb (c : Cfg) : Nat := c.nat 0x101D
def Cfg.ptpLimitUs (c : Cfg) : Nat := c.nat 0x101E
def Cfg.ptpMaster (c : Cfg) : Nat := c.nat 0x101F
def Cfg.ptpDomain (c : Cfg) : Nat := c.nat 0x1020
def Cfg.detLevel (c : Cfg) : Nat := c.nat 0x1024
def Cfg.releaseTicks (c : Cfg) : Nat := c.nat 0x1025
def Cfg.acceptChannels (c : Cfg) : Nat := c.nat 0x1026

/-- CFG_PRT_DIR of a fabric port. -/
def Cfg.prtDir (c : Cfg) (i : Nat) : Nat := leAt (c.bytes 0x1013) i 1
/-- CFG_PRT_EDGE_ROLE of edge port k: bit 0 Geyser, bit 1 Vent, bit 2 PTP (R201). -/
def Cfg.edgeRole (c : Cfg) (k : Nat) : Nat := leAt (c.bytes 0x1016) k 1
/-- The IPv6 address of edge port k, as sent on the wire. -/
def Cfg.edgeAddr (c : Cfg) (k : Nat) : Nat := beNat (slice (c.bytes 0x1017) (17 * k) 16)
def Cfg.edgePrefixLen (c : Cfg) (k : Nat) : Nat := leAt (c.bytes 0x1017) (17 * k + 16) 1
/-- VID and PCP of role r (0 Geyser, 1 Vent, 2 PTP). -/
def Cfg.vlanVid (c : Cfg) (r : Nat) : Nat := leAt (c.bytes 0x1019) (3 * r) 2
/-- Gateway g: address and UDP port (Table 12.7). -/
def Cfg.gwAddr (c : Cfg) (g : Nat) : Nat := beNat (slice (c.bytes 0x0C05) (18 * g) 16)
def Cfg.gwPort (c : Cfg) (g : Nat) : Nat := leAt (c.bytes 0x0C05) (18 * g + 16) 2
/-- Entry n of CFG_GEY_NARROW: TENSOR_ID and target (R323). -/
def Cfg.narrow (c : Cfg) (n : Nat) : Nat × Nat :=
  (leAt (c.bytes 0x0C09) (5 * n) 4, leAt (c.bytes 0x0C09) (5 * n + 4) 1)
/-- The narrowing target of a tensor, if listed. -/
def Cfg.narrowOf (c : Cfg) (t : Nat) : Option Nat :=
  ((List.range 32).find? (fun n => (c.narrow n).1 == t && t != 0)).map (fun n => (c.narrow n).2)
/-- The used prefixes of CFG_VENT_ALLOW: address and length. -/
def Cfg.ventAllow (c : Cfg) : List (Nat × Nat) :=
  ((List.range 8).map (fun n => (beNat (slice (c.bytes 0x0D0C) (17 * n) 16), leAt (c.bytes 0x0D0C) (17 * n + 16) 1))).filter
    (fun p => p.2 != 0)
/-- An address lies in some used prefix of CFG_VENT_ALLOW (R347). -/
def Cfg.ventAllows (c : Cfg) (a : Nat) : Bool :=
  (c.ventAllow).any (fun p => p.1 >>> (128 - p.2) == a >>> (128 - p.2))
/-- Static subscriptions: address, port, SUB_ID, body bytes. -/
def Cfg.ventStatic (c : Cfg) : List (Nat × Nat × Nat × List Byte) :=
  (List.range ((c.bytes 0x0D10).length / 36)).map (fun n =>
    (beNat (slice (c.bytes 0x0D10) (36 * n) 16), leAt (c.bytes 0x0D10) (36 * n + 16) 2,
      leAt (c.bytes 0x0D10) (36 * n + 18) 2, slice (c.bytes 0x0D10) (36 * n + 20) 16))

/-- W of R103: slots in a scrub window. -/
def Cfg.scrubWindow (c : Cfg) : Nat := 64 * 2 ^ c.scrubShare
/-- The allocatable capacity C of R105, in bytes. -/
def Cfg.allocatable (c : Cfg) : Nat := (16 - c.hbmPcReserve) * 2 ^ 31
/-- Program space of a partition (R105). -/
def Cfg.programSpace (c : Cfg) : Nat :=
  c.allocatable - c.geyRegionMib * 2 ^ 20 - c.tsliceReserveMib * 2 ^ 20 - c.allocatable / 512
/-- The regions fit the allocatable capacity (R105). -/
def Cfg.regionsFit (c : Cfg) : Bool :=
  decide (c.geyRegionMib * 2 ^ 20 + c.tsliceReserveMib * 2 ^ 20 + c.allocatable / 512 ≤ c.allocatable)

/-- Values inside a field's interval that its row still excludes (Tables 10.5, 12.7, 15.8, 16.7). -/
def Cfg.valueOk (r : CfgRow) (v : Int) : Bool :=
  decide (r.lo ≤ v) && decide (v ≤ r.hi) &&
  (if r.id = 0x0A06 then v == 8 || v == 16 || v == 32
   else if r.id = 0x0C01 then v % 2 == 0
   else if r.id = 0x0F03 then v == 0 || decide (1000 ≤ v)
   else if r.id = 0x1006 then v % 3 == 0
   else if r.id = 0x1008 then v == 4 || v == 8 || v == 16
   else true)

/-- A structured field's encoding lies in its ranges (R393, R401, Tables 12.7, 13.9, 16.7). -/
def Cfg.blobOk (r : CfgBlobRow) (v : List Byte) : Bool :=
  decide (r.lenLo ≤ v.length) && decide (v.length ≤ r.lenHi) &&
  (if r.id = 0x0D10 then v.length % 36 == 0
   else if r.id = 0x1013 then v.all (fun b => decide (b.toNat ≤ 15))
   else if r.id = 0x1016 then v.all (fun b => decide (b.toNat ≤ 7))
   else if r.id = 0x0C09 then (List.range 32).all (fun n =>
     leAt v (5 * n) 4 == 0 || leAt v (5 * n + 4) 1 == 1 || leAt v (5 * n + 4) 1 == 2)
   else if r.id = 0x0D0C then (List.range 8).all (fun n => decide (leAt v (17 * n + 16) 1 ≤ 128))
   else if r.id = 0x1017 then (List.range 4).all (fun k =>
     decide (leAt v (17 * k + 16) 1 ≤ 128) && (leAt v (17 * k + 16) 1 == 0 || beNat (slice v (17 * k) 16) != 0))
   else if r.id = 0x1019 then (List.range 3).all (fun k => decide (leAt v (3 * k) 2 < 4096) && decide (leAt v (3 * k + 2) 1 < 8))
   else true)

/-- x² for an FP32 bit pattern of a normal positive value, as m²·2^e scaled by 2^46 at 1.0. -/
def fp32SqScaled (b : Nat) : Nat := (0x800000 + b % 0x800000) ^ 2 * 2 ^ (2 * (b / 0x800000)) / 2 ^ 254

/-- Edge port k holds an address (R401). -/
def Cfg.edgeHolds (c : Cfg) (k : Nat) : Bool := c.edgePrefixLen k != 0

/-- The members of a CUSTOM division are 0–7 or 0xF (Table 7.7a). -/
def Cfg.customOk (c : Cfg) : Bool :=
  (List.range 32).all (fun i => decide (c.prtDir i ≤ 7) || c.prtDir i == 15) &&
  (List.range 4).all (fun d =>
    let up := ((List.range 32).filter (fun i => c.prtDir i == 2 * d)).length
    let dn := ((List.range 32).filter (fun i => c.prtDir i == 2 * d + 1)).length
    up == dn && (decide (c.extent d ≤ 1) || decide (0 < up)))

/-- The cross-field conditions that depend on neither locus nor fault map (reject code 0x0A): R193, R237, R269,
R301, R346, R352 and R401. -/
def Cfg.crossOk (c : Cfg) : Bool :=
  (if c.prtDivision = 1 then c.extent 3 == 1 else if c.prtDivision = 2 then c.customOk else true) &&
  decide (2 * c.releaseTicks < c.fabMaxAge) &&
  decide (c.suspectS ≤ c.suspectW) &&
  decide (4 * c.coordBeatUs ≤ c.coordLeaseUs) &&
  decide (fp32SqScaled c.driftEnter < (c.driftMinN - 1) * 2 ^ 46) &&
  decide (c.stragS ≤ c.stragW) && decide (c.driftExit < c.driftEnter) &&
  (List.range 4).all (fun i => (List.range 4).all (fun j =>
    i == j || !(c.edgeHolds i && c.edgeHolds j) || c.edgeAddr i != c.edgeAddr j)) &&
  (c.geyGwCount == 0 || (List.range 4).all (fun k => !(c.edgeRole k).testBit 0 || c.edgeHolds k)) &&
  ((c.ventAllow.isEmpty && (c.bytes 0x0D10).isEmpty) ||
    (List.range 4).all (fun k => !(c.edgeRole k).testBit 1 || c.edgeHolds k))

/-- The encoding of an integer in 8 bytes of two's complement, little-endian (R393). -/
def cfgScalarBytes (v : Int) : List Byte := leBytes 8 (ofInt 64 v)

/-- One configuration entry, padded to a multiple of 4 (R393). -/
def cfgEntry (id : Nat) (v : List Byte) : List Byte :=
  leBytes 2 id ++ leBytes 2 v.length ++ v ++ List.replicate (ceilDiv v.length 4 * 4 - v.length) 0

/-- Every FIELD_ID with its value in force encoded, in ascending order (R400). -/
def Cfg.encoded (c : Cfg) : List Byte :=
  let all := Cfg.rows.map (fun r => (r.id, cfgScalarBytes (c.int r.id))) ++ Cfg.blobRows.map (fun r => (r.id, c.bytes r.id))
  let m := all.foldl (fun (acc : KMap (List Byte)) e => KMap.put acc e.1 e.2) []
  (m.map (fun e => cfgEntry e.1 e.2)).flatten

/-- The live fields of R398. -/
def Cfg.liveIds : List Nat := [0x1014, 0x1015, 0x1026, 0x0C02, 0x0C04, 0x0C05, 0x0D0C, 0x0D0E, 0x0E03, 0x0F02]

/-- The configuration `old` with the live fields of `new` (R398). -/
def Cfg.withLive (old new : Cfg) : Cfg :=
  Cfg.liveIds.foldl (fun c id =>
    match Cfg.rowOf id with
    | some _ => { c with scal := KMap.put c.scal id (new.int id) }
    | none => { c with blob := KMap.put c.blob id (new.bytes id) }) old

/-- The first failure of a list of configuration entries: 0x09 for an entry, with the configuration they give. -/
def Cfg.parseEntries : Nat → List Byte → Nat → Cfg → Option Cfg
  | 0, bs, _, c => if bs.isEmpty then some c else none
  | n + 1, bs, last, c =>
    let id := leAt bs 0 2
    let len := leAt bs 2 2
    let v := slice bs 4 len
    let rest := bs.drop (4 + ceilDiv len 4 * 4)
    let padOk := (slice bs (4 + len) (ceilDiv len 4 * 4 - len)).all (· == 0)
    if id ≤ last || v.length != len || !padOk then none
    else match Cfg.rowOf id with
      | some r =>
        let raw := leNat v
        let val : Int := if id = 0x0D07 ∨ id = 0x0D08 then (raw : Int) else toInt 64 raw
        if len == 8 && Cfg.valueOk r val then
          Cfg.parseEntries n rest id { c with scal := if val = r.dflt then c.scal else KMap.put c.scal id val }
        else none
      | none =>
        match Cfg.blobRowOf id with
        | some r =>
          if Cfg.blobOk r v then
            Cfg.parseEntries n rest id { c with blob := if v = r.dflt then c.blob else KMap.put c.blob id v }
          else none
        | none => none

end Sys2Proof
end

