-- ==== Sys2Proof/Machine/Operands.lean ====
section
/-!
DEFINITION. Operand forms: the element formats and MX blocks of Tables 2.1 and 2.2, how elements are packed
in bytes (R31), the value of an element (R30, R32, R33), and the operand pairs of Table 2.3 (R34).
-/
namespace Sys2Proof

/-- A row of Table 2.1: width, exponent and mantissa bits, bias, whether Inf exists, the largest unbiased exponent. -/
structure Fmt where
  bits : Nat
  eBits : Nat
  mBits : Nat
  bias : Nat
  hasInf : Bool
  hasNan : Bool
  emax : Nat
  deriving DecidableEq, Repr

/-- The floating formats of Table 2.1, by format code. -/
def fmtOf : Nat → Option Fmt
  | 0x0 => some ⟨32, 8, 23, 127, true, true, 127⟩
  | 0x1 => some ⟨16, 8, 7, 127, true, true, 127⟩
  | 0x2 => some ⟨16, 5, 10, 15, true, true, 15⟩
  | 0x3 => some ⟨8, 4, 3, 7, false, true, 8⟩
  | 0x4 => some ⟨8, 5, 2, 15, true, true, 15⟩
  | 0x5 => some ⟨6, 2, 3, 1, false, false, 2⟩
  | 0x6 => some ⟨6, 3, 2, 3, false, false, 4⟩
  | 0x7 => some ⟨4, 2, 1, 1, false, false, 2⟩
  | _ => none

/-- The format is MX (Table 2.2). -/
def isMx (code : Nat) : Bool := decide (0xA ≤ code) && decide (code ≤ 0xE)

/-- The element format of an MX format; any other format is its own (Table 2.2). -/
def elemFmt : Nat → Nat
  | 0xA => 0x3 | 0xB => 0x4 | 0xC => 0x5 | 0xD => 0x6 | 0xE => 0x7 | c => c

/-- Bits of one element in storage (Table 2.1, R31). -/
def elemBits (code : Nat) : Nat :=
  match elemFmt code with
  | 0x0 => 32 | 0x1 => 16 | 0x2 => 16 | 0x3 => 8 | 0x4 => 8 | 0x5 => 6 | 0x6 => 6 | 0x7 => 4 | 0x8 => 8 | 0x9 => 32
  | _ => 0

/-- Elements of a 4 KiB tensor block (Table 4.3). -/
def elemsPerBlock (code : Nat) : Nat :=
  match elemBits code with
  | 32 => 1024 | 16 => 2048 | 8 => 4096 | 6 => 5440 | 4 => 8192 | _ => 4096

/-- A value a term or a conversion meets. A finite nonzero value is (−1)^neg × m × 2^q with m > 0 (02 R30). -/
inductive Val where
  | zero (neg : Bool)
  | fin (neg : Bool) (m : Nat) (q : Int)
  | inf (neg : Bool)
  | nan
  deriving DecidableEq, Repr

/-- The value of a bit pattern of format `code` (R30, R33). -/
def decodeElem (code bits : Nat) : Val :=
  match code with
  | 0x8 => let v := toInt 8 bits
           if v = 0 then .zero false else .fin (decide (v < 0)) v.natAbs 0
  | 0x9 => let v := toInt 32 bits
           if v = 0 then .zero false else .fin (decide (v < 0)) v.natAbs 0
  | _ => match fmtOf code with
    | none => .nan
    | some f =>
      let sgn := bits.testBit (f.bits - 1)
      let e := bitsOf bits (f.bits - 2) f.mBits
      let m := bits % 2 ^ f.mBits
      let top := 2 ^ f.eBits - 1
      if f.hasInf && e == top then (if m = 0 then .inf sgn else .nan)
      else if f.hasNan && !f.hasInf && e == top && m == 2 ^ f.mBits - 1 then .nan
      else if e = 0 then
        if m = 0 then .zero sgn else .fin sgn m (1 - (f.bias : Int) - f.mBits)
      else .fin sgn (2 ^ f.mBits + m) ((e : Int) - f.bias - f.mBits)

/-- The value of an element of an MX block with scale byte X: scale × element, NaN where X = 0xFF (R32). -/
def decodeMx (code bits x : Nat) : Val :=
  if x = 0xFF then .nan
  else match decodeElem (elemFmt code) bits with
    | .fin n m q => .fin n m (q + x - 127)
    | v => v

/-- An array or vector operand element as delivered: its bits and, for MX, its block scale byte (R32). -/
structure Elem where
  bits : Nat
  scale : Nat
  deriving DecidableEq, Repr

/-- The value of an element of format `code`. -/
def Elem.val (code : Nat) (e : Elem) : Val :=
  if isMx code then decodeMx code e.bits e.scale else decodeElem code e.bits

/-- E(x) = floor(log2 |x|) of a finite nonzero value (R30). -/
def Val.expo : Val → Option Int
  | .fin _ m q => some ((Nat.log2 m : Int) + q)
  | _ => none

def Val.isNan : Val → Bool
  | .nan => true
  | _ => false
def Val.isInf : Val → Bool
  | .inf _ => true
  | _ => false
def Val.isZero : Val → Bool
  | .zero _ => true
  | _ => false
def Val.neg : Val → Bool
  | .zero n => n
  | .fin n _ _ => n
  | .inf n => n
  | .nan => false

/-- The class of Table 2.3 an operand format belongs to: 0 BF16, 1 FP16, 2 FP8 or FP6, 3 INT8, 4 FP4. -/
def pairClass (code : Nat) : Option Nat :=
  match elemFmt code with
  | 0x1 => some 0 | 0x2 => some 1 | 0x3 => some 2 | 0x4 => some 2 | 0x5 => some 2 | 0x6 => some 2
  | 0x8 => some 3 | 0x7 => some 4 | _ => none

/-- FP8 operands, plain or MX. -/
def isFp8 (code : Nat) : Bool := elemFmt code == 3 || elemFmt code == 4
/-- FP6 operands, plain or MX. -/
def isFp6 (code : Nat) : Bool := elemFmt code == 5 || elemFmt code == 6

/-- The depth per cycle of an operand pair, none where Table 2.3 does not list the pair (R34). -/
def pairDepth (a b : Nat) : Option Nat :=
  match pairClass a, pairClass b with
  | some 0, some 0 => some 1
  | some 1, some 1 => some 1
  | some 2, some 2 => some 2
  | some 3, some 3 => some 2
  | some 4, some 4 => some 4
  | some 4, some 2 => some 2
  | _, _ => none

/-- Element i of a packed byte list (R31): FP4 two to a byte, FP6 four to three bytes, wider formats little-endian. -/
def unpackElem (code : Nat) (bytes : List Byte) (i : Nat) : Nat :=
  match elemBits code with
  | 4 => (leAt bytes (i / 2) 1 >>> (4 * (i % 2))) % 16
  | 6 => (leAt bytes (3 * (i / 4)) 3 >>> (6 * (i % 4))) % 64
  | 8 => leAt bytes i 1
  | 16 => leAt bytes (2 * i) 2
  | 32 => leAt bytes (4 * i) 4
  | _ => 0

/-- A list of element bit patterns packed into bytes (R31). -/
def packElems (code : Nat) (es : List Nat) : List Byte :=
  match elemBits code with
  | 4 => (List.range (ceilDiv es.length 2)).map (fun i =>
      BitVec.ofNat 8 (es.getD (2 * i) 0 % 16 + 16 * (es.getD (2 * i + 1) 0 % 16)))
  | 6 => ((List.range (ceilDiv es.length 4)).map (fun i =>
      leBytes 3 (es.getD (4 * i) 0 % 64 + 2 ^ 6 * (es.getD (4 * i + 1) 0 % 64)
        + 2 ^ 12 * (es.getD (4 * i + 2) 0 % 64) + 2 ^ 18 * (es.getD (4 * i + 3) 0 % 64)))).flatten
  | 8 => es.map (BitVec.ofNat 8)
  | 16 => (es.map (leBytes 2)).flatten
  | 32 => (es.map (leBytes 4)).flatten
  | _ => []

end Sys2Proof
end

