-- ==== Sys2Proof/Machine/Flags.lean ====
section
/-!
DEFINITION. The flag computations: the window flags of Table 2.4 (R38, R39, R46), the result a sum's flags give
(Table 2.6), and the operator status bits (R45, R49, R74, R92).
-/
namespace Sys2Proof

/-- The FLAGS side field of a window: NAN [3], PINF [2], NINF [1], INEXACT [0] (Table 2.4). -/
structure WFlags where
  nan : Bool := false
  pinf : Bool := false
  ninf : Bool := false
  inexact : Bool := false
  deriving DecidableEq, Repr

/-- Flags combine by OR, wherever the partial sums meet (R46). -/
def WFlags.or (a b : WFlags) : WFlags :=
  ⟨a.nan || b.nan, a.pinf || b.pinf, a.ninf || b.ninf, a.inexact || b.inexact⟩

/-- No flag set. -/
def WFlags.clear : WFlags := {}

/-- The flag nibble. -/
def WFlags.nibble (f : WFlags) : Nat := 8 * b2n f.nan + 4 * b2n f.pinf + 2 * b2n f.ninf + b2n f.inexact

/-- The flags of a nibble. -/
def WFlags.ofNibble (n : Nat) : WFlags := ⟨n.testBit 3, n.testBit 2, n.testBit 1, n.testBit 0⟩

/-- The special flags of a product term (R46). -/
def prodFlags (a b : Val) : WFlags :=
  if a.isNan || b.isNan then { nan := true }
  else if a.isInf && b.isZero || a.isZero && b.isInf then { nan := true }
  else if a.isInf || b.isInf then
    (if a.neg != b.neg then { ninf := true } else { pinf := true })
  else {}

/-- The special flags of a value term (R46). -/
def valFlags (x : Val) : WFlags :=
  match x with
  | .nan => { nan := true }
  | .inf n => if n then { ninf := true } else { pinf := true }
  | _ => {}

/-- What a sum's flags make of its result (Table 2.6): a special value, or none where S is converted. -/
def WFlags.special (f : WFlags) : Option Val :=
  if f.nan then some .nan
  else if f.pinf && f.ninf then some .nan
  else if f.pinf then some (.inf false)
  else if f.ninf then some (.inf true)
  else none

/-- An operator's status bits: OVF (R49), ANCHOR_VIOLATION (R45), SPARSE_META (R74), ADDR_ERR (R92). -/
structure OpStatus where
  ovf : Bool := false
  anchorViolation : Bool := false
  sparseMeta : Bool := false
  addrErr : Bool := false
  inexact : Bool := false
  deriving DecidableEq, Repr

/-- Status bits accumulate over an operator. -/
def OpStatus.or (a b : OpStatus) : OpStatus :=
  ⟨a.ovf || b.ovf, a.anchorViolation || b.anchorViolation, a.sparseMeta || b.sparseMeta, a.addrErr || b.addrErr,
    a.inexact || b.inexact⟩

/-- The status flags as one word for the shadow digest (R257); the places of the bits are not in the source (log 16). -/
def OpStatus.word (s : OpStatus) : Nat :=
  b2n s.ovf + 2 * b2n s.anchorViolation + 4 * b2n s.sparseMeta + 8 * b2n s.addrErr

end Sys2Proof
end

