-- ==== Sys2Proof/Machine/Arith.lean ====
section
/-!
DEFINITION. Anchored accumulation (02_arithmetic): exponent bounds and anchors (R35, R36), terms truncated on the
grid (R39, R43), the two windows (R38, R43), output conversion (R47 to R49, R52), MX quantisation (R50) and the
counter-based generator (R51).
-/
namespace Sys2Proof

/-- The anchor of a group with no finite nonzero term (R35). -/
def emptyAnchor : Int := -32768

/-- The larger of two exponent bounds, where a group may have none. -/
def maxBound : Option Int → Option Int → Option Int
  | none, b => b
  | a, none => a
  | some a, some b => some (max a b)

/-- The largest of a list of exponent bounds. -/
def maxBounds : List (Option Int) → Option Int
  | [] => none
  | x :: xs => maxBound x (maxBounds xs)

/-- The exponent bound of a product term (R35). -/
def prodBound (a b : Val) : Option Int :=
  match a.expo, b.expo with
  | some x, some y => some (x + y + 1)
  | _, _ => none

/-- E(x) of an element under an anchor source: the element's own exponent (EXACT), or X − 127 + emax of its block
scale (SCALE), where a scale of 0xFF contributes no bound (R36). -/
def anchorExpo (src code : Nat) (e : Elem) : Option Int :=
  if src = 1 then
    if e.scale = 0xFF then none
    else (fmtOf (elemFmt code)).map (fun f => (e.scale : Int) - 127 + f.emax)
  else (e.val code).expo

/-- The anchor a group's largest bound gives (R35). -/
def anchorOf (b : Option Int) : Int := b.getD emptyAnchor

/-- m × 2^s floored towards zero, and whether a nonzero bit was discarded. -/
def shiftTrunc (m : Nat) (s : Int) : Nat × Bool :=
  if 0 < s then (m >>> s.toNat, m % 2 ^ s.toNat != 0) else (m <<< (-s).toNat, false)

/-- array_term of R39: the integer term of a pair in units of 2^(anchor−63), and INEXACT. -/
def arrayTerm (a b : Val) (anchor : Int) : Int × Bool :=
  match a, b with
  | .fin na ma qa, .fin nb mb qb =>
    let r := shiftTrunc mb ((anchor - 63) - qa - qb)
    let mag : Int := (ma : Int) * (r.1 : Int)
    (if na != nb then -mag else mag, r.2)
  | _, _ => (0, false)

/-- t_h(b) of R42 in units of 2^h: b truncated toward zero at 2^h, signed. -/
def truncAt (b : Val) (h : Int) : Int :=
  match b with
  | .fin n m q => let r := (shiftTrunc m (h - q)).1
                  if n then -(r : Int) else (r : Int)
  | _ => 0

/-- The check column's term for one reduction index (R42, R249): a × the sum of the truncated B elements. -/
def checkTerm (a : Val) (bs : List Val) (anchor : Int) : Int :=
  match a with
  | .fin na ma qa =>
    let s := (bs.map (fun b => truncAt b ((anchor - 63) - qa))).sum
    if na then -((ma : Int) * s) else (ma : Int) * s
  | _ => 0

/-- square_term of R43: a value on the grid 2^(anchor−95), and INEXACT. -/
def squareTerm (x : Val) (anchor : Int) : Int × Bool :=
  match x with
  | .fin n m q =>
    let r := shiftTrunc m ((anchor - 95) - q)
    (if n then -(r.1 : Int) else (r.1 : Int), r.2)
  | _ => (0, false)

/-- The array window of Table 2.4. -/
structure Window where
  s : Win96
  anchor : Int
  flags : WFlags
  deriving DecidableEq, Repr

/-- A cleared window with an anchor loaded. -/
def Window.clear (anchor : Int) : Window := { s := 0#96, anchor, flags := {} }

/-- Add a product term to a window (R38, R39, R46). -/
def Window.addProd (w : Window) (a b : Val) : Window :=
  let t := arrayTerm a b w.anchor
  { w with s := w.s + BitVec.ofInt 96 t.1, flags := w.flags.or ((prodFlags a b).or { inexact := t.2 }) }

/-- Add a single-value term on the array grid (R79 sum). -/
def Window.addVal (w : Window) (x : Val) : Window :=
  let r := match x with
    | .fin n m q => let t := shiftTrunc m ((w.anchor - 63) - q)
                    ((if n then -(t.1 : Int) else (t.1 : Int)), t.2)
    | _ => ((0 : Int), false)
  { w with s := w.s + BitVec.ofInt 96 r.1, flags := w.flags.or ((valFlags x).or { inexact := r.2 }) }

/-- Two windows of one anchor are added as integers (R41). -/
def Window.add (a b : Window) : Window := { a with s := a.s + b.s, flags := a.flags.or b.flags }

/-- The Square window of Table 2.5. -/
structure SqWindow where
  s : Win128
  anchor : Int
  flags : WFlags
  deriving DecidableEq, Repr

def SqWindow.clear (anchor : Int) : SqWindow := { s := 0#128, anchor, flags := {} }

/-- A value enters a Square window (R43, R46). -/
def SqWindow.addVal (w : SqWindow) (x : Val) : SqWindow :=
  let t := squareTerm x w.anchor
  { w with s := w.s + BitVec.ofInt 128 t.1, flags := w.flags.or ((valFlags x).or { inexact := t.2 }) }

/-- A raw array window enters a Square as S96 × 2^32, sign-extended (R43). -/
def SqWindow.ofRaw (w : Window) : SqWindow :=
  { s := BitVec.ofInt 128 (w.s.toInt * 2 ^ 32), anchor := w.anchor, flags := w.flags }

/-- Two Square windows are added as integers (R41). -/
def SqWindow.add (a b : SqWindow) : SqWindow := { a with s := a.s + b.s, flags := a.flags.or b.flags }

/-- A term's exponent bound exceeds the anchor it was given (R45). -/
def boundExceeds (b : Option Int) (anchor : Int) : Bool :=
  match b with
  | some x => decide (anchor < x)
  | none => false

/-- The exact value of S × 2^g, an exact zero sum being +0 (R48). -/
def scaledVal (s : Int) (g : Int) : Val :=
  if s = 0 then .zero false else .fin (decide (s < 0)) s.natAbs g

/-- The value a window's flags and S give (Table 2.6). -/
def Window.val (w : Window) : Val := (w.flags.special).getD (scaledVal w.s.toInt (w.anchor - 63))
def SqWindow.val (w : SqWindow) : Val := (w.flags.special).getD (scaledVal w.s.toInt (w.anchor - 95))

/-! ### The generator (R51) -/

/-- mix of R51. -/
def mix (x : Word64) : Word64 :=
  let x := (x ^^^ (x >>> 30)) * 0xBF58476D1CE4E5B9#64
  let x := (x ^^^ (x >>> 27)) * 0x94D049BB133111EB#64
  x ^^^ (x >>> 31)

/-- rng of R51: seed, step counter, tensor, use code, element index. -/
def rng (seed step tensor use index : Nat) : Word64 :=
  let k := mix (BitVec.ofNat 64 seed ^^^ 0x5D31A7C409E26B8F#64)
  let k := mix (k ^^^ BitVec.ofNat 64 (step % 2 ^ 48))
  let k := mix (k ^^^ BitVec.ofNat 64 (use % 256 * 2 ^ 32 + tensor % 2 ^ 32))
  mix (k ^^^ BitVec.ofNat 64 (index % 2 ^ 48))

/-! ### Rounding and conversion (R47 to R49) -/

/-- How a conversion rounds (Table 2.7): RNE, RZ, or SR with its 32 random bits (R52). -/
inductive RMode where
  | rne
  | rz
  | sr (r : Nat)
  deriving DecidableEq, Repr

/-- Round m / 2^s to an integer (s > 0). -/
def roundShift (mode : RMode) (m s : Nat) : Nat :=
  let lo := m >>> s
  let rem := m % 2 ^ s
  match mode with
  | .rz => lo
  | .rne => if 2 * rem < 2 ^ s then lo else if 2 ^ s < 2 * rem then lo + 1 else lo + lo % 2
  | .sr r =>
    let f := if 32 ≤ s then rem >>> (s - 32) else rem <<< (32 - s)
    if 2 ^ 32 ≤ f + r % 2 ^ 32 then lo + 1 else lo

/-- m × 2^q on the grid 2^t, rounded. -/
def roundTo (mode : RMode) (m : Nat) (q t : Int) : Nat :=
  if t ≤ q then m <<< (q - t).toNat else roundShift mode m (t - q).toNat

/-- The largest finite bit pattern of a floating format, without its sign (Table 2.1). -/
def Fmt.maxBits (f : Fmt) : Nat :=
  if f.hasInf then (2 ^ f.eBits - 1) * 2 ^ f.mBits - 1
  else if f.hasNan then 2 ^ (f.eBits + f.mBits) - 2
  else 2 ^ (f.eBits + f.mBits) - 1

/-- The infinity pattern of a format that has one. -/
def Fmt.infBits (f : Fmt) : Nat := (2 ^ f.eBits - 1) * 2 ^ f.mBits

/-- The canonical NaN (R48). -/
def canonNan (code : Nat) : Nat :=
  match code with
  | 0x0 => 0x7FC00000 | 0x1 => 0x7FC0 | 0x2 => 0x7E00 | 0x3 => 0x7F | 0x4 => 0x7F | _ => 0

/-- The magnitude pattern of m × 2^q rounded to a floating format, none where it exceeds the largest finite value. -/
def Fmt.roundMag (f : Fmt) (mode : RMode) (m : Nat) (q : Int) : Option Nat :=
  let p : Int := f.mBits
  let qmin : Int := 1 - (f.bias : Int) - p
  let t := max ((Nat.log2 m : Int) + q - p) qmin
  let r := roundTo mode m q t
  let bits :=
    if r < 2 ^ f.mBits then r
    else if r < 2 ^ (f.mBits + 1) then (t - qmin + 1).toNat * 2 ^ f.mBits + (r - 2 ^ f.mBits)
    else (t - qmin + 2).toNat * 2 ^ f.mBits
  if bits ≤ f.maxBits then some bits else none

/-- Put the sign bit on a magnitude pattern. -/
def Fmt.withSign (f : Fmt) (neg : Bool) (mag : Nat) : Nat := if neg then mag + 2 ^ (f.bits - 1) else mag

/-- Conversion to a plain output format from the exact value, in one rounding (R47 to R49, Table 2.8): the bits and OVF.
`infMode` is OVF_MODE = INF; FP6, FP4, INT8 and INT32 take the columns of Table 2.8 for formats without specials. -/
def convOut (code : Nat) (mode : RMode) (infMode : Bool) (v : Val) : Nat × Bool :=
  if code = 0x8 ∨ code = 0x9 then
    let w := if code = 0x8 then 8 else 32
    match v with
    | .zero _ => (0, false)
    | .nan => (0, true)
    | .inf n => (if n then 2 ^ (w - 1) else 2 ^ (w - 1) - 1, true)
    | .fin n m q =>
      let r := roundTo mode m q 0
      if n then (if r ≤ 2 ^ (w - 1) then ((2 ^ w - r) % 2 ^ w, false) else (2 ^ (w - 1), true))
      else if r ≤ 2 ^ (w - 1) - 1 then (r, false) else (2 ^ (w - 1) - 1, true)
  else match fmtOf code with
    | none => (0, false)
    | some f =>
      let rz := match mode with | .rz => true | _ => false
      match v with
      | .zero n => (f.withSign n 0, false)
      | .nan => if f.hasNan then (canonNan code, false) else (0, true)
      | .inf n =>
        if f.hasInf then (f.withSign n f.infBits, false)
        else if f.hasNan then (if infMode then (canonNan code, false) else (f.withSign n f.maxBits, false))
        else (f.withSign n f.maxBits, true)
      | .fin n m q =>
        match f.roundMag mode m q with
        | some b => (f.withSign n b, false)
        | none =>
          if rz || !infMode then (f.withSign n f.maxBits, true)
          else if f.hasInf then (f.withSign n f.infBits, true)
          else if f.hasNan then (canonNan code, true)
          else (f.withSign n f.maxBits, true)

/-- Conversion of a window or value to FP32 with RNE, as cvt_rne of R80 uses it; overflow gives Inf as R54. -/
def toFp32 (v : Val) : Nat := (convOut 0 .rne true v).1

/-- One MX block quantised (R50): the scale byte, the element patterns, and OVF. `elem` is the element format. -/
def quantMx (elem : Nat) (mode : Nat → RMode) (infMode : Bool) (vs : List Val) : Nat × List Nat × Bool :=
  match fmtOf elem with
  | none => (0xFF, vs.map (fun _ => 0), false)
  | some f =>
    let f32 := vs.map (fun v => convOut 0 .rne infMode v)
    let xs := f32.map (fun r => decodeElem 0 r.1)
    let ovf := f32.any (·.2)
    if xs.any (fun v => v.isNan || v.isInf) then (0xFF, vs.map (fun _ => 0), ovf)
    else
      match maxBounds (xs.map Val.expo) with
      | none => (127, xs.map (fun v => f.withSign v.neg 0), ovf)
      | some e =>
        let xi := e - f.emax + 127
        let x : Nat := if xi < 0 then 0 else if 254 < xi then 254 else xi.toNat
        let els := xs.zipIdx.map (fun p =>
          match p.1 with
          | .fin n m q => convOut elem (mode p.2) false (.fin n m (q - ((x : Int) - 127)))
          | v => convOut elem (mode p.2) false v)
        (x, els.map (·.1), ovf || els.any (·.2))

/-- The rounding mode of an element: SR draws with the output tensor and element index (R52). -/
def rmodeOf (round seed step tensor index : Nat) : RMode :=
  match round with
  | 1 => .rz
  | 2 => .sr ((rng seed step tensor 1 index).toNat % 2 ^ 32)
  | _ => .rne

end Sys2Proof
end

