-- ==== Sys2Proof/Machine/State.lean ====
section
/-!
DEFINITION. The state of one AX-1 module: every register, store, queue, timer and record the manual gives it, as
plain data in one structure per part of the module, the queue of waiting commands, what has left the module, and the
state after reset. An indexed thing is a sparse table; an unlisted entry reads as the `reset` of its structure.
-/
namespace Sys2Proof.Machine

/-! ### What leaves the module -/

/-- A CTRL message (Table 6.10): destination, sequence number and incarnation (R159), step, attempt, PARAM, payload,
and how many copies leave, one from each Caldera half (R289). -/
structure CtrlMsg where
  dst : Nat
  ep : Nat
  seq : Nat
  incarn : Nat
  msg : Nat
  step : Nat
  attempt : Nat
  param : Nat
  payload : List Byte
  copies : Nat
  deriving DecidableEq, Repr

/-- A RESP message (Table 6.10). -/
structure RespMsg where
  dst : Nat
  ep : Nat
  msg : Nat
  step : Nat
  param : Nat
  echo : Bool
  deriving DecidableEq, Repr

/-- One thing the module sends, drives or writes outside itself. -/
inductive Emit where
  | ctrl (m : CtrlMsg)
  | resp (m : RespMsg)
  /-- DATA or BULK packet: destination module and endpoint, domain, step, attempt, packet count. -/
  | data (dst ep domain step attempt seq : Nat) (d : DataPart)
  | red (up : Bool) (dst ep domain step attempt : Nat) (r : RedPkt)
  | tel (up : Bool) (dst domain step attempt : Nat) (t : TelPkt)
  /-- A packet header granted to an output of a die's Crossing. -/
  | forward (die out : Nat) (header : BitVec 512)
  | hostWrite (addr : Nat) (bytes : List Byte)
  | msix (pf vector : Nat)
  /-- An MCTP answer: message type, and its bytes from the completion code on. -/
  | mctp (r : Req) (type : Nat) (body : List Byte)
  /-- A message the module starts towards the tray controller or the energy arbiter (PWR_NOTIFY). -/
  | notify (code : Nat) (body : List Byte)
  | lcf (port : Nat) (flit : BitVec 512)
  /-- A replay of the port's flits from a sequence number on (R175). -/
  | replay (port from_ : Nat)
  /-- A UDP datagram from an edge port: address, destination port, source port, payload. -/
  | datagram (port addr dstPort srcPort : Nat) (payload : List Byte)
  /-- A PTP event or general message from an edge port: type name code, sequence number, time. -/
  | ptp (port type seq seconds nanos : Nat)
  /-- A PTP Announce with the dataset of the root path. -/
  | announce (port seq : Nat) (a : AnnounceData)
  deriving DecidableEq, Repr

/-! ### Registers of event bits, and counters -/

/-- The registers that hold W1C event bits (Tables 3.6, 4.6, 6.12, 7.9, 8.6, 9.10, 10.6, 11.6, 12.8, 13.10, 14.7,
5.10, 15.5, 15.6, 15.7, 16.14). The first ten are the EVENT BIT classes 0x10 to 0x19 of Table 14.2 in order. -/
inductive Reg where
  | clStatus | partStatus | avenue | portStatus | timStatus | alignStatus | clDetect | calHalf | geyStatus | telStatus
  | evrStatus | pwrStatus | pwrCtx | pwrRail | calId | mbxStatus
  deriving DecidableEq, Repr

/-- The counters of Tables 3.7, 4.7, 6.13, 7.11, 9.11, 10.7, 11.8, 12.10, 13.11, 14.8 and 15.9. -/
inductive Ctr where
  -- Table 3.7, per cluster
  | validBeats | bubbleOperand | bubbleAnchor | bubblePad | bubbleSlice | vecResults | clCheckMismatch | clSparseMeta
  -- Table 4.7, per partition
  | hbmFgSlots | hbmGeySlots | scrubSlots | calHeldTicks | xposeJobs | nsCe | nsUe | fsCe | fsUe | hbmCe | hbmUe
  | memBlockCheck | memMass
  -- Table 6.13: the first four per port, the rest per module
  | fabTx | fabRx | fabCm | fabStall | fabLimited | fabHdr | fabHops | fabStale | fabDomain | fabAge | fabDown
  -- Table 7.11, per port
  | prtFecCorr | prtReplay | prtFecUncorr | prtFlitsLost | prtEdgeDrop | prtRetrain | prtLaneFail | prtIdent
  -- Table 9.11
  | detNcr | detLateRelease | detDumpBlocks | alignFail
  -- Table 10.7
  | errShadow | errShadowExtra | detCheck | detShadow | detSquare | detAnchor | detTransient | detPermanent
  | detExposure | detSuspect
  -- Table 11.8
  | recL1 | recL2 | recL3 | recL4 | recL5 | recHang | recRestore | recCalTakeover | recCoordTakeover | recHold
  -- Table 12.10
  | geyStream | geyPartner | geyCkptBytes | geyPinStall | geyRetx | geyGwFail | geyCkptFail | geyTakeover | geyReseed
  -- Table 13.11
  | telSamples | ventRecords | ventBytes | telMissed | telLate | telDrop | telPartial | ventAged | ventRefused
  -- Table 14.8
  | evrRecords | evrFolded | evrReplaced | evrDropped | evrClears
  -- Table 15.9
  | pwrThrottle | pwrDepart | pwrTrip | pwrPhaseLost | pwrRefused | pwrOverrun
  -- R61, per slot of the module: commands retired, modulo 2^48
  | retired
  deriving DecidableEq, Repr

/-! ### Memory (04) -/

/-- The check record of one 4 KiB block (R95, R99, R101). -/
structure BlockCheck where
  mass : Nat
  crc : Nat
  poison : Bool
  invalid : Bool
  deriving DecidableEq, Repr

/-- A copy of a block held outside its program address: pending slot, image slot, partner copy or pin (R305, R308). -/
structure PBlock where
  bytes : List Byte
  check : Nat
  deriving DecidableEq, Repr

/-- An error history of one pseudo-channel (R107). -/
structure PcHist where
  /-- Ticks of the corrected and uncorrectable errors of the window, newest first. -/
  ce : List Nat
  ue : List Nat
  calFails : Nat
  retired : Bool
  deriving DecidableEq, Repr

def PcHist.reset : PcHist := { ce := [], ue := [], calFails := 0, retired := false }

/-- The memory system of the module. -/
structure Mem where
  /-- Bytes by 48-bit module memory address (R91): addresses rising, no byte 0 listed. -/
  bytes : List Host.Cell
  /-- Check records by block address; unlisted: the record of a block of zeros. -/
  checks : KMap BlockCheck
  /-- Near-store words marked POISON, by word address (R101). -/
  nsPoison : List Nat
  /-- Pseudo-channel histories by 16 × partition + channel. -/
  pcs : KMap PcHist
  /-- Scrubber positions by 2^24 × level + unit (R102). -/
  scrubAt : KMap Nat
  /-- Access slots counted since the partition's last reset or alignment, by the same key (R103, R233). -/
  slotAt : KMap Nat
  /-- Local time at which memory holds foreground accesses for a calibration gap, while one stands (R104). -/
  gapCount : Option Nat
  /-- Partitions whose refill is outstanding, with blocks still to come (R279). -/
  refill : KMap Nat
  /-- Partitions whose check records a partition reset invalidated: an unlisted record there is invalid (R279). -/
  invalidParts : List Nat
  deriving DecidableEq, Repr

/-- The memory after reset. -/
def Mem.reset : Mem := { bytes := [], checks := [], nsPoison := [], pcs := [], scrubAt := [], slotAt := [],
                         gapCount := none, refill := [], invalidParts := [] }

/-! ### Clusters (01, 03, 10) -/

/-- A queued thin request of a batch (R75, R76). -/
structure ThinReq where
  ctx : Nat
  opId : Nat
  rows : Nat
  since : Nat
  deriving DecidableEq, Repr

/-- A directed-table entry (R267). -/
structure Directed where
  cluster : Nat
  slot : Nat
  temp : Int
  util : Nat
  left : Nat
  deriving DecidableEq, Repr

/-- One cluster: its slot map and fences, queue and streaming state, barrier stamps and late-arrival window. -/
structure Cluster where
  /-- Fenced slots, ascending (Table 1.3). -/
  fenced : List Nat
  /-- Logical cores not on the slot of their own number: core to slot; a displaced core maps to none (R84). -/
  moved : KMap (Option Nat)
  /-- Fences waiting for the next step boundary, ascending (R18, R82). -/
  toFence : List Nat
  tslice : Bool
  queue : List ThinReq
  /-- Time-slice reserve streaming: operator, while on (R85, R86). -/
  streaming : Option Nat
  /-- Latest stamp and logical core of each barrier (R89). -/
  stamps : KMap (Nat × Nat)
  /-- For each of the context's last barriers, newest first: this cluster was counted last (R268). -/
  late : List Bool
  suspect : Bool
  /-- Slot and class of the latest classification (Table 10.6). -/
  lastSlot : Nat
  lastClass : Nat
  /-- Latest Fumarole sample: junction temperature and utilisation in 1/64 (R267, R333). -/
  temp : Int
  util : Nat
  /-- Number of passes running with operators of the matrix and vector units. -/
  arrayOp : Option (Nat × Nat)
  vectorOp : Option (Nat × Nat)
  deriving DecidableEq, Repr

/-- A cluster of the factory map with nothing running. -/
def Cluster.reset : Cluster :=
  { fenced := [], moved := [], toFence := [], tslice := false, queue := [], streaming := none, stamps := [], late := [],
    suspect := false, lastSlot := 0, lastClass := 0, temp := 0, util := 0, arrayOp := none, vectorOp := none }

/-! ### The event recorder (14) -/

/-- An event record (Table 14.1). -/
structure EvRec where
  seq : Nat
  seconds : Nat
  nanos : Nat
  firstFc : Nat
  lastFc : Nat
  repeat_ : Nat
  code : Nat
  severity : Nat
  preFc : Bool
  writer : Nat
  isOpen : Bool
  srcType : Nat
  srcIndex : Nat
  step : Nat
  attempt : Nat
  ctx : Nat
  boot : Nat
  data : List Nat
  deriving DecidableEq, Repr

/-- A standing freeze (R362): holder, oldest and newest SEQ, snapshot members, last request in local ns. -/
structure Freeze where
  holder : Req
  oldest : Nat
  newest : Nat
  since : Nat
  deriving DecidableEq, Repr

/-- The event recorder: log by rising SEQ, spill, freeze, the alert latch (17 R429). -/
structure Evr where
  log : List EvRec
  nextSeq : Nat
  freeze : Option Freeze
  spill : List EvRec
  alert : Bool
  /-- Record copies to be exported through the Vent at the next sample index, oldest first (R366). -/
  export_ : List EvRec
  deriving DecidableEq, Repr

def Evr.reset : Evr := { log := [], nextSeq := 0, freeze := none, spill := [], alert := false, export_ := [] }

/-! ### Contexts (01, 05, 09, 11, 12) -/

/-- The states of Table 5.1. -/
inductive CtxSt where
  | empty | loading | loaded | armed | running | held | draining
  deriving DecidableEq, Repr

/-- Counts of arrivals a collective waits for on this module: blocks written to OUT_TENSOR by wave (R151, R153). -/
structure CollRun where
  downBlocks : List Nat
  deriving DecidableEq, Repr

/-- The running attempt of a step: what has started, completed and been summed (R39, R66, R120). -/
structure Exec where
  /-- Clusters on which an operator has started, by OPERATOR_ID. -/
  started : KMap (List Nat)
  /-- Clusters on which an operator has completed. -/
  done : KMap (List Nat)
  /-- Barriers released. -/
  released : List Nat
  /-- Logical cores that have arrived, by barrier and cluster (4096 × barrier + cluster). -/
  arrived : KMap (List Nat)
  /-- Status bits by OPERATOR_ID (R45, R49, R74, R92). -/
  status : KMap OpStatus
  /-- Anchors of the running and the next operator, by OPERATOR_ID × 2^32 + row (R35, R66). -/
  anchors : KMap Int
  /-- The largest exponent bound per row so far. -/
  bounds : KMap (Option Int)
  /-- Raw windows held by a core for SEND: by logical core; entries (row, column or 4 for the check cell, window). -/
  raw : KMap (List (Nat × Nat × Window))
  /-- The cluster window adder: by cluster × 2^32 + OPERATOR_ID-row key, parts so far and windows by column. -/
  adder : KMap (Nat × List (Nat × Window))
  colls : KMap CollRun
  /-- Tick at which the first RED_UP of the step left, or STEP_CONFIRM where the step has no collective (R345). -/
  firstUp : Option Nat
  /-- Every image was captured (R306). -/
  captured : Bool
  /-- The count at which the attempt was launched: L(N), or later (R27). -/
  launchAt : Nat
  /-- Operators that set SPARSE_META in a cluster, operator × 2^12 + cluster (Table 3.7). -/
  sparseAt : List Nat
  deriving DecidableEq, Repr

def Exec.reset : Exec :=
  { started := [], done := [], released := [], arrived := [], status := [], anchors := [], bounds := [], raw := [],
    adder := [], colls := [], firstUp := none, captured := false, launchAt := 0, sparseAt := [] }

/-- A dump outstanding (R243–R245). -/
structure Dump where
  handle : Nat
  tensorId : Nat
  step : Nat
  afterOp : Option Nat
  listAddr : Nat
  buffers : List (Nat × Nat)
  bytesWritten : Nat
  overflow : Bool
  captured : Bool
  attempt : Nat
  deriving DecidableEq, Repr

/-- A probe outstanding (R286). -/
structure Probe where
  locus : Nat
  extends_ : Nat
  recovering : Bool
  answered : Bool
  deriving DecidableEq, Repr

/-- The answer of one participant to TAKEOVER (Table 11.4). -/
structure TakeState where
  locus : Nat
  committed : Nat
  attempt : Nat
  confirmed : Bool
  faulted : Bool
  hasLaunch : Bool
  held : Bool
  launch : Nat
  deriving DecidableEq, Repr

/-- What a module keeps as a job's coordinator, active or standby (01 R23–R26, 11 R277, R286, R293–R298). -/
structure Coord where
  active : Bool
  epoch : Nat
  /-- START was issued; the step and attempt being collected; the job is held at the boundary before it. -/
  started : Bool
  step : Nat
  attempt : Nat
  held : Bool
  /-- The standby module of a pair, or the successor of a form-1 coordinator (R293, R298). -/
  standby : Nat
  /-- ARMED digests by locus (R113). -/
  armed : KMap Nat
  /-- Participants whose STEP_CONFIRM for the step is held, with arrival stamps. -/
  confirms : KMap Nat
  /-- Reports for the attempt: locus and source (R248). -/
  reports : List (Nat × Nat)
  /-- A first fault report awaits RECOVERY_NOTICEs (R286); the tick it arrived. -/
  collecting : Option Nat
  ready : Nat
  /-- D(N) as it was when it last passed with participants missing: what R286 extends. -/
  passed : Nat
  /-- Failed attempts of the step, and the loci of the reports acted on, newest first; `noLocus` where a loss alone failed it (R277). -/
  failed : Nat
  reporters : List Nat
  launch : Nat
  deadline : Nat
  commitTick : Option Nat
  /-- Host-loss notice counted (R133), CTX_HOLD or teardown ordered at the next boundary. -/
  hostLoss : Option Nat
  holdReq : Bool
  tearReq : Bool
  probes : KMap Probe
  /-- Spares by arrival, and modules whose ARMED carried another descriptor digest (R113, R313). -/
  spares : List Nat
  unlike : List Nat
  /-- Locus lost and its take-over still running (R312, R316). -/
  taking : KMap Nat
  lost : List Nat
  /-- STEP_HOLD of the step: tick of issue (R281). -/
  stepHeld : Option Nat
  /-- Beats (R293, R294): local time and lease end of the last acknowledged beat; of the last beat received; the last
  beat sent with its SEQ. -/
  beatSent : Option (Nat × Nat × Nat)
  ackedAt : Nat
  ackedEnd : Nat
  heardAt : Option Nat
  heardEnd : Nat
  /-- Take-over in progress: answers so far. -/
  takeover : Option (List TakeState)
  drained : List Nat
  /-- Checkpoint in progress: step and the participants that have reported; the latest complete one (R317). -/
  ckpt : Option (Nat × List (Nat × Nat))
  ckptComplete : Option Nat
  ckptSkipped : List Nat
  /-- Restore in progress: K, source job, the participants that have answered with status 0. -/
  restore : Option (Nat × Nat × List (Nat × Nat))
  deriving DecidableEq, Repr

def Coord.reset : Coord :=
  { active := false, epoch := 0, started := false, step := 0, attempt := 0, held := false, standby := 0, armed := [], confirms := [], reports := [], collecting := none, ready := 0, passed := 0, failed := 0,
    reporters := [], launch := 0, deadline := 0, commitTick := none, hostLoss := none, holdReq := false, tearReq := false,
    probes := [], spares := [], unlike := [], taking := [], lost := [], stepHeld := none, beatSent := none,
    ackedAt := 0, ackedEnd := 0, heardAt := none, heardEnd := 0, takeover := none, drained := [],
    ckpt := none, ckptComplete := none, ckptSkipped := [], restore := none }

/-- The partner copy a module holds (R308, R310). Keys: TENSOR_ID × 2^32 + block. -/
structure Partner where
  locus : Nat
  committed : KMap PBlock
  pending : KMap PBlock
  /-- The seed is complete (R309). -/
  seeded : Bool
  /-- Acknowledgements of pending blocks withheld until it is: endpoint, step, SEQ. -/
  withheld : List (Nat × Nat × Nat)
  deriving DecidableEq, Repr

/-- A checkpoint being written (R318–R320). -/
structure CkptRun where
  step : Nat
  since : Nat
  /-- Shards still to be opened, next first: partition, index, bytes, records, block keys. -/
  shards : List (Nat × Nat × List Byte × Nat × List Nat)
  /-- Shards not yet stored. -/
  unstored : Nat
  /-- Manifest entries so far, by shard index. -/
  entries : KMap (List Byte)
  /-- Gateways the manifest has still to reach; whether its transfers were opened. -/
  manifestLeft : List Nat
  manifestOpen : Bool
  narrowed : Bool
  stateSum : Nat
  commitTick : Nat
  commitAttempt : Nat
  deriving DecidableEq, Repr

/-- A restore in progress (R325). -/
structure RestoreRun where
  step : Nat
  jobId : Nat
  manifest : Option (List Byte)
  /-- Shards still to fetch: shard index, partition, gateway, digest. -/
  left : List (Nat × Nat × Nat × List Byte)
  /-- Shards whose transfers run. -/
  running : Nat
  /-- Gateways tried for the manifest, and by shard. -/
  tried : List Nat
  triedBy : KMap (List Nat)
  blocks : KMap PBlock
  deriving DecidableEq, Repr

/-- Geyser's part of a context (R303–R325). -/
structure GeyCtx where
  bindSince : Option Nat
  buddy : Nat
  bound : Bool
  buddyValid : Bool
  partner : Option Partner
  /-- Blocks of the seed or reseed whose ACK is outstanding, by DATA SEQ: last block flag. -/
  seedAcks : List Nat
  streamAcks : List Nat
  writeAcks : List (Nat × Nat)
  imgCommitted : KMap PBlock
  imgPending : KMap PBlock
  /-- Committed content a checkpoint still needs, by block key (R318). -/
  pins : KMap PBlock
  pinWait : List Nat
  ckpt : Option CkptRun
  restore : Option RestoreRun
  restored : Option Nat
  /-- Copy being received as spare: blocks expected from the buddy (R312 step 3). -/
  takingFrom : Option Nat
  takeStart : Option Nat
  /-- Copy being sent: lost, spare; blocks of it not acknowledged. -/
  takeSend : Option (Nat × Nat)
  takeAcks : List Nat
  /-- Block restores in progress: key and tries (R280). -/
  fetching : KMap Nat
  deriving DecidableEq, Repr

def GeyCtx.reset : GeyCtx :=
  { bindSince := none, buddy := 0, bound := false, buddyValid := false, partner := none, seedAcks := [], streamAcks := [],
    writeAcks := [], imgCommitted := [], imgPending := [], pins := [], pinWait := [], ckpt := none, restore := none,
    restored := none, takingFrom := none, takeStart := none, takeSend := none, takeAcks := [], fetching := [] }

/-- A step record (Table 9.6). -/
structure StepRec where
  step : Nat
  attempt : Nat
  cycle : Bool
  hostWrite : Bool
  launch : Nat
  commitTick : Nat
  reasons : Nat
  gapPhase : Nat
  stateSum : Nat
  planSum : Nat
  confirmCycles : Nat
  deriving DecidableEq, Repr

/-- One context (R111, R112). -/
structure Ctx where
  st : CtxSt
  mask : Nat
  partCount : Nat
  received : List Nat
  imageOff : Nat
  imageLen : Nat
  prog : Option Program
  progDigest : List Byte
  /-- The job descriptor's 128 bytes (Table 5.2). -/
  desc : List Byte
  /-- POLICY_SET value, 0xFF where none; the job's resolved policy (R133). -/
  policySet : Nat
  policy : Nat
  /-- Highest epoch adopted (R297), and the coordinator it came from. -/
  adopted : Nat
  coordLocus : Nat
  /-- Participants by PMAP, ascending; parts still missing; the index table of START (R225). -/
  pmap : List Nat
  pmapParts : List Nat
  index : List Nat
  /-- Last committed step, its COMMIT stamp and attempt. -/
  committed : Option Nat
  commitTick : Nat
  commitAttempt : Nat
  /-- The step launched or to be launched, its attempt, launch count, and whether it was launched (R21–R27). -/
  step : Nat
  attempt : Nat
  launch : Option Nat
  launched : Bool
  cycleAtLaunch : Bool
  /-- STEP_CONFIRM sent for the attempt; a fault was reported in it. -/
  confirmed : Bool
  faulted : Bool
  reasons : Nat
  hostWrite : Bool
  confirmCycles : Nat
  records : List StepRec
  stateSum : Nat
  drainAt : Option Nat
  /-- Host commands waiting for a step boundary: rings (R112). -/
  holdRings : List Nat
  tearRings : List Nat
  exec : Exec
  pend : KMap PBlock
  dumps : List Dump
  gey : GeyCtx
  coord : Coord
  deriving DecidableEq, Repr

def Ctx.reset : Ctx :=
  { st := .empty, mask := 0, partCount := 0, received := [], imageOff := 0, imageLen := 0, prog := none,
    progDigest := [], desc := [], policySet := 0xFF, policy := 0, adopted := 0, coordLocus := 0, pmap := [], pmapParts := [],
    index := [], committed := none, commitTick := 0, commitAttempt := 0, step := 0, attempt := 0, launch := none,
    launched := false, cycleAtLaunch := false, confirmed := false, faulted := false, reasons := 0, hostWrite := false,
    confirmCycles := 0, records := [], stateSum := 0, drainAt := none, holdRings := [], tearRings := [],
    exec := Exec.reset, pend := [], dumps := [], gey := GeyCtx.reset, coord := Coord.reset }

/-! ### The mailbox and PCIe (05) -/

/-- A submission entry the device holds (R125, R129): the entry, whether it repeats an earlier one (R127), a status it
completes with without running (R126, R128), and its staged payload. -/
structure Staged where
  e : SqEntry
  dup : Bool
  forced : Option Nat
  payload : List Byte
  deriving DecidableEq, Repr

/-- A ring pair (Table 5.11) and its staged entries (R125, R129). -/
structure Ring where
  sqBase : Nat
  cqBase : Nat
  log2 : Nat
  en : Bool
  tail : Nat
  head : Nat
  cqHead : Nat
  /-- Next completion index, completions not consumed, and the PHASE of the pass. -/
  cqTail : Nat
  cqUsed : Nat
  phase : Bool
  /-- The entry executing and the one accepted ahead. -/
  cur : Option Staged
  ahead : Option Staged
  /-- Completions that found the ring full: SEQ, status, DUPLICATE, result (R125). -/
  stalled : List (Nat × Nat × Bool × Nat)
  deriving DecidableEq, Repr

def Ring.reset : Ring := { sqBase := 0, cqBase := 0, log2 := 0, en := false, tail := 0, head := 0, cqHead := 0,
                           cqTail := 0, cqUsed := 0, phase := true, cur := none, ahead := none, stalled := [] }

/-- An entry of the sequence cache (R126): status and RESULT once complete. -/
structure SeqEntry where
  seq : Nat
  opcode : Nat
  outcome : Option (Nat × Nat)
  deriving DecidableEq, Repr

/-- The mailbox, the PCIe link and its functions. -/
structure Mbx where
  rings : KMap Ring
  enable : Bool
  hostLoss : Bool
  attached : Bool
  ready : Bool
  heartbeat : Nat
  highSeq : Nat
  /-- The 1,024 most recently accepted, newest first. -/
  cache : List SeqEntry
  linkUp : Bool
  linkDownAt : Option Nat
  width : Nat
  rate : Nat
  busMaster : Bool
  dumpSeq : Nat
  deriving DecidableEq, Repr

def Mbx.reset : Mbx :=
  { rings := [], enable := false, hostLoss := false, attached := false, ready := false, heartbeat := 0,
    highSeq := 0, cache := [], linkUp := false, linkDownAt := none, width := 0, rate := 0, busMaster := false, dumpSeq := 0 }

/-! ### The fabric (06) -/

/-- Receiving state per source module and endpoint (R159). -/
structure PeerIn where
  incarn : Nat
  high : Nat
  deriving DecidableEq, Repr

/-- A CTRL message sent and not yet acknowledged (R160): the message, the next interval, the earliest retry. -/
structure Unacked where
  m : CtrlMsg
  intervalUs : Nat
  notBefore : Nat
  deriving DecidableEq, Repr

/-- A rate limiter (R155): rate in 1/1,024 of R_max, the last decrease, the last increase, last use. -/
structure Limiter where
  rate : Nat
  cutAt : Nat
  usedAt : Nat
  deriving DecidableEq, Repr

/-- A Square slot (R151): the step it belongs to, who has contributed, the folded windows. -/
structure SqSlot where
  domain : Nat
  coll : Nat
  block : Nat
  step : Nat
  attempt : Nat
  op : Nat
  form : Nat
  contrib : Nat
  from_ : List Nat
  windows : List SqWindow
  values : List Nat
  /-- Elements of the module's own contribution that have arrived. -/
  own : List Nat
  /-- The second fold copy differs at this element + 1 (R252); 0 none. -/
  upset : Nat
  deriving DecidableEq, Repr

/-- An output of a Crossing on one VC (R146, R147): free credits, LEN of a waiting entering packet, reservation, and
local time before which no new reservation starts. -/
structure OutVc where
  credits : Nat
  waiting : Option Nat
  reserved : Bool
  coolUntil : Nat
  deriving DecidableEq, Repr

/-- A block being assembled from DATA packets (R139 text): parts received and their bytes. -/
structure Reasm where
  src : Nat
  tensorId : Nat
  addr : Nat
  step : Nat
  attempt : Nat
  bulk : Bool
  check : Nat
  ackReq : Bool
  parts : KMap (List Byte)
  deriving DecidableEq, Repr

/-- A route break announced and not yet effective (R164): dimension, coordinate, break or heal, effective count. -/
structure BreakOrder where
  dim : Nat
  after : Nat
  isBreak : Bool
  effective : Nat
  deriving DecidableEq, Repr

/-- The fabric part of the module. -/
structure Fab where
  /-- By 32 × locus + endpoint. -/
  peers : KMap PeerIn
  /-- Next SEQ per destination, by the same key. -/
  seqOut : KMap Nat
  unacked : List Unacked
  /-- The module's packet count, SEQ of DATA. -/
  dataSeq : Nat
  /-- Limiters by 8 × locus + VC. -/
  limiters : KMap Limiter
  /-- Last CN_ECHO per 8 × locus + VC (R154). -/
  echoAt : KMap Nat
  /-- The Square slots in use (R151). -/
  slots : List SqSlot
  /-- Crossing outputs by (16 × die + out) × 8 + VC. -/
  outs : KMap OutVc
  /-- Packets that wait for credits, oldest first: die, input, header, arrival tick (R141, R146). -/
  waits : List (Nat × Nat × Nat × Nat)
  /-- Per output: 64 × VC + input last served by round robin (R147); tick since when packets have waited. -/
  served : KMap Nat
  stallSince : KMap Nat
  reasm : List Reasm
  /-- Breaks in force by dimension (R142). -/
  breaks : KMap Nat
  /-- Route-break orders announced and not yet effective (R164). -/
  orders : List BreakOrder
  /-- Bundles declared dead by R164 and not healed, by direction. -/
  dead : List Nat
  /-- The broken die-ring link (R283). -/
  dieBreak : Option Nat
  dieBreakPending : Option Nat
  /-- Crossing holds: commands whose effect waits for a release tick (R237): tick, command. -/
  held : List (Nat × Instr)
  /-- ARMED reports that came before this module's own context of the job was armed: locus and digest (R115). -/
  early : List (Nat × Nat)
  deriving DecidableEq, Repr

def Fab.reset : Fab :=
  { peers := [], seqOut := [], unacked := [], dataSeq := 0, limiters := [], echoAt := [], slots := [],
    outs := [], waits := [], served := [], stallSince := [], reasm := [], breaks := [], orders := [], dead := [], dieBreak := none, dieBreakPending := none, held := [],
    early := [] }

/-! ### Classification and recovery (10, 11) -/

/-- A report awaiting its repeat (R262, R263): context, step, attempt reported, slot address, source, operator and
logical core, and the shadow and vote roles. -/
structure Repeat where
  ctx : Nat
  step : Nat
  attempt : Nat
  slot : Option Nat
  core : Nat
  opId : Nat
  layer : Nat
  shadow : Bool
  slotQ : Option Nat
  slotT : Option Nat
  /-- The digest agreed by P and Q, where T runs again (Table of R263). -/
  agreed : Option Nat
  /-- A mismatch seen in the repeat. -/
  failedAgain : Bool
  deriving DecidableEq, Repr

/-- A pending boundary action (R275): rank of its kind 1–8, unit. -/
structure BoundaryAct where
  rank : Nat
  unit : Nat
  deriving DecidableEq, Repr

/-- Classification and recovery state. -/
structure Recov where
  repeats : List Repeat
  /-- Transient ticks by unit key, newest first (R265). -/
  transients : KMap (List Nat)
  /-- Transients already counted, by (slot, step, attempt) (R266). -/
  counted : List (Nat × Nat × Nat)
  directed : List Directed
  /-- Action ticks by 8 × unit key + level (R276). -/
  actions : KMap (List Nat)
  /-- Completed keys (R273): unit, level, step, attempt. -/
  completed : List (Nat × Nat × Nat × Nat)
  pending : List BoundaryAct
  /-- Clock reading at which the first hang action on a unit was taken (R284). -/
  hangs : KMap Nat
  /-- Engines fenced, by 4 × partition + engine. -/
  engines : List Nat
  /-- The Square of the last report, by context: square, attempt (Table 11.2). -/
  lastSquare : KMap (Nat × Nat × Nat)
  /-- The module has left every job and waits for its restart (level 4), or has declared itself lost. -/
  lost : Bool
  /-- Die links failed. -/
  dieLinks : List Nat
  deriving DecidableEq, Repr

def Recov.reset : Recov :=
  { repeats := [], transients := [], counted := [], directed := [], actions := [], completed := [], pending := [], hangs := [],
    engines := [], lastSquare := [], lost := false, dieLinks := [] }

/-- Caldera's halves and the ownership line (R287–R292). -/
structure Cal where
  /-- The half that holds CAL_OWN: 0 CAL-A, 1 CAL-B. -/
  owner : Option Nat
  fencedA : Bool
  fencedB : Bool
  /-- Release ticks, newest first. -/
  releasesA : List Nat
  releasesB : List Nat
  /-- A half has passed its self-diagnosis. -/
  okA : Bool
  okB : Bool
  /-- The last half to own, to tell a change of halves. -/
  last : Option Nat
  interlockIn : Bool
  interlockLowAt : Option Nat
  deriving DecidableEq, Repr

def Cal.reset : Cal :=
  { owner := none, fencedA := false, fencedB := false, releasesA := [], releasesB := [], okA := false, okB := false,
    last := none, interlockIn := false, interlockLowAt := none }

/-! ### Determinism (09) -/

/-- The reset-alignment protocol and TIM_ALIGN_STATUS (R233, R235). -/
structure Det where
  aligned : Bool
  downgrade : Bool
  tries : Nat
  count : Nat
  /-- T_a chosen and not completed; whether quiesced, applied. -/
  ta : Option Nat
  phase : Nat
  deriving DecidableEq, Repr

def Det.reset : Det := { aligned := false, downgrade := false, tries := 0, count := 0, ta := none, phase := 0 }

/-! ### Optical ports (07) -/

/-- Port states (Table 7.4). -/
inductive PortSt where
  | dark | detect | equalise | align | ident | up | mgmtOnly | held | backoff | unused | fastRetrain
  deriving DecidableEq, Repr

/-- The IDENT data of an exchange (Table 7.5). -/
structure IdentData where
  locus : Nat
  port : Nat
  dir : Nat
  rank : Nat
  size : Nat
  linkProto : Nat
  compatMin : Nat
  fwMajor : Nat
  fwMinor : Nat
  arith : Nat
  cert : Nat
  deriving DecidableEq, Repr

/-- A link-state request outstanding at this end (R194–R196): REQ, lane, whether GRANT was received or sent. -/
structure LsmReq where
  req : Nat
  deriving DecidableEq, Repr

/-- A candidate offer of the time tree (R209, Table 8.1). -/
structure Offer where
  rootClass : Nat
  rootPrio : Nat
  root : Nat
  dist : Nat
  rootSeq : Nat
  tag : Nat
  followsYou : Bool
  state : Nat
  utcOffset : Nat
  stamp : Nat
  deriving DecidableEq, Repr

/-- A port: training state, lanes, exchange, link sequence and credit state, and its time measurements. -/
structure Port where
  st : PortSt
  dir : Nat
  rank : Nat
  size : Nat
  accepted : Bool
  /-- Lanes that pass R177 in the receive direction, as 9 bits; the traffic lanes; the spare lane if held. -/
  lanesOk : Nat
  lanes : List Nat
  spare : Option Nat
  width : Nat
  peerSeen : Bool
  last : Option IdentData
  remoteLocus : Nat
  remotePort : Nat
  remoteDir : Nat
  remoteRank : Nat
  failures : Nat
  exits : List Nat
  heldAt : Option Nat
  req : Option LsmReq
  /-- Receive side: next LSEQ expected, discarding after a NAK; the last NAKed LSEQ and its run. -/
  rxSeq : Nat
  discarding : Bool
  /-- NAKs sent in a row for the LSEQ expected (R197). -/
  nakSent : Nat
  /-- Transmit side: next LSEQ to send, oldest not acknowledged, NAK run of the partner. -/
  txSeq : Nat
  txAck : Nat
  nakAt : Nat
  nakRun : Nat
  /-- FREED and SENT per VC as last known (R174). -/
  freedIn : KMap Nat
  sent : KMap Nat
  freedOut : KMap Nat
  remoteLaneDown : List Nat
  -- edge ports
  hasAddr : Bool
  -- time (fabric ports)
  offer : Option Offer
  offset : Int
  delay : Nat
  measuredAt : Option Nat
  rxTx : Nat
  rxStamp : Option Nat
  txHistory : List Nat
  nbRun : Nat
  /-- Count at which the lane map or width last changed (R208). -/
  mapAt : Option Nat
  deriving DecidableEq, Repr

def Port.reset : Port :=
  { st := .dark, dir := 15, rank := 0, size := 0, accepted := false, lanesOk := 0, lanes := [], spare := none, width := 0,
    peerSeen := false, last := none, remoteLocus := 0, remotePort := 0, remoteDir := 0, remoteRank := 0,
    failures := 0, exits := [], heldAt := none, req := none, rxSeq := 0, discarding := false, nakSent := 0,
    txSeq := 0, txAck := 0, nakAt := 0, nakRun := 0, freedIn := [], sent := [], freedOut := [],
    remoteLaneDown := [], hasAddr := false, offer := none, offset := 0, delay := 0,
    measuredAt := none, rxTx := 0, rxStamp := none, txHistory := [], nbRun := 0, mapAt := none }

/-! ### Time (08) -/

/-- A root sequence seen (R210): the value and the local time of the last advance seen. -/
structure RootSeen where
  seq : Nat
  advanced : Option Nat
  deriving DecidableEq, Repr

/-- PTP on one edge port (R219). -/
structure PtpPort where
  locked : Bool
  lockedAt : Nat
  unlockedAt : Option Nat
  lastSync : Option (Nat × Nat × Nat × Int)
  /-- The measured path delay of R219's end-to-end mechanism. -/
  pathDelay : Option Int
  offset : Int
  seqOut : Nat
  announceSeq : Nat
  delaySeq : Nat
  delayTx : Option Nat
  best : Option AnnounceData
  bestSource : Nat
  deriving DecidableEq, Repr

def PtpPort.reset : PtpPort :=
  { locked := false, lockedAt := 0, unlockedAt := none, lastSync := none, pathDelay := none, offset := 0, seqOut := 0,
    announceSeq := 0, delaySeq := 0, delayTx := none, best := none, bestSource := 0 }

/-- The module's two clocks and its place in the time tree. -/
structure Time where
  /-- Local time in ns since PGOOD. -/
  loc : Nat
  /-- TIM_STATUS.STATE: 0 NONE, 1 ACQUIRING, 2 LOCKED, 3 HOLDOVER. -/
  st : Nat
  /-- TIM_FC. -/
  fc : Nat
  isRoot : Bool
  /-- Claiming root while not following: eligible local start of the 10 s rule. -/
  upstream : Option Nat
  dist : Nat
  rootClass : Nat
  rootPrio : Nat
  root : Nat
  rootSeq : Nat
  utcOffset : Nat
  seen : KMap RootSeen
  /-- Consecutive in-bound measurements (64) and Sync intervals (16) of R212. -/
  run64 : Nat
  run16 : Nat
  /-- Slew: residual in ns still to be removed, and the fraction carried in parts per 10^9 (R204, R216). -/
  residual : Int
  slewFrac : Nat
  /-- TIM_ROOT_OFFSET as ns. -/
  rootOffset : Int
  holdSince : Option Nat
  everLocked : Bool
  ptp : KMap PtpPort
  deriving DecidableEq, Repr

def Time.reset : Time :=
  { loc := 0, st := 0, fc := 0, isRoot := false, upstream := none, dist := 255, rootClass := 0, rootPrio := 0, root := 0,
    rootSeq := 0, utcOffset := 0, seen := [], run64 := 0, run16 := 0, residual := 0, slewFrac := 0, rootOffset := 0,
    holdSince := none, everLocked := false, ptp := [] }

/-! ### Telemetry and the Vent (13) -/

/-- A telemetry slot (R344): contributions folded, children that contributed, sent upward. -/
structure TelSlot where
  tree : Nat
  group : Nat
  key : Nat
  attempt : Nat
  op : Nat
  contrib : Nat
  from_ : List Nat
  entries : List Nat
  sent : Bool
  deriving DecidableEq, Repr

/-- A Vent subscription (R347): key, 16-byte body, arrival port, lease end or static, SEQ, waiting content. -/
structure Sub where
  addr : Nat
  udp : Nat
  subId : Nat
  body : List Byte
  port : Nat
  leaseEnd : Option Nat
  seq : Nat
  /-- A replacement selection from the next sample index. -/
  next : Option (List Byte)
  /-- Content of FLEET, JOB, ASSESS and EVENTS that has arrived since the last record. -/
  waiting : List (List Byte)
  /-- Records not yet sent: SEQ, sample index, body. -/
  unsent : List (Nat × Nat × List Byte)
  deriving DecidableEq, Repr

/-- The latest taken sample of a sampler: its index, its entry (R336), and what later samples difference. -/
structure Sample where
  index : Nat
  body : List Byte
  temp : Int
  aux : Nat
  beats : Nat
  deriving DecidableEq, Repr

/-- Telemetry state of the module. -/
structure Tel where
  /-- By 65,536 × class + index. -/
  samples : KMap Sample
  slots : List TelSlot
  /-- x_j contributed, by interval: kept for the judgement of its DOWN (R346). -/
  contributed : KMap (List Nat)
  /-- Sums at the latest taken samples before the interval: beats, cycles, corrected symbols, replays, HBM corrected errors,
  ledger, transients (R341). -/
  base : List Nat
  /-- Job-tree results that arrived before their step's COMMIT: domain, step, attempt, result (R343). -/
  waitDown : List (Nat × Nat × Nat × TelPkt)
  /-- e[j], FP32 patterns. -/
  drift : List Nat
  driftBits : Nat
  /-- Straggler windows by context: newest first, this module was last (R345). -/
  strag : KMap (List Bool)
  stragglers : List Nat
  subs : List Sub
  deriving DecidableEq, Repr

def Tel.reset : Tel :=
  { samples := [], slots := [], contributed := [],
    base := [], waitDown := [],
    drift := List.replicate 8 0, driftBits := 0, strag := [], stragglers := [], subs := [] }

/-! ### Power (15) -/

/-- A switched domain's state (R370). -/
inductive DomSt where
  | off | on | gated
  deriving DecidableEq, Repr

/-- A power stage: phases in service, set voltage, accumulator in fJ (96 bits), on or off, power-good. -/
structure Stage where
  active : Nat
  off : Bool
  setMv : Nat
  acc : Nat
  good : Bool
  deriving DecidableEq, Repr

def Stage.reset : Stage := { active := 0, off := true, setMv := 0, acc := 0, good := false }

/-- The reference of a context (R379). -/
structure PwrRef where
  tref : Nat
  other : Nat
  dyn : KMap Nat
  busy : KMap Nat
  deriving DecidableEq, Repr

/-- Power state of one context: grants, reference, plan, carry (R375–R382). -/
structure PwrCtx where
  grant : Option Nat
  /-- Accepted grants not yet in effect: effective count, G, in order of arrival. -/
  waiting : List (Nat × Nat)
  ref : Option PwrRef
  /-- The reference is being built over the running step: stage energies and tick at the segment's start. -/
  building : Bool
  segAt : Nat
  segAcc : KMap Nat
  segRef : PwrRef
  carry : Nat
  point : Option Nat
  kp : KMap Nat
  depart : Bool
  /-- Accumulators at the launch of the attempt; charge of the last committed step. -/
  launchAcc : KMap Nat
  lastCharge : Nat
  floorAsked : Bool
  deriving DecidableEq, Repr

def PwrRef.empty : PwrRef := { tref := 0, other := 0, dyn := [], busy := [] }

def PwrCtx.reset : PwrCtx :=
  { grant := none, waiting := [], ref := none, building := false, segAt := 0, segAcc := [], segRef := PwrRef.empty, carry := 0,
    point := none, kp := [], depart := false, launchAcc := [], lastCharge := 0, floorAsked := false }

/-- Power state of the module. -/
structure Pwr where
  stages : KMap Stage
  doms : KMap DomSt
  ctx : KMap PwrCtx
  /-- Operating point in force by partition (k of Table 15.3). -/
  point : KMap Nat
  ceiling : Nat
  ceilingActive : Bool
  /-- Comparators acting, by 64 × limit row + unit (Table 15.4a). -/
  acting : List Nat
  /-- Local clock at which a partition's edges began to be suppressed, while they are (Table 15.9). -/
  slowed : KMap Nat
  /-- The least point a rail with fewer phases lets its partitions run at, by stage (R384). -/
  railMin : KMap Nat
  deriving DecidableEq, Repr

def Pwr.reset : Pwr := { stages := [], doms := [], ctx := [], point := [], ceiling := 0, ceilingActive := false, acting := [],
                         slowed := [], railMin := [] }

/-! ### Start-up, images and identity (16) -/

/-- Slot record states (Table 16.1). -/
inductive SlotSt where
  | empty | writing | valid
  deriving DecidableEq, Repr

/-- One image slot of the configuration flash (R389). -/
structure Slot where
  st : SlotSt
  gen : Nat
  tries : Nat
  image : List Byte
  deriving DecidableEq, Repr

def Slot.reset : Slot := { st := .empty, gen := 0, tries := 0, image := [] }

/-- Caldera states (Table 16.8). -/
inductive CalSt where
  | boot | init | run | recovery
  deriving DecidableEq, Repr

/-- The record area of the flash (R390): what survives the removal of power. -/
structure Flash where
  slotA : Slot
  slotB : Slot
  /-- The fault map (R282): fenced slots by cluster, engines, pseudo-channels, a fenced half. -/
  fencedSlots : KMap (List Nat)
  fencedEngines : List Nat
  retiredPcs : List Nat
  fencedHalf : Option Nat
  /-- CRITICAL records, newest first (R356). -/
  events : List EvRec
  /-- Stored neighbour digests by port (R188). -/
  digests : KMap Nat
  acceptedLocus : Option Nat
  serial : Nat
  boot : Nat
  starts : Nat
  secMin : Nat
  /-- Owner key slots 0–3: digest and revoked (R392, R399). -/
  owners : List (List Byte × Bool)
  /-- The four fused Mbawen key slots: digest, no bytes for an empty one, and revocation bit (R392). -/
  mbawen : List (List Byte × Bool)
  deriving DecidableEq, Repr

def Flash.reset : Flash :=
  { slotA := Slot.reset, slotB := Slot.reset, fencedSlots := [], fencedEngines := [], retiredPcs := [], fencedHalf := none,
    events := [], digests := [], acceptedLocus := none, serial := 0, boot := 0, starts := 0, secMin := 0, owners := [],
    mbawen := (List.range 4).map (fun k => (Config.mbawenKeyDigest k, Config.mbawenKeyRevoked k)) }

/-- An image writer (R397): the requester, the target slot, the length announced, the bytes written so far by offset. -/
structure Writer where
  who : Req
  target : Nat
  length : Nat
  bytes : KMap Byte
  deriving DecidableEq, Repr

/-- Start-up state and identity of the module. -/
structure Ident where
  /-- 0 ordering code AX-1-A, 1 AX-1-B (Table 0.1). -/
  grade : Nat
  cal : CalSt
  locus : Option Nat
  booted : Option Nat
  otherCandidate : Bool
  unaccepted : Bool
  pendingReset : Bool
  lastReject : Nat
  opticsAt : Option Nat
  /-- Configuration of the booted image, and live fields waiting for a boundary (R398). -/
  liveWaiting : Option Cfg
  fwMajor : Nat
  fwMinor : Nat
  secVersion : Nat
  writer : Option Writer
  /-- CAL_OWN was released since the selected firmware started (R395). -/
  released : Bool
  /-- BOOT has counted this power-up (Table 16.9). -/
  counted : Bool
  /-- SCOPE and PORT_MASK of the last ID_ACCEPT (R412). -/
  lastAccept : Option (Nat × Nat)
  deriving DecidableEq, Repr

def Ident.reset : Ident :=
  { grade := 0, cal := .boot, locus := none, booted := none, otherCandidate := false,
    unaccepted := false, pendingReset := false, lastReject := 0, opticsAt := none, liveWaiting := none, fwMajor := 0,
    fwMinor := 0, secVersion := 0, writer := none, released := false, counted := false, lastAccept := none }

/-! ### Management endpoints (16) -/

/-- An SPDM connection (R410): how far it is negotiated, and its transcript. -/
structure SpdmConn where
  /-- 0 none, 1 after GET_VERSION, 2 after GET_CAPABILITIES, 3 negotiated, 4 digests or certificate read, 5 authenticated. -/
  phase : Nat
  transcript : List Byte
  deriving DecidableEq, Repr

def SpdmConn.reset : SpdmConn := { phase := 0, transcript := [] }

/-- An SPDM session (R410): established by FINISH, with its key generation. -/
structure Session where
  id : Nat
  binding : Nat
  eid : Nat
  established : Bool
  reqGen : Nat
  rspGen : Nat
  deriving DecidableEq, Repr

/-- The MCTP endpoint, its PLDM terminus and SPDM state. -/
structure Mgmt where
  i3cAddr : Option Nat
  eidI3c : Nat
  eidVdm : Nat
  tid : Nat
  /-- By 256 × binding + endpoint. -/
  conns : KMap SpdmConn
  sessions : List Session
  nextSession : Nat
  deriving DecidableEq, Repr

def Mgmt.reset : Mgmt := { i3cAddr := none, eidI3c := 0, eidVdm := 0, tid := 0, conns := [], sessions := [], nextSession := 0 }

/-! ### Geyser transfers and gateways (12) -/

/-- A transfer of the shard protocol (R326–R328). -/
structure Xfer where
  ctx : Nat
  writing : Bool
  gateway : Nat
  jobId : Nat
  participant : Nat
  shard : Nat
  step : Nat
  /-- 0 opening, 1 data, 2 closing; 3 waiting out BUSY, 4 waiting for a gateway; for a reading transfer 0 until FETCH_REPLY. -/
  phase : Nat
  object : List Byte
  total : Nat
  digest : List Byte
  acked : Nat
  sent : Nat
  window : Nat
  rtoUs : Nat
  timeouts : Nat
  sinceDack : Nat
  partition : Nat
  records : Nat
  keys : List Nat
  deriving DecidableEq, Repr

/-- Geyser of the module: transfers by HANDLE, the next HANDLE, gateways marked down. -/
structure Gey where
  xfers : KMap Xfer
  nextHandle : Nat
  gwDown : List Nat
  deriving DecidableEq, Repr

def Gey.reset : Gey := { xfers := [], nextHandle := 1, gwDown := [] }

/-! ### Pins (17) -/

/-- Pin levels after their filters, and the outputs the module drives (R425–R434). -/
structure Pins where
  pgood : Bool
  resetN : Bool
  testEn : Bool
  perstN : Bool
  pwrCycleReq : Bool
  interlockOut : Bool
  /-- Stage groups 1–5 enabled (R372), by bit group − 1. -/
  groups : Nat
  /-- A power-down is in force until PGOOD falls and rises again (R424). -/
  latchedOff : Bool
  deriving DecidableEq, Repr

def Pins.reset : Pins :=
  { pgood := false, resetN := false, testEn := false, perstN := false, pwrCycleReq := false, interlockOut := false,
    groups := 0, latchedOff := false }

/-! ### The module -/

/-- The state of one AX-1 module. -/
structure State where
  time : Time
  cfg : Cfg
  id : Ident
  flash : Flash
  mbx : Mbx
  ctxs : KMap Ctx
  mem : Mem
  clus : KMap Cluster
  fab : Fab
  ports : KMap Port
  recov : Recov
  cal : Cal
  det : Det
  gey : Gey
  tel : Tel
  evr : Evr
  pwr : Pwr
  mgmt : Mgmt
  pins : Pins
  /-- W1C event bits set, by register code × 65,536 + index. -/
  evts : KMap Nat
  /-- Counters, by counter code × 2^24 + instance. -/
  ctrs : KMap Nat
  /-- What has left the module, newest first. -/
  out : List Emit
  /-- The model's own count of free values used. -/
  free : Nat
  /-- The commands that wait, first in, first out. -/
  pending : List Instr
  deriving DecidableEq, Repr

/-- Why the module model stops with a fault. -/
inductive Fault where
  /-- Raised by a command whose operand names a port, lane, partition, slot, ring or other unit the module does not have
  (Table 1.5, R181): no such event can reach the hardware. Safe: the model stops. -/
  | noSuchUnit (what : String)
  deriving DecidableEq, Repr

/-- Why the module model refuses a command. -/
inductive Refusal where
  /-- Raised by Dispatch.lean for a row whose meaning is not written. Safe: the model stops. -/
  | notModelled (mnemonic : String)
  deriving DecidableEq, Repr

/-- The module right after reset, before PGOOD: everything at its reset value, nothing loaded, no command waiting. -/
def State.reset : State :=
  { time := Time.reset, cfg := Cfg.dflt, id := Ident.reset, flash := Flash.reset, mbx := Mbx.reset, ctxs := [], mem := Mem.reset,
    clus := [], fab := Fab.reset, ports := [], recov := Recov.reset, cal := Cal.reset, det := Det.reset, gey := Gey.reset,
    tel := Tel.reset, evr := Evr.reset, pwr := Pwr.reset, mgmt := Mgmt.reset, pins := Pins.reset, evts := [], ctrs := [],
    out := [], free := 0, pending := [] }

end Sys2Proof.Machine
end

