-- ==== Sys2Proof/Machine/Ops.lean ====
section
/-!
DEFINITION. The shared operations: reading and changing one indexed part of the state, counters, free values, time
arithmetic, what the module sends, and module memory by bytes and blocks.
-/
namespace Sys2Proof.Machine

/-! ### Indexed parts -/

def State.ctx (s : State) (x : Nat) : Ctx := KMap.getD s.ctxs x Ctx.reset
def State.setCtx (s : State) (x : Nat) (c : Ctx) : State := { s with ctxs := KMap.put s.ctxs x c }
def State.updCtx (s : State) (x : Nat) (f : Ctx → Ctx) : State := s.setCtx x (f (s.ctx x))
def State.updCoord (s : State) (x : Nat) (f : Coord → Coord) : State := s.updCtx x (fun c => { c with coord := f c.coord })
def State.updGey (s : State) (x : Nat) (f : GeyCtx → GeyCtx) : State := s.updCtx x (fun c => { c with gey := f c.gey })
def State.updExec (s : State) (x : Nat) (f : Exec → Exec) : State := s.updCtx x (fun c => { c with exec := f c.exec })
def State.port (s : State) (i : Nat) : Port := KMap.getD s.ports i Port.reset
def State.updPort (s : State) (i : Nat) (f : Port → Port) : State := { s with ports := KMap.put s.ports i (f (s.port i)) }
def State.cluster (s : State) (g : Nat) : Cluster := KMap.getD s.clus g Cluster.reset
def State.updCluster (s : State) (g : Nat) (f : Cluster → Cluster) : State := { s with clus := KMap.put s.clus g (f (s.cluster g)) }
def State.ring (s : State) (n : Nat) : Ring := KMap.getD s.mbx.rings n Ring.reset
def State.updMbx (s : State) (f : Mbx → Mbx) : State := { s with mbx := f s.mbx }
def State.updRing (s : State) (n : Nat) (f : Ring → Ring) : State :=
  { s with mbx := { s.mbx with rings := KMap.put s.mbx.rings n (f (s.ring n)) } }
def State.updFab (s : State) (f : Fab → Fab) : State := { s with fab := f s.fab }
def State.updTime (s : State) (f : Time → Time) : State := { s with time := f s.time }
def State.updRecov (s : State) (f : Recov → Recov) : State := { s with recov := f s.recov }
def State.updCal (s : State) (f : Cal → Cal) : State := { s with cal := f s.cal }
def State.updDet (s : State) (f : Det → Det) : State := { s with det := f s.det }
def State.updTel (s : State) (f : Tel → Tel) : State := { s with tel := f s.tel }
def State.updEvr (s : State) (f : Evr → Evr) : State := { s with evr := f s.evr }
def State.updId (s : State) (f : Ident → Ident) : State := { s with id := f s.id }
def State.updFlash (s : State) (f : Flash → Flash) : State := { s with flash := f s.flash }
def State.updMem (s : State) (f : Mem → Mem) : State := { s with mem := f s.mem }
def State.updGeyser (s : State) (f : Gey → Gey) : State := { s with gey := f s.gey }
def State.setCfg (s : State) (c : Cfg) : State := { s with cfg := c }
def State.updPorts (s : State) (f : KMap Port → KMap Port) : State := { s with ports := f s.ports }
def State.updClus (s : State) (f : KMap Cluster → KMap Cluster) : State := { s with clus := f s.clus }
def State.updEvts (s : State) (f : KMap Nat → KMap Nat) : State := { s with evts := f s.evts }
def State.updPins (s : State) (f : Pins → Pins) : State := { s with pins := f s.pins }
def State.updMgmt (s : State) (f : Mgmt → Mgmt) : State := { s with mgmt := f s.mgmt }
def State.pwrCtx (s : State) (x : Nat) : PwrCtx := KMap.getD s.pwr.ctx x PwrCtx.reset
def State.updPwr (s : State) (f : Pwr → Pwr) : State := { s with pwr := f s.pwr }
def State.updPwrCtx (s : State) (x : Nat) (f : PwrCtx → PwrCtx) : State :=
  s.updPwr (fun p => { p with ctx := KMap.put p.ctx x (f (s.pwrCtx x)) })
def State.stage (s : State) (i : Nat) : Stage := KMap.getD s.pwr.stages i Stage.reset
def State.updStage (s : State) (i : Nat) (f : Stage → Stage) : State :=
  s.updPwr (fun p => { p with stages := KMap.put p.stages i (f (s.stage i)) })
def State.dom (s : State) (i : Nat) : DomSt := KMap.getD s.pwr.doms i .off
def State.setDom (s : State) (i : Nat) (d : DomSt) : State := s.updPwr (fun p => { p with doms := KMap.put p.doms i d })
def State.ptp (s : State) (i : Nat) : PtpPort := KMap.getD s.time.ptp i PtpPort.reset
def State.updPtp (s : State) (i : Nat) (f : PtpPort → PtpPort) : State :=
  s.updTime (fun t => { t with ptp := KMap.put t.ptp i (f (s.ptp i)) })

/-- Fold a state change over a list of indices. -/
def forEach {α : Type} (l : List α) (s : State) (f : State → α → State) : State := l.foldl f s

/-- Apply a change when a condition holds. -/
def State.when (s : State) (b : Bool) (f : State → State) : State := if b then f s else s

/-! ### Identity and run state -/

/-- The module's own locus, 0 until assigned (R404). -/
def State.locus (s : State) : Nat := s.id.locus.getD 0
/-- Run state (R402). -/
def State.inRun (s : State) : Bool := s.id.cal == .run
/-- The contexts of the module, 0–15 (R111). -/
def ctxIds : List Nat := List.range 16
/-- Contexts that are not EMPTY. -/
def State.liveCtxs (s : State) : List Nat := ctxIds.filter (fun x => (s.ctx x).st != .empty)

/-! ### Free values -/

/-- n free values are used. -/
def State.spend (s : State) (n : Nat) : State := { s with free := s.free + n }
/-- The next free number (log 10). -/
def State.fresh (s : State) : Nat × State := (Config.freeNat s.free, s.spend 1)
/-- The next free yes-or-no outcome. -/
def State.freshBool (s : State) : Bool × State := (Config.freeBool s.free, s.spend 1)

/-! ### Counters (R88) -/

/-- The width of a counter. -/
def Ctr.width : Ctr → Nat
  | .validBeats | .bubbleOperand | .bubbleAnchor | .bubblePad | .bubbleSlice | .vecResults
  | .hbmFgSlots | .hbmGeySlots | .scrubSlots | .calHeldTicks | .xposeJobs
  | .fabTx | .fabRx | .fabCm | .fabStall | .fabLimited | .prtFecCorr | .prtReplay
  | .detNcr | .detLateRelease | .detDumpBlocks | .errShadow | .errShadowExtra
  | .geyStream | .geyPartner | .geyCkptBytes | .geyPinStall | .telSamples | .ventRecords | .ventBytes
  | .evrRecords | .evrFolded | .pwrThrottle | .pwrDepart => 64
  | .nsCe | .fsCe | .hbmCe | .prtFecUncorr | .prtFlitsLost | .prtEdgeDrop | .detCheck | .detShadow | .detTransient
  | .recL1 | .recL2 | .recHang | .recRestore | .geyRetx | .telMissed | .telLate | .ventAged
  | .evrReplaced | .evrDropped => 32
  | .retired => 48
  | .clCheckMismatch | .clSparseMeta | .nsUe | .fsUe | .hbmUe | .memBlockCheck | .memMass
  | .fabHdr | .fabHops | .fabStale | .fabDomain | .fabAge | .fabDown | .prtRetrain | .prtLaneFail | .prtIdent
  | .alignFail | .detSquare | .detAnchor | .detPermanent | .detExposure | .detSuspect
  | .recL3 | .recL4 | .recL5 | .recCalTakeover | .recCoordTakeover | .recHold
  | .geyGwFail | .geyCkptFail | .geyTakeover | .geyReseed | .telDrop | .telPartial | .ventRefused | .evrClears
  | .pwrTrip | .pwrPhaseLost | .pwrRefused | .pwrOverrun => 16

/-- Utilisation counters and the retired-command counter wrap; error counters saturate. -/
def Ctr.wraps (c : Ctr) : Bool := c.width == 64 || c.width == 48

/-- The place of a counter's instance. -/
def Ctr.key (c : Ctr) (i : Nat) : Nat := c.ctorIdx * 2 ^ 24 + i

/-- A counter's value, 0 at reset. -/
def ctrGet (m : KMap Nat) (c : Ctr) (i : Nat) : Nat := KMap.getD m (c.key i) 0

/-- A counter after n more occurrences (R88). -/
def Ctr.next (c : Ctr) (v n : Nat) : Nat := if c.wraps then wrapAdd c.width v n else satAdd c.width v n

def ctrAdd (m : KMap Nat) (c : Ctr) (i n : Nat) : KMap Nat := KMap.put m (c.key i) (c.next (ctrGet m c i) n)

def State.ctr (s : State) (c : Ctr) (i : Nat) : Nat := ctrGet s.ctrs c i

/-- Count n occurrences on instance i of a counter. -/
def State.bump (s : State) (c : Ctr) (i : Nat) (n : Nat := 1) : State := { s with ctrs := ctrAdd s.ctrs c i n }

/-! ### Time -/

/-- The module holds a fleet count (TIM_STATUS.STATE ≠ NONE, R204). -/
def State.fcHeld (s : State) : Bool := s.time.st != 0

/-- The clock the module's events are read on: fleet count once held, local time before (R358, log 6). -/
def State.now (s : State) : Nat := if s.fcHeld then s.time.fc else s.time.loc

/-- Time passes to fleet-count tick `t`; a stamp not ahead of the clock moves nothing (log 6). -/
def State.advanceTo (s : State) (t : Nat) : State :=
  if s.fcHeld && decide (s.time.fc < t) then
    s.updTime (fun m => { m with loc := m.loc + (t - m.fc), fc := t })
  else s

/-- Calendar SECONDS and NANOSECONDS of a fleet count (R217). -/
def calOf (epoch c : Nat) : Nat × Nat := (epoch + c / 1000000000, c % 1000000000)

/-- A multiple of Q for a coordinator at level CYCLE (R236). -/
def onGrid (cycle : Bool) (t : Nat) : Nat := if cycle then roundUp t alignQuantum else t

/-- The effective determinism level is CYCLE (R224). -/
def State.isCycle (s : State) : Bool := s.cfg.detLevel == 1 && s.det.aligned

/-- The retry hint: Caldera's estimate of its remaining start-up time, a free value in 1,000–65,535 µs (R161, R407, log 10). -/
def State.hint (s : State) : Nat × State :=
  let r := s.fresh
  (1000 + r.1 % 64536, r.2)

/-! ### Sending -/

/-- One thing leaves the module. -/
def State.emit (s : State) (e : Emit) : State := { s with out := e :: s.out }

/-- The key of a module and endpoint. -/
def peerKey (locus ep : Nat) : Nat := 32 * locus + ep

/-- A CTRL leaves twice, once from each half, or once in SINGLE (R289, R291). -/
def State.copies (s : State) : Nat := if s.cal.fencedA || s.cal.fencedB then 1 else 2

/-- Send a CTRL message to Caldera of a module with the next SEQ of its space, kept until acknowledged (R159, R160). -/
def State.sendCtrl (s : State) (dst msg step attempt param : Nat) (payload : List Byte := []) : State :=
  let k := peerKey dst 16
  let q := (KMap.getD s.fab.seqOut k 0 + 1) % 2 ^ 32
  let m : CtrlMsg := { dst, ep := 16, seq := q, incarn := s.flash.starts % 256, msg, step, attempt := attempt % 16, param,
                       payload, copies := s.copies }
  (s.updFab (fun f => { f with seqOut := KMap.put f.seqOut k q,
                               unacked := f.unacked ++ [{ m, intervalUs := 20, notBefore := 0 }] })).emit (.ctrl m)

/-- Send a RESP message (Table 6.10). ECHO rides on it when a CN_ECHO to that source went within 1,024 ns (R154). -/
def State.sendResp (s : State) (dst ep msg step param : Nat) (echo : Bool := false) : State :=
  s.emit (.resp { dst, ep, msg, step, param, echo })

/-- The last SEQ used towards Caldera of a module. -/
def State.lastSeq (s : State) (dst : Nat) : Nat := KMap.getD s.fab.seqOut (peerKey dst 16) 0

/-! ### Memory: bytes -/

/-- What a byte nothing has written reads as (log 7). -/
def Mem.blank : Byte := 0#8

/-- The canonical form: addresses strictly rising, no listed byte equal to the unlisted one. -/
def Mem.wfBytes : List Host.Cell → Bool
  | [] => true
  | [c] => c.2 != Mem.blank
  | c :: d :: m => decide (c.1 < d.1) && (c.2 != Mem.blank) && Mem.wfBytes (d :: m)

/-- Memory.wf of the package: the memory of a state is canonical. -/
def Memory.wf (m : Mem) : Bool := Mem.wfBytes m.bytes

/-- Read one byte. -/
def Mem.readCell : List Host.Cell → Nat → Byte
  | [], _ => Mem.blank
  | c :: m, a => if a = c.1 then c.2 else Mem.readCell m a

/-- Write one byte, keeping the canonical form. -/
def Mem.writeCell : List Host.Cell → Nat → Byte → List Host.Cell
  | [], a, b => if b = Mem.blank then [] else [(a, b)]
  | c :: m, a, b =>
    if a = c.1 then (if b = Mem.blank then m else (a, b) :: m)
    else if a < c.1 then (if b = Mem.blank then c :: m else (a, b) :: c :: m)
    else c :: Mem.writeCell m a b

/-- Write bytes from an address up. -/
def Mem.writeCells (m : List Host.Cell) (a : Nat) : List Byte → List Host.Cell
  | [] => m
  | b :: bs => Mem.writeCells (Mem.writeCell m a b) (a + 1) bs

/-- Read one byte of module memory. -/
def State.byte (s : State) (a : Nat) : Byte := Mem.readCell s.mem.bytes a

/-- Read n bytes of module memory. -/
def State.readBytes (s : State) (a n : Nat) : List Byte := (List.range n).map (fun i => s.byte (a + i))

/-- Write bytes of module memory. -/
def State.writeBytes (s : State) (a : Nat) (bs : List Byte) : State :=
  s.updMem (fun m => { m with bytes := Mem.writeCells m.bytes a bs })

/-- Clear n bytes. -/
def State.clearRange (s : State) (a n : Nat) : State :=
  s.updMem (fun m => { m with bytes := m.bytes.filter (fun c => !(decide (a ≤ c.1) && decide (c.1 < a + n))) })

/-! ### Addresses (R91) -/

/-- LEVEL of an address: 0 HBM, 1 far store, 2 near store. -/
def addrLevel (a : Nat) : Nat := bitsOf a 47 46

/-- The address meets R91: a valid level, zero reserved bits, the offset inside its store. -/
def addrOk (a : Nat) : Bool :=
  decide (a < 2 ^ 48) &&
  (match addrLevel a with
   | 0 => bitsOf a 45 39 == 0
   | 1 => bitsOf a 45 34 == 0 && decide (bitsOf a 29 0 < 0x2FE80000)
   | 2 => bitsOf a 45 35 == 0 && decide (bitsOf a 14 0 ≤ 0x5FFF)
   | _ => false)

/-- The partition an address lies in. -/
def addrPart (a : Nat) : Nat :=
  match addrLevel a with
  | 0 => bitsOf a 38 35
  | 1 => bitsOf a 33 30
  | _ => bitsOf a 34 15 / 65536

/-- The address of a logical core's near store. -/
def nearAddr (core off : Nat) : Nat := 2 * 2 ^ 46 + core * 2 ^ 15 + off
/-- The HBM address of a partition's offset. -/
def hbmAddr (p off : Nat) : Nat := p * 2 ^ 35 + off
/-- The far-store address of a partition's offset. -/
def farAddr (p off : Nat) : Nat := 2 ^ 46 + p * 2 ^ 30 + off

/-- The home die of an anchor block (R148). -/
def homeDie (block : Nat) : Nat := block / 8 % 4

/-- The global cluster index of a logical core (Table 0.6). -/
def coreCluster (core : Nat) : Nat := core / 256
/-- The partition of a cluster (R14). -/
def clusterPart (g : Nat) : Nat := g / 256
/-- The die of a partition. -/
def partDie (p : Nat) : Nat := p / 4
/-- The physical core address of a slot of a cluster (Table 0.6). -/
def physCore (g slot : Nat) : Nat := g * 512 + slot

/-- The partition belongs to a mask. -/
def inMask (mask p : Nat) : Bool := mask.testBit p

/-- The block an address lies in. -/
def blockOf (a : Nat) : Nat := a / 4096 * 4096

end Sys2Proof.Machine
end

