-- ==== Sys2Proof/Machine/EventLog.lean ====
section
/-!
DEFINITION. Creating event records: folding, a full log, the spill area of a freeze, losses, the flash event section
and the alert latch (14 R355 to R361, 17 R429).
-/
namespace Sys2Proof.Machine

/-- What an event says of itself (Table 14.1): CODE, SEVERITY, SOURCE, CONTEXT, STEP, ATTEMPT, DATA as numbers. -/
structure Event where
  code : Nat
  sev : Nat
  srcType : Nat := 0
  srcIndex : Nat := 0
  ctx : Nat := 0xFF
  step : Nat := 0
  attempt : Nat := 0
  data : List Nat := []
  deriving DecidableEq, Repr

/-- The parts of the state that recording an event changes. -/
structure Log where
  evr : Evr
  flash : List EvRec
  ctrs : KMap Nat
  evts : KMap Nat
  deriving DecidableEq, Repr

/-- The place of a register's event bits. -/
def Reg.key (r : Reg) (i : Nat) : Nat := r.ctorIdx * 2 ^ 16 + i

/-- Entries the log holds (R355). -/
def evrCapacity : Nat := 16384
/-- Entries the spill area holds (R362). -/
def spillCapacity : Nat := 1024

def Log.bump (l : Log) (c : Ctr) : Log := { l with ctrs := ctrAdd l.ctrs c 0 1 }

/-- Set an event bit of CAL_EVR_STATUS; no such bit creates a record (R368). -/
def Log.evrBit (l : Log) (b : Nat) : Log :=
  { l with evts := KMap.upd l.evts (Reg.evrStatus.key 0) 0 (fun v => setBit v b true) }

/-- The record at or below a severity that a full list gives up: the oldest closed one of the lowest severity (R361). -/
def victim (rs : List EvRec) (sev : Nat) : Option EvRec :=
  let cands := rs.filter (fun r => !r.isOpen && decide (r.severity ≤ sev))
  (List.range (sev + 1)).findSome? (fun v => cands.find? (fun r => r.severity == v))

/-- A record into a list of bounded size: the list, and the severity of what was lost and whether it was replaced. -/
def insertRec (rs : List EvRec) (cap : Nat) (r : EvRec) : List EvRec × Option (Nat × Bool) :=
  if rs.length < cap then (rs ++ [r], none)
  else match victim rs r.severity with
    | some v => (rs.filter (fun x => x.seq != v.seq) ++ [r], some (v.severity, true))
    | none => (rs, some (r.severity, false))

/-- Store a record in the log, or while a freeze stands in a free entry of the log, then in the spill area (R361, R362). -/
def Log.store (l : Log) (r : EvRec) : Log × Option (Nat × Bool) :=
  match l.evr.freeze with
  | none =>
    let p := insertRec l.evr.log evrCapacity r
    ({ l with evr := { l.evr with log := p.1 } }, p.2)
  | some _ =>
    if l.evr.log.length < evrCapacity then
      ({ l with evr := { l.evr with log := l.evr.log ++ [r] } }, none)
    else
      let p := insertRec l.evr.spill spillCapacity r
      let l := { l with evr := { l.evr with spill := p.1 } }
      (if spillCapacity ≤ p.1.length then l.evrBit 28 else l, p.2)

/-- A record is in the snapshot of a standing freeze, so nothing folds into it (R362). -/
def Log.frozen (l : Log) (r : EvRec) : Bool :=
  match l.evr.freeze with
  | none => false
  | some f => decide (serialDist 32 r.seq f.oldest ≤ serialDist 32 f.newest f.oldest)

/-- The OPEN record an event folds into (R360): equal CODE, SOURCE and CONTEXT; a CLEARED record never. -/
def Log.openFor (l : Log) (code srcType srcIndex ctx : Nat) : Option EvRec :=
  if code = 0x0F01 then none
  else (l.evr.log ++ l.evr.spill).find? (fun r => r.isOpen && r.code == code && r.srcType == srcType &&
    r.srcIndex == srcIndex && r.ctx == ctx && !l.frozen r)

/-- Change the record of a SEQ wherever it stands. -/
def Evr.updRec (e : Evr) (seq : Nat) (f : EvRec → EvRec) : Evr :=
  let g := List.map (fun (r : EvRec) => if r.seq = seq then f r else r)
  { e with log := g e.log, spill := g e.spill }

/-- Records kept for export: ERROR and CRITICAL when created and again when closed with REPEAT over 1; the rest when
they close (R366). -/
def Evr.exportOnOpen (e : Evr) (r : EvRec) : Evr := if 2 ≤ r.severity then { e with export_ := e.export_ ++ [r] } else e
def Evr.exportOnClose (e : Evr) (r : EvRec) : Evr :=
  if r.severity < 2 ∨ 1 < r.repeat_ then { e with export_ := e.export_ ++ [{ r with isOpen := false }] } else e

/-- Close an OPEN record (R359). -/
def Evr.close (e : Evr) (seq : Nat) : Evr :=
  match (e.log ++ e.spill).find? (fun r => r.seq == seq && r.isOpen) with
  | none => e
  | some r => (e.updRec seq (fun r => { r with isOpen := false })).exportOnClose r

/-- Open records, oldest first. -/
def Evr.openRecs (e : Evr) : List EvRec := (e.log ++ e.spill).filter (·.isOpen)

/-- Close every open record that a test picks. -/
def Evr.closeWhere (e : Evr) (p : EvRec → Bool) : Evr := (e.openRecs.filter p).foldl (fun e r => e.close r.seq) e

/-- Close the oldest open record when 256 are open and a new one opens (R359). -/
def Evr.makeRoom (e : Evr) : Evr :=
  if 256 ≤ e.openRecs.length then (match e.openRecs.head? with | some r => e.close r.seq | none => e) else e

/-- One occurrence folded (R360): REPEAT saturates and then closes the record. -/
def Log.fold (l : Log) (r : EvRec) (now n : Nat) (data : List Nat → List Nat) : Log :=
  let e := l.evr.updRec r.seq (fun r => { r with repeat_ := satAdd 32 r.repeat_ n, lastFc := now, data := data r.data })
  let l := { l with evr := if 2 ^ 32 - 1 ≤ r.repeat_ + n then e.close r.seq else e }
  l.bump .evrFolded

/-- Losses by severity, in four counts. -/
def addLoss (d : List Nat) (sev : Nat) : List Nat := (List.range 4).map (fun i => d.getD i 0 + (if i = sev then 1 else 0))

/-- A drop or replacement is counted (R361). -/
def Log.countLoss (l : Log) (x : Nat × Bool) : Log := (l.bump (if x.2 then .evrReplaced else .evrDropped)).evrBit 30

/-- A loss folds into the OPEN RECORDER LOSS record, or opens one; what opening it replaces folds in too (R361). -/
def Log.loss (l : Log) (mk : Nat → Nat → List Nat → EvRec) (now : Nat) (x : Nat × Bool) : Log :=
  let l := l.countLoss x
  match l.openFor 0x0F02 0 0 0xFF with
  | some r => l.fold r now 1 (fun d => addLoss d x.1)
  | none =>
    let r := mk l.evr.nextSeq 0x0F02 (addLoss [] x.1)
    let e := l.evr.makeRoom
    let l := { l with evr := { e with nextSeq := (e.nextSeq + 1) % 2 ^ 32 } }
    let p := l.store r
    let l := (p.1).bump .evrRecords
    match p.2 with
    | none => l
    | some y => (l.countLoss y).fold r now 1 (fun d => addLoss d y.1)

/-- Record an event (R355, R360, R361), given how a record of this moment is made. -/
def Log.record (l : Log) (mk : Nat → Nat → List Nat → EvRec) (now : Nat) (v : Event) : Log :=
  match l.openFor v.code v.srcType v.srcIndex v.ctx with
  | some r => l.fold r now 1 id
  | none =>
    let e := l.evr.makeRoom
    let r0 := mk e.nextSeq v.code v.data
    let r := { r0 with severity := v.sev, srcType := v.srcType, srcIndex := v.srcIndex, ctx := v.ctx,
                       step := v.step, attempt := v.attempt }
    let l := { l with evr := { (e.exportOnOpen r) with nextSeq := (e.nextSeq + 1) % 2 ^ 32 } }
    let l := if v.sev = 3 then
        { l with flash := (r :: l.flash).take 256, evr := { l.evr with alert := true } } else l
    let p := l.store r
    let l := (p.1).bump .evrRecords
    match p.2 with
    | none => l
    | some x => l.loss mk now x

/-- The record this moment makes of a SEQ, CODE and DATA (R357, R358): calendar time, or local time with PRE_FC. -/
def State.mkRec (s : State) (seq code : Nat) (data : List Nat) : EvRec :=
  let t := s.now
  let cal := if s.fcHeld then calOf s.cfg.epochSec t else (t / 1000000000, t % 1000000000)
  { seq, seconds := cal.1, nanos := cal.2, firstFc := t, lastFc := t, repeat_ := 1, code, severity := 1,
    preFc := !s.fcHeld, writer := s.cal.owner.getD 0, isOpen := true, srcType := 0, srcIndex := 0, step := 0, attempt := 0,
    ctx := 0xFF, boot := s.flash.boot % 2 ^ 16, data }

/-- Put the parts a record changed back into the state. -/
def State.withLog (s : State) (l : Log) : State :=
  { s with evr := l.evr, flash := { s.flash with events := l.flash }, ctrs := l.ctrs, evts := l.evts }

/-- The parts a record may change. -/
def State.toLog (s : State) : Log := { evr := s.evr, flash := s.flash.events, ctrs := s.ctrs, evts := s.evts }

/-- Record an event in the recorder (R355). -/
def State.record (s : State) (v : Event) : State := s.withLog (s.toLog.record s.mkRec s.now v)

/-- A freeze ends: spill records enter the log in SEQ order under R361 (R362). -/
def State.endFreeze (s : State) : State :=
  let sp := s.evr.spill
  let s := s.updEvr (fun e => { e with freeze := none, spill := [] })
  forEach sp s (fun s r =>
    let p := s.toLog.store r
    let l := match p.2 with
      | none => p.1
      | some x => p.1.loss s.mkRec s.now x
    s.withLog l)

/-- The bytes of a record as stored and sent, in network byte order (Table 14.1). -/
def EvRec.bytes (r : EvRec) (locus : Nat) : List Byte :=
  beBytes 4 r.seq ++ beBytes 8 r.seconds ++ beBytes 4 r.nanos ++ beBytes 8 r.firstFc ++ beBytes 8 r.lastFc ++
  beBytes 4 r.repeat_ ++ beBytes 2 r.code ++ beBytes 1 r.severity ++
  beBytes 1 (b2n r.preFc + 2 * r.writer + 4 * b2n r.isOpen) ++ beBytes 4 locus ++
  beBytes 4 (r.srcType * 2 ^ 24 + r.srcIndex) ++ beBytes 6 r.step ++ beBytes 1 r.attempt ++ beBytes 1 r.ctx ++
  beBytes 2 r.boot ++ beBytes 6 0 ++ fitBytes 32 ((r.data.map (beBytes 4)).flatten)

end Sys2Proof.Machine
end

