-- ==== Sys2Proof/Machine/Registers.lean ====
section
/-!
DEFINITION. The memory-mapped and management registers: the value each reads as, from the state it reports, its W1C
event bits, setting an event bit with its record (14 R357), and clearing by writing ones (00 R8).
-/
namespace Sys2Proof.Machine

/-- The W1C event bits of a register. -/
def State.evBits (s : State) (r : Reg) (i : Nat) : Nat := KMap.getD s.evts (r.key i) 0

/-! ### What the fields report -/

/-- SPARE slots of a cluster: good slots of 256–271 no logical core has moved to (Table 1.3). -/
def Cluster.spares (c : Cluster) : List Nat :=
  (List.range' 256 16).filter (fun s => !c.fenced.contains s && !(c.moved.any (fun e => e.2 == some s)))
/-- The slot of a logical core: its own, where it moved, or none when displaced (R18, R84). -/
def Cluster.slotOf (c : Cluster) (core : Nat) : Option Nat := (KMap.find c.moved core).getD (some core)
/-- ACTIVE slots of a cluster. -/
def Cluster.active (c : Cluster) : List Nat :=
  (List.range slotsPerCluster).filter (fun s => !c.fenced.contains s && !c.spares.contains s)
/-- The core a slot carries. -/
def Cluster.coreOf (c : Cluster) (slot : Nat) : Option Nat := (List.range 256).find? (fun k => c.slotOf k == some slot)

/-- Pseudo-channels of a partition that are active (R106). -/
def State.activePcs (s : State) (p : Nat) : List Nat :=
  (List.range 16).filter (fun n => !(KMap.getD s.mem.pcs (16 * p + n) PcHist.reset).retired)

/-- Ports of a bundle in direction v that are members (R168, R189). -/
def State.members (s : State) (v : Nat) : List Nat :=
  (List.range 32).filter (fun i => (s.port i).dir == v && (s.port i).st != .unused)
/-- Members that are UP for routing (R143, R191, R197). -/
def State.upMembers (s : State) (v : Nat) : List Nat := (s.members v).filter (fun i => (s.port i).st == .up)

/-- The coordinate of a locus in dimension d (R135). -/
def coordOf (locus d : Nat) : Nat :=
  match d with
  | 0 => bitsOf locus 3 0 | 1 => bitsOf locus 7 4 | 2 => bitsOf locus 11 8 | _ => bitsOf locus 16 12

/-- The dimension is a line, by configuration or by a break in force (R142, R164). -/
def State.isLine (s : State) (d : Nat) : Bool := !(s.cfg.fabWrap).testBit d || (KMap.find s.fab.breaks d).isSome
/-- brk[d] of R142. -/
def State.brk (s : State) (d : Nat) : Nat :=
  (KMap.find s.fab.breaks d).getD (s.cfg.extent d - 1)

def PortSt.code : PortSt → Nat
  | .dark => 0 | .detect => 1 | .equalise => 2 | .align => 3 | .ident => 4 | .up => 5 | .mgmtOnly => 6 | .held => 7
  | .backoff => 8 | .unused => 9 | .fastRetrain => 10
def CtxSt.code : CtxSt → Nat
  | .empty => 0 | .loading => 1 | .loaded => 2 | .armed => 3 | .running => 4 | .held => 5 | .draining => 6
def CalSt.code : CalSt → Nat
  | .boot => 0 | .init => 1 | .run => 2 | .recovery => 3

/-- A register's status fields are filled by Caldera before the module reaches RUN, and read 0 until then. -/
def State.filled (s : State) (n : Nat) : Nat := if s.id.cal = .boot then 0 else n

/-- The read-only fields of each register (Tables 3.6, 4.6, 5.10, 6.12, 7.9, 8.6, 9.10, 10.6, 11.6, 12.8, 13.10, 14.7,
15.5 to 15.7, 16.14). -/
def State.roFields (s : State) (r : Reg) (i : Nat) : Nat :=
  match r with
  | .clStatus =>
    let c := s.cluster i
    s.filled (field (b2n c.tslice) 1 31 + field c.active.length 9 17 + field c.spares.length 5 12 + field c.fenced.length 9 3)
  | .partStatus =>
    let a := s.activePcs i
    s.filled (field (b2n (decide (a.length < 16))) 1 31 +
      field (b2n (s.recov.pending.any (fun p => p.rank == 3 && p.unit / 16 == i))) 1 28 +
      field a.length 5 23 + field (sumL (a.map (fun n => 2 ^ n))) 16 7)
  | .avenue =>
    let up (v k : Nat) : Bool := (s.upMembers v).any (fun p => p / 8 == k)
    s.filled (field (b2n (s.isLine i)) 1 31 + field (if s.isLine i then s.brk i else 0) 5 25 + field (s.cfg.extent i) 6 19 +
      field (coordOf s.locus i) 5 14 +
      sumL ((List.range 4).map (fun k => field (b2n (up (2 * i) k)) 1 (10 + k) + field (b2n (up (2 * i + 1) k)) 1 (6 + k))))
  | .portStatus =>
    let p := s.port i
    field p.st.code 4 28 + field p.lanesOk 9 15 +
      field (if p.st = .up ∨ p.st = .mgmtOnly then p.width else 0) 4 11 + field (if 32 ≤ i then 15 else p.dir) 4 7 +
      field p.rank 6 1 + field (b2n p.accepted) 1 0
  | .timStatus =>
    let t := s.time
    field t.st 2 30 + field (b2n t.isRoot) 1 29 + field (b2n (t.ptp.any (fun e => e.2.locked))) 1 28 +
      field (b2n (decide (100 < t.residual.natAbs))) 1 27 + field (t.upstream.getD 0x3F) 6 16 + field t.dist 8 8 +
      field t.rootClass 2 6 + field t.rootPrio 4 2
  | .alignStatus =>
    field (b2n s.det.aligned) 1 31 + field (b2n s.det.downgrade) 1 29 + field (b2n s.isCycle) 1 28 + field s.det.tries 2 26
  | .clDetect =>
    let c := s.cluster i
    field (b2n c.suspect) 1 31 + field (b2n (s.recov.directed.any (fun d => d.cluster == i))) 1 29 +
      field ((c.late.filter (fun b => b)).length) 7 20 + field c.lastSlot 9 11 + field c.lastClass 3 8
  | .calHalf =>
    let c := s.cal
    field (b2n (c.owner == some 0)) 1 31 + field (b2n (c.owner == some 1)) 1 30 + field (b2n c.owner.isNone) 1 29 +
      field (b2n c.fencedA) 1 28 + field (b2n c.fencedB) 1 27 + field (b2n (c.fencedA || c.fencedB)) 1 26 +
      field (min 7 c.releasesA.length) 3 20 + field (min 7 c.releasesB.length) 3 17 + field (b2n c.interlockIn) 1 16 +
      field (b2n s.pins.interlockOut) 1 15 + field (b2n (ctxIds.any (fun x => (s.ctx x).coord.active))) 1 14
  | .geyStatus =>
    let act : Nat :=
      if ctxIds.any (fun x => (s.ctx x).gey.takeSend.isSome) then 4
      else if ctxIds.any (fun x => (s.ctx x).gey.takingFrom.isSome) then 5
      else if ctxIds.any (fun x => !(s.ctx x).gey.seedAcks.isEmpty) then 6
      else if ctxIds.any (fun x => (s.ctx x).gey.restore.isSome) then 3
      else if ctxIds.any (fun x => (s.ctx x).gey.ckpt.isSome) then 2
      else if ctxIds.any (fun x => !(s.ctx x).gey.streamAcks.isEmpty) then 1 else 0
    field act 3 29 + field (sumL (((List.range s.cfg.geyGwCount).filter (fun g => !s.gey.gwDown.contains g)).map (2 ^ ·))) 8 16
  | .telStatus =>
    field (b2n (!s.tel.stragglers.isEmpty)) 1 31 + field s.tel.driftBits 8 22 + field s.tel.subs.length 9 10
  | .evrStatus =>
    field (b2n s.evr.freeze.isSome) 1 31 + field s.evr.log.length 15 13 +
      field s.evr.openRecs.length 9 4
  | .pwrStatus =>
    field (b2n (s.pwr.acting.any (fun a => a / 64 == 2))) 1 31 + field (b2n (s.pwr.acting.any (fun a => a / 64 == 5))) 1 30 +
      field (b2n s.pwr.ceilingActive) 1 26 + field s.pwr.ceiling 13 13
  | .pwrCtx =>
    let p := s.pwrCtx i
    field (p.point.getD 15) 4 28 +
      field (match p.point with | some k => [36, 33, 30, 27, 24, 20, 16, 12].getD k 0 | none => 0) 6 22 +
      field (b2n p.ref.isSome) 1 21 + field (b2n p.depart) 1 20
  | .pwrRail =>
    let g := s.stage i
    let inst : Nat := if i < 16 then 8 else if i < 20 then 6 else if i < 34 then 4 else 2
    (if s.pins.groups = 0 then 0 else field g.active 4 28 + field inst 4 24) + field (b2n g.off) 1 21 + field g.setMv 13 8
  | .calId =>
    field s.id.cal.code 3 29 + field (s.id.booted.getD 0) 1 28 + field (b2n s.id.otherCandidate) 1 27 +
      field (b2n s.id.unaccepted) 1 25 + field (b2n s.id.pendingReset) 1 23 +
      field (b2n (s.flash.owners.any (fun o => !o.2))) 1 22 + field s.flash.secMin 6 16 +
      field (if s.id.cal = .boot then 0 else s.flash.boot) 16 0
  | .mbxStatus =>
    field (b2n s.mbx.hostLoss) 1 3 + field (b2n s.mbx.attached) 1 2 + field (b2n s.mbx.ready) 1 0

/-- The value a register reads as. -/
def State.regVal (s : State) (r : Reg) (i : Nat) : Nat := s.roFields r i + s.evBits r i

/-- The EVENT BIT class of a register, where its bits record under one (Table 14.2). -/
def Reg.evClass : Reg → Option Nat
  | .clStatus => some 0x10 | .partStatus => some 0x11 | .avenue => some 0x12 | .portStatus => some 0x13
  | .timStatus => some 0x14 | .alignStatus => some 0x15 | .clDetect => some 0x16 | .calHalf => some 0x17
  | .geyStatus => some 0x18 | .telStatus => some 0x19
  | _ => none

/-- The event bits that record at ERROR (after Table 14.2). -/
def Reg.errorBit (r : Reg) (b : Nat) : Bool :=
  match r with
  | .portStatus => decide (25 ≤ b) && decide (b ≤ 27)
  | .clDetect => b == 28
  | .partStatus => b == 29 || b == 30
  | .calHalf => decide (23 ≤ b) && decide (b ≤ 25)
  | .geyStatus => b == 27
  | _ => false

/-- SOURCE unit type of a register's events (Table 14.4). -/
def Reg.srcType : Reg → Nat
  | .clStatus => 1 | .clDetect => 1 | .partStatus => 3 | .portStatus => 4 | _ => 0

/-- Set an event bit. A bit already set stays set and records nothing (R357). -/
def State.setEvt (s : State) (r : Reg) (i b : Nat) : State :=
  if (s.evBits r i).testBit b then s
  else
    let s := s.updEvts (fun m => KMap.put m (r.key i) (setBit (s.evBits r i) b true))
    match r.evClass with
    | none => s
    | some c => s.record { code := c * 256 + b, sev := if r.errorBit b then 2 else 1, srcType := r.srcType,
                           srcIndex := if r.srcType = 0 then 0 else i, data := [s.regVal r i] }

/-- Writing ones clears event bits and nothing else (R8, R357). -/
def State.w1c (s : State) (r : Reg) (i mask : Nat) : State :=
  s.updEvts (fun m => KMap.put m (r.key i) ((List.range 32).foldl (fun v b => if mask.testBit b then setBit v b false else v)
    (s.evBits r i)))

/-! ### MCTP answers in vendor messages (16 R414) -/

/-- A vendor-defined answer: vendor ID, the instance echoed, COMMAND, COMPLETION, payload. -/
def State.vendor (s : State) (r : Req) (cmd completion : Nat) (payload : List Byte) : State :=
  s.emit (.mctp r 0x7E (beBytes 2 Config.pcieVendorId ++ leBytes 1 (r.inst % 32) ++ leBytes 1 cmd ++ leBytes 1 completion ++ payload))

/-- The requester's session is an established SPDM secured session of its own. -/
def State.inSession (s : State) (r : Req) : Bool :=
  match r.session with
  | none => false
  | some k => s.mgmt.sessions.any (fun x => x.id == k && x.established && x.binding == r.binding && x.eid == r.eid)

/-- A request over MCTP can be answered: powered, out of reset, not held by TEST_EN, and a half owns the module. -/
def State.served (s : State) : Bool :=
  s.pins.pgood && s.pins.resetN && !s.pins.latchedOff && !s.pins.testEn && s.cal.owner.isSome

/-- A request of this requester reaches the endpoint (R413): over I3C once the tray controller has assigned the dynamic address, over PCIe
VDM while the link is up. -/
def State.reached (s : State) (r : Req) : Bool := s.served && (if r.binding = 0 then s.mgmt.i3cAddr.isSome else s.mbx.linkUp)

/-- A vendor command (R365, R407, R414): without a session where it needs one DENIED; before RUN NOT_READY with a hint, in RECOVERY
DENIED, unless Table 16.11 serves it there; in BOOT, before local 70 ms, no answer (log 24). -/
def State.vendorGate (s : State) (r : Req) (cmd : Nat) (early needsSession : Bool) (f : State → State) : State :=
  let go := if needsSession && !s.inSession r then s.vendor r cmd 3 [] else f s
  if !s.reached r then s
  else match s.id.cal with
    | .run => go
    | .recovery => if early then go else s.vendor r cmd 3 []
    | .init =>
      if early then go
      else let h := s.hint
           h.2.vendor r cmd 1 (leBytes 4 h.1)
    | .boot => s

end Sys2Proof.Machine
end

