-- ==== Sys2Proof/Machine/MemOps.lean ====
section
/-!
DEFINITION. Blocks of module memory: tensors and the blocks they own (04 R93, 05 R117), block checks (R95), pending
slots of protected blocks (12 R305), whole-block writes and read-modify-write (R97), POISON and invalid marks (R99, R101).
-/
namespace Sys2Proof

/-! ### Tensors -/

/-- The extents of a tensor, four of them. -/
def Tensor.ext (t : Tensor) (d : Nat) : Nat := t.dims.getD d 1
/-- Elements of a tensor. -/
def Tensor.elems (t : Tensor) : Nat := t.ext 0 * t.ext 1 * t.ext 2 * t.ext 3
/-- Blocks of a tensor (R93). -/
def Tensor.blocks (t : Tensor) : Nat := ceilDiv t.elems (elemsPerBlock t.format)
/-- The partition a tensor lies in. -/
def Tensor.part (t : Tensor) : Nat := Machine.addrPart t.base
/-- Dimension indices from slowest to fastest (ORDER, R117). -/
def Tensor.orderDims (t : Tensor) : List Nat := [bitsOf t.order 7 6, bitsOf t.order 5 4, bitsOf t.order 3 2, bitsOf t.order 1 0]
/-- The logical indices of an element index (R230). -/
def Tensor.coords (t : Tensor) (i : Nat) : List Nat :=
  [i / (t.ext 1 * t.ext 2 * t.ext 3), i / (t.ext 2 * t.ext 3) % t.ext 1, i / t.ext 3 % t.ext 2, i % t.ext 3]
/-- The element index of logical indices (R230). -/
def Tensor.index (t : Tensor) (c : List Nat) : Nat :=
  ((c.getD 0 0 * t.ext 1 + c.getD 1 0) * t.ext 2 + c.getD 2 0) * t.ext 3 + c.getD 3 0
/-- The storage position of an element index (R93, R117). -/
def Tensor.pos (t : Tensor) (i : Nat) : Nat := t.orderDims.foldl (fun p d => p * t.ext d + (t.coords i).getD d 0) 0
/-- The element index stored at a storage position. -/
def Tensor.elemAt (t : Tensor) (p : Nat) : Nat :=
  let go := t.orderDims.reverse.foldl
    (fun (acc : Nat × List (Nat × Nat)) d => (acc.1 / t.ext d, (d, acc.1 % t.ext d) :: acc.2)) (p, [])
  t.index ((List.range 4).map (fun d => ((go.2.find? (fun e => e.1 == d)).map (·.2)).getD 0))
/-- The address of block b. -/
def Tensor.blockAddr (t : Tensor) (b : Nat) : Nat := t.base + 4096 * b

/-- The tensor of a program by identifier. -/
def Program.tensor (p : Program) (id : Nat) : Option Tensor := p.tensors.find? (fun t => t.tensorId == id)
/-- The operator of a program by identifier. -/
def Program.op (p : Program) (id : Nat) : Option OpDesc := p.operators.find? (fun o => o.opId == id)
/-- The dependency list of an operator. -/
def Program.depsOf (p : Program) (id : Nat) : List Dep :=
  ((p.operators.zip p.deps).find? (fun e => e.1.opId == id)).elim [] (·.2)
/-- The tensor and block an address belongs to. -/
def Program.tensorAt (p : Program) (a : Nat) : Option (Tensor × Nat) :=
  (p.tensors.find? (fun t => decide (t.base ≤ a) && decide (a < t.base + 4096 * t.blocks))).map
    (fun t => (t, (a - t.base) / 4096))
/-- FIRST_CLUSTER and CLUSTER_COUNT of an operator (R119). -/
def OpDesc.first (o : OpDesc) : Nat := bitsOf o.placement 11 0
def OpDesc.count (o : OpDesc) : Nat := bitsOf o.placement 28 16
def OpDesc.clusters (o : OpDesc) : List Nat := List.range' o.first o.count
/-- Fields of the attribute word (Table 5.5). -/
def OpDesc.outFormat (o : OpDesc) : Nat := bitsOf o.attr 31 28
def OpDesc.anchorSrc (o : OpDesc) : Nat := bitsOf o.attr 27 26
def OpDesc.round (o : OpDesc) : Nat := bitsOf o.attr 25 24
def OpDesc.infMode (o : OpDesc) : Bool := o.attr.testBit 23
def OpDesc.batchable (o : OpDesc) : Bool := o.attr.testBit 22
def OpDesc.sparse (o : OpDesc) : Nat := bitsOf o.attr 21 20
def OpDesc.outConv (o : OpDesc) : Nat := bitsOf o.attr 19 16

end Sys2Proof

namespace Sys2Proof.Machine

def Ctx.tensor (c : Ctx) (id : Nat) : Option Tensor := c.prog.bind (fun p => p.tensor id)
def Ctx.op (c : Ctx) (id : Nat) : Option OpDesc := c.prog.bind (fun p => p.op id)
def Ctx.tensorAt (c : Ctx) (a : Nat) : Option (Tensor × Nat) := c.prog.bind (fun p => p.tensorAt a)
/-- The protected tensors (R303). -/
def Ctx.persistent (c : Ctx) : List Tensor := (c.prog.map (fun p => p.tensors.filter (·.persistent))).getD []

/-! ### Block checks (R95) -/

/-- MASS: the sum modulo 2^32 of the elements; `code` 0x0 for raw blocks. -/
def massOf (code : Nat) (bs : List Byte) : Nat :=
  sumL ((List.range (elemsPerBlock code)).map (fun i => unpackElem code bs i)) % 2 ^ 32

/-- The 64-bit block check: MASS in [63:32], CRC in [31:0]. -/
def blockCheck (code : Nat) (bs : List Byte) : Nat := massOf code bs * 2 ^ 32 + (crc32c bs).toNat

/-- The check record a whole-block write leaves. -/
def freshCheck (code : Nat) (bs : List Byte) : BlockCheck :=
  { mass := massOf code bs, crc := (crc32c bs).toNat, poison := false, invalid := false }

/-- The record of a block of zeros, which an unlisted block has (log 7). -/
def BlockCheck.blank : BlockCheck := { mass := 0, crc := 0x98F94189, poison := false, invalid := false }

def BlockCheck.value (c : BlockCheck) : Nat := c.mass * 2 ^ 32 + c.crc

/-- Which parts of a check fail: 0 none, 1 CRC, 2 MASS, 3 both; an invalid record fails both (R99, Table 10.2). -/
def BlockCheck.fails (c : BlockCheck) (code : Nat) (bs : List Byte) : Nat :=
  if c.invalid then 3
  else b2n (decide (c.crc ≠ (crc32c bs).toNat)) + 2 * b2n (decide (c.mass ≠ massOf code bs))

/-- The element format a block's MASS is summed with. -/
def Ctx.codeAt (c : Ctx) (a : Nat) : Nat := ((c.tensorAt a).map (fun t => t.1.format)).getD 0

/-- The check record of a block; one not listed is blank, or invalid in a partition that a reset cleared (R279). -/
def State.checkAt (s : State) (a : Nat) : BlockCheck :=
  KMap.getD s.mem.checks (blockOf a)
    { BlockCheck.blank with invalid := decide (addrLevel a < 2) && s.mem.invalidParts.contains (addrPart a) }
def State.setCheck (s : State) (a : Nat) (c : BlockCheck) : State :=
  s.updMem (fun m => { m with checks := KMap.put m.checks (blockOf a) c })

/-! ### Reading and writing blocks of a context -/

/-- A block as the context's running step sees it: its pending slot, or the committed block (R305). -/
def State.blockBytes (s : State) (x a : Nat) : List Byte :=
  match KMap.find (s.ctx x).pend (blockOf a) with
  | some b => b.bytes
  | none => s.readBytes (blockOf a) 4096

/-- The check record of the same copy. -/
def State.blockRecord (s : State) (x a : Nat) : BlockCheck :=
  match KMap.find (s.ctx x).pend (blockOf a) with
  | some b => { mass := b.check / 2 ^ 32, crc := b.check % 2 ^ 32, poison := false, invalid := false }
  | none => s.checkAt a

/-- The block belongs to a protected tensor of a context whose step runs, so a write goes to a pending slot (R305). -/
def State.pends (s : State) (x a : Nat) : Bool :=
  let c := s.ctx x
  (c.st == .running) && (match c.tensorAt a with | some t => t.1.persistent | none => false)

/-- The key of a block in copies and pins: TENSOR_ID and block index. -/
def blockKey (t b : Nat) : Nat := t * 2 ^ 32 + b
/-- The tensor of image blocks (R303). -/
def imageTensor : Nat := 0xFFFFFFFF

/-- Writable protected blocks of a partition, W_p in blocks (R304). -/
def Ctx.poolBlocks (c : Ctx) (p : Nat) : Nat :=
  match c.prog with
  | none => 0
  | some g => sumL ((c.persistent.filter (fun t => t.part == p && g.operators.any (fun o => o.output == t.tensorId))).map Tensor.blocks)

/-- Slots of the own pool in use in a partition: pending slots and pinned former slots. -/
def Ctx.poolUsed (c : Ctx) (p : Nat) : Nat :=
  (c.pend.filter (fun e => addrPart e.1 == p)).length +
  (c.gey.pins.filter (fun e => match c.tensor (e.1 / 2 ^ 32) with | some t => t.part == p | none => false)).length

/-- Take a pending slot: when pins have emptied the pool, Geyser sends a pinned block first and the wait is counted, a
free number of ticks (R321, log 10). -/
def State.takeSlot (s : State) (x a : Nat) : State :=
  let c := s.ctx x
  if (KMap.find c.pend (blockOf a)).isSome then s
  else if c.poolUsed (addrPart a) < c.poolBlocks (addrPart a) ∨ c.gey.pins.isEmpty then s
  else
    let f := s.fresh
    (f.2.bump .geyPinStall 0 (f.1 % 2 ^ 32)).updGey x (fun g => { g with pins := g.pins.drop 1 })

/-- A whole block written with a fresh check; the write clears POISON and invalid (R95, R101). -/
def State.writeBlock (s : State) (x a : Nat) (bs : List Byte) : State :=
  let code := (s.ctx x).codeAt a
  if s.pends x a then
    (s.takeSlot x a).updCtx x (fun c => { c with pend := KMap.put c.pend (blockOf a) { bytes := bs, check := blockCheck code bs } })
  else (s.writeBytes (blockOf a) bs).setCheck a (freshCheck code bs)

/-- Bytes merged into a block at an offset. -/
def mergeBytes (block : List Byte) (off : Nat) (bs : List Byte) : List Byte :=
  block.take off ++ bs ++ block.drop (off + bs.length)

/-- Mark a stored block invalid in its check record (R99, R253). -/
def State.invalidate (s : State) (a : Nat) : State := s.setCheck a { s.checkAt a with invalid := true }
/-- Mark a stored block POISON (R101). -/
def State.poisonBlock (s : State) (a : Nat) : State := s.setCheck a { s.checkAt a with poison := true }

/-! ### STATE_SUM (R241) -/

/-- block_term of R241. -/
def blockTerm (t b check : Nat) : Nat :=
  (mix (mix (BitVec.ofNat 64 (blockKey t b) ^^^ 0x3C6EF372FE94F82B#64) ^^^ BitVec.ofNat 64 check)).toNat

/-- The sum of the terms of every block of every PERSISTENT tensor as committed. -/
def State.stateSum (s : State) (x : Nat) : Nat :=
  sumL ((s.ctx x).persistent.map (fun t =>
    sumL ((List.range t.blocks).map (fun b => blockTerm t.tensorId b (s.checkAt (t.blockAddr b)).value)))) % 2 ^ 64

end Sys2Proof.Machine
end

