-- ==== Sys2Proof/Machine/JobOps.lean ====
section
/-!
DEFINITION. Operations every family shares on a job's context: the job descriptor (Table 5.2), fault reports (10 R247),
duplicate suppression and epochs (06 R159, 11 R297), event bits and counters of a detection, discard and commit map
switches (12 R307), clearing an attempt, and the coordinator's address.
-/
namespace Sys2Proof

/-- PARAM of a FAULT_REPORT (Table 10.1). -/
def FaultParam.pack (f : FaultParam) : Nat :=
  field f.kind 8 0 + field f.source 8 8 + field (b2n f.physValid) 1 16 + field (b2n f.logicalValid) 1 17 +
  field f.tileRow 2 18 + field f.layer 16 20 + field f.opId 32 36 + field f.physCore 21 68 + field f.logicalCore 20 89 +
  field f.addr 48 112 + field f.detail 32 160

/-- A report with nothing but its kind and source. -/
def FaultParam.of (kind source : Nat) : FaultParam :=
  { kind, source, physValid := false, logicalValid := false, tileRow := 0, layer := 0, opId := 0, physCore := 0,
    logicalCore := 0, addr := 0, detail := 0 }

/-- SOURCE unit of a fault's event record (Table 14.4): the physical core, a displaced core's cluster, the port, the Square of R252, or
the partition of the address; else the module (log 109). -/
def FaultParam.unit (f : FaultParam) : Nat × Nat :=
  if f.physValid then (2, f.physCore)
  else if f.logicalValid then (1, Machine.coreCluster f.logicalCore)
  else if f.source = 0x30 ∨ f.source = 0x31 then (if f.detail % 64 < 36 then (4, f.detail % 64) else (0, 0))
  else if f.source = 0x04 then (8, bitsOf f.detail 19 17)
  else if f.source = 0x03 ∨ f.source = 0x05 then (8, Machine.homeDie f.addr)
  else if f.kind = 3 ∨ f.source = 0x10 then (3, Machine.addrPart f.addr)
  else (0, 0)

end Sys2Proof

namespace Sys2Proof.Machine

/-! ### The job descriptor (Table 5.2) -/

def Ctx.jobId (c : Ctx) : Nat := leAt c.desc 0 4
def Ctx.domain (c : Ctx) : Nat := leAt c.desc 4 2
def Ctx.coordForm (c : Ctx) : Nat := leAt c.desc 6 1
def Ctx.descPolicy (c : Ctx) : Nat := leAt c.desc 7 1
def Ctx.participants (c : Ctx) : Nat := leAt c.desc 8 4
def Ctx.seed (c : Ctx) : Nat := leAt c.desc 12 8
def Ctx.firstStep (c : Ctx) : Nat := leAt c.desc 20 6
def Ctx.coordA (c : Ctx) : Nat := leAt c.desc 28 4
def Ctx.coordB (c : Ctx) : Nat := leAt c.desc 32 4
def Ctx.buddyLocus (c : Ctx) : Nat := leAt c.desc 36 4
/-- D of the context: DEADLINE_TICKS of the descriptor when nonzero, else the program's (R115). -/
def Ctx.dOffset (c : Ctx) : Nat :=
  if leAt c.desc 40 8 ≠ 0 then leAt c.desc 40 8 else (c.prog.map (·.deadline)).getD 0
/-- The first 128 bits of SHA-256 of the descriptor with BUDDY_LOCUS and HOST_LOSS_POLICY zero (R113). -/
def descDigest (d : List Byte) : Nat :=
  beNat ((sha256 ((d.take 7) ++ [0#8] ++ slice d 8 28 ++ [0#8, 0#8, 0#8, 0#8] ++ d.drop 40)).take 16)

/-- Step counters are 48 bits. -/
def nextStep (n : Nat) : Nat := (n + 1) % 2 ^ 48
def prevStep (n : Nat) : Nat := (n + 2 ^ 48 - 1) % 2 ^ 48

/-- The last committed step; before the first commit the one before FIRST_STEP. -/
def Ctx.lastStep (c : Ctx) : Nat := c.committed.getD (prevStep c.firstStep)

/-- The context of a CTRL message: the one that names the sender as coordinator, or whose job's participants include the
sender and this module coordinates; the message names no job (log 8). -/
def State.ctxFor (s : State) (src : Nat) (p : Ctx → Bool) : Option Nat :=
  let live := s.liveCtxs.filter (fun x => p (s.ctx x))
  ((live.find? (fun x => (s.ctx x).coordLocus == src || (s.ctx x).pmap.contains src)).orElse
    (fun _ => live.head?))

/-- The context this module coordinates and a message from a participant concerns: by step first (log 8). -/
def State.coordCtx (s : State) (src step : Nat) : Option Nat :=
  let mine := s.liveCtxs.filter (fun x => (s.ctx x).coord.active)
  (mine.find? (fun x => (s.ctx x).pmap.contains src && (s.ctx x).step == step)).orElse
    (fun _ => (mine.find? (fun x => (s.ctx x).pmap.contains src)).orElse (fun _ => mine.head?))

/-! ### Receiving (R159, R161, R297) -/

/-- Duplicate suppression per source module and endpoint: whether the packet is accepted, and the state after (R159). -/
def State.dupCheck (s : State) (h : Hdr) : Bool × State :=
  let k := peerKey h.src h.srcEp
  let take := s.updFab (fun f => { f with peers := KMap.put f.peers k { incarn := h.incarn % 256, high := h.seq % 2 ^ 32 } })
  match KMap.find s.fab.peers k with
  | none => (true, take)
  | some p =>
    if h.incarn % 256 = p.incarn then
      if serialNewer 32 h.seq p.high then (true, take) else (false, s)
    else if serialNewer 8 h.incarn p.incarn then (true, take)
    else (false, s)

/-- What arrives before RUN is answered NOT_READY with a hint and the refused SEQ (R161). -/
def State.notReadyTo (s : State) (h : Hdr) : State :=
  let r := s.hint
  r.2.sendResp h.src h.srcEp 0x02 h.step (field r.1 16 0 + field h.seq 32 32)

/-- The release tick of a packet at level CYCLE still ahead, if any (R237). -/
def State.releaseTick (s : State) (h : Hdr) : Option Nat :=
  if s.isCycle && h.tv && decide (h.port < 32) then
    let r := (h.injTick + s.cfg.releaseTicks) % 2 ^ 32
    let d := (h.stamp % 2 ^ 32 + 2 ^ 32 - r) % 2 ^ 32
    if d = 0 then none
    else if d < 2 ^ 31 then none
    else some (h.stamp + (2 ^ 32 - d))
  else none

/-- A packet late under R237. -/
def State.lateRelease (s : State) (h : Hdr) : Bool :=
  s.isCycle && h.tv && decide (h.port < 32) &&
    (let d := (h.stamp % 2 ^ 32 + 2 ^ 32 - (h.injTick + s.cfg.releaseTicks) % 2 ^ 32) % 2 ^ 32
     decide (1 ≤ d) && decide (d ≤ 2 ^ 31))

/-- A late packet marks the running steps not cycle-repeatable (R237, Table 9.4). -/
def State.markLate (s : State) : State :=
  forEach (ctxIds.filter (fun x => (s.ctx x).st == .running)) (s.bump .detLateRelease 0)
    (fun s x => s.updCtx x (fun c => { c with reasons := setBit c.reasons 3 true }))

/-- A CTRL arrives (R159, R161, R162, R237): time moves to its stamp; before RUN it is refused; it is acknowledged, copies
dropped; at level CYCLE its effect waits for its release tick; otherwise `eff` takes place. `cmd` is the command itself. A module
with no owning Caldera half answers no CTRL (R292). -/
def State.ctrlIn (s : State) (h : Hdr) (cmd : Instr) (eff : State → State) : State :=
  let s := s.advanceTo h.stamp
  if !s.inRun then s.notReadyTo h
  else if s.pins.pwrCycleReq && s.cal.owner.isNone then s
  else
    let d := s.dupCheck h
    let s := d.2.sendResp h.src h.srcEp 0x01 h.step (field h.seq 32 0)
    if !d.1 then s
    else match s.releaseTick h with
      | some t => s.updFab (fun f => { f with held := f.held ++ [(t, cmd)] })
      | none => eff (s.when (s.lateRelease h) State.markLate)

/-- A coordinator that hears a higher epoch stops issuing (R297): in form 0 it is standby, its lease counted from now. -/
def Coord.stood (o : Coord) (form loc : Nat) : Coord :=
  { o with active := false, heardAt := if form = 0 then some loc else o.heardAt, heardEnd := if form = 0 then 0 else o.heardEnd }

/-- This module issues for a context's job, and a coordinator's message of a higher epoch from another module stops it (R297). -/
def State.stopsAt (s : State) (x src epoch : Nat) : Bool :=
  decide ((s.ctx x).adopted < epoch) && (s.ctx x).coord.active && src != s.locus

/-- A coordinator's message is acted on only with an epoch at least the one adopted; a higher one is adopted and stops this
module issuing for the job, and INTERLOCK_OUT goes low (R295, R297). -/
def State.epochIn (s : State) (x src epoch : Nat) (eff : State → State) : State :=
  if epoch < (s.ctx x).adopted then s
  else eff ((s.when (s.stopsAt x src epoch) (fun s =>
      (s.updCoord x (fun o => o.stood (s.ctx x).coordForm s.time.loc)).updPins (fun p => { p with interlockOut := false }))).updCtx x
    (fun c => { c with adopted := epoch, coordLocus := src }))

/-! ### Fault reports (R247, R248) -/

/-- The KIND of a SOURCE (Table 10.2). -/
def kindOf (source : Nat) : Nat :=
  if source < 0x10 then 1 else if source < 0x20 then 2 else if source < 0x30 then 3 else if source < 0x40 then 4 else 5

/-- The counters of a report (Table 10.7). -/
def State.countReport (s : State) (source : Nat) : State :=
  match source with
  | 0x01 | 0x02 => s.bump .detCheck 0
  | 0x03 => s.bump .detAnchor 0
  | 0x04 | 0x05 => s.bump .detSquare 0
  | 0x10 => s.bump .detShadow 0
  | _ => s

/-- The detecting module records a fault, sends FAULT_REPORT to the coordinator and blocks its confirmation (R22, R247, R248). -/
def State.report (s : State) (x : Nat) (f : FaultParam) : State :=
  let c := s.ctx x
  let u := f.unit
  let p := f.pack
  let s := s.record { code := 0x0100 + f.source, sev := 2, srcType := u.1, srcIndex := u.2, ctx := x, step := c.step,
                      attempt := c.attempt, data := (List.range 6).map (fun i => bitsOf p (191 - 32 * i) (160 - 32 * i)) }
  let s := s.countReport f.source
  let s := s.updCtx x (fun c => { c with faulted := true })
  s.sendCtrl c.coordLocus 0x05 c.step c.attempt p

/-- A LINK report for the current step of every domain with a context on the module (R139, R197). -/
def State.reportLink (s : State) (source detail : Nat) : State :=
  forEach (ctxIds.filter (fun x => (s.ctx x).st == .running)) s
    (fun s x => s.report x { FaultParam.of 4 source with detail })

/-! ### Records of classes FAULT and CLASSIFY close with their step (R359) -/

def State.closeStepRecords (s : State) (x : Nat) : State :=
  s.updEvr (fun e => e.closeWhere (fun r => r.ctx == x && (r.code / 256 == 1 || r.code / 256 == 2)))

/-! ### Map switches (R307) -/

/-- Reload the near store of every protected logical core from the committed images. -/
def State.reloadImages (s : State) (x : Nat) : State :=
  forEach (s.ctx x).gey.imgCommitted s (fun s e =>
    s.writeBytes (nearAddr (e.1 / 8) (4096 * (e.1 % 8))) e.2.bytes)

/-- A cluster with no operator at work: its units, its batch queue and its streaming are free. -/
def Cluster.idled (c : Cluster) : Cluster := { c with queue := [], streaming := none, arrayOp := none, vectorOp := none }

/-- The work of an attempt on the clusters of a mask ends. -/
def State.idleClusters (s : State) (mask : Nat) : State :=
  s.updClus (List.map (fun e => if inMask mask (clusterPart e.1) then (e.1, e.2.idled) else e))

/-- Discard of the step: every pending slot returns to the pool and near stores are reloaded; a second changes nothing. -/
def State.discard (s : State) (x : Nat) : State :=
  let s := s.updCtx x (fun c => { c with
    pend := [], exec := Exec.reset, confirmed := false, faulted := false,
    gey := { c.gey with imgPending := [], streamAcks := [], partner := c.gey.partner.map (fun p => { p with pending := [] }) },
    dumps := c.dumps.map (fun d => { d with captured := false, bytesWritten := 0, overflow := false }) })
  let s := s.updFab (fun f => { f with slots := f.slots.filter (fun q => q.domain != (s.ctx x).domain) })
  ((s.idleClusters (s.ctx x).mask).reloadImages x).closeStepRecords x

/-- Commit: every pending slot becomes the committed block; a block a checkpoint has pinned keeps its former content
aside (R307, R318). -/
def State.commitSlots (s : State) (x : Nat) : State :=
  let c := s.ctx x
  let key (a : Nat) : Nat := match c.tensorAt a with | some t => blockKey t.1.tensorId t.2 | none => 0
  let pinned := c.pend.foldl (fun (m : KMap PBlock) e =>
    match c.gey.ckpt with
    | none => m
    | some _ => if (KMap.find m (key e.1)).isSome || !c.gey.pinWait.contains (key e.1) then m
                else KMap.put m (key e.1) { bytes := s.readBytes e.1 4096, check := (s.checkAt e.1).value }) c.gey.pins
  let s := forEach c.pend s (fun s e => (s.writeBytes e.1 e.2.bytes).setCheck e.1
    { mass := e.2.check / 2 ^ 32, crc := e.2.check % 2 ^ 32, poison := false, invalid := false })
  s.updCtx x (fun c => { c with pend := [], gey := { c.gey with
    pins := pinned, imgPending := [],
    imgCommitted := c.gey.imgPending.foldl (fun m e => KMap.put m e.1 e.2) c.gey.imgCommitted,
    partner := c.gey.partner.map (fun p => { p with
      pending := [],
      committed := p.pending.foldl (fun m e => KMap.put m e.1 e.2) p.committed }) } })

end Sys2Proof.Machine
end

