-- ==== Sys2Proof/Machine/MailboxOps.lean ====
section
/-!
DEFINITION. The mailbox rings: fetching, completions, sequence numbers, what the registers do when written, PCIe resets
and host loss (05 R123 to R134).
-/
namespace Sys2Proof.Machine

/-- Entries of a ring (Table 5.11). -/
def Ring.size (r : Ring) : Nat := 2 ^ r.log2
/-- The pair is usable: enabled with a size of 4–12. -/
def Ring.usable (r : Ring) : Bool := r.en && decide (4 ≤ r.log2) && decide (r.log2 ≤ 12)

/-- The command kinds of Table 5.14: true for read-only. -/
def readOnlyOp (op : Nat) : Bool := op == 0x01 || op == 0x21 || op == 0x31 || op == 0xFF
/-- The opcodes of Table 5.14. -/
def knownOps : List Nat := [0x01, 0x02, 0x10, 0x11, 0x12, 0x13, 0x14, 0x20, 0x21, 0x30, 0x31, 0x40, 0xFF]

/-- The bytes of a completion entry (Table 5.13). -/
def completionBytes (n seq status : Nat) (phase dup : Bool) (head result : Nat) : List Byte :=
  leBytes 4 seq ++ leBytes 2 status ++
  leBytes 2 (field (b2n phase) 1 15 + field (b2n dup) 1 14 + field n 2 12 + field head 12 0) ++ leBytes 8 result

/-- Write one completion, when the ring has a free slot and a host to take it, and raise the pair's vector; a full ring
keeps it waiting (R125, R128, R133). -/
def State.post (s : State) (n seq status : Nat) (dup : Bool) (result : Nat) : State :=
  let r := s.ring n
  if !r.usable || !s.mbx.linkUp || !s.mbx.busMaster || s.mbx.hostLoss then s
  else if r.size ≤ r.cqUsed then s.updRing n (fun r => { r with stalled := r.stalled ++ [(seq, status, dup, result)] })
  else
    let last := decide (r.cqTail + 1 = r.size)
    let s := s.updRing n (fun r => { r with cqTail := if last then 0 else r.cqTail + 1, cqUsed := r.cqUsed + 1,
                                             phase := if last then !r.phase else r.phase })
    (s.emit (.hostWrite (r.cqBase + 16 * r.cqTail) (completionBytes n seq status r.phase dup r.head result))).emit (.msix 0 n)

/-- Note an outcome in the sequence cache (R126). -/
def State.cacheOutcome (s : State) (seq status result : Nat) : State :=
  s.updMbx (fun m => { m with cache := m.cache.map (fun c =>
    if c.seq = seq ∧ c.outcome.isNone then { c with outcome := some (status, result) } else c) })

/-- A duplicate of an accepted command in the cache. -/
def State.cached (s : State) (seq : Nat) : Option SeqEntry := s.mbx.cache.find? (fun c => c.seq == seq)

/-- The outcome of an entry that completes without running: cached where the command was accepted, which one with a bad payload or a stale
number was not (R126, R128), and ATTACH has no number. -/
def State.cacheForced (s : State) (e : SqEntry) (st : Nat) : State :=
  if st = 0x04 ∨ st = 0x07 ∨ e.opcode = 0x02 then s else s.cacheOutcome e.seq st 0

/-- The entry accepted ahead starts when the one before has completed (R125); one that completes without running does so. -/
def State.nextEntry (s : State) (n : Nat) : State :=
  let r := s.ring n
  let s := s.updRing n (fun r => { r with cur := r.ahead, ahead := none })
  match r.ahead with
  | none => s
  | some a =>
    match a.forced with
    | none => s
    | some st => ((s.updRing n (fun r => { r with cur := none })).cacheForced a.e st).post n a.e.seq st a.dup 0

/-- Complete the entry a ring executes: cache, completion, next entry (R125 to R128). A full completion ring stalls the pair: the entry
accepted ahead waits until the completion is posted. -/
def State.complete (s : State) (n : Nat) (a : Staged) (status result : Nat) : State :=
  let s := if a.e.opcode = 0x02 || a.dup then s else s.cacheOutcome a.e.seq status result
  let s := s.post n a.e.seq status a.dup result
  if (s.ring n).stalled.isEmpty then s.nextEntry n else s.updRing n (fun r => { r with cur := none })

/-- Run the entry a ring executes when it is this command: a duplicate of a changing command takes the original's outcome
once there is one (R127); otherwise `f` gives the outcome, or none when the command completes at a later event. -/
def State.runEntry (s : State) (n opcode : Nat) (f : Staged → State → Option (Nat × Nat) × State) : State :=
  match (s.ring n).cur with
  | none => s
  | some a =>
    if a.e.opcode ≠ opcode then s
    else if a.dup && !readOnlyOp opcode then
      match (s.cached a.e.seq).bind (·.outcome) with
      | some o => s.complete n a o.1 o.2
      | none => s
    else
      let p := f a s
      match p.1 with
      | some o => p.2.complete n a o.1 o.2
      | none => p.2

/-- A ring number the module has. -/
def onRing (n : Nat) (r : State) : Host.Outcome State Fault Refusal :=
  if n < 4 then .next r else .fault (.noSuchUnit "mailbox ring pair")

/-- Stage an entry as the one executing or the one ahead. -/
def State.stageEntry (s : State) (n : Nat) (a : Staged) : State :=
  match (s.ring n).cur with
  | some _ => s.updRing n (fun r => { r with ahead := some a })
  | none =>
    match a.forced with
    | none => s.updRing n (fun r => { r with cur := some a })
    | some st => (s.cacheForced a.e st).post n a.e.seq st a.dup 0

/-- The device may fetch from a ring now: run state, ENABLE, an enabled pair with an entry waiting, room to hold it, and no
completion stalled (R125). -/
def State.mayFetch (s : State) (n : Nat) : Bool :=
  let r := s.ring n
  s.mbx.ready && s.mbx.enable && s.mbx.linkUp && s.mbx.busMaster && r.usable && r.tail % r.size != r.head % r.size &&
    r.ahead.isNone && r.stalled.isEmpty

/-- FLAGS and PAYLOAD_LEN do not fit the command (Tables 5.12, 5.14): a payload from the host, one to the host of which IDENTIFY and
FINGERPRINT_GET take 4 KiB, or none. -/
def badPayload (e : SqEntry) : Bool :=
  let page := e.opcode == 0x01 || e.opcode == 0x11 || e.opcode == 0x31
  if e.opcode = 0x10 ∨ e.opcode = 0x11 ∨ e.opcode = 0x20 then
    e.flags % 4 != 1 || e.payloadLen == 0 || (page && e.payloadLen != 4096)
  else if e.opcode = 0x01 ∨ e.opcode = 0x21 ∨ e.opcode = 0x31 then
    e.flags % 4 != 3 || e.payloadLen == 0 || (page && e.payloadLen != 4096)
  else e.flags.testBit 0

/-- What an accepted entry completes with without running: nonzero RSV, a payload that does not fit, or an unknown opcode (Table 5.15). -/
def entryRefusal (e : SqEntry) : Option Nat :=
  if !knownOps.contains e.opcode then some 0x02
  else if badPayload e then some 0x03
  else if e.rsvSet || decide (4 ≤ e.flags) || e.payloadLen % 4096 ≠ 0 || decide (4194304 < e.payloadLen) || e.payloadAddr % 4096 ≠ 0 then some 0x03
  else none

/-- Fetch and accept one entry (R125 to R128): the payload's CRC, then the sequence number, decide what happens to it. -/
def State.accept (s : State) (n : Nat) (e : SqEntry) (payload : List Byte) : State :=
  if !s.mayFetch n then s
  else
    let s := s.updRing n (fun r => { r with head := (r.head + 1) % r.size })
    let toDevice := e.flags.testBit 0 && !e.flags.testBit 1
    if toDevice && (crc32c payload).toNat ≠ e.payloadCrc then s.stageEntry n ⟨e, false, some 0x04, []⟩
    else if e.opcode = 0x02 then s.stageEntry n ⟨e, false, entryRefusal e, payload⟩
    else match s.cached e.seq with
      | some _ => s.stageEntry n ⟨e, true, none, payload⟩
      | none =>
        if serialNewer 32 e.seq s.mbx.highSeq then
          let s := s.updMbx (fun m => { m with highSeq := e.seq % 2 ^ 32,
                                               cache := ({ seq := e.seq, opcode := e.opcode, outcome := none } :: m.cache).take 1024 })
          s.stageEntry n ⟨e, false, entryRefusal e, payload⟩
        else s.stageEntry n ⟨e, false, some 0x07, []⟩

/-- A consumed completion frees its slot, and a waiting one is posted (R125). -/
def State.consume (s : State) (n head : Nat) : State :=
  let r := s.ring n
  let took := min r.cqUsed ((head % r.size + r.size - r.cqHead % r.size) % r.size)
  let s := s.updRing n (fun r => { r with cqHead := head % 4096, cqUsed := r.cqUsed - took, stalled := [] })
  let s := forEach r.stalled s (fun s c => s.post n c.1 c.2.1 c.2.2.1 c.2.2.2)
  if !r.stalled.isEmpty && (s.ring n).stalled.isEmpty && (s.ring n).cur.isNone then s.nextEntry n else s

/-- An outstanding dump of a context is cancelled with a write of CANCELLED while the host is attached (R245). -/
def State.cancelDumps (s : State) (x : Nat) : State :=
  let ds := (s.ctx x).dumps
  let s := s.updCtx x (fun c => { c with dumps := [] })
  if s.mbx.attached then forEach ds s (fun s d => s.emit (.hostWrite d.listAddr (leBytes 4 3))) else s

/-- Host loss (R132): HOST_LOSS and its event, ATTACHED clears, a record, a notice to the coordinator of every ARMED or
RUNNING context, every dump cancelled with nothing more written (R245). -/
def State.hostLost (s : State) (trigger : Nat) : State :=
  let t := s.now
  let s := (s.updMbx (fun m => { m with hostLoss := true, attached := false })).setEvt .mbxStatus 0 1
  let s := s.record { code := 0x2008, sev := 2, data := [t / 2 ^ 32, t % 2 ^ 32, trigger * 2 ^ 24] }
  let s := if s.mbx.linkUp && s.mbx.busMaster then s.emit (.msix 0 4) else s
  forEach ctxIds s (fun s x =>
    let c := s.ctx x
    let s := s.updCtx x (fun c => { c with dumps := [] })
    if c.st = .armed ∨ c.st = .running then s.sendCtrl c.coordLocus 0x09 0 0 t else s)

/-- A PCIe reset of PF0's mailbox (R124): Tables 5.10 and 5.11 at their reset values but READY, HOST_LOSS and the sequence
state; commands not accepted are gone, accepted ones run on. -/
def State.mbxReset (s : State) : State :=
  let keep (n : Nat) : Ring :=
    let ahead := (s.ring n).ahead.filter (·.forced.isNone)
    match (s.ring n).cur with
    | some a => { Ring.reset with cur := some a, ahead }
    | none => { Ring.reset with cur := ahead }
  let s := s.updMbx (fun m => { m with enable := false, attached := false, heartbeat := 0,
                                       rings := (List.range 4).map (fun n => (n, keep n)) })
  s.w1c .mbxStatus 0 2

end Sys2Proof.Machine
end

