-- ==== Sys2Proof/Machine/Loader.lean ====
section
/-!
DEFINITION. The loader: the step program image parsed (05 R116 to R119, 06 R149) and checked in the order of Table 5.6
(R121), with the shapes of R442 to R445 and the arithmetic limits of 02 and 03.
-/
namespace Sys2Proof

/-- Entry i of a table of 64-byte entries. -/
def entry64 (img : List Byte) (off i : Nat) : List Byte := slice img (off + 64 * i) 64

/-- A tensor descriptor (Table 5.4). -/
def parseTensor (e : List Byte) : Tensor :=
  { tensorId := leAt e 0 4, format := leAt e 4 1 % 16, rank := leAt e 5 1, order := leAt e 6 1,
    persistent := (leAt e 7 1).testBit 0, hostIo := (leAt e 7 1).testBit 1,
    dims := (List.range 4).map (fun d => leAt e (8 + 4 * d) 4), base := leAt e 24 8, scaleId := leAt e 32 4,
    metaId := leAt e 36 4,
    rsvSet := decide (leAt e 4 1 / 16 ≠ 0) || decide (leAt e 7 1 / 4 ≠ 0) || decide (leAt e 40 24 ≠ 0) }

/-- A collective descriptor (Table 6.8). -/
def parseCollective (e : List Byte) : Collective :=
  { collId := leAt e 0 2, op := leAt e 2 1 % 16, inForm := leAt e 2 1 / 16 % 4, inTensor := leAt e 4 4,
    outTensor := leAt e 8 4, blocks := leAt e 12 6, waveBlocks := leAt e 18 2, rootLocus := leAt e 20 4 % 2 ^ 17,
    rsvSet := decide (leAt e 2 1 / 64 ≠ 0) || decide (leAt e 3 1 ≠ 0) || decide (leAt e 20 4 / 2 ^ 17 ≠ 0) ||
      decide (leAt e 24 40 ≠ 0) }

/-- A loader rejection: code and table index, 0xFFFFFFFF when no entry is involved (R121). -/
abbrev Reject := Nat × Nat

/-- The index of a rejection that names no entry. -/
def noIndex : Nat := 0xFFFFFFFF

/-- The first entry of a list that fails a check, as a rejection. -/
def firstBad {α : Type} (code : Nat) (l : List α) (bad : α → Bool) : Option Reject :=
  (l.zipIdx.find? (fun e => bad e.1)).map (fun e => (code, e.2))

/-- The first rejection of a list of checks. -/
def firstReject (l : List (Option Reject)) : Option Reject := l.findSome? id

/-- A rejection of the image as a whole. -/
def rejectIf (code : Nat) (b : Bool) : Option Reject := if b then some (code, noIndex) else none

/-- The first entry whose key an earlier entry already has. -/
def firstDup (code : Nat) (keys : List Nat) : Option Reject :=
  (keys.zipIdx.find? (fun e => (keys.take e.2).contains e.1)).map (fun e => (code, e.2))

/-- Logical dimension extents of a tensor, RANK of them. -/
def Tensor.logical (t : Tensor) : List Nat := (List.range t.rank).map t.ext
/-- The last logical dimension's extent (R117). -/
def Tensor.lastExt (t : Tensor) : Nat := t.ext (t.rank - 1)
/-- The product of the other extents. -/
def Tensor.rest (t : Tensor) : Nat := t.elems / t.lastExt
/-- Bytes a tensor's elements take. -/
def Tensor.byteLen (t : Tensor) : Nat := ceilDiv (t.elems * elemBits t.format) 8
/-- The fastest dimension of ORDER. -/
def Tensor.fastest (t : Tensor) : Nat := bitsOf t.order 1 0

/-- Inputs an operator kind takes, where R442 to R444 give a shape. -/
def OpKind.arity : OpKind → Option Nat
  | .mma | .add | .sub | .mul | .div | .max | .min | .redDot | .rmsnorm _ => some 2
  | .fma | .layernorm _ => some 3
  | .rcp | .sqrt | .rsqrt | .exp | .exp2 | .log | .log2 | .tanh | .erf | .sigmoid | .cvt | .silu | .gelu | .dropout _ _
  | .redSum | .redSumSq | .redMax | .redMin | .softmax | .xpose _ | .move => some 1
  | .random _ => some 0
  | .other _ => none

/-- The kind reduces along the last logical dimension to extent 1 (R443). -/
def OpKind.reduces : OpKind → Bool
  | .redSum | .redSumSq | .redDot | .redMax | .redMin => true
  | _ => false
/-- Softmax and normalisation (R443). -/
def OpKind.rowWise : OpKind → Bool
  | .softmax | .rmsnorm _ | .layernorm _ => true
  | _ => false
/-- The kind forms an anchored sum (R445). -/
def OpKind.anchored : OpKind → Bool
  | .mma | .redSum | .redSumSq | .redDot | .softmax | .rmsnorm _ | .layernorm _ => true
  | _ => false
def OpKind.isMma : OpKind → Bool
  | .mma => true
  | _ => false
/-- The kind sums products of two elements, which may be INT8 × INT8 (R36, R79). -/
def OpKind.twoOperand : OpKind → Bool
  | .mma | .redDot | .redSumSq => true
  | _ => false
/-- Element-by-element kinds (R444). -/
def OpKind.elementwise (k : OpKind) : Bool :=
  !k.isMma && !k.reduces && !k.rowWise && (match k with | .xpose _ | .move | .other _ => false | _ => true)

/-- The kind computes with its input elements, which are then not INT32 (R30). -/
def OpKind.computes (k : OpKind) : Bool := k.isMma || k.reduces || k.rowWise || k.elementwise

/-- An input broadcasts to an output (R444). -/
def broadcasts (i o : Tensor) : Bool := (List.range 4).all (fun d => i.ext d == o.ext d || i.ext d == 1)
/-- Two tensors have equal shapes. -/
def sameShape (a b : Tensor) : Bool := a.rank == b.rank && (List.range 4).all (fun d => a.ext d == b.ext d)

/-- The inputs and output of an operator as tensors of the program. -/
def Program.ins (p : Program) (o : OpDesc) : List Tensor := o.inputs.filterMap p.tensor

/-- The shapes of an operator agree (R442 to R444, R71). -/
def Program.shapesOk (p : Program) (o : OpDesc) : Bool :=
  match p.tensor o.output with
  | none => false
  | some out =>
    let ins := p.ins o
    (match o.kind.arity with | some n => ins.length == n | none => true) &&
    (if o.kind.isMma then
      match ins with
      | [a, b] =>
        a.lastExt == b.rest && out.rest == a.rest && out.lastExt == b.lastExt && (pairDepth a.format b.format).isSome &&
        (!isMx a.format || (a.fastest == a.rank - 1 && a.lastExt % 32 == 0)) &&
        (!isMx b.format || (decide (2 ≤ b.rank) && b.fastest == b.rank - 2 && b.ext (b.rank - 2) % 32 == 0)) &&
        (!isMx out.format || (out.fastest == out.rank - 1 && out.lastExt % 32 == 0))
      | _ => false
    else if o.kind.reduces then
      match ins with
      | x :: more => out.rank == x.rank && out.lastExt == 1 &&
          (List.range (x.rank - 1)).all (fun d => out.ext d == x.ext d) && more.all (fun y => sameShape x y)
      | [] => false
    else if o.kind.rowWise then
      match ins with
      | x :: more => sameShape x out && more.all (fun y => broadcasts y out)
      | [] => false
    else if o.kind.elementwise then ins.all (fun i => broadcasts i out)
    else true)

/-- The anchor source fits the operands (R36, R445). -/
def Program.anchorOk (p : Program) (o : OpDesc) : Bool :=
  if !o.kind.anchored then o.anchorSrc == 0
  else match o.anchorSrc with
    | 0 => true
    | 1 => !o.kind.rowWise && (p.ins o).all (fun t => isMx t.format)
    | 2 => o.kind.twoOperand && (p.ins o).all (fun t => t.format == 0x8)
    | _ => false

/-- Term count and check-column product (R40). -/
def Program.termsOk (p : Program) (o : OpDesc) : Bool :=
  match p.ins o with
  | a :: more =>
    if o.kind.isMma then decide (a.lastExt ≤ 2 ^ 31) && more.all (fun b => decide (a.lastExt * b.lastExt ≤ 2 ^ 31))
    else !o.kind.anchored || decide (a.lastExt ≤ 2 ^ 31)
  | [] => true

/-- The sparsity of an operator is allowed (R72). -/
def Program.sparseOk (p : Program) (o : OpDesc) : Bool :=
  if o.sparse = 0 then true
  else if o.sparse = 3 || !o.kind.isMma then false
  else
    let ins := p.ins o
    !(o.anchorSrc == 2 && ins.all (fun t => t.format == 0x8)) &&
    (match ins[o.sparse - 1]? with | some t => t.metaId != 0 | none => false)

/-- Where the element stored at position q of the source goes in the destination of a transposition: output logical
dimension d is input dimension perm[d] (R98). -/
def xposePos (src dst : Tensor) (perm : List Nat) (q : Nat) : Nat :=
  let c := src.coords (src.elemAt q)
  dst.pos (dst.index ((List.range 4).map (fun d => c.getD (perm.getD d d) 0)))

/-- A transposition is a permutation, and of an MX tensor one that moves every MX block whole (R98). -/
def xposeOk (src dst : Tensor) (perm : List Nat) : Bool :=
  perm.length == 4 && (List.range 4).all (fun d => perm.contains d) && src.format == dst.format &&
  (List.range 4).all (fun d => dst.ext d == src.ext (perm.getD d 0)) &&
  (!isMx src.format || (src.elems % 32 == 0 && (List.range (src.elems / 32)).all (fun b =>
    let z := xposePos src dst perm (32 * b)
    z % 32 == 0 && (List.range 32).all (fun j => xposePos src dst perm (32 * b + j) == z + j))))

/-- Dependency lists can all be satisfied: repeatedly settle what depends only on settled things (R120, Table 5.6 0x0F). -/
def settle (ops : List (Nat × List Dep)) (bars : List BarrierDesc) : Nat → List Nat → List Nat → List Nat × List Nat
  | 0, so, sb => (so, sb)
  | n + 1, so, sb =>
    let ready (d : Dep) : Bool := match d with | .op i => so.contains i | .barrier b => sb.contains b
    settle ops bars n ((ops.filter (fun e => e.2.all ready)).map (·.1))
      ((bars.filter (fun b => b.after.all (fun i => so.contains i))).map (·.barrierId))

/-- No cycle, and no dependency on an undefined operator or barrier. -/
def Program.depsOk (p : Program) : Option Reject :=
  let ops := (p.operators.zip p.deps).map (fun e => (e.1.opId, e.2))
  let r := settle ops p.barriers (p.operators.length + p.barriers.length + 1) [] []
  firstBad 0x0F p.operators (fun o => !r.1.contains o.opId)

/-- The tensor's address fails R91, leaves program space (R105) or the partitions of the mask, or its blocks leave the
partition (Table 5.6 0x05). -/
def Tensor.badPlace (t : Tensor) (mask space : Nat) : Bool :=
  let last := t.blockAddr (t.blocks - 1)
  (Machine.addrLevel t.base == 0 && decide (space < last % 2 ^ 35 + 4096)) ||
  !Machine.addrOk t.base || t.base % 4096 != 0 || decide (2 ≤ Machine.addrLevel t.base) || !Machine.inMask mask t.part ||
  !Machine.addrOk last || Machine.addrPart last != t.part || Machine.addrLevel last != Machine.addrLevel t.base

/-- Two tensors share a block. -/
def overlaps (a b : Tensor) : Bool :=
  decide (a.base < b.base + 4096 * b.blocks) && decide (b.base < a.base + 4096 * a.blocks)

/-- The offsets of the five tables (Table 5.3). -/
def tableOff (img : List Byte) (k : Nat) : Nat := leAt img (32 + 4 * k) 4

/-- A table lies inside the image, aligned. -/
def tableOk (total off count : Nat) : Bool := off % 64 == 0 && decide (64 ≤ off) && decide (off + 64 * count ≤ total)

/-- A tensor descriptor breaks R117. -/
def Tensor.badShape (t : Tensor) : Bool :=
  t.rank == 0 || decide (4 < t.rank) || (List.range 4).any (fun d => t.ext d == 0) ||
  (List.range 4).any (fun d => decide (t.rank ≤ d) && t.ext d != 1) ||
  !(List.range 4).all (fun d => t.orderDims.contains d)

/-- A collective descriptor breaks R149. -/
def Collective.bad (c : Collective) (count : Nat) : Bool :=
  decide (count ≤ c.collId) || decide (4 ≤ c.op) || c.blocks == 0 || decide (2 ^ 43 < c.blocks) ||
  c.waveBlocks % 32 != 0 || decide (c.waveBlocks < 32) || decide (4096 < c.waveBlocks)

/-- The operators of an image: what each 64-byte descriptor encodes (R118, log 15). -/
def parseOperators (img : List Byte) : List (Option OpDesc) :=
  (List.range (leAt img 16 4)).map (fun i => Config.parseOperator (entry64 img (tableOff img 1) i))

/-- The barriers of an image (log 15). -/
def parseBarriers (img : List Byte) : List BarrierDesc :=
  (List.range (leAt img 20 2)).filterMap (fun i => Config.parseBarrier (entry64 img (tableOff img 2) i))

/-- The program an image holds. -/
def parseProgram (img : List Byte) : Program :=
  let ops := (parseOperators img).filterMap id
  { arithRev := leAt img 6 2, deadline := leAt img 24 8,
    tensors := (List.range (leAt img 12 4)).map (fun i => parseTensor (entry64 img (tableOff img 0) i)),
    operators := ops, deps := ops.map (fun o => Config.parseDeps (img.drop (tableOff img 4)) o.depOff),
    barriers := parseBarriers img,
    collectives := (List.range (leAt img 22 2)).map (fun i => parseCollective (entry64 img (tableOff img 3) i)) }

/-- The header's own checks: codes 0x01, 0x02 and the table limits of 0x03. -/
def headerReject (img : List Byte) (received : Nat) : Option Reject :=
  let total := leAt img 8 4
  let cnt (a n : Nat) : Nat := leAt img a n
  firstReject [
    rejectIf 0x01 (leAt img 0 4 != 0x31475053 || leAt img 4 2 != 1 || decide (total < 64) || decide (67108864 < total) ||
      decide (received < total) ||
      (crc32c ((slice img 0 60) ++ [0#8, 0#8, 0#8, 0#8] ++ slice img 64 (total - 64))).toNat != leAt img 60 4),
    rejectIf 0x02 (leAt img 6 2 != arithRev),
    rejectIf 0x03 (cnt 12 4 == 0 || decide (2 ^ 20 < cnt 12 4) || cnt 16 4 == 0 || decide (2 ^ 20 < cnt 16 4) ||
      decide (4095 < cnt 20 2) || decide (4095 < cnt 22 2) || cnt 24 8 == 0 || decide (2 ^ 40 < cnt 24 8) ||
      !tableOk total (tableOff img 0) (cnt 12 4) || !tableOk total (tableOff img 1) (cnt 16 4) ||
      !tableOk total (tableOff img 2) (cnt 20 2) || !tableOk total (tableOff img 3) (cnt 22 2) ||
      !tableOk total (tableOff img 4) 0)]

/-- An MX tensor without a scale tensor long enough (R94), or a reference to an undefined tensor. -/
def Program.badRefs (p : Program) (t : Tensor) : Bool :=
  (t.scaleId != 0 && (p.tensor t.scaleId).isNone) || (t.metaId != 0 && (p.tensor t.metaId).isNone) ||
  (isMx t.format && (match p.tensor t.scaleId with
    | none => true
    | some sc => t.scaleId == 0 || decide (sc.byteLen < ceilDiv t.elems 32)))

/-- The checks of Table 5.6 after the header, in its order. -/
def Program.reject (p : Program) (parsed : List (Option OpDesc)) (mask space : Nat) : Option Reject :=
  let formats (o : OpDesc) : Bool := match p.tensor o.output with | some t => t.format == o.outFormat | none => false
  let rows (o : OpDesc) : Nat := match p.ins o with | t :: _ => t.lastExt | [] => 0
  firstReject [
    firstBad 0x03 parsed (·.isNone),
    firstBad 0x03 p.tensors Tensor.badShape,
    firstBad 0x03 p.collectives (fun c => c.bad p.collectives.length),
    firstDup 0x04 (p.tensors.map (·.tensorId)),
    firstBad 0x04 p.tensors (fun t => t.tensorId == 0 || t.tensorId == 0xFFFFFFFF),
    firstDup 0x04 (p.operators.map (·.opId)),
    firstDup 0x04 (p.collectives.map (·.collId)),
    firstBad 0x04 p.tensors p.badRefs,
    firstBad 0x04 p.operators (fun o => o.inputs.any (fun t => (p.tensor t).isNone) || (p.tensor o.output).isNone ||
      (match o.coll with | some c => !p.collectives.any (fun d => d.collId == c.2) | none => false)),
    firstBad 0x04 p.collectives (fun c => (p.tensor c.inTensor).isNone || (p.tensor c.outTensor).isNone),
    firstBad 0x05 p.tensors (fun t => t.badPlace mask space),
    (p.tensors.zipIdx.find? (fun e => (p.tensors.take e.2).any (overlaps e.1))).map (fun e => (0x05, e.2)),
    firstBad 0x06 p.tensors (fun t => t.format == 0xF),
    firstBad 0x06 p.operators (fun o => !formats o || !p.shapesOk o || o.kind.computes && (p.ins o).any (fun t => t.format == 0x9)),
    firstBad 0x07 p.operators (fun o => !p.anchorOk o),
    firstBad 0x08 p.operators (fun o => !p.termsOk o),
    firstBad 0x09 p.operators (fun o => o.round == 3 || decide (2 < o.outConv)),
    firstBad 0x0A p.operators (fun o => !p.sparseOk o),
    firstBad 0x0B p.operators (fun o => o.kind.rowWise && decide (2 ^ 24 < rows o)),
    firstBad 0x0C p.operators (fun o => match o.kind with
      | .xpose perm => (match p.ins o, p.tensor o.output with
          | a :: _, some d => !xposeOk a d perm
          | _, _ => true)
      | _ => false),
    firstBad 0x0D p.operators (fun o => match o.kind with
      | .random u => !(u == 3 || (decide (0x80 ≤ u) && decide (u ≤ 0xFF)))
      | _ => false),
    firstBad 0x0E p.operators (fun o => o.count == 0 || decide (4096 < o.first + o.count) ||
      o.clusters.any (fun g => !Machine.inMask mask (Machine.clusterPart g))),
    p.depsOk,
    firstBad 0x10 p.tensors (·.rsvSet),
    firstBad 0x10 p.operators (fun o => o.attr % 2 ^ 16 != 0 || bitsOf o.placement 15 12 != 0 || bitsOf o.placement 31 29 != 0),
    firstBad 0x10 p.collectives (·.rsvSet)]

/-- PROGRAM_DIGEST: SHA-256 of the image with IMAGE_CRC and every ROOT_LOCUS zero (Table 9.7). -/
def programDigest (img : List Byte) (total : Nat) : List Byte :=
  let z := Machine.mergeBytes (img.take total) 60 [0#8, 0#8, 0#8, 0#8]
  sha256 ((List.range (leAt img 22 2)).foldl
    (fun m i => Machine.mergeBytes m (tableOff img 3 + 64 * i + 20) [0#8, 0#8, 0#8, 0#8]) z)

/-- The loader on a whole image: a rejection, or the program and its digest (R121). -/
def loadImage (img : List Byte) (mask space : Nat) : Reject ⊕ (Program × List Byte) :=
  match headerReject img img.length with
  | some r => .inl r
  | none =>
    let p := parseProgram img
    match p.reject (parseOperators img) mask space with
    | some r => .inl r
    | none => if leAt img 52 8 ≠ 0 then .inl (0x10, noIndex) else .inr (p, programDigest img (leAt img 8 4))

/-! ### The sizes an armed program needs -/

/-- Logical cores of the clusters some operator occupies (R303), as cluster indices. -/
def Program.occupied (p : Program) : List Nat :=
  p.operators.foldl (fun acc o => o.clusters.foldl (fun a g => insertAsc g a) acc) []

/-- G_p of R304 in bytes, before rounding up to 2 MiB and after. -/
def Program.geyBytes (p : Program) (part : Nat) : Nat :=
  let pers := p.tensors.filter (fun t => t.persistent && t.part == part)
  let pp := 4096 * sumL (pers.map Tensor.blocks)
  let wp := 4096 * sumL ((pers.filter (fun t => p.operators.any (fun o => o.output == t.tensorId))).map Tensor.blocks)
  let ip := 24576 * 256 * (p.occupied.filter (fun g => Machine.clusterPart g == part)).length
  roundUp (ceilDiv ((pp + 2 * wp + 4 * ip) * 513) 512) 2097152

/-- Sum of WAVE_BLOCKS / 2 (R153). -/
def Program.quotaNeed (p : Program) : Nat := sumL (p.collectives.map (fun c => c.waveBlocks / 2))

end Sys2Proof
end

