-- ==== Sys2Proof/Machine/RecoveryOps.lean ====
section
/-!
DEFINITION. What recovery and classification share: leaving a job and a module reset (11 Table 11.1, 16 R405), transients
and classes (10 R262 to R267), fences and retirements waiting for a step boundary (01 R18 to R20, 04 R107), partition resets
and refills (11 R279, R280), escalation (R276), and reads that verify a block (04 R96 to R101, 10 R253).
-/
namespace Sys2Proof.Machine

/-! ### Notices and the module reset -/

/-- The partitions of a mask. -/
def maskParts (mask : Nat) : List Nat := bitList mask 16

/-- The three domains of a partition (R370). -/
def State.setDomains (s : State) (p : Nat) (d : DomSt) : State := ((s.setDom p d).setDom (16 + p) d).setDom (32 + p) d

/-- PWR_NOTIFY (15 Table 15.10): context, kind, value in µJ. -/
def State.pwrNotify (s : State) (x kind v : Nat) : State :=
  s.emit (.notify 0x53 (leBytes 1 x ++ leBytes 1 kind ++ leBytes 8 v))

/-- The grant in force of a context (R375). -/
def State.grantOf (s : State) (x : Nat) : Nat := (s.pwrCtx x).grant.getD s.cfg.pwrDefaultGrant

/-- The module reset (Table 11.1 level 4, R405): the flash, the locus, the event log and its SEQ series, the pins and the
local clock remain, and the counts by which actions escalate to level 5 (R276); power-stage groups 1 to 4 stay up; the start count of R159 rises; Caldera enters BOOT (log 19). The fleet count is
lost, so open records of calendar time close (14 R358). -/
def State.moduleReset (s : State) : State :=
  { State.reset with
    time := { Time.reset with loc := s.time.loc }
    cfg := s.cfg
    id := { Ident.reset with
      grade := s.id.grade, locus := s.id.locus, counted := s.id.counted }
    flash := { s.flash with starts := s.flash.starts + 1 }
    evr := s.endFreeze.evr.closeWhere (fun r => !r.preFc)
    cal := { Cal.reset with interlockIn := s.cal.interlockIn, interlockLowAt := s.cal.interlockLowAt,
                            fencedA := s.flash.fencedHalf == some 0, fencedB := s.flash.fencedHalf == some 1 }
    mbx := { Mbx.reset with linkUp := s.mbx.linkUp, linkDownAt := s.mbx.linkDownAt, width := s.mbx.width, rate := s.mbx.rate,
                            busMaster := s.mbx.busMaster }
    pwr := { Pwr.reset with
      stages := s.pwr.stages.map (fun e => if e.1 = 32 ∨ e.1 = 33 then (e.1, { e.2 with off := true, good := false, setMv := 0 }) else e)
      doms := s.pwr.doms.filter (fun e => decide (48 ≤ e.1) && e.1 != 60 && e.1 != 61)
      ceiling := s.cfg.pwrCeilingW }
    pins := { s.pins with interlockOut := false, groups := s.pins.groups % 16 }
    recov := { Recov.reset with actions := s.recov.actions }
    out := s.out, free := s.free, pending := s.pending }

/-- The module declares itself lost to the coordinator of every job it takes part in and leaves them (R20, R26). -/
def State.selfLost (s : State) (reason : Nat) : State :=
  if s.recov.lost then s
  else
    let live := ctxIds.filter (fun x => (s.ctx x).st == .armed || (s.ctx x).st == .running || (s.ctx x).st == .held)
    let s := forEach live s (fun s x => s.sendCtrl (s.ctx x).coordLocus 0x66 (s.ctx x).step (s.ctx x).attempt reason)
    let s := (s.bump .recL4 0).record { code := 0x0410 + reason, sev := 3, data := [s.locus, 0] }
    s.updRecov (fun r => { r with lost := true })

/-! ### Keys of units -/

/-- Keys under which transients and actions are counted: slots by physical core address, then units (R265, R276). -/
def slotKey (g slot : Nat) : Nat := physCore g slot
def engineKey (p e : Nat) : Nat := 2 ^ 22 + 4 * p + e
def partKey (p : Nat) : Nat := 2 ^ 22 + 256 + p
def moduleKey : Nat := 2 ^ 22 + 512
/-- A transport unit of Table 10.3 in a partition. -/
def transportKey (unit p : Nat) : Nat := 2 ^ 22 + 1024 + 16 * unit + p
/-- A unit of Table 11.3. -/
def hangKey : HangUnit → Nat
  | .sequencer cl core => 2 ^ 23 + 256 * cl + core
  | .clusterControl cl => 2 ^ 22 + 8192 + cl
  | .dma p => 2 ^ 22 + 2048 + p
  | .xpose p e => engineKey p e
  | .geyser p => 2 ^ 22 + 2080 + p
  | .square d => 2 ^ 22 + 2112 + d
  | .crossing d => 2 ^ 22 + 2144 + d
  | .port p => 2 ^ 22 + 2176 + p
  | .calCore h c => 2 ^ 22 + 2240 + 4 * h + c

/-! ### Fences and retirements -/

/-- A slot is to be fenced at the next step boundary; fencing is idempotent (R18, R266). -/
def State.wantFence (s : State) (g slot : Nat) : State :=
  s.updCluster g (fun c => if c.fenced.contains slot then c else { c with toFence := insertAsc slot c.toFence })

/-- A boundary action is queued once (R273, R275). -/
def State.wantAct (s : State) (rank unit : Nat) : State :=
  s.updRecov (fun r => if r.pending.any (fun a => a.rank == rank && a.unit == unit) then r
                       else { r with pending := r.pending ++ [{ rank, unit }] })

/-- A record of class RECOVERY (Table 14.2): severity by level, DATA the key. -/
def State.recordRecovery (s : State) (level unit : Nat) : State :=
  s.record { code := 0x0300 + level, sev := if level = 1 then 0 else if level = 2 then 1 else if level = 3 then 2 else 3,
             data := [unit, level] }

/-! ### Partition reset and refill -/

/-- Ask the buddy for a block of the committed copy (R280, R315). -/
def State.fetchBlock (s : State) (x tensorId block : Nat) : State :=
  let c := s.ctx x
  let s := s.updGey x (fun g => { g with fetching := KMap.upd g.fetching (blockKey tensorId block) 0 (· + 1) })
  s.sendCtrl c.gey.buddy 0x46 c.lastStep 0 (field tensorId 32 0 + field block 32 32)

/-- The protected blocks of a context in a partition: tensor blocks, then images (R303). -/
def Ctx.protectedIn (c : Ctx) (p : Nat) : List (Nat × Nat) :=
  ((c.persistent.filter (fun t => t.part == p)).map (fun t => (List.range t.blocks).map (fun b => (t.tensorId, b)))).flatten ++
  ((c.gey.imgCommitted.filter (fun e => clusterPart (coreCluster (e.1 / 8)) == p)).map (fun e => (imageTensor, e.1)))

/-- The bytes of a partition at every level are cleared and their check records invalid (R279). -/
def State.clearPartition (s : State) (p : Nat) : State :=
  s.updMem (fun m => { m with
    bytes := m.bytes.filter (fun c => addrPart c.1 != p)
    checks := m.checks.filter (fun e => addrPart e.1 != p)
    nsPoison := m.nsPoison.filter (fun a => addrPart a != p)
    invalidParts := insertAsc p m.invalidParts })

/-- The state of the clusters of a partition that a partition reset clears; the slot maps stay (Table 11.1 level 3). -/
def Cluster.cleared (c : Cluster) : Cluster := { c.idled with stamps := [] }

/-- RECOVERY_NOTICE with the count at which this module expects to be ready, its own estimate (R286, R312; log 10). -/
def State.noticeReady (s : State) (x : Nat) : State :=
  let r := s.fresh
  let c := s.ctx x
  r.2.sendCtrl c.coordLocus 0x67 c.step c.attempt (field c.attempt 4 0 + field (s.now + r.1 % 10000000000) 64 64)

/-- A partition reset (R279): its contents are cleared, pending slots in it discarded, the partner copy held in it is lost
and asked for again (R315), and the share of the committed copy is fetched from the buddy, of which the coordinator has notice (R286). DOWNGRADE ends, and the partition's domains align again (R234, R235). -/
def State.partitionReset (s : State) (p : Nat) : State :=
  let s := (s.clearPartition p).updDet (fun d => { d with downgrade := false })
  let s := s.updClus (List.map (fun e => if clusterPart e.1 = p then (e.1, e.2.cleared) else e))
  let owners := ctxIds.filter (fun x => (s.ctx x).st != .empty && inMask (s.ctx x).mask p)
  forEach owners s (fun s x =>
    let c := s.ctx x
    let blocks := c.protectedIn p
    let s := s.updCtx x (fun c => { c with pend := c.pend.filter (fun e => addrPart e.1 != p) })
    let s := s.updMem (fun m => { m with refill := KMap.put m.refill p blocks.length })
    let s := if c.st = .running ∨ c.st = .held ∨ (c.st = .armed ∧ c.gey.bound) then forEach blocks s (fun s b => s.fetchBlock x b.1 b.2) else s
    let s := if c.st = .running ∧ !blocks.isEmpty then s.noticeReady x else s
    match c.gey.partner with
    | none => s
    | some q =>
      let inP (k : Nat) : Bool := match c.tensor (k / 2 ^ 32) with
        | some t => t.part == p
        | none => clusterPart (coreCluster (k % 2 ^ 32 / 8)) == p
      let s := s.updGey x (fun g => { g with partner := some { q with
        committed := q.committed.filter (fun e => !inP e.1), pending := q.pending.filter (fun e => !inP e.1), seeded := false } })
      s.sendCtrl q.locus 0x45 c.lastStep 0 (2 ^ p))

/-! ### Recovery actions and escalation (R272 to R276) -/

/-- The window's actions of a unit and level with one more, newest first. -/
def pushTick (l : List Nat) (now window : Nat) : List Nat := now :: l.filter (fun t => decide (now < t + 2 ^ window))

/-- An action on a unit: counted, recorded and carried out at its level, or at the next where the count says so (R276).
`sq` marks a unit in no partition, which goes from level 2 to 4. Levels at 4 reset the module. -/
def State.act : Nat → State → Nat → Nat → Nat → Bool → State
  | 0, s, _, _, _, _ => s
  | k + 1, s, unit, level, p, sq =>
    let key := 8 * (if level = 4 then moduleKey else if level = 3 then partKey p else unit) + level
    let ticks := pushTick (KMap.getD s.recov.actions key []) s.now s.cfg.escalateWindow
    let s := s.updRecov (fun r => { r with actions := KMap.put r.actions key ticks })
    if s.cfg.escalateCount ≤ ticks.length ∧ level ≤ 4 then
      State.act k s unit (if level = 2 && sq then 4 else level + 1) p sq
    else
      let s := s.recordRecovery level unit
      match level with
      | 2 => s.bump .recL2 0
      | 3 => (s.bump .recL3 0).partitionReset p
      | 4 => (s.selfLost 5).moduleReset
      | _ => (s.bump .recL5 0).updPins (fun p => { p with pwrCycleReq := true })

/-- The key of an action during an attempt (R273): unit, level, step, attempt of the first running context the unit serves. -/
def State.actionKey (s : State) (unit level p : Nat) (sq : Bool) : Option (Nat × Nat × Nat × Nat) :=
  (ctxIds.find? (fun x => (s.ctx x).st == .running && (sq || inMask (s.ctx x).mask p))).map (fun x =>
    (if level = 4 then moduleKey else if level = 3 then partKey p else unit, level, (s.ctx x).step, (s.ctx x).attempt))

/-- An action of a level on a unit of a partition; ordered again under a key completed, it changes nothing (R273). -/
def State.recover (s : State) (unit level p : Nat) (sq : Bool := false) : State :=
  match s.actionKey unit level p sq with
  | none => State.act 4 s unit level p sq
  | some k =>
    if s.recov.completed.contains k then s
    else State.act 4 (s.updRecov (fun r => { r with completed := (k :: r.completed).take 1024 })) unit level p sq

/-! ### Classes of slots and units (R262 to R267) -/

/-- A record of class CLASSIFY (Table 14.2): 1 TRANSIENT, 2 PERMANENT, 3 UNDECIDED, with the slot's address, or 0 where there is no
single slot, and the latest sample (R267; log 43). -/
def State.classify (s : State) (x : Nat) (unit : Nat × Nat) (slot core opId layer : Nat) (temp : Int) (util cls : Nat) : State :=
  s.record { code := 0x0200 + cls, sev := if cls = 2 then 2 else 1, srcType := unit.1, srcIndex := unit.2, ctx := x,
             step := (s.ctx x).step, attempt := (s.ctx x).attempt, data := [slot, core, opId, layer, ofInt 32 temp, util] }

/-- The class of a slot is recorded and shown in ERR_CL_DETECT (Table 10.6). -/
def State.classRecord (s : State) (x g slot core opId layer cls : Nat) : State :=
  let cl := s.cluster g
  let s := s.updCluster g (fun c => { c with lastSlot := slot, lastClass := cls })
  (s.classify x (2, physCore g slot) (physCore g slot) core opId layer cl.temp cl.util cls).setEvt .clDetect g (if cls = 2 then 28 else 27)

/-- A slot already PERMANENT: fenced, or to be fenced at the next boundary (R266). -/
def Cluster.condemned (c : Cluster) (slot : Nat) : Bool := c.fenced.contains slot || c.toFence.contains slot

/-- A slot is PERMANENT: recorded, counted and fenced at the next boundary, once (R262, R265, R266). -/
def State.permanentSlot (s : State) (x g slot core opId layer : Nat) : State :=
  if (s.cluster g).condemned slot then s
  else ((s.classRecord x g slot core opId layer 2).bump .detPermanent 0).wantFence g slot

/-- A TRANSIENT or UNDECIDED slot enters the directed table (R267). -/
def State.direct (s : State) (g slot : Nat) : State :=
  let cl := s.cluster g
  let e : Directed := { cluster := g, slot, temp := cl.temp, util := cl.util, left := s.cfg.directSteps }
  if s.cfg.directSteps = 0 then s
  else s.updRecov (fun r =>
    let l := r.directed.filter (fun d => !(d.cluster == g && d.slot == slot))
    { r with directed := (if 64 ≤ l.length then l.drop 1 else l) ++ [e] })

/-- The cluster's latest sample lies inside a directed entry's signature (R267). -/
def State.inSignature (s : State) (d : Directed) : Bool :=
  let c := s.cluster d.cluster
  decide ((c.temp - d.temp).natAbs ≤ s.cfg.directTemp) && decide (c.util ≤ d.util + s.cfg.directUtil) &&
    decide (d.util ≤ c.util + s.cfg.directUtil)
/-- A step of the clusters of a mask ends: entries inside their signature lose one of their steps, and at none leave (R267). -/
def State.ageDirected (s : State) (mask : Nat) : State :=
  s.updRecov (fun r => { r with directed := (r.directed.map (fun d =>
    if inMask mask (clusterPart d.cluster) && s.inSignature d then { d with left := d.left - 1 } else d)).filter (fun d => decide (0 < d.left)) })
/-- One transient on a key; true when the limit of R265 is reached. -/
def State.countTransient (s : State) (key : Nat) : Bool × State :=
  let ticks := pushTick (KMap.getD s.recov.transients key []) s.now s.cfg.transientWindow
  (decide (s.cfg.transientLimit ≤ ticks.length),
    (s.updRecov (fun r => { r with transients := KMap.put r.transients key ticks })).bump .detTransient 0)

/-- A slot counts one transient for (step, attempt), at most once (R265, R266); `cls` 1 TRANSIENT or 3 UNDECIDED. -/
def State.transientSlot (s : State) (x g slot core opId layer cls : Nat) : State :=
  let c := s.ctx x
  let mark := (slotKey g slot, c.step, c.attempt)
  if s.recov.counted.contains mark || (s.cluster g).condemned slot then s
  else
    let s := s.updRecov (fun r => { r with counted := (mark :: r.counted).take 1024 })
    let t := (s.classRecord x g slot core opId layer cls).countTransient (slotKey g slot)
    let s := t.2.direct g slot
    if t.1 then s.permanentSlot x g slot core opId layer else s

/-- The engines of a partition that are not fenced, ascending. -/
def State.liveEngines (s : State) (p : Nat) : List Nat := (List.range 4).filter (fun e => !s.recov.engines.contains (4 * p + e))

/-- The engine of an operator's job (R447). -/
def State.engineOf (s : State) (p opId : Nat) : Option Nat :=
  let l := s.liveEngines p
  l[opId % l.length]?

/-- The class of a unit of a partition that is no slot is recorded (R264, R265). -/
def State.unitClass (s : State) (x p opId layer cls : Nat) : State := s.classify x (3, p) 0 0 opId layer 0 0 cls

/-- A transport unit or engine is PERMANENT: the engine is fenced at the next boundary, any other unit's partition reset (R265,
Table 11.2). -/
def State.permanentUnit (s : State) (x key p : Nat) (engine : Option Nat) (opId layer : Nat) : State :=
  let s := (s.unitClass x p opId layer 2).bump .detPermanent 0
  match engine with
  | some e => s.wantAct 2 (4 * p + e)
  | none => s.recover key 3 p

/-- A transport unit or engine counts one transient, TRANSIENT or UNDECIDED, and may reach the limit (R264, R265). -/
def State.transientUnit (s : State) (x key p : Nat) (engine : Option Nat) (opId layer cls : Nat) : State :=
  let t := (s.unitClass x p opId layer cls).countTransient key
  if t.1 then t.2.permanentUnit x key p engine opId layer else t.2

/-- The transport unit of a report in a partition: the engine that runs the job, else the unit of Table 10.3. -/
def State.transportUnit (s : State) (x unit p opId layer : Nat) : State :=
  match (if unit = 5 then s.engineOf p opId else none) with
  | some e => s.transientUnit x (engineKey p e) p (some e) opId layer 1
  | none => s.transientUnit x (transportKey unit p) p none opId layer 1

/-- The clusters of a context, ascending. -/
def Ctx.clusterList (c : Ctx) : List Nat := ((maskParts c.mask).map (fun p => List.range' (256 * p) 256)).flatten

/-- The cluster of a shadow or vote core (R255): the one at a position, or the next that does not time-slice and holds no other
role; where a full circuit finds none, the one at the position. -/
def State.roleCluster (s : State) (l : List Nat) (pos : Nat) (taken : List Nat) : Nat :=
  let at_ (k : Nat) : Nat := l.getD ((pos + k) % l.length) 0
  match (List.range l.length).find? (fun k => !(s.cluster (at_ k)).tslice && !taken.contains (at_ k)) with
  | some k => at_ k
  | none => at_ 0

/-- Primary, shadow and vote of an instance (R255, R447): the key of the slot, none for a displaced core, or of the engine; and the
logical core, 0 for an engine. -/
def State.roles (s : State) (x : Nat) (o : OpDesc) (unit : Nat) : List (Option Nat × Nat) :=
  match o.kind with
  | .xpose _ =>
    let l := s.liveEngines unit
    (List.range 3).map (fun k => (l[(o.opId + k) % l.length]?.map (engineKey unit), 0))
  | _ =>
    let l := (s.ctx x).clusterList
    let g := coreCluster unit
    let q := ((l.findIdx? (· == g)).getD 0)
    let h := s.roleCluster l (q + l.length / 2) [g]
    let t := s.roleCluster l (q + l.length / 4) [g, h]
    [g, h, t].map (fun k => (((s.cluster k).slotOf (unit % 256)).map (physCore k), 256 * k + unit % 256))

/-- One role's class applied (R263): a slot's, an engine's, or a displaced core's, which is recorded as UNDECIDED at worst and counts no
transient against a slot. -/
def State.roleClass (s : State) (x opId layer core : Nat) (role : Option Nat) (cls : Nat) : State :=
  match role with
  | none =>
    let cl := s.cluster (coreCluster core)
    (s.classify x (1, coreCluster core) 0 core opId layer cl.temp cl.util (if cls = 2 then 3 else cls)).bump .detTransient 0
  | some a =>
    if a < 2 ^ 21 then
      if cls = 2 then s.permanentSlot x (a / 512) (a % 512) core opId layer
      else s.transientSlot x (a / 512) (a % 512) core opId layer cls
    else
      let u := a - 2 ^ 22
      if cls = 2 then s.permanentUnit x a (u / 4) (some (u % 4)) opId layer
      else s.transientUnit x a (u / 4) (some (u % 4)) opId layer cls

/-- The exposure record of a role classified after a shadow mismatch (R261): slot address, logical core, OPERATOR_ID, LAYER_ID,
FIRST_EXPOSED, the class, LAST_EXPOSED, and the latest sample; the places of the fields in DATA are the model's (log 43).
`unit` is the primary's logical core. -/
def State.exposure (s : State) (x : Nat) (o : OpDesc) (unit : Nat) (role : Option Nat × Nat) (cls : Nat) : State :=
  let c := s.ctx x
  let onCore := match o.kind with | .xpose _ => false | _ => true
  let g := coreCluster role.2
  let n := if onCore && (s.cluster (coreCluster unit)).suspect then s.cfg.suspectShadow else 64
  let first := max c.firstStep (c.step + 1 - n)
  let last := prevStep c.step
  let cl := if onCore then s.cluster g else Cluster.reset
  let u : (Nat × Nat) × Nat := match role.1 with
    | none => ((1, g), 0)
    | some a => if a < 2 ^ 21 then ((2, a), a) else ((3, (a - 2 ^ 22) / 4), 0)
  (s.bump .detExposure 0).record {
    code := 0x0204, sev := 2, srcType := u.1.1, srcIndex := u.1.2, ctx := x, step := c.step, attempt := c.attempt
    data := [u.2, role.2, o.opId, o.layer * 2 ^ 16 + first / 2 ^ 32, first % 2 ^ 32,
             (if role.1.isNone && cls == 2 then 3 else cls) * 2 ^ 16 + last / 2 ^ 32, last % 2 ^ 32,
             ofInt 16 cl.temp * 2 ^ 16 + cl.util] }

/-- A role is classified after a shadow mismatch, and its exposed steps are recorded (R261, R263). -/
def State.judge (s : State) (x : Nat) (o : OpDesc) (unit : Nat) (role : Option Nat × Nat) (cls : Nat) : State :=
  (s.roleClass x o.opId o.layer role.2 role.1 cls).exposure x o unit role cls

/-- One repeat when its attempt has ended (R262): a mismatch seen again is PERMANENT, none is TRANSIENT, and a core that has moved, or
an attempt that never ran, is UNDECIDED. A displaced core is still on its slot while the slot is ACTIVE. A shadow report whose
vote never ran leaves its roles UNDECIDED (R263; log 110). -/
def State.settleRepeat (s : State) (x : Nat) (r : Repeat) (ran : Bool) : State :=
  if r.shadow then
    match (s.ctx x).op r.opId with
    | none => s
    | some o =>
      let core (i : Nat) : Nat := ((s.roles x o r.core).getD i (none, 0)).2
      if r.agreed.isSome then s.judge x o r.core (r.slotT, core 2) 3
      else (s.judge x o r.core (r.slot, core 0) 3).judge x o r.core (r.slotQ, core 1) 3
  else match r.slot with
  | none => s
  | some a =>
    let g := a / 512
    let slot := a % 512
    let q := s.cluster g
    let still := q.slotOf (r.core % 256) == some slot || ((q.slotOf (r.core % 256)).isNone && q.active.contains slot)
    if r.failedAgain && still then s.permanentSlot x g slot r.core r.opId r.layer
    else if still && ran then s.transientSlot x g slot r.core r.opId r.layer 1
    else s.transientSlot x g slot r.core r.opId r.layer 3

/-! ### Contexts that end -/

/-- The command a ring executes completes with a status and no result. -/
def State.finishRing (s : State) (n status : Nat) : State :=
  match (s.ring n).cur with
  | some a => s.complete n a status 0
  | none => s

/-- A context becomes EMPTY: repeats that will not run are settled; commands that wait for it complete, a hold or a write with CTX_STATE, a teardown with OK; dumps cancelled, Square slots freed, its domains off, its grant lapsed with PWR_NOTIFY RELEASED
(R112, R158, R245, R370, R375). -/
def State.emptyCtx (s : State) (x : Nat) : State :=
  let c := s.ctx x
  if c.st = .empty then s
  else
    let g := s.grantOf x
    let s := forEach (s.recov.repeats.filter (fun r => r.ctx == x)) s (fun s r => s.settleRepeat x r false)
    let s := (s.updRecov (fun q => { q with repeats := q.repeats.filter (fun r => r.ctx != x) })).cancelDumps x
    let s := forEach (c.holdRings ++ (c.gey.writeAcks.map (·.2)).eraseDups) s (fun s r => s.finishRing r 5)
    let s := forEach c.tearRings s (fun s r => s.finishRing r 0)
    let s := s.updFab (fun f => { f with slots := f.slots.filter (fun q => q.domain != c.domain) })
    let s := forEach (maskParts c.mask) s (fun s p => s.setDomains p .off)
    let s := (s.idleClusters c.mask).updClus (List.map (fun e =>
      if inMask c.mask (clusterPart e.1) then (e.1, { e.2 with stamps := [], late := [], suspect := false }) else e))
    let s := (s.updPwrCtx x (fun _ => PwrCtx.reset)).pwrNotify x 1 g
    let s := s.updTel (fun t => { t with
      strag := KMap.del t.strag x, stragglers := t.stragglers.filter (· != x), slots := t.slots.filter (fun q => q.tree != c.domain),
      waitDown := t.waitDown.filter (fun w => w.1 != c.domain) })
    s.setCtx x Ctx.reset

/-! ### Reading blocks with verification (R96 to R101, R253) -/

/-- Corrected and uncorrectable counters of a level (Table 4.7). -/
def ceCtr (level : Nat) : Ctr := match level with | 0 => .hbmCe | 1 => .fsCe | _ => .nsCe
def ueCtr (level : Nat) : Ctr := match level with | 0 => .hbmUe | 1 => .fsUe | _ => .nsUe

/-- The active pseudo-channel an HBM address's first granule lies on (R106). -/
def State.pcOf (s : State) (a : Nat) : Nat :=
  let p := addrPart a
  let l := s.activePcs p
  16 * p + l.getD (a % 2 ^ 35 / 256 % l.length) 0

/-- Count an error against a pseudo-channel; at a limit of R107 within 2^30 ticks it retires at the next step boundary. -/
def State.pcError (s : State) (a : Nat) (ue : Bool) : State :=
  if addrLevel a ≠ 0 then s
  else
    let k := s.pcOf a
    let h := KMap.getD s.mem.pcs k PcHist.reset
    let h := if ue then { h with ue := pushTick h.ue s.now 30 } else { h with ce := pushTick h.ce s.now 30 }
    let s := s.updMem (fun m => { m with pcs := KMap.put m.pcs k h })
    if !h.retired && (decide (s.cfg.hbmPcUeLimit ≤ h.ue.length) || decide (2 ^ 16 < h.ce.length)) then s.wantAct 3 k else s

/-- A corrected error: counted; near store and far store are written back, which a foreground read notes (R101, Table 9.4). -/
def State.corrected (s : State) (x : Option Nat) (a : Nat) : State :=
  let s := (s.bump (ceCtr (addrLevel a)) (addrPart a)).pcError a false
  match x with
  | some x => if addrLevel a = 0 then s else s.updCtx x (fun c => { c with reasons := setBit c.reasons 8 true })
  | none => s

/-- An uncorrectable error: the block, or the near-store word, is POISON, and the error is counted (R101). -/
def State.uncorrectable (s : State) (a : Nat) : State :=
  let s := ((s.bump (ueCtr (addrLevel a)) (addrPart a)).pcError a true).setEvt .partStatus (addrPart a) 29
  if addrLevel a = 2 then s.updMem (fun m => { m with nsPoison := insertAsc (a / 8 * 8) m.nsPoison })
  else s.poisonBlock a

/-- A second read failed too: PERMANENT for the stored block (R264). -/
def State.permanentBlock (s : State) (x a opId layer : Nat) : State :=
  (s.unitClass x (addrPart a) opId layer 2).bump .detPermanent 0

/-- A stored block is bad: marked invalid; a block of the committed copy of a PERSISTENT tensor is fetched from the buddy,
any other waits for the re-execution to write it (R253, R280). -/
def State.badBlock (s : State) (x a : Nat) : State :=
  let s := s.invalidate (blockOf a)
  let c := s.ctx x
  match c.tensorAt a with
  | some t => if t.1.persistent && (KMap.find c.pend (blockOf a)).isNone then s.fetchBlock x t.1.tensorId t.2 else s
  | none => s

/-- A TRANSPORT report on a block (Table 10.2): BLOCK_CHECK with unit and part, or POISON with level. -/
def State.reportBlock (s : State) (x a unit part opId layer : Nat) (poison : Bool) : State :=
  let s := if poison then s else s.bump (if part = 2 then .memMass else .memBlockCheck) (addrPart a)
  s.report x { FaultParam.of 3 (if poison then 0x22 else 0x20) with
    addr := blockOf a, opId, layer,
    detail := if poison then addrLevel a else field unit 4 0 + field part 2 4 }

/-- Read a block of a context and verify it (R96): what the storage code and the path do is the operand `rd`. A failed first
read is reported and read again at once; a good second read counts a transient, a bad one marks the block and, unless the block was bad
already, is PERMANENT for it and counts its location as an uncorrectable error does (R253, R264).
The bytes read, or none when verification failed, and the state after. -/
def State.readBlock (s : State) (x a unit opId layer : Nat) (rd : ReadOutcome) : Option (List Byte) × State :=
  let b := s.blockBytes x a
  let r := s.blockRecord x a
  let f := r.fails ((s.ctx x).codeAt a) b
  if r.poison then
    (none, (s.reportBlock x a unit 3 opId layer true).badBlock x a)
  else if f ≠ 0 then
    let s := s.reportBlock x a unit f opId layer false
    (none, (if r.invalid then s else (s.permanentBlock x a opId layer).pcError a true).badBlock x a)
  else match rd with
    | .good => (some b, s)
    | .corrected => (some b, s.corrected (some x) a)
    | .uncorrectable => (none, (((s.uncorrectable a).reportBlock x a unit 3 opId layer true).permanentBlock x a opId layer).badBlock x a)
    | .pathFlip off mask =>
      let v := b.set off (b.getD off 0#8 ^^^ BitVec.ofNat 8 mask)
      let g := r.fails ((s.ctx x).codeAt a) v
      if g = 0 then (some v, s)
      else (none, (s.reportBlock x a unit g opId layer false).transportUnit x unit (addrPart a) opId layer)

/-- Write bytes inside one block: whole blocks plainly, else by read-modify-write, which a failed check stops (R97). -/
def State.writePart (s : State) (x a opId layer : Nat) (bs : List Byte) : State :=
  let off := a % 4096
  if off = 0 ∧ bs.length = 4096 then s.writeBlock x a bs
  else
    let r := s.readBlock x a (if addrLevel a = 1 then 1 else 2) opId layer .good
    match r.1 with
    | some b => r.2.writeBlock x a (mergeBytes b off bs)
    | none => r.2

end Sys2Proof.Machine
end

