-- ==== Sys2Proof/Machine/Mailbox.lean ====
section
/-!
DEFINITION. The mailbox commands (05 Table 5.14), the registers of Tables 5.9 to 5.11, and the fingerprint and dumps of 09.
-/
namespace Sys2Proof.Machine

/-! ### Shared by the commands -/

/-- Outcome of a command now. -/
def done (status result : Nat) (s : State) : Option (Nat × Nat) × State := (some (status, result), s)
/-- The command completes at a later event. -/
def later (s : State) : Option (Nat × Nat) × State := (none, s)

/-- Table 5.15. -/
def stOk : Nat := 0
def stNotReady : Nat := 1
def stBadParam : Nat := 3
def stCtxState : Nat := 5
def stLoadReject : Nat := 6
def stAddrErr : Nat := 8
def stBlockCheck : Nat := 9

/-- PARAM bytes of a staged entry, by offset in the entry (Table 5.12). -/
def Staged.par (a : Staged) (off n : Nat) : Nat := leAt a.e.param (off - 32) n

/-- Write a device-to-host payload before its completion (R129). -/
def State.hostPayload (s : State) (a : Staged) (bytes : List Byte) : State :=
  if s.mbx.linkUp && s.mbx.busMaster && !s.mbx.hostLoss then s.emit (.hostWrite a.e.payloadAddr bytes) else s

/-- The identity summary of PF1 BAR0: locus, grade, steppings, arithmetic revision (Tables 5.8, 0.7; layout log 18). -/
def State.identity (s : State) : List Byte :=
  leBytes 4 s.locus ++ leBytes 1 s.id.grade ++ [0xB0#8, 0xA0#8, 0xA1#8] ++ leBytes 2 arithRev

/-- CONFIG_DIGEST (R400). -/
def State.configDigest (s : State) : List Byte := sha256 s.cfg.encoded

/-- RESULT_KEY of a context (R242). -/
def Ctx.resultKey (c : Ctx) : List Byte :=
  sha256 (leBytes 2 arithRev ++ fitBytes 32 c.progDigest ++ leBytes 8 c.seed ++ leBytes 6 c.firstStep ++ leBytes 4 c.participants)

/-- The index of this module among the job's participants (R225). -/
def State.indexOf (s : State) (x : Nat) : Nat := (s.ctx x).index.idxOf s.locus

/-- A step record's bytes (Table 9.6). -/
def StepRec.bytes (r : StepRec) : List Byte :=
  leBytes 6 r.step ++ leBytes 1 (r.attempt % 16) ++
  leBytes 1 (b2n r.cycle + 2 * b2n (r.cycle && r.reasons == 0) + 4 * b2n r.hostWrite) ++ leBytes 8 r.launch ++
  leBytes 8 r.commitTick ++ leBytes 4 r.reasons ++ leBytes 4 (r.gapPhase % 2 ^ 27) ++ leBytes 8 r.stateSum ++
  leBytes 8 r.planSum ++ leBytes 8 r.confirmCycles ++ leBytes 8 0

/-- The settings fingerprint (Table 9.7) of a context, or with CTX 0xFFFF of none. -/
def State.fingerprint (s : State) (x : Option Nat) : List Byte :=
  let head := leBytes 4 0x31525046 ++ leBytes 2 1 ++ leBytes 2 arithRev ++ leBytes 1 s.cfg.detLevel ++ leBytes 1 (b2n s.isCycle) ++
    leBytes 1 s.id.grade ++ leBytes 1 0 ++ [0xB0#8, 0xA0#8, 0xA1#8] ++ leBytes 1 s.id.fwMajor ++ leBytes 2 s.id.fwMinor ++
    leBytes 2 0 ++ leBytes 4 s.locus ++ s.configDigest ++
    leBytes 4 (sumL (s.clus.map (fun e => e.2.fenced.length))) ++ leBytes 2 ((s.clus.filter (fun e => e.2.tslice)).length) ++
    leBytes 2 ((s.mem.pcs.filter (fun e => e.2.retired)).length)
  match x with
  | none => fitBytes 4096 head
  | some x =>
    let c := s.ctx x
    fitBytes 4096 (head ++ leBytes 4 x ++ leBytes 4 (s.indexOf x) ++ leBytes 4 c.participants ++ leBytes 4 0 ++
      leBytes 8 c.seed ++ leBytes 6 c.firstStep ++ leBytes 2 0 ++ fitBytes 32 c.progDigest ++ c.resultKey ++
      leBytes 6 ((c.records.head?).elim 0 (·.step)) ++ leBytes 90 0 ++ ((c.records.take 60).map StepRec.bytes).flatten)

/-! ### IDENTIFY, ATTACH, NOP -/

/-- IDENTIFY: identity summary and configuration digest in a 4 KiB payload. -/
def execIdentify (ring : Nat) (s : State) : Host.Outcome State Fault Refusal :=
  onRing ring (s.runEntry ring 0x01 (fun a s => done stOk 0 (s.hostPayload a (fitBytes 4096 (s.identity ++ s.configDigest)))))

/-- ATTACH: no sequence check; HOST_LOSS clears, ATTACHED sets; RESULT tells H and whether HOST_LOSS was set (R134). The
heartbeat window starts (R132). -/
def execAttach (ring : Nat) (s : State) : Host.Outcome State Fault Refusal :=
  onRing ring (s.runEntry ring 0x02 (fun _ s =>
    done stOk (s.mbx.highSeq + b2n s.mbx.hostLoss * 2 ^ 32)
      (s.updMbx (fun m => { m with hostLoss := false, attached := true }))))

/-- NOP. -/
def execNop (ring : Nat) (s : State) : Host.Outcome State Fault Refusal :=
  onRing ring (s.runEntry ring 0xFF (fun _ s => done stOk 0 s))

/-! ### CTX_LOAD (R131) -/

/-- The size of a part of an image (R129, log 21). -/
def partSize : Nat := 4194304

/-- The HBM address of a context's image. -/
def Ctx.imageAddr (c : Ctx) : Nat := hbmAddr ((maskParts c.mask).headD 0) c.imageOff

/-- Write 4 KiB pieces with fresh checks of the blocks they lie in, outside any tensor. -/
def State.writeRaw (s : State) (a : Nat) : Nat → List Byte → State
  | 0, _ => s
  | n + 1, bs =>
    let t := s.writeBytes a (bs.take 4096)
    let check (t : State) (b : Nat) : State := t.setCheck b (freshCheck 0 (t.readBytes b 4096))
    (if a % 4096 = 0 then t.setCheck a (freshCheck 0 (bs.take 4096)) else check (check t (blockOf a)) (blockOf (a + 4095))).writeRaw
      (a + 4096) n (bs.drop 4096)

/-- The loader runs on the whole image (R121): LOADED, or EMPTY with the reject code and index. -/
def State.runLoader (s : State) (x : Nat) : Option (Nat × Nat) × State :=
  let c := s.ctx x
  match loadImage (s.readBytes c.imageAddr c.imageLen) c.mask s.cfg.programSpace with
  | .inl r => done stLoadReject (r.1 + r.2 * 2 ^ 16) (s.emptyCtx x)
  | .inr p => done stOk 0 ((s.updCtx x (fun c => { c with st := .loaded, prog := some p.1, progDigest := p.2 })).updPwrCtx x
      (fun w => { w with ref := none, building := false }))

/-- CTX_LOAD: one part of an image. The first part fixes mask and count and turns the partitions' domains on (R370); the last
runs the loader. -/
def execCtxLoad (ring : Nat) (s : State) : Host.Outcome State Fault Refusal :=
  onRing ring (s.runEntry ring 0x10 (fun a s =>
    let x := a.e.ctx
    let c := s.ctx x
    let idx := a.par 32 2
    let count := a.par 34 2
    let mask := a.par 36 2
    let off := a.par 40 4
    let len := a.payload.length
    if 16 ≤ x then done stBadParam 0 s
    else if s.id.unaccepted || !(c.st == .empty || c.st == .loading) then done stCtxState 0 s
    else if mask = 0 ∨ count = 0 ∨ 16 < count ∨ count ≤ idx ∨ a.par 38 2 ≠ 0 ∨ len = 0 ∨
        s.cfg.programSpace < off + partSize * (count - 1) + len ∨
        ctxIds.any (fun y => y != x && (s.ctx y).st != .empty && (s.ctx y).mask &&& mask != 0) then done stBadParam 0 s
    else if c.st = .loading ∧ (c.mask ≠ mask ∨ c.partCount ≠ count) then done stBadParam 0 s
    else
      let s := if c.st = .empty then
          forEach (maskParts mask) (s.setCtx x { Ctx.reset with st := .loading, mask, partCount := count, imageOff := off })
            (fun s p => s.setDomains p .on)
        else s
      let s := s.writeRaw ((s.ctx x).imageAddr + partSize * idx) (len / 4096) a.payload
      let s := s.updCtx x (fun c => { c with received := insertAsc idx c.received,
                                             imageLen := max c.imageLen (partSize * idx + len) })
      if (s.ctx x).received.length < count then done stOk 0 s else s.runLoader x))

/-! ### CTX_ARM (R113 to R115) -/

/-- The Geyser region needed by the contexts of a partition, with this program's (R304). -/
def State.geyNeed (s : State) (x p : Nat) : Nat :=
  sumL (ctxIds.map (fun y =>
    let c := s.ctx y
    if (y == x || c.st.code ≥ 3) && inMask c.mask p then (c.prog.map (fun g => g.geyBytes p)).getD 0 else 0))

/-- CTX_ARM cannot be accepted: R114, an undefined descriptor value, RSV, G_p (R304) or the Square quota (R153). -/
def State.armBad (s : State) (x : Nat) (d : List Byte) : Bool :=
  let c := { s.ctx x with desc := d }
  let pol := c.descPolicy
  (c.coordForm == 0 && decide (64 < c.participants)) || decide (1 < c.coordForm) || c.domain == 0 || decide (4095 < c.domain) ||
  decide (2 ^ 48 - 2 ^ 20 < c.firstStep) || c.participants == 0 || decide (131072 < c.participants) ||
  (decide (2 < pol) && pol != 0xFF) || leAt d 26 2 != 0 || leAt d 48 80 != 0 ||
  decide (2 ^ 17 ≤ c.coordA) || decide (2 ^ 17 ≤ c.coordB) || decide (2 ^ 17 ≤ c.buddyLocus) ||
  (c.coordForm == 1 && c.coordB != c.coordA) ||
  (c.participants == 1 && c.buddyLocus != s.locus) ||
  (maskParts c.mask).any (fun p => decide (s.cfg.geyRegionMib * 2 ^ 20 < s.geyNeed x p)) ||
  decide (256 * (maskParts c.mask).length < (c.prog.map Program.quotaNeed).getD 0)

/-- Geyser sends GEY_BIND to the buddy, or with the module its own buddy sets BUDDY_VALID (R308, R309). -/
def State.bind (s : State) (x : Nat) : State :=
  let c := s.ctx x
  if c.gey.buddy = s.locus then s.updGey x (fun g => { g with buddyValid := true })
  else s.sendCtrl c.gey.buddy 0x40 0 0 (field c.jobId 32 32)

/-- CTX_ARM: the descriptor is taken, ARMED goes to the coordinator, Geyser binds its buddy, and the module announces
itself to both coordinator modules in case it is a spare (R115, R309, R313, log 22). -/
def execCtxArm (ring : Nat) (s : State) : Host.Outcome State Fault Refusal :=
  onRing ring (s.runEntry ring 0x11 (fun a s =>
    let x := a.e.ctx
    let d := fitBytes 128 a.payload
    if 16 ≤ x then done stBadParam 0 s
    else if (s.ctx x).st ≠ .loaded then done stCtxState 0 s
    else if a.payload.length < 128 ∨ s.armBad x d then done stBadParam 0 s
    else
      let s := s.updCtx x (fun c =>
        let c := { c with st := .armed, desc := d }
        { c with coordLocus := c.coordA, step := c.firstStep, attempt := 0, committed := none, records := [],
                 gey := { GeyCtx.reset with buddy := c.buddyLocus, bindSince := some s.time.loc },
                 coord := { Coord.reset with active := c.coordA == s.locus, epoch := if c.coordA = s.locus then 1 else 0,
                                             standby := if c.coordForm = 0 then (if c.coordA = s.locus then c.coordB else c.coordA)
                                                        else c.buddyLocus } })
      let c := s.ctx x
      let s := (s.sendCtrl c.coordA 0x01 0 0 (descDigest d)).bind x
      let ready (s : State) (l : Nat) : State := s.sendCtrl l 0x42 0 0 (field c.jobId 32 32)
      let s := ready s c.coordA
      done stOk 0 (if c.coordB = c.coordA then s else ready s c.coordB)))

/-! ### CTX_HOLD, CTX_RESUME, CTX_TEARDOWN -/

/-- The coordinator is not on this module, and no message carries the host's request to it: NOT_READY with a hint (log 23). -/
def State.notCoordinator (s : State) : Option (Nat × Nat) × State :=
  let h := s.hint
  done stNotReady h.1 h.2

/-- CTX_HOLD: the coordinator holds the job at the next step boundary, where the command completes. -/
def execCtxHold (ring : Nat) (s : State) : Host.Outcome State Fault Refusal :=
  onRing ring (s.runEntry ring 0x12 (fun a s =>
    let x := a.e.ctx
    if 16 ≤ x then done stBadParam 0 s
    else if (s.ctx x).st ≠ .running then done stCtxState 0 s
    else if !(s.ctx x).coord.active then s.notCoordinator
    else later (s.updCtx x (fun c => { c with holdRings := c.holdRings ++ [ring], coord := { c.coord with holdReq := true } }))))

/-- A launch count the coordinator issues now: CFG_LAUNCH_MARGIN ahead, at least `notBefore`, on the grid at CYCLE, and for
two participants or more in time to reach them (R115, R236). -/
def State.launchCount (s : State) (notBefore : Nat) : Nat :=
  onGrid s.isCycle (max (s.now + s.cfg.launchMargin) notBefore)

/-- Send a coordinator message to every participant, the epoch in P[191:160] (R293). -/
def State.toAll (s : State) (x msg step attempt param : Nat) (payload : List Byte := []) : State :=
  let c := s.ctx x
  forEach c.pmap s (fun s l => s.sendCtrl l msg step attempt (param + field c.coord.epoch 32 160) payload)

/-- The earliest launch after a STEP_HOLD (R281). -/
def State.holdFloor (s : State) (x : Nat) : Nat :=
  match (s.ctx x).coord.stepHeld with
  | some t => t + s.cfg.fabMaxAge
  | none => 0

/-- The attempt's collections start afresh. -/
def Coord.fresh (o : Coord) (step attempt launch deadline : Nat) : Coord :=
  { o with step, attempt, launch, deadline, confirms := [], reports := [], collecting := none, ready := 0, probes := [] }

/-- The coordinator resumes a held job: RESUME to every participant with a launch count for the next step (R133, R281). -/
def State.resumeJob (s : State) (x : Nat) : Nat × State :=
  let c := s.ctx x
  let l := s.launchCount (s.holdFloor x)
  let n := match c.committed with | some n => nextStep n | none => c.firstStep
  let k := if c.coord.stepHeld.isSome then (c.attempt + 1) % 16 else 0
  let s := s.toAll x 0x08 n k l
  (l, s.updCoord x (fun o => { o.fresh n k l (l + c.dOffset) with held := false, stepHeld := none, failed := 0, reporters := [] }))

/-- CTX_RESUME: a held job is resumed by its coordinator; RESULT is the launch count. -/
def execCtxResume (ring : Nat) (s : State) : Host.Outcome State Fault Refusal :=
  onRing ring (s.runEntry ring 0x13 (fun a s =>
    let x := a.e.ctx
    if 16 ≤ x then done stBadParam 0 s
    else if (s.ctx x).st ≠ .held then done stCtxState 0 s
    else if !(s.ctx x).coord.active then s.notCoordinator
    else let r := s.resumeJob x
         done stOk r.1 r.2))

/-- The coordinator drains a job: DRAIN to every participant with T_d (R158). -/
def State.drainJob (s : State) (x : Nat) : State :=
  let td := s.launchCount 0
  (s.toAll x 0x0A 0 0 td).updCoord x (fun o => { o with drained := [], tearReq := false })

/-- CTX_TEARDOWN: before START the context is EMPTY at once; a RUNNING one is drained at the next step boundary, a HELD one
now (R112, R115, R158). -/
def execCtxTeardown (ring : Nat) (s : State) : Host.Outcome State Fault Refusal :=
  onRing ring (s.runEntry ring 0x14 (fun a s =>
    let x := a.e.ctx
    if 16 ≤ x then done stBadParam 0 s
    else match (s.ctx x).st with
      | .loading | .loaded | .armed => done stOk 0 (s.emptyCtx x)
      | .running =>
        if !(s.ctx x).coord.active then s.notCoordinator
        else later (s.updCtx x (fun c => { c with tearRings := c.tearRings ++ [ring], coord := { c.coord with tearReq := true } }))
      | .held => if !(s.ctx x).coord.active then s.notCoordinator else done stOk 0 (s.drainJob x)
      | _ => done stCtxState 0 s))

/-! ### TENSOR_WRITE and TENSOR_READ (R130, R311) -/

/-- The tensor of a transfer if HOST_IO, and whether its blocks lie inside it. -/
def transferOf (c : Ctx) (t first n : Nat) : Option (Tensor × Bool) :=
  match c.tensor t with
  | some d => if d.hostIo then some (d, decide (first + n ≤ d.blocks)) else none
  | none => none

/-- An injection towards a destination whose limiter is below full rate may be held: counted, and the LIMITER reason set,
when it was (R155, Table 9.4; log 10). -/
def State.meter (s : State) (x dst vc : Nat) : State :=
  match KMap.find s.fab.limiters (8 * dst + vc) with
  | none => s
  | some l =>
    let s := s.updFab (fun f => { f with limiters := KMap.put f.limiters (8 * dst + vc) { l with usedAt := s.time.loc } })
    if 1024 ≤ l.rate then s
    else
      let h := s.freshBool
      if h.1 then (h.2.bump .fabLimited 0).updCtx x (fun c => { c with reasons := setBit c.reasons 4 true }) else h.2

/-- A block as four DATA or BULK packets to a partition of a module, PART 0 to 3, each with the block's check (Table 6.4). The
first packet's SEQ is the module's packet count before it. -/
def State.sendBlock (s : State) (x dst : Nat) (bulk : Bool) (tensorId addr check : Nat) (bytes : List Byte) (step attempt : Nat)
    (ack : Bool) : State :=
  let q := s.fab.dataSeq
  let s := (s.meter x dst (if bulk then 5 else 4)).updFab (fun f => { f with dataSeq := (f.dataSeq + 4) % 2 ^ 32 })
  forEach (List.range 4) s (fun s i =>
    s.emit (.data dst (addrPart addr) (s.ctx x).domain step (attempt % 16) ((q + i) % 2 ^ 32)
      { bulk, tensorId, addr, check, part := i, ackReq := ack, payload := slice bytes (1024 * i) 1024 }))

/-- Blocks of a TENSOR_WRITE written one by one to the committed copy with fresh checks, and in ARMED or HELD with a buddy
sent to it as well. -/
def State.hostWriteBlocks (s : State) (x : Nat) (t : Tensor) : Nat → Nat → List Byte → State
  | _, 0, _ => s
  | b, n + 1, bs =>
    let a := t.blockAddr b
    let s := s.writeBlock x a (bs.take 4096)
    let c := s.ctx x
    let s := if t.persistent && (c.st == .armed || c.st == .held) && c.gey.bound then
        s.sendBlock x c.gey.buddy true t.tensorId a (s.checkAt a).value (bs.take 4096) c.lastStep 0 true
      else s
    s.hostWriteBlocks x t (b + 1) n (bs.drop 4096)

/-- TENSOR_WRITE: whole blocks of a HOST_IO tensor. In ARMED or HELD it completes once the buddy has acknowledged every
block of a PERSISTENT tensor (R311). -/
def execTensorWrite (ring : Nat) (s : State) : Host.Outcome State Fault Refusal :=
  onRing ring (s.runEntry ring 0x20 (fun a s =>
    let x := a.e.ctx
    let n := a.payload.length / 4096
    if 16 ≤ x then done stBadParam 0 s
    else
      let c := s.ctx x
      if !(c.st == .loaded || c.st == .armed || c.st == .held) then done stCtxState 0 s
      else match transferOf c (a.par 32 4) (a.par 36 4) n with
        | none => done stBadParam 0 s
        | some (_, false) => done stAddrErr 0 s
        | some (t, true) =>
          let q := s.fab.dataSeq
          let s := (s.hostWriteBlocks x t (a.par 36 4) n a.payload).updCtx x (fun c => { c with hostWrite := true })
          if t.persistent && (c.st == .armed || c.st == .held) && c.gey.bound && decide (0 < n) then
            later (s.updGey x (fun g => { g with writeAcks := g.writeAcks ++ (List.range n).map (fun i => ((q + 4 * i) % 2 ^ 32, ring)) }))
          else done stOk n s))

/-- Blocks of a TENSOR_READ read and verified in order, the storage outcome falling on the first; none when one fails. -/
def State.hostReadBlocks (s : State) (x : Nat) (t : Tensor) : Nat → Nat → ReadOutcome → Option (List Byte) × State
  | _, 0, _ => (some [], s)
  | b, n + 1, rd =>
    let r := s.readBlock x (t.blockAddr b) 7 0 0 rd
    match r.1 with
    | none => (none, r.2)
    | some bs =>
      let q := r.2.hostReadBlocks x t (b + 1) n .good
      (q.1.map (bs ++ ·), q.2)

/-- The committed copy is what the host reads: the pending slots of a running step stand aside for the read (R130, R305). -/
def State.hostRead (s : State) (x : Nat) (t : Tensor) (b n : Nat) (rd : ReadOutcome) : Option (List Byte) × State :=
  let p := (s.ctx x).pend
  let r := (s.updCtx x (fun c => { c with pend := [] })).hostReadBlocks x t b n rd
  (r.1, r.2.updCtx x (fun c => { c with pend := p }))

/-- TENSOR_READ: verified blocks of a HOST_IO tensor; while RUNNING only of a PERSISTENT one, as last committed. -/
def execTensorRead (ring : Nat) (rd : ReadOutcome) (s : State) : Host.Outcome State Fault Refusal :=
  onRing ring (s.runEntry ring 0x21 (fun a s =>
    let x := a.e.ctx
    let n := a.e.payloadLen / 4096
    if 16 ≤ x then done stBadParam 0 s
    else
      let c := s.ctx x
      if !(c.st == .loaded || c.st == .armed || c.st == .held || c.st == .running) then done stCtxState 0 s
      else match transferOf c (a.par 32 4) (a.par 36 4) n with
        | none => done stBadParam 0 s
        | some (_, false) => done stAddrErr 0 s
        | some (t, true) =>
          if c.st = .running ∧ !t.persistent then done stCtxState 0 s
          else
            let s := if c.st = .running then s.updCtx x (fun c => { c with reasons := setBit c.reasons 7 true }) else s
            let r := s.hostRead x t (a.par 36 4) n rd
            match r.1 with
            | none => done stBlockCheck 0 r.2
            | some bs => done stOk n (r.2.hostPayload a bs)))

/-! ### Dumps (R243 to R245) -/

/-- The buffers of a list page, or none when it fails R244. -/
def dumpBuffers (l : List Byte) : Option (List (Nat × Nat)) :=
  let n := leAt l 4 4
  let bufs := (List.range n).map (fun e => (leAt l (64 + 16 * e) 8, leAt l (72 + 16 * e) 8))
  if l.length != 4096 || n == 0 || decide (252 < n) || leAt l 0 4 != 0 || leAt l 8 56 != 0 ||
      bufs.any (fun b => b.1 % 4096 != 0 || b.2 == 0 || b.2 % 4160 != 0) ||
      leAt l (64 + 16 * n) (4032 - 16 * n) != 0 then none
  else some bufs

/-- Place records in the buffers in order: host writes, bytes written and whether they did not fit. -/
def placeRecords : List (Nat × Nat) → Nat → List (List Byte) → List (Nat × List Byte) × Nat × Bool
  | _, _, [] => ([], 0, false)
  | [], _, _ :: _ => ([], 0, true)
  | (a, len) :: bufs, used, r :: rs =>
    if used + 4160 ≤ len then
      let p := placeRecords ((a, len) :: bufs) (used + 4160) rs
      ((a + used, r) :: p.1, p.2.1 + 4160, p.2.2)
    else placeRecords bufs 0 (r :: rs)
termination_by bufs _ rs => bufs.length + rs.length

/-- OPERATOR_ID and LAYER_ID of the program's last operator that writes a tensor; 0 where none does. -/
def Ctx.lastWriter (c : Ctx) (tensorId : Nat) : Nat × Nat :=
  ((((c.prog.map (·.operators)).getD []).filter (fun o => o.output == tensorId)).getLast?).elim (0, 0) (fun o => (o.opId, o.layer))

/-- Capture a tensor's blocks on this module into a dump's buffers: records of 4,160 bytes, each block verified (R244). The
last writer's layer and operator are named. -/
def State.capture (s : State) (x : Nat) (d : Dump) (t : Tensor) (opId layer attempt : Nat) : State × Dump :=
  let p := (List.range t.blocks).foldl (fun (acc : State × List (List Byte)) b =>
    let a := t.blockAddr b
    let bytes := acc.1.blockBytes x a
    let chk := (acc.1.blockRecord x a).value
    let s := (acc.1.readBlock x a 8 opId layer .good).2
    (s, acc.2 ++ [leBytes 4 t.tensorId ++ leBytes 4 b ++ leBytes 6 d.step ++ leBytes 1 (attempt % 16) ++ leBytes 1 0 ++
      leBytes 8 chk ++ leBytes 4 s.locus ++ leBytes 2 layer ++ leBytes 2 0 ++ leBytes 4 opId ++ leBytes 28 0 ++ bytes])) (s, [])
  let w := placeRecords d.buffers 0 p.2
  let s := forEach w.1 p.1 (fun s r => s.emit (.hostWrite r.1 r.2))
  let s := s.bump .detDumpBlocks 0 w.1.length
  (s, { d with captured := true, bytesWritten := w.2.1, overflow := w.2.2, attempt })

/-- Report a captured dump to the host: HANDLE, STEP and ATTEMPT, BYTES_WRITTEN, DUMP_STATUS last, vector 5 (R245). -/
def State.reportDump (s : State) (d : Dump) : State :=
  let s := s.emit (.hostWrite (d.listAddr + 16) (leBytes 4 d.handle))
  let s := s.emit (.hostWrite (d.listAddr + 24) (leBytes 6 d.step ++ leBytes 1 (d.attempt % 16)))
  let s := s.emit (.hostWrite (d.listAddr + 8) (leBytes 8 d.bytesWritten))
  (s.emit (.hostWrite d.listAddr (leBytes 4 (if d.overflow then 2 else 1)))).emit (.msix 0 5)

/-- DUMP_REQUEST with the buffer list the device reads. -/
def execDumpRequest (ring : Nat) (list : List Byte) (s : State) : Host.Outcome State Fault Refusal :=
  onRing ring (s.runEntry ring 0x30 (fun a s =>
    let x := a.e.ctx
    let c := s.ctx x
    let t := a.par 32 4
    let step := a.par 36 6
    let when_ := a.par 42 1
    let op := a.par 44 4
    let la := a.par 48 8
    if 16 ≤ x then done stBadParam 0 s
    else if !(c.st == .loaded || c.st == .armed || c.st == .running || c.st == .held) then done stCtxState 0 s
    else
      let here := c.step
      let served := decide (when_ = 0) && c.committed == some step
      let past := match c.st with
        | .running => decide (serialDist 48 here step < 2 ^ 47)
        | .held => decide (serialDist 48 here step < 2 ^ 47) && decide (step ≠ here)
        | .armed => decide (serialDist 48 here step < 2 ^ 47) && decide (step ≠ here)
        | _ => false
      match c.tensor t, dumpBuffers list with
      | some td, some bufs =>
        if decide (1 < when_) || a.par 43 1 != 0 || a.par 56 8 != 0 || la % 4096 != 0 || decide (16 ≤ c.dumps.length) ||
            (when_ == 0 && op != 0) || (when_ == 1 && (c.op op).map (·.output) != some t) ||
            (c.st != .loaded && decide (2 ^ 20 < serialDist 48 step here) && decide (serialDist 48 step here < 2 ^ 47)) ||
            (past && !(served && (td.persistent || td.hostIo))) then done stBadParam 0 s
        else
          let h := s.mbx.dumpSeq % 2 ^ 32
          let s := s.updMbx (fun m => { m with dumpSeq := m.dumpSeq + 1 })
          let d : Dump := { handle := h, tensorId := t, step, afterOp := if when_ = 1 then some op else none, listAddr := la,
                            buffers := bufs, bytesWritten := 0, overflow := false, captured := false, attempt := 0 }
          if served && (td.persistent || td.hostIo) then
            let p := c.pend
            let w := (s.updCtx x (fun c => { c with pend := [] })).capture x d td (c.lastWriter t).1 (c.lastWriter t).2 c.commitAttempt
            done stOk h ((w.1.updCtx x (fun c => { c with pend := p })).reportDump w.2)
          else done stOk h (s.updCtx x (fun c => { c with dumps := c.dumps ++ [d] }))
      | _, _ => done stBadParam 0 s))

/-- FINGERPRINT_GET (R242). -/
def execFingerprintGet (ring : Nat) (s : State) : Host.Outcome State Fault Refusal :=
  onRing ring (s.runEntry ring 0x31 (fun a s =>
    if a.e.ctx = 0xFFFF then done stOk 0 (s.hostPayload a (s.fingerprint none))
    else if 16 ≤ a.e.ctx then done stBadParam 0 s
    else done stOk 0 (s.hostPayload a (s.fingerprint (some a.e.ctx)))))

/-- POLICY_SET: a host-loss policy for a LOADED or ARMED context (R133). -/
def execPolicySet (ring : Nat) (s : State) : Host.Outcome State Fault Refusal :=
  onRing ring (s.runEntry ring 0x40 (fun a s =>
    let x := a.e.ctx
    let v := a.par 32 1
    if 16 ≤ x then done stBadParam 0 s
    else if !((s.ctx x).st == .loaded || (s.ctx x).st == .armed) then done stCtxState 0 s
    else if (2 < v ∧ v ≠ 0xFF) ∨ a.par 33 31 ≠ 0 then done stBadParam 0 s
    else done stOk 0 (s.updCtx x (fun c => { c with policySet := v }))))

/-! ### Acceptance, doorbells and registers -/

/-- COMMAND_ACCEPT: the device fetches the next entry of a ring with its payload and accepts it (R125 to R128). -/
def execCommandAccept (ring : Nat) (e : SqEntry) (payload : List Byte) (s : State) : Host.Outcome State Fault Refusal :=
  onRing ring (s.accept ring e payload)

/-- SQ_DOORBELL: the tail is latched in every state (R125). -/
def execSqDoorbell (ring tail : Nat) (s : State) : Host.Outcome State Fault Refusal :=
  onRing ring (s.updRing ring (fun r => { r with tail := tail % 4096 }))

/-- RING_EN_WRITE: enables or disables a pair; indices keep their values (log 25). -/
def execRingEnWrite (ring : Nat) (en : Bool) (s : State) : Host.Outcome State Fault Refusal :=
  onRing ring (s.updRing ring (fun r => { r with en }))

/-- ENABLE written; a host that enables the device has set Bus Master Enable (log 26). -/
def State.enableWrite (s : State) (en : Bool) : State :=
  s.updMbx (fun m => { m with enable := en, busMaster := m.busMaster || en })

/-- MBX_ENABLE_WRITE. -/
def execMbxEnableWrite (en : Bool) (s : State) : Host.Outcome State Fault Refusal := .next (s.enableWrite en)

/-- CQ_HEAD_WRITE: completions consumed, and stalled ones posted (R125). -/
def execCqHeadWrite (ring head : Nat) (s : State) : Host.Outcome State Fault Refusal :=
  onRing ring (s.consume ring head)

/-- MBX_HEARTBEAT: any write counts (R132). -/
def execMbxHeartbeat (value : Nat) (s : State) : Host.Outcome State Fault Refusal :=
  .next (s.updMbx (fun m => { m with heartbeat := value % 2 ^ 32 }))

/-- What a ring register write does by its offset in the pair (Table 5.11). -/
def State.ringWrite (s : State) (n off v : Nat) : State :=
  match off with
  | 0x00 => s.updRing n (fun r => { r with sqBase := v % 2 ^ 64 / 4096 * 4096 })
  | 0x04 => s.updRing n (fun r => { r with sqBase := r.sqBase % 2 ^ 32 + v % 2 ^ 32 * 2 ^ 32 })
  | 0x0C => s.updRing n (fun r => { r with cqBase := r.cqBase % 2 ^ 32 + v % 2 ^ 32 * 2 ^ 32 })
  | 0x08 => s.updRing n (fun r => { r with cqBase := v % 2 ^ 64 / 4096 * 4096 })
  | 0x10 => s.updRing n (fun r => { r with log2 := v % 16 })
  | 0x14 => s.updRing n (fun r => { r with en := v.testBit 0 })
  | 0x18 => s.updRing n (fun r => { r with tail := v % 4096 })
  | 0x20 => s.consume n v
  | _ => s

/-- REGISTER_WRITE: a host write at an offset of PF0 BAR0 (Tables 5.9 to 5.11); read-only and unassigned offsets ignore it
(R123), event bits clear by ones (R8). -/
def execRegisterWrite (offset value : Nat) (s : State) : Host.Outcome State Fault Refusal :=
  .next (
    if offset = 0x004 then s.w1c .mbxStatus 0 (value &&& 2)
    else if offset = 0x008 then s.enableWrite (value.testBit 0)
    else if offset = 0x00C then s.updMbx (fun m => { m with heartbeat := value % 2 ^ 32 })
    else if 0x1000 ≤ offset ∧ offset < 0x1100 then s.ringWrite ((offset - 0x1000) / 0x40) (offset % 0x40) value
    else if 0x100000 ≤ offset ∧ offset < 0x104000 ∧ offset % 4 = 0 then
      s.w1c .clStatus ((offset - 0x100000) / 4) (value &&& 0x60000000)
    else if 0x104000 ≤ offset ∧ offset < 0x104040 ∧ offset % 4 = 0 then
      s.w1c .partStatus ((offset - 0x104000) / 4) (value &&& 0x60000000)
    else s)

/-! ### PCIe resets and host loss (R124, R132) -/

/-- PCIE_HOT_RESET (R124). -/
def execPcieHotReset (s : State) : Host.Outcome State Fault Refusal := .next s.mbxReset

/-- PCIE_LINK_DOWN: the mailbox resets, and the 100 ms of R132 begin. -/
def execPcieLinkDown (s : State) : Host.Outcome State Fault Refusal :=
  .next ((s.mbxReset).updMbx (fun m => { m with linkUp := false, linkDownAt := some s.time.loc, width := 0 }))

/-- PCIE_FLR of PF0: the mailbox resets and the host is lost (R124, R132). -/
def execPcieFlr (s : State) : Host.Outcome State Fault Refusal :=
  .next ((s.mbxReset.updMbx (fun m => { m with busMaster := false })).hostLost 2)

/-- PF1_FLR: only PF1 and its MCTP endpoint state (R124, 16 R410): its sessions end. -/
def execPf1Flr (s : State) : Host.Outcome State Fault Refusal :=
  .next (s.updMgmt (fun m => { m with eidVdm := 0, sessions := m.sessions.filter (fun x => x.binding != 1),
                                      conns := m.conns.filter (fun c => c.1 / 256 != 1) }))

/-- BUS_MASTER_DISABLE: Bus Master Enable of PF0 is cleared (R132). -/
def execBusMasterDisable (s : State) : Host.Outcome State Fault Refusal :=
  .next ((s.updMbx (fun m => { m with busMaster := false })).hostLost 3)

/-- HOST_HB_TIMEOUT: no heartbeat for the window while attached (R132). -/
def execHostHbTimeout (s : State) : Host.Outcome State Fault Refusal :=
  .next (if s.mbx.attached then s.hostLost 0 else s)

/-- PCIE_LINK_DOWN_TIMEOUT: the link has been down for 100 ms (R132). -/
def execPcieLinkDownTimeout (s : State) : Host.Outcome State Fault Refusal :=
  .next (if s.mbx.linkUp then s else s.hostLost 1)

end Sys2Proof.Machine
end

