-- ==== Sys2Proof/Machine/Trees.lean ====
section
/-!
DEFINITION. Routes by configuration and the trees over them: the reduction tree of a job (06 R150), the fleet tree and the job tree
of telemetry (13 R339, R342); and sorting by a rank.
-/
namespace Sys2Proof

/-- The module one hop further on the dimension-order route between two loci by configuration; breaks of other Avenues are not
known here and none is counted (log 36). -/
def Cfg.nextLocus (c : Cfg) (cur dst : Nat) : Option Nat :=
  [3, 2, 1, 0].findSome? (fun d =>
    let a := Machine.coordOf cur d
    let t := Machine.coordOf dst d
    let n := c.extent d
    let w := if d = 3 then 5 else 4
    if a = t then none
    else
      let up := if (c.fabWrap).testBit d then decide (2 * ((t + n - a) % n) ≤ n) else decide (a < t)
      let b := if up then (a + 1) % n else (a + n - 1) % n
      some (cur - field a w (4 * d) + field b w (4 * d)))

/-- The first participant other than the start on the route to the root. -/
def Cfg.parentFrom (c : Cfg) (pmap : List Nat) (root : Nat) : Nat → Nat → Option Nat
  | 0, _ => none
  | n + 1, cur =>
    match c.nextLocus cur root with
    | none => none
    | some l => if pmap.contains l then some l else c.parentFrom pmap root n l

/-- The module one hop away in direction v (R142). -/
def Cfg.stepTo (c : Cfg) (cur v : Nat) : Nat :=
  let d := v / 2
  let a := Machine.coordOf cur d
  let n := c.extent d
  let w := if d = 3 then 5 else 4
  cur - field a w (4 * d) + field (if v % 2 = 0 then (a + 1) % n else (a + n - 1) % n) w (4 * d)

/-- Fabric hops from a module to another. -/
def Cfg.hopsTo (c : Cfg) (dst : Nat) : Nat → Nat → Nat
  | 0, _ => 0
  | n + 1, cur => match c.nextLocus cur dst with | none => 0 | some l => c.hopsTo dst n l + 1

/-- The modules one hop from a module, in dimension order, each once. -/
def Cfg.neighbours (c : Cfg) (cur : Nat) : List Nat :=
  ([0, 1, 2, 3].map (fun d =>
    let a := Machine.coordOf cur d
    let n := c.extent d
    let w := if d = 3 then 5 else 4
    let wrap := (c.fabWrap).testBit d
    let put (b : Nat) : Nat := cur - field a w (4 * d) + field b w (4 * d)
    (if a + 1 < n then [put (a + 1)] else if wrap && decide (1 < n) then [put 0] else []) ++
    (if 0 < a then [put (a - 1)] else if wrap && decide (1 < n) then [put (n - 1)] else []))).flatten.eraseDups

end Sys2Proof

namespace Sys2Proof.Machine

/-- The parent of a participant toward a root. -/
def State.parentOf (s : State) (pmap : List Nat) (root l : Nat) : Option Nat := s.cfg.parentFrom pmap root 80 l
/-- The participants whose parent this module is. -/
def State.childrenOf (s : State) (pmap : List Nat) (root : Nat) : List Nat :=
  pmap.filter (fun l => l != s.locus && s.parentOf pmap root l == some s.locus)

/-- Insert by rank, after equals; and sort by rank. -/
def insertBy {α : Type} (r : α → Nat) (a : α) : List α → List α
  | [] => [a]
  | b :: l => if r a < r b then a :: b :: l else b :: insertBy r a l
def sortBy {α : Type} (r : α → Nat) (l : List α) : List α := l.foldl (fun acc a => insertBy r a acc) []

/-- The direction a packet leaves in: the first of G, Z, Y, X whose coordinate differs; none when all agree. -/
def State.routeDir (s : State) (dst : Nat) : Option Nat :=
  [3, 2, 1, 0].findSome? (fun d =>
    let c := coordOf s.locus d
    let t := coordOf dst d
    let n := s.cfg.extent d
    if c = t then none
    else if s.isLine d then
      let b := s.brk d
      let pc := (c + 2 * n - b - 1) % n
      let pt := (t + 2 * n - b - 1) % n
      some (if pc < pt then 2 * d else 2 * d + 1)
    else some (if 2 * ((t + n - c) % n) ≤ n then 2 * d else 2 * d + 1))

end Sys2Proof.Machine
end

