-- ==== Sys2Proof/Machine/CrossOps.lean ====
section
/-!
DEFINITION. What the Crossings share (06 R137 to R147, R154): the packet header, dimension-order routing, the port a packet leaves by,
credits and the bubble rule, service order, reservations, and forwarding.
-/
namespace Sys2Proof.Machine

/-! ### The header flit (Table 6.2) -/

def hdrKind (w : Nat) : Nat := bitsOf w 511 508
def hdrVc (w : Nat) : Nat := bitsOf w 507 505
def hdrLen (w : Nat) : Nat := bitsOf w 502 498
def hdrHops (w : Nat) : Nat := bitsOf w 497 491
def hdrDst (w : Nat) : Nat := bitsOf w 478 462
def hdrSrc (w : Nat) : Nat := bitsOf w 461 445
def hdrEp (w : Nat) : Nat := bitsOf w 444 440
def hdrInj (w : Nat) : Nat := bitsOf w 402 371
def hdrTv (w : Nat) : Bool := w.testBit 274

/-- The header with a field replaced. -/
def hdrSet (w v width lo : Nat) : Nat := w - field (bitsOf w (lo + width - 1) lo) width lo + field v width lo

/-- HCRC: CRC-32C of bits [511:32], most significant byte first, with CM, ECHO and HOPS zero (R139). -/
def hdrCrc (w : Nat) : Nat := (crc32c (beBytes 60 (bitsOf (hdrSet (hdrSet w 0 2 503) 0 7 491) 511 32))).toNat

/-- The header is good: HCRC agrees and KIND, LEN and DST_EP hold no reserved value (R139). -/
def hdrGood (w : Nat) : Bool :=
  hdrCrc w == bitsOf w 31 0 && decide (hdrKind w ≤ 6) && decide (hdrLen w ≤ 16) && decide (hdrEp w ≤ 20)

/-! ### Routes (R142, R143) -/

/-- Position of a die on the die ring: CD0, CD1, CD3, CD2 (R137). -/
def ringPos (die : Nat) : Nat := [0, 1, 3, 2].getD die 0
/-- The die at a ring position. -/
def ringDie (pos : Nat) : Nat := [0, 1, 3, 2].getD (pos % 4) 0
/-- The die of an endpoint (R142). -/
def epDie (ep : Nat) : Nat := if ep < 16 then ep / 4 else if ep = 16 then 0 else ep - 17

/-- Toward a die on the die ring: true for plus; a broken link makes it a line (R142, R283). -/
def State.ringPlus (s : State) (die target : Nat) : Bool :=
  let a := ringPos target
  let b := ringPos die
  match s.fab.dieBreak with
  | none => decide ((a + 4 - b) % 4 ≤ 2)
  | some n => decide ((b + 7 - n) % 4 < (a + 7 - n) % 4)

/-- Where a packet goes from a die. -/
inductive Hop where
  | deliver
  | port (p : Nat)
  | ring (plus : Bool)
  /-- Every port of the bundle is down (R164). -/
  | down
  deriving DecidableEq, Repr

/-- Leave by one of some ports: the one R143 picks on this die, or the die ring to the first die, in plus order, that holds one. -/
def State.leaveBy (s : State) (die w : Nat) (ports : List Nat) : Hop :=
  let here := ports.filter (fun p => p / 8 == die)
  if !here.isEmpty then .port (here.getD ((hdrDst w + hdrEp w) % here.length) 0)
  else
    match ([1, 2, 3].map (fun k => ringDie (ringPos die + k))).find? (fun d => ports.any (fun p => p / 8 == d)) with
    | none => .down
    | some d => .ring (if s.fab.dieBreak.isSome then s.ringPlus die d else true)

/-- The next hop of a packet at a die. A MGMT packet to the neighbour itself may use a MGMT_ONLY port (R191). -/
def State.hop (s : State) (die w : Nat) : Hop :=
  match s.routeDir (hdrDst w) with
  | none => if epDie (hdrEp w) = die then .deliver else .ring (s.ringPlus die (epDie (hdrEp w)))
  | some v =>
    let ups := s.upMembers v
    if !ups.isEmpty then s.leaveBy die w ups
    else
      let mgmt := (s.members v).filter (fun p => (s.port p).st == .mgmtOnly && (s.port p).remoteLocus == hdrDst w)
      if hdrKind w = 6 ∧ hdrSrc w = s.locus ∧ !mgmt.isEmpty then s.leaveBy die w mgmt else .down

/-! ### Credits (R141, R146, R174, Table 6.6) -/

/-- Input buffer of a link and VC in flits; local-group ports have four times as much. -/
def vcBuffer (group : Bool) (vc : Nat) : Nat := [512, 1024, 4096, 2048, 6144, 1024, 512, 1024].getD vc 0 * (if group then 4 else 1)
/-- The buffer behind output `out` of a die: fabric port j for 0–7, die ring plus 8 and minus 9. -/
def outBuffer (out vc : Nat) : Nat := vcBuffer (out == 6 || out == 7) vc

def outKey (die out vc : Nat) : Nat := (16 * die + out) * 8 + vc
def State.outVc (s : State) (die out vc : Nat) : OutVc :=
  KMap.getD s.fab.outs (outKey die out vc) { credits := outBuffer out vc, waiting := none, reserved := false, coolUntil := 0 }
def State.updOut (s : State) (die out vc : Nat) (f : OutVc → OutVc) : State :=
  s.updFab (fun b => { b with outs := KMap.put b.outs (outKey die out vc) (f (s.outVc die out vc)) })

/-- Credits an output holds: for a port (FREED − SENT) modulo 2^16. -/
def State.credits (s : State) (die out vc : Nat) : Nat :=
  if out < 8 then
    let p := s.port (8 * die + out)
    (KMap.getD p.freedIn vc (outBuffer out vc) + 2 ^ 16 - KMap.getD p.sent vc 0) % 2 ^ 16
  else (s.outVc die out vc).credits

/-- A packet continues on its Avenue (R146). One that came over the die ring does; its entry was judged on the die before. -/
def State.continuing (s : State) (inPort : Nat) (h : Hop) (w : Nat) : Bool :=
  if inPort = 34 then false
  else if 32 ≤ inPort then true
  else
    let d := (s.port inPort).dir / 2
    match h with
    | .port p => (s.port p).dir / 2 == d
    | .ring _ => match s.routeDir (hdrDst w) with | some v => v / 2 == d | none => false
    | _ => true

/-- The output of a hop: 10 is delivery. -/
def Hop.out : Hop → Nat
  | .deliver => 10 | .port p => p % 8 | .ring true => 8 | .ring false => 9 | .down => 11

/-- A packet may be granted now (R146, R147). -/
def State.mayGrant (s : State) (die inPort w : Nat) (h : Hop) : Bool :=
  match h with
  | .deliver => true
  | .down => true
  | _ =>
    let vc := hdrVc w
    let need := hdrLen w + 1
    let have_ := s.credits die h.out vc
    let q := s.outVc die h.out vc
    if s.continuing inPort h w then
      decide (need ≤ have_) && (match q.reserved, q.waiting with
        | true, some l => decide (need + l + 1 + 17 ≤ have_)
        | _, _ => true)
    else decide (need + 17 ≤ have_)

/-! ### Forwarding -/

/-- The input buffer of a packet is free again: FREED of the port, or credits of the die that sent it. -/
def State.freeInput (s : State) (die inPort vc n : Nat) : State :=
  if inPort < 32 then
    s.updPort inPort (fun p => { p with freedOut := KMap.put p.freedOut vc ((KMap.getD p.freedOut vc (outBuffer (inPort % 8) vc) + n) % 2 ^ 16) })
  else if inPort = 32 then
    s.updOut (ringDie (ringPos die + 3)) 8 vc (fun o => { o with credits := o.credits + n })
  else if inPort = 33 then
    s.updOut (ringDie (ringPos die + 1)) 9 vc (fun o => { o with credits := o.credits + n })
  else s

/-- A packet leaves on an output: credits are taken, CM is set below a quarter of the buffer (R154), counters and the round-robin
pointer move, and a reservation that it waited for ends. -/
def State.grant (s : State) (die inPort w : Nat) (h : Hop) : State :=
  let vc := hdrVc w
  let n := hdrLen w + 1
  let s := s.freeInput die inPort vc n
  match h with
  | .down => s.bump .fabDown 0
  | .deliver => s.emit (.forward die 10 (BitVec.ofNat 512 w))
  | _ =>
    let marks := (hdrKind w == 0 || hdrKind w == 1 || hdrKind w == 5) && decide (4 * s.credits die h.out vc < outBuffer h.out vc)
    let w' := if marks then hdrSet w 1 1 504 else w
    let entering := !s.continuing inPort h w
    let s := if h.out < 8 then
        let p := 8 * die + h.out
        let s := (s.updPort p (fun q => { q with sent := KMap.put q.sent vc ((KMap.getD q.sent vc 0 + n) % 2 ^ 16),
                                                 txSeq := (q.txSeq + n) % 2 ^ 24 })).bump .fabTx p n
        if marks then s.bump .fabCm p else s
      else s.updOut die h.out vc (fun o => { o with credits := o.credits - n })
    let s := s.updFab (fun f => { f with served := KMap.put f.served (16 * die + h.out) (64 * vc + inPort) })
    let s := if entering then
        s.updOut die h.out vc (fun o => { o with
          waiting := none, reserved := false, coolUntil := if o.reserved then s.time.loc + 5243 else o.coolUntil })
      else s
    s.emit (.forward die h.out (BitVec.ofNat 512 w'))

/-- The packets that wait for an output, the first of each input and VC only, in the order R147 serves them: CTRL, RESP, then the
other VCs round robin, within a VC the inputs round robin. -/
def State.queueFor (s : State) (die out : Nat) : List (Nat × Nat × Nat × Nat) :=
  let heads := s.fab.waits.foldl (fun (acc : List (Nat × Nat × Nat × Nat)) e =>
    if acc.any (fun g => g.1 == e.1 && g.2.1 == e.2.1 && hdrVc g.2.2.1 == hdrVc e.2.2.1) then acc else acc ++ [e]) []
  let mine := heads.filter (fun e => e.1 == die && (s.hop e.1 e.2.2.1).out == out)
  let last := KMap.getD s.fab.served (16 * die + out) 0
  let rank (e : Nat × Nat × Nat × Nat) : Nat :=
    let vc := hdrVc e.2.2.1
    (if vc < 2 then vc else 2 + (vc + 7 - last / 64) % 8) * 64 + (e.2.1 + 63 - last % 64) % 64
  sortBy rank mine

/-- Flit times of a wait, 3.125 per ns at width 8 and half that at width 4. -/
def State.flitTimes (s : State) (p ticks : Nat) : Nat := if (s.port p).width = 4 then ticks * 25 / 16 else ticks * 25 / 8

/-- Packets have begun to wait for a port, or wait no longer (FUM_FAB_CREDIT_STALL). -/
def State.noteStall (s : State) (die out : Nat) : State :=
  let k := 16 * die + out
  let any := s.fab.waits.any (fun e => e.1 == die && (s.hop e.1 e.2.2.1).out == out)
  match KMap.find s.fab.stallSince k with
  | none => if any then s.updFab (fun f => { f with stallSince := KMap.put f.stallSince k s.now }) else s
  | some t =>
    if any then s
    else
      let s := s.updFab (fun f => { f with stallSince := KMap.del f.stallSince k })
      if out < 8 then s.bump .fabStall (8 * die + out) (s.flitTimes (8 * die + out) (s.now - t)) else s

/-- Grant what may be granted of what waits for an output, `fuel` packets at most. -/
def State.drain : Nat → State → Nat → Nat → State
  | 0, s, die, out => s.noteStall die out
  | n + 1, s, die, out =>
    match (s.queueFor die out).find? (fun e => s.mayGrant die e.2.1 e.2.2.1 (s.hop die e.2.2.1)) with
    | none => s.noteStall die out
    | some e =>
      let s := s.updFab (fun f => { f with waits := f.waits.erase e })
      State.drain n (s.grant die e.2.1 e.2.2.1 (s.hop die e.2.2.1)) die out

def State.drainOut (s : State) (die out : Nat) : State := State.drain (s.fab.waits.length + 1) s die out

/-- After routes or ports changed, every output of every die is looked at again; what no port can carry is discarded (R164). -/
def State.drainAll (s : State) : State :=
  forEach (List.range 4) s (fun s die => forEach (List.range 12) s (fun s out => s.drainOut die out))

end Sys2Proof.Machine
end

