-- ==== Sys2Proof/Machine/PortEval.lean ====
section
/-!
DEFINITION. The division of the fabric ports and expected partners (07 R187, R193), bundles that die or come back (06 R164), and the
outcome of an exchange, first or evaluated again (07 R187 to R192).
-/
namespace Sys2Proof.Machine

/-! ### The division (R187, R193) -/

/-- Direction of a fabric port under the configured division. -/
def divDir (c : Cfg) (i : Nat) : Nat :=
  let j := i % 8
  match c.prtDivision with
  | 1 => if j < 6 then j else (match i / 8 with | 1 => j - 4 | 2 => j - 2 | _ => j - 6)
  | 2 => c.prtDir i
  | _ => j

/-- Direction, rank and bundle size of a port. -/
def divPort (c : Cfg) (i : Nat) : Nat × Nat × Nat :=
  let v := divDir c i
  let same := (List.range 32).filter (fun k => divDir c k == v)
  (v, (same.filter (fun k => decide (k < i))).length, same.length)

/-- The neighbour's locus in a direction; none past the end of a configured line or where the extent is 1 (R187). -/
def State.partnerLocus (s : State) (v : Nat) : Option Nat :=
  let d := v / 2
  let n := s.cfg.extent d
  let c := coordOf s.locus d
  let w := if d = 3 then 5 else 4
  let wrap := (s.cfg.fabWrap).testBit d
  if 8 ≤ v ∨ n ≤ 1 ∨ (!wrap && (if v % 2 = 0 then c + 1 == n else c == 0)) then none
  else
    let b := if v % 2 = 0 then (c + 1) % n else (c + n - 1) % n
    some (s.locus - field c w (4 * d) + field b w (4 * d))

/-! ### Bundles that die or come back (R164) -/

/-- The coordinate R164 names for the dead bundle of a direction: this module's for a plus bundle, the neighbour's for a minus. -/
def State.breakAt (s : State) (v : Nat) : Nat :=
  let n := s.cfg.extent (v / 2)
  let c := coordOf s.locus (v / 2)
  if v % 2 = 0 then c else (c + n - 1) % n

/-- The loci of this module's Avenue in a dimension, without its own. -/
def State.avenue (s : State) (d : Nat) : List Nat :=
  let w := if d = 3 then 5 else 4
  let c := coordOf s.locus d
  ((List.range (s.cfg.extent d)).filter (fun k => k != c)).map (fun k => s.locus - field c w (4 * d) + field k w (4 * d))

/-- ROUTE_BREAK along the Avenue for a bundle that died or came back, with an effective count; this module takes it too. -/
def State.announceBreak (s : State) (v : Nat) (isBreak : Bool) : State :=
  if !s.fcHeld ∨ !s.inRun then s
  else
    let d := v / 2
    let l := s.now + s.cfg.launchMargin
    let a := s.breakAt v
    let s := forEach (s.avenue d) s (fun s m => s.sendCtrl m 0x0D 0 0 (field d 2 0 + field a 5 2 + field (b2n isBreak) 1 7 + field l 64 64))
    s.updFab (fun f => { f with orders := f.orders ++ [{ dim := d, after := a, isBreak, effective := l }] })

/-- A bundle with no port up is announced once as a break, and as a heal when it has one again. -/
def State.noteBundle (s : State) (v : Nat) : State :=
  if 8 ≤ v then s
  else if (s.upMembers v).isEmpty then
    if s.fab.dead.contains v then s
    else ((s.updFab (fun f => { f with dead := insertAsc v f.dead })).announceBreak v true).drainAll
  else if s.fab.dead.contains v then ((s.updFab (fun f => { f with dead := f.dead.erase v })).announceBreak v false).drainAll
  else s

/-! ### Outcomes (R187 to R192) -/

/-- Traffic width of a lane map. -/
def laneWidth (l : List Nat) : Nat := if l.length = 8 then 8 else 4

/-- The state an exchange or a later evaluation gives a port, without moving it. -/
def State.setOutcome (s : State) (p : Nat) (st : PortSt) : State :=
  let s := if st = .up then s else s.bump .prtIdent p
  let was := (s.port p).st
  let s := s.updPort p (fun q => { q with
    st, failures := if st = .up then 0 else q.failures, heldAt := none,
    width := if st = .up ∨ st = .mgmtOnly then laneWidth q.lanes else 0 })
  let s := if was = .up ∧ st ≠ .up then s.bump .prtRetrain p else s
  s.noteBundle (s.port p).dir

/-- Table 7.6 over the last IDENT of a port. An unaccepted module's ports go to MGMT_ONLY (R411). -/
def State.evaluate (s : State) (p : Nat) (i : IdentData) : State :=
  let (v, rank, size) := divPort s.cfg p
  let right := s.partnerLocus v == some i.locus && i.dir == v ^^^ 1 && i.rank == rank && i.size == size
  let v' := i.dir ^^^ 1
  let join := s.cfg.acceptMap && s.partnerLocus v' == some i.locus
  let s := if right then s.updPort p (fun q => { q with dir := v, rank, size, accepted := false })
    else s.setEvt .portStatus p 27
  if !right && !join then s.setOutcome p .held
  else
    let s := if right then s else s.updPort p (fun q => { q with dir := v', accepted := true })
    let stored := KMap.getD s.flash.digests p 0
    if i.linkProto < 1 ∨ 1 < i.compatMin then (s.setEvt .portStatus p 26).setOutcome p .mgmtOnly
    else if stored ≠ 0 ∧ stored ≠ i.cert then (s.setEvt .portStatus p 25).setOutcome p .mgmtOnly
    else if stored = 0 ∧ !s.cfg.learnEmpty then (s.setEvt .portStatus p 25).setOutcome p .mgmtOnly
    else
      let s := if stored = 0 then s.updFlash (fun f => { f with digests := KMap.put f.digests p i.cert }) else s
      s.setOutcome p (if s.id.unaccepted then .mgmtOnly else .up)

/-- A port whose last exchange stands is evaluated again: after a change of the configuration or an acceptance (R188, R412). -/
def State.evaluateAgain (s : State) (p : Nat) : State :=
  let q := s.port p
  match q.last with
  | none => s
  | some i =>
    if q.st = .up ∨ q.st = .mgmtOnly ∨ (q.st = .held ∧ q.heldAt.isNone) then s.evaluate p i else s

end Sys2Proof.Machine
end

