-- ==== Sys2Proof/Machine/PowerOps.lean ====
section
/-!
DEFINITION. The energy ledger's planning: operating points (15 Table 15.3), the charge of a context (R374), the reference
(R379), prediction and plan (R380), the change of points (R381), carry and overrun (R382), ceiling (R377).
-/
namespace Sys2Proof.Machine

/-- Table 15.3: clock code, VCORE in mV, dynamic and leakage scales of point k. -/
def pointN (k : Nat) : Nat := [36, 33, 30, 27, 24, 20, 16, 12].getD k 12
def pointMv (k : Nat) : Nat := [800, 760, 720, 680, 640, 600, 560, 550].getD k 550
def pointA (k : Nat) : Nat := [1024, 924, 829, 740, 655, 576, 502, 484].getD k 484
def pointB (k : Nat) : Nat := [1024, 819, 655, 524, 419, 336, 268, 249].getD k 249

/-- The accumulators now, by stage. -/
def State.accs (s : State) : KMap Nat := (List.range 36).map (fun i => (i, (s.stage i).acc))

/-- Energy of a stage over an interval in µJ, from the accumulators at its start (R373). -/
def stageUj (now start : KMap Nat) (i : Nat) : Nat := (KMap.getD now i 0 - KMap.getD start i 0) / 1000000000

/-- The charge of a context's partitions over an interval: VCORE stages, quarters of the dies' VSRAM stages, and the shared
stages 20 to 35 by k_x sixteenths (R374). -/
def chargeOf (now start : KMap Nat) (parts : List Nat) : Nat :=
  sumL (parts.map (fun p => stageUj now start p + stageUj now start (16 + p / 4) / 4)) +
  sumL ((List.range' 20 16).map (stageUj now start)) * parts.length / 16

/-- Leakage of a partition in µJ at point k over t ticks (R379). -/
def leakUj (p k t : Nat) : Nat := Config.pleakMw p * pointB k / 1024 * t / 1000000

/-- The operators placed on a partition that have not completed on it. -/
def Ctx.busyOn (c : Ctx) (p : Nat) : Bool :=
  match c.prog with
  | none => false
  | some g => g.operators.any (fun o => o.clusters.any (fun cl => clusterPart cl == p && !(KMap.getD c.exec.done o.opId []).contains cl))

/-- Close a segment of the reference at point k (R379): dynamic energy, busy time and the time at point 0 grow. -/
def PwrCtx.closeSegment (w : PwrCtx) (now : KMap Nat) (tick : Nat) (parts : List Nat) (busy : Nat → Bool) : PwrCtx :=
  let t := tick - w.segAt
  let grow (f : Nat → Nat) (m : KMap Nat) : KMap Nat := parts.foldl (fun m p => KMap.upd m p 0 (· + f p)) m
  let pt (p : Nat) : Nat := KMap.getD w.kp p (w.point.getD 0)
  let dyn (p : Nat) : Nat :=
    (stageUj now w.segAcc p - leakUj p (pt p) t) * 1024 / pointA (pt p)
  { w with
    segAt := tick, segAcc := now
    segRef := { w.segRef with
      tref := w.segRef.tref + t * pointN (w.point.getD 0) / 36
      dyn := grow dyn w.segRef.dyn
      busy := grow (fun p => if busy p then t * pointN (pt p) / 36 else 0) w.segRef.busy } }

/-- The slack point of a partition below the context's point k (R380). -/
def slackPoint (busy tk : Nat) : Nat → Nat → Nat
  | 0, j => j
  | n + 1, j => if j < 7 ∧ busy * 36 / pointN (j + 1) ≤ tk then slackPoint busy tk n (j + 1) else j

/-- predict of R380: energy at point k and each partition's point. -/
def PwrRef.predict (r : PwrRef) (parts : List Nat) (k : Nat) : Nat × KMap Nat :=
  let tk := r.tref * 36 / pointN k
  let kp := parts.map (fun p => (p, slackPoint (KMap.getD r.busy p 0) tk 7 k))
  (r.other + sumL (kp.map (fun e => KMap.getD r.dyn e.1 0 * pointA e.2 / 1024 + leakUj e.1 e.2 tk)), kp)

/-- fits of R380. -/
def PwrRef.fits (r : PwrRef) (dline k : Nat) : Bool := decide (r.tref * 36 / pointN k ≤ dline * 15 / 16)

/-- The floor and the point that gives it (R380). -/
def PwrRef.floorOf (r : PwrRef) (parts : List Nat) (dline : Nat) : Nat × Nat :=
  let ks := (List.range 8).filter (r.fits dline)
  match ks with
  | [] => ((r.predict parts 0).1, 0)
  | k :: more => more.foldl (fun b j => if (r.predict parts j).1 < b.1 then ((r.predict parts j).1, j) else b)
      ((r.predict parts k).1, k)

/-- The point a grant alone gives (R380); without a limit the least point that fits. -/
def PwrRef.planAlone (r : PwrRef) (parts : List Nat) (dline : Nat) (grant : Option Nat) (carry : Nat) : Nat :=
  let ks := (List.range 8).filter (r.fits dline)
  if ks.isEmpty then 0
  else match grant with
    | none => ks.headD 0
    | some g => match ks.find? (fun k => decide ((r.predict parts k).1 ≤ g - carry)) with
      | some k => k
      | none => (r.floorOf parts dline).2

/-- The limit a grant in force sets: none where none was accepted and the default is 0 (R375). -/
def limitOf (grant : Option Nat) (dflt : Nat) : Option Nat :=
  match grant with
  | some g => some g
  | none => if dflt = 0 then none else some dflt

/-- The limit that a launch at count L runs under (R375). -/
def PwrCtx.limitAt (w : PwrCtx) (l dflt : Nat) : Option Nat :=
  match (w.waiting.filter (fun g => decide (g.1 ≤ l))).getLast? with
  | some g => some g.2
  | none => limitOf w.grant dflt

/-- A 64-bit value as two words of an event's DATA. -/
def wide (v : Nat) : List Nat := [v / 2 ^ 32, v % 2 ^ 32]

/-- The least point at which a VCORE rail with fewer phases carries the predicted current (R384). -/
def State.railPoint (s : State) (r : PwrRef) (p : Nat) : Nat :=
  let st := s.stage p
  let limit := 38000 * st.active
  let base := max (KMap.getD s.pwr.railMin p 0) (KMap.getD s.pwr.railMin (16 + p / 4) 0)
  if 8 ≤ st.active then base
  else
    let fit (k : Nat) : Bool :=
      let tk := max 1 (r.tref * 36 / pointN k)
      decide ((KMap.getD r.dyn p 0 * pointA k / 1024 + leakUj p k tk) * 1000000 / tk * 1000 / pointMv k ≤ limit)
    max base (((List.range 8).find? fit).getD 7)

/-- Power in W of a context planned at point k. -/
def PwrRef.watts (r : PwrRef) (parts : List Nat) (k : Nat) : Nat :=
  (r.predict parts k).1 * 1000 / max 1 (r.tref * 36 / pointN k)

/-- Planned power of the other running contexts, in W. -/
def State.otherWatts (s : State) (x : Nat) : Nat :=
  sumL ((ctxIds.filter (fun y => y != x && (s.ctx y).st == .running)).map (fun y =>
    match (s.pwrCtx y).ref, (s.pwrCtx y).point with
    | some r, some k => r.watts (maskParts (s.ctx y).mask) k
    | _, _ => 0))

/-- The plan of a context for a launch at count L (R380, R381, R384): its point and its partitions', DEPART and the POWER
reason where something but the grant moved it, the ceiling reached by the least point that keeps the sum (R377). -/
def State.plan (s : State) (x l : Nat) : State :=
  let c := s.ctx x
  let w := s.pwrCtx x
  let parts := maskParts c.mask
  let old (p : Nat) : Nat := KMap.getD s.pwr.point p 0
  let set (s : State) (k : Nat) (kp : KMap Nat) (depart : Bool) : State :=
    let late := parts.any (fun p =>
      let a := pointMv (old p)
      let b := pointMv (KMap.getD kp p k)
      decide (l < s.now + (max a b - min a b) * 200))
    let s := s.updPwr (fun q => { q with point := kp.foldl (fun m e => KMap.put m e.1 e.2) q.point })
    let s := forEach parts s (fun s p => s.updStage p (fun g => { g with setMv := pointMv (KMap.getD kp p k) }))
    let s := s.updPwrCtx x (fun w => { w with point := some k, kp, depart })
    let lag := late && kp.any (fun e => old e.1 != e.2)
    s.updCtx x (fun c =>
      let r := setBit c.reasons 9 (c.reasons.testBit 9 || depart)
      { c with reasons := setBit r 0 (c.reasons.testBit 0 || lag) })
  match w.ref with
  | none => set s 0 (parts.map (fun p => (p, max 0 (KMap.getD s.pwr.railMin p 0)))) false
  | some r =>
    let g := w.limitAt l s.cfg.pwrDefaultGrant
    let k0 := r.planAlone parts c.dOffset g w.carry
    let under := match g with | some v => decide (v < (r.floorOf parts c.dOffset).1) | none => false
    let room := s.pwr.ceiling - s.otherWatts x
    let k1 := if s.pwr.ceiling = 0 then k0
              else max k0 (((List.range 8).find? (fun k => decide (k0 ≤ k) && decide (r.watts parts k ≤ room))).getD 7)
    let kp := (r.predict parts k1).2.map (fun e => (e.1, max e.2 (s.railPoint r e.1)))
    let moved := decide (k1 ≠ k0) || kp != (r.predict parts k0).2
    let s := s.updPwr (fun q => { q with ceilingActive := decide (k1 ≠ k0) })
    let s := set s k1 kp moved
    let s := if moved then s.bump .pwrDepart 0 else s
    if under && !w.floorAsked then
      (s.pwrNotify x 2 (r.floorOf parts c.dOffset).1).updPwrCtx x (fun w => { w with floorAsked := true })
    else s

/-- At a launch: the grant takes effect, PD p is ungated, the attempt's charge starts, and with no reference one is built
over the step (R370, R374, R375, R379). -/
def State.powerLaunch (s : State) (x : Nat) : State :=
  let c := s.ctx x
  let t := s.now
  let s := forEach (maskParts c.mask) s (fun s p => s.setDom p .on)
  let a := s.accs
  s.updPwrCtx x (fun w =>
    let live := w.waiting.filter (fun g => decide (g.1 ≤ t))
    { w with grant := (live.getLast?.map (·.2)).orElse (fun _ => w.grant), waiting := w.waiting.filter (fun g => decide (t < g.1)),
             launchAcc := a, building := w.ref.isNone, segAt := t, segAcc := a, segRef := PwrRef.empty })

/-! ### Moves during a step -/

/-- Partitions of a context move to other points during a step: a segment of the reference ends where one is being built, voltages
follow, and the move is a departure with the POWER reason, counted once in an attempt (R379 to R381). -/
def State.movePoints (s : State) (x k : Nat) (kp : KMap Nat) : State :=
  let c := s.ctx x
  let w := s.pwrCtx x
  let parts := maskParts c.mask
  let w := if w.building then w.closeSegment s.accs s.now parts c.busyOn else w
  let first := !w.depart
  let s := s.updPwrCtx x (fun _ => { w with point := some k, kp, depart := true })
  let s := s.updPwr (fun q => { q with point := kp.foldl (fun m e => KMap.put m e.1 e.2) q.point })
  let s := forEach kp s (fun s e => s.updStage e.1 (fun g => { g with setMv := pointMv e.2 }))
  let s := s.updCtx x (fun c => { c with reasons := setBit c.reasons 9 true })
  s.when first (fun s => s.bump .pwrDepart 0)

/-- The projection of a running attempt at a sample count (R382): once an eighth of the predicted duration has passed, a projected
charge above 17/16 of what the grant leaves moves every partition one point higher where the deadline still allows it. -/
def State.project (s : State) (x : Nat) : State :=
  let c := s.ctx x
  let w := s.pwrCtx x
  match w.ref, w.point, c.launch with
  | some r, some k, some l =>
    let tk := r.tref * 36 / pointN k
    let run := s.now - l
    let lim := limitOf w.grant s.cfg.pwrDefaultGrant
    let charge := chargeOf s.accs w.launchAcc (maskParts c.mask)
    if c.st ≠ .running || !c.launched || lim.isNone || run == 0 || decide (8 * run < tk) || decide (7 ≤ k) then s
    else if decide ((lim.getD 0 - w.carry) * 17 < charge * tk / run * 16) && r.fits c.dOffset (k + 1) then
      s.movePoints x (k + 1) (w.kp.map (fun e => (e.1, min 7 (e.2 + 1))))
    else s
  | _, _, _ => s

/-- PD p of every partition is gated between steps and in HELD (R370). -/
def State.gate (s : State) (x : Nat) : State := forEach (maskParts (s.ctx x).mask) s (fun s p => s.setDom p .gated)

/-- At COMMIT(N): the step's charge, the reference where it was being built, the carry, and an OVERRUN above an eighth of
the grant (R379, R382). -/
def State.powerCommit (s : State) (x : Nat) : State :=
  let c := s.ctx x
  let parts := maskParts c.mask
  let now := s.accs
  let w := s.pwrCtx x
  let charge := chargeOf now w.launchAcc parts
  let lim := limitOf w.grant s.cfg.pwrDefaultGrant
  let g := lim.getD 0
  let w := if w.building then
      let v := w.closeSegment now s.now parts (fun p => c.prog.elim false (fun g => g.operators.any (fun o => o.clusters.any (fun k => clusterPart k == p))))
      { v with building := false,
               ref := some { v.segRef with other := charge - sumL (parts.map (stageUj now w.launchAcc)) } }
    else w
  let excess := charge + w.carry - g
  let s := s.updPwrCtx x (fun _ => { w with lastCharge := charge, carry := if lim.isNone then 0 else min excess (g / 8) })
  if lim.isSome ∧ g / 8 < excess then
    let s := (s.bump .pwrOverrun 0).setEvt .pwrCtx x 18
    let s := s.record { code := 0x3008, sev := 2, ctx := x, data := wide charge ++ wide g ++ wide w.carry }
    s.pwrNotify x 3 (excess - g / 8)
  else s

/-- PLAN_SUM of a step record (Table 9.6). -/
def State.planSum (s : State) (x : Nat) : Nat :=
  sumL ((maskParts (s.ctx x).mask).map (fun p =>
    (mix (BitVec.ofNat 64 (p * 2 ^ 32 + pointN (KMap.getD s.pwr.point p 0)))).toNat)) % 2 ^ 64

end Sys2Proof.Machine
end

