-- ==== Sys2Proof/Machine/CoordOps.lean ====
section
/-!
DEFINITION. What a step boundary does (11 R275, 01 R18 to R20, 04 R107), and what a job's coordinator issues: START, COMMIT,
REEXEC, MODULE_LOST, STEP_HOLD, take-over (01 R23 to R27, 05 R113 to R115, 11 R277, R281, R286, R294 to R298).
-/
namespace Sys2Proof.Machine

/-! ### The step boundary -/

/-- Displaced logical cores of a partition, whose images its time-slice reserve holds (R85). -/
def State.displaced (s : State) (p : Nat) : Nat :=
  sumL ((s.clus.filter (fun e => clusterPart e.1 == p)).map (fun e => (e.2.moved.filter (fun m => m.2.isNone)).length))

/-- Fence one slot (R18, R19, R82): its logical core moves to the lowest spare, or is displaced and the cluster time-slices;
with no ACTIVE slot or no reserve left the module is lost, after the fence (R20, R86). Idempotent. -/
def State.fenceSlot (s : State) (g slot : Nat) (quiet : Bool := false) : State :=
  let c := s.cluster g
  if c.fenced.contains slot then s
  else
    let core := c.coreOf slot
    let s := s.updCluster g (fun c => { c with fenced := insertAsc slot c.fenced })
    let s := s.updFlash (fun f => { f with fencedSlots := KMap.put f.fencedSlots g (insertAsc slot (KMap.getD f.fencedSlots g [])) })
    let s := s.updRecov (fun r => { r with directed := r.directed.filter (fun d => !(d.cluster == g && d.slot == slot)) })
    match core with
    | none => s
    | some k =>
      match (s.cluster g).spares with
      | sp :: more =>
        let s := s.updCluster g (fun c => { c with moved := KMap.put c.moved k (some sp) })
        if more.isEmpty && !quiet then s.setEvt .clStatus g 30 else s
      | [] =>
        let was := (s.cluster g).tslice
        let s := s.updCluster g (fun c => { c with moved := KMap.put c.moved k none, tslice := true })
        let s := if was || quiet then s else s.setEvt .clStatus g 29
        if (s.cluster g).active.isEmpty then s.selfLost 1
        else if s.cfg.tsliceReserveMib * 2 ^ 20 < 24576 * s.displaced (clusterPart g) then s.selfLost 2
        else s

/-- Retire a pseudo-channel (R107, R108): the map switches; a partition whose data is incomplete is reset instead of copied;
where one too many would be retired, the module is lost. -/
def State.retirePc (s : State) (k : Nat) : State :=
  let p := k / 16
  if s.cfg.hbmPcReserve < 17 - (s.activePcs p).length then s.selfLost 3
  else
    let s := s.updMem (fun m => { m with pcs := KMap.upd m.pcs k PcHist.reset (fun h => { h with retired := true }) })
    let s := s.updFlash (fun f => { f with retiredPcs := insertAsc k f.retiredPcs })
    let s := s.setEvt .partStatus p 30
    if s.mem.checks.any (fun e => addrPart e.1 == p && addrLevel e.1 == 0 && (e.2.poison || e.2.invalid)) then
      s.recover (partKey p) 3 p
    else s

/-- Fence a transposition engine, once; the last one of a partition stays, and the partition is reset (Tables 11.2, 11.5). -/
def State.fenceEngine (s : State) (u : Nat) : State :=
  if s.recov.engines.contains u then s
  else if (s.liveEngines (u / 4)).length ≤ 1 then s.recover (engineKey (u / 4) (u % 4)) 3 (u / 4)
  else
    let s := s.updRecov (fun r => { r with engines := insertAsc u r.engines })
    s.updFlash (fun f => { f with fencedEngines := insertAsc u f.fencedEngines })

/-- Live configuration fields take effect: the exchange of every port is evaluated again, and CONFIG_LIVE is recorded (16 R398). -/
def State.goLive (s : State) (c : Cfg) : State :=
  let s := (s.setCfg c).updId (fun d => { d with liveWaiting := none })
  let s := s.record { code := 0x3105, sev := 1, data := wide s.flash.serial }
  forEach (List.range 32) s State.evaluateAgain

/-- Live fields committed while steps ran take effect at a boundary (16 R398). -/
def State.applyLive (s : State) : State :=
  match s.id.liveWaiting with
  | none => s
  | some c => s.goLive c

/-- All pending actions of a context's partitions at a step boundary, in the order of R275: slot fences ascending, engine
fences, retirements, the lower partition first; a die-ring break (R283). -/
def State.boundary (s : State) (x : Nat) : State :=
  let m := (s.ctx x).mask
  let s := forEach (s.clus.filter (fun e => inMask m (clusterPart e.1) && !e.2.toFence.isEmpty)) s (fun s e =>
    (forEach e.2.toFence s (fun s slot => s.fenceSlot e.1 slot)).updCluster e.1 (fun c => { c with toFence := [] }))
  let due (r : Nat) (unit : Nat → Nat) (s : State) : List Nat :=
    (s.recov.pending.filter (fun a => a.rank == r && inMask m (unit a.unit))).map (·.unit)
  let drop (r : Nat) (us : List Nat) (s : State) : State :=
    s.updRecov (fun q => { q with pending := q.pending.filter (fun a => !(a.rank == r && us.contains a.unit)) })
  let es := due 2 (· / 4) s
  let s := drop 2 es (forEach es s State.fenceEngine)
  let ps := (due 3 (· / 16) s).foldl (fun l k => insertAsc k l) []
  let s := drop 3 ps (forEach ps s State.retirePc)
  let s := s.updFab (fun f => { f with dieBreak := f.dieBreakPending.orElse (fun _ => f.dieBreak), dieBreakPending := none })
  s.applyLive

/-! ### Launching -/

/-- The launch of the step a context waits for (R21, R27, R370, R240): reasons noted, domains ungated, the attempt begun. -/
def State.launchStep (s : State) (x : Nat) : State :=
  let c := s.ctx x
  match c.launch with
  | none => s
  | some l =>
    let late := decide (l < s.now)
    let off := s.isCycle && l % alignQuantum != 0
    let s := s.powerLaunch x
    let cyc := s.isCycle
    let s := s.updCtx x (fun c =>
      let r0 := setBit c.reasons 0 (c.reasons.testBit 0 || late)
      let r1 := setBit r0 1 (c.reasons.testBit 1 || off)
      let r2 := setBit r1 2 (c.reasons.testBit 2 || !cyc)
      { c with launched := true, confirmed := false, cycleAtLaunch := cyc, reasons := r2, exec := { Exec.reset with launchAt := s.now } })
    let s := if late then s.record { code := 0x2002, sev := 1, ctx := x, step := c.step, attempt := c.attempt, data := [l / 2 ^ 32, l % 2 ^ 32] } else s
    if off then s.record { code := 0x2007, sev := 1, ctx := x, step := c.step, attempt := c.attempt, data := [l / 2 ^ 32, l % 2 ^ 32] } else s

/-- A launch count set for a RUNNING context: already past, it launches at once (R27). -/
def State.setLaunch (s : State) (x l : Nat) : State :=
  let s := s.updCtx x (fun c => { c with launch := some l, launched := false })
  if s.fcHeld && decide (l < s.now) && (s.ctx x).st == .running then s.launchStep x else s

/-! ### The coordinator -/

/-- The coordinator may issue (R294): it is active, and within the lease of the last beat acknowledged; with no beat yet
acknowledged, or no other module standing by, nothing bounds it (log 30). -/
def State.mayIssue (s : State) (x : Nat) : Bool :=
  let o := (s.ctx x).coord
  o.active && (o.standby == s.locus || o.ackedEnd == 0 ||
    (decide (s.now < o.ackedEnd) && decide (s.time.loc < o.ackedAt + s.cfg.coordLeaseUs * 1000 + 1000000)))

/-- The policy of a job resolved at its coordinator when it issues START (R133). -/
def State.jobPolicy (s : State) (x : Nat) : Nat :=
  let c := s.ctx x
  if c.policySet ≠ 0xFF then c.policySet else if c.descPolicy ≠ 0xFF then c.descPolicy else s.cfg.hostLossPolicy

/-- PMAP in 16 parts of 8,192 bits to every participant (R150). -/
def State.sendPmap (s : State) (x : Nat) : State :=
  let m := (s.ctx x).pmap
  (List.range 16).foldl (fun s part =>
    let bits := sumL ((m.filter (fun l => l / 8192 == part)).map (fun l => 2 ^ (l % 8192)))
    s.toAll x 0x0C 0 0 part (leBytes 1024 bits)) s

/-- START, once ARMED has come from every participant with equal digests (R113, R115, R133); a digest that differs from this
module's own is recorded with the first locus, and START is refused. -/
def State.tryStart (s : State) (x : Nat) : State :=
  let c := s.ctx x
  let o := c.coord
  let ready := match o.restore with | some (k, _, l) => l.length == c.participants && c.firstStep == nextStep k | none => true
  if c.st ≠ .armed ∨ o.started ∨ !s.mayIssue x ∨ o.armed.length < c.participants ∨ !s.fcHeld ∨ !ready then s
  else
    let own := descDigest c.desc
    match o.armed.find? (fun e => e.2 != own) with
    | some e => s.record { code := 0x2003, sev := 1, ctx := x, data := [e.1] }
    | none =>
      let l := s.launchCount 0
      let pol := s.jobPolicy x
      let loci := o.armed.map (·.1)
      let s := s.updCtx x (fun c => { c with pmap := loci, index := loci })
      let s := s.toAll x 0x02 c.firstStep 0 (field l 64 0 + field pol 8 64)
      (s.sendPmap x).updCoord x (fun o => { o with started := true, step := c.firstStep, attempt := 0, launch := l,
                                                    deadline := l + c.dOffset })

/-- A message to a list of loci with the epoch. -/
def State.toSome (s : State) (x : Nat) (dest : List Nat) (msg step attempt param : Nat) : State :=
  forEach dest s (fun s l => s.sendCtrl l msg step attempt (param + field (s.ctx x).coord.epoch 32 160))

/-- GEY_CKPT(N) after COMMIT(N) (R317): due by CFG_GEY_CKPT_EVERY or a HOLD_CKPT hold; skipped while one is outstanding. -/
def State.checkpoint (s : State) (x n : Nat) (forHold : Bool) : State :=
  let o := (s.ctx x).coord
  let due := (decide (s.cfg.geyCkptEvery ≠ 0) && n % s.cfg.geyCkptEvery == 0) || forHold
  if !due then s
  else if o.ckpt.isSome then s.updCoord x (fun o => { o with ckptSkipped := o.ckptSkipped ++ [n] })
  else (s.toAll x 0x47 n 0 0).updCoord x (fun o => { o with ckpt := some (n, []) })

/-- No confirmation of a participant has arrived in time (R24). -/
def Coord.lacks (o : Coord) (l : Nat) : Bool :=
  match KMap.find o.confirms l with | some t => decide (o.deadline < t) | none => true

/-- COMMIT(N) when every confirmation has come in time and no report (R23, R24): with L(N+1), or HOLD at a host request, under the host-loss
policy, or at the last step counter (R133, Table 8.5). -/
def State.tryCommit (s : State) (x : Nat) : State :=
  let c := s.ctx x
  let o := c.coord
  if !o.started ∨ o.held ∨ !s.mayIssue x ∨ !o.reports.isEmpty ∨ o.collecting.isSome ∨ o.takeover.isSome ∨
      c.pmap.isEmpty ∨ c.pmap.any (o.lacks ·) then s
  else
    let n := o.step
    let lossHold := c.policy != 0 && (match o.hostLoss with | some t => decide (t ≤ s.now) | none => false)
    let hold := o.holdReq || o.tearReq || lossHold || n == 2 ^ 48 - 1
    let l := if hold then 0 else s.launchCount 0
    let s := s.toAll x 0x03 n o.attempt (field l 64 0 + field (b2n hold) 1 64)
    let s := s.checkpoint x n (lossHold && c.policy == 1)
    s.updCoord x (fun o =>
      let f := o.fresh (nextStep n) 0 l (if hold then 0 else l + c.dOffset)
      { f with held := hold, commitTick := some s.now, failed := 0, reporters := [], holdReq := false,
               hostLoss := if hold then none else o.hostLoss })

/-- STEP_HOLD to every participant (R281). -/
def State.holdStep (s : State) (x reason : Nat) : State :=
  let o := (s.ctx x).coord
  if !s.mayIssue x then s
  else (s.toAll x 0x65 o.step o.attempt reason).updCoord x (fun o =>
    { o with held := true, holdReq := false, stepHeld := some s.now, collecting := none, probes := [] })

/-- REEXEC of the step: a launch count no earlier than the latest ready count (R25, R286). -/
def State.issueReexec (s : State) (x : Nat) : State :=
  let c := s.ctx x
  let o := c.coord
  if !s.mayIssue x ∨ o.held then s
  else
    let l := s.launchCount o.ready
    let k := (o.attempt + 1) % 16
    (s.toAll x 0x06 o.step k l).updCoord x (fun o => o.fresh o.step k l (l + c.dOffset))

/-- The coordinator waits to collect RECOVERY_NOTICEs before REEXEC (R286). -/
def State.collect (s : State) (x : Nat) : State :=
  s.updCoord x (fun o => { o with collecting := some (o.collecting.getD s.now) })

/-- Replace a locus in PMAP and the index table (R150, R225). -/
def Ctx.substitute (c : Ctx) (lost spare : Nat) : Ctx :=
  { c with pmap := insertAsc spare (c.pmap.filter (· != lost)), index := c.index.map (fun l => if l = lost then spare else l) }

/-- The spares that may take a place: no participants, none of another descriptor (R113, R313). -/
def Ctx.freeSpares (c : Ctx) : List Nat := c.coord.spares.filter (fun l => !c.pmap.contains l && !c.coord.unlike.contains l)

/-- After a pair is lost, a spare takes the lost module's place, and the job is restored from its last complete checkpoint
(R316, R325). -/
def State.restorePair (s : State) (x lost : Nat) : State :=
  let o := (s.ctx x).coord
  let s := match (s.ctx x).freeSpares with
    | [] => s
    | sp :: more =>
      let s := (s.updCtx x (fun c => c.substitute lost sp)).updCoord x (fun o => { o with spares := more })
      (s.sendPmap x).toAll x 0x07 o.step o.attempt (field lost 17 0 + field sp 17 32)
  match o.ckptComplete with
  | none => s
  | some k => (s.toAll x 0x49 k 0 (field (s.ctx x).jobId 32 32)).updCoord x (fun o => { o with restore := some (k, (s.ctx x).jobId, []) })

/-- No module's locus: the source of an attempt that failed without a report. -/
def noLocus : Nat := 2 ^ 17

/-- An attempt that a loss alone failed counts, with no report for its source (R277). -/
def State.failByLoss (s : State) (x : Nat) : State :=
  let n := (s.ctx x).coord.failed + 1
  let s := s.updCoord x (fun o => { o with failed := n, reporters := (noLocus :: o.reporters).take 16 })
  if 14 ≤ n ∨ s.cfg.reexecLimit ≤ n then s.holdStep x 2 else s.collect x

/-- A participant is lost (R26, R298, R312): MODULE_LOST names the first spare, GEY_TAKE asks the holder of its copy, and the
step re-executes; with no spare, or with the copy's holder lost as well, the job is held. Who holds the copy is not
told to the coordinator: GEY_TAKE goes to every participant (log 27), and whether a second loss takes the holder is a
free outcome (log 29). `counted`: the attempt has been counted as failed already. -/
def State.declareLost (s : State) (x lost : Nat) (counted : Bool := false) : State :=
  let c := s.ctx x
  let o := c.coord
  if !c.pmap.contains lost ∨ !s.mayIssue x then s
  else
    let r := if o.taking.isEmpty then (c.pmap.length == 1, s) else s.freshBool
    let s := r.2.updCoord x (fun o => { o with lost := lost :: o.lost, probes := KMap.del o.probes lost,
                                               confirms := KMap.del o.confirms lost })
    let s := s.when (lost != s.locus) (fun s => s.bump .recL4 0)
    if r.1 then (s.holdStep x 3).restorePair x lost
    else match c.freeSpares with
      | [] => s.holdStep x 4
      | sp :: more =>
        let s := s.updCtx x (fun c => c.substitute lost sp)
        let s := s.updCoord x (fun o => { o with spares := more, taking := KMap.put o.taking lost sp,
                                                 standby := if o.standby = lost then sp else o.standby })
        let s := s.sendPmap x
        let s := s.toAll x 0x07 o.step o.attempt (field lost 17 0 + field sp 17 32)
        let s := s.toSome x (c.pmap.filter (· != lost)) 0x43 (prevStep o.step) 0 (field lost 17 0 + field sp 17 32)
        if o.held then s
        else if counted || !o.reports.isEmpty || o.collecting.isSome then s.collect x
        else s.failByLoss x

/-- One more failed attempt, by a report from a module (R277): hold at 14; at the limit the sole reporter of the last three
is lost, or the job is stuck; else collect for REEXEC. -/
def State.failAttempt (s : State) (x src : Nat) : State :=
  let o := (s.ctx x).coord
  let n := o.failed + 1
  let reps := (src :: o.reporters).take 16
  let s := s.updCoord x (fun o => { o with failed := n, reporters := reps })
  if 14 ≤ n then s.holdStep x 2
  else if s.cfg.reexecLimit ≤ n then
    if 3 ≤ reps.length ∧ (reps.take 3).all (· == src) then s.declareLost x src true else s.holdStep x 2
  else s.collect x

/-! ### Take-over (R296) -/

/-- A standby becomes coordinator: epoch one above the one adopted, TAKEOVER to every participant. -/
def State.takeOver (s : State) (x : Nat) : State :=
  let c := s.ctx x
  let e := c.adopted + 1
  let s := s.updCoord x (fun o => { o with
    active := true, started := true, epoch := e, takeover := some [], confirms := [], reports := [], collecting := none,
    probes := [], ready := 0, ackedEnd := 0, beatSent := none, heardAt := none,
    standby := if c.coordForm = 0 then (if c.coordA = s.locus then c.coordB else c.coordA) else c.gey.buddy })
  let s := (s.bump .recCoordTakeover 0).updPins (fun p => { p with interlockOut := s.cfg.coordInterlock })
  s.toAll x 0x61 0 0 (field s.locus 17 0)

/-- Every participant has answered or been declared lost: the step is settled (R296 step 3); after a loss REEXEC waits for the notices of
recovery (R286). -/
def State.settleTakeover (s : State) (x : Nat) : State :=
  let c := s.ctx x
  match c.coord.takeover with
  | none => s
  | some l =>
    if l.isEmpty ∨ c.pmap.any (fun p => !l.any (fun t => t.locus == p) && !c.coord.taking.any (fun e => e.2 == p)) then s
    else
      let low := l.foldl (fun m t => min m t.committed) ((l.head?).elim 0 (·.committed))
      let ahead := l.filter (fun t => decide (low < t.committed))
      let k := maxL (l.map (·.attempt))
      let s := s.updCoord x (fun o => { o with takeover := none })
      match ahead.head? with
      | some a =>
        let behind := (l.filter (fun t => t.committed == low)).map (·.locus)
        let s := s.toSome x behind 0x03 (nextStep low) k (field a.launch 64 0 + field (b2n (a.held || !a.hasLaunch)) 1 64)
        s.updCoord x (fun o => { o.fresh (nextStep (nextStep low)) 0 a.launch (a.launch + c.dOffset) with held := a.held })
      | none =>
        let n := nextStep low
        if l.all (·.held) then s.updCoord x (fun o => { o.fresh n k 0 0 with held := true })
        else
          let launch := ((l.find? (·.hasLaunch)).map (·.launch)).getD c.coord.launch
          let s := s.updCoord x (fun o => { o.fresh n k launch (launch + c.dOffset) with held := false })
          if l.all (fun t => t.confirmed && !t.faulted && t.attempt == k) && l.length == c.pmap.length then
            (s.updCoord x (fun o => { o with confirms := c.pmap.map (fun p => (p, 0)) })).tryCommit x
          else if c.coord.taking.isEmpty then s.issueReexec x
          else s.collect x

/-- What a coordinator may do as soon as it may issue again: START, or COMMIT. -/
def State.coordAct (s : State) (x : Nat) : State := (s.tryStart x).tryCommit x

end Sys2Proof.Machine
end

