-- ==== Sys2Proof/Machine/Elementary.lean ====
section
/-!
DEFINITION. The vector lane operations of Table 2.10 (R54, R55): correctly rounded FP32 arithmetic, and the
elementary functions by integer enclosures on a grid of 2^−320. An enclosure whose two ends round alike gives the
correctly rounded result; where they do not, the value is the free value `Config.undecidedRound` (log 13).
-/
namespace Sys2Proof

/-- An FP32 lane result: bits and OVF (R54). -/
abbrev Lane := Nat × Bool

/-- FP32 NaN of a lane (R54). -/
def laneNan : Lane := (0x7FC00000, false)

/-- Round a value to FP32 with RNE; beyond the range it is ±Inf and sets OVF (R54). -/
def laneRound (v : Val) : Lane :=
  match v with
  | .inf n => (if n then 0xFF800000 else 0x7F800000, false)
  | .nan => laneNan
  | v => convOut 0 .rne true v

/-- The integer of a finite value on the grid 2^g (g at most its q). -/
def Val.onGrid (v : Val) (g : Int) : Int :=
  match v with
  | .fin n m q => let k : Int := ((m <<< (q - g).toNat : Nat) : Int)
                  if n then -k else k
  | _ => 0

def Val.q : Val → Int
  | .fin _ _ q => q
  | _ => 0

/-- Exact sum of two values; an exact zero is +0 unless both are −0 (IEEE 754-2019 round to nearest). -/
def valAdd (a b : Val) : Val :=
  match a, b with
  | .nan, _ => .nan
  | _, .nan => .nan
  | .inf x, .inf y => if x = y then .inf x else .nan
  | .inf x, _ => .inf x
  | _, .inf y => .inf y
  | .zero x, .zero y => .zero (x && y)
  | .zero _, v => v
  | v, .zero _ => v
  | u, v =>
    let g := min u.q v.q
    scaledVal (u.onGrid g + v.onGrid g) g

def valNeg (a : Val) : Val :=
  match a with
  | .zero n => .zero (!n)
  | .fin n m q => .fin (!n) m q
  | .inf n => .inf (!n)
  | .nan => .nan

/-- Exact product. -/
def valMul (a b : Val) : Val :=
  match a, b with
  | .nan, _ => .nan
  | _, .nan => .nan
  | .inf x, .zero _ => let _ := x; .nan
  | .zero _, .inf _ => .nan
  | .inf x, v => .inf (x != v.neg)
  | v, .inf y => .inf (v.neg != y)
  | .zero x, v => .zero (x != v.neg)
  | v, .zero y => .zero (v.neg != y)
  | .fin x m q, .fin y n r => .fin (x != y) (m * n) (q + r)

/-- Quotient with enough bits and a sticky bit for one correct rounding. -/
def valDiv (a b : Val) : Val :=
  match a, b with
  | .nan, _ => .nan
  | _, .nan => .nan
  | .inf _, .inf _ => .nan
  | .inf x, v => .inf (x != v.neg)
  | v, .inf y => .zero (v.neg != y)
  | .zero _, .zero _ => .nan
  | .zero x, v => .zero (x != v.neg)
  | v, .zero y => .inf (v.neg != y)
  | .fin x m q, .fin y n r =>
    let num := m <<< 80
    let d := num / n
    .fin (x != y) (2 * d + (if num % n = 0 then 0 else 1)) (q - r - 81)

/-- Integer square root by bits, `k` bits of result. -/
def isqrtBits : Nat → Nat → Nat → Nat
  | 0, _, r => r
  | k + 1, n, r => if (r + 2 ^ k) * (r + 2 ^ k) ≤ n then isqrtBits k n (r + 2 ^ k) else isqrtBits k n r

/-- Square root with a sticky bit. -/
def valSqrt (a : Val) : Val :=
  match a with
  | .zero n => .zero n
  | .inf false => .inf false
  | .fin false m q =>
    let odd := q % 2 != 0
    let m' := (if odd then 2 * m else m) <<< 80
    let q' := (if odd then q - 1 else q) - 80
    let r := isqrtBits 64 m' 0
    .fin false (2 * r + (if r * r = m' then 0 else 1)) (q' / 2 - 1)
  | _ => .nan

/-- Reciprocal square root: sqrt of the reciprocal, both with bits to spare and sticky. -/
def valRsqrt (a : Val) : Val :=
  match a with
  | .zero n => .inf n
  | .inf false => .zero false
  | .fin false m q =>
    let odd := q % 2 != 0
    let m' := if odd then 2 * m else m
    let q' := if odd then q - 1 else q
    let num := 1 <<< 200
    let d := num / m'
    let r := isqrtBits 101 d 0
    .fin false (2 * r + (if r * r = d ∧ num % m' = 0 then 0 else 1)) (-(q' / 2) - 101)
  | _ => .nan

/-- The FP32 value of a lane operand. -/
def f32 (bits : Nat) : Val := decodeElem 0 bits

def fAdd (a b : Nat) : Lane := laneRound (valAdd (f32 a) (f32 b))
def fSub (a b : Nat) : Lane := laneRound (valAdd (f32 a) (valNeg (f32 b)))
def fMul (a b : Nat) : Lane := laneRound (valMul (f32 a) (f32 b))
def fFma (a b c : Nat) : Lane := laneRound (valAdd (valMul (f32 a) (f32 b)) (f32 c))
def fDiv (a b : Nat) : Lane := laneRound (valDiv (f32 a) (f32 b))
def fRcp (a : Nat) : Lane := fDiv 0x3F800000 a
def fSqrt (a : Nat) : Lane := laneRound (valSqrt (f32 a))
def fRsqrt (a : Nat) : Lane := laneRound (valRsqrt (f32 a))

/-- A key ordering FP32 numbers, −0 below +0 (R54). -/
def fKey (a : Nat) : Int := if a.testBit 31 then -(a % 2 ^ 31 : Nat) - 1 else (a % 2 ^ 31 : Nat)

/-- max: NaN when either input is NaN, −0 below +0 (R54). -/
def fMax (a b : Nat) : Lane :=
  if (f32 a).isNan || (f32 b).isNan then laneNan else (if fKey a < fKey b then b else a, false)
/-- min: NaN when either input is NaN, −0 below +0 (R54). -/
def fMin (a b : Nat) : Lane :=
  if (f32 a).isNan || (f32 b).isNan then laneNan else (if fKey b < fKey a then b else a, false)

/-! ### Enclosures on the grid 2^−320 -/

def fixBits : Nat := 320
/-- ln 2 on the grid, rounded down. -/
def ln2Fix : Int := 0xb17217f7d1cf79abc9e3b39803f2f6af40f343267298b62d8a0d175b8baafa2be7b876206debac98
/-- 2/√π on the grid, rounded down. -/
def twoOverSqrtPiFix : Int := 0x120dd750429b6d11ae3a914fed7fd8688281341d7587cea2e7342b06199cc416180eb39f0b24e1e22

/-- A finite value on the grid (exact for every FP32 value). -/
def fixOf (v : Val) : Int := v.onGrid (-320)

/-- Product on the grid, rounded down. -/
def fixMul (a b : Int) : Int := a * b / (2 ^ 320 : Int)

/-- Taylor sum of e^r for |r| < 1. -/
def expSeries : Nat → Nat → Int → Int → Int → Int
  | 0, _, _, _, acc => acc
  | n + 1, i, r, t, acc => let t' := fixMul t r / (i : Int); expSeries n (i + 1) r t' (acc + t')

/-- e^x on the grid as a significand and a power of two. -/
def expFix (x : Int) : Int × Int :=
  let k := x / ln2Fix
  (expSeries 90 1 (x - k * ln2Fix) (2 ^ 320) (2 ^ 320), k)

/-- Odd power series z + z³/3 + z⁵/5 + … . -/
def atanhSeries : Nat → Nat → Int → Int → Int → Int
  | 0, _, _, _, acc => acc
  | n + 1, i, z2, t, acc => let t' := fixMul t z2; atanhSeries n (i + 2) z2 t' (acc + t' / (i : Int))

/-- ln x on the grid for x > 0. -/
def lnFix (m : Nat) (q : Int) : Int :=
  let l := Nat.log2 m
  let f : Int := ((m <<< (320 - l) : Nat) : Int)
  let big := decide (3 * 2 ^ 319 ≤ f)
  let f := if big then f / 2 else f
  let e : Int := (l : Int) + q + (if big then 1 else 0)
  let z := (f - 2 ^ 320) * 2 ^ 320 / (f + 2 ^ 320)
  e * ln2Fix + 2 * atanhSeries 110 3 (fixMul z z) z z

/-- Series of erf without its factor: Σ (−1)^n x^(2n+1) / (n!(2n+1)). -/
def erfSeries : Nat → Nat → Int → Int → Int → Int
  | 0, _, _, _, acc => acc
  | n + 1, i, x2, t, acc =>
    let t' := -(fixMul t x2) / (i : Int)
    erfSeries n (i + 1) x2 t' (acc + t' / (2 * (i : Int) + 1))

/-- Round an enclosure [y − err, y + err] × 2^g to FP32; `fn` and `arg` name the free value. -/
def roundEnclosure (fn arg : Nat) (y err g : Int) : Lane :=
  let a := laneRound (scaledVal (y - err) g)
  let b := laneRound (scaledVal (y + err) g)
  if a = b then a else (Config.undecidedRound fn arg, false)

/-- e^x, correctly rounded (R54). -/
def fExp (a : Nat) : Lane :=
  match f32 a with
  | .nan => laneNan
  | .inf n => if n then (0, false) else (0x7F800000, false)
  | .zero _ => (0x3F800000, false)
  | v =>
    let x := fixOf v
    if 89 * 2 ^ 320 < x then (0x7F800000, true)
    else if x < -105 * 2 ^ 320 then (0, false)
    else let r := expFix x; roundEnclosure 1 a r.1 (2 ^ 20) (r.2 - 320)

/-- 2^x, correctly rounded; exact where x is an integer. -/
def fExp2 (a : Nat) : Lane :=
  match f32 a with
  | .nan => laneNan
  | .inf n => if n then (0, false) else (0x7F800000, false)
  | .zero _ => (0x3F800000, false)
  | v =>
    let x := fixOf v
    if 128 * 2 ^ 320 ≤ x then (0x7F800000, true)
    else if x < -151 * 2 ^ 320 then (0, false)
    else if x % 2 ^ 320 = 0 then laneRound (.fin false 1 (x / 2 ^ 320))
    else let r := expFix (fixMul x ln2Fix); roundEnclosure 2 a r.1 (2 ^ 20) (r.2 - 320)

/-- ln x, correctly rounded. -/
def fLog (a : Nat) : Lane :=
  match f32 a with
  | .nan => laneNan
  | .zero _ => (0xFF800000, false)
  | .inf n => if n then laneNan else (0x7F800000, false)
  | .fin true _ _ => laneNan
  | .fin false m q =>
    if a = 0x3F800000 then (0, false) else roundEnclosure 3 a (lnFix m q) (2 ^ 20) (-320)

/-- log2 x, correctly rounded; exact where x is a power of two. -/
def fLog2 (a : Nat) : Lane :=
  match f32 a with
  | .nan => laneNan
  | .zero _ => (0xFF800000, false)
  | .inf n => if n then laneNan else (0x7F800000, false)
  | .fin true _ _ => laneNan
  | .fin false m q =>
    if m = 2 ^ Nat.log2 m then laneRound (scaledVal ((Nat.log2 m : Int) + q) 0)
    else roundEnclosure 4 a (lnFix m q * 2 ^ 320 / ln2Fix) (2 ^ 30) (-320)

/-- tanh x, correctly rounded. -/
def fTanh (a : Nat) : Lane :=
  match f32 a with
  | .nan => laneNan
  | .inf n => (if n then 0xBF800000 else 0x3F800000, false)
  | .zero n => (if n then 0x80000000 else 0, false)
  | v =>
    let x := fixOf v
    if 20 * 2 ^ 320 < x then (0x3F800000, false)
    else if x < -20 * 2 ^ 320 then (0xBF800000, false)
    else
      let r := expFix (2 * (if x < 0 then -x else x))
      let e := r.1 * 2 ^ r.2.toNat
      let y := (e - 2 ^ 320) * 2 ^ 320 / (e + 2 ^ 320)
      roundEnclosure 5 a (if x < 0 then -y else y) (2 ^ 40) (-320)

/-- 1 / (1 + e^−x), correctly rounded (R54). -/
def fSigmoid (a : Nat) : Lane :=
  match f32 a with
  | .nan => laneNan
  | .inf n => (if n then 0 else 0x3F800000, false)
  | .zero _ => (0x3F000000, false)
  | v =>
    let x := fixOf v
    if 40 * 2 ^ 320 < x then (0x3F800000, false)
    else if x < -105 * 2 ^ 320 then (0, false)
    else
      let r := expFix (if x < 0 then -x else x)
      let e := r.1 * 2 ^ r.2.toNat
      let y := if x < 0 then 2 ^ 320 * 2 ^ 320 / (2 ^ 320 + e) else e * 2 ^ 320 / (2 ^ 320 + e)
      roundEnclosure 6 a y (2 ^ 40) (-320)

/-- erf x, correctly rounded; ±1 for infinities (R54). -/
def fErf (a : Nat) : Lane :=
  match f32 a with
  | .nan => laneNan
  | .inf n => (if n then 0xBF800000 else 0x3F800000, false)
  | .zero n => (if n then 0x80000000 else 0, false)
  | v =>
    let x := fixOf v
    if 4 * 2 ^ 320 ≤ x then (0x3F800000, false)
    else if x ≤ -4 * 2 ^ 320 then (0xBF800000, false)
    else
      let s := erfSeries 190 1 (fixMul x x) x x
      roundEnclosure 7 a (fixMul s twoOverSqrtPiFix) (2 ^ 60) (-320)

/-- silu(x) = mul(x, sigmoid(x)), each rounded in its turn (R55). -/
def fSilu (a : Nat) : Lane :=
  let s := fSigmoid a
  let r := fMul a s.1
  (r.1, s.2 || r.2)

/-- gelu(x) = mul(mul(x, 0.5), add(erf(mul(x, 0x3F35_04F3)), 1.0)) (R55). -/
def fGelu (a : Nat) : Lane :=
  let h := fMul a 0x3F000000
  let t := fMul a 0x3F3504F3
  let e := fErf t.1
  let s := fAdd e.1 0x3F800000
  let r := fMul h.1 s.1
  (r.1, h.2 || t.2 || e.2 || s.2 || r.2)

end Sys2Proof
end

