-- ==== Sys2Proof/Machine/TelOps.lean ====
section
/-!
DEFINITION. Telemetry reduction (13 R337 to R346): operators, slots, the fleet tree and the job trees, sending and finalising, the
judgements of stragglers and drift; and what a Vent subscription emits and sends (R349 to R351).
-/
namespace Sys2Proof.Machine

/-! ### Operators (Table 13.3) -/

/-- The operator of a group (Table 13.4), and the entries it has. -/
def telOp (group : Nat) : Nat := [8, 9, 10, 11, 9, 8].getD group 0
def telCount (group : Nat) : Nat := [16, 8, 8, 1, 1, 2].getD group 0
/-- The group belongs to a tree: 0 to 3 to the fleet tree, 4 and 5 to job trees. -/
def telGroupOk (tree group : Nat) : Bool := if tree = 0 then decide (group < 4) else group == 4 || group == 5

/-- A pair of value and locus, as it stands in an entry. -/
def telPair (v locus : Nat) : Nat := v % 2 ^ 32 + 2 ^ 32 * locus
def noPair : Nat := telPair 0 0xFFFFFFFF
/-- An entry of TOP2 and BOT2 with one pair. -/
def telOne (v locus : Nat) : Nat := telPair v locus + 2 ^ 64 * noPair
/-- The pairs of an entry that are not empty. -/
def telPairs (e : Nat) : List (Nat × Nat) :=
  [(bitsOf e 31 0, bitsOf e 63 32), (bitsOf e 95 64, bitsOf e 127 96)].filter (fun p => p.2 != 0xFFFFFFFF)

/-- Merge two entries of TOP2 or BOT2. -/
def telMerge (high : Bool) (a b : Nat) : Nat :=
  let rank (p : Nat × Nat) : Nat := (if high then 2 ^ 32 - 1 - p.1 else p.1) * 2 ^ 32 + p.2
  let l := (sortBy rank (telPairs a ++ telPairs b)).map (fun p => telPair p.1 p.2)
  l.getD 0 noPair + 2 ^ 64 * l.getD 1 noPair

/-- The fold of two entries. -/
def telFoldEntry (op a b : Nat) : Nat :=
  match op with
  | 8 => (a + b) % 2 ^ 128
  | 9 => telMerge true a b
  | 10 => telMerge false a b
  | _ => a ||| b

/-- What a slot holds before any contribution. -/
def telEmpty (group : Nat) : List Nat :=
  List.replicate (telCount group) (if telOp group = 9 ∨ telOp group = 10 then noPair + 2 ^ 64 * noPair else 0)

/-! ### Trees (R339, R342) -/

/-- A member of the fleet tree. -/
def State.telMember (s : State) : Bool := s.inRun && (s.time.st == 2 || s.time.st == 3)
/-- The context of a job tree. -/
def State.telCtx (s : State) (tree : Nat) : Option Nat :=
  ctxIds.find? (fun x => decide (3 ≤ (s.ctx x).st.code) && (s.ctx x).domain == tree)

/-- The root of a tree: the time root, or the module issuing as the job's coordinator. -/
def State.telRoot (s : State) (tree : Nat) : Nat :=
  if tree = 0 then s.time.root
  else match s.telCtx tree with
    | none => s.locus
    | some x => if (s.ctx x).coord.active then s.locus else (s.ctx x).coordLocus

/-- The parent of this module; none at the root or where no route leads. -/
def State.telParent (s : State) (tree : Nat) : Option Nat :=
  let r := s.telRoot tree
  if r = s.locus then none
  else if tree = 0 then (s.routeDir r).map (s.cfg.stepTo s.locus)
  else match s.telCtx tree with
    | none => none
    | some x => s.parentOf ((s.ctx x).pmap ++ [r]) r s.locus

/-- The children expected: every neighbour is taken for a member of the fleet tree (log 46). -/
def State.telChildren (s : State) (tree : Nat) : List Nat :=
  let r := s.telRoot tree
  if tree = 0 then (s.cfg.neighbours s.locus).filter (fun l => l != r && s.cfg.nextLocus l r == some s.locus)
  else match s.telCtx tree with
    | none => []
    | some x => ((s.ctx x).pmap.filter (fun l => l != s.locus && l != r && s.parentOf ((s.ctx x).pmap ++ [r]) r l == some s.locus))

/-- The tick after which a contribution is late, and at which the slot is sent: none while COMMIT of the step has not come (R342). -/
def State.telSendBy (s : State) (tree key attempt : Nat) : Option Nat :=
  let off (t : Nat) : Nat := t + s.cfg.treeWait - s.cfg.hopsTo (s.telRoot tree) 80 s.locus * s.cfg.hopTicks
  if tree = 0 then some (off ((key + 1) * 2 ^ 30))
  else match s.telCtx tree with
    | none => none
    | some x => ((s.ctx x).records.find? (fun r => r.step == key && r.attempt == attempt)).map (fun r => off r.commitTick)

/-- The number of modules a result should hold (R343). -/
def State.telExpected (s : State) (tree : Nat) : Nat :=
  if tree = 0 then
    if s.cfg.fleetSize ≠ 0 then s.cfg.fleetSize
    else s.cfg.extent 0 * s.cfg.extent 1 * s.cfg.extent 2 * s.cfg.extent 3
  else match s.telCtx tree with
    | none => 0
    | some x => (s.ctx x).participants

/-! ### Subscriptions' content (R347, R349) -/

/-- Fields of a SUBSCRIBE body (Table 13.7), in network byte order. -/
def subStream (b : List Byte) : Nat := beNat (slice b 0 1)
def subDecim (b : List Byte) : Nat := beNat (slice b 1 1)
def subClass (b : List Byte) : Nat := beNat (slice b 2 1)
def subFirst (b : List Byte) : Nat := beNat (slice b 4 2)
def subCount (b : List Byte) : Nat := beNat (slice b 6 2)
def subDomain (b : List Byte) : Nat := beNat (slice b 8 2)
def subLease (b : List Byte) : Nat := beNat (slice b 12 2)

/-- Content for every subscription of a stream; a JOB stream takes that of its domain. -/
def State.subContent (s : State) (stream domain : Nat) (bytes : List Byte) : State :=
  s.updTel (fun t => { t with subs := t.subs.map (fun b =>
    if subStream b.body = stream ∧ (stream ≠ 2 ∨ subDomain b.body = domain) then { b with waiting := b.waiting ++ [bytes] } else b) })

/-- A result as FLEET and JOB carry it (Table 13.8). -/
def telResultBytes (t : TelPkt) (step attempt : Nat) : List Byte :=
  let entry (e : Nat) : List Byte :=
    if t.op = 11 then beBytes 8 e
    else if t.op = 8 then beBytes 16 e
    else beBytes 4 (bitsOf e 31 0) ++ beBytes 4 (bitsOf e 63 32) ++ beBytes 4 (bitsOf e 95 64) ++ beBytes 4 (bitsOf e 127 96)
  beBytes 2 t.tree ++ beBytes 1 t.group ++ beBytes 1 (b2n t.short) ++ beBytes 4 t.contrib ++
    beBytes 8 (if t.tree = 0 then t.key else step) ++ beBytes 1 attempt ++ beBytes 7 0 ++ (t.entries.map entry).flatten

/-- A change of this module's state as ASSESS carries it (Table 13.8). -/
def State.assess (s : State) (kind metric : Nat) (set : Bool) (domain key : Nat) : State :=
  s.subContent 3 0 (beBytes 1 kind ++ beBytes 1 metric ++ beBytes 1 (b2n set) ++ beBytes 1 0 ++ beBytes 2 domain ++ beBytes 2 0 ++ beBytes 8 key)

/-! ### Judgements -/

/-- The straggler judgement of a participant on a group 4 result (R345). -/
def State.judgeStraggler (s : State) (x : Nat) (t : TelPkt) (step : Nat) : State :=
  let e := t.entries.getD 0 0
  let v0 := bitsOf e 31 0
  let v1 := bitsOf e 95 64
  let last := !t.short && decide (v1 + s.cfg.stragMargin ≤ v0) && bitsOf e 63 32 == s.locus
  let w := (last :: KMap.getD s.tel.strag x []).take s.cfg.stragW
  let n := (w.filter (fun b => b)).length
  let was := s.tel.stragglers.contains x
  let s := s.updTel (fun t => { t with strag := KMap.put t.strag x w })
  let d := (s.ctx x).domain
  if !was && decide (s.cfg.stragS ≤ n) then
    ((s.updTel (fun t => { t with stragglers := insertAsc x t.stragglers })).setEvt .telStatus 0 30).assess 0 0 true d step
  else if was && decide (n ≤ s.cfg.stragS / 2) then
    (s.updTel (fun t => { t with stragglers := t.stragglers.filter (· != x) })).assess 0 0 false d step
  else s

/-- An integer rounded to FP32 (Table 2.10). -/
def cvtRne (i : Int) : Nat := toFp32 (scaledVal i 0)

/-- e[j] after an interval (R346), as an FP32 pattern. -/
def driftNext (n x s1 s2 e : Nat) : Nat :=
  let d : Int := (n * x : Nat) - (s1 : Nat)
  let v := n * s2 - s1 * s1
  let z := if v = 0 then 0 else (fDiv (cvtRne d) (fSqrt (cvtRne (v : Nat))).1).1
  (fAdd e (fMul (fSub z e).1 0x3D800000).1).1

/-- The drift judgement of one metric (R346). -/
def State.judgeMetric (s : State) (t : TelPkt) (xs : List Nat) (j : Nat) : State :=
  let e := driftNext t.contrib (xs.getD j 0) (t.entries.getD (2 * j) 0) (t.entries.getD (2 * j + 1) 0) (s.tel.drift.getD j 0)
  let was := s.tel.driftBits.testBit j
  let s := s.updTel (fun q => { q with drift := q.drift.set j e })
  if !was && decide (s.cfg.driftEnter ≤ e % 2 ^ 31) then
    ((s.updTel (fun q => { q with driftBits := setBit q.driftBits j true })).setEvt .telStatus 0 21).assess 1 j true 0 t.key
  else if was && decide (e % 2 ^ 31 < s.cfg.driftExit) then
    (s.updTel (fun q => { q with driftBits := setBit q.driftBits j false })).assess 1 j false 0 t.key
  else s

/-- A fleet-tree result: drift is judged on the sums of group 0, by a module that contributed; every result is content of FLEET. -/
def State.judgeFleet (s : State) (t : TelPkt) : State :=
  let s := s.subContent 1 0 (telResultBytes t 0 0)
  if t.group ≠ 0 ∨ t.contrib < s.cfg.driftMinN then s
  else match KMap.find s.tel.contributed t.key with
    | none => s
    | some xs => forEach ((List.range 8).filter (fun j => (s.cfg.driftMask).testBit j)) s (fun s j => s.judgeMetric t xs j)

/-- A job-tree result of a committed attempt. -/
def State.judgeJob (s : State) (x : Nat) (t : TelPkt) (step attempt : Nat) : State :=
  let s := s.subContent 2 t.tree (telResultBytes t step attempt)
  if t.group = 4 then s.judgeStraggler x t step else s

/-- At COMMIT of a step the results that came before it are judged; those of other attempts are dropped (R343). -/
def State.judgeWaiting (s : State) (domain step attempt : Nat) : State :=
  let mine := s.tel.waitDown.filter (fun w => w.1 == domain && w.2.1 == step)
  let s := s.updTel (fun t => { t with waitDown := t.waitDown.filter (fun w => !(w.1 == domain && decide (w.2.1 ≤ step))) })
  match s.telCtx domain with
  | none => s
  | some x => forEach (mine.filter (fun w => w.2.2.1 == attempt)) s (fun s w => s.judgeJob x w.2.2.2 step attempt)

/-- A result at a member: forwarded to its children, then judged, or kept until the step's COMMIT (R343). -/
def State.telResult (s : State) (t : TelPkt) (step attempt : Nat) : State :=
  let s := forEach (s.telChildren t.tree) s (fun s l => s.emit (.tel false l t.tree step attempt t))
  if t.tree = 0 then s.judgeFleet t
  else match s.telCtx t.tree with
    | none => s
    | some x =>
      let c := s.ctx x
      if c.records.any (fun r => r.step == step && r.attempt == attempt) then s.judgeJob x t step attempt
      else if c.step = step then s.updTel (fun q => { q with waitDown := q.waitDown ++ [(t.tree, step, attempt, t)] })
      else s

/-! ### Slots (R340 to R344) -/

def TelSlot.isKey (q : TelSlot) (tree group key attempt : Nat) : Bool :=
  q.tree == tree && q.group == group && q.key == key && q.attempt == attempt

def State.telSlot (s : State) (tree group key attempt : Nat) : TelSlot :=
  (s.tel.slots.find? (fun q => q.isKey tree group key attempt)).getD
    { tree, group, key, attempt, op := telOp group, contrib := 0, from_ := [], entries := telEmpty group, sent := false }

/-- Store a slot; one of the same parity that it takes the place of is released (R344). -/
def State.putTelSlot (s : State) (q : TelSlot) : State :=
  let clash (r : TelSlot) : Bool := r.tree == q.tree && r.group == q.group && r.key % 2 == q.key % 2 && !r.isKey q.tree q.group q.key q.attempt
  let s := s.bump .telDrop 0 ((s.tel.slots.filter (fun r => clash r && !r.sent)).length)
  s.updTel (fun t => { t with slots := t.slots.filter (fun r => !clash r && !r.isKey q.tree q.group q.key q.attempt) ++ [q] })

/-- Slots of a key are released; what was not sent is counted (R344). -/
def State.releaseTelSlots (s : State) (f : TelSlot → Bool) : State :=
  let s := s.bump .telDrop 0 ((s.tel.slots.filter (fun r => f r && !r.sent)).length)
  s.updTel (fun t => { t with slots := t.slots.filter (fun r => !f r) })

/-- COMMIT(N + 1) releases the job tree's slots of N and before (R344). -/
def State.freeTelSlots (s : State) (domain step : Nat) : State :=
  s.releaseTelSlots (fun r => r.tree == domain && domain != 0 && decide (r.key ≤ step))

/-- The packet a slot makes. -/
def TelSlot.pkt (q : TelSlot) (short : Bool) : TelPkt :=
  { tree := q.tree, op := q.op, group := q.group, contrib := q.contrib, short, key := if q.tree = 0 then q.key else 0, entries := q.entries, upset := 0 }

/-- Send a slot upward, once. -/
def State.telSend (s : State) (q : TelSlot) (parent : Nat) : State :=
  let st := if q.tree = 0 then 0 else q.key
  (s.putTelSlot { q with sent := true }).emit (.tel true parent q.tree st q.attempt (q.pkt false))

/-- The root finalises a key: PARTIAL when modules are missing (R343). -/
def State.telFinal (s : State) (q : TelSlot) : State :=
  let short := decide (q.contrib < s.telExpected q.tree)
  (s.putTelSlot { q with sent := true }).telResult (q.pkt short) (if q.tree = 0 then 0 else q.key) q.attempt

/-- After a fold: the root of a job tree finalises with every participant in; any other module sends once its own and every
expected child's contribution are in (R342, R343). -/
def State.telAdvance (s : State) (q : TelSlot) : State :=
  if s.telRoot q.tree = s.locus then
    if q.tree ≠ 0 ∧ s.telExpected q.tree ≤ q.contrib then s.telFinal q else s
  else if (s.locus :: s.telChildren q.tree).all (fun l => q.from_.contains l) then
    match s.telParent q.tree with
    | some p => s.telSend q p
    | none => s
  else s

/-- The two fold adders of Caldera's Square differ: the packet is withheld, recorded with source SQUARE_FOLD and Square 4, and
counted as a transient of that Square, which escalates (10 R252). -/
def State.telUpset (s : State) (q : TelSlot) : State :=
  let s := s.putTelSlot { q with sent := true }
  let s := s.record { code := 0x0104, sev := 2, srcType := 0,
                      data := [field q.tree 12 0 + field q.group 4 12 + field 4 3 17] }
  let t := (s.bump .detSquare 0).countTransient (hangKey (.square 4))
  if t.1 then
    let s := (t.2.bump .detPermanent 0).recover (hangKey (.square 4)) 2 16 true
    s.updTel (fun t => { t with slots := [] })
  else t.2

/-- One contribution folded into its slot (R340). -/
def State.telFold (s : State) (tree group key attempt src contrib : Nat) (entries : List Nat) (upset : Nat) : State :=
  let q := s.telSlot tree group key attempt
  let newer := s.tel.slots.any (fun r => r.tree == tree && r.group == group && r.key % 2 == key % 2 && decide (key < r.key))
  if q.from_.contains src || q.sent || newer then s.bump .telDrop 0
  else
    let q := { q with
      from_ := q.from_ ++ [src], contrib := q.contrib + contrib
      entries := (q.entries.zip entries).map (fun e => telFoldEntry q.op e.1 e.2) }
    if upset ≠ 0 then s.telUpset q else (s.putTelSlot q).telAdvance q

/-- a_m of the context's running attempt is contributed (R345). -/
def State.contributeLateness (s : State) (x : Nat) : State :=
  let c := s.ctx x
  let a := min (2 ^ 32 - 1) (c.exec.firstUp.getD 0 - c.launch.getD 0)
  let s := s.telFold c.domain 4 c.step c.attempt s.locus 1 [telOne a s.locus] 0
  s.telFold c.domain 5 c.step c.attempt s.locus 1 [a, a * a] 0

/-- The first RED_UP of the step leaves, or where none does STEP_CONFIRM (R345). -/
def State.leaveFirst (s : State) (x : Nat) : State :=
  if (s.ctx x).exec.firstUp.isSome then s
  else (s.updExec x (fun e => { e with firstUp := some s.now })).contributeLateness x

/-! ### The Vent (R349 to R351) -/

/-- The header of a Vent datagram (Table 13.6). -/
def ventHeader (type subId frag frags status seq locus count len : Nat) : List Byte :=
  beBytes 2 0x5654 ++ beBytes 1 1 ++ beBytes 1 type ++ beBytes 2 subId ++ beBytes 1 (16 * frag + (frags - 1)) ++ beBytes 1 status ++
  beBytes 4 seq ++ beBytes 4 locus ++ beBytes 8 count ++ beBytes 4 len ++ beBytes 4 0

/-- Bytes of a body in one fragment, and the largest record. -/
def ventFrag : Nat := 8960
def ventMax : Nat := 16 * ventFrag

/-- The port a subscription's records leave by: its own where UP, else the lowest-numbered Vent port that is. -/
def State.ventPort (s : State) (b : Sub) : Option Nat :=
  let up (p : Nat) : Bool := (s.port p).st == .up && (s.port p).hasAddr && (s.cfg.edgeRole (p - 32)).testBit 1
  if up b.port then some b.port else (List.range' 32 4).find? up

/-- Send a record in fragments from a port. -/
def State.ventRecord (s : State) (b : Sub) (p seq k : Nat) (body : List Byte) : State :=
  let n := max 1 (ceilDiv body.length ventFrag)
  let s := forEach (List.range n) s (fun s i =>
    let part := slice body (ventFrag * i) ventFrag
    s.emit (.datagram p b.addr b.udp s.cfg.ventUdpPort
      (ventHeader 4 b.subId i n 0 seq s.locus (k * samplePeriod) part.length ++ part)))
  (s.bump .ventRecords 0).bump .ventBytes 0 (body.length + 32 * n)

/-- Send every record not yet sent that has a port and is not too old, while a half holds CAL_OWN (R349, R351). -/
def State.flushVent (s : State) : State :=
  if s.cal.owner.isNone then s
  else forEach s.tel.subs s (fun s b =>
    match s.ventPort b with
    | none => s
    | some p =>
      let go (u : Nat × Nat × List Byte) : Bool := decide (s.now ≤ u.2.1 * samplePeriod + s.cfg.ventMaxAge)
      let s := forEach (b.unsent.filter go) s (fun s u => s.ventRecord b p u.1 u.2.1 u.2.2)
      s.updTel (fun t => { t with subs := t.subs.map (fun c =>
        if c.addr = b.addr ∧ c.udp = b.udp ∧ c.subId = b.subId then { c with unsent := c.unsent.filter (fun u => !go u) } else c) }))

/-- The items of waiting content that one record takes, and the rest (R348). -/
def takeContent (room : Nat) : List (List Byte) → List Byte × List (List Byte)
  | [] => ([], [])
  | b :: bs =>
    if b.length ≤ room then
      let r := takeContent (room - b.length) bs
      (b ++ r.1, r.2)
    else ([], b :: bs)

end Sys2Proof.Machine
end

