-- ==== Sys2Proof/Machine/StepLife.lean ====
section
/-!
DEFINITION. The life of a step (01 R21 to R27, 09 R240, 10 R262, 12 R307): launch, confirmation, COMMIT, fault reports,
re-execution and the loss of a module, as a participant and as the coordinator.
-/
namespace Sys2Proof.Machine

/-- The context of a coordinator's message to a participant (log 8). -/
def State.jobCtx (s : State) (src : Nat) : Option Nat := s.ctxFor src (fun c => decide (3 ≤ c.st.code))

/-- Do something to the context a message concerns, when there is one and the epoch is not old (R297). -/
def State.onJob (s : State) (src epoch : Nat) (f : Nat → State → State) : State :=
  match s.jobCtx src with
  | none => s
  | some x => s.epochIn x src epoch (f x)

/-- Complete the command a ring executes. -/
def State.completeRing (s : State) (n status result : Nat) : State :=
  match (s.ring n).cur with
  | some a => s.complete n a status result
  | none => s

/-! ### Launch and confirmation -/

/-- STEP_LAUNCH: the fleet count reaches L of the step the context waits for (R21). A module without an owning half takes no step (R292). -/
def execStepLaunch (x : Nat) (s : State) : Host.Outcome State Fault Refusal :=
  .next (
    let c := s.ctx x
    match c.launch with
    | none => s
    | some l =>
      if c.st ≠ .running ∨ c.launched ∨ !s.fcHeld ∨ s.pins.latchedOff ∨ (s.pins.pwrCycleReq ∧ s.cal.owner.isNone) then s else (s.advanceTo l).launchStep x)

/-- Every operator has completed on every cluster it occupies (R22, R120). -/
def Ctx.opsDone (c : Ctx) : Bool :=
  match c.prog with
  | none => false
  | some g => g.operators.all (fun o => o.clusters.all (fun k => (KMap.getD c.exec.done o.opId []).contains k))

/-- Every collective an operator triggers has delivered all its blocks (R22). -/
def Ctx.collsDone (c : Ctx) : Bool :=
  match c.prog with
  | none => false
  | some g => g.operators.all (fun o => match o.coll with
    | none => true
    | some k => g.collectives.all (fun d => d.collId != k.2 || (KMap.getD c.exec.colls k.2 ⟨[]⟩).downBlocks.length == d.blocks))

/-- The conditions of R22. -/
def Ctx.mayConfirm (c : Ctx) (locus : Nat) : Bool :=
  (c.st == .running) && c.launched && !c.confirmed && !c.faulted && c.opsDone && c.collsDone &&
  (c.gey.buddy == locus || (c.gey.buddyValid && c.exec.captured && c.gey.streamAcks.isEmpty))

/-- Repeats of the attempt that ends here are classified (R262). -/
def State.settleRepeats (s : State) (x : Nat) (ran : Bool) : State :=
  let c := s.ctx x
  let mine (r : Repeat) : Bool := r.ctx == x && r.step == c.step && (r.attempt + 1) % 16 == c.attempt
  let due := s.recov.repeats.filter mine
  let s := s.updRecov (fun q => { q with repeats := q.repeats.filter (fun r => !mine r) })
  forEach due s (fun s r => s.settleRepeat x r ran)

/-- STEP_CONFIRM_SEND: the conditions of R22 hold, so STEP_CONFIRM(N) goes to the coordinator, once per attempt. -/
def execStepConfirmSend (x : Nat) (s : State) : Host.Outcome State Fault Refusal :=
  .next (
    let c := s.ctx x
    if !c.mayConfirm s.locus then s
    else
      let n := pointN (KMap.getD s.pwr.point ((maskParts c.mask).headD 0) 0)
      let s := s.leaveFirst x
      let s := s.updCtx x (fun c => { c with confirmed := true, confirmCycles := (s.now - c.exec.launchAt) * n / 40 })
      let s := (s.settleRepeats x true).gate x
      s.sendCtrl c.coordLocus 0x04 c.step c.attempt 0)

/-! ### At the coordinator -/

/-- A fault report for the step waits with the arrival tick of this confirmation (R24). -/
def reportWaits (q : List Instr) (step stamp : Nat) : Bool :=
  q.any (fun c => match c with | .faultReport h _ => h.step == step && h.stamp == stamp | _ => false)

/-- STEP_CONFIRM arrives: recorded with its stamp against the deadline; COMMIT follows the last (R23, R24). -/
def effStepConfirm (h : Hdr) (s : State) : State :=
  match s.coordCtx h.src h.step with
  | none => s
  | some x =>
    let o := (s.ctx x).coord
    if o.step ≠ h.step ∨ o.attempt ≠ h.attempt then s
    else
      let s := s.updCoord x (fun o => { o with confirms := KMap.put o.confirms h.src h.stamp, probes := KMap.del o.probes h.src })
      if reportWaits s.pending h.step h.stamp then s else s.tryCommit x

def execStepConfirm (h : Hdr) (s : State) : Host.Outcome State Fault Refusal :=
  .next (s.ctrlIn h (.stepConfirm h) (effStepConfirm h))

/-- COMMIT_DEADLINE: D(N) has passed; each missing participant is probed (R24, R286). -/
def execCommitDeadline (x : Nat) (s : State) : Host.Outcome State Fault Refusal :=
  .next (
    let c := s.ctx x
    let o := c.coord
    if !o.started ∨ o.held ∨ !s.mayIssue x ∨ !o.reports.isEmpty ∨ o.collecting.isSome then s
    else
      let s := s.advanceTo o.deadline
      let missing := c.pmap.filter (o.lacks ·)
      let s := s.updCoord x (fun o => { o with passed := o.deadline })
      forEach missing s (fun s l =>
        let old := KMap.getD o.probes l { locus := l, extends_ := 0, recovering := false, answered := false }
        (s.toSome x [l] 0x63 o.step o.attempt 0).updCoord x (fun o =>
          { o with probes := KMap.put o.probes l { old with answered := false } })))

/-- FAULT_REPORT arrives at the coordinator (R25, R248, R277): the first for (N, ATTEMPT) is acted on, the rest recorded; an
older attempt changes nothing; PROGRAM holds the job (R92, R281). A physical core address with slot 272 or above is
invalid and recorded (R10). -/
def effFaultReport (h : Hdr) (f : FaultParam) (s : State) : State :=
  let s := if f.physValid && decide (slotsPerCluster ≤ f.physCore % 512) then
      s.record { code := 0x2001, sev := 1, srcType := 9, srcIndex := h.src, step := h.step, attempt := h.attempt, data := [f.physCore] }
    else s
  match s.coordCtx h.src h.step with
  | none => s
  | some x =>
    let o := (s.ctx x).coord
    if o.step ≠ h.step ∨ o.attempt ≠ h.attempt ∨ o.held then s
    else
      let first := o.reports.isEmpty
      let s := s.updCoord x (fun o => { o with reports := o.reports ++ [(h.src, f.source)] })
      if first then
        if f.kind = 5 then s.holdStep x 1 else s.failAttempt x h.src
      else s.record { code := 0x0100 + f.source, sev := 2, srcType := 9, srcIndex := h.src, ctx := x, step := h.step,
                      attempt := h.attempt, data := (List.range 6).map (fun i => bitsOf f.pack (191 - 32 * i) (160 - 32 * i)) }

def execFaultReport (h : Hdr) (f : FaultParam) (s : State) : Host.Outcome State Fault Refusal :=
  .next (s.ctrlIn h (.faultReport h f) (effFaultReport h f))

/-- REEXEC_COLLECT: the wait for RECOVERY_NOTICE is over, and REEXEC is issued (R286). -/
def execReexecCollect (x : Nat) (s : State) : Host.Outcome State Fault Refusal :=
  .next (
    match (s.ctx x).coord.collecting with
    | none => s
    | some _ => s.issueReexec x)

/-! ### COMMIT at a participant -/

/-- Dumps of the committed step are reported to the host; one that no operator captured takes the value now (R243, R245). -/
def State.dumpsDone (s : State) (x n : Nat) : State :=
  let ds := (s.ctx x).dumps.filter (fun d => d.step == n)
  let s := s.updCtx x (fun c => { c with dumps := c.dumps.filter (fun d => d.step != n) })
  forEach ds s (fun s d =>
    if d.captured then s.reportDump d
    else match (s.ctx x).tensor d.tensorId with
      | none => s
      | some t => let w := s.capture x d t 0 0 (s.ctx x).attempt
                  w.1.reportDump w.2)

/-- A step record of a step launched at `l` (R240). -/
def State.addRecord (s : State) (x step l commitTick : Nat) : State :=
  let c := s.ctx x
  let sum := s.stateSum x
  let r : StepRec := { step, attempt := c.attempt, cycle := c.cycleAtLaunch, hostWrite := c.hostWrite, launch := l, commitTick,
                       reasons := c.reasons, gapPhase := (l + 2 ^ 27 - s.cfg.calGapPhase % 2 ^ 27) % 2 ^ 27, stateSum := sum,
                       planSum := s.planSum x, confirmCycles := c.confirmCycles }
  let s := s.when (c.cycleAtLaunch && c.reasons != 0) (fun s => s.bump .detNcr 0)
  s.updCtx x (fun c => { c with records := (r :: c.records).take 60, stateSum := sum, hostWrite := false })

/-- Holds and teardowns that wait for this boundary complete; teardown wins (R112, after Table 5.15). -/
def State.boundaryRings (s : State) (x n : Nat) : State :=
  let c := s.ctx x
  let tear := !c.tearRings.isEmpty
  let s := s.updCtx x (fun c => { c with holdRings := [], tearRings := [] })
  let s := forEach c.holdRings s (fun s r => s.completeRing r (if tear then stCtxState else stOk) (if tear then 0 else n))
  let s := forEach c.tearRings s (fun s r => s.completeRing r stOk 0)
  if tear && c.coord.active then s.drainJob x else s

/-- COMMIT(N) on a participant or buddy (R23, R307): the pending copy is the committed copy, the step record is written, and
the context goes on to N + 1 or is HELD; a second COMMIT(N) changes nothing. -/
def effCommit (h : Hdr) (launch : Nat) (hold : Bool) (epoch : Nat) (s : State) : State :=
  s.onJob h.src epoch (fun x s =>
    let c := s.ctx x
    if c.st ≠ .running ∨ c.committed = some h.step ∨ c.step ≠ h.step then s
    else
      let s := ((s.commitSlots x).powerCommit x).ageDirected c.mask
      let s := s.addRecord x h.step (c.launch.getD 0) h.stamp
      let s := (s.dumpsDone x h.step).closeStepRecords x
      let s := s.updCtx x (fun c => { c with
        committed := some h.step, commitTick := h.stamp, commitAttempt := c.attempt, step := nextStep h.step, attempt := 0,
        launch := none, launched := false, confirmed := false, faulted := false, reasons := 0, exec := Exec.reset })
      let s := ((s.judgeWaiting c.domain h.step c.attempt).freeTelSlots c.domain (prevStep h.step)).boundary x
      if hold then (s.gate x).updCtx x (fun c => { c with st := .held }) |>.boundaryRings x h.step
      else (s.plan x launch).setLaunch x launch)

def execCommit (h : Hdr) (launch : Nat) (hold : Bool) (epoch : Nat) (s : State) : Host.Outcome State Fault Refusal :=
  .next (s.ctrlIn h (.commit h launch hold epoch) (effCommit h launch hold epoch))

/-! ### Re-execution and lost modules -/

/-- REEXEC(N): the pending copy is discarded, pending boundary actions complete, and the step waits for its new launch
(R25, R275, R307); the same order again changes nothing (R273). -/
def effReexec (h : Hdr) (launch epoch : Nat) (s : State) : State :=
  s.onJob h.src epoch (fun x s =>
    let c := s.ctx x
    if c.st ≠ .running ∨ c.committed = some h.step ∨ (c.step = h.step ∧ c.attempt = h.attempt ∧ c.launch = some launch) then s
    else
      let s := (s.settleRepeats x c.launched).discard x
      let s := (s.bump .recL1 0).record { code := 0x0301, sev := 0, ctx := x, step := h.step, attempt := h.attempt, data := [x, 1] }
      let s := s.updCtx x (fun c => { c with step := h.step, attempt := h.attempt % 16, reasons := 2 ^ 5, launched := false })
      let s := s.boundary x
      (s.reloadImages x).setLaunch x launch)

def execReexec (h : Hdr) (launch epoch : Nat) (s : State) : Host.Outcome State Fault Refusal :=
  .next (s.ctrlIn h (.reexec h launch epoch) (effReexec h launch epoch))

/-- MODULE_LOST (R26, R312, R313): the spare named takes the lost module's place and waits for its copy; every other
participant discards its pending step, and the one whose buddy was lost binds the spare. Whether the job is held is not in
the message (log 31). -/
def effModuleLost (h : Hdr) (lost spare epoch : Nat) (s : State) : State :=
  s.onJob h.src epoch (fun x s =>
    let c := s.ctx x
    let s := s.record { code := 0x0420, sev := 2, ctx := x, step := h.step, attempt := h.attempt, data := [lost, spare] }
    if lost = s.locus then s.emptyCtx x
    else if spare = s.locus then
      if c.st ≠ .armed then s
      else
        let held := s.freshBool
        let s := held.2.updCtx x (fun c =>
          let d := c.substitute lost spare
          { d with st := if held.1 then .held else .running, committed := some (prevStep h.step), step := h.step, attempt := h.attempt % 16,
                   launch := none, launched := false, gey := { c.gey with takeStart := some s.time.loc, bound := false } })
        s.noticeReady x
    else
      let s := (s.discard x).updCtx x (fun c => { c.substitute lost spare with launch := none, launched := false })
      let s := s.updGey x (fun g => { g with partner := g.partner.map (fun p => if p.locus = lost then { p with locus := spare } else p) })
      if c.gey.buddy = lost then
        let s := s.updGey x (fun g => { g with buddy := spare, bound := false, buddyValid := false, bindSince := some s.time.loc })
        (s.bind x).noticeReady x
      else s)

def execModuleLost (h : Hdr) (lost spare epoch : Nat) (s : State) : Host.Outcome State Fault Refusal :=
  .next (s.ctrlIn h (.moduleLost h lost spare epoch) (effModuleLost h lost spare epoch))

end Sys2Proof.Machine
end

