-- ==== Sys2Proof/Machine/JobMessages.lean ====
section
/-!
DEFINITION. The messages of a job's life besides its steps (05 R113 to R115, R132 to R134, 06 R150, R158 to R161, 11 R281),
and acknowledgement, refusal and congestion echoes (06 R154, R155, R160, R161).
-/
namespace Sys2Proof.Machine

/-! ### Starting -/

/-- One ARMED report (R113, R115): the digest is kept; the first PARTICIPANTS loci are the participants, and a later one is a spare's, whose
digest is compared with this module's own (log 33). One that arms after a restore was asked for is told of it (12 R325). A report that comes
before this module's own context of the job is armed is kept. -/
def State.armedFrom (s : State) (src digest : Nat) : State :=
  let mine := s.liveCtxs.filter (fun x => (s.ctx x).st == .armed && (s.ctx x).coord.active && !(s.ctx x).coord.started)
  let begun := s.liveCtxs.filter (fun x => (s.ctx x).coord.active && (s.ctx x).coord.started && !(s.ctx x).pmap.contains src)
  let spare (s : State) (x : Nat) : State :=
    s.updCoord x (fun o => { o with unlike := if descDigest (s.ctx x).desc = digest then o.unlike.filter (· != src) else insertAsc src o.unlike })
  match (mine.find? (fun x => descDigest (s.ctx x).desc == digest)).orElse (fun _ => mine.head?) with
  | none =>
    if begun.isEmpty then s.updFab (fun f => { f with early := f.early.filter (fun e => e.1 != src || e.2 != digest) ++ [(src, digest)] })
    else forEach begun s spare
  | some x =>
    let o := (s.ctx x).coord
    if (KMap.find o.armed src).isNone ∧ (s.ctx x).participants ≤ o.armed.length then forEach (begun ++ [x]) s spare
    else
      let fresh := (KMap.find o.armed src).isNone
      let s := s.updCoord x (fun o => { o with armed := KMap.put o.armed src digest })
      let s := match fresh, o.restore with
        | true, some (k, j, _) => s.toSome x [src] 0x49 k 0 (field j 32 32)
        | _, _ => s
      s.tryStart x

/-- ARMED at the coordinator: the reports kept from before this module armed, then this one (R113, R115). -/
def effArmed (h : Hdr) (digest : Nat) (s : State) : State :=
  forEach (s.fab.early ++ [(h.src, digest)]) (s.updFab (fun f => { f with early := [] })) (fun s e => s.armedFrom e.1 e.2)

def execArmed (h : Hdr) (digest : Nat) (s : State) : Host.Outcome State Fault Refusal :=
  .next (s.ctrlIn h (.armed h digest) (effArmed h digest))

/-- START (R115, R133): the context is RUNNING with the policy resolved, its initial step record written (R240), whose launch and
commit counts the spec does not state (free values, log 111), and it launches at the count carried, or at once when that has passed (R27). -/
def effStart (h : Hdr) (launch policy epoch : Nat) (s : State) : State :=
  s.onJob h.src epoch (fun x s =>
    let c := s.ctx x
    if c.st ≠ .armed then s
    else
      let s := s.updCtx x (fun c => { c with st := .running, policy, step := h.step, attempt := 0, launched := false, reasons := 0,
                                             committed := some (prevStep h.step) })
      let l := s.fresh
      let t := l.2.fresh
      let s := t.2.addRecord x (prevStep h.step) (l.1 % 2 ^ 64) (t.1 % 2 ^ 64)
      ((s.boundary x).plan x launch).setLaunch x launch)

def execStart (h : Hdr) (launch policy epoch : Nat) (s : State) : Host.Outcome State Fault Refusal :=
  .next (s.ctrlIn h (.start h launch policy epoch) (effStart h launch policy epoch))

/-- PMAP (R150): one part of the bitmap of participants. The first whole map fixes the index table (R225). -/
def effPmap (h : Hdr) (part bitmap epoch : Nat) (s : State) : State :=
  s.onJob h.src epoch (fun x s =>
    s.updCtx x (fun c =>
      let fresh := (bitList bitmap 8192).map (· + 8192 * part)
      let others := c.pmap.filter (fun l => l / 8192 != part)
      let m := fresh.foldl (fun m l => insertAsc l m) others
      let parts := insertAsc part c.pmapParts
      { c with pmap := m, pmapParts := parts, index := if 16 ≤ parts.length && c.index.isEmpty then m else c.index }))

def execPmap (h : Hdr) (part bitmap epoch : Nat) (s : State) : Host.Outcome State Fault Refusal :=
  .next (s.ctrlIn h (.pmap h part bitmap epoch) (effPmap h part bitmap epoch))

/-- RESUME (R133, R281): a HELD context runs again and waits for its launch. -/
def effResume (h : Hdr) (launch epoch : Nat) (s : State) : State :=
  s.onJob h.src epoch (fun x s =>
    let c := s.ctx x
    if !(c.st == .held || (c.st == .running && c.launch.isNone)) then s
    else
      let s := s.updCtx x (fun c => { c with st := .running, step := h.step, attempt := h.attempt % 16, launched := false,
                                             confirmed := false, faulted := false,
                                             reasons := if h.attempt = 0 then 0 else 2 ^ 5 })
      ((s.boundary x).plan x launch).setLaunch x launch)

def execResume (h : Hdr) (launch epoch : Nat) (s : State) : Host.Outcome State Fault Refusal :=
  .next (s.ctrlIn h (.resume h launch epoch) (effResume h launch epoch))

/-! ### Host loss, holds and drains -/

/-- HOST_LOSS at the coordinator (R133, R134): the notice counts from its stamp, once, for every job of the sender that is not
held and whose policy is not RUN_ON. -/
def effHostLoss (h : Hdr) (s : State) : State :=
  forEach (s.liveCtxs.filter (fun x => (s.ctx x).coord.active &&
      ((s.ctx x).pmap.contains h.src || h.src == s.locus || (KMap.find (s.ctx x).coord.armed h.src).isSome))) s
    (fun s x => s.updCoord x (fun o =>
      if o.held || o.hostLoss.isSome then o else { o with hostLoss := some h.stamp }))

def execHostLoss (h : Hdr) (tick : Nat) (s : State) : Host.Outcome State Fault Refusal :=
  .next (s.ctrlIn h (.hostLoss h tick) (effHostLoss h))

/-- STEP_HOLD (R281): the pending copy of the step is discarded and the context is HELD with the step before committed. -/
def effStepHold (h : Hdr) (reason epoch : Nat) (s : State) : State :=
  s.onJob h.src epoch (fun x s =>
    let c := s.ctx x
    if c.st ≠ .running then s
    else
      let s := (s.settleRepeats x c.launched).discard x
      let s := (s.bump .recHold 0).record { code := 0x0400 + reason, sev := 2, ctx := x, step := h.step, attempt := h.attempt, data := [h.src, 0] }
      let s := s.gate x
      let s := s.updCtx x (fun c => { c with st := .held, step := h.step, attempt := h.attempt % 16, launch := none, launched := false })
      (s.boundary x).boundaryRings x (prevStep h.step))

def execStepHold (h : Hdr) (reason epoch : Nat) (s : State) : Host.Outcome State Fault Refusal :=
  .next (s.ctrlIn h (.stepHold h reason epoch) (effStepHold h reason epoch))

/-- DRAIN (R158): the context is DRAINING from here; the earliest drain count stands. -/
def effDrain (h : Hdr) (td epoch : Nat) (s : State) : State :=
  s.onJob h.src epoch (fun x s =>
    s.updCtx x (fun c => { c with st := .draining, drainAt := some (match c.drainAt with | some t => min t td | none => td) }))

def execDrain (h : Hdr) (td epoch : Nat) (s : State) : Host.Outcome State Fault Refusal :=
  .next (s.ctrlIn h (.drain h td epoch) (effDrain h td epoch))

/-- DRAIN_START: T_d; the domain's limiter entries are deleted and nothing of it is delivered from here (R158). -/
def execDrainStart (x : Nat) (s : State) : Host.Outcome State Fault Refusal :=
  .next (
    let c := s.ctx x
    match c.drainAt with
    | none => s
    | some t => (s.advanceTo t).updFab (fun f => { f with
        limiters := f.limiters.filter (fun e => !c.pmap.contains (e.1 / 8)),
        reasm := f.reasm.filter (fun r => (c.tensor r.tensorId).isNone) }))

/-- DRAIN_END: T_d + CFG_FAB_MAX_AGE; Square slots released, the context EMPTY, DRAINED sent (R158). -/
def execDrainEnd (x : Nat) (s : State) : Host.Outcome State Fault Refusal :=
  .next (
    let c := s.ctx x
    match c.drainAt with
    | none => s
    | some t =>
      let s := s.advanceTo (t + s.cfg.fabMaxAge)
      (s.sendCtrl c.coordLocus 0x0B 0 0 0).emptyCtx x)

/-- DRAINED at the coordinator. -/
def effDrained (h : Hdr) (s : State) : State :=
  match s.coordCtx h.src 0 with
  | none => s
  | some x => s.updCoord x (fun o => { o with drained := insertAsc h.src o.drained })

def execDrained (h : Hdr) (s : State) : Host.Outcome State Fault Refusal := .next (s.ctrlIn h (.drained h) (effDrained h))

/-! ### RESP -/

/-- An echo of congestion for a destination and VC (Table 6.9): the limiter is cut, outside its hold-off; a table of 8,192 is
replaced at full rate first, then least recently used (R155). -/
def State.echo (s : State) (dst vc : Nat) : State :=
  let k := 8 * dst + vc
  let t := s.time.loc
  let cut (r : Nat) : Nat := max 4 (r - ceilDiv r 8)
  match KMap.find s.fab.limiters k with
  | some l =>
    if t < l.cutAt + 4096 then s
    else s.updFab (fun f => { f with limiters := KMap.put f.limiters k { l with rate := cut l.rate, cutAt := t, usedAt := t } })
  | none =>
    let ls := s.fab.limiters
    let full := ls.find? (fun e => decide (1024 ≤ e.2.rate))
    let lru := ls.foldl (fun (b : Option (Nat × Limiter)) e => match b with
      | none => some e
      | some d => if e.2.usedAt < d.2.usedAt then some e else b) none
    let ls := if ls.length < 8192 then ls else match full.orElse (fun _ => lru) with
      | some e => KMap.del ls e.1
      | none => ls
    s.updFab (fun f => { f with limiters := KMap.put ls k { rate := cut 1024, cutAt := t, usedAt := t } })

/-- An ECHO bit on a RESP names no VC: every limited VC of that source that may be cut is cut (R154, log 34). -/
def State.echoAll (s : State) (src : Nat) : State :=
  forEach ((s.fab.limiters.filter (fun e => e.1 / 8 == src)).map (fun e => e.1 % 8)) s (fun s vc => s.echo src vc)

/-- A DATA acknowledgement names a packet of the block whose first packet has SEQ `q`. -/
def ackOf (q seq : Nat) : Bool := decide (serialDist 32 seq q < 4)

/-- A block acknowledged by its receiver: seed, stream and host-write acknowledgements outstanding (R309 to R311). A completed
seed makes the buddy valid; a TENSOR_WRITE whose blocks are all acknowledged completes. -/
def State.dataAck (s : State) (src seq : Nat) : State :=
  forEach (s.liveCtxs.filter (fun x => (s.ctx x).gey.buddy == src || ((s.ctx x).gey.takeSend.map (·.2)) == some src)) s (fun s x =>
    let g := (s.ctx x).gey
    let rings := (g.writeAcks.filter (fun w => ackOf w.1 seq)).map (·.2)
    let seeded := !g.seedAcks.isEmpty && (g.seedAcks.filter (fun q => !ackOf q seq)).isEmpty
    let s := s.updGey x (fun g => { g with
      seedAcks := g.seedAcks.filter (fun q => !ackOf q seq), streamAcks := g.streamAcks.filter (fun q => !ackOf q seq),
      writeAcks := g.writeAcks.filter (fun w => !ackOf w.1 seq), buddyValid := g.buddyValid || seeded,
      takeAcks := g.takeAcks.filter (fun q => !ackOf q seq),
      takeSend := if (g.takeAcks.filter (fun q => !ackOf q seq)).isEmpty then none else g.takeSend })
    forEach rings s (fun s r =>
      if ((s.ctx x).gey.writeAcks).any (fun w => w.2 == r) then s
      else s.completeRing r stOk (((s.ring r).cur.map (fun a => a.payload.length / 4096)).getD 0)))

/-- A beat the standby acknowledged extends the lease (R294). -/
def State.beatAcked (s : State) (src seq : Nat) : State :=
  forEach (s.liveCtxs.filter (fun x => (s.ctx x).coord.active && (s.ctx x).coord.standby == src)) s (fun s x =>
    match (s.ctx x).coord.beatSent with
    | some b =>
      if b.1 = seq then
        let s := s.updCoord x (fun o => { o with ackedAt := b.2.1, ackedEnd := b.2.2 })
        (s.updPins (fun p => { p with interlockOut := p.interlockOut || s.cfg.coordInterlock })).coordAct x
      else s
    | none => s)

/-- What an ACK does once it counts: the message it names is no longer kept, a beat is answered, or a block is
acknowledged (R160, R294, R310). -/
def effAck (h : Hdr) (seqAcked : Nat) (s : State) : State :=
  let s := s.when h.echo (fun s => s.echoAll h.src)
  if h.srcEp = 16 then
    (s.updFab (fun f => { f with unacked := f.unacked.filter (fun u => !(u.m.dst == h.src && u.m.seq == seqAcked)) })).beatAcked h.src seqAcked
  else s.dataAck h.src seqAcked

/-- ACK (R160): counted on arrival, or at level CYCLE at its release tick (R237). -/
def execAck (h : Hdr) (seqAcked : Nat) (s : State) : Host.Outcome State Fault Refusal :=
  .next (
    let s := s.advanceTo h.stamp
    match s.releaseTick h with
    | some t => s.updFab (fun f => { f with held := f.held ++ [(t, .ack h seqAcked)] })
    | none => effAck h seqAcked (s.when (s.lateRelease h) State.markLate))

/-- NOT_READY (R161): the refused message is not retried before the hint has elapsed. -/
def execNotReady (h : Hdr) (hintUs seqRefused : Nat) (s : State) : Host.Outcome State Fault Refusal :=
  .next (
    let s := s.advanceTo h.stamp
    let s := s.when h.echo (fun s => s.echoAll h.src)
    s.updFab (fun f => { f with unacked := f.unacked.map (fun u =>
      if u.m.dst = h.src ∧ u.m.seq = seqRefused then { u with notBefore := s.time.loc + hintUs * 1000 } else u) }))

/-- CN_ECHO (R154, R155). -/
def execCnEcho (h : Hdr) (vc : Nat) (s : State) : Host.Outcome State Fault Refusal :=
  .next ((s.advanceTo h.stamp).echo h.src vc)

/-- LIMITER_INCREASE (Table 6.9): 16 units every 8,192 ns once 16,384 ns have passed since the last decrease; at full rate the
entry is freed first, so it goes. -/
def execLimiterIncrease (dst vc : Nat) (s : State) : Host.Outcome State Fault Refusal :=
  .next (
    let k := 8 * dst + vc
    match KMap.find s.fab.limiters k with
    | none => s
    | some l =>
      let r := min 1024 (l.rate + 16)
      s.updFab (fun f => { f with limiters := KMap.put f.limiters k { l with rate := r } }))

/-- CTRL_RETRANSMIT (R160): an unacknowledged message is sent again with the same SEQ, and the interval doubles up to 1,280 µs;
not before a NOT_READY hint has elapsed (R161). -/
def execCtrlRetransmit (dst ep seq : Nat) (s : State) : Host.Outcome State Fault Refusal :=
  .next (
    match s.fab.unacked.find? (fun u => u.m.dst == dst && u.m.ep == ep && u.m.seq == seq) with
    | none => s
    | some u =>
      if s.time.loc < u.notBefore then s
      else
        (s.updFab (fun f => { f with unacked := f.unacked.map (fun v =>
          if v.m.dst = dst ∧ v.m.ep = ep ∧ v.m.seq = seq then { v with intervalUs := min 1280 (2 * v.intervalUs) } else v) })).emit
          (.ctrl { u.m with copies := s.copies }))

end Sys2Proof.Machine
end

