-- ==== Sys2Proof/Machine/Coordinator.lean ====
section
/-!
DEFINITION. The job coordinator's beats, lease and take-over, probes and losses (11 R286, R293 to R298).
-/
namespace Sys2Proof.Machine

/-- COORD_BEAT_SEND: the active coordinator sends a beat with lease end E to its standby module (R293, Table 11.4), and holds INTERLOCK_OUT
high while it may issue, where the interlock is wired (R295). -/
def execCoordBeatSend (x : Nat) (s : State) : Host.Outcome State Fault Refusal :=
  .next (
    let c := s.ctx x
    let o := c.coord
    if !o.active ∨ o.standby = s.locus then s
    else
      let e := s.now + s.cfg.coordLeaseUs * 1000
      let s := s.when (s.cfg.coordInterlock && s.mayIssue x) (State.updPins · (fun p => { p with interlockOut := true }))
      let s := s.sendCtrl o.standby 0x60 0 0 (field e 64 0 + field o.epoch 32 160)
      let q := s.lastSeq o.standby
      s.updCoord x (fun o => { o with beatSent := some (q, s.time.loc, e) }))

/-- COORD_BEAT at the standby (R294): when it was heard and the lease it carries. Where the interlock is wired a module that beats
holds INTERLOCK_OUT high, which this module's INTERLOCK_IN shows (R295, log 40). -/
def effCoordBeat (h : Hdr) (leaseEnd epoch : Nat) (s : State) : State :=
  s.onJob h.src epoch (fun x s =>
    let s := s.when (s.cfg.coordInterlock && (s.ctx x).coordForm == 0)
      (State.updCal · (fun c => { c with interlockIn := true, interlockLowAt := none }))
    s.updCoord x (fun o => { o with heardAt := some s.time.loc, heardEnd := leaseEnd }))

def execCoordBeat (h : Hdr) (leaseEnd epoch : Nat) (s : State) : Host.Outcome State Fault Refusal :=
  .next (s.ctrlIn h (.coordBeat h leaseEnd epoch) (effCoordBeat h leaseEnd epoch))

/-- LEASE_END: R294 stops the active coordinator, which drives INTERLOCK_OUT low (R295). -/
def execLeaseEnd (x : Nat) (s : State) : Host.Outcome State Fault Refusal :=
  .next (if (s.ctx x).coord.active && !s.mayIssue x then s.updPins (fun p => { p with interlockOut := false }) else s)

/-- R294 permits the standby to act: a lease has passed locally since the last beat and its E on the fleet count. -/
def State.leaseOver (s : State) (x : Nat) : Bool :=
  let o := (s.ctx x).coord
  !o.active && (match o.heardAt with
    | some t => decide (t + s.cfg.coordLeaseUs * 1000 ≤ s.time.loc) && decide (o.heardEnd ≤ s.now)
    | none => false)

/-- INTERLOCK_IN allows a take-over: not wired, or low for 10 µs (R295). -/
def State.interlockFree (s : State) (x : Nat) : Bool :=
  !s.cfg.coordInterlock || (s.ctx x).coordForm == 1 ||
  (!s.cal.interlockIn && (match s.cal.interlockLowAt with | some t => decide (t + 10000 ≤ s.time.loc) | none => true))

/-- LEASE_EXPIRY: the standby takes over once R294 and R295 permit it (R296). -/
def execLeaseExpiry (x : Nat) (s : State) : Host.Outcome State Fault Refusal :=
  .next (if s.leaseOver x && s.interlockFree x then s.takeOver x else s)

/-- INTERLOCK_IN_FALL: the pin is low after its filter (R295). -/
def execInterlockInFall (s : State) : Host.Outcome State Fault Refusal :=
  .next (s.updCal (fun c => { c with interlockIn := false, interlockLowAt := some s.time.loc }))

/-- INTERLOCK_STUCK: INTERLOCK_IN stays high 2 ms beyond the permitted take-over; the standby takes over under R294 alone. -/
def execInterlockStuck (x : Nat) (s : State) : Host.Outcome State Fault Refusal :=
  .next (if s.leaseOver x && s.cfg.coordInterlock && s.cal.interlockIn then (s.setEvt .calHalf 0 23).takeOver x else s)

/-- TAKEOVER at a participant (R296, R297): the new coordinator is adopted and told the state of step C + 1. Its epoch, higher than the one
adopted, has stopped a former coordinator. -/
def effTakeover (h : Hdr) (newLocus epoch : Nat) (s : State) : State :=
  s.onJob h.src epoch (fun x s =>
    let s := s.updCtx x (fun c => { c with coordLocus := newLocus })
    let c := s.ctx x
    let hasL := c.launch.isSome
    s.sendCtrl newLocus 0x62 c.lastStep c.attempt
      (field c.attempt 4 0 + field (b2n c.confirmed) 1 4 + field (b2n c.faulted) 1 5 + field (b2n hasL) 1 6 +
        field (b2n (c.st == .held)) 1 7 + field (c.launch.getD 0) 64 64 + field c.adopted 32 160))

def execTakeover (h : Hdr) (newLocus epoch : Nat) (s : State) : Host.Outcome State Fault Refusal :=
  .next (s.ctrlIn h (.takeover h newLocus epoch) (effTakeover h newLocus epoch))

/-- TAKEOVER_STATE at the new coordinator (R296). -/
def effTakeoverState (h : Hdr) (t : TakeState) (s : State) : State :=
  match s.liveCtxs.find? (fun x => (s.ctx x).coord.takeover.isSome && (s.ctx x).pmap.contains h.src) with
  | none => s
  | some x =>
    (s.updCoord x (fun o => { o with takeover := o.takeover.map (fun l => l.filter (fun u => u.locus != t.locus) ++ [t]) })).settleTakeover x

def execTakeoverState (h : Hdr) (attempt : Nat) (confirmed faulted hasLaunch held : Bool) (launch epoch : Nat) (s : State) :
    Host.Outcome State Fault Refusal :=
  .next (s.ctrlIn h (.takeoverState h attempt confirmed faulted hasLaunch held launch epoch)
    (effTakeoverState h { locus := h.src, committed := h.step, attempt, confirmed, faulted, hasLaunch, held, launch }))

/-- TAKEOVER_STATE_TIMEOUT: a participant did not answer within CFG_COORD_PROBE_US and is lost (R296). -/
def execTakeoverStateTimeout (x locus : Nat) (s : State) : Host.Outcome State Fault Refusal :=
  .next (
    match (s.ctx x).coord.takeover with
    | none => s
    | some l =>
      if l.any (fun t => t.locus == locus) then s
      else
        let low := l.foldl (fun m t => min m t.committed) ((l.head?).elim (prevStep (s.ctx x).firstStep) (·.committed))
        ((s.updCoord x (fun o => { o with step := nextStep low })).declareLost x locus).settleTakeover x)

/-- PROBE at a participant (R286): PROBE_REPLY with the attempt, what it is doing and the recovery level in progress. -/
def effProbe (h : Hdr) (epoch : Nat) (s : State) : State :=
  s.onJob h.src epoch (fun x s =>
    let c := s.ctx x
    let recovering := !s.mem.refill.isEmpty || !c.gey.fetching.isEmpty || c.gey.takingFrom.isSome
    let st : Nat := if c.confirmed ∨ c.committed = some h.step then 2 else if recovering then 1 else if c.launched then 0 else 3
    let level : Nat := if !s.mem.refill.isEmpty then 3 else if recovering then 1 else 0
    s.sendCtrl h.src 0x64 h.step c.attempt (field c.attempt 4 0 + field st 4 4 + field level 3 8))

def execProbe (h : Hdr) (epoch : Nat) (s : State) : Host.Outcome State Fault Refusal :=
  .next (s.ctrlIn h (.probe h epoch) (effProbe h epoch))

/-- Ticks a level completes within (Table 11.1): 100 µs, 50 ms, 10 s; the other levels have no bound. -/
def levelBound (level : Nat) : Option Nat :=
  match level with | 2 => some 100000 | 3 => some 50000000 | 4 => some 10000000000 | _ => none

/-- PROBE_REPLY (R286): RECOVERING extends D(N) once by the level's bound; RUNNING by a quarter of DEADLINE_TICKS up to
CFG_COORD_EXTEND times, then the participant is lost; every other answer counts as RUNNING (log 32). A confirmation that came after D(N) may
be in time for the extended one. -/
def effProbeReply (h : Hdr) (status level : Nat) (s : State) : State :=
  match s.coordCtx h.src h.step with
  | none => s
  | some x =>
    let c := s.ctx x
    match KMap.find c.coord.probes h.src with
    | none => s
    | some p =>
      let put (s : State) (p : Probe) (more : Nat) : State :=
        (s.updCoord x (fun o => { o with probes := KMap.put o.probes h.src p, deadline := max o.deadline (o.passed + more) })).tryCommit x
      let q := { p with answered := true }
      match (if status = 1 ∧ !p.recovering then levelBound level else none) with
      | some b => put s { q with recovering := true } b
      | none =>
        if p.extends_ < s.cfg.coordExtend then put s { q with extends_ := p.extends_ + 1 } (c.dOffset / 4)
        else s.declareLost x h.src

def execProbeReply (h : Hdr) (attempt status level : Nat) (s : State) : Host.Outcome State Fault Refusal :=
  .next (s.ctrlIn h (.probeReply h attempt status level) (effProbeReply h status level))

/-- PROBE_TIMEOUT: no answer within CFG_COORD_PROBE_US, and the participant is lost (R286). -/
def execProbeTimeout (x locus : Nat) (s : State) : Host.Outcome State Fault Refusal :=
  .next (
    match KMap.find (s.ctx x).coord.probes locus with
    | none => s
    | some p => if p.answered then s else s.declareLost x locus)

/-- SELF_LOST at the coordinator (R20, R26): the sender is lost, in every job this module coordinates that it takes part in. -/
def effSelfLost (h : Hdr) (reason : Nat) (s : State) : State :=
  let s := s.record { code := 0x0410 + reason, sev := 3, srcType := 9, srcIndex := h.src, step := h.step, attempt := h.attempt, data := [h.src, 0] }
  forEach (s.liveCtxs.filter (fun x => (s.ctx x).coord.active && (s.ctx x).pmap.contains h.src)) s (fun s x => s.declareLost x h.src)

def execSelfLost (h : Hdr) (reason : Nat) (s : State) : Host.Outcome State Fault Refusal :=
  .next (s.ctrlIn h (.selfLost h reason) (effSelfLost h reason))

/-- RECOVERY_NOTICE (R286): the latest ready count bounds the next launch. -/
def effRecoveryNotice (h : Hdr) (ready : Nat) (s : State) : State :=
  match s.coordCtx h.src h.step with
  | none => s
  | some x => s.updCoord x (fun o => { o with ready := max o.ready ready })

def execRecoveryNotice (h : Hdr) (attempt ready : Nat) (s : State) : Host.Outcome State Fault Refusal :=
  .next (s.ctrlIn h (.recoveryNotice h attempt ready) (effRecoveryNotice h ready))

end Sys2Proof.Machine
end

