-- ==== Sys2Proof/Machine/GeyserOps.lean ====
section
/-!
DEFINITION. Geyser's operations: protected blocks (12 R303), copies sent as BULK (R309, R310), shards and manifests (R318,
R322 to R324, Tables 12.1 to 12.3), and the transfers of the shard protocol (R326 to R329).
-/
namespace Sys2Proof.Machine

/-! ### Protected blocks -/

/-- The image block keys of the protected logical cores in partitions that `keep` names (R303). -/
def Ctx.imageKeys (c : Ctx) (keep : Nat → Bool) : List Nat :=
  match c.prog with
  | none => []
  | some g => ((g.occupied.filter (fun cl => keep (clusterPart cl))).map (fun cl =>
      ((List.range 256).map (fun k => (List.range 6).map (fun i => 8 * (256 * cl + k) + i))).flatten)).flatten

/-- The committed content of an image block; one never captured is zero. -/
def Ctx.image (c : Ctx) (k : Nat) : PBlock :=
  KMap.getD c.gey.imgCommitted k { bytes := List.replicate 4096 0#8, check := blockCheck 0 (List.replicate 4096 0#8) }

/-- The near-store address an image block covers. -/
def imageAddr (k : Nat) : Nat := nearAddr (k / 8) (4096 * (k % 8))

/-- Every protected block of a context in ascending TENSOR_ID and block, image blocks last: tensor, block index, address,
check, bytes, as committed (R318). -/
def State.protectedBlocks (s : State) (x : Nat) (keep : Nat → Bool) : List (Nat × Nat × Nat × Nat × List Byte) :=
  let c := s.ctx x
  let ts := (c.persistent.filter (fun t => keep t.part)).foldl (fun (m : KMap Tensor) t => KMap.put m t.tensorId t) []
  (ts.map (fun e => (List.range e.2.blocks).map (fun b =>
      (e.2.tensorId, b, e.2.blockAddr b, (s.checkAt (e.2.blockAddr b)).value, s.readBytes (e.2.blockAddr b) 4096)))).flatten ++
  (c.imageKeys keep).map (fun k => (imageTensor, k, imageAddr k, (c.image k).check, (c.image k).bytes))

/-- Geyser reads or writes n blocks of a partition's HBM, 64 bursts each (04 R103, Table 4.7). -/
def State.geySlots (s : State) (p n : Nat) : State := s.bump .hbmGeySlots p (64 * n)

/-- Blocks sent to a module as BULK, ACK_REQ on every 64th and on the last: the state, and the SEQs awaiting ACK (R310). -/
def State.sendCopy (s : State) (x dst step attempt : Nat) (blocks : List (Nat × Nat × Nat × Nat × List Byte)) : State × List Nat :=
  let n := blocks.length
  blocks.zipIdx.foldl (fun (acc : State × List Nat) e =>
    let ack := (e.2 + 1) % 64 == 0 || e.2 + 1 == n
    let q := acc.1.fab.dataSeq
    let b := e.1
    let t := if addrLevel b.2.2.1 = 0 then acc.1.geySlots (addrPart b.2.2.1) 1 else acc.1
    (t.sendBlock x dst true b.1 b.2.2.1 b.2.2.2.1 b.2.2.2.2 step attempt ack, if ack then acc.2 ++ [q] else acc.2)) (s, [])

/-- The seed of the buddy, or a reseed of some partitions (R309, R315). -/
def State.seed (s : State) (x : Nat) (keep : Nat → Bool) : State :=
  let c := s.ctx x
  let r := s.sendCopy x c.gey.buddy c.lastStep 0 (s.protectedBlocks x keep)
  r.1.updGey x (fun g => { g with seedAcks := g.seedAcks ++ r.2, buddyValid := r.2.isEmpty })

/-! ### Streaming of the running step (R306, R310) -/

/-- The pending versions of tensors' blocks sent to the buddy; counted. -/
def State.stream (s : State) (x : Nat) (tensors : List Tensor) : State :=
  let c := s.ctx x
  if c.gey.buddy = s.locus then s
  else
    let blocks := (c.pend.filterMap (fun e =>
      match c.tensorAt e.1 with
      | some t => if tensors.any (fun u => u.tensorId == t.1.tensorId) then some (t.1.tensorId, t.2, e.1, e.2.check, e.2.bytes) else none
      | none => none))
    let r := s.sendCopy x c.gey.buddy c.step c.attempt blocks
    (r.1.bump .geyStream 0 blocks.length).updGey x (fun g => { g with streamAcks := g.streamAcks ++ r.2 })

/-- The protected tensors some operator of the step writes and every such operator has finished. -/
def Ctx.finished (c : Ctx) : List Tensor :=
  match c.prog with
  | none => []
  | some g => c.persistent.filter (fun t =>
      let ws := g.operators.filter (fun o => o.output == t.tensorId)
      !ws.isEmpty && ws.all (fun o => o.clusters.all (fun k => (KMap.getD c.exec.done o.opId []).contains k)))

/-- The image blocks that changed since the last commit are captured into pending image slots and streamed (R306). -/
def State.captureImages (s : State) (x : Nat) : State :=
  let c := s.ctx x
  let changed := (c.imageKeys (fun _ => true)).filterMap (fun k =>
    let b := s.readBytes (imageAddr k) 4096
    if sameBytes b (c.image k).bytes then none else some (k, ({ bytes := b, check := blockCheck 0 b } : PBlock)))
  let s := s.updCtx x (fun c => { c with
    exec := { c.exec with captured := true },
    gey := { c.gey with imgPending := changed.foldl (fun m e => KMap.put m e.1 e.2) c.gey.imgPending } })
  if c.gey.buddy = s.locus then s
  else
    let r := s.sendCopy x c.gey.buddy c.step c.attempt (changed.map (fun e => (imageTensor, e.1, imageAddr e.1, e.2.check, e.2.bytes)))
    (r.1.bump .geyStream 0 changed.length).updGey x (fun g => { g with streamAcks := g.streamAcks ++ r.2 })

/-! ### Shards and manifests -/

/-- The data of a record: narrowed where CFG_GEY_NARROW lists an FP32 tensor (R323), with its stored format. -/
def State.recordData (s : State) (x tensorId : Nat) (bytes : List Byte) : Nat × List Byte :=
  match (s.ctx x).tensor tensorId, s.cfg.narrowOf tensorId with
  | some t, some target =>
    if t.format = 0 then
      (target, packElems target ((List.range 1024).map (fun i => (convOut target .rne false (decodeElem 0 (unpackElem 0 bytes i))).1)))
    else (t.format, bytes)
  | some t, none => (t.format, bytes)
  | none, _ => (0, bytes)

/-- A shard record (Table 12.2). -/
def State.shardRecord (s : State) (x : Nat) (b : Nat × Nat × Nat × Nat × List Byte) : List Byte :=
  let d := s.recordData x b.1 b.2.2.2.2
  leBytes 4 b.1 ++ leBytes 4 b.2.1 ++ leBytes 8 b.2.2.2.1 ++ leBytes 1 d.1 ++ leBytes 3 0 ++ leBytes 4 d.2.length ++
  leBytes 4 (crc32c d.2).toNat ++ d.2

/-- Pieces of a list, at most n long. -/
def chunks {α : Type} (n : Nat) : Nat → List α → List (List α)
  | 0, _ => []
  | k + 1, l => if l.isEmpty then [] else l.take n :: chunks n k (l.drop n)

/-- The shards of a context's committed copy: partition, index, bytes, record count, block keys (R318, R322, Table 12.1). -/
def State.shards (s : State) (x step : Nat) : List (Nat × Nat × List Byte × Nat × List Nat) :=
  let c := s.ctx x
  let groups := ((maskParts c.mask).map (fun p =>
    let bs := s.protectedBlocks x (fun q => q == p)
    (chunks 65536 (bs.length + 1) bs).map (fun g => (p, g)))).flatten
  groups.zipIdx.map (fun e =>
    let recs := (e.1.2.map (s.shardRecord x)).flatten
    let head := leBytes 4 0x31485347 ++ leBytes 2 1 ++ leBytes 2 arithRev ++ leBytes 4 c.jobId ++ leBytes 6 step ++ leBytes 1 e.1.1 ++
      leBytes 1 0 ++ leBytes 4 (s.indexOf x) ++ leBytes 4 e.2 ++ leBytes 4 e.1.2.length ++ leBytes 8 (64 + recs.length) ++ leBytes 24 0
    (e.1.1, e.2, head ++ recs, e.1.2.length, e.1.2.map (fun b => blockKey b.1 b.2.1)))

/-- The manifest (Table 12.3) of a checkpoint. -/
def State.manifest (s : State) (x : Nat) (k : CkptRun) : List Byte :=
  let c := s.ctx x
  let cal := calOf s.cfg.epochSec k.commitTick
  leBytes 4 0x31464D47 ++ leBytes 2 1 ++ leBytes 2 arithRev ++ leBytes 4 c.jobId ++ leBytes 6 k.step ++ leBytes 1 k.commitAttempt ++
  leBytes 1 (b2n k.narrowed) ++ leBytes 4 s.locus ++ leBytes 4 (s.indexOf x) ++ leBytes 4 c.participants ++ c.resultKey ++
  fitBytes 32 c.progDigest ++ leBytes 8 k.stateSum ++ leBytes 8 k.commitTick ++ leBytes 8 cal.1 ++ leBytes 4 cal.2 ++
  leBytes 4 k.entries.length ++ leBytes 128 0 ++ (k.entries.map (·.2)).flatten

/-! ### The shard protocol -/

/-- The edge port that holds the Geyser role (R201), the first of them (log 35). -/
def State.rolePort (s : State) (role : Nat) : Option Nat :=
  ((List.range 4).find? (fun k => (s.cfg.edgeRole k).testBit role && (s.port (32 + k)).st == .up && (s.port (32 + k)).hasAddr)).map (32 + ·)

/-- A datagram of the protocol (Table 12.4), in network byte order. -/
def shardHeader (type handle offset jobId part shard status window : Nat) : List Byte :=
  beBytes 2 0x4753 ++ beBytes 1 1 ++ beBytes 1 type ++ beBytes 4 handle ++ beBytes 8 offset ++ beBytes 4 jobId ++ beBytes 4 part ++
  beBytes 4 shard ++ beBytes 2 status ++ beBytes 2 window

/-- Send a datagram of a transfer; without an edge port of the role nothing leaves. -/
def State.shardSend (s : State) (h : Nat) (v : Xfer) (type offset status : Nat) (payload : List Byte) : State :=
  match s.rolePort 0 with
  | none => s
  | some p => s.emit (.datagram p (s.cfg.gwAddr v.gateway) (s.cfg.gwPort v.gateway) s.cfg.geyUdpPort
      (shardHeader type h offset v.jobId v.participant v.shard status (if v.writing then 0 else 64) ++ payload))

def State.updXfer (s : State) (h : Nat) (f : Xfer → Xfer) : State :=
  s.updGeyser (fun y => { y with xfers := y.xfers.map (fun e => if e.1 = h then (h, f e.2) else e) })

/-- DATA of a writing transfer up to its window, `fuel` datagrams at most; bytes sent to gateways are counted (R327). -/
def State.pump : Nat → State → Nat → State
  | 0, s, _ => s
  | n + 1, s, h =>
    match KMap.find s.gey.xfers h with
    | none => s
    | some v =>
      if v.phase ≠ 1 ∨ v.total ≤ v.sent ∨ v.window * 8192 ≤ v.sent - v.acked then s
      else
        let d := slice v.object v.sent 8192
        let s := (s.shardSend h v 3 v.sent 0 d).bump .geyCkptBytes 0 d.length
        State.pump n (s.updXfer h (fun v => { v with sent := v.sent + d.length })) h

/-- OPEN or FETCH of a transfer (Table 12.5). -/
def State.shardOpen (s : State) (h : Nat) (v : Xfer) : State :=
  if v.writing then
    s.shardSend h v 1 0 0 (beBytes 8 v.step ++ beBytes 8 v.total ++ beBytes 4 s.locus ++ beBytes 2 arithRev ++ beBytes 10 0)
  else s.shardSend h v 7 0 0 (beBytes 8 v.step)

/-- The first gateway from `g` up that is not down, skipping those tried. -/
def State.nextGateway (s : State) (g : Nat) (tried : List Nat) : Option Nat :=
  let n := s.cfg.geyGwCount
  ((List.range n).map (fun i => (g + i) % n)).find? (fun k => !s.gey.gwDown.contains k && !tried.contains k)

/-- Start a transfer under a new HANDLE. -/
def State.startXfer (s : State) (v : Xfer) : State :=
  let h := s.gey.nextHandle
  let v := { v with phase := 0, acked := 0, sent := 0, window := 0, rtoUs := s.cfg.geyRtoUs, timeouts := 0, sinceDack := 0 }
  let s := s.updGeyser (fun y => { y with xfers := KMap.put y.xfers h v, nextHandle := (h + 1) % 2 ^ 32 })
  s.shardOpen h v

def State.endXfer (s : State) (h : Nat) : State := s.updGeyser (fun y => { y with xfers := KMap.del y.xfers h })

def xferOf (ctx : Nat) (writing : Bool) (gw jobId part shard step : Nat) (object : List Byte) (p records : Nat) (keys : List Nat) : Xfer :=
  { ctx, writing, gateway := gw, jobId, participant := part, shard, step, phase := 0, object, total := object.length, digest := [],
    acked := 0, sent := 0, window := 0, rtoUs := 0, timeouts := 0, sinceDack := 0, partition := p, records, keys }

/-- Open what a checkpoint has left, at most CFG_GEY_STREAMS transfers at once: shards, then the manifest's copies (R328, R329). -/
def State.feedCkpt : Nat → State → Nat → State
  | 0, s, _ => s
  | n + 1, s, x =>
    let c := s.ctx x
    match c.gey.ckpt with
    | none => s
    | some k =>
      if s.cfg.geyStreams ≤ s.gey.xfers.length then s
      else
        let px := s.indexOf x
        match k.shards with
        | e :: more =>
          match s.nextGateway ((px + e.2.1) % max 1 s.cfg.geyGwCount) [] with
          | none => s
          | some g =>
            let s := (s.geySlots e.1 e.2.2.2.1).updGey x (fun q => { q with ckpt := some { k with shards := more } })
            State.feedCkpt n (s.startXfer (xferOf x true g c.jobId px e.2.1 k.step e.2.2.1 e.1 e.2.2.2.1 e.2.2.2.2)) x
        | [] =>
          if k.unstored ≠ 0 then s
          else
            let left := if k.manifestOpen then k.manifestLeft
              else if 2 ≤ s.cfg.geyGwCount then [px % s.cfg.geyGwCount, (px + 1) % s.cfg.geyGwCount] else [0]
            let busy (g : Nat) : Nat := (s.gey.xfers.filter (fun e => e.2.ctx == x && e.2.writing && e.2.shard == 0xFFFFFFFF && e.2.gateway == g)).length
            let s := s.updGey x (fun q => { q with ckpt := some { k with manifestOpen := true, manifestLeft := left } })
            match left.find? (fun g => decide (busy g < left.count g)) with
            | none => s
            | some g => State.feedCkpt n (s.startXfer (xferOf x true g c.jobId px 0xFFFFFFFF k.step (s.manifest x k) 0 0 [])) x

/-- A transfer restarts from offset 0 under a new HANDLE at another gateway (R327); a copy of the manifest is then awaited there. -/
def State.moveXfer (s : State) (h : Nat) (v : Xfer) (g : Nat) : State :=
  let s := if v.writing && v.shard == 0xFFFFFFFF then
      s.updGey v.ctx (fun q => { q with ckpt := q.ckpt.map (fun k => { k with manifestLeft := k.manifestLeft.erase v.gateway ++ [g] }) })
    else s
  (s.endXfer h).startXfer { v with gateway := g, object := if v.writing then v.object else [] }

/-- A checkpoint ends: pins go, GEY_CKPT_DONE tells the coordinator (R320). -/
def State.ckptEnd (s : State) (x step status : Nat) : State :=
  let s := s.updGeyser (fun y => { y with xfers := y.xfers.filter (fun e => !(e.2.ctx == x && e.2.writing)) })
  let s := s.updGey x (fun g => { g with ckpt := none, pins := [], pinWait := [] })
  let s := if status = 1 then (s.bump .geyCkptFail 0).setEvt .geyStatus 0 27 else s
  s.sendCtrl (s.ctx x).coordLocus 0x48 step 0 status

/-! ### Restoring (R324, R325) -/

/-- The restore ends for this participant: GEY_RESTORED with a status and the STATE_SUM. -/
def State.restoreEnd (s : State) (x status sum : Nat) : State :=
  let k := ((s.ctx x).gey.restore.map (·.step)).getD 0
  let s := s.updGeyser (fun y => { y with xfers := y.xfers.filter (fun e => !(e.2.ctx == x && !e.2.writing)) })
  let s := s.updGey x (fun g => { g with restore := none, restored := if status = 0 then some k else g.restored })
  s.sendCtrl (s.ctx x).coordLocus 0x4A k 0 (field status 8 0 + field sum 64 64)

/-- Widen a narrowed record to FP32 exactly (R324). -/
def widen (fmt : Nat) (d : List Byte) : List Byte :=
  packElems 0 ((List.range 1024).map (fun i => (convOut 0 .rne true (decodeElem fmt (unpackElem fmt d i))).1))

/-- The records of a shard after its header: key and block, none where a check fails (R325). -/
def shardBlocks (code : Nat → Nat) : Nat → List Byte → Option (List (Nat × PBlock))
  | 0, _ => some []
  | n + 1, bs =>
    let t := leAt bs 0 4
    let fmt := leAt bs 16 1
    let len := leAt bs 20 4
    let d := slice bs 32 len
    if d.length ≠ len ∨ (crc32c d).toNat ≠ leAt bs 24 4 then none
    else
      let b := if len = 4096 then d else widen fmt d
      let chk := if len = 4096 then leAt bs 8 8 else blockCheck 0 b
      if len = 4096 ∧ blockCheck (code t) b ≠ chk then none
      else (shardBlocks code n (bs.drop (32 + len))).map ((blockKey t (leAt bs 4 4), { bytes := b, check := chk }) :: ·)

/-- Open the shards a restore has left. -/
def State.feedRestore : Nat → State → Nat → State
  | 0, s, _ => s
  | n + 1, s, x =>
    match (s.ctx x).gey.restore with
    | none => s
    | some r =>
      if s.cfg.geyStreams ≤ s.gey.xfers.length then s
      else match r.left with
        | [] => s
        | e :: more =>
          let s := s.updGey x (fun q => { q with restore := some { r with left := more, running := r.running + 1 } })
          let v := xferOf x false e.2.2.1 r.jobId (s.indexOf x) e.1 r.step [] e.2.1 0 []
          State.feedRestore n (s.startXfer { v with digest := e.2.2.2 }) x

end Sys2Proof.Machine
end

