-- ==== Sys2Proof/Machine/Geyser.lean ====
section
/-!
DEFINITION. The Geyser commands (12 R303 to R332): binding a buddy and seeding it, spares and take-overs, reseeds and
fetches, checkpoints and restores, the shard protocol, and the blocks that arrive on BULK.
-/
namespace Sys2Proof.Machine

/-! ### Binding (R309) -/

/-- The context of a job that may hold a copy. -/
def State.jobById (s : State) (jobId : Nat) : Option Nat :=
  s.liveCtxs.find? (fun x =>
    let c := s.ctx x
    c.jobId == jobId && (c.st == .armed || c.st == .running || c.st == .held))

/-- A bind is accepted unless no such context exists, it holds another partner's copy, or it comes from this module (R309). -/
def effGeyBind (h : Hdr) (jobId : Nat) (s : State) : State :=
  let other (x : Nat) : Bool := match (s.ctx x).gey.partner with | some p => p.locus != h.src | none => false
  let answer (s : State) (ok : Bool) : State := s.sendCtrl h.src 0x41 0 0 (b2n ok + field jobId 32 32)
  match s.jobById jobId with
  | none => answer s false
  | some x =>
    if h.src = s.locus ∨ other x then answer s false
    else
      let keep := (s.ctx x).gey.partner.getD { locus := h.src, committed := [], pending := [], seeded := false, withheld := [] }
      answer (s.updGey x (fun g => { g with partner := some keep })) true

def execGeyBind (h : Hdr) (jobId : Nat) (s : State) : Host.Outcome State Fault Refusal :=
  .next (s.ctrlIn h (.geyBind h jobId) (effGeyBind h jobId))

/-- An accepted bind is followed by the seed of every protected block (R309). -/
def effGeyBindReply (h : Hdr) (accepted : Bool) (jobId : Nat) (s : State) : State :=
  match s.jobById jobId with
  | none => s
  | some x =>
    if !accepted || (s.ctx x).gey.bound || (s.ctx x).gey.buddy != h.src then s
    else (s.updGey x (fun g => { g with bound := true, bindSince := none })).seed x (fun _ => true)

def execGeyBindReply (h : Hdr) (accepted : Bool) (jobId : Nat) (s : State) : Host.Outcome State Fault Refusal :=
  .next (s.ctrlIn h (.geyBindReply h accepted jobId) (effGeyBindReply h accepted jobId))

/-- Ten milliseconds after a bind that is not accepted it is repeated. -/
def execGeyBindRetry (x : Nat) (s : State) : Host.Outcome State Fault Refusal :=
  let c := s.ctx x
  .next (if c.st = .empty ∨ c.gey.bound ∨ c.gey.bindSince.isNone ∨ c.gey.buddy = s.locus then s else s.bind x)

/-- A bind unaccepted 10 s after CTX_ARM sets BIND_EVT. -/
def execGeyBindTimeout (x : Nat) (s : State) : Host.Outcome State Fault Refusal :=
  let c := s.ctx x
  .next (if c.st = .empty ∨ c.gey.bound ∨ c.gey.bindSince.isNone ∨ c.gey.buddy = s.locus then s else s.setEvt .geyStatus 0 28)

/-! ### Spares and take-overs (R312 to R314) -/

/-- A spare announces itself; the coordinator modules keep spares in the order of arrival (R313). -/
def effGeySpareReady (h : Hdr) (jobId : Nat) (s : State) : State :=
  match s.jobById jobId with
  | none => s
  | some x => s.updCoord x (fun o => if o.spares.contains h.src then o else { o with spares := o.spares ++ [h.src] })

def execGeySpareReady (h : Hdr) (jobId : Nat) (s : State) : Host.Outcome State Fault Refusal :=
  .next (s.ctrlIn h (.geySpareReady h jobId) (effGeySpareReady h jobId))

/-- The tensor, block index, address, check and bytes of copied blocks. -/
def Ctx.copyBlocks (c : Ctx) (m : KMap PBlock) : List (Nat × Nat × Nat × Nat × List Byte) :=
  m.map (fun e =>
    let t := e.1 / 2 ^ 32
    let b := e.1 % 2 ^ 32
    let a := match c.tensor t with | some d => d.blockAddr b | none => nearAddr (b / 8) (4096 * (b % 8))
    (t, b, a, e.2.check, e.2.bytes))

/-- GEY_TAKE at the holder of the lost module's copy: its pool of that copy is discarded and the committed part goes to the
spare from its first block; a second GEY_TAKE restarts it (R312). -/
def effGeyTake (h : Hdr) (lost spare epoch : Nat) (s : State) : State :=
  s.onJob h.src epoch (fun x s =>
    let c := s.ctx x
    match c.gey.partner with
    | none => s
    | some p =>
      if p.locus ≠ lost ∧ p.locus ≠ spare then s
      else
        let s := s.updGey x (fun g => { g with partner := some { p with locus := spare, pending := [] } })
        let r := s.sendCopy x spare h.step 0 (c.copyBlocks p.committed)
        (r.1.updGey x (fun g => { g with takeSend := if r.2.isEmpty then none else some (lost, spare), takeAcks := r.2 })).bump .geyTakeover 0)

def execGeyTake (h : Hdr) (lost spare epoch : Nat) (s : State) : Host.Outcome State Fault Refusal :=
  .next (s.ctrlIn h (.geyTake h lost spare epoch) (effGeyTake h lost spare epoch))

/-- The spare has the whole copy: near stores reload, GEY_TAKE_DONE carries STATE_SUM; a copy that took longer than 8 s sets
TAKEOVER_SLOW_EVT (R312, R314). -/
def execTakeCopyComplete (x : Nat) (s : State) : Host.Outcome State Fault Refusal :=
  match (s.ctx x).gey.takeStart with
  | none => .next s
  | some t0 =>
    let s := (s.reloadImages x).bump .geyTakeover 0
    let s := if 8000000000 < s.time.loc - t0 then s.setEvt .geyStatus 0 25 else s
    let sum := s.stateSum x
    let s := s.updCtx x (fun c => { c with stateSum := sum, gey := { c.gey with
      buddy := c.gey.takingFrom.getD c.gey.buddy, bound := true, buddyValid := true, takeStart := none, takingFrom := none, bindSince := none } })
    .next (s.sendCtrl (s.ctx x).coordLocus 0x44 (s.ctx x).lastStep 0 (field sum 64 64))

/-- GEY_TAKE_DONE at the coordinator: the take-over by that spare is complete (R312, R316). -/
def effGeyTakeDone (h : Hdr) (s : State) : State :=
  match s.coordCtx h.src (nextStep h.step) with
  | none => s
  | some x => s.updCoord x (fun o => { o with taking := o.taking.filter (fun e => e.2 != h.src) })

def execGeyTakeDone (h : Hdr) (stateSum : Nat) (s : State) : Host.Outcome State Fault Refusal :=
  .next (s.ctrlIn h (.geyTakeDone h stateSum) (effGeyTakeDone h))

/-! ### Reseeds and fetches (R315) -/

/-- The buddy lost the copies of some partitions: their committed blocks are sent again. -/
def effGeyReseed (h : Hdr) (mask : Nat) (s : State) : State :=
  match s.liveCtxs.find? (fun x => (s.ctx x).gey.buddy == h.src && decide (3 ≤ (s.ctx x).st.code)) with
  | none => s
  | some x => (s.bump .geyReseed 0).seed x (fun p => mask.testBit p)

def execGeyReseed (h : Hdr) (mask : Nat) (s : State) : Host.Outcome State Fault Refusal :=
  .next (s.ctrlIn h (.geyReseed h mask) (effGeyReseed h mask))

/-- The holder answers with the block of the committed part of the copy, with ACK_REQ. -/
def effGeyFetch (h : Hdr) (tensorId block : Nat) (s : State) : State :=
  let held (x : Nat) : Option PBlock := match (s.ctx x).gey.partner with
    | some p => if p.locus = h.src then KMap.find p.committed (blockKey tensorId block) else none
    | none => none
  match s.liveCtxs.find? (fun x => (held x).isSome) with
  | none => s
  | some x => match held x with
    | none => s
    | some b => (s.sendCopy x h.src h.step 0 ((s.ctx x).copyBlocks [(blockKey tensorId block, b)])).1

def execGeyFetch (h : Hdr) (tensorId block : Nat) (s : State) : Host.Outcome State Fault Refusal :=
  .next (s.ctrlIn h (.geyFetch h tensorId block) (effGeyFetch h tensorId block))

/-! ### Checkpoints (R317 to R323) -/

/-- The entries of CFG_GEY_NARROW in use name a PERSISTENT FP32 tensor of the program, or are ignored (R323). -/
def State.narrowValid (s : State) (x t : Nat) : Bool :=
  match (s.ctx x).tensor t with
  | some d => d.persistent && d.format == 0
  | none => false

/-- GEY_CKPT(N): the committed slots of every protected block are pinned and the shards go out (R318); with no gateway it has
FAILED (R320); a checkpoint already running, or a step no longer the committed one, is SKIPPED. -/
def effGeyCkpt (h : Hdr) (epoch : Nat) (s : State) : State :=
  s.onJob h.src epoch (fun x s =>
    let c := s.ctx x
    if c.gey.ckpt.isSome ∨ c.lastStep ≠ h.step then s.sendCtrl c.coordLocus 0x48 h.step 0 2
    else if s.cfg.geyGwCount = 0 then s.ckptEnd x h.step 1
    else
      let used := (List.range 32).filterMap (fun n => if (s.cfg.narrow n).1 = 0 then none else some (s.cfg.narrow n).1)
      let s := if used.all (s.narrowValid x) then s else s.setEvt .geyStatus 0 24
      let shards := s.shards x h.step
      let run : CkptRun := {
        step := h.step, since := s.time.loc, shards, unstored := shards.length, entries := [], manifestLeft := [], manifestOpen := false,
        narrowed := used.any (s.narrowValid x), stateSum := s.stateSum x, commitTick := c.commitTick, commitAttempt := c.commitAttempt }
      let s := s.updGey x (fun g => { g with ckpt := some run, pins := [], pinWait := (shards.map (fun e => e.2.2.2.2)).flatten })
      State.feedCkpt 80 s x)

def execGeyCkpt (h : Hdr) (epoch : Nat) (s : State) : Host.Outcome State Fault Refusal :=
  .next (s.ctrlIn h (.geyCkpt h epoch) (effGeyCkpt h epoch))

/-- GEY_CKPT_DONE at the coordinator: a checkpoint is complete when every participant has STORED it (R317). -/
def effGeyCkptDone (h : Hdr) (status : Nat) (s : State) : State :=
  match s.coordCtx h.src (nextStep h.step) with
  | none => s
  | some x => s.updCoord x (fun o =>
    match o.ckpt with
    | none => o
    | some (n, l) =>
      if n ≠ h.step ∨ l.any (fun e => e.1 == h.src) then o
      else
        let l := l ++ [(h.src, status)]
        if (s.ctx x).pmap.any (fun p => !l.any (fun e => e.1 == p)) then { o with ckpt := some (n, l) }
        else { o with ckpt := none, ckptComplete := if l.all (fun e => e.2 == 0) then some n else o.ckptComplete })

def execGeyCkptDone (h : Hdr) (status : Nat) (s : State) : Host.Outcome State Fault Refusal :=
  .next (s.ctrlIn h (.geyCkptDone h status) (effGeyCkptDone h status))

/-- A checkpoint not stored within CFG_GEY_CKPT_TIMEOUT_S has FAILED (R320). -/
def execCkptTimeout (x : Nat) (s : State) : Host.Outcome State Fault Refusal :=
  .next (match (s.ctx x).gey.ckpt with
    | none => s
    | some k => s.ckptEnd x k.step 1)

/-! ### Restores (R325) -/

/-- The FETCH of a manifest from a gateway. -/
def State.fetchManifest (s : State) (x g jobId k : Nat) : State :=
  s.startXfer (xferOf x false g jobId (s.indexOf x) 0xFFFFFFFF k [] 0 0 [])

/-- GEY_RESTORE(K): the pending step is discarded and the manifest asked for at gateway x mod G and on (R325, R329). -/
def effGeyRestore (h : Hdr) (jobId epoch : Nat) (s : State) : State :=
  s.onJob h.src epoch (fun x s =>
    let s := (s.discard x).updGey x (fun g => { g with
      restore := some { step := h.step, jobId, manifest := none, left := [], running := 0, tried := [], triedBy := [], blocks := [] } })
    match s.nextGateway (s.indexOf x % max 1 s.cfg.geyGwCount) [] with
    | none => s.restoreEnd x 1 0
    | some g => s.fetchManifest x g jobId h.step)

def execGeyRestore (h : Hdr) (jobId epoch : Nat) (s : State) : Host.Outcome State Fault Refusal :=
  .next (s.ctrlIn h (.geyRestore h jobId epoch) (effGeyRestore h jobId epoch))

/-- Write restored or received blocks into the committed copy. -/
def State.placeBlock (s : State) (x k : Nat) (b : PBlock) : State :=
  match (s.ctx x).tensor (k / 2 ^ 32) with
  | some t =>
    let a := t.blockAddr (k % 2 ^ 32)
    (s.writeBytes a b.bytes).setCheck a { mass := b.check / 2 ^ 32, crc := b.check % 2 ^ 32, poison := false, invalid := false }
  | none => s.updGey x (fun g => { g with imgCommitted := KMap.put g.imgCommitted (k % 2 ^ 32) b })

/-- Every shard is in and verified: the committed copy is written as of K, the buddy is reseeded, GEY_RESTORED carries the
STATE_SUM of the restored copy (R325). -/
def execRestoreComplete (x : Nat) (s : State) : Host.Outcome State Fault Refusal :=
  match (s.ctx x).gey.restore with
  | none => .next s
  | some r =>
    if r.manifest.isNone ∨ !r.left.isEmpty ∨ r.running ≠ 0 then .next s
    else
      let s := forEach r.blocks s (fun s e => s.placeBlock x e.1 e.2)
      let s := s.reloadImages x
      let sum := s.stateSum x
      let s := s.updCtx x (fun c => { c with committed := some r.step, step := nextStep r.step, attempt := 0, stateSum := sum })
      let s := if (s.ctx x).gey.buddy = s.locus ∨ !(s.ctx x).gey.bound then s else s.seed x (fun _ => true)
      .next (s.restoreEnd x 0 sum)

/-- GEY_RESTORED at the coordinator: when every participant has restored K, a held job is launched at K + 1, and a job not yet
started may start (R325). A participant that failed leaves the job held. -/
def effGeyRestored (h : Hdr) (status : Nat) (s : State) : State :=
  let mine := s.liveCtxs.find? (fun x => match (s.ctx x).coord.restore with | some (k, _, _) => k == h.step && (s.ctx x).coord.active | none => false)
  match mine with
  | none => s
  | some x =>
    match (s.ctx x).coord.restore with
    | none => s
    | some (k, j, l) =>
      if status ≠ 0 ∨ l.any (fun e => e.1 == h.src) then s
      else
        let l := l ++ [(h.src, 0)]
        let s := s.updCoord x (fun o => { o with restore := some (k, j, l) })
        if !(s.ctx x).coord.started then s.tryStart x
        else if (s.ctx x).pmap.any (fun p => !l.any (fun e => e.1 == p)) then s
        else (s.updCoord x (fun o => { o with restore := none, stepHeld := none })).resumeJob x |>.2

def execGeyRestored (h : Hdr) (status stateSum : Nat) (s : State) : Host.Outcome State Fault Refusal :=
  .next (s.ctrlIn h (.geyRestored h status stateSum) (effGeyRestored h status))

/-! ### The shard protocol (R326 to R329) -/

/-- A datagram of version 1 for a transfer the module has open. -/
def State.onXfer (s : State) (m : ShardMsg) (f : Xfer → State → State) : State :=
  match KMap.find s.gey.xfers m.handle with
  | none => s
  | some v => if m.version = 1 then f v s else s

/-- OPEN_REPLY: OK opens the window, BUSY waits the delay the gateway names, REFUSED goes to the next gateway up. -/
def execOpenReply (m : ShardMsg) (s : State) : Host.Outcome State Fault Refusal :=
  .next (s.onXfer m (fun v s =>
    if !v.writing || v.phase != 0 then s
    else match m.status with
      | 0 => State.pump 4096 (s.updXfer m.handle (fun v => { v with phase := 1, window := m.window, timeouts := 0 })) m.handle
      | 1 => s.updXfer m.handle (fun v => { v with phase := 3 })
      | _ =>
        match s.nextGateway (v.gateway + 1) [v.gateway] with
        | none => s
        | some g => s.moveXfer m.handle v g))

/-- After a BUSY delay the transfer is opened again. -/
def execBusyRetryDelayExpiry (handle : Nat) (s : State) : Host.Outcome State Fault Refusal :=
  .next (match KMap.find s.gey.xfers handle with
    | none => s
    | some v => if v.phase ≠ 3 then s else (s.updXfer handle (fun v => { v with phase := 0 })).shardOpen handle v)

/-- DACK: the window moves on; when every byte is acknowledged CLOSE carries the object's SHA-256 (R327, R328). -/
def execDack (m : ShardMsg) (s : State) : Host.Outcome State Fault Refusal :=
  .next (s.onXfer m (fun v s =>
    if !v.writing || v.phase != 1 || decide (v.sent < m.offset) then s
    else
      let adv := decide (v.acked < m.offset)
      let s := s.updXfer m.handle (fun v => { v with
        acked := max v.acked m.offset, window := m.window, timeouts := if adv then 0 else v.timeouts,
        rtoUs := if adv then s.cfg.geyRtoUs else v.rtoUs })
      if v.total ≤ m.offset then
        (s.updXfer m.handle (fun v => { v with phase := 2 })).shardSend m.handle v 5 v.total 0 (sha256 v.object)
      else State.pump 4096 s m.handle))

/-- A stored manifest copy, or a stored shard with its manifest entry (Table 12.3). -/
def State.storedXfer (s : State) (v : Xfer) : State :=
  match (s.ctx v.ctx).gey.ckpt with
  | none => s
  | some k =>
    if v.shard = 0xFFFFFFFF then
      let left := k.manifestLeft.erase v.gateway
      let s := s.updGey v.ctx (fun g => { g with ckpt := some { k with manifestLeft := left } })
      if left.isEmpty then s.ckptEnd v.ctx k.step 0 else State.feedCkpt 80 s v.ctx
    else
      let entry := leBytes 4 v.shard ++ leBytes 1 v.partition ++ leBytes 1 v.gateway ++ leBytes 2 0 ++ leBytes 8 v.total ++
        leBytes 4 v.records ++ leBytes 12 0 ++ sha256 v.object
      let s := s.updGey v.ctx (fun g => { g with
        ckpt := some { k with unstored := k.unstored - 1, entries := KMap.put k.entries v.shard entry }
        pinWait := g.pinWait.filter (fun b => !v.keys.contains b), pins := g.pins.filter (fun e => !v.keys.contains e.1) })
      State.feedCkpt 80 s v.ctx

/-- CLOSE_REPLY: STORED ends the transfer; DIGEST_MISMATCH sends the object again under a new HANDLE (R328). -/
def execCloseReply (m : ShardMsg) (s : State) : Host.Outcome State Fault Refusal :=
  .next (s.onXfer m (fun v s =>
    if !v.writing || v.phase != 2 then s
    else if m.status = 0 then (s.endXfer m.handle).storedXfer v
    else (s.endXfer m.handle).startXfer v))

/-- The object of a reading transfer is not at this gateway: the next one is asked; none left is NOT_FOUND (R325, R329). -/
def State.nextSource (s : State) (h : Nat) (v : Xfer) (status : Nat) : State :=
  let s := s.endXfer h
  match (s.ctx v.ctx).gey.restore with
  | none => s
  | some r =>
    let tried := v.gateway :: (if v.shard = 0xFFFFFFFF then r.tried else KMap.getD r.triedBy v.shard [])
    let s := s.updGey v.ctx (fun g => { g with restore := some (if v.shard = 0xFFFFFFFF then { r with tried }
                                                                  else { r with triedBy := KMap.put r.triedBy v.shard tried }) })
    let from_ := if v.shard = 0xFFFFFFFF then v.gateway + 1 else 0
    match s.nextGateway from_ tried with
    | some g => s.startXfer { v with gateway := g, object := [] }
    | none => s.restoreEnd v.ctx status 0

/-- FETCH_REPLY: the length and digest of the object, then its data; NOT_FOUND tries the next gateway. -/
def execFetchReply (m : ShardMsg) (s : State) : Host.Outcome State Fault Refusal :=
  .next (s.onXfer m (fun v s =>
    if v.writing || v.phase != 0 then s
    else if m.status ≠ 0 then s.nextSource m.handle v 1
    else s.updXfer m.handle (fun v => { v with
      phase := 1, total := beNat (slice m.payload 0 8), timeouts := 0,
      digest := if v.shard = 0xFFFFFFFF then slice m.payload 8 32 else v.digest })))

/-- The entries of a manifest: shard, partition, gateway, digest. -/
def manifestEntries (m : List Byte) : List (Nat × Nat × Nat × List Byte) :=
  (List.range (leAt m 124 4)).map (fun e =>
    let b := slice m (256 + 64 * e) 64
    (leAt b 0 4, leAt b 4 1, leAt b 5 1, slice b 32 32))

/-- An object has arrived whole and its SHA-256 agrees (R325 steps 1 to 3, R328). -/
def State.objectRead (s : State) (h : Nat) (v : Xfer) (object : List Byte) : State :=
  let x := v.ctx
  match (s.ctx x).gey.restore with
  | none => s.endXfer h
  | some r =>
    if v.shard = 0xFFFFFFFF then
      let s := s.endXfer h
      if leAt object 6 2 ≠ arithRev then s.restoreEnd x 3 0
      else if slice object 64 32 ≠ fitBytes 32 (s.ctx x).progDigest then s.restoreEnd x 2 0
      else
        let s := s.updGey x (fun g => { g with restore := some { r with manifest := some object, left := manifestEntries object } })
        State.feedRestore 80 s x
    else
      let code (t : Nat) : Nat := (((s.ctx x).tensor t).map (·.format)).getD 0
      match shardBlocks code (leAt object 28 4) (object.drop 64) with
      | none => s.nextSource h v 2
      | some bs =>
        let s := (s.endXfer h).updGey x (fun g => { g with
          restore := some { r with running := r.running - 1, blocks := bs.foldl (fun m e => KMap.put m e.1 e.2) r.blocks } })
        State.feedRestore 80 s x

/-- DATA of a reading transfer: data beyond a gap and data already held are discarded; DACK goes after every 16 datagrams, on
an out-of-order one and at the end; the SHA-256 is checked when the last byte arrives (R327, R328). -/
def execShardData (m : ShardMsg) (s : State) : Host.Outcome State Fault Refusal :=
  .next (s.onXfer m (fun v s =>
    if v.writing || v.phase != 1 then s
    else if m.offset ≠ v.object.length then s.shardSend m.handle v 4 v.object.length 0 []
    else
      let obj := v.object ++ m.payload
      let n := v.sinceDack + 1
      let s := s.updXfer m.handle (fun v => { v with object := obj, timeouts := 0, sinceDack := if n = 16 then 0 else n })
      let s := if n = 16 ∨ v.total ≤ obj.length then s.shardSend m.handle v 4 obj.length 0 [] else s
      if obj.length < v.total then s
      else if sha256 obj = v.digest then s.objectRead m.handle v obj
      else s.nextSource m.handle v 2))

/-- A DACK 100 µs after the last datagram (R327). -/
def execDackTimer (handle : Nat) (s : State) : Host.Outcome State Fault Refusal :=
  .next (match KMap.find s.gey.xfers handle with
    | none => s
    | some v => if v.writing ∨ v.phase ≠ 1 then s
                else (s.updXfer handle (fun v => { v with sinceDack := 0 })).shardSend handle v 4 v.object.length 0 [])

/-- What a transfer sends again after a timeout: OPEN or FETCH, the data from the last DACK on, CLOSE, or a DACK. -/
def State.resend (s : State) (h : Nat) (v : Xfer) : State :=
  let s := s.bump .geyRetx 0 (if v.phase = 1 ∧ v.writing then ceilDiv (v.sent - v.acked) 8192 else 1)
  match v.phase with
  | 0 => s.shardOpen h v
  | 1 =>
    if v.writing then State.pump 4096 (s.updXfer h (fun v => { v with sent := v.acked })) h
    else s.shardSend h v 4 v.object.length 0 []
  | 2 => s.shardSend h v 5 v.total 0 (sha256 v.object)
  | _ => s

/-- The retransmission time passes without an advance: it doubles up to 64 ms; the twelfth in a row marks the gateway down and
the transfer restarts at the next one under a new HANDLE (R327). -/
def execShardRto (handle : Nat) (s : State) : Host.Outcome State Fault Refusal :=
  .next (match KMap.find s.gey.xfers handle with
    | none => s
    | some v =>
      if 2 < v.phase then s
      else if v.timeouts + 1 < 12 then
        let s := s.updXfer handle (fun v => { v with timeouts := v.timeouts + 1, rtoUs := min 64000 (2 * v.rtoUs) })
        s.resend handle v
      else
        let s := s.updGeyser (fun y => { y with gwDown := insertAsc v.gateway y.gwDown })
        let s := (s.bump .geyGwFail 0).setEvt .geyStatus 0 26
        match s.nextGateway (v.gateway + 1) [v.gateway] with
        | some g => s.moveXfer handle v g
        | none => s.updXfer handle (fun v => { v with phase := 4 }))

/-- After 60 s a gateway is up again; transfers that waited for one are opened anew. -/
def execGwDownExpiry (g : Nat) (s : State) : Host.Outcome State Fault Refusal :=
  let s := s.updGeyser (fun y => { y with gwDown := y.gwDown.erase g })
  let waiting := s.gey.xfers.filter (fun e => e.2.phase == 4)
  let s := forEach waiting s (fun s e => s.moveXfer e.1 e.2 g)
  .next (forEach s.liveCtxs s (fun s x => State.feedCkpt 80 s x))

/-! ### Blocks arriving on BULK (R280, R309, R310, R312) -/

/-- The committed part of a partner copy has every protected block. -/
def Ctx.copyWhole (c : Ctx) (p : Partner) : Bool :=
  c.persistent.all (fun t => (List.range t.blocks).all (fun b => (KMap.find p.committed (blockKey t.tensorId b)).isSome))

/-- A block from the buddy or the holder of a lost copy: it goes to this module's own committed copy (R280, R312). One more
block of a refill has come. -/
def State.ownBlock (s : State) (x src k a : Nat) (b : PBlock) : State :=
  let c := s.ctx x
  let taking := c.gey.takeStart.isSome
  let s := (s.placeBlock x k b).updGey x (fun g => { g with
    fetching := KMap.del g.fetching k, takingFrom := if taking then some src else g.takingFrom })
  let s := if taking then s else s.bump .recRestore 0
  let p := addrPart a
  match KMap.find s.mem.refill p with
  | none => s
  | some n => s.updMem (fun m => { m with refill := KMap.put m.refill p (n - 1) })

/-- A block from the partner: of the step and attempt executing into the pending pool, of the committed step into the committed
part (R309, R310); any other is dropped (R152). -/
def State.partnerBlock (s : State) (x step attempt k : Nat) (b : PBlock) : State :=
  let c := s.ctx x
  match c.gey.partner with
  | none => s
  | some p =>
    let s := s.bump .geyPartner 0
    if c.st = .running ∧ step = c.step ∧ attempt = c.attempt ∧ c.launched then
      s.updGey x (fun g => { g with partner := some { p with pending := KMap.put p.pending k b } })
    else if step = c.lastStep ∨ (c.gey.restore.map (·.step)) = some step then
      let q := { p with committed := KMap.put p.committed k b }
      s.updGey x (fun g => { g with partner := some { q with seeded := c.copyWhole q } })
    else s.bump .fabStale 0

/-- Two failed verifications of a restored block reset its partition (R280). -/
def State.restoreFailed (s : State) (x k a : Nat) : State :=
  if 2 ≤ KMap.getD (s.ctx x).gey.fetching k 0 then
    (s.updGey x (fun g => { g with fetching := KMap.del g.fetching k })).recover (partKey (addrPart a)) 3 (addrPart a)
  else s.fetchBlock x (k / 2 ^ 32) (k % 2 ^ 32)

/-- A whole block has arrived on BULK and verifies: where it belongs. -/
def State.bulkBlock (s : State) (x src step attempt k a : Nat) (b : PBlock) : State :=
  let c := s.ctx x
  let s := s.geySlots (addrPart a) 1
  if (KMap.find c.gey.fetching k).isSome ∨ (c.gey.takeStart.isSome ∧ (c.gey.partner.map (·.locus)) ≠ some src) then s.ownBlock x src k a b
  else if (c.gey.partner.map (·.locus)) = some src then s.partnerBlock x step attempt k b
  else s

end Sys2Proof.Machine
end

