-- ==== Sys2Proof/Machine/Crossing.lean ====
section
/-!
DEFINITION. The Crossings' commands (06 R139, R142 to R147, R157, R163, R191).
-/
namespace Sys2Proof.Machine

/-- A HDR report on a link: the port, or 36 + n for an on-package link. -/
def inputIndex (die inPort : Nat) : Nat :=
  if inPort < 32 then inPort else if inPort = 32 then 36 + (ringPos die + 3) % 4 else if inPort = 33 then 36 + ringPos die else 0

/-- PACKET_FORWARD: a packet at a die's Crossing from a fabric port 0–31, from the die ring (32 travelling plus, 33 minus) or from a
local endpoint (34) (R139, R142 to R147, R157, R191). -/
def execPacketForward (die inPort : Nat) (header : BitVec 512) (now : Nat) (s : State) : Host.Outcome State Fault Refusal :=
  if 4 ≤ die then .fault (.noSuchUnit "die")
  else if 35 ≤ inPort ∨ (inPort < 32 ∧ inPort / 8 ≠ die) then .fault (.noSuchUnit "Crossing input")
  else
    let w := header.toNat
    let n := hdrLen w + 1
    let s := s.advanceTo now
    let p := s.port inPort
    if inPort < 32 ∧ p.discarding then .next s
    else
      let s := if inPort < 32 then
          (s.updPort inPort (fun q => { q with rxSeq := (q.rxSeq + n) % 2 ^ 24 })).bump .fabRx inPort n
        else s
      let vc := hdrVc w
      if !hdrGood w then
        .next (((s.freeInput die inPort vc n).bump .fabHdr 0).reportLink 0x30 (inputIndex die inPort))
      else if inPort < 32 ∧ p.st = .mgmtOnly ∧ !(hdrKind w == 6 && hdrSrc w == p.remoteLocus && hdrDst w == s.locus) then
        .next (s.freeInput die inPort vc n)
      else if inPort < 32 ∧ hdrHops w = 127 then .next ((s.freeInput die inPort vc n).bump .fabHops 0)
      else if hdrTv w ∧ s.fcHeld ∧ s.cfg.fabMaxAge < (now % 2 ^ 32 + 2 ^ 32 - hdrInj w) % 2 ^ 32 then
        .next ((s.freeInput die inPort vc n).bump .fabAge 0)
      else
        let w := if inPort < 32 then hdrSet w (hdrHops w + 1) 7 491 else w
        let h := s.hop die w
        let behind := s.fab.waits.any (fun e => e.1 == die && e.2.1 == inPort && hdrVc e.2.2.1 == vc)
        if !behind ∧ s.mayGrant die inPort w h then .next ((s.grant die inPort w h).drainOut die h.out)
        else
          let s := s.updFab (fun f => { f with waits := f.waits ++ [(die, inPort, w, now)] })
          let s := if s.continuing inPort h w then s
            else s.updOut die h.out vc (fun o => { o with waiting := some (o.waiting.getD (hdrLen w)) })
          .next (s.noteStall die h.out)

/-- An entering packet held for 4,096 flit times makes the output reserve for it, unless a reservation ended within the last
16,384 flit times (R147). -/
def execCrossingReserve (die out vc : Nat) (s : State) : Host.Outcome State Fault Refusal :=
  if 4 ≤ die ∨ 10 ≤ out ∨ 8 ≤ vc then .fault (.noSuchUnit "Crossing output")
  else
    let o := s.outVc die out vc
    .next (if o.waiting.isNone ∨ o.reserved ∨ s.time.loc < o.coolUntil then s
           else s.updOut die out vc (fun o => { o with reserved := true }))

/-- A reservation lapses after 4,096 flit times, and none starts on the VC for 16,384 more (R147). -/
def execCrossingReserveEnd (die out vc : Nat) (s : State) : Host.Outcome State Fault Refusal :=
  if 4 ≤ die ∨ 10 ≤ out ∨ 8 ≤ vc then .fault (.noSuchUnit "Crossing output")
  else
    let o := s.outVc die out vc
    .next (if !o.reserved then s
           else (s.updOut die out vc (fun o => { o with reserved := false, coolUntil := s.time.loc + 5243 })).drainOut die out)

end Sys2Proof.Machine
end

