-- ==== Sys2Proof/Machine/Squares.lean ====
section
/-!
DEFINITION. What packets arriving at an endpoint share (06 R154, R156, R157, R161), the reduction tree of a job (R150), and the
Squares: slots, folds, waves, results and their checks (R43 to R45, R148 to R153, 10 R252).
-/
namespace Sys2Proof.Machine

/-! ### Arriving packets -/

/-- The packet is older than CFG_FAB_MAX_AGE (R157). -/
def State.tooOld (s : State) (h : Hdr) : Bool :=
  h.tv && s.fcHeld && decide (s.cfg.fabMaxAge < (h.stamp % 2 ^ 32 + 2 ^ 32 - h.injTick % 2 ^ 32) % 2 ^ 32)

/-- The context a DATA or RED packet may be delivered into: of the packet's domain, armed or later (R156). -/
def State.domainCtx (s : State) (domain : Nat) : Option Nat :=
  ctxIds.find? (fun x => decide (3 ≤ (s.ctx x).st.code) && (s.ctx x).domain == domain)

/-- A packet of a foreign domain: dropped, counted and recorded (R156). -/
def State.domainDrop (s : State) (h : Hdr) : State :=
  (s.bump .fabDomain 0).record { code := 0x2005, sev := 1, srcType := 9, srcIndex := h.src, step := h.step, attempt := h.attempt,
                                 data := [h.domain] }

/-- A marked packet is answered with CN_ECHO, at most once per source, VC and 1,024 ns (R154). -/
def State.marked (s : State) (h : Hdr) (vc : Nat) : State :=
  let k := 8 * h.src + vc
  let recent := match KMap.find s.fab.echoAt k with | some t => decide (s.time.loc < t + 1024) | none => false
  if !h.cm || recent then s
  else (s.updFab (fun f => { f with echoAt := KMap.put f.echoAt k s.time.loc })).sendResp h.src 16 0x03 0 (field vc 3 0)

/-- ECHO on a RESP to a source that a CN_ECHO went to within 1,024 ns (R154). -/
def State.echoing (s : State) (src : Nat) : Bool :=
  s.fab.echoAt.any (fun e => e.1 / 8 == src && decide (s.time.loc < e.2 + 1024))

/-- The packet's step and attempt are those the context executes (R152). -/
def Ctx.executing (c : Ctx) (step attempt : Nat) : Bool :=
  (c.st == .running) && c.launched && c.step == step && c.attempt == attempt

/-! ### Collectives of a program -/

def Ctx.collective (c : Ctx) (id : Nat) : Option Collective := c.prog.bind (fun p => p.collectives.find? (fun d => d.collId == id))
/-- The operator that triggers a collective. -/
def Ctx.collOp (c : Ctx) (id : Nat) : Option OpDesc :=
  c.prog.bind (fun p => p.operators.find? (fun o => (o.coll.map (·.2)) == some id))

/-- Elements per anchor block or EXP16 group. -/
def groupSize : Nat := 32
/-- Store a bit pattern as element i of a block's bytes. -/
def setElem (code : Nat) (bs : List Byte) (i v : Nat) : List Byte :=
  match elemBits code with
  | 4 => bs.set (i / 2) (BitVec.ofNat 8 (let o := leAt bs (i / 2) 1
                                          if i % 2 = 0 then o / 16 * 16 + v % 16 else o % 16 + 16 * (v % 16)))
  | 6 =>
    let o := leAt bs (3 * (i / 4)) 3
    mergeBytes bs (3 * (i / 4)) (leBytes 3 (o - field (bitsOf o (6 * (i % 4) + 5) (6 * (i % 4))) 6 (6 * (i % 4)) + field v 6 (6 * (i % 4))))
  | 8 => bs.set i (BitVec.ofNat 8 v)
  | 16 => mergeBytes bs (2 * i) (leBytes 2 v)
  | _ => mergeBytes bs (4 * i) (leBytes 4 v)

/-- Write elements of a tensor by element index, a read-modify-write per block (R97). -/
def State.putElems (s : State) (x : Nat) (t : Tensor) (opId layer : Nat) (els : List (Nat × Nat)) : State :=
  let epb := elemsPerBlock t.format
  let groups := els.foldl (fun (m : KMap (List (Nat × Nat))) e =>
    let p := t.pos e.1
    KMap.put m (p / epb) (KMap.getD m (p / epb) [] ++ [(p % epb, e.2)])) []
  forEach groups s (fun s g =>
    let a := t.blockAddr g.1
    let r := s.readBlock x a (if addrLevel a = 1 then 1 else 2) opId layer .good
    match r.1 with
    | none => r.2
    | some b => r.2.writeBlock x a (g.2.foldl (fun b e => setElem t.format b e.1 e.2) b))

/-! ### Slots (R151, R152) -/

/-- The slot of a block, or an empty one. -/
def State.slotOf (s : State) (x coll block op form : Nat) : SqSlot :=
  let c := s.ctx x
  (s.fab.slots.find? (fun q => q.domain == c.domain && q.coll == coll && q.block == block && q.step == c.step && q.attempt == c.attempt)).getD
    { domain := c.domain, coll, block, step := c.step, attempt := c.attempt, op, form, contrib := 0, from_ := [], windows := [],
      values := [], own := [], upset := 0 }

def SqSlot.sameKey (a b : SqSlot) : Bool :=
  a.domain == b.domain && a.coll == b.coll && a.block == b.block && a.step == b.step && a.attempt == b.attempt

def State.putSlot (s : State) (q : SqSlot) : State :=
  s.updFab (fun f => { f with slots := f.slots.filter (fun r => !r.sameKey q) ++ [q] })
def State.dropSlot (s : State) (q : SqSlot) : State := s.updFab (fun f => { f with slots := f.slots.filter (fun r => !r.sameKey q) })

/-- The element-wise result of MAX, MIN and AMAX in the input form: FP32, BF16 through FP32, or signed 16-bit maxima (R44). -/
def elemFold (op form a b : Nat) : Nat :=
  if form = 3 then
    let x := toInt 16 a
    let y := toInt 16 b
    match op with
    | 1 => ofInt 16 (max x y)
    | 2 => ofInt 16 (min x y)
    | _ => ofInt 16 (max x.natAbs y.natAbs : Nat)
  else
    let sh := if form = 2 then 16 else 0
    let f (a b : Nat) : Nat := match op with
      | 1 => (fMax a b).1
      | 2 => (fMin a b).1
      | _ => (fMax (a % 2 ^ 31) (b % 2 ^ 31)).1
    f (a <<< sh) (b <<< sh) >>> sh

/-- AMAX contributions enter as magnitudes (R44). -/
def elemEnter (op form a : Nat) : Nat :=
  if op ≠ 3 then a else if form = 1 then a % 2 ^ 31 else if form = 2 then a % 2 ^ 15 else ofInt 16 ((toInt 16 a).natAbs : Nat)

/-- A contribution of 32 entries folded into a slot; whether a window's anchor differs from the slot's (R43, R45, R151). -/
def SqSlot.fold (q : SqSlot) (src contrib : Nat) (ws : List SqWindow) (vs : List Nat) : SqSlot × Bool :=
  let bad := !q.windows.isEmpty && !ws.isEmpty && (q.windows.zip ws).any (fun e => e.1.anchor != e.2.anchor)
  let windows := if q.windows.isEmpty then ws else if ws.isEmpty then q.windows else (q.windows.zip ws).map (fun e => e.1.add e.2)
  let vs := vs.map (elemEnter q.op q.form)
  let values := if q.values.isEmpty then vs else if vs.isEmpty then q.values else (q.values.zip vs).map (fun e => elemFold q.op q.form e.1 e.2)
  ({ q with from_ := q.from_ ++ [src], contrib := q.contrib + contrib, windows, values }, bad)

/-! ### Faults of a Square (10 R252, Table 11.2) -/

/-- A report from the Square of a die; a second one from the same Square in the next attempt resets the Square (Table 11.2). -/
def State.reportSquare (s : State) (x sq : Nat) (f : FaultParam) : State :=
  let c := s.ctx x
  let s := s.report x f
  let again := match KMap.find s.recov.lastSquare x with
    | some (q, n, k) => q == sq && n == c.step && (k + 1) % 16 == c.attempt
    | none => false
  let s := s.updRecov (fun r => { r with lastSquare := KMap.put r.lastSquare x (sq, c.step, c.attempt) })
  if again then
    let s := s.recover (hangKey (.square sq)) 2 (4 * sq) true
    s.updFab (fun f => { f with slots := f.slots.filter (fun q => homeDie q.block != sq) })
  else s

/-! ### Results and waves -/

/-- The blocks a module has of a collective's results. -/
def Ctx.downOf (c : Ctx) (coll : Nat) : List Nat := (KMap.getD c.exec.colls coll ⟨[]⟩).downBlocks

/-- Every RED_DOWN block of wave w − 2 has been received (R153). -/
def Ctx.waveReady (c : Ctx) (d : Collective) (block : Nat) : Bool :=
  let w := block / d.waveBlocks
  w < 2 || decide (d.waveBlocks ≤ ((c.downOf d.collId).filter (fun b => b / d.waveBlocks == w - 2)).length)

/-- A result block is at this module: written to OUT_TENSOR and sent to the children (R151). EXP16 maxima become the anchors of
the SUM collectives over the same contribution tensor (log 37). -/
def State.resultBlock (s : State) (x : Nat) (d : Collective) (block form : Nat) (anchor : Int) (entries nibbles : List Nat) (mark : Bool) : State :=
  let c := s.ctx x
  let op := (c.collOp d.collId)
  let opId := (op.map (·.opId)).getD 0
  let layer := (op.map (·.layer)).getD 0
  let s := match c.tensor d.outTensor with
    | none => s
    | some t => s.putElems x t opId layer ((entries.zipIdx.map (fun e => (groupSize * block + e.2, e.1))).filter (fun e => decide (e.1 < t.elems)))
  let s := forEach (s.childrenOf c.pmap d.rootLocus) s (fun s l =>
    s.emit (.red false l (17 + homeDie block) c.domain c.step c.attempt
      { collId := d.collId, op := d.op, form, nb := 1, contrib := c.participants, firstBlock := block, anchors := [anchor],
        entries, nibbles, upset := 0 }))
  let s := if form = 3 then
      let users := ((c.prog.map (·.operators)).getD []).filter (fun o => match o.coll with
        | some k => (match c.collective k.2 with | some e => e.op == 0 && e.inForm != 3 && e.inTensor == d.inTensor | none => false)
        | none => false)
      s.updExec x (fun e => { e with anchors := users.foldl (fun m o =>
        (entries.zipIdx).foldl (fun m v => KMap.put m (o.opId * 2 ^ 32 + groupSize * block + v.2) (toInt 16 v.1)) m) e.anchors })
    else s
  if mark then
    s.updExec x (fun e => { e with colls := KMap.upd e.colls d.collId ⟨[]⟩ (fun r =>
      if r.downBlocks.contains block then r else { r with downBlocks := r.downBlocks ++ [block] }) })
  else s

/-- The root's conversion of a SUM block by OUT_CONV, with the operator's rounding and overflow modes; whether any element
overflowed (R44, R47 to R49). -/
def Ctx.convertBlock (c : Ctx) (d : Collective) (o : Option OpDesc) (block : Nat) (ws : List SqWindow) : Nat × List Nat × Bool :=
  let oc := (o.map (·.outConv)).getD 1
  let round := (o.map (·.round)).getD 0
  let inf := (o.map (·.infMode)).getD false
  if oc = 0 then (0, ws.map (fun w => w.s.toNat), false)
  else
    let rs := ws.zipIdx.map (fun e =>
      convOut (oc - 1) (rmodeOf round c.seed c.step d.outTensor (groupSize * block + e.2)) inf e.1.val)
    (oc, rs.map (·.1), rs.any (·.2))

/-- A slot that has every contribution is sent up, or at the root checked, converted and delivered; a slot whose two copies differ
is withheld and reported; one whose wave must wait stays (R151 to R153, R252). -/
def State.sendSlot (s : State) (x : Nat) (d : Collective) (q : SqSlot) : State :=
  let c := s.ctx x
  let layer := ((c.collOp d.collId).map (·.layer)).getD 0
  let opId := ((c.collOp d.collId).map (·.opId)).getD 0
  let sq := homeDie q.block
  let anchor := (q.windows.head?.map (·.anchor)).getD 0
  if q.upset ≠ 0 then
    (s.dropSlot q).reportSquare x sq { FaultParam.of 1 0x04 with
      layer, opId, addr := q.block, detail := field d.collId 12 0 + field (q.upset - 1) 5 12 + field sq 3 17 }
  else if s.locus = d.rootLocus then
    let s := s.dropSlot q
    let s := if q.contrib = c.participants then s
      else s.reportSquare x sq { FaultParam.of 1 0x05 with layer, opId, addr := q.block, detail := field d.collId 12 0 + field q.contrib 18 12 }
    if q.op = 0 then
      let r := c.convertBlock d (c.collOp d.collId) q.block q.windows
      let s := if r.2.2 then s.updExec x (fun e => { e with status := KMap.upd e.status opId {} (fun t => t.or { ovf := true }) }) else s
      s.resultBlock x d q.block r.1 anchor r.2.1 (q.windows.map (fun w => w.flags.nibble)) true
    else s.resultBlock x d q.block q.form 0 q.values [] true
  else if !c.waveReady d q.block then s
  else match s.parentOf c.pmap d.rootLocus s.locus with
    | none => s
    | some p =>
      let r : RedPkt := {
        collId := d.collId, op := d.op, form := if q.op = 0 then 0 else q.form, nb := 1, contrib := q.contrib, firstBlock := q.block,
        anchors := [anchor], entries := if q.op = 0 then q.windows.map (fun w => w.s.toNat) else q.values,
        nibbles := q.windows.map (fun w => w.flags.nibble), upset := 0 }
      let s := (s.dropSlot q).meter x p 2
      (s.leaveFirst x).emit (.red true p (17 + sq) c.domain c.step c.attempt r)

/-- The slot has the module's own 32 elements and a contribution of each child. -/
def State.slotDone (s : State) (x : Nat) (d : Collective) (q : SqSlot) : Bool :=
  (s.locus :: s.childrenOf (s.ctx x).pmap d.rootLocus).all (fun l => q.from_.contains l)

/-- Every complete slot of a context's collective is sent, `fuel` of them at most. -/
def State.settle : Nat → State → Nat → State
  | 0, s, _ => s
  | n + 1, s, x =>
    let c := s.ctx x
    match s.fab.slots.find? (fun q => q.domain == c.domain && q.step == c.step && q.attempt == c.attempt &&
        (match c.collective q.coll with
         | some d => s.slotDone x d q && (q.upset != 0 || s.locus == d.rootLocus ||
             (c.waveReady d q.block && (s.parentOf c.pmap d.rootLocus s.locus).isSome))
         | none => false)) with
    | none => s
    | some q => match c.collective q.coll with
      | some d => State.settle n (s.sendSlot x d q) x
      | none => s

def State.settleSlots (s : State) (x : Nat) : State := State.settle (s.fab.slots.length + 1) s x

/-- Anchors of raw windows differ: ANCHOR_VIOLATION with the packet's anchor and the slot's (R45). -/
def State.squareViolation (s : State) (x : Nat) (d : Collective) (block : Nat) (bound anchor : Int) : State :=
  let c := s.ctx x
  let opId := ((c.collOp d.collId).map (·.opId)).getD 0
  let s := s.updExec x (fun e => { e with status := KMap.upd e.status opId {} (fun t => t.or { anchorViolation := true }) })
  s.reportSquare x (homeDie block) { FaultParam.of 1 0x03 with
    opId, layer := ((c.collOp d.collId).map (·.layer)).getD 0, addr := block, detail := field (ofInt 16 bound) 16 0 + field (ofInt 16 anchor) 16 16 }

/-- One block of a RED_UP packet folded into its slot; a child's second contribution is dropped and counted (R153). -/
def State.foldBlock (s : State) (x : Nat) (d : Collective) (r : RedPkt) (src j : Nat) : State :=
  let block := r.firstBlock + j
  let q := s.slotOf x d.collId block d.op r.form
  if q.from_.contains src then s.bump .fabStale 0
  else
    let es := slice r.entries (groupSize * j) groupSize
    let a := r.anchors.getD j 0
    let ws := if r.form = 0 then es.zipIdx.map (fun e =>
        ({ s := BitVec.ofNat 128 e.1, anchor := a, flags := WFlags.ofNibble (r.nibbles.getD (groupSize * j + e.2) 0) } : SqWindow)) else []
    let f := q.fold src r.contrib ws (if r.form = 0 then [] else es)
    let s := s.putSlot { f.1 with upset := if r.upset = 0 then f.1.upset else r.upset }
    if f.2 then s.squareViolation x d block a ((q.windows.head?.map (·.anchor)).getD 0) else s

/-- Guard of DATA and RED at an endpoint: age, domain and, for RED, the step and attempt; `f` runs on the context (R152, R156, R157). -/
def State.redGuard (s : State) (h : Hdr) (vc : Nat) (f : Nat → State → State) : State :=
  let s := s.advanceTo h.stamp
  if !s.inRun then s
  else if s.tooOld h then s.bump .fabAge 0
  else
    let s := s.marked h vc
    match s.domainCtx h.domain with
    | none => s.domainDrop h
    | some x =>
      if (s.ctx x).st = .draining then s
      else if !(s.ctx x).executing h.step h.attempt then s.bump .fabStale 0
      else f x s

/-- The effect a RED_UP or RED_DOWN packet has at its release tick: complete slots are sent (R237). -/
def effRedUp (h : Hdr) (s : State) : State :=
  match s.domainCtx h.domain with
  | some x => if (s.ctx x).executing h.step h.attempt then s.settleSlots x else s
  | none => s

/-- RED_UP: each block is folded at once; the slot counts as complete no earlier than the release tick (R151, R237). A telemetry
operator on a RED packet is dropped and counted in ERR_TEL_DROP (R338). -/
def execRedUp (h : Hdr) (r : RedPkt) (s : State) : Host.Outcome State Fault Refusal :=
  .next (s.redGuard h 2 (fun x s =>
    if 8 ≤ r.op then s.bump .telDrop 0
    else match (s.ctx x).collective r.collId with
      | none => s.bump .fabStale 0
      | some d =>
        let s := forEach (List.range (if r.form = 0 then 1 else r.nb)) s (fun s j => s.foldBlock x d r h.src j)
        match s.releaseTick h with
        | some t => s.updFab (fun f => { f with held := f.held ++ [(t, .redUp h r)] })
        | none => (s.when (s.lateRelease h) State.markLate).settleSlots x))

/-- The blocks of a RED_DOWN packet at this module. -/
def State.takeDown (s : State) (x : Nat) (d : Collective) (r : RedPkt) (mark : Bool) : State :=
  forEach (List.range (if r.form = 0 then 1 else r.nb)) s (fun s j =>
    let block := r.firstBlock + j
    if ((s.ctx x).downOf d.collId).contains block then s
    else s.resultBlock x d block r.form (r.anchors.getD j 0) (slice r.entries (groupSize * j) groupSize) (slice r.nibbles (groupSize * j) groupSize) mark)

/-- At the release tick of a RED_DOWN its blocks count as received, which lets a later wave go (R153, R237). -/
def effRedDown (h : Hdr) (r : RedPkt) (s : State) : State :=
  match s.domainCtx h.domain with
  | some x =>
    if !(s.ctx x).executing h.step h.attempt then s
    else
      let blocks := (List.range (if r.form = 0 then 1 else r.nb)).map (r.firstBlock + ·)
      (s.updExec x (fun e => { e with colls := KMap.upd e.colls r.collId ⟨[]⟩ (fun c =>
        { c with downBlocks := c.downBlocks ++ blocks.filter (fun b => !c.downBlocks.contains b) }) })).settleSlots x
  | none => s

/-- RED_DOWN: the result is written to OUT_TENSOR and forwarded to the children (R151). -/
def execRedDown (h : Hdr) (r : RedPkt) (s : State) : Host.Outcome State Fault Refusal :=
  .next (s.redGuard h 3 (fun x s =>
    if 8 ≤ r.op then s.bump .telDrop 0
    else match (s.ctx x).collective r.collId with
      | none => s.bump .fabStale 0
      | some d =>
        match s.releaseTick h with
        | some t => (s.takeDown x d r false).updFab (fun f => { f with held := f.held ++ [(t, .redDown h r)] })
        | none => ((s.when (s.lateRelease h) State.markLate).takeDown x d r true).settleSlots x))

end Sys2Proof.Machine
end

