-- ==== Sys2Proof/Machine/Fabric.lean ====
section
/-!
DEFINITION. DATA and BULK packets at an endpoint (06 R139, R152, R156, R157, R160, R161; 04 Table 4.4), and route breaks (R164, R165).
-/
namespace Sys2Proof.Machine

/-- The key of a block that travels on BULK (R303, R310): by its address in the sender's memory. -/
def Ctx.bulkKey (c : Ctx) (tensorId addr : Nat) : Nat :=
  if tensorId = imageTensor then blockKey imageTensor (8 * bitsOf addr 34 15 + bitsOf addr 14 0 / 4096)
  else match c.tensor tensorId with
    | some t => blockKey tensorId ((addr - t.base) / 4096)
    | none => blockKey tensorId 0

/-- The element format of a block on the way. -/
def Ctx.codeOf (c : Ctx) (tensorId : Nat) : Nat := ((c.tensor tensorId).map (·.format)).getD 0

/-- ACK of a block's packet, with ECHO when due (R154, R160). -/
def State.ackData (s : State) (h : Hdr) (ep step seq : Nat) : State := s.sendResp h.src ep 0x01 step (field seq 32 0) (s.echoing h.src)

/-- One more part of a block: the parts so far, and the block's bytes when the four are there. -/
def State.assemble (s : State) (h : Hdr) (d : DataPart) : State × Option (List Byte × Bool) :=
  let mine (r : Reasm) : Bool := r.src == h.src && r.tensorId == d.tensorId && r.addr == d.addr && r.step == h.step &&
    r.attempt == h.attempt && r.bulk == d.bulk
  let r := (s.fab.reasm.find? mine).getD { src := h.src, tensorId := d.tensorId, addr := d.addr, step := h.step, attempt := h.attempt,
                                           bulk := d.bulk, check := d.check, ackReq := false, parts := [] }
  let r := { r with parts := KMap.put r.parts (d.part % 4) (fitBytes 1024 d.payload), ackReq := r.ackReq || d.ackReq }
  let others := s.fab.reasm.filter (fun q => !mine q)
  if r.parts.length = 4 then (s.updFab (fun f => { f with reasm := others }), some ((r.parts.map (·.2)).flatten, r.ackReq))
  else (s.updFab (fun f => { f with reasm := others ++ [r] }), none)

/-- What the path does to a block on arrival. -/
def arrived (rd : ReadOutcome) (b : List Byte) : List Byte :=
  match rd with
  | .pathFlip off mask => b.set off (b.getD off 0#8 ^^^ BitVec.ofNat 8 mask)
  | _ => b

/-- A BULK block that verifies: placed, and acknowledged, pending blocks not before the seed is complete (R309, R310). -/
def State.bulkIn (s : State) (x : Nat) (h : Hdr) (d : DataPart) (b : List Byte) (ack : Bool) : State :=
  let k := (s.ctx x).bulkKey d.tensorId d.addr
  let s := s.bulkBlock x h.src h.step h.attempt k d.addr { bytes := b, check := d.check }
  let c := s.ctx x
  let pendingBlock := c.executing h.step h.attempt && (c.gey.partner.map (·.locus)) == some h.src
  match c.gey.partner with
  | none => if ack then s.ackData h h.srcEp h.step h.seq else s
  | some p =>
    if pendingBlock && !p.seeded then
      if ack then s.updGey x (fun g => { g with partner := some { p with withheld := p.withheld ++ [(h.srcEp, h.step, h.seq)] } }) else s
    else
      let s := if ack then s.ackData h h.srcEp h.step h.seq else s
      if p.seeded then
        forEach p.withheld (s.updGey x (fun g => { g with partner := some { p with withheld := [] } }))
          (fun s w => s.ackData { h with src := p.locus } w.1 w.2.1 w.2.2)
      else s

/-- DATA_PACKET: the guards of an endpoint; the block when its four parts are there, verified, written and acknowledged; a failure
is a transport report of unit 4, or 6 on BULK, and no acknowledgement. `rd` says what the path does to the block. -/
def execDataPacket (h : Hdr) (d : DataPart) (rd : ReadOutcome) (s : State) : Host.Outcome State Fault Refusal :=
  let s := s.advanceTo h.stamp
  .next (
    if !s.inRun then s.notReadyTo h
    else if s.tooOld h then s.bump .fabAge 0
    else
      let s := s.marked h (if d.bulk then 5 else 4)
      match s.domainCtx h.domain with
      | none => s.domainDrop h
      | some x =>
        let c := s.ctx x
        if c.st = .draining then s
        else if !addrOk d.addr ∨ !inMask c.mask (addrPart d.addr) ∨ h.dstEp ≠ addrPart d.addr then s.domainDrop h
        else if !d.bulk && !c.executing h.step h.attempt then s.bump .fabStale 0
        else
          let s := s.when (s.lateRelease h) State.markLate
          let r := s.assemble h d
          match r.2 with
          | none => r.1
          | some (bytes, ack) =>
            let s := r.1
            let b := arrived rd bytes
            let rec_ : BlockCheck := { mass := d.check / 2 ^ 32, crc := d.check % 2 ^ 32, poison := false, invalid := false }
            let f := rec_.fails (c.codeOf d.tensorId) b
            let p := addrPart d.addr
            if f = 0 then
              if d.bulk then s.bulkIn x h d b ack
              else
                let s := s.writeBlock x d.addr b
                if ack then s.ackData h h.srcEp h.step h.seq else s
            else
              let u := if d.bulk then 6 else 4
              let s := (s.reportBlock x d.addr u f 0 0 false).transportUnit x u p 0 0
              let k := c.bulkKey d.tensorId d.addr
              if d.bulk && (KMap.find c.gey.fetching k).isSome then s.restoreFailed x k d.addr else s)

/-! ### Route breaks (R164, R165) -/

/-- The announcement is kept until its effective count; a repetition changes nothing. -/
def effRouteBreak (dim after : Nat) (isBreak : Bool) (effective : Nat) (s : State) : State :=
  let o : BreakOrder := { dim := dim % 4, after, isBreak, effective }
  if s.fab.orders.any (fun q => q.dim == o.dim && q.after == o.after && q.isBreak == o.isBreak) then s
  else s.updFab (fun f => { f with orders := f.orders ++ [o] })

def execRouteBreak (h : Hdr) (dim after : Nat) (isBreak : Bool) (effective : Nat) (s : State) : Host.Outcome State Fault Refusal :=
  .next (s.ctrlIn h (.routeBreak h dim after isBreak effective) (effRouteBreak dim after isBreak effective))

/-- A participant this module's routes cannot reach when its Avenue in dimension d has breaks after a and b: it lies on the part of
the Avenue beyond the second break (R165). -/
def State.unreachable (s : State) (d a b l : Nat) : Bool :=
  let n := s.cfg.extent d
  let at_ (k : Nat) : Nat := (k + 2 * n - a - 1) % n
  let cut := at_ b
  (decide (at_ (coordOf s.locus d) ≤ cut)) != (decide (at_ (coordOf l d) ≤ cut))

/-- ROUTE_BREAK_EFFECTIVE: at the effective count the dimension becomes a line broken after c, or a ring again; BREAK_EVT is set, a
report of source ROUTE_BREAK goes for every running context, and waiting packets take the new routes. A second break on the
Avenue makes the participants beyond it lost (R164, R165). -/
def execRouteBreakEffective (dim : Nat) (s : State) : Host.Outcome State Fault Refusal :=
  if 4 ≤ dim then .fault (.noSuchUnit "dimension")
  else
    .next (match s.fab.orders.find? (fun o => o.dim == dim) with
      | none => s
      | some o =>
        let s := s.updFab (fun f => { f with orders := f.orders.erase o })
        if !o.isBreak then
          let s := s.updFab (fun f => { f with breaks := if KMap.find f.breaks dim = some o.after then KMap.del f.breaks dim else f.breaks })
          s.drainAll
        else if s.isLine dim ∧ s.brk dim ≠ o.after then
          let a := s.brk dim
          let s := s.reportLink 0x32 dim
          forEach (s.liveCtxs.filter (fun x => (s.ctx x).coord.active)) s (fun s x =>
            forEach ((s.ctx x).pmap.filter (s.unreachable dim a o.after)) s (fun s l => s.declareLost x l))
        else
          let s := (s.updFab (fun f => { f with breaks := KMap.put f.breaks dim o.after })).setEvt .avenue dim 30
          (s.reportLink 0x32 dim).drainAll)

end Sys2Proof.Machine
end

