-- ==== Sys2Proof/Machine/TimeOps.lean ====
section
/-!
DEFINITION. The time tree (08 R209 to R214): qualifying offers, a module's own candidacy, the choice of an upstream port or of being
root, and the states of TIM_STATUS.
-/
namespace Sys2Proof.Machine

/-- EPOCH_TAG (Table 8.1). -/
def epochTag (c : Cfg) : Nat := (crc32c (leBytes 8 c.epochSec)).toNat % 2 ^ 16

/-- A root's ROOT_SEQ was seen to advance within the last 4 × 2^20 ticks (R210). -/
def State.rootFresh (s : State) (root : Nat) : Bool :=
  match KMap.find s.time.seen root with
  | some r => (match r.advanced with | some t => decide (s.time.loc ≤ t + 4194304) | none => false)
  | none => false

/-- A port's offer qualifies (R209). -/
def State.qualifies (s : State) (p : Nat) : Bool :=
  let q := s.port p
  (q.st == .up) && (match q.offer with
    | none => false
    | some o => decide (s.time.loc ≤ o.stamp + 1000000) && o.tag == epochTag s.cfg && decide (o.dist ≤ 253) && !o.followsYou &&
                o.state != 0 && s.rootFresh o.root)

/-- The key of an offer as one number: ROOT_CLASS, ROOT_PRIO, ROOT, DIST, port index, lower is better. -/
def offerKey (cls prio root dist p : Nat) : Nat := (((cls * 16 + prio) * 2 ^ 17 + root) * 256 + dist) * 64 + p

/-- An edge port is a PTP slave: an entry module's port of the role, not set master (Tables 7.8, 8.3). -/
def State.ptpSlave (s : State) (p : Nat) : Bool :=
  decide (32 ≤ p) && decide (p < 36) && s.cfg.timEntry && (s.cfg.edgeRole (p - 32)).testBit 2 && !(s.cfg.ptpMaster).testBit (p - 32)
/-- An edge port is a PTP master. -/
def State.isPtpMaster (s : State) (p : Nat) : Bool :=
  decide (32 ≤ p) && decide (p < 36) && (s.cfg.edgeRole (p - 32)).testBit 2 && (s.cfg.ptpMaster).testBit (p - 32)

/-- The first locked slave port. -/
def State.lockedPort (s : State) : Option Nat := [32, 33, 34, 35].find? (fun p => s.ptpSlave p && (s.ptp p).locked)

/-- The PTP offset admits a class-0 claim (R211). -/
def State.ptpNear (s : State) (p : Nat) : Bool := decide ((s.ptp p).offset.natAbs ≤ s.cfg.ptpLimitUs * 1000)

/-- The class this module would advertise as root (R210, R211). -/
def State.ownClass (s : State) : Nat :=
  match s.lockedPort with
  | some p => if s.ptpNear p then 0 else 1
  | none => if s.time.isRoot && s.time.rootClass == 0 then 0 else if s.cfg.timEntry then 1 else 2

/-- Entering HOLDOVER. -/
def State.holdover (s : State) : State :=
  if s.time.st = 3 then s else (s.updTime (fun t => { t with st := 3, holdSince := some t.loc })).setEvt .timStatus 0 25

/-- This module is root (R210, R214): without a PTP lock in HOLDOVER, else ACQUIRING until its 16 intervals pass (log 38). -/
def State.beRoot (s : State) : State :=
  let cls := s.ownClass
  let t0 := s.time
  let changed := !t0.isRoot && (t0.upstream.isSome)
  let s := s.updTime (fun t => { t with
    isRoot := true, upstream := none, dist := 0, rootClass := cls, rootPrio := s.cfg.rootPrio, root := s.locus, run64 := 0, residual := if cls = 0 then t.residual else 0 })
  let s := if changed && t0.root != s.locus then s.setEvt .timStatus 0 26 else s
  match s.lockedPort with
  | none => s.holdover
  | some _ => if s.time.st = 3 then s.updTime (fun t => { t with st := 1, holdSince := none }) else s

/-- Follow a port's offer (R209, R212). -/
def State.follow (s : State) (p : Nat) (o : Offer) : State :=
  let t0 := s.time
  let changed := (t0.isRoot || t0.upstream.isSome) && t0.root != o.root
  let newUp := t0.upstream != some p
  let off := (s.port p).offset
  let s := s.updTime (fun t => { t with
    isRoot := false, upstream := some p, dist := o.dist + 1, rootClass := o.rootClass, rootPrio := o.rootPrio, root := o.root,
    rootSeq := o.rootSeq, utcOffset := o.utcOffset, rootOffset := 0, run64 := if newUp then 0 else t.run64,
    residual := if newUp then off else t.residual,
    st := if newUp && (t.st == 2 || t.st == 3) then (if t.everLocked && decide (off.natAbs ≤ 8) then 2 else 1) else t.st,
    holdSince := if newUp then none else t.holdSince })
  if changed then s.setEvt .timStatus 0 26 else s

/-- The choice among the qualifying offers and this module itself (R209, R210). `claim` says that a PTP lock has lasted 10 s. A module
without a fleet count chooses nothing. -/
def State.reselect (s : State) (claim : Bool := false) : State :=
  if !s.fcHeld then s
  else
    let cands := (List.range 32).filterMap (fun p =>
      if s.qualifies p then (s.port p).offer.map (fun o => (offerKey o.rootClass o.rootPrio o.root o.dist p, p, o)) else none)
    let best := cands.foldl (fun (b : Option (Nat × Nat × Offer)) e => match b with
      | none => some e
      | some d => if e.1 < d.1 then some e else b) none
    match best with
    | none => s.beRoot
    | some (k, p, o) =>
      let long := match s.lockedPort with
        | some q => claim || decide ((s.ptp q).lockedAt + 10000000000 ≤ s.time.loc)
        | none => false
      if s.cfg.timEntry && long && decide (offerKey s.ownClass s.cfg.rootPrio s.locus 0 0 < k) then s.beRoot
      else s.follow p o

end Sys2Proof.Machine
end

