-- ==== Sys2Proof/Machine/PortOps.lean ====
section
/-!
DEFINITION. Operations on optical ports (07): link control flits (R173), the division and expected partners (R187, R193), lanes (R177
to R179, R184), leaving UP and losing flits (R185, R197), and the outcome of an exchange (R188 to R192).
-/
namespace Sys2Proof.Machine

/-! ### Link control flits (Tables 7.2, 7.5, 7.7b) -/

/-- The LCRC of a flit. -/
def lcfCrc (w : Nat) : Nat := (crc32c (beBytes 60 (bitsOf w 511 32))).toNat

/-- A port sends an LCF of a kind with kind-specific bits [327:32]. -/
def State.sendLcf (s : State) (p kind : Nat) (nak : Bool) (body : Nat) : State :=
  let q := s.port p
  let freed := sumL ((List.range 8).map (fun v => field (KMap.getD q.freedOut v (outBuffer (p % 8) v)) 16 (440 - 16 * v)))
  let w := field kind 4 508 + field q.txSeq 24 484 + field q.rxSeq 24 460 + field (b2n nak) 1 459 + freed + body
  s.emit (.lcf p (BitVec.ofNat 512 (w + lcfCrc w)))

/-- First 128 bits of SHA-256 of the identity certificate. -/
def certDigest : Nat := beNat ((sha256 Config.identityCert).take 16)

/-- IDENT as this port sends it (Table 7.5). -/
def State.sendIdent (s : State) (p : Nat) : State :=
  let q := s.port p
  s.sendLcf p 1 false (field s.locus 17 311 + field p 5 306 + field q.dir 3 303 + field q.rank 6 297 + field q.size 6 291 + field 1 8 283 +
    field 1 8 275 + field s.id.fwMajor 8 267 + field s.id.fwMinor 16 251 + field arithRev 8 243 + field certDigest 128 115 +
    field (b2n q.peerSeen) 1 114)

/-- The IDENT fields of a flit. -/
def parseIdent (w : Nat) : IdentData :=
  { locus := bitsOf w 327 311, port := bitsOf w 310 306, dir := bitsOf w 305 303, rank := bitsOf w 302 297, size := bitsOf w 296 291,
    linkProto := bitsOf w 290 283, compatMin := bitsOf w 282 275, fwMajor := bitsOf w 274 267, fwMinor := bitsOf w 266 251,
    arith := bitsOf w 250 243, cert := bitsOf w 242 115 }

/-- An LSM: REQ, LANE, AT_SEQ of this end's stream, REF_REQ (Table 7.7b). -/
def State.sendLsm (s : State) (p req lane ref : Nat) : State :=
  s.sendLcf p 2 false (field req 4 324 + field lane 4 320 + field (s.port p).txSeq 24 296 + field ref 4 292)

/-! ### Lanes -/

/-- The lane map of the passing lanes: traffic lanes and the spare (R184). -/
def chooseLanes (ok : Nat) : List Nat × Option Nat :=
  let l := bitList ok 9
  if 8 ≤ l.length then (l.take 8, l[8]?) else (l.take 4, none)

/-! ### Leaving UP -/

/-- Every flit not acknowledged is discarded and counted, and reported when there was one (R197). -/
def State.loseFlits (s : State) (p : Nat) : State :=
  let q := s.port p
  let n := (q.txSeq + 2 ^ 24 - q.txAck) % 2 ^ 24
  let s := s.updPort p (fun q => { q with txAck := q.txSeq })
  if n = 0 then s else (s.bump .prtFlitsLost p n).reportLink 0x31 p

/-- The port goes to DETECT and trains anew. -/
def State.toDetect (s : State) (p : Nat) : State :=
  ((s.loseFlits p).updPort p (fun q => { q with
    st := .detect, width := 0, peerSeen := false, heldAt := none, req := none, offer := none })).reselect

/-- A training attempt failed: BACKOFF, one more consecutive failure (R182). -/
def State.backoff (s : State) (p : Nat) : State :=
  s.updPort p (fun q => { q with st := .backoff, failures := q.failures + 1, width := 0 })

/-- A fabric port leaves UP: FAST_RETRAIN, or HELD at the eighth exit within 60 s, which is recorded (R185, R197). -/
def State.leaveUp (s : State) (p : Nat) : State :=
  let q := s.port p
  if q.st ≠ .up then s
  else
    let t := s.time.loc
    let exits := (t :: q.exits.filter (fun e => decide (t < e + 60000000000)))
    let s := s.bump .prtRetrain p
    let s := if 8 ≤ exits.length then
        ((s.loseFlits p).updPort p (fun q => { q with st := .held, exits := [], heldAt := some t, width := 0, req := none })).record
          { code := 0x2006, sev := 1, srcType := 4, srcIndex := p, data := [p] }
      else s.updPort p (fun q => { q with st := .fastRetrain, exits, width := 0, peerSeen := false, req := none })
    (s.noteBundle q.dir).reselect

/-- A full retrain: the port leaves UP and trains from DETECT (R180). -/
def State.fullRetrain (s : State) (p : Nat) : State :=
  let s := s.leaveUp p
  if (s.port p).st = .held ∨ (s.port p).st = .unused ∨ (s.port p).st = .dark then s else s.toDetect p

/-- The receiver asks for width 4, or leaves UP with fewer than four healthy lanes (R179, R197). -/
def State.askWidth4 (s : State) (p : Nat) : State :=
  let q := s.port p
  if popCount q.lanesOk 9 < 4 then s.leaveUp p
  else (s.updPort p (fun q => { q with req := some { req := 3 } })).sendLsm p 3 0 0

/-- A traffic lane of an UP port is no longer healthy: the spare takes its place, or width 4 is asked for (R178, R179). -/
def State.laneCheck (s : State) (p : Nat) : State :=
  let q := s.port p
  if q.st ≠ .up then s
  else match q.lanes.find? (fun l => !q.lanesOk.testBit l) with
    | none => s
    | some l =>
      match q.spare with
      | some sp =>
        if q.lanesOk.testBit sp then
          let s := s.updPort p (fun q => { q with lanes := q.lanes.map (fun k => if k = l then sp else k), spare := none, mapAt := some s.now })
          (s.setEvt .portStatus p 24).sendLsm p 4 l 0
        else s.askWidth4 p
      | none => s.askWidth4 p

/-- A lane is declared failing (R177). -/
def State.laneFail (s : State) (p lane : Nat) : State :=
  if !(s.port p).lanesOk.testBit lane then s
  else
    let s := (s.bump .prtLaneFail p).updPort p (fun q => { q with lanesOk := setBit q.lanesOk lane false })
    let q := s.port p
    if q.st = .up then s.laneCheck p
    else if q.st = .mgmtOnly ∧ popCount q.lanesOk 9 < 4 then s.toDetect p
    else s

/-- Both directions run on the four lowest healthy lanes of their own maps (R179). -/
def State.setWidth4 (s : State) (p : Nat) : State :=
  (s.updPort p (fun q => { q with lanes := (bitList q.lanesOk 9).take 4, spare := none, width := 4, mapAt := some s.now })).setEvt .portStatus p 24

/-! ### The outcome of an exchange (R187 to R192) -/

/-- A completed full exchange starts the link afresh (R192). -/
def State.freshLink (s : State) (p : Nat) : State :=
  s.updPort p (fun q => { q with rxSeq := 0, txSeq := 0, txAck := 0, discarding := false, nakSent := 0, nakAt := 0, nakRun := 0,
                                 freedIn := [], sent := [], freedOut := [], req := none })

/-! ### Receiving an LCF (R173 to R175, R197) -/

/-- The common part: a flit whose LCRC fails or whose kind is not the one named is discarded; ACK_SEQ and FREED move the sender's
state, NAK makes it resend, TX_SEQ shows a gap or the replay (R173 to R175). Then `f`. -/
def State.lcfIn (s : State) (p kind : Nat) (flit : BitVec 512) (f : Nat → State → State) : State :=
  let w := flit.toNat
  if 32 ≤ p ∨ lcfCrc w ≠ bitsOf w 31 0 ∨ bitsOf w 511 508 ≠ kind ∨ (s.port p).st = .dark ∨ (s.port p).st = .unused then s
  else
    let q := s.port p
    let ack := bitsOf w 483 460
    let tx := bitsOf w 507 484
    let nak := w.testBit 459
    let passes := decide ((ack + 2 ^ 24 - q.txAck) % 2 ^ 24 ≤ (q.txSeq + 2 ^ 24 - q.txAck) % 2 ^ 24)
    let gap := serialNewer 24 tx q.rxSeq && !q.discarding
    let s := s.updPort p (fun q => { q with
      txAck := if passes then ack else q.txAck,
      freedIn := (List.range 8).foldl (fun m v => KMap.put m v (bitsOf w (455 - 16 * v) (440 - 16 * v))) q.freedIn,
      discarding := gap || (q.discarding && tx != q.rxSeq), nakSent := if tx = q.rxSeq then 0 else if gap then 1 else q.nakSent,
      nakRun := if nak then (if q.nakAt = ack then q.nakRun + 1 else 1) else q.nakRun, nakAt := if nak then ack else q.nakAt })
    let s := if gap then s.sendLcf p 0 true 0 else s
    let s := if nak && passes then
        (s.bump .prtReplay p ((q.txSeq + 2 ^ 24 - ack) % 2 ^ 24)).emit (.replay p ack)
      else s
    let s := if nak && decide (8 ≤ (s.port p).nakRun) then s.leaveUp p else s
    f w (s.drainOut (p / 8) (p % 8))

end Sys2Proof.Machine
end

