-- ==== Sys2Proof/Machine/Containment.lean ====
section
/-!
DEFINITION. Containment commands: hangs (11 R284, R285), bounds of recovery actions (R276), refills (R279), die links (R283) and
Caldera's two halves with CAL_OWN (R287 to R292).
-/
namespace Sys2Proof.Machine

/-! ### Caldera's halves -/

/-- A half releases CAL_OWN and restarts from the image (R288); released too often within the escalation window it is fenced
and the module is in SINGLE (R291). A half that does not own the module only restarts. -/
def State.calRelease (s : State) (half : Nat) : State :=
  let s := s.updCal (fun c => if half = 0 then { c with okA := false } else { c with okB := false })
  if s.cal.owner ≠ some half then s
  else
    let t := s.now
    let l := pushTick (if half = 0 then s.cal.releasesA else s.cal.releasesB) t s.cfg.escalateWindow
    let fence := decide (s.cfg.escalateCount ≤ l.length)
    let s := s.updCal (fun c =>
      if half = 0 then { c with owner := none, releasesA := l, fencedA := c.fencedA || fence }
      else { c with owner := none, releasesB := l, fencedB := c.fencedB || fence })
    let s := s.updId (fun d => { d with released := true })
    if fence then s.updFlash (fun f => { f with fencedHalf := some half }) else s

/-- A half is fenced for good (R291). -/
def State.calFence (s : State) (half : Nat) : State :=
  (s.updCal (fun c =>
    let c := if c.owner = some half then { c with owner := none } else c
    if half = 0 then { c with fencedA := true, okA := false } else { c with fencedB := true, okB := false })).updFlash
    (fun f => { f with fencedHalf := some half })

/-- CAL_HALF_FAULT (R288): lockstep disagreement, uncorrectable SRAM error, supply or clock monitor. -/
def execCalHalfFault (half _cause : Nat) (s : State) : Host.Outcome State Fault Refusal :=
  if half < 2 then .next (s.calRelease half) else .fault (.noSuchUnit "Caldera half")

/-- SELF_TEST (R288): each half's known-answer test; a half that fails releases, or stays standby. -/
def execSelfTest (passA passB : Bool) (s : State) : Host.Outcome State Fault Refusal :=
  .next (
    let s := if passA then s.updCal (fun c => { c with okA := !c.fencedA }) else s.calRelease 0
    if passB then s.updCal (fun c => { c with okB := !c.fencedB }) else s.calRelease 1)

/-- CAL_OWN_ACQUIRE (R287, R290): a healthy half that has seen the line high takes ownership; it never drives the line while it is
low. A change of halves is counted and sets TAKEOVER_EVT. -/
def execCalOwnAcquire (half : Nat) (s : State) : Host.Outcome State Fault Refusal :=
  if 2 ≤ half then .fault (.noSuchUnit "Caldera half")
  else .next (
    let c := s.cal
    let ok := if half = 0 then c.okA && !c.fencedA else c.okB && !c.fencedB
    if !ok ∨ c.owner.isSome then s
    else
      let changed := c.last.isSome && c.last != some half
      let s := s.updCal (fun c => { c with owner := some half, last := some half })
      (s.when changed (fun s => (s.bump .recCalTakeover 0).setEvt .calHalf 0 25)).flushVent)

/-- CAL_OWN_TIMEOUT (R292): no half has taken the line for 1 ms; the hardware asserts PWR_CYCLE_REQ. ALERT_N is low all the while no half
holds the line, whatever the latch (17 R429). -/
def execCalOwnTimeout (s : State) : Host.Outcome State Fault Refusal :=
  .next (if s.cal.owner.isSome ∨ s.pins.pwrCycleReq then s
    else (s.bump .recL5 0).updPins (fun p => { p with pwrCycleReq := true, interlockOut := false }))

/-! ### Units -/

/-- The module has the unit (Table 1.5, R181). -/
def hasUnit : HangUnit → Bool
  | .sequencer cl core => decide (cl < numClusters) && decide (core < 256)
  | .clusterControl cl => decide (cl < numClusters)
  | .dma p => decide (p < 16)
  | .xpose p e => decide (p < 16) && decide (e < 4)
  | .geyser p => decide (p < 16)
  | .square d => decide (d < 5)
  | .crossing d => decide (d < 4)
  | .port p => decide (p < 32)
  | .calCore h c => decide (h < 2) && decide (c < 4)

/-- The partition a unit lies in, if any. -/
def unitPart : HangUnit → Option Nat
  | .sequencer cl _ => some (clusterPart cl)
  | .clusterControl cl => some (clusterPart cl)
  | .dma p => some p
  | .xpose p _ => some p
  | .geyser p => some p
  | _ => none

/-- The hang window of a unit in ns (Table 11.3). -/
def hangWindow (c : Cfg) : HangUnit → Nat
  | .sequencer _ _ => c.hangFwUs * 1000
  | .clusterControl _ => c.hangFwUs * 1000
  | .dma _ => c.hangHwUs * 1000
  | .xpose _ _ => c.hangHwUs * 1000
  | .geyser _ => 20 * c.hangFwUs * 1000
  | .square _ => 100000
  | .crossing _ => c.hangFabricMs * 1000000
  | .port _ => c.hangFabricMs * 1000000
  | .calCore _ _ => 10000000

/-- What the report of a hang names (R284): KIND as the rule gives it; where only the KIND is given, the first SOURCE of that
kind's row in Table 11.2, with the unit in DETAIL (log 41). A Caldera core has no check in Table 11.2 and sends none. -/
def hangReport : HangUnit → Option FaultParam
  | .sequencer cl core => some { FaultParam.of 1 0x01 with logicalValid := true, logicalCore := 256 * cl + core }
  | .clusterControl cl => some { FaultParam.of 1 0x01 with logicalValid := true, logicalCore := 256 * cl }
  | .dma p => some { FaultParam.of 3 0x20 with addr := hbmAddr p 0, detail := 3 }
  | .xpose p e => some { FaultParam.of 3 0x21 with addr := hbmAddr p 0, detail := e }
  | .geyser p => some { FaultParam.of 3 0x20 with addr := hbmAddr p 0, detail := 6 }
  | .square d => some { FaultParam.of 1 0x04 with detail := field d 3 17 }
  | .crossing _ => some (FaultParam.of 4 0x31)
  | .port p => some { FaultParam.of 4 0x31 with detail := p }
  | .calCore _ _ => none

/-- The running contexts a unit serves. -/
def State.servedBy (s : State) (u : HangUnit) : List Nat :=
  ctxIds.filter (fun x => (s.ctx x).st == .running && (match unitPart u with | some p => inMask (s.ctx x).mask p | none => true))

/-- The report of a hang to every coordinator concerned; it also orders level 1, but for an action that loses no data (R285). -/
def State.reportHang (s : State) (u : HangUnit) (loses : Bool) : State :=
  match hangReport u with
  | none => s
  | some f => forEach (s.servedBy u) s (fun s x =>
      let was := (s.ctx x).faulted
      let s := s.report x f
      if loses then s else s.updCtx x (fun c => { c with faulted := was }))

/-- The transient a hang counts against its unit (R265, R284). -/
def State.hangTransient (s : State) (u : HangUnit) : State :=
  let t := s.countTransient (hangKey u)
  if !t.1 then t.2
  else
    match u with
    | .xpose p e => t.2.permanentUnit 0xFF (hangKey u) p (some e) 0 0
    | .port _ => t.2.bump .detPermanent 0
    | .calCore _ _ => t.2.bump .detPermanent 0
    | _ => match unitPart u with
      | some p => t.2.permanentUnit 0xFF (hangKey u) p none 0 0
      | none => (t.2.bump .detPermanent 0).recover (hangKey u) 4 0 true

/-- A level-2 action on a unit: what it holds is discarded (Table 11.1). -/
def State.engineReset (s : State) (u : HangUnit) : State :=
  let s := match u with
    | .sequencer cl _ => s.updCluster cl Cluster.cleared
    | .clusterControl cl => s.updCluster cl Cluster.cleared
    | .square d => if d < 4 then s.updFab (fun f => { f with slots := [] }) else s.updTel (fun t => { t with slots := [] })
    | _ => s
  s.recover (hangKey u) 2 ((unitPart u).getD 0) (unitPart u).isNone

/-- Geyser of a partition restarts, and what the buddy has not acknowledged is sent again (Table 11.3). -/
def State.geyRestart (s : State) (u : HangUnit) : State :=
  forEach (s.servedBy u) s (fun s x =>
    let g := (s.ctx x).gey
    let s := if g.seedAcks.isEmpty then s else (s.updGey x (fun g => { g with seedAcks := [] })).seed x (fun _ => true)
    if g.streamAcks.isEmpty then s
    else
      let s := (s.updGey x (fun g => { g with streamAcks := [] })).stream x (s.ctx x).finished
      if (s.ctx x).exec.captured then s.captureImages x else s)

/-- The first action of a row of Table 11.3. -/
def State.hangFirst (s : State) (u : HangUnit) : State :=
  match u with
  | .sequencer cl _ => s.engineReset (.clusterControl cl)
  | .geyser _ => s.geyRestart u
  | .crossing _ => s
  | .port p => s.fullRetrain p
  | .calCore h _ => s.calRelease h
  | _ => s.engineReset u

/-- The second action of a row of Table 11.3. -/
def State.hangSecond (s : State) (u : HangUnit) : State :=
  match u with
  | .sequencer _ _ => s.engineReset u
  | .clusterControl cl => s.recover (hangKey u) 3 (clusterPart cl)
  | .dma p => s.recover (hangKey u) 3 p
  | .xpose p e => s.wantAct 2 (4 * p + e)
  | .geyser p => s.recover (hangKey u) 3 p
  | .square _ => s.recover (hangKey u) 4 0 true
  | .crossing _ => s.recover (hangKey u) 4 0 true
  | .port p =>
    (((s.loseFlits p).updPort p (fun q => { q with st := .held, heldAt := some s.time.loc, width := 0, req := none })).noteBundle
      (s.port p).dir).reselect
  | .calCore h _ => s.calFence h

/-- A first action that loses no data (R285). -/
def losesData : HangUnit → Bool
  | .geyser _ => false
  | .crossing _ => false
  | _ => true

/-- HANG_WINDOW_EXPIRY (R284): the row's first action, or its second where the counter stayed unchanged for one more window
after the first. -/
def execHangWindowExpiry (u : HangUnit) (s : State) : Host.Outcome State Fault Refusal :=
  if !hasUnit u then .fault (.noSuchUnit "unit of Table 11.3")
  else .next (
    let k := hangKey u
    let t := s.now
    let again := match KMap.find s.recov.hangs k with
      | some a => decide (t ≤ a + hangWindow s.cfg u)
      | none => false
    let s := s.bump .recHang 0
    if again then
      let s := s.updRecov (fun r => { r with hangs := KMap.del r.hangs k })
      ((s.reportHang u true).hangTransient u).hangSecond u
    else
      let s := s.updRecov (fun r => { r with hangs := KMap.put r.hangs k t })
      ((s.reportHang u (losesData u)).hangTransient u).hangFirst u)

/-- ACTION_BOUND_EXPIRY (R276): an action of level 2 to 4 overran its bound, and one of the next level takes its place. -/
def execActionBoundExpiry (u : HangUnit) (level : Nat) (s : State) : Host.Outcome State Fault Refusal :=
  if !hasUnit u then .fault (.noSuchUnit "unit of Table 11.3")
  else .next (
    let p := unitPart u
    if level < 2 ∨ 4 < level then s
    else s.recover (hangKey u) (if level = 2 ∧ p.isNone then 4 else level + 1) (p.getD 0) p.isNone)

/-- PARTITION_REFILL_DONE (R279): every block of the share has come and verified, so the partition is whole again. -/
def execPartitionRefillDone (p : Nat) (s : State) : Host.Outcome State Fault Refusal :=
  if 16 ≤ p then .fault (.noSuchUnit "partition")
  else .next (
    match KMap.find s.mem.refill p with
    | some 0 => s.updMem (fun m => { m with refill := KMap.del m.refill p })
    | _ => s)

/-- DIE_LINK_FAIL (R283): the die ring becomes a line at the next step boundary, with a LINK report; a second failed link splits
the ring and the module is lost. -/
def execDieLinkFail (pos : Nat) (s : State) : Host.Outcome State Fault Refusal :=
  if 4 ≤ pos then .fault (.noSuchUnit "on-package link")
  else .next (
    if s.recov.dieLinks.contains pos then s
    else
      let first := s.recov.dieLinks.isEmpty
      let s := (s.updRecov (fun r => { r with dieLinks := insertAsc pos r.dieLinks })).reportLink 0x31 (36 + pos)
      if first then s.updFab (fun f => { f with dieBreakPending := some pos }) else s.selfLost 4)

end Sys2Proof.Machine
end

