-- ==== Sys2Proof/Machine/Cores.lean ====
section
/-!
DEFINITION. Core commands of the matrix unit and the sequencer (03, 10 R249 to R251): ANCH, MMA, SEND, and what every core command
shares; near-store accesses (04 R101).
-/
namespace Sys2Proof

/-- The operand element a command carries, as an operand form. -/
def InElem.elem (e : InElem) : Elem := { bits := e.bits, scale := e.scale }

/-- The identifiers every report of a command carries: operator, layer, logical core and slot (R60). -/
def CoreCmd.tag (c : CoreCmd) (layer : Nat) (f : FaultParam) : FaultParam :=
  { f with opId := c.opId, layer, physValid := true, physCore := Machine.physCore (Machine.coreCluster c.core) c.slot, logicalValid := true,
           logicalCore := c.core }

/-- The pairs a sparse operand's stored values form with the other operand: an invalid nibble's group forms none (R74). -/
def sparsePairs (stored full : List InElem) (nibs : List Nat) : List (InElem × InElem) :=
  let z : InElem := { bits := 0, scale := 0xFF }
  (nibs.zipIdx.map (fun n =>
    let i := n.1 % 4
    let j := n.1 / 4 % 4
    if i < j then [(stored.getD (2 * n.2) z, full.getD (4 * n.2 + i) z), (stored.getD (2 * n.2 + 1) z, full.getD (4 * n.2 + j) z)]
    else [])).flatten

/-- The pairs (A element, B element) of one output cell, in reduction order. -/
def Tile.pairs (t : Tile) (sparse r j : Nat) : List (InElem × InElem) :=
  let a := t.aRows.getD r []
  let b := t.bCols.getD j []
  match sparse with
  | 1 => sparsePairs a b (t.nibbles.getD r [])
  | 2 => (sparsePairs b a (t.nibbles.getD j [])).map (fun p => (p.2, p.1))
  | _ => a.zip b

/-- Some nibble of the tile is invalid (R74). -/
def Tile.badNibble (t : Tile) (sparse : Nat) : Bool :=
  sparse != 0 && t.nibbles.any (fun l => l.any (fun n => decide (n / 4 % 4 ≤ n % 4)))

/-- The window of an output cell. -/
def Tile.cell (t : Tile) (sparse fa fb r j : Nat) (anchor : Int) : Window :=
  (t.pairs sparse r j).foldl (fun w p => w.addProd (p.1.elem.val fa) (p.2.elem.val fb)) (Window.clear anchor)

/-- The check cell of a row: each A element times the sum of its truncated partners, with the flags of every pair (R42, R249). -/
def Tile.check (t : Tile) (sparse fa fb r : Nat) (anchor : Int) : Window :=
  let cols := List.range t.bCols.length
  let flags := cols.foldl (fun f j => (t.pairs sparse r j).foldl (fun f p =>
    let a := p.1.elem.val fa
    let b := p.2.elem.val fb
    f.or ((prodFlags a b).or { inexact := (arrayTerm a b anchor).2 })) f) WFlags.clear
  let terms : List Int :=
    if sparse = 2 then (cols.map (fun j => (t.pairs 2 r j).map (fun p => checkTerm (p.1.elem.val fa) [p.2.elem.val fb] anchor))).flatten
    else
      let first := t.pairs sparse r 0
      first.zipIdx.map (fun e => checkTerm (e.1.1.elem.val fa)
        (cols.map (fun j => (((t.pairs sparse r j)[e.2]?).map (fun p => p.2.elem.val fb)).getD (.zero false))) anchor)
  { s := BitVec.ofInt 96 terms.sum, anchor, flags }

/-- A hardware disturbance of a cell: bits of S, and above them flag bits, flip. -/
def Window.upset (w : Window) (mask : Nat) : Window :=
  { w with s := w.s ^^^ BitVec.ofNat 96 mask, flags := WFlags.ofNibble (w.flags.nibble ^^^ (mask >>> 96 % 16)) }

/-- The disturbances of a cell applied (column 4 is the check cell). -/
def Tile.disturb (t : Tile) (r j : Nat) (w : Window) : Window :=
  (t.faults.filter (fun f => f.row == r && f.col == j)).foldl (fun w f => w.upset f.mask) w

end Sys2Proof

namespace Sys2Proof.Machine

/-! ### Near store (R101) -/

/-- Bytes of a logical core's near store. -/
def nearSize : Nat := 24576

/-- Write near store: a POISON word keeps its bytes and its mark unless the write covers all of it. -/
def State.writeNear (s : State) (a : Nat) (bs : List Byte) : State :=
  let whole (w : Nat) : Bool := decide (a ≤ w) && decide (w + 8 ≤ a + bs.length)
  let stuck (i : Nat) : Bool := s.mem.nsPoison.contains ((a + i) / 8 * 8) && !whole ((a + i) / 8 * 8)
  let kept := bs.zipIdx.map (fun e => if stuck e.2 then s.byte (a + e.2) else e.1)
  (s.writeBytes a kept).updMem (fun m => { m with nsPoison := m.nsPoison.filter (fun w => !whole w) })

/-- Some word of a near-store range is POISON. -/
def State.nearPoison (s : State) (a n : Nat) : Bool :=
  s.mem.nsPoison.any (fun w => decide (a < w + 8) && decide (w < a + n))

/-! ### What every core command shares (R60, R61) -/

/-- The operator's status gains bits. -/
def State.addStatus (s : State) (x opId : Nat) (t : OpStatus) : State :=
  s.updExec x (fun e => { e with status := KMap.upd e.status opId {} (fun u => u.or t) })

/-- An address that fails R91 at run time: nothing is transferred, ADDR_ERR is set and a PROGRAM report sent (R92). -/
def State.addrErr (s : State) (x opId layer a : Nat) : State :=
  (s.addStatus x opId { addrErr := true }).report x { FaultParam.of 5 0x40 with addr := a, opId, layer }

/-- The slot runs the core's work: the core is on it (R18), or the core is displaced, its image has been streamed in and the slot, ACTIVE,
runs a piece of it (R84, R85). -/
def State.carries (s : State) (core slot : Nat) : Bool :=
  let q := s.cluster (coreCluster core)
  match q.slotOf (core % 256) with
  | some a => a == slot
  | none => q.active.contains slot && q.streaming.isNone

/-- A command of a running attempt: its operator is placed on the core's cluster, and the slot carries the core. Its completion
is one retired command of the slot (R61). -/
def State.onCore (s : State) (c : CoreCmd) (f : Ctx → OpDesc → State → State) : Host.Outcome State Fault Refusal :=
  if 16 ≤ c.ctx ∨ slotsPerCluster ≤ c.slot ∨ 2 ^ 20 ≤ c.core then .fault (.noSuchUnit "context, slot or core")
  else .next (
    let k := s.ctx c.ctx
    match k.op c.opId with
    | none => s
    | some o =>
      if k.st ≠ .running ∨ !k.launched ∨ !(o.clusters.contains (coreCluster c.core)) ∨ !s.carries c.core c.slot then s
      else (f k o s).bump .retired (physCore (coreCluster c.core) c.slot))

/-! ### Anchors (R35 to R37, R66) -/

/-- The format code of an operator's input. -/
def Ctx.inFormat (k : Ctx) (o : OpDesc) (i : Nat) : Nat := ((k.tensor (o.inputs.getD i 0)).map (·.format)).getD 0

/-- The exponent bound of a product term under an anchor source (R35, R36). -/
def pairBound (src fa fb : Nat) (a b : Elem) : Option Int :=
  match anchorExpo src fa a, anchorExpo src fb b with
  | some x, some y => some (x + y + 1)
  | _, _ => none

/-- The bound of a vector reduction's term (R79). -/
def termBound (kind : OpKind) (src fa fb : Nat) (a b : Elem) : Option Int :=
  match kind with
  | .redSumSq => (anchorExpo src fa a).map (fun e => 2 * e + 1)
  | .redDot => pairBound src fa fb a b
  | _ => anchorExpo src fa a

/-- The bound of one row of an anchor pass: over the reduction positions, the row's element with the largest of its partners. A
position that stores no value is delivered as a zero with scale 0xFF (R73). -/
def rowBound (o : OpDesc) (fa fb : Nat) (row : List InElem) (partners : List (List InElem)) : Option Int :=
  let src := o.anchorSrc
  match o.kind with
  | .mma =>
    maxBounds (row.zipIdx.map (fun e =>
      match anchorExpo src fa e.1.elem, maxBounds ((partners.getD e.2 []).map (fun b => anchorExpo src fb b.elem)) with
      | some x, some y => some (x + y + 1)
      | _, _ => none))
  | k => maxBounds (row.zipIdx.map (fun e =>
      termBound k src fa fb e.1.elem (((partners.getD e.2 []).head?.map (·.elem)).getD { bits := 0, scale := 0xFF })))

/-- The key of a row of an operator. -/
def rowKey (opId row : Nat) : Nat := opId * 2 ^ 32 + row

/-- The anchor of a row: 63 under FIXED (R36), else what the anchor passes have found. -/
def Ctx.anchorFor (k : Ctx) (o : OpDesc) (row : Nat) : Option Int :=
  if o.anchorSrc = 2 then some 63 else KMap.find k.exec.anchors (rowKey o.opId row)

/-- ANCH: the core's share of the exponent or scale pass; the row's anchor is the largest bound so far (R35, R66). -/
def execAnch (c : CoreCmd) (share : AnchShare) (s : State) : Host.Outcome State Fault Refusal :=
  s.onCore c (fun k o s =>
    let fa := k.inFormat o 0
    let fb := k.inFormat o 1
    forEach share.rows s (fun s r =>
      s.updExec c.ctx (fun e =>
        let b := maxBound (KMap.getD e.bounds (rowKey c.opId r.1) none) (rowBound o fa fb r.2 share.partners)
        { e with bounds := KMap.put e.bounds (rowKey c.opId r.1) b, anchors := KMap.put e.anchors (rowKey c.opId r.1) (anchorOf b) })))

/-! ### Tile passes (R62 to R74, R249) -/

/-- The comparison of R249 on a row: none where it passes, else DETAIL of the report (Table 10.2). -/
def checkDetail (cells : List Window) (chk : Window) : Option Nat :=
  let d := chk.s - cells.foldl (fun a w => a + w.s) 0#96
  let f := cells.foldl (fun a w => a.or w.flags) WFlags.clear
  if d = 0#96 ∧ f = chk.flags then none
  else
    let low := ((List.range 96).find? (fun i => d.getLsbD i)).getD 127
    some (field low 7 0 + field (b2n (decide (f ≠ chk.flags))) 1 7 + field f.nibble 4 8 + field chk.flags.nibble 4 12)

/-- A core or adder mismatch on a slot awaits its repeat, or is seen again in it (R262, R266). -/
def State.noteMismatch (s : State) (c : CoreCmd) (layer : Nat) : State :=
  let k := s.ctx c.ctx
  let a := physCore (coreCluster c.core) c.slot
  let same (r : Repeat) : Bool := !r.shadow && r.ctx == c.ctx && r.step == k.step && r.slot == some a
  if s.recov.repeats.any (fun r => same r && (r.attempt + 1) % 16 == k.attempt) then
    s.updRecov (fun q => { q with repeats := q.repeats.map (fun r =>
      if same r && (r.attempt + 1) % 16 == k.attempt then { r with failedAgain := true } else r) })
  else if s.recov.repeats.any (fun r => same r && r.attempt == k.attempt) then s
  else
    let vote (r : Repeat) : Bool := r.shadow && r.ctx == c.ctx && r.step == k.step && r.attempt == k.attempt &&
      (r.slot == some a || r.slotQ == some a)
    s.updRecov (fun q => { q with repeats := q.repeats.filter (fun r => !vote r) ++ [{
    ctx := c.ctx, step := k.step, attempt := k.attempt, slot := some a, core := c.core, opId := c.opId, layer, shadow := false,
    slotQ := none, slotT := none, agreed := none, failedAgain := false }] })

/-- A term's bound exceeds its anchor: ANCHOR_VIOLATION in the status, and the report (R45, Table 10.2). -/
def State.anchorFault (s : State) (c : CoreCmd) (layer : Nat) (bound anchor : Int) : State :=
  let s := (s.addStatus c.ctx c.opId { anchorViolation := true }).noteMismatch c layer
  s.report c.ctx (c.tag layer { FaultParam.of 1 0x03 with detail := field (ofInt 16 bound) 16 0 + field (ofInt 16 anchor) 16 16 })

/-- One row of a mismatch at t_L + 9: counted, reported with the tile row, its slot to be classified (R67, R249, R262). -/
def State.checkFault (s : State) (c : CoreCmd) (layer r detail : Nat) : State :=
  let s := (s.bump .clCheckMismatch (coreCluster c.core)).noteMismatch c layer
  s.report c.ctx (c.tag layer { FaultParam.of 1 0x01 with tileRow := r, detail })

/-- Eight cores of one grid row whose windows the drain combiner takes together (R71). -/
def mxGroup (core : Nat) : List Nat := List.range' (core / 8 * 8) 8

/-- The drain combiner (R71, R50): once the eight cores have drained, each row's 32 outputs are one MX block. The element bytes
go to each core's near store, and after them the block's scale byte of each row (log 42). -/
def State.combine (s : State) (c : CoreCmd) (k : Ctx) (o : OpDesc) (t : Tile) (n : Nat) : State :=
  let e := (s.ctx c.ctx).exec
  let cores := mxGroup c.core
  if cores.any (fun q => (KMap.getD e.raw q []).isEmpty) then s
  else
    let code := o.outFormat
    let base := c.core / 16 % 16 * 4 + 64 * t.blockRow
    let col0 := 64 * t.blockCol + c.core % 16 / 8 * 32
    let rows := (List.range t.aRows.length).map (fun r =>
      let vals := (cores.map (fun q => (List.range 4).map (fun j =>
        (((KMap.getD e.raw q []).find? (fun w => w.1 == r && w.2.1 == j)).map (fun w => w.2.2.val)).getD (.zero false)))).flatten
      quantMx (elemFmt code) (fun i => rmodeOf o.round k.seed k.step o.output ((base + r) * n + col0 + i)) o.infMode vals)
    let s := forEach cores.zipIdx s (fun s q =>
      let els := (rows.map (fun r => slice r.2.1 (4 * q.2) 4)).flatten
      s.writeNear (nearAddr q.1 t.nearOff) (packElems (elemFmt code) els ++ rows.map (fun r => BitVec.ofNat 8 r.1)))
    let s := s.when (rows.any (·.2.2)) (fun s => s.addStatus c.ctx c.opId { ovf := true })
    s.updExec c.ctx (fun e => { e with raw := e.raw.filter (fun w => !cores.contains w.1) })

/-- MMA: one tile pass (R62 to R74): its beats and bubbles counted, its windows summed under their rows' anchors, the check
column compared, and its outputs converted into near store or kept raw for SEND. No valid beat issues before the
anchors of every row are loaded (R66). -/
def execMma (c : CoreCmd) (tile : Tile) (s : State) : Host.Outcome State Fault Refusal :=
  s.onCore c (fun k o s =>
    let g := coreCluster c.core
    let fa := k.inFormat o 0
    let fb := k.inFormat o 1
    let sp := o.sparse
    let row0 := 64 * tile.blockRow + c.core / 16 % 16 * 4
    let col0 := 64 * tile.blockCol + c.core % 16 * 4
    let rs := List.range tile.aRows.length
    let cs := List.range tile.bCols.length
    if o.kind ≠ .mma ∨ rs.any (fun r => (k.anchorFor o (row0 + r)).isNone) then s
    else
      let anchor (r : Nat) : Int := (k.anchorFor o (row0 + r)).getD emptyAnchor
      let stored := if sp = 2 then maxL (tile.bCols.map List.length) else maxL (tile.aRows.map List.length)
      let beats := ceilDiv stored ((pairDepth fa fb).getD 1)
      let bubbles := tile.operandBubbles + tile.anchorBubbles + tile.sliceBubbles
      let s := (((((s.bump .validBeats g beats).bump .bubbleOperand g tile.operandBubbles).bump .bubbleAnchor g tile.anchorBubbles).bump
        .bubbleSlice g tile.sliceBubbles).bump .bubblePad g (4 - (beats + bubbles)))
      let cells (r : Nat) : List Window := cs.map (fun j => tile.disturb r j (tile.cell sp fa fb r j (anchor r)))
      let chk (r : Nat) : Window := tile.disturb r 4 (tile.check sp fa fb r (anchor r))
      let s := if tile.badNibble sp then
          let s := s.addStatus c.ctx c.opId { sparseMeta := true }
          if k.exec.sparseAt.contains (4096 * c.opId + g) then s
          else (s.bump .clSparseMeta g).updExec c.ctx (fun e => { e with sparseAt := (4096 * c.opId + g) :: e.sparseAt })
        else s
      let beyond (r : Nat) : Option Int :=
        if o.anchorSrc = 2 then none
        else maxBounds (cs.map (fun j => maxBounds ((tile.pairs sp r j).map (fun p => pairBound o.anchorSrc fa fb p.1.elem p.2.elem))))
      let s := forEach rs s (fun s r => if boundExceeds (beyond r) (anchor r) then s.anchorFault c o.layer ((beyond r).getD 0) (anchor r) else s)
      let s := forEach rs s (fun s r => match checkDetail (cells r) (chk r) with
        | some d => s.checkFault c o.layer r d
        | none => s)
      let n := ((k.tensor o.output).map Tensor.lastExt).getD 1
      if tile.raw || isMx o.outFormat then
        let es := (rs.map (fun r => (cells r).zipIdx.map (fun w => (r, w.2, w.1)) ++ [(r, 4, chk r)])).flatten
        let s := s.updExec c.ctx (fun e => { e with raw := KMap.put e.raw c.core es })
        if tile.raw then s else s.combine c k o tile n
      else
        let outs := (rs.map (fun r => (cells r).zipIdx.map (fun w =>
          convOut o.outFormat (rmodeOf o.round k.seed k.step o.output ((row0 + r) * n + col0 + w.2)) o.infMode w.1.val))).flatten
        let s := s.addStatus c.ctx c.opId { ovf := outs.any (·.2), inexact := rs.any (fun r => (cells r).any (fun w => w.flags.inexact)) }
        let bytes := packElems o.outFormat (outs.map (·.1))
        if nearSize < tile.nearOff + bytes.length then s.addrErr c.ctx c.opId o.layer (nearAddr c.core tile.nearOff)
        else s.writeNear (nearAddr c.core tile.nearOff) bytes)

/-! ### SEND (R70, R84, R251) -/

/-- The key of a tile row in the cluster window adder. -/
def adderKey (g opId row col : Nat) : Nat := ((g * 2 ^ 32 + opId) * 2 ^ 32 + row) * 2 ^ 32 + col

/-- One tile row of raw windows enters the adder; after its last part R249 is applied to the sums, and the outputs are converted
and stored in the operator's output tensor (log 42). -/
def State.adderRow (s : State) (c : CoreCmd) (k : Ctx) (o : OpDesc) (row col parts colCount : Nat) (ws : List (Nat × Window)) : State :=
  let key := adderKey (coreCluster c.core) c.opId row col
  let old := KMap.getD (s.ctx c.ctx).exec.adder key (0, [])
  let sums := if old.2.isEmpty then ws else old.2.map (fun w => (w.1, match ws.find? (fun v => v.1 == w.1) with
    | some v => w.2.add v.2
    | none => w.2))
  if old.1 + 1 < parts then s.updExec c.ctx (fun e => { e with adder := KMap.put e.adder key (old.1 + 1, sums) })
  else
    let s := s.updExec c.ctx (fun e => { e with adder := KMap.del e.adder key })
    let cells := (sums.filter (fun w => decide (w.1 < 4))).map (·.2)
    let s := match sums.find? (fun w => w.1 == 4) with
      | none => s
      | some chk => match checkDetail cells chk.2 with
        | none => s
        | some d =>
          let s := s.noteMismatch c o.layer
          s.report c.ctx (c.tag o.layer { FaultParam.of 1 0x02 with detail := d + field row 6 16 })
    match k.tensor o.output with
    | none => s
    | some t =>
      let outs := ((sums.filter (fun w => decide (w.1 < 4) && decide (col + w.1 < colCount))).map (fun w =>
        let i := row * colCount + col + w.1
        (i, convOut o.outFormat (rmodeOf o.round k.seed k.step o.output i) o.infMode w.2.val)))
      let s := s.when (outs.any (·.2.2)) (fun s => s.addStatus c.ctx c.opId { ovf := true })
      s.putElems c.ctx t c.opId o.layer ((outs.filter (fun e => decide (e.1 < t.elems))).map (fun e => (e.1, e.2.1)))

/-- The module's own elements of a block enter its Square slot; with all of them there the module has contributed (R151). -/
def State.contribute (s : State) (x coll block : Nat) (els : List (Nat × SqWindow × Nat)) (form : Nat) : State :=
  match (s.ctx x).collective coll with
  | none => s
  | some d =>
    let q := s.slotOf x coll block d.op form
    if q.from_.contains s.locus then s.bump .fabStale 0
    else
      let a := (els.head?.map (fun e => e.2.1.anchor)).getD 0
      let bad := !q.windows.isEmpty && d.op == 0 && q.windows.any (fun w => w.anchor != a)
      let ws := if d.op ≠ 0 then [] else
        let base := if q.windows.isEmpty then List.replicate groupSize (SqWindow.clear a) else q.windows
        els.foldl (fun l e => l.set e.1 ((l.getD e.1 (SqWindow.clear a)).add e.2.1)) base
      let vs := if d.op = 0 then [] else
        let base := if q.values.isEmpty then List.replicate groupSize none else q.values.map some
        (els.foldl (fun l e => l.set e.1 (some (match l.getD e.1 none with
          | some v => elemFold d.op form v (elemEnter d.op form e.2.2)
          | none => elemEnter d.op form e.2.2))) base).map (fun v => v.getD (elemNeutral d.op form))
      let own := els.foldl (fun l e => insertAsc e.1 l) q.own
      let total := min groupSize (((s.ctx x).tensor d.inTensor).elim groupSize (fun t => t.elems - groupSize * block))
      let whole := decide (total ≤ own.length)
      let q := { q with windows := ws, values := vs, own, contrib := if whole then q.contrib + 1 else q.contrib,
                        from_ := if whole then q.from_ ++ [s.locus] else q.from_ }
      let s := s.putSlot q
      let s := if bad then s.squareViolation x d block a ((q.windows.head?.map (·.anchor)).getD 0) else s
      if whole then s.settleSlots x else s
where
  /-- The value that changes no MAX, MIN or AMAX of elements still to come: the lowest, the highest, or zero. -/
  elemNeutral (op form : Nat) : Nat :=
    match op, form with
    | 1, 3 => 0x8000
    | 2, 3 => 0x7FFF
    | 1, 2 => 0xFF80
    | 2, 2 => 0x7F80
    | 1, _ => 0xFF800000
    | 2, _ => 0x7F800000
    | _, _ => 0

/-- SEND: the core's windows go to the cluster window adder or as raw windows to a Square, or a value goes to a Square. A value
enters on its anchor block's grid, and one above it is a violation (R43, R45). -/
def execSend (c : CoreCmd) (dest : SendTo) (s : State) : Host.Outcome State Fault Refusal :=
  s.onCore c (fun k o s =>
    let raw := KMap.getD k.exec.raw c.core []
    let clear (s : State) : State := s.updExec c.ctx (fun e => { e with raw := KMap.del e.raw c.core })
    match dest with
    | .adder row col parts colCount =>
      let rows := raw.foldl (fun l w => insertAsc w.1 l) []
      forEach rows (clear s) (fun s r =>
        s.adderRow c k o (row + r) col parts colCount ((raw.filter (fun w => w.1 == r)).map (fun w => w.2)))
    | .squareRaw coll block elem =>
      let ws := (raw.filter (fun w => decide (w.2.1 < 4))).map (fun w => SqWindow.ofRaw w.2.2)
      (clear s).contribute c.ctx coll block ((ws.zipIdx.map (fun w => (elem + w.2, w.1, 0))).filter (fun e => decide (e.1 < groupSize))) 0
    | .squareVal coll block elem bits =>
      match k.collective coll with
      | none => s
      | some d =>
        if groupSize ≤ elem then s
        else if d.op = 0 then
          let v := if d.inForm = 2 then decodeElem 1 bits else decodeElem 0 bits
          let a := (KMap.find k.exec.anchors (rowKey c.opId block)).getD emptyAnchor
          let s := if boundExceeds v.expo a then s.squareViolation c.ctx d block (v.expo.getD 0) a else s
          s.contribute c.ctx coll block [(elem, (SqWindow.clear a).addVal v, 0)] 0
        else s.contribute c.ctx coll block [(elem, SqWindow.clear 0, bits)] d.inForm)

end Sys2Proof.Machine
end

