-- ==== Sys2Proof/Machine/EvrCommands.lean ====
section
/-!
DEFINITION. The event recorder's commands and its timers (14 R359, R362 to R365).
-/
namespace Sys2Proof.Machine

/-- The live log in SEQ order from the oldest; spill records enter it when the freeze ends (R362, R363). -/
def Evr.all (e : Evr) : List EvRec := e.log

/-- The oldest SEQ a read compares from: the snapshot's for a freeze holder, the log's otherwise (R363). -/
def Evr.base (e : Evr) (holder : Bool) : Nat :=
  match e.freeze with
  | some f => if holder then f.oldest else ((e.all.head?).map (·.seq)).getD e.nextSeq
  | none => ((e.all.head?).map (·.seq)).getD e.nextSeq

/-- The requester holds the standing freeze. -/
def Evr.heldBy (e : Evr) (r : Req) : Bool :=
  match e.freeze with
  | some f => f.holder.binding == r.binding && f.holder.eid == r.eid
  | none => false

/-- Another requester holds a freeze. -/
def Evr.heldByOther (e : Evr) (r : Req) : Bool := e.freeze.isSome && !e.heldBy r

/-- EVR_RECORD_CLOSE (R359): an OPEN record's fold time has passed. -/
def execEvrRecordClose (seq : Nat) (s : State) : Host.Outcome State Fault Refusal :=
  .next (s.updEvr (fun e => e.close seq))

/-- EVR_INFO (Table 14.5): oldest and newest SEQ, count, BOOT, holder, CAL_EVR_STATUS. Over I3C it clears the alert latch
(17 R429). -/
def execEvrInfo (r : Req) (s : State) : Host.Outcome State Fault Refusal :=
  .next (s.vendorGate r 0x30 false false (fun s =>
    let e := s.evr
    let newest := ((e.all.getLast?).map (·.seq)).getD ((e.nextSeq + 2 ^ 32 - 1) % 2 ^ 32)
    let holder := match e.freeze with | some f => f.holder.eid | none => 0xFF
    (s.updEvr (fun e => if r.binding = 0 then { e with alert := false } else e)).vendor r 0x30 0
      (leBytes 4 (e.base false) ++ leBytes 4 newest ++ leBytes 4 e.all.length ++ leBytes 2 (s.flash.boot % 2 ^ 16) ++
        leBytes 1 holder ++ leBytes 4 (s.regVal .evrStatus 0))))

/-- EVR_FREEZE (R362): one freeze stands at a time; its holder renews it; another requester is told BUSY with the
remaining time in ms. -/
def execEvrFreeze (r : Req) (s : State) : Host.Outcome State Fault Refusal :=
  .next (s.vendorGate r 0x31 false false (fun s =>
    match s.evr.freeze with
    | some f =>
      if s.evr.heldBy r then
        (s.updEvr (fun e => { e with freeze := some { f with since := s.time.loc } })).vendor r 0x31 0
          (leBytes 4 f.oldest ++ leBytes 4 f.newest)
      else
        let left := s.cfg.evrFreezeMaxMs - (s.time.loc - f.since) / 1000000
        s.vendor r 0x31 2 (leBytes 4 left)
    | none =>
      let oldest := s.evr.base false
      let newest := ((s.evr.log.getLast?).map (·.seq)).getD ((s.evr.nextSeq + 2 ^ 32 - 1) % 2 ^ 32)
      (s.updEvr (fun e => { e with freeze := some { holder := r, oldest, newest, since := s.time.loc } })).vendor r 0x31 0
        (leBytes 4 oldest ++ leBytes 4 newest)))

/-- The records an EVR_READ examines, with those it returns: up to MAX_COUNT at or above MIN_SEV (R363). -/
def evrScan (minSev : Nat) : Nat → List EvRec → List EvRec × List EvRec
  | _, [] => ([], [])
  | 0, _ :: _ => ([], [])
  | k + 1, r :: rs =>
    if minSev ≤ r.severity then
      let p := evrScan minSev k rs
      (r :: p.1, r :: p.2)
    else
      let p := evrScan minSev (k + 1) rs
      (r :: p.1, p.2)
termination_by structural _ rs => rs

/-- EVR_READ (R363). -/
def execEvrRead (r : Req) (fromSeq maxCount minSev : Nat) (s : State) : Host.Outcome State Fault Refusal :=
  .next (s.vendorGate r 0x32 false false (fun s =>
    if maxCount = 0 ∨ 40 < maxCount then s.vendor r 0x32 4 []
    else
      let e := s.evr
      let holder := e.heldBy r
      let base := e.base holder
      let scope := if holder then
          (match e.freeze with
           | some f => e.all.filter (fun x => decide (serialDist 32 x.seq f.oldest ≤ serialDist 32 f.newest f.oldest))
           | none => e.all)
        else e.all
      let from_ := scope.filter (fun x => decide (serialOff 32 fromSeq base ≤ serialOff 32 x.seq base))
      let p := evrScan minSev maxCount from_
      let next := match p.1.getLast? with | some x => (x.seq + 1) % 2 ^ 32 | none => fromSeq
      let more := decide (p.1.length < from_.length)
      s.vendor r 0x32 0 (leBytes 4 next ++ leBytes 1 (b2n more) ++ leBytes 1 p.2.length ++
        (p.2.map (fun x => x.bytes s.locus)).flatten)))

/-- EVR_RELEASE (R362): the holder ends its freeze. -/
def execEvrRelease (r : Req) (s : State) : Host.Outcome State Fault Refusal :=
  .next (s.vendorGate r 0x33 false false (fun s =>
    if s.evr.heldByOther r then s.vendor r 0x33 2 []
    else (s.when s.evr.freeze.isSome State.endFreeze).vendor r 0x33 0 []))

/-- EVR_CLEAR (R364): closed records up to UPTO_SEQ and MAX_SEV go; a CLEARED record says so; the holder's freeze ends. -/
def execEvrClear (r : Req) (uptoSeq maxSev : Nat) (s : State) : Host.Outcome State Fault Refusal :=
  .next (s.vendorGate r 0x34 false true (fun s =>
    if !(s.cfg.evrClearChannels).testBit r.binding then s.vendor r 0x34 3 []
    else if s.evr.heldByOther r then s.vendor r 0x34 2 []
    else
      let s := s.when s.evr.freeze.isSome State.endFreeze
      let base := s.evr.base false
      let gone := fun (x : EvRec) => !x.isOpen && decide (x.severity ≤ maxSev) &&
        decide (serialOff 32 x.seq base ≤ serialOff 32 uptoSeq base)
      let n := (s.evr.log.filter gone).length
      let s := s.updEvr (fun e => { e with log := e.log.filter (fun x => !gone x) })
      let s := (s.bump .evrClears 0).withLog ((s.bump .evrClears 0).toLog.evrBit 29)
      (s.record { code := 0x0F01, sev := 1, data := [r.binding, r.eid, uptoSeq, maxSev, n] }).vendor r 0x34 0 (leBytes 4 n)))

/-- EVR_FREEZE_TIMEOUT (R362): the freeze has outlived its last request. -/
def execEvrFreezeTimeout (s : State) : Host.Outcome State Fault Refusal :=
  .next (match s.evr.freeze with
    | none => s
    | some f => (s.record { code := 0x0F03, sev := 1, data := [f.holder.binding, f.holder.eid] }).endFreeze)

end Sys2Proof.Machine
end

