-- ==== Sys2Proof/Machine/Images.lean ====
section
/-!
DEFINITION. Nearad images (16 R391 to R394, R397, R398): their layout, the tests of Table 16.6, and the image a CONFIG_ONLY image is
built into.
-/
namespace Sys2Proof

/-! ### Fields (Tables 16.2 to 16.5) -/

def imgConfigOnly (m : List Byte) : Bool := (leAt m 9 1).testBit 0
def imgFwMajor (m : List Byte) : Nat := leAt m 8 1
def imgFwMinor (m : List Byte) : Nat := leAt m 10 2
def imgSecVersion (m : List Byte) : Nat := leAt m 12 1
def imgFwLen (m : List Byte) : Nat := leAt m 16 4
def imgCfgOff (m : List Byte) : Nat := leAt m 20 4
def imgCfgLen (m : List Byte) : Nat := leAt m 24 4
def imgHasCfg (m : List Byte) : Bool := imgCfgLen m != 0
/-- The configuration part. -/
def imgCfg (m : List Byte) : List Byte := slice m (imgCfgOff m) (imgCfgLen m)
def imgSerial (m : List Byte) : Nat := if imgHasCfg m then leAt (imgCfg m) 8 8 else 0
/-- Section entry e: type, offset, length, digest. -/
def imgSection (m : List Byte) (e : Nat) : Nat × Nat × Nat × List Byte :=
  let b := slice m (256 + 64 * e) 64
  (leAt b 0 2, leAt b 4 4, leAt b 8 4, slice b 12 48)

/-- Bytes of an image slot (Table 16.1). -/
def slotCapacity : Nat := 48 * 2 ^ 20 - 4096

/-! ### The tests of Table 16.6 -/

def zeros (m : List Byte) (i n : Nat) : Bool := (slice m i n).all (· == 0)

/-- The configuration part is laid out as Table 16.5 and R391 say: header, entries, signature block. -/
def cfgLayoutOk (c : List Byte) : Bool :=
  decide (320 ≤ c.length) && leAt c 0 4 == 0x3146434E && leAt c 4 2 == 1 && zeros c 20 44 && c.length == 64 + leAt c 16 4 + 256 &&
  zeros c (c.length - 254) 2 && zeros c (c.length - 155) 3 && zeros c (c.length - 56) 56

/-- Code 0x02: magic, format, flags, lengths, offsets, section count and reserved fields. -/
def imgLayoutOk (m : List Byte) (configOnly : Bool) : Bool :=
  let fw := imgFwLen m
  let n := if configOnly then 0 else 7
  let secs := (List.range n).map (imgSection m)
  decide (4096 ≤ m.length) && decide (m.length ≤ slotCapacity) && leAt m 0 4 == 0x3144524E && leAt m 4 2 == 1 &&
  leAt m 9 1 == b2n configOnly && decide (imgSecVersion m ≤ 63) && zeros m 13 3 && zeros m 30 226 && leAt m 28 2 == n &&
  zeros m (256 + 64 * n) (3840 - 64 * n) && fw % 4096 == 0 && decide (fw ≤ m.length) &&
  (if imgHasCfg m then decide (fw ≤ imgCfgOff m) && decide (imgCfgOff m + imgCfgLen m ≤ m.length) && cfgLayoutOk (imgCfg m)
   else imgCfgOff m == 0) &&
  (if configOnly then fw == 4096 && imgCfgOff m == 4096
   else
    decide (8192 ≤ fw) &&
    (List.range 7).all (fun e =>
      let s := imgSection m e
      let next := if e = 6 then fw - 4096 else (imgSection m (e + 1)).2.1
      zeros m (256 + 64 * e + 2) 2 && zeros m (256 + 64 * e + 60) 4 && s.2.1 % 4096 == 0 && decide (s.2.1 + s.2.2.1 ≤ next)) &&
    (match secs.head? with | some s => s.2.1 == 4096 | none => true) &&
    zeros m (fw - 4094) 2 && zeros m (fw - 3995) 3 && zeros m (fw - 3896) 56)

/-- A signature block (Table 16.4) signs a message with a key of a slot that is filled and not revoked. -/
def signedBy (block msg : List Byte) (slotDigest : Nat → Option (List Byte)) : Bool :=
  let key := slice block 4 97
  leAt block 0 1 == 1 && decide (leAt block 1 1 < 4) &&
  (match slotDigest (leAt block 1 1) with
   | none => false
   | some d => sha384 key == d && ecdsaVerify key (slice block 104 96) (sha384 msg))

/-- Code 0x03: the firmware signature, made with CFG_OFF and CFG_LEN taken as zero (R392). -/
def fwSigned (m : List Byte) (keys : List (List Byte × Bool)) : Bool :=
  let fw := imgFwLen m
  decide (8192 ≤ fw) &&
  signedBy (slice m (fw - 4096) 256) ((m.take 20) ++ List.replicate 8 0#8 ++ slice m 28 (fw - 4096 - 28))
    (fun k => match keys[k]? with | some (d, false) => some d | _ => none)

/-- Code 0x04: section digests, and each type 1 to 7 once. -/
def sectionsOk (m : List Byte) : Bool :=
  let s := (List.range 7).map (imgSection m)
  s.all (fun e => sha384 (slice m e.2.1 e.2.2.1) == e.2.2.2) && (List.range' 1 7).all (fun t => (s.filter (fun e => e.1 == t)).length == 1)

/-- Code 0x07: no configuration part, or one that the owner signed (R392). -/
def ownerSigned (m : List Byte) (owners : List (List Byte × Bool)) : Bool :=
  let c := imgCfg m
  !imgHasCfg m || signedBy (c.drop (c.length - 256)) (c.take (c.length - 256))
    (fun k => match owners[k]? with | some (d, false) => some d | _ => none)

/-- The configuration an image carries; every field at its default without a configuration part. -/
def imgConfig (m : List Byte) : Option Cfg :=
  if imgHasCfg m then
    let c := imgCfg m
    Cfg.parseEntries (leAt c 6 2) (slice c 64 (leAt c 16 4)) 0 Cfg.dflt
  else some Cfg.dflt

/-- The first failure among codes with their tests, 0 for none. -/
def firstCode (l : List (Nat × Bool)) : Nat := ((l.find? (fun e => !e.2)).map (·.1)).getD 0

/-- Codes 0x03 to 0x06 on the firmware part of `m`. -/
def fwCodes (m : List Byte) (f : Machine.Flash) : List (Nat × Bool) :=
  [(0x03, fwSigned m f.mbawen), (0x04, sectionsOk m), (0x05, decide (f.secMin ≤ imgSecVersion m)),
   (0x06, leAt m 6 2 == arithRev && imgFwMajor m == 1)]

/-- Codes 0x07 to 0x0A on the configuration part of `m`. -/
def cfgCodes (m : List Byte) (owners : List (List Byte × Bool)) (serial : Nat) : List (Nat × Bool) :=
  [(0x07, ownerSigned m owners), (0x08, !imgHasCfg m || decide (serial ≤ imgSerial m)), (0x09, (imgConfig m).isSome),
   (0x0A, ((imgConfig m).map Cfg.crossOk).getD false)]

/-- Code 0x0C: the regions fit the allocatable capacity under the fault map (R105): no partition has lost more pseudo-channels than
are set aside. -/
def Cfg.fitsMap (c : Cfg) (retired : List Nat) : Bool :=
  c.regionsFit && (List.range 16).all (fun p => decide ((retired.filter (fun k => k / 16 == p)).length ≤ c.hbmPcReserve))

/-- Code 0x0B: every coordinate below its extent (06 R135). -/
def Cfg.coordsOk (c : Cfg) (locus : Nat) : Bool := (List.range 4).all (fun d => decide (Machine.coordOf locus d < c.extent d))

/-- The image that a CONFIG_ONLY image makes of a booted one: its firmware part, then the new configuration part (R398). -/
def composeImage (booted m : List Byte) : List Byte :=
  let fw := imgFwLen booted
  let part := booted.take fw
  part.take 20 ++ leBytes 4 fw ++ leBytes 4 (imgCfgLen m) ++ part.drop 28 ++ imgCfg m

end Sys2Proof

namespace Sys2Proof.Machine

/-- Codes 0x01 to 0x0A on a slot at boot (R394). -/
def Slot.reject (q : Slot) (f : Flash) : Nat :=
  let m := q.image
  firstCode ([(0x01, q.st == .valid && decide (q.tries < 3)), (0x02, imgLayoutOk m false)] ++ fwCodes m f ++ cfgCodes m f.owners f.serial)

/-- The codes IMG_COMMIT applies to an image as written, and the image it stores (R394, R398). -/
def commitTest (m booted : List Byte) (f : Flash) : Nat × List Byte :=
  let fits := (0x0C, ((imgConfig m).map (fun c => c.fitsMap f.retiredPcs)).getD false)
  if imgConfigOnly m then
    (firstCode ([(0x02, imgLayoutOk m true)] ++ fwCodes booted f ++ cfgCodes m f.owners f.serial ++ [fits]), composeImage booted m)
  else (firstCode ([(0x02, imgLayoutOk m false)] ++ fwCodes m f ++ cfgCodes m f.owners f.serial ++ [fits]), m)

end Sys2Proof.Machine
end

