-- ==== Sys2Proof/Machine/Power.lean ====
section
/-!
DEFINITION. The power commands (15 R373 to R377, Table 15.4), the comparators' actions (R383), lost phases (R384), and the groups of
power stages (R372, 17 R434).
-/
namespace Sys2Proof.Machine

/-! ### Stages, groups, domains (Tables 15.1, 15.2) -/

/-- Phases installed on a stage, and the least it runs with. -/
def phasesOf (i : Nat) : Nat := if i < 16 then 8 else if i < 20 then 6 else if i < 34 then 4 else 2
def phasesMin (i : Nat) : Nat := phasesOf i / 2
/-- The domains a stage feeds. -/
def stageDomains (i : Nat) : List Nat :=
  if i < 16 then [i]
  else if i < 20 then List.range' (16 + 4 * (i - 16)) 4 ++ List.range' (32 + 4 * (i - 16)) 4
  else [i + 28]
/-- The partitions a stage feeds. -/
def stageParts (i : Nat) : List Nat := if i < 16 then [i] else if i < 20 then List.range' (4 * (i - 16)) 4 else []
/-- The stages of an enabling group (R372). -/
def groupStages (g : Nat) : List Nat :=
  match g with
  | 1 => [34, 35]
  | 2 => List.range' 16 8
  | 3 => List.range' 24 8
  | 4 => List.range 16
  | _ => [32, 33]

/-- Enable a group: its stages on at their voltage, those of HBM and optics at one the source leaves to JESD270-4 and the engines, a
free value; PD48 to PD63 ON with it (R369, R370). -/
def State.enableGroup (s : State) (g : Nat) : State :=
  let s := s.updPins (fun p => { p with groups := p.groups ||| 2 ^ (g - 1) })
  forEach (groupStages g) s (fun s i =>
    let f := s.fresh
    let mv := if i < 16 then pointMv (KMap.getD s.pwr.point i 0) else if 24 ≤ i ∧ i < 34 then f.1 % 8192 else 750
    let s := (if 24 ≤ i ∧ i < 34 then f.2 else s).updStage i (fun q => { q with off := false, setMv := mv })
    if 20 ≤ i then forEach (stageDomains i) s (fun s d => s.setDom d .on) else s)

/-- Disable a group: its stages and their domains off. -/
def State.disableGroup (s : State) (g : Nat) : State :=
  let s := s.updPins (fun p => { p with groups := setBit p.groups (g - 1) false })
  forEach (groupStages g) s (fun s i =>
    forEach (stageDomains i) (s.updStage i (fun q => { q with off := true, good := false, setMv := 0 })) (fun s d => s.setDom d .off))

/-- Every rail of a group is good. -/
def State.groupGood (s : State) (g : Nat) : Bool := (groupStages g).all (fun i => (s.stage i).good)

/-- RAIL_POWER_GOOD (R372): every rail of a group is good; from INIT on the next of groups 2 to 4 is enabled. -/
def execRailPowerGood (group : Nat) (s : State) : Host.Outcome State Fault Refusal :=
  if group = 0 ∨ 5 < group then .fault (.noSuchUnit "power-stage group")
  else .next (
    if !s.pins.groups.testBit (group - 1) then s
    else
      let s := forEach (groupStages group) s (fun s i => s.updStage i (fun q => { q with good := true }))
      if group < 4 ∧ (1 < group ∨ s.id.cal = .init) ∧ !s.pins.groups.testBit group then s.enableGroup (group + 1) else s)

/-! ### The ledger and its commands -/

/-- LEDGER_UPDATE (R373): a stage's accumulator grows by 1,024 times the product of its input voltage and current, in fJ, from PGOOD. -/
def execLedgerUpdate (stage mv ma : Nat) (s : State) : Host.Outcome State Fault Refusal :=
  if 36 ≤ stage then .fault (.noSuchUnit "power stage")
  else .next (if !s.pins.pgood then s
    else s.updStage stage (fun g => { g with acc := (g.acc + 1024 * (mv * ma)) % 2 ^ 96 }))

/-- The context may hold a grant (R375). -/
def CtxSt.grantable : CtxSt → Bool
  | .loaded | .armed | .running | .held => true
  | _ => false

/-- PWR_GRANT (R375, R376): refused below the floor; accepted, it waits for its effective count and supersedes those of later ones. -/
def execPwrGrant (r : Req) (x g eff : Nat) (s : State) : Host.Outcome State Fault Refusal :=
  .next (s.vendorGate r 0x50 false false (fun s =>
    let c := s.ctx x
    let w := s.pwrCtx x
    if !(s.cfg.pwrGrantChannels).testBit r.binding then s.vendor r 0x50 3 []
    else if 16 ≤ x || !c.st.grantable then s.vendor r 0x50 4 []
    else
      let floor := (w.ref.map (fun q => (q.floorOf (maskParts c.mask) c.dOffset).1)).getD 0
      if g < floor then
        let s := (s.bump .pwrRefused 0).setEvt .pwrCtx x 19
        let s := s.record { code := 0x3007, sev := 1, ctx := x, data := wide g ++ wide floor }
        s.vendor r 0x50 5 (leBytes 8 floor)
      else
        (s.updPwrCtx x (fun w => { w with waiting := w.waiting.filter (fun q => decide (q.1 ≤ eff)) ++ [(eff, g)], floorAsked := false })).vendor
          r 0x50 0 (leBytes 8 floor)))

/-- The running context with the highest planned power that can still go lower (R377). -/
def State.hottest (s : State) : Option Nat :=
  let watts (x : Nat) : Nat := match (s.pwrCtx x).ref, (s.pwrCtx x).point with
    | some r, some k => r.watts (maskParts (s.ctx x).mask) k
    | _, _ => 0
  (ctxIds.filter (fun x => (s.ctx x).st == .running && (s.pwrCtx x).ref.isSome &&
    (match (s.pwrCtx x).point with | some k => decide (k < 7) | none => false))).foldl
    (fun b x => match b with
      | none => some x
      | some y => if watts y < watts x then some x else some y) none

/-- Points are lowered until the running contexts' planned power keeps the ceiling, `fuel` moves at most (R377). -/
def State.keepCeiling : Nat → State → State
  | 0, s => s
  | n + 1, s =>
    if s.pwr.ceiling = 0 ∨ s.otherWatts 16 ≤ s.pwr.ceiling then s
    else match s.hottest with
      | none => s
      | some x =>
        let k := (s.pwrCtx x).point.getD 0 + 1
        let s := s.movePoints x k ((s.pwrCtx x).kp.map (fun e => (e.1, max e.2 k)))
        State.keepCeiling n (s.updPwr (fun p => { p with ceilingActive := true }))

/-- PWR_CEILING (R377): 0 for none, or 1,000 to 5,500 W; in force at once, mid-step as well. -/
def execPwrCeiling (r : Req) (watts : Nat) (s : State) : Host.Outcome State Fault Refusal :=
  .next (s.vendorGate r 0x51 false false (fun s =>
    if watts ≠ 0 ∧ (watts < 1000 ∨ 5500 < watts) then s.vendor r 0x51 4 []
    else
      let s := s.record { code := 0x3009, sev := 0, data := [watts] }
      let s := s.updPwr (fun p => { p with ceiling := watts, ceilingActive := p.ceilingActive && watts != 0 })
      (s.keepCeiling 112).vendor r 0x51 0 []))

/-- PWR_DEMAND (Table 15.4): the reference, plan, floor, predict(0), last charge, carry and tref of a context. -/
def execPwrDemand (r : Req) (x : Nat) (s : State) : Host.Outcome State Fault Refusal :=
  .next (s.vendorGate r 0x52 false false (fun s =>
    if 16 ≤ x then s.vendor r 0x52 4 []
    else
      let c := s.ctx x
      let w := s.pwrCtx x
      let parts := maskParts c.mask
      let e (f : PwrRef → Nat) : Nat := (w.ref.map f).getD 0
      s.vendor r 0x52 0 (leBytes 1 (b2n w.ref.isSome) ++ leBytes 1 (w.point.getD 15) ++
        leBytes 8 (e (fun q => (q.floorOf parts c.dOffset).1)) ++ leBytes 8 (e (fun q => (q.predict parts 0).1)) ++
        leBytes 8 w.lastCharge ++ leBytes 8 w.carry ++ leBytes 8 (e (·.tref)))))

/-! ### Comparators (R383): limit rows of Table 15.4a counted from 0 -/

def limitKey (row unit : Nat) : Nat := 64 * row + unit

/-- A partition's edges are suppressed: a voltage, margin or temperature comparator of its own acts, or that of the input. -/
def State.slow (s : State) (p : Nat) : Bool :=
  [limitKey 0 p, limitKey 1 p, limitKey 2 p, limitKey 5 0].any (fun k => s.pwr.acting.contains k)

/-- After comparators changed: partitions newly slowed are noted, and those no longer slowed have their ticks counted. -/
def State.noteSlow (s : State) : State :=
  forEach (List.range 16) s (fun s p =>
    match KMap.find s.pwr.slowed p, s.slow p with
    | none, true => s.updPwr (fun q => { q with slowed := KMap.put q.slowed p s.time.loc })
    | some t, false => (s.updPwr (fun q => { q with slowed := KMap.del q.slowed p })).bump .pwrThrottle 0 (s.time.loc - t)
    | _, _ => s)

/-- The POWER reason of Table 9.4 on the running attempts that hold a partition of a list. -/
def State.powerReason (s : State) (parts : List Nat) : State :=
  forEach (ctxIds.filter (fun x => (s.ctx x).st == .running && (s.ctx x).launched && parts.any (inMask (s.ctx x).mask))) s
    (fun s x => s.updCtx x (fun c => { c with reasons := setBit c.reasons 9 true }))

/-- A comparator acts. -/
def State.limitActs (s : State) (row unit : Nat) (parts : List Nat) : State :=
  ((s.updPwr (fun p => { p with acting := insertAsc (limitKey row unit) p.acting })).noteSlow).powerReason parts

/-- A stage turns off with its domains; a Caldera half that loses its rail no longer owns the module (11 R287). -/
def State.stageOff (s : State) (i : Nat) : State :=
  let s := s.updStage i (fun g => { g with off := true, good := false })
  let s := forEach (stageDomains i) s (fun s d => s.setDom d .off)
  if 34 ≤ i then
    s.updCal (fun c => { c with owner := if c.owner = some (i - 34) then none else c.owner
                                okA := c.okA && i != 34, okB := c.okB && i != 35 })
  else s

/-- VCORE_UNDERVOLTAGE (R383): every second clock edge of the partition suppressed. -/
def execVcoreUndervoltage (part : Nat) (s : State) : Host.Outcome State Fault Refusal :=
  if 16 ≤ part then .fault (.noSuchUnit "partition")
  else .next ((s.limitActs 0 part [part]).setEvt .pwrRail part 22)

/-- FREQUENCY_MARGIN (R383): as undervoltage; recorded as MARGIN. -/
def execFrequencyMargin (part reading : Nat) (s : State) : Host.Outcome State Fault Refusal :=
  if 16 ≤ part then .fault (.noSuchUnit "partition")
  else .next ((s.limitActs 1 part [part]).record { code := 0x3004, sev := 1, srcType := 3, srcIndex := part, data := [reading] })

/-- TJ_THROTTLE (R383). -/
def execTjThrottle (part temp : Nat) (s : State) : Host.Outcome State Fault Refusal :=
  if 16 ≤ part then .fault (.noSuchUnit "partition")
  else .next (((s.limitActs 2 part [part]).setEvt .pwrStatus 0 29).record
    { code := 0x3001, sev := 1, srcType := 3, srcIndex := part, data := [temp] })

/-- TJ_TRIP (R383): the partition's domains are turned off; the trip sets the alert latch (17 R429). -/
def execTjTrip (part temp : Nat) (s : State) : Host.Outcome State Fault Refusal :=
  if 16 ≤ part then .fault (.noSuchUnit "partition")
  else .next (
    let s := ((s.limitActs 3 part [part]).setDomains part .off).setEvt .pwrStatus 0 28
    let s := (s.bump .pwrTrip 0).record { code := 0x3002, sev := 3, srcType := 3, srcIndex := part, data := [3, temp] }
    s.updEvr (fun e => { e with alert := true }))

/-- RAIL_OVERVOLTAGE (R383): the rail's stage and its domains off. -/
def execRailOvervoltage (stage mv : Nat) (s : State) : Host.Outcome State Fault Refusal :=
  if 36 ≤ stage then .fault (.noSuchUnit "power stage")
  else .next (
    let s := (((s.limitActs 4 stage (stageParts stage)).stageOff stage).setEvt .pwrRail stage 22).setEvt .pwrStatus 0 28
    (s.bump .pwrTrip 0).record { code := 0x3002, sev := 3, srcType := 6, srcIndex := stage, data := [4, mv] })

/-- INPUT_POWER_LIMIT (R383, 17 R423): every second edge suppressed on every partition. -/
def execInputPowerLimit (watts : Nat) (s : State) : Host.Outcome State Fault Refusal :=
  .next (((s.limitActs 5 0 (List.range 16)).setEvt .pwrStatus 0 27).record { code := 0x3003, sev := 2, data := [watts] })

/-- A partition's domains come back as its context needs them (R370). -/
def State.restoreDomains (s : State) (p : Nat) : State :=
  match ctxIds.find? (fun x => (s.ctx x).st != .empty && inMask (s.ctx x).mask p) with
  | none => s
  | some x =>
    let running := (s.ctx x).st == .running && (s.ctx x).launched && !(s.ctx x).confirmed
    ((s.setDom p (if running then .on else .gated)).setDom (16 + p) .on).setDom (32 + p) .on

/-- COMPARATOR_RELEASE (R383): the comparator lets go; a trip ends in level 3 on the partition, an overvoltage in level 3 on the
partitions fed or in level 4 for a rail of stages 20 to 35. -/
def execComparatorRelease (limit unit : Nat) (s : State) : Host.Outcome State Fault Refusal :=
  if 6 ≤ limit ∨ (if limit = 4 then 36 else if limit = 5 then 1 else 16) ≤ unit then .fault (.noSuchUnit "comparator")
  else .next (
    if !s.pwr.acting.contains (limitKey limit unit) then s
    else
      let s := (s.updPwr (fun p => { p with acting := p.acting.filter (· != limitKey limit unit) })).noteSlow
      match limit with
      | 3 => (s.restoreDomains unit).recover (partKey unit) 3 unit
      | 4 =>
        if 20 ≤ unit then s.recover moduleKey 4 16
        else
          let s := s.updStage unit (fun g => { g with off := false })
          forEach (stageParts unit) s (fun s p => (s.restoreDomains p).recover (partKey p) 3 p)
      | _ => s)

/-! ### Fewer phases (R384) -/

/-- PHASE_RETIRE: the rail runs on the phases left, its partitions moved to the least point whose current fits; below the minimum the
stage turns off. The current of a VSRAM rail at a point is not stated: its least point is a free value (log 50). -/
def execPhaseRetire (stage phase reason : Nat) (s : State) : Host.Outcome State Fault Refusal :=
  if 36 ≤ stage ∨ phasesOf stage ≤ phase then .fault (.noSuchUnit "phase")
  else .next (
    if (s.stage stage).active = 0 then s
    else
      let s := s.updStage stage (fun g => { g with active := g.active - 1 })
      let n := (s.stage stage).active
      let s := (s.bump .pwrPhaseLost 0).setEvt .pwrRail stage 23
      let s := s.record { code := 0x3005, sev := 2, srcType := 6, srcIndex := stage, data := [phase, reason] }
      if n < phasesMin stage then
        let s := (s.updPwr (fun p => { p with acting := insertAsc (limitKey 4 stage) p.acting })).stageOff stage
        (s.powerReason (stageParts stage)).record { code := 0x3006, sev := 3, srcType := 6, srcIndex := stage, data := [n] }
      else
        let f := s.fresh
        let s := if 16 ≤ stage ∧ stage < 20 then f.2.updPwr (fun p => { p with railMin := KMap.put p.railMin stage (f.1 % 8) }) else s
        forEach (ctxIds.filter (fun x => (s.ctx x).st == .running && (stageParts stage).any (inMask (s.ctx x).mask))) s (fun s x =>
          let w := s.pwrCtx x
          match w.ref with
          | none => s
          | some r =>
            let kp := w.kp.map (fun e => (e.1, if (stageParts stage).contains e.1 then max e.2 (s.railPoint r e.1) else e.2))
            if kp = w.kp then s else s.movePoints x (w.point.getD 0) kp))

end Sys2Proof.Machine
end

