-- ==== Sys2Proof/Machine/Startup.lean ====
section
/-!
DEFINITION. Start-up (16 R394 to R396, R402, R403, R408, R411): power-up, the choice of an image, the release of the optics, entry into
RUN and RECOVERY, and the check of the locus against the acceptance record.
-/
namespace Sys2Proof.Machine

/-! ### Power -/

/-- Every volatile part is gone and the module waits for PGOOD: the flash, the fused grade, pin levels, what has left the module and
the queue remain. -/
def State.unpowered (s : State) : State :=
  { State.reset with
    id := { Ident.reset with grade := s.id.grade }
    flash := s.flash
    cal := { Cal.reset with interlockIn := s.cal.interlockIn }
    pins := { s.pins with interlockOut := false, groups := 0 }
    out := s.out, free := s.free, pending := s.pending }

/-- A fresh power-up at local 0 (Table 16.9): the start count rises, fused fences of a Caldera half hold, every phase is in service
(15 R384), and stage group 1 is enabled. -/
def State.powerUp (s : State) : State :=
  let s := s.unpowered
  let s := s.updFlash (fun f => { f with starts := f.starts + 1 })
  let s := s.updCal (fun c => { c with fencedA := s.flash.fencedHalf == some 0, fencedB := s.flash.fencedHalf == some 1 })
  let s := s.updPins (fun p => { p with pgood := true, resetN := true, testEn := false, latchedOff := false })
  let s := forEach (List.range 36) s (fun s i => s.updStage i (fun g => { g with active := phasesOf i }))
  s.enableGroup 1

/-- POWER_ON (R403, R431, R432): PGOOD and RESET_N are both high. After PGOOD was low this is a power-up; after a reset Caldera leaves
the hold of RESET_N and the timeline runs from 1.0 ms (R405). A power-down of R424 lasts until PGOOD has been low. -/
def execPowerOn (s : State) : Host.Outcome State Fault Refusal :=
  .next (
    if s.pins.latchedOff then s
    else if !s.pins.pgood then s.powerUp
    else if !s.pins.resetN then
      s.updPins (fun p => { p with resetN := true })
    else s)

/-! ### Slots -/

/-- Slot 0 is A, slot 1 is B. -/
def Flash.slot (f : Flash) (i : Nat) : Slot := if i = 0 then f.slotA else f.slotB
def State.updSlot (s : State) (i : Nat) (f : Slot → Slot) : State :=
  s.updFlash (fun m => if i = 0 then { m with slotA := f m.slotA } else { m with slotB := f m.slotB })

/-- A rejected image: recorded, and the code that MB_IDENTIFY reports (Table 16.15). -/
def State.imageRejected (s : State) (slot code : Nat) : State :=
  (s.record { code := 0x3101, sev := 2, data := [slot, code] }).updId (fun d => { d with lastReject := code })

/-- RECOVERY (R396, R402): ports DARK, the mailbox not ready; entry sets the alert latch (17 R429). -/
def State.enterRecovery (s : State) (code : Nat) : State :=
  let s := s.updPorts (fun _ => [])
  let s := (s.updId (fun d => { d with cal := .recovery, opticsAt := none })).updMbx (fun m => { m with ready := false })
  (s.record { code := 0x3103, sev := 3, data := [code] }).updEvr (fun e => { e with alert := true })

/-- The assigned locus is not the one accepted, or none is (R411): the module is unaccepted. -/
def State.checkAccept (s : State) : State :=
  match s.id.locus with
  | none => s
  | some l =>
    if s.id.unaccepted ∨ s.flash.acceptedLocus = some l then s
    else (s.updId (fun d => { d with unaccepted := true })).record
      { code := 0x3106, sev := 2, data := [l, s.flash.acceptedLocus.getD 0xFFFFFFFF] }

/-- The candidate that boots: the higher GENERATION, slot A where equal (R395). -/
def pickSlot (a b : Bool) (genA genB : Nat) : Option Nat :=
  match a, b with
  | true, true => some (if genA < genB then 1 else 0)
  | true, false => some 0
  | false, true => some 1
  | false, false => none

/-- The selected slot's firmware is started (R395, R402, Table 16.9): TRIES rises first, and the image's configuration is in force. -/
def State.startSlot (s : State) (k : Nat) (other : Bool) : State :=
  let s := s.updSlot k (fun q => { q with tries := q.tries + 1 })
  let m := (s.flash.slot k).image
  let s := s.setCfg ((imgConfig m).getD Cfg.dflt)
  let s := s.updId (fun d => { d with
    cal := .init, booted := some k, otherCandidate := other, released := false, fwMajor := imgFwMajor m, fwMinor := imgFwMinor m,
    secVersion := imgSecVersion m })
  let s := if (s.flash.slot k).gen < (s.flash.slot (1 - k)).gen then
      (s.setEvt .calId 0 26).record { code := 0x3102, sev := 2, data := [k, s.flash.slotA.gen, s.flash.slotB.gen] }
    else s
  let s := s.checkAccept
  if s.groupGood 1 && !s.pins.groups.testBit 1 then s.enableGroup 2 else s

/-- SLOT_SELECT (R394 to R396): both slots have been tested; BOOT has counted the power-up; the best candidate starts, or RECOVERY. -/
def execSlotSelect (s : State) : Host.Outcome State Fault Refusal :=
  .next (
    if !s.served || s.id.cal != .boot then s
    else
      let s := if s.id.counted then s else
        (s.updFlash (fun f => { f with boot := f.boot + 1 })).updId (fun d => { d with counted := true })
      let a := s.flash.slotA.reject s.flash
      let b := s.flash.slotB.reject s.flash
      let s := if a = 0 then s else s.imageRejected 0 a
      let s := if b = 0 then s else s.imageRejected 1 b
      match pickSlot (a == 0) (b == 0) s.flash.slotA.gen s.flash.slotB.gen with
      | none => s.enterRecovery 0
      | some k => s.startSlot k (if k = 0 then b == 0 else a == 0))

/-- TRIES_CLEAR (R395): 2 s of firmware operation without a release of CAL_OWN. -/
def execTriesClear (s : State) : Host.Outcome State Fault Refusal :=
  .next (
    match s.id.booted with
    | none => s
    | some k => if s.id.released || (s.id.cal != .init && s.id.cal != .run) then s
                else s.updSlot k (fun q => { q with tries := 0 }))

/-- OPTICS_RELEASE (R372, R403, R404): at T_opt, never without a locus, group 5 is enabled and the optical engines are released. -/
def execOpticsRelease (s : State) : Host.Outcome State Fault Refusal :=
  .next (
    if (s.id.cal != .init && s.id.cal != .run) || s.id.locus.isNone || s.id.opticsAt.isSome || !s.groupGood 4 then s
    else (s.enableGroup 5).updId (fun d => { d with opticsAt := some s.time.loc }))

/-- The fault map of the flash and this start-up's new failures (11 R282, 01 R17): slots fenced and spares assigned, engines fenced,
pseudo-channels retired. -/
def State.applyFaultMap (s : State) (failed : List (Nat × Nat)) : State :=
  let s := forEach s.flash.fencedSlots s (fun s e => forEach e.2 s (fun s slot => s.fenceSlot e.1 slot true))
  let s := forEach failed s (fun s e => s.fenceSlot e.1 e.2 true)
  let s := s.updRecov (fun r => { r with engines := s.flash.fencedEngines })
  forEach s.flash.retiredPcs s (fun s k =>
    s.updMem (fun m => { m with pcs := KMap.upd m.pcs k PcHist.reset (fun h => { h with retired := true }) }))

/-- The static subscriptions of the configuration (13 R347). -/
def State.staticSubs (s : State) : List Sub :=
  s.cfg.ventStatic.map (fun v => { addr := v.1, udp := v.2.1, subId := v.2.2.1, body := v.2.2.2, port := 0, leaseEnd := none, seq := 0,
                                   next := none, waiting := [], unsent := [] })

/-- RUN_ENTRY (R394, R396, R402, R403, R408): start-up is complete. Codes 0x0B and 0x0C are tested; the module is in RECOVERY, or in RUN
with READY set. -/
def execRunEntry (failedSlots : List (Nat × Nat)) (s : State) : Host.Outcome State Fault Refusal :=
  if failedSlots.any (fun e => decide (numClusters ≤ e.1) || decide (slotsPerCluster ≤ e.2)) then .fault (.noSuchUnit "slot")
  else .next (
    match s.id.locus, s.id.booted with
    | some l, some k =>
      if s.id.cal != .init || s.id.opticsAt.isNone then s
      else
        let s := s.applyFaultMap failedSlots
        let code := if !s.cfg.coordsOk l then 0x0B else if !s.cfg.fitsMap s.flash.retiredPcs then 0x0C else 0
        if code ≠ 0 then (s.updId (fun d => { d with lastReject := code })).enterRecovery code
        else
          let s := (s.updSlot k (fun q => { q with tries := 0 })).updId (fun d => { d with cal := .run })
          let s := (s.updMbx (fun m => { m with ready := true })).updPwr (fun p => { p with ceiling := s.cfg.pwrCeilingW })
          let s := s.updTel (fun t => { t with subs := s.staticSubs })
          if s.mbx.linkUp && s.mbx.busMaster then s.emit (.msix 0 4) else s
    | _, _ => s)

end Sys2Proof.Machine
end

