-- ==== Sys2Proof/Machine/Identity.lean ====
section
/-!
DEFINITION. The vendor commands of start-up, images and identity (16 R397 to R399, R404, R405, R410 to R414, Table 16.11).
-/
namespace Sys2Proof.Machine

/-! ### Identity, locus, acceptance -/

/-- MB_IDENTIFY (Table 16.11): locus, PF1 BAR0 content, CAL_ID_STATUS, CONFIG_DIGEST, last reject code. -/
def execMbIdentify (r : Req) (s : State) : Host.Outcome State Fault Refusal :=
  .next (s.vendorGate r 0x01 true false (fun s =>
    s.vendor r 0x01 0 (leBytes 4 s.locus ++ s.identity ++ leBytes 4 (s.regVal .calId 0) ++ s.configDigest ++ leBytes 1 s.id.lastReject)))

/-- LOCUS_ASSIGN (R404): over I3C only, in any state; the first assignment is taken, an equal one is a repeat, another is refused. -/
def execLocusAssign (r : Req) (locus : Nat) (s : State) : Host.Outcome State Fault Refusal :=
  .next (
    if !s.reached r then s
    else if r.binding ≠ 0 then s.vendor r 0x02 3 []
    else if 2 ^ 17 ≤ locus then s.vendor r 0x02 4 []
    else match s.id.locus with
      | none =>
        let s := s.updId (fun d => { d with locus := some locus })
        (if s.id.cal = .boot then s else s.checkAccept).vendor r 0x02 0 []
      | some l =>
        if l = locus then s.vendor r 0x02 0 []
        else (s.record { code := 0x3108, sev := 2, data := [locus, l] }).vendor r 0x02 4 [])

/-- SCOPE bit 0 of ID_ACCEPT: the assigned locus is the accepted one (R412). -/
def State.acceptLocus (s : State) : State :=
  match s.id.locus with
  | none => s
  | some l => (s.updFlash (fun f => { f with acceptedLocus := some l })).updId (fun d => { d with unaccepted := false })

/-- SCOPE bit 1 on one port: its last IDENT's digest is stored, or cleared where it has received none (R412). -/
def State.acceptPort (s : State) (p : Nat) : State :=
  s.updFlash (fun f => { f with digests := match (s.port p).last with
    | some i => KMap.put f.digests p i.cert
    | none => KMap.del f.digests p })

/-- ID_ACCEPT (R412): the ports concerned are evaluated again, ACCEPT_EVT is set and the acceptance recorded; a repeat that stores what
is stored already changes nothing. The response counts the ports given a digest. -/
def execIdAccept (r : Req) (scope mask : Nat) (s : State) : Host.Outcome State Fault Refusal :=
  .next (s.vendorGate r 0x03 false true (fun s =>
    if !(s.cfg.acceptChannels).testBit r.binding then s.vendor r 0x03 3 []
    else if 4 ≤ scope then s.vendor r 0x03 4 []
    else
      let ports := if scope.testBit 1 then bitList mask 32 else []
      let n := (ports.filter (fun p => (s.port p).last.isSome)).length
      let t := if scope.testBit 0 then s.acceptLocus else s
      let t := forEach ports t State.acceptPort
      let same := decide (t.flash = s.flash) && t.id.unaccepted == s.id.unaccepted && s.id.lastAccept == some (scope, mask)
      let t := if same then t else
        let t := forEach (if scope.testBit 0 then List.range 32 else ports) t State.evaluateAgain
        (t.setEvt .calId 0 24).record { code := 0x3107, sev := 1, data := [scope, mask % 2 ^ 32, r.binding, r.eid] }
      (t.updId (fun d => { d with lastAccept := some (scope, mask) })).vendor r 0x03 0 (leBytes 1 n)))

/-- ID_STATUS: the accepted locus, then the 32 stored digests. -/
def execIdStatus (r : Req) (s : State) : Host.Outcome State Fault Refusal :=
  .next (s.vendorGate r 0x04 true false (fun s =>
    s.vendor r 0x04 0 (leBytes 4 (s.flash.acceptedLocus.getD 0xFFFFFFFF) ++
      ((List.range 32).map (fun p => beBytes 16 (KMap.getD s.flash.digests p 0))).flatten)))

/-! ### Writing an image (R397, R398) -/

/-- The slot IMG_BEGIN writes: the one that did not boot; with none booted the slot whose record is not VALID, then the lower
GENERATION, then B. -/
def State.writeTarget (s : State) : Nat :=
  match s.id.booted with
  | some k => 1 - k
  | none =>
    let a := s.flash.slotA
    let b := s.flash.slotB
    if a.st ≠ .valid ∧ b.st = .valid then 0
    else if b.st ≠ .valid ∧ a.st = .valid then 1
    else if a.gen < b.gen then 0 else 1

/-- The requester holds the slot. -/
def Writer.heldBy (w : Writer) (r : Req) : Bool := w.who.binding == r.binding && w.who.eid == r.eid && w.who.session == r.session

/-- Do something as the writer; anyone else is refused. -/
def State.asWriter (s : State) (r : Req) (cmd : Nat) (f : Writer → State → State) : State :=
  match s.id.writer with
  | none => s.vendor r cmd 3 []
  | some w =>
    if !w.heldBy r then s.vendor r cmd 3 []
    else f w s

/-- IMG_BEGIN: the target is WRITING and no candidate from here on; while a writer holds the slot, BUSY. -/
def execImgBegin (r : Req) (length : Nat) (s : State) : Host.Outcome State Fault Refusal :=
  .next (s.vendorGate r 0x08 true true (fun s =>
    if s.id.writer.isSome then s.vendor r 0x08 2 []
    else if length = 0 ∨ slotCapacity < length then s.vendor r 0x08 4 []
    else
      let k := s.writeTarget
      let s := s.updSlot k (fun q => { q with st := .writing })
      (s.updId (fun d => { d with
        pendingReset := false, writer := some { who := r, target := k, length, bytes := [] } })).vendor r 0x08 0 (leBytes 1 k)))

/-- Bytes stored by offset. -/
def putBytes (m : KMap Byte) (off : Nat) : List Byte → KMap Byte
  | [] => m
  | b :: bs => putBytes (KMap.put m off b) (off + 1) bs

/-- IMG_WRITE: 1 to 1,024 bytes at an offset inside the announced length. -/
def execImgWrite (r : Req) (offset : Nat) (bytes : List Byte) (s : State) : Host.Outcome State Fault Refusal :=
  .next (s.vendorGate r 0x09 true true (fun s => s.asWriter r 0x09 (fun w s =>
    if bytes.isEmpty ∨ 1024 < bytes.length ∨ w.length < offset + bytes.length then s.vendor r 0x09 4 []
    else (s.updId (fun d => { d with writer := some { w with bytes := putBytes w.bytes offset bytes } })).vendor r 0x09 0 [])))

/-- The image as written; a byte never written is a free value (log 10). -/
def State.written (s : State) (w : Writer) : List Byte × State :=
  ((List.range w.length).map (fun i => (KMap.find w.bytes i).getD (BitVec.ofNat 8 (Config.freeNat (s.free + i)))),
    s.spend w.length)

/-- An image without the fields that place its configuration part: what R398 compares as firmware. -/
def imgFirmware (m : List Byte) : List Byte := (m.take 20) ++ slice m 28 (imgFwLen m - 28)

/-- Two configurations agree on every live field. -/
def Cfg.sameLive (a b : Cfg) : Bool :=
  Cfg.liveIds.all (fun i => match Cfg.rowOf i with
    | some _ => a.int i == b.int i
    | none => a.bytes i == b.bytes i)

/-- A committed image differs from the booted one in firmware or in a field that is not live (R398). -/
def needsReset (booted stored : List Byte) : Bool :=
  let old := (imgConfig booted).getD Cfg.dflt
  let new := (imgConfig stored).getD Cfg.dflt
  imgFirmware booted != imgFirmware stored || (Cfg.withLive new old).encoded != old.encoded

/-- Live fields of a committed configuration take effect at once while no context is RUNNING, else at the next boundary (R398); an image
committed in RECOVERY takes effect at the next module reset (R396). -/
def State.commitLive (s : State) (c : Cfg) : State :=
  if s.id.cal = .recovery ∨ Cfg.sameLive s.cfg c then s
  else
    let n := Cfg.withLive s.cfg c
    if ctxIds.any (fun x => (s.ctx x).st == .running) then s.updId (fun d => { d with liveWaiting := some n }) else s.goLive n

/-- IMG_COMMIT (R394, R397, R398): the image is tested; REJECTED carries the first code, and an image that passes makes the slot VALID
with the next GENERATION. -/
def execImgCommit (r : Req) (s : State) : Host.Outcome State Fault Refusal :=
  .next (s.vendorGate r 0x0A true true (fun s => s.asWriter r 0x0A (fun w s =>
    let m := s.written w
    let s := m.2
    let booted := match s.id.booted with | some k => (s.flash.slot k).image | none => []
    let t := commitTest m.1 booted s.flash
    if t.1 ≠ 0 then (s.imageRejected w.target t.1).vendor r 0x0A 6 (leBytes 1 t.1)
    else
      let gen := (max s.flash.slotA.gen s.flash.slotB.gen + 1) % 2 ^ 32
      let serial := max s.flash.serial (imgSerial t.2)
      let s := s.updSlot w.target (fun _ => { st := .valid, gen, tries := 0, image := t.2 })
      let s := s.updFlash (fun f => { f with serial })
      let s := s.updId (fun d => { d with writer := none, pendingReset := s.id.booted.isNone || needsReset booted t.2 })
      let s := s.record { code := 0x3104, sev := 1, data := [w.target, gen] ++ wide (imgSerial t.2) }
      (s.commitLive ((imgConfig t.2).getD Cfg.dflt)).vendor r 0x0A 0 (leBytes 4 gen))))

/-- IMG_ABORT leaves the slot WRITING. -/
def execImgAbort (r : Req) (s : State) : Host.Outcome State Fault Refusal :=
  .next (s.vendorGate r 0x0B true true (fun s => s.asWriter r 0x0B (fun _ s =>
    (s.updId (fun d => { d with writer := none })).vendor r 0x0B 0 [])))

def SlotSt.code : SlotSt → Nat
  | .empty => 0 | .writing => 1 | .valid => 2

/-- A slot as IMG_STATUS shows it. -/
def Slot.bytes (q : Slot) : List Byte :=
  leBytes 1 q.st.code ++ leBytes 4 q.gen ++ leBytes 1 q.tries ++ leBytes 1 (imgSecVersion q.image) ++ leBytes 1 (imgFwMajor q.image) ++
  leBytes 2 (imgFwMinor q.image) ++ leBytes 8 (imgSerial q.image)

/-- IMG_STATUS: both slots. -/
def execImgStatus (r : Req) (s : State) : Host.Outcome State Fault Refusal :=
  .next (s.vendorGate r 0x0C true false (fun s => s.vendor r 0x0C 0 (s.flash.slotA.bytes ++ s.flash.slotB.bytes)))

/-- IMG_WRITER_IDLE (R397): the writer's session has been idle for 60 s. -/
def execImgWriterIdle (s : State) : Host.Outcome State Fault Refusal :=
  .next (s.updId (fun d => { d with writer := none }))

/-! ### Security version and owner keys (R399) -/

/-- SECVER_ADVANCE: SEC_MIN rises to v, at most the booted image's SEC_VERSION. -/
def execSecverAdvance (r : Req) (v : Nat) (s : State) : Host.Outcome State Fault Refusal :=
  .next (s.vendorGate r 0x0D true true (fun s =>
    if s.id.booted.isNone ∨ s.id.secVersion < v then s.vendor r 0x0D 4 []
    else
      let old := s.flash.secMin
      let s := if v ≤ old then s else
        (s.updFlash (fun f => { f with secMin := v })).record { code := 0x3109, sev := 1, data := [old, v] }
      s.vendor r 0x0D 0 (leBytes 1 s.flash.secMin)))

/-- The current owner key's slot. -/
def Flash.ownerSlot (f : Flash) : Option Nat := (List.range f.owners.length).find? (fun i => (f.owners.getD i ([], true)).2 == false)

/-- OWNER_PROVISION: the lowest unfilled slot takes the key's SHA-384; a second key must be signed with the current one, whose slot is
then revoked. -/
def execOwnerProvision (r : Req) (pubkey sig : List Byte) (s : State) : Host.Outcome State Fault Refusal :=
  .next (s.vendorGate r 0x0E true true (fun s =>
    if pubkey.length ≠ 97 then s.vendor r 0x0E 4 []
    else if 4 ≤ s.flash.owners.length then s.vendor r 0x0E 3 []
    else
      let cur := s.flash.ownerSlot
      let n := s.flash.owners.length
      let ok := match cur with
        | none => true
        | some k => ecdsaByDigest (s.flash.owners.getD k ([], true)).1 sig (sha384 pubkey)
      if !ok then s.vendor r 0x0E 3 []
      else
        let s := s.updFlash (fun f => { f with owners := f.owners.map (fun o => (o.1, true)) ++ [(sha384 pubkey, false)] })
        (s.record { code := 0x310A, sev := 1, data := [n, cur.getD 0xFFFFFFFF] }).vendor r 0x0E 0 (leBytes 1 n)))

/-! ### Reset, and requests to the coordinator -/

/-- MODULE_RESET (R405): answered before the reset. -/
def execModuleReset (r : Req) (s : State) : Host.Outcome State Fault Refusal :=
  .next (s.vendorGate r 0x10 true true (fun s => (s.vendor r 0x10 0 []).moduleReset))

/-- CTX_RESUME_REQ: resumes a held job at its coordinator, as CTX_RESUME (05 R133). -/
def execCtxResumeReq (r : Req) (x : Nat) (s : State) : Host.Outcome State Fault Refusal :=
  .next (s.vendorGate r 0x20 false false (fun s =>
    if 16 ≤ x || (s.ctx x).st != .held || !(s.ctx x).coord.active then s.vendor r 0x20 4 []
    else
      let q := s.resumeJob x
      q.2.vendor r 0x20 0 (leBytes 8 q.1)))

/-- GEY_RESTORE_REQ (12 R325): the coordinator of an ARMED context asks every participant to restore checkpoint K of a source job; one
that arms later is told on arming. -/
def execGeyRestoreReq (r : Req) (x jobId k : Nat) (s : State) : Host.Outcome State Fault Refusal :=
  .next (s.vendorGate r 0x21 false false (fun s =>
    if 16 ≤ x || (s.ctx x).st != .armed || !(s.ctx x).coord.active then s.vendor r 0x21 4 []
    else
      let s := s.updCoord x (fun o => { o with restore := some (k, jobId, []) })
      (s.toSome x ((s.ctx x).coord.armed.map (·.1)) 0x49 k 0 (field jobId 32 32)).vendor r 0x21 0 []))

end Sys2Proof.Machine
end

