-- ==== Sys2Proof/Machine/Ports.lean ====
section
/-!
DEFINITION. The port commands (07): link control flits (R173 to R175, R178, R179, R186 to R192, R194 to R196), replay and lane events,
training (R181 to R185), losing a port (R197) and the edge ports (R200, R201, 16 R406).
-/
namespace Sys2Proof.Machine

/-- Ports are numbered 0–35 (R181); F00–F31 are 0–31. -/
def onFabricPort (p : Nat) (s : State) (f : State → State) : Host.Outcome State Fault Refusal :=
  if p < 32 then .next (f s) else .fault (.noSuchUnit "fabric port")
def onEdgePort (p : Nat) (s : State) (f : State → State) : Host.Outcome State Fault Refusal :=
  if 32 ≤ p ∧ p < 36 then .next (f s) else .fault (.noSuchUnit "edge port")

/-! ### Link control flits -/

/-- CREDIT: only the common part (Table 7.2). -/
def execCredit (port : Nat) (flit : BitVec 512) (s : State) : Host.Outcome State Fault Refusal :=
  onFabricPort port s (fun s => s.lcfIn port 0 flit (fun _ s => s))

/-- IDENT in an exchange (R186, R188, R192): remembered and answered with PEER_SEEN; complete when the partner has seen this end.
After a fast retrain an equal IDENT keeps the link; a different one trains anew. -/
def execIdent (port : Nat) (flit : BitVec 512) (s : State) : Host.Outcome State Fault Refusal :=
  onFabricPort port s (fun s => s.lcfIn port 1 flit (fun w s =>
    let i := parseIdent w
    let q := s.port port
    if !(q.st == .ident || q.st == .fastRetrain) then s
    else
      let s := s.updPort port (fun q => { q with
        peerSeen := true, last := some i, remoteLocus := i.locus, remotePort := i.port, remoteDir := i.dir, remoteRank := i.rank })
      let s := if q.peerSeen then s else s.sendIdent port
      if !w.testBit 114 then s
      else if q.st = .fastRetrain then
        if q.last = some i then
          (s.updPort port (fun q => { q with st := .up, width := laneWidth q.lanes })).noteBundle q.dir
        else s.toDetect port
      else (s.freshLink port).evaluate port i))

/-- The requests of kinds 1 to 3 of both ends at once (R196): the end with the lower LOCUS wins, on one module the lower PORT; equal
requests are carried out once. True when this end answers the partner's request. -/
def State.yields (s : State) (p req : Nat) : Bool :=
  let q := s.port p
  match q.req with
  | none => true
  | some r =>
    if r.req = req then true
    else if q.remoteLocus = s.locus then decide (q.remotePort < p) else decide (q.remoteLocus < s.locus)

/-- A request of kind 1 to 3 from the partner: granted, this end's own withdrawn, and carried out (R194 to R196). -/
def State.request (s : State) (p req : Nat) (carry : State → State) : State :=
  let q := s.port p
  if q.st ≠ .up ∨ !s.yields p req then s
  else carry ((s.updPort p (fun q => { q with req := none })).sendLsm p 5 0 req)

/-- FAST_RETRAIN: the partner asks and the port leaves UP (R197). -/
def execLsmFastRetrain (port : Nat) (flit : BitVec 512) (s : State) : Host.Outcome State Fault Refusal :=
  onFabricPort port s (fun s => s.lcfIn port 2 flit (fun w s =>
    if bitsOf w 327 324 ≠ 1 then s else s.request port 1 (fun s => s.leaveUp port)))

/-- FULL_RETRAIN. -/
def execLsmFullRetrain (port : Nat) (flit : BitVec 512) (s : State) : Host.Outcome State Fault Refusal :=
  onFabricPort port s (fun s => s.lcfIn port 2 flit (fun w s =>
    if bitsOf w 327 324 ≠ 2 then s else s.request port 2 (fun s => s.fullRetrain port)))

/-- WIDTH_4: both directions run on four lanes (R179, R195). -/
def execLsmWidth4 (port : Nat) (flit : BitVec 512) (s : State) : Host.Outcome State Fault Refusal :=
  onFabricPort port s (fun s => s.lcfIn port 2 flit (fun w s =>
    if bitsOf w 327 324 ≠ 3 then s
    else s.request port 3 (fun s => if popCount (s.port port).lanesOk 9 < 4 then s.leaveUp port else s.setWidth4 port)))

/-- SPARE: the sender always grants it and moves the lane's share onto the spare from its AT_SEQ on; the lane goes dark (R178). -/
def execLsmSpare (port : Nat) (flit : BitVec 512) (s : State) : Host.Outcome State Fault Refusal :=
  onFabricPort port s (fun s => s.lcfIn port 2 flit (fun w s =>
    if bitsOf w 327 324 ≠ 4 ∨ (s.port port).st ≠ .up then s
    else
      let lane := bitsOf w 323 320
      (s.updPort port (fun q => { q with remoteLaneDown := insertAsc lane q.remoteLaneDown, mapAt := some s.now })).sendLsm port 5 lane 4))

/-- GRANT: the requester carries out what it asked for and says DONE (R195). -/
def execLsmGrant (port : Nat) (flit : BitVec 512) (s : State) : Host.Outcome State Fault Refusal :=
  onFabricPort port s (fun s => s.lcfIn port 2 flit (fun w s =>
    let ref := bitsOf w 295 292
    if bitsOf w 327 324 ≠ 5 then s
    else if ref = 4 then s.sendLsm port 6 0 4
    else match (s.port port).req with
      | none => s
      | some r =>
        if r.req ≠ ref then s
        else
          let s := (s.updPort port (fun q => { q with req := none })).sendLsm port 6 0 ref
          match ref with
          | 1 => s.leaveUp port
          | 2 => s.fullRetrain port
          | _ => s.setWidth4 port))

/-- DONE: an end whose own request was withdrawn checks its condition again (R196). -/
def execLsmDone (port : Nat) (flit : BitVec 512) (s : State) : Host.Outcome State Fault Refusal :=
  onFabricPort port s (fun s => s.lcfIn port 2 flit (fun w s =>
    if bitsOf w 327 324 ≠ 6 ∨ (s.port port).req.isSome then s else s.laneCheck port))

/-! ### Replay and lanes -/

/-- A flagged codeword or an LSEQ gap: NAK with the first flit lost, and arriving flits are discarded until it comes again (R175). -/
def execCodewordFlagged (port lane firstLost : Nat) (uncorrectable : Bool) (s : State) : Host.Outcome State Fault Refusal :=
  if 9 ≤ lane then .fault (.noSuchUnit "lane")
  else onFabricPort port s (fun s =>
    let s := if uncorrectable then s.bump .prtFecUncorr port else s
    if (s.port port).discarding ∨ (s.port port).st = .dark ∨ (s.port port).st = .unused then s
    else (s.updPort port (fun q => { q with rxSeq := firstLost % 2 ^ 24, discarding := true, nakSent := 1 })).sendLcf port 0 true 0)

/-- The replayed flit has not come: NAK again; the eighth in a row for one ACK_SEQ makes the port leave UP (R175, R197). -/
def execNakRetry (port : Nat) (s : State) : Host.Outcome State Fault Refusal :=
  onFabricPort port s (fun s =>
    let q := s.port port
    if !q.discarding then s
    else
      let s := (s.updPort port (fun q => { q with nakSent := q.nakSent + 1 })).sendLcf port 0 true 0
      if 8 ≤ q.nakSent + 1 then s.leaveUp port else s)

/-- A lane loses signal or lock for 1 µs (R177); on an edge port the Ethernet link goes down (R200). -/
def execLossOfSignal (port lane : Nat) (s : State) : Host.Outcome State Fault Refusal :=
  if 9 ≤ lane ∨ 36 ≤ port then .fault (.noSuchUnit "lane")
  else if port < 32 then .next (s.laneFail port lane)
  else .next (if (s.port port).st = .up ∨ (s.port port).st = .align then s.updPort port (fun q => { q with st := .detect, hasAddr := false }) else s)

/-- More than 4,096 corrected symbols in 2^26: they are counted and the lane is failing (R177, R203). -/
def execLaneCeLimit (port lane : Nat) (s : State) : Host.Outcome State Fault Refusal :=
  if 9 ≤ lane then .fault (.noSuchUnit "lane")
  else onFabricPort port s (fun s => (s.bump .prtFecCorr port 4097).laneFail port lane)

/-- Sixteen uncorrectable codewords in 2^26 symbols (R177). -/
def execLaneUeLimit (port lane : Nat) (s : State) : Host.Outcome State Fault Refusal :=
  if 9 ≤ lane then .fault (.noSuchUnit "lane") else onFabricPort port s (fun s => s.laneFail port lane)

/-- No valid LCF for 20 µs (R197). -/
def execPortLcfTimeout (port : Nat) (s : State) : Host.Outcome State Fault Refusal :=
  onFabricPort port s (fun s => if (s.port port).st = .mgmtOnly then s.toDetect port else s.leaveUp port)

/-- A fast retrain that does not finish: DETECT, and the flits are lost (R197). -/
def execFastRetrainTimeout (port : Nat) (s : State) : Host.Outcome State Fault Refusal :=
  onFabricPort port s (fun s => if (s.port port).st = .fastRetrain then s.toDetect port else s)

/-! ### Training (R181 to R185) -/

/-- A port leaves DARK in its start slot, to DETECT, or to UNUSED where it faces no partner or has no role (R181, R187, R201). -/
def execPortStart (port : Nat) (s : State) : Host.Outcome State Fault Refusal :=
  if 36 ≤ port then .fault (.noSuchUnit "port")
  else if (s.port port).st ≠ .dark ∨ s.id.opticsAt.isNone then .next s
  else if port < 32 then
    let (v, rank, size) := divPort s.cfg port
    if (s.partnerLocus v).isNone then .next (s.updPort port (fun q => { q with st := .unused, dir := 15, rank := 0, size := 0 }))
    else .next (s.updPort port (fun q => { q with st := .detect, dir := v, rank, size }))
  else .next (s.updPort port (fun q => { q with st := if s.cfg.edgeRole (port - 32) = 0 then .unused else .detect }))

/-- At least four lanes detect signal and the partner is ready: EQUALISE, for at most 8 ports at once (R183); an edge port goes to
ALIGN (R200). -/
def execPartnerReady (port lanes : Nat) (s : State) : Host.Outcome State Fault Refusal :=
  if 36 ≤ port then .fault (.noSuchUnit "port")
  else if (s.port port).st ≠ .detect ∨ popCount lanes 9 < 4 then .next s
  else if 32 ≤ port then .next (s.updPort port (fun q => { q with st := .align }))
  else if 8 ≤ ((List.range 32).filter (fun i => (s.port i).st == .equalise)).length then .next s
  else .next (s.updPort port (fun q => { q with st := .equalise }))

/-- Equalisation completes: ALIGN (Table 7.4). -/
def execEqualiseDone (port : Nat) (s : State) : Host.Outcome State Fault Refusal :=
  onFabricPort port s (fun s => if (s.port port).st = .equalise then s.updPort port (fun q => { q with st := .align }) else s)

/-- Lock completes on the lanes of a 9-bit map: the lane map is chosen and IDENT is sent; with fewer than four lanes the attempt, or the
fast retrain, fails (R184). -/
def execAlignDone (port lanes : Nat) (s : State) : Host.Outcome State Fault Refusal :=
  onFabricPort port s (fun s =>
    let q := s.port port
    if !(q.st == .align || q.st == .fastRetrain) then s
    else
      let m := chooseLanes lanes
      let s := s.updPort port (fun q => { q with lanesOk := lanes % 512, remoteLaneDown := if q.st = .align then [] else q.remoteLaneDown })
      if popCount lanes 9 < 4 then (if q.st = .align then s.backoff port else s.toDetect port)
      else
        (s.updPort port (fun q => { q with
          lanes := m.1, spare := m.2, peerSeen := false, st := if q.st = .align then .ident else .fastRetrain })).sendIdent port)

/-- An attempt past 60 ms or a state's limit fails (R182). -/
def execAttemptTimeout (port : Nat) (s : State) : Host.Outcome State Fault Refusal :=
  onFabricPort port s (fun s =>
    let st := (s.port port).st
    if st = .equalise ∨ st = .align ∨ st = .ident then s.backoff port else s)

/-- The backoff, 64 × 2^min(n−1, 6) ms for the n-th failure, ends (R182). -/
def execBackoffExpiry (port : Nat) (s : State) : Host.Outcome State Fault Refusal :=
  onFabricPort port s (fun s => if (s.port port).st = .backoff then s.updPort port (fun q => { q with st := .detect }) else s)

/-- A port held for 60 s after eight exits is released (R185). -/
def execHeldExpiry (port : Nat) (s : State) : Host.Outcome State Fault Refusal :=
  onFabricPort port s (fun s => if (s.port port).st = .held ∧ (s.port port).heldAt.isSome then s.toDetect port else s)

/-- A port held for a mismatch loses signal (R188). -/
def execHeldSignalLoss (port : Nat) (s : State) : Host.Outcome State Fault Refusal :=
  onFabricPort port s (fun s => if (s.port port).st = .held ∧ (s.port port).heldAt.isNone then s.toDetect port else s)

/-! ### Edge ports -/

/-- The Ethernet link comes up; the port takes its configured address unless it is found a duplicate (R406). -/
def execEdgeLinkUp (port : Nat) (duplicate : Bool) (s : State) : Host.Outcome State Fault Refusal :=
  onEdgePort port s (fun s =>
    if !((s.port port).st == .align || (s.port port).st == .detect) then s
    else
      let k := port - 32
      let s := s.updPort port (fun q => { q with st := .up, width := 8, hasAddr := !duplicate && s.cfg.edgeHolds k })
      if duplicate then
        s.record { code := 0x310B, sev := 2, srcType := 4, srcIndex := port,
                   data := port :: (List.range 4).map (fun i => bitsOf (s.cfg.edgeAddr k) (127 - 32 * i) (96 - 32 * i)) }
      else s.flushVent)

/-- The Ethernet link goes down and trains from DETECT (R200). -/
def execEdgeLinkDown (port : Nat) (s : State) : Host.Outcome State Fault Refusal :=
  onEdgePort port s (fun s =>
    if (s.port port).st = .up then s.updPort port (fun q => { q with st := .detect, width := 0, hasAddr := false }) else s)

/-- The UDP ports a port's roles accept: Geyser, Vent (Table 7.8, R201). -/
def State.udpAccepted (s : State) (k dst : Nat) : Bool :=
  ((s.cfg.edgeRole k).testBit 0 && dst == s.cfg.geyUdpPort) || ((s.cfg.edgeRole k).testBit 1 && dst == s.cfg.ventUdpPort)

/-- The filter of an edge port: what it keeps of a frame (Table 7.8, R201). -/
def State.edgeKeeps (s : State) (port : Nat) (f : EdgeFrame) : Bool :=
  let k := port - 32
  let roleVid (r : Nat) : Bool := (s.cfg.edgeRole k).testBit r &&
    (if f.tagged then s.cfg.vlanVid r == f.vid && s.cfg.vlanVid r != 0 else s.cfg.vlanVid r == 0)
  decide (64 ≤ f.length) && decide (f.length ≤ 9216) &&
    (match f.etherType with
     | 0x88F7 => roleVid 2
     | 0x86DD => !f.extension && (f.claimsAddress || (f.udpOk && s.udpAccepted k f.dstPort && (roleVid 0 || roleVid 1)))
     | _ => false)

/-- EDGE_FRAME_RECEIVE: a frame the filter refuses is dropped and counted. Neighbor Discovery is kept
whatever its port; an address is only judged at link-up (R200, R201, R406). -/
def execEdgeFrameReceive (port : Nat) (f : EdgeFrame) (s : State) : Host.Outcome State Fault Refusal :=
  onEdgePort port s (fun s =>
    if (s.port port).st ≠ .up then s
    else if !s.edgeKeeps port f then s.bump .prtEdgeDrop port
    else s)

end Sys2Proof.Machine
end

