-- ==== Sys2Proof/Machine/Release.lean ====
section
/-!
DEFINITION. Determinism (09): the reset-alignment protocol (R233 to R235) and the release of fabric arrivals (R237).
-/
namespace Sys2Proof.Machine

/-! ### Alignment -/

/-- The launch counts the module holds for steps not launched (R233). -/
def State.nextLaunch (s : State) : Option Nat :=
  (ctxIds.filterMap (fun x => let c := s.ctx x
                              if c.st = .running ∧ !c.launched then c.launch else none)).foldl
    (fun m l => some (match m with | none => l | some k => min k l)) none

/-- Step 1 of R233: the least multiple of Q at least 100,000 ticks ahead and 8,192 before the next launch; where none fits,
Caldera waits for the next step boundary, and nothing changes. -/
def State.chooseAlign (s : State) : State :=
  let ta := roundUp (s.time.fc + 100000) alignQuantum
  match s.nextLaunch with
  | some l => if ta + 8192 ≤ l then s.updDet (fun d => { d with ta := some ta, phase := 1 }) else s
  | none => s.updDet (fun d => { d with ta := some ta, phase := 1 })

/-- ALIGN_START: a module at CFG_DET_LEVEL 1 whose time is LOCKED starts the protocol when it is not aligned, does not run it
already, and has not given up (R233, R235). -/
def execAlignStart (s : State) : Host.Outcome State Fault Refusal :=
  .next (if s.cfg.detLevel ≠ 1 ∨ s.time.st ≠ 2 ∨ s.det.aligned ∨ s.det.downgrade ∨ s.det.phase ≠ 0 then s else s.chooseAlign)

/-- ALIGN_QUIESCE: from T_a − 4,096 the writers into aligned crossings stop (step 3). -/
def execAlignQuiesce (s : State) : Host.Outcome State Fault Refusal :=
  .next (match s.det.ta with
    | some t => if s.det.phase = 1 then (s.advanceTo (t - 4096)).updDet (fun d => { d with phase := 2 }) else s
    | none => s)

/-- ALIGN_APPLY: at T_a the divider phases are reset, crossings restart empty and the slot counters of R103 restart (step 4); a
T_a already applied changes nothing. -/
def execAlignApply (s : State) : Host.Outcome State Fault Refusal :=
  .next (match s.det.ta with
    | some t => if s.det.phase = 2 then
        ((s.advanceTo t).updDet (fun d => { d with phase := 3 })).updMem (fun m => { m with slotAt := [] })
      else s
    | none => s)

/-- ALIGN_COMPLETE (step 5, R235): with every error in bounds ALIGNED and TIM_ALIGN_COUNT are set; otherwise the attempt has
failed, and the third failure in a row gives up with DOWNGRADE and ALIGN_FAIL_EVT. -/
def execAlignComplete (inBounds : Bool) (s : State) : Host.Outcome State Fault Refusal :=
  .next (match s.det.ta with
    | none => s
    | some t =>
      if s.det.phase ≠ 3 then s
      else if inBounds then
        s.updDet (fun d => { d with aligned := true, downgrade := false, tries := 0, count := t, ta := none, phase := 0 })
      else
        let n := min 3 (s.det.tries + 1)
        let s := (s.bump .alignFail 0).updDet (fun d => { d with aligned := false, tries := n, ta := none, phase := 0 })
        if n = 3 ∧ !s.det.downgrade then (s.updDet (fun d => { d with downgrade := true })).setEvt .alignStatus 0 30 else s)

/-! ### Release -/

/-- The effect a held command has at its release tick; no other command is ever held. -/
def heldEffect (c : Instr) (s : State) : State :=
  match c with
  | .ack h q => effAck h q s
  | .redUp h _ => effRedUp h s
  | .redDown h r => effRedDown h r s
  | .stepConfirm h => effStepConfirm h s
  | .commit h l hold e => effCommit h l hold e s
  | .faultReport h f => effFaultReport h f s
  | .reexec h l e => effReexec h l e s
  | .moduleLost h l sp e => effModuleLost h l sp e s
  | .armed h d => effArmed h d s
  | .start h l p e => effStart h l p e s
  | .pmap h p b e => effPmap h p b e s
  | .resume h l e => effResume h l e s
  | .hostLoss h _ => effHostLoss h s
  | .drain h td e => effDrain h td e s
  | .drained h => effDrained h s
  | .stepHold h r e => effStepHold h r e s
  | .routeBreak _ d a b e => effRouteBreak d a b e s
  | .coordBeat h l e => effCoordBeat h l e s
  | .takeover h n e => effTakeover h n e s
  | .takeoverState h a co fa hl he l _ =>
    effTakeoverState h { locus := h.src, committed := h.step, attempt := a, confirmed := co, faulted := fa, hasLaunch := hl,
                         held := he, launch := l } s
  | .probe h e => effProbe h e s
  | .probeReply h _ st l => effProbeReply h st l s
  | .selfLost h r => effSelfLost h r s
  | .recoveryNotice h _ r => effRecoveryNotice h r s
  | .geyBind h j => effGeyBind h j s
  | .geyBindReply h a j => effGeyBindReply h a j s
  | .geySpareReady h j => effGeySpareReady h j s
  | .geyTake h l sp e => effGeyTake h l sp e s
  | .geyTakeDone h _ => effGeyTakeDone h s
  | .geyReseed h m => effGeyReseed h m s
  | .geyFetch h t b => effGeyFetch h t b s
  | .geyCkpt h e => effGeyCkpt h e s
  | .geyCkptDone h st => effGeyCkptDone h st s
  | .geyRestore h j e => effGeyRestore h j e s
  | .geyRestored h st _ => effGeyRestored h st s
  | _ => s

/-- The held effect due first: the least release tick, then the order of arrival. -/
def earliest : List (Nat × Instr) → Option (Nat × Instr)
  | [] => none
  | e :: l => match earliest l with
    | none => some e
    | some f => if e.1 ≤ f.1 then some e else some f

/-- A list without its first entry equal to one. -/
def dropFirst (e : Nat × Instr) : List (Nat × Instr) → List (Nat × Instr)
  | [] => []
  | f :: l => if f = e then l else f :: dropFirst e l

/-- PACKET_RELEASE: the release tick of the held effect due first is reached, and the effect takes place (R237). -/
def execPacketRelease (s : State) : Host.Outcome State Fault Refusal :=
  .next (match earliest s.fab.held with
    | none => s
    | some e => heldEffect e.2 ((s.advanceTo e.1).updFab (fun f => { f with held := dropFirst e f.held })))

end Sys2Proof.Machine
end

