-- ==== Sys2Proof/Machine/RegBlocks.lean ====
section
/-!
DEFINITION. The register blocks of REG_READ (16 Table 16.13) and the bytes counters have in samples (13 Table 13.1): registers and
counters in the order of the tables named.
-/
namespace Sys2Proof.Machine

/-! ### Counters in table order -/

/-- Table 3.7, per cluster. -/
def clusterCtrs : List Ctr :=
  [.validBeats, .bubbleOperand, .bubbleAnchor, .bubblePad, .bubbleSlice, .vecResults, .clCheckMismatch, .clSparseMeta]
/-- Table 4.7 as it names them, per partition. -/
def partCtrs : List Ctr :=
  [.hbmFgSlots, .hbmGeySlots, .scrubSlots, .calHeldTicks, .xposeJobs, .nsCe, .nsUe, .fsCe, .fsUe, .hbmCe, .hbmUe, .memBlockCheck, .memMass]
/-- Table 6.13 per port, and per module. -/
def portFabCtrs : List Ctr := [.fabTx, .fabRx, .fabCm, .fabStall]
def modFabCtrs : List Ctr := [.fabLimited, .fabHdr, .fabHops, .fabStale, .fabDomain, .fabAge, .fabDown]
/-- Table 7.11, per port. -/
def portCtrs : List Ctr := [.prtFecCorr, .prtReplay, .prtFecUncorr, .prtFlitsLost, .prtEdgeDrop, .prtRetrain, .prtLaneFail, .prtIdent]
/-- Table 9.11 after TIM_ALIGN_COUNT. -/
def detCtrs : List Ctr := [.detNcr, .detLateRelease, .detDumpBlocks, .alignFail]
/-- Table 10.7. -/
def errCtrs : List Ctr :=
  [.errShadow, .errShadowExtra, .detCheck, .detShadow, .detSquare, .detAnchor, .detTransient, .detPermanent, .detExposure, .detSuspect]
/-- Table 11.8. -/
def recCtrs : List Ctr :=
  [.recL1, .recL2, .recL3, .recL4, .recL5, .recHang, .recRestore, .recCalTakeover, .recCoordTakeover, .recHold]
/-- Table 12.10. -/
def geyCtrs : List Ctr :=
  [.geyStream, .geyPartner, .geyCkptBytes, .geyPinStall, .geyRetx, .geyGwFail, .geyCkptFail, .geyTakeover, .geyReseed]
/-- Table 13.11. -/
def telCtrs : List Ctr :=
  [.telSamples, .ventRecords, .ventBytes, .telMissed, .telLate, .telDrop, .telPartial, .ventAged, .ventRefused]
/-- Table 14.8. -/
def evrCtrs : List Ctr := [.evrRecords, .evrFolded, .evrReplaced, .evrDropped, .evrClears]
/-- Table 15.9. -/
def pwrCtrs : List Ctr := [.pwrThrottle, .pwrDepart, .pwrTrip, .pwrPhaseLost, .pwrRefused, .pwrOverrun]

/-- Counters of an instance as they stand in a sample: network byte order at their own width (R336). -/
def State.ctrBytes (s : State) (cs : List Ctr) (i : Nat) : List Byte := (cs.map (fun c => beBytes (c.width / 8) (s.ctr c i))).flatten

/-! ### Registers no W1C table holds -/

/-- PRT_PORT_REMOTE (Table 7.10). -/
def State.portRemote (s : State) (i : Nat) : Nat :=
  let p := s.port i
  field p.remoteLocus 17 15 + field p.remotePort 5 10 + field p.remoteDir 4 6 + field p.remoteRank 6 0

/-- TIM_PORT_TIME (Table 8.7); zero on edge ports. -/
def State.portTime (s : State) (i : Nat) : Nat :=
  let p := s.port i
  if 32 ≤ i then 0
  else
    let off : Int := max (-32767) (min 32767 p.offset)
    let valid := match p.measuredAt with | some t => decide (s.time.loc ≤ t + 1000000) | none => false
    field (ofInt 16 off) 16 16 + field (b2n valid) 1 15 + field p.delay 15 0

/-- PWR_LEDGER (R373). -/
def State.ledger (s : State) : Nat := sumL ((List.range 36).map (fun i => (s.stage i).acc)) / 1000000000 % 2 ^ 64

/-- GEY_BIND (Table 12.9) of the lowest-numbered context that is not EMPTY: the table is one register (log 44). -/
def State.geyBindReg (s : State) : Nat :=
  match s.liveCtxs with
  | [] => 0
  | x :: _ =>
    let g := (s.ctx x).gey
    field g.buddy 17 47 + field ((g.partner.map (·.locus)).getD 0) 17 30 + field (b2n g.buddyValid) 1 29 +
      field (b2n ((g.partner.map (·.seeded)).getD false)) 1 28

/-- FAB_BUNDLE_MAP (Table 6.12a). -/
def State.bundleMap (s : State) (v : Nat) : Nat :=
  sumL ((s.members v).map (fun i => 2 ^ (32 + i))) + sumL ((s.upMembers v).map (2 ^ ·))

/-- The bound of R215 after t ns of HOLDOVER, in whole ns rounded up. -/
def holdBound (locked : Bool) (t : Nat) : Nat :=
  if locked then ceilDiv (10 * 10 ^ 24 + 25 * t * 10 ^ 15 + 5 * t * t) (10 ^ 24) else ceilDiv (2 * t) (10 ^ 6)

/-- TIM_HOLDOVER_NS (Table 8.8): the bound in HOLDOVER, 0 outside it. -/
def State.holdoverNs (s : State) : Nat :=
  match s.time.holdSince with
  | some t => if s.time.st = 3 then holdBound s.time.everLocked (s.time.loc - t) else 0
  | none => 0

/-! ### Blocks (Table 16.13) -/

/-- The items of a block's instance, each with its width in bits; none where there is no such instance. -/
def State.blockItems (s : State) (block inst : Nat) : Option (List (Nat × Nat)) :=
  let reg (r : Reg) : Nat × Nat := (32, s.regVal r inst)
  let ctrs (cs : List Ctr) : List (Nat × Nat) := cs.map (fun c => (c.width, s.ctr c inst))
  let one (n : Nat) (l : List (Nat × Nat)) : Option (List (Nat × Nat)) := if inst < n then some l else none
  match block with
  | 0x01 => one 4 [reg .avenue]
  | 0x02 => one 36 ([reg .portStatus, (32, s.portRemote inst), (32, s.portTime inst)] ++ ctrs portFabCtrs ++ ctrs portCtrs)
  | 0x03 => one 1 [reg .timStatus, (64, if s.fcHeld then s.time.fc else 0), (64, ofInt 64 s.time.rootOffset), (64, s.holdoverNs)]
  | 0x04 => one 1 ([reg .alignStatus, (64, s.det.count)] ++ ctrs detCtrs)
  | 0x05 => one 4096 [reg .clDetect]
  | 0x06 => one 1 (ctrs modFabCtrs ++ ctrs errCtrs)
  | 0x07 => one 1 (reg .calHalf :: ctrs recCtrs)
  | 0x08 => one 1 ([reg .geyStatus, (64, s.geyBindReg)] ++ ctrs geyCtrs)
  | 0x09 => one 1 (reg .telStatus :: ctrs telCtrs)
  | 0x0A => one 1 (reg .evrStatus :: ctrs evrCtrs)
  | 0x0B => one 1 ([reg .pwrStatus, (64, s.ledger)] ++ ctrs pwrCtrs)
  | 0x0C => one 16 [reg .pwrCtx, (64, (s.pwrCtx inst).grant.getD s.cfg.pwrDefaultGrant)]
  | 0x0D => one 36 [reg .pwrRail]
  | 0x0E => one 1 [reg .calId]
  | 0x0F => one 4096 (reg .clStatus :: ctrs clusterCtrs)
  | 0x10 => one 16 (reg .partStatus :: ctrs partCtrs)
  | 0x11 => one 8 [(64, s.bundleMap inst)]
  | _ => none

/-- The bytes of a block: each item at its width rounded up to 32 bits, little-endian (R416). -/
def blockBytesOf (items : List (Nat × Nat)) : List Byte := (items.map (fun i => leBytes (ceilDiv i.1 32 * 4) i.2)).flatten

/-- The W1C register at the head of a block. -/
def blockReg (block : Nat) : Option Reg :=
  match block with
  | 0x01 => some .avenue | 0x02 => some .portStatus | 0x03 => some .timStatus | 0x04 => some .alignStatus
  | 0x05 => some .clDetect | 0x07 => some .calHalf | 0x08 => some .geyStatus | 0x09 => some .telStatus
  | 0x0A => some .evrStatus | 0x0B => some .pwrStatus | 0x0C => some .pwrCtx | 0x0D => some .pwrRail | 0x0E => some .calId
  | 0x0F => some .clStatus | 0x10 => some .partStatus
  | _ => none

end Sys2Proof.Machine
end

