-- ==== Sys2Proof/Machine/Telemetry.lean ====
section
/-!
DEFINITION. Telemetry commands (13 R333 to R351): samples and drift metrics, telemetry packets and their timers, subscriptions and
the Vent's records.
-/
namespace Sys2Proof.Machine

/-! ### Samples (R333 to R336) -/

def sampleKey (cls index : Nat) : Nat := 65536 * cls + index
/-- Samplers of a class (Table 13.1), and the bytes of its body. -/
def classCount (cls : Nat) : Nat := [4096, 36, 8, 36, 1].getD cls 0
def classBytes (cls : Nat) : Nat := [64, 80, 272, 24, 192].getD cls 0

/-- The header of a sample entry (R336). -/
def sampleHead (cls flags span index : Nat) : List Byte :=
  beBytes 1 cls ++ beBytes 1 flags ++ beBytes 2 span ++ beBytes 2 index ++ beBytes 2 0

/-- A partition's counters in the layout of Table 5.9: 128 bytes. -/
def State.partCtrBytes (s : State) (p : Nat) : List Byte :=
  fitBytes 128 (s.ctrBytes [.hbmFgSlots, .hbmGeySlots, .scrubSlots, .calHeldTicks, .xposeJobs] p ++
    s.ctrBytes [.nsCe, .fsCe, .hbmCe] p ++ s.ctrBytes [.nsUe, .fsUe, .hbmUe, .memBlockCheck, .memMass] p)

/-- The class body of a reading (Table 13.1); `u` is a cluster's utilisation. -/
def State.sampleBody (s : State) (r : Reading) (u : Nat) : List Byte :=
  let temp := beBytes 2 (ofInt 16 r.temp)
  let i := r.index
  match r.cls with
  | 0 => temp ++ beBytes 1 u ++ beBytes 1 0 ++ beBytes 4 (s.regVal .clStatus i) ++ beBytes 4 (s.regVal .clDetect i) ++ s.ctrBytes clusterCtrs i
  | 1 => temp ++ beBytes 2 ((r.aux + 2 ^ 15) % 2 ^ 16) ++ beBytes 4 (s.regVal .portStatus i) ++ beBytes 4 (s.portTime i) ++
      s.ctrBytes (portCtrs.take 2) i ++ s.ctrBytes portFabCtrs i ++ s.ctrBytes (portCtrs.drop 2) i ++ beBytes 2 0
  | 2 => temp ++ beBytes 2 0 ++ beBytes 4 (s.regVal .partStatus (2 * i)) ++ beBytes 4 (s.regVal .partStatus (2 * i + 1)) ++
      s.partCtrBytes (2 * i) ++ s.partCtrBytes (2 * i + 1) ++ beBytes 4 0
  | 3 => temp ++ beBytes 1 (s.stage i).active ++ beBytes 1 0 ++ beBytes 4 r.aux ++ beBytes 4 r.aux2 ++
      beBytes 8 ((s.stage i).acc / 1000000000) ++ beBytes 4 0
  | _ => beBytes 4 (s.regVal .timStatus 0) ++ beBytes 4 (s.regVal .calHalf 0) ++ beBytes 4 (s.regVal .geyStatus 0) ++
      beBytes 4 (s.regVal .alignStatus 0) ++ beBytes 8 s.ledger ++ ((List.range 4).map (fun d => beBytes 4 (s.regVal .avenue d))).flatten ++
      beBytes 8 (s.ctr .fabLimited 0) ++ beBytes 8 s.det.count ++ s.ctrBytes (detCtrs ++ errCtrs ++ recCtrs ++ geyCtrs) 0

/-- One sampler latches (R333). The span of a first sample and the utilisation over a span without cycles are free values: the
source states neither (log 47). -/
def State.takeSample (s : State) (k : Nat) (r : Reading) : State :=
  if classCount r.cls ≤ r.index then s
  else
    let key := sampleKey r.cls r.index
    let old := KMap.find s.tel.samples key
    let f := s.fresh
    let g := f.2.fresh
    let span := match old with | some o => min 65535 (k - o.index) | none => f.1 % 65536
    let beats := s.ctr .validBeats r.index
    let u := match old with
      | some o =>
        let dc := r.aux - o.aux
        if dc = 0 then g.1 % 65 else min 64 (64 * ((beats + 2 ^ 64 - o.beats) % 2 ^ 64) / (256 * dc))
      | none => g.1 % 65
    let s := if old.isNone ∨ (r.cls = 0 ∧ (old.map (·.aux)) = some r.aux) then g.2 else s
    let e : Sample := { index := k, body := sampleHead r.cls 0 span r.index ++ s.sampleBody r u, temp := r.temp, aux := r.aux, beats }
    let s := (s.updTel (fun t => { t with samples := KMap.put t.samples key e })).bump .telSamples 0
    if r.cls = 0 then s.updCluster r.index (fun c => { c with temp := r.temp / 16, util := u }) else s

/-- The entry of a sampler at index k: what it latched, or MISSED with zeros (R334, R336). -/
def State.sampleEntry (s : State) (k cls index : Nat) : List Byte :=
  match (KMap.find s.tel.samples (sampleKey cls index)).filter (fun e => e.index == k) with
  | some e => e.body
  | none => sampleHead cls 1 0 index ++ List.replicate (classBytes cls) 0#8

/-! ### Drift metrics (R341, Table 13.5) -/

/-- The latest samples of a class's first n samplers. -/
def State.classSamples (s : State) (cls n : Nat) : List Sample := (List.range n).filterMap (fun i => KMap.find s.tel.samples (sampleKey cls i))

/-- Bytes of an entry's body, in network byte order. -/
def Sample.field (e : Sample) (off n : Nat) : Nat := beNat (slice e.body (8 + off) n)

/-- The sums that metrics difference, at the latest taken samples: beats, cycles, FUM_PRT_FEC_CORR, FUM_PRT_REPLAY_FLITS,
ERR_MEM_HBM_CE, PWR_LEDGER, ERR_DET_TRANSIENT. -/
def State.telSums (s : State) : List Nat :=
  let cl := s.classSamples 0 4096
  let pt := s.classSamples 1 32
  let st := s.classSamples 2 8
  let cal := s.classSamples 4 1
  [sumL (cl.map (·.beats)), sumL (cl.map (·.aux)), sumL (pt.map (·.field 12 8)), sumL (pt.map (·.field 20 8)),
   sumL (st.map (fun e => e.field 60 4 + e.field 188 4)), sumL (cal.map (·.field 16 8)), sumL (cal.map (·.field 110 4))]

/-- The largest absolute offset over UP fabric ports other than the upstream port. -/
def State.maxOffset (s : State) : Nat :=
  maxL ((List.range 32).map (fun i =>
    match KMap.find s.tel.samples (sampleKey 1 i) with
    | some e => if e.field 4 4 / 2 ^ 28 = 5 ∧ s.time.upstream ≠ some i then (toInt 16 (e.field 8 2)).natAbs else 0
    | none => 0))

/-- Every metric has a taken sample in interval i (R341). -/
def State.allSampled (s : State) (i : Nat) : Bool :=
  [0, 1, 2, 4].all (fun c => (s.classSamples c (min 4096 (classCount c))).any (fun e => decide (1024 * i ≤ e.index)))

/-- The metrics of an interval (Table 13.5, log 45); a utilisation without cycles is a free value. -/
def State.metrics (s : State) (now : List Nat) : List Nat × State :=
  let d (n : Nat) : Nat := if n = 1 then now.getD 1 0 - s.tel.base.getD 1 0 else (now.getD n 0 + 2 ^ 64 - s.tel.base.getD n 0 % 2 ^ 64) % 2 ^ 64
  let temp : Nat := maxL ((s.classSamples 0 4096).map (fun e => (e.temp + 2048).toNat))
  let f := s.fresh
  let util := if d 1 = 0 then f.1 else 65536 * d 0 / (256 * d 1)
  (([temp, util, d 2, d 3, d 4, d 5 / 1000, d 6, s.maxOffset]).map (min (2 ^ 32 - 1)), if d 1 = 0 then f.2 else s)

/-- Group 3's word (Table 13.4). -/
def State.telFlags (s : State) : Nat :=
  field s.tel.driftBits 8 0 + field (b2n (!s.tel.stragglers.isEmpty)) 1 8 + field (b2n (s.time.st == 3)) 1 9 +
    field (b2n (s.cal.fencedA || s.cal.fencedB)) 1 10 + field (b2n (s.clus.any (fun e => e.2.tslice))) 1 11 +
    field (b2n ((List.range 16).any (fun p => decide ((s.activePcs p).length < 16)))) 1 12 +
    field (b2n ((List.range 32).any (fun p => (s.port p).st == .held || (s.port p).st == .mgmtOnly))) 1 13

/-- The end of interval i: the module's own contributions to the fleet tree (R340, R341). -/
def State.endInterval (s : State) (i : Nat) : State :=
  let now := s.telSums
  let ok := s.allSampled i
  let m := s.metrics now
  let s := if ok then m.2 else s
  let s := s.updTel (fun t => { t with base := now })
  if !s.telMember then s
  else
    let one (g : Nat) (es : List Nat) (s : State) : State := s.telFold 0 g i 0 s.locus 1 es 0
    let s := if ok then
        let s := s.updTel (fun t => { t with contributed := (KMap.put t.contributed i m.1).filter (fun e => decide (i < e.1 + 4)) })
        let s := one 0 ((m.1.map (fun x => [x, x * x])).flatten) s
        let s := one 1 (m.1.map (fun x => telOne x s.locus)) s
        one 2 (m.1.map (fun x => telOne x s.locus)) s
      else s
    one 3 [s.telFlags] s

/-! ### Emission at a sample index (R349) -/

/-- What a subscription emits at index k: the body, and the subscription after. A replacement selection begins here, without the
content gathered for the one it replaces (R347). -/
def State.emitFor (s : State) (k : Nat) (b : Sub) : List Byte × Sub :=
  let b := { b with body := b.next.getD b.body, waiting := if b.next.isSome then [] else b.waiting, next := none }
  if subStream b.body = 0 then
    (if k % 2 ^ subDecim b.body = 0 then
      ((List.range' (subFirst b.body) (subCount b.body)).map (s.sampleEntry k (subClass b.body))).flatten else [], b)
  else
    let ev := if subStream b.body = 4 then
        (s.evr.export_.filter (fun r => decide (subClass b.body ≤ r.severity))).map (fun r => r.bytes s.locus) else []
    let t := takeContent ventMax (b.waiting ++ ev)
    (t.1, { b with waiting := t.2 })

/-- Every subscription's record of index k is made and given its SEQ; then what can be sent is sent. -/
def State.emitRecords (s : State) (k : Nat) : State :=
  let subs := s.tel.subs.map (fun b =>
    let r := s.emitFor k b
    if r.1.isEmpty then r.2 else { r.2 with seq := (r.2.seq + 1) % 2 ^ 32, unsent := r.2.unsent ++ [(r.2.seq, k, r.1)] })
  ((s.updTel (fun t => { t with subs })).updEvr (fun e => { e with export_ := [] })).flushVent

/-- SAMPLE_LATCH (R333): the samplers latch, running attempts are projected (15 R382), the interval's metrics are contributed after
its last index, and records leave. A module without a fleet count records nothing (R334). -/
def execSampleLatch (k : Nat) (readings : List Reading) (s : State) : Host.Outcome State Fault Refusal :=
  .next (
    if !s.fcHeld then s
    else
      let s := s.advanceTo (k * samplePeriod)
      let s := forEach readings s (fun s r => s.takeSample k r)
      let s := forEach s.liveCtxs s State.project
      let s := if k % 1024 = 1023 then s.endInterval (k / 1024) else s
      s.emitRecords k)

/-- SAMPLE_MISSED (R334): counted, and never latched later. -/
def execSampleMissed (cls index : Nat) (s : State) : Host.Outcome State Fault Refusal :=
  if classCount cls ≤ index then .fault (.noSuchUnit "Fumarole")
  else .next (if s.fcHeld then s.bump .telMissed 0 else s)

/-! ### Telemetry packets -/

/-- What delivers a TEL packet (R156, R157, R161): run state, age, marking, and for a job tree the domain and an attempt that runs or
is committed (R152). -/
def State.telGuard (s : State) (h : Hdr) (t : TelPkt) (f : State → State) : State :=
  let s := s.advanceTo h.stamp
  if !s.inRun then s
  else if s.tooOld h then s.bump .fabAge 0
  else
    let s := s.marked h 6
    if t.op ≠ telOp t.group || !telGroupOk t.tree t.group then s.bump .telDrop 0
    else if t.tree = 0 then f s
    else match s.telCtx t.tree with
      | none => s.domainDrop h
      | some x =>
        let c := s.ctx x
        if (c.step == h.step && c.attempt == h.attempt) || c.records.any (fun r => r.step == h.step && r.attempt == h.attempt) then f s
        else s.bump .fabStale 0

/-- TEL_UP (R340, R342): a child's contribution is folded; one past the send-by tick is dropped and counted. -/
def execTelUp (h : Hdr) (t : TelPkt) (s : State) : Host.Outcome State Fault Refusal :=
  .next (s.telGuard h t (fun s =>
    let key := if t.tree = 0 then t.key else h.step
    match s.telSendBy t.tree key h.attempt with
    | some due =>
      if due < h.stamp then s.bump .telLate 0
      else s.telFold t.tree t.group key h.attempt h.src t.contrib t.entries t.upset
    | none => s.telFold t.tree t.group key h.attempt h.src t.contrib t.entries t.upset))

/-- TEL_DOWN (R343, R345, R346): a result is forwarded to the children and judged; PARTIAL is counted and noted. -/
def execTelDown (h : Hdr) (t : TelPkt) (s : State) : Host.Outcome State Fault Refusal :=
  .next (s.telGuard h t (fun s =>
    let s := if t.short then (s.bump .telPartial 0).setEvt .telStatus 0 19 else s
    s.telResult t h.step h.attempt))

/-- TEL_SEND_BY (R342): the send-by tick of a key: what is folded is sent; without a parent the slot is dropped and counted. -/
def execTelSendBy (tree group key attempt : Nat) (s : State) : Host.Outcome State Fault Refusal :=
  .next (
    let s := match s.telSendBy tree key attempt with | some t => s.advanceTo t | none => s
    if s.telRoot tree = s.locus then s
    else match s.tel.slots.find? (fun q => q.isKey tree group key attempt && !q.sent) with
      | none => s
      | some q => match s.telParent tree with
        | some p => s.telSend q p
        | none => s.releaseTelSlots (fun r => r.isKey tree group key attempt))

/-- TEL_FINALIZE (R343): the root finalises a key it has not finalised. -/
def execTelFinalize (tree group key attempt : Nat) (s : State) : Host.Outcome State Fault Refusal :=
  .next (
    let s := match s.telSendBy tree key attempt with | some t => s.advanceTo t | none => s
    let q := s.telSlot tree group key attempt
    if !telGroupOk tree group || s.telRoot tree != s.locus || q.sent || (tree == 0 && !s.telMember) || (tree != 0 && (s.telCtx tree).isNone) then s
    else s.telFinal q)

/-- TEL_SLOT_RELEASE (R344). -/
def execTelSlotRelease (tree group key : Nat) (s : State) : Host.Outcome State Fault Refusal :=
  .next (s.releaseTelSlots (fun r => r.tree == tree && r.group == group && r.key == key))

/-! ### Subscriptions (R347, R348) -/

def Sub.isKey (b : Sub) (addr udp subId : Nat) : Bool := b.addr == addr && b.udp == udp && b.subId == subId

/-- SUB_REPLY (Table 13.7). -/
def State.subReply (s : State) (port addr udp subId status lease retryMs nextSeq : Nat) : State :=
  s.emit (.datagram port addr udp s.cfg.ventUdpPort
    (ventHeader 2 subId 0 1 status 0 s.locus 0 16 ++ beBytes 2 lease ++ beBytes 2 0 ++ beBytes 4 retryMs ++ beBytes 4 nextSeq ++ beBytes 4 0))

/-- The largest record a selection can produce, in body bytes (R348): samples; the four results of an interval; a context's two; nine
changes; and the most that fits (log 48). -/
def largestRecord (b : List Byte) : Nat :=
  match subStream b with
  | 0 => subCount b * (8 + classBytes (subClass b))
  | 1 => 4 * 24 + 256 + 128 + 128 + 8
  | 2 => 2 * 24 + 16 + 32
  | 3 => 9 * 16
  | _ => 96

/-- A rate in bits of 2^40 per 10^9 ticks, headers included (R348). -/
def exportRate (b : List Byte) : Nat :=
  let n := largestRecord b
  (n + 32 * max 1 (ceilDiv n ventFrag)) * 8000 * 2 ^ (20 - (if subStream b = 0 then subDecim b else 0))

/-- A selection whose fields lie in the ranges of Table 13.7 and R366, and whose largest record fits 16 fragments. -/
def subOk (b : List Byte) : Bool :=
  b.length == 16 && decide (subStream b ≤ 4) && decide (subDecim b ≤ 20) && decide (1 ≤ subLease b) && decide (subLease b ≤ 3600) &&
  (match subStream b with
   | 0 => decide (subClass b ≤ 4) && decide (1 ≤ subCount b) && decide (subFirst b + subCount b ≤ classCount (subClass b))
   | 4 => decide (subClass b ≤ 3) && subFirst b == 0 && subCount b == 0
   | _ => true) && decide (largestRecord b ≤ ventMax)

/-- Milliseconds until the earliest lease ends, saturating (R347). -/
def State.retryMs (s : State) : Nat :=
  let ends := s.tel.subs.filterMap (·.leaseEnd)
  match ends with
  | [] => 2 ^ 32 - 1
  | e :: more => min (2 ^ 32 - 1) ((more.foldl min e - s.now) / 1000000)

/-- SUBSCRIBE (R347, R348): refused, or the lease is granted and the selection made, renewed or replaced from the next index. -/
def execSubscribe (port addr udp subId version : Nat) (body : List Byte) (s : State) : Host.Outcome State Fault Refusal :=
  .next (
    let refuse (s : State) (status retry : Nat) : State := (s.bump .ventRefused 0).subReply port addr udp subId status 0 retry 0
    if version ≠ 1 then s
    else if !s.cfg.ventAllows addr then refuse s 2 0
    else if !s.inRun then
      let h := s.hint
      refuse h.2 5 (ceilDiv h.1 1000)
    else if !subOk body then refuse s 3 0
    else
      let old := s.tel.subs.find? (fun b => b.isKey addr udp subId)
      let rates := sumL (((s.tel.subs.filter (fun b => !b.isKey addr udp subId)).map (fun b => exportRate b.body))) + exportRate body
      if old.isNone ∧ 256 ≤ s.tel.subs.length then (refuse s 1 s.retryMs).setEvt .telStatus 0 20
      else if s.cfg.ventBudgetMbps * 2 ^ 40 < rates then refuse s 4 0
      else
        let lease := min (subLease body) s.cfg.ventLeaseMaxS
        let until_ := s.now + lease * 1000000000
        match old with
        | some o =>
          let s := s.updTel (fun t => { t with subs := t.subs.map (fun b =>
            if b.isKey addr udp subId then
              { b with port, leaseEnd := b.leaseEnd.map (fun _ => until_), next := if b.body = body then none else some body }
            else b) })
          s.subReply port addr udp subId 0 lease 0 o.seq
        | none =>
          let s := s.updTel (fun t => { t with subs := t.subs ++ [{
            addr, udp, subId, body, port, leaseEnd := some until_, seq := 0, next := none, waiting := [], unsent := [] }] })
          s.subReply port addr udp subId 0 lease 0 0)

/-- UNSUBSCRIBE ends a subscription and frees its place at once (R347). -/
def execUnsubscribe (addr udp subId : Nat) (s : State) : Host.Outcome State Fault Refusal :=
  .next (s.updTel (fun t => { t with subs := t.subs.filter (fun b => !(b.isKey addr udp subId)) }))

/-- SUBSCRIPTION_LEASE_END (R347). -/
def execSubscriptionLeaseEnd (addr udp subId : Nat) (s : State) : Host.Outcome State Fault Refusal :=
  .next (
    match (s.tel.subs.find? (fun b => b.isKey addr udp subId)).bind (·.leaseEnd) with
    | none => s
    | some t =>
      let s := s.advanceTo t
      s.updTel (fun q => { q with subs := q.subs.filter (fun b => !b.isKey addr udp subId) }))

/-- RECORD_AGED (R349): a record not sent in time is discarded and counted; its SEQ is consumed. -/
def execRecordAged (addr udp subId seq : Nat) (s : State) : Host.Outcome State Fault Refusal :=
  .next (
    if !s.tel.subs.any (fun b => b.isKey addr udp subId && b.unsent.any (fun u => u.1 == seq)) then s
    else (s.updTel (fun t => { t with subs := t.subs.map (fun b =>
      if b.isKey addr udp subId then { b with unsent := b.unsent.filter (fun u => u.1 != seq) } else b) })).bump .ventAged 0)

end Sys2Proof.Machine
end

