-- ==== Sys2Proof/Machine/Management.lean ====
section
/-!
DEFINITION. MCTP control messages (16 R413) and PLDM (R415, R416). Codes and layouts of DSP0236, DSP0240 and DSP0248 are those of the
standards (log 51).
-/
namespace Sys2Proof.Machine

/-! ### MCTP control (type 0x00) -/

/-- An answer to an MCTP control message. -/
def State.control (s : State) (r : Req) (completion : Nat) (data : List Byte) : State := s.emit (.mctp r 0x00 (leBytes 1 completion ++ data))

/-- A bus owner's control request on a binding. -/
def busOwner (binding : Nat) : Req := { binding, eid := 0, session := none, inst := 0 }

/-- The endpoint ID on a binding. -/
def Mgmt.eid (m : Mgmt) (binding : Nat) : Nat := if binding = 0 then m.eidI3c else m.eidVdm

/-- SET_ENDPOINT_ID: the bus owner of a binding sets the endpoint ID; 0 and 0xFF are not endpoint IDs. -/
def execSetEndpointId (binding eid : Nat) (s : State) : Host.Outcome State Fault Refusal :=
  .next (
    let r := busOwner binding
    if !s.reached r then s
    else if eid = 0 ∨ 255 ≤ eid then s.control r 2 []
    else (s.updMgmt (fun m => if binding = 0 then { m with eidI3c := eid } else { m with eidVdm := eid })).control r 0 ([0#8] ++ leBytes 1 eid ++ [0#8]))

/-- GET_ENDPOINT_ID. -/
def execGetEndpointId (binding : Nat) (s : State) : Host.Outcome State Fault Refusal :=
  .next (if !s.reached (busOwner binding) then s else s.control (busOwner binding) 0 (leBytes 1 (s.mgmt.eid binding) ++ [0#8, 0#8]))

/-- The message types of R413. -/
def messageTypes : List Nat := [0x00, 0x01, 0x05, 0x06, 0x7E]

/-- GET_MCTP_VERSION_SUPPORT of a message type, or 0xFF for the base. -/
def execGetMctpVersionSupport (r : Req) (msgType : Nat) (s : State) : Host.Outcome State Fault Refusal :=
  .next (
    if !s.reached r then s
    else if messageTypes.contains msgType || msgType == 0xFF then s.control r 0 (Config.mctpVersion msgType)
    else s.control r 0x80 [])

/-- GET_MESSAGE_TYPE_SUPPORT. -/
def execGetMessageTypeSupport (r : Req) (s : State) : Host.Outcome State Fault Refusal :=
  .next (if !s.reached r then s else s.control r 0 (leBytes 1 messageTypes.length ++ messageTypes.map (BitVec.ofNat 8)))

/-- GET_VENDOR_DEFINED_MESSAGE_SUPPORT: the one vendor set, under PF0's Vendor ID. -/
def execGetVendorDefinedMessageSupport (r : Req) (selector : Nat) (s : State) : Host.Outcome State Fault Refusal :=
  .next (
    if !s.reached r then s
    else if selector = 0 then s.control r 0 ([0xFF#8, 0#8] ++ beBytes 2 Config.pcieVendorId ++ beBytes 2 Config.vendorVersion)
    else s.control r 2 [])

/-- DYNAMIC_ADDRESS_ASSIGNMENT: the tray controller gives the I3C target its address; the target is live with Caldera out of reset. -/
def execDynamicAddressAssignment (addr : Nat) (s : State) : Host.Outcome State Fault Refusal :=
  .next (if !s.served then s else s.updMgmt (fun m => { m with i3cAddr := some addr }))

/-! ### PLDM (type 0x01) -/

def State.pldm (s : State) (r : Req) (completion : Nat) (data : List Byte) : State := s.emit (.mctp r 0x01 (leBytes 1 completion ++ data))

/-- PLDM type 0 is served from the selection of a slot on, in RECOVERY too (Table 16.10). -/
def State.pldmBase (s : State) (r : Req) (f : State → State) : State :=
  if !s.reached r || s.id.cal == .boot then s else f s

/-- Types 2 and 0x3F: ERROR_NOT_READY before RUN, ERROR in RECOVERY (R407). -/
def State.pldmGate (s : State) (r : Req) (f : State → State) : State :=
  if !s.reached r then s
  else match s.id.cal with
    | .boot => s
    | .init => s.pldm r 4 []
    | .recovery => s.pldm r 1 []
    | .run => f s

/-- GET_TID. -/
def execGetTid (r : Req) (s : State) : Host.Outcome State Fault Refusal :=
  .next (s.pldmBase r (fun s => s.pldm r 0 (leBytes 1 s.mgmt.tid)))

/-- The PLDM types supported: base, monitoring and control, and 0x3F (R415, R416). -/
def pldmTypes : List Nat := [0, 2, 0x3F]

/-- GET_PLDM_VERSION. -/
def execGetPldmVersion (r : Req) (pldmType : Nat) (s : State) : Host.Outcome State Fault Refusal :=
  .next (s.pldmBase r (fun s => if pldmTypes.contains pldmType then s.pldm r 0 (Config.pldmVersion pldmType) else s.pldm r 0x83 []))

/-- GET_PLDM_TYPES: a bitmap of 64 types. -/
def execGetPldmTypes (r : Req) (s : State) : Host.Outcome State Fault Refusal :=
  .next (s.pldmBase r (fun s => s.pldm r 0 (leBytes 8 (sumL (pldmTypes.map (2 ^ ·))))))

/-- The commands of a PLDM type (R415, R416). -/
def pldmCommands (t : Nat) : List Nat :=
  match t with
  | 0 => [0x02, 0x03, 0x04, 0x05]
  | 2 => [0x11, 0x21, 0x39, 0x51]
  | _ => [0x01, 0x02]

/-- GET_PLDM_COMMANDS: a bitmap of 256 commands. -/
def execGetPldmCommands (r : Req) (pldmType : Nat) (s : State) : Host.Outcome State Fault Refusal :=
  .next (s.pldmBase r (fun s =>
    if pldmTypes.contains pldmType then s.pldm r 0 (leBytes 32 (sumL ((pldmCommands pldmType).map (2 ^ ·)))) else s.pldm r 0x83 []))

/-- GET_PDR: the records' contents follow DSP0248 and are not in the source. -/
def execGetPdr (r : Req) (handle : Nat) (s : State) : Host.Outcome State Fault Refusal :=
  .next (s.pldmGate r (fun s => s.pldm r 0 (Config.pldmPdr handle)))

/-- What a numeric sensor reads: the latest sample of its sampler; without one, and for the input power, a free value (log 51). -/
def State.sensorValue (s : State) (q : PldmSensor) : Option Int :=
  let last (cls i : Nat) : Option Sample := KMap.find s.tel.samples (sampleKey cls i)
  match q with
  | .inputPower => none
  | .dieTemp d => ((List.range' (1024 * d) 1024).filterMap (last 0)).foldl (fun m e => some (match m with | none => e.temp | some v => max v e.temp)) none
  | .stackTemp k => (last 2 k).map (·.temp)
  | .portTemp p => (last 1 p).map (·.temp)
  | .portRxMin p => (last 1 p).map (fun e => toInt 16 (e.field 2 2))
  | .stageVolts i => (last 3 i).map (fun e => (e.field 4 4 : Int))
  | .stageAmps i => (last 3 i).map (fun e => (e.field 8 4 : Int))

/-- GET_SENSOR_READING: a 32-bit reading of an enabled sensor. -/
def execGetSensorReading (r : Req) (sensor : Nat) (s : State) : Host.Outcome State Fault Refusal :=
  .next (s.pldmGate r (fun s =>
    match Config.numericSensor sensor with
    | none => s.pldm r 0x80 []
    | some q =>
      let f := s.fresh
      let v := match s.sensorValue q with | some v => ofInt 32 v | none => f.1
      (if (s.sensorValue q).isNone then f.2 else s).pldm r 0 ([5#8, 0#8, 0#8, 1#8, 1#8, 1#8] ++ leBytes 4 v)))

/-- GET_STATE_SENSOR_READINGS: one composite state. -/
def execGetStateSensorReadings (r : Req) (sensor : Nat) (s : State) : Host.Outcome State Fault Refusal :=
  .next (s.pldmGate r (fun s =>
    match Config.stateSensor sensor with
    | none => s.pldm r 0x80 []
    | some q =>
      let v := match q with
        | .calState => s.id.cal.code
        | .portState p => (s.port p).st.code
        | .timState => s.time.st
      s.pldm r 0 ([1#8, 0#8] ++ leBytes 1 v ++ leBytes 1 v ++ [0#8])))

/-! ### Effecters (R415) -/

/-- PLDM_FULL_RETRAIN of a fabric port (07 R180): an UP port asks its partner, as R194 and R196 have it; a port in MGMT_ONLY, which has no
bundle to lose, trains anew. -/
def execPldmFullRetrain (r : Req) (port : Nat) (s : State) : Host.Outcome State Fault Refusal :=
  .next (s.pldmGate r (fun s =>
    if 32 ≤ port then s.pldm r 2 []
    else
      let s := match (s.port port).st with
        | .up => (s.updPort port (fun q => { q with req := some { req := 2 } })).sendLsm port 2 0 0
        | .mgmtOnly => s.toDetect port
        | _ => s
      s.pldm r 0 []))

/-- RELEASE_HOLD of a fabric port: the 60 s hold of R185 ends early. -/
def execReleaseHold (r : Req) (port : Nat) (s : State) : Host.Outcome State Fault Refusal :=
  .next (s.pldmGate r (fun s =>
    if 32 ≤ port then s.pldm r 2 []
    else (if (s.port port).st = .held ∧ (s.port port).heldAt.isSome then s.toDetect port else s).pldm r 0 []))

/-- ALIGN_RETRY (09 R235): after a downgrade the alignment protocol runs again; DOWNGRADE stays until it succeeds. -/
def execAlignRetry (r : Req) (s : State) : Host.Outcome State Fault Refusal :=
  .next (s.pldmGate r (fun s =>
    (if s.cfg.detLevel = 1 ∧ s.time.st = 2 ∧ s.det.downgrade ∧ s.det.phase = 0 then s.chooseAlign else s).pldm r 0 []))

/-! ### Register blocks (R416) -/

/-- REG_READ: bytes of a block's instance; a block, instance, offset or length outside Table 16.13 is invalid data. -/
def execRegRead (r : Req) (block inst offset length : Nat) (s : State) : Host.Outcome State Fault Refusal :=
  .next (s.pldmGate r (fun s =>
    match s.blockItems block inst with
    | none => s.pldm r 2 []
    | some l =>
      let b := blockBytesOf l
      if length = 0 ∨ 256 < length ∨ b.length < offset + length then s.pldm r 2 [] else s.pldm r 0 (slice b offset length)))

/-- REG_W1C: clears event bits as R8 states; a block's one W1C register stands at its head. -/
def execRegW1c (r : Req) (block inst offset mask : Nat) (s : State) : Host.Outcome State Fault Refusal :=
  .next (s.pldmGate r (fun s =>
    match s.blockItems block inst with
    | none => s.pldm r 2 []
    | some l =>
      if offset % 4 ≠ 0 ∨ (blockBytesOf l).length ≤ offset then s.pldm r 2 []
      else
        let s := match blockReg block with
          | some q => if offset = 0 then s.w1c q inst mask else s
          | none => s
        s.pldm r 0 []))

end Sys2Proof.Machine
end

