-- ==== Sys2Proof/Machine/MemEngines.lean ====
section
/-!
DEFINITION. Memory engines (04): MOVE and DMA with block checks (R92, R96, R97), transposition jobs (R98, R99, R447), scrub
(R102, R103) and calibration gaps (R104, R107).
-/
namespace Sys2Proof

/-- The permutation of a transposition: the input element that output element i takes (R98): output dimension d is input
dimension perm[d]. -/
def xposeSource (perm : List Nat) (src dst : Tensor) (i : Nat) : Nat :=
  let c := dst.coords i
  src.index ((List.range 4).map (fun d => match perm.zipIdx.find? (fun e => e.1 == d) with
    | some e => c.getD e.2 0
    | none => c.getD d 0))

end Sys2Proof

namespace Sys2Proof.Machine

/-! ### Transfers -/

/-- A range lies inside one addressable region (R91, R105). -/
def State.rangeOk (s : State) (a n : Nat) : Bool :=
  addrOk a && (n == 0 || (addrOk (a + n - 1) && addrLevel (a + n - 1) == addrLevel a &&
    (match addrLevel a with
     | 0 => addrPart (a + n - 1) == addrPart a && decide (a % 2 ^ 35 + n ≤ s.cfg.programSpace)
     | 1 => addrPart (a + n - 1) == addrPart a
     | _ => (a + n - 1) / 2 ^ 15 == a / 2 ^ 15)))

/-- What the storage code does to a near-store read (R100, R101); whether the data is POISON. -/
def State.nearRead (s : State) (a n : Nat) (rd : ReadOutcome) : Bool × State :=
  match rd with
  | .corrected => (s.nearPoison a n, s.corrected none a)
  | .uncorrectable => (true, s.uncorrectable a)
  | _ => (s.nearPoison a n, s)

/-- The 4 KiB pieces of a range of far store or HBM: address and length. -/
def pieces : Nat → Nat → Nat → List (Nat × Nat)
  | 0, _, _ => []
  | k + 1, a, n =>
    if n = 0 then []
    else
      let m := min n (4096 - a % 4096)
      (a, m) :: pieces k (a + m) (n - m)

/-- Foreground slots of 64 bytes an HBM transfer takes (Table 4.7). -/
def State.fgSlots (s : State) (a n : Nat) : State := if addrLevel a = 0 then s.bump .hbmFgSlots (addrPart a) (ceilDiv n 64) else s

/-- Read a range, every block verified: the bytes, or none where a check failed or near store was POISON. Only the first read meets
`rd`. -/
def State.readRange (s : State) (x a n unit opId layer : Nat) (rd : ReadOutcome) : Option (List Byte) × State :=
  if addrLevel a = 2 then
    let r := s.nearRead a n rd
    if r.1 then (none, r.2.reportBlock x a unit 3 opId layer true) else (some (s.readBytes a n), r.2)
  else
    (pieces (n / 4096 + 2) a n).foldl (fun (acc : Option (List Byte) × State) p =>
      let r := acc.2.readBlock x p.1 unit opId layer (if p.1 = a then rd else .good)
      match acc.1, r.1 with
      | some l, some b => (some (l ++ slice b (p.1 % 4096) p.2), r.2)
      | _, _ => (none, r.2)) (some [], s.fgSlots a n)

/-- Write a range: near store by words, far store and HBM by blocks with their checks (R95, R97). -/
def State.writeRange (s : State) (x a opId layer : Nat) (bs : List Byte) : State :=
  if addrLevel a = 2 then s.writeNear a bs
  else forEach (pieces (bs.length / 4096 + 2) a bs.length) (s.fgSlots a bs.length) (fun s p =>
    s.writePart x p.1 opId layer (slice bs (p.1 - a) p.2))

/-- A transfer between two ranges; an address that fails R91 transfers nothing (R92). -/
def State.transfer (s : State) (x src dst n unit opId layer : Nat) (rd : ReadOutcome) : State :=
  if !s.rangeOk src n then s.addrErr x opId layer src
  else if !s.rangeOk dst n then s.addrErr x opId layer dst
  else
    let r := s.readRange x src n unit opId layer rd
    match r.1 with
    | some b => r.2.writeRange x dst opId layer b
    | none => r.2

/-- MOVE: between near store and far store or HBM (R59, R90, R96). -/
def execMove (c : CoreCmd) (src dst len : Nat) (rd : ReadOutcome) (s : State) : Host.Outcome State Fault Refusal :=
  s.onCore c (fun _ o s => s.transfer c.ctx src dst len 0 c.opId o.layer rd)

/-- DMA: a descriptor's transfer between far stores and HBM of the module (Table 4.4, Table 10.3 unit 3). -/
def execDma (x opId src dst len : Nat) (rd : ReadOutcome) (s : State) : Host.Outcome State Fault Refusal :=
  if 16 ≤ x then .fault (.noSuchUnit "context")
  else .next (
    let c := s.ctx x
    match c.op opId with
    | none => s
    | some o => if c.st = .running ∧ c.launched then s.transfer x src dst len 3 opId o.layer rd else s)

/-! ### Transposition (R98, R99, R447) -/

/-- The job an engine runs: the started transposition of least OPERATOR_ID that R447 places on it. -/
def State.jobOn (s : State) (p e : Nat) : Option (Nat × OpDesc) :=
  ctxIds.findSome? (fun x =>
    let c := s.ctx x
    if c.st ≠ .running ∨ !c.launched then none
    else
      let ops := ((c.prog.map (·.operators)).getD []).filter (fun o =>
        (match o.kind with | .xpose _ => true | _ => false) && clusterPart o.first == p && s.engineOf p o.opId == some e &&
          (KMap.find c.exec.started o.opId).isSome && !(KMap.find c.exec.done o.opId).isSome)
      (ops.foldl (fun (m : Option OpDesc) o => match m with
        | some q => if o.opId < q.opId then some o else m
        | none => some o) none).map (fun o => (x, o)))

/-- Read every block of a tensor, verified; none where one failed. -/
def State.readTensor (s : State) (x opId layer : Nat) (t : Tensor) (rd : ReadOutcome) : Option (List (List Byte)) × State :=
  (List.range t.blocks).foldl (fun (acc : Option (List (List Byte)) × State) b =>
    let r := (acc.2.fgSlots (t.blockAddr b) 4096).readBlock x (t.blockAddr b) 5 opId layer (if b = 0 then rd else .good)
    match acc.1, r.1 with
    | some l, some v => (some (l ++ [v]), r.2)
    | _, _ => (none, r.2)) (some [], s)

/-- The permuted blocks of a destination tensor, with disturbances (destination position, bits flipped). -/
def permuteBlocks (perm : List Nat) (src dst : Tensor) (blocks : List (List Byte)) (flips : List (Nat × Nat)) : List (List Byte) :=
  let epb := elemsPerBlock src.format
  let value (i : Nat) : Nat := let p := src.pos i
                               unpackElem src.format (blocks.getD (p / epb) []) (p % epb)
  (List.range dst.blocks).map (fun b =>
    let n := min epb (dst.elems - epb * b)
    let els := (List.range n).map (fun j =>
      let v := value (xposeSource perm src dst (dst.elemAt (epb * b + j)))
      (flips.filter (fun f => f.1 == epb * b + j)).foldl (fun v f => v ^^^ (f.2 % 2 ^ elemBits src.format)) v)
    fitBytes 4096 (packElems src.format els))

/-- The blocks of a destination's scale tensor: byte m is the byte of the source's MX block that lands as block m (R98). -/
def permuteScales (perm : List Nat) (src dst scaleDst : Tensor) (scales : List (List Byte)) : List (List Byte) :=
  let all := scales.flatten
  let moved := (List.range (ceilDiv dst.elems groupSize)).map (fun m =>
    all.getD (src.pos (xposeSource perm src dst (dst.elemAt (groupSize * m))) / groupSize) 0#8)
  (List.range scaleDst.blocks).map (fun b => fitBytes 4096 (slice moved (4096 * b) 4096))

/-- The destination blocks of a job are written. -/
def State.writeTensor (s : State) (x : Nat) (t : Tensor) (blocks : List (List Byte)) : State :=
  forEach blocks.zipIdx s (fun s b => (s.fgSlots (t.blockAddr b.2) 4096).writeBlock x (t.blockAddr b.2) b.1)

/-- XPOSE_JOB_COMPLETE: the job's destination blocks are written, an MX tensor's scale bytes with them (R98); its MASS sums are compared,
and where they differ every destination block is invalid, MASS_XPOSE is reported and a transient counted against the engine
(R99, Table 11.2). A source block that fails its check discards the job. -/
def execXposeJobComplete (p e : Nat) (flips : List (Nat × Nat)) (rd : ReadOutcome) (s : State) : Host.Outcome State Fault Refusal :=
  if 16 ≤ p ∨ 4 ≤ e then .fault (.noSuchUnit "transposition engine")
  else .next (
    match s.jobOn p e with
    | none => s
    | some (x, o) =>
      let c := s.ctx x
      match o.kind, c.tensor (o.inputs.getD 0 0), c.tensor o.output with
      | .xpose perm, some src, some dst =>
        let r := s.readTensor x o.opId o.layer src rd
        match r.1 with
        | none => r.2
        | some blocks =>
          let out := permuteBlocks perm src dst blocks flips
          let s := (r.2.bump .xposeJobs p).writeTensor x dst out
          let sum (l : List (List Byte)) : Nat := sumL (l.map (massOf src.format)) % 2 ^ 32
          if sum blocks ≠ sum out then
            let s := forEach (List.range dst.blocks) (s.bump .memMass p) (fun s b => s.invalidate (dst.blockAddr b))
            (s.report x { FaultParam.of 3 0x21 with addr := dst.base, opId := o.opId, layer := o.layer, detail := e }).transientUnit
              x (engineKey p e) p (some e) o.opId o.layer 1
          else match (if isMx src.format then c.tensor src.scaleId else none), c.tensor dst.scaleId with
            | some a, some b =>
              let q := s.readTensor x o.opId o.layer a .good
              match q.1 with
              | none => q.2
              | some scales => q.2.writeTensor x b (permuteScales perm src dst b scales)
            | _, _ => s
      | _, _, _ => s)

/-! ### Scrub (R102, R103) -/

/-- A memory unit by level: 16 × partition + pseudo-channel, partition of a far store, or logical core. -/
def unitOk (level unit : Nat) : Bool :=
  match level with
  | 0 => decide (unit < 256)
  | 1 => decide (unit < 16)
  | 2 => decide (unit < 2 ^ 20)
  | _ => false

/-- Bytes a unit's scrubber passes over, and the bytes of one read. -/
def State.scrubSize (s : State) (level : Nat) (unit : Nat) : Nat × Nat :=
  match level with
  | 0 => (s.cfg.allocatable / (s.activePcs (unit / 16)).length, 64)
  | 1 => (0x2FE80000, 16)
  | _ => (nearSize, 8)

/-- The module memory address of a scrubber's position (R106). -/
def State.scrubAddr (s : State) (level unit pos : Nat) : Nat :=
  match level with
  | 0 =>
    let l := s.activePcs (unit / 16)
    let i := ((l.zipIdx.find? (fun e => e.1 == unit % 16)).map (·.2)).getD 0
    hbmAddr (unit / 16) ((pos / 256 * l.length + i) * 256 + pos % 256)
  | 1 => farAddr unit pos
  | _ => nearAddr unit pos

/-- SCRUB_SLOT: one scrub slot of a unit: the next word is read and corrected, or marked POISON; a foreground write in between wins,
and the error is still counted (R101 to R103). -/
def execScrubSlot (level unit : Nat) (rd : ReadOutcome) (foregroundWrote : Bool) (s : State) : Host.Outcome State Fault Refusal :=
  if !unitOk level unit then .fault (.noSuchUnit "memory unit")
  else .next (
    let k := 2 ^ 24 * level + unit
    let size := s.scrubSize level unit
    let pos := KMap.getD s.mem.scrubAt k 0
    let a := s.scrubAddr level unit pos
    let next := if pos + size.2 < size.1 then pos + size.2 else 0
    let w := s.cfg.scrubWindow
    let s := (s.bump .scrubSlots (addrPart a)).updMem (fun m => { m with
      scrubAt := KMap.put m.scrubAt k next, slotAt := KMap.upd m.slotAt k 0 (fun n => (n / w + 1) * w) })
    match rd with
    | .corrected => s.corrected none a
    | .uncorrectable =>
      if foregroundWrote then (s.bump (ueCtr level) (addrPart a)).pcError a true else s.uncorrectable a
    | _ => s)

/-! ### Calibration gaps (R104, R107) -/

/-- CAL_GAP_START: at a fleet count with (c − CFG_CAL_GAP_PHASE) mod 2^27 = 0 all HBM access is held. No fleet count, no gap. -/
def execCalGapStart (count : Nat) (s : State) : Host.Outcome State Fault Refusal :=
  .next (
    if !s.fcHeld ∨ (count + 2 ^ 27 - s.cfg.calGapPhase) % 2 ^ 27 ≠ 0 then s
    else (s.advanceTo count).updMem (fun m => { m with gapCount := some count }))

/-- CAL_GAP_END: 8,192 ticks later access resumes; a pseudo-channel that failed calibration in three gaps running retires at the
next step boundary. `failed` lists partition and pseudo-channel. -/
def execCalGapEnd (failed : List (Nat × Nat)) (s : State) : Host.Outcome State Fault Refusal :=
  .next (
    match s.mem.gapCount with
    | none => s
    | some c =>
      let s := (s.advanceTo (c + 8192)).updMem (fun m => { m with gapCount := none })
      let s := forEach (List.range 16) s (fun s p => s.bump .calHeldTicks p 8192)
      let bad := failed.map (fun f => 16 * f.1 + f.2)
      let kept := s.mem.pcs.map (fun e => if bad.contains e.1 then e else (e.1, { e.2 with calFails := 0 }))
      let pcs := bad.foldl (fun m k => KMap.upd m k PcHist.reset (fun h => { h with calFails := h.calFails + 1 })) kept
      let s := s.updMem (fun m => { m with pcs })
      forEach bad s (fun s k =>
        let h := KMap.getD s.mem.pcs k PcHist.reset
        if 3 ≤ h.calFails ∧ !h.retired then s.wantAct 3 k else s))

end Sys2Proof.Machine
end

