-- ==== Sys2Proof/Machine/Operators.lean ====
section
/-!
DEFINITION. Operators on clusters (05 R120): starting and completing, batches of thin requests (03 R75 to R77), time-slice
streaming (R85), barriers and suspect marking (R89, 10 R268), and shadow recompute with its vote (10 R254 to R263).
-/
namespace Sys2Proof

/-- Whether an operator runs on the matrix units or the vector units of its clusters. -/
def OpDesc.unitOf (o : OpDesc) : Nat :=
  match o.kind with
  | .mma => 1
  | .xpose _ => 0
  | .move => 0
  | _ => 2

end Sys2Proof

namespace Sys2Proof.Machine

/-! ### Barriers (R89, R120, R268) -/

/-- An operator has completed on every cluster it occupies. -/
def Ctx.opDone (c : Ctx) (id : Nat) : Bool :=
  match c.op id with
  | none => false
  | some o => o.clusters.all (fun k => (KMap.getD c.exec.done id []).contains k)

/-- The cluster counted last at a barrier: its stamp leads every other's by the margin; time-slicing clusters take no part. -/
def State.lastCluster (s : State) (x barrier : Nat) : Option Nat :=
  let l := (((s.ctx x).clusterList.filter (fun g => !(s.cluster g).tslice)).filterMap (fun g =>
    (KMap.find (s.cluster g).stamps barrier).map (fun e => (g, e.1))))
  l.findSome? (fun e => if l.all (fun f => f.1 == e.1 || decide (f.2 + s.cfg.lateMargin ≤ e.2)) && l.all (fun f => f.1 == e.1 || f.2 != e.2)
    then some e.1 else none)

/-- One barrier more in a cluster's window (R268). -/
def State.countLate (s : State) (g : Nat) (last : Bool) : State :=
  let c := s.cluster g
  let late := (last :: c.late).take s.cfg.suspectW
  let n := (late.filter (fun b => b)).length
  let s' := s.updCluster g (fun c => { c with late, suspect := decide (s.cfg.suspectS ≤ n) || (c.suspect && decide (s.cfg.suspectS / 2 < n)) })
  if (s'.cluster g).suspect && !c.suspect then (s'.bump .detSuspect 0).setEvt .clDetect g 30 else s'

/-- A barrier releases once the operators it follows have completed and every core of the context's clusters has arrived. -/
def State.tryRelease (s : State) (x barrier : Nat) : State :=
  let c := s.ctx x
  match c.prog.bind (fun p => p.barriers.find? (fun b => b.barrierId == barrier)) with
  | none => s
  | some b =>
    if c.exec.released.contains barrier || !(b.after.all c.opDone) ||
        c.clusterList.any (fun g => (KMap.getD c.exec.arrived (4096 * barrier + g) []).length != 256) then s
    else
      let s := s.updExec x (fun e => { e with released := insertAsc barrier e.released })
      let last := s.lastCluster x barrier
      forEach (c.clusterList.filter (fun g => !(s.cluster g).tslice)) s (fun s g => s.countLate g (last == some g))

/-! ### Starting (R120) and batches (R75, R76) -/

/-- Everything in an operator's dependency list has happened. -/
def Ctx.depsMet (c : Ctx) (id : Nat) : Bool :=
  match c.prog with
  | none => false
  | some p => (p.depsOf id).all (fun d => match d with
    | .op k => c.opDone k
    | .barrier b => c.exec.released.contains b)

/-- An operator begins on a cluster; a cluster that time-slices streams in its displaced cores' images (R85). -/
def State.beginOp (s : State) (x opId unit g : Nat) : State :=
  let s := s.updExec x (fun e => { e with started := KMap.upd e.started opId [] (insertAsc g) })
  s.updCluster g (fun c => { c with
    arrayOp := if unit = 1 then some (x, opId) else c.arrayOp
    vectorOp := if unit = 2 then some (x, opId) else c.vectorOp
    streaming := if c.tslice && c.moved.any (fun m => m.2.isNone) then some opId else c.streaming })

/-- Two batchable operators may share a pass (R75): weight tensor, formats, anchor source, rounding, OVF_MODE, output format. -/
def State.sharesPass (s : State) (a b : ThinReq) : Bool :=
  let key (r : ThinReq) : Option (Nat × Nat × Nat × Nat) :=
    let c := s.ctx r.ctx
    (c.op r.opId).map (fun o => (o.inputs.getD 1 0, c.inFormat o 0, c.inFormat o 1, o.attr / 2 ^ 23))
  a.ctx == b.ctx && key a == key b && (key a).isSome

/-- The batch a queued request belongs to is launched in one pass, in order of arrival (R75, R76). -/
def State.launchBatchOf (s : State) (g : Nat) (r : ThinReq) : State :=
  let mine (q : ThinReq) : Bool := q == r || s.sharesPass r q
  let batch := (s.cluster g).queue.filter mine
  let s' := s.updCluster g (fun c => { c with queue := c.queue.filter (fun q => !mine q) })
  forEach batch s' (fun s q => s.beginOp q.ctx q.opId 1 g)

/-- The batch of the oldest request of a cluster's queue is launched (R76). -/
def State.launchBatch (s : State) (g : Nat) : State :=
  match (s.cluster g).queue with
  | [] => s
  | r :: _ => s.launchBatchOf g r

/-- Rows of the batch a request would join. -/
def State.batchRowsOf (s : State) (g : Nat) (r : ThinReq) : Nat :=
  sumL (((s.cluster g).queue.filter (s.sharesPass r)).map (·.rows))

/-- A thin request arrives: groups of 64 rows go at once, and the remainder queues; one that does not fit launches the batch before
it, and a full batch goes (R75, R76). -/
def State.queueThin (s : State) (x opId rows g : Nat) : State :=
  let n := rows % 64
  let s := if 64 ≤ rows then s.beginOp x opId 1 g else s
  if n = 0 then s
  else
    let r : ThinReq := { ctx := x, opId, rows := n, since := s.now }
    let s := if 64 < s.batchRowsOf g r + n then s.launchBatchOf g r else s
    let s := s.updCluster g (fun c => { c with queue := c.queue ++ [r] })
    if s.cfg.batchRows ≤ s.batchRowsOf g r then s.launchBatchOf g r else s

/-- A context and cluster the module has. -/
def onCluster (x g : Nat) (r : State) : Host.Outcome State Fault Refusal :=
  if x < 16 ∧ g < numClusters then .next r else .fault (.noSuchUnit "context or cluster")

/-- OPERATOR_START: an operator whose dependencies are met runs on a cluster of its placement, one at a time on the matrix units and
one on the vector units; a batchable MMA queues its rows (R75, R120). -/
def execOperatorStart (x opId g : Nat) (s : State) : Host.Outcome State Fault Refusal :=
  onCluster x g (
    let c := s.ctx x
    match c.op opId with
    | none => s
    | some o =>
      let cl := s.cluster g
      let busy := (o.unitOf == 1 && !o.batchable && cl.arrayOp.isSome) || (o.unitOf == 2 && cl.vectorOp.isSome)
      let begun := (KMap.getD c.exec.started opId []).contains g || cl.queue.any (fun q => q.ctx == x && q.opId == opId)
      if c.st ≠ .running || !c.launched || !o.clusters.contains g || !c.depsMet opId || begun || busy then s
      else if o.batchable && o.unitOf == 1 then
        s.queueThin x opId ((c.tensor o.output).elim 0 (fun t => t.elems / max 1 t.lastExt)) g
      else s.beginOp x opId o.unitOf g)

/-- BATCH_WAIT_EXPIRY: the oldest queued request has waited CFG_BATCH_WAIT_TICKS, so its batch is launched (R76). -/
def execBatchWaitExpiry (g : Nat) (s : State) : Host.Outcome State Fault Refusal :=
  onCluster 0 g (s.launchBatch g)

/-- SLICE_STREAM_DONE: the images a time-sliced operator needs have been streamed (R85). -/
def execSliceStreamDone (g opId : Nat) (s : State) : Host.Outcome State Fault Refusal :=
  onCluster 0 g (s.updCluster g (fun c => if c.streaming = some opId then { c with streaming := none } else c))

/-- WAIT: the core has arrived at a barrier; its stamp is kept if it is its cluster's latest, a queued request the barrier
follows is launched, and the last arrival releases the barrier (R76, R89). -/
def execWait (c : CoreCmd) (barrier : Nat) (s : State) : Host.Outcome State Fault Refusal :=
  s.onCore c (fun k _ s =>
    let g := coreCluster c.core
    let t := s.now
    let after := ((k.prog.bind (fun p => p.barriers.find? (fun b => b.barrierId == barrier))).map (·.after)).getD []
    let s := forEach ((s.cluster g).queue.filter (fun q => q.ctx == c.ctx && after.contains q.opId)) s (fun s q =>
      if (s.cluster g).queue.contains q then s.launchBatchOf g q else s)
    let s := s.updExec c.ctx (fun e => { e with arrived := KMap.upd e.arrived (4096 * barrier + g) [] (insertAsc (c.core % 256)) })
    let newer (q : Cluster) : Bool := match KMap.find q.stamps barrier with
      | some e => decide (e.1 ≤ t)
      | none => true
    let s := s.updCluster g (fun q => if newer q then { q with stamps := KMap.put q.stamps barrier (t, c.core) } else q)
    s.tryRelease c.ctx barrier)

/-! ### Shadow recompute (R254 to R263) -/

/-- The instance is shadowed in this step for the reason an observation gives: the base rate, a suspect cluster, a directed slot, or
the vote of an earlier report; nothing extra at level CYCLE (R254, R258, R263). -/
def State.shadowDue (s : State) (x : Nat) (o : OpDesc) (b : ShadowObs) : Bool :=
  let n := (s.ctx x).step
  let due (m : Nat) : Bool := (n % m + 2 * m - o.opId % m - b.core % m) % m == 0
  let onCore := match o.kind with | .xpose _ => false | _ => true
  match b.why with
  | 0 => due 64
  | 1 => !s.isCycle && onCore && ((s.cluster (coreCluster b.core)).suspect || s.tel.stragglers.contains x) && due s.cfg.suspectShadow
  | 2 => !s.isCycle && (match ((s.roles x o b.core).getD 0 (none, 0)).1 with
      | some a => s.recov.directed.any (fun d => physCore d.cluster d.slot == a && s.inSignature d)
      | none => false)
  | _ => s.recov.repeats.any (fun r => r.shadow && r.ctx == x && r.opId == o.opId && r.core == b.core)

/-- Classes of P, Q and T by their digests (the table of R263): 0 none, 1 TRANSIENT, 2 PERMANENT, 3 UNDECIDED; whether T must
run again. `moved` says that P or Q has left its slot, and then T is not judged (log 110). -/
def voteClasses (dp dq dt : Nat) (moved : Bool) : List Nat × Bool :=
  if moved then ([3, 3, 0], false)
  else if dp = dq ∧ dq = dt then ([1, 1, 0], false)
  else if dq = dt then ([2, 0, 0], false)
  else if dp = dt then ([0, 2, 0], false)
  else if dp = dq then ([0, 0, 0], true)
  else ([3, 3, 3], false)

/-- A SHADOW report with the primary's identifiers; a transposition job is named by its first destination block (R257, Table 10.1). -/
def State.shadowReport (s : State) (x : Nat) (o : OpDesc) (unit why : Nat) : State :=
  let c := s.ctx x
  let f : FaultParam := { FaultParam.of 2 0x10 with opId := o.opId, layer := o.layer, detail := field why 2 20 }
  match o.kind with
  | .xpose _ => s.report x { f with addr := (c.tensor o.output).elim 0 (·.base) }
  | _ =>
    let r := s.roles x o unit
    let p := (r.getD 0 (none, 0)).1
    s.report x { f with physValid := p.isSome, physCore := p.getD 0, logicalValid := true, logicalCore := unit,
                        detail := field (r.getD 1 (none, 0)).2 20 0 + field why 2 20 }

/-- The vote of a reported instance in the attempt after its report (R263). -/
def State.vote (s : State) (x : Nat) (o : OpDesc) (r : Repeat) (b : ShadowObs) : State :=
  let roles := s.roles x o r.core
  let now_ (i : Nat) : Option Nat × Nat := roles.getD i (none, 0)
  let s := s.updRecov (fun q => { q with repeats := q.repeats.filter (fun u => u != r) })
  match r.agreed, b.digT with
  | some d, some t =>
    let s := s.judge x o r.core (r.slotT, (now_ 2).2) (if (now_ 2).1 != r.slotT then 3 else if t = d then 1 else 2)
    if t = d then s else s.shadowReport x o r.core 3
  | none, some t =>
    let v := voteClasses b.digP b.digQ t ((now_ 0).1 != r.slot || (now_ 1).1 != r.slotQ)
    let who := [(r.slot, (now_ 0).2), (r.slotQ, (now_ 1).2), now_ 2]
    let s := forEach (who.zip v.1) s (fun s e => if e.2 = 0 then s else s.judge x o r.core e.1 e.2)
    let s := if v.2 then s.updRecov (fun q => { q with repeats := q.repeats ++ [{ r with
        attempt := (s.ctx x).attempt, slotT := (now_ 2).1, agreed := some b.digP }] })
      else s
    if b.digP = b.digQ ∧ b.digQ = t then s else s.shadowReport x o r.core 3
  | _, none => s

/-- One shadowed instance compared (R257): counted; the vote of a standing report, or unequal digests reported and put up for a vote,
unless the check column named a slot of it in the same attempt (R266). -/
def State.shadowCompare (s : State) (x : Nat) (o : OpDesc) (b : ShadowObs) : State :=
  if !s.shadowDue x o b then s
  else
    let c := s.ctx x
    let s := s.bump .errShadow 0
    let s := if b.why = 1 ∨ b.why = 2 then s.bump .errShadowExtra 0 else s
    match s.recov.repeats.find? (fun r => r.shadow && r.ctx == x && r.step == c.step && (r.attempt + 1) % 16 == c.attempt &&
        r.opId == o.opId && r.core == b.core) with
    | some r => s.vote x o r b
    | none =>
      if b.digP = b.digQ then s
      else
        let roles := s.roles x o b.core
        let key (i : Nat) : Option Nat := (roles.getD i (none, 0)).1
        let named := s.recov.repeats.any (fun r => !r.shadow && r.ctx == x && r.step == c.step && r.attempt == c.attempt &&
          r.slot.isSome && (r.slot == key 0 || r.slot == key 1))
        let s := s.shadowReport x o b.core b.why
        if named then s
        else s.updRecov (fun q => { q with repeats := q.repeats ++ [{
          ctx := x, step := c.step, attempt := c.attempt, slot := key 0, core := b.core, opId := o.opId, layer := o.layer, shadow := true,
          slotQ := key 1, slotT := key 2, agreed := none, failedAgain := false }] })

/-! ### Completing -/

/-- The dumps an operator's completion captures: AFTER_OP of it, and END once it is the last writer (R243). -/
def State.captureFor (s : State) (x : Nat) (o : OpDesc) : State :=
  let c := s.ctx x
  let writers := ((c.prog.map (·.operators)).getD []).filter (fun w => w.output == o.output)
  let lastWriter := writers.all (fun w => c.opDone w.opId)
  forEach (c.dumps.filter (fun d => d.step == c.step && d.tensorId == o.output && (d.afterOp == some o.opId || (d.afterOp.isNone && lastWriter)))) s
    (fun s d => match (s.ctx x).tensor d.tensorId with
      | none => s
      | some t =>
        let r := s.capture x d t o.opId o.layer c.attempt
        r.1.updCtx x (fun c => { c with reasons := setBit c.reasons 6 true,
                                        dumps := c.dumps.map (fun e => if e.handle == d.handle then r.2 else e) }))

/-- OPERATOR_COMPLETE: an operator started on a cluster has completed there; its shadow comparisons are made. Complete everywhere,
it satisfies what depends on it, its tensor streams to the buddy once its last writer is done, dumps are captured, and
after the step's last operator the near-store images are captured (R120, R243, R257, R306, R310). -/
def execOperatorComplete (x opId g : Nat) (shadows : List ShadowObs) (s : State) : Host.Outcome State Fault Refusal :=
  onCluster x g (
    let c := s.ctx x
    match c.op opId with
    | none => s
    | some o =>
      if c.st ≠ .running || !c.launched || !(KMap.getD c.exec.started opId []).contains g || (KMap.getD c.exec.done opId []).contains g ||
          (s.cluster g).queue.any (fun q => q.ctx == x && q.opId == opId) then s
      else
        let s := s.updExec x (fun e => { e with done := KMap.upd e.done opId [] (insertAsc g) })
        let s := s.updCluster g (fun q => { q with
          arrayOp := if q.arrayOp = some (x, opId) then none else q.arrayOp
          vectorOp := if q.vectorOp = some (x, opId) then none else q.vectorOp })
        let s := forEach (shadows.filter (fun b => match o.kind with
            | .xpose _ => b.core == clusterPart g
            | _ => coreCluster b.core == g)) s (fun s b => s.shadowCompare x o b)
        if !(s.ctx x).opDone opId then s
        else
          let s := s.stream x ((s.ctx x).finished.filter (fun t => t.tensorId == o.output))
          let s := s.captureFor x o
          let s := if (s.ctx x).opsDone then s.captureImages x else s
          forEach (((s.ctx x).prog.map (·.barriers)).getD []) s (fun s b => if b.after.contains opId then s.tryRelease x b.barrierId else s))

end Sys2Proof.Machine
end

