-- ==== Sys2Proof/Machine/PinEvents.lean ====
section
/-!
DEFINITION. Pins and the 48 V input (17 R424, R426, R430, R432 to R434), and the PCIe link coming up (05 R122).
-/
namespace Sys2Proof.Machine

/-- The power-down sequence (R434): groups 5, 4, 3, 2 and 1 are turned off in that order; Caldera, the contexts and every volatile part go
with their rails. -/
def State.powerDown (s : State) : State :=
  ((((s.disableGroup 5).disableGroup 4).disableGroup 3).disableGroup 2).disableGroup 1 |>.unpowered

/-- PGOOD_FALL (R434): power-down; a module held off by R424 may start again at the next rise. -/
def execPgoodFall (s : State) : Host.Outcome State Fault Refusal :=
  .next ((if s.pins.pgood && !s.pins.latchedOff then s.powerDown else s).updPins (fun p => { p with pgood := false, latchedOff := false }))

/-- A power-down of R424: off until PGOOD has gone low and high again. -/
def State.inputTrip (s : State) : State :=
  if !s.pins.pgood || s.pins.latchedOff then s else s.powerDown.updPins (fun p => { p with latchedOff := true })

/-- INPUT_UNDERVOLTAGE: below 38 V for 100 µs. -/
def execInputUndervoltage (s : State) : Host.Outcome State Fault Refusal := .next s.inputTrip

/-- INPUT_OVERVOLTAGE: above 61 V for 10 µs. -/
def execInputOvervoltage (s : State) : Host.Outcome State Fault Refusal := .next s.inputTrip

/-- INPUT_COLLAPSE: below 30 V every stage is off, whatever the sequence; PWR_CYCLE_REQ falls (R424, R430). -/
def execInputCollapse (s : State) : Host.Outcome State Fault Refusal :=
  .next (s.inputTrip.updPins (fun p => { p with pwrCycleReq := false }))

/-- RESET_N_FALL (R432, R434): a module reset while PGOOD is high, with Caldera held in BOOT; no effect while PGOOD is low or a power-down
is in force. -/
def execResetNFall (s : State) : Host.Outcome State Fault Refusal :=
  .next (
    if !s.pins.pgood || s.pins.latchedOff || !s.pins.resetN then s
    else s.moduleReset.updPins (fun p => { p with resetN := false }))

/-- TEST_EN_HIGH (Table 17.6): the module is left in BOOT, and nothing is recorded. Nothing but power-on and a module reset enters BOOT
(Table 16.8), so a module past it goes on. -/
def execTestEnHigh (s : State) : Host.Outcome State Fault Refusal :=
  .next (if s.id.cal = .boot then s.updPins (fun p => { p with testEn := true }) else s)

/-- PCIE_PERST_N (R433): its fall is a conventional reset of the PCIe functions under R124, PF1's endpoint state with it; never of a
context or of Caldera. -/
def execPciePerstN (level : Bool) (s : State) : Host.Outcome State Fault Refusal :=
  .next (
    let s := s.updPins (fun p => { p with perstN := level })
    if level || !s.pins.pgood then s
    else
      let s := s.mbxReset.updMbx (fun m => { m with
        linkUp := false, linkDownAt := if m.linkUp then some s.time.loc else m.linkDownAt, width := 0, rate := 0, busMaster := false })
      s.updMgmt (fun m => { m with eidVdm := 0, sessions := m.sessions.filter (fun x => x.binding != 1),
                                   conns := m.conns.filter (fun c => c.1 / 256 != 1) }))

/-- The rates of Table 5.7, in units of 0.1 GT/s. -/
def pcieRates : List Nat := [25, 50, 80, 160, 320, 640]

/-- PCIE_LINK_UP (R122, R433): training ends at a width and rate; narrower than x8 it is held in Detect
and recorded, and Table 5.7 names no other width or rate. -/
def execPcieLinkUp (width rate : Nat) (s : State) : Host.Outcome State Fault Refusal :=
  .next (
    if !s.pins.pgood || !s.pins.perstN then s
    else if width < 8 then s.record { code := 0x2004, sev := 1, data := [width] }
    else if (width ≠ 8 ∧ width ≠ 16) ∨ !pcieRates.contains rate then s
    else s.updMbx (fun m => { m with linkUp := true, linkDownAt := none, width, rate }))

end Sys2Proof.Machine
end

