-- ==== Sys2Proof/Machine/Spdm.lean ====
section
/-!
DEFINITION. The SPDM responder (16 R407, R409, R410): certificates, challenge, measurements, sessions. Message codes and layouts are those
of SPDM 1.3; what the manual leaves to that specification and no rule fixes is a free value (log 12).
-/
namespace Sys2Proof.Machine

/-! ### Connections -/

def connKey (r : Req) : Nat := 256 * r.binding + r.eid
def State.conn (s : State) (r : Req) : SpdmConn := KMap.getD s.mgmt.conns (connKey r) SpdmConn.reset
def State.setConn (s : State) (r : Req) (c : SpdmConn) : State := s.updMgmt (fun m => { m with conns := KMap.put m.conns (connKey r) c })

/-- An SPDM answer: version, response code, two parameters, payload. -/
def State.spdm (s : State) (r : Req) (code p1 p2 : Nat) (data : List Byte) : State :=
  s.emit (.mctp r 0x05 ([0x13#8] ++ leBytes 1 code ++ leBytes 1 p1 ++ leBytes 1 p2 ++ data))

/-- An SPDM ERROR: InvalidRequest 1, UnexpectedRequest 4, DecryptError 6. -/
def State.spdmError (s : State) (r : Req) (err : Nat) : State := s.spdm r 0x7F err 0 []

/-- ceil(log2 n). -/
def ceilLog2 (n : Nat) : Nat := if n ≤ 1 then 0 else Nat.log2 (n - 1) + 1

/-- ResponseNotReady with RDTExponent from the hint; Caldera keeps no state for it (R407). -/
def State.notReadyYet (s : State) (r : Req) (request token : Nat) : State :=
  let h := s.hint
  h.2.spdm r 0x7F 0x42 0 (leBytes 1 (ceilLog2 h.1) ++ leBytes 1 request ++ leBytes 1 token ++ [1#8])

/-- A request joins the transcript with its answer, and the connection goes on to a phase. -/
def State.spdmStep (s : State) (r : Req) (phase request : Nat) (body : List Byte) (code p1 p2 : Nat) (data : List Byte) : State :=
  let c := s.conn r
  (s.setConn r { phase, transcript := c.transcript ++ leBytes 1 request ++ body ++ leBytes 1 code ++ data }).spdm r code p1 p2 data

/-- A request in a connection that has reached a phase; an earlier one is unexpected. -/
def State.spdmIn (s : State) (r : Req) (phase : Nat) (f : SpdmConn → State → State) : State :=
  if !s.reached r then s
  else if (s.conn r).phase < phase then s.spdmError r 4
  else f (s.conn r) s

/-- One that needs the booted firmware waits for the selection of a slot (Table 16.10). -/
def State.spdmLate (s : State) (r : Req) (request phase : Nat) (f : SpdmConn → State → State) : State :=
  if s.reached r && s.id.cal == .boot then s.notReadyYet r request 0 else s.spdmIn r phase f

/-! ### Certificates and measurements -/

/-- The firmware part that booted. -/
def State.bootedFirmware (s : State) : List Byte :=
  match s.id.booted with
  | none => []
  | some k => let m := (s.flash.slot k).image
              m.take (imgFwLen m)

/-- Certificate chain of a slot: the identity chain, or the alias certificate of this boot (R409). -/
def State.chain (s : State) (slot : Nat) : List Byte :=
  if slot = 0 then Config.identityChain else Config.aliasChain s.flash.boot (sha384 s.bootedFirmware)

/-- The fault map as bytes, in an order of the model's; its layout is not visible (R390). -/
def Flash.faultMap (f : Flash) : List Byte :=
  Config.spdmBody 0x100 ((f.fencedSlots.map (fun e => leBytes 2 e.1 ++ (e.2.map (leBytes 2)).flatten)).flatten ++
    (f.fencedEngines.map (leBytes 1)).flatten ++ (f.retiredPcs.map (leBytes 1)).flatten ++ leBytes 1 (f.fencedHalf.getD 255))

/-- The measurements of R410, by index. -/
def State.measurement (s : State) (i : Nat) : List Byte :=
  match i with
  | 1 => Config.romMeasurement
  | 2 => sha384 s.bootedFirmware
  | 3 => s.configDigest
  | 4 => s.identity ++ leBytes 1 s.id.secVersion ++ leBytes 1 s.flash.secMin ++ leBytes 2 s.flash.boot
  | _ => leBytes 4 (s.flash.acceptedLocus.getD 0xFFFFFFFF) ++ sha256 s.flash.faultMap

/-- A measurement block: index, specification, length, measurement. -/
def State.measBlock (s : State) (i : Nat) : List Byte :=
  let m := s.measurement i
  leBytes 1 i ++ [1#8] ++ leBytes 2 m.length ++ m

/-- A nonce of the module: 32 bytes, free values. -/
def State.nonce (s : State) : List Byte × State :=
  ((List.range 32).map (fun i => BitVec.ofNat 8 (Config.freeNat (s.free + i))), s.spend 32)

/-! ### Requests outside a session -/

/-- GET_VERSION begins a connection anew; version 1.3 is offered. -/
def execGetVersion (r : Req) (s : State) : Host.Outcome State Fault Refusal :=
  .next (if !s.reached r then s else (s.setConn r SpdmConn.reset).spdmStep r 1 0x84 [] 0x04 0 0 [0#8, 1#8, 0#8, 0x13#8])

/-- The capability flags of R410: CERT, CHAL, MEAS signed, MEAS_FRESH, ENCRYPT, MAC, KEY_EX, KEY_UPD. -/
def capFlags : Nat := 0x2 + 0x4 + 0x10 + 0x20 + 0x40 + 0x80 + 0x200 + 0x4000

/-- GET_CAPABILITIES. -/
def execGetCapabilities (r : Req) (body : List Byte) (s : State) : Host.Outcome State Fault Refusal :=
  .next (s.spdmIn r 1 (fun c s =>
    if c.phase ≠ 1 then s.spdmError r 4
    else s.spdmStep r 2 0xE1 body 0x61 0 0 ([0#8] ++ Config.spdmBody 0x61 [] ++ leBytes 4 capFlags)))

/-- NEGOTIATE_ALGORITHMS: ECDSA P-384, SHA-384, secp384r1, AES-256-GCM (R410). -/
def execNegotiateAlgorithms (r : Req) (body : List Byte) (s : State) : Host.Outcome State Fault Refusal :=
  .next (s.spdmIn r 2 (fun c s =>
    if c.phase ≠ 2 then s.spdmError r 4
    else s.spdmStep r 3 0xE3 body 0x63 0 0 (Config.spdmBody 0x63 body)))

/-- GET_DIGESTS: the SHA-384 of each chain; slot 1 from the selection of a slot on. -/
def execGetDigests (r : Req) (s : State) : Host.Outcome State Fault Refusal :=
  .next (s.spdmIn r 3 (fun c s =>
    let early := s.id.cal == .boot
    s.spdmStep r (max 4 c.phase) 0x81 [] 0x01 0 (if early then 1 else 3)
      (sha384 (s.chain 0) ++ (if early then [] else sha384 (s.chain 1)))))

/-- GET_CERTIFICATE: a portion of a chain and what remains. -/
def execGetCertificate (r : Req) (slot offset length : Nat) (s : State) : Host.Outcome State Fault Refusal :=
  .next (
    let go (s : State) : State := s.spdmIn r 3 (fun c s =>
      let b := s.chain slot
      if 2 ≤ slot ∨ b.length < offset then s.spdmError r 1
      else
        let p := slice b offset length
        s.spdmStep r (max 4 c.phase) 0x82 (leBytes 1 slot ++ leBytes 2 offset ++ leBytes 2 length) 0x02 slot 0
          (leBytes 2 p.length ++ leBytes 2 (b.length - offset - p.length) ++ p))
    if slot = 1 && s.reached r && s.id.cal == .boot then s.notReadyYet r 0x82 0 else go s)

/-- CHALLENGE: the chain's hash, a nonce and the identity key's signature over the transcript. -/
def execChallenge (r : Req) (slot : Nat) (nonce : List Byte) (s : State) : Host.Outcome State Fault Refusal :=
  .next (
    let go (s : State) : State := s.spdmIn r 3 (fun c s =>
      if 2 ≤ slot then s.spdmError r 1
      else
        let n := s.nonce
        let data := sha384 (s.chain slot) ++ n.1 ++ leBytes 2 0
        n.2.spdmStep r 5 0x83 (leBytes 1 slot ++ nonce) 0x03 slot (2 ^ slot)
          (data ++ Config.identitySign (c.transcript ++ [0x83#8] ++ leBytes 1 slot ++ nonce ++ [0x03#8] ++ data)))
    if slot = 1 && s.reached r && s.id.cal == .boot then s.notReadyYet r 0x83 0 else go s)

/-- GET_MEASUREMENTS: the count for index 0, one block, or all with index 0xFF; signed, with a fresh nonce. -/
def execGetMeasurements (r : Req) (index : Nat) (nonce : List Byte) (s : State) : Host.Outcome State Fault Refusal :=
  .next (s.spdmLate r 0xE0 3 (fun c s =>
    if 5 < index ∧ index ≠ 0xFF then s.spdmError r 1
    else
      let blocks := if index = 0 then [] else if index = 0xFF then ([1, 2, 3, 4, 5].map s.measBlock).flatten else s.measBlock index
      let count := if index = 0 then 0 else if index = 0xFF then 5 else 1
      let n := s.nonce
      let data := leBytes 1 count ++ leBytes 3 blocks.length ++ blocks ++ n.1 ++ leBytes 2 0
      n.2.spdmStep r c.phase 0xE0 (leBytes 1 index ++ nonce) 0x60 (if index = 0 then 5 else 0) 0
        (data ++ Config.identitySign (c.transcript ++ [0xE0#8] ++ leBytes 1 index ++ nonce ++ [0x60#8] ++ data))))

/-! ### Secured sessions -/

/-- KEY_EXCHANGE: a session is prepared; FINISH establishes it. -/
def execKeyExchange (r : Req) (reqSessionId : Nat) (body : List Byte) (s : State) : Host.Outcome State Fault Refusal :=
  .next (s.spdmLate r 0xE4 3 (fun c s =>
    let k := s.mgmt.nextSession % 2 ^ 16
    let id := reqSessionId % 2 ^ 16 + 2 ^ 16 * k
    let s := s.updMgmt (fun m => { m with
      nextSession := m.nextSession + 1,
      sessions := m.sessions ++ [{ id, binding := r.binding, eid := r.eid, established := false, reqGen := 0, rspGen := 0 }] })
    s.spdmStep r c.phase 0xE4 body 0x64 0 0 (leBytes 2 k ++ Config.spdmBody 0x64 body)))

/-- The session a request names, of this requester. -/
def State.sessionOf (s : State) (r : Req) (id : Nat) : Option Session :=
  s.mgmt.sessions.find? (fun x => x.id == id && x.binding == r.binding && x.eid == r.eid)

def State.updSession (s : State) (id : Nat) (f : Session → Session) : State :=
  s.updMgmt (fun m => { m with sessions := m.sessions.map (fun x => if x.id = id then f x else x) })

/-- FINISH: the verify data right, the session is established; otherwise the handshake ends. -/
def execFinish (r : Req) (session : Nat) (body : List Byte) (s : State) : Host.Outcome State Fault Refusal :=
  .next (
    if !s.reached r then s
    else match s.sessionOf r session with
      | none => s.spdmError r 4
      | some x =>
        if x.established then s.spdmError r 4
        else if Config.finishOk session body then
          (s.updSession session (fun x => { x with established := true })).spdm r 0x65 0 0 (Config.spdmBody 0x65 body)
        else (s.updMgmt (fun m => { m with sessions := m.sessions.filter (fun x => x.id != session) })).spdmError r 6)

/-- Do something in an established session of the requester. -/
def State.inSpdmSession (s : State) (r : Req) (session : Nat) (f : State → State) : State :=
  if !s.reached r then s
  else match s.sessionOf r session with
    | none => s.spdmError r 4
    | some x => if x.established then f s else s.spdmError r 4

/-- KEY_UPDATE: 1 renews the requester's key, 2 both; 3 verifies the new key. -/
def execKeyUpdate (r : Req) (session op : Nat) (s : State) : Host.Outcome State Fault Refusal :=
  .next (s.inSpdmSession r session (fun s =>
    if op = 0 ∨ 3 < op then s.spdmError r 1
    else
      (s.updSession session (fun x => { x with
        reqGen := if op = 3 then x.reqGen else x.reqGen + 1, rspGen := if op = 2 then x.rspGen + 1 else x.rspGen })).spdm r 0x69 op 0 []))

/-- END_SESSION. -/
def execEndSession (r : Req) (session : Nat) (s : State) : Host.Outcome State Fault Refusal :=
  .next (s.inSpdmSession r session (fun s =>
    (s.updMgmt (fun m => { m with sessions := m.sessions.filter (fun x => x.id != session) })).spdm r 0x6C 0 0 []))

/-- RESPOND_IF_READY: still ResponseNotReady until a slot is selected. Caldera keeps no state for the request it put off (R407), so the
bytes it answers with afterwards are a free value (log 12). -/
def execRespondIfReady (r : Req) (token : Nat) (s : State) : Host.Outcome State Fault Refusal :=
  .next (
    if !s.reached r then s
    else if s.id.cal == .boot then s.notReadyYet r 0xFF token
    else s.emit (.mctp r 0x05 (Config.spdmBody 0xFF (leBytes 1 token))))

end Sys2Proof.Machine
end

