-- ==== Sys2Proof/Machine/TimeCommands.lean ====
section
/-!
DEFINITION. The time commands (08): TIME flits and measurements (R207, R208, R212, R213), offers and roots (R209 to R211), and PTP on the
edge ports (R205, R216, R218, R219).
-/
namespace Sys2Proof.Machine

/-! ### TIME flits -/

/-- Ticks between TIME LCFs of a port (R207). -/
def timeInterval (width : Nat) : Nat := if width = 4 then 20972 else 10486

/-- An UP port with no request of Table 7.7b outstanding sends a TIME LCF (R207, Table 8.1). -/
def execTimeLcfSend (port : Nat) (s : State) : Host.Outcome State Fault Refusal :=
  onFabricPort port s (fun s =>
    let q := s.port port
    if q.st ≠ .up ∨ q.req.isSome then s
    else
      let t := s.time
      let valid := match q.rxStamp with | some r => decide (s.now ≤ r + 2 * timeInterval q.width) | none => false
      let body := field s.now 64 264 + field q.rxTx 64 200 + field (s.now - q.rxStamp.getD s.now) 32 168 + field t.root 17 151 +
        field t.rootPrio 4 147 + field t.rootSeq 16 131 + field (if t.st = 0 then 255 else t.dist) 8 123 + field t.st 2 121 +
        field (b2n (t.upstream == some port)) 1 120 + field (b2n valid) 1 119 + field (epochTag s.cfg) 16 103 +
        field t.utcOffset 16 87 + field t.rootClass 2 85
      (s.updPort port (fun q => { q with txHistory := (s.now :: q.txHistory).take 16 })).sendLcf port 3 false body)

/-- What a root sequence heard says of the root's freshness (R210). -/
def State.hearRoot (s : State) (root seq : Nat) : State :=
  s.updTime (fun t =>
    match KMap.find t.seen root with
    | none => { t with seen := KMap.put t.seen root { seq, advanced := none } }
    | some r => if serialNewer 16 seq r.seq then { t with seen := KMap.put t.seen root { seq, advanced := some t.loc } } else t)

/-- The delay and offset of an exchange, if accepted (R208): the echo is of a flit this port sent, the lanes did not change since, the
delay is not negative and at most 20,000 ticks. -/
def measure (q : Port) (t1 t3 t4 hold : Nat) : Option (Nat × Int) :=
  let d2 : Int := (t4 : Int) - t1 - hold
  let delay : Int := d2 / 2
  let moved := match q.mapAt with | some m => decide (t1 ≤ m) | none => false
  if !q.txHistory.contains t1 || moved || decide (d2 < 0) || decide (20000 < delay) then none
  else some (delay.toNat, (t3 : Int) + delay - t4)

/-- An accepted measurement of the upstream port steers the count and counts toward LOCKED; one beyond ±8 ticks leaves LOCKED (R209,
R212). -/
def State.steer (s : State) (off : Int) : State :=
  s.updTime (fun t =>
    let run := if off.natAbs ≤ 8 then t.run64 + 1 else 0
    { t with residual := off, run64 := run,
             st := if off.natAbs ≤ 8 then (if 64 ≤ run then 2 else t.st) else (if t.st = 2 then 1 else t.st),
             everLocked := t.everLocked || (decide (off.natAbs ≤ 8) && decide (64 ≤ run)) })

/-- A measurement of another port only watches the neighbour (R213). -/
def State.watch (s : State) (p : Nat) (off : Int) (theirs : Nat) : State :=
  let run := if 64 < off.natAbs ∧ s.time.st = 2 ∧ theirs = 2 then (s.port p).nbRun + 1 else 0
  let s := s.updPort p (fun q => { q with nbRun := run })
  if run = 64 then s.setEvt .timStatus 0 22 else s

/-- The fleet count is acquired: it is set, once, and the state becomes ACQUIRING (R204, R205, R212). Open records of the time before it
close (14 R358), and a START that waited for a count is issued (R115). -/
def State.acquire (s : State) (fc : Nat) : State :=
  let s := (s.updTime (fun t => { t with fc := fc % 2 ^ 64, st := 1, run64 := 0, run16 := 0, residual := 0 })).updEvr
    (fun e => e.closeWhere (·.preFc))
  forEach s.liveCtxs s State.tryStart

/-- TIME: the offer and its root are remembered, the exchange is measured, and the tree is chosen anew; without a fleet count the
first qualifying offer that has a measurement sets it (R207 to R212). -/
def execTimeLcf (port : Nat) (flit : BitVec 512) (stamp : Nat) (s : State) : Host.Outcome State Fault Refusal :=
  onFabricPort port s (fun s =>
    let s := s.advanceTo stamp
    if (s.port port).st ≠ .up then s
    else s.lcfIn port 3 flit (fun w s =>
      let o : Offer := {
        rootClass := bitsOf w 86 85, rootPrio := bitsOf w 150 147, root := bitsOf w 167 151, dist := bitsOf w 130 123,
        rootSeq := bitsOf w 146 131, tag := bitsOf w 118 103, followsYou := w.testBit 120, state := bitsOf w 122 121,
        utcOffset := bitsOf w 102 87, stamp := s.time.loc }
      let tx := bitsOf w 327 264
      let m := if w.testBit 119 then measure (s.port port) (bitsOf w 263 200) tx stamp (bitsOf w 199 168) else none
      let s := s.updPort port (fun q => { q with
        offer := some o, rxTx := tx, rxStamp := some stamp,
        delay := (m.map (·.1)).getD q.delay, offset := (m.map (·.2)).getD q.offset,
        measuredAt := if m.isSome then some s.time.loc else q.measuredAt })
      let s := s.hearRoot o.root o.rootSeq
      let s := if o.tag = epochTag s.cfg then s else s.setEvt .timStatus 0 24
      if !s.fcHeld then
        match m with
        | some (_, off) =>
          let v : Int := (stamp : Int) + off
          if s.qualifies port && decide (0 ≤ v) then (s.acquire v.toNat).reselect else s
        | none => s
      else
        let was := s.time.upstream
        let s := s.reselect
        match m with
        | none => s
        | some (_, off) =>
          if s.time.upstream = some port then (if was = some port then s.steer off else s.updTime (fun t => { t with residual := off }))
          else s.watch port off o.state))

/-! ### The tree's timers -/

/-- An offer stops qualifying: the module reselects (R209, R214). -/
def execOfferExpiry (port : Nat) (s : State) : Host.Outcome State Fault Refusal :=
  onFabricPort port s (fun s => (s.updPort port (fun q => { q with offer := none })).reselect)

/-- At every count c with c mod 2^20 = 0 the root advances its ROOT_SEQ (R210). -/
def execRootSeqAdvance (count : Nat) (s : State) : Host.Outcome State Fault Refusal :=
  let s := s.advanceTo count
  .next (if s.time.isRoot && s.fcHeld && count % 1048576 == 0 then s.updTime (fun t => { t with rootSeq := (t.rootSeq + 1) % 2 ^ 16 }) else s)

/-- A PTP lock has lasted 10 s: an entry module offers itself if its key is better (R210). -/
def execRootClaimTimer (s : State) : Host.Outcome State Fault Refusal :=
  .next (if s.cfg.timEntry && s.lockedPort.isSome then s.reselect true else s)

/-- A class-0 root unlocked for 1 s advertises class 1 (R210). -/
def execPtpUnlockTimeout (s : State) : Host.Outcome State Fault Refusal :=
  .next (if s.time.isRoot && s.time.rootClass == 0 && s.lockedPort.isNone then
      (s.updTime (fun t => { t with rootClass := if s.cfg.timEntry then 1 else 2 })).reselect
    else s)

/-! ### PTP -/

/-- A 48-bit PTP secondsField extended to 64 bits nearest to the module's own SECONDS; before acquisition the upper bits are 0 (R218). -/
def State.extendSec (s : State) (sec48 : Nat) : Nat :=
  if !s.fcHeld then sec48 % 2 ^ 48
  else
    let own := s.cfg.epochSec + s.time.fc / 1000000000
    let base := own / 2 ^ 48 * 2 ^ 48 + sec48 % 2 ^ 48
    if own + 2 ^ 47 < base ∧ 2 ^ 48 ≤ base then base - 2 ^ 48 else if base + 2 ^ 47 < own then base + 2 ^ 48 else base

/-- PTP time in ns since the fleet epoch. -/
def State.ptpCount (s : State) (sec ns : Nat) (corr : Int) : Int :=
  ((s.extendSec sec : Int) - s.cfg.epochSec) * 1000000000 + ns + corr

/-- The port takes PTP messages: up, of the role, the right domain and sender. -/
def State.hears (s : State) (port : Nat) (m : PtpMsg) : Bool :=
  (s.port port).st == .up && s.ptpSlave port && m.domain == s.cfg.ptpDomain && (s.ptp port).best.isSome && (s.ptp port).bestSource == m.sourceId

/-- A slave port's PTP offset is known: the port locks; the count is acquired from it, or as class-0 root disciplined by it; beyond the
limit PTP_FAR_EVT is set (R205, R211, R212, R216). `t1` is the Sync's time, `rx` its arrival. -/
def State.ptpOffset (s : State) (port : Nat) (t1 : Int) (rx : Nat) : State :=
  let q := s.ptp port
  match q.pathDelay with
  | none => s
  | some d =>
    let there : Int := t1 + d
    let locks := !q.locked
    let lockIt (s : State) (off : Int) : State := s.updPtp port (fun q => { q with
      locked := true, lockedAt := if locks then s.time.loc else q.lockedAt, unlockedAt := none, offset := off })
    if !s.fcHeld then
      let now : Int := there + ((s.now : Int) - rx)
      if now < 0 then s.setEvt .timStatus 0 24
      else ((lockIt (s.acquire now.toNat) 0).reselect true)
    else
      let off : Int := there - rx
      let s := lockIt s off
      let s := if s.ptpNear port then s else s.setEvt .timStatus 0 23
      let s := s.reselect
      if s.time.isRoot && s.time.rootClass == 0 then
        s.updTime (fun t =>
          let run := if off.natAbs ≤ 100 then t.run16 + 1 else 0
          { t with residual := off, rootOffset := off, run16 := run, st := if 16 ≤ run then 2 else t.st,
                   everLocked := t.everLocked || decide (16 ≤ run), holdSince := if 16 ≤ run then none else t.holdSince })
      else s

/-- Sync (R219): one-step at once, two-step with its Follow_Up. -/
def execSync (port : Nat) (m : PtpMsg) (s : State) : Host.Outcome State Fault Refusal :=
  onEdgePort port s (fun s =>
    if !s.hears port m then s
    else
      let t1 := s.ptpCount m.seconds m.nanos m.corrNs
      let s := s.updPtp port (fun q => { q with lastSync := some (m.seqId, m.rx, b2n m.twoStep, if m.twoStep then m.corrNs else t1) })
      if m.twoStep then s else s.ptpOffset port t1 m.rx)

/-- Follow_Up completes the two-step Sync of its sequence number. -/
def execFollowUp (port : Nat) (m : PtpMsg) (s : State) : Host.Outcome State Fault Refusal :=
  onEdgePort port s (fun s =>
    match (s.ptp port).lastSync with
    | none => s
    | some (seq, rx, two, corr) =>
      if !s.hears port m ∨ two ≠ 1 ∨ seq ≠ m.seqId then s
      else
        let t1 := s.ptpCount m.seconds m.nanos (m.corrNs + corr)
        (s.updPtp port (fun q => { q with lastSync := some (seq, rx, 0, t1) })).ptpOffset port t1 rx)

/-- Delay_Resp: path delay ((t2 − t1) + (t4 − t3)) / 2 of the end-to-end mechanism. -/
def execDelayResp (port : Nat) (m : PtpMsg) (s : State) : Host.Outcome State Fault Refusal :=
  onEdgePort port s (fun s =>
    let q := s.ptp port
    match q.lastSync, q.delayTx with
    | some (_, rx, 0, t1), some t3 =>
      if !s.hears port m ∨ m.seqId ≠ q.delaySeq then s
      else
        let t4 := s.ptpCount m.seconds m.nanos (-m.corrNs)
        let d : Int := (((rx : Int) - t1) + (t4 - t3)) / 2
        (s.updPtp port (fun q => { q with pathDelay := some d })).ptpOffset port t1 rx
    | _, _ => s)

/-- A master port sends only in LOCKED or HOLDOVER (R219). -/
def State.ptpMaySend (s : State) (port : Nat) : Bool :=
  (s.port port).st == .up && s.isPtpMaster port && decide (2 ≤ s.time.st)

/-- Delay_Req at a master port: answered with its arrival in calendar time. -/
def execDelayReq (port : Nat) (m : PtpMsg) (s : State) : Host.Outcome State Fault Refusal :=
  onEdgePort port s (fun s =>
    if !s.ptpMaySend port ∨ m.domain ≠ s.cfg.ptpDomain then s
    else
      let t := calOf s.cfg.epochSec m.rx
      s.emit (.ptp port 9 m.seqId t.1 t.2))

/-- The default best master clock comparison of two datasets: the first is better (IEEE 1588-2019, log 39). -/
def betterMaster (a b : AnnounceData) : Bool :=
  let k (d : AnnounceData) : List Nat := [d.priority1, d.clockClass, d.accuracy, d.variance, d.priority2, d.grandmaster, d.stepsRemoved]
  ((k a).zip (k b)).findSome? (fun e => if e.1 = e.2 then none else some (decide (e.1 < e.2))) |>.getD false

/-- Announce at a slave port: the better master is followed; another master means a new lock (R219). -/
def execAnnounce (port : Nat) (m : PtpMsg) (a : AnnounceData) (s : State) : Host.Outcome State Fault Refusal :=
  onEdgePort port s (fun s =>
    if (s.port port).st ≠ .up ∨ !s.ptpSlave port ∨ m.domain ≠ s.cfg.ptpDomain then s
    else
      let q := s.ptp port
      let same := q.bestSource == m.sourceId
      let take := match q.best with | none => true | some b => same || betterMaster a b
      if !take then s
      else
        let new_ := q.best.isNone || !same
        let s := s.updPtp port (fun q => { q with
          best := some a, bestSource := m.sourceId,
          lastSync := if new_ then none else q.lastSync, locked := q.locked && !new_,
          unlockedAt := if q.locked && new_ then some s.time.loc else q.unlockedAt })
        if s.time.isRoot then s.updTime (fun t => { t with utcOffset := ofInt 16 a.utcOffset, run16 := if new_ then 0 else t.run16 }) else s)

/-- No Announce within the receipt timeout: the lock is lost and a root runs in HOLDOVER (R214). -/
def execAnnounceReceiptTimeout (port : Nat) (s : State) : Host.Outcome State Fault Refusal :=
  onEdgePort port s (fun s =>
    let s := s.updPtp port (fun q => { q with
      best := none, lastSync := none, locked := false, unlockedAt := if q.locked then some s.time.loc else q.unlockedAt })
    let s := s.updTime (fun t => { t with run16 := if t.isRoot then 0 else t.run16 })
    if s.time.isRoot && s.fcHeld && s.lockedPort.isNone then s.holdover else s)

/-- A master port's one-step Sync, in calendar time. -/
def execPtpSyncSend (port : Nat) (s : State) : Host.Outcome State Fault Refusal :=
  onEdgePort port s (fun s =>
    if !s.ptpMaySend port then s
    else
      let t := calOf s.cfg.epochSec s.time.fc
      let q := (s.ptp port).seqOut
      (s.updPtp port (fun p => { p with seqOut := (q + 1) % 2 ^ 16 })).emit (.ptp port 0 q t.1 t.2))

/-- A master port's Announce: the grandmaster dataset of the root path, which a module without a slave port is not told (a free
value, log 10); clockAccuracy 0xFE in HOLDOVER (Table 8.3). -/
def execPtpAnnounceSend (port : Nat) (s : State) : Host.Outcome State Fault Refusal :=
  onEdgePort port s (fun s =>
    if !s.ptpMaySend port then s
    else
      let q := (s.ptp port).announceSeq
      let own := [32, 33, 34, 35].findSome? (fun p => if s.ptpSlave p then (s.ptp p).best else none)
      let f := s.fresh
      let a : AnnounceData := own.getD {
        priority1 := f.1 % 2 ^ 8, clockClass := f.1 / 2 ^ 8 % 2 ^ 8, accuracy := f.1 / 2 ^ 16 % 2 ^ 8, variance := f.1 / 2 ^ 24 % 2 ^ 16,
        priority2 := f.1 / 2 ^ 40 % 2 ^ 8, grandmaster := f.1 / 2 ^ 48 % 2 ^ 64, stepsRemoved := s.time.dist, utcOffset := 0 }
      let a := { a with accuracy := if s.time.st = 3 then 0xFE else a.accuracy, utcOffset := toInt 16 s.time.utcOffset }
      let s := if own.isSome then s else f.2
      (s.updPtp port (fun p => { p with announceSeq := (q + 1) % 2 ^ 16 })).emit (.announce port q a))

/-- A slave port's one-step Delay_Req, its sending time kept. -/
def execPtpDelayReqSend (port : Nat) (s : State) : Host.Outcome State Fault Refusal :=
  onEdgePort port s (fun s =>
    if (s.port port).st ≠ .up ∨ !s.ptpSlave port ∨ (s.ptp port).best.isNone then s
    else
      let q := ((s.ptp port).delaySeq + 1) % 2 ^ 16
      let t := calOf s.cfg.epochSec s.now
      (s.updPtp port (fun p => { p with delaySeq := q, delayTx := some s.now })).emit (.ptp port 1 q t.1 t.2))

end Sys2Proof.Machine
end

