-- ==== Sys2Proof/Machine/Vector.lean ====
section
/-!
DEFINITION. The vector unit's core command VEC (02 R53 to R55, 03 R78 to R80): lane operations, reductions in the 96-bit window,
softmax and the normalisations.
-/
namespace Sys2Proof

/-- A lane operation on FP32 operands (Table 2.10). -/
def laneOp (k : OpKind) (a b c : Nat) : Lane :=
  match k with
  | .add => fAdd a b | .sub => fSub a b | .mul => fMul a b | .fma => fFma a b c | .div => fDiv a b
  | .rcp => fRcp a | .sqrt => fSqrt a | .rsqrt => fRsqrt a
  | .exp => fExp a | .exp2 => fExp2 a | .log => fLog a | .log2 => fLog2 a
  | .tanh => fTanh a | .erf => fErf a | .sigmoid => fSigmoid a
  | .max => fMax a b | .min => fMin a b
  | .silu => fSilu a | .gelu => fGelu a
  | _ => (a, false)

/-- The operator works element by element on its inputs with a lane operation. -/
def OpKind.isLane : OpKind → Bool
  | .add | .sub | .mul | .fma | .div | .rcp | .sqrt | .rsqrt | .exp | .exp2 | .log | .log2 | .tanh | .erf | .sigmoid
  | .max | .min | .silu | .gelu => true
  | _ => false

/-- The window of a vector reduction's terms (R79). -/
def rowWindow (k : OpKind) (anchor : Int) (xs ys : List Val) : Window :=
  match k with
  | .redSumSq => xs.foldl (fun w x => w.addProd x x) (Window.clear anchor)
  | .redDot => (xs.zip ys).foldl (fun w p => w.addProd p.1 p.2) (Window.clear anchor)
  | _ => xs.foldl (fun w x => w.addVal x) (Window.clear anchor)

/-- An anchored sum of FP32 values inside a composite operator, converted to FP32 (R80). -/
def innerSum (k : OpKind) (xs : List Nat) : Lane :=
  let vs := xs.map f32
  let b := maxBounds (vs.map (fun v => match k with
    | .redSumSq => (v.expo).map (fun e => 2 * e + 1)
    | _ => v.expo))
  convOut 0 .rne true (rowWindow k (anchorOf b) vs []).val

/-- The FP32 value of a count. -/
def fp32Nat (n : Nat) : Nat := toFp32 (if n = 0 then .zero false else .fin false n 0)

/-- The largest element of a row. -/
def rowMax (xs : List Nat) : Nat := xs.tail.foldl (fun m x => (fMax m x).1) (xs.headD 0xFF800000)

/-- softmax of R80. -/
def softmaxRow (xs : List Nat) : List Lane :=
  let m := rowMax xs
  let es := xs.map (fun x => let d := fSub x m
                             let e := fExp d.1
                             (e.1, d.2 || e.2))
  let sum := innerSum .redSum (es.map (·.1))
  es.map (fun e => let y := fDiv e.1 sum.1
                   (y.1, e.2 || sum.2 || y.2))

/-- rmsnorm of R80. -/
def rmsnormRow (eps : Nat) (xs ws : List Nat) : List Lane :=
  let ss := innerSum .redSumSq xs
  let q := fDiv ss.1 (fp32Nat xs.length)
  let a := fAdd q.1 eps
  let r := fRsqrt a.1
  let o := ss.2 || q.2 || a.2 || r.2
  xs.zipIdx.map (fun e => let p := fMul e.1 r.1
                          let y := fMul p.1 (ws.getD (e.2 % max 1 ws.length) 0)
                          (y.1, o || p.2 || y.2))

/-- layernorm of R80. -/
def layernormRow (eps : Nat) (xs ws bs : List Nat) : List Lane :=
  let n := fp32Nat xs.length
  let t := innerSum .redSum xs
  let mu := fDiv t.1 n
  let ds := xs.map (fun x => fSub x mu.1)
  let ss := innerSum .redSumSq (ds.map (·.1))
  let v := fDiv ss.1 n
  let a := fAdd v.1 eps
  let r := fRsqrt a.1
  let o := t.2 || mu.2 || ss.2 || v.2 || a.2 || r.2
  ds.zipIdx.map (fun e => let p := fMul e.1.1 r.1
                          let y := fFma p.1 (ws.getD (e.2 % max 1 ws.length) 0) (bs.getD (e.2 % max 1 bs.length) 0)
                          (y.1, o || e.1.2 || p.2 || y.2))

/-- A lane result as the exact value its conversion starts from. -/
def laneVal (l : Lane) : Val × Bool := (f32 l.1, l.2)

/-- dropout of R53 for one element. -/
def dropoutVal (threshold keep : Nat) (draw : Word64) (x : Nat) : Val × Bool :=
  if draw.toNat / 2 ^ 32 < threshold then (.zero false, false) else laneVal (fMul x keep)

end Sys2Proof

namespace Sys2Proof.Machine

/-- The elements a core computes of an operator that is not an MMA, from its first (R446). -/
def runLength (elems clusters first : Nat) : Nat :=
  let r := ceilDiv elems (256 * clusters)
  min r (elems - first)

/-- The values a VEC gives its output elements, and OVF, for an operator without a partial sum; none where it has no value of its
own. A random operator's element is a free value of its draw, and so is one of an opcode the manual does not name (logs 14, 15). -/
def vecValues (k : Ctx) (o : OpDesc) (first : Nat) (ins : List (List InElem)) : Option (List (Val × Bool)) :=
  let vals (i : Nat) : List Val := (ins.getD i []).map (fun e => e.elem.val (k.inFormat o i))
  let f (i : Nat) : List Nat := (vals i).map toFp32
  let at_ (l : List Nat) (i : Nat) : Nat := l.getD (if l.length = 1 then 0 else i) 0
  let t := k.tensor o.output
  let free (u : Nat) (i : Nat) : Val × Bool :=
    let d := (rng k.seed k.step o.output u (first + i)).toNat
    (decodeElem (elemFmt o.outFormat) (Config.randomElement u d % 2 ^ elemBits o.outFormat), false)
  let a := f 0
  let b := f 1
  let c := f 2
  if o.kind.isLane then
    some ((List.range (maxL (ins.map List.length))).map (fun i => laneVal (laneOp o.kind (at_ a i) (at_ b i) (at_ c i))))
  else match o.kind with
    | .cvt => some ((vals 0).map (fun v => (v, false)))
    | .dropout th keep => some (a.zipIdx.map (fun e => dropoutVal th keep (rng k.seed k.step o.output 2 (first + e.2)) e.1))
    | .random u => some ((List.range (runLength (t.elim 0 Tensor.elems) o.count first)).map (free u))
    | .other code => some ((List.range (runLength (t.elim 0 Tensor.elems) o.count first)).map (free (code % 256)))
    | .softmax => some ((softmaxRow a).map laneVal)
    | .rmsnorm eps => some ((rmsnormRow eps a b).map laneVal)
    | .layernorm eps => some ((layernormRow eps a b c).map laneVal)
    | .redMax => some [(f32 (rowMax a), false)]
    | .redMin => some [(f32 (a.tail.foldl (fun m x => (fMin m x).1) (a.headD 0x7F800000)), false)]
    | _ => none

/-- Output elements converted by OUT_FORMAT, MX in blocks of 32 in storage order, and put in near store, an MX block's scale byte
after its elements (R49, R50, R71, log 42). -/
def State.vecStore (s : State) (c : CoreCmd) (k : Ctx) (o : OpDesc) (first nearOff : Nat) (vs : List (Val × Bool)) : State :=
  let code := o.outFormat
  let mode (i : Nat) : RMode := rmodeOf o.round k.seed k.step o.output (first + i)
  let r : List Byte × Bool :=
    if isMx code then
      let bs := (List.range (ceilDiv vs.length 32)).map (fun n =>
        quantMx (elemFmt code) (fun i => mode (32 * n + i)) o.infMode ((slice vs (32 * n) 32).map (·.1)))
      ((bs.map (fun b => packElems (elemFmt code) b.2.1 ++ [BitVec.ofNat 8 b.1])).flatten, bs.any (·.2.2))
    else
      let es := vs.zipIdx.map (fun e => convOut code (mode e.2) o.infMode e.1.1)
      (packElems code (es.map (·.1)), es.any (·.2))
  let s := (s.addStatus c.ctx c.opId { ovf := r.2 || vs.any (·.2) }).bump .vecResults (coreCluster c.core) vs.length
  if nearSize < nearOff + r.1.length then s.addrErr c.ctx c.opId o.layer (nearAddr c.core nearOff)
  else s.writeNear (nearAddr c.core nearOff) r.1

/-- VEC: the operator's elements on this core. A sum, sum of squares or dot takes its row's anchor; a part of a row stays a raw window
for SEND, a whole row is converted (R79, R80). -/
def execVec (c : CoreCmd) (first : Nat) (ins : List (List InElem)) (nearOff : Nat) (s : State) : Host.Outcome State Fault Refusal :=
  s.onCore c (fun k o s =>
    match vecValues k o first ins with
    | some vs => s.vecStore c k o first nearOff vs
    | none =>
      match o.kind with
      | .mma => s
      | .xpose _ => s
      | .move => s
      | kind =>
        let fa := k.inFormat o 0
        let fb := k.inFormat o 1
        let xs := ins.getD 0 []
        let ys := ins.getD 1 []
        let bound := maxBounds (xs.zipIdx.map (fun e =>
          termBound kind o.anchorSrc fa fb e.1.elem (((ys[e.2]?).map (·.elem)).getD { bits := 0, scale := 0xFF })))
        let whole := ((k.tensor (o.inputs.getD 0 0)).map Tensor.lastExt) == some xs.length
        match (k.anchorFor o first).orElse (fun _ => if whole then some (anchorOf bound) else none) with
        | none => s
        | some a =>
          let s := if boundExceeds bound a then s.anchorFault c o.layer (bound.getD 0) a else s
          let w := rowWindow kind a (xs.map (fun e => e.elem.val fa)) (ys.map (fun e => e.elem.val fb))
          let s := s.addStatus c.ctx c.opId { inexact := w.flags.inexact }
          if whole then s.vecStore c k o first nearOff [(w.val, false)]
          else s.updExec c.ctx (fun e => { e with raw := KMap.put e.raw c.core [(0, 0, w)] }))

end Sys2Proof.Machine
end

