-- ==== Sys2Proof/Machine/Dispatch.lean ====
section
/-!
DEFINITION. The meaning of every command: one arm per constructor of `Instr`.
-/
namespace Sys2Proof.Machine

def exec (i : Instr) (s : State) : Host.Outcome State Fault Refusal :=
  match i with
  | .stepLaunch a => Sys2Proof.Machine.execStepLaunch a s
  | .stepConfirmSend a => Sys2Proof.Machine.execStepConfirmSend a s
  | .stepConfirm a => Sys2Proof.Machine.execStepConfirm a s
  | .commit a b c d => Sys2Proof.Machine.execCommit a b c d s
  | .commitDeadline a => Sys2Proof.Machine.execCommitDeadline a s
  | .faultReport a b => Sys2Proof.Machine.execFaultReport a b s
  | .reexecCollect a => Sys2Proof.Machine.execReexecCollect a s
  | .reexec a b c => Sys2Proof.Machine.execReexec a b c s
  | .moduleLost a b c d => Sys2Proof.Machine.execModuleLost a b c d s
  | .anch a b => Sys2Proof.Machine.execAnch a b s
  | .mma a b => Sys2Proof.Machine.execMma a b s
  | .vec a b c d => Sys2Proof.Machine.execVec a b c d s
  | .move a b c d e => Sys2Proof.Machine.execMove a b c d e s
  | .send a b => Sys2Proof.Machine.execSend a b s
  | .wait a b => Sys2Proof.Machine.execWait a b s
  | .dma a b c d e f => Sys2Proof.Machine.execDma a b c d e f s
  | .operatorStart a b c => Sys2Proof.Machine.execOperatorStart a b c s
  | .operatorComplete a b c d => Sys2Proof.Machine.execOperatorComplete a b c d s
  | .batchWaitExpiry a => Sys2Proof.Machine.execBatchWaitExpiry a s
  | .sliceStreamDone a b => Sys2Proof.Machine.execSliceStreamDone a b s
  | .xposeJobComplete a b c d => Sys2Proof.Machine.execXposeJobComplete a b c d s
  | .scrubSlot a b c d => Sys2Proof.Machine.execScrubSlot a b c d s
  | .calGapStart a => Sys2Proof.Machine.execCalGapStart a s
  | .calGapEnd a => Sys2Proof.Machine.execCalGapEnd a s
  | .identify a => Sys2Proof.Machine.execIdentify a s
  | .attach a => Sys2Proof.Machine.execAttach a s
  | .ctxLoad a => Sys2Proof.Machine.execCtxLoad a s
  | .ctxArm a => Sys2Proof.Machine.execCtxArm a s
  | .ctxHold a => Sys2Proof.Machine.execCtxHold a s
  | .ctxResume a => Sys2Proof.Machine.execCtxResume a s
  | .ctxTeardown a => Sys2Proof.Machine.execCtxTeardown a s
  | .tensorWrite a => Sys2Proof.Machine.execTensorWrite a s
  | .tensorRead a b => Sys2Proof.Machine.execTensorRead a b s
  | .dumpRequest a b => Sys2Proof.Machine.execDumpRequest a b s
  | .fingerprintGet a => Sys2Proof.Machine.execFingerprintGet a s
  | .policySet a => Sys2Proof.Machine.execPolicySet a s
  | .nop a => Sys2Proof.Machine.execNop a s
  | .commandAccept a b c => Sys2Proof.Machine.execCommandAccept a b c s
  | .sqDoorbell a b => Sys2Proof.Machine.execSqDoorbell a b s
  | .ringEnWrite a b => Sys2Proof.Machine.execRingEnWrite a b s
  | .mbxEnableWrite a => Sys2Proof.Machine.execMbxEnableWrite a s
  | .cqHeadWrite a b => Sys2Proof.Machine.execCqHeadWrite a b s
  | .mbxHeartbeat a => Sys2Proof.Machine.execMbxHeartbeat a s
  | .registerWrite a b => Sys2Proof.Machine.execRegisterWrite a b s
  | .pcieHotReset => Sys2Proof.Machine.execPcieHotReset s
  | .pcieLinkDown => Sys2Proof.Machine.execPcieLinkDown s
  | .pcieFlr => Sys2Proof.Machine.execPcieFlr s
  | .pf1Flr => Sys2Proof.Machine.execPf1Flr s
  | .busMasterDisable => Sys2Proof.Machine.execBusMasterDisable s
  | .hostHbTimeout => Sys2Proof.Machine.execHostHbTimeout s
  | .pcieLinkDownTimeout => Sys2Proof.Machine.execPcieLinkDownTimeout s
  | .armed a b => Sys2Proof.Machine.execArmed a b s
  | .start a b c d => Sys2Proof.Machine.execStart a b c d s
  | .pmap a b c d => Sys2Proof.Machine.execPmap a b c d s
  | .resume a b c => Sys2Proof.Machine.execResume a b c s
  | .hostLoss a b => Sys2Proof.Machine.execHostLoss a b s
  | .drain a b c => Sys2Proof.Machine.execDrain a b c s
  | .drainStart a => Sys2Proof.Machine.execDrainStart a s
  | .drainEnd a => Sys2Proof.Machine.execDrainEnd a s
  | .drained a => Sys2Proof.Machine.execDrained a s
  | .routeBreak a b c d e => Sys2Proof.Machine.execRouteBreak a b c d e s
  | .routeBreakEffective a => Sys2Proof.Machine.execRouteBreakEffective a s
  | .ack a b => Sys2Proof.Machine.execAck a b s
  | .notReady a b c => Sys2Proof.Machine.execNotReady a b c s
  | .cnEcho a b => Sys2Proof.Machine.execCnEcho a b s
  | .ctrlRetransmit a b c => Sys2Proof.Machine.execCtrlRetransmit a b c s
  | .limiterIncrease a b => Sys2Proof.Machine.execLimiterIncrease a b s
  | .packetForward a b c d => Sys2Proof.Machine.execPacketForward a b c d s
  | .crossingReserve a b c => Sys2Proof.Machine.execCrossingReserve a b c s
  | .crossingReserveEnd a b c => Sys2Proof.Machine.execCrossingReserveEnd a b c s
  | .dataPacket a b c => Sys2Proof.Machine.execDataPacket a b c s
  | .redUp a b => Sys2Proof.Machine.execRedUp a b s
  | .redDown a b => Sys2Proof.Machine.execRedDown a b s
  | .telUp a b => Sys2Proof.Machine.execTelUp a b s
  | .telDown a b => Sys2Proof.Machine.execTelDown a b s
  | .credit a b => Sys2Proof.Machine.execCredit a b s
  | .ident a b => Sys2Proof.Machine.execIdent a b s
  | .lsmFastRetrain a b => Sys2Proof.Machine.execLsmFastRetrain a b s
  | .lsmFullRetrain a b => Sys2Proof.Machine.execLsmFullRetrain a b s
  | .lsmWidth4 a b => Sys2Proof.Machine.execLsmWidth4 a b s
  | .lsmSpare a b => Sys2Proof.Machine.execLsmSpare a b s
  | .lsmGrant a b => Sys2Proof.Machine.execLsmGrant a b s
  | .lsmDone a b => Sys2Proof.Machine.execLsmDone a b s
  | .codewordFlagged a b c d => Sys2Proof.Machine.execCodewordFlagged a b c d s
  | .nakRetry a => Sys2Proof.Machine.execNakRetry a s
  | .lossOfSignal a b => Sys2Proof.Machine.execLossOfSignal a b s
  | .laneCeLimit a b => Sys2Proof.Machine.execLaneCeLimit a b s
  | .laneUeLimit a b => Sys2Proof.Machine.execLaneUeLimit a b s
  | .portLcfTimeout a => Sys2Proof.Machine.execPortLcfTimeout a s
  | .fastRetrainTimeout a => Sys2Proof.Machine.execFastRetrainTimeout a s
  | .portStart a => Sys2Proof.Machine.execPortStart a s
  | .partnerReady a b => Sys2Proof.Machine.execPartnerReady a b s
  | .equaliseDone a => Sys2Proof.Machine.execEqualiseDone a s
  | .alignDone a b => Sys2Proof.Machine.execAlignDone a b s
  | .attemptTimeout a => Sys2Proof.Machine.execAttemptTimeout a s
  | .backoffExpiry a => Sys2Proof.Machine.execBackoffExpiry a s
  | .heldExpiry a => Sys2Proof.Machine.execHeldExpiry a s
  | .heldSignalLoss a => Sys2Proof.Machine.execHeldSignalLoss a s
  | .edgeLinkUp a b => Sys2Proof.Machine.execEdgeLinkUp a b s
  | .edgeLinkDown a => Sys2Proof.Machine.execEdgeLinkDown a s
  | .edgeFrameReceive a b => Sys2Proof.Machine.execEdgeFrameReceive a b s
  | .timeLcfSend a => Sys2Proof.Machine.execTimeLcfSend a s
  | .timeLcf a b c => Sys2Proof.Machine.execTimeLcf a b c s
  | .offerExpiry a => Sys2Proof.Machine.execOfferExpiry a s
  | .rootSeqAdvance a => Sys2Proof.Machine.execRootSeqAdvance a s
  | .rootClaimTimer => Sys2Proof.Machine.execRootClaimTimer s
  | .ptpUnlockTimeout => Sys2Proof.Machine.execPtpUnlockTimeout s
  | .sync a b => Sys2Proof.Machine.execSync a b s
  | .followUp a b => Sys2Proof.Machine.execFollowUp a b s
  | .delayResp a b => Sys2Proof.Machine.execDelayResp a b s
  | .delayReq a b => Sys2Proof.Machine.execDelayReq a b s
  | .announce a b c => Sys2Proof.Machine.execAnnounce a b c s
  | .ptpSyncSend a => Sys2Proof.Machine.execPtpSyncSend a s
  | .ptpAnnounceSend a => Sys2Proof.Machine.execPtpAnnounceSend a s
  | .ptpDelayReqSend a => Sys2Proof.Machine.execPtpDelayReqSend a s
  | .alignStart => Sys2Proof.Machine.execAlignStart s
  | .alignQuiesce => Sys2Proof.Machine.execAlignQuiesce s
  | .alignApply => Sys2Proof.Machine.execAlignApply s
  | .alignComplete a => Sys2Proof.Machine.execAlignComplete a s
  | .packetRelease => Sys2Proof.Machine.execPacketRelease s
  | .hangWindowExpiry a => Sys2Proof.Machine.execHangWindowExpiry a s
  | .partitionRefillDone a => Sys2Proof.Machine.execPartitionRefillDone a s
  | .dieLinkFail a => Sys2Proof.Machine.execDieLinkFail a s
  | .calHalfFault a b => Sys2Proof.Machine.execCalHalfFault a b s
  | .selfTest a b => Sys2Proof.Machine.execSelfTest a b s
  | .calOwnAcquire a => Sys2Proof.Machine.execCalOwnAcquire a s
  | .calOwnTimeout => Sys2Proof.Machine.execCalOwnTimeout s
  | .coordBeatSend a => Sys2Proof.Machine.execCoordBeatSend a s
  | .coordBeat a b c => Sys2Proof.Machine.execCoordBeat a b c s
  | .leaseEnd a => Sys2Proof.Machine.execLeaseEnd a s
  | .leaseExpiry a => Sys2Proof.Machine.execLeaseExpiry a s
  | .interlockInFall => Sys2Proof.Machine.execInterlockInFall s
  | .interlockStuck a => Sys2Proof.Machine.execInterlockStuck a s
  | .takeover a b c => Sys2Proof.Machine.execTakeover a b c s
  | .takeoverState a b c d e f g h => Sys2Proof.Machine.execTakeoverState a b c d e f g h s
  | .takeoverStateTimeout a b => Sys2Proof.Machine.execTakeoverStateTimeout a b s
  | .probe a b => Sys2Proof.Machine.execProbe a b s
  | .probeReply a b c d => Sys2Proof.Machine.execProbeReply a b c d s
  | .probeTimeout a b => Sys2Proof.Machine.execProbeTimeout a b s
  | .stepHold a b c => Sys2Proof.Machine.execStepHold a b c s
  | .selfLost a b => Sys2Proof.Machine.execSelfLost a b s
  | .recoveryNotice a b c => Sys2Proof.Machine.execRecoveryNotice a b c s
  | .geyBind a b => Sys2Proof.Machine.execGeyBind a b s
  | .geyBindReply a b c => Sys2Proof.Machine.execGeyBindReply a b c s
  | .geyBindRetry a => Sys2Proof.Machine.execGeyBindRetry a s
  | .geyBindTimeout a => Sys2Proof.Machine.execGeyBindTimeout a s
  | .geySpareReady a b => Sys2Proof.Machine.execGeySpareReady a b s
  | .geyTake a b c d => Sys2Proof.Machine.execGeyTake a b c d s
  | .takeCopyComplete a => Sys2Proof.Machine.execTakeCopyComplete a s
  | .geyTakeDone a b => Sys2Proof.Machine.execGeyTakeDone a b s
  | .geyReseed a b => Sys2Proof.Machine.execGeyReseed a b s
  | .geyFetch a b c => Sys2Proof.Machine.execGeyFetch a b c s
  | .geyCkpt a b => Sys2Proof.Machine.execGeyCkpt a b s
  | .geyCkptDone a b => Sys2Proof.Machine.execGeyCkptDone a b s
  | .ckptTimeout a => Sys2Proof.Machine.execCkptTimeout a s
  | .geyRestore a b c => Sys2Proof.Machine.execGeyRestore a b c s
  | .restoreComplete a => Sys2Proof.Machine.execRestoreComplete a s
  | .geyRestored a b c => Sys2Proof.Machine.execGeyRestored a b c s
  | .openReply a => Sys2Proof.Machine.execOpenReply a s
  | .shardData a => Sys2Proof.Machine.execShardData a s
  | .dack a => Sys2Proof.Machine.execDack a s
  | .closeReply a => Sys2Proof.Machine.execCloseReply a s
  | .fetchReply a => Sys2Proof.Machine.execFetchReply a s
  | .shardRto a => Sys2Proof.Machine.execShardRto a s
  | .dackTimer a => Sys2Proof.Machine.execDackTimer a s
  | .gwDownExpiry a => Sys2Proof.Machine.execGwDownExpiry a s
  | .sampleLatch a b => Sys2Proof.Machine.execSampleLatch a b s
  | .sampleMissed a b => Sys2Proof.Machine.execSampleMissed a b s
  | .telSendBy a b c d => Sys2Proof.Machine.execTelSendBy a b c d s
  | .telFinalize a b c d => Sys2Proof.Machine.execTelFinalize a b c d s
  | .telSlotRelease a b c => Sys2Proof.Machine.execTelSlotRelease a b c s
  | .subscribe a b c d e f => Sys2Proof.Machine.execSubscribe a b c d e f s
  | .unsubscribe a b c => Sys2Proof.Machine.execUnsubscribe a b c s
  | .subscriptionLeaseEnd a b c => Sys2Proof.Machine.execSubscriptionLeaseEnd a b c s
  | .recordAged a b c d => Sys2Proof.Machine.execRecordAged a b c d s
  | .evrRecordClose a => Sys2Proof.Machine.execEvrRecordClose a s
  | .evrInfo a => Sys2Proof.Machine.execEvrInfo a s
  | .evrFreeze a => Sys2Proof.Machine.execEvrFreeze a s
  | .evrRead a b c d => Sys2Proof.Machine.execEvrRead a b c d s
  | .evrRelease a => Sys2Proof.Machine.execEvrRelease a s
  | .evrClear a b c => Sys2Proof.Machine.execEvrClear a b c s
  | .evrFreezeTimeout => Sys2Proof.Machine.execEvrFreezeTimeout s
  | .ledgerUpdate a b c => Sys2Proof.Machine.execLedgerUpdate a b c s
  | .pwrGrant a b c d => Sys2Proof.Machine.execPwrGrant a b c d s
  | .pwrCeiling a b => Sys2Proof.Machine.execPwrCeiling a b s
  | .pwrDemand a b => Sys2Proof.Machine.execPwrDemand a b s
  | .vcoreUndervoltage a => Sys2Proof.Machine.execVcoreUndervoltage a s
  | .frequencyMargin a b => Sys2Proof.Machine.execFrequencyMargin a b s
  | .tjThrottle a b => Sys2Proof.Machine.execTjThrottle a b s
  | .tjTrip a b => Sys2Proof.Machine.execTjTrip a b s
  | .railOvervoltage a b => Sys2Proof.Machine.execRailOvervoltage a b s
  | .inputPowerLimit a => Sys2Proof.Machine.execInputPowerLimit a s
  | .comparatorRelease a b => Sys2Proof.Machine.execComparatorRelease a b s
  | .phaseRetire a b c => Sys2Proof.Machine.execPhaseRetire a b c s
  | .railPowerGood a => Sys2Proof.Machine.execRailPowerGood a s
  | .powerOn => Sys2Proof.Machine.execPowerOn s
  | .slotSelect => Sys2Proof.Machine.execSlotSelect s
  | .triesClear => Sys2Proof.Machine.execTriesClear s
  | .opticsRelease => Sys2Proof.Machine.execOpticsRelease s
  | .runEntry a => Sys2Proof.Machine.execRunEntry a s
  | .locusAssign a b => Sys2Proof.Machine.execLocusAssign a b s
  | .mbIdentify a => Sys2Proof.Machine.execMbIdentify a s
  | .idAccept a b c => Sys2Proof.Machine.execIdAccept a b c s
  | .idStatus a => Sys2Proof.Machine.execIdStatus a s
  | .imgBegin a b => Sys2Proof.Machine.execImgBegin a b s
  | .imgWrite a b c => Sys2Proof.Machine.execImgWrite a b c s
  | .imgCommit a => Sys2Proof.Machine.execImgCommit a s
  | .imgAbort a => Sys2Proof.Machine.execImgAbort a s
  | .imgStatus a => Sys2Proof.Machine.execImgStatus a s
  | .imgWriterIdle => Sys2Proof.Machine.execImgWriterIdle s
  | .secverAdvance a b => Sys2Proof.Machine.execSecverAdvance a b s
  | .ownerProvision a b c => Sys2Proof.Machine.execOwnerProvision a b c s
  | .moduleReset a => Sys2Proof.Machine.execModuleReset a s
  | .ctxResumeReq a b => Sys2Proof.Machine.execCtxResumeReq a b s
  | .geyRestoreReq a b c d => Sys2Proof.Machine.execGeyRestoreReq a b c d s
  | .getTid a => Sys2Proof.Machine.execGetTid a s
  | .getPldmVersion a b => Sys2Proof.Machine.execGetPldmVersion a b s
  | .getPldmTypes a => Sys2Proof.Machine.execGetPldmTypes a s
  | .getPldmCommands a b => Sys2Proof.Machine.execGetPldmCommands a b s
  | .getPdr a b => Sys2Proof.Machine.execGetPdr a b s
  | .getSensorReading a b => Sys2Proof.Machine.execGetSensorReading a b s
  | .getStateSensorReadings a b => Sys2Proof.Machine.execGetStateSensorReadings a b s
  | .pldmFullRetrain a b => Sys2Proof.Machine.execPldmFullRetrain a b s
  | .releaseHold a b => Sys2Proof.Machine.execReleaseHold a b s
  | .alignRetry a => Sys2Proof.Machine.execAlignRetry a s
  | .regRead a b c d e => Sys2Proof.Machine.execRegRead a b c d e s
  | .regW1c a b c d e => Sys2Proof.Machine.execRegW1c a b c d e s
  | .setEndpointId a b => Sys2Proof.Machine.execSetEndpointId a b s
  | .getEndpointId a => Sys2Proof.Machine.execGetEndpointId a s
  | .getMctpVersionSupport a b => Sys2Proof.Machine.execGetMctpVersionSupport a b s
  | .getMessageTypeSupport a => Sys2Proof.Machine.execGetMessageTypeSupport a s
  | .getVendorDefinedMessageSupport a b => Sys2Proof.Machine.execGetVendorDefinedMessageSupport a b s
  | .getVersion a => Sys2Proof.Machine.execGetVersion a s
  | .getCapabilities a b => Sys2Proof.Machine.execGetCapabilities a b s
  | .negotiateAlgorithms a b => Sys2Proof.Machine.execNegotiateAlgorithms a b s
  | .getDigests a => Sys2Proof.Machine.execGetDigests a s
  | .getCertificate a b c d => Sys2Proof.Machine.execGetCertificate a b c d s
  | .challenge a b c => Sys2Proof.Machine.execChallenge a b c s
  | .getMeasurements a b c => Sys2Proof.Machine.execGetMeasurements a b c s
  | .keyExchange a b c => Sys2Proof.Machine.execKeyExchange a b c s
  | .pgoodFall => Sys2Proof.Machine.execPgoodFall s
  | .resetNFall => Sys2Proof.Machine.execResetNFall s
  | .pciePerstN a => Sys2Proof.Machine.execPciePerstN a s
  | .testEnHigh => Sys2Proof.Machine.execTestEnHigh s
  | .inputUndervoltage => Sys2Proof.Machine.execInputUndervoltage s
  | .inputOvervoltage => Sys2Proof.Machine.execInputOvervoltage s
  | .inputCollapse => Sys2Proof.Machine.execInputCollapse s
  | .pcieLinkUp a b => Sys2Proof.Machine.execPcieLinkUp a b s
  | .dynamicAddressAssignment a => Sys2Proof.Machine.execDynamicAddressAssignment a s
  | .finish a b c => Sys2Proof.Machine.execFinish a b c s
  | .keyUpdate a b c => Sys2Proof.Machine.execKeyUpdate a b c s
  | .endSession a b => Sys2Proof.Machine.execEndSession a b s
  | .respondIfReady a b => Sys2Proof.Machine.execRespondIfReady a b s
  | .announceReceiptTimeout a => Sys2Proof.Machine.execAnnounceReceiptTimeout a s
  | .actionBoundExpiry a b => Sys2Proof.Machine.execActionBoundExpiry a b s
  | .busyRetryDelayExpiry a => Sys2Proof.Machine.execBusyRetryDelayExpiry a s

end Sys2Proof.Machine
end

