-- ==== Sys2Proof/Machine/Tick.lean ====
section
/-!
DEFINITION. One tick with no command waiting: local time and fleet count advance, the fleet count slewing while a
residual remains (08 R204, R216; log 5).
-/
namespace Sys2Proof.Machine

/-- The fleet count's advance in one tick, what is left of the residual, and the fraction carried: one, or with the slew
accumulator past 10^9 one more or one less (R204, R216). -/
def slewTick (ppb : Nat) (residual : Int) (frac : Nat) : Nat × Int × Nat :=
  if residual = 0 then (1, 0, 0)
  else
    let f := frac + ppb
    if f < 1000000000 then (1, residual, f)
    else if 0 < residual then (2, residual - 1, f - 1000000000)
    else (0, residual + 1, f - 1000000000)

/-- One tick passes. -/
def tick (s : State) : State :=
  s.updTime (fun t =>
    if t.st = 0 then { t with loc := t.loc + 1 }
    else
      let r := slewTick s.cfg.slewPpb t.residual t.slewFrac
      { t with loc := t.loc + 1, fc := (t.fc + r.1) % 2 ^ 64, residual := r.2.1, slewFrac := r.2.2,
               rootOffset := if t.isRoot && t.rootClass == 0 then r.2.1 else t.rootOffset })

end Sys2Proof.Machine
end

