-- ==== Sys2Proof/WellFormed.lean ====
section
/-!
DEFINITION. Well-formed commands: every operand fits the field the manual gives it and names a unit the module has (Table 1.5, Tables
5.11, 6.2, 6.3, 12.4, 13.1).
-/
namespace Sys2Proof

/-- Header fields (Table 6.2) with the arrival port. -/
def Hdr.wf (h : Hdr) : Bool :=
  decide (h.src < 2 ^ 17) && decide (h.srcEp < 32) && decide (h.dstEp < 32) && decide (h.seq < 2 ^ 32) && decide (h.incarn < 2 ^ 8) &&
  decide (h.injTick < 2 ^ 32) && decide (h.domain < 2 ^ 12) && decide (h.step < 2 ^ 48) && decide (h.attempt < 16) &&
  decide (h.layer < 2 ^ 16) && decide (h.opId < 2 ^ 32) && decide (h.port < 36) && decide (h.stamp < 2 ^ 64)

/-- Identifiers of a core command (R60): the slot is one of the cluster's 272. -/
def CoreCmd.wf (c : CoreCmd) : Bool :=
  decide (c.ctx < 16) && decide (c.opId < 2 ^ 32) && decide (c.core < 2 ^ 20) && decide (c.slot < slotsPerCluster)

/-- An MCTP requester: one of two bindings, an 8-bit endpoint ID, an instance of 5 bits. -/
def Req.wf (r : Req) : Bool :=
  decide (r.binding < 2) && decide (r.eid < 2 ^ 8) && decide (r.inst < 32) && decide (r.session.getD 0 < 2 ^ 32)

/-- A submission entry's fields (Table 5.12), with 32 parameter bytes. -/
def SqEntry.wf (e : SqEntry) : Bool :=
  decide (e.opcode < 2 ^ 16) && decide (e.flags < 2 ^ 16) && decide (e.seq < 2 ^ 32) && decide (e.ctx < 2 ^ 16) && decide (e.payloadLen < 2 ^ 32) &&
  decide (e.payloadAddr < 2 ^ 64) && decide (e.payloadCrc < 2 ^ 32) && (e.param.length == 32)

/-- FAULT_REPORT PARAM fields (Table 10.1). -/
def FaultParam.wf (f : FaultParam) : Bool :=
  decide (f.kind < 2 ^ 8) && decide (f.source < 2 ^ 8) && decide (f.tileRow < 4) && decide (f.layer < 2 ^ 16) && decide (f.opId < 2 ^ 32) &&
  decide (f.physCore < 2 ^ 21) && decide (f.logicalCore < 2 ^ 20) && decide (f.addr < 2 ^ 48) && decide (f.detail < 2 ^ 32)

/-- A DATA packet (Table 6.3): a quarter of a block. -/
def DataPart.wf (d : DataPart) : Bool :=
  decide (d.tensorId < 2 ^ 32) && decide (d.addr < 2 ^ 48) && decide (d.check < 2 ^ 64) && decide (d.part < 4) && (d.payload.length == 1024)

/-- A RED packet (Tables 6.2 and 6.3): one to eight anchor blocks of 32 entries. -/
def RedPkt.wf (r : RedPkt) : Bool :=
  decide (r.collId < 2 ^ 12) && decide (r.op < 4) && decide (r.form < 4) && decide (1 ≤ r.nb) && decide (r.nb ≤ 8) &&
  decide (1 ≤ r.contrib) && decide (r.contrib ≤ 131072) && decide (r.firstBlock < 2 ^ 43) && decide (r.entries.length ≤ 32 * r.nb)

/-- A TEL packet (Table 13.2). -/
def TelPkt.wf (t : TelPkt) : Bool :=
  decide (t.tree < 2 ^ 12) && decide (t.op < 16) && decide (t.group < 2 ^ 16) && decide (t.contrib < 2 ^ 18) && decide (t.key < 2 ^ 64) &&
  decide (t.entries.length ≤ 256)

/-- A datagram of the shard protocol (Table 12.4). -/
def ShardMsg.wf (m : ShardMsg) : Bool :=
  decide (m.gateway < 2 ^ 8) && decide (m.version < 2 ^ 8) && decide (m.handle < 2 ^ 32) && decide (m.participant < 2 ^ 17) &&
  decide (m.shard < 2 ^ 32) && decide (m.status < 2 ^ 8) && decide (m.payload.length ≤ 8192)

/-- A PTP message: nanoseconds below a second. -/
def PtpMsg.wf (m : PtpMsg) : Bool := decide (m.nanos < 1000000000) && decide (m.seqId < 2 ^ 16) && decide (m.domain < 2 ^ 8)

/-- The dataset of an Announce. -/
def AnnounceData.wf (a : AnnounceData) : Bool :=
  decide (a.priority1 < 2 ^ 8) && decide (a.clockClass < 2 ^ 8) && decide (a.priority2 < 2 ^ 8) && decide (a.stepsRemoved < 2 ^ 16)

/-- An Ethernet frame's filtered fields. -/
def EdgeFrame.wf (f : EdgeFrame) : Bool :=
  decide (f.etherType < 2 ^ 16) && decide (f.vid < 2 ^ 12) && decide (f.dstPort < 2 ^ 16)

/-- A unit of Table 11.3 the module has. -/
def HangUnit.wf : HangUnit → Bool
  | .sequencer g k => decide (g < numClusters) && decide (k < 256)
  | .clusterControl g => decide (g < numClusters)
  | .dma p => decide (p < 16)
  | .xpose p e => decide (p < 16) && decide (e < 4)
  | .geyser p => decide (p < 16)
  | .square d => decide (d < 5)
  | .crossing d => decide (d < 4)
  | .port p => decide (p < 32)
  | .calCore h c => decide (h < 2) && decide (c < 4)

/-- A tile of four A rows and four B columns (R29) whose disturbances lie in the tile. -/
def Tile.wf (t : Tile) : Bool :=
  decide (t.aRows.length ≤ 4) && decide (t.bCols.length ≤ 4) && decide (t.nearOff < 2 ^ 15) &&
  t.faults.all (fun f => decide (f.row < 4) && decide (f.col ≤ 4) && decide (f.mask < 2 ^ 96))

/-- An anchor share of elements. -/
def AnchShare.wf (a : AnchShare) : Bool := a.rows.all (fun r => decide (r.1 < 2 ^ 32))

/-- Where a SEND goes. -/
def SendTo.wf : SendTo → Bool
  | .adder _ _ parts _ => decide (1 ≤ parts)
  | .squareRaw coll _ elem => decide (coll < 2 ^ 12) && decide (elem < 32)
  | .squareVal coll _ elem bits => decide (coll < 2 ^ 12) && decide (elem < 32) && decide (bits < 2 ^ 32)

/-- A reading of a sampler of Table 13.1: 4,096 clusters, 36 ports, 8 stacks, 36 stages, Caldera. -/
def Reading.wf (r : Reading) : Bool := decide (r.index < [4096, 36, 8, 36, 1].getD r.cls 0)

/-- Every operand of a command fits its field and names a unit of the module. -/
def Instr.wf : Instr → Bool
  | .stepLaunch ctx => decide (ctx < 16)
  | .stepConfirmSend ctx => decide (ctx < 16)
  | .stepConfirm h => h.wf
  | .commit h launch _ epoch => h.wf && decide (launch < 2 ^ 64) && decide (epoch < 2 ^ 32)
  | .commitDeadline ctx => decide (ctx < 16)
  | .faultReport h f => h.wf && f.wf
  | .reexecCollect ctx => decide (ctx < 16)
  | .reexec h launch epoch => h.wf && decide (launch < 2 ^ 64) && decide (epoch < 2 ^ 32)
  | .moduleLost h lost spare epoch => h.wf && decide (lost < 2 ^ 17) && decide (spare < 2 ^ 17) && decide (epoch < 2 ^ 32)
  | .anch c share => c.wf && share.wf
  | .mma c tile => c.wf && tile.wf
  | .vec c first _ nearOff => c.wf && decide (first < 2 ^ 32) && decide (nearOff < 2 ^ 15)
  | .move c src dst len _ => c.wf && decide (src < 2 ^ 48) && decide (dst < 2 ^ 48) && decide (len < 2 ^ 48)
  | .send c dest => c.wf && dest.wf
  | .wait c barrier => c.wf && decide (barrier < 2 ^ 16)
  | .dma ctx opId src dst len _ =>
    decide (ctx < 16) && decide (opId < 2 ^ 32) && decide (src < 2 ^ 48) && decide (dst < 2 ^ 48) && decide (len < 2 ^ 48)
  | .operatorStart ctx opId cluster => decide (ctx < 16) && decide (opId < 2 ^ 32) && decide (cluster < numClusters)
  | .operatorComplete ctx opId cluster _ => decide (ctx < 16) && decide (opId < 2 ^ 32) && decide (cluster < numClusters)
  | .batchWaitExpiry cluster => decide (cluster < numClusters)
  | .sliceStreamDone cluster opId => decide (cluster < numClusters) && decide (opId < 2 ^ 32)
  | .xposeJobComplete part engine _ _ => decide (part < 16) && decide (engine < 4)
  | .scrubSlot level unit _ _ => decide (level < 3) && decide (unit < [256, 16, 2 ^ 20].getD level 0)
  | .calGapStart count => decide (count < 2 ^ 64)
  | .calGapEnd failed => failed.all (fun e => decide (e.1 < 16) && decide (e.2 < 16))
  | .identify ring => decide (ring < 4)
  | .attach ring => decide (ring < 4)
  | .ctxLoad ring => decide (ring < 4)
  | .ctxArm ring => decide (ring < 4)
  | .ctxHold ring => decide (ring < 4)
  | .ctxResume ring => decide (ring < 4)
  | .ctxTeardown ring => decide (ring < 4)
  | .tensorWrite ring => decide (ring < 4)
  | .tensorRead ring _ => decide (ring < 4)
  | .dumpRequest ring _ => decide (ring < 4)
  | .fingerprintGet ring => decide (ring < 4)
  | .policySet ring => decide (ring < 4)
  | .nop ring => decide (ring < 4)
  | .commandAccept ring e _ => decide (ring < 4) && e.wf
  | .sqDoorbell ring tail => decide (ring < 4) && decide (tail < 2 ^ 16)
  | .ringEnWrite ring _ => decide (ring < 4)
  | .mbxEnableWrite _ => true
  | .cqHeadWrite ring head => decide (ring < 4) && decide (head < 2 ^ 16)
  | .mbxHeartbeat value => decide (value < 2 ^ 64)
  | .registerWrite offset value => decide (offset < 2 ^ 32) && decide (value < 2 ^ 32)
  | .pcieHotReset => true
  | .pcieLinkDown => true
  | .pcieFlr => true
  | .pf1Flr => true
  | .busMasterDisable => true
  | .hostHbTimeout => true
  | .pcieLinkDownTimeout => true
  | .armed h digest => h.wf && decide (digest < 2 ^ 128)
  | .start h launch policy epoch => h.wf && decide (launch < 2 ^ 64) && decide (policy < 2 ^ 8) && decide (epoch < 2 ^ 32)
  | .pmap h part bitmap epoch => h.wf && decide (part < 16) && decide (bitmap < 2 ^ 8192) && decide (epoch < 2 ^ 32)
  | .resume h launch epoch => h.wf && decide (launch < 2 ^ 64) && decide (epoch < 2 ^ 32)
  | .hostLoss h tick => h.wf && decide (tick < 2 ^ 64)
  | .drain h td epoch => h.wf && decide (td < 2 ^ 64) && decide (epoch < 2 ^ 32)
  | .drainStart ctx => decide (ctx < 16)
  | .drainEnd ctx => decide (ctx < 16)
  | .drained h => h.wf
  | .routeBreak h dim after _ effective => h.wf && decide (dim < 4) && decide (after < 2 ^ 6) && decide (effective < 2 ^ 64)
  | .routeBreakEffective dim => decide (dim < 4)
  | .ack h seqAcked => h.wf && decide (seqAcked < 2 ^ 32)
  | .notReady h hintUs seqRefused => h.wf && decide (hintUs < 2 ^ 16) && decide (seqRefused < 2 ^ 32)
  | .cnEcho h vc => h.wf && decide (vc < 8)
  | .ctrlRetransmit dst ep seq => decide (dst < 2 ^ 17) && decide (ep < 2 ^ 5) && decide (seq < 2 ^ 32)
  | .limiterIncrease dst vc => decide (dst < 2 ^ 17) && decide (vc < 8)
  | .packetForward die inPort _ now => decide (die < 4) && decide (inPort < 35) && (decide (32 ≤ inPort) || inPort / 8 == die) && decide (now < 2 ^ 64)
  | .crossingReserve die out vc => decide (die < 4) && decide (out < 10) && decide (vc < 8)
  | .crossingReserveEnd die out vc => decide (die < 4) && decide (out < 10) && decide (vc < 8)
  | .dataPacket h d _ => h.wf && d.wf
  | .redUp h r => h.wf && r.wf
  | .redDown h r => h.wf && r.wf
  | .telUp h t => h.wf && t.wf
  | .telDown h t => h.wf && t.wf
  | .credit port _ => decide (port < 32)
  | .ident port _ => decide (port < 32)
  | .lsmFastRetrain port _ => decide (port < 32)
  | .lsmFullRetrain port _ => decide (port < 32)
  | .lsmWidth4 port _ => decide (port < 32)
  | .lsmSpare port _ => decide (port < 32)
  | .lsmGrant port _ => decide (port < 32)
  | .lsmDone port _ => decide (port < 32)
  | .codewordFlagged port lane firstLost _ => decide (port < 32) && decide (lane < 9) && decide (firstLost < 2 ^ 32)
  | .nakRetry port => decide (port < 32)
  | .lossOfSignal port lane => decide (port < 36) && decide (lane < 9)
  | .laneCeLimit port lane => decide (port < 32) && decide (lane < 9)
  | .laneUeLimit port lane => decide (port < 32) && decide (lane < 9)
  | .portLcfTimeout port => decide (port < 32)
  | .fastRetrainTimeout port => decide (port < 32)
  | .portStart port => decide (port < 36)
  | .partnerReady port lanes => decide (port < 36) && decide (lanes < 2 ^ 9)
  | .equaliseDone port => decide (port < 32)
  | .alignDone port lanes => decide (port < 32) && decide (lanes < 2 ^ 9)
  | .attemptTimeout port => decide (port < 32)
  | .backoffExpiry port => decide (port < 32)
  | .heldExpiry port => decide (port < 32)
  | .heldSignalLoss port => decide (port < 32)
  | .edgeLinkUp port _ => decide (32 ≤ port) && decide (port < 36)
  | .edgeLinkDown port => decide (32 ≤ port) && decide (port < 36)
  | .edgeFrameReceive port f => decide (32 ≤ port) && decide (port < 36) && f.wf
  | .timeLcfSend port => decide (port < 32)
  | .timeLcf port _ stamp => decide (port < 32) && decide (stamp < 2 ^ 64)
  | .offerExpiry port => decide (port < 32)
  | .rootSeqAdvance count => decide (count < 2 ^ 64)
  | .rootClaimTimer => true
  | .ptpUnlockTimeout => true
  | .sync port m => decide (32 ≤ port) && decide (port < 36) && m.wf
  | .followUp port m => decide (32 ≤ port) && decide (port < 36) && m.wf
  | .delayResp port m => decide (32 ≤ port) && decide (port < 36) && m.wf
  | .delayReq port m => decide (32 ≤ port) && decide (port < 36) && m.wf
  | .announce port m a => decide (32 ≤ port) && decide (port < 36) && m.wf && a.wf
  | .ptpSyncSend port => decide (32 ≤ port) && decide (port < 36)
  | .ptpAnnounceSend port => decide (32 ≤ port) && decide (port < 36)
  | .ptpDelayReqSend port => decide (32 ≤ port) && decide (port < 36)
  | .alignStart => true
  | .alignQuiesce => true
  | .alignApply => true
  | .alignComplete _ => true
  | .packetRelease => true
  | .hangWindowExpiry u => u.wf
  | .partitionRefillDone part => decide (part < 16)
  | .dieLinkFail pos => decide (pos < 4)
  | .calHalfFault half cause => decide (half < 2) && decide (cause < 2 ^ 8)
  | .selfTest _ _ => true
  | .calOwnAcquire half => decide (half < 2)
  | .calOwnTimeout => true
  | .coordBeatSend ctx => decide (ctx < 16)
  | .coordBeat h endAt epoch => h.wf && decide (endAt < 2 ^ 64) && decide (epoch < 2 ^ 32)
  | .leaseEnd ctx => decide (ctx < 16)
  | .leaseExpiry ctx => decide (ctx < 16)
  | .interlockInFall => true
  | .interlockStuck ctx => decide (ctx < 16)
  | .takeover h newLocus epoch => h.wf && decide (newLocus < 2 ^ 17) && decide (epoch < 2 ^ 32)
  | .takeoverState h attempt _ _ _ _ launch epoch => h.wf && decide (attempt < 16) && decide (launch < 2 ^ 64) && decide (epoch < 2 ^ 32)
  | .takeoverStateTimeout ctx locus => decide (ctx < 16) && decide (locus < 2 ^ 17)
  | .probe h epoch => h.wf && decide (epoch < 2 ^ 32)
  | .probeReply h attempt status level => h.wf && decide (attempt < 16) && decide (status < 2 ^ 8) && decide (level < 2 ^ 4)
  | .probeTimeout ctx locus => decide (ctx < 16) && decide (locus < 2 ^ 17)
  | .stepHold h reason epoch => h.wf && decide (reason < 2 ^ 8) && decide (epoch < 2 ^ 32)
  | .selfLost h reason => h.wf && decide (reason < 2 ^ 8)
  | .recoveryNotice h attempt ready => h.wf && decide (attempt < 16) && decide (ready < 2 ^ 64)
  | .geyBind h jobId => h.wf && decide (jobId < 2 ^ 32)
  | .geyBindReply h _ jobId => h.wf && decide (jobId < 2 ^ 32)
  | .geyBindRetry ctx => decide (ctx < 16)
  | .geyBindTimeout ctx => decide (ctx < 16)
  | .geySpareReady h jobId => h.wf && decide (jobId < 2 ^ 32)
  | .geyTake h lost spare epoch => h.wf && decide (lost < 2 ^ 17) && decide (spare < 2 ^ 17) && decide (epoch < 2 ^ 32)
  | .takeCopyComplete ctx => decide (ctx < 16)
  | .geyTakeDone h stateSum => h.wf && decide (stateSum < 2 ^ 64)
  | .geyReseed h mask => h.wf && decide (mask < 2 ^ 16)
  | .geyFetch h tensorId block => h.wf && decide (tensorId < 2 ^ 32) && decide (block < 2 ^ 32)
  | .geyCkpt h epoch => h.wf && decide (epoch < 2 ^ 32)
  | .geyCkptDone h status => h.wf && decide (status < 2 ^ 8)
  | .ckptTimeout ctx => decide (ctx < 16)
  | .geyRestore h jobId epoch => h.wf && decide (jobId < 2 ^ 32) && decide (epoch < 2 ^ 32)
  | .restoreComplete ctx => decide (ctx < 16)
  | .geyRestored h status stateSum => h.wf && decide (status < 2 ^ 8) && decide (stateSum < 2 ^ 64)
  | .openReply m => m.wf
  | .shardData m => m.wf
  | .dack m => m.wf
  | .closeReply m => m.wf
  | .fetchReply m => m.wf
  | .shardRto handle => decide (handle < 2 ^ 32)
  | .dackTimer handle => decide (handle < 2 ^ 32)
  | .gwDownExpiry gateway => decide (gateway < 2 ^ 8)
  | .sampleLatch k readings => decide (k < 2 ^ 64) && readings.all Reading.wf
  | .sampleMissed cls index => decide (index < [4096, 36, 8, 36, 1].getD cls 0)
  | .telSendBy tree group key attempt => decide (tree < 4096) && decide (group < 2 ^ 16) && decide (key < 2 ^ 64) && decide (attempt < 16)
  | .telFinalize tree group key attempt => decide (tree < 4096) && decide (group < 2 ^ 16) && decide (key < 2 ^ 64) && decide (attempt < 16)
  | .telSlotRelease tree group key => decide (tree < 4096) && decide (group < 2 ^ 16) && decide (key < 2 ^ 64)
  | .subscribe port addr udp subId version _ =>
    decide (32 ≤ port) && decide (port < 36) && decide (addr < 2 ^ 128) && decide (udp < 2 ^ 16) && decide (subId < 2 ^ 16) &&
    decide (version < 2 ^ 8)
  | .unsubscribe addr udp subId => decide (addr < 2 ^ 128) && decide (udp < 2 ^ 16) && decide (subId < 2 ^ 16)
  | .subscriptionLeaseEnd addr udp subId => decide (addr < 2 ^ 128) && decide (udp < 2 ^ 16) && decide (subId < 2 ^ 16)
  | .recordAged addr udp subId seq => decide (addr < 2 ^ 128) && decide (udp < 2 ^ 16) && decide (subId < 2 ^ 16) && decide (seq < 2 ^ 32)
  | .evrRecordClose seq => decide (seq < 2 ^ 32)
  | .evrInfo r => r.wf
  | .evrFreeze r => r.wf
  | .evrRead r fromSeq maxCount minSev => r.wf && decide (fromSeq < 2 ^ 32) && decide (maxCount < 2 ^ 16) && decide (minSev < 2 ^ 2)
  | .evrRelease r => r.wf
  | .evrClear r uptoSeq maxSev => r.wf && decide (uptoSeq < 2 ^ 32) && decide (maxSev < 2 ^ 2)
  | .evrFreezeTimeout => true
  | .ledgerUpdate stage mv ma => decide (stage < 36) && decide (mv < 2 ^ 16) && decide (ma < 2 ^ 32)
  | .pwrGrant r ctx grant effective => r.wf && decide (ctx < 16) && decide (grant < 2 ^ 64) && decide (effective < 2 ^ 64)
  | .pwrCeiling r watts => r.wf && decide (watts < 2 ^ 32)
  | .pwrDemand r ctx => r.wf && decide (ctx < 16)
  | .vcoreUndervoltage part => decide (part < 16)
  | .frequencyMargin part reading => decide (part < 16) && decide (reading < 2 ^ 16)
  | .tjThrottle part temp => decide (part < 16) && decide (temp < 2 ^ 16)
  | .tjTrip part temp => decide (part < 16) && decide (temp < 2 ^ 16)
  | .railOvervoltage stage mv => decide (stage < 36) && decide (mv < 2 ^ 16)
  | .inputPowerLimit watts => decide (watts < 2 ^ 32)
  | .comparatorRelease limit unit => decide (limit < 6) && decide (unit < (if limit = 4 then 36 else if limit = 5 then 1 else 16))
  | .phaseRetire stage phase reason => decide (stage < 36) && decide (phase < (if stage < 16 then 8 else if stage < 20 then 6 else if stage < 34 then 4 else 2)) && decide (reason < 2 ^ 8)
  | .railPowerGood group => decide (1 ≤ group) && decide (group ≤ 5)
  | .powerOn => true
  | .slotSelect => true
  | .triesClear => true
  | .opticsRelease => true
  | .runEntry failedSlots => failedSlots.all (fun e => decide (e.1 < numClusters) && decide (e.2 < slotsPerCluster))
  | .locusAssign r locus => r.wf && decide (locus < 2 ^ 32)
  | .mbIdentify r => r.wf
  | .idAccept r scope portMask => r.wf && decide (scope < 2 ^ 8) && decide (portMask < 2 ^ 32)
  | .idStatus r => r.wf
  | .imgBegin r length => r.wf && decide (length < 2 ^ 32)
  | .imgWrite r offset _ => r.wf && decide (offset < 2 ^ 32)
  | .imgCommit r => r.wf
  | .imgAbort r => r.wf
  | .imgStatus r => r.wf
  | .imgWriterIdle => true
  | .secverAdvance r v => r.wf && decide (v < 2 ^ 8)
  | .ownerProvision r _ _ => r.wf
  | .moduleReset r => r.wf
  | .ctxResumeReq r ctx => r.wf && decide (ctx < 16)
  | .geyRestoreReq r ctx jobId k => r.wf && decide (ctx < 16) && decide (jobId < 2 ^ 32) && decide (k < 2 ^ 48)
  | .getTid r => r.wf
  | .getPldmVersion r pldmType => r.wf && decide (pldmType < 2 ^ 8)
  | .getPldmTypes r => r.wf
  | .getPldmCommands r pldmType => r.wf && decide (pldmType < 2 ^ 8)
  | .getPdr r handle => r.wf && decide (handle < 2 ^ 32)
  | .getSensorReading r sensor => r.wf && decide (sensor < 2 ^ 16)
  | .getStateSensorReadings r sensor => r.wf && decide (sensor < 2 ^ 16)
  | .pldmFullRetrain r port => r.wf && decide (port < 36)
  | .releaseHold r port => r.wf && decide (port < 36)
  | .alignRetry r => r.wf
  | .regRead r block inst offset length =>
    r.wf && decide (block < 2 ^ 32) && decide (inst < 2 ^ 16) && decide (offset < 2 ^ 32) && decide (length < 2 ^ 32)
  | .regW1c r block inst offset mask =>
    r.wf && decide (block < 2 ^ 32) && decide (inst < 2 ^ 16) && decide (offset < 2 ^ 32) && decide (mask < 2 ^ 32)
  | .setEndpointId binding eid => decide (binding < 2) && decide (eid < 2 ^ 8)
  | .getEndpointId binding => decide (binding < 2)
  | .getMctpVersionSupport r msgType => r.wf && decide (msgType < 2 ^ 8)
  | .getMessageTypeSupport r => r.wf
  | .getVendorDefinedMessageSupport r selector => r.wf && decide (selector < 2 ^ 8)
  | .getVersion r => r.wf
  | .getCapabilities r _ => r.wf
  | .negotiateAlgorithms r _ => r.wf
  | .getDigests r => r.wf
  | .getCertificate r slot offset length => r.wf && decide (slot < 2 ^ 4) && decide (offset < 2 ^ 32) && decide (length < 2 ^ 32)
  | .challenge r slot _ => r.wf && decide (slot < 2 ^ 4)
  | .getMeasurements r index _ => r.wf && decide (index < 2 ^ 16)
  | .keyExchange r reqSessionId _ => r.wf && decide (reqSessionId < 2 ^ 16)
  | .pgoodFall => true
  | .resetNFall => true
  | .pciePerstN _ => true
  | .testEnHigh => true
  | .inputUndervoltage => true
  | .inputOvervoltage => true
  | .inputCollapse => true
  | .pcieLinkUp width rate => decide (width < 2 ^ 8) && decide (rate < 2 ^ 8)
  | .dynamicAddressAssignment addr => decide (addr < 2 ^ 7)
  | .finish r session _ => r.wf && decide (session < 2 ^ 32)
  | .keyUpdate r session op => r.wf && decide (session < 2 ^ 32) && decide (op < 2 ^ 8)
  | .endSession r session => r.wf && decide (session < 2 ^ 32)
  | .respondIfReady r token => r.wf && decide (token < 2 ^ 8)
  | .announceReceiptTimeout port => decide (32 ≤ port) && decide (port < 36)
  | .actionBoundExpiry u level => u.wf && decide (level < 2 ^ 4)
  | .busyRetryDelayExpiry handle => decide (handle < 2 ^ 32)

end Sys2Proof
end

