-- ==== Sys2Proof/Safety.lean ====
section
/-!
DEFINITION. The terms the statements use: when a message, a ring entry, a request or an event takes effect, what a completion or an
answer looks like when it leaves, and the invariant every step keeps.
-/
namespace Sys2Proof.Machine

/-! ### A run that does not stop -/

/-- A run is safe while no step of it stops: well-formed commands never do. -/
def Safe (s : State) : Prop := ∀ c ∈ s.pending, c.wf = true

/-- The invariant every step keeps: module memory is canonical. -/
def State.Inv (s : State) : Prop := Memory.wf s.mem = true

/-! ### CTRL messages (06 R159 to R161, 09 R237, 11 R292) -/

/-- The CTRL message with header `h` takes effect when it arrives: the module is in RUN, an owning half answers or no power cycle is
asked for, the message is not a copy of one accepted, and no release tick holds it. -/
def State.takes (s : State) (h : Hdr) : Bool :=
  s.inRun && !(s.pins.pwrCycleReq && s.cal.owner.isNone) && (s.dupCheck h).1 && ((s.advanceTo h.stamp).releaseTick h).isNone

/-- The state a CTRL message takes effect on: time at its stamp, its number noted, its ACK sent, a late arrival noted. -/
def State.atEffect (s : State) (h : Hdr) : State :=
  let s := ((s.advanceTo h.stamp).dupCheck h).2.sendResp h.src h.srcEp 0x01 h.step (field h.seq 32 0)
  s.when (s.lateRelease h) State.markLate

/-- A coordinator's message of an epoch reaches context `x` of the job it concerns, and is not refused for an old epoch (R297). -/
def State.serves (s : State) (h : Hdr) (epoch x : Nat) : Prop :=
  s.takes h = true ∧ s.jobCtx h.src = some x ∧ (s.ctx x).adopted ≤ epoch

/-- A participant's message reaches the coordinator of its job in context `x`. -/
def State.coordinates (s : State) (h : Hdr) (x : Nat) : Prop := s.takes h = true ∧ s.coordCtx h.src h.step = some x

/-- No action waits for the step boundary (11 R275), and no live configuration does (16 R398). -/
def State.quiet (s : State) : Prop :=
  s.recov.pending = [] ∧ s.recov.repeats = [] ∧ (∀ e ∈ s.clus, e.2.toFence = []) ∧ s.id.liveWaiting = none

/-- No repeat of the context waits to be judged, and no mailbox command waits on it. -/
def State.nothingWaits (s : State) (x : Nat) : Prop :=
  (∀ r ∈ s.recov.repeats, r.ctx ≠ x) ∧ (s.ctx x).holdRings = [] ∧ (s.ctx x).tearRings = [] ∧ (s.ctx x).gey.writeAcks = []

/-- No job starts because the fleet count is acquired: it is held already, or this module coordinates none (R115). -/
def State.startsNone (s : State) : Prop := s.fcHeld = true ∨ ∀ x, (s.ctx x).coord.active = false

/-- The ACK of a CTRL message (Table 6.10). -/
def ackOfMsg (h : Hdr) : Emit := .resp { dst := h.src, ep := h.srcEp, msg := 0x01, step := h.step, param := field h.seq 32 0, echo := false }

/-- Something left the module between two states. -/
def sentBetween (s t : State) (e : Emit) : Prop := ∃ new, t.out = new ++ s.out ∧ e ∈ new

/-- A CTRL message left for a module: its kind, step, attempt and PARAM (Table 6.10). -/
def ctrlSent (s t : State) (dst msg step attempt param : Nat) : Prop :=
  ∃ m : CtrlMsg, m.dst = dst ∧ m.msg = msg ∧ m.step = step ∧ m.attempt = attempt % 16 ∧ m.param = param ∧ sentBetween s t (.ctrl m)

/-- A RESP message left for an endpoint of a module (Table 6.10). -/
def respSent (s t : State) (dst ep msg step param : Nat) : Prop :=
  ∃ e : Bool, sentBetween s t (.resp { dst, ep, msg, step, param, echo := e })

/-! ### Commands of a core (03 R60, R61) -/

/-- Core command `c` runs: its context, slot and core exist, its job's step is launched, operator `o` is placed on its cluster, and the slot
carries the core (R18, R85). -/
def State.runsOn (s : State) (c : CoreCmd) (o : OpDesc) : Prop :=
  c.ctx < 16 ∧ c.slot < slotsPerCluster ∧ c.core < 2 ^ 20 ∧ (s.ctx c.ctx).op c.opId = some o ∧ (s.ctx c.ctx).st = .running ∧
  (s.ctx c.ctx).launched = true ∧ coreCluster c.core ∈ o.clusters ∧ s.carries c.core c.slot = true

/-- From `s` to `t` module memory takes `bs` at `a` and keeps every other byte. -/
def bytesStored (s t : State) (a : Nat) (bs : List Byte) : Prop :=
  ∀ q, t.byte q = if a ≤ q ∧ q < a + bs.length then bs.getD (q - a) 0#8 else s.byte q

/-! ### Link control flits (07 R173 to R175) -/

/-- A link control flit of a kind is accepted on fabric port `p` as it is: its LCRC and kind are right, the port trains or runs, the flit asks for no
replay and shows no gap, and no packet waits at a Crossing. -/
def State.lcfClean (s : State) (p kind : Nat) (flit : BitVec 512) : Prop :=
  p < 32 ∧ lcfCrc flit.toNat = bitsOf flit.toNat 31 0 ∧ bitsOf flit.toNat 511 508 = kind ∧ (s.port p).st ≠ .dark ∧ (s.port p).st ≠ .unused ∧
  flit.toNat.testBit 459 = false ∧ serialNewer 24 (bitsOf flit.toNat 507 484) (s.port p).rxSeq = false ∧ s.fab.waits = []

/-- Some link control flit left by a port between two states. -/
def lcfSent (s t : State) (p : Nat) : Prop := ∃ f, sentBetween s t (.lcf p f)

/-! ### Blocks and datagrams of Geyser (12 R309, R310, R327) -/

/-- A block left for a module as four BULK packets of context `x`'s domain, with its check. -/
def blockSent (s t : State) (x dst step tensorId addr check : Nat) (bytes : List Byte) : Prop :=
  ∀ i, i < 4 → ∃ q ack, sentBetween s t (.data dst (addrPart addr) (s.ctx x).domain step 0 q
    { bulk := true, tensorId, addr, check, part := i, ackReq := ack, payload := slice bytes (1024 * i) 1024 })

/-- A datagram of a transfer left for its gateway, where an edge port holds the role. -/
def shardSent (s t : State) (h : Nat) (v : Xfer) (type offset : Nat) (payload : List Byte) : Prop :=
  ∀ p, s.rolePort 0 = some p → sentBetween s t (.datagram p (s.cfg.gwAddr v.gateway) (s.cfg.gwPort v.gateway) s.cfg.geyUdpPort
    (shardHeader type h offset v.jobId v.participant v.shard 0 (if v.writing then 0 else 64) ++ payload))

/-! ### Mailbox entries (05 R125 to R128) -/

/-- Ring pair `n` executes entry `a` of an opcode; it is not the second copy of a command that changes state. -/
def State.executes (s : State) (n op : Nat) (a : Staged) : Prop :=
  n < 4 ∧ (s.ring n).cur = some a ∧ a.e.opcode = op ∧ (a.dup && !readOnlyOp op) = false

/-- A completion of pair `n` can be written: the pair is usable, the link is up and may be mastered, the host is not lost, a slot is free. -/
def State.posts (s : State) (n : Nat) : Bool :=
  (s.ring n).usable && s.mbx.linkUp && s.mbx.busMaster && !s.mbx.hostLoss && decide ((s.ring n).cqUsed < (s.ring n).size)

/-- The completion entry of `a` (Table 5.13) at the pair's next place. -/
def State.completion (s : State) (n : Nat) (a : Staged) (status result : Nat) : Emit :=
  .hostWrite ((s.ring n).cqBase + 16 * (s.ring n).cqTail)
    (completionBytes n a.e.seq status (s.ring n).phase a.dup (s.ring n).head result)

/-- Entry `a` of pair `n` completed between two states: the completion is written when the pair can take one. -/
def completed (s t : State) (n : Nat) (a : Staged) (status result : Nat) : Prop :=
  s.posts n = true → sentBetween s t (s.completion n a status result)

/-! ### Management requests (16 R365, R407, R413, R414) -/

/-- A vendor request reaches its meaning: the endpoint is reached, and the state and the session allow the command. -/
def State.vendorServed (s : State) (r : Req) (early needsSession : Bool) : Bool :=
  s.reached r && (s.id.cal == .run || (early && s.id.cal != .boot)) && (!needsSession || s.inSession r)

/-- A vendor answer with a completion code and payload. -/
def vendorAnswer (r : Req) (cmd completion : Nat) (payload : List Byte) : Emit :=
  .mctp r 0x7E (beBytes 2 Config.pcieVendorId ++ leBytes 1 (r.inst % 32) ++ leBytes 1 cmd ++ leBytes 1 completion ++ payload)

/-! ### What a command leaves alone -/

/-- The fields of a context. -/
inductive CtxField where
  | st | mask | partCount | received | imageOff | imageLen | prog | progDigest | desc | policySet | policy | adopted |
  coordLocus | pmap | pmapParts | index | committed | commitTick | commitAttempt | step | attempt | launch | launched |
  cycleAtLaunch | confirmed | faulted | reasons | hostWrite | confirmCycles | records | stateSum | drainAt | holdRings |
  tearRings | exec | pend | dumps | gey | coord
  deriving DecidableEq, Repr

/-- A field is the same in two contexts. -/
def CtxField.same (f : CtxField) (c d : Ctx) : Prop :=
  match f with
  | .st => d.st = c.st
  | .mask => d.mask = c.mask
  | .partCount => d.partCount = c.partCount
  | .received => d.received = c.received
  | .imageOff => d.imageOff = c.imageOff
  | .imageLen => d.imageLen = c.imageLen
  | .prog => d.prog = c.prog
  | .progDigest => d.progDigest = c.progDigest
  | .desc => d.desc = c.desc
  | .policySet => d.policySet = c.policySet
  | .policy => d.policy = c.policy
  | .adopted => d.adopted = c.adopted
  | .coordLocus => d.coordLocus = c.coordLocus
  | .pmap => d.pmap = c.pmap
  | .pmapParts => d.pmapParts = c.pmapParts
  | .index => d.index = c.index
  | .committed => d.committed = c.committed
  | .commitTick => d.commitTick = c.commitTick
  | .commitAttempt => d.commitAttempt = c.commitAttempt
  | .step => d.step = c.step
  | .attempt => d.attempt = c.attempt
  | .launch => d.launch = c.launch
  | .launched => d.launched = c.launched
  | .cycleAtLaunch => d.cycleAtLaunch = c.cycleAtLaunch
  | .confirmed => d.confirmed = c.confirmed
  | .faulted => d.faulted = c.faulted
  | .reasons => d.reasons = c.reasons
  | .hostWrite => d.hostWrite = c.hostWrite
  | .confirmCycles => d.confirmCycles = c.confirmCycles
  | .records => d.records = c.records
  | .stateSum => d.stateSum = c.stateSum
  | .drainAt => d.drainAt = c.drainAt
  | .holdRings => d.holdRings = c.holdRings
  | .tearRings => d.tearRings = c.tearRings
  | .exec => d.exec = c.exec
  | .pend => d.pend = c.pend
  | .dumps => d.dumps = c.dumps
  | .gey => d.gey = c.gey
  | .coord => d.coord = c.coord

/-- The parts of the module, for what a command leaves alone: `critical` is the CRITICAL record list of the flash and `flash` the rest of
it, `bytes` is what module memory holds and `memory` the rest of the memory system, `ctx f` is field `f` of every context. -/
inductive Part where
  | time | cfg | id | flash | critical | mbx | ctxs | memory | bytes | clus | fab | ports | recov | cal | det | gey | tel | evr | pwr | mgmt
  | pins | evts | ctrs | out | free | ctx (f : CtxField)
  deriving DecidableEq, Repr

/-- A part is the same in two states. -/
def Part.same (p : Part) (s t : State) : Prop :=
  match p with
  | .time => t.time = s.time
  | .cfg => t.cfg = s.cfg
  | .id => t.id = s.id
  | .flash => { t.flash with events := [] } = { s.flash with events := [] }
  | .critical => t.flash.events = s.flash.events
  | .mbx => t.mbx = s.mbx
  | .ctxs => t.ctxs = s.ctxs
  | .memory => { t.mem with bytes := [] } = { s.mem with bytes := [] }
  | .bytes => t.mem.bytes = s.mem.bytes
  | .clus => t.clus = s.clus
  | .fab => t.fab = s.fab
  | .ports => t.ports = s.ports
  | .recov => t.recov = s.recov
  | .cal => t.cal = s.cal
  | .det => t.det = s.det
  | .gey => t.gey = s.gey
  | .tel => t.tel = s.tel
  | .evr => t.evr = s.evr
  | .pwr => t.pwr = s.pwr
  | .mgmt => t.mgmt = s.mgmt
  | .pins => t.pins = s.pins
  | .evts => t.evts = s.evts
  | .ctrs => t.ctrs = s.ctrs
  | .out => t.out = s.out
  | .free => t.free = s.free
  | .ctx f => ∀ y, f.same (s.ctx y) (t.ctx y)

/-- Between two states no part but those listed changed. -/
def onlyChanges (s t : State) (ps : List Part) : Prop := ∀ p, p ∉ ps → p.same s t

/-- Every part but the contexts. -/
def Part.module : List Part :=
  [.time, .cfg, .id, .flash, .critical, .mbx, .memory, .bytes, .clus, .fab, .ports, .recov, .cal, .det, .gey, .tel, .evr, .pwr, .mgmt, .pins,
   .evts, .ctrs, .out, .free]

/-- Every field of a context. -/
def CtxField.every : List CtxField :=
  [.st, .mask, .partCount, .received, .imageOff, .imageLen, .prog, .progDigest, .desc, .policySet, .policy, .adopted, .coordLocus,
   .pmap, .pmapParts, .index, .committed, .commitTick, .commitAttempt, .step, .attempt, .launch, .launched, .cycleAtLaunch,
   .confirmed, .faulted, .reasons, .hostWrite, .confirmCycles, .records, .stateSum, .drainAt, .holdRings, .tearRings, .exec, .pend,
   .dumps, .gey, .coord]

/-- Contexts, in some fields only. -/
def ctxParts (l : List CtxField) : List Part := .ctxs :: l.map .ctx

/-- The parts a new event record may change (14 R355, R356, R361). -/
def Part.recorder : List Part := [.critical, .evr, .evts, .ctrs]

end Sys2Proof.Machine

namespace Sys2Proof
open Machine

/-- The parts a command may change: its own effect, what that sets going, and what is recorded of it. -/
def Instr.touches : Instr → List Part
  | .sliceStreamDone .. => [.clus]
  | .sqDoorbell .. | .ringEnWrite .. | .mbxEnableWrite .. | .mbxHeartbeat .. => [.mbx]
  | .pf1Flr | .dynamicAddressAssignment .. => [.mgmt]
  | .limiterIncrease .. | .crossingReserve .. => [.fab]
  | .portStart .. | .partnerReady .. | .equaliseDone .. | .attemptTimeout .. | .backoffExpiry .. | .edgeLinkDown .. => [.ports]
  | .edgeFrameReceive .. | .sampleMissed .. => [.ctrs]
  | .rootSeqAdvance .. | .announce .. => [.time]
  | .delayReq .. | .getTid .. | .getPldmVersion .. | .getPldmTypes .. | .getPldmCommands .. | .getPdr .. | .getStateSensorReadings ..
  | .regRead .. | .getEndpointId .. | .getMctpVersionSupport .. | .getMessageTypeSupport .. | .getVendorDefinedMessageSupport .. => [.out]
  | .alignStart => [.det]
  | .partitionRefillDone .. => [.memory]
  | .leaseEnd .. | .resetNFall | .testEnHigh => [.pins]
  | .interlockInFall => [.cal]
  | .unsubscribe .. => [.tel]
  | .evrRecordClose .. => [.evr]
  | .ledgerUpdate .. => [.pwr]
  | .triesClear => [.flash]
  | .imgWriterIdle => [.id]
  | .calGapStart .. => [.time, .memory]
  | .identify .. | .attach .. | .fingerprintGet .. | .nop .. | .commandAccept .. | .cqHeadWrite .. => [.mbx, .out]
  | .pcieHotReset | .pcieLinkDown => [.mbx, .evts]
  | .drainStart .. | .notReady .. | .cnEcho .. => [.time, .fab]
  | .ctrlRetransmit .. => [.fab, .out]
  | .timeLcfSend .. => [.ports, .out]
  | .ptpSyncSend .. | .ptpDelayReqSend .. => [.time, .out]
  | .alignQuiesce => [.time, .det]
  | .calOwnTimeout => [.pins, .ctrs]
  | .dackTimer .. | .busyRetryDelayExpiry .. => [.gey, .out]
  | .telSlotRelease .. | .recordAged .. => [.tel, .ctrs]
  | .subscriptionLeaseEnd .. => [.time, .tel]
  | .evrRead .. | .pwrDemand .. | .mbIdentify .. | .idStatus .. | .imgStatus .. | .moduleReset .. | .getSensorReading ..
  | .respondIfReady .. => [.out, .free]
  | .alignRetry .. => [.det, .out]
  | .regW1c .. => [.evts, .out]
  | .setEndpointId .. | .getVersion .. | .getCapabilities .. | .negotiateAlgorithms .. | .getDigests .. | .finish .. | .keyUpdate ..
  | .endSession .. => [.mgmt, .out]
  | .anch .. => [.ctrs] ++ ctxParts [.exec]
  | .operatorStart .. | .batchWaitExpiry .. => [.clus] ++ ctxParts [.exec]
  | .registerWrite .. => [.mbx, .evts, .out]
  | .codewordFlagged .. => [.ports, .ctrs, .out]
  | .ptpAnnounceSend .. => [.time, .out, .free]
  | .alignApply => [.time, .memory, .det]
  | .calHalfFault .. | .selfTest .. => [.id, .flash, .cal]
  | .dack .. => [.gey, .ctrs, .out]
  | .evrInfo .. | .evrFreeze .. => [.evr, .out, .free]
  | .railPowerGood .. => [.pwr, .pins, .free]
  | .imgWrite .. | .imgAbort .. => [.id, .out, .free]
  | .getCertificate .. | .challenge .. | .getMeasurements .. | .keyExchange .. => [.mgmt, .out, .free]
  | .reexecCollect .. => [.fab, .out] ++ ctxParts [.coord]
  | .calGapEnd .. => [.time, .memory, .recov, .ctrs]
  | .policySet .. => [.mbx, .out] ++ ctxParts [.policySet]
  | .crossingReserveEnd .. => [.fab, .ports, .ctrs, .out]
  | .geyBindRetry .. => [.fab, .out] ++ ctxParts [.gey]
  | .geyBindTimeout .. | .evrFreezeTimeout => Part.recorder
  | .telSendBy .. => [.time, .tel, .ctrs, .out]
  | .opticsRelease => [.id, .pwr, .pins, .free]
  | .imgBegin .. => [.id, .flash, .out, .free]
  | .pciePerstN .. => [.mbx, .mgmt, .pins, .evts]
  | .commitDeadline .. => [.time, .fab, .out] ++ ctxParts [.coord]
  | .rootClaimTimer | .ptpUnlockTimeout | .announceReceiptTimeout .. => Part.recorder ++ [.time]
  | .alignComplete .. => Part.recorder ++ [.det]
  | .coordBeatSend .. => [.fab, .pins, .out] ++ ctxParts [.coord]
  | .openReply .. => [.gey, .ctrs, .out] ++ ctxParts [.gey]
  | .fetchReply .. => [.fab, .gey, .out] ++ ctxParts [.gey]
  | .ctxResumeReq .. | .geyRestoreReq .. => [.fab, .out, .free] ++ ctxParts [.coord]
  | .pcieLinkUp .. => Part.recorder ++ [.mbx]
  | .ctxHold .. => [.mbx, .out, .free] ++ ctxParts [.holdRings, .coord]
  | .ctxResume .. => [.mbx, .fab, .out, .free] ++ ctxParts [.coord]
  | .offerExpiry .. => Part.recorder ++ [.time, .ports]
  | .leaseExpiry .. => [.fab, .pins, .ctrs, .out] ++ ctxParts [.coord]
  | .evrRelease .. | .evrClear .. => Part.recorder ++ [.out, .free]
  | .locusAssign .. => Part.recorder ++ [.id, .out]
  | .wait .. => Part.recorder ++ [.clus] ++ ctxParts [.exec]
  | .routeBreak .. | .geyFetch .. => [.time, .fab, .ctrs, .out, .free] ++ ctxParts [.reasons]
  | .edgeLinkUp .. => Part.recorder ++ [.ports, .tel, .out]
  | .calOwnAcquire .. => Part.recorder ++ [.cal, .tel, .out]
  | .telFinalize .. => Part.recorder ++ [.time, .tel, .out]
  | .subscribe .. => Part.recorder ++ [.tel, .out, .free]
  | .pwrGrant .. => Part.recorder ++ [.pwr, .out, .free]
  | .vcoreUndervoltage .. | .frequencyMargin .. | .tjThrottle .. | .tjTrip .. | .inputPowerLimit .. =>
    Part.recorder ++ [.pwr] ++ ctxParts [.reasons]
  | .secverAdvance .. | .ownerProvision .. => Part.recorder ++ [.flash, .out, .free]
  | .stepConfirm .. | .hostLoss .. | .drained .. | .takeoverState .. | .recoveryNotice .. | .geySpareReady .. | .geyTakeDone ..
  | .geyCkptDone .. => [.time, .fab, .ctrs, .out, .free] ++ ctxParts [.reasons, .coord]
  | .scrubSlot .. => Part.recorder ++ [.memory, .recov] ++ ctxParts [.reasons]
  | .telDown .. => Part.recorder ++ [.time, .fab, .tel, .out]
  | .takeoverStateTimeout .. | .probeTimeout .. => [.fab, .ctrs, .out, .free] ++ ctxParts [.pmap, .index, .coord]
  | .geyBind .. | .geyBindReply .. | .geyReseed .. => [.time, .fab, .ctrs, .out, .free] ++ ctxParts [.reasons, .gey]
  | .shardRto .. => Part.recorder ++ [.gey, .out] ++ ctxParts [.gey]
  | .railOvervoltage .. => Part.recorder ++ [.cal, .pwr] ++ ctxParts [.reasons]
  | .pcieFlr | .busMasterDisable | .hostHbTimeout | .pcieLinkDownTimeout => Part.recorder ++ [.mbx, .fab, .out] ++ ctxParts [.dumps]
  | .dieLinkFail .. => Part.recorder ++ [.fab, .recov, .out] ++ ctxParts [.faulted]
  | .interlockStuck .. => Part.recorder ++ [.fab, .pins, .out] ++ ctxParts [.coord]
  | .ckptTimeout .. => Part.recorder ++ [.fab, .gey, .out] ++ ctxParts [.gey]
  | .pwrCeiling .. => Part.recorder ++ [.pwr, .out, .free] ++ ctxParts [.reasons]
  | .phaseRetire .. => Part.recorder ++ [.cal, .pwr, .free] ++ ctxParts [.reasons]
  | .packetForward .. | .credit .. | .lsmFastRetrain .. | .lsmFullRetrain .. | .lsmWidth4 .. | .lsmSpare .. | .lsmGrant .. | .lsmDone ..
  | .nakRetry .. | .lossOfSignal .. | .laneCeLimit .. | .laneUeLimit .. | .portLcfTimeout .. | .fastRetrainTimeout .. | .alignDone ..
  | .heldExpiry .. | .heldSignalLoss .. | .pldmFullRetrain .. | .releaseHold .. =>
    Part.recorder ++ [.time, .fab, .ports, .out] ++ ctxParts [.faulted]
  | .probeReply .. => [.time, .fab, .ctrs, .out, .free] ++ ctxParts [.pmap, .index, .reasons, .coord]
  | .takeCopyComplete .. => Part.recorder ++ [.bytes, .fab, .out] ++ ctxParts [.stateSum, .gey]
  | .idAccept .. => Part.recorder ++ [.id, .flash, .fab, .ports, .out, .free]
  | .ident .. => Part.recorder ++ [.time, .flash, .fab, .ports, .out] ++ ctxParts [.faulted]
  | .sync .. | .followUp .. | .delayResp .. => Part.recorder ++ [.time, .fab, .out] ++ ctxParts [.pmap, .index, .coord]
  | .takeover .. | .probe .. => [.time, .fab, .pins, .ctrs, .out, .free] ++ ctxParts [.adopted, .coordLocus, .reasons, .coord]
  | .imgCommit .. => Part.recorder ++ [.cfg, .id, .flash, .fab, .ports, .out, .free]
  | .stepLaunch .. => Part.recorder ++ [.time, .pwr] ++ ctxParts [.launched, .cycleAtLaunch, .confirmed, .reasons, .exec]
  | .mma .. | .vec .. => Part.recorder ++ [.memory, .bytes, .fab, .recov, .out] ++ ctxParts [.faulted, .exec]
  | .tensorWrite .. => [.mbx, .memory, .bytes, .fab, .ctrs, .out, .free] ++ ctxParts [.reasons, .hostWrite, .pend, .gey]
  | .coordBeat .. => [.time, .fab, .cal, .pins, .ctrs, .out, .free] ++ ctxParts [.adopted, .coordLocus, .reasons, .coord]
  | .geyTake .. => [.time, .fab, .pins, .ctrs, .out, .free] ++ ctxParts [.adopted, .coordLocus, .reasons, .gey, .coord]
  | .slotSelect => Part.recorder ++ [.cfg, .id, .flash, .mbx, .ports, .pwr, .pins, .free]
  | .faultReport .. | .armed .. | .selfLost .. | .geyRestored .. =>
    Part.recorder ++ [.time, .fab, .out, .free] ++ ctxParts [.pmap, .index, .reasons, .coord]
  | .ctxArm .. => [.mbx, .fab, .out] ++ ctxParts [.st, .desc, .coordLocus, .committed, .step, .attempt, .records, .gey, .coord]
  | .drain .. => [.time, .fab, .pins, .ctrs, .out, .free] ++ ctxParts [.st, .adopted, .coordLocus, .reasons, .drainAt, .coord]
  | .routeBreakEffective .. => Part.recorder ++ [.fab, .ports, .out, .free] ++ ctxParts [.pmap, .index, .faulted, .coord]
  | .timeLcf .. => Part.recorder ++ [.time, .fab, .ports, .out] ++ ctxParts [.pmap, .index, .faulted, .coord]
  | .pmap .. => [.time, .fab, .pins, .ctrs, .out, .free] ++ ctxParts [.adopted, .coordLocus, .pmap, .pmapParts, .index, .reasons, .coord]
  | .restoreComplete .. =>
    [.memory, .bytes, .fab, .gey, .ctrs, .out, .free] ++ ctxParts [.committed, .step, .attempt, .reasons, .stateSum, .gey]
  | .ack .. => Part.recorder ++ [.time, .mbx, .fab, .pins, .out] ++ ctxParts [.pmap, .index, .reasons, .gey, .coord]
  | .runEntry .. => Part.recorder ++ [.id, .flash, .mbx, .memory, .clus, .fab, .ports, .recov, .tel, .pwr, .out]
  | .actionBoundExpiry .. => Part.recorder ++ [.memory, .bytes, .clus, .fab, .recov, .det, .pins, .out, .free] ++ ctxParts [.pend, .gey]
  | .comparatorRelease .. =>
    Part.recorder ++ [.memory, .bytes, .clus, .fab, .recov, .det, .pwr, .pins, .out, .free] ++ ctxParts [.pend, .gey]
  | .xposeJobComplete .. =>
    Part.recorder ++ [.memory, .bytes, .clus, .fab, .recov, .det, .pins, .out, .free] ++ ctxParts [.faulted, .reasons, .pend, .gey]
  | .telUp .. => Part.recorder ++ [.time, .memory, .bytes, .clus, .fab, .recov, .det, .tel, .pins, .out, .free] ++ ctxParts [.pend, .gey]
  | .move .. | .dma .. =>
    Part.recorder ++ [.memory, .bytes, .clus, .fab, .recov, .det, .pins, .out, .free] ++ ctxParts [.faulted, .reasons, .exec, .pend, .gey]
  | .tensorRead .. =>
    Part.recorder ++ [.mbx, .memory, .bytes, .clus, .fab, .recov, .det, .pins, .out, .free] ++ ctxParts [.faulted, .reasons, .pend, .gey]
  | .dataPacket .. =>
    Part.recorder ++ [.time, .memory, .bytes, .clus, .fab, .recov, .det, .pins, .out, .free] ++ ctxParts [.faulted, .reasons, .pend, .gey]
  | .operatorComplete .. =>
    Part.recorder ++ [.memory, .bytes, .clus, .fab, .recov, .det, .pins, .out, .free] ++ ctxParts [.faulted, .reasons, .exec, .pend, .dumps, .gey]
  | .dumpRequest .. =>
    Part.recorder ++ [.mbx, .memory, .bytes, .clus, .fab, .recov, .det, .pins, .out, .free] ++ ctxParts [.faulted, .reasons, .pend, .dumps, .gey]
  | .sampleLatch .. =>
    Part.recorder ++ [.time, .memory, .bytes, .clus, .fab, .recov, .det, .tel, .pwr, .pins, .out, .free] ++ ctxParts [.reasons, .pend, .gey]
  | .stepConfirmSend .. =>
    Part.recorder ++ [.memory, .bytes, .clus, .fab, .recov, .det, .tel, .pwr, .pins, .out, .free] ++ ctxParts [.confirmed, .confirmCycles, .exec, .pend, .gey]
  | .geyRestore .. =>
    [.time, .bytes, .clus, .fab, .gey, .evr, .pins, .ctrs, .out, .free] ++ ctxParts [.adopted, .coordLocus, .confirmed, .faulted, .reasons, .exec, .pend, .dumps, .gey, .coord]
  | .hangWindowExpiry .. =>
    (Part.module.filter (fun p => !([.cfg, .mbx, .gey, .pwr, .mgmt].contains p))) ++ ctxParts [.faulted, .reasons, .exec, .pend, .gey]
  | .reexec .. =>
    (Part.module.filter (fun p => !([.mbx, .cal, .gey, .tel, .mgmt].contains p))) ++ ctxParts [.adopted, .coordLocus, .step, .attempt, .launch, .launched, .cycleAtLaunch, .confirmed, .faulted, .reasons, .exec, .pend, .dumps, .gey, .coord]
  | .resume .. =>
    (Part.module.filter (fun p => !([.mbx, .cal, .gey, .tel, .mgmt].contains p))) ++ ctxParts [.st, .adopted, .coordLocus, .step, .attempt, .launch, .launched, .cycleAtLaunch, .confirmed, .faulted, .reasons, .exec, .pend, .gey, .coord]
  | .stepHold .. =>
    (Part.module.filter (fun p => !([.cal, .gey, .tel, .mgmt].contains p))) ++ ctxParts [.st, .adopted, .coordLocus, .step, .attempt, .launch, .launched, .confirmed, .faulted, .reasons, .holdRings, .tearRings, .exec, .pend, .dumps, .gey, .coord]
  | .start .. =>
    (Part.module.filter (fun p => !([.mbx, .cal, .gey, .tel, .mgmt].contains p))) ++ ctxParts [.st, .policy, .adopted, .coordLocus, .committed, .step, .attempt, .launch, .launched, .cycleAtLaunch, .confirmed, .reasons, .hostWrite, .records, .stateSum, .exec, .pend, .gey, .coord]
  | .commit .. =>
    (Part.module.filter (fun p => !([.cal, .gey, .mgmt].contains p))) ++ ctxParts [.st, .adopted, .coordLocus, .committed, .commitTick, .commitAttempt, .step, .attempt, .launch, .launched, .cycleAtLaunch, .confirmed, .faulted, .reasons, .hostWrite, .records, .stateSum, .holdRings, .tearRings, .exec, .pend, .dumps, .gey, .coord]
  | .ctxLoad .. | .ctxTeardown .. =>
    Part.recorder ++ [.mbx, .memory, .bytes, .clus, .fab, .recov, .det, .tel, .pwr, .pins, .out, .free] ++ ctxParts CtxField.every
  | .moduleLost .. | .drainEnd .. =>
    Part.recorder ++ [.time, .mbx, .memory, .bytes, .clus, .fab, .recov, .det, .tel, .pwr, .pins, .out, .free] ++ ctxParts CtxField.every
  | .send .. | .redUp .. | .redDown .. | .packetRelease | .geyCkpt .. | .shardData .. | .closeReply .. | .gwDownExpiry .. | .powerOn
  | .pgoodFall | .inputUndervoltage | .inputOvervoltage | .inputCollapse => Part.module ++ ctxParts CtxField.every

/-- The ring pair and opcode of a mailbox command (Table 5.14). -/
def Instr.mailboxOp : Instr → Option (Nat × Nat)
  | .identify n => some (n, 0x01)
  | .attach n => some (n, 0x02)
  | .ctxLoad n => some (n, 0x10)
  | .ctxArm n => some (n, 0x11)
  | .ctxHold n => some (n, 0x12)
  | .ctxResume n => some (n, 0x13)
  | .ctxTeardown n => some (n, 0x14)
  | .tensorWrite n => some (n, 0x20)
  | .tensorRead n _ => some (n, 0x21)
  | .dumpRequest n _ => some (n, 0x30)
  | .fingerprintGet n => some (n, 0x31)
  | .policySet n => some (n, 0x40)
  | .nop n => some (n, 0xFF)
  | _ => none

/-- The commands with which power comes or goes. -/
def Instr.powers : Instr → Bool
  | .powerOn | .pgoodFall | .inputUndervoltage | .inputOvervoltage | .inputCollapse => true
  | _ => false

/-- The commands in which the module may reset itself (R405): a recovery of level 4, RESET_N, MODULE_RESET. -/
def Instr.mayReset : Instr → Bool
  | .stepConfirmSend .. | .commit .. | .reexec .. | .moduleLost .. | .move .. | .send .. | .dma .. | .operatorComplete ..
  | .xposeJobComplete .. | .ctxLoad .. | .ctxTeardown .. | .tensorRead .. | .dumpRequest .. | .start .. | .resume .. | .drainEnd ..
  | .dataPacket .. | .redUp .. | .redDown .. | .telUp .. | .packetRelease | .hangWindowExpiry .. | .stepHold .. | .geyCkpt ..
  | .shardData .. | .closeReply .. | .gwDownExpiry .. | .sampleLatch .. | .comparatorRelease .. | .moduleReset .. | .resetNFall
  | .actionBoundExpiry .. => true
  | _ => false

end Sys2Proof
end

