-- ==== Sys2Proof/Certificates/Slice0/Obligations.lean ====
section
/-!
DEFINITION. The statements for the provers: what the module's commands do and leave alone, what every step keeps, and what reset leaves.
-/
section
open Sys2Proof Sys2Proof.Machine

/-! ### The block as a whole -/

/-- A step takes the command at the front of the queue and runs it on the state with the queue's rest; with none waiting local time advances
by one tick, and a fleet count that is held and not slewing by one (the tick on an empty queue is the model's choice, log 5). -/
def Obligations.StepRunsTheFrontCommand : Prop :=
  (∀ (c : Instr) (rest : List Instr) (s : State), step { s with pending := c :: rest } = exec c { s with pending := rest }) ∧
  (∀ s, s.pending = [] → ∃ t, step s = .next t ∧ t.time.loc = s.time.loc + 1 ∧ t.pending = [] ∧
    (s.time.st = 0 → t.time.fc = s.time.fc) ∧ (s.time.st ≠ 0 → s.time.residual = 0 → t.time.fc = (s.time.fc + 1) % 2 ^ 64) ∧
    onlyChanges s t [.time])

/-- Right after reset nothing waits, nothing has left the module, memory is canonical, Caldera is in BOOT, no fleet count is held, every
context is EMPTY, every port DARK, every event bit and counter 0, no outputs are driven. -/
def Obligations.ResetState : Prop :=
  State.reset.Inv ∧ State.reset.pending = [] ∧ State.reset.out = [] ∧ State.reset.id.cal = .boot ∧ State.reset.id.locus = none ∧
  State.reset.time.st = 0 ∧ (∀ x, (State.reset.ctx x).st = .empty) ∧ (∀ p, (State.reset.port p).st = .dark) ∧
  (∀ r i, State.reset.evBits r i = 0) ∧ (∀ c i, State.reset.ctr c i = 0) ∧ State.reset.mbx.enable = false ∧ State.reset.mbx.hostLoss = false ∧
  State.reset.mbx.ready = false ∧ State.reset.det.aligned = false ∧ State.reset.evr.log = [] ∧ State.reset.pins.pwrCycleReq = false ∧
  (∀ d, State.reset.dom d = .off)

/-- THE INVARIANT. Every step that goes on keeps module memory canonical. -/
def Obligations.EveryStepKeepsMemoryCanonical : Prop :=
  ∀ s t, step s = .next t → s.Inv → t.Inv

/-- Commands run first in, first out, and what has left the module is never taken back. -/
def Obligations.QueueIsFirstInFirstOut : Prop :=
  ∀ s t, step s = .next t → t.pending = s.pending.tail ∧ ∃ new, t.out = new ++ s.out

/-- THE FRAME. Every command that goes on changes no part of the module but those `Instr.touches` lists for it; a module reset (R405), which
only the commands of `Instr.mayReset` can bring, raises the start count. -/
def Obligations.CommandsTouchOnlyTheirParts : Prop :=
  ∀ c s t, exec c s = .next t → (c.mayReset = true → t.flash.starts = s.flash.starts) → onlyChanges s t c.touches

/-- No step undoes what is fused or counted: the ordering code, SEC_MIN, the start and boot counts, the fenced slots of the fault map. -/
def Obligations.NothingFusedIsUndone : Prop :=
  ∀ s t, step s = .next t → t.id.grade = s.id.grade ∧ s.flash.secMin ≤ t.flash.secMin ∧ s.flash.starts ≤ t.flash.starts ∧
    s.flash.boot ≤ t.flash.boot ∧ (∀ g k, k ∈ KMap.getD s.flash.fencedSlots g [] → k ∈ KMap.getD t.flash.fencedSlots g [])

/-- A command whose operands name units the module has never stops the module: it goes on, whatever the state. -/
def Obligations.WellFormedCommandsGoOn : Prop :=
  ∀ c s, c.wf = true → ∃ t, exec c s = .next t

/-- A command that names a unit the module does not have stops by name and does nothing else. -/
def Obligations.AbsentUnitsStop : Prop :=
  (∀ c n op, c.mailboxOp = some (n, op) → 4 ≤ n → ∀ s, exec c s = .fault (.noSuchUnit "mailbox ring pair")) ∧
  (∀ s p, 32 ≤ p → exec (.equaliseDone p) s = .fault (.noSuchUnit "fabric port")) ∧
  (∀ s p up, p < 32 ∨ 36 ≤ p → exec (.edgeLinkUp p up) s = .fault (.noSuchUnit "edge port")) ∧
  (∀ s x g o, 4096 ≤ g → exec (.operatorStart x o g) s = .fault (.noSuchUnit "context or cluster")) ∧
  (∀ s p, 16 ≤ p → exec (.partitionRefillDone p) s = .fault (.noSuchUnit "partition")) ∧
  (∀ s h c, 2 ≤ h → exec (.calHalfFault h c) s = .fault (.noSuchUnit "Caldera half")) ∧
  (∀ s g, g = 0 ∨ 6 ≤ g → exec (.railPowerGood g) s = .fault (.noSuchUnit "power-stage group"))

/-- R88: utilisation counters wrap, error counters saturate, whatever the state; counting one leaves the others. -/
def Obligations.ClusterCountersWrapOrSaturate : Prop :=
  ∀ (s : State) (g n : Nat), g < 4096 →
    (∀ c ∈ [Ctr.validBeats, .bubbleOperand, .bubbleAnchor, .bubblePad, .bubbleSlice, .vecResults],
      (s.bump c g n).ctr c g = (s.ctr c g + n) % 2 ^ 64) ∧
    (∀ c ∈ [Ctr.clCheckMismatch, .clSparseMeta],
      (s.bump c g n).ctr c g = if s.ctr c g + n < 2 ^ 16 then s.ctr c g + n else 2 ^ 16 - 1) ∧
    (∀ (c d : Ctr) k, k < 2 ^ 24 → (d ≠ c ∨ k ≠ g) → (s.bump c g n).ctr d k = s.ctr d k)

/-- R127: a duplicate of a command that changes the module is not executed: with the original's outcome in the cache it completes with that
status and RESULT, and without it waits; a duplicate of a read-only command is executed, and its completion carries DUPLICATE. -/
def Obligations.Duplicates : Prop :=
  (∀ c n op s a e o, c.mailboxOp = some (n, op) → n < 4 → (s.ring n).cur = some a → a.e.opcode = op → a.dup = true → readOnlyOp op = false →
    s.cached a.e.seq = some e → e.outcome = some o →
    ∃ t, exec c s = .next t ∧ completed s t n a o.1 o.2 ∧ t.ctxs = s.ctxs ∧ t.mem = s.mem ∧ t.fab = s.fab) ∧
  (∀ c n op s a e, c.mailboxOp = some (n, op) → n < 4 → (s.ring n).cur = some a → a.e.opcode = op → a.dup = true → readOnlyOp op = false →
    s.cached a.e.seq = some e → e.outcome = none → exec c s = .next s) ∧
  (∀ s n a, n < 4 → (s.ring n).cur = some a → a.e.opcode = 0x01 → a.dup = true → s.posts n = true →
    ∃ t, exec (.identify n) s = .next t ∧
      sentBetween s t (.hostWrite a.e.payloadAddr (fitBytes 4096 (s.identity ++ s.configDigest))) ∧
      sentBetween s t (.hostWrite ((s.ring n).cqBase + 16 * (s.ring n).cqTail)
        (completionBytes n a.e.seq 0 (s.ring n).phase true (s.ring n).head 0)))

/-! ### The mailbox (05) -/

/-- IDENTIFY answers the identity summary and the configuration digest in a 4 KiB payload; ATTACH ends a host loss; NOP completes;
FINGERPRINT_GET answers the settings fingerprint; POLICY_SET stores a host-loss policy for a LOADED or ARMED context. Contexts, memory and
identity are otherwise as they were. -/
def Obligations.HostQueriesComplete : Prop :=
  (∀ s n a, s.executes n 0x01 a → ∃ t, exec (.identify n) s = .next t ∧ completed s t n a 0 0 ∧
    (s.mbx.linkUp = true ∧ s.mbx.busMaster = true ∧ s.mbx.hostLoss = false →
      sentBetween s t (.hostWrite a.e.payloadAddr (fitBytes 4096 (s.identity ++ s.configDigest)))) ∧
    t.ctxs = s.ctxs ∧ t.mem = s.mem ∧ t.id = s.id ∧ t.mbx.hostLoss = s.mbx.hostLoss ∧ t.mbx.attached = s.mbx.attached) ∧
  (∀ s n a, s.executes n 0x02 a → ∃ t, exec (.attach n) s = .next t ∧
    completed (s.updMbx (fun m => { m with hostLoss := false, attached := true })) t n a 0
      (s.mbx.highSeq + b2n s.mbx.hostLoss * 2 ^ 32) ∧
    t.mbx.hostLoss = false ∧ t.mbx.attached = true ∧ t.mbx.highSeq = s.mbx.highSeq ∧ t.ctxs = s.ctxs ∧ t.mem = s.mem ∧ t.id = s.id) ∧
  (∀ s n a, s.executes n 0xFF a → ∃ t, exec (.nop n) s = .next t ∧ completed s t n a 0 0 ∧
    t.ctxs = s.ctxs ∧ t.mem = s.mem ∧ t.id = s.id ∧ t.fab = s.fab ∧ t.flash = s.flash) ∧
  (∀ s n a, s.executes n 0x31 a → a.e.ctx < 16 → ∃ t, exec (.fingerprintGet n) s = .next t ∧ completed s t n a 0 0 ∧
    (s.mbx.linkUp = true ∧ s.mbx.busMaster = true ∧ s.mbx.hostLoss = false → sentBetween s t (.hostWrite a.e.payloadAddr (s.fingerprint (some a.e.ctx)))) ∧
    t.ctxs = s.ctxs ∧ t.mem = s.mem ∧ t.id = s.id) ∧
  (∀ s n a, s.executes n 0x31 a → a.e.ctx = 0xFFFF → ∃ t, exec (.fingerprintGet n) s = .next t ∧ completed s t n a 0 0 ∧
    (s.mbx.linkUp = true ∧ s.mbx.busMaster = true ∧ s.mbx.hostLoss = false → sentBetween s t (.hostWrite a.e.payloadAddr (s.fingerprint none))) ∧
    t.ctxs = s.ctxs ∧ t.mem = s.mem ∧ t.id = s.id) ∧
  (∀ s n a, s.executes n 0x40 a → a.e.ctx < 16 → (s.ctx a.e.ctx).st = .loaded ∨ (s.ctx a.e.ctx).st = .armed →
    a.par 32 1 ≤ 2 ∨ a.par 32 1 = 0xFF → a.par 33 31 = 0 →
    ∃ t, exec (.policySet n) s = .next t ∧ completed s t n a 0 0 ∧
      t.ctx a.e.ctx = { s.ctx a.e.ctx with policySet := a.par 32 1 } ∧ (∀ y, y ≠ a.e.ctx → t.ctx y = s.ctx y) ∧
      t.mem = s.mem ∧ t.id = s.id)

/-- CTX_LOAD: the first of several parts sets the context LOADING with its mask and count and writes the part to HBM; a single part is checked
by the loader, and the context is LOADED with the program it reads or EMPTY with the reject code. CTX_ARM takes a good descriptor: the
context is ARMED for the job it names, ARMED with the descriptor's digest goes to the first coordinator module. -/
def Obligations.CtxLoadAndArmComplete : Prop :=
  (∀ s n a mask count off, s.executes n 0x10 a → a.e.ctx < 16 → s.id.unaccepted = false → (s.ctx a.e.ctx).st = .empty →
    mask = a.par 36 2 → count = a.par 34 2 → off = a.par 40 4 → a.par 32 2 = 0 → mask ≠ 0 → 1 ≤ count → count ≤ 16 → a.par 38 2 = 0 →
    a.payload.length ≠ 0 → off + partSize * (count - 1) + a.payload.length ≤ s.cfg.programSpace →
    (∀ y, y < 16 → y ≠ a.e.ctx → (s.ctx y).st = .empty ∨ (s.ctx y).mask &&& mask = 0) →
    (1 < count → ∃ t, exec (.ctxLoad n) s = .next t ∧ completed s t n a 0 0 ∧ (t.ctx a.e.ctx).st = .loading ∧
      (t.ctx a.e.ctx).mask = mask ∧ (t.ctx a.e.ctx).partCount = count ∧ (t.ctx a.e.ctx).received = [0] ∧
      (∀ y, y ≠ a.e.ctx → t.ctx y = s.ctx y) ∧
      (∀ q, q < hbmAddr ((maskParts mask).headD 0) off ∨ hbmAddr ((maskParts mask).headD 0) off + a.payload.length ≤ q → Memory.wf s.mem = true →
        t.byte q = s.byte q)) ∧
    (count = 1 → a.payload.length % 4096 = 0 → Memory.wf s.mem = true → (∀ r ∈ s.recov.repeats, r.ctx ≠ a.e.ctx) →
      (∀ r, loadImage a.payload mask s.cfg.programSpace = .inl r → ∃ t, exec (.ctxLoad n) s = .next t ∧ completed s t n a 6 (r.1 + r.2 * 2 ^ 16) ∧
        t.ctx a.e.ctx = Ctx.reset ∧ (∀ y, y ≠ a.e.ctx → t.ctx y = s.ctx y)) ∧
      (∀ p, loadImage a.payload mask s.cfg.programSpace = .inr p → ∃ t, exec (.ctxLoad n) s = .next t ∧ completed s t n a 0 0 ∧
        (t.ctx a.e.ctx).st = .loaded ∧ (t.ctx a.e.ctx).prog = some p.1 ∧ (t.ctx a.e.ctx).progDigest = p.2 ∧ (∀ y, y ≠ a.e.ctx → t.ctx y = s.ctx y)))) ∧
  (∀ s n a c, s.executes n 0x11 a → a.e.ctx < 16 → (s.ctx a.e.ctx).st = .loaded → 128 ≤ a.payload.length →
    s.armBad a.e.ctx (fitBytes 128 a.payload) = false → c = { s.ctx a.e.ctx with desc := fitBytes 128 a.payload } →
    ∃ t, exec (.ctxArm n) s = .next t ∧ completed s t n a 0 0 ∧ (t.ctx a.e.ctx).st = .armed ∧
      (t.ctx a.e.ctx).desc = fitBytes 128 a.payload ∧ (t.ctx a.e.ctx).coordLocus = c.coordA ∧ (t.ctx a.e.ctx).step = c.firstStep ∧
      (t.ctx a.e.ctx).committed = none ∧ (t.ctx a.e.ctx).prog = (s.ctx a.e.ctx).prog ∧
      ctrlSent s t c.coordA 0x01 0 0 (descDigest c.desc) ∧ ctrlSent s t c.coordA 0x42 0 0 (field c.jobId 32 32) ∧
      (c.buddyLocus ≠ s.locus → ctrlSent s t c.buddyLocus 0x40 0 0 (field c.jobId 32 32)) ∧ (∀ y, y ≠ a.e.ctx → t.ctx y = s.ctx y) ∧ t.mem = s.mem)

/-- CTX_HOLD of a RUNNING job waits for the boundary at its coordinator; CTX_RESUME sends RESUME to every participant of a HELD job;
CTX_TEARDOWN empties a context that has not started, waits for the boundary of a RUNNING one, and drains a HELD one. -/
def Obligations.CtxControlCompletes : Prop :=
  (∀ s n a, s.executes n 0x12 a → a.e.ctx < 16 → (s.ctx a.e.ctx).st = .running → (s.ctx a.e.ctx).coord.active = true →
    ∃ t, exec (.ctxHold n) s = .next t ∧ (t.ctx a.e.ctx).coord.holdReq = true ∧
      (t.ctx a.e.ctx).holdRings = (s.ctx a.e.ctx).holdRings ++ [n] ∧ (t.ring n).cur = some a ∧ t.out = s.out ∧
      (∀ y, y ≠ a.e.ctx → t.ctx y = s.ctx y) ∧ t.mem = s.mem) ∧
  (∀ s n a, s.executes n 0x13 a → a.e.ctx < 16 → (s.ctx a.e.ctx).st = .held → (s.ctx a.e.ctx).coord.active = true →
    ∃ t, exec (.ctxResume n) s = .next t ∧ completed s t n a 0 (s.launchCount (s.holdFloor a.e.ctx)) ∧
      (t.ctx a.e.ctx).coord.held = false ∧ (t.ctx a.e.ctx).coord.launch = s.launchCount (s.holdFloor a.e.ctx) ∧
      (∀ l ∈ (s.ctx a.e.ctx).pmap, ctrlSent s t l 0x08 ((s.ctx a.e.ctx).committed.elim (s.ctx a.e.ctx).firstStep nextStep)
        (if (s.ctx a.e.ctx).coord.stepHeld.isSome then ((s.ctx a.e.ctx).attempt + 1) % 16 else 0) (s.launchCount (s.holdFloor a.e.ctx) + field (s.ctx a.e.ctx).coord.epoch 32 160)) ∧
      (∀ y, y ≠ a.e.ctx → t.ctx y = s.ctx y) ∧ t.mem = s.mem) ∧
  (∀ s n a, s.executes n 0x14 a → a.e.ctx < 16 → (s.ctx a.e.ctx).st = .loading ∨ (s.ctx a.e.ctx).st = .loaded ∨ (s.ctx a.e.ctx).st = .armed → s.nothingWaits a.e.ctx →
    ∃ t, exec (.ctxTeardown n) s = .next t ∧ completed s t n a 0 0 ∧ t.ctx a.e.ctx = Ctx.reset ∧
      (∀ p ∈ maskParts (s.ctx a.e.ctx).mask, t.dom p = .off) ∧ (∀ y, y ≠ a.e.ctx → t.ctx y = s.ctx y) ∧ t.mem = s.mem) ∧
  (∀ s n a, s.executes n 0x14 a → a.e.ctx < 16 → (s.ctx a.e.ctx).st = .running → (s.ctx a.e.ctx).coord.active = true →
    ∃ t, exec (.ctxTeardown n) s = .next t ∧ (t.ctx a.e.ctx).coord.tearReq = true ∧
      (t.ctx a.e.ctx).tearRings = (s.ctx a.e.ctx).tearRings ++ [n] ∧ (t.ring n).cur = some a ∧ t.out = s.out) ∧
  (∀ s n a, s.executes n 0x14 a → a.e.ctx < 16 → (s.ctx a.e.ctx).st = .held → (s.ctx a.e.ctx).coord.active = true →
    ∃ t, exec (.ctxTeardown n) s = .next t ∧ completed s t n a 0 0 ∧ 
      (∀ l ∈ (s.ctx a.e.ctx).pmap, ctrlSent s t l 0x0A 0 0 (s.launchCount 0 + field (s.ctx a.e.ctx).coord.epoch 32 160)) ∧
      (t.ctx a.e.ctx).st = .held)

/-- TENSOR_WRITE of whole blocks of a HOST_IO tensor that need no buddy completes with their number; EVERY BYTE of module memory then reads as
the payload inside the tensor's range and as before outside it. With a buddy bound in ARMED or HELD it waits for the buddy's
acknowledgement: nothing is completed yet. TENSOR_READ sends the committed bytes of the blocks asked for, when every block's record is
good, and completes with their number. DUMP_REQUEST for a step to come is held with the next handle, which is its RESULT. -/
def Obligations.TensorTransfersAndDumpsComplete : Prop :=
  (∀ s n a d k, s.executes n 0x20 a → a.e.ctx < 16 → (s.ctx a.e.ctx).st = .loaded ∨ (s.ctx a.e.ctx).st = .armed ∨ (s.ctx a.e.ctx).st = .held →
    (s.ctx a.e.ctx).tensor (a.par 32 4) = some d → d.hostIo = true → d.base % 4096 = 0 → a.payload.length = 4096 * k →
    a.par 36 4 + k ≤ d.blocks → Memory.wf s.mem = true →
    ∃ t, exec (.tensorWrite n) s = .next t ∧ (t.ctx a.e.ctx).hostWrite = true ∧
      (∀ q, t.byte q = if d.blockAddr (a.par 36 4) ≤ q ∧ q < d.blockAddr (a.par 36 4) + 4096 * k
        then a.payload.getD (q - d.blockAddr (a.par 36 4)) 0#8 else s.byte q) ∧
      ((s.ctx a.e.ctx).st = .loaded ∨ d.persistent = false ∨ (s.ctx a.e.ctx).gey.bound = false → completed s t n a 0 k) ∧
      ((s.ctx a.e.ctx).st ≠ .loaded → d.persistent = true → (s.ctx a.e.ctx).gey.bound = true → 0 < k → t.mbx = s.mbx)) ∧
  (∀ s n a d, s.executes n 0x21 a → a.e.ctx < 16 → (s.ctx a.e.ctx).st = .loaded ∨ (s.ctx a.e.ctx).st = .armed ∨ (s.ctx a.e.ctx).st = .held ∨
      ((s.ctx a.e.ctx).st = .running ∧ d.persistent = true) →
    (s.ctx a.e.ctx).tensor (a.par 32 4) = some d → d.hostIo = true → a.par 36 4 + a.e.payloadLen / 4096 ≤ d.blocks →
    (∀ b, a.par 36 4 ≤ b → b < a.par 36 4 + a.e.payloadLen / 4096 → (s.checkAt (d.blockAddr b)).poison = false ∧
      (s.checkAt (d.blockAddr b)).fails ((s.ctx a.e.ctx).codeAt (d.blockAddr b)) (s.readBytes (blockOf (d.blockAddr b)) 4096) = 0) →
    ∃ t, exec (.tensorRead n .good) s = .next t ∧ completed s t n a 0 (a.e.payloadLen / 4096) ∧
      (s.mbx.linkUp = true ∧ s.mbx.busMaster = true ∧ s.mbx.hostLoss = false → sentBetween s t (.hostWrite a.e.payloadAddr
        (((List.range (a.e.payloadLen / 4096)).map (fun i => s.readBytes (blockOf (d.blockAddr (a.par 36 4 + i))) 4096)).flatten))) ∧
      (∀ y, y ≠ a.e.ctx → t.ctx y = s.ctx y) ∧ (t.ctx a.e.ctx).pend = (s.ctx a.e.ctx).pend ∧ t.mem = s.mem) ∧
  (∀ s n a list td bufs, s.executes n 0x30 a → a.e.ctx < 16 → (s.ctx a.e.ctx).st = .loaded → (s.ctx a.e.ctx).committed ≠ some (a.par 36 6) →
    (s.ctx a.e.ctx).tensor (a.par 32 4) = some td → dumpBuffers list = some bufs → (s.ctx a.e.ctx).dumps.length < 16 →
    a.par 42 1 = 0 → a.par 43 1 = 0 → a.par 44 4 = 0 → a.par 56 8 = 0 → a.par 48 8 % 4096 = 0 →
    ∃ t, exec (.dumpRequest n list) s = .next t ∧ completed s t n a 0 (s.mbx.dumpSeq % 2 ^ 32) ∧ t.mbx.dumpSeq = s.mbx.dumpSeq + 1 ∧
      (∃ d : Dump, (t.ctx a.e.ctx).dumps = (s.ctx a.e.ctx).dumps ++ [d] ∧ d.handle = s.mbx.dumpSeq % 2 ^ 32 ∧ d.tensorId = a.par 32 4 ∧
        d.step = a.par 36 6 ∧ d.afterOp = none ∧ d.listAddr = a.par 48 8 ∧ d.buffers = bufs ∧ d.captured = false) ∧
      (∀ y, y ≠ a.e.ctx → t.ctx y = s.ctx y) ∧ t.mem = s.mem)

/-- COMMAND_ACCEPT on an idle pair that may fetch (R125 to R128): a new sequence number is accepted and starts; one in the cache is a
duplicate and moves nothing; a stale one ends with SEQ_STALE, a payload that fails its CRC with PAYLOAD_CRC, and neither enters the cache
nor moves H. A pair that may not fetch fetches nothing. The mailbox's registers: a doorbell latches the tail, RING_EN and ENABLE their
bit, HEARTBEAT its value, CQ_HEAD frees the slots consumed; a write to an offset without a register changes nothing (R123). -/
def Obligations.MailboxAcceptsAndItsRegisters : Prop :=
  (∀ s n e p, n < 4 → s.mayFetch n = true → (s.ring n).cur = none →
    (e.flags.testBit 0 = true → e.flags.testBit 1 = true ∨ (crc32c p).toNat = e.payloadCrc) → e.opcode ≠ 0x02 → s.cached e.seq = none →
    serialNewer 32 e.seq s.mbx.highSeq = true → entryRefusal e = none →
    ∃ t, exec (.commandAccept n e p) s = .next t ∧ (t.ring n).cur = some ⟨e, false, none, p⟩ ∧
      (t.ring n).head = ((s.ring n).head + 1) % (s.ring n).size ∧ t.mbx.highSeq = e.seq % 2 ^ 32 ∧
      t.mbx.cache.head? = some { seq := e.seq, opcode := e.opcode, outcome := none } ∧ t.out = s.out ∧
      (∀ m, m ≠ n → t.ring m = s.ring m)) ∧
  (∀ s n e p c, n < 4 → s.mayFetch n = true → (s.ring n).cur = none →
    (e.flags.testBit 0 = true → e.flags.testBit 1 = true ∨ (crc32c p).toNat = e.payloadCrc) → e.opcode ≠ 0x02 → s.cached e.seq = some c →
    ∃ t, exec (.commandAccept n e p) s = .next t ∧ (t.ring n).cur = some ⟨e, true, none, p⟩ ∧ t.mbx.highSeq = s.mbx.highSeq ∧
      t.mbx.cache = s.mbx.cache ∧ t.out = s.out) ∧
  (∀ s n e p, n < 4 → s.mayFetch n = true → (s.ring n).cur = none →
    (e.flags.testBit 0 = true → e.flags.testBit 1 = true ∨ (crc32c p).toNat = e.payloadCrc) → e.opcode ≠ 0x02 → s.cached e.seq = none →
    serialNewer 32 e.seq s.mbx.highSeq = false →
    ∃ t, exec (.commandAccept n e p) s = .next t ∧ (t.ring n).cur = none ∧ t.mbx.highSeq = s.mbx.highSeq ∧
      (t.mbx.cache.map SeqEntry.seq) = s.mbx.cache.map SeqEntry.seq) ∧
  (∀ s n e p, n < 4 → s.mayFetch n = true → (s.ring n).cur = none → e.flags.testBit 0 = true → e.flags.testBit 1 = false →
    (crc32c p).toNat ≠ e.payloadCrc →
    ∃ t, exec (.commandAccept n e p) s = .next t ∧ (t.ring n).cur = none ∧ t.mbx.highSeq = s.mbx.highSeq ∧
      (t.mbx.cache.map SeqEntry.seq) = s.mbx.cache.map SeqEntry.seq) ∧
  (∀ s n e p, n < 4 → s.mayFetch n = false → exec (.commandAccept n e p) s = .next s) ∧
  (∀ s n tail, n < 4 → ∃ t, exec (.sqDoorbell n tail) s = .next t ∧ t.ring n = { s.ring n with tail := tail % 4096 } ∧
    (∀ m, m ≠ n → t.ring m = s.ring m)) ∧
  (∀ s n en, n < 4 → ∃ t, exec (.ringEnWrite n en) s = .next t ∧ t.ring n = { s.ring n with en := en } ∧ (∀ m, m ≠ n → t.ring m = s.ring m)) ∧
  (∀ s en, ∃ t, exec (.mbxEnableWrite en) s = .next t ∧ t.mbx.enable = en ∧ t.mbx.rings = s.mbx.rings ∧ t.mbx.highSeq = s.mbx.highSeq) ∧
  (∀ s n head, n < 4 → (s.ring n).stalled = [] → ∃ t, exec (.cqHeadWrite n head) s = .next t ∧ (t.ring n).cqHead = head % 4096 ∧
    (t.ring n).cqUsed = (s.ring n).cqUsed -
      min (s.ring n).cqUsed ((head % (s.ring n).size + (s.ring n).size - (s.ring n).cqHead % (s.ring n).size) % (s.ring n).size) ∧
    (∀ m, m ≠ n → t.ring m = s.ring m) ∧ t.out = s.out) ∧
  (∀ s v, ∃ t, exec (.mbxHeartbeat v) s = .next t ∧ t.mbx = { s.mbx with heartbeat := v % 2 ^ 32 }) ∧
  (∀ s v, ∃ t, exec (.registerWrite 0x00C v) s = .next t ∧ t.mbx = { s.mbx with heartbeat := v % 2 ^ 32 } ∧ t.evts = s.evts) ∧
  (∀ s n v, n < 4 → ∃ t, exec (.registerWrite (0x1000 + 0x40 * n) v) s = .next t ∧
    t.ring n = { s.ring n with sqBase := v % 2 ^ 64 / 4096 * 4096 } ∧ (∀ m, m ≠ n → t.ring m = s.ring m)) ∧
  (∀ s g v, g < 4096 → ∃ t, exec (.registerWrite (0x100000 + 4 * g) v) s = .next t ∧
    (t.evBits .clStatus g).testBit 30 = ((s.evBits .clStatus g).testBit 30 && !v.testBit 30) ∧
    (t.evBits .clStatus g).testBit 28 = (s.evBits .clStatus g).testBit 28 ∧ t.mbx = s.mbx) ∧
  (∀ s off v, 0x104040 ≤ off → exec (.registerWrite off v) s = .next s)

/-- The resets of PCIe leave contexts, sequence numbers, HOST_LOSS, READY and accepted entries; they disable and clear the pairs (R124, R126,
R128). Losses of the host set HOST_LOSS and clear ATTACHED; a FLR of PF1 touches only PF1's endpoint. -/
def Obligations.PcieResets : Prop :=
  (∀ c, c = .pcieHotReset ∨ c = .pcieLinkDown → ∀ s, ∃ t, exec c s = .next t ∧ t.mbx.enable = false ∧ t.mbx.attached = false ∧
    t.mbx.heartbeat = 0 ∧ t.mbx.highSeq = s.mbx.highSeq ∧ t.mbx.cache = s.mbx.cache ∧ t.mbx.hostLoss = s.mbx.hostLoss ∧
    t.mbx.ready = s.mbx.ready ∧ (c = .pcieLinkDown → t.mbx.linkUp = false ∧ t.mbx.linkDownAt = some s.time.loc) ∧
    (∀ n, n < 4 → (t.ring n).en = false ∧ (t.ring n).head = 0 ∧ (t.ring n).tail = 0 ∧
      (t.ring n).cur = ((s.ring n).cur.orElse (fun _ => (s.ring n).ahead.filter (fun a => a.forced.isNone))))) ∧
  (∀ c, c = .pcieFlr ∨ c = .busMasterDisable → ∀ s, ∃ t, exec c s = .next t ∧ t.mbx.hostLoss = true ∧ t.mbx.attached = false ∧
    t.mbx.busMaster = false ∧ t.mbx.highSeq = s.mbx.highSeq ∧ (∀ y, y < 16 → (t.ctx y).dumps = [] ∧ (t.ctx y).st = (s.ctx y).st)) ∧
  (∀ s, s.mbx.attached = true → ∃ t, exec .hostHbTimeout s = .next t ∧ t.mbx.hostLoss = true ∧ t.mbx.attached = false ∧
    t.mbx.rings = s.mbx.rings ∧ (∀ y, y < 16 → (s.ctx y).st = .running → ctrlSent s t (s.ctx y).coordLocus 0x09 0 0 s.now)) ∧
  (∀ s, s.mbx.attached = false → exec .hostHbTimeout s = .next s) ∧
  (∀ s, s.mbx.linkUp = false → ∃ t, exec .pcieLinkDownTimeout s = .next t ∧ t.mbx.hostLoss = true ∧ t.mbx.attached = false ∧
    (∀ y, y < 16 → (s.ctx y).st = .armed → ctrlSent s t (s.ctx y).coordLocus 0x09 0 0 s.now)) ∧
  (∀ s, s.mbx.linkUp = true → exec .pcieLinkDownTimeout s = .next s) ∧
  (∀ s, ∃ t, exec .pf1Flr s = .next t ∧ t.mgmt.eidVdm = 0 ∧ t.mgmt.eidI3c = s.mgmt.eidI3c ∧ t.mgmt.i3cAddr = s.mgmt.i3cAddr ∧
    t.mgmt.sessions = s.mgmt.sessions.filter (fun x => x.binding != 1))

/-! ### The life of a step (01, 09, 10, 12) -/

/-- STEP_LAUNCH: a RUNNING context whose step waits for launch count L launches at L: launched, not confirmed, at the level the module then
has, its partitions' domains on, CYCLE-repeatability lost where L had passed (R27). A context that has launched does nothing.
STEP_CONFIRM_SEND: when the conditions of R22 hold the attempt is confirmed, and STEP_CONFIRM of the step and attempt goes to the
coordinator; otherwise nothing happens, so a confirmation goes once per attempt. -/
def Obligations.StepsLaunchAndConfirmOnce : Prop :=
  (∀ s x l, (s.ctx x).st = .running → (s.ctx x).launched = false → (s.ctx x).launch = some l → s.fcHeld = true → s.pins.latchedOff = false →
    (s.pins.pwrCycleReq = true → s.cal.owner ≠ none) →
    ∃ t, exec (.stepLaunch x) s = .next t ∧ (t.ctx x).launched = true ∧ (t.ctx x).confirmed = false ∧ (t.ctx x).cycleAtLaunch = s.isCycle ∧
      (t.ctx x).exec = { Exec.reset with launchAt := t.now } ∧ (t.ctx x).step = (s.ctx x).step ∧ (t.ctx x).attempt = (s.ctx x).attempt ∧
      (t.ctx x).reasons.testBit 0 = ((s.ctx x).reasons.testBit 0 || decide (l < s.time.fc)) ∧ l ≤ t.time.fc ∧
      (∀ p ∈ maskParts (s.ctx x).mask, t.dom p = .on) ∧ (∀ y, y ≠ x → t.ctx y = s.ctx y) ∧ t.mem = s.mem ∧ t.out = s.out) ∧
  (∀ s x, (s.ctx x).launched = true → exec (.stepLaunch x) s = .next s) ∧
  (∀ s x, (s.ctx x).mayConfirm s.locus = true → (s.ctx x).exec.firstUp ≠ none → ∃ t, exec (.stepConfirmSend x) s = .next t ∧
    (t.ctx x).confirmed = true ∧ ctrlSent s t (s.ctx x).coordLocus 0x04 (s.ctx x).step (s.ctx x).attempt 0 ∧
    (t.ctx x).step = (s.ctx x).step ∧ (t.ctx x).pend = (s.ctx x).pend ∧ (∀ y, y ≠ x → t.ctx y = s.ctx y) ∧ t.mem = s.mem) ∧
  (∀ s x, (s.ctx x).mayConfirm s.locus = true → ∃ t, exec (.stepConfirmSend x) s = .next t ∧ (t.ctx x).confirmed = true) ∧
  (∀ s x, (s.ctx x).confirmed = true → exec (.stepConfirmSend x) s = .next s)

/-- At the coordinator: a confirmation is recorded with its stamp, and the last of them sends COMMIT with the next launch count (or HOLD) to
every participant (R23); at the deadline each missing participant is probed (R24, R286); the first fault report of an attempt collects for
re-execution, or holds the job when its kind is PROGRAM (R25, R281); REEXEC goes to every participant with the next attempt. -/
def Obligations.CoordinatorRulesOfAStep : Prop :=
  (∀ s h x, s.coordinates h x → (s.ctx x).coord.step = h.step → (s.ctx x).coord.attempt = h.attempt →
    (∃ l ∈ (s.ctx x).pmap, l ≠ h.src ∧ KMap.find (s.ctx x).coord.confirms l = none) →
    ∃ t, exec (.stepConfirm h) s = .next t ∧ KMap.find (t.ctx x).coord.confirms h.src = some h.stamp ∧ (t.ctx x).coord.step = h.step ∧
      (∀ l, l ≠ h.src → KMap.find (t.ctx x).coord.confirms l = KMap.find (s.ctx x).coord.confirms l) ∧
      (∀ y, y ≠ x → (t.ctx y).coord = (s.ctx y).coord) ∧ t.mem = s.mem) ∧
  (∀ s h x hold, s.coordinates h x → (s.ctx x).coord.step = h.step → (s.ctx x).coord.attempt = h.attempt → h.src ∈ (s.ctx x).pmap →
    h.stamp ≤ (s.ctx x).coord.deadline →
    (∀ l ∈ (s.ctx x).pmap, l ≠ h.src → ∃ c, KMap.find (s.ctx x).coord.confirms l = some c ∧ c ≤ (s.ctx x).coord.deadline) → reportWaits s.pending h.step h.stamp = false →
    (s.ctx x).coord.started = true → (s.ctx x).coord.held = false → (s.atEffect h).mayIssue x = true → (s.ctx x).coord.reports = [] →
    (s.ctx x).coord.collecting = none → (s.ctx x).coord.takeover = none → (s.ctx x).coord.hostLoss = none →
    hold = ((s.ctx x).coord.holdReq || (s.ctx x).coord.tearReq || h.step == 2 ^ 48 - 1) →
    ∃ t, exec (.stepConfirm h) s = .next t ∧ (t.ctx x).coord.step = nextStep h.step ∧ (t.ctx x).coord.attempt = 0 ∧
      (t.ctx x).coord.confirms = [] ∧ (t.ctx x).coord.held = hold ∧
      (∀ l ∈ (s.ctx x).pmap, ctrlSent s t l 0x03 h.step h.attempt
        (field (if hold then 0 else (s.atEffect h).launchCount 0) 64 0 + field (b2n hold) 1 64 + field (s.ctx x).coord.epoch 32 160))) ∧
  (∀ s x, (s.ctx x).coord.started = true → (s.ctx x).coord.held = false → s.mayIssue x = true → (s.ctx x).coord.reports = [] →
    (s.ctx x).coord.collecting = none → ∃ t, exec (.commitDeadline x) s = .next t ∧ (t.ctx x).coord.step = (s.ctx x).coord.step ∧
      (∀ l ∈ (s.ctx x).pmap, KMap.find (s.ctx x).coord.confirms l = none →
        ctrlSent s t l 0x63 (s.ctx x).coord.step (s.ctx x).coord.attempt (field (s.ctx x).coord.epoch 32 160)) ∧
      (∀ y, y ≠ x → t.ctx y = s.ctx y) ∧ t.mem = s.mem) ∧
  (∀ s h f x, s.coordinates h x → (s.ctx x).coord.step = h.step → (s.ctx x).coord.attempt = h.attempt → (s.ctx x).coord.held = false →
    (s.ctx x).coord.reports = [] →
    (f.kind ≠ 5 → (s.ctx x).coord.failed < 13 → (s.ctx x).coord.failed + 1 < s.cfg.reexecLimit →
      ∃ t, exec (.faultReport h f) s = .next t ∧ (t.ctx x).coord.reports = [(h.src, f.source)] ∧
        (t.ctx x).coord.failed = (s.ctx x).coord.failed + 1 ∧ (t.ctx x).coord.collecting ≠ none ∧ t.mem = s.mem) ∧
    (f.kind = 5 → (s.atEffect h).mayIssue x = true → ∃ t, exec (.faultReport h f) s = .next t ∧ (t.ctx x).coord.held = true ∧
      (∀ l ∈ (s.ctx x).pmap, ctrlSent s t l 0x65 h.step h.attempt (1 + field (s.ctx x).coord.epoch 32 160)) ∧ t.mem = s.mem)) ∧
  (∀ s x, (s.ctx x).coord.collecting ≠ none → s.mayIssue x = true → (s.ctx x).coord.held = false →
    ∃ t, exec (.reexecCollect x) s = .next t ∧ (t.ctx x).coord.attempt = ((s.ctx x).coord.attempt + 1) % 16 ∧
      (t.ctx x).coord.step = (s.ctx x).coord.step ∧ (t.ctx x).coord.launch = s.launchCount (s.ctx x).coord.ready ∧
      (t.ctx x).coord.collecting = none ∧ (∀ l ∈ (s.ctx x).pmap, ctrlSent s t l 0x06 (s.ctx x).coord.step (((s.ctx x).coord.attempt + 1) % 16)
        (s.launchCount (s.ctx x).coord.ready + field (s.ctx x).coord.epoch 32 160)) ∧ (∀ y, y ≠ x → t.ctx y = s.ctx y) ∧ t.mem = s.mem)

/-- COMMIT(N) at a participant, with no action due at the boundary and no dump of the job: step N is committed with its stamp, the context
waits for N + 1 at the launch count or is HELD, nothing is pending; EVERY BYTE of memory outside the pending blocks reads as before, and a
block's bytes where one pending block covers them (R23, R307). -/
def Obligations.CommitSwitchesTheCopy : Prop :=
  ∀ s h launch hold epoch x, s.serves h epoch x → (s.ctx x).st = .running → (s.ctx x).committed ≠ some h.step → (s.ctx x).step = h.step →
    (s.ctx x).dumps = [] → s.quiet → Memory.wf s.mem = true →
    ∃ t, exec (.commit h launch hold epoch) s = .next t ∧ (t.ctx x).committed = some h.step ∧ (t.ctx x).commitTick = h.stamp ∧
      (t.ctx x).step = nextStep h.step ∧ (t.ctx x).attempt = 0 ∧ (t.ctx x).pend = [] ∧ (t.ctx x).confirmed = false ∧
      (hold = true → (s.ctx x).tearRings = [] → (t.ctx x).st = .held ∧ (t.ctx x).launch = none) ∧
      (hold = false → (t.ctx x).st = .running ∧ (t.ctx x).launch = some launch) ∧
      (∀ y, y ≠ x → (t.ctx y).pend = (s.ctx y).pend ∧ (t.ctx y).committed = (s.ctx y).committed) ∧
      (∀ q, (∀ e ∈ (s.ctx x).pend, q < e.1 ∨ e.1 + e.2.bytes.length ≤ q) → t.byte q = s.byte q) ∧
      (∀ e, (s.ctx x).pend = [e] → ∀ q, e.1 ≤ q → q < e.1 + e.2.bytes.length → t.byte q = e.2.bytes.getD (q - e.1) 0#8)

/-- REEXEC(N) at a participant discards what is pending and waits for the new launch with the new attempt (R25, R307); MODULE_LOST empties the
lost module's context, puts the spare RUNNING or HELD before step N, and makes every other participant discard and name the spare. -/
def Obligations.ReexecutionAndLoss : Prop :=
  (∀ s h launch epoch x, s.serves h epoch x → (s.ctx x).st = .running → (s.ctx x).committed ≠ some h.step →
    ¬((s.ctx x).step = h.step ∧ (s.ctx x).attempt = h.attempt ∧ (s.ctx x).launch = some launch) → s.quiet →
    ∃ t, exec (.reexec h launch epoch) s = .next t ∧ (t.ctx x).step = h.step ∧ (t.ctx x).attempt = h.attempt % 16 ∧
      (t.ctx x).launch = some launch ∧ (t.ctx x).pend = [] ∧ (t.ctx x).confirmed = false ∧ (t.ctx x).faulted = false ∧
      (t.ctx x).committed = (s.ctx x).committed ∧ (t.ctx x).st = .running ∧ (∀ y, y ≠ x → (t.ctx y).pend = (s.ctx y).pend ∧ (t.ctx y).step = (s.ctx y).step)) ∧
  (∀ s h launch epoch x, s.serves h epoch x → (s.ctx x).committed = some h.step → ∃ t, exec (.reexec h launch epoch) s = .next t ∧
    (t.ctx x).step = (s.ctx x).step ∧ (t.ctx x).attempt = (s.ctx x).attempt ∧ (t.ctx x).pend = (s.ctx x).pend ∧ t.mem = s.mem) ∧
  (∀ s h spare epoch x, s.serves h epoch x → ∃ t, exec (.moduleLost h s.locus spare epoch) s = .next t ∧ t.ctx x = Ctx.reset) ∧
  (∀ s h lost epoch x, s.serves h epoch x → lost ≠ s.locus → (s.ctx x).st = .armed →
    ∃ t, exec (.moduleLost h lost s.locus epoch) s = .next t ∧ ((t.ctx x).st = .running ∨ (t.ctx x).st = .held) ∧ (t.ctx x).step = h.step ∧
      (t.ctx x).committed = some (prevStep h.step) ∧ (t.ctx x).launch = none ∧ (t.ctx x).gey.bound = false ∧
      (t.ctx x).pmap = insertAsc s.locus ((s.ctx x).pmap.filter (· != lost)) ∧ t.mem = s.mem) ∧
  (∀ s h lost spare epoch x, s.serves h epoch x → lost ≠ s.locus → spare ≠ s.locus →
    ∃ t, exec (.moduleLost h lost spare epoch) s = .next t ∧ (t.ctx x).pend = [] ∧ (t.ctx x).st = (s.ctx x).st ∧
      (t.ctx x).pmap = insertAsc spare ((s.ctx x).pmap.filter (· != lost)) ∧ (∀ y, y ≠ x → (t.ctx y).pend = (s.ctx y).pend) ∧
      ((s.ctx x).gey.buddy = lost → (t.ctx x).gey.buddy = spare ∧ (t.ctx x).gey.bound = false))

/-! ### Core commands, operators and memory engines (02 to 05) -/

/-- R249: a dense tile pass without disturbance passes its check column, whatever the elements; and flipping bits of the sum of any one cell
of a pass that passed makes the comparison fail. -/
def Obligations.CheckColumnCatchesEveryCell : Prop :=
  (∀ (t : Tile) fa fb r anchor k, (t.aRows.getD r []).length = k → (∀ b ∈ t.bCols, b.length = k) →
    checkDetail ((List.range t.bCols.length).map (fun j => t.cell 0 fa fb r j anchor)) (t.check 0 fa fb r anchor) = none) ∧
  (∀ (cells : List Window) chk (w : Window) l₁ l₂ mask, cells = l₁ ++ w :: l₂ → checkDetail cells chk = none → mask % 2 ^ 96 ≠ 0 →
    checkDetail (l₁ ++ w.upset mask :: l₂) chk ≠ none)

/-- ANCH: each row of the share has the anchor of the largest bound found so far, one command of the slot has retired, and rows not in the
share and every other context are as they were. MMA: with every row's anchor loaded, a pass without violation, mismatch or bad metadata
stores its converted outputs in the core's near store and no other byte; a raw pass keeps its windows for SEND; a row that fails its check
reports a fault. -/
def Obligations.AnchorAndTilePassesComplete : Prop :=
  (∀ s c o share, s.runsOn c o → (share.rows.map Prod.fst).Nodup → ∃ t, exec (.anch c share) s = .next t ∧
    (∀ e ∈ share.rows, KMap.find (t.ctx c.ctx).exec.anchors (rowKey c.opId e.1) = some (anchorOf (maxBound
      (KMap.getD (s.ctx c.ctx).exec.bounds (rowKey c.opId e.1) none)
      (rowBound o ((s.ctx c.ctx).inFormat o 0) ((s.ctx c.ctx).inFormat o 1) e.2 share.partners)))) ∧
    (∀ k, (∀ e ∈ share.rows, k ≠ rowKey c.opId e.1) → KMap.find (t.ctx c.ctx).exec.anchors k = KMap.find (s.ctx c.ctx).exec.anchors k) ∧
    t.ctr .retired (physCore (coreCluster c.core) c.slot) = (s.ctr .retired (physCore (coreCluster c.core) c.slot) + 1) % 2 ^ 48 ∧
    (∀ y, y ≠ c.ctx → t.ctx y = s.ctx y) ∧ t.mem = s.mem ∧ t.out = s.out) ∧
  (∀ s c o (tile : Tile) fa fb (anchor : Nat → Int) (cells : Nat → List Window) (chk : Nat → Window) (k : Ctx),
    s.runsOn c o → o.kind = .mma → k = s.ctx c.ctx → fa = k.inFormat o 0 → fb = k.inFormat o 1 →
    (∀ r, r < tile.aRows.length → k.anchorFor o (64 * tile.blockRow + c.core / 16 % 16 * 4 + r) = some (anchor r)) →
    (∀ r, cells r = (List.range tile.bCols.length).map (fun j => tile.disturb r j (tile.cell o.sparse fa fb r j (anchor r)))) →
    (∀ r, chk r = tile.disturb r 4 (tile.check o.sparse fa fb r (anchor r))) → tile.badNibble o.sparse = false →
    (∀ r, r < tile.aRows.length → o.anchorSrc = 2 ∨ boundExceeds (maxBounds ((List.range tile.bCols.length).map (fun j => maxBounds
      ((tile.pairs o.sparse r j).map (fun p => pairBound o.anchorSrc fa fb p.1.elem p.2.elem))))) (anchor r) = false) →
    ((∀ r, r < tile.aRows.length → checkDetail (cells r) (chk r) = none) → tile.raw = true → ∃ t, exec (.mma c tile) s = .next t ∧
      KMap.find (t.ctx c.ctx).exec.raw c.core =
        some (((List.range tile.aRows.length).map (fun r => (cells r).zipIdx.map (fun w => (r, w.2, w.1)) ++ [(r, 4, chk r)])).flatten) ∧
      t.mem = s.mem ∧ t.out = s.out) ∧
    (∀ outs : List (Nat × Bool), (∀ r, r < tile.aRows.length → checkDetail (cells r) (chk r) = none) → tile.raw = false → isMx o.outFormat = false →
      outs = ((List.range tile.aRows.length).map (fun r => (cells r).zipIdx.map (fun w => convOut o.outFormat (rmodeOf o.round k.seed k.step o.output
        ((64 * tile.blockRow + c.core / 16 % 16 * 4 + r) * ((k.tensor o.output).map Tensor.lastExt).getD 1 + (64 * tile.blockCol + c.core % 16 * 4) + w.2))
        o.infMode w.1.val))).flatten →
      tile.nearOff + (packElems o.outFormat (outs.map Prod.fst)).length ≤ nearSize → s.mem.nsPoison = [] → Memory.wf s.mem = true →
      ∃ t, exec (.mma c tile) s = .next t ∧ bytesStored s t (nearAddr c.core tile.nearOff) (packElems o.outFormat (outs.map Prod.fst)) ∧ t.out = s.out ∧
        (t.ctx c.ctx).faulted = (s.ctx c.ctx).faulted) ∧
    (∀ r, r < tile.aRows.length → checkDetail (cells r) (chk r) ≠ none → ∃ t, exec (.mma c tile) s = .next t ∧ (t.ctx c.ctx).faulted = true))

/-- VEC: the values of an elementwise or whole-row operator are converted and stored in the core's near store and nowhere else. MOVE copies
near store to near store. DMA copies a verified block between far store and HBM. An address outside the regions transfers nothing: the
operator's status says so and a PROGRAM report goes to the coordinator (R92). -/
def Obligations.DataMovementCompletes : Prop :=
  (∀ s c o first ins nearOff vs bs, s.runsOn c o → vecValues (s.ctx c.ctx) o first ins = some vs → isMx o.outFormat = false →
    bs = packElems o.outFormat (vs.zipIdx.map (fun e => (convOut o.outFormat
      (rmodeOf o.round (s.ctx c.ctx).seed (s.ctx c.ctx).step o.output (first + e.2)) o.infMode e.1.1).1)) →
    nearOff + bs.length ≤ nearSize → s.mem.nsPoison = [] → Memory.wf s.mem = true →
    ∃ t, exec (.vec c first ins nearOff) s = .next t ∧ bytesStored s t (nearAddr c.core nearOff) bs ∧ t.out = s.out) ∧
  (∀ s c o src dst len, s.runsOn c o → s.rangeOk src len = true → s.rangeOk dst len = true → addrLevel src = 2 → addrLevel dst = 2 →
    s.mem.nsPoison = [] → Memory.wf s.mem = true →
    ∃ t, exec (.move c src dst len .good) s = .next t ∧ bytesStored s t dst (s.readBytes src len) ∧ t.out = s.out) ∧
  (∀ s x opId o src dst, x < 16 → (s.ctx x).op opId = some o → (s.ctx x).st = .running → (s.ctx x).launched = true →
    s.rangeOk src 4096 = true → s.rangeOk dst 4096 = true → addrLevel src < 2 → addrLevel dst < 2 → src % 4096 = 0 → dst % 4096 = 0 →
    KMap.find (s.ctx x).pend src = none → s.pends x dst = false → (s.checkAt src).poison = false →
    (s.checkAt src).fails ((s.ctx x).codeAt src) (s.readBytes src 4096) = 0 → Memory.wf s.mem = true →
    ∃ t, exec (.dma x opId src dst 4096 .good) s = .next t ∧ bytesStored s t dst (s.readBytes src 4096) ∧ t.out = s.out ∧
      t.checkAt dst = freshCheck ((s.ctx x).codeAt dst) (s.readBytes src 4096)) ∧
  (∀ s x opId o src dst len rd, x < 16 → (s.ctx x).op opId = some o → (s.ctx x).st = .running → (s.ctx x).launched = true →
    s.rangeOk src len = false → ∃ t, exec (.dma x opId src dst len rd) s = .next t ∧ t.mem = s.mem ∧ (t.ctx x).faulted = true ∧
      (KMap.getD (t.ctx x).exec.status opId {}).addrErr = true ∧
      ctrlSent s t (s.ctx x).coordLocus 0x05 (s.ctx x).step (s.ctx x).attempt
        ({ FaultParam.of 5 0x40 with addr := src, opId, layer := o.layer } : FaultParam).pack)

/-- OPERATOR_START begins an operator whose dependencies are met on a free cluster; its completion there is recorded and frees the cluster;
SLICE_STREAM_DONE ends the streaming of an operator; BATCH_WAIT_EXPIRY starts the batch that waits; WAIT records the core's arrival at the
barrier; SEND of a part that is not the last keeps the sums in the adder, and the core's raw windows are gone. -/
def Obligations.OperatorsAndSendComplete : Prop :=
  (∀ s x opId o g, x < 16 → g < numClusters → (s.ctx x).op opId = some o → (s.ctx x).st = .running → (s.ctx x).launched = true → g ∈ o.clusters →
    (s.ctx x).depsMet opId = true → (KMap.getD (s.ctx x).exec.started opId []).contains g = false → (s.cluster g).queue = [] →
    o.batchable = false → (o.unitOf = 1 → (s.cluster g).arrayOp = none) → (o.unitOf = 2 → (s.cluster g).vectorOp = none) →
    ∃ t, exec (.operatorStart x opId g) s = .next t ∧ g ∈ KMap.getD (t.ctx x).exec.started opId [] ∧
      (o.unitOf = 1 → (t.cluster g).arrayOp = some (x, opId)) ∧ (o.unitOf = 2 → (t.cluster g).vectorOp = some (x, opId)) ∧
      (∀ y, y ≠ x → t.ctx y = s.ctx y) ∧ (∀ k, k ≠ g → t.cluster k = s.cluster k) ∧ t.mem = s.mem ∧ t.out = s.out) ∧
  (∀ s x opId o g, x < 16 → g < numClusters → (s.ctx x).op opId = some o → (s.ctx x).st = .running → (s.ctx x).launched = true →
    (KMap.getD (s.ctx x).exec.started opId []).contains g = true → (KMap.getD (s.ctx x).exec.done opId []).contains g = false →
    (∃ k ∈ o.clusters, k ≠ g ∧ k ∉ KMap.getD (s.ctx x).exec.done opId []) → (∀ q ∈ (s.cluster g).queue, ¬(q.ctx = x ∧ q.opId = opId)) →
    ∃ t, exec (.operatorComplete x opId g []) s = .next t ∧ g ∈ KMap.getD (t.ctx x).exec.done opId [] ∧ (t.cluster g).arrayOp ≠ some (x, opId) ∧
      (t.cluster g).vectorOp ≠ some (x, opId) ∧ (∀ y, y ≠ x → t.ctx y = s.ctx y) ∧ t.mem = s.mem ∧ t.out = s.out) ∧
  (∀ s g opId, g < numClusters → (s.cluster g).streaming = some opId → ∃ t, exec (.sliceStreamDone g opId) s = .next t ∧
    t.cluster g = { s.cluster g with streaming := none } ∧ (∀ k, k ≠ g → t.cluster k = s.cluster k)) ∧
  (∀ s g r, g < numClusters → (s.cluster g).queue = [r] → ∃ t, exec (.batchWaitExpiry g) s = .next t ∧ (t.cluster g).queue = [] ∧
    g ∈ KMap.getD (t.ctx r.ctx).exec.started r.opId [] ∧ (t.cluster g).arrayOp = some (r.ctx, r.opId) ∧ t.mem = s.mem) ∧
  (∀ s c o b, s.runsOn c o → ∃ t, exec (.wait c b) s = .next t ∧
    c.core % 256 ∈ KMap.getD (t.ctx c.ctx).exec.arrived (4096 * b + coreCluster c.core) [] ∧ t.mem = s.mem) ∧
  (∀ s c o row col parts n w, s.runsOn c o → KMap.find (s.ctx c.ctx).exec.raw c.core = some [(0, 0, w)] →
    KMap.find (s.ctx c.ctx).exec.adder (adderKey (coreCluster c.core) c.opId row col) = none → 1 < parts →
    ∃ t, exec (.send c (.adder row col parts n)) s = .next t ∧ KMap.find (t.ctx c.ctx).exec.raw c.core = none ∧
      KMap.find (t.ctx c.ctx).exec.adder (adderKey (coreCluster c.core) c.opId row col) = some (1, [(0, w)]) ∧ t.mem = s.mem ∧ t.out = s.out)

/-- XPOSE_JOB_COMPLETE writes the permuted block, invalid and reported where its MASS differs, and does nothing where no job runs; a
SCRUB_SLOT reads the next word of its unit, counts the slot and moves on; a calibration gap begins at its fleet count and, when it ends,
charges its 8,192 ticks to every partition. -/
def Obligations.MemoryUpkeepCompletes : Prop :=
  (∀ s p e flips rd, p < 16 → e < 4 → s.jobOn p e = none → exec (.xposeJobComplete p e flips rd) s = .next s) ∧
  (∀ s p e rd x o perm src dst out, p < 16 → e < 4 → s.jobOn p e = some (x, o) → o.kind = .xpose perm →
    (s.ctx x).tensor (o.inputs.getD 0 0) = some src → (s.ctx x).tensor o.output = some dst → isMx src.format = false → src.blocks = 1 →
    dst.blocks = 1 → KMap.find (s.ctx x).pend (blockOf (src.blockAddr 0)) = none → s.pends x (dst.blockAddr 0) = false →
    (s.checkAt (src.blockAddr 0)).poison = false → rd = .good →
    (s.checkAt (src.blockAddr 0)).fails ((s.ctx x).codeAt (src.blockAddr 0)) (s.readBytes (blockOf (src.blockAddr 0)) 4096) = 0 →
    permuteBlocks perm src dst [s.readBytes (blockOf (src.blockAddr 0)) 4096] [] = [out] → Memory.wf s.mem = true →
    ∃ t, exec (.xposeJobComplete p e [] rd) s = .next t ∧ bytesStored s t (blockOf (dst.blockAddr 0)) out ∧
      (massOf src.format (s.readBytes (blockOf (src.blockAddr 0)) 4096) % 2 ^ 32 = massOf src.format out % 2 ^ 32 →
        (t.checkAt (dst.blockAddr 0)).invalid = false ∧ t.out = s.out) ∧
      (massOf src.format (s.readBytes (blockOf (src.blockAddr 0)) 4096) % 2 ^ 32 ≠ massOf src.format out % 2 ^ 32 →
        (t.checkAt (dst.blockAddr 0)).invalid = true ∧ (t.ctx x).faulted = true)) ∧
  (∀ s level unit fg, unitOk level unit = true → ∃ t, exec (.scrubSlot level unit .good fg) s = .next t ∧
    KMap.find t.mem.scrubAt (2 ^ 24 * level + unit) = some
      (if KMap.getD s.mem.scrubAt (2 ^ 24 * level + unit) 0 + (s.scrubSize level unit).2 < (s.scrubSize level unit).1
       then KMap.getD s.mem.scrubAt (2 ^ 24 * level + unit) 0 + (s.scrubSize level unit).2 else 0) ∧
    (∀ q, t.byte q = s.byte q) ∧ t.ctxs = s.ctxs ∧ t.out = s.out) ∧
  (∀ s n, s.fcHeld = true → (n + 2 ^ 27 - s.cfg.calGapPhase) % 2 ^ 27 = 0 → ∃ t, exec (.calGapStart n) s = .next t ∧
    t.mem.gapCount = some n ∧ n ≤ t.time.fc ∧ (∀ q, t.byte q = s.byte q) ∧ t.ctxs = s.ctxs) ∧
  (∀ s n, s.mem.gapCount = some n → ∃ t, exec (.calGapEnd []) s = .next t ∧ t.mem.gapCount = none ∧
    (∀ p, p < 16 → t.ctr .calHeldTicks p = (s.ctr .calHeldTicks p + 8192) % 2 ^ 64) ∧ (∀ q, t.byte q = s.byte q) ∧ t.ctxs = s.ctxs)

/-! ### A job's life and its messages (05, 06, 11) -/

/-- ARMED is kept at the coordinator; the last of them, with equal digests, sends START to every participant with one launch count, the first
step and the policy (R113, R115, R133). DRAIN_START drops the domain's limiters; DRAIN_END empties the context and sends DRAINED to the
coordinator, which notes it; a host loss is noted once for every job of the sender that is neither held nor has one noted (R133, R134,
R158). -/
def Obligations.JobsStartDrainAndLoseTheirHost : Prop :=
  (∀ s h digest x, s.takes h = true →
    s.liveCtxs.filter (fun x => (s.ctx x).st == .armed && (s.ctx x).coord.active && !(s.ctx x).coord.started) = [x] →
    (s.ctx x).coord.armed.length < (s.ctx x).participants → s.fab.early = [] →
    ∃ t, exec (.armed h digest) s = .next t ∧ KMap.find (t.ctx x).coord.armed h.src = some digest ∧
      (∀ l, l ≠ h.src → KMap.find (t.ctx x).coord.armed l = KMap.find (s.ctx x).coord.armed l) ∧ (∀ y, y ≠ x → (t.ctx y).coord = (s.ctx y).coord) ∧
      (t.ctx x).st = .armed ∧ t.mem = s.mem) ∧
  (∀ s h digest x l, s.takes h = true →
    s.liveCtxs.filter (fun x => (s.ctx x).st == .armed && (s.ctx x).coord.active && !(s.ctx x).coord.started) = [x] →
    (s.ctx x).coord.armed.length < (s.ctx x).participants → s.fab.early = [] → (s.ctx x).coord.restore = none → s.fcHeld = true → (s.atEffect h).mayIssue x = true →
    (s.ctx x).participants ≤ (KMap.put (s.ctx x).coord.armed h.src digest).length →
    (∀ e ∈ KMap.put (s.ctx x).coord.armed h.src digest, e.2 = descDigest (s.ctx x).desc) → l = (s.atEffect h).launchCount 0 →
    ∃ t, exec (.armed h digest) s = .next t ∧ (t.ctx x).coord.started = true ∧ (t.ctx x).coord.step = (s.ctx x).firstStep ∧
      (t.ctx x).coord.launch = l ∧ (t.ctx x).coord.deadline = l + (s.ctx x).dOffset ∧
      (∀ e ∈ KMap.put (s.ctx x).coord.armed h.src digest, ctrlSent s t e.1 0x02 (s.ctx x).firstStep 0
        (field l 64 0 + field (s.jobPolicy x) 8 64 + field (s.ctx x).coord.epoch 32 160))) ∧
  (∀ s x d, (s.ctx x).drainAt = some d → ∃ t, exec (.drainStart x) s = .next t ∧
    (∀ e ∈ t.fab.limiters, e.1 / 8 ∉ (s.ctx x).pmap) ∧ (∀ e ∈ s.fab.limiters, e.1 / 8 ∉ (s.ctx x).pmap → e ∈ t.fab.limiters) ∧
    t.ctxs = s.ctxs ∧ t.mem = s.mem ∧ t.out = s.out) ∧
  (∀ s x d, (s.ctx x).drainAt = some d → (s.ctx x).st ≠ .empty → (∀ r ∈ s.recov.repeats, r.ctx ≠ x) → ∃ t, exec (.drainEnd x) s = .next t ∧ t.ctx x = Ctx.reset ∧
    ctrlSent s t (s.ctx x).coordLocus 0x0B 0 0 0 ∧ (∀ y, y ≠ x → t.ctx y = s.ctx y) ∧ t.mem = s.mem) ∧
  (∀ s x, (s.ctx x).drainAt = none → exec (.drainStart x) s = .next s ∧ exec (.drainEnd x) s = .next s) ∧
  (∀ s h x, s.takes h = true → s.coordCtx h.src 0 = some x → ∃ t, exec (.drained h) s = .next t ∧ h.src ∈ (t.ctx x).coord.drained ∧
    (∀ y, y ≠ x → (t.ctx y).coord = (s.ctx y).coord) ∧ t.mem = s.mem) ∧
  (∀ s h tick, s.takes h = true → ∃ t, exec (.hostLoss h tick) s = .next t ∧ t.mem = s.mem ∧
    (∀ x ∈ s.liveCtxs, (s.ctx x).coord.active = true → h.src ∈ (s.ctx x).pmap → (s.ctx x).coord.held = false → (s.ctx x).coord.hostLoss = none →
      (t.ctx x).coord.hostLoss = some h.stamp) ∧
    (∀ x, (s.ctx x).coord.active = false ∨ (s.ctx x).coord.held = true ∨ (s.ctx x).coord.hostLoss ≠ none → (t.ctx x).coord = (s.ctx x).coord))

/-- What a participant does with START, PMAP, RESUME, STEP_HOLD and DRAIN, with no action due at the boundary. -/
def Obligations.ParticipantFollowsTheCoordinator : Prop :=
  (∀ s h launch policy epoch x, s.serves h epoch x → (s.ctx x).st = .armed → s.quiet →
    ∃ t, exec (.start h launch policy epoch) s = .next t ∧ (t.ctx x).st = .running ∧ (t.ctx x).policy = policy ∧ (t.ctx x).step = h.step ∧
      (t.ctx x).attempt = 0 ∧ (t.ctx x).committed = some (prevStep h.step) ∧ (t.ctx x).launch = some launch ∧
      (∀ y, y ≠ x → (t.ctx y).st = (s.ctx y).st ∧ (t.ctx y).step = (s.ctx y).step) ∧ t.mem = s.mem) ∧
  (∀ s h part bitmap epoch x, s.serves h epoch x → ∃ t, exec (.pmap h part bitmap epoch) s = .next t ∧
    (∀ l, l ∈ (t.ctx x).pmap ↔ (l / 8192 = part ∧ bitmap.testBit (l % 8192) = true) ∨ (l ∈ (s.ctx x).pmap ∧ l / 8192 ≠ part)) ∧
    (∀ y, y ≠ x → (t.ctx y).pmap = (s.ctx y).pmap) ∧ t.mem = s.mem) ∧
  (∀ s h launch epoch x, s.serves h epoch x → (s.ctx x).st = .held → s.quiet →
    ∃ t, exec (.resume h launch epoch) s = .next t ∧ (t.ctx x).st = .running ∧ (t.ctx x).step = h.step ∧ (t.ctx x).attempt = h.attempt % 16 ∧
      (t.ctx x).launch = some launch ∧ (t.ctx x).confirmed = false ∧ (t.ctx x).faulted = false ∧ (t.ctx x).pend = (s.ctx x).pend ∧ t.mem = s.mem) ∧
  (∀ s h reason epoch x, s.serves h epoch x → (s.ctx x).st = .running → s.quiet →
    ∃ t, exec (.stepHold h reason epoch) s = .next t ∧ (t.ctx x).st = .held ∧ (t.ctx x).step = h.step ∧ (t.ctx x).launch = none ∧
      (t.ctx x).launched = false ∧ (t.ctx x).pend = [] ∧ (t.ctx x).committed = (s.ctx x).committed ∧
      (∀ p ∈ maskParts (s.ctx x).mask, t.dom p = .gated) ∧ (∀ y, y ≠ x → (t.ctx y).st = (s.ctx y).st ∧ (t.ctx y).pend = (s.ctx y).pend)) ∧
  (∀ s h td epoch x, s.serves h epoch x → ∃ t, exec (.drain h td epoch) s = .next t ∧ (t.ctx x).st = .draining ∧
    (t.ctx x).drainAt = some (match (s.ctx x).drainAt with | some d => min d td | none => td) ∧
    (∀ y, y ≠ x → (t.ctx y).drainAt = (s.ctx y).drainAt ∧ (t.ctx y).st = (s.ctx y).st) ∧ t.mem = s.mem)

/-- Acknowledgement and flow control (R154, R155, R160, R161): an ACK ends the wait for the message it names, or for a streamed block; a
beat's ACK extends the lease; NOT_READY delays the repeat; an echo cuts the limiter, an increase raises it; a repeat doubles the interval. -/
def Obligations.AcknowledgementsComplete : Prop :=
  (∀ s h q, (s.advanceTo h.stamp).releaseTick h = none → h.srcEp = 16 → (∀ x ∈ s.liveCtxs, (s.ctx x).coord.active = false) →
    ∃ t, exec (.ack h q) s = .next t ∧ (∀ u, u ∈ t.fab.unacked ↔ u ∈ s.fab.unacked ∧ ¬(u.m.dst = h.src ∧ u.m.seq = q)) ∧ t.mem = s.mem) ∧
  (∀ s h q x, (s.advanceTo h.stamp).releaseTick h = none → h.srcEp ≠ 16 → s.liveCtxs = [x] → (s.ctx x).gey.buddy = h.src →
    (s.ctx x).gey.writeAcks = [] → ∃ t, exec (.ack h q) s = .next t ∧
      (t.ctx x).gey.streamAcks = (s.ctx x).gey.streamAcks.filter (fun r => !ackOf r q) ∧
      ((s.ctx x).gey.seedAcks ≠ [] → (∀ r ∈ (s.ctx x).gey.seedAcks, ackOf r q = true) → (t.ctx x).gey.buddyValid = true) ∧ t.mem = s.mem) ∧
  (∀ s h q x b, (s.advanceTo h.stamp).releaseTick h = none → h.srcEp = 16 → s.liveCtxs = [x] → (s.ctx x).coord.active = true →
    (s.ctx x).coord.standby = h.src → (s.ctx x).coord.beatSent = some b → b.1 = q →
    ∃ t, exec (.ack h q) s = .next t ∧ (t.ctx x).coord.ackedAt = b.2.1 ∧ (t.ctx x).coord.ackedEnd = b.2.2) ∧
  (∀ s h hint q, ∃ t, exec (.notReady h hint q) s = .next t ∧ t.ctxs = s.ctxs ∧ t.mem = s.mem ∧
    (∀ u ∈ s.fab.unacked, u.m.dst = h.src → u.m.seq = q → { u with notBefore := t.time.loc + hint * 1000 } ∈ t.fab.unacked)) ∧
  (∀ s h vc l, KMap.find s.fab.limiters (8 * h.src + vc) = some l → l.cutAt + 4096 ≤ (s.advanceTo h.stamp).time.loc →
    ∃ t, exec (.cnEcho h vc) s = .next t ∧ (∃ m, KMap.find t.fab.limiters (8 * h.src + vc) = some m ∧ m.rate = max 4 (l.rate - ceilDiv l.rate 8)) ∧
      (∀ k, k ≠ 8 * h.src + vc → KMap.find t.fab.limiters k = KMap.find s.fab.limiters k) ∧ t.out = s.out) ∧
  (∀ s dst vc l, KMap.find s.fab.limiters (8 * dst + vc) = some l → ∃ t, exec (.limiterIncrease dst vc) s = .next t ∧
    KMap.find t.fab.limiters (8 * dst + vc) = some { l with rate := min 1024 (l.rate + 16) } ∧
    (∀ k, k ≠ 8 * dst + vc → KMap.find t.fab.limiters k = KMap.find s.fab.limiters k) ∧ t.out = s.out) ∧
  (∀ s dst ep q u, s.fab.unacked.find? (fun u => u.m.dst == dst && u.m.ep == ep && u.m.seq == q) = some u → u.notBefore ≤ s.time.loc →
    ∃ t, exec (.ctrlRetransmit dst ep q) s = .next t ∧ sentBetween s t (.ctrl { u.m with copies := s.copies }) ∧
      { u with intervalUs := min 1280 (2 * u.intervalUs) } ∈ t.fab.unacked ∧ t.ctxs = s.ctxs)

/-- A Crossing delivers a good packet that has nowhere further to go, and keeps one that may not be granted yet (R139, R142, R146); a
reservation stands until it lapses, and then none starts for 16,384 flit times (R147). A DATA packet of a running step: a part that does
not complete its block is kept; the fourth part of a block that verifies writes the block, acknowledged when asked for; one of a foreign
domain changes neither memory nor a context (R152, R156, R160). -/
def Obligations.CrossingsAndDataPackets : Prop :=
  (∀ s die header now, die < 4 → hdrGood header.toNat = true → hdrTv header.toNat = false → s.fab.waits = [] →
    (s.advanceTo now).hop die header.toNat = .deliver → ∃ t, exec (.packetForward die 34 header now) s = .next t ∧
      sentBetween s t (.forward die 10 header) ∧ t.ctxs = s.ctxs ∧ t.mem = s.mem ∧ t.ports = s.ports) ∧
  (∀ s die header now, die < 4 → hdrGood header.toNat = true → hdrTv header.toNat = false →
    (s.advanceTo now).mayGrant die 34 header.toNat ((s.advanceTo now).hop die header.toNat) = false →
    ∃ t, exec (.packetForward die 34 header now) s = .next t ∧ t.fab.waits = s.fab.waits ++ [(die, 34, header.toNat, now)] ∧ t.out = s.out ∧
      t.ctxs = s.ctxs ∧ t.mem = s.mem) ∧
  (∀ s die header now, die < 4 → hdrGood header.toNat = false → (∀ x, (s.ctx x).st ≠ .running) →
    ∃ t, exec (.packetForward die 34 header now) s = .next t ∧ t.ctr .fabHdr 0 = satAdd 16 (s.ctr .fabHdr 0) 1 ∧ t.out = s.out) ∧
  (∀ s die out vc, die < 4 → out < 10 → vc < 8 → (s.outVc die out vc).waiting ≠ none → (s.outVc die out vc).reserved = false →
    (s.outVc die out vc).coolUntil ≤ s.time.loc → ∃ t, exec (.crossingReserve die out vc) s = .next t ∧
      t.outVc die out vc = { s.outVc die out vc with reserved := true } ∧
      (∀ d o v, o < 16 → v < 8 → (d, o, v) ≠ (die, out, vc) → t.outVc d o v = s.outVc d o v) ∧ t.out = s.out) ∧
  (∀ s die out vc, die < 4 → out < 10 → vc < 8 → (s.outVc die out vc).reserved = true → s.fab.waits = [] →
    ∃ t, exec (.crossingReserveEnd die out vc) s = .next t ∧ (t.outVc die out vc).reserved = false ∧
      (t.outVc die out vc).coolUntil = s.time.loc + 5243 ∧ t.out = s.out) ∧
  (∀ s h dim after isBreak eff, s.takes h = true →
    (∀ q ∈ s.fab.orders, ¬(q.dim = dim % 4 ∧ q.after = after ∧ q.isBreak = isBreak)) → ∃ t, exec (.routeBreak h dim after isBreak eff) s = .next t ∧
      t.fab.orders = s.fab.orders ++ [{ dim := dim % 4, after, isBreak, effective := eff }] ∧ t.mem = s.mem) ∧
  (∀ s dim o, dim < 4 → s.fab.orders.find? (fun o => o.dim == dim) = some o → o.isBreak = true → s.isLine dim = false → s.fab.waits = [] →
    ∃ t, exec (.routeBreakEffective dim) s = .next t ∧ KMap.find t.fab.breaks dim = some o.after ∧ (t.evBits .avenue dim).testBit 30 = true ∧
      (∀ x, x < 16 → (s.ctx x).st = .running → (t.ctx x).faulted = true)) ∧
  (∀ s h d rd x, (s.advanceTo h.stamp).inRun = true → (s.advanceTo h.stamp).tooOld h = false → h.cm = false → s.domainCtx h.domain = some x →
    (s.ctx x).st = .running → addrOk d.addr = true → inMask (s.ctx x).mask (addrPart d.addr) = true → h.dstEp = addrPart d.addr →
    d.bulk = false → (s.ctx x).executing h.step h.attempt = true → s.fab.reasm = [] → ∃ t, exec (.dataPacket h d rd) s = .next t ∧
      (∃ r, t.fab.reasm = [r] ∧ r.parts = [(d.part % 4, fitBytes 1024 d.payload)] ∧ r.src = h.src ∧ r.addr = d.addr ∧ r.tensorId = d.tensorId) ∧
      t.mem = s.mem ∧ t.out = s.out) ∧
  (∀ s h d x r p₀ p₁ p₂, (s.advanceTo h.stamp).inRun = true → (s.advanceTo h.stamp).tooOld h = false → h.cm = false →
    s.domainCtx h.domain = some x → (s.ctx x).st = .running → addrOk d.addr = true → inMask (s.ctx x).mask (addrPart d.addr) = true →
    h.dstEp = addrPart d.addr → d.bulk = false → (s.ctx x).executing h.step h.attempt = true → s.fab.reasm = [r] →
    r.src = h.src → r.tensorId = d.tensorId → r.addr = d.addr → r.step = h.step → r.attempt = h.attempt → r.bulk = false →
    r.parts = [(0, p₀), (1, p₁), (2, p₂)] → d.part = 3 → s.pends x d.addr = false → Memory.wf s.mem = true →
    ({ mass := d.check / 2 ^ 32, crc := d.check % 2 ^ 32, poison := false, invalid := false } : BlockCheck).fails ((s.ctx x).codeOf d.tensorId)
      (p₀ ++ (p₁ ++ (p₂ ++ fitBytes 1024 d.payload))) = 0 →
    ∃ t, exec (.dataPacket h d .good) s = .next t ∧ bytesStored s t (blockOf d.addr) (p₀ ++ (p₁ ++ (p₂ ++ fitBytes 1024 d.payload))) ∧
      t.fab.reasm = [] ∧ ((r.ackReq || d.ackReq) = true → respSent s t h.src h.srcEp 0x01 h.step (field h.seq 32 0)) ∧
      ((r.ackReq || d.ackReq) = false → t.out = s.out)) ∧
  (∀ s h d rd, (s.advanceTo h.stamp).inRun = true → s.domainCtx h.domain = none → ∃ t, exec (.dataPacket h d rd) s = .next t ∧
    t.mem = s.mem ∧ t.ctxs = s.ctxs)

/-! ### Reduction, telemetry and samples (06, 13) -/

/-- RED_UP: a raw block of a child is folded into a new slot, once for each child (R151, R153); RED_DOWN: the block counts as received and
goes on to every child. The fleet tree (R340 to R344): a contribution in time is folded into its slot, one past the send-by tick is
counted and dropped; the slot goes to the parent at the send-by tick; a result goes to every child; released slots are gone. -/
def Obligations.TreesFold : Prop :=
  (∀ s h r x d, (s.advanceTo h.stamp).inRun = true → (s.advanceTo h.stamp).tooOld h = false → h.cm = false → s.domainCtx h.domain = some x →
    (s.ctx x).executing h.step h.attempt = true → r.op < 8 → (s.ctx x).collective r.collId = some d →
    (s.advanceTo h.stamp).releaseTick h = none → s.fab.slots = [] → h.src ≠ s.locus → r.form = 0 → ∃ t, exec (.redUp h r) s = .next t ∧
      (∃ q, t.fab.slots = [q] ∧ q.coll = d.collId ∧ q.block = r.firstBlock ∧ q.from_ = [h.src] ∧ q.contrib = r.contrib ∧
        q.windows.map (fun w => w.s) = (slice r.entries 0 groupSize).map (BitVec.ofNat 128)) ∧ t.mem = s.mem ∧ t.out = s.out) ∧
  (∀ s h r x d q, (s.advanceTo h.stamp).inRun = true → (s.advanceTo h.stamp).tooOld h = false → h.cm = false → s.domainCtx h.domain = some x →
    (s.ctx x).executing h.step h.attempt = true → r.op < 8 → (s.ctx x).collective r.collId = some d →
    (s.advanceTo h.stamp).releaseTick h = none → s.fab.slots = [q] → r.form = 0 → q.domain = (s.ctx x).domain → q.coll = d.collId →
    q.block = r.firstBlock → q.step = h.step → q.attempt = h.attempt → h.src ∈ q.from_ → s.locus ∉ q.from_ →
    ∃ t, exec (.redUp h r) s = .next t ∧ t.fab.slots = [q] ∧ t.mem = s.mem ∧ t.out = s.out) ∧
  (∀ s h r x d, (s.advanceTo h.stamp).inRun = true → (s.advanceTo h.stamp).tooOld h = false → h.cm = false → s.domainCtx h.domain = some x →
    (s.ctx x).executing h.step h.attempt = true → r.op < 8 → (s.ctx x).collective r.collId = some d → (s.advanceTo h.stamp).releaseTick h = none →
    s.fab.slots = [] → r.form = 0 → r.firstBlock ∉ (s.ctx x).downOf d.collId → (s.ctx x).tensor d.outTensor = none →
    ∃ t, exec (.redDown h r) s = .next t ∧ r.firstBlock ∈ (t.ctx x).downOf d.collId ∧ t.mem = s.mem ∧
      (∀ l ∈ s.childrenOf (s.ctx x).pmap d.rootLocus, ∃ p : RedPkt, p.collId = d.collId ∧ p.firstBlock = r.firstBlock ∧
        sentBetween s t (.red false l (17 + homeDie r.firstBlock) (s.ctx x).domain (s.ctx x).step (s.ctx x).attempt p))) ∧
  (∀ s h r x d, (s.advanceTo h.stamp).inRun = true → (s.advanceTo h.stamp).tooOld h = false → s.domainCtx h.domain = some x →
    (s.ctx x).executing h.step h.attempt = true → r.op < 8 → (s.ctx x).collective r.collId = some d → (s.advanceTo h.stamp).releaseTick h = none →
    s.fab.slots = [] → r.form = 0 → ∃ t, exec (.redDown h r) s = .next t ∧ r.firstBlock ∈ (t.ctx x).downOf d.collId) ∧
  (∀ s h (p : TelPkt), (s.advanceTo h.stamp).inRun = true → (s.advanceTo h.stamp).tooOld h = false → h.cm = false → p.tree = 0 →
    p.op = telOp p.group → p.group < 4 → p.upset = 0 → s.time.root = s.locus → s.tel.slots = [] →
    (∀ due, (s.advanceTo h.stamp).telSendBy 0 p.key h.attempt = some due → h.stamp ≤ due) → ∃ t, exec (.telUp h p) s = .next t ∧
      (∃ q, t.tel.slots = [q] ∧ q.from_ = [h.src] ∧ q.contrib = p.contrib ∧ q.key = p.key ∧ q.group = p.group ∧ q.sent = false ∧
        q.entries = ((telEmpty p.group).zip p.entries).map (fun e => telFoldEntry p.op e.1 e.2)) ∧ t.ctxs = s.ctxs ∧ t.mem = s.mem ∧ t.out = s.out) ∧
  (∀ s h (p : TelPkt) due, (s.advanceTo h.stamp).inRun = true → (s.advanceTo h.stamp).tooOld h = false → h.cm = false → p.tree = 0 →
    p.op = telOp p.group → p.group < 4 → (s.advanceTo h.stamp).telSendBy 0 p.key h.attempt = some due → due < h.stamp →
    ∃ t, exec (.telUp h p) s = .next t ∧ t.tel = s.tel ∧ t.ctr .telLate 0 = satAdd 32 (s.ctr .telLate 0) 1 ∧ t.out = s.out) ∧
  (∀ s h (p : TelPkt), (s.advanceTo h.stamp).inRun = true → (s.advanceTo h.stamp).tooOld h = false → h.cm = false → p.tree = 0 →
    p.op = telOp p.group → p.group < 4 → ∃ t, exec (.telDown h p) s = .next t ∧ t.mem = s.mem ∧ t.ctxs = s.ctxs ∧
      (∀ l ∈ s.telChildren 0, sentBetween s t (.tel false l 0 h.step h.attempt p))) ∧
  (∀ s tree group key attempt q p, (match s.telSendBy tree key attempt with | some t => s.advanceTo t | none => s).telRoot tree ≠ s.locus →
    s.tel.slots.find? (fun q => q.isKey tree group key attempt && !q.sent) = some q → s.telParent tree = some p →
    ∃ t, exec (.telSendBy tree group key attempt) s = .next t ∧ { q with sent := true } ∈ t.tel.slots ∧
      sentBetween s t (.tel true p q.tree (if q.tree = 0 then 0 else q.key) q.attempt (q.pkt false)) ∧ t.ctxs = s.ctxs ∧ t.mem = s.mem) ∧
  (∀ s group key attempt, group < 4 → s.time.root = s.locus → s.telMember = true → (s.telSlot 0 group key attempt).sent = false →
    ∃ t, exec (.telFinalize 0 group key attempt) s = .next t ∧ t.mem = s.mem ∧ (∀ l ∈ s.telChildren 0, sentBetween s t
      (.tel false l 0 0 attempt ((s.telSlot 0 group key attempt).pkt (decide ((s.telSlot 0 group key attempt).contrib < s.telExpected 0)))))) ∧
  (∀ s tree group key, ∃ t, exec (.telSlotRelease tree group key) s = .next t ∧ t.ctxs = s.ctxs ∧ t.out = s.out ∧
    (∀ q, q ∈ t.tel.slots ↔ q ∈ s.tel.slots ∧ ¬(q.tree = tree ∧ q.group = group ∧ q.key = key)))

/-- Samples and subscriptions (R333, R334, R347 to R349). -/
def Obligations.SamplesAndSubscriptionsComplete : Prop :=
  (∀ s k r, s.fcHeld = true → r.index < classCount r.cls → k % 1024 ≠ 1023 ∨ s.telMember = false → ∃ t, exec (.sampleLatch k [r]) s = .next t ∧ k * samplePeriod ≤ t.time.fc ∧
    (∃ e, KMap.find t.tel.samples (sampleKey r.cls r.index) = some e ∧ e.index = k ∧ e.temp = r.temp ∧ e.aux = r.aux ∧
      e.beats = s.ctr .validBeats r.index) ∧
    (∀ q, q ≠ sampleKey r.cls r.index → KMap.find t.tel.samples q = KMap.find s.tel.samples q) ∧ t.mem = s.mem) ∧
  (∀ s k rs, s.fcHeld = false → exec (.sampleLatch k rs) s = .next s) ∧
  (∀ s cls index, s.fcHeld = true → index < classCount cls → ∃ t, exec (.sampleMissed cls index) s = .next t ∧
    t.ctr .telMissed 0 = satAdd 32 (s.ctr .telMissed 0) 1 ∧ t.tel = s.tel ∧ t.out = s.out) ∧
  (∀ s port addr udp sub body, s.cfg.ventAllows addr = true → s.inRun = true → subOk body = true →
    s.tel.subs.find? (fun b => b.isKey addr udp sub) = none → s.tel.subs.length < 256 →
    sumL (s.tel.subs.map (fun b => exportRate b.body)) + exportRate body ≤ s.cfg.ventBudgetMbps * 2 ^ 40 →
    ∃ t, exec (.subscribe port addr udp sub 1 body) s = .next t ∧ (∃ b, t.tel.subs = s.tel.subs ++ [b] ∧ b.addr = addr ∧ b.udp = udp ∧
      b.subId = sub ∧ b.body = body ∧ b.port = port ∧ b.leaseEnd = some (s.now + min (subLease body) s.cfg.ventLeaseMaxS * 1000000000)) ∧
      (∃ pl, sentBetween s t (.datagram port addr udp s.cfg.ventUdpPort pl)) ∧ t.ctxs = s.ctxs) ∧
  (∀ s port addr udp sub body, s.cfg.ventAllows addr = false → ∃ t, exec (.subscribe port addr udp sub 1 body) s = .next t ∧
    t.tel = s.tel ∧ (∃ pl, sentBetween s t (.datagram port addr udp s.cfg.ventUdpPort pl))) ∧
  (∀ s addr udp sub, ∃ t, exec (.unsubscribe addr udp sub) s = .next t ∧ t.out = s.out ∧
    (∀ b, b ∈ t.tel.subs ↔ b ∈ s.tel.subs ∧ ¬(b.addr = addr ∧ b.udp = udp ∧ b.subId = sub))) ∧
  (∀ s addr udp sub b e, s.tel.subs.find? (fun b => b.isKey addr udp sub) = some b → b.leaseEnd = some e →
    ∃ t, exec (.subscriptionLeaseEnd addr udp sub) s = .next t ∧ t.out = s.out ∧
      (∀ b, b ∈ t.tel.subs ↔ b ∈ s.tel.subs ∧ ¬(b.addr = addr ∧ b.udp = udp ∧ b.subId = sub))) ∧
  (∀ s addr udp sub seq b, b ∈ s.tel.subs → b.isKey addr udp sub = true → (∃ u ∈ b.unsent, u.1 = seq) →
    ∃ t, exec (.recordAged addr udp sub seq) s = .next t ∧ { b with unsent := b.unsent.filter (fun u => u.1 != seq) } ∈ t.tel.subs ∧
      t.ctr .ventAged 0 = satAdd 32 (s.ctr .ventAged 0) 1 ∧ t.out = s.out)

/-! ### Ports (07) -/

/-- Link control flits: CREDIT moves the acknowledged sequence and the partner's FREED counts; a flit whose LCRC fails changes nothing; IDENT
is remembered, and between two ends that agree it brings the port UP (R173, R174, R186 to R192). Link state messages (R178 to R180, R194
to R196): an UP port grants what its partner asks and carries it out; a grant carries out what this end asked; when DONE comes a port with
a failed lane and no spare asks for width 4. -/
def Obligations.LinkControlFlitsComplete : Prop :=
  (∀ s p flit, s.lcfClean p 0 flit →
    (bitsOf flit.toNat 483 460 + 2 ^ 24 - (s.port p).txAck) % 2 ^ 24 ≤ ((s.port p).txSeq + 2 ^ 24 - (s.port p).txAck) % 2 ^ 24 →
    ∃ t, exec (.credit p flit) s = .next t ∧ (t.port p).txAck = bitsOf flit.toNat 483 460 ∧
      (∀ v, v < 8 → KMap.find (t.port p).freedIn v = some (bitsOf flit.toNat (455 - 16 * v) (440 - 16 * v))) ∧
      (t.port p).st = (s.port p).st ∧ (∀ q, q ≠ p → t.port q = s.port q) ∧ t.out = s.out ∧ t.ctxs = s.ctxs) ∧
  (∀ s p flit, p < 32 → lcfCrc flit.toNat ≠ bitsOf flit.toNat 31 0 → exec (.credit p flit) s = .next s ∧ exec (.ident p flit) s = .next s ∧
    exec (.lsmDone p flit) s = .next s) ∧
  (∀ s p flit, s.lcfClean p 1 flit → (s.port p).st = .ident ∨ (s.port p).st = .fastRetrain → flit.toNat.testBit 114 = false →
    ∃ t, exec (.ident p flit) s = .next t ∧ (t.port p).peerSeen = true ∧ (t.port p).last = some (parseIdent flit.toNat) ∧
      (t.port p).remoteLocus = bitsOf flit.toNat 327 311 ∧ (t.port p).st = (s.port p).st ∧ ((s.port p).peerSeen = false → lcfSent s t p)) ∧
  (∀ s p flit v rank size i, s.lcfClean p 1 flit → (s.port p).st = .ident → flit.toNat.testBit 114 = true → i = parseIdent flit.toNat →
    divPort s.cfg p = (v, rank, size) → s.partnerLocus v = some i.locus → i.dir = v ^^^ 1 → i.rank = rank → i.size = size → 1 ≤ i.linkProto →
    i.compatMin ≤ 1 → KMap.getD s.flash.digests p 0 ≠ 0 → KMap.getD s.flash.digests p 0 = i.cert → s.id.unaccepted = false →
    ∃ t, exec (.ident p flit) s = .next t ∧ (t.port p).st = .up ∧ (t.port p).dir = v ∧ (t.port p).failures = 0 ∧ t.flash.digests = s.flash.digests) ∧
  (∀ s p flit, s.lcfClean p 2 flit → (s.port p).st = .up → (s.port p).req = none → bitsOf flit.toNat 327 324 = 1 →
    ∃ t, exec (.lsmFastRetrain p flit) s = .next t ∧ ((t.port p).st = .fastRetrain ∨ (t.port p).st = .held) ∧ lcfSent s t p) ∧
  (∀ s p flit, s.lcfClean p 2 flit → (s.port p).st = .up → (s.port p).req = none → bitsOf flit.toNat 327 324 = 2 →
    ∃ t, exec (.lsmFullRetrain p flit) s = .next t ∧ ((t.port p).st = .detect ∨ (t.port p).st = .held) ∧ lcfSent s t p) ∧
  (∀ s p flit, s.lcfClean p 2 flit → (s.port p).st = .up → (s.port p).req = none → bitsOf flit.toNat 327 324 = 3 →
    4 ≤ popCount (s.port p).lanesOk 9 → ∃ t, exec (.lsmWidth4 p flit) s = .next t ∧ (t.port p).width = 4 ∧ (t.port p).st = .up ∧
      (t.port p).lanes = (bitList (s.port p).lanesOk 9).take 4 ∧ lcfSent s t p) ∧
  (∀ s p flit, s.lcfClean p 2 flit → (s.port p).st = .up → bitsOf flit.toNat 327 324 = 4 → ∃ t, exec (.lsmSpare p flit) s = .next t ∧
    bitsOf flit.toNat 323 320 ∈ (t.port p).remoteLaneDown ∧ (t.port p).st = .up ∧ lcfSent s t p) ∧
  (∀ s p flit r, s.lcfClean p 2 flit → bitsOf flit.toNat 327 324 = 5 → bitsOf flit.toNat 295 292 = 3 → (s.port p).req = some r → r.req = 3 →
    ∃ t, exec (.lsmGrant p flit) s = .next t ∧ (t.port p).req = none ∧ (t.port p).width = 4 ∧ lcfSent s t p) ∧
  (∀ s p flit l, s.lcfClean p 2 flit → (s.port p).st = .up → (s.port p).req = none → bitsOf flit.toNat 327 324 = 6 →
    (s.port p).lanes.find? (fun l => !(s.port p).lanesOk.testBit l) = some l → (s.port p).spare = none → 4 ≤ popCount (s.port p).lanesOk 9 →
    ∃ t, exec (.lsmDone p flit) s = .next t ∧ (t.port p).req = some { req := 3 } ∧ lcfSent s t p)

/-- Errors of a link (R175, R177, R197, R203): a flagged codeword asks for the flits again, and again until they come; a lane that fails is
not used any more; silence or a failed retrain sends the port to train from DETECT. -/
def Obligations.LinkErrorsComplete : Prop :=
  (∀ s p lane first unc, p < 32 → lane < 9 → (s.port p).discarding = false → (s.port p).st ≠ .dark → (s.port p).st ≠ .unused →
    ∃ t, exec (.codewordFlagged p lane first unc) s = .next t ∧ (t.port p).discarding = true ∧ (t.port p).rxSeq = first % 2 ^ 24 ∧
      (t.port p).st = (s.port p).st ∧ lcfSent s t p ∧ (∀ q, q ≠ p → t.port q = s.port q) ∧
      t.ctr .prtFecUncorr p = if unc then satAdd 32 (s.ctr .prtFecUncorr p) 1 else s.ctr .prtFecUncorr p) ∧
  (∀ s p, p < 32 → (s.port p).discarding = true → (s.port p).nakSent < 7 → ∃ t, exec (.nakRetry p) s = .next t ∧
    (t.port p).nakSent = (s.port p).nakSent + 1 ∧ (t.port p).st = (s.port p).st ∧ lcfSent s t p) ∧
  (∀ c, ∀ p lane, c = .lossOfSignal p lane ∨ c = .laneCeLimit p lane ∨ c = .laneUeLimit p lane → ∀ s : State, p < 32 → lane < 9 →
    ∃ t, exec c s = .next t ∧ (t.port p).lanesOk.testBit lane = false ∧
      (∀ l, l ≠ lane → (t.port p).lanesOk.testBit l = (s.port p).lanesOk.testBit l) ∧ t.mem = s.mem) ∧
  (∀ s p lane, p < 32 → lane < 9 → (s.port p).lanesOk.testBit lane = false → ∃ t, exec (.laneCeLimit p lane) s = .next t ∧
    t.ctr .prtFecCorr p = (s.ctr .prtFecCorr p + 4097) % 2 ^ 64 ∧ t.ports = s.ports) ∧
  (∀ s p lane, 32 ≤ p → p < 36 → lane < 9 → (s.port p).st = .up → ∃ t, exec (.lossOfSignal p lane) s = .next t ∧ (t.port p).st = .detect ∧
    (t.port p).hasAddr = false ∧ (∀ q, q ≠ p → t.port q = s.port q)) ∧
  (∀ s p, p < 32 → (s.port p).st = .mgmtOnly → ∃ t, exec (.portLcfTimeout p) s = .next t ∧ (t.port p).st = .detect ∧ t.mem = s.mem) ∧
  (∀ s p, p < 32 → (s.port p).st = .up → ∃ t, exec (.portLcfTimeout p) s = .next t ∧ ((t.port p).st = .fastRetrain ∨ (t.port p).st = .held)) ∧
  (∀ s p, p < 32 → (s.port p).st = .fastRetrain → ∃ t, exec (.fastRetrainTimeout p) s = .next t ∧ (t.port p).st = .detect ∧ t.mem = s.mem)

/-- Training (R181 to R185): each event moves a port from its state to the next, and a port in another state stays. -/
def Obligations.TrainingFollowsItsStates : Prop :=
  (∀ s p v rank size l, p < 32 → (s.port p).st = .dark → s.id.opticsAt ≠ none → divPort s.cfg p = (v, rank, size) → s.partnerLocus v = some l →
    ∃ t, exec (.portStart p) s = .next t ∧ (t.port p).st = .detect ∧ (t.port p).dir = v ∧ (t.port p).rank = rank ∧ (t.port p).size = size ∧
      (∀ q, q ≠ p → t.port q = s.port q) ∧ t.out = s.out) ∧
  (∀ s p v rank size, p < 32 → (s.port p).st = .dark → s.id.opticsAt ≠ none → divPort s.cfg p = (v, rank, size) → s.partnerLocus v = none →
    ∃ t, exec (.portStart p) s = .next t ∧ (t.port p).st = .unused) ∧
  (∀ s p lanes, p < 32 → (s.port p).st = .detect → 4 ≤ popCount lanes 9 →
    ((List.range 32).filter (fun i => (s.port i).st == .equalise)).length < 8 → ∃ t, exec (.partnerReady p lanes) s = .next t ∧
      (t.port p).st = .equalise ∧ (∀ q, q ≠ p → t.port q = s.port q)) ∧
  (∀ s p lanes, p < 32 → 8 ≤ ((List.range 32).filter (fun i => (s.port i).st == .equalise)).length → exec (.partnerReady p lanes) s = .next s) ∧
  (∀ s p, p < 32 → (s.port p).st = .equalise → ∃ t, exec (.equaliseDone p) s = .next t ∧ (t.port p).st = .align ∧ (∀ q, q ≠ p → t.port q = s.port q)) ∧
  (∀ s p lanes, p < 32 → (s.port p).st = .align → 4 ≤ popCount lanes 9 → ∃ t, exec (.alignDone p lanes) s = .next t ∧ (t.port p).st = .ident ∧
    (t.port p).lanes = (chooseLanes lanes).1 ∧ (t.port p).spare = (chooseLanes lanes).2 ∧ lcfSent s t p) ∧
  (∀ s p lanes, p < 32 → (s.port p).st = .align → popCount lanes 9 < 4 → ∃ t, exec (.alignDone p lanes) s = .next t ∧ (t.port p).st = .backoff ∧
    (t.port p).failures = (s.port p).failures + 1) ∧
  (∀ s p, p < 32 → (s.port p).st = .equalise ∨ (s.port p).st = .align ∨ (s.port p).st = .ident → ∃ t, exec (.attemptTimeout p) s = .next t ∧
    (t.port p).st = .backoff ∧ (t.port p).failures = (s.port p).failures + 1) ∧
  (∀ s p, p < 32 → (s.port p).st = .backoff → ∃ t, exec (.backoffExpiry p) s = .next t ∧ (t.port p).st = .detect ∧ (∀ q, q ≠ p → t.port q = s.port q)) ∧
  (∀ s p, p < 32 → (s.port p).st = .held → (s.port p).heldAt ≠ none → ∃ t, exec (.heldExpiry p) s = .next t ∧ (t.port p).st = .detect) ∧
  (∀ s p, p < 32 → (s.port p).st = .held → (s.port p).heldAt = none → ∃ t, exec (.heldSignalLoss p) s = .next t ∧ (t.port p).st = .detect) ∧
  (∀ c p, c = .equaliseDone p ∨ c = .attemptTimeout p ∨ c = .backoffExpiry p ∨ c = .heldExpiry p ∨ c = .heldSignalLoss p ∨ c = .fastRetrainTimeout p →
    ∀ s : State, p < 32 → (s.port p).st = .up → exec c s = .next s)

/-- Edge ports (R200, R201, R406): the link comes up with its address unless that is a duplicate; it goes down; a frame that the filter
refuses is counted, one that it keeps changes nothing. -/
def Obligations.EdgePortsComplete : Prop :=
  (∀ s p dup, 32 ≤ p → p < 36 → (s.port p).st = .align ∨ (s.port p).st = .detect → ∃ t, exec (.edgeLinkUp p dup) s = .next t ∧
    (t.port p).st = .up ∧ (t.port p).width = 8 ∧ (t.port p).hasAddr = (!dup && s.cfg.edgeHolds (p - 32)) ∧ (∀ q, q ≠ p → t.port q = s.port q) ∧
    t.ctxs = s.ctxs) ∧
  (∀ s p, 32 ≤ p → p < 36 → (s.port p).st = .up → ∃ t, exec (.edgeLinkDown p) s = .next t ∧ (t.port p).st = .detect ∧
    (t.port p).hasAddr = false ∧ (∀ q, q ≠ p → t.port q = s.port q) ∧ t.out = s.out) ∧
  (∀ s p f, 32 ≤ p → p < 36 → (s.port p).st = .up → s.edgeKeeps p f = false → ∃ t, exec (.edgeFrameReceive p f) s = .next t ∧
    t.ctr .prtEdgeDrop p = satAdd 32 (s.ctr .prtEdgeDrop p) 1 ∧ t.ports = s.ports ∧ t.out = s.out) ∧
  (∀ s p f, 32 ≤ p → p < 36 → s.edgeKeeps p f = true → exec (.edgeFrameReceive p f) s = .next s)

/-! ### Time (08) -/

/-- The time tree (R207 to R214): an UP port sends TIME with its count and remembers it; what a TIME flit offers is kept until it expires; the
root advances its sequence; a locked entry module with no better offer is root; a class-0 root that lost its lock changes class. -/
def Obligations.TimeTreeComplete : Prop :=
  (∀ s p, p < 32 → (s.port p).st = .up → (s.port p).req = none → ∃ t, exec (.timeLcfSend p) s = .next t ∧ lcfSent s t p ∧
    (t.port p).txHistory = (s.now :: (s.port p).txHistory).take 16 ∧ (∀ q, q ≠ p → t.port q = s.port q) ∧ t.time = s.time) ∧
  (∀ s p flit stamp, s.lcfClean p 3 flit → (s.port p).st = .up → s.startsNone → ∃ t, exec (.timeLcf p flit stamp) s = .next t ∧
    (∃ o, (t.port p).offer = some o ∧ o.root = bitsOf flit.toNat 167 151 ∧ o.dist = bitsOf flit.toNat 130 123 ∧
      o.rootClass = bitsOf flit.toNat 86 85 ∧ o.rootSeq = bitsOf flit.toNat 146 131 ∧ o.tag = bitsOf flit.toNat 118 103) ∧
    (t.port p).rxStamp = some stamp ∧ (t.port p).rxTx = bitsOf flit.toNat 327 264 ∧ t.ctxs = s.ctxs ∧ t.mem = s.mem) ∧
  (∀ s p, p < 32 → ∃ t, exec (.offerExpiry p) s = .next t ∧ (t.port p).offer = none ∧ (∀ q, q ≠ p → t.port q = s.port q) ∧ t.out = s.out) ∧
  (∀ s n, s.time.isRoot = true → s.fcHeld = true → n % 1048576 = 0 → ∃ t, exec (.rootSeqAdvance n) s = .next t ∧
    t.time.rootSeq = (s.time.rootSeq + 1) % 2 ^ 16 ∧ n ≤ t.time.fc ∧ t.ports = s.ports) ∧
  (∀ s p, s.cfg.timEntry = true → s.lockedPort = some p → s.fcHeld = true → (∀ q, q < 32 → s.qualifies q = false) →
    ∃ t, exec .rootClaimTimer s = .next t ∧ t.time.isRoot = true ∧ t.time.dist = 0 ∧ t.time.root = s.locus ∧ t.time.upstream = none ∧
      t.time.rootClass = s.ownClass ∧ t.time.fc = s.time.fc) ∧
  (∀ s, s.time.isRoot = true → s.time.rootClass = 0 → s.lockedPort = none → (∀ q, q < 32 → s.qualifies q = false) →
    ∃ t, exec .ptpUnlockTimeout s = .next t ∧ t.time.rootClass = (if s.cfg.timEntry then 1 else 2) ∧ t.time.fc = s.time.fc)

/-- PTP on the edge ports (R205, R214, R216, R219): Sync and Follow_Up give the time of the master, Delay_Resp the path delay and with it the
lock; a master port answers and sends calendar time; losing Announce loses the lock. -/
def Obligations.PtpComplete : Prop :=
  (∀ s p m, 32 ≤ p → p < 36 → s.hears p m = true → m.twoStep = false → s.startsNone → ∃ t, exec (.sync p m) s = .next t ∧
    (t.ptp p).lastSync = some (m.seqId, m.rx, 0, s.ptpCount m.seconds m.nanos m.corrNs) ∧ t.out = s.out) ∧
  (∀ s p m, 32 ≤ p → p < 36 → s.hears p m = true → m.twoStep = true → ∃ t, exec (.sync p m) s = .next t ∧
    (t.ptp p).lastSync = some (m.seqId, m.rx, 1, m.corrNs) ∧ t.time.fc = s.time.fc ∧ t.out = s.out) ∧
  (∀ s p m rx corr, 32 ≤ p → p < 36 → s.hears p m = true → (s.ptp p).lastSync = some (m.seqId, rx, 1, corr) → s.startsNone →
    ∃ t, exec (.followUp p m) s = .next t ∧ (t.ptp p).lastSync = some (m.seqId, rx, 0, s.ptpCount m.seconds m.nanos (m.corrNs + corr)) ∧ t.out = s.out) ∧
  (∀ (s : State) p m (q rx : Nat) (t1 : Int) t3, 32 ≤ p → p < 36 → s.hears p m = true → (s.ptp p).lastSync = some (q, rx, 0, t1) → (s.ptp p).delayTx = some t3 →
    m.seqId = (s.ptp p).delaySeq → s.startsNone → ∃ t, exec (.delayResp p m) s = .next t ∧
      (t.ptp p).pathDelay = some ((((rx : Int) - t1) + (s.ptpCount m.seconds m.nanos (-m.corrNs) - t3)) / 2) ∧
      (s.fcHeld = true → (t.ptp p).locked = true) ∧ t.out = s.out) ∧
  (∀ s p m, 32 ≤ p → p < 36 → s.ptpMaySend p = true → m.domain = s.cfg.ptpDomain → ∃ t, exec (.delayReq p m) s = .next t ∧
    sentBetween s t (.ptp p 9 m.seqId (calOf s.cfg.epochSec m.rx).1 (calOf s.cfg.epochSec m.rx).2) ∧ t.time = s.time) ∧
  (∀ s p m a, 32 ≤ p → p < 36 → (s.port p).st = .up → s.ptpSlave p = true → m.domain = s.cfg.ptpDomain → (s.ptp p).best = none →
    ∃ t, exec (.announce p m a) s = .next t ∧ (t.ptp p).best = some a ∧ (t.ptp p).bestSource = m.sourceId ∧ (t.ptp p).locked = false ∧ t.out = s.out) ∧
  (∀ s p, 32 ≤ p → p < 36 → ∃ t, exec (.announceReceiptTimeout p) s = .next t ∧ (t.ptp p).best = none ∧ (t.ptp p).locked = false ∧
    t.time.fc = s.time.fc ∧ t.out = s.out) ∧
  (∀ s p, 32 ≤ p → p < 36 → s.ptpMaySend p = true → ∃ t, exec (.ptpSyncSend p) s = .next t ∧ (t.ptp p).seqOut = ((s.ptp p).seqOut + 1) % 2 ^ 16 ∧
    sentBetween s t (.ptp p 0 (s.ptp p).seqOut (calOf s.cfg.epochSec s.time.fc).1 (calOf s.cfg.epochSec s.time.fc).2)) ∧
  (∀ s p, 32 ≤ p → p < 36 → s.ptpMaySend p = true → ∃ t, exec (.ptpAnnounceSend p) s = .next t ∧
    (t.ptp p).announceSeq = ((s.ptp p).announceSeq + 1) % 2 ^ 16 ∧ (∃ a, sentBetween s t (.announce p (s.ptp p).announceSeq a) ∧
      (s.time.st = 3 → a.accuracy = 0xFE))) ∧
  (∀ s p, 32 ≤ p → p < 36 → (s.port p).st = .up → s.ptpSlave p = true → (s.ptp p).best ≠ none → ∃ t, exec (.ptpDelayReqSend p) s = .next t ∧
    (t.ptp p).delayTx = some s.now ∧ (t.ptp p).delaySeq = ((s.ptp p).delaySeq + 1) % 2 ^ 16 ∧
    sentBetween s t (.ptp p 1 (((s.ptp p).delaySeq + 1) % 2 ^ 16) (calOf s.cfg.epochSec s.now).1 (calOf s.cfg.epochSec s.now).2))

/-! ### Determinism (09) -/

/-- Reset alignment (R233 to R235): a locked module that is not aligned chooses a multiple of Q ahead; writers stop before it; at it the
crossings restart; errors in bounds set ALIGNED with its count, and the third failure in a row gives up. Arrivals held to their release
ticks take effect in the order of those ticks (R237). -/
def Obligations.AlignmentRunsAndReleasesInOrder : Prop :=
  (∀ s, s.cfg.detLevel = 1 → s.time.st = 2 → s.det.aligned = false → s.det.downgrade = false → s.det.phase = 0 →
    (∀ l, s.nextLaunch = some l → s.time.fc + 108192 + alignQuantum ≤ l) → ∃ t, exec .alignStart s = .next t ∧ t.det.phase = 1 ∧
      (∃ a, t.det.ta = some a ∧ a % alignQuantum = 0 ∧ s.time.fc + 100000 ≤ a ∧ a < s.time.fc + 100000 + alignQuantum) ∧ t.time = s.time) ∧
  (∀ s a, s.det.phase = 1 → s.det.ta = some a → ∃ t, exec .alignQuiesce s = .next t ∧ t.det.phase = 2 ∧ t.det.ta = some a ∧
    (s.fcHeld = true → a - 4096 ≤ t.time.fc) ∧ t.mem = s.mem) ∧
  (∀ s a, s.det.phase = 2 → s.det.ta = some a → ∃ t, exec .alignApply s = .next t ∧ t.det.phase = 3 ∧ t.mem.slotAt = [] ∧
    t.mem.bytes = s.mem.bytes ∧ (s.fcHeld = true → a ≤ t.time.fc)) ∧
  (∀ s a, s.det.phase = 3 → s.det.ta = some a → ∃ t, exec (.alignComplete true) s = .next t ∧ t.det.aligned = true ∧ t.det.count = a ∧
    t.det.tries = 0 ∧ t.det.downgrade = false ∧ t.det.phase = 0 ∧ t.out = s.out) ∧
  (∀ s a, s.det.phase = 3 → s.det.ta = some a → s.det.tries < 2 → ∃ t, exec (.alignComplete false) s = .next t ∧ t.det.aligned = false ∧
    t.det.tries = s.det.tries + 1 ∧ t.det.downgrade = s.det.downgrade ∧ t.det.phase = 0 ∧ t.ctr .alignFail 0 = satAdd 16 (s.ctr .alignFail 0) 1) ∧
  (∀ s a, s.det.phase = 3 → s.det.ta = some a → 2 ≤ s.det.tries → s.det.downgrade = false → ∃ t, exec (.alignComplete false) s = .next t ∧ t.det.aligned = false ∧
    t.det.downgrade = true ∧ (t.evBits .alignStatus 0).testBit 30 = true ∧ t.det.phase = 0) ∧
  (∀ s, s.fab.held = [] → exec .packetRelease s = .next s) ∧
  (∀ s a h k ready x, s.fab.held = [(a, .recoveryNotice h k ready)] → s.coordCtx h.src h.step = some x → ∃ t, exec .packetRelease s = .next t ∧
    t.fab.held = [] ∧ (t.ctx x).coord.ready = max (s.ctx x).coord.ready ready ∧ (s.fcHeld = true → a ≤ t.time.fc) ∧ t.out = s.out) ∧
  (∀ s a b c g h k j r q x, s.fab.held = [(a, .recoveryNotice g j q), (b, .recoveryNotice h k r)] → b < a → c = max (s.ctx x).coord.ready r →
    s.coordCtx h.src h.step = some x → ∃ t, exec .packetRelease s = .next t ∧ t.fab.held = [(a, .recoveryNotice g j q)] ∧
      (t.ctx x).coord.ready = c)

/-! ### Containment (11) -/

/-- HANG_WINDOW_EXPIRY (R284, R285, Table 11.3): the hang is counted and reported, and the row's first action follows; a second window with no
progress brings the second. Bounds, refills and links (R276, R279, R283): an overrun level-2 action becomes a partition reset, which
clears the partition and nothing outside it; a refill with nothing left is over; the first failed die link breaks the ring at the
boundary, a second loses the module. -/
def Obligations.FaultsAreContained : Prop :=
  (∀ s u, hasUnit u = true → ∃ t, exec (.hangWindowExpiry u) s = .next t) ∧
  (∀ s d, d < 4 → KMap.find s.recov.hangs (hangKey (.crossing d)) = none → 1 < s.cfg.transientLimit →
    KMap.getD s.recov.transients (hangKey (.crossing d)) [] = [] → ∃ t, exec (.hangWindowExpiry (.crossing d)) s = .next t ∧
      t.ctr .recHang 0 = satAdd 32 (s.ctr .recHang 0) 1 ∧ KMap.find t.recov.hangs (hangKey (.crossing d)) = some s.now ∧
      (∀ x, x < 16 → (s.ctx x).st = .running → (t.ctx x).faulted = (s.ctx x).faulted ∧
        ctrlSent s t (s.ctx x).coordLocus 0x05 (s.ctx x).step (s.ctx x).attempt (FaultParam.of 4 0x31).pack) ∧ t.mem = s.mem) ∧
  (∀ s p, p < 16 → KMap.find s.recov.hangs (hangKey (.dma p)) = none → 1 < s.cfg.transientLimit → 1 < s.cfg.escalateCount →
    KMap.getD s.recov.transients (hangKey (.dma p)) [] = [] → (∀ k, KMap.getD s.recov.actions k [] = []) → s.recov.completed = [] →
    ∃ t, exec (.hangWindowExpiry (.dma p)) s = .next t ∧ t.ctr .recL2 0 = satAdd 32 (s.ctr .recL2 0) 1 ∧ t.mem = s.mem ∧
      (∀ x, x < 16 → (s.ctx x).st = .running → inMask (s.ctx x).mask p = true → (t.ctx x).faulted = true) ∧
      (∀ x, (s.ctx x).st ≠ .running ∨ inMask (s.ctx x).mask p = false → t.ctx x = s.ctx x)) ∧
  (∀ s p a, p < 32 → KMap.find s.recov.hangs (hangKey (.port p)) = some a → s.now ≤ a + hangWindow s.cfg (.port p) →
    ∃ t, exec (.hangWindowExpiry (.port p)) s = .next t ∧ (t.port p).st = .held ∧ KMap.find t.recov.hangs (hangKey (.port p)) = none ∧ t.mem = s.mem) ∧
  (∀ s h c, h < 2 → c < 4 → KMap.find s.recov.hangs (hangKey (.calCore h c)) = none → s.cal.owner = some h →
    ∃ t, exec (.hangWindowExpiry (.calCore h c)) s = .next t ∧ t.cal.owner = none ∧ t.ctxs = s.ctxs ∧ t.mem = s.mem) ∧
  (∀ s p, p < 16 → 1 < s.cfg.escalateCount → (∀ k, KMap.getD s.recov.actions k [] = []) → s.recov.completed = [] →
    ∃ t, exec (.actionBoundExpiry (.dma p) 2) s = .next t ∧ t.ctr .recL3 0 = satAdd 16 (s.ctr .recL3 0) 1 ∧
      (∀ a, t.byte a = if addrPart a = p then 0#8 else s.byte a) ∧ (∀ x, (t.ctx x).st = (s.ctx x).st)) ∧
  (∀ s u level, hasUnit u = true → level < 2 ∨ 4 < level → exec (.actionBoundExpiry u level) s = .next s) ∧
  (∀ s p, p < 16 → KMap.find s.mem.refill p = some 0 → ∃ t, exec (.partitionRefillDone p) s = .next t ∧ KMap.find t.mem.refill p = none ∧
    t.mem.bytes = s.mem.bytes) ∧
  (∀ s p, p < 16 → KMap.find s.mem.refill p ≠ some 0 → exec (.partitionRefillDone p) s = .next s) ∧
  (∀ s pos, pos < 4 → s.recov.dieLinks = [] → ∃ t, exec (.dieLinkFail pos) s = .next t ∧ t.recov.dieLinks = [pos] ∧
    t.fab.dieBreakPending = some pos ∧ t.fab.dieBreak = s.fab.dieBreak ∧ t.recov.lost = s.recov.lost ∧
    (∀ x, x < 16 → (s.ctx x).st = .running → (t.ctx x).faulted = true) ∧ t.mem = s.mem) ∧
  (∀ s pos n, pos < 4 → s.recov.dieLinks = [n] → n ≠ pos → s.recov.lost = false → ∃ t, exec (.dieLinkFail pos) s = .next t ∧
    t.recov.lost = true ∧ (∀ x, x < 16 → (s.ctx x).st = .armed ∨ (s.ctx x).st = .running ∨ (s.ctx x).st = .held →
      ctrlSent s t (s.ctx x).coordLocus 0x66 (s.ctx x).step (s.ctx x).attempt 4))

/-- Caldera's halves and CAL_OWN (R287 to R292): the owner that fails releases the line and a healthy half takes it; a half that fails too
often is fenced; with no owner for 1 ms the module asks for a power cycle. -/
def Obligations.OneCalderaHalfOwns : Prop :=
  (∀ s c, s.cal.owner = some 0 → s.cal.releasesA.length + 1 < s.cfg.escalateCount → ∃ t, exec (.calHalfFault 0 c) s = .next t ∧
    t.cal.owner = none ∧ t.cal.okA = false ∧ t.cal.okB = s.cal.okB ∧ t.cal.fencedA = s.cal.fencedA ∧ t.flash = s.flash ∧ t.ctxs = s.ctxs) ∧
  (∀ s c, s.cal.owner = some 0 → s.cfg.escalateCount ≤ 1 → ∃ t, exec (.calHalfFault 0 c) s = .next t ∧
    t.cal.owner = none ∧ t.cal.fencedA = true ∧ t.flash.fencedHalf = some 0 ∧ t.copies = 1) ∧
  (∀ s c, s.cal.owner ≠ some 1 → ∃ t, exec (.calHalfFault 1 c) s = .next t ∧ t.cal.owner = s.cal.owner ∧ t.cal.okB = false ∧
    t.cal.okA = s.cal.okA ∧ t.ctxs = s.ctxs) ∧
  (∀ s, s.cal.fencedA = false → s.cal.fencedB = false → ∃ t, exec (.selfTest true true) s = .next t ∧ t.cal.okA = true ∧ t.cal.okB = true ∧
    t.cal.owner = s.cal.owner) ∧
  (∀ s, s.cal.owner = some 0 → s.cal.fencedA = false → ∃ t, exec (.selfTest true false) s = .next t ∧ t.cal.okA = true ∧ t.cal.okB = false ∧
    t.cal.owner = some 0) ∧
  (∀ s, s.cal.owner = none → s.cal.okB = true → s.cal.fencedB = false → s.cal.last = some 0 → ∃ t, exec (.calOwnAcquire 1) s = .next t ∧
    t.cal.owner = some 1 ∧ t.cal.last = some 1 ∧ t.ctr .recCalTakeover 0 = satAdd 16 (s.ctr .recCalTakeover 0) 1 ∧
    (t.evBits .calHalf 0).testBit 25 = true ∧ t.ctxs = s.ctxs) ∧
  (∀ s half, half < 2 → s.cal.owner ≠ none → exec (.calOwnAcquire half) s = .next s) ∧
  (∀ s, s.cal.owner = none → s.pins.pwrCycleReq = false → ∃ t, exec .calOwnTimeout s = .next t ∧ t.pins.pwrCycleReq = true ∧
    t.pins.interlockOut = false ∧ t.ctr .recL5 0 = satAdd 16 (s.ctr .recL5 0) 1 ∧ t.ctxs = s.ctxs) ∧
  (∀ s, s.cal.owner ≠ none → exec .calOwnTimeout s = .next s)

/-! ### The job coordinator (11) -/

/-- The lease (R293 to R297): beats carry its end; when it is over the standby takes over with the next epoch; a message of a higher epoch
stops a coordinator, which in form 0 is standby from then on. -/
def Obligations.LeasesPassTheCoordinator : Prop :=
  (∀ s x, (s.ctx x).coord.active = true → (s.ctx x).coord.standby ≠ s.locus → ∃ t, exec (.coordBeatSend x) s = .next t ∧
    ctrlSent s t (s.ctx x).coord.standby 0x60 0 0 (field (s.now + s.cfg.coordLeaseUs * 1000) 64 0 + field (s.ctx x).coord.epoch 32 160) ∧
    (∃ q, (t.ctx x).coord.beatSent = some (q, s.time.loc, s.now + s.cfg.coordLeaseUs * 1000)) ∧ (∀ y, y ≠ x → t.ctx y = s.ctx y) ∧ t.mem = s.mem) ∧
  (∀ s h e epoch x, s.serves h epoch x → ∃ t, exec (.coordBeat h e epoch) s = .next t ∧ (t.ctx x).coord.heardAt = some t.time.loc ∧
    (t.ctx x).coord.heardEnd = e ∧ (t.ctx x).adopted = epoch ∧ (∀ y, y ≠ x → (t.ctx y).coord = (s.ctx y).coord) ∧ t.mem = s.mem) ∧
  (∀ s x, (s.ctx x).coord.active = true → s.mayIssue x = false → ∃ t, exec (.leaseEnd x) s = .next t ∧ t.pins.interlockOut = false ∧ t.ctxs = s.ctxs) ∧
  (∀ s x, s.mayIssue x = true → exec (.leaseEnd x) s = .next s) ∧
  (∀ s x, s.leaseOver x = true → s.interlockFree x = true → ∃ t, exec (.leaseExpiry x) s = .next t ∧ (t.ctx x).coord.active = true ∧
    (t.ctx x).coord.epoch = (s.ctx x).adopted + 1 ∧ (t.ctx x).coord.takeover = some [] ∧
    t.ctr .recCoordTakeover 0 = satAdd 16 (s.ctr .recCoordTakeover 0) 1 ∧
    (∀ l ∈ (s.ctx x).pmap, ctrlSent s t l 0x61 0 0 (field s.locus 17 0 + field ((s.ctx x).adopted + 1) 32 160)) ∧
    (∀ y, y ≠ x → t.ctx y = s.ctx y) ∧ t.mem = s.mem) ∧
  (∀ s x, s.leaseOver x = false ∨ s.interlockFree x = false → exec (.leaseExpiry x) s = .next s) ∧
  (∀ s, ∃ t, exec .interlockInFall s = .next t ∧ t.cal.interlockIn = false ∧ t.cal.interlockLowAt = some s.time.loc ∧ t.cal.owner = s.cal.owner) ∧
  (∀ s x, s.leaseOver x = true → s.cfg.coordInterlock = true → s.cal.interlockIn = true → ∃ t, exec (.interlockStuck x) s = .next t ∧
    (t.ctx x).coord.active = true ∧ (t.ctx x).coord.epoch = (s.ctx x).adopted + 1 ∧ (t.evBits .calHalf 0).testBit 23 = true ∧ t.mem = s.mem) ∧
  (∀ s h l epoch x, s.serves h epoch x → (s.ctx x).adopted < epoch → (s.ctx x).coord.active = true → h.src ≠ s.locus → (s.ctx x).coordForm = 0 →
    ∃ t, exec (.takeover h l epoch) s = .next t ∧ (t.ctx x).coord.active = false ∧ (t.ctx x).coord.heardAt = some t.time.loc ∧
      t.pins.interlockOut = false ∧ (t.ctx x).coordLocus = l ∧ (t.ctx x).adopted = epoch ∧ t.mem = s.mem) ∧
  (∀ s h l epoch x, s.serves h epoch x → ∃ t, exec (.takeover h l epoch) s = .next t ∧ (t.ctx x).coordLocus = l ∧ (t.ctx x).adopted = epoch ∧
    ctrlSent s t l 0x62 (s.ctx x).lastStep (s.ctx x).attempt
      (field (s.ctx x).attempt 4 0 + field (b2n (s.ctx x).confirmed) 1 4 + field (b2n (s.ctx x).faulted) 1 5 +
        field (b2n (s.ctx x).launch.isSome) 1 6 + field (b2n ((s.ctx x).st == .held)) 1 7 + field ((s.ctx x).launch.getD 0) 64 64 + field epoch 32 160) ∧
    t.mem = s.mem)

/-- Settling a take-over, probes and losses (R286, R296, R298): the last TAKEOVER_STATE ends the take-over; a participant that does not answer
is lost; a reply extends the deadline; a loss names a spare in MODULE_LOST, or holds the job where there is none. -/
def Obligations.ProbesAndLossesComplete : Prop :=
  (∀ s h k cf fa hl held launch epoch x l, s.takes h = true → s.liveCtxs = [x] → (s.ctx x).coord.takeover = some l → h.src ∈ (s.ctx x).pmap →
    (s.ctx x).coord.taking = [] → (∃ p ∈ (s.ctx x).pmap, p ≠ h.src ∧ ∀ u ∈ l, u.locus ≠ p) →
    ∃ t, exec (.takeoverState h k cf fa hl held launch epoch) s = .next t ∧
      (t.ctx x).coord.takeover = some (l.filter (fun u => u.locus != h.src) ++
        [{ locus := h.src, committed := h.step, attempt := k, confirmed := cf, faulted := fa, hasLaunch := hl, held, launch }]) ∧ t.mem = s.mem) ∧
  (∀ s h k cf fa hl held launch epoch x, s.takes h = true → s.liveCtxs = [x] → (s.ctx x).coord.takeover = some [] → (s.ctx x).pmap = [h.src] →
    ∃ t, exec (.takeoverState h k cf fa hl held launch epoch) s = .next t ∧ (t.ctx x).coord.takeover = none ∧ (held = true → (t.ctx x).coord.held = true) ∧
      t.mem = s.mem) ∧
  (∀ s x l locus, (s.ctx x).coord.takeover = some l → (∀ u ∈ l, u.locus ≠ locus) → locus ∈ (s.ctx x).pmap → s.mayIssue x = true →
    ∃ t, exec (.takeoverStateTimeout x locus) s = .next t ∧ locus ∈ (t.ctx x).coord.lost ∧ t.mem = s.mem) ∧
  (∀ s x l locus u, (s.ctx x).coord.takeover = some l → u ∈ l → u.locus = locus → exec (.takeoverStateTimeout x locus) s = .next s) ∧
  (∀ s h epoch x, s.serves h epoch x → (s.ctx x).confirmed = false → (s.ctx x).committed ≠ some h.step → s.mem.refill = [] →
    (s.ctx x).gey.fetching = [] → (s.ctx x).gey.takingFrom = none → ∃ t, exec (.probe h epoch) s = .next t ∧
      ctrlSent s t h.src 0x64 h.step (s.ctx x).attempt (field (s.ctx x).attempt 4 0 + field (if (s.ctx x).launched then 0 else 3) 4 4 + field 0 3 8) ∧
      t.mem = s.mem) ∧
  (∀ s h k level x p, s.coordinates h x → KMap.find (s.ctx x).coord.probes h.src = some p → p.extends_ < s.cfg.coordExtend →
    h.src ∈ (s.ctx x).pmap → KMap.find (s.ctx x).coord.confirms h.src = none → ∃ t, exec (.probeReply h k 0 level) s = .next t ∧
      (t.ctx x).coord.deadline = max (s.ctx x).coord.deadline ((s.ctx x).coord.passed + (s.ctx x).dOffset / 4) ∧
      KMap.find (t.ctx x).coord.probes h.src = some { p with answered := true, extends_ := p.extends_ + 1 } ∧ t.mem = s.mem) ∧
  (∀ s h k level b x p, s.coordinates h x → KMap.find (s.ctx x).coord.probes h.src = some p → p.recovering = false → levelBound level = some b →
    h.src ∈ (s.ctx x).pmap → KMap.find (s.ctx x).coord.confirms h.src = none → ∃ t, exec (.probeReply h k 1 level) s = .next t ∧
      (t.ctx x).coord.deadline = max (s.ctx x).coord.deadline ((s.ctx x).coord.passed + b) ∧ t.mem = s.mem) ∧
  (∀ s x locus p sp more, KMap.find (s.ctx x).coord.probes locus = some p → p.answered = false → locus ∈ (s.ctx x).pmap → s.mayIssue x = true →
    (s.ctx x).coord.taking = [] → (s.ctx x).coord.held = false → (∃ l ∈ (s.ctx x).pmap, l ≠ locus) →
    (s.ctx x).freeSpares = sp :: more → (s.ctx x).coord.failed < 13 → (s.ctx x).coord.failed + 1 < s.cfg.reexecLimit →
    ∃ t, exec (.probeTimeout x locus) s = .next t ∧ locus ∈ (t.ctx x).coord.lost ∧
      (t.ctx x).pmap = insertAsc sp ((s.ctx x).pmap.filter (· != locus)) ∧ (t.ctx x).coord.collecting ≠ none ∧
      (∀ l ∈ (t.ctx x).pmap, ctrlSent s t l 0x07 (s.ctx x).coord.step (s.ctx x).coord.attempt
        (field locus 17 0 + field sp 17 32 + field (s.ctx x).coord.epoch 32 160)) ∧ t.mem = s.mem) ∧
  (∀ s x locus p, KMap.find (s.ctx x).coord.probes locus = some p → p.answered = true → exec (.probeTimeout x locus) s = .next s) ∧
  (∀ s h reason x, s.takes h = true → s.liveCtxs = [x] → (s.ctx x).coord.active = true → h.src ∈ (s.ctx x).pmap → (s.atEffect h).mayIssue x = true →
    (s.ctx x).coord.taking = [] → (s.ctx x).pmap ≠ [h.src] → (s.ctx x).freeSpares = [] →
    ∃ t, exec (.selfLost h reason) s = .next t ∧ h.src ∈ (t.ctx x).coord.lost ∧ (t.ctx x).coord.held = true ∧
      (∀ l ∈ (s.ctx x).pmap, ctrlSent s t l 0x65 (s.ctx x).coord.step (s.ctx x).coord.attempt (4 + field (s.ctx x).coord.epoch 32 160)) ∧ t.mem = s.mem) ∧
  (∀ s h k ready x, s.coordinates h x → ∃ t, exec (.recoveryNotice h k ready) s = .next t ∧
    (t.ctx x).coord.ready = max (s.ctx x).coord.ready ready ∧ (∀ y, y ≠ x → (t.ctx y).coord = (s.ctx y).coord) ∧ t.mem = s.mem)

/-! ### Geyser: binding, take-overs, reseeds (12) -/

/-- Binding (R309): the module named keeps one partner's copy and answers; an accepted bind is followed by every protected block; until then
it is repeated, and after 10 s noted. -/
def Obligations.BindsAndSeedsComplete : Prop :=
  (∀ s h j x, s.takes h = true → s.jobById j = some x → h.src ≠ s.locus → (s.ctx x).gey.partner = none → ∃ t, exec (.geyBind h j) s = .next t ∧
    (t.ctx x).gey.partner = some { locus := h.src, committed := [], pending := [], seeded := false, withheld := [] } ∧
    ctrlSent s t h.src 0x41 0 0 (b2n true + field j 32 32) ∧ t.mem = s.mem) ∧
  (∀ s h j x p, s.takes h = true → s.jobById j = some x → (s.ctx x).gey.partner = some p → p.locus ≠ h.src → ∃ t, exec (.geyBind h j) s = .next t ∧
    (∀ y, (t.ctx y).gey = (s.ctx y).gey) ∧ ctrlSent s t h.src 0x41 0 0 (b2n false + field j 32 32) ∧ t.mem = s.mem) ∧
  (∀ s h j x, s.takes h = true → s.jobById j = some x → (s.ctx x).gey.bound = false → (s.ctx x).gey.buddy = h.src →
    ∃ t, exec (.geyBindReply h true j) s = .next t ∧ (t.ctx x).gey.bound = true ∧ (t.ctx x).gey.bindSince = none ∧
      (t.ctx x).gey.buddyValid = (s.protectedBlocks x (fun _ => true)).isEmpty ∧
      (∀ b ∈ s.protectedBlocks x (fun _ => true), blockSent s t x h.src (s.ctx x).lastStep b.1 b.2.2.1 b.2.2.2.1 b.2.2.2.2) ∧ t.mem = s.mem) ∧
  (∀ s h j, s.takes h = true → ∃ t, exec (.geyBindReply h false j) s = .next t ∧ (∀ y, (t.ctx y).gey = (s.ctx y).gey) ∧ t.mem = s.mem) ∧
  (∀ s x, (s.ctx x).st ≠ .empty → (s.ctx x).gey.bound = false → (s.ctx x).gey.bindSince ≠ none → (s.ctx x).gey.buddy ≠ s.locus →
    (∃ t, exec (.geyBindRetry x) s = .next t ∧ ctrlSent s t (s.ctx x).gey.buddy 0x40 0 0 (field (s.ctx x).jobId 32 32) ∧ t.ctxs = s.ctxs) ∧
    (∃ t, exec (.geyBindTimeout x) s = .next t ∧ (t.evBits .geyStatus 0).testBit 28 = true ∧ t.ctxs = s.ctxs ∧ t.out = s.out)) ∧
  (∀ s x, (s.ctx x).gey.bound = true → exec (.geyBindRetry x) s = .next s ∧ exec (.geyBindTimeout x) s = .next s)

/-- Spares and take-overs (R312 to R316): spares are kept in their order; the holder of a lost module's copy sends its committed part to the
spare; the spare that has all of it tells the coordinator, which then waits for it no more. Reseeds and fetches (R280, R315): the
committed blocks of the partitions named go to the buddy again; the holder answers a fetch with its block. -/
def Obligations.CopiesAreTakenReseededAndFetched : Prop :=
  (∀ s h j x, s.takes h = true → s.jobById j = some x → h.src ∉ (s.ctx x).coord.spares → ∃ t, exec (.geySpareReady h j) s = .next t ∧
    (t.ctx x).coord.spares = (s.ctx x).coord.spares ++ [h.src] ∧ (∀ y, y ≠ x → (t.ctx y).coord = (s.ctx y).coord) ∧ t.mem = s.mem) ∧
  (∀ s h lost spare epoch x p, s.serves h epoch x → (s.ctx x).gey.partner = some p → p.locus = lost → ∃ t, exec (.geyTake h lost spare epoch) s = .next t ∧
    (t.ctx x).gey.partner = some { p with locus := spare, pending := [] } ∧
    (t.ctx x).gey.takeSend = (if p.committed.isEmpty then none else some (lost, spare)) ∧ t.ctr .geyTakeover 0 = satAdd 16 (s.ctr .geyTakeover 0) 1 ∧
    (∀ b ∈ (s.ctx x).copyBlocks p.committed, blockSent s t x spare h.step b.1 b.2.2.1 b.2.2.2.1 b.2.2.2.2) ∧ t.mem = s.mem) ∧
  (∀ s h lost spare epoch x p, s.serves h epoch x → (s.ctx x).gey.partner = some p → p.locus ≠ lost → p.locus ≠ spare →
    ∃ t, exec (.geyTake h lost spare epoch) s = .next t ∧ (t.ctx x).gey = (s.ctx x).gey ∧ t.mem = s.mem) ∧
  (∀ s x t0, (s.ctx x).gey.takeStart = some t0 → ∃ t, exec (.takeCopyComplete x) s = .next t ∧ (t.ctx x).gey.bound = true ∧
    (t.ctx x).gey.buddyValid = true ∧ (t.ctx x).gey.takeStart = none ∧ (t.ctx x).gey.buddy = (s.ctx x).gey.takingFrom.getD (s.ctx x).gey.buddy ∧
    ctrlSent s t (s.ctx x).coordLocus 0x44 (s.ctx x).lastStep 0 (field (t.ctx x).stateSum 64 64) ∧
    (8000000000 < s.time.loc - t0 → (t.evBits .geyStatus 0).testBit 25 = true) ∧ (∀ y, y ≠ x → t.ctx y = s.ctx y)) ∧
  (∀ s x, (s.ctx x).gey.takeStart = none → exec (.takeCopyComplete x) s = .next s) ∧
  (∀ s h sum x, s.takes h = true → s.coordCtx h.src (nextStep h.step) = some x → ∃ t, exec (.geyTakeDone h sum) s = .next t ∧
    (t.ctx x).coord.taking = (s.ctx x).coord.taking.filter (fun e => e.2 != h.src) ∧ (∀ y, y ≠ x → (t.ctx y).coord = (s.ctx y).coord) ∧ t.mem = s.mem) ∧
  (∀ s h mask x, s.takes h = true → s.liveCtxs = [x] → (s.ctx x).gey.buddy = h.src → 3 ≤ (s.ctx x).st.code → ∃ t, exec (.geyReseed h mask) s = .next t ∧
    t.ctr .geyReseed 0 = satAdd 16 (s.ctr .geyReseed 0) 1 ∧
    (t.ctx x).gey.buddyValid = (s.protectedBlocks x (fun p => mask.testBit p)).isEmpty ∧
    (∀ b ∈ s.protectedBlocks x (fun p => mask.testBit p), blockSent s t x h.src (s.ctx x).lastStep b.1 b.2.2.1 b.2.2.2.1 b.2.2.2.2) ∧ t.mem = s.mem) ∧
  (∀ s h tensorId block x p b, s.takes h = true → s.liveCtxs = [x] → (s.ctx x).gey.partner = some p → p.locus = h.src →
    KMap.find p.committed (blockKey tensorId block) = some b → ∃ t, exec (.geyFetch h tensorId block) s = .next t ∧
      (∀ e ∈ (s.ctx x).copyBlocks [(blockKey tensorId block, b)], blockSent s t x h.src h.step e.1 e.2.2.1 b.check b.bytes) ∧
      (∀ y, (t.ctx y).gey = (s.ctx y).gey) ∧ t.mem = s.mem) ∧
  (∀ s h tensorId block, s.takes h = true → (∀ x, (s.ctx x).gey.partner = none) → ∃ t, exec (.geyFetch h tensorId block) s = .next t ∧
    (∀ y, (t.ctx y).gey = (s.ctx y).gey) ∧ t.mem = s.mem)

/-! ### Geyser: checkpoints and restores (12) -/

/-- Checkpoints (R317 to R320): GEY_CKPT pins the committed blocks and runs; with no gateway it has FAILED, beside a running one it is
SKIPPED; too slow, it has FAILED; the coordinator has a complete checkpoint once all have STORED it. Restores (R325): GEY_RESTORE discards
the step and asks a gateway for the manifest, and fails with NOT_FOUND where none is up; with every shard in, the module stands after step
K and says so; the coordinator relaunches a held job when all have restored it. -/
def Obligations.CheckpointsAndRestoresComplete : Prop :=
  (∀ s h epoch x, s.serves h epoch x → (s.ctx x).gey.ckpt = none → (s.ctx x).lastStep = h.step → s.cfg.geyGwCount ≠ 0 →
    ∃ t, exec (.geyCkpt h epoch) s = .next t ∧ (∃ k, (t.ctx x).gey.ckpt = some k ∧ k.step = h.step ∧ k.commitTick = (s.ctx x).commitTick ∧
      k.since = t.time.loc) ∧ (t.ctx x).gey.pins = [] ∧ (∀ y, y ≠ x → (t.ctx y).gey = (s.ctx y).gey) ∧ t.mem = s.mem) ∧
  (∀ s h epoch x, s.serves h epoch x → (s.ctx x).gey.ckpt = none → (s.ctx x).lastStep = h.step → s.cfg.geyGwCount = 0 →
    ∃ t, exec (.geyCkpt h epoch) s = .next t ∧ (t.ctx x).gey.ckpt = none ∧ ctrlSent s t h.src 0x48 h.step 0 1 ∧
      t.ctr .geyCkptFail 0 = satAdd 16 (s.ctr .geyCkptFail 0) 1 ∧ (t.evBits .geyStatus 0).testBit 27 = true ∧ t.mem = s.mem) ∧
  (∀ s h epoch x k, s.serves h epoch x → (s.ctx x).gey.ckpt = some k → ∃ t, exec (.geyCkpt h epoch) s = .next t ∧
    (t.ctx x).gey = (s.ctx x).gey ∧ ctrlSent s t h.src 0x48 h.step 0 2 ∧ t.mem = s.mem) ∧
  (∀ s x k, (s.ctx x).gey.ckpt = some k → ∃ t, exec (.ckptTimeout x) s = .next t ∧ (t.ctx x).gey.ckpt = none ∧ (t.ctx x).gey.pins = [] ∧
    ctrlSent s t (s.ctx x).coordLocus 0x48 k.step 0 1 ∧ (∀ e ∈ t.gey.xfers, ¬(e.2.ctx = x ∧ e.2.writing = true)) ∧
    (∀ y, y ≠ x → t.ctx y = s.ctx y) ∧ t.mem = s.mem) ∧
  (∀ s x, (s.ctx x).gey.ckpt = none → exec (.ckptTimeout x) s = .next s) ∧
  (∀ s h status x l, s.takes h = true → s.coordCtx h.src (nextStep h.step) = some x → (s.ctx x).coord.ckpt = some (h.step, l) →
    (∀ e ∈ l, e.1 ≠ h.src ∧ e.2 = 0) → (∀ p ∈ (s.ctx x).pmap, p ≠ h.src → ∃ e ∈ l, e.1 = p) → ∃ t, exec (.geyCkptDone h status) s = .next t ∧
      (t.ctx x).coord.ckpt = none ∧ (t.ctx x).coord.ckptComplete = (if status = 0 then some h.step else (s.ctx x).coord.ckptComplete) ∧ t.mem = s.mem) ∧
  (∀ s h status x l p, s.takes h = true → s.coordCtx h.src (nextStep h.step) = some x → (s.ctx x).coord.ckpt = some (h.step, l) →
    (∀ e ∈ l, e.1 ≠ h.src ∧ e.1 ≠ p) → p ∈ (s.ctx x).pmap → p ≠ h.src → ∃ t, exec (.geyCkptDone h status) s = .next t ∧
      (t.ctx x).coord.ckpt = some (h.step, l ++ [(h.src, status)]) ∧ (t.ctx x).coord.ckptComplete = (s.ctx x).coord.ckptComplete ∧ t.mem = s.mem) ∧
  (∀ s h j epoch x, s.serves h epoch x → (∀ g, g ∉ List.range s.cfg.geyGwCount ∨ g ∈ s.gey.gwDown) → ∃ t, exec (.geyRestore h j epoch) s = .next t ∧
    (t.ctx x).gey.restore = none ∧ (t.ctx x).pend = [] ∧ ctrlSent s t h.src 0x4A h.step 0 (field 1 8 0 + field 0 64 64)) ∧
  (∀ s h j epoch x, s.serves h epoch x → 0 < s.cfg.geyGwCount → s.gey.gwDown = [] → ∃ t, exec (.geyRestore h j epoch) s = .next t ∧
    (∃ r, (t.ctx x).gey.restore = some r ∧ r.step = h.step ∧ r.jobId = j ∧ r.manifest = none) ∧ (t.ctx x).pend = [] ∧
    (∃ v, KMap.find t.gey.xfers s.gey.nextHandle = some v ∧ v.ctx = x ∧ v.writing = false ∧ v.shard = 0xFFFFFFFF ∧ v.step = h.step ∧ v.jobId = j)) ∧
  (∀ s x r m, (s.ctx x).gey.restore = some r → r.manifest = some m → r.left = [] → r.running = 0 → ∃ t, exec (.restoreComplete x) s = .next t ∧
    (t.ctx x).committed = some r.step ∧ (t.ctx x).step = nextStep r.step ∧ (t.ctx x).attempt = 0 ∧ (t.ctx x).gey.restore = none ∧
    (t.ctx x).gey.restored = some r.step ∧ ctrlSent s t (s.ctx x).coordLocus 0x4A r.step 0 (field 0 8 0 + field (t.ctx x).stateSum 64 64)) ∧
  (∀ s x, (s.ctx x).gey.restore = none → exec (.restoreComplete x) s = .next s) ∧
  (∀ s h sum x j l p, s.takes h = true → s.liveCtxs = [x] → (s.ctx x).coord.restore = some (h.step, j, l) → (s.ctx x).coord.active = true →
    (s.ctx x).coord.started = true → (∀ e ∈ l, e.1 ≠ h.src ∧ e.1 ≠ p) → p ∈ (s.ctx x).pmap → p ≠ h.src →
    ∃ t, exec (.geyRestored h 0 sum) s = .next t ∧ (t.ctx x).coord.restore = some (h.step, j, l ++ [(h.src, 0)]) ∧
      (t.ctx x).coord.held = (s.ctx x).coord.held ∧ t.mem = s.mem) ∧
  (∀ s h sum x j l, s.takes h = true → s.liveCtxs = [x] → (s.ctx x).coord.restore = some (h.step, j, l) → (s.ctx x).coord.active = true →
    (s.ctx x).coord.started = true → (∀ e ∈ l, e.1 ≠ h.src) → (∀ p ∈ (s.ctx x).pmap, p ≠ h.src → ∃ e ∈ l, e.1 = p) → (s.ctx x).committed = some h.step →
    ∃ t, exec (.geyRestored h 0 sum) s = .next t ∧ (t.ctx x).coord.restore = none ∧ (t.ctx x).coord.held = false ∧
      (t.ctx x).coord.step = nextStep h.step ∧
      (∀ p ∈ (s.ctx x).pmap, ∃ l, ctrlSent s t p 0x08 (nextStep h.step) 0 (l + field (s.ctx x).coord.epoch 32 160)) ∧ t.mem = s.mem)

/-! ### Geyser: the shard protocol (12) -/

/-- Writing transfers (R327 to R329): OK opens the window and data flows, BUSY waits, REFUSED goes to the next gateway; DACK moves on and at
the end CLOSE carries the digest; STORED ends the transfer, a mismatch sends the object again under a new HANDLE. -/
def Obligations.WritingTransfersComplete : Prop :=
  (∀ s m v, KMap.find s.gey.xfers m.handle = some v → m.version = 1 → v.writing = true → v.phase = 0 → m.status = 0 →
    ∃ t, exec (.openReply m) s = .next t ∧ (∃ w, KMap.find t.gey.xfers m.handle = some w ∧ w.phase = 1 ∧ w.window = m.window ∧ w.acked = v.acked ∧
      v.sent ≤ w.sent) ∧ (v.sent < v.total → v.sent - v.acked < m.window * 8192 → shardSent s t m.handle v 3 v.sent (slice v.object v.sent 8192)) ∧
      t.ctxs = s.ctxs ∧ t.mem = s.mem) ∧
  (∀ s m v, KMap.find s.gey.xfers m.handle = some v → m.version = 1 → v.writing = true → v.phase = 0 → m.status = 1 →
    ∃ t, exec (.openReply m) s = .next t ∧ (∃ w, KMap.find t.gey.xfers m.handle = some w ∧ w.phase = 3) ∧ t.out = s.out ∧ t.ctxs = s.ctxs) ∧
  (∀ s m v g, KMap.find s.gey.xfers m.handle = some v → m.version = 1 → v.writing = true → v.phase = 0 → 2 ≤ m.status →
    s.nextGateway (v.gateway + 1) [v.gateway] = some g → m.handle ≠ s.gey.nextHandle → ∃ t, exec (.openReply m) s = .next t ∧
      KMap.find t.gey.xfers m.handle = none ∧ (∃ w, KMap.find t.gey.xfers s.gey.nextHandle = some w ∧ w.gateway = g ∧ w.phase = 0 ∧ w.object = v.object) ∧
      (v.shard ≠ 0xFFFFFFFF → t.ctxs = s.ctxs)) ∧
  (∀ s h v, KMap.find s.gey.xfers h = some v → v.phase = 3 → ∃ t, exec (.busyRetryDelayExpiry h) s = .next t ∧
    (∃ w, KMap.find t.gey.xfers h = some w ∧ w.phase = 0) ∧
    (v.writing = true → shardSent s t h v 1 0 (beBytes 8 v.step ++ beBytes 8 v.total ++ beBytes 4 s.locus ++ beBytes 2 arithRev ++ beBytes 10 0)) ∧
    t.ctxs = s.ctxs) ∧
  (∀ s m v, KMap.find s.gey.xfers m.handle = some v → m.version = 1 → v.writing = true → v.phase = 1 → m.offset ≤ v.sent → v.total ≤ m.offset →
    ∃ t, exec (.dack m) s = .next t ∧ (∃ w, KMap.find t.gey.xfers m.handle = some w ∧ w.phase = 2 ∧ w.acked = max v.acked m.offset) ∧
      shardSent s t m.handle v 5 v.total (sha256 v.object) ∧ t.ctxs = s.ctxs) ∧
  (∀ s m v, KMap.find s.gey.xfers m.handle = some v → m.version = 1 → v.writing = true → v.phase = 1 → m.offset ≤ v.sent → m.offset < v.total →
    ∃ t, exec (.dack m) s = .next t ∧ (∃ w, KMap.find t.gey.xfers m.handle = some w ∧ w.phase = 1 ∧ w.acked = max v.acked m.offset ∧
      w.window = m.window ∧ v.sent ≤ w.sent) ∧ t.ctxs = s.ctxs ∧ t.mem = s.mem) ∧
  (∀ s m v k, KMap.find s.gey.xfers m.handle = some v → m.version = 1 → v.writing = true → v.phase = 2 → m.status = 0 →
    (s.ctx v.ctx).gey.ckpt = some k → v.shard ≠ 0xFFFFFFFF → ∃ t, exec (.closeReply m) s = .next t ∧
      (∃ k', (t.ctx v.ctx).gey.ckpt = some k' ∧ k'.unstored = k.unstored - 1 ∧ KMap.find k'.entries v.shard ≠ none) ∧
      (∀ b ∈ v.keys, b ∉ (t.ctx v.ctx).gey.pinWait ∧ KMap.find (t.ctx v.ctx).gey.pins b = none) ∧ t.mem = s.mem) ∧
  (∀ s m v k, KMap.find s.gey.xfers m.handle = some v → m.version = 1 → v.writing = true → v.phase = 2 → m.status = 0 →
    (s.ctx v.ctx).gey.ckpt = some k → v.shard = 0xFFFFFFFF → k.manifestLeft = [v.gateway] → ∃ t, exec (.closeReply m) s = .next t ∧
      (t.ctx v.ctx).gey.ckpt = none ∧ ctrlSent s t (s.ctx v.ctx).coordLocus 0x48 k.step 0 0 ∧ t.mem = s.mem) ∧
  (∀ s m v, KMap.find s.gey.xfers m.handle = some v → m.version = 1 → v.writing = true → v.phase = 2 → m.status ≠ 0 → m.handle ≠ s.gey.nextHandle →
    ∃ t, exec (.closeReply m) s = .next t ∧ KMap.find t.gey.xfers m.handle = none ∧
      (∃ w, KMap.find t.gey.xfers s.gey.nextHandle = some w ∧ w.gateway = v.gateway ∧ w.phase = 0 ∧ w.acked = 0) ∧ t.ctxs = s.ctxs)

/-- Reading transfers and timeouts (R325, R327 to R329): FETCH_REPLY gives the length, data in order is kept and any other asked for again; a
timeout doubles up to 64 ms and the twelfth marks the gateway down until its expiry. -/
def Obligations.ReadingTransfersComplete : Prop :=
  (∀ s m v, KMap.find s.gey.xfers m.handle = some v → m.version = 1 → v.writing = false → v.phase = 0 → m.status = 0 →
    ∃ t, exec (.fetchReply m) s = .next t ∧ (∃ w, KMap.find t.gey.xfers m.handle = some w ∧ w.phase = 1 ∧ w.total = beNat (slice m.payload 0 8)) ∧
      t.ctxs = s.ctxs ∧ t.out = s.out) ∧
  (∀ s m v r, KMap.find s.gey.xfers m.handle = some v → m.version = 1 → v.writing = false → v.phase = 0 → m.status ≠ 0 →
    (s.ctx v.ctx).gey.restore = some r → s.cfg.geyGwCount = 1 → v.gateway = 0 → ∃ t, exec (.fetchReply m) s = .next t ∧
      (t.ctx v.ctx).gey.restore = none ∧ ctrlSent s t (s.ctx v.ctx).coordLocus 0x4A r.step 0 (field 1 8 0 + field 0 64 64) ∧ t.mem = s.mem) ∧
  (∀ s m v, KMap.find s.gey.xfers m.handle = some v → m.version = 1 → v.writing = false → v.phase = 1 → m.offset = v.object.length →
    v.object.length + m.payload.length < v.total → ∃ t, exec (.shardData m) s = .next t ∧
      (∃ w, KMap.find t.gey.xfers m.handle = some w ∧ w.object = v.object ++ m.payload ∧ w.phase = 1) ∧
      (v.sinceDack = 15 → shardSent s t m.handle v 4 (v.object.length + m.payload.length) []) ∧ t.ctxs = s.ctxs) ∧
  (∀ s m v, KMap.find s.gey.xfers m.handle = some v → m.version = 1 → v.writing = false → v.phase = 1 → m.offset ≠ v.object.length →
    ∃ t, exec (.shardData m) s = .next t ∧ shardSent s t m.handle v 4 v.object.length [] ∧ t.gey = s.gey ∧ t.ctxs = s.ctxs) ∧
  (∀ s h v, KMap.find s.gey.xfers h = some v → v.writing = false → v.phase = 1 → ∃ t, exec (.dackTimer h) s = .next t ∧
    shardSent s t h v 4 v.object.length [] ∧ (∃ w, KMap.find t.gey.xfers h = some w ∧ w.sinceDack = 0 ∧ w.object = v.object) ∧ t.ctxs = s.ctxs) ∧
  (∀ s h v, KMap.find s.gey.xfers h = some v → v.phase ≤ 2 → v.timeouts < 11 → ∃ t, exec (.shardRto h) s = .next t ∧
    (∃ w, KMap.find t.gey.xfers h = some w ∧ w.timeouts = v.timeouts + 1 ∧ w.rtoUs = min 64000 (2 * v.rtoUs) ∧ w.phase = v.phase) ∧
    t.ctr .geyRetx 0 = satAdd 32 (s.ctr .geyRetx 0) (if v.phase = 1 ∧ v.writing = true then ceilDiv (v.sent - v.acked) 8192 else 1) ∧ t.ctxs = s.ctxs) ∧
  (∀ s h v, KMap.find s.gey.xfers h = some v → v.phase ≤ 2 → 11 ≤ v.timeouts → ∃ t, exec (.shardRto h) s = .next t ∧ v.gateway ∈ t.gey.gwDown ∧
    t.ctr .geyGwFail 0 = satAdd 16 (s.ctr .geyGwFail 0) 1 ∧ (t.evBits .geyStatus 0).testBit 26 = true ∧ t.mem = s.mem) ∧
  (∀ s h v, KMap.find s.gey.xfers h = some v → 2 < v.phase → exec (.shardRto h) s = .next s) ∧
  (∀ s h, KMap.find s.gey.xfers h = none → exec (.shardRto h) s = .next s ∧ exec (.dackTimer h) s = .next s ∧ exec (.busyRetryDelayExpiry h) s = .next s) ∧
  (∀ s g, ∃ t, exec (.gwDownExpiry g) s = .next t ∧ t.gey.gwDown = s.gey.gwDown.erase g ∧ t.mem = s.mem)

/-! ### The event recorder (14) -/

/-- Reading the recorder (R359, R362, R363, 17 R429): a record closes; EVR_INFO says what the log holds; one freeze stands at a time; EVR_READ
returns records from a SEQ on. Releasing and clearing (R362, R364): the holder or the timeout ends a freeze; EVR_CLEAR removes closed
records up to a SEQ and severity, on its channels alone, and leaves a CLEARED record. -/
def Obligations.RecorderCommandsComplete : Prop :=
  (∀ s q, ∃ t, exec (.evrRecordClose q) s = .next t ∧ (∀ r ∈ t.evr.log ++ t.evr.spill, r.seq = q → r.isOpen = false) ∧
    (∀ r, r.seq ≠ q → (r ∈ t.evr.log ++ t.evr.spill ↔ r ∈ s.evr.log ++ s.evr.spill)) ∧ t.evr.nextSeq = s.evr.nextSeq) ∧
  (∀ s r, s.vendorServed r false false = true → ∃ t, exec (.evrInfo r) s = .next t ∧ (r.binding = 0 → t.evr.alert = false) ∧
    (r.binding ≠ 0 → t.evr = s.evr) ∧ sentBetween s t (vendorAnswer r 0x30 0
      (leBytes 4 (s.evr.base false) ++ leBytes 4 (((s.evr.all.getLast?).map (·.seq)).getD ((s.evr.nextSeq + 2 ^ 32 - 1) % 2 ^ 32)) ++ leBytes 4 s.evr.all.length ++
        leBytes 2 (s.flash.boot % 2 ^ 16) ++ leBytes 1 (match s.evr.freeze with | some f => f.holder.eid | none => 0xFF) ++
        leBytes 4 (s.regVal .evrStatus 0)))) ∧
  (∀ s r, s.vendorServed r false false = true → s.evr.freeze = none → ∃ t, exec (.evrFreeze r) s = .next t ∧
    (∃ f, t.evr.freeze = some f ∧ f.holder = r ∧ f.oldest = s.evr.base false ∧ f.since = s.time.loc ∧
      sentBetween s t (vendorAnswer r 0x31 0 (leBytes 4 f.oldest ++ leBytes 4 f.newest))) ∧ t.evr.log = s.evr.log) ∧
  (∀ s r f, s.vendorServed r false false = true → s.evr.freeze = some f → s.evr.heldBy r = true → ∃ t, exec (.evrFreeze r) s = .next t ∧
    t.evr.freeze = some { f with since := s.time.loc } ∧ t.evr.log = s.evr.log) ∧
  (∀ s r f, s.vendorServed r false false = true → s.evr.freeze = some f → s.evr.heldBy r = false → ∃ t, exec (.evrFreeze r) s = .next t ∧
    t.evr = s.evr ∧ sentBetween s t (vendorAnswer r 0x31 2 (leBytes 4 (s.cfg.evrFreezeMaxMs - (s.time.loc - f.since) / 1000000)))) ∧
  (∀ s r n sev a, s.vendorServed r false false = true → s.evr.freeze = none → s.evr.log = [a] → s.evr.spill = [] → 1 ≤ n → n ≤ 40 →
    sev ≤ a.severity → ∃ t, exec (.evrRead r a.seq n sev) s = .next t ∧ t.evr = s.evr ∧
      sentBetween s t (vendorAnswer r 0x32 0 (leBytes 4 ((a.seq + 1) % 2 ^ 32) ++ leBytes 1 0 ++ leBytes 1 1 ++ a.bytes s.locus))) ∧
  (∀ s r q n sev, s.vendorServed r false false = true → n = 0 ∨ 40 < n → ∃ t, exec (.evrRead r q n sev) s = .next t ∧ t.evr = s.evr ∧
    sentBetween s t (vendorAnswer r 0x32 4 [])) ∧
  (∀ s r, s.vendorServed r false false = true → s.evr.heldBy r = true → s.evr.spill = [] → ∃ t, exec (.evrRelease r) s = .next t ∧
    t.evr.freeze = none ∧ t.evr.log = s.evr.log ∧ sentBetween s t (vendorAnswer r 0x33 0 [])) ∧
  (∀ s r, s.vendorServed r false false = true → s.evr.heldByOther r = true → ∃ t, exec (.evrRelease r) s = .next t ∧ t.evr = s.evr ∧
    sentBetween s t (vendorAnswer r 0x33 2 [])) ∧
  (∀ s r a sev, s.vendorServed r false true = true → s.cfg.evrClearChannels.testBit r.binding = true → s.evr.freeze = none → s.evr.log = [a] →
    s.evr.spill = [] → a.isOpen = false → a.severity ≤ sev → a.seq ≠ s.evr.nextSeq → ∃ t, exec (.evrClear r a.seq sev) s = .next t ∧ a ∉ t.evr.log ∧
      (∃ c ∈ t.evr.log, c.code = 0x0F01 ∧ c.isOpen = true) ∧ t.ctr .evrClears 0 = satAdd 16 (s.ctr .evrClears 0) 1 ∧
      (t.evBits .evrStatus 0).testBit 29 = true ∧ sentBetween s t (vendorAnswer r 0x34 0 (leBytes 4 1))) ∧
  (∀ s r a q sev, s.vendorServed r false true = true → s.cfg.evrClearChannels.testBit r.binding = true → s.evr.freeze = none → s.evr.log = [a] →
    s.evr.spill = [] → a.isOpen = true ∨ sev < a.severity → ∃ t, exec (.evrClear r q sev) s = .next t ∧ a ∈ t.evr.log ∧
      sentBetween s t (vendorAnswer r 0x34 0 (leBytes 4 0))) ∧
  (∀ s r q sev, s.vendorServed r false true = true → s.cfg.evrClearChannels.testBit r.binding = false → ∃ t, exec (.evrClear r q sev) s = .next t ∧
    t.evr = s.evr ∧ sentBetween s t (vendorAnswer r 0x34 3 [])) ∧
  (∀ s f, s.evr.freeze = some f → ∃ t, exec .evrFreezeTimeout s = .next t ∧ t.evr.freeze = none ∧ t.evr.spill = [] ∧ t.out = s.out) ∧
  (∀ s, s.evr.freeze = none → exec .evrFreezeTimeout s = .next s)

/-! ### Power (15) -/

/-- The ledger and its commands (R373 to R377, Table 15.4). -/
def Obligations.LedgerCommandsComplete : Prop :=
  (∀ s i mv ma, i < 36 → s.pins.pgood = true → ∃ t, exec (.ledgerUpdate i mv ma) s = .next t ∧
    t.stage i = { s.stage i with acc := ((s.stage i).acc + 1024 * (mv * ma)) % 2 ^ 96 } ∧ (∀ j, j ≠ i → t.stage j = s.stage j) ∧ t.pwr.ctx = s.pwr.ctx) ∧
  (∀ s i mv ma, i < 36 → s.pins.pgood = false → exec (.ledgerUpdate i mv ma) s = .next s) ∧
  (∀ s r x g eff, s.vendorServed r false false = true → s.cfg.pwrGrantChannels.testBit r.binding = true → x < 16 → (s.ctx x).st.grantable = true →
    (∀ q, (s.pwrCtx x).ref = some q → (q.floorOf (maskParts (s.ctx x).mask) (s.ctx x).dOffset).1 ≤ g) → ∃ t, exec (.pwrGrant r x g eff) s = .next t ∧
      (t.pwrCtx x).waiting = (s.pwrCtx x).waiting.filter (fun q => decide (q.1 ≤ eff)) ++ [(eff, g)] ∧ (t.pwrCtx x).grant = (s.pwrCtx x).grant ∧
      (∀ y, y ≠ x → t.pwrCtx y = s.pwrCtx y) ∧ (∃ floor, sentBetween s t (vendorAnswer r 0x50 0 (leBytes 8 floor)))) ∧
  (∀ s r x g eff q, s.vendorServed r false false = true → s.cfg.pwrGrantChannels.testBit r.binding = true → x < 16 → (s.ctx x).st.grantable = true →
    (s.pwrCtx x).ref = some q → g < (q.floorOf (maskParts (s.ctx x).mask) (s.ctx x).dOffset).1 → ∃ t, exec (.pwrGrant r x g eff) s = .next t ∧
      t.pwr = s.pwr ∧ t.ctr .pwrRefused 0 = satAdd 16 (s.ctr .pwrRefused 0) 1 ∧ (t.evBits .pwrCtx x).testBit 19 = true ∧
      sentBetween s t (vendorAnswer r 0x50 5 (leBytes 8 (q.floorOf (maskParts (s.ctx x).mask) (s.ctx x).dOffset).1))) ∧
  (∀ s r x g eff, s.vendorServed r false false = true → s.cfg.pwrGrantChannels.testBit r.binding = false → ∃ t, exec (.pwrGrant r x g eff) s = .next t ∧
    t.pwr = s.pwr ∧ sentBetween s t (vendorAnswer r 0x50 3 [])) ∧
  (∀ s r w, s.vendorServed r false false = true → w = 0 ∨ (1000 ≤ w ∧ w ≤ 5500) → ∃ t, exec (.pwrCeiling r w) s = .next t ∧ t.pwr.ceiling = w ∧
    sentBetween s t (vendorAnswer r 0x51 0 []) ∧ t.mem = s.mem ∧ (w = 0 → t.pwr.ctx = s.pwr.ctx ∧ t.pwr.point = s.pwr.point)) ∧
  (∀ s r w, s.vendorServed r false false = true → w ≠ 0 → w < 1000 ∨ 5500 < w → ∃ t, exec (.pwrCeiling r w) s = .next t ∧ t.pwr = s.pwr ∧
    sentBetween s t (vendorAnswer r 0x51 4 [])) ∧
  (∀ s r x, s.vendorServed r false false = true → x < 16 → (s.pwrCtx x).ref = none → ∃ t, exec (.pwrDemand r x) s = .next t ∧ t.pwr = s.pwr ∧
    sentBetween s t (vendorAnswer r 0x52 0 (leBytes 1 0 ++ leBytes 1 ((s.pwrCtx x).point.getD 15) ++ leBytes 8 0 ++ leBytes 8 0 ++
      leBytes 8 (s.pwrCtx x).lastCharge ++ leBytes 8 (s.pwrCtx x).carry ++ leBytes 8 0)))

/-- Comparators, phases and power-good (R372, R383, R384): a limit acts at once, is noted where Table 15.4a says, and takes the attempt its
POWER reason; a trip turns its domains off; when it lets go, a trip ends in a partition reset; a lost phase leaves the rest; good rails
enable the next group. -/
def Obligations.ComparatorsAct : Prop :=
  (∀ c p, (c = Instr.vcoreUndervoltage p ∨ (∃ v, c = .frequencyMargin p v) ∨ (∃ v, c = .tjThrottle p v)) → ∀ s : State, p < 16 → ∃ t, exec c s = .next t ∧
    t.slow p = true ∧ (∀ x, x < 16 → (s.ctx x).st = .running → (s.ctx x).launched = true → inMask (s.ctx x).mask p = true →
      (t.ctx x).reasons.testBit 9 = true) ∧ (∀ x, inMask (s.ctx x).mask p = false → t.ctx x = s.ctx x) ∧ t.mem = s.mem ∧ t.pwr.doms = s.pwr.doms) ∧
  (∀ s p, p < 16 → ∃ t, exec (.vcoreUndervoltage p) s = .next t ∧ (t.evBits .pwrRail p).testBit 22 = true) ∧
  (∀ s p v, p < 16 → ∃ t, exec (.tjThrottle p v) s = .next t ∧ (t.evBits .pwrStatus 0).testBit 29 = true) ∧
  (∀ s p v, p < 16 → ∃ t, exec (.tjTrip p v) s = .next t ∧ t.dom p = .off ∧ t.dom (16 + p) = .off ∧ t.dom (32 + p) = .off ∧
    t.ctr .pwrTrip 0 = satAdd 16 (s.ctr .pwrTrip 0) 1 ∧ (t.evBits .pwrStatus 0).testBit 28 = true ∧ t.mem = s.mem) ∧
  (∀ s i v, i < 36 → ∃ t, exec (.railOvervoltage i v) s = .next t ∧ (t.stage i).off = true ∧ (∀ d ∈ stageDomains i, t.dom d = .off) ∧
    t.ctr .pwrTrip 0 = satAdd 16 (s.ctr .pwrTrip 0) 1 ∧ (t.evBits .pwrStatus 0).testBit 28 = true ∧ t.mem = s.mem) ∧
  (∀ s w, ∃ t, exec (.inputPowerLimit w) s = .next t ∧ (∀ p, p < 16 → t.slow p = true) ∧ (t.evBits .pwrStatus 0).testBit 27 = true ∧ t.mem = s.mem) ∧
  (∀ s l u, l < 3 → u < 16 → ∃ t, exec (.comparatorRelease l u) s = .next t ∧ limitKey l u ∉ t.pwr.acting ∧
    (∀ k, k ≠ limitKey l u → (k ∈ t.pwr.acting ↔ k ∈ s.pwr.acting)) ∧ t.ctxs = s.ctxs ∧ t.mem = s.mem) ∧
  (∀ s p, p < 16 → limitKey 3 p ∈ s.pwr.acting → 1 < s.cfg.escalateCount → (∀ k, KMap.getD s.recov.actions k [] = []) → s.recov.completed = [] →
    ∃ t, exec (.comparatorRelease 3 p) s = .next t ∧ limitKey 3 p ∉ t.pwr.acting ∧ t.ctr .recL3 0 = satAdd 16 (s.ctr .recL3 0) 1 ∧
      (∀ a, t.byte a = if addrPart a = p then 0#8 else s.byte a)) ∧
  (∀ s i ph why, i < 36 → ph < phasesOf i → phasesMin i < (s.stage i).active → ∃ t, exec (.phaseRetire i ph why) s = .next t ∧
    (t.stage i).active + 1 = (s.stage i).active ∧ (t.stage i).off = (s.stage i).off ∧ t.ctr .pwrPhaseLost 0 = satAdd 16 (s.ctr .pwrPhaseLost 0) 1 ∧
    (t.evBits .pwrRail i).testBit 23 = true ∧ t.mem = s.mem) ∧
  (∀ s i ph why, i < 36 → ph < phasesOf i → 0 < (s.stage i).active → (s.stage i).active ≤ phasesMin i → ∃ t, exec (.phaseRetire i ph why) s = .next t ∧
    (t.stage i).active + 1 = (s.stage i).active ∧ (t.stage i).off = true ∧ (∀ d ∈ stageDomains i, t.dom d = .off) ∧ t.mem = s.mem) ∧
  (∀ s g, g = 2 ∨ g = 3 → s.pins.groups.testBit (g - 1) = true → s.pins.groups.testBit g = false → ∃ t, exec (.railPowerGood g) s = .next t ∧
    (∀ i ∈ groupStages g, (t.stage i).good = true) ∧ t.pins.groups = s.pins.groups ||| 2 ^ g ∧ (∀ i ∈ groupStages (g + 1), (t.stage i).off = false)) ∧
  (∀ s g, 1 ≤ g → g ≤ 5 → s.pins.groups.testBit (g - 1) = false → exec (.railPowerGood g) s = .next s)

/-! ### Start-up (16, 17) -/

/-- Start-up (R394, R396, R402 to R404): power-up begins in BOOT with nothing volatile kept; the optics are released only with a locus; RUN
begins with READY set, or RECOVERY where a code is met, with the alert latch set. -/
def Obligations.StartupFollowsTheTimeline : Prop :=
  (∀ s, s.pins.latchedOff = false → s.pins.pgood = false → ∃ t, exec .powerOn s = .next t ∧ t.id.cal = .boot ∧ t.id.locus = none ∧
    t.flash.starts = s.flash.starts + 1 ∧ t.pins.pgood = true ∧ t.pins.resetN = true ∧ t.pins.groups = 1 ∧ t.ctxs = [] ∧ t.mem = Mem.reset ∧
    t.evr.log = [] ∧ t.flash.slotA = s.flash.slotA ∧ t.flash.slotB = s.flash.slotB) ∧
  (∀ s, s.pins.latchedOff = false → s.pins.pgood = true → s.pins.resetN = false → ∃ t, exec .powerOn s = .next t ∧ t.pins.resetN = true ∧
    t.flash = s.flash ∧ t.id = s.id) ∧
  (∀ s, s.pins.latchedOff = true → exec .powerOn s = .next s) ∧
  (∀ s, s.served = true → s.id.cal = .boot → s.flash.slotA.reject s.flash ≠ 0 → s.flash.slotB.reject s.flash ≠ 0 →
    ∃ t, exec .slotSelect s = .next t ∧ t.id.cal = .recovery ∧ t.mbx.ready = false ∧ t.ports = [] ∧ t.evr.alert = true ∧ t.id.opticsAt = none) ∧
  (∀ s l, s.id.cal = .init ∨ s.id.cal = .run → s.id.locus = some l → s.id.opticsAt = none → s.groupGood 4 = true →
    ∃ t, exec .opticsRelease s = .next t ∧ t.id.opticsAt = some s.time.loc ∧ t.pins.groups.testBit 4 = true ∧ t.id.cal = s.id.cal) ∧
  (∀ s l k o, s.id.cal = .init → s.id.locus = some l → s.id.booted = some k → s.id.opticsAt = some o → s.flash.fencedSlots = [] →
    s.flash.retiredPcs = [] → s.cfg.coordsOk l = true → s.cfg.fitsMap [] = true → ∃ t, exec (.runEntry []) s = .next t ∧
      t.id.cal = .run ∧ t.mbx.ready = true ∧ t.pwr.ceiling = s.cfg.pwrCeilingW ∧
      t.out = (if s.mbx.linkUp && s.mbx.busMaster then .msix 0 4 :: s.out else s.out)) ∧
  (∀ s l k o, s.id.cal = .init → s.id.locus = some l → s.id.booted = some k → s.id.opticsAt = some o → s.cfg.coordsOk l = false →
    s.flash.fencedSlots = [] → s.flash.retiredPcs = [] → ∃ t, exec (.runEntry []) s = .next t ∧ t.id.cal = .recovery ∧ t.id.lastReject = 0x0B ∧
      t.mbx.ready = false ∧ t.evr.alert = true) ∧
  (∀ s, s.id.locus = none → exec .opticsRelease s = .next s ∧ exec (.runEntry []) s = .next s)

/-- The higher GENERATION boots, slot A where they are equal, and its TRIES rises; reaching RUN, or 2 s of firmware with no release of
CAL_OWN, clears TRIES; a slot with three is no candidate until an image is committed to it (R395). -/
def Obligations.HigherGenerationBoots : Prop :=
  (∀ s k, s.served = true → s.id.cal = .boot → k < 2 → (s.flash.slot k).reject s.flash = 0 →
    ((s.flash.slot (1 - k)).reject s.flash = 0 → (s.flash.slot (1 - k)).gen < (s.flash.slot k).gen ∨ k = 0 ∧ s.flash.slotB.gen ≤ s.flash.slotA.gen) →
    ∃ t, exec .slotSelect s = .next t ∧ t.id.cal = .init ∧ t.id.booted = some k ∧
      (t.flash.slot k).tries = (s.flash.slot k).tries + 1 ∧ t.flash.slot (1 - k) = s.flash.slot (1 - k)) ∧
  (∀ s failed t k, s.id.cal = .init → s.id.booted = some k → exec (.runEntry failed) s = .next t → t.id.cal = .run → (t.flash.slot k).tries = 0) ∧
  (∀ s k, s.id.booted = some k → s.id.released = false → s.id.cal = .init ∨ s.id.cal = .run → ∃ t, exec .triesClear s = .next t ∧
    (t.flash.slot k).tries = 0 ∧ t.id = s.id) ∧
  (∀ s, s.id.released = true → exec .triesClear s = .next s) ∧
  (∀ s, s.served = true → s.id.cal = .boot → s.id.booted = none → 3 ≤ s.flash.slotA.tries → ∃ t, exec .slotSelect s = .next t ∧ t.id.booted ≠ some 0) ∧
  (∀ s, s.served = true → s.id.cal = .boot → s.id.booted = none → 3 ≤ s.flash.slotB.tries → ∃ t, exec .slotSelect s = .next t ∧ t.id.booted ≠ some 1) ∧
  (∀ s r w, s.vendorServed r true true = true → s.id.writer = some w → w.heldBy r = true → w.target < 2 →
    (commitTest (s.written w).1 (match s.id.booted with | some k => (s.flash.slot k).image | none => []) s.flash).1 = 0 →
    ∃ t, exec (.imgCommit r) s = .next t ∧ (t.flash.slot w.target).tries = 0)

/-- RESET_N low is a module reset while PGOOD is high: groups 1 to 4 stay up with their rails, Caldera holds BOOT, and neither of the ways out
of BOOT and INIT opens; with PGOOD low the fall has no effect (R432). -/
def Obligations.ResetHoldsBoot : Prop :=
  (∀ s, s.pins.pgood = true → s.pins.latchedOff = false → s.pins.resetN = true → ∃ t, exec .resetNFall s = .next t ∧ t.pins.resetN = false ∧
    t.pins.groups = s.pins.groups % 16 ∧ (∀ i, i ≠ 32 → i ≠ 33 → t.stage i = s.stage i) ∧ t.id.cal = .boot ∧ t.id.locus = s.id.locus ∧ t.ctxs = [] ∧
    t.ports = [] ∧ t.mem = Mem.reset ∧ t.flash.starts = s.flash.starts + 1 ∧ exec .slotSelect t = .next t ∧ exec (.runEntry []) t = .next t) ∧
  (∀ s, s.pins.pgood = false → exec .resetNFall s = .next s)

/-! ### Locus, acceptance, images (16) -/

/-- LOCUS_ASSIGN over I3C only: the first value is taken in any state, an equal one is a repeat, a different one is refused and recorded
(R404). Reading the identity and accepting (R410 to R412, Table 16.11): MB_IDENTIFY and ID_STATUS answer from BOOT's end on; ID_ACCEPT, in
a session on its channels, records the locus and the digests of the ports it names. -/
def Obligations.LocusAndAcceptanceComplete : Prop :=
  (∀ s r l, s.reached r = true → r.binding = 0 → l < 2 ^ 17 → s.id.locus = none → ∃ t, exec (.locusAssign r l) s = .next t ∧ t.id.locus = some l ∧
    sentBetween s t (vendorAnswer r 0x02 0 []) ∧ t.id.cal = s.id.cal) ∧
  (∀ s r l, s.reached r = true → r.binding = 0 → l < 2 ^ 17 → s.id.locus = some l → ∃ t, exec (.locusAssign r l) s = .next t ∧ t.id = s.id ∧
    t.evr = s.evr ∧ sentBetween s t (vendorAnswer r 0x02 0 [])) ∧
  (∀ s r l k, s.reached r = true → r.binding = 0 → l < 2 ^ 17 → s.id.locus = some k → k ≠ l → ∃ t, exec (.locusAssign r l) s = .next t ∧ t.id = s.id ∧
    sentBetween s t (vendorAnswer r 0x02 4 []) ∧ (∃ e ∈ t.evr.log ++ t.evr.spill, e.code = 0x3108 ∨ evrCapacity ≤ s.evr.log.length)) ∧
  (∀ s r l, s.reached r = true → r.binding ≠ 0 → ∃ t, exec (.locusAssign r l) s = .next t ∧ t.id = s.id ∧ sentBetween s t (vendorAnswer r 0x02 3 [])) ∧
  (∀ s r, s.vendorServed r true false = true → ∃ t, exec (.mbIdentify r) s = .next t ∧ sentBetween s t (vendorAnswer r 0x01 0
    (leBytes 4 s.locus ++ s.identity ++ leBytes 4 (s.regVal .calId 0) ++ s.configDigest ++ leBytes 1 s.id.lastReject)) ∧ t.id = s.id) ∧
  (∀ s r, s.vendorServed r true false = true → ∃ t, exec (.idStatus r) s = .next t ∧ sentBetween s t (vendorAnswer r 0x04 0
    (leBytes 4 (s.flash.acceptedLocus.getD 0xFFFFFFFF) ++ ((List.range 32).map (fun p => beBytes 16 (KMap.getD s.flash.digests p 0))).flatten)) ∧
    t.flash = s.flash) ∧
  (∀ s r l, s.vendorServed r false true = true → s.cfg.acceptChannels.testBit r.binding = true → s.id.locus = some l → s.flash.acceptedLocus ≠ some l →
    ∃ t, exec (.idAccept r 1 0) s = .next t ∧ t.flash.acceptedLocus = some l ∧ t.id.unaccepted = false ∧ (t.evBits .calId 0).testBit 24 = true ∧
      sentBetween s t (vendorAnswer r 0x03 0 (leBytes 1 0))) ∧
  (∀ s r p i, s.vendorServed r false true = true → s.cfg.acceptChannels.testBit r.binding = true → p < 32 → (s.port p).last = some i →
    ∃ t, exec (.idAccept r 2 (2 ^ p)) s = .next t ∧ KMap.find t.flash.digests p = some i.cert ∧ t.flash.acceptedLocus = s.flash.acceptedLocus ∧
      sentBetween s t (vendorAnswer r 0x03 0 (leBytes 1 1))) ∧
  (∀ s r scope mask, s.vendorServed r false true = true → s.cfg.acceptChannels.testBit r.binding = false → ∃ t, exec (.idAccept r scope mask) s = .next t ∧
    t.flash = s.flash ∧ t.id = s.id ∧ sentBetween s t (vendorAnswer r 0x03 3 []))

/-- Writing an image (R397, R398): one writer at a time takes the slot that did not boot; bytes inside the length are kept; a commit stores an
image that passes and rejects one that does not; abort and idleness end the writer. -/
def Obligations.ImagesAreWritten : Prop :=
  (∀ s r n, s.vendorServed r true true = true → s.id.writer = none → 0 < n → n ≤ slotCapacity → ∃ t, exec (.imgBegin r n) s = .next t ∧
    t.id.writer = some { who := r, target := s.writeTarget, length := n, bytes := [] } ∧ (t.flash.slot s.writeTarget).st = .writing ∧
    (∀ k, s.id.booted = some k → k < 2 → t.flash.slot k = s.flash.slot k) ∧ sentBetween s t (vendorAnswer r 0x08 0 (leBytes 1 s.writeTarget))) ∧
  (∀ s r n w, s.vendorServed r true true = true → s.id.writer = some w → ∃ t, exec (.imgBegin r n) s = .next t ∧ t.flash = s.flash ∧ t.id = s.id ∧
    sentBetween s t (vendorAnswer r 0x08 2 [])) ∧
  (∀ s r off b w, s.vendorServed r true true = true → s.id.writer = some w → w.heldBy r = true → off < w.length →
    ∃ t, exec (.imgWrite r off [b]) s = .next t ∧ (∃ v, t.id.writer = some v ∧ KMap.find v.bytes off = some b ∧
      (∀ i, i ≠ off → KMap.find v.bytes i = KMap.find w.bytes i)) ∧ t.flash = s.flash ∧ sentBetween s t (vendorAnswer r 0x09 0 [])) ∧
  (∀ s r off bs, s.vendorServed r true true = true → s.id.writer = none → ∃ t, exec (.imgWrite r off bs) s = .next t ∧ t.id = s.id ∧
    sentBetween s t (vendorAnswer r 0x09 3 [])) ∧
  (∀ s r w code, s.vendorServed r true true = true → s.id.writer = some w → w.heldBy r = true → code ≠ 0 →
    code = (commitTest (s.written w).1 (match s.id.booted with | some k => (s.flash.slot k).image | none => []) s.flash).1 →
    ∃ t, exec (.imgCommit r) s = .next t ∧ t.id.lastReject = code ∧ t.id.writer = some w ∧ t.flash.slotA = s.flash.slotA ∧ t.flash.slotB = s.flash.slotB ∧
      sentBetween s t (vendorAnswer r 0x0A 6 (leBytes 1 code))) ∧
  (∀ s r w m, s.vendorServed r true true = true → s.id.writer = some w → w.heldBy r = true → w.target < 2 →
    commitTest (s.written w).1 (match s.id.booted with | some k => (s.flash.slot k).image | none => []) s.flash = (0, m) →
    ∃ t, exec (.imgCommit r) s = .next t ∧
      t.flash.slot w.target = { st := .valid, gen := (max s.flash.slotA.gen s.flash.slotB.gen + 1) % 2 ^ 32, tries := 0, image := m } ∧
      t.flash.slot (1 - w.target) = s.flash.slot (1 - w.target) ∧ t.id.writer = none ∧
      sentBetween s t (vendorAnswer r 0x0A 0 (leBytes 4 ((max s.flash.slotA.gen s.flash.slotB.gen + 1) % 2 ^ 32)))) ∧
  (∀ s r w, s.vendorServed r true true = true → s.id.writer = some w → w.heldBy r = true → ∃ t, exec (.imgAbort r) s = .next t ∧ t.id.writer = none ∧
    t.flash = s.flash ∧ sentBetween s t (vendorAnswer r 0x0B 0 [])) ∧
  (∀ s r, s.vendorServed r true false = true → ∃ t, exec (.imgStatus r) s = .next t ∧ t.flash = s.flash ∧
    sentBetween s t (vendorAnswer r 0x0C 0 (s.flash.slotA.bytes ++ s.flash.slotB.bytes))) ∧
  (∀ s, ∃ t, exec .imgWriterIdle s = .next t ∧ t.id.writer = none ∧ t.id.cal = s.id.cal ∧ t.flash = s.flash)

/-- Keys, versions, resets and requests (R325, R399, R405, 05 R133): SEC_MIN only rises, and no higher than the booted image's; a first owner
key is taken, a second one only signed; MODULE_RESET answers and resets; a held job resumes, and a restore is asked for, at its
coordinator. -/
def Obligations.SecurityAndRequestsComplete : Prop :=
  (∀ s r v k, s.vendorServed r true true = true → s.id.booted = some k → v ≤ s.id.secVersion → ∃ t, exec (.secverAdvance r v) s = .next t ∧
    t.flash.secMin = max s.flash.secMin v ∧ sentBetween s t (vendorAnswer r 0x0D 0 (leBytes 1 (max s.flash.secMin v)))) ∧
  (∀ s r v, s.vendorServed r true true = true → s.id.booted = none ∨ s.id.secVersion < v → ∃ t, exec (.secverAdvance r v) s = .next t ∧
    t.flash = s.flash ∧ sentBetween s t (vendorAnswer r 0x0D 4 [])) ∧
  (∀ s r key sig, s.vendorServed r true true = true → key.length = 97 → s.flash.owners = [] → ∃ t, exec (.ownerProvision r key sig) s = .next t ∧
    t.flash.owners = [(sha384 key, false)] ∧ sentBetween s t (vendorAnswer r 0x0E 0 (leBytes 1 0))) ∧
  (∀ s r key sig d, s.vendorServed r true true = true → key.length = 97 → s.flash.owners = [(d, false)] → ecdsaByDigest d sig (sha384 key) = true →
    ∃ t, exec (.ownerProvision r key sig) s = .next t ∧ t.flash.owners = [(d, true), (sha384 key, false)] ∧
      sentBetween s t (vendorAnswer r 0x0E 0 (leBytes 1 1))) ∧
  (∀ s r key sig d, s.vendorServed r true true = true → key.length = 97 → s.flash.owners = [(d, false)] → ecdsaByDigest d sig (sha384 key) = false →
    ∃ t, exec (.ownerProvision r key sig) s = .next t ∧ t.flash = s.flash ∧ sentBetween s t (vendorAnswer r 0x0E 3 [])) ∧
  (∀ s r, s.vendorServed r true true = true → ∃ t, exec (.moduleReset r) s = .next t ∧ sentBetween s t (vendorAnswer r 0x10 0 []) ∧ t.id.cal = .boot ∧
    t.id.locus = s.id.locus ∧ t.flash.starts = s.flash.starts + 1 ∧ t.ctxs = [] ∧ t.mem = Mem.reset ∧ t.pins.resetN = s.pins.resetN) ∧
  (∀ s r x, s.vendorServed r false false = true → x < 16 → (s.ctx x).st = .held → (s.ctx x).coord.active = true → ∃ t, exec (.ctxResumeReq r x) s = .next t ∧
    (t.ctx x).coord.held = false ∧ (∃ l, sentBetween s t (vendorAnswer r 0x20 0 (leBytes 8 l)) ∧ (t.ctx x).coord.launch = l ∧
      (∀ p ∈ (s.ctx x).pmap, ∃ n k, ctrlSent s t p 0x08 n k (l + field (s.ctx x).coord.epoch 32 160)))) ∧
  (∀ s r x, s.vendorServed r false false = true → (s.ctx x).st ≠ .held ∨ (s.ctx x).coord.active = false → ∃ t, exec (.ctxResumeReq r x) s = .next t ∧
    t.ctxs = s.ctxs ∧ sentBetween s t (vendorAnswer r 0x20 4 [])) ∧
  (∀ s r x j k, s.vendorServed r false false = true → x < 16 → (s.ctx x).st = .armed → (s.ctx x).coord.active = true →
    ∃ t, exec (.geyRestoreReq r x j k) s = .next t ∧ (t.ctx x).coord.restore = some (k, j, []) ∧
      (∀ e ∈ (s.ctx x).coord.armed, ctrlSent s t e.1 0x49 k 0 (field j 32 32 + field (s.ctx x).coord.epoch 32 160)) ∧
      sentBetween s t (vendorAnswer r 0x21 0 []))

/-! ### Management endpoints (16) -/

/-- MCTP control and PLDM (R413, R415): an endpoint ID is set and read, versions and types are answered; the layouts DSP0236, DSP0240 and
DSP0248 fix are the model's choice (log 51). The effecters release a held port, start a full retrain, and align again after a downgrade. -/
def Obligations.ControlAndPldmComplete : Prop :=
  (∀ s b e, s.reached (busOwner b) = true → 0 < e → e < 255 → ∃ t, exec (.setEndpointId b e) s = .next t ∧ t.mgmt.eid b = e ∧
    (∀ c, (c = 0 ↔ b ≠ 0) → t.mgmt.eid c = s.mgmt.eid c) ∧ t.mgmt.sessions = s.mgmt.sessions) ∧
  (∀ s b, s.reached (busOwner b) = true → ∃ t, exec (.getEndpointId b) s = .next t ∧
    sentBetween s t (.mctp (busOwner b) 0x00 (leBytes 1 0 ++ (leBytes 1 (s.mgmt.eid b) ++ [0#8, 0#8]))) ∧ t.mgmt = s.mgmt) ∧
  (∀ s r ty, s.reached r = true → ty ∈ messageTypes → ∃ t, exec (.getMctpVersionSupport r ty) s = .next t ∧
    sentBetween s t (.mctp r 0x00 (leBytes 1 0 ++ Config.mctpVersion ty))) ∧
  (∀ s r, s.reached r = true → ∃ t, exec (.getMessageTypeSupport r) s = .next t ∧
    sentBetween s t (.mctp r 0x00 (leBytes 1 0 ++ (leBytes 1 5 ++ [0x00#8, 0x01#8, 0x05#8, 0x06#8, 0x7E#8])))) ∧
  (∀ s r, s.reached r = true → ∃ t, exec (.getVendorDefinedMessageSupport r 0) s = .next t ∧
    sentBetween s t (.mctp r 0x00 (leBytes 1 0 ++ ([0xFF#8, 0#8] ++ beBytes 2 Config.pcieVendorId ++ beBytes 2 Config.vendorVersion)))) ∧
  (∀ s a, s.served = true → ∃ t, exec (.dynamicAddressAssignment a) s = .next t ∧ t.mgmt.i3cAddr = some a ∧ t.out = s.out) ∧
  (∀ s r, s.reached r = true → s.id.cal ≠ .boot →
    (∃ t, exec (.getTid r) s = .next t ∧ sentBetween s t (.mctp r 0x01 (leBytes 1 0 ++ leBytes 1 s.mgmt.tid)) ∧ t.mgmt = s.mgmt) ∧
    (∃ t, exec (.getPldmTypes r) s = .next t ∧ sentBetween s t (.mctp r 0x01 (leBytes 1 0 ++ leBytes 8 (2 ^ 0 + (2 ^ 2 + (2 ^ 63 + 0)))))) ∧
    (∀ ty ∈ pldmTypes, ∃ t, exec (.getPldmVersion r ty) s = .next t ∧ sentBetween s t (.mctp r 0x01 (leBytes 1 0 ++ Config.pldmVersion ty))) ∧
    (∀ ty ∈ pldmTypes, ∃ t, exec (.getPldmCommands r ty) s = .next t ∧
      sentBetween s t (.mctp r 0x01 (leBytes 1 0 ++ leBytes 32 (sumL ((pldmCommands ty).map (2 ^ ·))))))) ∧
  (∀ s r, s.reached r = true → s.id.cal = .run →
    (∀ h, ∃ t, exec (.getPdr r h) s = .next t ∧ sentBetween s t (.mctp r 0x01 (leBytes 1 0 ++ Config.pldmPdr h))) ∧
    (∀ n, ∃ t, exec (.getSensorReading r n) s = .next t ∧ t.tel = s.tel ∧
      (Config.numericSensor n = none → sentBetween s t (.mctp r 0x01 (leBytes 1 0x80 ++ []))) ∧
      (∀ q v, Config.numericSensor n = some q → s.sensorValue q = some v →
        sentBetween s t (.mctp r 0x01 (leBytes 1 0 ++ ([5#8, 0#8, 0#8, 1#8, 1#8, 1#8] ++ leBytes 4 (ofInt 32 v)))))) ∧
    (∀ n, ∃ t, exec (.getStateSensorReadings r n) s = .next t ∧ t.mgmt = s.mgmt ∧
      (Config.stateSensor n = some .calState →
        sentBetween s t (.mctp r 0x01 (leBytes 1 0 ++ ([1#8, 0#8] ++ leBytes 1 2 ++ leBytes 1 2 ++ [0#8])))) ∧
      (∀ p, Config.stateSensor n = some (.portState p) → sentBetween s t (.mctp r 0x01
        (leBytes 1 0 ++ ([1#8, 0#8] ++ leBytes 1 (s.port p).st.code ++ leBytes 1 (s.port p).st.code ++ [0#8]))))) ∧
    (∀ p, p < 32 → (s.port p).st = .up → ∃ t, exec (.pldmFullRetrain r p) s = .next t ∧ (t.port p).req = some { req := 2 } ∧ lcfSent s t p) ∧
    (∀ p, p < 32 → (s.port p).st = .mgmtOnly → ∃ t, exec (.pldmFullRetrain r p) s = .next t ∧ (t.port p).st = .detect) ∧
    (∀ p, p < 32 → (s.port p).st = .held → (s.port p).heldAt ≠ none → ∃ t, exec (.releaseHold r p) s = .next t ∧ (t.port p).st = .detect) ∧
    (∀ p, p < 32 → (s.port p).st ≠ .held → ∃ t, exec (.releaseHold r p) s = .next t ∧ t.ports = s.ports ∧
      sentBetween s t (.mctp r 0x01 (leBytes 1 0 ++ []))) ∧
    (s.cfg.detLevel = 1 → s.time.st = 2 → s.det.downgrade = true → s.det.phase = 0 → s.nextLaunch = none →
      ∃ t, exec (.alignRetry r) s = .next t ∧ t.det.phase = 1 ∧ t.det.downgrade = true ∧ sentBetween s t (.mctp r 0x01 (leBytes 1 0 ++ [])))) ∧
  (∀ s r, s.reached r = true → s.id.cal = .init → ∀ c, (c = Instr.alignRetry r ∨ (∃ h, c = .getPdr r h) ∨ (∃ p, c = .releaseHold r p)) →
    ∃ t, exec c s = .next t ∧ t.ports = s.ports ∧ t.det = s.det ∧ sentBetween s t (.mctp r 0x01 (leBytes 1 4 ++ [])))

/-- Register blocks over PLDM (00 R8, R416, Table 16.13): REG_READ returns the bytes of a block's instance; REG_W1C clears the event bits
written with ones and no other; outside the table both are refused and nothing changes. -/
def Obligations.RegisterBlocksReadAndClear : Prop :=
  (∀ s r b i off n l, s.reached r = true → s.id.cal = .run → s.blockItems b i = some l → 1 ≤ n → n ≤ 256 → off + n ≤ (blockBytesOf l).length →
    ∃ t, exec (.regRead r b i off n) s = .next t ∧ sentBetween s t (.mctp r 0x01 (leBytes 1 0 ++ slice (blockBytesOf l) off n)) ∧ t.evts = s.evts) ∧
  (∀ s r b i off n, s.reached r = true → s.id.cal = .run → s.blockItems b i = none → ∃ t, exec (.regRead r b i off n) s = .next t ∧
    sentBetween s t (.mctp r 0x01 (leBytes 1 2 ++ [])) ∧ t.evts = s.evts) ∧
  (∀ s r b i mask l q, s.reached r = true → s.id.cal = .run → s.blockItems b i = some l → blockReg b = some q →
    ∃ t, exec (.regW1c r b i 0 mask) s = .next t ∧
      (∀ k, k < 32 → (t.evBits q i).testBit k = ((s.evBits q i).testBit k && !mask.testBit k)) ∧
      (∀ q' i', i < 2 ^ 16 → i' < 2 ^ 16 → (q', i') ≠ (q, i) → t.evBits q' i' = s.evBits q' i') ∧ t.ctrs = s.ctrs) ∧
  (∀ s r b i off mask, s.reached r = true → s.id.cal = .run → s.blockItems b i = none → ∃ t, exec (.regW1c r b i off mask) s = .next t ∧ t.evts = s.evts)

/-- The SPDM responder (R407, R410): GET_VERSION begins a connection, each phase of it follows the one before, and a session is one only after
FINISH; the bytes SPDM 1.3 fixes are the model's choice or free (log 12). -/
def Obligations.SpdmResponderCompletes : Prop :=
  (∀ s r, s.reached r = true → ∃ t, exec (.getVersion r) s = .next t ∧ (t.conn r).phase = 1 ∧
    sentBetween s t (.mctp r 0x05 ([0x13#8] ++ leBytes 1 0x04 ++ leBytes 1 0 ++ leBytes 1 0 ++ [0#8, 1#8, 0#8, 0x13#8])) ∧ t.mgmt.sessions = s.mgmt.sessions) ∧
  (∀ s r b, s.reached r = true → (s.conn r).phase = 1 → ∃ t, exec (.getCapabilities r b) s = .next t ∧ (t.conn r).phase = 2) ∧
  (∀ s r b, s.reached r = true → (s.conn r).phase = 2 → ∃ t, exec (.negotiateAlgorithms r b) s = .next t ∧ (t.conn r).phase = 3) ∧
  (∀ s r, s.reached r = true → 3 ≤ (s.conn r).phase → s.id.cal = .run → ∃ t, exec (.getDigests r) s = .next t ∧ (t.conn r).phase = max 4 (s.conn r).phase ∧
    sentBetween s t (.mctp r 0x05 ([0x13#8] ++ leBytes 1 0x01 ++ leBytes 1 0 ++ leBytes 1 3 ++ (sha384 (s.chain 0) ++ sha384 (s.chain 1))))) ∧
  (∀ s r o n, s.reached r = true → 3 ≤ (s.conn r).phase → o ≤ (s.chain 0).length → ∃ t, exec (.getCertificate r 0 o n) s = .next t ∧
    sentBetween s t (.mctp r 0x05 ([0x13#8] ++ leBytes 1 0x02 ++ leBytes 1 0 ++ leBytes 1 0 ++
      (leBytes 2 (slice (s.chain 0) o n).length ++ leBytes 2 ((s.chain 0).length - o - (slice (s.chain 0) o n).length) ++ slice (s.chain 0) o n)))) ∧
  (∀ s r n, s.reached r = true → 3 ≤ (s.conn r).phase → ∃ t, exec (.challenge r 0 n) s = .next t ∧ (t.conn r).phase = 5 ∧
    (∃ rest, sentBetween s t (.mctp r 0x05 ([0x13#8] ++ leBytes 1 0x03 ++ leBytes 1 0 ++ leBytes 1 1 ++ (sha384 (s.chain 0) ++ rest))))) ∧
  (∀ s r i n, s.reached r = true → s.id.cal = .run → 3 ≤ (s.conn r).phase → 1 ≤ i → i ≤ 5 → ∃ t, exec (.getMeasurements r i n) s = .next t ∧
    (∃ rest, sentBetween s t (.mctp r 0x05 ([0x13#8] ++ leBytes 1 0x60 ++ leBytes 1 0 ++ leBytes 1 0 ++
      (leBytes 1 1 ++ leBytes 3 (s.measBlock i).length ++ s.measBlock i ++ rest)))) ∧ (t.conn r).phase = (s.conn r).phase) ∧
  (∀ s r q b, s.reached r = true → s.id.cal = .run → 3 ≤ (s.conn r).phase → ∃ t, exec (.keyExchange r q b) s = .next t ∧
    (∃ x, t.mgmt.sessions = s.mgmt.sessions ++ [x] ∧ x.established = false ∧ x.binding = r.binding ∧ x.eid = r.eid ∧ x.id % 2 ^ 16 = q % 2 ^ 16)) ∧
  (∀ s r k b x, s.reached r = true → s.sessionOf r k = some x → x.established = false → ∃ t, exec (.finish r k b) s = .next t ∧
    (∀ y, y.id ≠ k → (y ∈ t.mgmt.sessions ↔ y ∈ s.mgmt.sessions)) ∧
    (∀ y ∈ t.mgmt.sessions, y.id = k → Config.finishOk k b = true ∧ y.established = true) ∧
    (Config.finishOk k b = true → ∃ y ∈ t.mgmt.sessions, y.id = k)) ∧
  (∀ s r k x, s.reached r = true → s.sessionOf r k = some x → x.established = true → ∃ t, exec (.keyUpdate r k 2) s = .next t ∧
    t.mgmt.sessions = s.mgmt.sessions.map (fun y => if y.id = k then { y with reqGen := y.reqGen + 1, rspGen := y.rspGen + 1 } else y)) ∧
  (∀ s r k x, s.reached r = true → s.sessionOf r k = some x → x.established = true → ∃ t, exec (.endSession r k) s = .next t ∧
    (∀ y, y ∈ t.mgmt.sessions ↔ y ∈ s.mgmt.sessions ∧ y.id ≠ k) ∧ t.mgmt.conns = s.mgmt.conns) ∧
  (∀ s r k, s.reached r = true → s.id.cal ≠ .boot → ∃ t, exec (.respondIfReady r k) s = .next t ∧
    sentBetween s t (.mctp r 0x05 (Config.spdmBody 0xFF (leBytes 1 k))) ∧ t.mgmt = s.mgmt) ∧
  (∀ s r k, s.reached r = true → s.id.cal = .boot → ∃ t h, exec (.respondIfReady r k) s = .next t ∧ 1000 ≤ h ∧ h ≤ 65535 ∧
    sentBetween s t (.mctp r 0x05 ([0x13#8] ++ leBytes 1 0x7F ++ leBytes 1 0x42 ++ leBytes 1 0 ++
      (leBytes 1 (ceilLog2 h) ++ leBytes 1 0xFF ++ leBytes 1 k ++ [1#8]))) ∧ t.mgmt = s.mgmt)

/-! ### Pins and power input (05, 17) -/

/-- The pins (R122, R424, R430, R433, R434): losing PGOOD, or an input out of its range, turns every group off and forgets what is volatile;
an input trip lasts until PGOOD has been low; PCIE_PERST_N resets the PCIe functions alone; TEST_EN acts in BOOT; the link comes up at a
width and rate of Table 5.7. -/
def Obligations.PinsAct : Prop :=
  (∀ s, s.pins.pgood = true → s.pins.latchedOff = false → ∃ t, exec .pgoodFall s = .next t ∧ t.pins.pgood = false ∧ t.pins.groups = 0 ∧ t.ctxs = [] ∧
    t.mem = Mem.reset ∧ t.id.locus = none ∧ t.flash = s.flash ∧ (∀ i, t.stage i = Stage.reset)) ∧
  (∀ s, s.pins.latchedOff = true → ∃ t, exec .pgoodFall s = .next t ∧ t.pins.pgood = false ∧ t.pins.latchedOff = false ∧ t.flash = s.flash) ∧
  (∀ c, c = Instr.inputUndervoltage ∨ c = .inputOvervoltage ∨ c = .inputCollapse → ∀ s : State, s.pins.pgood = true → s.pins.latchedOff = false →
    ∃ t, exec c s = .next t ∧ t.pins.latchedOff = true ∧ t.pins.groups = 0 ∧ t.ctxs = [] ∧ t.mem = Mem.reset ∧ t.flash = s.flash ∧
      exec .powerOn t = .next t) ∧
  (∀ c, c = Instr.inputUndervoltage ∨ c = .inputOvervoltage → ∀ s : State, s.pins.latchedOff = true → exec c s = .next s) ∧
  (∀ s, ∃ t, exec .inputCollapse s = .next t ∧ t.pins.pwrCycleReq = false ∧ t.flash = s.flash) ∧
  (∀ s, s.pins.pgood = true → ∃ t, exec (.pciePerstN false) s = .next t ∧ t.pins.perstN = false ∧ t.mbx.linkUp = false ∧ t.mbx.enable = false ∧
    t.ctxs = s.ctxs ∧ t.id = s.id ∧ t.mem = s.mem ∧ t.mgmt.eidVdm = 0 ∧ t.mgmt.eidI3c = s.mgmt.eidI3c ∧ t.mbx.highSeq = s.mbx.highSeq) ∧
  (∀ s, ∃ t, exec (.pciePerstN true) s = .next t ∧ t.pins.perstN = true ∧ t.mbx = s.mbx ∧ t.mgmt = s.mgmt ∧ t.ctxs = s.ctxs) ∧
  (∀ s w g, s.pins.pgood = true → s.pins.perstN = true → w = 8 ∨ w = 16 → g ∈ pcieRates → ∃ t, exec (.pcieLinkUp w g) s = .next t ∧
    t.mbx.linkUp = true ∧ t.mbx.width = w ∧ t.mbx.rate = g ∧ t.ctxs = s.ctxs) ∧
  (∀ s w g, w < 8 → ∃ t, exec (.pcieLinkUp w g) s = .next t ∧ t.mbx = s.mbx ∧ t.ctxs = s.ctxs) ∧
  (∀ s, s.id.cal = .boot → ∃ t, exec .testEnHigh s = .next t ∧ t.pins.testEn = true ∧ exec .slotSelect t = .next t ∧ t.evr = s.evr) ∧
  (∀ s, s.id.cal ≠ .boot → exec .testEnHigh s = .next s)

end
end

