-- ==== Sys2Proof/Laws/State.lean ====
section
/-!
SUPPORT. What each update of the state leaves as it was, and what it writes: one lemma per update and field.
-/
namespace Sys2Proof.Machine

/-! ### setCtx -/

@[simp] theorem State.setCtx_time (s : State) (x : Nat) (c : Ctx) : (s.setCtx x c).time = s.time := rfl
@[simp] theorem State.setCtx_cfg (s : State) (x : Nat) (c : Ctx) : (s.setCtx x c).cfg = s.cfg := rfl
@[simp] theorem State.setCtx_id (s : State) (x : Nat) (c : Ctx) : (s.setCtx x c).id = s.id := rfl
@[simp] theorem State.setCtx_flash (s : State) (x : Nat) (c : Ctx) : (s.setCtx x c).flash = s.flash := rfl
@[simp] theorem State.setCtx_mbx (s : State) (x : Nat) (c : Ctx) : (s.setCtx x c).mbx = s.mbx := rfl
@[simp] theorem State.setCtx_mem (s : State) (x : Nat) (c : Ctx) : (s.setCtx x c).mem = s.mem := rfl
@[simp] theorem State.setCtx_clus (s : State) (x : Nat) (c : Ctx) : (s.setCtx x c).clus = s.clus := rfl
@[simp] theorem State.setCtx_fab (s : State) (x : Nat) (c : Ctx) : (s.setCtx x c).fab = s.fab := rfl
@[simp] theorem State.setCtx_ports (s : State) (x : Nat) (c : Ctx) : (s.setCtx x c).ports = s.ports := rfl
@[simp] theorem State.setCtx_recov (s : State) (x : Nat) (c : Ctx) : (s.setCtx x c).recov = s.recov := rfl
@[simp] theorem State.setCtx_cal (s : State) (x : Nat) (c : Ctx) : (s.setCtx x c).cal = s.cal := rfl
@[simp] theorem State.setCtx_det (s : State) (x : Nat) (c : Ctx) : (s.setCtx x c).det = s.det := rfl
@[simp] theorem State.setCtx_gey (s : State) (x : Nat) (c : Ctx) : (s.setCtx x c).gey = s.gey := rfl
@[simp] theorem State.setCtx_tel (s : State) (x : Nat) (c : Ctx) : (s.setCtx x c).tel = s.tel := rfl
@[simp] theorem State.setCtx_evr (s : State) (x : Nat) (c : Ctx) : (s.setCtx x c).evr = s.evr := rfl
@[simp] theorem State.setCtx_pwr (s : State) (x : Nat) (c : Ctx) : (s.setCtx x c).pwr = s.pwr := rfl
@[simp] theorem State.setCtx_mgmt (s : State) (x : Nat) (c : Ctx) : (s.setCtx x c).mgmt = s.mgmt := rfl
@[simp] theorem State.setCtx_pins (s : State) (x : Nat) (c : Ctx) : (s.setCtx x c).pins = s.pins := rfl
@[simp] theorem State.setCtx_evts (s : State) (x : Nat) (c : Ctx) : (s.setCtx x c).evts = s.evts := rfl
@[simp] theorem State.setCtx_ctrs (s : State) (x : Nat) (c : Ctx) : (s.setCtx x c).ctrs = s.ctrs := rfl
@[simp] theorem State.setCtx_out (s : State) (x : Nat) (c : Ctx) : (s.setCtx x c).out = s.out := rfl
@[simp] theorem State.setCtx_free (s : State) (x : Nat) (c : Ctx) : (s.setCtx x c).free = s.free := rfl
@[simp] theorem State.setCtx_pending (s : State) (x : Nat) (c : Ctx) : (s.setCtx x c).pending = s.pending := rfl
@[simp] theorem State.setCtx_ctxs (s : State) (x : Nat) (c : Ctx) : (s.setCtx x c).ctxs = KMap.put s.ctxs x c := rfl

/-! ### updCtx -/

@[simp] theorem State.updCtx_time (s : State) (x : Nat) (f : Ctx → Ctx) : (s.updCtx x f).time = s.time := rfl
@[simp] theorem State.updCtx_cfg (s : State) (x : Nat) (f : Ctx → Ctx) : (s.updCtx x f).cfg = s.cfg := rfl
@[simp] theorem State.updCtx_id (s : State) (x : Nat) (f : Ctx → Ctx) : (s.updCtx x f).id = s.id := rfl
@[simp] theorem State.updCtx_flash (s : State) (x : Nat) (f : Ctx → Ctx) : (s.updCtx x f).flash = s.flash := rfl
@[simp] theorem State.updCtx_mbx (s : State) (x : Nat) (f : Ctx → Ctx) : (s.updCtx x f).mbx = s.mbx := rfl
@[simp] theorem State.updCtx_mem (s : State) (x : Nat) (f : Ctx → Ctx) : (s.updCtx x f).mem = s.mem := rfl
@[simp] theorem State.updCtx_clus (s : State) (x : Nat) (f : Ctx → Ctx) : (s.updCtx x f).clus = s.clus := rfl
@[simp] theorem State.updCtx_fab (s : State) (x : Nat) (f : Ctx → Ctx) : (s.updCtx x f).fab = s.fab := rfl
@[simp] theorem State.updCtx_ports (s : State) (x : Nat) (f : Ctx → Ctx) : (s.updCtx x f).ports = s.ports := rfl
@[simp] theorem State.updCtx_recov (s : State) (x : Nat) (f : Ctx → Ctx) : (s.updCtx x f).recov = s.recov := rfl
@[simp] theorem State.updCtx_cal (s : State) (x : Nat) (f : Ctx → Ctx) : (s.updCtx x f).cal = s.cal := rfl
@[simp] theorem State.updCtx_det (s : State) (x : Nat) (f : Ctx → Ctx) : (s.updCtx x f).det = s.det := rfl
@[simp] theorem State.updCtx_gey (s : State) (x : Nat) (f : Ctx → Ctx) : (s.updCtx x f).gey = s.gey := rfl
@[simp] theorem State.updCtx_tel (s : State) (x : Nat) (f : Ctx → Ctx) : (s.updCtx x f).tel = s.tel := rfl
@[simp] theorem State.updCtx_evr (s : State) (x : Nat) (f : Ctx → Ctx) : (s.updCtx x f).evr = s.evr := rfl
@[simp] theorem State.updCtx_pwr (s : State) (x : Nat) (f : Ctx → Ctx) : (s.updCtx x f).pwr = s.pwr := rfl
@[simp] theorem State.updCtx_mgmt (s : State) (x : Nat) (f : Ctx → Ctx) : (s.updCtx x f).mgmt = s.mgmt := rfl
@[simp] theorem State.updCtx_pins (s : State) (x : Nat) (f : Ctx → Ctx) : (s.updCtx x f).pins = s.pins := rfl
@[simp] theorem State.updCtx_evts (s : State) (x : Nat) (f : Ctx → Ctx) : (s.updCtx x f).evts = s.evts := rfl
@[simp] theorem State.updCtx_ctrs (s : State) (x : Nat) (f : Ctx → Ctx) : (s.updCtx x f).ctrs = s.ctrs := rfl
@[simp] theorem State.updCtx_out (s : State) (x : Nat) (f : Ctx → Ctx) : (s.updCtx x f).out = s.out := rfl
@[simp] theorem State.updCtx_free (s : State) (x : Nat) (f : Ctx → Ctx) : (s.updCtx x f).free = s.free := rfl
@[simp] theorem State.updCtx_pending (s : State) (x : Nat) (f : Ctx → Ctx) : (s.updCtx x f).pending = s.pending := rfl
@[simp] theorem State.updCtx_ctxs (s : State) (x : Nat) (f : Ctx → Ctx) : (s.updCtx x f).ctxs = KMap.put s.ctxs x (f (s.ctx x)) := rfl

/-! ### updCoord -/

@[simp] theorem State.updCoord_time (s : State) (x : Nat) (f : Coord → Coord) : (s.updCoord x f).time = s.time := rfl
@[simp] theorem State.updCoord_cfg (s : State) (x : Nat) (f : Coord → Coord) : (s.updCoord x f).cfg = s.cfg := rfl
@[simp] theorem State.updCoord_id (s : State) (x : Nat) (f : Coord → Coord) : (s.updCoord x f).id = s.id := rfl
@[simp] theorem State.updCoord_flash (s : State) (x : Nat) (f : Coord → Coord) : (s.updCoord x f).flash = s.flash := rfl
@[simp] theorem State.updCoord_mbx (s : State) (x : Nat) (f : Coord → Coord) : (s.updCoord x f).mbx = s.mbx := rfl
@[simp] theorem State.updCoord_mem (s : State) (x : Nat) (f : Coord → Coord) : (s.updCoord x f).mem = s.mem := rfl
@[simp] theorem State.updCoord_clus (s : State) (x : Nat) (f : Coord → Coord) : (s.updCoord x f).clus = s.clus := rfl
@[simp] theorem State.updCoord_fab (s : State) (x : Nat) (f : Coord → Coord) : (s.updCoord x f).fab = s.fab := rfl
@[simp] theorem State.updCoord_ports (s : State) (x : Nat) (f : Coord → Coord) : (s.updCoord x f).ports = s.ports := rfl
@[simp] theorem State.updCoord_recov (s : State) (x : Nat) (f : Coord → Coord) : (s.updCoord x f).recov = s.recov := rfl
@[simp] theorem State.updCoord_cal (s : State) (x : Nat) (f : Coord → Coord) : (s.updCoord x f).cal = s.cal := rfl
@[simp] theorem State.updCoord_det (s : State) (x : Nat) (f : Coord → Coord) : (s.updCoord x f).det = s.det := rfl
@[simp] theorem State.updCoord_gey (s : State) (x : Nat) (f : Coord → Coord) : (s.updCoord x f).gey = s.gey := rfl
@[simp] theorem State.updCoord_tel (s : State) (x : Nat) (f : Coord → Coord) : (s.updCoord x f).tel = s.tel := rfl
@[simp] theorem State.updCoord_evr (s : State) (x : Nat) (f : Coord → Coord) : (s.updCoord x f).evr = s.evr := rfl
@[simp] theorem State.updCoord_pwr (s : State) (x : Nat) (f : Coord → Coord) : (s.updCoord x f).pwr = s.pwr := rfl
@[simp] theorem State.updCoord_mgmt (s : State) (x : Nat) (f : Coord → Coord) : (s.updCoord x f).mgmt = s.mgmt := rfl
@[simp] theorem State.updCoord_pins (s : State) (x : Nat) (f : Coord → Coord) : (s.updCoord x f).pins = s.pins := rfl
@[simp] theorem State.updCoord_evts (s : State) (x : Nat) (f : Coord → Coord) : (s.updCoord x f).evts = s.evts := rfl
@[simp] theorem State.updCoord_ctrs (s : State) (x : Nat) (f : Coord → Coord) : (s.updCoord x f).ctrs = s.ctrs := rfl
@[simp] theorem State.updCoord_out (s : State) (x : Nat) (f : Coord → Coord) : (s.updCoord x f).out = s.out := rfl
@[simp] theorem State.updCoord_free (s : State) (x : Nat) (f : Coord → Coord) : (s.updCoord x f).free = s.free := rfl
@[simp] theorem State.updCoord_pending (s : State) (x : Nat) (f : Coord → Coord) : (s.updCoord x f).pending = s.pending := rfl

/-! ### updGey -/

@[simp] theorem State.updGey_time (s : State) (x : Nat) (f : GeyCtx → GeyCtx) : (s.updGey x f).time = s.time := rfl
@[simp] theorem State.updGey_cfg (s : State) (x : Nat) (f : GeyCtx → GeyCtx) : (s.updGey x f).cfg = s.cfg := rfl
@[simp] theorem State.updGey_id (s : State) (x : Nat) (f : GeyCtx → GeyCtx) : (s.updGey x f).id = s.id := rfl
@[simp] theorem State.updGey_flash (s : State) (x : Nat) (f : GeyCtx → GeyCtx) : (s.updGey x f).flash = s.flash := rfl
@[simp] theorem State.updGey_mbx (s : State) (x : Nat) (f : GeyCtx → GeyCtx) : (s.updGey x f).mbx = s.mbx := rfl
@[simp] theorem State.updGey_mem (s : State) (x : Nat) (f : GeyCtx → GeyCtx) : (s.updGey x f).mem = s.mem := rfl
@[simp] theorem State.updGey_clus (s : State) (x : Nat) (f : GeyCtx → GeyCtx) : (s.updGey x f).clus = s.clus := rfl
@[simp] theorem State.updGey_fab (s : State) (x : Nat) (f : GeyCtx → GeyCtx) : (s.updGey x f).fab = s.fab := rfl
@[simp] theorem State.updGey_ports (s : State) (x : Nat) (f : GeyCtx → GeyCtx) : (s.updGey x f).ports = s.ports := rfl
@[simp] theorem State.updGey_recov (s : State) (x : Nat) (f : GeyCtx → GeyCtx) : (s.updGey x f).recov = s.recov := rfl
@[simp] theorem State.updGey_cal (s : State) (x : Nat) (f : GeyCtx → GeyCtx) : (s.updGey x f).cal = s.cal := rfl
@[simp] theorem State.updGey_det (s : State) (x : Nat) (f : GeyCtx → GeyCtx) : (s.updGey x f).det = s.det := rfl
@[simp] theorem State.updGey_gey (s : State) (x : Nat) (f : GeyCtx → GeyCtx) : (s.updGey x f).gey = s.gey := rfl
@[simp] theorem State.updGey_tel (s : State) (x : Nat) (f : GeyCtx → GeyCtx) : (s.updGey x f).tel = s.tel := rfl
@[simp] theorem State.updGey_evr (s : State) (x : Nat) (f : GeyCtx → GeyCtx) : (s.updGey x f).evr = s.evr := rfl
@[simp] theorem State.updGey_pwr (s : State) (x : Nat) (f : GeyCtx → GeyCtx) : (s.updGey x f).pwr = s.pwr := rfl
@[simp] theorem State.updGey_mgmt (s : State) (x : Nat) (f : GeyCtx → GeyCtx) : (s.updGey x f).mgmt = s.mgmt := rfl
@[simp] theorem State.updGey_pins (s : State) (x : Nat) (f : GeyCtx → GeyCtx) : (s.updGey x f).pins = s.pins := rfl
@[simp] theorem State.updGey_evts (s : State) (x : Nat) (f : GeyCtx → GeyCtx) : (s.updGey x f).evts = s.evts := rfl
@[simp] theorem State.updGey_ctrs (s : State) (x : Nat) (f : GeyCtx → GeyCtx) : (s.updGey x f).ctrs = s.ctrs := rfl
@[simp] theorem State.updGey_out (s : State) (x : Nat) (f : GeyCtx → GeyCtx) : (s.updGey x f).out = s.out := rfl
@[simp] theorem State.updGey_free (s : State) (x : Nat) (f : GeyCtx → GeyCtx) : (s.updGey x f).free = s.free := rfl
@[simp] theorem State.updGey_pending (s : State) (x : Nat) (f : GeyCtx → GeyCtx) : (s.updGey x f).pending = s.pending := rfl

/-! ### updExec -/

@[simp] theorem State.updExec_time (s : State) (x : Nat) (f : Exec → Exec) : (s.updExec x f).time = s.time := rfl
@[simp] theorem State.updExec_cfg (s : State) (x : Nat) (f : Exec → Exec) : (s.updExec x f).cfg = s.cfg := rfl
@[simp] theorem State.updExec_id (s : State) (x : Nat) (f : Exec → Exec) : (s.updExec x f).id = s.id := rfl
@[simp] theorem State.updExec_flash (s : State) (x : Nat) (f : Exec → Exec) : (s.updExec x f).flash = s.flash := rfl
@[simp] theorem State.updExec_mbx (s : State) (x : Nat) (f : Exec → Exec) : (s.updExec x f).mbx = s.mbx := rfl
@[simp] theorem State.updExec_mem (s : State) (x : Nat) (f : Exec → Exec) : (s.updExec x f).mem = s.mem := rfl
@[simp] theorem State.updExec_clus (s : State) (x : Nat) (f : Exec → Exec) : (s.updExec x f).clus = s.clus := rfl
@[simp] theorem State.updExec_fab (s : State) (x : Nat) (f : Exec → Exec) : (s.updExec x f).fab = s.fab := rfl
@[simp] theorem State.updExec_ports (s : State) (x : Nat) (f : Exec → Exec) : (s.updExec x f).ports = s.ports := rfl
@[simp] theorem State.updExec_recov (s : State) (x : Nat) (f : Exec → Exec) : (s.updExec x f).recov = s.recov := rfl
@[simp] theorem State.updExec_cal (s : State) (x : Nat) (f : Exec → Exec) : (s.updExec x f).cal = s.cal := rfl
@[simp] theorem State.updExec_det (s : State) (x : Nat) (f : Exec → Exec) : (s.updExec x f).det = s.det := rfl
@[simp] theorem State.updExec_gey (s : State) (x : Nat) (f : Exec → Exec) : (s.updExec x f).gey = s.gey := rfl
@[simp] theorem State.updExec_tel (s : State) (x : Nat) (f : Exec → Exec) : (s.updExec x f).tel = s.tel := rfl
@[simp] theorem State.updExec_evr (s : State) (x : Nat) (f : Exec → Exec) : (s.updExec x f).evr = s.evr := rfl
@[simp] theorem State.updExec_pwr (s : State) (x : Nat) (f : Exec → Exec) : (s.updExec x f).pwr = s.pwr := rfl
@[simp] theorem State.updExec_mgmt (s : State) (x : Nat) (f : Exec → Exec) : (s.updExec x f).mgmt = s.mgmt := rfl
@[simp] theorem State.updExec_pins (s : State) (x : Nat) (f : Exec → Exec) : (s.updExec x f).pins = s.pins := rfl
@[simp] theorem State.updExec_evts (s : State) (x : Nat) (f : Exec → Exec) : (s.updExec x f).evts = s.evts := rfl
@[simp] theorem State.updExec_ctrs (s : State) (x : Nat) (f : Exec → Exec) : (s.updExec x f).ctrs = s.ctrs := rfl
@[simp] theorem State.updExec_out (s : State) (x : Nat) (f : Exec → Exec) : (s.updExec x f).out = s.out := rfl
@[simp] theorem State.updExec_free (s : State) (x : Nat) (f : Exec → Exec) : (s.updExec x f).free = s.free := rfl
@[simp] theorem State.updExec_pending (s : State) (x : Nat) (f : Exec → Exec) : (s.updExec x f).pending = s.pending := rfl

/-! ### updPort -/

@[simp] theorem State.updPort_time (s : State) (i : Nat) (f : Port → Port) : (s.updPort i f).time = s.time := rfl
@[simp] theorem State.updPort_cfg (s : State) (i : Nat) (f : Port → Port) : (s.updPort i f).cfg = s.cfg := rfl
@[simp] theorem State.updPort_id (s : State) (i : Nat) (f : Port → Port) : (s.updPort i f).id = s.id := rfl
@[simp] theorem State.updPort_flash (s : State) (i : Nat) (f : Port → Port) : (s.updPort i f).flash = s.flash := rfl
@[simp] theorem State.updPort_mbx (s : State) (i : Nat) (f : Port → Port) : (s.updPort i f).mbx = s.mbx := rfl
@[simp] theorem State.updPort_ctxs (s : State) (i : Nat) (f : Port → Port) : (s.updPort i f).ctxs = s.ctxs := rfl
@[simp] theorem State.updPort_mem (s : State) (i : Nat) (f : Port → Port) : (s.updPort i f).mem = s.mem := rfl
@[simp] theorem State.updPort_clus (s : State) (i : Nat) (f : Port → Port) : (s.updPort i f).clus = s.clus := rfl
@[simp] theorem State.updPort_fab (s : State) (i : Nat) (f : Port → Port) : (s.updPort i f).fab = s.fab := rfl
@[simp] theorem State.updPort_recov (s : State) (i : Nat) (f : Port → Port) : (s.updPort i f).recov = s.recov := rfl
@[simp] theorem State.updPort_cal (s : State) (i : Nat) (f : Port → Port) : (s.updPort i f).cal = s.cal := rfl
@[simp] theorem State.updPort_det (s : State) (i : Nat) (f : Port → Port) : (s.updPort i f).det = s.det := rfl
@[simp] theorem State.updPort_gey (s : State) (i : Nat) (f : Port → Port) : (s.updPort i f).gey = s.gey := rfl
@[simp] theorem State.updPort_tel (s : State) (i : Nat) (f : Port → Port) : (s.updPort i f).tel = s.tel := rfl
@[simp] theorem State.updPort_evr (s : State) (i : Nat) (f : Port → Port) : (s.updPort i f).evr = s.evr := rfl
@[simp] theorem State.updPort_pwr (s : State) (i : Nat) (f : Port → Port) : (s.updPort i f).pwr = s.pwr := rfl
@[simp] theorem State.updPort_mgmt (s : State) (i : Nat) (f : Port → Port) : (s.updPort i f).mgmt = s.mgmt := rfl
@[simp] theorem State.updPort_pins (s : State) (i : Nat) (f : Port → Port) : (s.updPort i f).pins = s.pins := rfl
@[simp] theorem State.updPort_evts (s : State) (i : Nat) (f : Port → Port) : (s.updPort i f).evts = s.evts := rfl
@[simp] theorem State.updPort_ctrs (s : State) (i : Nat) (f : Port → Port) : (s.updPort i f).ctrs = s.ctrs := rfl
@[simp] theorem State.updPort_out (s : State) (i : Nat) (f : Port → Port) : (s.updPort i f).out = s.out := rfl
@[simp] theorem State.updPort_free (s : State) (i : Nat) (f : Port → Port) : (s.updPort i f).free = s.free := rfl
@[simp] theorem State.updPort_pending (s : State) (i : Nat) (f : Port → Port) : (s.updPort i f).pending = s.pending := rfl
@[simp] theorem State.updPort_ports (s : State) (i : Nat) (f : Port → Port) : (s.updPort i f).ports = KMap.put s.ports i (f (s.port i)) := rfl

/-! ### updCluster -/

@[simp] theorem State.updCluster_time (s : State) (g : Nat) (f : Cluster → Cluster) : (s.updCluster g f).time = s.time := rfl
@[simp] theorem State.updCluster_cfg (s : State) (g : Nat) (f : Cluster → Cluster) : (s.updCluster g f).cfg = s.cfg := rfl
@[simp] theorem State.updCluster_id (s : State) (g : Nat) (f : Cluster → Cluster) : (s.updCluster g f).id = s.id := rfl
@[simp] theorem State.updCluster_flash (s : State) (g : Nat) (f : Cluster → Cluster) : (s.updCluster g f).flash = s.flash := rfl
@[simp] theorem State.updCluster_mbx (s : State) (g : Nat) (f : Cluster → Cluster) : (s.updCluster g f).mbx = s.mbx := rfl
@[simp] theorem State.updCluster_ctxs (s : State) (g : Nat) (f : Cluster → Cluster) : (s.updCluster g f).ctxs = s.ctxs := rfl
@[simp] theorem State.updCluster_mem (s : State) (g : Nat) (f : Cluster → Cluster) : (s.updCluster g f).mem = s.mem := rfl
@[simp] theorem State.updCluster_fab (s : State) (g : Nat) (f : Cluster → Cluster) : (s.updCluster g f).fab = s.fab := rfl
@[simp] theorem State.updCluster_ports (s : State) (g : Nat) (f : Cluster → Cluster) : (s.updCluster g f).ports = s.ports := rfl
@[simp] theorem State.updCluster_recov (s : State) (g : Nat) (f : Cluster → Cluster) : (s.updCluster g f).recov = s.recov := rfl
@[simp] theorem State.updCluster_cal (s : State) (g : Nat) (f : Cluster → Cluster) : (s.updCluster g f).cal = s.cal := rfl
@[simp] theorem State.updCluster_det (s : State) (g : Nat) (f : Cluster → Cluster) : (s.updCluster g f).det = s.det := rfl
@[simp] theorem State.updCluster_gey (s : State) (g : Nat) (f : Cluster → Cluster) : (s.updCluster g f).gey = s.gey := rfl
@[simp] theorem State.updCluster_tel (s : State) (g : Nat) (f : Cluster → Cluster) : (s.updCluster g f).tel = s.tel := rfl
@[simp] theorem State.updCluster_evr (s : State) (g : Nat) (f : Cluster → Cluster) : (s.updCluster g f).evr = s.evr := rfl
@[simp] theorem State.updCluster_pwr (s : State) (g : Nat) (f : Cluster → Cluster) : (s.updCluster g f).pwr = s.pwr := rfl
@[simp] theorem State.updCluster_mgmt (s : State) (g : Nat) (f : Cluster → Cluster) : (s.updCluster g f).mgmt = s.mgmt := rfl
@[simp] theorem State.updCluster_pins (s : State) (g : Nat) (f : Cluster → Cluster) : (s.updCluster g f).pins = s.pins := rfl
@[simp] theorem State.updCluster_evts (s : State) (g : Nat) (f : Cluster → Cluster) : (s.updCluster g f).evts = s.evts := rfl
@[simp] theorem State.updCluster_ctrs (s : State) (g : Nat) (f : Cluster → Cluster) : (s.updCluster g f).ctrs = s.ctrs := rfl
@[simp] theorem State.updCluster_out (s : State) (g : Nat) (f : Cluster → Cluster) : (s.updCluster g f).out = s.out := rfl
@[simp] theorem State.updCluster_free (s : State) (g : Nat) (f : Cluster → Cluster) : (s.updCluster g f).free = s.free := rfl
@[simp] theorem State.updCluster_pending (s : State) (g : Nat) (f : Cluster → Cluster) : (s.updCluster g f).pending = s.pending := rfl
@[simp] theorem State.updCluster_clus (s : State) (g : Nat) (f : Cluster → Cluster) : (s.updCluster g f).clus = KMap.put s.clus g (f (s.cluster g)) := rfl

/-! ### updMbx -/

@[simp] theorem State.updMbx_time (s : State) (f : Mbx → Mbx) : (s.updMbx f).time = s.time := rfl
@[simp] theorem State.updMbx_cfg (s : State) (f : Mbx → Mbx) : (s.updMbx f).cfg = s.cfg := rfl
@[simp] theorem State.updMbx_id (s : State) (f : Mbx → Mbx) : (s.updMbx f).id = s.id := rfl
@[simp] theorem State.updMbx_flash (s : State) (f : Mbx → Mbx) : (s.updMbx f).flash = s.flash := rfl
@[simp] theorem State.updMbx_ctxs (s : State) (f : Mbx → Mbx) : (s.updMbx f).ctxs = s.ctxs := rfl
@[simp] theorem State.updMbx_mem (s : State) (f : Mbx → Mbx) : (s.updMbx f).mem = s.mem := rfl
@[simp] theorem State.updMbx_clus (s : State) (f : Mbx → Mbx) : (s.updMbx f).clus = s.clus := rfl
@[simp] theorem State.updMbx_fab (s : State) (f : Mbx → Mbx) : (s.updMbx f).fab = s.fab := rfl
@[simp] theorem State.updMbx_ports (s : State) (f : Mbx → Mbx) : (s.updMbx f).ports = s.ports := rfl
@[simp] theorem State.updMbx_recov (s : State) (f : Mbx → Mbx) : (s.updMbx f).recov = s.recov := rfl
@[simp] theorem State.updMbx_cal (s : State) (f : Mbx → Mbx) : (s.updMbx f).cal = s.cal := rfl
@[simp] theorem State.updMbx_det (s : State) (f : Mbx → Mbx) : (s.updMbx f).det = s.det := rfl
@[simp] theorem State.updMbx_gey (s : State) (f : Mbx → Mbx) : (s.updMbx f).gey = s.gey := rfl
@[simp] theorem State.updMbx_tel (s : State) (f : Mbx → Mbx) : (s.updMbx f).tel = s.tel := rfl
@[simp] theorem State.updMbx_evr (s : State) (f : Mbx → Mbx) : (s.updMbx f).evr = s.evr := rfl
@[simp] theorem State.updMbx_pwr (s : State) (f : Mbx → Mbx) : (s.updMbx f).pwr = s.pwr := rfl
@[simp] theorem State.updMbx_mgmt (s : State) (f : Mbx → Mbx) : (s.updMbx f).mgmt = s.mgmt := rfl
@[simp] theorem State.updMbx_pins (s : State) (f : Mbx → Mbx) : (s.updMbx f).pins = s.pins := rfl
@[simp] theorem State.updMbx_evts (s : State) (f : Mbx → Mbx) : (s.updMbx f).evts = s.evts := rfl
@[simp] theorem State.updMbx_ctrs (s : State) (f : Mbx → Mbx) : (s.updMbx f).ctrs = s.ctrs := rfl
@[simp] theorem State.updMbx_out (s : State) (f : Mbx → Mbx) : (s.updMbx f).out = s.out := rfl
@[simp] theorem State.updMbx_free (s : State) (f : Mbx → Mbx) : (s.updMbx f).free = s.free := rfl
@[simp] theorem State.updMbx_pending (s : State) (f : Mbx → Mbx) : (s.updMbx f).pending = s.pending := rfl
@[simp] theorem State.updMbx_mbx (s : State) (f : Mbx → Mbx) : (s.updMbx f).mbx = f s.mbx := rfl

/-! ### updRing -/

@[simp] theorem State.updRing_time (s : State) (n : Nat) (f : Ring → Ring) : (s.updRing n f).time = s.time := rfl
@[simp] theorem State.updRing_cfg (s : State) (n : Nat) (f : Ring → Ring) : (s.updRing n f).cfg = s.cfg := rfl
@[simp] theorem State.updRing_id (s : State) (n : Nat) (f : Ring → Ring) : (s.updRing n f).id = s.id := rfl
@[simp] theorem State.updRing_flash (s : State) (n : Nat) (f : Ring → Ring) : (s.updRing n f).flash = s.flash := rfl
@[simp] theorem State.updRing_ctxs (s : State) (n : Nat) (f : Ring → Ring) : (s.updRing n f).ctxs = s.ctxs := rfl
@[simp] theorem State.updRing_mem (s : State) (n : Nat) (f : Ring → Ring) : (s.updRing n f).mem = s.mem := rfl
@[simp] theorem State.updRing_clus (s : State) (n : Nat) (f : Ring → Ring) : (s.updRing n f).clus = s.clus := rfl
@[simp] theorem State.updRing_fab (s : State) (n : Nat) (f : Ring → Ring) : (s.updRing n f).fab = s.fab := rfl
@[simp] theorem State.updRing_ports (s : State) (n : Nat) (f : Ring → Ring) : (s.updRing n f).ports = s.ports := rfl
@[simp] theorem State.updRing_recov (s : State) (n : Nat) (f : Ring → Ring) : (s.updRing n f).recov = s.recov := rfl
@[simp] theorem State.updRing_cal (s : State) (n : Nat) (f : Ring → Ring) : (s.updRing n f).cal = s.cal := rfl
@[simp] theorem State.updRing_det (s : State) (n : Nat) (f : Ring → Ring) : (s.updRing n f).det = s.det := rfl
@[simp] theorem State.updRing_gey (s : State) (n : Nat) (f : Ring → Ring) : (s.updRing n f).gey = s.gey := rfl
@[simp] theorem State.updRing_tel (s : State) (n : Nat) (f : Ring → Ring) : (s.updRing n f).tel = s.tel := rfl
@[simp] theorem State.updRing_evr (s : State) (n : Nat) (f : Ring → Ring) : (s.updRing n f).evr = s.evr := rfl
@[simp] theorem State.updRing_pwr (s : State) (n : Nat) (f : Ring → Ring) : (s.updRing n f).pwr = s.pwr := rfl
@[simp] theorem State.updRing_mgmt (s : State) (n : Nat) (f : Ring → Ring) : (s.updRing n f).mgmt = s.mgmt := rfl
@[simp] theorem State.updRing_pins (s : State) (n : Nat) (f : Ring → Ring) : (s.updRing n f).pins = s.pins := rfl
@[simp] theorem State.updRing_evts (s : State) (n : Nat) (f : Ring → Ring) : (s.updRing n f).evts = s.evts := rfl
@[simp] theorem State.updRing_ctrs (s : State) (n : Nat) (f : Ring → Ring) : (s.updRing n f).ctrs = s.ctrs := rfl
@[simp] theorem State.updRing_out (s : State) (n : Nat) (f : Ring → Ring) : (s.updRing n f).out = s.out := rfl
@[simp] theorem State.updRing_free (s : State) (n : Nat) (f : Ring → Ring) : (s.updRing n f).free = s.free := rfl
@[simp] theorem State.updRing_pending (s : State) (n : Nat) (f : Ring → Ring) : (s.updRing n f).pending = s.pending := rfl
@[simp] theorem State.updRing_mbx (s : State) (n : Nat) (f : Ring → Ring) : (s.updRing n f).mbx = { s.mbx with rings := KMap.put s.mbx.rings n (f (s.ring n)) } := rfl

/-! ### updFab -/

@[simp] theorem State.updFab_time (s : State) (f : Fab → Fab) : (s.updFab f).time = s.time := rfl
@[simp] theorem State.updFab_cfg (s : State) (f : Fab → Fab) : (s.updFab f).cfg = s.cfg := rfl
@[simp] theorem State.updFab_id (s : State) (f : Fab → Fab) : (s.updFab f).id = s.id := rfl
@[simp] theorem State.updFab_flash (s : State) (f : Fab → Fab) : (s.updFab f).flash = s.flash := rfl
@[simp] theorem State.updFab_mbx (s : State) (f : Fab → Fab) : (s.updFab f).mbx = s.mbx := rfl
@[simp] theorem State.updFab_ctxs (s : State) (f : Fab → Fab) : (s.updFab f).ctxs = s.ctxs := rfl
@[simp] theorem State.updFab_mem (s : State) (f : Fab → Fab) : (s.updFab f).mem = s.mem := rfl
@[simp] theorem State.updFab_clus (s : State) (f : Fab → Fab) : (s.updFab f).clus = s.clus := rfl
@[simp] theorem State.updFab_ports (s : State) (f : Fab → Fab) : (s.updFab f).ports = s.ports := rfl
@[simp] theorem State.updFab_recov (s : State) (f : Fab → Fab) : (s.updFab f).recov = s.recov := rfl
@[simp] theorem State.updFab_cal (s : State) (f : Fab → Fab) : (s.updFab f).cal = s.cal := rfl
@[simp] theorem State.updFab_det (s : State) (f : Fab → Fab) : (s.updFab f).det = s.det := rfl
@[simp] theorem State.updFab_gey (s : State) (f : Fab → Fab) : (s.updFab f).gey = s.gey := rfl
@[simp] theorem State.updFab_tel (s : State) (f : Fab → Fab) : (s.updFab f).tel = s.tel := rfl
@[simp] theorem State.updFab_evr (s : State) (f : Fab → Fab) : (s.updFab f).evr = s.evr := rfl
@[simp] theorem State.updFab_pwr (s : State) (f : Fab → Fab) : (s.updFab f).pwr = s.pwr := rfl
@[simp] theorem State.updFab_mgmt (s : State) (f : Fab → Fab) : (s.updFab f).mgmt = s.mgmt := rfl
@[simp] theorem State.updFab_pins (s : State) (f : Fab → Fab) : (s.updFab f).pins = s.pins := rfl
@[simp] theorem State.updFab_evts (s : State) (f : Fab → Fab) : (s.updFab f).evts = s.evts := rfl
@[simp] theorem State.updFab_ctrs (s : State) (f : Fab → Fab) : (s.updFab f).ctrs = s.ctrs := rfl
@[simp] theorem State.updFab_out (s : State) (f : Fab → Fab) : (s.updFab f).out = s.out := rfl
@[simp] theorem State.updFab_free (s : State) (f : Fab → Fab) : (s.updFab f).free = s.free := rfl
@[simp] theorem State.updFab_pending (s : State) (f : Fab → Fab) : (s.updFab f).pending = s.pending := rfl
@[simp] theorem State.updFab_fab (s : State) (f : Fab → Fab) : (s.updFab f).fab = f s.fab := rfl

/-! ### updTime -/

@[simp] theorem State.updTime_cfg (s : State) (f : Time → Time) : (s.updTime f).cfg = s.cfg := rfl
@[simp] theorem State.updTime_id (s : State) (f : Time → Time) : (s.updTime f).id = s.id := rfl
@[simp] theorem State.updTime_flash (s : State) (f : Time → Time) : (s.updTime f).flash = s.flash := rfl
@[simp] theorem State.updTime_mbx (s : State) (f : Time → Time) : (s.updTime f).mbx = s.mbx := rfl
@[simp] theorem State.updTime_ctxs (s : State) (f : Time → Time) : (s.updTime f).ctxs = s.ctxs := rfl
@[simp] theorem State.updTime_mem (s : State) (f : Time → Time) : (s.updTime f).mem = s.mem := rfl
@[simp] theorem State.updTime_clus (s : State) (f : Time → Time) : (s.updTime f).clus = s.clus := rfl
@[simp] theorem State.updTime_fab (s : State) (f : Time → Time) : (s.updTime f).fab = s.fab := rfl
@[simp] theorem State.updTime_ports (s : State) (f : Time → Time) : (s.updTime f).ports = s.ports := rfl
@[simp] theorem State.updTime_recov (s : State) (f : Time → Time) : (s.updTime f).recov = s.recov := rfl
@[simp] theorem State.updTime_cal (s : State) (f : Time → Time) : (s.updTime f).cal = s.cal := rfl
@[simp] theorem State.updTime_det (s : State) (f : Time → Time) : (s.updTime f).det = s.det := rfl
@[simp] theorem State.updTime_gey (s : State) (f : Time → Time) : (s.updTime f).gey = s.gey := rfl
@[simp] theorem State.updTime_tel (s : State) (f : Time → Time) : (s.updTime f).tel = s.tel := rfl
@[simp] theorem State.updTime_evr (s : State) (f : Time → Time) : (s.updTime f).evr = s.evr := rfl
@[simp] theorem State.updTime_pwr (s : State) (f : Time → Time) : (s.updTime f).pwr = s.pwr := rfl
@[simp] theorem State.updTime_mgmt (s : State) (f : Time → Time) : (s.updTime f).mgmt = s.mgmt := rfl
@[simp] theorem State.updTime_pins (s : State) (f : Time → Time) : (s.updTime f).pins = s.pins := rfl
@[simp] theorem State.updTime_evts (s : State) (f : Time → Time) : (s.updTime f).evts = s.evts := rfl
@[simp] theorem State.updTime_ctrs (s : State) (f : Time → Time) : (s.updTime f).ctrs = s.ctrs := rfl
@[simp] theorem State.updTime_out (s : State) (f : Time → Time) : (s.updTime f).out = s.out := rfl
@[simp] theorem State.updTime_free (s : State) (f : Time → Time) : (s.updTime f).free = s.free := rfl
@[simp] theorem State.updTime_pending (s : State) (f : Time → Time) : (s.updTime f).pending = s.pending := rfl
@[simp] theorem State.updTime_time (s : State) (f : Time → Time) : (s.updTime f).time = f s.time := rfl

/-! ### updRecov -/

@[simp] theorem State.updRecov_time (s : State) (f : Recov → Recov) : (s.updRecov f).time = s.time := rfl
@[simp] theorem State.updRecov_cfg (s : State) (f : Recov → Recov) : (s.updRecov f).cfg = s.cfg := rfl
@[simp] theorem State.updRecov_id (s : State) (f : Recov → Recov) : (s.updRecov f).id = s.id := rfl
@[simp] theorem State.updRecov_flash (s : State) (f : Recov → Recov) : (s.updRecov f).flash = s.flash := rfl
@[simp] theorem State.updRecov_mbx (s : State) (f : Recov → Recov) : (s.updRecov f).mbx = s.mbx := rfl
@[simp] theorem State.updRecov_ctxs (s : State) (f : Recov → Recov) : (s.updRecov f).ctxs = s.ctxs := rfl
@[simp] theorem State.updRecov_mem (s : State) (f : Recov → Recov) : (s.updRecov f).mem = s.mem := rfl
@[simp] theorem State.updRecov_clus (s : State) (f : Recov → Recov) : (s.updRecov f).clus = s.clus := rfl
@[simp] theorem State.updRecov_fab (s : State) (f : Recov → Recov) : (s.updRecov f).fab = s.fab := rfl
@[simp] theorem State.updRecov_ports (s : State) (f : Recov → Recov) : (s.updRecov f).ports = s.ports := rfl
@[simp] theorem State.updRecov_cal (s : State) (f : Recov → Recov) : (s.updRecov f).cal = s.cal := rfl
@[simp] theorem State.updRecov_det (s : State) (f : Recov → Recov) : (s.updRecov f).det = s.det := rfl
@[simp] theorem State.updRecov_gey (s : State) (f : Recov → Recov) : (s.updRecov f).gey = s.gey := rfl
@[simp] theorem State.updRecov_tel (s : State) (f : Recov → Recov) : (s.updRecov f).tel = s.tel := rfl
@[simp] theorem State.updRecov_evr (s : State) (f : Recov → Recov) : (s.updRecov f).evr = s.evr := rfl
@[simp] theorem State.updRecov_pwr (s : State) (f : Recov → Recov) : (s.updRecov f).pwr = s.pwr := rfl
@[simp] theorem State.updRecov_mgmt (s : State) (f : Recov → Recov) : (s.updRecov f).mgmt = s.mgmt := rfl
@[simp] theorem State.updRecov_pins (s : State) (f : Recov → Recov) : (s.updRecov f).pins = s.pins := rfl
@[simp] theorem State.updRecov_evts (s : State) (f : Recov → Recov) : (s.updRecov f).evts = s.evts := rfl
@[simp] theorem State.updRecov_ctrs (s : State) (f : Recov → Recov) : (s.updRecov f).ctrs = s.ctrs := rfl
@[simp] theorem State.updRecov_out (s : State) (f : Recov → Recov) : (s.updRecov f).out = s.out := rfl
@[simp] theorem State.updRecov_free (s : State) (f : Recov → Recov) : (s.updRecov f).free = s.free := rfl
@[simp] theorem State.updRecov_pending (s : State) (f : Recov → Recov) : (s.updRecov f).pending = s.pending := rfl
@[simp] theorem State.updRecov_recov (s : State) (f : Recov → Recov) : (s.updRecov f).recov = f s.recov := rfl

/-! ### updCal -/

@[simp] theorem State.updCal_time (s : State) (f : Cal → Cal) : (s.updCal f).time = s.time := rfl
@[simp] theorem State.updCal_cfg (s : State) (f : Cal → Cal) : (s.updCal f).cfg = s.cfg := rfl
@[simp] theorem State.updCal_id (s : State) (f : Cal → Cal) : (s.updCal f).id = s.id := rfl
@[simp] theorem State.updCal_flash (s : State) (f : Cal → Cal) : (s.updCal f).flash = s.flash := rfl
@[simp] theorem State.updCal_mbx (s : State) (f : Cal → Cal) : (s.updCal f).mbx = s.mbx := rfl
@[simp] theorem State.updCal_ctxs (s : State) (f : Cal → Cal) : (s.updCal f).ctxs = s.ctxs := rfl
@[simp] theorem State.updCal_mem (s : State) (f : Cal → Cal) : (s.updCal f).mem = s.mem := rfl
@[simp] theorem State.updCal_clus (s : State) (f : Cal → Cal) : (s.updCal f).clus = s.clus := rfl
@[simp] theorem State.updCal_fab (s : State) (f : Cal → Cal) : (s.updCal f).fab = s.fab := rfl
@[simp] theorem State.updCal_ports (s : State) (f : Cal → Cal) : (s.updCal f).ports = s.ports := rfl
@[simp] theorem State.updCal_recov (s : State) (f : Cal → Cal) : (s.updCal f).recov = s.recov := rfl
@[simp] theorem State.updCal_det (s : State) (f : Cal → Cal) : (s.updCal f).det = s.det := rfl
@[simp] theorem State.updCal_gey (s : State) (f : Cal → Cal) : (s.updCal f).gey = s.gey := rfl
@[simp] theorem State.updCal_tel (s : State) (f : Cal → Cal) : (s.updCal f).tel = s.tel := rfl
@[simp] theorem State.updCal_evr (s : State) (f : Cal → Cal) : (s.updCal f).evr = s.evr := rfl
@[simp] theorem State.updCal_pwr (s : State) (f : Cal → Cal) : (s.updCal f).pwr = s.pwr := rfl
@[simp] theorem State.updCal_mgmt (s : State) (f : Cal → Cal) : (s.updCal f).mgmt = s.mgmt := rfl
@[simp] theorem State.updCal_pins (s : State) (f : Cal → Cal) : (s.updCal f).pins = s.pins := rfl
@[simp] theorem State.updCal_evts (s : State) (f : Cal → Cal) : (s.updCal f).evts = s.evts := rfl
@[simp] theorem State.updCal_ctrs (s : State) (f : Cal → Cal) : (s.updCal f).ctrs = s.ctrs := rfl
@[simp] theorem State.updCal_out (s : State) (f : Cal → Cal) : (s.updCal f).out = s.out := rfl
@[simp] theorem State.updCal_free (s : State) (f : Cal → Cal) : (s.updCal f).free = s.free := rfl
@[simp] theorem State.updCal_pending (s : State) (f : Cal → Cal) : (s.updCal f).pending = s.pending := rfl
@[simp] theorem State.updCal_cal (s : State) (f : Cal → Cal) : (s.updCal f).cal = f s.cal := rfl

/-! ### updDet -/

@[simp] theorem State.updDet_time (s : State) (f : Det → Det) : (s.updDet f).time = s.time := rfl
@[simp] theorem State.updDet_cfg (s : State) (f : Det → Det) : (s.updDet f).cfg = s.cfg := rfl
@[simp] theorem State.updDet_id (s : State) (f : Det → Det) : (s.updDet f).id = s.id := rfl
@[simp] theorem State.updDet_flash (s : State) (f : Det → Det) : (s.updDet f).flash = s.flash := rfl
@[simp] theorem State.updDet_mbx (s : State) (f : Det → Det) : (s.updDet f).mbx = s.mbx := rfl
@[simp] theorem State.updDet_ctxs (s : State) (f : Det → Det) : (s.updDet f).ctxs = s.ctxs := rfl
@[simp] theorem State.updDet_mem (s : State) (f : Det → Det) : (s.updDet f).mem = s.mem := rfl
@[simp] theorem State.updDet_clus (s : State) (f : Det → Det) : (s.updDet f).clus = s.clus := rfl
@[simp] theorem State.updDet_fab (s : State) (f : Det → Det) : (s.updDet f).fab = s.fab := rfl
@[simp] theorem State.updDet_ports (s : State) (f : Det → Det) : (s.updDet f).ports = s.ports := rfl
@[simp] theorem State.updDet_recov (s : State) (f : Det → Det) : (s.updDet f).recov = s.recov := rfl
@[simp] theorem State.updDet_cal (s : State) (f : Det → Det) : (s.updDet f).cal = s.cal := rfl
@[simp] theorem State.updDet_gey (s : State) (f : Det → Det) : (s.updDet f).gey = s.gey := rfl
@[simp] theorem State.updDet_tel (s : State) (f : Det → Det) : (s.updDet f).tel = s.tel := rfl
@[simp] theorem State.updDet_evr (s : State) (f : Det → Det) : (s.updDet f).evr = s.evr := rfl
@[simp] theorem State.updDet_pwr (s : State) (f : Det → Det) : (s.updDet f).pwr = s.pwr := rfl
@[simp] theorem State.updDet_mgmt (s : State) (f : Det → Det) : (s.updDet f).mgmt = s.mgmt := rfl
@[simp] theorem State.updDet_pins (s : State) (f : Det → Det) : (s.updDet f).pins = s.pins := rfl
@[simp] theorem State.updDet_evts (s : State) (f : Det → Det) : (s.updDet f).evts = s.evts := rfl
@[simp] theorem State.updDet_ctrs (s : State) (f : Det → Det) : (s.updDet f).ctrs = s.ctrs := rfl
@[simp] theorem State.updDet_out (s : State) (f : Det → Det) : (s.updDet f).out = s.out := rfl
@[simp] theorem State.updDet_free (s : State) (f : Det → Det) : (s.updDet f).free = s.free := rfl
@[simp] theorem State.updDet_pending (s : State) (f : Det → Det) : (s.updDet f).pending = s.pending := rfl
@[simp] theorem State.updDet_det (s : State) (f : Det → Det) : (s.updDet f).det = f s.det := rfl

/-! ### updTel -/

@[simp] theorem State.updTel_time (s : State) (f : Tel → Tel) : (s.updTel f).time = s.time := rfl
@[simp] theorem State.updTel_cfg (s : State) (f : Tel → Tel) : (s.updTel f).cfg = s.cfg := rfl
@[simp] theorem State.updTel_id (s : State) (f : Tel → Tel) : (s.updTel f).id = s.id := rfl
@[simp] theorem State.updTel_flash (s : State) (f : Tel → Tel) : (s.updTel f).flash = s.flash := rfl
@[simp] theorem State.updTel_mbx (s : State) (f : Tel → Tel) : (s.updTel f).mbx = s.mbx := rfl
@[simp] theorem State.updTel_ctxs (s : State) (f : Tel → Tel) : (s.updTel f).ctxs = s.ctxs := rfl
@[simp] theorem State.updTel_mem (s : State) (f : Tel → Tel) : (s.updTel f).mem = s.mem := rfl
@[simp] theorem State.updTel_clus (s : State) (f : Tel → Tel) : (s.updTel f).clus = s.clus := rfl
@[simp] theorem State.updTel_fab (s : State) (f : Tel → Tel) : (s.updTel f).fab = s.fab := rfl
@[simp] theorem State.updTel_ports (s : State) (f : Tel → Tel) : (s.updTel f).ports = s.ports := rfl
@[simp] theorem State.updTel_recov (s : State) (f : Tel → Tel) : (s.updTel f).recov = s.recov := rfl
@[simp] theorem State.updTel_cal (s : State) (f : Tel → Tel) : (s.updTel f).cal = s.cal := rfl
@[simp] theorem State.updTel_det (s : State) (f : Tel → Tel) : (s.updTel f).det = s.det := rfl
@[simp] theorem State.updTel_gey (s : State) (f : Tel → Tel) : (s.updTel f).gey = s.gey := rfl
@[simp] theorem State.updTel_evr (s : State) (f : Tel → Tel) : (s.updTel f).evr = s.evr := rfl
@[simp] theorem State.updTel_pwr (s : State) (f : Tel → Tel) : (s.updTel f).pwr = s.pwr := rfl
@[simp] theorem State.updTel_mgmt (s : State) (f : Tel → Tel) : (s.updTel f).mgmt = s.mgmt := rfl
@[simp] theorem State.updTel_pins (s : State) (f : Tel → Tel) : (s.updTel f).pins = s.pins := rfl
@[simp] theorem State.updTel_evts (s : State) (f : Tel → Tel) : (s.updTel f).evts = s.evts := rfl
@[simp] theorem State.updTel_ctrs (s : State) (f : Tel → Tel) : (s.updTel f).ctrs = s.ctrs := rfl
@[simp] theorem State.updTel_out (s : State) (f : Tel → Tel) : (s.updTel f).out = s.out := rfl
@[simp] theorem State.updTel_free (s : State) (f : Tel → Tel) : (s.updTel f).free = s.free := rfl
@[simp] theorem State.updTel_pending (s : State) (f : Tel → Tel) : (s.updTel f).pending = s.pending := rfl
@[simp] theorem State.updTel_tel (s : State) (f : Tel → Tel) : (s.updTel f).tel = f s.tel := rfl

/-! ### updEvr -/

@[simp] theorem State.updEvr_time (s : State) (f : Evr → Evr) : (s.updEvr f).time = s.time := rfl
@[simp] theorem State.updEvr_cfg (s : State) (f : Evr → Evr) : (s.updEvr f).cfg = s.cfg := rfl
@[simp] theorem State.updEvr_id (s : State) (f : Evr → Evr) : (s.updEvr f).id = s.id := rfl
@[simp] theorem State.updEvr_flash (s : State) (f : Evr → Evr) : (s.updEvr f).flash = s.flash := rfl
@[simp] theorem State.updEvr_mbx (s : State) (f : Evr → Evr) : (s.updEvr f).mbx = s.mbx := rfl
@[simp] theorem State.updEvr_ctxs (s : State) (f : Evr → Evr) : (s.updEvr f).ctxs = s.ctxs := rfl
@[simp] theorem State.updEvr_mem (s : State) (f : Evr → Evr) : (s.updEvr f).mem = s.mem := rfl
@[simp] theorem State.updEvr_clus (s : State) (f : Evr → Evr) : (s.updEvr f).clus = s.clus := rfl
@[simp] theorem State.updEvr_fab (s : State) (f : Evr → Evr) : (s.updEvr f).fab = s.fab := rfl
@[simp] theorem State.updEvr_ports (s : State) (f : Evr → Evr) : (s.updEvr f).ports = s.ports := rfl
@[simp] theorem State.updEvr_recov (s : State) (f : Evr → Evr) : (s.updEvr f).recov = s.recov := rfl
@[simp] theorem State.updEvr_cal (s : State) (f : Evr → Evr) : (s.updEvr f).cal = s.cal := rfl
@[simp] theorem State.updEvr_det (s : State) (f : Evr → Evr) : (s.updEvr f).det = s.det := rfl
@[simp] theorem State.updEvr_gey (s : State) (f : Evr → Evr) : (s.updEvr f).gey = s.gey := rfl
@[simp] theorem State.updEvr_tel (s : State) (f : Evr → Evr) : (s.updEvr f).tel = s.tel := rfl
@[simp] theorem State.updEvr_pwr (s : State) (f : Evr → Evr) : (s.updEvr f).pwr = s.pwr := rfl
@[simp] theorem State.updEvr_mgmt (s : State) (f : Evr → Evr) : (s.updEvr f).mgmt = s.mgmt := rfl
@[simp] theorem State.updEvr_pins (s : State) (f : Evr → Evr) : (s.updEvr f).pins = s.pins := rfl
@[simp] theorem State.updEvr_evts (s : State) (f : Evr → Evr) : (s.updEvr f).evts = s.evts := rfl
@[simp] theorem State.updEvr_ctrs (s : State) (f : Evr → Evr) : (s.updEvr f).ctrs = s.ctrs := rfl
@[simp] theorem State.updEvr_out (s : State) (f : Evr → Evr) : (s.updEvr f).out = s.out := rfl
@[simp] theorem State.updEvr_free (s : State) (f : Evr → Evr) : (s.updEvr f).free = s.free := rfl
@[simp] theorem State.updEvr_pending (s : State) (f : Evr → Evr) : (s.updEvr f).pending = s.pending := rfl
@[simp] theorem State.updEvr_evr (s : State) (f : Evr → Evr) : (s.updEvr f).evr = f s.evr := rfl

/-! ### updId -/

@[simp] theorem State.updId_time (s : State) (f : Ident → Ident) : (s.updId f).time = s.time := rfl
@[simp] theorem State.updId_cfg (s : State) (f : Ident → Ident) : (s.updId f).cfg = s.cfg := rfl
@[simp] theorem State.updId_flash (s : State) (f : Ident → Ident) : (s.updId f).flash = s.flash := rfl
@[simp] theorem State.updId_mbx (s : State) (f : Ident → Ident) : (s.updId f).mbx = s.mbx := rfl
@[simp] theorem State.updId_ctxs (s : State) (f : Ident → Ident) : (s.updId f).ctxs = s.ctxs := rfl
@[simp] theorem State.updId_mem (s : State) (f : Ident → Ident) : (s.updId f).mem = s.mem := rfl
@[simp] theorem State.updId_clus (s : State) (f : Ident → Ident) : (s.updId f).clus = s.clus := rfl
@[simp] theorem State.updId_fab (s : State) (f : Ident → Ident) : (s.updId f).fab = s.fab := rfl
@[simp] theorem State.updId_ports (s : State) (f : Ident → Ident) : (s.updId f).ports = s.ports := rfl
@[simp] theorem State.updId_recov (s : State) (f : Ident → Ident) : (s.updId f).recov = s.recov := rfl
@[simp] theorem State.updId_cal (s : State) (f : Ident → Ident) : (s.updId f).cal = s.cal := rfl
@[simp] theorem State.updId_det (s : State) (f : Ident → Ident) : (s.updId f).det = s.det := rfl
@[simp] theorem State.updId_gey (s : State) (f : Ident → Ident) : (s.updId f).gey = s.gey := rfl
@[simp] theorem State.updId_tel (s : State) (f : Ident → Ident) : (s.updId f).tel = s.tel := rfl
@[simp] theorem State.updId_evr (s : State) (f : Ident → Ident) : (s.updId f).evr = s.evr := rfl
@[simp] theorem State.updId_pwr (s : State) (f : Ident → Ident) : (s.updId f).pwr = s.pwr := rfl
@[simp] theorem State.updId_mgmt (s : State) (f : Ident → Ident) : (s.updId f).mgmt = s.mgmt := rfl
@[simp] theorem State.updId_pins (s : State) (f : Ident → Ident) : (s.updId f).pins = s.pins := rfl
@[simp] theorem State.updId_evts (s : State) (f : Ident → Ident) : (s.updId f).evts = s.evts := rfl
@[simp] theorem State.updId_ctrs (s : State) (f : Ident → Ident) : (s.updId f).ctrs = s.ctrs := rfl
@[simp] theorem State.updId_out (s : State) (f : Ident → Ident) : (s.updId f).out = s.out := rfl
@[simp] theorem State.updId_free (s : State) (f : Ident → Ident) : (s.updId f).free = s.free := rfl
@[simp] theorem State.updId_pending (s : State) (f : Ident → Ident) : (s.updId f).pending = s.pending := rfl
@[simp] theorem State.updId_id (s : State) (f : Ident → Ident) : (s.updId f).id = f s.id := rfl

/-! ### updFlash -/

@[simp] theorem State.updFlash_time (s : State) (f : Flash → Flash) : (s.updFlash f).time = s.time := rfl
@[simp] theorem State.updFlash_cfg (s : State) (f : Flash → Flash) : (s.updFlash f).cfg = s.cfg := rfl
@[simp] theorem State.updFlash_id (s : State) (f : Flash → Flash) : (s.updFlash f).id = s.id := rfl
@[simp] theorem State.updFlash_mbx (s : State) (f : Flash → Flash) : (s.updFlash f).mbx = s.mbx := rfl
@[simp] theorem State.updFlash_ctxs (s : State) (f : Flash → Flash) : (s.updFlash f).ctxs = s.ctxs := rfl
@[simp] theorem State.updFlash_mem (s : State) (f : Flash → Flash) : (s.updFlash f).mem = s.mem := rfl
@[simp] theorem State.updFlash_clus (s : State) (f : Flash → Flash) : (s.updFlash f).clus = s.clus := rfl
@[simp] theorem State.updFlash_fab (s : State) (f : Flash → Flash) : (s.updFlash f).fab = s.fab := rfl
@[simp] theorem State.updFlash_ports (s : State) (f : Flash → Flash) : (s.updFlash f).ports = s.ports := rfl
@[simp] theorem State.updFlash_recov (s : State) (f : Flash → Flash) : (s.updFlash f).recov = s.recov := rfl
@[simp] theorem State.updFlash_cal (s : State) (f : Flash → Flash) : (s.updFlash f).cal = s.cal := rfl
@[simp] theorem State.updFlash_det (s : State) (f : Flash → Flash) : (s.updFlash f).det = s.det := rfl
@[simp] theorem State.updFlash_gey (s : State) (f : Flash → Flash) : (s.updFlash f).gey = s.gey := rfl
@[simp] theorem State.updFlash_tel (s : State) (f : Flash → Flash) : (s.updFlash f).tel = s.tel := rfl
@[simp] theorem State.updFlash_evr (s : State) (f : Flash → Flash) : (s.updFlash f).evr = s.evr := rfl
@[simp] theorem State.updFlash_pwr (s : State) (f : Flash → Flash) : (s.updFlash f).pwr = s.pwr := rfl
@[simp] theorem State.updFlash_mgmt (s : State) (f : Flash → Flash) : (s.updFlash f).mgmt = s.mgmt := rfl
@[simp] theorem State.updFlash_pins (s : State) (f : Flash → Flash) : (s.updFlash f).pins = s.pins := rfl
@[simp] theorem State.updFlash_evts (s : State) (f : Flash → Flash) : (s.updFlash f).evts = s.evts := rfl
@[simp] theorem State.updFlash_ctrs (s : State) (f : Flash → Flash) : (s.updFlash f).ctrs = s.ctrs := rfl
@[simp] theorem State.updFlash_out (s : State) (f : Flash → Flash) : (s.updFlash f).out = s.out := rfl
@[simp] theorem State.updFlash_free (s : State) (f : Flash → Flash) : (s.updFlash f).free = s.free := rfl
@[simp] theorem State.updFlash_pending (s : State) (f : Flash → Flash) : (s.updFlash f).pending = s.pending := rfl
@[simp] theorem State.updFlash_flash (s : State) (f : Flash → Flash) : (s.updFlash f).flash = f s.flash := rfl

/-! ### updMem -/

@[simp] theorem State.updMem_time (s : State) (f : Mem → Mem) : (s.updMem f).time = s.time := rfl
@[simp] theorem State.updMem_cfg (s : State) (f : Mem → Mem) : (s.updMem f).cfg = s.cfg := rfl
@[simp] theorem State.updMem_id (s : State) (f : Mem → Mem) : (s.updMem f).id = s.id := rfl
@[simp] theorem State.updMem_flash (s : State) (f : Mem → Mem) : (s.updMem f).flash = s.flash := rfl
@[simp] theorem State.updMem_mbx (s : State) (f : Mem → Mem) : (s.updMem f).mbx = s.mbx := rfl
@[simp] theorem State.updMem_ctxs (s : State) (f : Mem → Mem) : (s.updMem f).ctxs = s.ctxs := rfl
@[simp] theorem State.updMem_clus (s : State) (f : Mem → Mem) : (s.updMem f).clus = s.clus := rfl
@[simp] theorem State.updMem_fab (s : State) (f : Mem → Mem) : (s.updMem f).fab = s.fab := rfl
@[simp] theorem State.updMem_ports (s : State) (f : Mem → Mem) : (s.updMem f).ports = s.ports := rfl
@[simp] theorem State.updMem_recov (s : State) (f : Mem → Mem) : (s.updMem f).recov = s.recov := rfl
@[simp] theorem State.updMem_cal (s : State) (f : Mem → Mem) : (s.updMem f).cal = s.cal := rfl
@[simp] theorem State.updMem_det (s : State) (f : Mem → Mem) : (s.updMem f).det = s.det := rfl
@[simp] theorem State.updMem_gey (s : State) (f : Mem → Mem) : (s.updMem f).gey = s.gey := rfl
@[simp] theorem State.updMem_tel (s : State) (f : Mem → Mem) : (s.updMem f).tel = s.tel := rfl
@[simp] theorem State.updMem_evr (s : State) (f : Mem → Mem) : (s.updMem f).evr = s.evr := rfl
@[simp] theorem State.updMem_pwr (s : State) (f : Mem → Mem) : (s.updMem f).pwr = s.pwr := rfl
@[simp] theorem State.updMem_mgmt (s : State) (f : Mem → Mem) : (s.updMem f).mgmt = s.mgmt := rfl
@[simp] theorem State.updMem_pins (s : State) (f : Mem → Mem) : (s.updMem f).pins = s.pins := rfl
@[simp] theorem State.updMem_evts (s : State) (f : Mem → Mem) : (s.updMem f).evts = s.evts := rfl
@[simp] theorem State.updMem_ctrs (s : State) (f : Mem → Mem) : (s.updMem f).ctrs = s.ctrs := rfl
@[simp] theorem State.updMem_out (s : State) (f : Mem → Mem) : (s.updMem f).out = s.out := rfl
@[simp] theorem State.updMem_free (s : State) (f : Mem → Mem) : (s.updMem f).free = s.free := rfl
@[simp] theorem State.updMem_pending (s : State) (f : Mem → Mem) : (s.updMem f).pending = s.pending := rfl
@[simp] theorem State.updMem_mem (s : State) (f : Mem → Mem) : (s.updMem f).mem = f s.mem := rfl

/-! ### updGeyser -/

@[simp] theorem State.updGeyser_time (s : State) (f : Gey → Gey) : (s.updGeyser f).time = s.time := rfl
@[simp] theorem State.updGeyser_cfg (s : State) (f : Gey → Gey) : (s.updGeyser f).cfg = s.cfg := rfl
@[simp] theorem State.updGeyser_id (s : State) (f : Gey → Gey) : (s.updGeyser f).id = s.id := rfl
@[simp] theorem State.updGeyser_flash (s : State) (f : Gey → Gey) : (s.updGeyser f).flash = s.flash := rfl
@[simp] theorem State.updGeyser_mbx (s : State) (f : Gey → Gey) : (s.updGeyser f).mbx = s.mbx := rfl
@[simp] theorem State.updGeyser_ctxs (s : State) (f : Gey → Gey) : (s.updGeyser f).ctxs = s.ctxs := rfl
@[simp] theorem State.updGeyser_mem (s : State) (f : Gey → Gey) : (s.updGeyser f).mem = s.mem := rfl
@[simp] theorem State.updGeyser_clus (s : State) (f : Gey → Gey) : (s.updGeyser f).clus = s.clus := rfl
@[simp] theorem State.updGeyser_fab (s : State) (f : Gey → Gey) : (s.updGeyser f).fab = s.fab := rfl
@[simp] theorem State.updGeyser_ports (s : State) (f : Gey → Gey) : (s.updGeyser f).ports = s.ports := rfl
@[simp] theorem State.updGeyser_recov (s : State) (f : Gey → Gey) : (s.updGeyser f).recov = s.recov := rfl
@[simp] theorem State.updGeyser_cal (s : State) (f : Gey → Gey) : (s.updGeyser f).cal = s.cal := rfl
@[simp] theorem State.updGeyser_det (s : State) (f : Gey → Gey) : (s.updGeyser f).det = s.det := rfl
@[simp] theorem State.updGeyser_tel (s : State) (f : Gey → Gey) : (s.updGeyser f).tel = s.tel := rfl
@[simp] theorem State.updGeyser_evr (s : State) (f : Gey → Gey) : (s.updGeyser f).evr = s.evr := rfl
@[simp] theorem State.updGeyser_pwr (s : State) (f : Gey → Gey) : (s.updGeyser f).pwr = s.pwr := rfl
@[simp] theorem State.updGeyser_mgmt (s : State) (f : Gey → Gey) : (s.updGeyser f).mgmt = s.mgmt := rfl
@[simp] theorem State.updGeyser_pins (s : State) (f : Gey → Gey) : (s.updGeyser f).pins = s.pins := rfl
@[simp] theorem State.updGeyser_evts (s : State) (f : Gey → Gey) : (s.updGeyser f).evts = s.evts := rfl
@[simp] theorem State.updGeyser_ctrs (s : State) (f : Gey → Gey) : (s.updGeyser f).ctrs = s.ctrs := rfl
@[simp] theorem State.updGeyser_out (s : State) (f : Gey → Gey) : (s.updGeyser f).out = s.out := rfl
@[simp] theorem State.updGeyser_free (s : State) (f : Gey → Gey) : (s.updGeyser f).free = s.free := rfl
@[simp] theorem State.updGeyser_pending (s : State) (f : Gey → Gey) : (s.updGeyser f).pending = s.pending := rfl
@[simp] theorem State.updGeyser_gey (s : State) (f : Gey → Gey) : (s.updGeyser f).gey = f s.gey := rfl

/-! ### setCfg -/

@[simp] theorem State.setCfg_time (s : State) (c : Cfg) : (s.setCfg c).time = s.time := rfl
@[simp] theorem State.setCfg_id (s : State) (c : Cfg) : (s.setCfg c).id = s.id := rfl
@[simp] theorem State.setCfg_flash (s : State) (c : Cfg) : (s.setCfg c).flash = s.flash := rfl
@[simp] theorem State.setCfg_mbx (s : State) (c : Cfg) : (s.setCfg c).mbx = s.mbx := rfl
@[simp] theorem State.setCfg_ctxs (s : State) (c : Cfg) : (s.setCfg c).ctxs = s.ctxs := rfl
@[simp] theorem State.setCfg_mem (s : State) (c : Cfg) : (s.setCfg c).mem = s.mem := rfl
@[simp] theorem State.setCfg_clus (s : State) (c : Cfg) : (s.setCfg c).clus = s.clus := rfl
@[simp] theorem State.setCfg_fab (s : State) (c : Cfg) : (s.setCfg c).fab = s.fab := rfl
@[simp] theorem State.setCfg_ports (s : State) (c : Cfg) : (s.setCfg c).ports = s.ports := rfl
@[simp] theorem State.setCfg_recov (s : State) (c : Cfg) : (s.setCfg c).recov = s.recov := rfl
@[simp] theorem State.setCfg_cal (s : State) (c : Cfg) : (s.setCfg c).cal = s.cal := rfl
@[simp] theorem State.setCfg_det (s : State) (c : Cfg) : (s.setCfg c).det = s.det := rfl
@[simp] theorem State.setCfg_gey (s : State) (c : Cfg) : (s.setCfg c).gey = s.gey := rfl
@[simp] theorem State.setCfg_tel (s : State) (c : Cfg) : (s.setCfg c).tel = s.tel := rfl
@[simp] theorem State.setCfg_evr (s : State) (c : Cfg) : (s.setCfg c).evr = s.evr := rfl
@[simp] theorem State.setCfg_pwr (s : State) (c : Cfg) : (s.setCfg c).pwr = s.pwr := rfl
@[simp] theorem State.setCfg_mgmt (s : State) (c : Cfg) : (s.setCfg c).mgmt = s.mgmt := rfl
@[simp] theorem State.setCfg_pins (s : State) (c : Cfg) : (s.setCfg c).pins = s.pins := rfl
@[simp] theorem State.setCfg_evts (s : State) (c : Cfg) : (s.setCfg c).evts = s.evts := rfl
@[simp] theorem State.setCfg_ctrs (s : State) (c : Cfg) : (s.setCfg c).ctrs = s.ctrs := rfl
@[simp] theorem State.setCfg_out (s : State) (c : Cfg) : (s.setCfg c).out = s.out := rfl
@[simp] theorem State.setCfg_free (s : State) (c : Cfg) : (s.setCfg c).free = s.free := rfl
@[simp] theorem State.setCfg_pending (s : State) (c : Cfg) : (s.setCfg c).pending = s.pending := rfl
@[simp] theorem State.setCfg_cfg (s : State) (c : Cfg) : (s.setCfg c).cfg = c := rfl

/-! ### updPorts -/

@[simp] theorem State.updPorts_time (s : State) (f : KMap Port → KMap Port) : (s.updPorts f).time = s.time := rfl
@[simp] theorem State.updPorts_cfg (s : State) (f : KMap Port → KMap Port) : (s.updPorts f).cfg = s.cfg := rfl
@[simp] theorem State.updPorts_id (s : State) (f : KMap Port → KMap Port) : (s.updPorts f).id = s.id := rfl
@[simp] theorem State.updPorts_flash (s : State) (f : KMap Port → KMap Port) : (s.updPorts f).flash = s.flash := rfl
@[simp] theorem State.updPorts_mbx (s : State) (f : KMap Port → KMap Port) : (s.updPorts f).mbx = s.mbx := rfl
@[simp] theorem State.updPorts_ctxs (s : State) (f : KMap Port → KMap Port) : (s.updPorts f).ctxs = s.ctxs := rfl
@[simp] theorem State.updPorts_mem (s : State) (f : KMap Port → KMap Port) : (s.updPorts f).mem = s.mem := rfl
@[simp] theorem State.updPorts_clus (s : State) (f : KMap Port → KMap Port) : (s.updPorts f).clus = s.clus := rfl
@[simp] theorem State.updPorts_fab (s : State) (f : KMap Port → KMap Port) : (s.updPorts f).fab = s.fab := rfl
@[simp] theorem State.updPorts_recov (s : State) (f : KMap Port → KMap Port) : (s.updPorts f).recov = s.recov := rfl
@[simp] theorem State.updPorts_cal (s : State) (f : KMap Port → KMap Port) : (s.updPorts f).cal = s.cal := rfl
@[simp] theorem State.updPorts_det (s : State) (f : KMap Port → KMap Port) : (s.updPorts f).det = s.det := rfl
@[simp] theorem State.updPorts_gey (s : State) (f : KMap Port → KMap Port) : (s.updPorts f).gey = s.gey := rfl
@[simp] theorem State.updPorts_tel (s : State) (f : KMap Port → KMap Port) : (s.updPorts f).tel = s.tel := rfl
@[simp] theorem State.updPorts_evr (s : State) (f : KMap Port → KMap Port) : (s.updPorts f).evr = s.evr := rfl
@[simp] theorem State.updPorts_pwr (s : State) (f : KMap Port → KMap Port) : (s.updPorts f).pwr = s.pwr := rfl
@[simp] theorem State.updPorts_mgmt (s : State) (f : KMap Port → KMap Port) : (s.updPorts f).mgmt = s.mgmt := rfl
@[simp] theorem State.updPorts_pins (s : State) (f : KMap Port → KMap Port) : (s.updPorts f).pins = s.pins := rfl
@[simp] theorem State.updPorts_evts (s : State) (f : KMap Port → KMap Port) : (s.updPorts f).evts = s.evts := rfl
@[simp] theorem State.updPorts_ctrs (s : State) (f : KMap Port → KMap Port) : (s.updPorts f).ctrs = s.ctrs := rfl
@[simp] theorem State.updPorts_out (s : State) (f : KMap Port → KMap Port) : (s.updPorts f).out = s.out := rfl
@[simp] theorem State.updPorts_free (s : State) (f : KMap Port → KMap Port) : (s.updPorts f).free = s.free := rfl
@[simp] theorem State.updPorts_pending (s : State) (f : KMap Port → KMap Port) : (s.updPorts f).pending = s.pending := rfl
@[simp] theorem State.updPorts_ports (s : State) (f : KMap Port → KMap Port) : (s.updPorts f).ports = f s.ports := rfl

/-! ### updClus -/

@[simp] theorem State.updClus_time (s : State) (f : KMap Cluster → KMap Cluster) : (s.updClus f).time = s.time := rfl
@[simp] theorem State.updClus_cfg (s : State) (f : KMap Cluster → KMap Cluster) : (s.updClus f).cfg = s.cfg := rfl
@[simp] theorem State.updClus_id (s : State) (f : KMap Cluster → KMap Cluster) : (s.updClus f).id = s.id := rfl
@[simp] theorem State.updClus_flash (s : State) (f : KMap Cluster → KMap Cluster) : (s.updClus f).flash = s.flash := rfl
@[simp] theorem State.updClus_mbx (s : State) (f : KMap Cluster → KMap Cluster) : (s.updClus f).mbx = s.mbx := rfl
@[simp] theorem State.updClus_ctxs (s : State) (f : KMap Cluster → KMap Cluster) : (s.updClus f).ctxs = s.ctxs := rfl
@[simp] theorem State.updClus_mem (s : State) (f : KMap Cluster → KMap Cluster) : (s.updClus f).mem = s.mem := rfl
@[simp] theorem State.updClus_fab (s : State) (f : KMap Cluster → KMap Cluster) : (s.updClus f).fab = s.fab := rfl
@[simp] theorem State.updClus_ports (s : State) (f : KMap Cluster → KMap Cluster) : (s.updClus f).ports = s.ports := rfl
@[simp] theorem State.updClus_recov (s : State) (f : KMap Cluster → KMap Cluster) : (s.updClus f).recov = s.recov := rfl
@[simp] theorem State.updClus_cal (s : State) (f : KMap Cluster → KMap Cluster) : (s.updClus f).cal = s.cal := rfl
@[simp] theorem State.updClus_det (s : State) (f : KMap Cluster → KMap Cluster) : (s.updClus f).det = s.det := rfl
@[simp] theorem State.updClus_gey (s : State) (f : KMap Cluster → KMap Cluster) : (s.updClus f).gey = s.gey := rfl
@[simp] theorem State.updClus_tel (s : State) (f : KMap Cluster → KMap Cluster) : (s.updClus f).tel = s.tel := rfl
@[simp] theorem State.updClus_evr (s : State) (f : KMap Cluster → KMap Cluster) : (s.updClus f).evr = s.evr := rfl
@[simp] theorem State.updClus_pwr (s : State) (f : KMap Cluster → KMap Cluster) : (s.updClus f).pwr = s.pwr := rfl
@[simp] theorem State.updClus_mgmt (s : State) (f : KMap Cluster → KMap Cluster) : (s.updClus f).mgmt = s.mgmt := rfl
@[simp] theorem State.updClus_pins (s : State) (f : KMap Cluster → KMap Cluster) : (s.updClus f).pins = s.pins := rfl
@[simp] theorem State.updClus_evts (s : State) (f : KMap Cluster → KMap Cluster) : (s.updClus f).evts = s.evts := rfl
@[simp] theorem State.updClus_ctrs (s : State) (f : KMap Cluster → KMap Cluster) : (s.updClus f).ctrs = s.ctrs := rfl
@[simp] theorem State.updClus_out (s : State) (f : KMap Cluster → KMap Cluster) : (s.updClus f).out = s.out := rfl
@[simp] theorem State.updClus_free (s : State) (f : KMap Cluster → KMap Cluster) : (s.updClus f).free = s.free := rfl
@[simp] theorem State.updClus_pending (s : State) (f : KMap Cluster → KMap Cluster) : (s.updClus f).pending = s.pending := rfl
@[simp] theorem State.updClus_clus (s : State) (f : KMap Cluster → KMap Cluster) : (s.updClus f).clus = f s.clus := rfl

/-! ### updEvts -/

@[simp] theorem State.updEvts_time (s : State) (f : KMap Nat → KMap Nat) : (s.updEvts f).time = s.time := rfl
@[simp] theorem State.updEvts_cfg (s : State) (f : KMap Nat → KMap Nat) : (s.updEvts f).cfg = s.cfg := rfl
@[simp] theorem State.updEvts_id (s : State) (f : KMap Nat → KMap Nat) : (s.updEvts f).id = s.id := rfl
@[simp] theorem State.updEvts_flash (s : State) (f : KMap Nat → KMap Nat) : (s.updEvts f).flash = s.flash := rfl
@[simp] theorem State.updEvts_mbx (s : State) (f : KMap Nat → KMap Nat) : (s.updEvts f).mbx = s.mbx := rfl
@[simp] theorem State.updEvts_ctxs (s : State) (f : KMap Nat → KMap Nat) : (s.updEvts f).ctxs = s.ctxs := rfl
@[simp] theorem State.updEvts_mem (s : State) (f : KMap Nat → KMap Nat) : (s.updEvts f).mem = s.mem := rfl
@[simp] theorem State.updEvts_clus (s : State) (f : KMap Nat → KMap Nat) : (s.updEvts f).clus = s.clus := rfl
@[simp] theorem State.updEvts_fab (s : State) (f : KMap Nat → KMap Nat) : (s.updEvts f).fab = s.fab := rfl
@[simp] theorem State.updEvts_ports (s : State) (f : KMap Nat → KMap Nat) : (s.updEvts f).ports = s.ports := rfl
@[simp] theorem State.updEvts_recov (s : State) (f : KMap Nat → KMap Nat) : (s.updEvts f).recov = s.recov := rfl
@[simp] theorem State.updEvts_cal (s : State) (f : KMap Nat → KMap Nat) : (s.updEvts f).cal = s.cal := rfl
@[simp] theorem State.updEvts_det (s : State) (f : KMap Nat → KMap Nat) : (s.updEvts f).det = s.det := rfl
@[simp] theorem State.updEvts_gey (s : State) (f : KMap Nat → KMap Nat) : (s.updEvts f).gey = s.gey := rfl
@[simp] theorem State.updEvts_tel (s : State) (f : KMap Nat → KMap Nat) : (s.updEvts f).tel = s.tel := rfl
@[simp] theorem State.updEvts_evr (s : State) (f : KMap Nat → KMap Nat) : (s.updEvts f).evr = s.evr := rfl
@[simp] theorem State.updEvts_pwr (s : State) (f : KMap Nat → KMap Nat) : (s.updEvts f).pwr = s.pwr := rfl
@[simp] theorem State.updEvts_mgmt (s : State) (f : KMap Nat → KMap Nat) : (s.updEvts f).mgmt = s.mgmt := rfl
@[simp] theorem State.updEvts_pins (s : State) (f : KMap Nat → KMap Nat) : (s.updEvts f).pins = s.pins := rfl
@[simp] theorem State.updEvts_ctrs (s : State) (f : KMap Nat → KMap Nat) : (s.updEvts f).ctrs = s.ctrs := rfl
@[simp] theorem State.updEvts_out (s : State) (f : KMap Nat → KMap Nat) : (s.updEvts f).out = s.out := rfl
@[simp] theorem State.updEvts_free (s : State) (f : KMap Nat → KMap Nat) : (s.updEvts f).free = s.free := rfl
@[simp] theorem State.updEvts_pending (s : State) (f : KMap Nat → KMap Nat) : (s.updEvts f).pending = s.pending := rfl
@[simp] theorem State.updEvts_evts (s : State) (f : KMap Nat → KMap Nat) : (s.updEvts f).evts = f s.evts := rfl

/-! ### spend -/

@[simp] theorem State.spend_time (s : State) (n : Nat) : (s.spend n).time = s.time := rfl
@[simp] theorem State.spend_cfg (s : State) (n : Nat) : (s.spend n).cfg = s.cfg := rfl
@[simp] theorem State.spend_id (s : State) (n : Nat) : (s.spend n).id = s.id := rfl
@[simp] theorem State.spend_flash (s : State) (n : Nat) : (s.spend n).flash = s.flash := rfl
@[simp] theorem State.spend_mbx (s : State) (n : Nat) : (s.spend n).mbx = s.mbx := rfl
@[simp] theorem State.spend_ctxs (s : State) (n : Nat) : (s.spend n).ctxs = s.ctxs := rfl
@[simp] theorem State.spend_mem (s : State) (n : Nat) : (s.spend n).mem = s.mem := rfl
@[simp] theorem State.spend_clus (s : State) (n : Nat) : (s.spend n).clus = s.clus := rfl
@[simp] theorem State.spend_fab (s : State) (n : Nat) : (s.spend n).fab = s.fab := rfl
@[simp] theorem State.spend_ports (s : State) (n : Nat) : (s.spend n).ports = s.ports := rfl
@[simp] theorem State.spend_recov (s : State) (n : Nat) : (s.spend n).recov = s.recov := rfl
@[simp] theorem State.spend_cal (s : State) (n : Nat) : (s.spend n).cal = s.cal := rfl
@[simp] theorem State.spend_det (s : State) (n : Nat) : (s.spend n).det = s.det := rfl
@[simp] theorem State.spend_gey (s : State) (n : Nat) : (s.spend n).gey = s.gey := rfl
@[simp] theorem State.spend_tel (s : State) (n : Nat) : (s.spend n).tel = s.tel := rfl
@[simp] theorem State.spend_evr (s : State) (n : Nat) : (s.spend n).evr = s.evr := rfl
@[simp] theorem State.spend_pwr (s : State) (n : Nat) : (s.spend n).pwr = s.pwr := rfl
@[simp] theorem State.spend_mgmt (s : State) (n : Nat) : (s.spend n).mgmt = s.mgmt := rfl
@[simp] theorem State.spend_pins (s : State) (n : Nat) : (s.spend n).pins = s.pins := rfl
@[simp] theorem State.spend_evts (s : State) (n : Nat) : (s.spend n).evts = s.evts := rfl
@[simp] theorem State.spend_ctrs (s : State) (n : Nat) : (s.spend n).ctrs = s.ctrs := rfl
@[simp] theorem State.spend_out (s : State) (n : Nat) : (s.spend n).out = s.out := rfl
@[simp] theorem State.spend_pending (s : State) (n : Nat) : (s.spend n).pending = s.pending := rfl
@[simp] theorem State.spend_free (s : State) (n : Nat) : (s.spend n).free = s.free + n := rfl

/-! ### updPins -/

@[simp] theorem State.updPins_time (s : State) (f : Pins → Pins) : (s.updPins f).time = s.time := rfl
@[simp] theorem State.updPins_cfg (s : State) (f : Pins → Pins) : (s.updPins f).cfg = s.cfg := rfl
@[simp] theorem State.updPins_id (s : State) (f : Pins → Pins) : (s.updPins f).id = s.id := rfl
@[simp] theorem State.updPins_flash (s : State) (f : Pins → Pins) : (s.updPins f).flash = s.flash := rfl
@[simp] theorem State.updPins_mbx (s : State) (f : Pins → Pins) : (s.updPins f).mbx = s.mbx := rfl
@[simp] theorem State.updPins_ctxs (s : State) (f : Pins → Pins) : (s.updPins f).ctxs = s.ctxs := rfl
@[simp] theorem State.updPins_mem (s : State) (f : Pins → Pins) : (s.updPins f).mem = s.mem := rfl
@[simp] theorem State.updPins_clus (s : State) (f : Pins → Pins) : (s.updPins f).clus = s.clus := rfl
@[simp] theorem State.updPins_fab (s : State) (f : Pins → Pins) : (s.updPins f).fab = s.fab := rfl
@[simp] theorem State.updPins_ports (s : State) (f : Pins → Pins) : (s.updPins f).ports = s.ports := rfl
@[simp] theorem State.updPins_recov (s : State) (f : Pins → Pins) : (s.updPins f).recov = s.recov := rfl
@[simp] theorem State.updPins_cal (s : State) (f : Pins → Pins) : (s.updPins f).cal = s.cal := rfl
@[simp] theorem State.updPins_det (s : State) (f : Pins → Pins) : (s.updPins f).det = s.det := rfl
@[simp] theorem State.updPins_gey (s : State) (f : Pins → Pins) : (s.updPins f).gey = s.gey := rfl
@[simp] theorem State.updPins_tel (s : State) (f : Pins → Pins) : (s.updPins f).tel = s.tel := rfl
@[simp] theorem State.updPins_evr (s : State) (f : Pins → Pins) : (s.updPins f).evr = s.evr := rfl
@[simp] theorem State.updPins_pwr (s : State) (f : Pins → Pins) : (s.updPins f).pwr = s.pwr := rfl
@[simp] theorem State.updPins_mgmt (s : State) (f : Pins → Pins) : (s.updPins f).mgmt = s.mgmt := rfl
@[simp] theorem State.updPins_evts (s : State) (f : Pins → Pins) : (s.updPins f).evts = s.evts := rfl
@[simp] theorem State.updPins_ctrs (s : State) (f : Pins → Pins) : (s.updPins f).ctrs = s.ctrs := rfl
@[simp] theorem State.updPins_out (s : State) (f : Pins → Pins) : (s.updPins f).out = s.out := rfl
@[simp] theorem State.updPins_free (s : State) (f : Pins → Pins) : (s.updPins f).free = s.free := rfl
@[simp] theorem State.updPins_pending (s : State) (f : Pins → Pins) : (s.updPins f).pending = s.pending := rfl
@[simp] theorem State.updPins_pins (s : State) (f : Pins → Pins) : (s.updPins f).pins = f s.pins := rfl

/-! ### updMgmt -/

@[simp] theorem State.updMgmt_time (s : State) (f : Mgmt → Mgmt) : (s.updMgmt f).time = s.time := rfl
@[simp] theorem State.updMgmt_cfg (s : State) (f : Mgmt → Mgmt) : (s.updMgmt f).cfg = s.cfg := rfl
@[simp] theorem State.updMgmt_id (s : State) (f : Mgmt → Mgmt) : (s.updMgmt f).id = s.id := rfl
@[simp] theorem State.updMgmt_flash (s : State) (f : Mgmt → Mgmt) : (s.updMgmt f).flash = s.flash := rfl
@[simp] theorem State.updMgmt_mbx (s : State) (f : Mgmt → Mgmt) : (s.updMgmt f).mbx = s.mbx := rfl
@[simp] theorem State.updMgmt_ctxs (s : State) (f : Mgmt → Mgmt) : (s.updMgmt f).ctxs = s.ctxs := rfl
@[simp] theorem State.updMgmt_mem (s : State) (f : Mgmt → Mgmt) : (s.updMgmt f).mem = s.mem := rfl
@[simp] theorem State.updMgmt_clus (s : State) (f : Mgmt → Mgmt) : (s.updMgmt f).clus = s.clus := rfl
@[simp] theorem State.updMgmt_fab (s : State) (f : Mgmt → Mgmt) : (s.updMgmt f).fab = s.fab := rfl
@[simp] theorem State.updMgmt_ports (s : State) (f : Mgmt → Mgmt) : (s.updMgmt f).ports = s.ports := rfl
@[simp] theorem State.updMgmt_recov (s : State) (f : Mgmt → Mgmt) : (s.updMgmt f).recov = s.recov := rfl
@[simp] theorem State.updMgmt_cal (s : State) (f : Mgmt → Mgmt) : (s.updMgmt f).cal = s.cal := rfl
@[simp] theorem State.updMgmt_det (s : State) (f : Mgmt → Mgmt) : (s.updMgmt f).det = s.det := rfl
@[simp] theorem State.updMgmt_gey (s : State) (f : Mgmt → Mgmt) : (s.updMgmt f).gey = s.gey := rfl
@[simp] theorem State.updMgmt_tel (s : State) (f : Mgmt → Mgmt) : (s.updMgmt f).tel = s.tel := rfl
@[simp] theorem State.updMgmt_evr (s : State) (f : Mgmt → Mgmt) : (s.updMgmt f).evr = s.evr := rfl
@[simp] theorem State.updMgmt_pwr (s : State) (f : Mgmt → Mgmt) : (s.updMgmt f).pwr = s.pwr := rfl
@[simp] theorem State.updMgmt_pins (s : State) (f : Mgmt → Mgmt) : (s.updMgmt f).pins = s.pins := rfl
@[simp] theorem State.updMgmt_evts (s : State) (f : Mgmt → Mgmt) : (s.updMgmt f).evts = s.evts := rfl
@[simp] theorem State.updMgmt_ctrs (s : State) (f : Mgmt → Mgmt) : (s.updMgmt f).ctrs = s.ctrs := rfl
@[simp] theorem State.updMgmt_out (s : State) (f : Mgmt → Mgmt) : (s.updMgmt f).out = s.out := rfl
@[simp] theorem State.updMgmt_free (s : State) (f : Mgmt → Mgmt) : (s.updMgmt f).free = s.free := rfl
@[simp] theorem State.updMgmt_pending (s : State) (f : Mgmt → Mgmt) : (s.updMgmt f).pending = s.pending := rfl
@[simp] theorem State.updMgmt_mgmt (s : State) (f : Mgmt → Mgmt) : (s.updMgmt f).mgmt = f s.mgmt := rfl

/-! ### updPwr -/

@[simp] theorem State.updPwr_time (s : State) (f : Pwr → Pwr) : (s.updPwr f).time = s.time := rfl
@[simp] theorem State.updPwr_cfg (s : State) (f : Pwr → Pwr) : (s.updPwr f).cfg = s.cfg := rfl
@[simp] theorem State.updPwr_id (s : State) (f : Pwr → Pwr) : (s.updPwr f).id = s.id := rfl
@[simp] theorem State.updPwr_flash (s : State) (f : Pwr → Pwr) : (s.updPwr f).flash = s.flash := rfl
@[simp] theorem State.updPwr_mbx (s : State) (f : Pwr → Pwr) : (s.updPwr f).mbx = s.mbx := rfl
@[simp] theorem State.updPwr_ctxs (s : State) (f : Pwr → Pwr) : (s.updPwr f).ctxs = s.ctxs := rfl
@[simp] theorem State.updPwr_mem (s : State) (f : Pwr → Pwr) : (s.updPwr f).mem = s.mem := rfl
@[simp] theorem State.updPwr_clus (s : State) (f : Pwr → Pwr) : (s.updPwr f).clus = s.clus := rfl
@[simp] theorem State.updPwr_fab (s : State) (f : Pwr → Pwr) : (s.updPwr f).fab = s.fab := rfl
@[simp] theorem State.updPwr_ports (s : State) (f : Pwr → Pwr) : (s.updPwr f).ports = s.ports := rfl
@[simp] theorem State.updPwr_recov (s : State) (f : Pwr → Pwr) : (s.updPwr f).recov = s.recov := rfl
@[simp] theorem State.updPwr_cal (s : State) (f : Pwr → Pwr) : (s.updPwr f).cal = s.cal := rfl
@[simp] theorem State.updPwr_det (s : State) (f : Pwr → Pwr) : (s.updPwr f).det = s.det := rfl
@[simp] theorem State.updPwr_gey (s : State) (f : Pwr → Pwr) : (s.updPwr f).gey = s.gey := rfl
@[simp] theorem State.updPwr_tel (s : State) (f : Pwr → Pwr) : (s.updPwr f).tel = s.tel := rfl
@[simp] theorem State.updPwr_evr (s : State) (f : Pwr → Pwr) : (s.updPwr f).evr = s.evr := rfl
@[simp] theorem State.updPwr_mgmt (s : State) (f : Pwr → Pwr) : (s.updPwr f).mgmt = s.mgmt := rfl
@[simp] theorem State.updPwr_pins (s : State) (f : Pwr → Pwr) : (s.updPwr f).pins = s.pins := rfl
@[simp] theorem State.updPwr_evts (s : State) (f : Pwr → Pwr) : (s.updPwr f).evts = s.evts := rfl
@[simp] theorem State.updPwr_ctrs (s : State) (f : Pwr → Pwr) : (s.updPwr f).ctrs = s.ctrs := rfl
@[simp] theorem State.updPwr_out (s : State) (f : Pwr → Pwr) : (s.updPwr f).out = s.out := rfl
@[simp] theorem State.updPwr_free (s : State) (f : Pwr → Pwr) : (s.updPwr f).free = s.free := rfl
@[simp] theorem State.updPwr_pending (s : State) (f : Pwr → Pwr) : (s.updPwr f).pending = s.pending := rfl
@[simp] theorem State.updPwr_pwr (s : State) (f : Pwr → Pwr) : (s.updPwr f).pwr = f s.pwr := rfl

/-! ### updPwrCtx -/

@[simp] theorem State.updPwrCtx_time (s : State) (x : Nat) (f : PwrCtx → PwrCtx) : (s.updPwrCtx x f).time = s.time := rfl
@[simp] theorem State.updPwrCtx_cfg (s : State) (x : Nat) (f : PwrCtx → PwrCtx) : (s.updPwrCtx x f).cfg = s.cfg := rfl
@[simp] theorem State.updPwrCtx_id (s : State) (x : Nat) (f : PwrCtx → PwrCtx) : (s.updPwrCtx x f).id = s.id := rfl
@[simp] theorem State.updPwrCtx_flash (s : State) (x : Nat) (f : PwrCtx → PwrCtx) : (s.updPwrCtx x f).flash = s.flash := rfl
@[simp] theorem State.updPwrCtx_mbx (s : State) (x : Nat) (f : PwrCtx → PwrCtx) : (s.updPwrCtx x f).mbx = s.mbx := rfl
@[simp] theorem State.updPwrCtx_ctxs (s : State) (x : Nat) (f : PwrCtx → PwrCtx) : (s.updPwrCtx x f).ctxs = s.ctxs := rfl
@[simp] theorem State.updPwrCtx_mem (s : State) (x : Nat) (f : PwrCtx → PwrCtx) : (s.updPwrCtx x f).mem = s.mem := rfl
@[simp] theorem State.updPwrCtx_clus (s : State) (x : Nat) (f : PwrCtx → PwrCtx) : (s.updPwrCtx x f).clus = s.clus := rfl
@[simp] theorem State.updPwrCtx_fab (s : State) (x : Nat) (f : PwrCtx → PwrCtx) : (s.updPwrCtx x f).fab = s.fab := rfl
@[simp] theorem State.updPwrCtx_ports (s : State) (x : Nat) (f : PwrCtx → PwrCtx) : (s.updPwrCtx x f).ports = s.ports := rfl
@[simp] theorem State.updPwrCtx_recov (s : State) (x : Nat) (f : PwrCtx → PwrCtx) : (s.updPwrCtx x f).recov = s.recov := rfl
@[simp] theorem State.updPwrCtx_cal (s : State) (x : Nat) (f : PwrCtx → PwrCtx) : (s.updPwrCtx x f).cal = s.cal := rfl
@[simp] theorem State.updPwrCtx_det (s : State) (x : Nat) (f : PwrCtx → PwrCtx) : (s.updPwrCtx x f).det = s.det := rfl
@[simp] theorem State.updPwrCtx_gey (s : State) (x : Nat) (f : PwrCtx → PwrCtx) : (s.updPwrCtx x f).gey = s.gey := rfl
@[simp] theorem State.updPwrCtx_tel (s : State) (x : Nat) (f : PwrCtx → PwrCtx) : (s.updPwrCtx x f).tel = s.tel := rfl
@[simp] theorem State.updPwrCtx_evr (s : State) (x : Nat) (f : PwrCtx → PwrCtx) : (s.updPwrCtx x f).evr = s.evr := rfl
@[simp] theorem State.updPwrCtx_mgmt (s : State) (x : Nat) (f : PwrCtx → PwrCtx) : (s.updPwrCtx x f).mgmt = s.mgmt := rfl
@[simp] theorem State.updPwrCtx_pins (s : State) (x : Nat) (f : PwrCtx → PwrCtx) : (s.updPwrCtx x f).pins = s.pins := rfl
@[simp] theorem State.updPwrCtx_evts (s : State) (x : Nat) (f : PwrCtx → PwrCtx) : (s.updPwrCtx x f).evts = s.evts := rfl
@[simp] theorem State.updPwrCtx_ctrs (s : State) (x : Nat) (f : PwrCtx → PwrCtx) : (s.updPwrCtx x f).ctrs = s.ctrs := rfl
@[simp] theorem State.updPwrCtx_out (s : State) (x : Nat) (f : PwrCtx → PwrCtx) : (s.updPwrCtx x f).out = s.out := rfl
@[simp] theorem State.updPwrCtx_free (s : State) (x : Nat) (f : PwrCtx → PwrCtx) : (s.updPwrCtx x f).free = s.free := rfl
@[simp] theorem State.updPwrCtx_pending (s : State) (x : Nat) (f : PwrCtx → PwrCtx) : (s.updPwrCtx x f).pending = s.pending := rfl
@[simp] theorem State.updPwrCtx_pwr (s : State) (x : Nat) (f : PwrCtx → PwrCtx) : (s.updPwrCtx x f).pwr = { s.pwr with ctx := KMap.put s.pwr.ctx x (f (s.pwrCtx x)) } := rfl

/-! ### updStage -/

@[simp] theorem State.updStage_time (s : State) (i : Nat) (f : Stage → Stage) : (s.updStage i f).time = s.time := rfl
@[simp] theorem State.updStage_cfg (s : State) (i : Nat) (f : Stage → Stage) : (s.updStage i f).cfg = s.cfg := rfl
@[simp] theorem State.updStage_id (s : State) (i : Nat) (f : Stage → Stage) : (s.updStage i f).id = s.id := rfl
@[simp] theorem State.updStage_flash (s : State) (i : Nat) (f : Stage → Stage) : (s.updStage i f).flash = s.flash := rfl
@[simp] theorem State.updStage_mbx (s : State) (i : Nat) (f : Stage → Stage) : (s.updStage i f).mbx = s.mbx := rfl
@[simp] theorem State.updStage_ctxs (s : State) (i : Nat) (f : Stage → Stage) : (s.updStage i f).ctxs = s.ctxs := rfl
@[simp] theorem State.updStage_mem (s : State) (i : Nat) (f : Stage → Stage) : (s.updStage i f).mem = s.mem := rfl
@[simp] theorem State.updStage_clus (s : State) (i : Nat) (f : Stage → Stage) : (s.updStage i f).clus = s.clus := rfl
@[simp] theorem State.updStage_fab (s : State) (i : Nat) (f : Stage → Stage) : (s.updStage i f).fab = s.fab := rfl
@[simp] theorem State.updStage_ports (s : State) (i : Nat) (f : Stage → Stage) : (s.updStage i f).ports = s.ports := rfl
@[simp] theorem State.updStage_recov (s : State) (i : Nat) (f : Stage → Stage) : (s.updStage i f).recov = s.recov := rfl
@[simp] theorem State.updStage_cal (s : State) (i : Nat) (f : Stage → Stage) : (s.updStage i f).cal = s.cal := rfl
@[simp] theorem State.updStage_det (s : State) (i : Nat) (f : Stage → Stage) : (s.updStage i f).det = s.det := rfl
@[simp] theorem State.updStage_gey (s : State) (i : Nat) (f : Stage → Stage) : (s.updStage i f).gey = s.gey := rfl
@[simp] theorem State.updStage_tel (s : State) (i : Nat) (f : Stage → Stage) : (s.updStage i f).tel = s.tel := rfl
@[simp] theorem State.updStage_evr (s : State) (i : Nat) (f : Stage → Stage) : (s.updStage i f).evr = s.evr := rfl
@[simp] theorem State.updStage_mgmt (s : State) (i : Nat) (f : Stage → Stage) : (s.updStage i f).mgmt = s.mgmt := rfl
@[simp] theorem State.updStage_pins (s : State) (i : Nat) (f : Stage → Stage) : (s.updStage i f).pins = s.pins := rfl
@[simp] theorem State.updStage_evts (s : State) (i : Nat) (f : Stage → Stage) : (s.updStage i f).evts = s.evts := rfl
@[simp] theorem State.updStage_ctrs (s : State) (i : Nat) (f : Stage → Stage) : (s.updStage i f).ctrs = s.ctrs := rfl
@[simp] theorem State.updStage_out (s : State) (i : Nat) (f : Stage → Stage) : (s.updStage i f).out = s.out := rfl
@[simp] theorem State.updStage_free (s : State) (i : Nat) (f : Stage → Stage) : (s.updStage i f).free = s.free := rfl
@[simp] theorem State.updStage_pending (s : State) (i : Nat) (f : Stage → Stage) : (s.updStage i f).pending = s.pending := rfl
@[simp] theorem State.updStage_pwr (s : State) (i : Nat) (f : Stage → Stage) : (s.updStage i f).pwr = { s.pwr with stages := KMap.put s.pwr.stages i (f (s.stage i)) } := rfl

/-! ### setDom -/

@[simp] theorem State.setDom_time (s : State) (i : Nat) (d : DomSt) : (s.setDom i d).time = s.time := rfl
@[simp] theorem State.setDom_cfg (s : State) (i : Nat) (d : DomSt) : (s.setDom i d).cfg = s.cfg := rfl
@[simp] theorem State.setDom_id (s : State) (i : Nat) (d : DomSt) : (s.setDom i d).id = s.id := rfl
@[simp] theorem State.setDom_flash (s : State) (i : Nat) (d : DomSt) : (s.setDom i d).flash = s.flash := rfl
@[simp] theorem State.setDom_mbx (s : State) (i : Nat) (d : DomSt) : (s.setDom i d).mbx = s.mbx := rfl
@[simp] theorem State.setDom_ctxs (s : State) (i : Nat) (d : DomSt) : (s.setDom i d).ctxs = s.ctxs := rfl
@[simp] theorem State.setDom_mem (s : State) (i : Nat) (d : DomSt) : (s.setDom i d).mem = s.mem := rfl
@[simp] theorem State.setDom_clus (s : State) (i : Nat) (d : DomSt) : (s.setDom i d).clus = s.clus := rfl
@[simp] theorem State.setDom_fab (s : State) (i : Nat) (d : DomSt) : (s.setDom i d).fab = s.fab := rfl
@[simp] theorem State.setDom_ports (s : State) (i : Nat) (d : DomSt) : (s.setDom i d).ports = s.ports := rfl
@[simp] theorem State.setDom_recov (s : State) (i : Nat) (d : DomSt) : (s.setDom i d).recov = s.recov := rfl
@[simp] theorem State.setDom_cal (s : State) (i : Nat) (d : DomSt) : (s.setDom i d).cal = s.cal := rfl
@[simp] theorem State.setDom_det (s : State) (i : Nat) (d : DomSt) : (s.setDom i d).det = s.det := rfl
@[simp] theorem State.setDom_gey (s : State) (i : Nat) (d : DomSt) : (s.setDom i d).gey = s.gey := rfl
@[simp] theorem State.setDom_tel (s : State) (i : Nat) (d : DomSt) : (s.setDom i d).tel = s.tel := rfl
@[simp] theorem State.setDom_evr (s : State) (i : Nat) (d : DomSt) : (s.setDom i d).evr = s.evr := rfl
@[simp] theorem State.setDom_mgmt (s : State) (i : Nat) (d : DomSt) : (s.setDom i d).mgmt = s.mgmt := rfl
@[simp] theorem State.setDom_pins (s : State) (i : Nat) (d : DomSt) : (s.setDom i d).pins = s.pins := rfl
@[simp] theorem State.setDom_evts (s : State) (i : Nat) (d : DomSt) : (s.setDom i d).evts = s.evts := rfl
@[simp] theorem State.setDom_ctrs (s : State) (i : Nat) (d : DomSt) : (s.setDom i d).ctrs = s.ctrs := rfl
@[simp] theorem State.setDom_out (s : State) (i : Nat) (d : DomSt) : (s.setDom i d).out = s.out := rfl
@[simp] theorem State.setDom_free (s : State) (i : Nat) (d : DomSt) : (s.setDom i d).free = s.free := rfl
@[simp] theorem State.setDom_pending (s : State) (i : Nat) (d : DomSt) : (s.setDom i d).pending = s.pending := rfl
@[simp] theorem State.setDom_pwr (s : State) (i : Nat) (d : DomSt) : (s.setDom i d).pwr = { s.pwr with doms := KMap.put s.pwr.doms i d } := rfl

/-! ### updPtp -/

@[simp] theorem State.updPtp_cfg (s : State) (i : Nat) (f : PtpPort → PtpPort) : (s.updPtp i f).cfg = s.cfg := rfl
@[simp] theorem State.updPtp_id (s : State) (i : Nat) (f : PtpPort → PtpPort) : (s.updPtp i f).id = s.id := rfl
@[simp] theorem State.updPtp_flash (s : State) (i : Nat) (f : PtpPort → PtpPort) : (s.updPtp i f).flash = s.flash := rfl
@[simp] theorem State.updPtp_mbx (s : State) (i : Nat) (f : PtpPort → PtpPort) : (s.updPtp i f).mbx = s.mbx := rfl
@[simp] theorem State.updPtp_ctxs (s : State) (i : Nat) (f : PtpPort → PtpPort) : (s.updPtp i f).ctxs = s.ctxs := rfl
@[simp] theorem State.updPtp_mem (s : State) (i : Nat) (f : PtpPort → PtpPort) : (s.updPtp i f).mem = s.mem := rfl
@[simp] theorem State.updPtp_clus (s : State) (i : Nat) (f : PtpPort → PtpPort) : (s.updPtp i f).clus = s.clus := rfl
@[simp] theorem State.updPtp_fab (s : State) (i : Nat) (f : PtpPort → PtpPort) : (s.updPtp i f).fab = s.fab := rfl
@[simp] theorem State.updPtp_ports (s : State) (i : Nat) (f : PtpPort → PtpPort) : (s.updPtp i f).ports = s.ports := rfl
@[simp] theorem State.updPtp_recov (s : State) (i : Nat) (f : PtpPort → PtpPort) : (s.updPtp i f).recov = s.recov := rfl
@[simp] theorem State.updPtp_cal (s : State) (i : Nat) (f : PtpPort → PtpPort) : (s.updPtp i f).cal = s.cal := rfl
@[simp] theorem State.updPtp_det (s : State) (i : Nat) (f : PtpPort → PtpPort) : (s.updPtp i f).det = s.det := rfl
@[simp] theorem State.updPtp_gey (s : State) (i : Nat) (f : PtpPort → PtpPort) : (s.updPtp i f).gey = s.gey := rfl
@[simp] theorem State.updPtp_tel (s : State) (i : Nat) (f : PtpPort → PtpPort) : (s.updPtp i f).tel = s.tel := rfl
@[simp] theorem State.updPtp_evr (s : State) (i : Nat) (f : PtpPort → PtpPort) : (s.updPtp i f).evr = s.evr := rfl
@[simp] theorem State.updPtp_pwr (s : State) (i : Nat) (f : PtpPort → PtpPort) : (s.updPtp i f).pwr = s.pwr := rfl
@[simp] theorem State.updPtp_mgmt (s : State) (i : Nat) (f : PtpPort → PtpPort) : (s.updPtp i f).mgmt = s.mgmt := rfl
@[simp] theorem State.updPtp_pins (s : State) (i : Nat) (f : PtpPort → PtpPort) : (s.updPtp i f).pins = s.pins := rfl
@[simp] theorem State.updPtp_evts (s : State) (i : Nat) (f : PtpPort → PtpPort) : (s.updPtp i f).evts = s.evts := rfl
@[simp] theorem State.updPtp_ctrs (s : State) (i : Nat) (f : PtpPort → PtpPort) : (s.updPtp i f).ctrs = s.ctrs := rfl
@[simp] theorem State.updPtp_out (s : State) (i : Nat) (f : PtpPort → PtpPort) : (s.updPtp i f).out = s.out := rfl
@[simp] theorem State.updPtp_free (s : State) (i : Nat) (f : PtpPort → PtpPort) : (s.updPtp i f).free = s.free := rfl
@[simp] theorem State.updPtp_pending (s : State) (i : Nat) (f : PtpPort → PtpPort) : (s.updPtp i f).pending = s.pending := rfl
@[simp] theorem State.updPtp_time (s : State) (i : Nat) (f : PtpPort → PtpPort) : (s.updPtp i f).time = { s.time with ptp := KMap.put s.time.ptp i (f (s.ptp i)) } := rfl

/-! ### bump -/

@[simp] theorem State.bump_time (s : State) (c : Ctr) (i n : Nat) : (s.bump c i n).time = s.time := rfl
@[simp] theorem State.bump_cfg (s : State) (c : Ctr) (i n : Nat) : (s.bump c i n).cfg = s.cfg := rfl
@[simp] theorem State.bump_id (s : State) (c : Ctr) (i n : Nat) : (s.bump c i n).id = s.id := rfl
@[simp] theorem State.bump_flash (s : State) (c : Ctr) (i n : Nat) : (s.bump c i n).flash = s.flash := rfl
@[simp] theorem State.bump_mbx (s : State) (c : Ctr) (i n : Nat) : (s.bump c i n).mbx = s.mbx := rfl
@[simp] theorem State.bump_ctxs (s : State) (c : Ctr) (i n : Nat) : (s.bump c i n).ctxs = s.ctxs := rfl
@[simp] theorem State.bump_mem (s : State) (c : Ctr) (i n : Nat) : (s.bump c i n).mem = s.mem := rfl
@[simp] theorem State.bump_clus (s : State) (c : Ctr) (i n : Nat) : (s.bump c i n).clus = s.clus := rfl
@[simp] theorem State.bump_fab (s : State) (c : Ctr) (i n : Nat) : (s.bump c i n).fab = s.fab := rfl
@[simp] theorem State.bump_ports (s : State) (c : Ctr) (i n : Nat) : (s.bump c i n).ports = s.ports := rfl
@[simp] theorem State.bump_recov (s : State) (c : Ctr) (i n : Nat) : (s.bump c i n).recov = s.recov := rfl
@[simp] theorem State.bump_cal (s : State) (c : Ctr) (i n : Nat) : (s.bump c i n).cal = s.cal := rfl
@[simp] theorem State.bump_det (s : State) (c : Ctr) (i n : Nat) : (s.bump c i n).det = s.det := rfl
@[simp] theorem State.bump_gey (s : State) (c : Ctr) (i n : Nat) : (s.bump c i n).gey = s.gey := rfl
@[simp] theorem State.bump_tel (s : State) (c : Ctr) (i n : Nat) : (s.bump c i n).tel = s.tel := rfl
@[simp] theorem State.bump_evr (s : State) (c : Ctr) (i n : Nat) : (s.bump c i n).evr = s.evr := rfl
@[simp] theorem State.bump_pwr (s : State) (c : Ctr) (i n : Nat) : (s.bump c i n).pwr = s.pwr := rfl
@[simp] theorem State.bump_mgmt (s : State) (c : Ctr) (i n : Nat) : (s.bump c i n).mgmt = s.mgmt := rfl
@[simp] theorem State.bump_pins (s : State) (c : Ctr) (i n : Nat) : (s.bump c i n).pins = s.pins := rfl
@[simp] theorem State.bump_evts (s : State) (c : Ctr) (i n : Nat) : (s.bump c i n).evts = s.evts := rfl
@[simp] theorem State.bump_out (s : State) (c : Ctr) (i n : Nat) : (s.bump c i n).out = s.out := rfl
@[simp] theorem State.bump_free (s : State) (c : Ctr) (i n : Nat) : (s.bump c i n).free = s.free := rfl
@[simp] theorem State.bump_pending (s : State) (c : Ctr) (i n : Nat) : (s.bump c i n).pending = s.pending := rfl
@[simp] theorem State.bump_ctrs (s : State) (c : Ctr) (i n : Nat) : (s.bump c i n).ctrs = ctrAdd s.ctrs c i n := rfl

/-! ### emit -/

@[simp] theorem State.emit_time (s : State) (e : Emit) : (s.emit e).time = s.time := rfl
@[simp] theorem State.emit_cfg (s : State) (e : Emit) : (s.emit e).cfg = s.cfg := rfl
@[simp] theorem State.emit_id (s : State) (e : Emit) : (s.emit e).id = s.id := rfl
@[simp] theorem State.emit_flash (s : State) (e : Emit) : (s.emit e).flash = s.flash := rfl
@[simp] theorem State.emit_mbx (s : State) (e : Emit) : (s.emit e).mbx = s.mbx := rfl
@[simp] theorem State.emit_ctxs (s : State) (e : Emit) : (s.emit e).ctxs = s.ctxs := rfl
@[simp] theorem State.emit_mem (s : State) (e : Emit) : (s.emit e).mem = s.mem := rfl
@[simp] theorem State.emit_clus (s : State) (e : Emit) : (s.emit e).clus = s.clus := rfl
@[simp] theorem State.emit_fab (s : State) (e : Emit) : (s.emit e).fab = s.fab := rfl
@[simp] theorem State.emit_ports (s : State) (e : Emit) : (s.emit e).ports = s.ports := rfl
@[simp] theorem State.emit_recov (s : State) (e : Emit) : (s.emit e).recov = s.recov := rfl
@[simp] theorem State.emit_cal (s : State) (e : Emit) : (s.emit e).cal = s.cal := rfl
@[simp] theorem State.emit_det (s : State) (e : Emit) : (s.emit e).det = s.det := rfl
@[simp] theorem State.emit_gey (s : State) (e : Emit) : (s.emit e).gey = s.gey := rfl
@[simp] theorem State.emit_tel (s : State) (e : Emit) : (s.emit e).tel = s.tel := rfl
@[simp] theorem State.emit_evr (s : State) (e : Emit) : (s.emit e).evr = s.evr := rfl
@[simp] theorem State.emit_pwr (s : State) (e : Emit) : (s.emit e).pwr = s.pwr := rfl
@[simp] theorem State.emit_mgmt (s : State) (e : Emit) : (s.emit e).mgmt = s.mgmt := rfl
@[simp] theorem State.emit_pins (s : State) (e : Emit) : (s.emit e).pins = s.pins := rfl
@[simp] theorem State.emit_evts (s : State) (e : Emit) : (s.emit e).evts = s.evts := rfl
@[simp] theorem State.emit_ctrs (s : State) (e : Emit) : (s.emit e).ctrs = s.ctrs := rfl
@[simp] theorem State.emit_free (s : State) (e : Emit) : (s.emit e).free = s.free := rfl
@[simp] theorem State.emit_pending (s : State) (e : Emit) : (s.emit e).pending = s.pending := rfl
@[simp] theorem State.emit_out (s : State) (e : Emit) : (s.emit e).out = e :: s.out := rfl

/-! ### sendCtrl -/

@[simp] theorem State.sendCtrl_time (s : State) (a b c d e : Nat) (p : List Byte) : (s.sendCtrl a b c d e p).time = s.time := rfl
@[simp] theorem State.sendCtrl_cfg (s : State) (a b c d e : Nat) (p : List Byte) : (s.sendCtrl a b c d e p).cfg = s.cfg := rfl
@[simp] theorem State.sendCtrl_id (s : State) (a b c d e : Nat) (p : List Byte) : (s.sendCtrl a b c d e p).id = s.id := rfl
@[simp] theorem State.sendCtrl_flash (s : State) (a b c d e : Nat) (p : List Byte) : (s.sendCtrl a b c d e p).flash = s.flash := rfl
@[simp] theorem State.sendCtrl_mbx (s : State) (a b c d e : Nat) (p : List Byte) : (s.sendCtrl a b c d e p).mbx = s.mbx := rfl
@[simp] theorem State.sendCtrl_ctxs (s : State) (a b c d e : Nat) (p : List Byte) : (s.sendCtrl a b c d e p).ctxs = s.ctxs := rfl
@[simp] theorem State.sendCtrl_mem (s : State) (a b c d e : Nat) (p : List Byte) : (s.sendCtrl a b c d e p).mem = s.mem := rfl
@[simp] theorem State.sendCtrl_clus (s : State) (a b c d e : Nat) (p : List Byte) : (s.sendCtrl a b c d e p).clus = s.clus := rfl
@[simp] theorem State.sendCtrl_ports (s : State) (a b c d e : Nat) (p : List Byte) : (s.sendCtrl a b c d e p).ports = s.ports := rfl
@[simp] theorem State.sendCtrl_recov (s : State) (a b c d e : Nat) (p : List Byte) : (s.sendCtrl a b c d e p).recov = s.recov := rfl
@[simp] theorem State.sendCtrl_cal (s : State) (a b c d e : Nat) (p : List Byte) : (s.sendCtrl a b c d e p).cal = s.cal := rfl
@[simp] theorem State.sendCtrl_det (s : State) (a b c d e : Nat) (p : List Byte) : (s.sendCtrl a b c d e p).det = s.det := rfl
@[simp] theorem State.sendCtrl_gey (s : State) (a b c d e : Nat) (p : List Byte) : (s.sendCtrl a b c d e p).gey = s.gey := rfl
@[simp] theorem State.sendCtrl_tel (s : State) (a b c d e : Nat) (p : List Byte) : (s.sendCtrl a b c d e p).tel = s.tel := rfl
@[simp] theorem State.sendCtrl_evr (s : State) (a b c d e : Nat) (p : List Byte) : (s.sendCtrl a b c d e p).evr = s.evr := rfl
@[simp] theorem State.sendCtrl_pwr (s : State) (a b c d e : Nat) (p : List Byte) : (s.sendCtrl a b c d e p).pwr = s.pwr := rfl
@[simp] theorem State.sendCtrl_mgmt (s : State) (a b c d e : Nat) (p : List Byte) : (s.sendCtrl a b c d e p).mgmt = s.mgmt := rfl
@[simp] theorem State.sendCtrl_pins (s : State) (a b c d e : Nat) (p : List Byte) : (s.sendCtrl a b c d e p).pins = s.pins := rfl
@[simp] theorem State.sendCtrl_evts (s : State) (a b c d e : Nat) (p : List Byte) : (s.sendCtrl a b c d e p).evts = s.evts := rfl
@[simp] theorem State.sendCtrl_ctrs (s : State) (a b c d e : Nat) (p : List Byte) : (s.sendCtrl a b c d e p).ctrs = s.ctrs := rfl
@[simp] theorem State.sendCtrl_free (s : State) (a b c d e : Nat) (p : List Byte) : (s.sendCtrl a b c d e p).free = s.free := rfl
@[simp] theorem State.sendCtrl_pending (s : State) (a b c d e : Nat) (p : List Byte) : (s.sendCtrl a b c d e p).pending = s.pending := rfl

/-! ### sendResp -/

@[simp] theorem State.sendResp_time (s : State) (a b c d e : Nat) (p : Bool) : (s.sendResp a b c d e p).time = s.time := rfl
@[simp] theorem State.sendResp_cfg (s : State) (a b c d e : Nat) (p : Bool) : (s.sendResp a b c d e p).cfg = s.cfg := rfl
@[simp] theorem State.sendResp_id (s : State) (a b c d e : Nat) (p : Bool) : (s.sendResp a b c d e p).id = s.id := rfl
@[simp] theorem State.sendResp_flash (s : State) (a b c d e : Nat) (p : Bool) : (s.sendResp a b c d e p).flash = s.flash := rfl
@[simp] theorem State.sendResp_mbx (s : State) (a b c d e : Nat) (p : Bool) : (s.sendResp a b c d e p).mbx = s.mbx := rfl
@[simp] theorem State.sendResp_ctxs (s : State) (a b c d e : Nat) (p : Bool) : (s.sendResp a b c d e p).ctxs = s.ctxs := rfl
@[simp] theorem State.sendResp_mem (s : State) (a b c d e : Nat) (p : Bool) : (s.sendResp a b c d e p).mem = s.mem := rfl
@[simp] theorem State.sendResp_clus (s : State) (a b c d e : Nat) (p : Bool) : (s.sendResp a b c d e p).clus = s.clus := rfl
@[simp] theorem State.sendResp_fab (s : State) (a b c d e : Nat) (p : Bool) : (s.sendResp a b c d e p).fab = s.fab := rfl
@[simp] theorem State.sendResp_ports (s : State) (a b c d e : Nat) (p : Bool) : (s.sendResp a b c d e p).ports = s.ports := rfl
@[simp] theorem State.sendResp_recov (s : State) (a b c d e : Nat) (p : Bool) : (s.sendResp a b c d e p).recov = s.recov := rfl
@[simp] theorem State.sendResp_cal (s : State) (a b c d e : Nat) (p : Bool) : (s.sendResp a b c d e p).cal = s.cal := rfl
@[simp] theorem State.sendResp_det (s : State) (a b c d e : Nat) (p : Bool) : (s.sendResp a b c d e p).det = s.det := rfl
@[simp] theorem State.sendResp_gey (s : State) (a b c d e : Nat) (p : Bool) : (s.sendResp a b c d e p).gey = s.gey := rfl
@[simp] theorem State.sendResp_tel (s : State) (a b c d e : Nat) (p : Bool) : (s.sendResp a b c d e p).tel = s.tel := rfl
@[simp] theorem State.sendResp_evr (s : State) (a b c d e : Nat) (p : Bool) : (s.sendResp a b c d e p).evr = s.evr := rfl
@[simp] theorem State.sendResp_pwr (s : State) (a b c d e : Nat) (p : Bool) : (s.sendResp a b c d e p).pwr = s.pwr := rfl
@[simp] theorem State.sendResp_mgmt (s : State) (a b c d e : Nat) (p : Bool) : (s.sendResp a b c d e p).mgmt = s.mgmt := rfl
@[simp] theorem State.sendResp_pins (s : State) (a b c d e : Nat) (p : Bool) : (s.sendResp a b c d e p).pins = s.pins := rfl
@[simp] theorem State.sendResp_evts (s : State) (a b c d e : Nat) (p : Bool) : (s.sendResp a b c d e p).evts = s.evts := rfl
@[simp] theorem State.sendResp_ctrs (s : State) (a b c d e : Nat) (p : Bool) : (s.sendResp a b c d e p).ctrs = s.ctrs := rfl
@[simp] theorem State.sendResp_free (s : State) (a b c d e : Nat) (p : Bool) : (s.sendResp a b c d e p).free = s.free := rfl
@[simp] theorem State.sendResp_pending (s : State) (a b c d e : Nat) (p : Bool) : (s.sendResp a b c d e p).pending = s.pending := rfl

/-! ### writeBytes -/

@[simp] theorem State.writeBytes_time (s : State) (a : Nat) (bs : List Byte) : (s.writeBytes a bs).time = s.time := rfl
@[simp] theorem State.writeBytes_cfg (s : State) (a : Nat) (bs : List Byte) : (s.writeBytes a bs).cfg = s.cfg := rfl
@[simp] theorem State.writeBytes_id (s : State) (a : Nat) (bs : List Byte) : (s.writeBytes a bs).id = s.id := rfl
@[simp] theorem State.writeBytes_flash (s : State) (a : Nat) (bs : List Byte) : (s.writeBytes a bs).flash = s.flash := rfl
@[simp] theorem State.writeBytes_mbx (s : State) (a : Nat) (bs : List Byte) : (s.writeBytes a bs).mbx = s.mbx := rfl
@[simp] theorem State.writeBytes_ctxs (s : State) (a : Nat) (bs : List Byte) : (s.writeBytes a bs).ctxs = s.ctxs := rfl
@[simp] theorem State.writeBytes_clus (s : State) (a : Nat) (bs : List Byte) : (s.writeBytes a bs).clus = s.clus := rfl
@[simp] theorem State.writeBytes_fab (s : State) (a : Nat) (bs : List Byte) : (s.writeBytes a bs).fab = s.fab := rfl
@[simp] theorem State.writeBytes_ports (s : State) (a : Nat) (bs : List Byte) : (s.writeBytes a bs).ports = s.ports := rfl
@[simp] theorem State.writeBytes_recov (s : State) (a : Nat) (bs : List Byte) : (s.writeBytes a bs).recov = s.recov := rfl
@[simp] theorem State.writeBytes_cal (s : State) (a : Nat) (bs : List Byte) : (s.writeBytes a bs).cal = s.cal := rfl
@[simp] theorem State.writeBytes_det (s : State) (a : Nat) (bs : List Byte) : (s.writeBytes a bs).det = s.det := rfl
@[simp] theorem State.writeBytes_gey (s : State) (a : Nat) (bs : List Byte) : (s.writeBytes a bs).gey = s.gey := rfl
@[simp] theorem State.writeBytes_tel (s : State) (a : Nat) (bs : List Byte) : (s.writeBytes a bs).tel = s.tel := rfl
@[simp] theorem State.writeBytes_evr (s : State) (a : Nat) (bs : List Byte) : (s.writeBytes a bs).evr = s.evr := rfl
@[simp] theorem State.writeBytes_pwr (s : State) (a : Nat) (bs : List Byte) : (s.writeBytes a bs).pwr = s.pwr := rfl
@[simp] theorem State.writeBytes_mgmt (s : State) (a : Nat) (bs : List Byte) : (s.writeBytes a bs).mgmt = s.mgmt := rfl
@[simp] theorem State.writeBytes_pins (s : State) (a : Nat) (bs : List Byte) : (s.writeBytes a bs).pins = s.pins := rfl
@[simp] theorem State.writeBytes_evts (s : State) (a : Nat) (bs : List Byte) : (s.writeBytes a bs).evts = s.evts := rfl
@[simp] theorem State.writeBytes_ctrs (s : State) (a : Nat) (bs : List Byte) : (s.writeBytes a bs).ctrs = s.ctrs := rfl
@[simp] theorem State.writeBytes_out (s : State) (a : Nat) (bs : List Byte) : (s.writeBytes a bs).out = s.out := rfl
@[simp] theorem State.writeBytes_free (s : State) (a : Nat) (bs : List Byte) : (s.writeBytes a bs).free = s.free := rfl
@[simp] theorem State.writeBytes_pending (s : State) (a : Nat) (bs : List Byte) : (s.writeBytes a bs).pending = s.pending := rfl

/-! ### clearRange -/

@[simp] theorem State.clearRange_time (s : State) (a n : Nat) : (s.clearRange a n).time = s.time := rfl
@[simp] theorem State.clearRange_cfg (s : State) (a n : Nat) : (s.clearRange a n).cfg = s.cfg := rfl
@[simp] theorem State.clearRange_id (s : State) (a n : Nat) : (s.clearRange a n).id = s.id := rfl
@[simp] theorem State.clearRange_flash (s : State) (a n : Nat) : (s.clearRange a n).flash = s.flash := rfl
@[simp] theorem State.clearRange_mbx (s : State) (a n : Nat) : (s.clearRange a n).mbx = s.mbx := rfl
@[simp] theorem State.clearRange_ctxs (s : State) (a n : Nat) : (s.clearRange a n).ctxs = s.ctxs := rfl
@[simp] theorem State.clearRange_clus (s : State) (a n : Nat) : (s.clearRange a n).clus = s.clus := rfl
@[simp] theorem State.clearRange_fab (s : State) (a n : Nat) : (s.clearRange a n).fab = s.fab := rfl
@[simp] theorem State.clearRange_ports (s : State) (a n : Nat) : (s.clearRange a n).ports = s.ports := rfl
@[simp] theorem State.clearRange_recov (s : State) (a n : Nat) : (s.clearRange a n).recov = s.recov := rfl
@[simp] theorem State.clearRange_cal (s : State) (a n : Nat) : (s.clearRange a n).cal = s.cal := rfl
@[simp] theorem State.clearRange_det (s : State) (a n : Nat) : (s.clearRange a n).det = s.det := rfl
@[simp] theorem State.clearRange_gey (s : State) (a n : Nat) : (s.clearRange a n).gey = s.gey := rfl
@[simp] theorem State.clearRange_tel (s : State) (a n : Nat) : (s.clearRange a n).tel = s.tel := rfl
@[simp] theorem State.clearRange_evr (s : State) (a n : Nat) : (s.clearRange a n).evr = s.evr := rfl
@[simp] theorem State.clearRange_pwr (s : State) (a n : Nat) : (s.clearRange a n).pwr = s.pwr := rfl
@[simp] theorem State.clearRange_mgmt (s : State) (a n : Nat) : (s.clearRange a n).mgmt = s.mgmt := rfl
@[simp] theorem State.clearRange_pins (s : State) (a n : Nat) : (s.clearRange a n).pins = s.pins := rfl
@[simp] theorem State.clearRange_evts (s : State) (a n : Nat) : (s.clearRange a n).evts = s.evts := rfl
@[simp] theorem State.clearRange_ctrs (s : State) (a n : Nat) : (s.clearRange a n).ctrs = s.ctrs := rfl
@[simp] theorem State.clearRange_out (s : State) (a n : Nat) : (s.clearRange a n).out = s.out := rfl
@[simp] theorem State.clearRange_free (s : State) (a n : Nat) : (s.clearRange a n).free = s.free := rfl
@[simp] theorem State.clearRange_pending (s : State) (a n : Nat) : (s.clearRange a n).pending = s.pending := rfl

/-! ### withLog -/

@[simp] theorem State.withLog_time (s : State) (l : Log) : (s.withLog l).time = s.time := rfl
@[simp] theorem State.withLog_cfg (s : State) (l : Log) : (s.withLog l).cfg = s.cfg := rfl
@[simp] theorem State.withLog_id (s : State) (l : Log) : (s.withLog l).id = s.id := rfl
@[simp] theorem State.withLog_mbx (s : State) (l : Log) : (s.withLog l).mbx = s.mbx := rfl
@[simp] theorem State.withLog_ctxs (s : State) (l : Log) : (s.withLog l).ctxs = s.ctxs := rfl
@[simp] theorem State.withLog_mem (s : State) (l : Log) : (s.withLog l).mem = s.mem := rfl
@[simp] theorem State.withLog_clus (s : State) (l : Log) : (s.withLog l).clus = s.clus := rfl
@[simp] theorem State.withLog_fab (s : State) (l : Log) : (s.withLog l).fab = s.fab := rfl
@[simp] theorem State.withLog_ports (s : State) (l : Log) : (s.withLog l).ports = s.ports := rfl
@[simp] theorem State.withLog_recov (s : State) (l : Log) : (s.withLog l).recov = s.recov := rfl
@[simp] theorem State.withLog_cal (s : State) (l : Log) : (s.withLog l).cal = s.cal := rfl
@[simp] theorem State.withLog_det (s : State) (l : Log) : (s.withLog l).det = s.det := rfl
@[simp] theorem State.withLog_gey (s : State) (l : Log) : (s.withLog l).gey = s.gey := rfl
@[simp] theorem State.withLog_tel (s : State) (l : Log) : (s.withLog l).tel = s.tel := rfl
@[simp] theorem State.withLog_pwr (s : State) (l : Log) : (s.withLog l).pwr = s.pwr := rfl
@[simp] theorem State.withLog_mgmt (s : State) (l : Log) : (s.withLog l).mgmt = s.mgmt := rfl
@[simp] theorem State.withLog_pins (s : State) (l : Log) : (s.withLog l).pins = s.pins := rfl
@[simp] theorem State.withLog_out (s : State) (l : Log) : (s.withLog l).out = s.out := rfl
@[simp] theorem State.withLog_free (s : State) (l : Log) : (s.withLog l).free = s.free := rfl
@[simp] theorem State.withLog_pending (s : State) (l : Log) : (s.withLog l).pending = s.pending := rfl

/-! ### record -/

@[simp] theorem State.record_time (s : State) (v : Event) : (s.record v).time = s.time := rfl
@[simp] theorem State.record_cfg (s : State) (v : Event) : (s.record v).cfg = s.cfg := rfl
@[simp] theorem State.record_id (s : State) (v : Event) : (s.record v).id = s.id := rfl
@[simp] theorem State.record_mbx (s : State) (v : Event) : (s.record v).mbx = s.mbx := rfl
@[simp] theorem State.record_ctxs (s : State) (v : Event) : (s.record v).ctxs = s.ctxs := rfl
@[simp] theorem State.record_mem (s : State) (v : Event) : (s.record v).mem = s.mem := rfl
@[simp] theorem State.record_clus (s : State) (v : Event) : (s.record v).clus = s.clus := rfl
@[simp] theorem State.record_fab (s : State) (v : Event) : (s.record v).fab = s.fab := rfl
@[simp] theorem State.record_ports (s : State) (v : Event) : (s.record v).ports = s.ports := rfl
@[simp] theorem State.record_recov (s : State) (v : Event) : (s.record v).recov = s.recov := rfl
@[simp] theorem State.record_cal (s : State) (v : Event) : (s.record v).cal = s.cal := rfl
@[simp] theorem State.record_det (s : State) (v : Event) : (s.record v).det = s.det := rfl
@[simp] theorem State.record_gey (s : State) (v : Event) : (s.record v).gey = s.gey := rfl
@[simp] theorem State.record_tel (s : State) (v : Event) : (s.record v).tel = s.tel := rfl
@[simp] theorem State.record_pwr (s : State) (v : Event) : (s.record v).pwr = s.pwr := rfl
@[simp] theorem State.record_mgmt (s : State) (v : Event) : (s.record v).mgmt = s.mgmt := rfl
@[simp] theorem State.record_pins (s : State) (v : Event) : (s.record v).pins = s.pins := rfl
@[simp] theorem State.record_out (s : State) (v : Event) : (s.record v).out = s.out := rfl
@[simp] theorem State.record_free (s : State) (v : Event) : (s.record v).free = s.free := rfl
@[simp] theorem State.record_pending (s : State) (v : Event) : (s.record v).pending = s.pending := rfl

/-! ### vendor -/

@[simp] theorem State.vendor_time (s : State) (r : Req) (c k : Nat) (p : List Byte) : (s.vendor r c k p).time = s.time := rfl
@[simp] theorem State.vendor_cfg (s : State) (r : Req) (c k : Nat) (p : List Byte) : (s.vendor r c k p).cfg = s.cfg := rfl
@[simp] theorem State.vendor_id (s : State) (r : Req) (c k : Nat) (p : List Byte) : (s.vendor r c k p).id = s.id := rfl
@[simp] theorem State.vendor_flash (s : State) (r : Req) (c k : Nat) (p : List Byte) : (s.vendor r c k p).flash = s.flash := rfl
@[simp] theorem State.vendor_mbx (s : State) (r : Req) (c k : Nat) (p : List Byte) : (s.vendor r c k p).mbx = s.mbx := rfl
@[simp] theorem State.vendor_ctxs (s : State) (r : Req) (c k : Nat) (p : List Byte) : (s.vendor r c k p).ctxs = s.ctxs := rfl
@[simp] theorem State.vendor_mem (s : State) (r : Req) (c k : Nat) (p : List Byte) : (s.vendor r c k p).mem = s.mem := rfl
@[simp] theorem State.vendor_clus (s : State) (r : Req) (c k : Nat) (p : List Byte) : (s.vendor r c k p).clus = s.clus := rfl
@[simp] theorem State.vendor_fab (s : State) (r : Req) (c k : Nat) (p : List Byte) : (s.vendor r c k p).fab = s.fab := rfl
@[simp] theorem State.vendor_ports (s : State) (r : Req) (c k : Nat) (p : List Byte) : (s.vendor r c k p).ports = s.ports := rfl
@[simp] theorem State.vendor_recov (s : State) (r : Req) (c k : Nat) (p : List Byte) : (s.vendor r c k p).recov = s.recov := rfl
@[simp] theorem State.vendor_cal (s : State) (r : Req) (c k : Nat) (p : List Byte) : (s.vendor r c k p).cal = s.cal := rfl
@[simp] theorem State.vendor_det (s : State) (r : Req) (c k : Nat) (p : List Byte) : (s.vendor r c k p).det = s.det := rfl
@[simp] theorem State.vendor_gey (s : State) (r : Req) (c k : Nat) (p : List Byte) : (s.vendor r c k p).gey = s.gey := rfl
@[simp] theorem State.vendor_tel (s : State) (r : Req) (c k : Nat) (p : List Byte) : (s.vendor r c k p).tel = s.tel := rfl
@[simp] theorem State.vendor_evr (s : State) (r : Req) (c k : Nat) (p : List Byte) : (s.vendor r c k p).evr = s.evr := rfl
@[simp] theorem State.vendor_pwr (s : State) (r : Req) (c k : Nat) (p : List Byte) : (s.vendor r c k p).pwr = s.pwr := rfl
@[simp] theorem State.vendor_mgmt (s : State) (r : Req) (c k : Nat) (p : List Byte) : (s.vendor r c k p).mgmt = s.mgmt := rfl
@[simp] theorem State.vendor_pins (s : State) (r : Req) (c k : Nat) (p : List Byte) : (s.vendor r c k p).pins = s.pins := rfl
@[simp] theorem State.vendor_evts (s : State) (r : Req) (c k : Nat) (p : List Byte) : (s.vendor r c k p).evts = s.evts := rfl
@[simp] theorem State.vendor_ctrs (s : State) (r : Req) (c k : Nat) (p : List Byte) : (s.vendor r c k p).ctrs = s.ctrs := rfl
@[simp] theorem State.vendor_free (s : State) (r : Req) (c k : Nat) (p : List Byte) : (s.vendor r c k p).free = s.free := rfl
@[simp] theorem State.vendor_pending (s : State) (r : Req) (c k : Nat) (p : List Byte) : (s.vendor r c k p).pending = s.pending := rfl

/-! ### w1c -/

@[simp] theorem State.w1c_time (s : State) (r : Reg) (i m : Nat) : (s.w1c r i m).time = s.time := rfl
@[simp] theorem State.w1c_cfg (s : State) (r : Reg) (i m : Nat) : (s.w1c r i m).cfg = s.cfg := rfl
@[simp] theorem State.w1c_id (s : State) (r : Reg) (i m : Nat) : (s.w1c r i m).id = s.id := rfl
@[simp] theorem State.w1c_flash (s : State) (r : Reg) (i m : Nat) : (s.w1c r i m).flash = s.flash := rfl
@[simp] theorem State.w1c_mbx (s : State) (r : Reg) (i m : Nat) : (s.w1c r i m).mbx = s.mbx := rfl
@[simp] theorem State.w1c_ctxs (s : State) (r : Reg) (i m : Nat) : (s.w1c r i m).ctxs = s.ctxs := rfl
@[simp] theorem State.w1c_mem (s : State) (r : Reg) (i m : Nat) : (s.w1c r i m).mem = s.mem := rfl
@[simp] theorem State.w1c_clus (s : State) (r : Reg) (i m : Nat) : (s.w1c r i m).clus = s.clus := rfl
@[simp] theorem State.w1c_fab (s : State) (r : Reg) (i m : Nat) : (s.w1c r i m).fab = s.fab := rfl
@[simp] theorem State.w1c_ports (s : State) (r : Reg) (i m : Nat) : (s.w1c r i m).ports = s.ports := rfl
@[simp] theorem State.w1c_recov (s : State) (r : Reg) (i m : Nat) : (s.w1c r i m).recov = s.recov := rfl
@[simp] theorem State.w1c_cal (s : State) (r : Reg) (i m : Nat) : (s.w1c r i m).cal = s.cal := rfl
@[simp] theorem State.w1c_det (s : State) (r : Reg) (i m : Nat) : (s.w1c r i m).det = s.det := rfl
@[simp] theorem State.w1c_gey (s : State) (r : Reg) (i m : Nat) : (s.w1c r i m).gey = s.gey := rfl
@[simp] theorem State.w1c_tel (s : State) (r : Reg) (i m : Nat) : (s.w1c r i m).tel = s.tel := rfl
@[simp] theorem State.w1c_evr (s : State) (r : Reg) (i m : Nat) : (s.w1c r i m).evr = s.evr := rfl
@[simp] theorem State.w1c_pwr (s : State) (r : Reg) (i m : Nat) : (s.w1c r i m).pwr = s.pwr := rfl
@[simp] theorem State.w1c_mgmt (s : State) (r : Reg) (i m : Nat) : (s.w1c r i m).mgmt = s.mgmt := rfl
@[simp] theorem State.w1c_pins (s : State) (r : Reg) (i m : Nat) : (s.w1c r i m).pins = s.pins := rfl
@[simp] theorem State.w1c_ctrs (s : State) (r : Reg) (i m : Nat) : (s.w1c r i m).ctrs = s.ctrs := rfl
@[simp] theorem State.w1c_out (s : State) (r : Reg) (i m : Nat) : (s.w1c r i m).out = s.out := rfl
@[simp] theorem State.w1c_free (s : State) (r : Reg) (i m : Nat) : (s.w1c r i m).free = s.free := rfl
@[simp] theorem State.w1c_pending (s : State) (r : Reg) (i m : Nat) : (s.w1c r i m).pending = s.pending := rfl

end Sys2Proof.Machine
end

