-- ==== Sys2Proof/Laws/Reads.lean ====
section
/-!
SUPPORT. What an update leaves of each read it does not touch: one lemma per update and read.
-/
namespace Sys2Proof.Machine

/-! ### ctx -/

@[simp] theorem State.ctx_of_updPort (s : State) (i : Nat) (f : Port → Port) (y_ : Nat) : (s.updPort i f).ctx y_ = s.ctx y_ := rfl
@[simp] theorem State.ctx_of_updCluster (s : State) (g : Nat) (f : Cluster → Cluster) (y_ : Nat) : (s.updCluster g f).ctx y_ = s.ctx y_ := rfl
@[simp] theorem State.ctx_of_updMbx (s : State) (f : Mbx → Mbx) (y_ : Nat) : (s.updMbx f).ctx y_ = s.ctx y_ := rfl
@[simp] theorem State.ctx_of_updRing (s : State) (n : Nat) (f : Ring → Ring) (y_ : Nat) : (s.updRing n f).ctx y_ = s.ctx y_ := rfl
@[simp] theorem State.ctx_of_updFab (s : State) (f : Fab → Fab) (y_ : Nat) : (s.updFab f).ctx y_ = s.ctx y_ := rfl
@[simp] theorem State.ctx_of_updTime (s : State) (f : Time → Time) (y_ : Nat) : (s.updTime f).ctx y_ = s.ctx y_ := rfl
@[simp] theorem State.ctx_of_updRecov (s : State) (f : Recov → Recov) (y_ : Nat) : (s.updRecov f).ctx y_ = s.ctx y_ := rfl
@[simp] theorem State.ctx_of_updCal (s : State) (f : Cal → Cal) (y_ : Nat) : (s.updCal f).ctx y_ = s.ctx y_ := rfl
@[simp] theorem State.ctx_of_updDet (s : State) (f : Det → Det) (y_ : Nat) : (s.updDet f).ctx y_ = s.ctx y_ := rfl
@[simp] theorem State.ctx_of_updTel (s : State) (f : Tel → Tel) (y_ : Nat) : (s.updTel f).ctx y_ = s.ctx y_ := rfl
@[simp] theorem State.ctx_of_updEvr (s : State) (f : Evr → Evr) (y_ : Nat) : (s.updEvr f).ctx y_ = s.ctx y_ := rfl
@[simp] theorem State.ctx_of_updId (s : State) (f : Ident → Ident) (y_ : Nat) : (s.updId f).ctx y_ = s.ctx y_ := rfl
@[simp] theorem State.ctx_of_updFlash (s : State) (f : Flash → Flash) (y_ : Nat) : (s.updFlash f).ctx y_ = s.ctx y_ := rfl
@[simp] theorem State.ctx_of_updMem (s : State) (f : Mem → Mem) (y_ : Nat) : (s.updMem f).ctx y_ = s.ctx y_ := rfl
@[simp] theorem State.ctx_of_updGeyser (s : State) (f : Gey → Gey) (y_ : Nat) : (s.updGeyser f).ctx y_ = s.ctx y_ := rfl
@[simp] theorem State.ctx_of_setCfg (s : State) (c : Cfg) (y_ : Nat) : (s.setCfg c).ctx y_ = s.ctx y_ := rfl
@[simp] theorem State.ctx_of_updPorts (s : State) (f : KMap Port → KMap Port) (y_ : Nat) : (s.updPorts f).ctx y_ = s.ctx y_ := rfl
@[simp] theorem State.ctx_of_updClus (s : State) (f : KMap Cluster → KMap Cluster) (y_ : Nat) : (s.updClus f).ctx y_ = s.ctx y_ := rfl
@[simp] theorem State.ctx_of_updEvts (s : State) (f : KMap Nat → KMap Nat) (y_ : Nat) : (s.updEvts f).ctx y_ = s.ctx y_ := rfl
@[simp] theorem State.ctx_of_spend (s : State) (n : Nat) (y_ : Nat) : (s.spend n).ctx y_ = s.ctx y_ := rfl
@[simp] theorem State.ctx_of_updPins (s : State) (f : Pins → Pins) (y_ : Nat) : (s.updPins f).ctx y_ = s.ctx y_ := rfl
@[simp] theorem State.ctx_of_updMgmt (s : State) (f : Mgmt → Mgmt) (y_ : Nat) : (s.updMgmt f).ctx y_ = s.ctx y_ := rfl
@[simp] theorem State.ctx_of_updPwr (s : State) (f : Pwr → Pwr) (y_ : Nat) : (s.updPwr f).ctx y_ = s.ctx y_ := rfl
@[simp] theorem State.ctx_of_updPwrCtx (s : State) (x : Nat) (f : PwrCtx → PwrCtx) (y_ : Nat) : (s.updPwrCtx x f).ctx y_ = s.ctx y_ := rfl
@[simp] theorem State.ctx_of_updStage (s : State) (i : Nat) (f : Stage → Stage) (y_ : Nat) : (s.updStage i f).ctx y_ = s.ctx y_ := rfl
@[simp] theorem State.ctx_of_setDom (s : State) (i : Nat) (d : DomSt) (y_ : Nat) : (s.setDom i d).ctx y_ = s.ctx y_ := rfl
@[simp] theorem State.ctx_of_updPtp (s : State) (i : Nat) (f : PtpPort → PtpPort) (y_ : Nat) : (s.updPtp i f).ctx y_ = s.ctx y_ := rfl
@[simp] theorem State.ctx_of_bump (s : State) (c : Ctr) (i n : Nat) (y_ : Nat) : (s.bump c i n).ctx y_ = s.ctx y_ := rfl
@[simp] theorem State.ctx_of_emit (s : State) (e : Emit) (y_ : Nat) : (s.emit e).ctx y_ = s.ctx y_ := rfl
@[simp] theorem State.ctx_of_sendCtrl (s : State) (a b c d e : Nat) (p : List Byte) (y_ : Nat) : (s.sendCtrl a b c d e p).ctx y_ = s.ctx y_ := rfl
@[simp] theorem State.ctx_of_sendResp (s : State) (a b c d e : Nat) (p : Bool) (y_ : Nat) : (s.sendResp a b c d e p).ctx y_ = s.ctx y_ := rfl
@[simp] theorem State.ctx_of_writeBytes (s : State) (a : Nat) (bs : List Byte) (y_ : Nat) : (s.writeBytes a bs).ctx y_ = s.ctx y_ := rfl
@[simp] theorem State.ctx_of_clearRange (s : State) (a n : Nat) (y_ : Nat) : (s.clearRange a n).ctx y_ = s.ctx y_ := rfl
@[simp] theorem State.ctx_of_withLog (s : State) (l : Log) (y_ : Nat) : (s.withLog l).ctx y_ = s.ctx y_ := rfl
@[simp] theorem State.ctx_of_record (s : State) (v : Event) (y_ : Nat) : (s.record v).ctx y_ = s.ctx y_ := rfl
@[simp] theorem State.ctx_of_vendor (s : State) (r : Req) (c k : Nat) (p : List Byte) (y_ : Nat) : (s.vendor r c k p).ctx y_ = s.ctx y_ := rfl
@[simp] theorem State.ctx_of_w1c (s : State) (r : Reg) (i m : Nat) (y_ : Nat) : (s.w1c r i m).ctx y_ = s.ctx y_ := rfl

/-! ### port -/

@[simp] theorem State.port_of_setCtx (s : State) (x : Nat) (c : Ctx) (y_ : Nat) : (s.setCtx x c).port y_ = s.port y_ := rfl
@[simp] theorem State.port_of_updCtx (s : State) (x : Nat) (f : Ctx → Ctx) (y_ : Nat) : (s.updCtx x f).port y_ = s.port y_ := rfl
@[simp] theorem State.port_of_updCoord (s : State) (x : Nat) (f : Coord → Coord) (y_ : Nat) : (s.updCoord x f).port y_ = s.port y_ := rfl
@[simp] theorem State.port_of_updGey (s : State) (x : Nat) (f : GeyCtx → GeyCtx) (y_ : Nat) : (s.updGey x f).port y_ = s.port y_ := rfl
@[simp] theorem State.port_of_updExec (s : State) (x : Nat) (f : Exec → Exec) (y_ : Nat) : (s.updExec x f).port y_ = s.port y_ := rfl
@[simp] theorem State.port_of_updCluster (s : State) (g : Nat) (f : Cluster → Cluster) (y_ : Nat) : (s.updCluster g f).port y_ = s.port y_ := rfl
@[simp] theorem State.port_of_updMbx (s : State) (f : Mbx → Mbx) (y_ : Nat) : (s.updMbx f).port y_ = s.port y_ := rfl
@[simp] theorem State.port_of_updRing (s : State) (n : Nat) (f : Ring → Ring) (y_ : Nat) : (s.updRing n f).port y_ = s.port y_ := rfl
@[simp] theorem State.port_of_updFab (s : State) (f : Fab → Fab) (y_ : Nat) : (s.updFab f).port y_ = s.port y_ := rfl
@[simp] theorem State.port_of_updTime (s : State) (f : Time → Time) (y_ : Nat) : (s.updTime f).port y_ = s.port y_ := rfl
@[simp] theorem State.port_of_updRecov (s : State) (f : Recov → Recov) (y_ : Nat) : (s.updRecov f).port y_ = s.port y_ := rfl
@[simp] theorem State.port_of_updCal (s : State) (f : Cal → Cal) (y_ : Nat) : (s.updCal f).port y_ = s.port y_ := rfl
@[simp] theorem State.port_of_updDet (s : State) (f : Det → Det) (y_ : Nat) : (s.updDet f).port y_ = s.port y_ := rfl
@[simp] theorem State.port_of_updTel (s : State) (f : Tel → Tel) (y_ : Nat) : (s.updTel f).port y_ = s.port y_ := rfl
@[simp] theorem State.port_of_updEvr (s : State) (f : Evr → Evr) (y_ : Nat) : (s.updEvr f).port y_ = s.port y_ := rfl
@[simp] theorem State.port_of_updId (s : State) (f : Ident → Ident) (y_ : Nat) : (s.updId f).port y_ = s.port y_ := rfl
@[simp] theorem State.port_of_updFlash (s : State) (f : Flash → Flash) (y_ : Nat) : (s.updFlash f).port y_ = s.port y_ := rfl
@[simp] theorem State.port_of_updMem (s : State) (f : Mem → Mem) (y_ : Nat) : (s.updMem f).port y_ = s.port y_ := rfl
@[simp] theorem State.port_of_updGeyser (s : State) (f : Gey → Gey) (y_ : Nat) : (s.updGeyser f).port y_ = s.port y_ := rfl
@[simp] theorem State.port_of_setCfg (s : State) (c : Cfg) (y_ : Nat) : (s.setCfg c).port y_ = s.port y_ := rfl
@[simp] theorem State.port_of_updClus (s : State) (f : KMap Cluster → KMap Cluster) (y_ : Nat) : (s.updClus f).port y_ = s.port y_ := rfl
@[simp] theorem State.port_of_updEvts (s : State) (f : KMap Nat → KMap Nat) (y_ : Nat) : (s.updEvts f).port y_ = s.port y_ := rfl
@[simp] theorem State.port_of_spend (s : State) (n : Nat) (y_ : Nat) : (s.spend n).port y_ = s.port y_ := rfl
@[simp] theorem State.port_of_updPins (s : State) (f : Pins → Pins) (y_ : Nat) : (s.updPins f).port y_ = s.port y_ := rfl
@[simp] theorem State.port_of_updMgmt (s : State) (f : Mgmt → Mgmt) (y_ : Nat) : (s.updMgmt f).port y_ = s.port y_ := rfl
@[simp] theorem State.port_of_updPwr (s : State) (f : Pwr → Pwr) (y_ : Nat) : (s.updPwr f).port y_ = s.port y_ := rfl
@[simp] theorem State.port_of_updPwrCtx (s : State) (x : Nat) (f : PwrCtx → PwrCtx) (y_ : Nat) : (s.updPwrCtx x f).port y_ = s.port y_ := rfl
@[simp] theorem State.port_of_updStage (s : State) (i : Nat) (f : Stage → Stage) (y_ : Nat) : (s.updStage i f).port y_ = s.port y_ := rfl
@[simp] theorem State.port_of_setDom (s : State) (i : Nat) (d : DomSt) (y_ : Nat) : (s.setDom i d).port y_ = s.port y_ := rfl
@[simp] theorem State.port_of_updPtp (s : State) (i : Nat) (f : PtpPort → PtpPort) (y_ : Nat) : (s.updPtp i f).port y_ = s.port y_ := rfl
@[simp] theorem State.port_of_bump (s : State) (c : Ctr) (i n : Nat) (y_ : Nat) : (s.bump c i n).port y_ = s.port y_ := rfl
@[simp] theorem State.port_of_emit (s : State) (e : Emit) (y_ : Nat) : (s.emit e).port y_ = s.port y_ := rfl
@[simp] theorem State.port_of_sendCtrl (s : State) (a b c d e : Nat) (p : List Byte) (y_ : Nat) : (s.sendCtrl a b c d e p).port y_ = s.port y_ := rfl
@[simp] theorem State.port_of_sendResp (s : State) (a b c d e : Nat) (p : Bool) (y_ : Nat) : (s.sendResp a b c d e p).port y_ = s.port y_ := rfl
@[simp] theorem State.port_of_writeBytes (s : State) (a : Nat) (bs : List Byte) (y_ : Nat) : (s.writeBytes a bs).port y_ = s.port y_ := rfl
@[simp] theorem State.port_of_clearRange (s : State) (a n : Nat) (y_ : Nat) : (s.clearRange a n).port y_ = s.port y_ := rfl
@[simp] theorem State.port_of_withLog (s : State) (l : Log) (y_ : Nat) : (s.withLog l).port y_ = s.port y_ := rfl
@[simp] theorem State.port_of_record (s : State) (v : Event) (y_ : Nat) : (s.record v).port y_ = s.port y_ := rfl
@[simp] theorem State.port_of_vendor (s : State) (r : Req) (c k : Nat) (p : List Byte) (y_ : Nat) : (s.vendor r c k p).port y_ = s.port y_ := rfl
@[simp] theorem State.port_of_w1c (s : State) (r : Reg) (i m : Nat) (y_ : Nat) : (s.w1c r i m).port y_ = s.port y_ := rfl

/-! ### cluster -/

@[simp] theorem State.cluster_of_setCtx (s : State) (x : Nat) (c : Ctx) (y_ : Nat) : (s.setCtx x c).cluster y_ = s.cluster y_ := rfl
@[simp] theorem State.cluster_of_updCtx (s : State) (x : Nat) (f : Ctx → Ctx) (y_ : Nat) : (s.updCtx x f).cluster y_ = s.cluster y_ := rfl
@[simp] theorem State.cluster_of_updCoord (s : State) (x : Nat) (f : Coord → Coord) (y_ : Nat) : (s.updCoord x f).cluster y_ = s.cluster y_ := rfl
@[simp] theorem State.cluster_of_updGey (s : State) (x : Nat) (f : GeyCtx → GeyCtx) (y_ : Nat) : (s.updGey x f).cluster y_ = s.cluster y_ := rfl
@[simp] theorem State.cluster_of_updExec (s : State) (x : Nat) (f : Exec → Exec) (y_ : Nat) : (s.updExec x f).cluster y_ = s.cluster y_ := rfl
@[simp] theorem State.cluster_of_updPort (s : State) (i : Nat) (f : Port → Port) (y_ : Nat) : (s.updPort i f).cluster y_ = s.cluster y_ := rfl
@[simp] theorem State.cluster_of_updMbx (s : State) (f : Mbx → Mbx) (y_ : Nat) : (s.updMbx f).cluster y_ = s.cluster y_ := rfl
@[simp] theorem State.cluster_of_updRing (s : State) (n : Nat) (f : Ring → Ring) (y_ : Nat) : (s.updRing n f).cluster y_ = s.cluster y_ := rfl
@[simp] theorem State.cluster_of_updFab (s : State) (f : Fab → Fab) (y_ : Nat) : (s.updFab f).cluster y_ = s.cluster y_ := rfl
@[simp] theorem State.cluster_of_updTime (s : State) (f : Time → Time) (y_ : Nat) : (s.updTime f).cluster y_ = s.cluster y_ := rfl
@[simp] theorem State.cluster_of_updRecov (s : State) (f : Recov → Recov) (y_ : Nat) : (s.updRecov f).cluster y_ = s.cluster y_ := rfl
@[simp] theorem State.cluster_of_updCal (s : State) (f : Cal → Cal) (y_ : Nat) : (s.updCal f).cluster y_ = s.cluster y_ := rfl
@[simp] theorem State.cluster_of_updDet (s : State) (f : Det → Det) (y_ : Nat) : (s.updDet f).cluster y_ = s.cluster y_ := rfl
@[simp] theorem State.cluster_of_updTel (s : State) (f : Tel → Tel) (y_ : Nat) : (s.updTel f).cluster y_ = s.cluster y_ := rfl
@[simp] theorem State.cluster_of_updEvr (s : State) (f : Evr → Evr) (y_ : Nat) : (s.updEvr f).cluster y_ = s.cluster y_ := rfl
@[simp] theorem State.cluster_of_updId (s : State) (f : Ident → Ident) (y_ : Nat) : (s.updId f).cluster y_ = s.cluster y_ := rfl
@[simp] theorem State.cluster_of_updFlash (s : State) (f : Flash → Flash) (y_ : Nat) : (s.updFlash f).cluster y_ = s.cluster y_ := rfl
@[simp] theorem State.cluster_of_updMem (s : State) (f : Mem → Mem) (y_ : Nat) : (s.updMem f).cluster y_ = s.cluster y_ := rfl
@[simp] theorem State.cluster_of_updGeyser (s : State) (f : Gey → Gey) (y_ : Nat) : (s.updGeyser f).cluster y_ = s.cluster y_ := rfl
@[simp] theorem State.cluster_of_setCfg (s : State) (c : Cfg) (y_ : Nat) : (s.setCfg c).cluster y_ = s.cluster y_ := rfl
@[simp] theorem State.cluster_of_updPorts (s : State) (f : KMap Port → KMap Port) (y_ : Nat) : (s.updPorts f).cluster y_ = s.cluster y_ := rfl
@[simp] theorem State.cluster_of_updEvts (s : State) (f : KMap Nat → KMap Nat) (y_ : Nat) : (s.updEvts f).cluster y_ = s.cluster y_ := rfl
@[simp] theorem State.cluster_of_spend (s : State) (n : Nat) (y_ : Nat) : (s.spend n).cluster y_ = s.cluster y_ := rfl
@[simp] theorem State.cluster_of_updPins (s : State) (f : Pins → Pins) (y_ : Nat) : (s.updPins f).cluster y_ = s.cluster y_ := rfl
@[simp] theorem State.cluster_of_updMgmt (s : State) (f : Mgmt → Mgmt) (y_ : Nat) : (s.updMgmt f).cluster y_ = s.cluster y_ := rfl
@[simp] theorem State.cluster_of_updPwr (s : State) (f : Pwr → Pwr) (y_ : Nat) : (s.updPwr f).cluster y_ = s.cluster y_ := rfl
@[simp] theorem State.cluster_of_updPwrCtx (s : State) (x : Nat) (f : PwrCtx → PwrCtx) (y_ : Nat) : (s.updPwrCtx x f).cluster y_ = s.cluster y_ := rfl
@[simp] theorem State.cluster_of_updStage (s : State) (i : Nat) (f : Stage → Stage) (y_ : Nat) : (s.updStage i f).cluster y_ = s.cluster y_ := rfl
@[simp] theorem State.cluster_of_setDom (s : State) (i : Nat) (d : DomSt) (y_ : Nat) : (s.setDom i d).cluster y_ = s.cluster y_ := rfl
@[simp] theorem State.cluster_of_updPtp (s : State) (i : Nat) (f : PtpPort → PtpPort) (y_ : Nat) : (s.updPtp i f).cluster y_ = s.cluster y_ := rfl
@[simp] theorem State.cluster_of_bump (s : State) (c : Ctr) (i n : Nat) (y_ : Nat) : (s.bump c i n).cluster y_ = s.cluster y_ := rfl
@[simp] theorem State.cluster_of_emit (s : State) (e : Emit) (y_ : Nat) : (s.emit e).cluster y_ = s.cluster y_ := rfl
@[simp] theorem State.cluster_of_sendCtrl (s : State) (a b c d e : Nat) (p : List Byte) (y_ : Nat) : (s.sendCtrl a b c d e p).cluster y_ = s.cluster y_ := rfl
@[simp] theorem State.cluster_of_sendResp (s : State) (a b c d e : Nat) (p : Bool) (y_ : Nat) : (s.sendResp a b c d e p).cluster y_ = s.cluster y_ := rfl
@[simp] theorem State.cluster_of_writeBytes (s : State) (a : Nat) (bs : List Byte) (y_ : Nat) : (s.writeBytes a bs).cluster y_ = s.cluster y_ := rfl
@[simp] theorem State.cluster_of_clearRange (s : State) (a n : Nat) (y_ : Nat) : (s.clearRange a n).cluster y_ = s.cluster y_ := rfl
@[simp] theorem State.cluster_of_withLog (s : State) (l : Log) (y_ : Nat) : (s.withLog l).cluster y_ = s.cluster y_ := rfl
@[simp] theorem State.cluster_of_record (s : State) (v : Event) (y_ : Nat) : (s.record v).cluster y_ = s.cluster y_ := rfl
@[simp] theorem State.cluster_of_vendor (s : State) (r : Req) (c k : Nat) (p : List Byte) (y_ : Nat) : (s.vendor r c k p).cluster y_ = s.cluster y_ := rfl
@[simp] theorem State.cluster_of_w1c (s : State) (r : Reg) (i m : Nat) (y_ : Nat) : (s.w1c r i m).cluster y_ = s.cluster y_ := rfl

/-! ### ring -/

@[simp] theorem State.ring_of_setCtx (s : State) (x : Nat) (c : Ctx) (y_ : Nat) : (s.setCtx x c).ring y_ = s.ring y_ := rfl
@[simp] theorem State.ring_of_updCtx (s : State) (x : Nat) (f : Ctx → Ctx) (y_ : Nat) : (s.updCtx x f).ring y_ = s.ring y_ := rfl
@[simp] theorem State.ring_of_updCoord (s : State) (x : Nat) (f : Coord → Coord) (y_ : Nat) : (s.updCoord x f).ring y_ = s.ring y_ := rfl
@[simp] theorem State.ring_of_updGey (s : State) (x : Nat) (f : GeyCtx → GeyCtx) (y_ : Nat) : (s.updGey x f).ring y_ = s.ring y_ := rfl
@[simp] theorem State.ring_of_updExec (s : State) (x : Nat) (f : Exec → Exec) (y_ : Nat) : (s.updExec x f).ring y_ = s.ring y_ := rfl
@[simp] theorem State.ring_of_updPort (s : State) (i : Nat) (f : Port → Port) (y_ : Nat) : (s.updPort i f).ring y_ = s.ring y_ := rfl
@[simp] theorem State.ring_of_updCluster (s : State) (g : Nat) (f : Cluster → Cluster) (y_ : Nat) : (s.updCluster g f).ring y_ = s.ring y_ := rfl
@[simp] theorem State.ring_of_updFab (s : State) (f : Fab → Fab) (y_ : Nat) : (s.updFab f).ring y_ = s.ring y_ := rfl
@[simp] theorem State.ring_of_updTime (s : State) (f : Time → Time) (y_ : Nat) : (s.updTime f).ring y_ = s.ring y_ := rfl
@[simp] theorem State.ring_of_updRecov (s : State) (f : Recov → Recov) (y_ : Nat) : (s.updRecov f).ring y_ = s.ring y_ := rfl
@[simp] theorem State.ring_of_updCal (s : State) (f : Cal → Cal) (y_ : Nat) : (s.updCal f).ring y_ = s.ring y_ := rfl
@[simp] theorem State.ring_of_updDet (s : State) (f : Det → Det) (y_ : Nat) : (s.updDet f).ring y_ = s.ring y_ := rfl
@[simp] theorem State.ring_of_updTel (s : State) (f : Tel → Tel) (y_ : Nat) : (s.updTel f).ring y_ = s.ring y_ := rfl
@[simp] theorem State.ring_of_updEvr (s : State) (f : Evr → Evr) (y_ : Nat) : (s.updEvr f).ring y_ = s.ring y_ := rfl
@[simp] theorem State.ring_of_updId (s : State) (f : Ident → Ident) (y_ : Nat) : (s.updId f).ring y_ = s.ring y_ := rfl
@[simp] theorem State.ring_of_updFlash (s : State) (f : Flash → Flash) (y_ : Nat) : (s.updFlash f).ring y_ = s.ring y_ := rfl
@[simp] theorem State.ring_of_updMem (s : State) (f : Mem → Mem) (y_ : Nat) : (s.updMem f).ring y_ = s.ring y_ := rfl
@[simp] theorem State.ring_of_updGeyser (s : State) (f : Gey → Gey) (y_ : Nat) : (s.updGeyser f).ring y_ = s.ring y_ := rfl
@[simp] theorem State.ring_of_setCfg (s : State) (c : Cfg) (y_ : Nat) : (s.setCfg c).ring y_ = s.ring y_ := rfl
@[simp] theorem State.ring_of_updPorts (s : State) (f : KMap Port → KMap Port) (y_ : Nat) : (s.updPorts f).ring y_ = s.ring y_ := rfl
@[simp] theorem State.ring_of_updClus (s : State) (f : KMap Cluster → KMap Cluster) (y_ : Nat) : (s.updClus f).ring y_ = s.ring y_ := rfl
@[simp] theorem State.ring_of_updEvts (s : State) (f : KMap Nat → KMap Nat) (y_ : Nat) : (s.updEvts f).ring y_ = s.ring y_ := rfl
@[simp] theorem State.ring_of_spend (s : State) (n : Nat) (y_ : Nat) : (s.spend n).ring y_ = s.ring y_ := rfl
@[simp] theorem State.ring_of_updPins (s : State) (f : Pins → Pins) (y_ : Nat) : (s.updPins f).ring y_ = s.ring y_ := rfl
@[simp] theorem State.ring_of_updMgmt (s : State) (f : Mgmt → Mgmt) (y_ : Nat) : (s.updMgmt f).ring y_ = s.ring y_ := rfl
@[simp] theorem State.ring_of_updPwr (s : State) (f : Pwr → Pwr) (y_ : Nat) : (s.updPwr f).ring y_ = s.ring y_ := rfl
@[simp] theorem State.ring_of_updPwrCtx (s : State) (x : Nat) (f : PwrCtx → PwrCtx) (y_ : Nat) : (s.updPwrCtx x f).ring y_ = s.ring y_ := rfl
@[simp] theorem State.ring_of_updStage (s : State) (i : Nat) (f : Stage → Stage) (y_ : Nat) : (s.updStage i f).ring y_ = s.ring y_ := rfl
@[simp] theorem State.ring_of_setDom (s : State) (i : Nat) (d : DomSt) (y_ : Nat) : (s.setDom i d).ring y_ = s.ring y_ := rfl
@[simp] theorem State.ring_of_updPtp (s : State) (i : Nat) (f : PtpPort → PtpPort) (y_ : Nat) : (s.updPtp i f).ring y_ = s.ring y_ := rfl
@[simp] theorem State.ring_of_bump (s : State) (c : Ctr) (i n : Nat) (y_ : Nat) : (s.bump c i n).ring y_ = s.ring y_ := rfl
@[simp] theorem State.ring_of_emit (s : State) (e : Emit) (y_ : Nat) : (s.emit e).ring y_ = s.ring y_ := rfl
@[simp] theorem State.ring_of_sendCtrl (s : State) (a b c d e : Nat) (p : List Byte) (y_ : Nat) : (s.sendCtrl a b c d e p).ring y_ = s.ring y_ := rfl
@[simp] theorem State.ring_of_sendResp (s : State) (a b c d e : Nat) (p : Bool) (y_ : Nat) : (s.sendResp a b c d e p).ring y_ = s.ring y_ := rfl
@[simp] theorem State.ring_of_writeBytes (s : State) (a : Nat) (bs : List Byte) (y_ : Nat) : (s.writeBytes a bs).ring y_ = s.ring y_ := rfl
@[simp] theorem State.ring_of_clearRange (s : State) (a n : Nat) (y_ : Nat) : (s.clearRange a n).ring y_ = s.ring y_ := rfl
@[simp] theorem State.ring_of_withLog (s : State) (l : Log) (y_ : Nat) : (s.withLog l).ring y_ = s.ring y_ := rfl
@[simp] theorem State.ring_of_record (s : State) (v : Event) (y_ : Nat) : (s.record v).ring y_ = s.ring y_ := rfl
@[simp] theorem State.ring_of_vendor (s : State) (r : Req) (c k : Nat) (p : List Byte) (y_ : Nat) : (s.vendor r c k p).ring y_ = s.ring y_ := rfl
@[simp] theorem State.ring_of_w1c (s : State) (r : Reg) (i m : Nat) (y_ : Nat) : (s.w1c r i m).ring y_ = s.ring y_ := rfl

/-! ### pwrCtx -/

@[simp] theorem State.pwrCtx_of_setCtx (s : State) (x : Nat) (c : Ctx) (y_ : Nat) : (s.setCtx x c).pwrCtx y_ = s.pwrCtx y_ := rfl
@[simp] theorem State.pwrCtx_of_updCtx (s : State) (x : Nat) (f : Ctx → Ctx) (y_ : Nat) : (s.updCtx x f).pwrCtx y_ = s.pwrCtx y_ := rfl
@[simp] theorem State.pwrCtx_of_updCoord (s : State) (x : Nat) (f : Coord → Coord) (y_ : Nat) : (s.updCoord x f).pwrCtx y_ = s.pwrCtx y_ := rfl
@[simp] theorem State.pwrCtx_of_updGey (s : State) (x : Nat) (f : GeyCtx → GeyCtx) (y_ : Nat) : (s.updGey x f).pwrCtx y_ = s.pwrCtx y_ := rfl
@[simp] theorem State.pwrCtx_of_updExec (s : State) (x : Nat) (f : Exec → Exec) (y_ : Nat) : (s.updExec x f).pwrCtx y_ = s.pwrCtx y_ := rfl
@[simp] theorem State.pwrCtx_of_updPort (s : State) (i : Nat) (f : Port → Port) (y_ : Nat) : (s.updPort i f).pwrCtx y_ = s.pwrCtx y_ := rfl
@[simp] theorem State.pwrCtx_of_updCluster (s : State) (g : Nat) (f : Cluster → Cluster) (y_ : Nat) : (s.updCluster g f).pwrCtx y_ = s.pwrCtx y_ := rfl
@[simp] theorem State.pwrCtx_of_updMbx (s : State) (f : Mbx → Mbx) (y_ : Nat) : (s.updMbx f).pwrCtx y_ = s.pwrCtx y_ := rfl
@[simp] theorem State.pwrCtx_of_updRing (s : State) (n : Nat) (f : Ring → Ring) (y_ : Nat) : (s.updRing n f).pwrCtx y_ = s.pwrCtx y_ := rfl
@[simp] theorem State.pwrCtx_of_updFab (s : State) (f : Fab → Fab) (y_ : Nat) : (s.updFab f).pwrCtx y_ = s.pwrCtx y_ := rfl
@[simp] theorem State.pwrCtx_of_updTime (s : State) (f : Time → Time) (y_ : Nat) : (s.updTime f).pwrCtx y_ = s.pwrCtx y_ := rfl
@[simp] theorem State.pwrCtx_of_updRecov (s : State) (f : Recov → Recov) (y_ : Nat) : (s.updRecov f).pwrCtx y_ = s.pwrCtx y_ := rfl
@[simp] theorem State.pwrCtx_of_updCal (s : State) (f : Cal → Cal) (y_ : Nat) : (s.updCal f).pwrCtx y_ = s.pwrCtx y_ := rfl
@[simp] theorem State.pwrCtx_of_updDet (s : State) (f : Det → Det) (y_ : Nat) : (s.updDet f).pwrCtx y_ = s.pwrCtx y_ := rfl
@[simp] theorem State.pwrCtx_of_updTel (s : State) (f : Tel → Tel) (y_ : Nat) : (s.updTel f).pwrCtx y_ = s.pwrCtx y_ := rfl
@[simp] theorem State.pwrCtx_of_updEvr (s : State) (f : Evr → Evr) (y_ : Nat) : (s.updEvr f).pwrCtx y_ = s.pwrCtx y_ := rfl
@[simp] theorem State.pwrCtx_of_updId (s : State) (f : Ident → Ident) (y_ : Nat) : (s.updId f).pwrCtx y_ = s.pwrCtx y_ := rfl
@[simp] theorem State.pwrCtx_of_updFlash (s : State) (f : Flash → Flash) (y_ : Nat) : (s.updFlash f).pwrCtx y_ = s.pwrCtx y_ := rfl
@[simp] theorem State.pwrCtx_of_updMem (s : State) (f : Mem → Mem) (y_ : Nat) : (s.updMem f).pwrCtx y_ = s.pwrCtx y_ := rfl
@[simp] theorem State.pwrCtx_of_updGeyser (s : State) (f : Gey → Gey) (y_ : Nat) : (s.updGeyser f).pwrCtx y_ = s.pwrCtx y_ := rfl
@[simp] theorem State.pwrCtx_of_setCfg (s : State) (c : Cfg) (y_ : Nat) : (s.setCfg c).pwrCtx y_ = s.pwrCtx y_ := rfl
@[simp] theorem State.pwrCtx_of_updPorts (s : State) (f : KMap Port → KMap Port) (y_ : Nat) : (s.updPorts f).pwrCtx y_ = s.pwrCtx y_ := rfl
@[simp] theorem State.pwrCtx_of_updClus (s : State) (f : KMap Cluster → KMap Cluster) (y_ : Nat) : (s.updClus f).pwrCtx y_ = s.pwrCtx y_ := rfl
@[simp] theorem State.pwrCtx_of_updEvts (s : State) (f : KMap Nat → KMap Nat) (y_ : Nat) : (s.updEvts f).pwrCtx y_ = s.pwrCtx y_ := rfl
@[simp] theorem State.pwrCtx_of_spend (s : State) (n : Nat) (y_ : Nat) : (s.spend n).pwrCtx y_ = s.pwrCtx y_ := rfl
@[simp] theorem State.pwrCtx_of_updPins (s : State) (f : Pins → Pins) (y_ : Nat) : (s.updPins f).pwrCtx y_ = s.pwrCtx y_ := rfl
@[simp] theorem State.pwrCtx_of_updMgmt (s : State) (f : Mgmt → Mgmt) (y_ : Nat) : (s.updMgmt f).pwrCtx y_ = s.pwrCtx y_ := rfl
@[simp] theorem State.pwrCtx_of_updPtp (s : State) (i : Nat) (f : PtpPort → PtpPort) (y_ : Nat) : (s.updPtp i f).pwrCtx y_ = s.pwrCtx y_ := rfl
@[simp] theorem State.pwrCtx_of_bump (s : State) (c : Ctr) (i n : Nat) (y_ : Nat) : (s.bump c i n).pwrCtx y_ = s.pwrCtx y_ := rfl
@[simp] theorem State.pwrCtx_of_emit (s : State) (e : Emit) (y_ : Nat) : (s.emit e).pwrCtx y_ = s.pwrCtx y_ := rfl
@[simp] theorem State.pwrCtx_of_sendCtrl (s : State) (a b c d e : Nat) (p : List Byte) (y_ : Nat) : (s.sendCtrl a b c d e p).pwrCtx y_ = s.pwrCtx y_ := rfl
@[simp] theorem State.pwrCtx_of_sendResp (s : State) (a b c d e : Nat) (p : Bool) (y_ : Nat) : (s.sendResp a b c d e p).pwrCtx y_ = s.pwrCtx y_ := rfl
@[simp] theorem State.pwrCtx_of_writeBytes (s : State) (a : Nat) (bs : List Byte) (y_ : Nat) : (s.writeBytes a bs).pwrCtx y_ = s.pwrCtx y_ := rfl
@[simp] theorem State.pwrCtx_of_clearRange (s : State) (a n : Nat) (y_ : Nat) : (s.clearRange a n).pwrCtx y_ = s.pwrCtx y_ := rfl
@[simp] theorem State.pwrCtx_of_withLog (s : State) (l : Log) (y_ : Nat) : (s.withLog l).pwrCtx y_ = s.pwrCtx y_ := rfl
@[simp] theorem State.pwrCtx_of_record (s : State) (v : Event) (y_ : Nat) : (s.record v).pwrCtx y_ = s.pwrCtx y_ := rfl
@[simp] theorem State.pwrCtx_of_vendor (s : State) (r : Req) (c k : Nat) (p : List Byte) (y_ : Nat) : (s.vendor r c k p).pwrCtx y_ = s.pwrCtx y_ := rfl
@[simp] theorem State.pwrCtx_of_w1c (s : State) (r : Reg) (i m : Nat) (y_ : Nat) : (s.w1c r i m).pwrCtx y_ = s.pwrCtx y_ := rfl

/-! ### stage -/

@[simp] theorem State.stage_of_setCtx (s : State) (x : Nat) (c : Ctx) (y_ : Nat) : (s.setCtx x c).stage y_ = s.stage y_ := rfl
@[simp] theorem State.stage_of_updCtx (s : State) (x : Nat) (f : Ctx → Ctx) (y_ : Nat) : (s.updCtx x f).stage y_ = s.stage y_ := rfl
@[simp] theorem State.stage_of_updCoord (s : State) (x : Nat) (f : Coord → Coord) (y_ : Nat) : (s.updCoord x f).stage y_ = s.stage y_ := rfl
@[simp] theorem State.stage_of_updGey (s : State) (x : Nat) (f : GeyCtx → GeyCtx) (y_ : Nat) : (s.updGey x f).stage y_ = s.stage y_ := rfl
@[simp] theorem State.stage_of_updExec (s : State) (x : Nat) (f : Exec → Exec) (y_ : Nat) : (s.updExec x f).stage y_ = s.stage y_ := rfl
@[simp] theorem State.stage_of_updPort (s : State) (i : Nat) (f : Port → Port) (y_ : Nat) : (s.updPort i f).stage y_ = s.stage y_ := rfl
@[simp] theorem State.stage_of_updCluster (s : State) (g : Nat) (f : Cluster → Cluster) (y_ : Nat) : (s.updCluster g f).stage y_ = s.stage y_ := rfl
@[simp] theorem State.stage_of_updMbx (s : State) (f : Mbx → Mbx) (y_ : Nat) : (s.updMbx f).stage y_ = s.stage y_ := rfl
@[simp] theorem State.stage_of_updRing (s : State) (n : Nat) (f : Ring → Ring) (y_ : Nat) : (s.updRing n f).stage y_ = s.stage y_ := rfl
@[simp] theorem State.stage_of_updFab (s : State) (f : Fab → Fab) (y_ : Nat) : (s.updFab f).stage y_ = s.stage y_ := rfl
@[simp] theorem State.stage_of_updTime (s : State) (f : Time → Time) (y_ : Nat) : (s.updTime f).stage y_ = s.stage y_ := rfl
@[simp] theorem State.stage_of_updRecov (s : State) (f : Recov → Recov) (y_ : Nat) : (s.updRecov f).stage y_ = s.stage y_ := rfl
@[simp] theorem State.stage_of_updCal (s : State) (f : Cal → Cal) (y_ : Nat) : (s.updCal f).stage y_ = s.stage y_ := rfl
@[simp] theorem State.stage_of_updDet (s : State) (f : Det → Det) (y_ : Nat) : (s.updDet f).stage y_ = s.stage y_ := rfl
@[simp] theorem State.stage_of_updTel (s : State) (f : Tel → Tel) (y_ : Nat) : (s.updTel f).stage y_ = s.stage y_ := rfl
@[simp] theorem State.stage_of_updEvr (s : State) (f : Evr → Evr) (y_ : Nat) : (s.updEvr f).stage y_ = s.stage y_ := rfl
@[simp] theorem State.stage_of_updId (s : State) (f : Ident → Ident) (y_ : Nat) : (s.updId f).stage y_ = s.stage y_ := rfl
@[simp] theorem State.stage_of_updFlash (s : State) (f : Flash → Flash) (y_ : Nat) : (s.updFlash f).stage y_ = s.stage y_ := rfl
@[simp] theorem State.stage_of_updMem (s : State) (f : Mem → Mem) (y_ : Nat) : (s.updMem f).stage y_ = s.stage y_ := rfl
@[simp] theorem State.stage_of_updGeyser (s : State) (f : Gey → Gey) (y_ : Nat) : (s.updGeyser f).stage y_ = s.stage y_ := rfl
@[simp] theorem State.stage_of_setCfg (s : State) (c : Cfg) (y_ : Nat) : (s.setCfg c).stage y_ = s.stage y_ := rfl
@[simp] theorem State.stage_of_updPorts (s : State) (f : KMap Port → KMap Port) (y_ : Nat) : (s.updPorts f).stage y_ = s.stage y_ := rfl
@[simp] theorem State.stage_of_updClus (s : State) (f : KMap Cluster → KMap Cluster) (y_ : Nat) : (s.updClus f).stage y_ = s.stage y_ := rfl
@[simp] theorem State.stage_of_updEvts (s : State) (f : KMap Nat → KMap Nat) (y_ : Nat) : (s.updEvts f).stage y_ = s.stage y_ := rfl
@[simp] theorem State.stage_of_spend (s : State) (n : Nat) (y_ : Nat) : (s.spend n).stage y_ = s.stage y_ := rfl
@[simp] theorem State.stage_of_updPins (s : State) (f : Pins → Pins) (y_ : Nat) : (s.updPins f).stage y_ = s.stage y_ := rfl
@[simp] theorem State.stage_of_updMgmt (s : State) (f : Mgmt → Mgmt) (y_ : Nat) : (s.updMgmt f).stage y_ = s.stage y_ := rfl
@[simp] theorem State.stage_of_updPtp (s : State) (i : Nat) (f : PtpPort → PtpPort) (y_ : Nat) : (s.updPtp i f).stage y_ = s.stage y_ := rfl
@[simp] theorem State.stage_of_bump (s : State) (c : Ctr) (i n : Nat) (y_ : Nat) : (s.bump c i n).stage y_ = s.stage y_ := rfl
@[simp] theorem State.stage_of_emit (s : State) (e : Emit) (y_ : Nat) : (s.emit e).stage y_ = s.stage y_ := rfl
@[simp] theorem State.stage_of_sendCtrl (s : State) (a b c d e : Nat) (p : List Byte) (y_ : Nat) : (s.sendCtrl a b c d e p).stage y_ = s.stage y_ := rfl
@[simp] theorem State.stage_of_sendResp (s : State) (a b c d e : Nat) (p : Bool) (y_ : Nat) : (s.sendResp a b c d e p).stage y_ = s.stage y_ := rfl
@[simp] theorem State.stage_of_writeBytes (s : State) (a : Nat) (bs : List Byte) (y_ : Nat) : (s.writeBytes a bs).stage y_ = s.stage y_ := rfl
@[simp] theorem State.stage_of_clearRange (s : State) (a n : Nat) (y_ : Nat) : (s.clearRange a n).stage y_ = s.stage y_ := rfl
@[simp] theorem State.stage_of_withLog (s : State) (l : Log) (y_ : Nat) : (s.withLog l).stage y_ = s.stage y_ := rfl
@[simp] theorem State.stage_of_record (s : State) (v : Event) (y_ : Nat) : (s.record v).stage y_ = s.stage y_ := rfl
@[simp] theorem State.stage_of_vendor (s : State) (r : Req) (c k : Nat) (p : List Byte) (y_ : Nat) : (s.vendor r c k p).stage y_ = s.stage y_ := rfl
@[simp] theorem State.stage_of_w1c (s : State) (r : Reg) (i m : Nat) (y_ : Nat) : (s.w1c r i m).stage y_ = s.stage y_ := rfl

/-! ### dom -/

@[simp] theorem State.dom_of_setCtx (s : State) (x : Nat) (c : Ctx) (y_ : Nat) : (s.setCtx x c).dom y_ = s.dom y_ := rfl
@[simp] theorem State.dom_of_updCtx (s : State) (x : Nat) (f : Ctx → Ctx) (y_ : Nat) : (s.updCtx x f).dom y_ = s.dom y_ := rfl
@[simp] theorem State.dom_of_updCoord (s : State) (x : Nat) (f : Coord → Coord) (y_ : Nat) : (s.updCoord x f).dom y_ = s.dom y_ := rfl
@[simp] theorem State.dom_of_updGey (s : State) (x : Nat) (f : GeyCtx → GeyCtx) (y_ : Nat) : (s.updGey x f).dom y_ = s.dom y_ := rfl
@[simp] theorem State.dom_of_updExec (s : State) (x : Nat) (f : Exec → Exec) (y_ : Nat) : (s.updExec x f).dom y_ = s.dom y_ := rfl
@[simp] theorem State.dom_of_updPort (s : State) (i : Nat) (f : Port → Port) (y_ : Nat) : (s.updPort i f).dom y_ = s.dom y_ := rfl
@[simp] theorem State.dom_of_updCluster (s : State) (g : Nat) (f : Cluster → Cluster) (y_ : Nat) : (s.updCluster g f).dom y_ = s.dom y_ := rfl
@[simp] theorem State.dom_of_updMbx (s : State) (f : Mbx → Mbx) (y_ : Nat) : (s.updMbx f).dom y_ = s.dom y_ := rfl
@[simp] theorem State.dom_of_updRing (s : State) (n : Nat) (f : Ring → Ring) (y_ : Nat) : (s.updRing n f).dom y_ = s.dom y_ := rfl
@[simp] theorem State.dom_of_updFab (s : State) (f : Fab → Fab) (y_ : Nat) : (s.updFab f).dom y_ = s.dom y_ := rfl
@[simp] theorem State.dom_of_updTime (s : State) (f : Time → Time) (y_ : Nat) : (s.updTime f).dom y_ = s.dom y_ := rfl
@[simp] theorem State.dom_of_updRecov (s : State) (f : Recov → Recov) (y_ : Nat) : (s.updRecov f).dom y_ = s.dom y_ := rfl
@[simp] theorem State.dom_of_updCal (s : State) (f : Cal → Cal) (y_ : Nat) : (s.updCal f).dom y_ = s.dom y_ := rfl
@[simp] theorem State.dom_of_updDet (s : State) (f : Det → Det) (y_ : Nat) : (s.updDet f).dom y_ = s.dom y_ := rfl
@[simp] theorem State.dom_of_updTel (s : State) (f : Tel → Tel) (y_ : Nat) : (s.updTel f).dom y_ = s.dom y_ := rfl
@[simp] theorem State.dom_of_updEvr (s : State) (f : Evr → Evr) (y_ : Nat) : (s.updEvr f).dom y_ = s.dom y_ := rfl
@[simp] theorem State.dom_of_updId (s : State) (f : Ident → Ident) (y_ : Nat) : (s.updId f).dom y_ = s.dom y_ := rfl
@[simp] theorem State.dom_of_updFlash (s : State) (f : Flash → Flash) (y_ : Nat) : (s.updFlash f).dom y_ = s.dom y_ := rfl
@[simp] theorem State.dom_of_updMem (s : State) (f : Mem → Mem) (y_ : Nat) : (s.updMem f).dom y_ = s.dom y_ := rfl
@[simp] theorem State.dom_of_updGeyser (s : State) (f : Gey → Gey) (y_ : Nat) : (s.updGeyser f).dom y_ = s.dom y_ := rfl
@[simp] theorem State.dom_of_setCfg (s : State) (c : Cfg) (y_ : Nat) : (s.setCfg c).dom y_ = s.dom y_ := rfl
@[simp] theorem State.dom_of_updPorts (s : State) (f : KMap Port → KMap Port) (y_ : Nat) : (s.updPorts f).dom y_ = s.dom y_ := rfl
@[simp] theorem State.dom_of_updClus (s : State) (f : KMap Cluster → KMap Cluster) (y_ : Nat) : (s.updClus f).dom y_ = s.dom y_ := rfl
@[simp] theorem State.dom_of_updEvts (s : State) (f : KMap Nat → KMap Nat) (y_ : Nat) : (s.updEvts f).dom y_ = s.dom y_ := rfl
@[simp] theorem State.dom_of_spend (s : State) (n : Nat) (y_ : Nat) : (s.spend n).dom y_ = s.dom y_ := rfl
@[simp] theorem State.dom_of_updPins (s : State) (f : Pins → Pins) (y_ : Nat) : (s.updPins f).dom y_ = s.dom y_ := rfl
@[simp] theorem State.dom_of_updMgmt (s : State) (f : Mgmt → Mgmt) (y_ : Nat) : (s.updMgmt f).dom y_ = s.dom y_ := rfl
@[simp] theorem State.dom_of_updPtp (s : State) (i : Nat) (f : PtpPort → PtpPort) (y_ : Nat) : (s.updPtp i f).dom y_ = s.dom y_ := rfl
@[simp] theorem State.dom_of_bump (s : State) (c : Ctr) (i n : Nat) (y_ : Nat) : (s.bump c i n).dom y_ = s.dom y_ := rfl
@[simp] theorem State.dom_of_emit (s : State) (e : Emit) (y_ : Nat) : (s.emit e).dom y_ = s.dom y_ := rfl
@[simp] theorem State.dom_of_sendCtrl (s : State) (a b c d e : Nat) (p : List Byte) (y_ : Nat) : (s.sendCtrl a b c d e p).dom y_ = s.dom y_ := rfl
@[simp] theorem State.dom_of_sendResp (s : State) (a b c d e : Nat) (p : Bool) (y_ : Nat) : (s.sendResp a b c d e p).dom y_ = s.dom y_ := rfl
@[simp] theorem State.dom_of_writeBytes (s : State) (a : Nat) (bs : List Byte) (y_ : Nat) : (s.writeBytes a bs).dom y_ = s.dom y_ := rfl
@[simp] theorem State.dom_of_clearRange (s : State) (a n : Nat) (y_ : Nat) : (s.clearRange a n).dom y_ = s.dom y_ := rfl
@[simp] theorem State.dom_of_withLog (s : State) (l : Log) (y_ : Nat) : (s.withLog l).dom y_ = s.dom y_ := rfl
@[simp] theorem State.dom_of_record (s : State) (v : Event) (y_ : Nat) : (s.record v).dom y_ = s.dom y_ := rfl
@[simp] theorem State.dom_of_vendor (s : State) (r : Req) (c k : Nat) (p : List Byte) (y_ : Nat) : (s.vendor r c k p).dom y_ = s.dom y_ := rfl
@[simp] theorem State.dom_of_w1c (s : State) (r : Reg) (i m : Nat) (y_ : Nat) : (s.w1c r i m).dom y_ = s.dom y_ := rfl

/-! ### ptp -/

@[simp] theorem State.ptp_of_setCtx (s : State) (x : Nat) (c : Ctx) (y_ : Nat) : (s.setCtx x c).ptp y_ = s.ptp y_ := rfl
@[simp] theorem State.ptp_of_updCtx (s : State) (x : Nat) (f : Ctx → Ctx) (y_ : Nat) : (s.updCtx x f).ptp y_ = s.ptp y_ := rfl
@[simp] theorem State.ptp_of_updCoord (s : State) (x : Nat) (f : Coord → Coord) (y_ : Nat) : (s.updCoord x f).ptp y_ = s.ptp y_ := rfl
@[simp] theorem State.ptp_of_updGey (s : State) (x : Nat) (f : GeyCtx → GeyCtx) (y_ : Nat) : (s.updGey x f).ptp y_ = s.ptp y_ := rfl
@[simp] theorem State.ptp_of_updExec (s : State) (x : Nat) (f : Exec → Exec) (y_ : Nat) : (s.updExec x f).ptp y_ = s.ptp y_ := rfl
@[simp] theorem State.ptp_of_updPort (s : State) (i : Nat) (f : Port → Port) (y_ : Nat) : (s.updPort i f).ptp y_ = s.ptp y_ := rfl
@[simp] theorem State.ptp_of_updCluster (s : State) (g : Nat) (f : Cluster → Cluster) (y_ : Nat) : (s.updCluster g f).ptp y_ = s.ptp y_ := rfl
@[simp] theorem State.ptp_of_updMbx (s : State) (f : Mbx → Mbx) (y_ : Nat) : (s.updMbx f).ptp y_ = s.ptp y_ := rfl
@[simp] theorem State.ptp_of_updRing (s : State) (n : Nat) (f : Ring → Ring) (y_ : Nat) : (s.updRing n f).ptp y_ = s.ptp y_ := rfl
@[simp] theorem State.ptp_of_updFab (s : State) (f : Fab → Fab) (y_ : Nat) : (s.updFab f).ptp y_ = s.ptp y_ := rfl
@[simp] theorem State.ptp_of_updRecov (s : State) (f : Recov → Recov) (y_ : Nat) : (s.updRecov f).ptp y_ = s.ptp y_ := rfl
@[simp] theorem State.ptp_of_updCal (s : State) (f : Cal → Cal) (y_ : Nat) : (s.updCal f).ptp y_ = s.ptp y_ := rfl
@[simp] theorem State.ptp_of_updDet (s : State) (f : Det → Det) (y_ : Nat) : (s.updDet f).ptp y_ = s.ptp y_ := rfl
@[simp] theorem State.ptp_of_updTel (s : State) (f : Tel → Tel) (y_ : Nat) : (s.updTel f).ptp y_ = s.ptp y_ := rfl
@[simp] theorem State.ptp_of_updEvr (s : State) (f : Evr → Evr) (y_ : Nat) : (s.updEvr f).ptp y_ = s.ptp y_ := rfl
@[simp] theorem State.ptp_of_updId (s : State) (f : Ident → Ident) (y_ : Nat) : (s.updId f).ptp y_ = s.ptp y_ := rfl
@[simp] theorem State.ptp_of_updFlash (s : State) (f : Flash → Flash) (y_ : Nat) : (s.updFlash f).ptp y_ = s.ptp y_ := rfl
@[simp] theorem State.ptp_of_updMem (s : State) (f : Mem → Mem) (y_ : Nat) : (s.updMem f).ptp y_ = s.ptp y_ := rfl
@[simp] theorem State.ptp_of_updGeyser (s : State) (f : Gey → Gey) (y_ : Nat) : (s.updGeyser f).ptp y_ = s.ptp y_ := rfl
@[simp] theorem State.ptp_of_setCfg (s : State) (c : Cfg) (y_ : Nat) : (s.setCfg c).ptp y_ = s.ptp y_ := rfl
@[simp] theorem State.ptp_of_updPorts (s : State) (f : KMap Port → KMap Port) (y_ : Nat) : (s.updPorts f).ptp y_ = s.ptp y_ := rfl
@[simp] theorem State.ptp_of_updClus (s : State) (f : KMap Cluster → KMap Cluster) (y_ : Nat) : (s.updClus f).ptp y_ = s.ptp y_ := rfl
@[simp] theorem State.ptp_of_updEvts (s : State) (f : KMap Nat → KMap Nat) (y_ : Nat) : (s.updEvts f).ptp y_ = s.ptp y_ := rfl
@[simp] theorem State.ptp_of_spend (s : State) (n : Nat) (y_ : Nat) : (s.spend n).ptp y_ = s.ptp y_ := rfl
@[simp] theorem State.ptp_of_updPins (s : State) (f : Pins → Pins) (y_ : Nat) : (s.updPins f).ptp y_ = s.ptp y_ := rfl
@[simp] theorem State.ptp_of_updMgmt (s : State) (f : Mgmt → Mgmt) (y_ : Nat) : (s.updMgmt f).ptp y_ = s.ptp y_ := rfl
@[simp] theorem State.ptp_of_updPwr (s : State) (f : Pwr → Pwr) (y_ : Nat) : (s.updPwr f).ptp y_ = s.ptp y_ := rfl
@[simp] theorem State.ptp_of_updPwrCtx (s : State) (x : Nat) (f : PwrCtx → PwrCtx) (y_ : Nat) : (s.updPwrCtx x f).ptp y_ = s.ptp y_ := rfl
@[simp] theorem State.ptp_of_updStage (s : State) (i : Nat) (f : Stage → Stage) (y_ : Nat) : (s.updStage i f).ptp y_ = s.ptp y_ := rfl
@[simp] theorem State.ptp_of_setDom (s : State) (i : Nat) (d : DomSt) (y_ : Nat) : (s.setDom i d).ptp y_ = s.ptp y_ := rfl
@[simp] theorem State.ptp_of_bump (s : State) (c : Ctr) (i n : Nat) (y_ : Nat) : (s.bump c i n).ptp y_ = s.ptp y_ := rfl
@[simp] theorem State.ptp_of_emit (s : State) (e : Emit) (y_ : Nat) : (s.emit e).ptp y_ = s.ptp y_ := rfl
@[simp] theorem State.ptp_of_sendCtrl (s : State) (a b c d e : Nat) (p : List Byte) (y_ : Nat) : (s.sendCtrl a b c d e p).ptp y_ = s.ptp y_ := rfl
@[simp] theorem State.ptp_of_sendResp (s : State) (a b c d e : Nat) (p : Bool) (y_ : Nat) : (s.sendResp a b c d e p).ptp y_ = s.ptp y_ := rfl
@[simp] theorem State.ptp_of_writeBytes (s : State) (a : Nat) (bs : List Byte) (y_ : Nat) : (s.writeBytes a bs).ptp y_ = s.ptp y_ := rfl
@[simp] theorem State.ptp_of_clearRange (s : State) (a n : Nat) (y_ : Nat) : (s.clearRange a n).ptp y_ = s.ptp y_ := rfl
@[simp] theorem State.ptp_of_withLog (s : State) (l : Log) (y_ : Nat) : (s.withLog l).ptp y_ = s.ptp y_ := rfl
@[simp] theorem State.ptp_of_record (s : State) (v : Event) (y_ : Nat) : (s.record v).ptp y_ = s.ptp y_ := rfl
@[simp] theorem State.ptp_of_vendor (s : State) (r : Req) (c k : Nat) (p : List Byte) (y_ : Nat) : (s.vendor r c k p).ptp y_ = s.ptp y_ := rfl
@[simp] theorem State.ptp_of_w1c (s : State) (r : Reg) (i m : Nat) (y_ : Nat) : (s.w1c r i m).ptp y_ = s.ptp y_ := rfl

/-! ### ctr -/

@[simp] theorem State.ctr_of_setCtx (s : State) (x : Nat) (c : Ctx) (k_ : Ctr) (y_ : Nat) : (s.setCtx x c).ctr k_ y_ = s.ctr k_ y_ := rfl
@[simp] theorem State.ctr_of_updCtx (s : State) (x : Nat) (f : Ctx → Ctx) (k_ : Ctr) (y_ : Nat) : (s.updCtx x f).ctr k_ y_ = s.ctr k_ y_ := rfl
@[simp] theorem State.ctr_of_updCoord (s : State) (x : Nat) (f : Coord → Coord) (k_ : Ctr) (y_ : Nat) : (s.updCoord x f).ctr k_ y_ = s.ctr k_ y_ := rfl
@[simp] theorem State.ctr_of_updGey (s : State) (x : Nat) (f : GeyCtx → GeyCtx) (k_ : Ctr) (y_ : Nat) : (s.updGey x f).ctr k_ y_ = s.ctr k_ y_ := rfl
@[simp] theorem State.ctr_of_updExec (s : State) (x : Nat) (f : Exec → Exec) (k_ : Ctr) (y_ : Nat) : (s.updExec x f).ctr k_ y_ = s.ctr k_ y_ := rfl
@[simp] theorem State.ctr_of_updPort (s : State) (i : Nat) (f : Port → Port) (k_ : Ctr) (y_ : Nat) : (s.updPort i f).ctr k_ y_ = s.ctr k_ y_ := rfl
@[simp] theorem State.ctr_of_updCluster (s : State) (g : Nat) (f : Cluster → Cluster) (k_ : Ctr) (y_ : Nat) : (s.updCluster g f).ctr k_ y_ = s.ctr k_ y_ := rfl
@[simp] theorem State.ctr_of_updMbx (s : State) (f : Mbx → Mbx) (k_ : Ctr) (y_ : Nat) : (s.updMbx f).ctr k_ y_ = s.ctr k_ y_ := rfl
@[simp] theorem State.ctr_of_updRing (s : State) (n : Nat) (f : Ring → Ring) (k_ : Ctr) (y_ : Nat) : (s.updRing n f).ctr k_ y_ = s.ctr k_ y_ := rfl
@[simp] theorem State.ctr_of_updFab (s : State) (f : Fab → Fab) (k_ : Ctr) (y_ : Nat) : (s.updFab f).ctr k_ y_ = s.ctr k_ y_ := rfl
@[simp] theorem State.ctr_of_updTime (s : State) (f : Time → Time) (k_ : Ctr) (y_ : Nat) : (s.updTime f).ctr k_ y_ = s.ctr k_ y_ := rfl
@[simp] theorem State.ctr_of_updRecov (s : State) (f : Recov → Recov) (k_ : Ctr) (y_ : Nat) : (s.updRecov f).ctr k_ y_ = s.ctr k_ y_ := rfl
@[simp] theorem State.ctr_of_updCal (s : State) (f : Cal → Cal) (k_ : Ctr) (y_ : Nat) : (s.updCal f).ctr k_ y_ = s.ctr k_ y_ := rfl
@[simp] theorem State.ctr_of_updDet (s : State) (f : Det → Det) (k_ : Ctr) (y_ : Nat) : (s.updDet f).ctr k_ y_ = s.ctr k_ y_ := rfl
@[simp] theorem State.ctr_of_updTel (s : State) (f : Tel → Tel) (k_ : Ctr) (y_ : Nat) : (s.updTel f).ctr k_ y_ = s.ctr k_ y_ := rfl
@[simp] theorem State.ctr_of_updEvr (s : State) (f : Evr → Evr) (k_ : Ctr) (y_ : Nat) : (s.updEvr f).ctr k_ y_ = s.ctr k_ y_ := rfl
@[simp] theorem State.ctr_of_updId (s : State) (f : Ident → Ident) (k_ : Ctr) (y_ : Nat) : (s.updId f).ctr k_ y_ = s.ctr k_ y_ := rfl
@[simp] theorem State.ctr_of_updFlash (s : State) (f : Flash → Flash) (k_ : Ctr) (y_ : Nat) : (s.updFlash f).ctr k_ y_ = s.ctr k_ y_ := rfl
@[simp] theorem State.ctr_of_updMem (s : State) (f : Mem → Mem) (k_ : Ctr) (y_ : Nat) : (s.updMem f).ctr k_ y_ = s.ctr k_ y_ := rfl
@[simp] theorem State.ctr_of_updGeyser (s : State) (f : Gey → Gey) (k_ : Ctr) (y_ : Nat) : (s.updGeyser f).ctr k_ y_ = s.ctr k_ y_ := rfl
@[simp] theorem State.ctr_of_setCfg (s : State) (c : Cfg) (k_ : Ctr) (y_ : Nat) : (s.setCfg c).ctr k_ y_ = s.ctr k_ y_ := rfl
@[simp] theorem State.ctr_of_updPorts (s : State) (f : KMap Port → KMap Port) (k_ : Ctr) (y_ : Nat) : (s.updPorts f).ctr k_ y_ = s.ctr k_ y_ := rfl
@[simp] theorem State.ctr_of_updClus (s : State) (f : KMap Cluster → KMap Cluster) (k_ : Ctr) (y_ : Nat) : (s.updClus f).ctr k_ y_ = s.ctr k_ y_ := rfl
@[simp] theorem State.ctr_of_updEvts (s : State) (f : KMap Nat → KMap Nat) (k_ : Ctr) (y_ : Nat) : (s.updEvts f).ctr k_ y_ = s.ctr k_ y_ := rfl
@[simp] theorem State.ctr_of_spend (s : State) (n : Nat) (k_ : Ctr) (y_ : Nat) : (s.spend n).ctr k_ y_ = s.ctr k_ y_ := rfl
@[simp] theorem State.ctr_of_updPins (s : State) (f : Pins → Pins) (k_ : Ctr) (y_ : Nat) : (s.updPins f).ctr k_ y_ = s.ctr k_ y_ := rfl
@[simp] theorem State.ctr_of_updMgmt (s : State) (f : Mgmt → Mgmt) (k_ : Ctr) (y_ : Nat) : (s.updMgmt f).ctr k_ y_ = s.ctr k_ y_ := rfl
@[simp] theorem State.ctr_of_updPwr (s : State) (f : Pwr → Pwr) (k_ : Ctr) (y_ : Nat) : (s.updPwr f).ctr k_ y_ = s.ctr k_ y_ := rfl
@[simp] theorem State.ctr_of_updPwrCtx (s : State) (x : Nat) (f : PwrCtx → PwrCtx) (k_ : Ctr) (y_ : Nat) : (s.updPwrCtx x f).ctr k_ y_ = s.ctr k_ y_ := rfl
@[simp] theorem State.ctr_of_updStage (s : State) (i : Nat) (f : Stage → Stage) (k_ : Ctr) (y_ : Nat) : (s.updStage i f).ctr k_ y_ = s.ctr k_ y_ := rfl
@[simp] theorem State.ctr_of_setDom (s : State) (i : Nat) (d : DomSt) (k_ : Ctr) (y_ : Nat) : (s.setDom i d).ctr k_ y_ = s.ctr k_ y_ := rfl
@[simp] theorem State.ctr_of_updPtp (s : State) (i : Nat) (f : PtpPort → PtpPort) (k_ : Ctr) (y_ : Nat) : (s.updPtp i f).ctr k_ y_ = s.ctr k_ y_ := rfl
@[simp] theorem State.ctr_of_emit (s : State) (e : Emit) (k_ : Ctr) (y_ : Nat) : (s.emit e).ctr k_ y_ = s.ctr k_ y_ := rfl
@[simp] theorem State.ctr_of_sendCtrl (s : State) (a b c d e : Nat) (p : List Byte) (k_ : Ctr) (y_ : Nat) : (s.sendCtrl a b c d e p).ctr k_ y_ = s.ctr k_ y_ := rfl
@[simp] theorem State.ctr_of_sendResp (s : State) (a b c d e : Nat) (p : Bool) (k_ : Ctr) (y_ : Nat) : (s.sendResp a b c d e p).ctr k_ y_ = s.ctr k_ y_ := rfl
@[simp] theorem State.ctr_of_writeBytes (s : State) (a : Nat) (bs : List Byte) (k_ : Ctr) (y_ : Nat) : (s.writeBytes a bs).ctr k_ y_ = s.ctr k_ y_ := rfl
@[simp] theorem State.ctr_of_clearRange (s : State) (a n : Nat) (k_ : Ctr) (y_ : Nat) : (s.clearRange a n).ctr k_ y_ = s.ctr k_ y_ := rfl
@[simp] theorem State.ctr_of_vendor (s : State) (r : Req) (c k : Nat) (p : List Byte) (k_ : Ctr) (y_ : Nat) : (s.vendor r c k p).ctr k_ y_ = s.ctr k_ y_ := rfl
@[simp] theorem State.ctr_of_w1c (s : State) (r : Reg) (i m : Nat) (k_ : Ctr) (y_ : Nat) : (s.w1c r i m).ctr k_ y_ = s.ctr k_ y_ := rfl

/-! ### now -/

@[simp] theorem State.now_of_setCtx (s : State) (x : Nat) (c : Ctx) : (s.setCtx x c).now = s.now := rfl
@[simp] theorem State.now_of_updCtx (s : State) (x : Nat) (f : Ctx → Ctx) : (s.updCtx x f).now = s.now := rfl
@[simp] theorem State.now_of_updCoord (s : State) (x : Nat) (f : Coord → Coord) : (s.updCoord x f).now = s.now := rfl
@[simp] theorem State.now_of_updGey (s : State) (x : Nat) (f : GeyCtx → GeyCtx) : (s.updGey x f).now = s.now := rfl
@[simp] theorem State.now_of_updExec (s : State) (x : Nat) (f : Exec → Exec) : (s.updExec x f).now = s.now := rfl
@[simp] theorem State.now_of_updPort (s : State) (i : Nat) (f : Port → Port) : (s.updPort i f).now = s.now := rfl
@[simp] theorem State.now_of_updCluster (s : State) (g : Nat) (f : Cluster → Cluster) : (s.updCluster g f).now = s.now := rfl
@[simp] theorem State.now_of_updMbx (s : State) (f : Mbx → Mbx) : (s.updMbx f).now = s.now := rfl
@[simp] theorem State.now_of_updRing (s : State) (n : Nat) (f : Ring → Ring) : (s.updRing n f).now = s.now := rfl
@[simp] theorem State.now_of_updFab (s : State) (f : Fab → Fab) : (s.updFab f).now = s.now := rfl
@[simp] theorem State.now_of_updRecov (s : State) (f : Recov → Recov) : (s.updRecov f).now = s.now := rfl
@[simp] theorem State.now_of_updCal (s : State) (f : Cal → Cal) : (s.updCal f).now = s.now := rfl
@[simp] theorem State.now_of_updDet (s : State) (f : Det → Det) : (s.updDet f).now = s.now := rfl
@[simp] theorem State.now_of_updTel (s : State) (f : Tel → Tel) : (s.updTel f).now = s.now := rfl
@[simp] theorem State.now_of_updEvr (s : State) (f : Evr → Evr) : (s.updEvr f).now = s.now := rfl
@[simp] theorem State.now_of_updId (s : State) (f : Ident → Ident) : (s.updId f).now = s.now := rfl
@[simp] theorem State.now_of_updFlash (s : State) (f : Flash → Flash) : (s.updFlash f).now = s.now := rfl
@[simp] theorem State.now_of_updMem (s : State) (f : Mem → Mem) : (s.updMem f).now = s.now := rfl
@[simp] theorem State.now_of_updGeyser (s : State) (f : Gey → Gey) : (s.updGeyser f).now = s.now := rfl
@[simp] theorem State.now_of_setCfg (s : State) (c : Cfg) : (s.setCfg c).now = s.now := rfl
@[simp] theorem State.now_of_updPorts (s : State) (f : KMap Port → KMap Port) : (s.updPorts f).now = s.now := rfl
@[simp] theorem State.now_of_updClus (s : State) (f : KMap Cluster → KMap Cluster) : (s.updClus f).now = s.now := rfl
@[simp] theorem State.now_of_updEvts (s : State) (f : KMap Nat → KMap Nat) : (s.updEvts f).now = s.now := rfl
@[simp] theorem State.now_of_spend (s : State) (n : Nat) : (s.spend n).now = s.now := rfl
@[simp] theorem State.now_of_updPins (s : State) (f : Pins → Pins) : (s.updPins f).now = s.now := rfl
@[simp] theorem State.now_of_updMgmt (s : State) (f : Mgmt → Mgmt) : (s.updMgmt f).now = s.now := rfl
@[simp] theorem State.now_of_updPwr (s : State) (f : Pwr → Pwr) : (s.updPwr f).now = s.now := rfl
@[simp] theorem State.now_of_updPwrCtx (s : State) (x : Nat) (f : PwrCtx → PwrCtx) : (s.updPwrCtx x f).now = s.now := rfl
@[simp] theorem State.now_of_updStage (s : State) (i : Nat) (f : Stage → Stage) : (s.updStage i f).now = s.now := rfl
@[simp] theorem State.now_of_setDom (s : State) (i : Nat) (d : DomSt) : (s.setDom i d).now = s.now := rfl
@[simp] theorem State.now_of_bump (s : State) (c : Ctr) (i n : Nat) : (s.bump c i n).now = s.now := rfl
@[simp] theorem State.now_of_emit (s : State) (e : Emit) : (s.emit e).now = s.now := rfl
@[simp] theorem State.now_of_sendCtrl (s : State) (a b c d e : Nat) (p : List Byte) : (s.sendCtrl a b c d e p).now = s.now := rfl
@[simp] theorem State.now_of_sendResp (s : State) (a b c d e : Nat) (p : Bool) : (s.sendResp a b c d e p).now = s.now := rfl
@[simp] theorem State.now_of_writeBytes (s : State) (a : Nat) (bs : List Byte) : (s.writeBytes a bs).now = s.now := rfl
@[simp] theorem State.now_of_clearRange (s : State) (a n : Nat) : (s.clearRange a n).now = s.now := rfl
@[simp] theorem State.now_of_withLog (s : State) (l : Log) : (s.withLog l).now = s.now := rfl
@[simp] theorem State.now_of_record (s : State) (v : Event) : (s.record v).now = s.now := rfl
@[simp] theorem State.now_of_vendor (s : State) (r : Req) (c k : Nat) (p : List Byte) : (s.vendor r c k p).now = s.now := rfl
@[simp] theorem State.now_of_w1c (s : State) (r : Reg) (i m : Nat) : (s.w1c r i m).now = s.now := rfl

/-! ### fcHeld -/

@[simp] theorem State.fcHeld_of_setCtx (s : State) (x : Nat) (c : Ctx) : (s.setCtx x c).fcHeld = s.fcHeld := rfl
@[simp] theorem State.fcHeld_of_updCtx (s : State) (x : Nat) (f : Ctx → Ctx) : (s.updCtx x f).fcHeld = s.fcHeld := rfl
@[simp] theorem State.fcHeld_of_updCoord (s : State) (x : Nat) (f : Coord → Coord) : (s.updCoord x f).fcHeld = s.fcHeld := rfl
@[simp] theorem State.fcHeld_of_updGey (s : State) (x : Nat) (f : GeyCtx → GeyCtx) : (s.updGey x f).fcHeld = s.fcHeld := rfl
@[simp] theorem State.fcHeld_of_updExec (s : State) (x : Nat) (f : Exec → Exec) : (s.updExec x f).fcHeld = s.fcHeld := rfl
@[simp] theorem State.fcHeld_of_updPort (s : State) (i : Nat) (f : Port → Port) : (s.updPort i f).fcHeld = s.fcHeld := rfl
@[simp] theorem State.fcHeld_of_updCluster (s : State) (g : Nat) (f : Cluster → Cluster) : (s.updCluster g f).fcHeld = s.fcHeld := rfl
@[simp] theorem State.fcHeld_of_updMbx (s : State) (f : Mbx → Mbx) : (s.updMbx f).fcHeld = s.fcHeld := rfl
@[simp] theorem State.fcHeld_of_updRing (s : State) (n : Nat) (f : Ring → Ring) : (s.updRing n f).fcHeld = s.fcHeld := rfl
@[simp] theorem State.fcHeld_of_updFab (s : State) (f : Fab → Fab) : (s.updFab f).fcHeld = s.fcHeld := rfl
@[simp] theorem State.fcHeld_of_updRecov (s : State) (f : Recov → Recov) : (s.updRecov f).fcHeld = s.fcHeld := rfl
@[simp] theorem State.fcHeld_of_updCal (s : State) (f : Cal → Cal) : (s.updCal f).fcHeld = s.fcHeld := rfl
@[simp] theorem State.fcHeld_of_updDet (s : State) (f : Det → Det) : (s.updDet f).fcHeld = s.fcHeld := rfl
@[simp] theorem State.fcHeld_of_updTel (s : State) (f : Tel → Tel) : (s.updTel f).fcHeld = s.fcHeld := rfl
@[simp] theorem State.fcHeld_of_updEvr (s : State) (f : Evr → Evr) : (s.updEvr f).fcHeld = s.fcHeld := rfl
@[simp] theorem State.fcHeld_of_updId (s : State) (f : Ident → Ident) : (s.updId f).fcHeld = s.fcHeld := rfl
@[simp] theorem State.fcHeld_of_updFlash (s : State) (f : Flash → Flash) : (s.updFlash f).fcHeld = s.fcHeld := rfl
@[simp] theorem State.fcHeld_of_updMem (s : State) (f : Mem → Mem) : (s.updMem f).fcHeld = s.fcHeld := rfl
@[simp] theorem State.fcHeld_of_updGeyser (s : State) (f : Gey → Gey) : (s.updGeyser f).fcHeld = s.fcHeld := rfl
@[simp] theorem State.fcHeld_of_setCfg (s : State) (c : Cfg) : (s.setCfg c).fcHeld = s.fcHeld := rfl
@[simp] theorem State.fcHeld_of_updPorts (s : State) (f : KMap Port → KMap Port) : (s.updPorts f).fcHeld = s.fcHeld := rfl
@[simp] theorem State.fcHeld_of_updClus (s : State) (f : KMap Cluster → KMap Cluster) : (s.updClus f).fcHeld = s.fcHeld := rfl
@[simp] theorem State.fcHeld_of_updEvts (s : State) (f : KMap Nat → KMap Nat) : (s.updEvts f).fcHeld = s.fcHeld := rfl
@[simp] theorem State.fcHeld_of_spend (s : State) (n : Nat) : (s.spend n).fcHeld = s.fcHeld := rfl
@[simp] theorem State.fcHeld_of_updPins (s : State) (f : Pins → Pins) : (s.updPins f).fcHeld = s.fcHeld := rfl
@[simp] theorem State.fcHeld_of_updMgmt (s : State) (f : Mgmt → Mgmt) : (s.updMgmt f).fcHeld = s.fcHeld := rfl
@[simp] theorem State.fcHeld_of_updPwr (s : State) (f : Pwr → Pwr) : (s.updPwr f).fcHeld = s.fcHeld := rfl
@[simp] theorem State.fcHeld_of_updPwrCtx (s : State) (x : Nat) (f : PwrCtx → PwrCtx) : (s.updPwrCtx x f).fcHeld = s.fcHeld := rfl
@[simp] theorem State.fcHeld_of_updStage (s : State) (i : Nat) (f : Stage → Stage) : (s.updStage i f).fcHeld = s.fcHeld := rfl
@[simp] theorem State.fcHeld_of_setDom (s : State) (i : Nat) (d : DomSt) : (s.setDom i d).fcHeld = s.fcHeld := rfl
@[simp] theorem State.fcHeld_of_bump (s : State) (c : Ctr) (i n : Nat) : (s.bump c i n).fcHeld = s.fcHeld := rfl
@[simp] theorem State.fcHeld_of_emit (s : State) (e : Emit) : (s.emit e).fcHeld = s.fcHeld := rfl
@[simp] theorem State.fcHeld_of_sendCtrl (s : State) (a b c d e : Nat) (p : List Byte) : (s.sendCtrl a b c d e p).fcHeld = s.fcHeld := rfl
@[simp] theorem State.fcHeld_of_sendResp (s : State) (a b c d e : Nat) (p : Bool) : (s.sendResp a b c d e p).fcHeld = s.fcHeld := rfl
@[simp] theorem State.fcHeld_of_writeBytes (s : State) (a : Nat) (bs : List Byte) : (s.writeBytes a bs).fcHeld = s.fcHeld := rfl
@[simp] theorem State.fcHeld_of_clearRange (s : State) (a n : Nat) : (s.clearRange a n).fcHeld = s.fcHeld := rfl
@[simp] theorem State.fcHeld_of_withLog (s : State) (l : Log) : (s.withLog l).fcHeld = s.fcHeld := rfl
@[simp] theorem State.fcHeld_of_record (s : State) (v : Event) : (s.record v).fcHeld = s.fcHeld := rfl
@[simp] theorem State.fcHeld_of_vendor (s : State) (r : Req) (c k : Nat) (p : List Byte) : (s.vendor r c k p).fcHeld = s.fcHeld := rfl
@[simp] theorem State.fcHeld_of_w1c (s : State) (r : Reg) (i m : Nat) : (s.w1c r i m).fcHeld = s.fcHeld := rfl

/-! ### inRun -/

@[simp] theorem State.inRun_of_setCtx (s : State) (x : Nat) (c : Ctx) : (s.setCtx x c).inRun = s.inRun := rfl
@[simp] theorem State.inRun_of_updCtx (s : State) (x : Nat) (f : Ctx → Ctx) : (s.updCtx x f).inRun = s.inRun := rfl
@[simp] theorem State.inRun_of_updCoord (s : State) (x : Nat) (f : Coord → Coord) : (s.updCoord x f).inRun = s.inRun := rfl
@[simp] theorem State.inRun_of_updGey (s : State) (x : Nat) (f : GeyCtx → GeyCtx) : (s.updGey x f).inRun = s.inRun := rfl
@[simp] theorem State.inRun_of_updExec (s : State) (x : Nat) (f : Exec → Exec) : (s.updExec x f).inRun = s.inRun := rfl
@[simp] theorem State.inRun_of_updPort (s : State) (i : Nat) (f : Port → Port) : (s.updPort i f).inRun = s.inRun := rfl
@[simp] theorem State.inRun_of_updCluster (s : State) (g : Nat) (f : Cluster → Cluster) : (s.updCluster g f).inRun = s.inRun := rfl
@[simp] theorem State.inRun_of_updMbx (s : State) (f : Mbx → Mbx) : (s.updMbx f).inRun = s.inRun := rfl
@[simp] theorem State.inRun_of_updRing (s : State) (n : Nat) (f : Ring → Ring) : (s.updRing n f).inRun = s.inRun := rfl
@[simp] theorem State.inRun_of_updFab (s : State) (f : Fab → Fab) : (s.updFab f).inRun = s.inRun := rfl
@[simp] theorem State.inRun_of_updTime (s : State) (f : Time → Time) : (s.updTime f).inRun = s.inRun := rfl
@[simp] theorem State.inRun_of_updRecov (s : State) (f : Recov → Recov) : (s.updRecov f).inRun = s.inRun := rfl
@[simp] theorem State.inRun_of_updCal (s : State) (f : Cal → Cal) : (s.updCal f).inRun = s.inRun := rfl
@[simp] theorem State.inRun_of_updDet (s : State) (f : Det → Det) : (s.updDet f).inRun = s.inRun := rfl
@[simp] theorem State.inRun_of_updTel (s : State) (f : Tel → Tel) : (s.updTel f).inRun = s.inRun := rfl
@[simp] theorem State.inRun_of_updEvr (s : State) (f : Evr → Evr) : (s.updEvr f).inRun = s.inRun := rfl
@[simp] theorem State.inRun_of_updFlash (s : State) (f : Flash → Flash) : (s.updFlash f).inRun = s.inRun := rfl
@[simp] theorem State.inRun_of_updMem (s : State) (f : Mem → Mem) : (s.updMem f).inRun = s.inRun := rfl
@[simp] theorem State.inRun_of_updGeyser (s : State) (f : Gey → Gey) : (s.updGeyser f).inRun = s.inRun := rfl
@[simp] theorem State.inRun_of_setCfg (s : State) (c : Cfg) : (s.setCfg c).inRun = s.inRun := rfl
@[simp] theorem State.inRun_of_updPorts (s : State) (f : KMap Port → KMap Port) : (s.updPorts f).inRun = s.inRun := rfl
@[simp] theorem State.inRun_of_updClus (s : State) (f : KMap Cluster → KMap Cluster) : (s.updClus f).inRun = s.inRun := rfl
@[simp] theorem State.inRun_of_updEvts (s : State) (f : KMap Nat → KMap Nat) : (s.updEvts f).inRun = s.inRun := rfl
@[simp] theorem State.inRun_of_spend (s : State) (n : Nat) : (s.spend n).inRun = s.inRun := rfl
@[simp] theorem State.inRun_of_updPins (s : State) (f : Pins → Pins) : (s.updPins f).inRun = s.inRun := rfl
@[simp] theorem State.inRun_of_updMgmt (s : State) (f : Mgmt → Mgmt) : (s.updMgmt f).inRun = s.inRun := rfl
@[simp] theorem State.inRun_of_updPwr (s : State) (f : Pwr → Pwr) : (s.updPwr f).inRun = s.inRun := rfl
@[simp] theorem State.inRun_of_updPwrCtx (s : State) (x : Nat) (f : PwrCtx → PwrCtx) : (s.updPwrCtx x f).inRun = s.inRun := rfl
@[simp] theorem State.inRun_of_updStage (s : State) (i : Nat) (f : Stage → Stage) : (s.updStage i f).inRun = s.inRun := rfl
@[simp] theorem State.inRun_of_setDom (s : State) (i : Nat) (d : DomSt) : (s.setDom i d).inRun = s.inRun := rfl
@[simp] theorem State.inRun_of_updPtp (s : State) (i : Nat) (f : PtpPort → PtpPort) : (s.updPtp i f).inRun = s.inRun := rfl
@[simp] theorem State.inRun_of_bump (s : State) (c : Ctr) (i n : Nat) : (s.bump c i n).inRun = s.inRun := rfl
@[simp] theorem State.inRun_of_emit (s : State) (e : Emit) : (s.emit e).inRun = s.inRun := rfl
@[simp] theorem State.inRun_of_sendCtrl (s : State) (a b c d e : Nat) (p : List Byte) : (s.sendCtrl a b c d e p).inRun = s.inRun := rfl
@[simp] theorem State.inRun_of_sendResp (s : State) (a b c d e : Nat) (p : Bool) : (s.sendResp a b c d e p).inRun = s.inRun := rfl
@[simp] theorem State.inRun_of_writeBytes (s : State) (a : Nat) (bs : List Byte) : (s.writeBytes a bs).inRun = s.inRun := rfl
@[simp] theorem State.inRun_of_clearRange (s : State) (a n : Nat) : (s.clearRange a n).inRun = s.inRun := rfl
@[simp] theorem State.inRun_of_withLog (s : State) (l : Log) : (s.withLog l).inRun = s.inRun := rfl
@[simp] theorem State.inRun_of_record (s : State) (v : Event) : (s.record v).inRun = s.inRun := rfl
@[simp] theorem State.inRun_of_vendor (s : State) (r : Req) (c k : Nat) (p : List Byte) : (s.vendor r c k p).inRun = s.inRun := rfl
@[simp] theorem State.inRun_of_w1c (s : State) (r : Reg) (i m : Nat) : (s.w1c r i m).inRun = s.inRun := rfl

/-! ### locus -/

@[simp] theorem State.locus_of_setCtx (s : State) (x : Nat) (c : Ctx) : (s.setCtx x c).locus = s.locus := rfl
@[simp] theorem State.locus_of_updCtx (s : State) (x : Nat) (f : Ctx → Ctx) : (s.updCtx x f).locus = s.locus := rfl
@[simp] theorem State.locus_of_updCoord (s : State) (x : Nat) (f : Coord → Coord) : (s.updCoord x f).locus = s.locus := rfl
@[simp] theorem State.locus_of_updGey (s : State) (x : Nat) (f : GeyCtx → GeyCtx) : (s.updGey x f).locus = s.locus := rfl
@[simp] theorem State.locus_of_updExec (s : State) (x : Nat) (f : Exec → Exec) : (s.updExec x f).locus = s.locus := rfl
@[simp] theorem State.locus_of_updPort (s : State) (i : Nat) (f : Port → Port) : (s.updPort i f).locus = s.locus := rfl
@[simp] theorem State.locus_of_updCluster (s : State) (g : Nat) (f : Cluster → Cluster) : (s.updCluster g f).locus = s.locus := rfl
@[simp] theorem State.locus_of_updMbx (s : State) (f : Mbx → Mbx) : (s.updMbx f).locus = s.locus := rfl
@[simp] theorem State.locus_of_updRing (s : State) (n : Nat) (f : Ring → Ring) : (s.updRing n f).locus = s.locus := rfl
@[simp] theorem State.locus_of_updFab (s : State) (f : Fab → Fab) : (s.updFab f).locus = s.locus := rfl
@[simp] theorem State.locus_of_updTime (s : State) (f : Time → Time) : (s.updTime f).locus = s.locus := rfl
@[simp] theorem State.locus_of_updRecov (s : State) (f : Recov → Recov) : (s.updRecov f).locus = s.locus := rfl
@[simp] theorem State.locus_of_updCal (s : State) (f : Cal → Cal) : (s.updCal f).locus = s.locus := rfl
@[simp] theorem State.locus_of_updDet (s : State) (f : Det → Det) : (s.updDet f).locus = s.locus := rfl
@[simp] theorem State.locus_of_updTel (s : State) (f : Tel → Tel) : (s.updTel f).locus = s.locus := rfl
@[simp] theorem State.locus_of_updEvr (s : State) (f : Evr → Evr) : (s.updEvr f).locus = s.locus := rfl
@[simp] theorem State.locus_of_updFlash (s : State) (f : Flash → Flash) : (s.updFlash f).locus = s.locus := rfl
@[simp] theorem State.locus_of_updMem (s : State) (f : Mem → Mem) : (s.updMem f).locus = s.locus := rfl
@[simp] theorem State.locus_of_updGeyser (s : State) (f : Gey → Gey) : (s.updGeyser f).locus = s.locus := rfl
@[simp] theorem State.locus_of_setCfg (s : State) (c : Cfg) : (s.setCfg c).locus = s.locus := rfl
@[simp] theorem State.locus_of_updPorts (s : State) (f : KMap Port → KMap Port) : (s.updPorts f).locus = s.locus := rfl
@[simp] theorem State.locus_of_updClus (s : State) (f : KMap Cluster → KMap Cluster) : (s.updClus f).locus = s.locus := rfl
@[simp] theorem State.locus_of_updEvts (s : State) (f : KMap Nat → KMap Nat) : (s.updEvts f).locus = s.locus := rfl
@[simp] theorem State.locus_of_spend (s : State) (n : Nat) : (s.spend n).locus = s.locus := rfl
@[simp] theorem State.locus_of_updPins (s : State) (f : Pins → Pins) : (s.updPins f).locus = s.locus := rfl
@[simp] theorem State.locus_of_updMgmt (s : State) (f : Mgmt → Mgmt) : (s.updMgmt f).locus = s.locus := rfl
@[simp] theorem State.locus_of_updPwr (s : State) (f : Pwr → Pwr) : (s.updPwr f).locus = s.locus := rfl
@[simp] theorem State.locus_of_updPwrCtx (s : State) (x : Nat) (f : PwrCtx → PwrCtx) : (s.updPwrCtx x f).locus = s.locus := rfl
@[simp] theorem State.locus_of_updStage (s : State) (i : Nat) (f : Stage → Stage) : (s.updStage i f).locus = s.locus := rfl
@[simp] theorem State.locus_of_setDom (s : State) (i : Nat) (d : DomSt) : (s.setDom i d).locus = s.locus := rfl
@[simp] theorem State.locus_of_updPtp (s : State) (i : Nat) (f : PtpPort → PtpPort) : (s.updPtp i f).locus = s.locus := rfl
@[simp] theorem State.locus_of_bump (s : State) (c : Ctr) (i n : Nat) : (s.bump c i n).locus = s.locus := rfl
@[simp] theorem State.locus_of_emit (s : State) (e : Emit) : (s.emit e).locus = s.locus := rfl
@[simp] theorem State.locus_of_sendCtrl (s : State) (a b c d e : Nat) (p : List Byte) : (s.sendCtrl a b c d e p).locus = s.locus := rfl
@[simp] theorem State.locus_of_sendResp (s : State) (a b c d e : Nat) (p : Bool) : (s.sendResp a b c d e p).locus = s.locus := rfl
@[simp] theorem State.locus_of_writeBytes (s : State) (a : Nat) (bs : List Byte) : (s.writeBytes a bs).locus = s.locus := rfl
@[simp] theorem State.locus_of_clearRange (s : State) (a n : Nat) : (s.clearRange a n).locus = s.locus := rfl
@[simp] theorem State.locus_of_withLog (s : State) (l : Log) : (s.withLog l).locus = s.locus := rfl
@[simp] theorem State.locus_of_record (s : State) (v : Event) : (s.record v).locus = s.locus := rfl
@[simp] theorem State.locus_of_vendor (s : State) (r : Req) (c k : Nat) (p : List Byte) : (s.vendor r c k p).locus = s.locus := rfl
@[simp] theorem State.locus_of_w1c (s : State) (r : Reg) (i m : Nat) : (s.w1c r i m).locus = s.locus := rfl

/-! ### isCycle -/

@[simp] theorem State.isCycle_of_setCtx (s : State) (x : Nat) (c : Ctx) : (s.setCtx x c).isCycle = s.isCycle := rfl
@[simp] theorem State.isCycle_of_updCtx (s : State) (x : Nat) (f : Ctx → Ctx) : (s.updCtx x f).isCycle = s.isCycle := rfl
@[simp] theorem State.isCycle_of_updCoord (s : State) (x : Nat) (f : Coord → Coord) : (s.updCoord x f).isCycle = s.isCycle := rfl
@[simp] theorem State.isCycle_of_updGey (s : State) (x : Nat) (f : GeyCtx → GeyCtx) : (s.updGey x f).isCycle = s.isCycle := rfl
@[simp] theorem State.isCycle_of_updExec (s : State) (x : Nat) (f : Exec → Exec) : (s.updExec x f).isCycle = s.isCycle := rfl
@[simp] theorem State.isCycle_of_updPort (s : State) (i : Nat) (f : Port → Port) : (s.updPort i f).isCycle = s.isCycle := rfl
@[simp] theorem State.isCycle_of_updCluster (s : State) (g : Nat) (f : Cluster → Cluster) : (s.updCluster g f).isCycle = s.isCycle := rfl
@[simp] theorem State.isCycle_of_updMbx (s : State) (f : Mbx → Mbx) : (s.updMbx f).isCycle = s.isCycle := rfl
@[simp] theorem State.isCycle_of_updRing (s : State) (n : Nat) (f : Ring → Ring) : (s.updRing n f).isCycle = s.isCycle := rfl
@[simp] theorem State.isCycle_of_updFab (s : State) (f : Fab → Fab) : (s.updFab f).isCycle = s.isCycle := rfl
@[simp] theorem State.isCycle_of_updTime (s : State) (f : Time → Time) : (s.updTime f).isCycle = s.isCycle := rfl
@[simp] theorem State.isCycle_of_updRecov (s : State) (f : Recov → Recov) : (s.updRecov f).isCycle = s.isCycle := rfl
@[simp] theorem State.isCycle_of_updCal (s : State) (f : Cal → Cal) : (s.updCal f).isCycle = s.isCycle := rfl
@[simp] theorem State.isCycle_of_updTel (s : State) (f : Tel → Tel) : (s.updTel f).isCycle = s.isCycle := rfl
@[simp] theorem State.isCycle_of_updEvr (s : State) (f : Evr → Evr) : (s.updEvr f).isCycle = s.isCycle := rfl
@[simp] theorem State.isCycle_of_updId (s : State) (f : Ident → Ident) : (s.updId f).isCycle = s.isCycle := rfl
@[simp] theorem State.isCycle_of_updFlash (s : State) (f : Flash → Flash) : (s.updFlash f).isCycle = s.isCycle := rfl
@[simp] theorem State.isCycle_of_updMem (s : State) (f : Mem → Mem) : (s.updMem f).isCycle = s.isCycle := rfl
@[simp] theorem State.isCycle_of_updGeyser (s : State) (f : Gey → Gey) : (s.updGeyser f).isCycle = s.isCycle := rfl
@[simp] theorem State.isCycle_of_updPorts (s : State) (f : KMap Port → KMap Port) : (s.updPorts f).isCycle = s.isCycle := rfl
@[simp] theorem State.isCycle_of_updClus (s : State) (f : KMap Cluster → KMap Cluster) : (s.updClus f).isCycle = s.isCycle := rfl
@[simp] theorem State.isCycle_of_updEvts (s : State) (f : KMap Nat → KMap Nat) : (s.updEvts f).isCycle = s.isCycle := rfl
@[simp] theorem State.isCycle_of_spend (s : State) (n : Nat) : (s.spend n).isCycle = s.isCycle := rfl
@[simp] theorem State.isCycle_of_updPins (s : State) (f : Pins → Pins) : (s.updPins f).isCycle = s.isCycle := rfl
@[simp] theorem State.isCycle_of_updMgmt (s : State) (f : Mgmt → Mgmt) : (s.updMgmt f).isCycle = s.isCycle := rfl
@[simp] theorem State.isCycle_of_updPwr (s : State) (f : Pwr → Pwr) : (s.updPwr f).isCycle = s.isCycle := rfl
@[simp] theorem State.isCycle_of_updPwrCtx (s : State) (x : Nat) (f : PwrCtx → PwrCtx) : (s.updPwrCtx x f).isCycle = s.isCycle := rfl
@[simp] theorem State.isCycle_of_updStage (s : State) (i : Nat) (f : Stage → Stage) : (s.updStage i f).isCycle = s.isCycle := rfl
@[simp] theorem State.isCycle_of_setDom (s : State) (i : Nat) (d : DomSt) : (s.setDom i d).isCycle = s.isCycle := rfl
@[simp] theorem State.isCycle_of_updPtp (s : State) (i : Nat) (f : PtpPort → PtpPort) : (s.updPtp i f).isCycle = s.isCycle := rfl
@[simp] theorem State.isCycle_of_bump (s : State) (c : Ctr) (i n : Nat) : (s.bump c i n).isCycle = s.isCycle := rfl
@[simp] theorem State.isCycle_of_emit (s : State) (e : Emit) : (s.emit e).isCycle = s.isCycle := rfl
@[simp] theorem State.isCycle_of_sendCtrl (s : State) (a b c d e : Nat) (p : List Byte) : (s.sendCtrl a b c d e p).isCycle = s.isCycle := rfl
@[simp] theorem State.isCycle_of_sendResp (s : State) (a b c d e : Nat) (p : Bool) : (s.sendResp a b c d e p).isCycle = s.isCycle := rfl
@[simp] theorem State.isCycle_of_writeBytes (s : State) (a : Nat) (bs : List Byte) : (s.writeBytes a bs).isCycle = s.isCycle := rfl
@[simp] theorem State.isCycle_of_clearRange (s : State) (a n : Nat) : (s.clearRange a n).isCycle = s.isCycle := rfl
@[simp] theorem State.isCycle_of_withLog (s : State) (l : Log) : (s.withLog l).isCycle = s.isCycle := rfl
@[simp] theorem State.isCycle_of_record (s : State) (v : Event) : (s.record v).isCycle = s.isCycle := rfl
@[simp] theorem State.isCycle_of_vendor (s : State) (r : Req) (c k : Nat) (p : List Byte) : (s.vendor r c k p).isCycle = s.isCycle := rfl
@[simp] theorem State.isCycle_of_w1c (s : State) (r : Reg) (i m : Nat) : (s.w1c r i m).isCycle = s.isCycle := rfl

/-! ### byte -/

@[simp] theorem State.byte_of_setCtx (s : State) (x : Nat) (c : Ctx) (y_ : Nat) : (s.setCtx x c).byte y_ = s.byte y_ := rfl
@[simp] theorem State.byte_of_updCtx (s : State) (x : Nat) (f : Ctx → Ctx) (y_ : Nat) : (s.updCtx x f).byte y_ = s.byte y_ := rfl
@[simp] theorem State.byte_of_updCoord (s : State) (x : Nat) (f : Coord → Coord) (y_ : Nat) : (s.updCoord x f).byte y_ = s.byte y_ := rfl
@[simp] theorem State.byte_of_updGey (s : State) (x : Nat) (f : GeyCtx → GeyCtx) (y_ : Nat) : (s.updGey x f).byte y_ = s.byte y_ := rfl
@[simp] theorem State.byte_of_updExec (s : State) (x : Nat) (f : Exec → Exec) (y_ : Nat) : (s.updExec x f).byte y_ = s.byte y_ := rfl
@[simp] theorem State.byte_of_updPort (s : State) (i : Nat) (f : Port → Port) (y_ : Nat) : (s.updPort i f).byte y_ = s.byte y_ := rfl
@[simp] theorem State.byte_of_updCluster (s : State) (g : Nat) (f : Cluster → Cluster) (y_ : Nat) : (s.updCluster g f).byte y_ = s.byte y_ := rfl
@[simp] theorem State.byte_of_updMbx (s : State) (f : Mbx → Mbx) (y_ : Nat) : (s.updMbx f).byte y_ = s.byte y_ := rfl
@[simp] theorem State.byte_of_updRing (s : State) (n : Nat) (f : Ring → Ring) (y_ : Nat) : (s.updRing n f).byte y_ = s.byte y_ := rfl
@[simp] theorem State.byte_of_updFab (s : State) (f : Fab → Fab) (y_ : Nat) : (s.updFab f).byte y_ = s.byte y_ := rfl
@[simp] theorem State.byte_of_updTime (s : State) (f : Time → Time) (y_ : Nat) : (s.updTime f).byte y_ = s.byte y_ := rfl
@[simp] theorem State.byte_of_updRecov (s : State) (f : Recov → Recov) (y_ : Nat) : (s.updRecov f).byte y_ = s.byte y_ := rfl
@[simp] theorem State.byte_of_updCal (s : State) (f : Cal → Cal) (y_ : Nat) : (s.updCal f).byte y_ = s.byte y_ := rfl
@[simp] theorem State.byte_of_updDet (s : State) (f : Det → Det) (y_ : Nat) : (s.updDet f).byte y_ = s.byte y_ := rfl
@[simp] theorem State.byte_of_updTel (s : State) (f : Tel → Tel) (y_ : Nat) : (s.updTel f).byte y_ = s.byte y_ := rfl
@[simp] theorem State.byte_of_updEvr (s : State) (f : Evr → Evr) (y_ : Nat) : (s.updEvr f).byte y_ = s.byte y_ := rfl
@[simp] theorem State.byte_of_updId (s : State) (f : Ident → Ident) (y_ : Nat) : (s.updId f).byte y_ = s.byte y_ := rfl
@[simp] theorem State.byte_of_updFlash (s : State) (f : Flash → Flash) (y_ : Nat) : (s.updFlash f).byte y_ = s.byte y_ := rfl
@[simp] theorem State.byte_of_updGeyser (s : State) (f : Gey → Gey) (y_ : Nat) : (s.updGeyser f).byte y_ = s.byte y_ := rfl
@[simp] theorem State.byte_of_setCfg (s : State) (c : Cfg) (y_ : Nat) : (s.setCfg c).byte y_ = s.byte y_ := rfl
@[simp] theorem State.byte_of_updPorts (s : State) (f : KMap Port → KMap Port) (y_ : Nat) : (s.updPorts f).byte y_ = s.byte y_ := rfl
@[simp] theorem State.byte_of_updClus (s : State) (f : KMap Cluster → KMap Cluster) (y_ : Nat) : (s.updClus f).byte y_ = s.byte y_ := rfl
@[simp] theorem State.byte_of_updEvts (s : State) (f : KMap Nat → KMap Nat) (y_ : Nat) : (s.updEvts f).byte y_ = s.byte y_ := rfl
@[simp] theorem State.byte_of_spend (s : State) (n : Nat) (y_ : Nat) : (s.spend n).byte y_ = s.byte y_ := rfl
@[simp] theorem State.byte_of_updPins (s : State) (f : Pins → Pins) (y_ : Nat) : (s.updPins f).byte y_ = s.byte y_ := rfl
@[simp] theorem State.byte_of_updMgmt (s : State) (f : Mgmt → Mgmt) (y_ : Nat) : (s.updMgmt f).byte y_ = s.byte y_ := rfl
@[simp] theorem State.byte_of_updPwr (s : State) (f : Pwr → Pwr) (y_ : Nat) : (s.updPwr f).byte y_ = s.byte y_ := rfl
@[simp] theorem State.byte_of_updPwrCtx (s : State) (x : Nat) (f : PwrCtx → PwrCtx) (y_ : Nat) : (s.updPwrCtx x f).byte y_ = s.byte y_ := rfl
@[simp] theorem State.byte_of_updStage (s : State) (i : Nat) (f : Stage → Stage) (y_ : Nat) : (s.updStage i f).byte y_ = s.byte y_ := rfl
@[simp] theorem State.byte_of_setDom (s : State) (i : Nat) (d : DomSt) (y_ : Nat) : (s.setDom i d).byte y_ = s.byte y_ := rfl
@[simp] theorem State.byte_of_updPtp (s : State) (i : Nat) (f : PtpPort → PtpPort) (y_ : Nat) : (s.updPtp i f).byte y_ = s.byte y_ := rfl
@[simp] theorem State.byte_of_bump (s : State) (c : Ctr) (i n : Nat) (y_ : Nat) : (s.bump c i n).byte y_ = s.byte y_ := rfl
@[simp] theorem State.byte_of_emit (s : State) (e : Emit) (y_ : Nat) : (s.emit e).byte y_ = s.byte y_ := rfl
@[simp] theorem State.byte_of_sendCtrl (s : State) (a b c d e : Nat) (p : List Byte) (y_ : Nat) : (s.sendCtrl a b c d e p).byte y_ = s.byte y_ := rfl
@[simp] theorem State.byte_of_sendResp (s : State) (a b c d e : Nat) (p : Bool) (y_ : Nat) : (s.sendResp a b c d e p).byte y_ = s.byte y_ := rfl
@[simp] theorem State.byte_of_withLog (s : State) (l : Log) (y_ : Nat) : (s.withLog l).byte y_ = s.byte y_ := rfl
@[simp] theorem State.byte_of_record (s : State) (v : Event) (y_ : Nat) : (s.record v).byte y_ = s.byte y_ := rfl
@[simp] theorem State.byte_of_vendor (s : State) (r : Req) (c k : Nat) (p : List Byte) (y_ : Nat) : (s.vendor r c k p).byte y_ = s.byte y_ := rfl
@[simp] theorem State.byte_of_w1c (s : State) (r : Reg) (i m : Nat) (y_ : Nat) : (s.w1c r i m).byte y_ = s.byte y_ := rfl

/-! ### liveCtxs -/

@[simp] theorem State.liveCtxs_of_updPort (s : State) (i : Nat) (f : Port → Port) : (s.updPort i f).liveCtxs = s.liveCtxs := rfl
@[simp] theorem State.liveCtxs_of_updCluster (s : State) (g : Nat) (f : Cluster → Cluster) : (s.updCluster g f).liveCtxs = s.liveCtxs := rfl
@[simp] theorem State.liveCtxs_of_updMbx (s : State) (f : Mbx → Mbx) : (s.updMbx f).liveCtxs = s.liveCtxs := rfl
@[simp] theorem State.liveCtxs_of_updRing (s : State) (n : Nat) (f : Ring → Ring) : (s.updRing n f).liveCtxs = s.liveCtxs := rfl
@[simp] theorem State.liveCtxs_of_updFab (s : State) (f : Fab → Fab) : (s.updFab f).liveCtxs = s.liveCtxs := rfl
@[simp] theorem State.liveCtxs_of_updTime (s : State) (f : Time → Time) : (s.updTime f).liveCtxs = s.liveCtxs := rfl
@[simp] theorem State.liveCtxs_of_updRecov (s : State) (f : Recov → Recov) : (s.updRecov f).liveCtxs = s.liveCtxs := rfl
@[simp] theorem State.liveCtxs_of_updCal (s : State) (f : Cal → Cal) : (s.updCal f).liveCtxs = s.liveCtxs := rfl
@[simp] theorem State.liveCtxs_of_updDet (s : State) (f : Det → Det) : (s.updDet f).liveCtxs = s.liveCtxs := rfl
@[simp] theorem State.liveCtxs_of_updTel (s : State) (f : Tel → Tel) : (s.updTel f).liveCtxs = s.liveCtxs := rfl
@[simp] theorem State.liveCtxs_of_updEvr (s : State) (f : Evr → Evr) : (s.updEvr f).liveCtxs = s.liveCtxs := rfl
@[simp] theorem State.liveCtxs_of_updId (s : State) (f : Ident → Ident) : (s.updId f).liveCtxs = s.liveCtxs := rfl
@[simp] theorem State.liveCtxs_of_updFlash (s : State) (f : Flash → Flash) : (s.updFlash f).liveCtxs = s.liveCtxs := rfl
@[simp] theorem State.liveCtxs_of_updMem (s : State) (f : Mem → Mem) : (s.updMem f).liveCtxs = s.liveCtxs := rfl
@[simp] theorem State.liveCtxs_of_updGeyser (s : State) (f : Gey → Gey) : (s.updGeyser f).liveCtxs = s.liveCtxs := rfl
@[simp] theorem State.liveCtxs_of_setCfg (s : State) (c : Cfg) : (s.setCfg c).liveCtxs = s.liveCtxs := rfl
@[simp] theorem State.liveCtxs_of_updPorts (s : State) (f : KMap Port → KMap Port) : (s.updPorts f).liveCtxs = s.liveCtxs := rfl
@[simp] theorem State.liveCtxs_of_updClus (s : State) (f : KMap Cluster → KMap Cluster) : (s.updClus f).liveCtxs = s.liveCtxs := rfl
@[simp] theorem State.liveCtxs_of_updEvts (s : State) (f : KMap Nat → KMap Nat) : (s.updEvts f).liveCtxs = s.liveCtxs := rfl
@[simp] theorem State.liveCtxs_of_spend (s : State) (n : Nat) : (s.spend n).liveCtxs = s.liveCtxs := rfl
@[simp] theorem State.liveCtxs_of_updPins (s : State) (f : Pins → Pins) : (s.updPins f).liveCtxs = s.liveCtxs := rfl
@[simp] theorem State.liveCtxs_of_updMgmt (s : State) (f : Mgmt → Mgmt) : (s.updMgmt f).liveCtxs = s.liveCtxs := rfl
@[simp] theorem State.liveCtxs_of_updPwr (s : State) (f : Pwr → Pwr) : (s.updPwr f).liveCtxs = s.liveCtxs := rfl
@[simp] theorem State.liveCtxs_of_updPwrCtx (s : State) (x : Nat) (f : PwrCtx → PwrCtx) : (s.updPwrCtx x f).liveCtxs = s.liveCtxs := rfl
@[simp] theorem State.liveCtxs_of_updStage (s : State) (i : Nat) (f : Stage → Stage) : (s.updStage i f).liveCtxs = s.liveCtxs := rfl
@[simp] theorem State.liveCtxs_of_setDom (s : State) (i : Nat) (d : DomSt) : (s.setDom i d).liveCtxs = s.liveCtxs := rfl
@[simp] theorem State.liveCtxs_of_updPtp (s : State) (i : Nat) (f : PtpPort → PtpPort) : (s.updPtp i f).liveCtxs = s.liveCtxs := rfl
@[simp] theorem State.liveCtxs_of_bump (s : State) (c : Ctr) (i n : Nat) : (s.bump c i n).liveCtxs = s.liveCtxs := rfl
@[simp] theorem State.liveCtxs_of_emit (s : State) (e : Emit) : (s.emit e).liveCtxs = s.liveCtxs := rfl
@[simp] theorem State.liveCtxs_of_sendCtrl (s : State) (a b c d e : Nat) (p : List Byte) : (s.sendCtrl a b c d e p).liveCtxs = s.liveCtxs := rfl
@[simp] theorem State.liveCtxs_of_sendResp (s : State) (a b c d e : Nat) (p : Bool) : (s.sendResp a b c d e p).liveCtxs = s.liveCtxs := rfl
@[simp] theorem State.liveCtxs_of_writeBytes (s : State) (a : Nat) (bs : List Byte) : (s.writeBytes a bs).liveCtxs = s.liveCtxs := rfl
@[simp] theorem State.liveCtxs_of_clearRange (s : State) (a n : Nat) : (s.clearRange a n).liveCtxs = s.liveCtxs := rfl
@[simp] theorem State.liveCtxs_of_withLog (s : State) (l : Log) : (s.withLog l).liveCtxs = s.liveCtxs := rfl
@[simp] theorem State.liveCtxs_of_record (s : State) (v : Event) : (s.record v).liveCtxs = s.liveCtxs := rfl
@[simp] theorem State.liveCtxs_of_vendor (s : State) (r : Req) (c k : Nat) (p : List Byte) : (s.vendor r c k p).liveCtxs = s.liveCtxs := rfl
@[simp] theorem State.liveCtxs_of_w1c (s : State) (r : Reg) (i m : Nat) : (s.w1c r i m).liveCtxs = s.liveCtxs := rfl

end Sys2Proof.Machine
end

