-- ==== Sys2Proof/Laws/Tables.lean ====
section
/-!
SUPPORT. Sparse tables: reading after storing, removing and changing; and the indexed parts of the state after their own updates.
-/
namespace Sys2Proof

theorem KMap.find_put {α : Type} (m : KMap α) (q k : Nat) (w : α) :
    KMap.find (KMap.put m q w) k = if k = q then some w else KMap.find m k := by
  induction m with
  | nil => simp [KMap.put, KMap.find]
  | cons e m ih =>
    obtain ⟨a, v⟩ := e
    by_cases h1 : q = a
    · subst h1; by_cases hk : k = q <;> simp [KMap.put, KMap.find, hk]
    · by_cases h2 : q < a
      · simp [KMap.put, KMap.find, h1, h2]
      · simp only [KMap.put, h1, h2, if_false, KMap.find, ih]
        by_cases hk : k = a
        · subst hk; simp [Ne.symm h1]
        · simp [hk]

theorem KMap.getD_put {α : Type} (m : KMap α) (q k : Nat) (w d : α) :
    KMap.getD (KMap.put m q w) k d = if k = q then w else KMap.getD m k d := by
  simp only [KMap.getD, KMap.find_put]; split <;> rfl

@[simp] theorem KMap.getD_put_self {α : Type} (m : KMap α) (q : Nat) (w d : α) : KMap.getD (KMap.put m q w) q d = w := by
  simp [KMap.getD_put]

theorem KMap.getD_put_ne {α : Type} (m : KMap α) {q k : Nat} (w d : α) (h : k ≠ q) :
    KMap.getD (KMap.put m q w) k d = KMap.getD m k d := by simp [KMap.getD_put, h]

@[simp] theorem KMap.find_put_self {α : Type} (m : KMap α) (q : Nat) (w : α) : KMap.find (KMap.put m q w) q = some w := by
  simp [KMap.find_put]

theorem KMap.find_del {α : Type} (m : KMap α) (q k : Nat) : KMap.find (KMap.del m q) k = if k = q then none else KMap.find m k := by
  induction m with
  | nil => simp [KMap.del, KMap.find]
  | cons e m ih =>
    obtain ⟨a, v⟩ := e
    simp only [KMap.del, List.filter_cons] at ih ⊢
    by_cases h1 : a = q
    · subst h1
      simp only [bne_self_eq_false, Bool.false_eq_true, if_false, ih, KMap.find]
      split <;> simp_all
    · simp only [bne_iff_ne, ne_eq, h1, not_false_eq_true, if_true, KMap.find, ih]
      by_cases hk : k = a
      · subst hk; simp [h1]
      · simp [hk]

@[simp] theorem KMap.find_del_self {α : Type} (m : KMap α) (q : Nat) : KMap.find (KMap.del m q) q = none := by simp [KMap.find_del]

/-- A table stays sorted when a value is stored. -/
theorem KMap.sorted_put {α : Type} (m : KMap α) (q : Nat) (w : α) (h : KMap.sorted m = true) : KMap.sorted (KMap.put m q w) = true := by
  induction m with
  | nil => rfl
  | cons e m ih =>
    obtain ⟨a, v⟩ := e
    have hm : KMap.sorted m = true := by
      cases m with
      | nil => rfl
      | cons b m => simp only [KMap.sorted, Bool.and_eq_true] at h; exact h.2
    have hi := ih hm
    by_cases h1 : q = a
    · subst h1
      cases m with
      | nil => simp [KMap.put, KMap.sorted]
      | cons b m => simpa [KMap.put, KMap.sorted] using h
    · by_cases h2 : q < a
      · simp [KMap.put, h1, h2, KMap.sorted, h]
      · simp only [KMap.put, h1, h2, if_false]
        have ha : a < q := by omega
        cases m with
        | nil => simp [KMap.put, KMap.sorted, ha]
        | cons b m =>
          obtain ⟨c, u⟩ := b
          simp only [KMap.sorted, Bool.and_eq_true, decide_eq_true_eq] at h
          by_cases h3 : q = c
          · subst h3; simp only [KMap.put, if_true, KMap.sorted, Bool.and_eq_true, decide_eq_true_eq] at hi ⊢; exact ⟨ha, hi⟩
          · by_cases h4 : q < c
            · simp only [KMap.put, h3, h4, if_false, if_true, KMap.sorted, Bool.and_eq_true, decide_eq_true_eq] at hi ⊢
              exact ⟨ha, by simpa using h.2⟩
            · simp only [KMap.put, h3, h4, if_false, KMap.sorted, Bool.and_eq_true, decide_eq_true_eq] at hi ⊢
              exact ⟨h.1, hi⟩

end Sys2Proof

namespace Sys2Proof.Machine

/-! ### An indexed part after its own update -/

@[simp] theorem State.ctx_updCtx_self (s : State) (x : Nat) (f : Ctx → Ctx) : (s.updCtx x f).ctx x = f (s.ctx x) := by
  simp [State.ctx, State.updCtx, State.setCtx]
theorem State.ctx_updCtx (s : State) (x y : Nat) (f : Ctx → Ctx) : (s.updCtx x f).ctx y = if y = x then f (s.ctx x) else s.ctx y := by
  simp [State.ctx, State.updCtx, State.setCtx, KMap.getD_put]
@[simp] theorem State.ctx_setCtx_self (s : State) (x : Nat) (c : Ctx) : (s.setCtx x c).ctx x = c := by simp [State.ctx, State.setCtx]
@[simp] theorem State.ctx_updCoord_self (s : State) (x : Nat) (f : Coord → Coord) :
    (s.updCoord x f).ctx x = { s.ctx x with coord := f (s.ctx x).coord } := by simp [State.updCoord]
@[simp] theorem State.ctx_updGey_self (s : State) (x : Nat) (f : GeyCtx → GeyCtx) :
    (s.updGey x f).ctx x = { s.ctx x with gey := f (s.ctx x).gey } := by simp [State.updGey]
@[simp] theorem State.ctx_updExec_self (s : State) (x : Nat) (f : Exec → Exec) :
    (s.updExec x f).ctx x = { s.ctx x with exec := f (s.ctx x).exec } := by simp [State.updExec]
@[simp] theorem State.port_updPort_self (s : State) (i : Nat) (f : Port → Port) : (s.updPort i f).port i = f (s.port i) := by
  simp [State.port, State.updPort]
theorem State.port_updPort (s : State) (i j : Nat) (f : Port → Port) : (s.updPort i f).port j = if j = i then f (s.port i) else s.port j := by
  simp [State.port, State.updPort, KMap.getD_put]
@[simp] theorem State.cluster_updCluster_self (s : State) (g : Nat) (f : Cluster → Cluster) : (s.updCluster g f).cluster g = f (s.cluster g) := by
  simp [State.cluster, State.updCluster]
theorem State.cluster_updCluster (s : State) (g k : Nat) (f : Cluster → Cluster) :
    (s.updCluster g f).cluster k = if k = g then f (s.cluster g) else s.cluster k := by
  simp [State.cluster, State.updCluster, KMap.getD_put]
@[simp] theorem State.ring_updRing_self (s : State) (n : Nat) (f : Ring → Ring) : (s.updRing n f).ring n = f (s.ring n) := by
  simp [State.ring, State.updRing]
theorem State.ring_updRing (s : State) (n k : Nat) (f : Ring → Ring) : (s.updRing n f).ring k = if k = n then f (s.ring n) else s.ring k := by
  simp [State.ring, State.updRing, KMap.getD_put]
@[simp] theorem State.pwrCtx_updPwrCtx_self (s : State) (x : Nat) (f : PwrCtx → PwrCtx) : (s.updPwrCtx x f).pwrCtx x = f (s.pwrCtx x) := by
  simp [State.pwrCtx, State.updPwrCtx, State.updPwr]
@[simp] theorem State.stage_updStage_self (s : State) (i : Nat) (f : Stage → Stage) : (s.updStage i f).stage i = f (s.stage i) := by
  simp [State.stage, State.updStage, State.updPwr]
@[simp] theorem State.dom_setDom_self (s : State) (i : Nat) (d : DomSt) : (s.setDom i d).dom i = d := by
  simp [State.dom, State.setDom, State.updPwr]
@[simp] theorem State.ptp_updPtp_self (s : State) (i : Nat) (f : PtpPort → PtpPort) : (s.updPtp i f).ptp i = f (s.ptp i) := by
  simp [State.ptp, State.updPtp, State.updTime]

/-! ### An indexed part after the update of another -/

theorem State.ctx_updCtx_ne (s : State) {x y : Nat} (f : Ctx → Ctx) (h : y ≠ x) : (s.updCtx x f).ctx y = s.ctx y := by
  rw [State.ctx_updCtx, if_neg h]
theorem State.ctx_setCtx_ne (s : State) {x y : Nat} (c : Ctx) (h : y ≠ x) : (s.setCtx x c).ctx y = s.ctx y := by
  simp [State.ctx, State.setCtx, KMap.getD_put, h]
theorem State.ctx_updCoord_ne (s : State) {x y : Nat} (f : Coord → Coord) (h : y ≠ x) : (s.updCoord x f).ctx y = s.ctx y :=
  s.ctx_updCtx_ne _ h
theorem State.ctx_updGey_ne (s : State) {x y : Nat} (f : GeyCtx → GeyCtx) (h : y ≠ x) : (s.updGey x f).ctx y = s.ctx y :=
  s.ctx_updCtx_ne _ h
theorem State.ctx_updExec_ne (s : State) {x y : Nat} (f : Exec → Exec) (h : y ≠ x) : (s.updExec x f).ctx y = s.ctx y :=
  s.ctx_updCtx_ne _ h
theorem State.port_updPort_ne (s : State) {i j : Nat} (f : Port → Port) (h : j ≠ i) : (s.updPort i f).port j = s.port j := by
  rw [State.port_updPort, if_neg h]
theorem State.cluster_updCluster_ne (s : State) {g k : Nat} (f : Cluster → Cluster) (h : k ≠ g) : (s.updCluster g f).cluster k = s.cluster k := by
  rw [State.cluster_updCluster, if_neg h]
theorem State.ring_updRing_ne (s : State) {n k : Nat} (f : Ring → Ring) (h : k ≠ n) : (s.updRing n f).ring k = s.ring k := by
  rw [State.ring_updRing, if_neg h]
theorem State.pwrCtx_updPwrCtx_ne (s : State) {x y : Nat} (f : PwrCtx → PwrCtx) (h : y ≠ x) : (s.updPwrCtx x f).pwrCtx y = s.pwrCtx y := by
  simp [State.pwrCtx, State.updPwrCtx, State.updPwr, KMap.getD_put, h]
theorem State.stage_updStage_ne (s : State) {i j : Nat} (f : Stage → Stage) (h : j ≠ i) : (s.updStage i f).stage j = s.stage j := by
  simp [State.stage, State.updStage, State.updPwr, KMap.getD_put, h]
theorem State.dom_setDom_ne (s : State) {i j : Nat} (d : DomSt) (h : j ≠ i) : (s.setDom i d).dom j = s.dom j := by
  simp [State.dom, State.setDom, State.updPwr, KMap.getD_put, h]
theorem State.ptp_updPtp_ne (s : State) {i j : Nat} (f : PtpPort → PtpPort) (h : j ≠ i) : (s.updPtp i f).ptp j = s.ptp j := by
  simp [State.ptp, State.updPtp, State.updTime, KMap.getD_put, h]

/-! ### Counters -/

@[simp] theorem State.ctr_bump_self (s : State) (c : Ctr) (i n : Nat) : (s.bump c i n).ctr c i = c.next (s.ctr c i) n := by
  simp [State.ctr, State.bump, ctrAdd, ctrGet]

/-- Two counters of instances below 2^24 never share a place. -/
theorem Ctr.key_inj (c d : Ctr) (i j : Nat) (hi : i < 2 ^ 24) (hj : j < 2 ^ 24) (h : c.key i = d.key j) : c = d ∧ i = j := by
  have h2 : c.ctorIdx = d.ctorIdx ∧ i = j := by simp only [Ctr.key] at h; omega
  exact ⟨by rw [← Ctr.ofNat_ctorIdx c, h2.1, Ctr.ofNat_ctorIdx], h2.2⟩

end Sys2Proof.Machine
end

