-- ==== Sys2Proof/Laws/BitLaws.lean ====
section
/-!
SUPPORT. Single bits: setting one, clearing those a write of ones names.
-/
namespace Sys2Proof
open Machine

/-- One bit set, the others as they were. -/
theorem testBit_setBit (n i j : Nat) (b : Bool) : (setBit n i b).testBit j = if j = i then b else n.testBit j := by
  unfold setBit
  have hr : n % 2 ^ i < 2 ^ i := Nat.mod_lt _ (Nat.two_pow_pos i)
  have hn : n = 2 ^ i * (n / 2 ^ i) + n % 2 ^ i := (Nat.div_add_mod n (2 ^ i)).symm
  have h0 : n.testBit i = (n / 2 ^ i).testBit 0 := by rw [Nat.testBit_div_two_pow, Nat.zero_add]
  split
  · next h =>
    split
    · next e => rw [e]; exact eq_of_beq h
    · rfl
  · next h =>
    have h : n.testBit i ≠ b := fun q => h (by rw [q]; exact beq_self_eq_true b)
    generalize n / 2 ^ i = a at *
    generalize n % 2 ^ i = r at *
    have hb : ∀ c, (2 ^ i * c + r).testBit j = if j < i then r.testBit j else c.testBit (j - i) := fun c => Nat.testBit_two_pow_mul_add c hr j
    cases b with
    | true =>
      have ha : a % 2 = 0 := by
        have : a.testBit 0 = false := by rw [← h0]; exact Bool.eq_false_iff.2 h
        rw [Nat.testBit_zero] at this; simpa using this
      have e : n + 2 ^ i = 2 ^ i * (a + 1) + r := by rw [hn, Nat.mul_add]; omega
      rw [if_pos rfl, e, hb, hn, hb]
      by_cases q : j = i
      · rw [if_neg (by omega), if_pos q, q, Nat.sub_self, Nat.testBit_zero]; simp; omega
      · rw [if_neg q]
        split
        · rfl
        · obtain ⟨k, hk⟩ : ∃ k, j - i = k + 1 := ⟨j - i - 1, by omega⟩
          rw [hk, Nat.testBit_succ, Nat.testBit_succ, show (a + 1) / 2 = a / 2 by omega]
    | false =>
      have ha : a % 2 = 1 := by
        have : a.testBit 0 = true := by rw [← h0]; exact eq_true_of_ne_false h
        rw [Nat.testBit_zero] at this; simpa using this
      obtain ⟨c, rfl⟩ : ∃ c, a = c + 1 := ⟨a - 1, by omega⟩
      have e : n - 2 ^ i = 2 ^ i * c + r := by rw [hn, Nat.mul_add]; omega
      rw [if_neg (by decide), e, hb, hn, hb]
      by_cases q : j = i
      · rw [if_neg (by omega), if_pos q, q, Nat.sub_self, Nat.testBit_zero]; simp; omega
      · rw [if_neg q]
        split
        · rfl
        · obtain ⟨k, hk⟩ : ∃ k, j - i = k + 1 := ⟨j - i - 1, by omega⟩
          rw [hk, Nat.testBit_succ, Nat.testBit_succ, show (c + 1) / 2 = c / 2 by omega]

theorem foldl_clear (mask : Nat) (l : List Nat) (v b : Nat) :
    (l.foldl (fun v b => if mask.testBit b then setBit v b false else v) v).testBit b = (v.testBit b && !(mask.testBit b && l.contains b)) := by
  induction l generalizing v with
  | nil => simp
  | cons a l ih =>
    rw [List.foldl_cons, ih]
    by_cases e : b = a
    · subst e
      cases hm : mask.testBit b <;> simp [testBit_setBit]
    · cases hm : mask.testBit a <;> simp [testBit_setBit, e]

end Sys2Proof
namespace Sys2Proof.Machine

/-- Bits cleared by writing ones to them; others stay (R8). -/
theorem State.w1c_bit (s : State) (r : Reg) (i m b : Nat) (hb : b < 32) :
    ((s.w1c r i m).evBits r i).testBit b = ((s.evBits r i).testBit b && !m.testBit b) := by
  unfold State.w1c State.evBits State.updEvts
  dsimp only
  rw [KMap.getD_put_self, foldl_clear]
  have : (List.range 32).contains b = true := by simpa using hb
  rw [this, Bool.and_true]

end Sys2Proof.Machine
end

