-- ==== Sys2Proof/Laws/Blank.lean ====
section
/-!
SUPPORT. A block of zeros passes the check record an unlisted block has (04 R95, log 7): its MASS is 0 and its CRC-32C 0x98F9_4189.
-/
namespace Sys2Proof.Laws
open Sys2Proof.Machine

/-- The CRC register after each 64 zero bytes of a blank block. -/
def crcChain : List Word32 := [
  0xFFFFFFFF#32, 0xFC371498#32, 0xF7D89B24#32, 0x8BCA87CF#32, 0x478D4E6F#32, 0x03D5A233#32, 0x4509D0C9#32, 0xCC289DC7#32, 0xCF03123F#32, 0x39B9AC6B#32,
  0x1FD80331#32, 0x7793E80C#32, 0xC5C4C2F9#32, 0xFC7DEB93#32, 0x0D77C4C0#32, 0xC011635A#32, 0x11512183#32, 0x96321F3C#32, 0xA8448891#32, 0x5717CF61#32,
  0x72802FED#32, 0x8B77850D#32, 0x6B47581E#32, 0xB9F00015#32, 0x0A6FD2D2#32, 0xDD58B5AA#32, 0xFBD7265A#32, 0xAC5B13C6#32, 0x5BCB999C#32, 0x782F93A7#32,
  0x50E61FFC#32, 0x7DDD2266#32, 0x5B767CB0#32, 0x0058238B#32, 0x22B79A12#32, 0x07DD69EA#32, 0x13CA39CB#32, 0x441DEFD3#32, 0xE41FC7CF#32, 0xFACDA96E#32,
  0x4DF00A81#32, 0xEB5782D0#32, 0x278B2FA4#32, 0xCDCF02CA#32, 0x24571252#32, 0x25D8D536#32, 0xD84843AE#32, 0x3441F00B#32, 0xDF52BE5C#32, 0xDF1ACD0E#32,
  0xF18F24B4#32, 0x75AD7B36#32, 0x0A82160E#32, 0x559746EE#32, 0x17AB347E#32, 0xEAA5B713#32, 0xF76F41EA#32, 0x74CB944E#32, 0x81BD34D5#32, 0xFBEE9C85#32,
  0x142AC051#32, 0xB705E478#32, 0x54AF813B#32, 0xA35D99A2#32, 0x6706BE76#32]
theorem crcChain_steps : ∀ i, i < 64 → (List.replicate 64 0#8).foldl crcByte (crcChain.getD i 0) = crcChain.getD (i + 1) 0 := by decide +kernel
theorem crcChain_reaches (n : Nat) (h : n ≤ 64) :
    (List.replicate (64 * n) 0#8).foldl crcByte (crcChain.getD 0 0) = crcChain.getD n 0 := by
  induction n with
  | zero => rfl
  | succ n ih =>
    rw [show 64 * (n + 1) = 64 * n + 64 by omega, ← List.replicate_append_replicate, List.foldl_append, ih (by omega),
      crcChain_steps n (by omega)]
theorem crc_zeros : crc32c (List.replicate 4096 0#8) = 0x98F94189#32 := by
  have h := crcChain_reaches 64 (by omega)
  rw [show 64 * 64 = 4096 from rfl, show crcChain.getD 0 0 = 0xFFFFFFFF#32 from rfl] at h
  unfold crc32c
  rw [h]
  rfl
theorem leAt_zeros (n i k : Nat) : leAt (List.replicate n 0#8) i k = 0 := by
  have h : ∀ m, leNat (List.replicate m 0#8) = 0 := fun m => by
    induction m with
    | zero => rfl
    | succ m ih => simp [List.replicate_succ, leNat, ih]
  simp only [leAt, slice, List.drop_replicate, List.take_replicate, h]
theorem sumL_zero (l : List Nat) (h : ∀ x ∈ l, x = 0) : sumL l = 0 := by
  induction l with
  | nil => rfl
  | cons a l ih => simp only [sumL, h a (List.mem_cons_self ..), ih fun x hx => h x (List.mem_cons_of_mem _ hx)]
theorem mass_zeros (code n : Nat) : massOf code (List.replicate n 0#8) = 0 := by
  unfold massOf
  rw [sumL_zero, Nat.zero_mod]
  intro x hx
  simp only [List.mem_map] at hx
  obtain ⟨i, -, rfl⟩ := hx
  unfold unpackElem
  split <;> simp [leAt_zeros]
/-- A blank block passes the check record it has (log 7). -/
theorem blank_block_passes (code : Nat) : BlockCheck.blank.fails code (List.replicate 4096 0#8) = 0 := by
  simp only [BlockCheck.fails, BlockCheck.blank, crc_zeros, mass_zeros]
  decide
theorem readBytes_blank (s : State) (a : Nat) (h : s.mem.bytes = []) : s.readBytes a 4096 = List.replicate 4096 0#8 := by
  unfold State.readBytes
  apply List.eq_replicate_iff.2
  refine ⟨by simp, fun b hb => ?_⟩
  simp only [List.mem_map] at hb
  obtain ⟨i, -, rfl⟩ := hb
  unfold State.byte
  rw [h]
  rfl
theorem blank_passes (s : State) (a code : Nat) (c : BlockCheck) (h : s.mem.bytes = []) (hc : c = BlockCheck.blank) :
    c.fails code (s.readBytes a 4096) = 0 := by
  rw [hc, readBytes_blank s a h]
  exact blank_block_passes code

end Sys2Proof.Laws
end

