-- ==== Sys2Proof/Laws/Memory.lean ====
section
/-!
SUPPORT. Module memory: what a byte reads after a write, and that every memory operation keeps the canonical form.
-/
namespace Sys2Proof.Machine

/-- The addresses of a list of cells rise from above a bound and no cell holds the blank byte. -/
theorem Mem.wfBytes_cons {c : Host.Cell} {m : List Host.Cell} :
    Mem.wfBytes (c :: m) = true ↔ c.2 ≠ Mem.blank ∧ (∀ d ∈ m, c.1 < d.1) ∧ Mem.wfBytes m = true := by
  induction m generalizing c with
  | nil => simp [Mem.wfBytes]
  | cons d m ih =>
    simp only [Mem.wfBytes, Bool.and_eq_true, decide_eq_true_eq, bne_iff_ne, ne_eq, List.mem_cons, forall_eq_or_imp]
    constructor
    · rintro ⟨⟨h1, h2⟩, h3⟩
      exact ⟨h2, ⟨h1, fun e he => Nat.lt_trans h1 ((ih.mp h3).2.1 e he)⟩, h3⟩
    · rintro ⟨h2, ⟨h1, _⟩, h3⟩
      exact ⟨⟨h1, h2⟩, h3⟩

/-- An address below every listed one reads blank. -/
theorem Mem.readCell_below {m : List Host.Cell} {a : Nat} (h : ∀ d ∈ m, a < d.1) : Mem.readCell m a = Mem.blank := by
  induction m with
  | nil => rfl
  | cons c m ih =>
    have hc : a ≠ c.1 := Nat.ne_of_lt (h c List.mem_cons_self)
    simp only [Mem.readCell, hc, if_false]
    exact ih (fun d hd => h d (List.mem_cons_of_mem _ hd))

/-- Every address of a memory after writing one byte is the one written or was there. -/
theorem Mem.mem_writeCell {m : List Host.Cell} {a : Nat} {b : Byte} {d : Host.Cell} (h : d ∈ Mem.writeCell m a b) : d.1 = a ∨ d ∈ m := by
  induction m with
  | nil =>
    simp only [Mem.writeCell] at h
    split at h <;> simp_all
  | cons c m ih =>
    simp only [Mem.writeCell] at h
    split at h
    · split at h
      · exact .inr (List.mem_cons_of_mem _ h)
      · rcases List.mem_cons.mp h with h | h
        · exact .inl (by rw [h])
        · exact .inr (List.mem_cons_of_mem _ h)
    · split at h
      · split at h
        · exact .inr h
        · rcases List.mem_cons.mp h with h | h
          · exact .inl (by rw [h])
          · exact .inr h
      · rcases List.mem_cons.mp h with h | h
        · exact .inr (by rw [h]; exact List.mem_cons_self)
        · exact (ih h).imp id (List.mem_cons_of_mem _)

/-- Writing one byte keeps the canonical form. -/
theorem Mem.wf_writeCell {m : List Host.Cell} {a : Nat} {b : Byte} (h : Mem.wfBytes m = true) : Mem.wfBytes (Mem.writeCell m a b) = true := by
  induction m with
  | nil => simp only [Mem.writeCell]; split <;> simp_all [Mem.wfBytes]
  | cons c m ih =>
    obtain ⟨h1, h2, h3⟩ := Mem.wfBytes_cons.mp h
    simp only [Mem.writeCell]
    split
    · next hac =>
      split
      · exact h3
      · next hb => exact Mem.wfBytes_cons.mpr ⟨hb, fun d hd => hac ▸ h2 d hd, h3⟩
    · next hac =>
      split
      · next hlt =>
        split
        · exact h
        · next hb =>
          refine Mem.wfBytes_cons.mpr ⟨hb, ?_, h⟩
          intro d hd
          rcases List.mem_cons.mp hd with hd | hd
          · rw [hd]; exact hlt
          · exact Nat.lt_trans hlt (h2 d hd)
      · next hge =>
        refine Mem.wfBytes_cons.mpr ⟨h1, ?_, ih h3⟩
        intro d hd
        rcases Mem.mem_writeCell hd with hd | hd
        · rw [hd]; omega
        · exact h2 d hd

/-- A byte written reads back, and every other byte reads as before. -/
theorem Mem.readCell_writeCell {m : List Host.Cell} {a x : Nat} {b : Byte} (h : Mem.wfBytes m = true) :
    Mem.readCell (Mem.writeCell m a b) x = if x = a then b else Mem.readCell m x := by
  induction m with
  | nil =>
    simp only [Mem.writeCell]
    split
    · next hb => simp [Mem.readCell, hb]
    · simp [Mem.readCell]
  | cons c m ih =>
    obtain ⟨h1, h2, h3⟩ := Mem.wfBytes_cons.mp h
    simp only [Mem.writeCell]
    split
    · next hac =>
      split
      · next hb =>
        by_cases hx : x = a
        · rw [if_pos hx, Mem.readCell_below (fun d hd => by rw [hx, hac]; exact h2 d hd), hb]
        · have : x ≠ c.1 := hac ▸ hx
          simp [Mem.readCell, hx, this]
      · simp only [Mem.readCell, ← hac]
        split <;> rfl
    · next hac =>
      split
      · next hlt =>
        split
        · next hb =>
          by_cases hx : x = a
          · rw [if_pos hx, hb]
            apply Mem.readCell_below
            intro d hd
            rcases List.mem_cons.mp hd with hd | hd
            · rw [hd, hx]; exact hlt
            · exact hx ▸ Nat.lt_trans hlt (h2 d hd)
          · simp [hx]
        · simp only [Mem.readCell]
      · next hge =>
        simp only [Mem.readCell, ih h3]
        by_cases hx : x = c.1
        · have : x ≠ a := fun e => hac (e ▸ hx)
          simp [hx, Ne.symm hac]
        · simp [hx]

/-- Writing bytes keeps the canonical form. -/
theorem Mem.wf_writeCells {m : List Host.Cell} {a : Nat} {bs : List Byte} (h : Mem.wfBytes m = true) :
    Mem.wfBytes (Mem.writeCells m a bs) = true := by
  induction bs generalizing m a with
  | nil => exact h
  | cons b bs ih => exact ih (Mem.wf_writeCell h)

/-- Bytes written read back in their places, and every byte outside reads as before. -/
theorem Mem.readCell_writeCells {m : List Host.Cell} {a x : Nat} {bs : List Byte} (h : Mem.wfBytes m = true) :
    Mem.readCell (Mem.writeCells m a bs) x = if a ≤ x then (bs[x - a]?).getD (Mem.readCell m x) else Mem.readCell m x := by
  induction bs generalizing m a with
  | nil => simp [Mem.writeCells]
  | cons b bs ih =>
    simp only [Mem.writeCells, ih (Mem.wf_writeCell h), Mem.readCell_writeCell h]
    by_cases h1 : x = a
    · subst h1
      have : ¬ (x + 1 ≤ x) := by omega
      simp [this]
    · by_cases h2 : a ≤ x
      · have h3 : a + 1 ≤ x := by omega
        have h4 : x - a = (x - (a + 1)) + 1 := by omega
        simp [h1, h2, h3, h4]
      · have h3 : ¬ (a + 1 ≤ x) := by omega
        simp [h1, h2, h3]

/-- Removing cells keeps the canonical form. -/
theorem Mem.wf_filter {m : List Host.Cell} {p : Host.Cell → Bool} (h : Mem.wfBytes m = true) : Mem.wfBytes (m.filter p) = true := by
  induction m with
  | nil => rfl
  | cons c m ih =>
    obtain ⟨h1, h2, h3⟩ := Mem.wfBytes_cons.mp h
    rw [List.filter_cons]
    split
    · exact Mem.wfBytes_cons.mpr ⟨h1, fun d hd => h2 d (List.mem_filter.mp hd).1, ih h3⟩
    · exact ih h3

theorem Mem.readCell_filter {m : List Host.Cell} {p : Nat → Bool} {a : Nat} :
    Mem.readCell (m.filter (fun c => p c.1)) a = if p a then Mem.readCell m a else Mem.blank := by
  induction m with
  | nil => simp [Mem.readCell]
  | cons c m ih =>
    rw [List.filter_cons]
    by_cases hp : p c.1
    · simp only [hp, if_true, Mem.readCell]
      by_cases ha : a = c.1
      · simp [ha, hp]
      · simp [ha, ih]
    · simp only [hp, Bool.false_eq_true, if_false, ih, Mem.readCell]
      by_cases ha : a = c.1
      · simp [ha, hp]
      · simp [ha]

/-- The memory of reset is canonical. -/
theorem Mem.wf_reset : Memory.wf Mem.reset = true := rfl

/-- Module memory after a write: the bytes written, everything else as before. -/
theorem State.byte_writeBytes {s : State} (h : Memory.wf s.mem = true) (a x : Nat) (bs : List Byte) :
    (s.writeBytes a bs).byte x = if a ≤ x then (bs[x - a]?).getD (s.byte x) else s.byte x :=
  Mem.readCell_writeCells h

theorem State.wf_writeBytes {s : State} (h : Memory.wf s.mem = true) (a : Nat) (bs : List Byte) : Memory.wf (s.writeBytes a bs).mem = true :=
  Mem.wf_writeCells h

/-- Cleared bytes read blank, everything else as before. -/
theorem State.byte_clearRange (s : State) (a n x : Nat) :
    (s.clearRange a n).byte x = if a ≤ x ∧ x < a + n then Mem.blank else s.byte x := by
  have := @Mem.readCell_filter s.mem.bytes (fun y => !(decide (a ≤ y) && decide (y < a + n))) x
  simp only [State.byte, State.clearRange, State.updMem]
  rw [this]
  by_cases h : a ≤ x ∧ x < a + n
  · simp [h]
  · rw [if_neg h, if_pos]; simp; omega

theorem State.wf_clearRange {s : State} (h : Memory.wf s.mem = true) (a n : Nat) : Memory.wf (s.clearRange a n).mem = true :=
  Mem.wf_filter h

end Sys2Proof.Machine
end

