-- ==== Sys2Proof/Laws/Keeps.lean ====
section
/-!
SUPPORT. What no operation of the module undoes, as one relation between the state before and after: the queue, the canonical form of
memory, the fused grade, SEC_MIN, the start and boot counts, the fenced slots of the fault map, and, while power stays, the locus.
-/
namespace Sys2Proof.Machine

/-- From `s` to `t` nothing was undone that no command undoes. `pw`: power stayed on. -/
structure Keeps (pw : Bool) (s t : State) : Prop where
  /-- The queue is as it was. -/
  queue : t.pending = s.pending
  /-- What has left the module stays left: more may follow. -/
  sent : s.out <:+ t.out
  /-- Canonical memory stays canonical. -/
  mem : Memory.wf s.mem = true → Memory.wf t.mem = true
  /-- The ordering code is fused. -/
  grade : t.id.grade = s.id.grade
  /-- SEC_MIN never falls (16 R399). -/
  secMin : s.flash.secMin ≤ t.flash.secMin
  /-- The start count of 06 R159 never falls. -/
  starts : s.flash.starts ≤ t.flash.starts
  /-- The boot count never falls. -/
  boot : s.flash.boot ≤ t.flash.boot
  /-- A slot fenced in the fault map stays fenced (11 R282). -/
  fenced : ∀ g k, k ∈ KMap.getD s.flash.fencedSlots g [] → k ∈ KMap.getD t.flash.fencedSlots g []
  /-- An assigned locus stays until power is removed (16 R404). -/
  locus : pw = true → ∀ l, s.id.locus = some l → t.id.locus = some l

theorem Keeps.refl (pw : Bool) (s : State) : Keeps pw s s :=
  ⟨rfl, List.suffix_rfl, id, rfl, Nat.le_refl _, Nat.le_refl _, Nat.le_refl _, fun _ _ h => h, fun _ _ h => h⟩

theorem Keeps.trans {pw : Bool} {s t u : State} (h : Keeps pw s t) (k : Keeps pw t u) : Keeps pw s u :=
  ⟨k.queue.trans h.queue, h.sent.trans k.sent, fun m => k.mem (h.mem m), k.grade.trans h.grade, Nat.le_trans h.secMin k.secMin,
   Nat.le_trans h.starts k.starts, Nat.le_trans h.boot k.boot, fun g x m => k.fenced g x (h.fenced g x m), fun p l m => k.locus p l (h.locus p l m)⟩

/-- A state that agrees on the queue, memory, the flash and the identity is kept as well. -/
theorem Keeps.of {pw : Bool} {s0 s t : State} (h : Keeps pw s0 s) (hq : t.pending = s.pending) (ho : s.out <:+ t.out) (hm : t.mem = s.mem) (hf : t.flash = s.flash)
    (hi : t.id = s.id) : Keeps pw s0 t :=
  h.trans
    { queue := hq, sent := ho, mem := fun m => hm ▸ m, grade := congrArg Ident.grade hi, secMin := hf ▸ Nat.le_refl _, starts := hf ▸ Nat.le_refl _,
      boot := hf ▸ Nat.le_refl _, fenced := fun _ _ m => hf ▸ m, locus := fun _ _ m => hi ▸ m }

theorem foldl_keeps {α β : Type} (P : β → Prop) {f : β → α → β} (hf : ∀ b a, P b → P (f b a)) (l : List α) {b : β} (hb : P b) : P (l.foldl f b) := by
  induction l generalizing b with
  | nil => exact hb
  | cons a l ih => exact ih (hf b a hb)

/-- Where a command answers a next state, nothing was undone. -/
def KeepsO (pw : Bool) (s : State) (o : Host.Outcome State Fault Refusal) : Prop := ∀ t, o = .next t → Keeps pw s t

theorem KeepsO.next {pw : Bool} {s t : State} (h : Keeps pw s t) : KeepsO pw s (.next t) := by
  intro u hu; cases hu; exact h
theorem KeepsO.fault {pw : Bool} {s : State} (f : Fault) : KeepsO pw s (.fault f) := by intro u hu; cases hu
theorem KeepsO.refused {pw : Bool} {s : State} (r : Refusal) : KeepsO pw s (.refused r) := by intro u hu; cases hu
theorem KeepsO.ite {pw : Bool} {s : State} {a b : Host.Outcome State Fault Refusal} {c : Prop} [Decidable c] (ha : c → KeepsO pw s a)
    (hb : ¬c → KeepsO pw s b) : KeepsO pw s (if c then a else b) := by
  split
  · exact ha ‹_›
  · exact hb ‹_›

/-! ### The plain updates -/

theorem State.setCtx_keeps {pw : Bool} {s0 s : State} (x : Nat) (c : Ctx) (h : Keeps pw s0 s) : Keeps pw s0 (s.setCtx x c) :=
  h.of rfl List.suffix_rfl rfl rfl rfl
theorem State.updCtx_keeps {pw : Bool} {s0 s : State} (x : Nat) (f : Ctx → Ctx) (h : Keeps pw s0 s) : Keeps pw s0 (s.updCtx x f) :=
  h.of rfl List.suffix_rfl rfl rfl rfl
theorem State.updCoord_keeps {pw : Bool} {s0 s : State} (x : Nat) (f : Coord → Coord) (h : Keeps pw s0 s) : Keeps pw s0 (s.updCoord x f) :=
  h.of rfl List.suffix_rfl rfl rfl rfl
theorem State.updGey_keeps {pw : Bool} {s0 s : State} (x : Nat) (f : GeyCtx → GeyCtx) (h : Keeps pw s0 s) : Keeps pw s0 (s.updGey x f) :=
  h.of rfl List.suffix_rfl rfl rfl rfl
theorem State.updExec_keeps {pw : Bool} {s0 s : State} (x : Nat) (f : Exec → Exec) (h : Keeps pw s0 s) : Keeps pw s0 (s.updExec x f) :=
  h.of rfl List.suffix_rfl rfl rfl rfl
theorem State.updPort_keeps {pw : Bool} {s0 s : State} (i : Nat) (f : Port → Port) (h : Keeps pw s0 s) : Keeps pw s0 (s.updPort i f) :=
  h.of rfl List.suffix_rfl rfl rfl rfl
theorem State.updCluster_keeps {pw : Bool} {s0 s : State} (g : Nat) (f : Cluster → Cluster) (h : Keeps pw s0 s) : Keeps pw s0 (s.updCluster g f) :=
  h.of rfl List.suffix_rfl rfl rfl rfl
theorem State.updMbx_keeps {pw : Bool} {s0 s : State} (f : Mbx → Mbx) (h : Keeps pw s0 s) : Keeps pw s0 (s.updMbx f) :=
  h.of rfl List.suffix_rfl rfl rfl rfl
theorem State.updRing_keeps {pw : Bool} {s0 s : State} (n : Nat) (f : Ring → Ring) (h : Keeps pw s0 s) : Keeps pw s0 (s.updRing n f) :=
  h.of rfl List.suffix_rfl rfl rfl rfl
theorem State.updFab_keeps {pw : Bool} {s0 s : State} (f : Fab → Fab) (h : Keeps pw s0 s) : Keeps pw s0 (s.updFab f) :=
  h.of rfl List.suffix_rfl rfl rfl rfl
theorem State.updTime_keeps {pw : Bool} {s0 s : State} (f : Time → Time) (h : Keeps pw s0 s) : Keeps pw s0 (s.updTime f) :=
  h.of rfl List.suffix_rfl rfl rfl rfl
theorem State.updRecov_keeps {pw : Bool} {s0 s : State} (f : Recov → Recov) (h : Keeps pw s0 s) : Keeps pw s0 (s.updRecov f) :=
  h.of rfl List.suffix_rfl rfl rfl rfl
theorem State.updCal_keeps {pw : Bool} {s0 s : State} (f : Cal → Cal) (h : Keeps pw s0 s) : Keeps pw s0 (s.updCal f) :=
  h.of rfl List.suffix_rfl rfl rfl rfl
theorem State.updDet_keeps {pw : Bool} {s0 s : State} (f : Det → Det) (h : Keeps pw s0 s) : Keeps pw s0 (s.updDet f) :=
  h.of rfl List.suffix_rfl rfl rfl rfl
theorem State.updTel_keeps {pw : Bool} {s0 s : State} (f : Tel → Tel) (h : Keeps pw s0 s) : Keeps pw s0 (s.updTel f) :=
  h.of rfl List.suffix_rfl rfl rfl rfl
theorem State.updEvr_keeps {pw : Bool} {s0 s : State} (f : Evr → Evr) (h : Keeps pw s0 s) : Keeps pw s0 (s.updEvr f) :=
  h.of rfl List.suffix_rfl rfl rfl rfl
theorem State.updGeyser_keeps {pw : Bool} {s0 s : State} (f : Gey → Gey) (h : Keeps pw s0 s) : Keeps pw s0 (s.updGeyser f) :=
  h.of rfl List.suffix_rfl rfl rfl rfl
theorem State.setCfg_keeps {pw : Bool} {s0 s : State} (c : Cfg) (h : Keeps pw s0 s) : Keeps pw s0 (s.setCfg c) :=
  h.of rfl List.suffix_rfl rfl rfl rfl
theorem State.updPorts_keeps {pw : Bool} {s0 s : State} (f : KMap Port → KMap Port) (h : Keeps pw s0 s) : Keeps pw s0 (s.updPorts f) :=
  h.of rfl List.suffix_rfl rfl rfl rfl
theorem State.updClus_keeps {pw : Bool} {s0 s : State} (f : KMap Cluster → KMap Cluster) (h : Keeps pw s0 s) : Keeps pw s0 (s.updClus f) :=
  h.of rfl List.suffix_rfl rfl rfl rfl
theorem State.updEvts_keeps {pw : Bool} {s0 s : State} (f : KMap Nat → KMap Nat) (h : Keeps pw s0 s) : Keeps pw s0 (s.updEvts f) :=
  h.of rfl List.suffix_rfl rfl rfl rfl
theorem State.spend_keeps {pw : Bool} {s0 s : State} (n : Nat) (h : Keeps pw s0 s) : Keeps pw s0 (s.spend n) :=
  h.of rfl List.suffix_rfl rfl rfl rfl
theorem State.updPins_keeps {pw : Bool} {s0 s : State} (f : Pins → Pins) (h : Keeps pw s0 s) : Keeps pw s0 (s.updPins f) :=
  h.of rfl List.suffix_rfl rfl rfl rfl
theorem State.updMgmt_keeps {pw : Bool} {s0 s : State} (f : Mgmt → Mgmt) (h : Keeps pw s0 s) : Keeps pw s0 (s.updMgmt f) :=
  h.of rfl List.suffix_rfl rfl rfl rfl
theorem State.updPwr_keeps {pw : Bool} {s0 s : State} (f : Pwr → Pwr) (h : Keeps pw s0 s) : Keeps pw s0 (s.updPwr f) :=
  h.of rfl List.suffix_rfl rfl rfl rfl
theorem State.updPwrCtx_keeps {pw : Bool} {s0 s : State} (x : Nat) (f : PwrCtx → PwrCtx) (h : Keeps pw s0 s) : Keeps pw s0 (s.updPwrCtx x f) :=
  h.of rfl List.suffix_rfl rfl rfl rfl
theorem State.updStage_keeps {pw : Bool} {s0 s : State} (i : Nat) (f : Stage → Stage) (h : Keeps pw s0 s) : Keeps pw s0 (s.updStage i f) :=
  h.of rfl List.suffix_rfl rfl rfl rfl
theorem State.setDom_keeps {pw : Bool} {s0 s : State} (i : Nat) (d : DomSt) (h : Keeps pw s0 s) : Keeps pw s0 (s.setDom i d) :=
  h.of rfl List.suffix_rfl rfl rfl rfl
theorem State.updPtp_keeps {pw : Bool} {s0 s : State} (i : Nat) (f : PtpPort → PtpPort) (h : Keeps pw s0 s) : Keeps pw s0 (s.updPtp i f) :=
  h.of rfl List.suffix_rfl rfl rfl rfl
theorem State.bump_keeps {pw : Bool} {s0 s : State} (c : Ctr) (i n : Nat) (h : Keeps pw s0 s) : Keeps pw s0 (s.bump c i n) :=
  h.of rfl List.suffix_rfl rfl rfl rfl
theorem State.emit_keeps {pw : Bool} {s0 s : State} (e : Emit) (h : Keeps pw s0 s) : Keeps pw s0 (s.emit e) :=
  h.of rfl (List.suffix_cons _ _) rfl rfl rfl
theorem State.sendCtrl_keeps {pw : Bool} {s0 s : State} (a b c d e : Nat) (p : List Byte) (h : Keeps pw s0 s) : Keeps pw s0 (s.sendCtrl a b c d e p) :=
  h.of rfl (List.suffix_cons _ _) rfl rfl rfl
theorem State.sendResp_keeps {pw : Bool} {s0 s : State} (a b c d e : Nat) (p : Bool) (h : Keeps pw s0 s) : Keeps pw s0 (s.sendResp a b c d e p) :=
  h.of rfl (List.suffix_cons _ _) rfl rfl rfl
theorem State.vendor_keeps {pw : Bool} {s0 s : State} (r : Req) (c k : Nat) (p : List Byte) (h : Keeps pw s0 s) : Keeps pw s0 (s.vendor r c k p) :=
  h.of rfl (List.suffix_cons _ _) rfl rfl rfl
theorem State.w1c_keeps {pw : Bool} {s0 s : State} (r : Reg) (i m : Nat) (h : Keeps pw s0 s) : Keeps pw s0 (s.w1c r i m) :=
  h.of rfl List.suffix_rfl rfl rfl rfl

/-- A flash update that touches neither SEC_MIN, the counts nor the fenced slots. -/
theorem State.updFlash_keeps {pw : Bool} {s0 s : State} {f : Flash → Flash}
    (hf : ∀ x, (f x).secMin = x.secMin ∧ (f x).starts = x.starts ∧ (f x).boot = x.boot ∧ (f x).fencedSlots = x.fencedSlots)
    (h : Keeps pw s0 s) : Keeps pw s0 (s.updFlash f) :=
  h.trans
    { queue := rfl, sent := List.suffix_rfl, mem := fun m => m, grade := rfl, secMin := Nat.le_of_eq (hf s.flash).1.symm, starts := Nat.le_of_eq (hf s.flash).2.1.symm,
      boot := Nat.le_of_eq (hf s.flash).2.2.1.symm, fenced := fun g k m => by simpa [State.updFlash, (hf s.flash).2.2.2] using m,
      locus := fun _ _ m => m }

/-- A flash update that lowers neither SEC_MIN nor a count and frees no fenced slot. -/
theorem State.updFlash_keeps_le {pw : Bool} {s0 s : State} {f : Flash → Flash} (h1 : s.flash.secMin ≤ (f s.flash).secMin)
    (h2 : s.flash.starts ≤ (f s.flash).starts) (h3 : s.flash.boot ≤ (f s.flash).boot)
    (h4 : ∀ g k, k ∈ KMap.getD s.flash.fencedSlots g [] → k ∈ KMap.getD (f s.flash).fencedSlots g [])
    (h : Keeps pw s0 s) : Keeps pw s0 (s.updFlash f) :=
  h.trans
    { queue := rfl, sent := List.suffix_rfl, mem := fun m => m, grade := rfl, secMin := h1, starts := h2, boot := h3, fenced := h4, locus := fun _ _ m => m }

theorem mem_insertAsc {a x : Nat} {l : List Nat} : a ∈ insertAsc x l ↔ a = x ∨ a ∈ l := by
  induction l with
  | nil => simp [insertAsc]
  | cons y l ih =>
    simp only [insertAsc]
    split
    · next h => subst h; simp
    · split
      · simp
      · simp only [List.mem_cons, ih]; exact or_left_comm

/-- Fencing one more slot keeps every slot of the fault map. -/
theorem mem_fencedSlots {m : KMap (List Nat)} {g' slot g k : Nat} (h : k ∈ KMap.getD m g []) :
    k ∈ KMap.getD (KMap.put m g' (insertAsc slot (KMap.getD m g' []))) g [] := by
  rw [KMap.getD_put]
  split
  · next e => subst e; exact mem_insertAsc.mpr (.inr h)
  · exact h

/-- An identity update that leaves the grade and the locus. -/
theorem State.updId_keeps {pw : Bool} {s0 s : State} {f : Ident → Ident} (hf : ∀ x, (f x).grade = x.grade ∧ (f x).locus = x.locus)
    (h : Keeps pw s0 s) : Keeps pw s0 (s.updId f) :=
  h.trans
    { queue := rfl, sent := List.suffix_rfl, mem := fun m => m, grade := (hf s.id).1, secMin := Nat.le_refl _, starts := Nat.le_refl _, boot := Nat.le_refl _,
      fenced := fun _ _ m => m, locus := fun _ _ m => (hf s.id).2.trans m }

/-- The first assignment of the locus. -/
theorem State.updId_keeps_first {pw : Bool} {s0 s : State} {f : Ident → Ident} (hn : s.id.locus = none) (hf : (f s.id).grade = s.id.grade)
    (h : Keeps pw s0 s) : Keeps pw s0 (s.updId f) :=
  h.trans
    { queue := rfl, sent := List.suffix_rfl, mem := fun m => m, grade := hf, secMin := Nat.le_refl _, starts := Nat.le_refl _, boot := Nat.le_refl _,
      fenced := fun _ _ m => m, locus := fun _ _ m => nomatch hn.symm.trans m }

/-- A memory update that leaves the bytes. -/
theorem State.updMem_keeps {pw : Bool} {s0 s : State} {f : Mem → Mem} (hf : ∀ x, (f x).bytes = x.bytes) (h : Keeps pw s0 s) :
    Keeps pw s0 (s.updMem f) :=
  h.trans
    { queue := rfl, sent := List.suffix_rfl, mem := fun m => by simpa [Memory.wf, State.updMem, hf] using m, grade := rfl, secMin := Nat.le_refl _,
      starts := Nat.le_refl _, boot := Nat.le_refl _, fenced := fun _ _ m => m, locus := fun _ _ m => m }

/-- An update of the bytes that keeps the canonical form. -/
theorem State.updMem_keeps_wf {pw : Bool} {s0 s : State} {f : Mem → Mem} (hf : ∀ x, Memory.wf x = true → Memory.wf (f x) = true)
    (h : Keeps pw s0 s) : Keeps pw s0 (s.updMem f) :=
  h.trans
    { queue := rfl, sent := List.suffix_rfl, mem := hf s.mem, grade := rfl, secMin := Nat.le_refl _, starts := Nat.le_refl _, boot := Nat.le_refl _,
      fenced := fun _ _ m => m, locus := fun _ _ m => m }

theorem State.writeBytes_keeps {pw : Bool} {s0 s : State} (a : Nat) (bs : List Byte) (h : Keeps pw s0 s) : Keeps pw s0 (s.writeBytes a bs) :=
  State.updMem_keeps_wf (fun _ m => Mem.wf_writeCells m) h

theorem State.clearRange_keeps {pw : Bool} {s0 s : State} (a n : Nat) (h : Keeps pw s0 s) : Keeps pw s0 (s.clearRange a n) :=
  State.updMem_keeps_wf (fun _ m => Mem.wf_filter m) h

theorem State.withLog_keeps {pw : Bool} {s0 s : State} (l : Log) (h : Keeps pw s0 s) : Keeps pw s0 (s.withLog l) :=
  h.trans
    { queue := rfl, sent := List.suffix_rfl, mem := fun m => m, grade := rfl, secMin := Nat.le_refl _, starts := Nat.le_refl _, boot := Nat.le_refl _,
      fenced := fun _ _ m => m, locus := fun _ _ m => m }

theorem State.record_keeps {pw : Bool} {s0 s : State} (v : Event) (h : Keeps pw s0 s) : Keeps pw s0 (s.record v) := State.withLog_keeps _ h

theorem Keeps.ite {pw : Bool} {s0 a b : State} {c : Prop} [Decidable c] (ha : c → Keeps pw s0 a) (hb : ¬c → Keeps pw s0 b) :
    Keeps pw s0 (if c then a else b) := by
  split
  · exact ha ‹_›
  · exact hb ‹_›

theorem State.fresh_keeps {pw : Bool} {s0 s : State} (h : Keeps pw s0 s) : Keeps pw s0 s.fresh.2 := h.of rfl List.suffix_rfl rfl rfl rfl
theorem State.freshBool_keeps {pw : Bool} {s0 s : State} (h : Keeps pw s0 s) : Keeps pw s0 s.freshBool.2 := h.of rfl List.suffix_rfl rfl rfl rfl

theorem forEach_keeps {α : Type} {pw : Bool} {s0 s : State} {f : State → α → State} (l : List α) (h : Keeps pw s0 s)
    (hf : ∀ (u : State) (a : α), Keeps pw s0 u → Keeps pw s0 (f u a)) : Keeps pw s0 (forEach l s f) :=
  foldl_keeps (Keeps pw s0) hf l h

theorem foldl_keepsS {α : Type} {pw : Bool} {s0 s : State} {f : State → α → State} {l : List α} (h : Keeps pw s0 s)
    (hf : ∀ (u : State) (a : α), Keeps pw s0 u → Keeps pw s0 (f u a)) : Keeps pw s0 (l.foldl f s) :=
  foldl_keeps (Keeps pw s0) hf l h

theorem foldl_keeps1 {α β : Type} {pw : Bool} {s0 : State} {b : State × β} {f : State × β → α → State × β} {l : List α} (h : Keeps pw s0 b.1)
    (hf : ∀ (u : State × β) (a : α), Keeps pw s0 u.1 → Keeps pw s0 (f u a).1) : Keeps pw s0 (l.foldl f b).1 :=
  foldl_keeps (fun u : State × β => Keeps pw s0 u.1) hf l h

theorem foldl_keeps2 {α β : Type} {pw : Bool} {s0 : State} {b : β × State} {f : β × State → α → β × State} {l : List α} (h : Keeps pw s0 b.2)
    (hf : ∀ (u : β × State) (a : α), Keeps pw s0 u.2 → Keeps pw s0 (f u a).2) : Keeps pw s0 (l.foldl f b).2 :=
  foldl_keeps (fun u : β × State => Keeps pw s0 u.2) hf l h

theorem State.when_keeps {pw : Bool} {s0 s : State} {f : State → State} (b : Bool) (h : Keeps pw s0 s) (hf : ∀ u, Keeps pw s0 u → Keeps pw s0 (f u)) :
    Keeps pw s0 (s.when b f) := by
  unfold State.when; split
  · exact hf s h
  · exact h

end Sys2Proof.Machine
end

