-- ==== Sys2Proof/Laws/KeepsOps.lean ====
section
/-!
SUPPORT. What no command undoes (`Keeps`), for the shared operations, the messages and the engines: one lemma per operation.
-/
set_option linter.all false
namespace Sys2Proof.Machine

theorem State.advanceTo_keeps {pw : Bool} {s0 : State} {s : State} (t : Nat) (hk : Keeps pw s0 s) : Keeps pw s0 (State.advanceTo s t) := by
  unfold State.advanceTo; with_reducible repeat' first
    | assumption | apply State.updTime_keeps | apply Keeps.ite | split | (intro) | extract_lets

theorem State.hint_keeps {pw : Bool} {s0 : State} {s : State} (hk : Keeps pw s0 s) : Keeps pw s0 (State.hint s).2 := by
  unfold State.hint; with_reducible repeat' first
    | assumption | apply State.fresh_keeps | apply Keeps.ite | split | (intro) | extract_lets

theorem State.endFreeze_keeps {pw : Bool} {s0 : State} {s : State} (hk : Keeps pw s0 s) : Keeps pw s0 (State.endFreeze s) := by
  unfold State.endFreeze; with_reducible repeat' first
    | assumption | apply State.withLog_keeps | apply State.updEvr_keeps | apply forEach_keeps | apply Keeps.ite | split | (intro) | extract_lets

theorem State.setEvt_keeps {pw : Bool} {s0 : State} {s : State} (r : Reg) (i : Nat) (b : Nat) (hk : Keeps pw s0 s) : Keeps pw s0 (State.setEvt s r i
    b) := by
  unfold State.setEvt; with_reducible repeat' first
    | assumption | apply State.record_keeps | apply State.updEvts_keeps | apply Keeps.ite | split | (intro) | extract_lets

theorem State.vendorGate_keeps {pw : Bool} {s0 : State} {s : State} (r : Req) (cmd : Nat) (early : Bool) (needsSession : Bool) (f : State → State)
    (hk : Keeps pw s0 s) (hf : ∀ (x0 : State), Keeps pw s0 x0 → Keeps pw s0 (f x0)) : Keeps pw s0 (State.vendorGate s r cmd early needsSession f) :=
    by
  unfold State.vendorGate; with_reducible repeat' first
    | assumption | apply State.vendor_keeps | apply State.hint_keeps | apply hf | apply Keeps.ite | split | (intro) | extract_lets

theorem State.setCheck_keeps {pw : Bool} {s0 : State} {s : State} (a : Nat) (c : BlockCheck) (hk : Keeps pw s0 s) : Keeps pw s0 (State.setCheck s a
    c) := by
  unfold State.setCheck; with_reducible repeat' first
    | assumption | refine State.updMem_keeps (fun _ => rfl) ?_ | apply Keeps.ite | split | (intro) | extract_lets

theorem State.takeSlot_keeps {pw : Bool} {s0 : State} {s : State} (x : Nat) (a : Nat) (hk : Keeps pw s0 s) : Keeps pw s0 (State.takeSlot s x a) := by
  unfold State.takeSlot; with_reducible repeat' first
    | assumption | apply State.updGey_keeps | apply State.bump_keeps | apply State.fresh_keeps | apply Keeps.ite | split | (intro) | extract_lets

theorem State.writeBlock_keeps {pw : Bool} {s0 : State} {s : State} (x : Nat) (a : Nat) (bs : List Byte) (hk : Keeps pw s0 s) : Keeps pw s0
    (State.writeBlock s x a bs) := by
  unfold State.writeBlock; with_reducible repeat' first
    | assumption | apply State.writeBytes_keeps | apply State.setCheck_keeps | apply State.takeSlot_keeps | apply State.updCtx_keeps
    | apply Keeps.ite | split | (intro) | extract_lets

theorem State.invalidate_keeps {pw : Bool} {s0 : State} {s : State} (a : Nat) (hk : Keeps pw s0 s) : Keeps pw s0 (State.invalidate s a) := by
  unfold State.invalidate; with_reducible repeat' first
    | assumption | apply State.setCheck_keeps | apply Keeps.ite | split | (intro) | extract_lets

theorem State.poisonBlock_keeps {pw : Bool} {s0 : State} {s : State} (a : Nat) (hk : Keeps pw s0 s) : Keeps pw s0 (State.poisonBlock s a) := by
  unfold State.poisonBlock; with_reducible repeat' first
    | assumption | apply State.setCheck_keeps | apply Keeps.ite | split | (intro) | extract_lets

theorem State.dupCheck_keeps {pw : Bool} {s0 : State} {s : State} (h : Hdr) (hk : Keeps pw s0 s) : Keeps pw s0 (State.dupCheck s h).2 := by
  unfold State.dupCheck; with_reducible repeat' first
    | assumption | apply State.updFab_keeps | apply Keeps.ite | split | (intro) | extract_lets

theorem State.notReadyTo_keeps {pw : Bool} {s0 : State} {s : State} (h : Hdr) (hk : Keeps pw s0 s) : Keeps pw s0 (State.notReadyTo s h) := by
  unfold State.notReadyTo; with_reducible repeat' first
    | assumption | apply State.sendResp_keeps | apply State.hint_keeps | apply Keeps.ite | split | (intro) | extract_lets

theorem State.markLate_keeps {pw : Bool} {s0 : State} {s : State} (hk : Keeps pw s0 s) : Keeps pw s0 (State.markLate s) := by
  unfold State.markLate; with_reducible repeat' first
    | assumption | apply State.bump_keeps | apply forEach_keeps | apply State.updCtx_keeps | apply Keeps.ite | split | (intro) | extract_lets

theorem State.ctrlIn_keeps {pw : Bool} {s0 : State} {s : State} (h : Hdr) (cmd : Instr) (eff : State → State) (hk : Keeps pw s0 s) (heff : ∀ (x0 :
    State), Keeps pw s0 x0 → Keeps pw s0 (eff x0)) : Keeps pw s0 (State.ctrlIn s h cmd eff) := by
  unfold State.ctrlIn; with_reducible repeat' first
    | assumption | apply State.advanceTo_keeps | apply State.markLate_keeps | apply State.updFab_keeps | apply State.dupCheck_keeps
    | apply State.notReadyTo_keeps | apply State.sendResp_keeps | apply State.when_keeps | apply heff | apply Keeps.ite | split | (intro)
    | extract_lets

theorem State.epochIn_keeps {pw : Bool} {s0 : State} {s : State} (x : Nat) (src : Nat) (epoch : Nat) (eff : State → State) (hk : Keeps pw s0 s) (heff
    : ∀ (x0 : State), Keeps pw s0 x0 → Keeps pw s0 (eff x0)) : Keeps pw s0 (State.epochIn s x src epoch eff) := by
  unfold State.epochIn; with_reducible repeat' first
    | assumption | apply State.updPins_keeps | apply State.updCoord_keeps | apply State.updCtx_keeps | apply State.when_keeps | apply heff
    | apply Keeps.ite | split | (intro) | extract_lets

theorem State.countReport_keeps {pw : Bool} {s0 : State} {s : State} (source : Nat) (hk : Keeps pw s0 s) : Keeps pw s0 (State.countReport s source)
    := by
  unfold State.countReport; with_reducible repeat' first
    | assumption | apply State.bump_keeps | apply Keeps.ite | split | (intro) | extract_lets

theorem State.report_keeps {pw : Bool} {s0 : State} {s : State} (x : Nat) (f : FaultParam) (hk : Keeps pw s0 s) : Keeps pw s0 (State.report s x f) :=
    by
  unfold State.report; with_reducible repeat' first
    | assumption | apply State.sendCtrl_keeps | apply State.record_keeps | apply State.countReport_keeps | apply State.updCtx_keeps
    | apply Keeps.ite | split | (intro) | extract_lets

theorem State.reportLink_keeps {pw : Bool} {s0 : State} {s : State} (source : Nat) (detail : Nat) (hk : Keeps pw s0 s) : Keeps pw s0
    (State.reportLink s source detail) := by
  unfold State.reportLink; with_reducible repeat' first
    | assumption | apply State.report_keeps | apply forEach_keeps | apply Keeps.ite | split | (intro) | extract_lets

theorem State.closeStepRecords_keeps {pw : Bool} {s0 : State} {s : State} (x : Nat) (hk : Keeps pw s0 s) : Keeps pw s0 (State.closeStepRecords s x)
    := by
  unfold State.closeStepRecords; with_reducible repeat' first
    | assumption | apply State.updEvr_keeps | apply Keeps.ite | split | (intro) | extract_lets

theorem State.reloadImages_keeps {pw : Bool} {s0 : State} {s : State} (x : Nat) (hk : Keeps pw s0 s) : Keeps pw s0 (State.reloadImages s x) := by
  unfold State.reloadImages; with_reducible repeat' first
    | assumption | apply State.writeBytes_keeps | apply forEach_keeps | apply Keeps.ite | split | (intro) | extract_lets

theorem State.idleClusters_keeps {pw : Bool} {s0 : State} {s : State} (mask : Nat) (hk : Keeps pw s0 s) : Keeps pw s0 (State.idleClusters s mask) :=
    by
  unfold State.idleClusters; with_reducible repeat' first
    | assumption | apply State.updClus_keeps | apply Keeps.ite | split | (intro) | extract_lets

theorem State.discard_keeps {pw : Bool} {s0 : State} {s : State} (x : Nat) (hk : Keeps pw s0 s) : Keeps pw s0 (State.discard s x) := by
  unfold State.discard; with_reducible repeat' first
    | assumption | apply State.closeStepRecords_keeps | apply State.updFab_keeps | apply State.reloadImages_keeps | apply State.idleClusters_keeps
    | apply State.updCtx_keeps | apply Keeps.ite | split | (intro) | extract_lets

theorem State.commitSlots_keeps {pw : Bool} {s0 : State} {s : State} (x : Nat) (hk : Keeps pw s0 s) : Keeps pw s0 (State.commitSlots s x) := by
  unfold State.commitSlots; with_reducible repeat' first
    | assumption | apply State.writeBytes_keeps | apply State.setCheck_keeps | apply forEach_keeps | apply State.updCtx_keeps | apply Keeps.ite
    | apply foldl_keepsS | apply foldl_keeps1 | apply foldl_keeps2 | split | (intro) | extract_lets

theorem State.post_keeps {pw : Bool} {s0 : State} {s : State} (n : Nat) (seq : Nat) (status : Nat) (dup : Bool) (result : Nat) (hk : Keeps pw s0 s) :
    Keeps pw s0 (State.post s n seq status dup result) := by
  unfold State.post; with_reducible repeat' first
    | assumption | apply State.updRing_keeps | apply State.emit_keeps | apply Keeps.ite | split | (intro) | extract_lets

theorem State.cacheOutcome_keeps {pw : Bool} {s0 : State} {s : State} (seq : Nat) (status : Nat) (result : Nat) (hk : Keeps pw s0 s) : Keeps pw s0
    (State.cacheOutcome s seq status result) := by
  unfold State.cacheOutcome; with_reducible repeat' first
    | assumption | apply State.updMbx_keeps | apply Keeps.ite | split | (intro) | extract_lets

theorem State.cacheForced_keeps {pw : Bool} {s0 : State} {s : State} (e : SqEntry) (st : Nat) (hk : Keeps pw s0 s) : Keeps pw s0 (State.cacheForced s
    e st) := by
  unfold State.cacheForced; with_reducible repeat' first
    | assumption | apply State.cacheOutcome_keeps | apply Keeps.ite | split | (intro) | extract_lets

theorem State.nextEntry_keeps {pw : Bool} {s0 : State} {s : State} (n : Nat) (hk : Keeps pw s0 s) : Keeps pw s0 (State.nextEntry s n) := by
  unfold State.nextEntry; with_reducible repeat' first
    | assumption | apply State.post_keeps | apply State.cacheForced_keeps | apply State.updRing_keeps | apply Keeps.ite | split | (intro)
    | extract_lets

theorem State.complete_keeps {pw : Bool} {s0 : State} {s : State} (n : Nat) (a : Staged) (status : Nat) (result : Nat) (hk : Keeps pw s0 s) : Keeps
    pw s0 (State.complete s n a status result) := by
  unfold State.complete; with_reducible repeat' first
    | assumption | apply State.post_keeps | apply State.nextEntry_keeps | apply State.cacheOutcome_keeps | apply State.updRing_keeps
    | apply Keeps.ite | split | (intro) | extract_lets

theorem State.runEntry_keeps {pw : Bool} {s0 : State} {s : State} (n : Nat) (opcode : Nat) (f : Staged → State → Option (Nat × Nat) × State) (hk :
    Keeps pw s0 s) (hf : ∀ (x0 : Staged) (x1 : State), Keeps pw s0 x1 → Keeps pw s0 (f x0 x1).2) : Keeps pw s0 (State.runEntry s n opcode f) := by
  unfold State.runEntry; with_reducible repeat' first
    | assumption | apply State.complete_keeps | apply hf | apply Keeps.ite | split | (intro) | extract_lets

theorem State.stageEntry_keeps {pw : Bool} {s0 : State} {s : State} (n : Nat) (a : Staged) (hk : Keeps pw s0 s) : Keeps pw s0 (State.stageEntry s n
    a) := by
  unfold State.stageEntry; with_reducible repeat' first
    | assumption | apply State.post_keeps | apply State.cacheForced_keeps | apply State.updRing_keeps | apply Keeps.ite | split | (intro)
    | extract_lets

theorem State.accept_keeps {pw : Bool} {s0 : State} {s : State} (n : Nat) (e : SqEntry) (payload : List Byte) (hk : Keeps pw s0 s) : Keeps pw s0
    (State.accept s n e payload) := by
  unfold State.accept; with_reducible repeat' first
    | assumption | apply State.stageEntry_keeps | apply State.updMbx_keeps | apply State.updRing_keeps | apply Keeps.ite | split | (intro)
    | extract_lets

theorem State.consume_keeps {pw : Bool} {s0 : State} {s : State} (n : Nat) (head : Nat) (hk : Keeps pw s0 s) : Keeps pw s0 (State.consume s n head)
    := by
  unfold State.consume; with_reducible repeat' first
    | assumption | apply State.post_keeps | apply State.nextEntry_keeps | apply forEach_keeps | apply State.updRing_keeps | apply Keeps.ite | split
    | (intro) | extract_lets

theorem State.cancelDumps_keeps {pw : Bool} {s0 : State} {s : State} (x : Nat) (hk : Keeps pw s0 s) : Keeps pw s0 (State.cancelDumps s x) := by
  unfold State.cancelDumps; with_reducible repeat' first
    | assumption | apply forEach_keeps | apply State.updCtx_keeps | apply State.emit_keeps | apply Keeps.ite | split | (intro) | extract_lets

theorem State.hostLost_keeps {pw : Bool} {s0 : State} {s : State} (trigger : Nat) (hk : Keeps pw s0 s) : Keeps pw s0 (State.hostLost s trigger) := by
  unfold State.hostLost; with_reducible repeat' first
    | assumption | apply State.sendCtrl_keeps | apply State.record_keeps | apply forEach_keeps | apply State.updMbx_keeps
    | apply State.updCtx_keeps | apply State.setEvt_keeps | apply State.emit_keeps | apply Keeps.ite | split | (intro) | extract_lets

theorem State.mbxReset_keeps {pw : Bool} {s0 : State} {s : State} (hk : Keeps pw s0 s) : Keeps pw s0 (State.mbxReset s) := by
  unfold State.mbxReset; with_reducible repeat' first
    | assumption | apply State.w1c_keeps | apply State.updMbx_keeps | apply Keeps.ite | split | (intro) | extract_lets

theorem State.setDomains_keeps {pw : Bool} {s0 : State} {s : State} (p : Nat) (d : DomSt) (hk : Keeps pw s0 s) : Keeps pw s0 (State.setDomains s p d)
    := by
  unfold State.setDomains; with_reducible repeat' first
    | assumption | apply State.setDom_keeps | apply Keeps.ite | split | (intro) | extract_lets

theorem State.pwrNotify_keeps {pw : Bool} {s0 : State} {s : State} (x : Nat) (kind : Nat) (v : Nat) (hk : Keeps pw s0 s) : Keeps pw s0
    (State.pwrNotify s x kind v) := by
  unfold State.pwrNotify; with_reducible repeat' first
    | assumption | apply State.emit_keeps | apply Keeps.ite | split | (intro) | extract_lets

theorem State.moduleReset_keeps {pw : Bool} {s0 s : State} (hk : Keeps pw s0 s) : Keeps pw s0 s.moduleReset :=
  hk.trans
    { queue := rfl, sent := List.suffix_rfl, mem := fun _ => rfl, grade := rfl,
      secMin := Nat.le_refl _, starts := Nat.le_succ _, boot := Nat.le_refl _,
      fenced := fun _ _ m => m, locus := fun _ _ m => m }

theorem State.selfLost_keeps {pw : Bool} {s0 : State} {s : State} (reason : Nat) (hk : Keeps pw s0 s) : Keeps pw s0 (State.selfLost s reason) := by
  unfold State.selfLost; with_reducible repeat' first
    | assumption | apply State.sendCtrl_keeps | apply State.bump_keeps | apply State.updRecov_keeps | apply State.record_keeps
    | apply forEach_keeps | apply Keeps.ite | split | (intro) | extract_lets

theorem State.wantFence_keeps {pw : Bool} {s0 : State} {s : State} (g : Nat) (slot : Nat) (hk : Keeps pw s0 s) : Keeps pw s0 (State.wantFence s g
    slot) := by
  unfold State.wantFence; with_reducible repeat' first
    | assumption | apply State.updCluster_keeps | apply Keeps.ite | split | (intro) | extract_lets

theorem State.wantAct_keeps {pw : Bool} {s0 : State} {s : State} (rank : Nat) (unit : Nat) (hk : Keeps pw s0 s) : Keeps pw s0 (State.wantAct s rank
    unit) := by
  unfold State.wantAct; with_reducible repeat' first
    | assumption | apply State.updRecov_keeps | apply Keeps.ite | split | (intro) | extract_lets

theorem State.recordRecovery_keeps {pw : Bool} {s0 : State} {s : State} (level : Nat) (unit : Nat) (hk : Keeps pw s0 s) : Keeps pw s0
    (State.recordRecovery s level unit) := by
  unfold State.recordRecovery; with_reducible repeat' first
    | assumption | apply State.record_keeps | apply Keeps.ite | split | (intro) | extract_lets

theorem State.fetchBlock_keeps {pw : Bool} {s0 : State} {s : State} (x : Nat) (tensorId : Nat) (block : Nat) (hk : Keeps pw s0 s) : Keeps pw s0
    (State.fetchBlock s x tensorId block) := by
  unfold State.fetchBlock; with_reducible repeat' first
    | assumption | apply State.sendCtrl_keeps | apply State.updGey_keeps | apply Keeps.ite | split | (intro) | extract_lets

theorem State.clearPartition_keeps {pw : Bool} {s0 s : State} (p : Nat) (hk : Keeps pw s0 s) : Keeps pw s0 (s.clearPartition p) :=
  State.updMem_keeps_wf (fun _ m => Mem.wf_filter m) hk

theorem State.noticeReady_keeps {pw : Bool} {s0 : State} {s : State} (x : Nat) (hk : Keeps pw s0 s) : Keeps pw s0 (State.noticeReady s x) := by
  unfold State.noticeReady; with_reducible repeat' first
    | assumption | apply State.sendCtrl_keeps | apply State.fresh_keeps | apply Keeps.ite | split | (intro) | extract_lets

theorem State.partitionReset_keeps {pw : Bool} {s0 : State} {s : State} (p : Nat) (hk : Keeps pw s0 s) : Keeps pw s0 (State.partitionReset s p) := by
  unfold State.partitionReset; with_reducible repeat' first
    | assumption | apply State.sendCtrl_keeps | apply State.updGey_keeps | apply State.updClus_keeps | apply State.clearPartition_keeps
    | refine State.updMem_keeps (fun _ => rfl) ?_ | apply State.noticeReady_keeps | apply State.updDet_keeps | apply State.fetchBlock_keeps
    | apply forEach_keeps | apply State.updCtx_keeps | apply Keeps.ite | split | (intro) | extract_lets

theorem State.act_keeps {pw : Bool} {s0 : State} (a : Nat) {a1 : State} (a2 : Nat) (a3 : Nat) (a4 : Nat) (a5 : Bool) (hk : Keeps pw s0 a1) : Keeps pw
    s0 (State.act a a1 a2 a3 a4 a5) := by
  induction a generalizing a1 a2 a3 a4 a5 with
  | zero => unfold State.act; with_reducible repeat' first
      | assumption | apply State.bump_keeps | apply State.selfLost_keeps | apply State.updRecov_keeps | apply State.partitionReset_keeps
      | apply State.moduleReset_keeps | apply State.updPins_keeps | apply State.recordRecovery_keeps | apply Keeps.ite | split | (intro)
      | extract_lets
  | succ n ih => unfold State.act; with_reducible repeat' first
      | apply ih | assumption | apply State.bump_keeps | apply State.selfLost_keeps | apply State.updRecov_keeps | apply State.partitionReset_keeps
      | apply State.moduleReset_keeps | apply State.updPins_keeps | apply State.recordRecovery_keeps | apply Keeps.ite | split | (intro)
      | extract_lets

theorem State.recover_keeps {pw : Bool} {s0 : State} {s : State} (unit : Nat) (level : Nat) (p : Nat) (sq : optParam Bool Bool.false) (hk : Keeps pw
    s0 s) : Keeps pw s0 (State.recover s unit level p sq) := by
  unfold State.recover; with_reducible repeat' first
    | assumption | apply State.updRecov_keeps | apply State.act_keeps | apply Keeps.ite | split | (intro) | extract_lets

theorem State.classify_keeps {pw : Bool} {s0 : State} {s : State} (x : Nat) (unit : Nat × Nat) (slot : Nat) (core : Nat) (opId : Nat) (layer : Nat)
    (temp : Int) (util : Nat) (cls : Nat) (hk : Keeps pw s0 s) : Keeps pw s0 (State.classify s x unit slot core opId layer temp util cls) := by
  unfold State.classify; with_reducible repeat' first
    | assumption | apply State.record_keeps | apply Keeps.ite | split | (intro) | extract_lets

theorem State.classRecord_keeps {pw : Bool} {s0 : State} {s : State} (x : Nat) (g : Nat) (slot : Nat) (core : Nat) (opId : Nat) (layer : Nat) (cls :
    Nat) (hk : Keeps pw s0 s) : Keeps pw s0 (State.classRecord s x g slot core opId layer cls) := by
  unfold State.classRecord; with_reducible repeat' first
    | assumption | apply State.updCluster_keeps | apply State.classify_keeps | apply State.setEvt_keeps | apply Keeps.ite | split | (intro)
    | extract_lets

theorem State.permanentSlot_keeps {pw : Bool} {s0 : State} {s : State} (x : Nat) (g : Nat) (slot : Nat) (core : Nat) (opId : Nat) (layer : Nat) (hk :
    Keeps pw s0 s) : Keeps pw s0 (State.permanentSlot s x g slot core opId layer) := by
  unfold State.permanentSlot; with_reducible repeat' first
    | assumption | apply State.classRecord_keeps | apply State.bump_keeps | apply State.wantFence_keeps | apply Keeps.ite | split | (intro)
    | extract_lets

theorem State.direct_keeps {pw : Bool} {s0 : State} {s : State} (g : Nat) (slot : Nat) (hk : Keeps pw s0 s) : Keeps pw s0 (State.direct s g slot) :=
    by
  unfold State.direct; with_reducible repeat' first
    | assumption | apply State.updRecov_keeps | apply Keeps.ite | split | (intro) | extract_lets

theorem State.ageDirected_keeps {pw : Bool} {s0 : State} {s : State} (mask : Nat) (hk : Keeps pw s0 s) : Keeps pw s0 (State.ageDirected s mask) := by
  unfold State.ageDirected; with_reducible repeat' first
    | assumption | apply State.updRecov_keeps | apply Keeps.ite | split | (intro) | extract_lets

theorem State.countTransient_keeps {pw : Bool} {s0 : State} {s : State} (key : Nat) (hk : Keeps pw s0 s) : Keeps pw s0 (State.countTransient s key).2
    := by
  unfold State.countTransient; with_reducible repeat' first
    | assumption | apply State.bump_keeps | apply State.updRecov_keeps | apply Keeps.ite | split | (intro) | extract_lets

theorem State.transientSlot_keeps {pw : Bool} {s0 : State} {s : State} (x : Nat) (g : Nat) (slot : Nat) (core : Nat) (opId : Nat) (layer : Nat) (cls
    : Nat) (hk : Keeps pw s0 s) : Keeps pw s0 (State.transientSlot s x g slot core opId layer cls) := by
  unfold State.transientSlot; with_reducible repeat' first
    | assumption | apply State.classRecord_keeps | apply State.updRecov_keeps | apply State.countTransient_keeps | apply State.direct_keeps
    | apply State.permanentSlot_keeps | apply Keeps.ite | split | (intro) | extract_lets

theorem State.unitClass_keeps {pw : Bool} {s0 : State} {s : State} (x : Nat) (p : Nat) (opId : Nat) (layer : Nat) (cls : Nat) (hk : Keeps pw s0 s) :
    Keeps pw s0 (State.unitClass s x p opId layer cls) := by
  unfold State.unitClass; with_reducible repeat' first
    | assumption | apply State.classify_keeps | apply Keeps.ite | split | (intro) | extract_lets

theorem State.permanentUnit_keeps {pw : Bool} {s0 : State} {s : State} (x : Nat) (key : Nat) (p : Nat) (engine : Option Nat) (opId : Nat) (layer :
    Nat) (hk : Keeps pw s0 s) : Keeps pw s0 (State.permanentUnit s x key p engine opId layer) := by
  unfold State.permanentUnit; with_reducible repeat' first
    | assumption | apply State.bump_keeps | apply State.unitClass_keeps | apply State.wantAct_keeps | apply State.recover_keeps | apply Keeps.ite
    | split | (intro) | extract_lets

theorem State.transientUnit_keeps {pw : Bool} {s0 : State} {s : State} (x : Nat) (key : Nat) (p : Nat) (engine : Option Nat) (opId : Nat) (layer :
    Nat) (cls : Nat) (hk : Keeps pw s0 s) : Keeps pw s0 (State.transientUnit s x key p engine opId layer cls) := by
  unfold State.transientUnit; with_reducible repeat' first
    | assumption | apply State.permanentUnit_keeps | apply State.countTransient_keeps | apply State.unitClass_keeps | apply Keeps.ite | split
    | (intro) | extract_lets

theorem State.transportUnit_keeps {pw : Bool} {s0 : State} {s : State} (x : Nat) (unit : Nat) (p : Nat) (opId : Nat) (layer : Nat) (hk : Keeps pw s0
    s) : Keeps pw s0 (State.transportUnit s x unit p opId layer) := by
  unfold State.transportUnit; with_reducible repeat' first
    | assumption | apply State.transientUnit_keeps | apply Keeps.ite | split | (intro) | extract_lets

theorem State.roleClass_keeps {pw : Bool} {s0 : State} {s : State} (x : Nat) (opId : Nat) (layer : Nat) (core : Nat) (role : Option Nat) (cls : Nat)
    (hk : Keeps pw s0 s) : Keeps pw s0 (State.roleClass s x opId layer core role cls) := by
  unfold State.roleClass; with_reducible repeat' first
    | assumption | apply State.bump_keeps | apply State.permanentUnit_keeps | apply State.transientSlot_keeps | apply State.classify_keeps
    | apply State.transientUnit_keeps | apply State.permanentSlot_keeps | apply Keeps.ite | split | (intro) | extract_lets

theorem State.exposure_keeps {pw : Bool} {s0 : State} {s : State} (x : Nat) (o : OpDesc) (unit : Nat) (role : Option Nat × Nat) (cls : Nat) (hk :
    Keeps pw s0 s) : Keeps pw s0 (State.exposure s x o unit role cls) := by
  unfold State.exposure; with_reducible repeat' first
    | assumption | apply State.bump_keeps | apply State.record_keeps | apply Keeps.ite | split | (intro) | extract_lets

theorem State.judge_keeps {pw : Bool} {s0 : State} {s : State} (x : Nat) (o : OpDesc) (unit : Nat) (role : Option Nat × Nat) (cls : Nat) (hk : Keeps
    pw s0 s) : Keeps pw s0 (State.judge s x o unit role cls) := by
  unfold State.judge; with_reducible repeat' first
    | assumption | apply State.roleClass_keeps | apply State.exposure_keeps | apply Keeps.ite | split | (intro) | extract_lets

theorem State.settleRepeat_keeps {pw : Bool} {s0 : State} {s : State} (x : Nat) (r : Repeat) (ran : Bool) (hk : Keeps pw s0 s) : Keeps pw s0
    (State.settleRepeat s x r ran) := by
  unfold State.settleRepeat; with_reducible repeat' first
    | assumption | apply State.judge_keeps | apply State.transientSlot_keeps | apply State.permanentSlot_keeps | apply Keeps.ite | split | (intro)
    | extract_lets

theorem State.finishRing_keeps {pw : Bool} {s0 : State} {s : State} (n : Nat) (status : Nat) (hk : Keeps pw s0 s) : Keeps pw s0 (State.finishRing s n
    status) := by
  unfold State.finishRing; with_reducible repeat' first
    | assumption | apply State.complete_keeps | apply Keeps.ite | split | (intro) | extract_lets

theorem State.emptyCtx_keeps {pw : Bool} {s0 : State} {s : State} (x : Nat) (hk : Keeps pw s0 s) : Keeps pw s0 (State.emptyCtx s x) := by
  unfold State.emptyCtx; with_reducible repeat' first
    | assumption | apply State.updClus_keeps | apply State.pwrNotify_keeps | apply State.setDomains_keeps | apply State.updRecov_keeps
    | apply State.updFab_keeps | apply State.idleClusters_keeps | apply State.finishRing_keeps | apply State.cancelDumps_keeps
    | apply State.updTel_keeps | apply forEach_keeps | apply State.setCtx_keeps | apply State.updPwrCtx_keeps | apply State.settleRepeat_keeps
    | apply Keeps.ite | split | (intro) | extract_lets

theorem State.pcError_keeps {pw : Bool} {s0 : State} {s : State} (a : Nat) (ue : Bool) (hk : Keeps pw s0 s) : Keeps pw s0 (State.pcError s a ue) := by
  unfold State.pcError; with_reducible repeat' first
    | assumption | refine State.updMem_keeps (fun _ => rfl) ?_ | apply State.wantAct_keeps | apply Keeps.ite | split | (intro) | extract_lets

theorem State.corrected_keeps {pw : Bool} {s0 : State} {s : State} (x : Option Nat) (a : Nat) (hk : Keeps pw s0 s) : Keeps pw s0 (State.corrected s x
    a) := by
  unfold State.corrected; with_reducible repeat' first
    | assumption | apply State.bump_keeps | apply State.pcError_keeps | apply State.updCtx_keeps | apply Keeps.ite | split | (intro) | extract_lets

theorem State.uncorrectable_keeps {pw : Bool} {s0 : State} {s : State} (a : Nat) (hk : Keeps pw s0 s) : Keeps pw s0 (State.uncorrectable s a) := by
  unfold State.uncorrectable; with_reducible repeat' first
    | assumption | apply State.bump_keeps | refine State.updMem_keeps (fun _ => rfl) ?_ | apply State.pcError_keeps | apply State.poisonBlock_keeps
    | apply State.setEvt_keeps | apply Keeps.ite | split | (intro) | extract_lets

theorem State.permanentBlock_keeps {pw : Bool} {s0 : State} {s : State} (x : Nat) (a : Nat) (opId : Nat) (layer : Nat) (hk : Keeps pw s0 s) : Keeps
    pw s0 (State.permanentBlock s x a opId layer) := by
  unfold State.permanentBlock; with_reducible repeat' first
    | assumption | apply State.bump_keeps | apply State.unitClass_keeps | apply Keeps.ite | split | (intro) | extract_lets

theorem State.badBlock_keeps {pw : Bool} {s0 : State} {s : State} (x : Nat) (a : Nat) (hk : Keeps pw s0 s) : Keeps pw s0 (State.badBlock s x a) := by
  unfold State.badBlock; with_reducible repeat' first
    | assumption | apply State.invalidate_keeps | apply State.fetchBlock_keeps | apply Keeps.ite | split | (intro) | extract_lets

theorem State.reportBlock_keeps {pw : Bool} {s0 : State} {s : State} (x : Nat) (a : Nat) (unit : Nat) (part : Nat) (opId : Nat) (layer : Nat) (poison
    : Bool) (hk : Keeps pw s0 s) : Keeps pw s0 (State.reportBlock s x a unit part opId layer poison) := by
  unfold State.reportBlock; with_reducible repeat' first
    | assumption | apply State.bump_keeps | apply State.report_keeps | apply Keeps.ite | split | (intro) | extract_lets

theorem State.readBlock_keeps {pw : Bool} {s0 : State} {s : State} (x : Nat) (a : Nat) (unit : Nat) (opId : Nat) (layer : Nat) (rd : ReadOutcome) (hk
    : Keeps pw s0 s) : Keeps pw s0 (State.readBlock s x a unit opId layer rd).2 := by
  unfold State.readBlock; with_reducible repeat' first
    | assumption | apply State.reportBlock_keeps | apply State.permanentBlock_keeps | apply State.corrected_keeps | apply State.badBlock_keeps
    | apply State.uncorrectable_keeps | apply State.pcError_keeps | apply State.transportUnit_keeps | apply Keeps.ite | split | (intro) | extract_lets

theorem State.writePart_keeps {pw : Bool} {s0 : State} {s : State} (x : Nat) (a : Nat) (opId : Nat) (layer : Nat) (bs : List Byte) (hk : Keeps pw s0
    s) : Keeps pw s0 (State.writePart s x a opId layer bs) := by
  unfold State.writePart; with_reducible repeat' first
    | assumption | apply State.writeBlock_keeps | apply State.readBlock_keeps | apply Keeps.ite | split | (intro) | extract_lets

theorem State.plan_keeps {pw : Bool} {s0 : State} {s : State} (x : Nat) (l : Nat) (hk : Keeps pw s0 s) : Keeps pw s0 (State.plan s x l) := by
  unfold State.plan; with_reducible repeat' first
    | assumption | apply State.bump_keeps | apply State.pwrNotify_keeps | apply State.updStage_keeps | apply forEach_keeps
    | apply State.updPwr_keeps | apply State.updCtx_keeps | apply State.updPwrCtx_keeps | apply Keeps.ite | apply foldl_keepsS | apply foldl_keeps1
    | apply foldl_keeps2 | split | (intro) | extract_lets

theorem State.powerLaunch_keeps {pw : Bool} {s0 : State} {s : State} (x : Nat) (hk : Keeps pw s0 s) : Keeps pw s0 (State.powerLaunch s x) := by
  unfold State.powerLaunch; with_reducible repeat' first
    | assumption | apply State.setDom_keeps | apply forEach_keeps | apply State.updPwrCtx_keeps | apply Keeps.ite | split | (intro) | extract_lets

theorem State.movePoints_keeps {pw : Bool} {s0 : State} {s : State} (x : Nat) (k : Nat) (kp : KMap Nat) (hk : Keeps pw s0 s) : Keeps pw s0
    (State.movePoints s x k kp) := by
  unfold State.movePoints; with_reducible repeat' first
    | assumption | apply State.bump_keeps | apply State.updStage_keeps | apply forEach_keeps | apply State.updPwr_keeps | apply State.updCtx_keeps
    | apply State.when_keeps | apply State.updPwrCtx_keeps | apply Keeps.ite | apply foldl_keepsS | apply foldl_keeps1 | apply foldl_keeps2 | split
    | (intro) | extract_lets

theorem State.project_keeps {pw : Bool} {s0 : State} {s : State} (x : Nat) (hk : Keeps pw s0 s) : Keeps pw s0 (State.project s x) := by
  unfold State.project; with_reducible repeat' first
    | assumption | apply State.movePoints_keeps | apply Keeps.ite | split | (intro) | extract_lets

theorem State.gate_keeps {pw : Bool} {s0 : State} {s : State} (x : Nat) (hk : Keeps pw s0 s) : Keeps pw s0 (State.gate s x) := by
  unfold State.gate; with_reducible repeat' first
    | assumption | apply State.setDom_keeps | apply forEach_keeps | apply Keeps.ite | split | (intro) | extract_lets

theorem State.powerCommit_keeps {pw : Bool} {s0 : State} {s : State} (x : Nat) (hk : Keeps pw s0 s) : Keeps pw s0 (State.powerCommit s x) := by
  unfold State.powerCommit; with_reducible repeat' first
    | assumption | apply State.bump_keeps | apply State.pwrNotify_keeps | apply State.record_keeps | apply State.updPwrCtx_keeps
    | apply State.setEvt_keeps | apply Keeps.ite | split | (intro) | extract_lets

theorem done_keeps {pw : Bool} {s0 : State} (status : Nat) (result : Nat) {s : State} (hk : Keeps pw s0 s) : Keeps pw s0 (done status result s).2 :=
    by
  unfold done; with_reducible repeat' first
    | assumption | apply Keeps.ite | split | (intro) | extract_lets

theorem later_keeps {pw : Bool} {s0 : State} {s : State} (hk : Keeps pw s0 s) : Keeps pw s0 (later s).2 := by
  unfold later; with_reducible repeat' first
    | assumption | apply Keeps.ite | split | (intro) | extract_lets

theorem State.hostPayload_keeps {pw : Bool} {s0 : State} {s : State} (a : Staged) (bytes : List Byte) (hk : Keeps pw s0 s) : Keeps pw s0
    (State.hostPayload s a bytes) := by
  unfold State.hostPayload; with_reducible repeat' first
    | assumption | apply State.emit_keeps | apply Keeps.ite | split | (intro) | extract_lets

theorem State.writeRaw_keeps {pw : Bool} {s0 : State} {s : State} (a : Nat) (a2 : Nat) (a3 : List Byte) (hk : Keeps pw s0 s) : Keeps pw s0
    (State.writeRaw s a a2 a3) := by
  induction a2 generalizing s a a3 with
  | zero => unfold State.writeRaw; with_reducible repeat' first
      | assumption | apply State.writeBytes_keeps | apply State.setCheck_keeps | apply Keeps.ite | split | (intro) | extract_lets
  | succ n ih => unfold State.writeRaw; with_reducible repeat' first
      | apply ih | assumption | apply State.writeBytes_keeps | apply State.setCheck_keeps | apply Keeps.ite | split | (intro) | extract_lets

theorem State.runLoader_keeps {pw : Bool} {s0 : State} {s : State} (x : Nat) (hk : Keeps pw s0 s) : Keeps pw s0 (State.runLoader s x).2 := by
  unfold State.runLoader; with_reducible repeat' first
    | assumption | apply done_keeps | apply State.emptyCtx_keeps | apply State.updCtx_keeps | apply State.updPwrCtx_keeps | apply Keeps.ite | split
    | (intro) | extract_lets

theorem State.bind_keeps {pw : Bool} {s0 : State} {s : State} (x : Nat) (hk : Keeps pw s0 s) : Keeps pw s0 (State.bind s x) := by
  unfold State.bind; with_reducible repeat' first
    | assumption | apply State.sendCtrl_keeps | apply State.updGey_keeps | apply Keeps.ite | split | (intro) | extract_lets

theorem State.notCoordinator_keeps {pw : Bool} {s0 : State} {s : State} (hk : Keeps pw s0 s) : Keeps pw s0 (State.notCoordinator s).2 := by
  unfold State.notCoordinator; with_reducible repeat' first
    | assumption | apply done_keeps | apply State.hint_keeps | apply Keeps.ite | split | (intro) | extract_lets

theorem State.toAll_keeps {pw : Bool} {s0 : State} {s : State} (x : Nat) (msg : Nat) (step : Nat) (attempt : Nat) (param : Nat) (payload : optParam
    (List Byte) []) (hk : Keeps pw s0 s) : Keeps pw s0 (State.toAll s x msg step attempt param payload) := by
  unfold State.toAll; with_reducible repeat' first
    | assumption | apply State.sendCtrl_keeps | apply forEach_keeps | apply Keeps.ite | split | (intro) | extract_lets

theorem State.resumeJob_keeps {pw : Bool} {s0 : State} {s : State} (x : Nat) (hk : Keeps pw s0 s) : Keeps pw s0 (State.resumeJob s x).2 := by
  unfold State.resumeJob; with_reducible repeat' first
    | assumption | apply State.updCoord_keeps | apply State.toAll_keeps | apply Keeps.ite | split | (intro) | extract_lets

theorem State.drainJob_keeps {pw : Bool} {s0 : State} {s : State} (x : Nat) (hk : Keeps pw s0 s) : Keeps pw s0 (State.drainJob s x) := by
  unfold State.drainJob; with_reducible repeat' first
    | assumption | apply State.updCoord_keeps | apply State.toAll_keeps | apply Keeps.ite | split | (intro) | extract_lets

theorem State.meter_keeps {pw : Bool} {s0 : State} {s : State} (x : Nat) (dst : Nat) (vc : Nat) (hk : Keeps pw s0 s) : Keeps pw s0 (State.meter s x
    dst vc) := by
  unfold State.meter; with_reducible repeat' first
    | assumption | apply State.bump_keeps | apply State.updFab_keeps | apply State.freshBool_keeps | apply State.updCtx_keeps | apply Keeps.ite
    | split | (intro) | extract_lets

theorem State.sendBlock_keeps {pw : Bool} {s0 : State} {s : State} (x : Nat) (dst : Nat) (bulk : Bool) (tensorId : Nat) (addr : Nat) (check : Nat)
    (bytes : List Byte) (step : Nat) (attempt : Nat) (ack : Bool) (hk : Keeps pw s0 s) : Keeps pw s0 (State.sendBlock s x dst bulk tensorId addr
    check bytes step attempt ack) := by
  unfold State.sendBlock; with_reducible repeat' first
    | assumption | apply State.updFab_keeps | apply forEach_keeps | apply State.meter_keeps | apply State.emit_keeps | apply Keeps.ite | split
    | (intro) | extract_lets

theorem State.hostWriteBlocks_keeps {pw : Bool} {s0 : State} {s : State} (x : Nat) (t : Tensor) (a : Nat) (a4 : Nat) (a5 : List Byte) (hk : Keeps pw
    s0 s) : Keeps pw s0 (State.hostWriteBlocks s x t a a4 a5) := by
  induction a4 generalizing s a a5 with
  | zero => unfold State.hostWriteBlocks; with_reducible repeat' first
      | assumption | apply State.writeBlock_keeps | apply State.sendBlock_keeps | apply Keeps.ite | split | (intro) | extract_lets
  | succ n ih => unfold State.hostWriteBlocks; with_reducible repeat' first
      | apply ih | assumption | apply State.writeBlock_keeps | apply State.sendBlock_keeps | apply Keeps.ite | split | (intro) | extract_lets

theorem State.hostReadBlocks_keeps {pw : Bool} {s0 : State} {s : State} (x : Nat) (t : Tensor) (a : Nat) (a4 : Nat) (a5 : ReadOutcome) (hk : Keeps pw
    s0 s) : Keeps pw s0 (State.hostReadBlocks s x t a a4 a5).2 := by
  induction a4 generalizing s a a5 with
  | zero => unfold State.hostReadBlocks; with_reducible repeat' first
      | assumption | apply State.readBlock_keeps | apply Keeps.ite | split | (intro) | extract_lets
  | succ n ih => unfold State.hostReadBlocks; with_reducible repeat' first
      | apply ih | assumption | apply State.readBlock_keeps | apply Keeps.ite | split | (intro) | extract_lets

theorem State.hostRead_keeps {pw : Bool} {s0 : State} {s : State} (x : Nat) (t : Tensor) (b : Nat) (n : Nat) (rd : ReadOutcome) (hk : Keeps pw s0 s)
    : Keeps pw s0 (State.hostRead s x t b n rd).2 := by
  unfold State.hostRead; with_reducible repeat' first
    | assumption | apply State.hostReadBlocks_keeps | apply State.updCtx_keeps | apply Keeps.ite | split | (intro) | extract_lets

theorem State.capture_keeps {pw : Bool} {s0 : State} {s : State} (x : Nat) (d : Dump) (t : Tensor) (opId : Nat) (layer : Nat) (attempt : Nat) (hk :
    Keeps pw s0 s) : Keeps pw s0 (State.capture s x d t opId layer attempt).1 := by
  unfold State.capture; with_reducible repeat' first
    | assumption | apply State.bump_keeps | apply State.readBlock_keeps | apply forEach_keeps | apply State.emit_keeps | apply Keeps.ite
    | apply foldl_keepsS | apply foldl_keeps1 | apply foldl_keeps2 | split | (intro) | extract_lets

theorem State.reportDump_keeps {pw : Bool} {s0 : State} {s : State} (d : Dump) (hk : Keeps pw s0 s) : Keeps pw s0 (State.reportDump s d) := by
  unfold State.reportDump; with_reducible repeat' first
    | assumption | apply State.emit_keeps | apply Keeps.ite | split | (intro) | extract_lets

theorem State.enableWrite_keeps {pw : Bool} {s0 : State} {s : State} (en : Bool) (hk : Keeps pw s0 s) : Keeps pw s0 (State.enableWrite s en) := by
  unfold State.enableWrite; with_reducible repeat' first
    | assumption | apply State.updMbx_keeps | apply Keeps.ite | split | (intro) | extract_lets

theorem State.ringWrite_keeps {pw : Bool} {s0 : State} {s : State} (n : Nat) (off : Nat) (v : Nat) (hk : Keeps pw s0 s) : Keeps pw s0
    (State.ringWrite s n off v) := by
  unfold State.ringWrite; with_reducible repeat' first
    | assumption | apply State.consume_keeps | apply State.updRing_keeps | apply Keeps.ite | split | (intro) | extract_lets

theorem State.updOut_keeps {pw : Bool} {s0 : State} {s : State} (die : Nat) (out : Nat) (vc : Nat) (f : OutVc → OutVc) (hk : Keeps pw s0 s) : Keeps
    pw s0 (State.updOut s die out vc f) := by
  unfold State.updOut; with_reducible repeat' first
    | assumption | apply State.updFab_keeps | apply Keeps.ite | split | (intro) | extract_lets

theorem State.freeInput_keeps {pw : Bool} {s0 : State} {s : State} (die : Nat) (inPort : Nat) (vc : Nat) (n : Nat) (hk : Keeps pw s0 s) : Keeps pw s0
    (State.freeInput s die inPort vc n) := by
  unfold State.freeInput; with_reducible repeat' first
    | assumption | apply State.updOut_keeps | apply State.updPort_keeps | apply Keeps.ite | split | (intro) | extract_lets

theorem State.grant_keeps {pw : Bool} {s0 : State} {s : State} (die : Nat) (inPort : Nat) (w : Nat) (h : Hop) (hk : Keeps pw s0 s) : Keeps pw s0
    (State.grant s die inPort w h) := by
  unfold State.grant; with_reducible repeat' first
    | assumption | apply State.bump_keeps | apply State.freeInput_keeps | apply State.updOut_keeps | apply State.updFab_keeps
    | apply State.updPort_keeps | apply State.emit_keeps | apply Keeps.ite | split | (intro) | extract_lets

theorem State.noteStall_keeps {pw : Bool} {s0 : State} {s : State} (die : Nat) (out : Nat) (hk : Keeps pw s0 s) : Keeps pw s0 (State.noteStall s die
    out) := by
  unfold State.noteStall; with_reducible repeat' first
    | assumption | apply State.bump_keeps | apply State.updFab_keeps | apply Keeps.ite | split | (intro) | extract_lets

theorem State.drain_keeps {pw : Bool} {s0 : State} (a : Nat) {a1 : State} (a2 : Nat) (a3 : Nat) (hk : Keeps pw s0 a1) : Keeps pw s0 (State.drain a a1
    a2 a3) := by
  induction a generalizing a1 a2 a3 with
  | zero => unfold State.drain; with_reducible repeat' first
      | assumption | apply State.grant_keeps | apply State.updFab_keeps | apply State.noteStall_keeps | apply Keeps.ite | split | (intro)
      | extract_lets
  | succ n ih => unfold State.drain; with_reducible repeat' first
      | apply ih | assumption | apply State.grant_keeps | apply State.updFab_keeps | apply State.noteStall_keeps | apply Keeps.ite | split
      | (intro) | extract_lets

theorem State.drainOut_keeps {pw : Bool} {s0 : State} {s : State} (die : Nat) (out : Nat) (hk : Keeps pw s0 s) : Keeps pw s0 (State.drainOut s die
    out) := by
  unfold State.drainOut; with_reducible repeat' first
    | assumption | apply State.drain_keeps | apply Keeps.ite | apply State.drain_keeps | split | (intro) | extract_lets

theorem State.drainAll_keeps {pw : Bool} {s0 : State} {s : State} (hk : Keeps pw s0 s) : Keeps pw s0 (State.drainAll s) := by
  unfold State.drainAll; with_reducible repeat' first
    | assumption | apply forEach_keeps | apply State.drainOut_keeps | apply Keeps.ite | split | (intro) | extract_lets

theorem State.announceBreak_keeps {pw : Bool} {s0 : State} {s : State} (v : Nat) (isBreak : Bool) (hk : Keeps pw s0 s) : Keeps pw s0
    (State.announceBreak s v isBreak) := by
  unfold State.announceBreak; with_reducible repeat' first
    | assumption | apply State.sendCtrl_keeps | apply State.updFab_keeps | apply forEach_keeps | apply Keeps.ite | split | (intro) | extract_lets

theorem State.noteBundle_keeps {pw : Bool} {s0 : State} {s : State} (v : Nat) (hk : Keeps pw s0 s) : Keeps pw s0 (State.noteBundle s v) := by
  unfold State.noteBundle; with_reducible repeat' first
    | assumption | apply State.drainAll_keeps | apply State.updFab_keeps | apply State.announceBreak_keeps | apply Keeps.ite | split | (intro)
    | extract_lets

theorem State.setOutcome_keeps {pw : Bool} {s0 : State} {s : State} (p : Nat) (st : PortSt) (hk : Keeps pw s0 s) : Keeps pw s0 (State.setOutcome s p
    st) := by
  unfold State.setOutcome; with_reducible repeat' first
    | assumption | apply State.bump_keeps | apply State.updPort_keeps | apply State.noteBundle_keeps | apply Keeps.ite | split | (intro)
    | extract_lets

theorem State.evaluate_keeps {pw : Bool} {s0 : State} {s : State} (p : Nat) (i : IdentData) (hk : Keeps pw s0 s) : Keeps pw s0 (State.evaluate s p i)
    := by
  unfold State.evaluate; with_reducible repeat' first
    | assumption | apply State.setOutcome_keeps | refine State.updFlash_keeps (fun _ => ⟨rfl, rfl, rfl, rfl⟩) ?_ | apply State.setEvt_keeps
    | apply State.updPort_keeps | apply Keeps.ite | split | (intro) | extract_lets

theorem State.evaluateAgain_keeps {pw : Bool} {s0 : State} {s : State} (p : Nat) (hk : Keeps pw s0 s) : Keeps pw s0 (State.evaluateAgain s p) := by
  unfold State.evaluateAgain; with_reducible repeat' first
    | assumption | apply State.evaluate_keeps | apply Keeps.ite | split | (intro) | extract_lets

theorem State.fenceSlot_keeps {pw : Bool} {s0 : State} {s : State} (g : Nat) (slot : Nat) (quiet : optParam Bool Bool.false) (hk : Keeps pw s0 s) :
    Keeps pw s0 (State.fenceSlot s g slot quiet) := by
  unfold State.fenceSlot; dsimp only; with_reducible repeat' first
    | assumption | apply State.updRecov_keeps | refine State.updFlash_keeps (fun _ => ⟨rfl, rfl, rfl, rfl⟩) ?_ | apply State.selfLost_keeps
    | apply State.updCluster_keeps | apply State.setEvt_keeps | apply Keeps.ite
    | refine State.updFlash_keeps_le (Nat.le_refl _) (Nat.le_refl _) (Nat.le_refl _) (fun _ _ => mem_fencedSlots) ?_ | split | (intro) | extract_lets

theorem State.retirePc_keeps {pw : Bool} {s0 : State} {s : State} (k : Nat) (hk : Keeps pw s0 s) : Keeps pw s0 (State.retirePc s k) := by
  unfold State.retirePc; with_reducible repeat' first
    | assumption | refine State.updFlash_keeps (fun _ => ⟨rfl, rfl, rfl, rfl⟩) ?_ | apply State.selfLost_keeps
    | refine State.updMem_keeps (fun _ => rfl) ?_ | apply State.setEvt_keeps | apply State.recover_keeps | apply Keeps.ite | split | (intro)
    | extract_lets

theorem State.fenceEngine_keeps {pw : Bool} {s0 : State} {s : State} (u : Nat) (hk : Keeps pw s0 s) : Keeps pw s0 (State.fenceEngine s u) := by
  unfold State.fenceEngine; with_reducible repeat' first
    | assumption | apply State.updRecov_keeps | refine State.updFlash_keeps (fun _ => ⟨rfl, rfl, rfl, rfl⟩) ?_ | apply State.recover_keeps
    | apply Keeps.ite | split | (intro) | extract_lets

theorem State.goLive_keeps {pw : Bool} {s0 : State} {s : State} (c : Cfg) (hk : Keeps pw s0 s) : Keeps pw s0 (State.goLive s c) := by
  unfold State.goLive; with_reducible repeat' first
    | assumption | apply State.setCfg_keeps | refine State.updId_keeps (fun _ => ⟨rfl, rfl⟩) ?_ | apply State.record_keeps
    | apply State.evaluateAgain_keeps | apply forEach_keeps | apply Keeps.ite | split | (intro) | extract_lets

theorem State.applyLive_keeps {pw : Bool} {s0 : State} {s : State} (hk : Keeps pw s0 s) : Keeps pw s0 (State.applyLive s) := by
  unfold State.applyLive; with_reducible repeat' first
    | assumption | apply State.goLive_keeps | apply Keeps.ite | split | (intro) | extract_lets

theorem State.boundary_keeps {pw : Bool} {s0 : State} {s : State} (x : Nat) (hk : Keeps pw s0 s) : Keeps pw s0 (State.boundary s x) := by
  unfold State.boundary; with_reducible repeat' first
    | assumption | apply State.retirePc_keeps | apply State.fenceSlot_keeps | apply State.updRecov_keeps | apply State.updFab_keeps
    | apply State.updCluster_keeps | apply State.applyLive_keeps | apply forEach_keeps | apply State.fenceEngine_keeps | apply Keeps.ite
    | apply foldl_keepsS | apply foldl_keeps1 | apply foldl_keeps2 | split | (intro) | extract_lets

theorem State.launchStep_keeps {pw : Bool} {s0 : State} {s : State} (x : Nat) (hk : Keeps pw s0 s) : Keeps pw s0 (State.launchStep s x) := by
  unfold State.launchStep; with_reducible repeat' first
    | assumption | apply State.record_keeps | apply State.updCtx_keeps | apply State.powerLaunch_keeps | apply Keeps.ite | split | (intro)
    | extract_lets

theorem State.setLaunch_keeps {pw : Bool} {s0 : State} {s : State} (x : Nat) (l : Nat) (hk : Keeps pw s0 s) : Keeps pw s0 (State.setLaunch s x l) :=
    by
  unfold State.setLaunch; with_reducible repeat' first
    | assumption | apply State.launchStep_keeps | apply State.updCtx_keeps | apply Keeps.ite | split | (intro) | extract_lets

theorem State.sendPmap_keeps {pw : Bool} {s0 : State} {s : State} (x : Nat) (hk : Keeps pw s0 s) : Keeps pw s0 (State.sendPmap s x) := by
  unfold State.sendPmap; with_reducible repeat' first
    | assumption | apply State.toAll_keeps | apply Keeps.ite | apply foldl_keepsS | apply foldl_keeps1 | apply foldl_keeps2 | split | (intro)
    | extract_lets

theorem State.tryStart_keeps {pw : Bool} {s0 : State} {s : State} (x : Nat) (hk : Keeps pw s0 s) : Keeps pw s0 (State.tryStart s x) := by
  unfold State.tryStart; with_reducible repeat' first
    | assumption | apply State.sendPmap_keeps | apply State.record_keeps | apply State.updCoord_keeps | apply State.updCtx_keeps
    | apply State.toAll_keeps | apply Keeps.ite | split | (intro) | extract_lets

theorem State.toSome_keeps {pw : Bool} {s0 : State} {s : State} (x : Nat) (dest : List Nat) (msg : Nat) (step : Nat) (attempt : Nat) (param : Nat)
    (hk : Keeps pw s0 s) : Keeps pw s0 (State.toSome s x dest msg step attempt param) := by
  unfold State.toSome; with_reducible repeat' first
    | assumption | apply State.sendCtrl_keeps | apply forEach_keeps | apply Keeps.ite | split | (intro) | extract_lets

theorem State.checkpoint_keeps {pw : Bool} {s0 : State} {s : State} (x : Nat) (n : Nat) (forHold : Bool) (hk : Keeps pw s0 s) : Keeps pw s0
    (State.checkpoint s x n forHold) := by
  unfold State.checkpoint; with_reducible repeat' first
    | assumption | apply State.updCoord_keeps | apply State.toAll_keeps | apply Keeps.ite | split | (intro) | extract_lets

theorem State.tryCommit_keeps {pw : Bool} {s0 : State} {s : State} (x : Nat) (hk : Keeps pw s0 s) : Keeps pw s0 (State.tryCommit s x) := by
  unfold State.tryCommit; with_reducible repeat' first
    | assumption | apply State.checkpoint_keeps | apply State.updCoord_keeps | apply State.toAll_keeps | apply Keeps.ite | split | (intro)
    | extract_lets

theorem State.holdStep_keeps {pw : Bool} {s0 : State} {s : State} (x : Nat) (reason : Nat) (hk : Keeps pw s0 s) : Keeps pw s0 (State.holdStep s x
    reason) := by
  unfold State.holdStep; with_reducible repeat' first
    | assumption | apply State.updCoord_keeps | apply State.toAll_keeps | apply Keeps.ite | split | (intro) | extract_lets

theorem State.issueReexec_keeps {pw : Bool} {s0 : State} {s : State} (x : Nat) (hk : Keeps pw s0 s) : Keeps pw s0 (State.issueReexec s x) := by
  unfold State.issueReexec; with_reducible repeat' first
    | assumption | apply State.updCoord_keeps | apply State.toAll_keeps | apply Keeps.ite | split | (intro) | extract_lets

theorem State.collect_keeps {pw : Bool} {s0 : State} {s : State} (x : Nat) (hk : Keeps pw s0 s) : Keeps pw s0 (State.collect s x) := by
  unfold State.collect; with_reducible repeat' first
    | assumption | apply State.updCoord_keeps | apply Keeps.ite | split | (intro) | extract_lets

theorem State.restorePair_keeps {pw : Bool} {s0 : State} {s : State} (x : Nat) (lost : Nat) (hk : Keeps pw s0 s) : Keeps pw s0 (State.restorePair s x
    lost) := by
  unfold State.restorePair; dsimp only; with_reducible repeat' first
    | assumption | apply State.sendPmap_keeps | apply State.updCoord_keeps | apply State.updCtx_keeps | apply State.toAll_keeps | apply Keeps.ite
    | split | (intro) | extract_lets

theorem State.failByLoss_keeps {pw : Bool} {s0 : State} {s : State} (x : Nat) (hk : Keeps pw s0 s) : Keeps pw s0 (State.failByLoss s x) := by
  unfold State.failByLoss; with_reducible repeat' first
    | assumption | apply State.holdStep_keeps | apply State.collect_keeps | apply State.updCoord_keeps | apply Keeps.ite | split | (intro)
    | extract_lets

theorem State.declareLost_keeps {pw : Bool} {s0 : State} {s : State} (x : Nat) (lost : Nat) (counted : optParam Bool Bool.false) (hk : Keeps pw s0 s)
    : Keeps pw s0 (State.declareLost s x lost counted) := by
  unfold State.declareLost; with_reducible repeat' first
    | assumption | apply State.holdStep_keeps | apply State.bump_keeps | apply State.restorePair_keeps | apply State.sendPmap_keeps
    | apply State.failByLoss_keeps | apply State.collect_keeps | apply State.updCoord_keeps | apply State.freshBool_keeps
    | apply State.toSome_keeps | apply State.updCtx_keeps | apply State.when_keeps | apply State.toAll_keeps | apply Keeps.ite | split | (intro)
    | extract_lets

theorem State.failAttempt_keeps {pw : Bool} {s0 : State} {s : State} (x : Nat) (src : Nat) (hk : Keeps pw s0 s) : Keeps pw s0 (State.failAttempt s x
    src) := by
  unfold State.failAttempt; with_reducible repeat' first
    | assumption | apply State.holdStep_keeps | apply State.collect_keeps | apply State.updCoord_keeps | apply State.declareLost_keeps
    | apply Keeps.ite | split | (intro) | extract_lets

theorem State.takeOver_keeps {pw : Bool} {s0 : State} {s : State} (x : Nat) (hk : Keeps pw s0 s) : Keeps pw s0 (State.takeOver s x) := by
  unfold State.takeOver; with_reducible repeat' first
    | assumption | apply State.bump_keeps | apply State.updPins_keeps | apply State.updCoord_keeps | apply State.toAll_keeps | apply Keeps.ite
    | split | (intro) | extract_lets

theorem State.settleTakeover_keeps {pw : Bool} {s0 : State} {s : State} (x : Nat) (hk : Keeps pw s0 s) : Keeps pw s0 (State.settleTakeover s x) := by
  unfold State.settleTakeover; with_reducible repeat' first
    | assumption | apply State.collect_keeps | apply State.issueReexec_keeps | apply State.updCoord_keeps | apply State.tryCommit_keeps
    | apply State.toSome_keeps | apply Keeps.ite | apply foldl_keepsS | apply foldl_keeps1 | apply foldl_keeps2 | split | (intro) | extract_lets

theorem State.coordAct_keeps {pw : Bool} {s0 : State} {s : State} (x : Nat) (hk : Keeps pw s0 s) : Keeps pw s0 (State.coordAct s x) := by
  unfold State.coordAct; with_reducible repeat' first
    | assumption | apply State.tryStart_keeps | apply State.tryCommit_keeps | apply Keeps.ite | split | (intro) | extract_lets

theorem State.subContent_keeps {pw : Bool} {s0 : State} {s : State} (stream : Nat) (domain : Nat) (bytes : List Byte) (hk : Keeps pw s0 s) : Keeps pw
    s0 (State.subContent s stream domain bytes) := by
  unfold State.subContent; with_reducible repeat' first
    | assumption | apply State.updTel_keeps | apply Keeps.ite | split | (intro) | extract_lets

theorem State.assess_keeps {pw : Bool} {s0 : State} {s : State} (kind : Nat) (metric : Nat) (set : Bool) (domain : Nat) (key : Nat) (hk : Keeps pw s0
    s) : Keeps pw s0 (State.assess s kind metric set domain key) := by
  unfold State.assess; with_reducible repeat' first
    | assumption | apply State.subContent_keeps | apply Keeps.ite | split | (intro) | extract_lets

theorem State.judgeStraggler_keeps {pw : Bool} {s0 : State} {s : State} (x : Nat) (t : TelPkt) (step : Nat) (hk : Keeps pw s0 s) : Keeps pw s0
    (State.judgeStraggler s x t step) := by
  unfold State.judgeStraggler; with_reducible repeat' first
    | assumption | apply State.updTel_keeps | apply State.assess_keeps | apply State.setEvt_keeps | apply Keeps.ite | split | (intro) | extract_lets

theorem State.judgeMetric_keeps {pw : Bool} {s0 : State} {s : State} (t : TelPkt) (xs : List Nat) (j : Nat) (hk : Keeps pw s0 s) : Keeps pw s0
    (State.judgeMetric s t xs j) := by
  unfold State.judgeMetric; with_reducible repeat' first
    | assumption | apply State.updTel_keeps | apply State.assess_keeps | apply State.setEvt_keeps | apply Keeps.ite | split | (intro) | extract_lets

theorem State.judgeFleet_keeps {pw : Bool} {s0 : State} {s : State} (t : TelPkt) (hk : Keeps pw s0 s) : Keeps pw s0 (State.judgeFleet s t) := by
  unfold State.judgeFleet; with_reducible repeat' first
    | assumption | apply State.subContent_keeps | apply forEach_keeps | apply State.judgeMetric_keeps | apply Keeps.ite | split | (intro)
    | extract_lets

theorem State.judgeJob_keeps {pw : Bool} {s0 : State} {s : State} (x : Nat) (t : TelPkt) (step : Nat) (attempt : Nat) (hk : Keeps pw s0 s) : Keeps pw
    s0 (State.judgeJob s x t step attempt) := by
  unfold State.judgeJob; with_reducible repeat' first
    | assumption | apply State.subContent_keeps | apply State.judgeStraggler_keeps | apply Keeps.ite | split | (intro) | extract_lets

theorem State.judgeWaiting_keeps {pw : Bool} {s0 : State} {s : State} (domain : Nat) (step : Nat) (attempt : Nat) (hk : Keeps pw s0 s) : Keeps pw s0
    (State.judgeWaiting s domain step attempt) := by
  unfold State.judgeWaiting; with_reducible repeat' first
    | assumption | apply State.judgeJob_keeps | apply State.updTel_keeps | apply forEach_keeps | apply Keeps.ite | split | (intro) | extract_lets

theorem State.telResult_keeps {pw : Bool} {s0 : State} {s : State} (t : TelPkt) (step : Nat) (attempt : Nat) (hk : Keeps pw s0 s) : Keeps pw s0
    (State.telResult s t step attempt) := by
  unfold State.telResult; with_reducible repeat' first
    | assumption | apply State.judgeJob_keeps | apply State.updTel_keeps | apply State.judgeFleet_keeps | apply forEach_keeps
    | apply State.emit_keeps | apply Keeps.ite | split | (intro) | extract_lets

theorem State.putTelSlot_keeps {pw : Bool} {s0 : State} {s : State} (q : TelSlot) (hk : Keeps pw s0 s) : Keeps pw s0 (State.putTelSlot s q) := by
  unfold State.putTelSlot; with_reducible repeat' first
    | assumption | apply State.bump_keeps | apply State.updTel_keeps | apply Keeps.ite | split | (intro) | extract_lets

theorem State.releaseTelSlots_keeps {pw : Bool} {s0 : State} {s : State} (f : TelSlot → Bool) (hk : Keeps pw s0 s) : Keeps pw s0
    (State.releaseTelSlots s f) := by
  unfold State.releaseTelSlots; with_reducible repeat' first
    | assumption | apply State.bump_keeps | apply State.updTel_keeps | apply Keeps.ite | split | (intro) | extract_lets

theorem State.freeTelSlots_keeps {pw : Bool} {s0 : State} {s : State} (domain : Nat) (step : Nat) (hk : Keeps pw s0 s) : Keeps pw s0
    (State.freeTelSlots s domain step) := by
  unfold State.freeTelSlots; with_reducible repeat' first
    | assumption | apply State.releaseTelSlots_keeps | apply Keeps.ite | split | (intro) | extract_lets

theorem State.telSend_keeps {pw : Bool} {s0 : State} {s : State} (q : TelSlot) (parent : Nat) (hk : Keeps pw s0 s) : Keeps pw s0 (State.telSend s q
    parent) := by
  unfold State.telSend; with_reducible repeat' first
    | assumption | apply State.emit_keeps | apply State.putTelSlot_keeps | apply Keeps.ite | split | (intro) | extract_lets

theorem State.telFinal_keeps {pw : Bool} {s0 : State} {s : State} (q : TelSlot) (hk : Keeps pw s0 s) : Keeps pw s0 (State.telFinal s q) := by
  unfold State.telFinal; with_reducible repeat' first
    | assumption | apply State.telResult_keeps | apply State.putTelSlot_keeps | apply Keeps.ite | split | (intro) | extract_lets

theorem State.telAdvance_keeps {pw : Bool} {s0 : State} {s : State} (q : TelSlot) (hk : Keeps pw s0 s) : Keeps pw s0 (State.telAdvance s q) := by
  unfold State.telAdvance; with_reducible repeat' first
    | assumption | apply State.telFinal_keeps | apply State.telSend_keeps | apply Keeps.ite | split | (intro) | extract_lets

theorem State.telUpset_keeps {pw : Bool} {s0 : State} {s : State} (q : TelSlot) (hk : Keeps pw s0 s) : Keeps pw s0 (State.telUpset s q) := by
  unfold State.telUpset; with_reducible repeat' first
    | assumption | apply State.bump_keeps | apply State.countTransient_keeps | apply State.record_keeps | apply State.updTel_keeps
    | apply State.recover_keeps | apply State.putTelSlot_keeps | apply Keeps.ite | split | (intro) | extract_lets

theorem State.telFold_keeps {pw : Bool} {s0 : State} {s : State} (tree : Nat) (group : Nat) (key : Nat) (attempt : Nat) (src : Nat) (contrib : Nat)
    (entries : List Nat) (upset : Nat) (hk : Keeps pw s0 s) : Keeps pw s0 (State.telFold s tree group key attempt src contrib entries upset) := by
  unfold State.telFold; with_reducible repeat' first
    | assumption | apply State.bump_keeps | apply State.telUpset_keeps | apply State.telAdvance_keeps | apply State.putTelSlot_keeps
    | apply Keeps.ite | split | (intro) | extract_lets

theorem State.contributeLateness_keeps {pw : Bool} {s0 : State} {s : State} (x : Nat) (hk : Keeps pw s0 s) : Keeps pw s0 (State.contributeLateness s
    x) := by
  unfold State.contributeLateness; with_reducible repeat' first
    | assumption | apply State.telFold_keeps | apply Keeps.ite | split | (intro) | extract_lets

theorem State.leaveFirst_keeps {pw : Bool} {s0 : State} {s : State} (x : Nat) (hk : Keeps pw s0 s) : Keeps pw s0 (State.leaveFirst s x) := by
  unfold State.leaveFirst; with_reducible repeat' first
    | assumption | apply State.contributeLateness_keeps | apply State.updExec_keeps | apply Keeps.ite | split | (intro) | extract_lets

theorem State.ventRecord_keeps {pw : Bool} {s0 : State} {s : State} (b : Sub) (p : Nat) (seq : Nat) (k : Nat) (body : List Byte) (hk : Keeps pw s0 s)
    : Keeps pw s0 (State.ventRecord s b p seq k body) := by
  unfold State.ventRecord; with_reducible repeat' first
    | assumption | apply State.bump_keeps | apply forEach_keeps | apply State.emit_keeps | apply Keeps.ite | split | (intro) | extract_lets

theorem State.flushVent_keeps {pw : Bool} {s0 : State} {s : State} (hk : Keeps pw s0 s) : Keeps pw s0 (State.flushVent s) := by
  unfold State.flushVent; with_reducible repeat' first
    | assumption | apply State.updTel_keeps | apply forEach_keeps | apply State.ventRecord_keeps | apply Keeps.ite | split | (intro) | extract_lets

theorem State.onJob_keeps {pw : Bool} {s0 : State} {s : State} (src : Nat) (epoch : Nat) (f : Nat → State → State) (hk : Keeps pw s0 s) (hf : ∀ (x0 :
    Nat) (x1 : State), Keeps pw s0 x1 → Keeps pw s0 (f x0 x1)) : Keeps pw s0 (State.onJob s src epoch f) := by
  unfold State.onJob; with_reducible repeat' first
    | assumption | apply State.epochIn_keeps | apply hf | apply Keeps.ite | split | (intro) | extract_lets

theorem State.completeRing_keeps {pw : Bool} {s0 : State} {s : State} (n : Nat) (status : Nat) (result : Nat) (hk : Keeps pw s0 s) : Keeps pw s0
    (State.completeRing s n status result) := by
  unfold State.completeRing; with_reducible repeat' first
    | assumption | apply State.complete_keeps | apply Keeps.ite | split | (intro) | extract_lets

theorem State.settleRepeats_keeps {pw : Bool} {s0 : State} {s : State} (x : Nat) (ran : Bool) (hk : Keeps pw s0 s) : Keeps pw s0 (State.settleRepeats
    s x ran) := by
  unfold State.settleRepeats; with_reducible repeat' first
    | assumption | apply State.updRecov_keeps | apply forEach_keeps | apply State.settleRepeat_keeps | apply Keeps.ite | split | (intro)
    | extract_lets

theorem effStepConfirm_keeps {pw : Bool} {s0 : State} (h : Hdr) {s : State} (hk : Keeps pw s0 s) : Keeps pw s0 (effStepConfirm h s) := by
  unfold effStepConfirm; with_reducible repeat' first
    | assumption | apply State.updCoord_keeps | apply State.tryCommit_keeps | apply Keeps.ite | split | (intro) | extract_lets

theorem effFaultReport_keeps {pw : Bool} {s0 : State} (h : Hdr) (f : FaultParam) {s : State} (hk : Keeps pw s0 s) : Keeps pw s0 (effFaultReport h f
    s) := by
  unfold effFaultReport; with_reducible repeat' first
    | assumption | apply State.holdStep_keeps | apply State.failAttempt_keeps | apply State.record_keeps | apply State.updCoord_keeps
    | apply Keeps.ite | split | (intro) | extract_lets

theorem State.dumpsDone_keeps {pw : Bool} {s0 : State} {s : State} (x : Nat) (n : Nat) (hk : Keeps pw s0 s) : Keeps pw s0 (State.dumpsDone s x n) :=
    by
  unfold State.dumpsDone; with_reducible repeat' first
    | assumption | apply forEach_keeps | apply State.updCtx_keeps | apply State.reportDump_keeps | apply State.capture_keeps | apply Keeps.ite
    | split | (intro) | extract_lets

theorem State.addRecord_keeps {pw : Bool} {s0 : State} {s : State} (x : Nat) (step : Nat) (l : Nat) (commitTick : Nat) (hk : Keeps pw s0 s) : Keeps
    pw s0 (State.addRecord s x step l commitTick) := by
  unfold State.addRecord; with_reducible repeat' first
    | assumption | apply State.bump_keeps | apply State.updCtx_keeps | apply State.when_keeps | apply Keeps.ite | split | (intro) | extract_lets

theorem State.boundaryRings_keeps {pw : Bool} {s0 : State} {s : State} (x : Nat) (n : Nat) (hk : Keeps pw s0 s) : Keeps pw s0 (State.boundaryRings s
    x n) := by
  unfold State.boundaryRings; with_reducible repeat' first
    | assumption | apply State.completeRing_keeps | apply forEach_keeps | apply State.updCtx_keeps | apply State.drainJob_keeps | apply Keeps.ite
    | split | (intro) | extract_lets

theorem effCommit_keeps {pw : Bool} {s0 : State} (h : Hdr) (launch : Nat) (hold : Bool) (epoch : Nat) {s : State} (hk : Keeps pw s0 s) : Keeps pw s0
    (effCommit h launch hold epoch s) := by
  unfold effCommit; with_reducible repeat' first
    | assumption | apply State.onJob_keeps | apply State.closeStepRecords_keeps | apply State.ageDirected_keeps | apply State.judgeWaiting_keeps
    | apply State.commitSlots_keeps | apply State.setLaunch_keeps | apply State.boundary_keeps | apply State.powerCommit_keeps
    | apply State.gate_keeps | apply State.plan_keeps | apply State.freeTelSlots_keeps | apply State.dumpsDone_keeps | apply State.updCtx_keeps
    | apply State.boundaryRings_keeps | apply State.addRecord_keeps | apply Keeps.ite | split | (intro) | extract_lets

theorem effReexec_keeps {pw : Bool} {s0 : State} (h : Hdr) (launch : Nat) (epoch : Nat) {s : State} (hk : Keeps pw s0 s) : Keeps pw s0 (effReexec h
    launch epoch s) := by
  unfold effReexec; with_reducible repeat' first
    | assumption | apply State.onJob_keeps | apply State.bump_keeps | apply State.setLaunch_keeps | apply State.boundary_keeps
    | apply State.reloadImages_keeps | apply State.record_keeps | apply State.discard_keeps | apply State.settleRepeats_keeps
    | apply State.updCtx_keeps | apply Keeps.ite | split | (intro) | extract_lets

theorem effModuleLost_keeps {pw : Bool} {s0 : State} (h : Hdr) (lost : Nat) (spare : Nat) (epoch : Nat) {s : State} (hk : Keeps pw s0 s) : Keeps pw
    s0 (effModuleLost h lost spare epoch s) := by
  unfold effModuleLost; with_reducible repeat' first
    | assumption | apply State.emptyCtx_keeps | apply State.onJob_keeps | apply State.updGey_keeps | apply State.bind_keeps
    | apply State.record_keeps | apply State.discard_keeps | apply State.noticeReady_keeps | apply State.freshBool_keeps | apply State.updCtx_keeps
    | apply Keeps.ite | split | (intro) | extract_lets

theorem State.armedFrom_keeps {pw : Bool} {s0 : State} {s : State} (src : Nat) (digest : Nat) (hk : Keeps pw s0 s) : Keeps pw s0 (State.armedFrom s
    src digest) := by
  unfold State.armedFrom; with_reducible repeat' first
    | assumption | apply State.tryStart_keeps | apply State.updFab_keeps | apply State.updCoord_keeps | apply forEach_keeps
    | apply State.toSome_keeps | apply Keeps.ite | split | (intro) | extract_lets

theorem effArmed_keeps {pw : Bool} {s0 : State} (h : Hdr) (digest : Nat) {s : State} (hk : Keeps pw s0 s) : Keeps pw s0 (effArmed h digest s) := by
  unfold effArmed; with_reducible repeat' first
    | assumption | apply State.updFab_keeps | apply forEach_keeps | apply State.armedFrom_keeps | apply Keeps.ite | split | (intro) | extract_lets

theorem effStart_keeps {pw : Bool} {s0 : State} (h : Hdr) (launch : Nat) (policy : Nat) (epoch : Nat) {s : State} (hk : Keeps pw s0 s) : Keeps pw s0
    (effStart h launch policy epoch s) := by
  unfold effStart; with_reducible repeat' first
    | assumption | apply State.onJob_keeps | apply State.fresh_keeps | apply State.setLaunch_keeps | apply State.boundary_keeps
    | apply State.plan_keeps | apply State.updCtx_keeps | apply State.addRecord_keeps | apply Keeps.ite | split | (intro) | extract_lets

theorem effPmap_keeps {pw : Bool} {s0 : State} (h : Hdr) (part : Nat) (bitmap : Nat) (epoch : Nat) {s : State} (hk : Keeps pw s0 s) : Keeps pw s0
    (effPmap h part bitmap epoch s) := by
  unfold effPmap; with_reducible repeat' first
    | assumption | apply State.onJob_keeps | apply State.updCtx_keeps | apply Keeps.ite | apply foldl_keepsS | apply foldl_keeps1
    | apply foldl_keeps2 | split | (intro) | extract_lets

theorem effResume_keeps {pw : Bool} {s0 : State} (h : Hdr) (launch : Nat) (epoch : Nat) {s : State} (hk : Keeps pw s0 s) : Keeps pw s0 (effResume h
    launch epoch s) := by
  unfold effResume; with_reducible repeat' first
    | assumption | apply State.onJob_keeps | apply State.setLaunch_keeps | apply State.boundary_keeps | apply State.plan_keeps
    | apply State.updCtx_keeps | apply Keeps.ite | split | (intro) | extract_lets

theorem effHostLoss_keeps {pw : Bool} {s0 : State} (h : Hdr) {s : State} (hk : Keeps pw s0 s) : Keeps pw s0 (effHostLoss h s) := by
  unfold effHostLoss; with_reducible repeat' first
    | assumption | apply State.updCoord_keeps | apply forEach_keeps | apply Keeps.ite | split | (intro) | extract_lets

theorem effStepHold_keeps {pw : Bool} {s0 : State} (h : Hdr) (reason : Nat) (epoch : Nat) {s : State} (hk : Keeps pw s0 s) : Keeps pw s0 (effStepHold
    h reason epoch s) := by
  unfold effStepHold; with_reducible repeat' first
    | assumption | apply State.onJob_keeps | apply State.bump_keeps | apply State.boundary_keeps | apply State.record_keeps
    | apply State.discard_keeps | apply State.gate_keeps | apply State.settleRepeats_keeps | apply State.updCtx_keeps
    | apply State.boundaryRings_keeps | apply Keeps.ite | split | (intro) | extract_lets

theorem effDrain_keeps {pw : Bool} {s0 : State} (h : Hdr) (td : Nat) (epoch : Nat) {s : State} (hk : Keeps pw s0 s) : Keeps pw s0 (effDrain h td
    epoch s) := by
  unfold effDrain; with_reducible repeat' first
    | assumption | apply State.onJob_keeps | apply State.updCtx_keeps | apply Keeps.ite | split | (intro) | extract_lets

theorem effDrained_keeps {pw : Bool} {s0 : State} (h : Hdr) {s : State} (hk : Keeps pw s0 s) : Keeps pw s0 (effDrained h s) := by
  unfold effDrained; with_reducible repeat' first
    | assumption | apply State.updCoord_keeps | apply Keeps.ite | split | (intro) | extract_lets

theorem State.echo_keeps {pw : Bool} {s0 : State} {s : State} (dst : Nat) (vc : Nat) (hk : Keeps pw s0 s) : Keeps pw s0 (State.echo s dst vc) := by
  unfold State.echo; with_reducible repeat' first
    | assumption | apply State.updFab_keeps | apply Keeps.ite | apply foldl_keepsS | apply foldl_keeps1 | apply foldl_keeps2 | split | (intro)
    | extract_lets

theorem State.echoAll_keeps {pw : Bool} {s0 : State} {s : State} (src : Nat) (hk : Keeps pw s0 s) : Keeps pw s0 (State.echoAll s src) := by
  unfold State.echoAll; with_reducible repeat' first
    | assumption | apply State.echo_keeps | apply forEach_keeps | apply Keeps.ite | split | (intro) | extract_lets

theorem State.dataAck_keeps {pw : Bool} {s0 : State} {s : State} (src : Nat) (seq : Nat) (hk : Keeps pw s0 s) : Keeps pw s0 (State.dataAck s src seq)
    := by
  unfold State.dataAck; with_reducible repeat' first
    | assumption | apply State.updGey_keeps | apply State.completeRing_keeps | apply forEach_keeps | apply Keeps.ite | split | (intro) | extract_lets

theorem State.beatAcked_keeps {pw : Bool} {s0 : State} {s : State} (src : Nat) (seq : Nat) (hk : Keeps pw s0 s) : Keeps pw s0 (State.beatAcked s src
    seq) := by
  unfold State.beatAcked; with_reducible repeat' first
    | assumption | apply State.updPins_keeps | apply State.coordAct_keeps | apply State.updCoord_keeps | apply forEach_keeps | apply Keeps.ite
    | split | (intro) | extract_lets

theorem effAck_keeps {pw : Bool} {s0 : State} (h : Hdr) (seqAcked : Nat) {s : State} (hk : Keeps pw s0 s) : Keeps pw s0 (effAck h seqAcked s) := by
  unfold effAck; with_reducible repeat' first
    | assumption | apply State.echoAll_keeps | apply State.updFab_keeps | apply State.beatAcked_keeps | apply State.dataAck_keeps
    | apply State.when_keeps | apply Keeps.ite | split | (intro) | extract_lets

theorem effCoordBeat_keeps {pw : Bool} {s0 : State} (h : Hdr) (leaseEnd : Nat) (epoch : Nat) {s : State} (hk : Keeps pw s0 s) : Keeps pw s0
    (effCoordBeat h leaseEnd epoch s) := by
  unfold effCoordBeat; with_reducible repeat' first
    | assumption | apply State.onJob_keeps | apply State.updCal_keeps | apply State.updCoord_keeps | apply State.when_keeps | apply Keeps.ite
    | split | (intro) | extract_lets

theorem effTakeover_keeps {pw : Bool} {s0 : State} (h : Hdr) (newLocus : Nat) (epoch : Nat) {s : State} (hk : Keeps pw s0 s) : Keeps pw s0
    (effTakeover h newLocus epoch s) := by
  unfold effTakeover; with_reducible repeat' first
    | assumption | apply State.sendCtrl_keeps | apply State.onJob_keeps | apply State.updCtx_keeps | apply Keeps.ite | split | (intro) | extract_lets

theorem effTakeoverState_keeps {pw : Bool} {s0 : State} (h : Hdr) (t : TakeState) {s : State} (hk : Keeps pw s0 s) : Keeps pw s0 (effTakeoverState h
    t s) := by
  unfold effTakeoverState; with_reducible repeat' first
    | assumption | apply State.updCoord_keeps | apply State.settleTakeover_keeps | apply Keeps.ite | split | (intro) | extract_lets

theorem effProbe_keeps {pw : Bool} {s0 : State} (h : Hdr) (epoch : Nat) {s : State} (hk : Keeps pw s0 s) : Keeps pw s0 (effProbe h epoch s) := by
  unfold effProbe; with_reducible repeat' first
    | assumption | apply State.sendCtrl_keeps | apply State.onJob_keeps | apply Keeps.ite | split | (intro) | extract_lets

theorem effProbeReply_keeps {pw : Bool} {s0 : State} (h : Hdr) (status : Nat) (level : Nat) {s : State} (hk : Keeps pw s0 s) : Keeps pw s0
    (effProbeReply h status level s) := by
  unfold effProbeReply; with_reducible repeat' first
    | assumption | apply State.updCoord_keeps | apply State.declareLost_keeps | apply State.tryCommit_keeps | apply Keeps.ite | split | (intro)
    | extract_lets

theorem effSelfLost_keeps {pw : Bool} {s0 : State} (h : Hdr) (reason : Nat) {s : State} (hk : Keeps pw s0 s) : Keeps pw s0 (effSelfLost h reason s)
    := by
  unfold effSelfLost; with_reducible repeat' first
    | assumption | apply State.record_keeps | apply State.declareLost_keeps | apply forEach_keeps | apply Keeps.ite | split | (intro) | extract_lets

theorem effRecoveryNotice_keeps {pw : Bool} {s0 : State} (h : Hdr) (ready : Nat) {s : State} (hk : Keeps pw s0 s) : Keeps pw s0 (effRecoveryNotice h
    ready s) := by
  unfold effRecoveryNotice; with_reducible repeat' first
    | assumption | apply State.updCoord_keeps | apply Keeps.ite | split | (intro) | extract_lets

theorem State.geySlots_keeps {pw : Bool} {s0 : State} {s : State} (p : Nat) (n : Nat) (hk : Keeps pw s0 s) : Keeps pw s0 (State.geySlots s p n) := by
  unfold State.geySlots; with_reducible repeat' first
    | assumption | apply State.bump_keeps | apply Keeps.ite | split | (intro) | extract_lets

theorem State.sendCopy_keeps {pw : Bool} {s0 : State} {s : State} (x : Nat) (dst : Nat) (step : Nat) (attempt : Nat) (blocks : List (Nat × Nat × Nat
    × Nat × List Byte)) (hk : Keeps pw s0 s) : Keeps pw s0 (State.sendCopy s x dst step attempt blocks).1 := by
  unfold State.sendCopy; with_reducible repeat' first
    | assumption | apply State.sendBlock_keeps | apply State.geySlots_keeps | apply Keeps.ite | apply foldl_keepsS | apply foldl_keeps1
    | apply foldl_keeps2 | split | (intro) | extract_lets

theorem State.seed_keeps {pw : Bool} {s0 : State} {s : State} (x : Nat) (keep : Nat → Bool) (hk : Keeps pw s0 s) : Keeps pw s0 (State.seed s x keep)
    := by
  unfold State.seed; with_reducible repeat' first
    | assumption | apply State.updGey_keeps | apply State.sendCopy_keeps | apply Keeps.ite | split | (intro) | extract_lets

theorem State.stream_keeps {pw : Bool} {s0 : State} {s : State} (x : Nat) (tensors : List Tensor) (hk : Keeps pw s0 s) : Keeps pw s0 (State.stream s
    x tensors) := by
  unfold State.stream; with_reducible repeat' first
    | assumption | apply State.updGey_keeps | apply State.bump_keeps | apply State.sendCopy_keeps | apply Keeps.ite | split | (intro) | extract_lets

theorem State.captureImages_keeps {pw : Bool} {s0 : State} {s : State} (x : Nat) (hk : Keeps pw s0 s) : Keeps pw s0 (State.captureImages s x) := by
  unfold State.captureImages; with_reducible repeat' first
    | assumption | apply State.updGey_keeps | apply State.bump_keeps | apply State.sendCopy_keeps | apply State.updCtx_keeps | apply Keeps.ite
    | apply foldl_keepsS | apply foldl_keeps1 | apply foldl_keeps2 | split | (intro) | extract_lets

theorem State.shardSend_keeps {pw : Bool} {s0 : State} {s : State} (h : Nat) (v : Xfer) (type : Nat) (offset : Nat) (status : Nat) (payload : List
    Byte) (hk : Keeps pw s0 s) : Keeps pw s0 (State.shardSend s h v type offset status payload) := by
  unfold State.shardSend; with_reducible repeat' first
    | assumption | apply State.emit_keeps | apply Keeps.ite | split | (intro) | extract_lets

theorem State.updXfer_keeps {pw : Bool} {s0 : State} {s : State} (h : Nat) (f : Xfer → Xfer) (hk : Keeps pw s0 s) : Keeps pw s0 (State.updXfer s h f)
    := by
  unfold State.updXfer; with_reducible repeat' first
    | assumption | apply State.updGeyser_keeps | apply Keeps.ite | split | (intro) | extract_lets

theorem State.pump_keeps {pw : Bool} {s0 : State} (a : Nat) {a1 : State} (a2 : Nat) (hk : Keeps pw s0 a1) : Keeps pw s0 (State.pump a a1 a2) := by
  induction a generalizing a1 a2 with
  | zero => unfold State.pump; with_reducible repeat' first
      | assumption | apply State.bump_keeps | apply State.updXfer_keeps | apply State.shardSend_keeps | apply Keeps.ite | split | (intro)
      | extract_lets
  | succ n ih => unfold State.pump; with_reducible repeat' first
      | apply ih | assumption | apply State.bump_keeps | apply State.updXfer_keeps | apply State.shardSend_keeps | apply Keeps.ite | split
      | (intro) | extract_lets

theorem State.shardOpen_keeps {pw : Bool} {s0 : State} {s : State} (h : Nat) (v : Xfer) (hk : Keeps pw s0 s) : Keeps pw s0 (State.shardOpen s h v) :=
    by
  unfold State.shardOpen; with_reducible repeat' first
    | assumption | apply State.shardSend_keeps | apply Keeps.ite | split | (intro) | extract_lets

theorem State.startXfer_keeps {pw : Bool} {s0 : State} {s : State} (v : Xfer) (hk : Keeps pw s0 s) : Keeps pw s0 (State.startXfer s v) := by
  unfold State.startXfer; with_reducible repeat' first
    | assumption | apply State.updGeyser_keeps | apply State.shardOpen_keeps | apply Keeps.ite | split | (intro) | extract_lets

theorem State.endXfer_keeps {pw : Bool} {s0 : State} {s : State} (h : Nat) (hk : Keeps pw s0 s) : Keeps pw s0 (State.endXfer s h) := by
  unfold State.endXfer; with_reducible repeat' first
    | assumption | apply State.updGeyser_keeps | apply Keeps.ite | split | (intro) | extract_lets

theorem State.feedCkpt_keeps {s0 : State} (a : Nat) {a1 : State} (a2 : Nat) (hk : Keeps false s0 a1) : Keeps false s0 (State.feedCkpt a a1 a2) := by
  induction a generalizing a1 a2 with
  | zero => unfold State.feedCkpt; with_reducible repeat' first
      | assumption | apply State.geySlots_keeps | apply State.updGey_keeps | apply State.startXfer_keeps | apply step_keeps | apply Keeps.ite
      | split | (intro) | extract_lets
  | succ n ih => unfold State.feedCkpt; with_reducible repeat' first
      | apply ih | assumption | apply State.geySlots_keeps | apply State.updGey_keeps | apply State.startXfer_keeps | apply step_keeps
      | apply Keeps.ite | split | (intro) | extract_lets

theorem State.moveXfer_keeps {pw : Bool} {s0 : State} {s : State} (h : Nat) (v : Xfer) (g : Nat) (hk : Keeps pw s0 s) : Keeps pw s0 (State.moveXfer s
    h v g) := by
  unfold State.moveXfer; with_reducible repeat' first
    | assumption | apply State.startXfer_keeps | apply State.updGey_keeps | apply State.endXfer_keeps | apply Keeps.ite | split | (intro)
    | extract_lets

theorem State.ckptEnd_keeps {pw : Bool} {s0 : State} {s : State} (x : Nat) (step : Nat) (status : Nat) (hk : Keeps pw s0 s) : Keeps pw s0
    (State.ckptEnd s x step status) := by
  unfold State.ckptEnd; with_reducible repeat' first
    | assumption | apply State.sendCtrl_keeps | apply State.updGey_keeps | apply State.bump_keeps | apply State.updGeyser_keeps
    | apply State.setEvt_keeps | apply Keeps.ite | split | (intro) | extract_lets

theorem State.restoreEnd_keeps {pw : Bool} {s0 : State} {s : State} (x : Nat) (status : Nat) (sum : Nat) (hk : Keeps pw s0 s) : Keeps pw s0
    (State.restoreEnd s x status sum) := by
  unfold State.restoreEnd; with_reducible repeat' first
    | assumption | apply State.sendCtrl_keeps | apply State.updGey_keeps | apply State.updGeyser_keeps | apply Keeps.ite | split | (intro)
    | extract_lets

theorem State.feedRestore_keeps {s0 : State} (a : Nat) {a1 : State} (a2 : Nat) (hk : Keeps false s0 a1) : Keeps false s0 (State.feedRestore a a1 a2)
    := by
  induction a generalizing a1 a2 with
  | zero => unfold State.feedRestore; with_reducible repeat' first
      | assumption | apply State.updGey_keeps | apply State.startXfer_keeps | apply step_keeps | apply Keeps.ite | split | (intro) | extract_lets
  | succ n ih => unfold State.feedRestore; with_reducible repeat' first
      | apply ih | assumption | apply State.updGey_keeps | apply State.startXfer_keeps | apply step_keeps | apply Keeps.ite | split | (intro)
      | extract_lets

theorem State.domainDrop_keeps {pw : Bool} {s0 : State} {s : State} (h : Hdr) (hk : Keeps pw s0 s) : Keeps pw s0 (State.domainDrop s h) := by
  unfold State.domainDrop; with_reducible repeat' first
    | assumption | apply State.bump_keeps | apply State.record_keeps | apply Keeps.ite | split | (intro) | extract_lets

theorem State.marked_keeps {pw : Bool} {s0 : State} {s : State} (h : Hdr) (vc : Nat) (hk : Keeps pw s0 s) : Keeps pw s0 (State.marked s h vc) := by
  unfold State.marked; with_reducible repeat' first
    | assumption | apply State.updFab_keeps | apply State.sendResp_keeps | apply Keeps.ite | split | (intro) | extract_lets

theorem State.putElems_keeps {pw : Bool} {s0 : State} {s : State} (x : Nat) (t : Tensor) (opId : Nat) (layer : Nat) (els : List (Nat × Nat)) (hk :
    Keeps pw s0 s) : Keeps pw s0 (State.putElems s x t opId layer els) := by
  unfold State.putElems; with_reducible repeat' first
    | assumption | apply State.writeBlock_keeps | apply State.readBlock_keeps | apply forEach_keeps | apply Keeps.ite | apply foldl_keepsS
    | apply foldl_keeps1 | apply foldl_keeps2 | split | (intro) | extract_lets

theorem State.putSlot_keeps {pw : Bool} {s0 : State} {s : State} (q : SqSlot) (hk : Keeps pw s0 s) : Keeps pw s0 (State.putSlot s q) := by
  unfold State.putSlot; with_reducible repeat' first
    | assumption | apply State.updFab_keeps | apply Keeps.ite | split | (intro) | extract_lets

theorem State.dropSlot_keeps {pw : Bool} {s0 : State} {s : State} (q : SqSlot) (hk : Keeps pw s0 s) : Keeps pw s0 (State.dropSlot s q) := by
  unfold State.dropSlot; with_reducible repeat' first
    | assumption | apply State.updFab_keeps | apply Keeps.ite | split | (intro) | extract_lets

theorem State.reportSquare_keeps {pw : Bool} {s0 : State} {s : State} (x : Nat) (sq : Nat) (f : FaultParam) (hk : Keeps pw s0 s) : Keeps pw s0
    (State.reportSquare s x sq f) := by
  unfold State.reportSquare; with_reducible repeat' first
    | assumption | apply State.updRecov_keeps | apply State.updFab_keeps | apply State.report_keeps | apply State.recover_keeps | apply Keeps.ite
    | split | (intro) | extract_lets

theorem State.resultBlock_keeps {pw : Bool} {s0 : State} {s : State} (x : Nat) (d : Collective) (block : Nat) (form : Nat) (anchor : Int) (entries :
    List Nat) (nibbles : List Nat) (mark : Bool) (hk : Keeps pw s0 s) : Keeps pw s0 (State.resultBlock s x d block form anchor entries nibbles mark)
    := by
  unfold State.resultBlock; with_reducible repeat' first
    | assumption | apply State.putElems_keeps | apply State.updExec_keeps | apply forEach_keeps | apply State.emit_keeps | apply Keeps.ite
    | apply foldl_keepsS | apply foldl_keeps1 | apply foldl_keeps2 | split | (intro) | extract_lets

theorem State.sendSlot_keeps {pw : Bool} {s0 : State} {s : State} (x : Nat) (d : Collective) (q : SqSlot) (hk : Keeps pw s0 s) : Keeps pw s0
    (State.sendSlot s x d q) := by
  unfold State.sendSlot; with_reducible repeat' first
    | assumption | apply State.reportSquare_keeps | apply State.resultBlock_keeps | apply State.leaveFirst_keeps | apply State.updExec_keeps
    | apply State.dropSlot_keeps | apply State.meter_keeps | apply State.emit_keeps | apply Keeps.ite | split | (intro) | extract_lets

theorem State.settle_keeps {s0 : State} (a : Nat) {a1 : State} (a2 : Nat) (hk : Keeps false s0 a1) : Keeps false s0 (State.settle a a1 a2) := by
  induction a generalizing a1 a2 with
  | zero => unfold State.settle; with_reducible repeat' first
      | assumption | apply State.sendSlot_keeps | apply step_keeps | apply Keeps.ite | split | (intro) | extract_lets
  | succ n ih => unfold State.settle; with_reducible repeat' first
      | apply ih | assumption | apply State.sendSlot_keeps | apply step_keeps | apply Keeps.ite | split | (intro) | extract_lets

theorem State.settleSlots_keeps {s0 : State} {s : State} (x : Nat) (hk : Keeps false s0 s) : Keeps false s0 (State.settleSlots s x) := by
  unfold State.settleSlots; with_reducible repeat' first
    | assumption | apply State.settle_keeps | apply Keeps.ite | apply State.settle_keeps | split | (intro) | extract_lets

theorem State.squareViolation_keeps {pw : Bool} {s0 : State} {s : State} (x : Nat) (d : Collective) (block : Nat) (bound : Int) (anchor : Int) (hk :
    Keeps pw s0 s) : Keeps pw s0 (State.squareViolation s x d block bound anchor) := by
  unfold State.squareViolation; with_reducible repeat' first
    | assumption | apply State.reportSquare_keeps | apply State.updExec_keeps | apply Keeps.ite | split | (intro) | extract_lets

theorem State.foldBlock_keeps {pw : Bool} {s0 : State} {s : State} (x : Nat) (d : Collective) (r : RedPkt) (src : Nat) (j : Nat) (hk : Keeps pw s0 s)
    : Keeps pw s0 (State.foldBlock s x d r src j) := by
  unfold State.foldBlock; with_reducible repeat' first
    | assumption | apply State.bump_keeps | apply State.putSlot_keeps | apply State.squareViolation_keeps | apply Keeps.ite | split | (intro)
    | extract_lets

theorem State.redGuard_keeps {pw : Bool} {s0 : State} {s : State} (h : Hdr) (vc : Nat) (f : Nat → State → State) (hk : Keeps pw s0 s) (hf : ∀ (x0 :
    Nat) (x1 : State), Keeps pw s0 x1 → Keeps pw s0 (f x0 x1)) : Keeps pw s0 (State.redGuard s h vc f) := by
  unfold State.redGuard; with_reducible repeat' first
    | assumption | apply State.advanceTo_keeps | apply State.domainDrop_keeps | apply State.bump_keeps | apply State.marked_keeps | apply hf
    | apply Keeps.ite | split | (intro) | extract_lets

theorem effRedUp_keeps {s0 : State} (h : Hdr) {s : State} (hk : Keeps false s0 s) : Keeps false s0 (effRedUp h s) := by
  unfold effRedUp; with_reducible repeat' first
    | assumption | apply State.settleSlots_keeps | apply Keeps.ite | split | (intro) | extract_lets

theorem State.takeDown_keeps {pw : Bool} {s0 : State} {s : State} (x : Nat) (d : Collective) (r : RedPkt) (mark : Bool) (hk : Keeps pw s0 s) : Keeps
    pw s0 (State.takeDown s x d r mark) := by
  unfold State.takeDown; with_reducible repeat' first
    | assumption | apply State.resultBlock_keeps | apply forEach_keeps | apply Keeps.ite | split | (intro) | extract_lets

theorem effRedDown_keeps {s0 : State} (h : Hdr) (r : RedPkt) {s : State} (hk : Keeps false s0 s) : Keeps false s0 (effRedDown h r s) := by
  unfold effRedDown; with_reducible repeat' first
    | assumption | apply State.settleSlots_keeps | apply State.updExec_keeps | apply Keeps.ite | split | (intro) | extract_lets

theorem effGeyBind_keeps {pw : Bool} {s0 : State} (h : Hdr) (jobId : Nat) {s : State} (hk : Keeps pw s0 s) : Keeps pw s0 (effGeyBind h jobId s) := by
  unfold effGeyBind; with_reducible repeat' first
    | assumption | apply State.sendCtrl_keeps | apply State.updGey_keeps | apply Keeps.ite | split | (intro) | extract_lets

theorem effGeyBindReply_keeps {pw : Bool} {s0 : State} (h : Hdr) (accepted : Bool) (jobId : Nat) {s : State} (hk : Keeps pw s0 s) : Keeps pw s0
    (effGeyBindReply h accepted jobId s) := by
  unfold effGeyBindReply; with_reducible repeat' first
    | assumption | apply State.updGey_keeps | apply State.seed_keeps | apply Keeps.ite | split | (intro) | extract_lets

theorem effGeySpareReady_keeps {pw : Bool} {s0 : State} (h : Hdr) (jobId : Nat) {s : State} (hk : Keeps pw s0 s) : Keeps pw s0 (effGeySpareReady h
    jobId s) := by
  unfold effGeySpareReady; with_reducible repeat' first
    | assumption | apply State.updCoord_keeps | apply Keeps.ite | split | (intro) | extract_lets

theorem effGeyTake_keeps {pw : Bool} {s0 : State} (h : Hdr) (lost : Nat) (spare : Nat) (epoch : Nat) {s : State} (hk : Keeps pw s0 s) : Keeps pw s0
    (effGeyTake h lost spare epoch s) := by
  unfold effGeyTake; with_reducible repeat' first
    | assumption | apply State.onJob_keeps | apply State.updGey_keeps | apply State.bump_keeps | apply State.sendCopy_keeps | apply Keeps.ite
    | split | (intro) | extract_lets

theorem effGeyTakeDone_keeps {pw : Bool} {s0 : State} (h : Hdr) {s : State} (hk : Keeps pw s0 s) : Keeps pw s0 (effGeyTakeDone h s) := by
  unfold effGeyTakeDone; with_reducible repeat' first
    | assumption | apply State.updCoord_keeps | apply Keeps.ite | split | (intro) | extract_lets

theorem effGeyReseed_keeps {pw : Bool} {s0 : State} (h : Hdr) (mask : Nat) {s : State} (hk : Keeps pw s0 s) : Keeps pw s0 (effGeyReseed h mask s) :=
    by
  unfold effGeyReseed; with_reducible repeat' first
    | assumption | apply State.bump_keeps | apply State.seed_keeps | apply Keeps.ite | split | (intro) | extract_lets

theorem effGeyFetch_keeps {pw : Bool} {s0 : State} (h : Hdr) (tensorId : Nat) (block : Nat) {s : State} (hk : Keeps pw s0 s) : Keeps pw s0
    (effGeyFetch h tensorId block s) := by
  unfold effGeyFetch; with_reducible repeat' first
    | assumption | apply State.sendCopy_keeps | apply Keeps.ite | split | (intro) | extract_lets

theorem effGeyCkpt_keeps {s0 : State} (h : Hdr) (epoch : Nat) {s : State} (hk : Keeps false s0 s) : Keeps false s0 (effGeyCkpt h epoch s) := by
  unfold effGeyCkpt; with_reducible repeat' first
    | assumption | apply State.sendCtrl_keeps | apply State.onJob_keeps | apply State.updGey_keeps | apply State.feedCkpt_keeps
    | apply State.setEvt_keeps | apply State.ckptEnd_keeps | apply Keeps.ite | split | (intro) | extract_lets

theorem effGeyCkptDone_keeps {pw : Bool} {s0 : State} (h : Hdr) (status : Nat) {s : State} (hk : Keeps pw s0 s) : Keeps pw s0 (effGeyCkptDone h
    status s) := by
  unfold effGeyCkptDone; with_reducible repeat' first
    | assumption | apply State.updCoord_keeps | apply Keeps.ite | split | (intro) | extract_lets

theorem State.fetchManifest_keeps {pw : Bool} {s0 : State} {s : State} (x : Nat) (g : Nat) (jobId : Nat) (k : Nat) (hk : Keeps pw s0 s) : Keeps pw s0
    (State.fetchManifest s x g jobId k) := by
  unfold State.fetchManifest; with_reducible repeat' first
    | assumption | apply State.startXfer_keeps | apply Keeps.ite | split | (intro) | extract_lets

theorem effGeyRestore_keeps {pw : Bool} {s0 : State} (h : Hdr) (jobId : Nat) (epoch : Nat) {s : State} (hk : Keeps pw s0 s) : Keeps pw s0
    (effGeyRestore h jobId epoch s) := by
  unfold effGeyRestore; with_reducible repeat' first
    | assumption | apply State.onJob_keeps | apply State.updGey_keeps | apply State.restoreEnd_keeps | apply State.discard_keeps
    | apply State.fetchManifest_keeps | apply Keeps.ite | split | (intro) | extract_lets

theorem State.placeBlock_keeps {pw : Bool} {s0 : State} {s : State} (x : Nat) (k : Nat) (b : PBlock) (hk : Keeps pw s0 s) : Keeps pw s0
    (State.placeBlock s x k b) := by
  unfold State.placeBlock; with_reducible repeat' first
    | assumption | apply State.updGey_keeps | apply State.writeBytes_keeps | apply State.setCheck_keeps | apply Keeps.ite | split | (intro)
    | extract_lets

theorem effGeyRestored_keeps {pw : Bool} {s0 : State} (h : Hdr) (status : Nat) {s : State} (hk : Keeps pw s0 s) : Keeps pw s0 (effGeyRestored h
    status s) := by
  unfold effGeyRestored; dsimp only; with_reducible repeat' first
    | assumption | apply State.tryStart_keeps | apply State.updCoord_keeps | apply State.resumeJob_keeps | apply Keeps.ite | split | (intro)
    | extract_lets

theorem State.onXfer_keeps {pw : Bool} {s0 : State} {s : State} (m : ShardMsg) (f : Xfer → State → State) (hk : Keeps pw s0 s) (hf : ∀ (x0 : Xfer)
    (x1 : State), Keeps pw s0 x1 → Keeps pw s0 (f x0 x1)) : Keeps pw s0 (State.onXfer s m f) := by
  unfold State.onXfer; with_reducible repeat' first
    | assumption | apply hf | apply Keeps.ite | split | (intro) | extract_lets

theorem State.storedXfer_keeps {s0 : State} {s : State} (v : Xfer) (hk : Keeps false s0 s) : Keeps false s0 (State.storedXfer s v) := by
  unfold State.storedXfer; with_reducible repeat' first
    | assumption | apply State.updGey_keeps | apply State.feedCkpt_keeps | apply State.ckptEnd_keeps | apply Keeps.ite | split | (intro)
    | extract_lets

theorem State.nextSource_keeps {pw : Bool} {s0 : State} {s : State} (h : Nat) (v : Xfer) (status : Nat) (hk : Keeps pw s0 s) : Keeps pw s0
    (State.nextSource s h v status) := by
  unfold State.nextSource; with_reducible repeat' first
    | assumption | apply State.startXfer_keeps | apply State.updGey_keeps | apply State.restoreEnd_keeps | apply State.endXfer_keeps
    | apply Keeps.ite | split | (intro) | extract_lets

theorem State.objectRead_keeps {s0 : State} {s : State} (h : Nat) (v : Xfer) (object : List Byte) (hk : Keeps false s0 s) : Keeps false s0
    (State.objectRead s h v object) := by
  unfold State.objectRead; with_reducible repeat' first
    | assumption | apply State.feedRestore_keeps | apply State.updGey_keeps | apply State.restoreEnd_keeps | apply State.endXfer_keeps
    | apply State.nextSource_keeps | apply Keeps.ite | apply foldl_keepsS | apply foldl_keeps1 | apply foldl_keeps2 | split | (intro) | extract_lets

theorem State.resend_keeps {pw : Bool} {s0 : State} {s : State} (h : Nat) (v : Xfer) (hk : Keeps pw s0 s) : Keeps pw s0 (State.resend s h v) := by
  unfold State.resend; with_reducible repeat' first
    | assumption | apply State.bump_keeps | apply State.pump_keeps | apply State.shardOpen_keeps | apply State.shardSend_keeps
    | apply State.updXfer_keeps | apply Keeps.ite | split | (intro) | extract_lets

theorem State.ownBlock_keeps {pw : Bool} {s0 : State} {s : State} (x : Nat) (src : Nat) (k : Nat) (a : Nat) (b : PBlock) (hk : Keeps pw s0 s) : Keeps
    pw s0 (State.ownBlock s x src k a b) := by
  unfold State.ownBlock; with_reducible repeat' first
    | assumption | apply State.updGey_keeps | apply State.bump_keeps | apply State.placeBlock_keeps | refine State.updMem_keeps (fun _ => rfl) ?_
    | apply Keeps.ite | split | (intro) | extract_lets

theorem State.partnerBlock_keeps {pw : Bool} {s0 : State} {s : State} (x : Nat) (step : Nat) (attempt : Nat) (k : Nat) (b : PBlock) (hk : Keeps pw s0
    s) : Keeps pw s0 (State.partnerBlock s x step attempt k b) := by
  unfold State.partnerBlock; with_reducible repeat' first
    | assumption | apply State.updGey_keeps | apply State.bump_keeps | apply Keeps.ite | split | (intro) | extract_lets

theorem State.restoreFailed_keeps {pw : Bool} {s0 : State} {s : State} (x : Nat) (k : Nat) (a : Nat) (hk : Keeps pw s0 s) : Keeps pw s0
    (State.restoreFailed s x k a) := by
  unfold State.restoreFailed; with_reducible repeat' first
    | assumption | apply State.updGey_keeps | apply State.fetchBlock_keeps | apply State.recover_keeps | apply Keeps.ite | split | (intro)
    | extract_lets

theorem State.bulkBlock_keeps {pw : Bool} {s0 : State} {s : State} (x : Nat) (src : Nat) (step : Nat) (attempt : Nat) (k : Nat) (a : Nat) (b :
    PBlock) (hk : Keeps pw s0 s) : Keeps pw s0 (State.bulkBlock s x src step attempt k a b) := by
  unfold State.bulkBlock; with_reducible repeat' first
    | assumption | apply State.ownBlock_keeps | apply State.geySlots_keeps | apply State.partnerBlock_keeps | apply Keeps.ite | split | (intro)
    | extract_lets

theorem State.ackData_keeps {pw : Bool} {s0 : State} {s : State} (h : Hdr) (ep : Nat) (step : Nat) (seq : Nat) (hk : Keeps pw s0 s) : Keeps pw s0
    (State.ackData s h ep step seq) := by
  unfold State.ackData; with_reducible repeat' first
    | assumption | apply State.sendResp_keeps | apply Keeps.ite | split | (intro) | extract_lets

theorem State.assemble_keeps {pw : Bool} {s0 : State} {s : State} (h : Hdr) (d : DataPart) (hk : Keeps pw s0 s) : Keeps pw s0 (State.assemble s h
    d).1 := by
  unfold State.assemble; with_reducible repeat' first
    | assumption | apply State.updFab_keeps | apply Keeps.ite | split | (intro) | extract_lets

theorem State.bulkIn_keeps {pw : Bool} {s0 : State} {s : State} (x : Nat) (h : Hdr) (d : DataPart) (b : List Byte) (ack : Bool) (hk : Keeps pw s0 s)
    : Keeps pw s0 (State.bulkIn s x h d b ack) := by
  unfold State.bulkIn; with_reducible repeat' first
    | assumption | apply State.updGey_keeps | apply State.bulkBlock_keeps | apply State.ackData_keeps | apply forEach_keeps | apply Keeps.ite
    | split | (intro) | extract_lets

theorem effRouteBreak_keeps {pw : Bool} {s0 : State} (dim : Nat) (after : Nat) (isBreak : Bool) (effective : Nat) {s : State} (hk : Keeps pw s0 s) :
    Keeps pw s0 (effRouteBreak dim after isBreak effective s) := by
  unfold effRouteBreak; with_reducible repeat' first
    | assumption | apply State.updFab_keeps | apply Keeps.ite | split | (intro) | extract_lets

theorem State.holdover_keeps {pw : Bool} {s0 : State} {s : State} (hk : Keeps pw s0 s) : Keeps pw s0 (State.holdover s) := by
  unfold State.holdover; with_reducible repeat' first
    | assumption | apply State.updTime_keeps | apply State.setEvt_keeps | apply Keeps.ite | split | (intro) | extract_lets

theorem State.beRoot_keeps {pw : Bool} {s0 : State} {s : State} (hk : Keeps pw s0 s) : Keeps pw s0 (State.beRoot s) := by
  unfold State.beRoot; with_reducible repeat' first
    | assumption | apply State.updTime_keeps | apply State.holdover_keeps | apply State.setEvt_keeps | apply Keeps.ite | split | (intro)
    | extract_lets

theorem State.follow_keeps {pw : Bool} {s0 : State} {s : State} (p : Nat) (o : Offer) (hk : Keeps pw s0 s) : Keeps pw s0 (State.follow s p o) := by
  unfold State.follow; with_reducible repeat' first
    | assumption | apply State.updTime_keeps | apply State.setEvt_keeps | apply Keeps.ite | split | (intro) | extract_lets

theorem State.reselect_keeps {pw : Bool} {s0 : State} {s : State} (claim : optParam Bool Bool.false) (hk : Keeps pw s0 s) : Keeps pw s0
    (State.reselect s claim) := by
  unfold State.reselect; dsimp only; with_reducible repeat' first
    | assumption | apply State.follow_keeps | apply State.beRoot_keeps | apply Keeps.ite | apply foldl_keepsS | apply foldl_keeps1
    | apply foldl_keeps2 | split | (intro) | extract_lets

theorem State.sendLcf_keeps {pw : Bool} {s0 : State} {s : State} (p : Nat) (kind : Nat) (nak : Bool) (body : Nat) (hk : Keeps pw s0 s) : Keeps pw s0
    (State.sendLcf s p kind nak body) := by
  unfold State.sendLcf; with_reducible repeat' first
    | assumption | apply State.emit_keeps | apply Keeps.ite | split | (intro) | extract_lets

theorem State.sendIdent_keeps {pw : Bool} {s0 : State} {s : State} (p : Nat) (hk : Keeps pw s0 s) : Keeps pw s0 (State.sendIdent s p) := by
  unfold State.sendIdent; with_reducible repeat' first
    | assumption | apply State.sendLcf_keeps | apply Keeps.ite | split | (intro) | extract_lets

theorem State.sendLsm_keeps {pw : Bool} {s0 : State} {s : State} (p : Nat) (req : Nat) (lane : Nat) (ref : Nat) (hk : Keeps pw s0 s) : Keeps pw s0
    (State.sendLsm s p req lane ref) := by
  unfold State.sendLsm; with_reducible repeat' first
    | assumption | apply State.sendLcf_keeps | apply Keeps.ite | split | (intro) | extract_lets

theorem State.loseFlits_keeps {pw : Bool} {s0 : State} {s : State} (p : Nat) (hk : Keeps pw s0 s) : Keeps pw s0 (State.loseFlits s p) := by
  unfold State.loseFlits; with_reducible repeat' first
    | assumption | apply State.bump_keeps | apply State.reportLink_keeps | apply State.updPort_keeps | apply Keeps.ite | split | (intro)
    | extract_lets

theorem State.toDetect_keeps {pw : Bool} {s0 : State} {s : State} (p : Nat) (hk : Keeps pw s0 s) : Keeps pw s0 (State.toDetect s p) := by
  unfold State.toDetect; with_reducible repeat' first
    | assumption | apply State.loseFlits_keeps | apply State.reselect_keeps | apply State.updPort_keeps | apply Keeps.ite | split | (intro)
    | extract_lets

theorem State.backoff_keeps {pw : Bool} {s0 : State} {s : State} (p : Nat) (hk : Keeps pw s0 s) : Keeps pw s0 (State.backoff s p) := by
  unfold State.backoff; with_reducible repeat' first
    | assumption | apply State.updPort_keeps | apply Keeps.ite | split | (intro) | extract_lets

theorem State.leaveUp_keeps {pw : Bool} {s0 : State} {s : State} (p : Nat) (hk : Keeps pw s0 s) : Keeps pw s0 (State.leaveUp s p) := by
  unfold State.leaveUp; with_reducible repeat' first
    | assumption | apply State.bump_keeps | apply State.record_keeps | apply State.loseFlits_keeps | apply State.reselect_keeps
    | apply State.updPort_keeps | apply State.noteBundle_keeps | apply Keeps.ite | split | (intro) | extract_lets

theorem State.fullRetrain_keeps {pw : Bool} {s0 : State} {s : State} (p : Nat) (hk : Keeps pw s0 s) : Keeps pw s0 (State.fullRetrain s p) := by
  unfold State.fullRetrain; with_reducible repeat' first
    | assumption | apply State.leaveUp_keeps | apply State.toDetect_keeps | apply Keeps.ite | split | (intro) | extract_lets

theorem State.askWidth4_keeps {pw : Bool} {s0 : State} {s : State} (p : Nat) (hk : Keeps pw s0 s) : Keeps pw s0 (State.askWidth4 s p) := by
  unfold State.askWidth4; with_reducible repeat' first
    | assumption | apply State.leaveUp_keeps | apply State.sendLsm_keeps | apply State.updPort_keeps | apply Keeps.ite | split | (intro)
    | extract_lets

theorem State.laneCheck_keeps {pw : Bool} {s0 : State} {s : State} (p : Nat) (hk : Keeps pw s0 s) : Keeps pw s0 (State.laneCheck s p) := by
  unfold State.laneCheck; with_reducible repeat' first
    | assumption | apply State.askWidth4_keeps | apply State.sendLsm_keeps | apply State.setEvt_keeps | apply State.updPort_keeps | apply Keeps.ite
    | split | (intro) | extract_lets

theorem State.laneFail_keeps {pw : Bool} {s0 : State} {s : State} (p : Nat) (lane : Nat) (hk : Keeps pw s0 s) : Keeps pw s0 (State.laneFail s p lane)
    := by
  unfold State.laneFail; with_reducible repeat' first
    | assumption | apply State.bump_keeps | apply State.laneCheck_keeps | apply State.toDetect_keeps | apply State.updPort_keeps | apply Keeps.ite
    | split | (intro) | extract_lets

theorem State.setWidth4_keeps {pw : Bool} {s0 : State} {s : State} (p : Nat) (hk : Keeps pw s0 s) : Keeps pw s0 (State.setWidth4 s p) := by
  unfold State.setWidth4; with_reducible repeat' first
    | assumption | apply State.setEvt_keeps | apply State.updPort_keeps | apply Keeps.ite | split | (intro) | extract_lets

theorem State.freshLink_keeps {pw : Bool} {s0 : State} {s : State} (p : Nat) (hk : Keeps pw s0 s) : Keeps pw s0 (State.freshLink s p) := by
  unfold State.freshLink; with_reducible repeat' first
    | assumption | apply State.updPort_keeps | apply Keeps.ite | split | (intro) | extract_lets

theorem State.lcfIn_keeps {pw : Bool} {s0 : State} {s : State} (p : Nat) (kind : Nat) (flit : BitVec 512) (f : Nat → State → State) (hk : Keeps pw s0
    s) (hf : ∀ (x0 : Nat) (x1 : State), Keeps pw s0 x1 → Keeps pw s0 (f x0 x1)) : Keeps pw s0 (State.lcfIn s p kind flit f) := by
  unfold State.lcfIn; with_reducible repeat' first
    | assumption | apply State.leaveUp_keeps | apply State.bump_keeps | apply State.sendLcf_keeps | apply State.drainOut_keeps
    | apply State.updPort_keeps | apply State.emit_keeps | apply hf | apply Keeps.ite | apply foldl_keepsS | apply foldl_keeps1
    | apply foldl_keeps2 | split | (intro) | extract_lets

theorem State.calRelease_keeps {pw : Bool} {s0 : State} {s : State} (half : Nat) (hk : Keeps pw s0 s) : Keeps pw s0 (State.calRelease s half) := by
  unfold State.calRelease; with_reducible repeat' first
    | assumption | refine State.updId_keeps (fun _ => ⟨rfl, rfl⟩) ?_ | refine State.updFlash_keeps (fun _ => ⟨rfl, rfl, rfl, rfl⟩) ?_
    | apply State.updCal_keeps | apply Keeps.ite | split | (intro) | extract_lets

theorem State.calFence_keeps {pw : Bool} {s0 : State} {s : State} (half : Nat) (hk : Keeps pw s0 s) : Keeps pw s0 (State.calFence s half) := by
  unfold State.calFence; with_reducible repeat' first
    | assumption | refine State.updFlash_keeps (fun _ => ⟨rfl, rfl, rfl, rfl⟩) ?_ | apply State.updCal_keeps | apply Keeps.ite | split | (intro)
    | extract_lets

theorem State.reportHang_keeps {pw : Bool} {s0 : State} {s : State} (u : HangUnit) (loses : Bool) (hk : Keeps pw s0 s) : Keeps pw s0
    (State.reportHang s u loses) := by
  unfold State.reportHang; with_reducible repeat' first
    | assumption | apply State.report_keeps | apply forEach_keeps | apply State.updCtx_keeps | apply Keeps.ite | split | (intro) | extract_lets

theorem State.hangTransient_keeps {pw : Bool} {s0 : State} {s : State} (u : HangUnit) (hk : Keeps pw s0 s) : Keeps pw s0 (State.hangTransient s u) :=
    by
  unfold State.hangTransient; with_reducible repeat' first
    | assumption | apply State.bump_keeps | apply State.permanentUnit_keeps | apply State.countTransient_keeps | apply State.recover_keeps
    | apply Keeps.ite | split | (intro) | extract_lets

theorem State.engineReset_keeps {pw : Bool} {s0 : State} {s : State} (u : HangUnit) (hk : Keeps pw s0 s) : Keeps pw s0 (State.engineReset s u) := by
  unfold State.engineReset; with_reducible repeat' first
    | assumption | apply State.updFab_keeps | apply State.updTel_keeps | apply State.updCluster_keeps | apply State.recover_keeps | apply Keeps.ite
    | split | (intro) | extract_lets

theorem State.geyRestart_keeps {pw : Bool} {s0 : State} {s : State} (u : HangUnit) (hk : Keeps pw s0 s) : Keeps pw s0 (State.geyRestart s u) := by
  unfold State.geyRestart; with_reducible repeat' first
    | assumption | apply State.updGey_keeps | apply State.seed_keeps | apply State.stream_keeps | apply State.captureImages_keeps
    | apply forEach_keeps | apply Keeps.ite | split | (intro) | extract_lets

theorem State.hangFirst_keeps {pw : Bool} {s0 : State} {s : State} (u : HangUnit) (hk : Keeps pw s0 s) : Keeps pw s0 (State.hangFirst s u) := by
  unfold State.hangFirst; with_reducible repeat' first
    | assumption | apply State.geyRestart_keeps | apply State.engineReset_keeps | apply State.fullRetrain_keeps | apply State.calRelease_keeps
    | apply Keeps.ite | split | (intro) | extract_lets

theorem State.hangSecond_keeps {pw : Bool} {s0 : State} {s : State} (u : HangUnit) (hk : Keeps pw s0 s) : Keeps pw s0 (State.hangSecond s u) := by
  unfold State.hangSecond; with_reducible repeat' first
    | assumption | apply State.engineReset_keeps | apply State.calFence_keeps | apply State.loseFlits_keeps | apply State.reselect_keeps
    | apply State.wantAct_keeps | apply State.updPort_keeps | apply State.recover_keeps | apply State.noteBundle_keeps | apply Keeps.ite | split
    | (intro) | extract_lets

theorem State.writeNear_keeps {pw : Bool} {s0 : State} {s : State} (a : Nat) (bs : List Byte) (hk : Keeps pw s0 s) : Keeps pw s0 (State.writeNear s a
    bs) := by
  unfold State.writeNear; with_reducible repeat' first
    | assumption | apply State.writeBytes_keeps | refine State.updMem_keeps (fun _ => rfl) ?_ | apply Keeps.ite | split | (intro) | extract_lets

theorem State.addStatus_keeps {pw : Bool} {s0 : State} {s : State} (x : Nat) (opId : Nat) (t : OpStatus) (hk : Keeps pw s0 s) : Keeps pw s0
    (State.addStatus s x opId t) := by
  unfold State.addStatus; with_reducible repeat' first
    | assumption | apply State.updExec_keeps | apply Keeps.ite | split | (intro) | extract_lets

theorem State.addrErr_keeps {pw : Bool} {s0 : State} {s : State} (x : Nat) (opId : Nat) (layer : Nat) (a : Nat) (hk : Keeps pw s0 s) : Keeps pw s0
    (State.addrErr s x opId layer a) := by
  unfold State.addrErr; with_reducible repeat' first
    | assumption | apply State.report_keeps | apply State.addStatus_keeps | apply Keeps.ite | split | (intro) | extract_lets

theorem State.noteMismatch_keeps {pw : Bool} {s0 : State} {s : State} (c : CoreCmd) (layer : Nat) (hk : Keeps pw s0 s) : Keeps pw s0
    (State.noteMismatch s c layer) := by
  unfold State.noteMismatch; with_reducible repeat' first
    | assumption | apply State.updRecov_keeps | apply Keeps.ite | split | (intro) | extract_lets

theorem State.anchorFault_keeps {pw : Bool} {s0 : State} {s : State} (c : CoreCmd) (layer : Nat) (bound : Int) (anchor : Int) (hk : Keeps pw s0 s) :
    Keeps pw s0 (State.anchorFault s c layer bound anchor) := by
  unfold State.anchorFault; with_reducible repeat' first
    | assumption | apply State.report_keeps | apply State.noteMismatch_keeps | apply State.addStatus_keeps | apply Keeps.ite | split | (intro)
    | extract_lets

theorem State.checkFault_keeps {pw : Bool} {s0 : State} {s : State} (c : CoreCmd) (layer : Nat) (r : Nat) (detail : Nat) (hk : Keeps pw s0 s) : Keeps
    pw s0 (State.checkFault s c layer r detail) := by
  unfold State.checkFault; with_reducible repeat' first
    | assumption | apply State.bump_keeps | apply State.report_keeps | apply State.noteMismatch_keeps | apply Keeps.ite | split | (intro)
    | extract_lets

theorem State.combine_keeps {pw : Bool} {s0 : State} {s : State} (c : CoreCmd) (k : Ctx) (o : OpDesc) (t : Tile) (n : Nat) (hk : Keeps pw s0 s) :
    Keeps pw s0 (State.combine s c k o t n) := by
  unfold State.combine; with_reducible repeat' first
    | assumption | apply State.writeNear_keeps | apply State.updExec_keeps | apply forEach_keeps | apply State.when_keeps
    | apply State.addStatus_keeps | apply Keeps.ite | split | (intro) | extract_lets

theorem State.adderRow_keeps {pw : Bool} {s0 : State} {s : State} (c : CoreCmd) (k : Ctx) (o : OpDesc) (row : Nat) (col : Nat) (parts : Nat)
    (colCount : Nat) (ws : List (Nat × Window)) (hk : Keeps pw s0 s) : Keeps pw s0 (State.adderRow s c k o row col parts colCount ws) := by
  unfold State.adderRow; dsimp only; with_reducible repeat' first
    | assumption | apply State.putElems_keeps | apply State.report_keeps | apply State.noteMismatch_keeps | apply State.updExec_keeps
    | apply State.when_keeps | apply State.addStatus_keeps | apply Keeps.ite | split | (intro) | extract_lets

theorem State.contribute_keeps {s0 : State} {s : State} (x : Nat) (coll : Nat) (block : Nat) (els : List (Nat × SqWindow × Nat)) (form : Nat) (hk :
    Keeps false s0 s) : Keeps false s0 (State.contribute s x coll block els form) := by
  unfold State.contribute; with_reducible repeat' first
    | assumption | apply State.bump_keeps | apply State.putSlot_keeps | apply State.squareViolation_keeps | apply State.settleSlots_keeps
    | apply Keeps.ite | apply foldl_keepsS | apply foldl_keeps1 | apply foldl_keeps2 | split | (intro) | extract_lets

theorem State.enableGroup_keeps {pw : Bool} {s0 : State} {s : State} (g : Nat) (hk : Keeps pw s0 s) : Keeps pw s0 (State.enableGroup s g) := by
  unfold State.enableGroup; with_reducible repeat' first
    | assumption | apply State.fresh_keeps | apply State.updPins_keeps | apply State.setDom_keeps | apply State.updStage_keeps
    | apply forEach_keeps | apply Keeps.ite | split | (intro) | extract_lets

theorem State.disableGroup_keeps {pw : Bool} {s0 : State} {s : State} (g : Nat) (hk : Keeps pw s0 s) : Keeps pw s0 (State.disableGroup s g) := by
  unfold State.disableGroup; with_reducible repeat' first
    | assumption | apply State.updPins_keeps | apply State.setDom_keeps | apply State.updStage_keeps | apply forEach_keeps | apply Keeps.ite
    | split | (intro) | extract_lets

theorem State.keepCeiling_keeps {pw : Bool} {s0 : State} (a : Nat) {a1 : State} (hk : Keeps pw s0 a1) : Keeps pw s0 (State.keepCeiling a a1) := by
  induction a generalizing a1 with
  | zero => unfold State.keepCeiling; with_reducible repeat' first
      | assumption | apply State.movePoints_keeps | apply State.updPwr_keeps | apply Keeps.ite | split | (intro) | extract_lets
  | succ n ih => unfold State.keepCeiling; with_reducible repeat' first
      | apply ih | assumption | apply State.movePoints_keeps | apply State.updPwr_keeps | apply Keeps.ite | split | (intro) | extract_lets

theorem State.noteSlow_keeps {pw : Bool} {s0 : State} {s : State} (hk : Keeps pw s0 s) : Keeps pw s0 (State.noteSlow s) := by
  unfold State.noteSlow; with_reducible repeat' first
    | assumption | apply State.bump_keeps | apply forEach_keeps | apply State.updPwr_keeps | apply Keeps.ite | split | (intro) | extract_lets

theorem State.powerReason_keeps {pw : Bool} {s0 : State} {s : State} (parts : List Nat) (hk : Keeps pw s0 s) : Keeps pw s0 (State.powerReason s
    parts) := by
  unfold State.powerReason; with_reducible repeat' first
    | assumption | apply forEach_keeps | apply State.updCtx_keeps | apply Keeps.ite | split | (intro) | extract_lets

theorem State.limitActs_keeps {pw : Bool} {s0 : State} {s : State} (row : Nat) (unit : Nat) (parts : List Nat) (hk : Keeps pw s0 s) : Keeps pw s0
    (State.limitActs s row unit parts) := by
  unfold State.limitActs; with_reducible repeat' first
    | assumption | apply State.powerReason_keeps | apply State.updPwr_keeps | apply State.noteSlow_keeps | apply Keeps.ite | split | (intro)
    | extract_lets

theorem State.stageOff_keeps {pw : Bool} {s0 : State} {s : State} (i : Nat) (hk : Keeps pw s0 s) : Keeps pw s0 (State.stageOff s i) := by
  unfold State.stageOff; with_reducible repeat' first
    | assumption | apply State.updCal_keeps | apply State.setDom_keeps | apply State.updStage_keeps | apply forEach_keeps | apply Keeps.ite | split
    | (intro) | extract_lets

theorem State.restoreDomains_keeps {pw : Bool} {s0 : State} {s : State} (p : Nat) (hk : Keeps pw s0 s) : Keeps pw s0 (State.restoreDomains s p) := by
  unfold State.restoreDomains; with_reducible repeat' first
    | assumption | apply State.setDom_keeps | apply Keeps.ite | split | (intro) | extract_lets

theorem State.unpowered_keeps {s0 s : State} (hk : Keeps false s0 s) : Keeps false s0 s.unpowered :=
  hk.trans
    { queue := rfl, sent := List.suffix_rfl, mem := fun _ => rfl, grade := rfl,
      secMin := Nat.le_refl _, starts := Nat.le_refl _, boot := Nat.le_refl _,
      fenced := fun _ _ m => m, locus := fun h => nomatch h }

theorem State.powerUp_keeps {s0 : State} {s : State} (hk : Keeps false s0 s) : Keeps false s0 (State.powerUp s) := by
  unfold State.powerUp; with_reducible repeat' first
    | assumption | apply State.unpowered_keeps | apply State.updPins_keeps | refine State.updFlash_keeps (fun _ => ⟨rfl, rfl, rfl, rfl⟩) ?_
    | apply State.enableGroup_keeps | apply State.updCal_keeps | apply State.updStage_keeps | apply forEach_keeps | apply Keeps.ite
    | refine State.updFlash_keeps_le (Nat.le_refl _) (Nat.le_succ _) (Nat.le_refl _) (fun _ _ m => m) ?_ | split | (intro) | extract_lets

theorem State.updSlot_keeps {pw : Bool} {s0 : State} {s : State} (i : Nat) (f : Slot → Slot) (hk : Keeps pw s0 s) : Keeps pw s0 (State.updSlot s i f)
    := by
  unfold State.updSlot; with_reducible repeat' first
    | assumption | refine State.updFlash_keeps (fun _ => ⟨rfl, rfl, rfl, rfl⟩) ?_ | apply Keeps.ite | split | (intro) | extract_lets

theorem State.imageRejected_keeps {pw : Bool} {s0 : State} {s : State} (slot : Nat) (code : Nat) (hk : Keeps pw s0 s) : Keeps pw s0
    (State.imageRejected s slot code) := by
  unfold State.imageRejected; with_reducible repeat' first
    | assumption | refine State.updId_keeps (fun _ => ⟨rfl, rfl⟩) ?_ | apply State.record_keeps | apply Keeps.ite | split | (intro) | extract_lets

theorem State.enterRecovery_keeps {pw : Bool} {s0 : State} {s : State} (code : Nat) (hk : Keeps pw s0 s) : Keeps pw s0 (State.enterRecovery s code)
    := by
  unfold State.enterRecovery; with_reducible repeat' first
    | assumption | refine State.updId_keeps (fun _ => ⟨rfl, rfl⟩) ?_ | apply State.updEvr_keeps | apply State.record_keeps
    | apply State.updPorts_keeps | apply State.updMbx_keeps | apply Keeps.ite | split | (intro) | extract_lets

theorem State.checkAccept_keeps {pw : Bool} {s0 : State} {s : State} (hk : Keeps pw s0 s) : Keeps pw s0 (State.checkAccept s) := by
  unfold State.checkAccept; with_reducible repeat' first
    | assumption | refine State.updId_keeps (fun _ => ⟨rfl, rfl⟩) ?_ | apply State.record_keeps | apply Keeps.ite | split | (intro) | extract_lets

theorem State.startSlot_keeps {pw : Bool} {s0 : State} {s : State} (k : Nat) (other : Bool) (hk : Keeps pw s0 s) : Keeps pw s0 (State.startSlot s k
    other) := by
  unfold State.startSlot; with_reducible repeat' first
    | assumption | apply State.setCfg_keeps | apply State.updSlot_keeps | refine State.updId_keeps (fun _ => ⟨rfl, rfl⟩) ?_
    | apply State.enableGroup_keeps | apply State.record_keeps | apply State.checkAccept_keeps | apply State.setEvt_keeps | apply Keeps.ite | split
    | (intro) | extract_lets

theorem State.applyFaultMap_keeps {pw : Bool} {s0 : State} {s : State} (failed : List (Nat × Nat)) (hk : Keeps pw s0 s) : Keeps pw s0
    (State.applyFaultMap s failed) := by
  unfold State.applyFaultMap; with_reducible repeat' first
    | assumption | apply State.fenceSlot_keeps | apply State.updRecov_keeps | refine State.updMem_keeps (fun _ => rfl) ?_ | apply forEach_keeps
    | apply Keeps.ite | split | (intro) | extract_lets

theorem State.acceptLocus_keeps {pw : Bool} {s0 : State} {s : State} (hk : Keeps pw s0 s) : Keeps pw s0 (State.acceptLocus s) := by
  unfold State.acceptLocus; with_reducible repeat' first
    | assumption | refine State.updId_keeps (fun _ => ⟨rfl, rfl⟩) ?_ | refine State.updFlash_keeps (fun _ => ⟨rfl, rfl, rfl, rfl⟩) ?_
    | apply Keeps.ite | split | (intro) | extract_lets

theorem State.acceptPort_keeps {pw : Bool} {s0 : State} {s : State} (p : Nat) (hk : Keeps pw s0 s) : Keeps pw s0 (State.acceptPort s p) := by
  unfold State.acceptPort; with_reducible repeat' first
    | assumption | refine State.updFlash_keeps (fun _ => ⟨rfl, rfl, rfl, rfl⟩) ?_ | apply Keeps.ite | split | (intro) | extract_lets

theorem State.asWriter_keeps {pw : Bool} {s0 : State} {s : State} (r : Req) (cmd : Nat) (f : Writer → State → State) (hk : Keeps pw s0 s) (hf : ∀ (x0
    : Writer) (x1 : State), Keeps pw s0 x1 → Keeps pw s0 (f x0 x1)) : Keeps pw s0 (State.asWriter s r cmd f) := by
  unfold State.asWriter; with_reducible repeat' first
    | assumption | apply State.vendor_keeps | apply hf | apply Keeps.ite | split | (intro) | extract_lets

theorem State.written_keeps {pw : Bool} {s0 : State} {s : State} (w : Writer) (hk : Keeps pw s0 s) : Keeps pw s0 (State.written s w).2 := by
  unfold State.written; with_reducible repeat' first
    | assumption | apply State.spend_keeps | apply Keeps.ite | split | (intro) | extract_lets

theorem State.commitLive_keeps {pw : Bool} {s0 : State} {s : State} (c : Cfg) (hk : Keeps pw s0 s) : Keeps pw s0 (State.commitLive s c) := by
  unfold State.commitLive; with_reducible repeat' first
    | assumption | refine State.updId_keeps (fun _ => ⟨rfl, rfl⟩) ?_ | apply State.goLive_keeps | apply Keeps.ite | split | (intro) | extract_lets

theorem State.chooseAlign_keeps {pw : Bool} {s0 : State} {s : State} (hk : Keeps pw s0 s) : Keeps pw s0 (State.chooseAlign s) := by
  unfold State.chooseAlign; with_reducible repeat' first
    | assumption | apply State.updDet_keeps | apply Keeps.ite | split | (intro) | extract_lets

theorem heldEffect_keeps {s0 : State} (c : Instr) {s : State} (hk : Keeps false s0 s) : Keeps false s0 (heldEffect c s) := by
  unfold heldEffect; with_reducible repeat' first
    | assumption | apply effDrained_keeps | apply effHostLoss_keeps | apply effStart_keeps | apply effGeyRestored_keeps | apply effStepHold_keeps
    | apply effRecoveryNotice_keeps | apply effGeyCkpt_keeps | apply effReexec_keeps | apply effRedUp_keeps | apply effPmap_keeps
    | apply effGeyBindReply_keeps | apply effProbe_keeps | apply effModuleLost_keeps | apply effCoordBeat_keeps | apply effResume_keeps
    | apply effGeyReseed_keeps | apply effGeyRestore_keeps | apply effGeyCkptDone_keeps | apply effArmed_keeps | apply effProbeReply_keeps
    | apply effTakeover_keeps | apply effTakeoverState_keeps | apply effSelfLost_keeps | apply effAck_keeps | apply effGeyFetch_keeps
    | apply effFaultReport_keeps | apply effCommit_keeps | apply effGeySpareReady_keeps | apply effStepConfirm_keeps | apply effRedDown_keeps
    | apply effDrain_keeps | apply effGeyBind_keeps | apply effGeyTakeDone_keeps | apply effRouteBreak_keeps | apply effGeyTake_keeps
    | apply Keeps.ite | split | (intro) | extract_lets

theorem State.request_keeps {pw : Bool} {s0 : State} {s : State} (p : Nat) (req : Nat) (carry : State → State) (hk : Keeps pw s0 s) (hcarry : ∀ (x0 :
    State), Keeps pw s0 x0 → Keeps pw s0 (carry x0)) : Keeps pw s0 (State.request s p req carry) := by
  unfold State.request; with_reducible repeat' first
    | assumption | apply State.sendLsm_keeps | apply State.updPort_keeps | apply hcarry | apply Keeps.ite | split | (intro) | extract_lets

theorem State.takeSample_keeps {pw : Bool} {s0 : State} {s : State} (k : Nat) (r : Reading) (hk : Keeps pw s0 s) : Keeps pw s0 (State.takeSample s k
    r) := by
  unfold State.takeSample; with_reducible repeat' first
    | assumption | apply State.bump_keeps | apply State.fresh_keeps | apply State.updTel_keeps | apply State.updCluster_keeps | apply Keeps.ite
    | split | (intro) | extract_lets

theorem State.metrics_keeps {pw : Bool} {s0 : State} {s : State} (now : List Nat) (hk : Keeps pw s0 s) : Keeps pw s0 (State.metrics s now).2 := by
  unfold State.metrics; with_reducible repeat' first
    | assumption | apply State.fresh_keeps | apply Keeps.ite | split | (intro) | extract_lets

theorem State.endInterval_keeps {pw : Bool} {s0 : State} {s : State} (i : Nat) (hk : Keeps pw s0 s) : Keeps pw s0 (State.endInterval s i) := by
  unfold State.endInterval; with_reducible repeat' first
    | assumption | apply State.updTel_keeps | apply State.telFold_keeps | apply State.metrics_keeps | apply Keeps.ite | split | (intro) | extract_lets

theorem State.emitRecords_keeps {pw : Bool} {s0 : State} {s : State} (k : Nat) (hk : Keeps pw s0 s) : Keeps pw s0 (State.emitRecords s k) := by
  unfold State.emitRecords; with_reducible repeat' first
    | assumption | apply State.flushVent_keeps | apply State.updEvr_keeps | apply State.updTel_keeps | apply Keeps.ite | split | (intro)
    | extract_lets

theorem State.telGuard_keeps {pw : Bool} {s0 : State} {s : State} (h : Hdr) (t : TelPkt) (f : State → State) (hk : Keeps pw s0 s) (hf : ∀ (x0 :
    State), Keeps pw s0 x0 → Keeps pw s0 (f x0)) : Keeps pw s0 (State.telGuard s h t f) := by
  unfold State.telGuard; with_reducible repeat' first
    | assumption | apply State.advanceTo_keeps | apply State.domainDrop_keeps | apply State.bump_keeps | apply State.marked_keeps | apply hf
    | apply Keeps.ite | split | (intro) | extract_lets

theorem State.subReply_keeps {pw : Bool} {s0 : State} {s : State} (port : Nat) (addr : Nat) (udp : Nat) (subId : Nat) (status : Nat) (lease : Nat)
    (retryMs : Nat) (nextSeq : Nat) (hk : Keeps pw s0 s) : Keeps pw s0 (State.subReply s port addr udp subId status lease retryMs nextSeq) := by
  unfold State.subReply; with_reducible repeat' first
    | assumption | apply State.emit_keeps | apply Keeps.ite | split | (intro) | extract_lets

theorem State.control_keeps {pw : Bool} {s0 : State} {s : State} (r : Req) (completion : Nat) (data : List Byte) (hk : Keeps pw s0 s) : Keeps pw s0
    (State.control s r completion data) := by
  unfold State.control; with_reducible repeat' first
    | assumption | apply State.emit_keeps | apply Keeps.ite | split | (intro) | extract_lets

theorem State.pldm_keeps {pw : Bool} {s0 : State} {s : State} (r : Req) (completion : Nat) (data : List Byte) (hk : Keeps pw s0 s) : Keeps pw s0
    (State.pldm s r completion data) := by
  unfold State.pldm; with_reducible repeat' first
    | assumption | apply State.emit_keeps | apply Keeps.ite | split | (intro) | extract_lets

theorem State.pldmBase_keeps {pw : Bool} {s0 : State} {s : State} (r : Req) (f : State → State) (hk : Keeps pw s0 s) (hf : ∀ (x0 : State), Keeps pw
    s0 x0 → Keeps pw s0 (f x0)) : Keeps pw s0 (State.pldmBase s r f) := by
  unfold State.pldmBase; with_reducible repeat' first
    | assumption | apply hf | apply Keeps.ite | split | (intro) | extract_lets

theorem State.pldmGate_keeps {pw : Bool} {s0 : State} {s : State} (r : Req) (f : State → State) (hk : Keeps pw s0 s) (hf : ∀ (x0 : State), Keeps pw
    s0 x0 → Keeps pw s0 (f x0)) : Keeps pw s0 (State.pldmGate s r f) := by
  unfold State.pldmGate; with_reducible repeat' first
    | assumption | apply State.pldm_keeps | apply hf | apply Keeps.ite | split | (intro) | extract_lets

theorem State.nearRead_keeps {pw : Bool} {s0 : State} {s : State} (a : Nat) (n : Nat) (rd : ReadOutcome) (hk : Keeps pw s0 s) : Keeps pw s0
    (State.nearRead s a n rd).2 := by
  unfold State.nearRead; with_reducible repeat' first
    | assumption | apply State.corrected_keeps | apply State.uncorrectable_keeps | apply Keeps.ite | split | (intro) | extract_lets

theorem State.fgSlots_keeps {pw : Bool} {s0 : State} {s : State} (a : Nat) (n : Nat) (hk : Keeps pw s0 s) : Keeps pw s0 (State.fgSlots s a n) := by
  unfold State.fgSlots; with_reducible repeat' first
    | assumption | apply State.bump_keeps | apply Keeps.ite | split | (intro) | extract_lets

theorem State.readRange_keeps {pw : Bool} {s0 : State} {s : State} (x : Nat) (a : Nat) (n : Nat) (unit : Nat) (opId : Nat) (layer : Nat) (rd :
    ReadOutcome) (hk : Keeps pw s0 s) : Keeps pw s0 (State.readRange s x a n unit opId layer rd).2 := by
  unfold State.readRange; with_reducible repeat' first
    | assumption | apply State.readBlock_keeps | apply State.reportBlock_keeps | apply State.fgSlots_keeps | apply State.nearRead_keeps
    | apply Keeps.ite | apply foldl_keepsS | apply foldl_keeps1 | apply foldl_keeps2 | split | (intro) | extract_lets

theorem State.writeRange_keeps {pw : Bool} {s0 : State} {s : State} (x : Nat) (a : Nat) (opId : Nat) (layer : Nat) (bs : List Byte) (hk : Keeps pw s0
    s) : Keeps pw s0 (State.writeRange s x a opId layer bs) := by
  unfold State.writeRange; with_reducible repeat' first
    | assumption | apply State.fgSlots_keeps | apply State.writePart_keeps | apply State.writeNear_keeps | apply forEach_keeps | apply Keeps.ite
    | split | (intro) | extract_lets

theorem State.transfer_keeps {pw : Bool} {s0 : State} {s : State} (x : Nat) (src : Nat) (dst : Nat) (n : Nat) (unit : Nat) (opId : Nat) (layer : Nat)
    (rd : ReadOutcome) (hk : Keeps pw s0 s) : Keeps pw s0 (State.transfer s x src dst n unit opId layer rd) := by
  unfold State.transfer; with_reducible repeat' first
    | assumption | apply State.readRange_keeps | apply State.addrErr_keeps | apply State.writeRange_keeps | apply Keeps.ite | split | (intro)
    | extract_lets

theorem State.readTensor_keeps {pw : Bool} {s0 : State} {s : State} (x : Nat) (opId : Nat) (layer : Nat) (t : Tensor) (rd : ReadOutcome) (hk : Keeps
    pw s0 s) : Keeps pw s0 (State.readTensor s x opId layer t rd).2 := by
  unfold State.readTensor; with_reducible repeat' first
    | assumption | apply State.readBlock_keeps | apply State.fgSlots_keeps | apply Keeps.ite | apply foldl_keepsS | apply foldl_keeps1
    | apply foldl_keeps2 | split | (intro) | extract_lets

theorem State.writeTensor_keeps {pw : Bool} {s0 : State} {s : State} (x : Nat) (t : Tensor) (blocks : List (List Byte)) (hk : Keeps pw s0 s) : Keeps
    pw s0 (State.writeTensor s x t blocks) := by
  unfold State.writeTensor; with_reducible repeat' first
    | assumption | apply State.writeBlock_keeps | apply State.fgSlots_keeps | apply forEach_keeps | apply Keeps.ite | split | (intro) | extract_lets

theorem State.countLate_keeps {pw : Bool} {s0 : State} {s : State} (g : Nat) (last : Bool) (hk : Keeps pw s0 s) : Keeps pw s0 (State.countLate s g
    last) := by
  unfold State.countLate; with_reducible repeat' first
    | assumption | apply State.bump_keeps | apply State.updCluster_keeps | apply State.setEvt_keeps | apply Keeps.ite | split | (intro) | extract_lets

theorem State.tryRelease_keeps {pw : Bool} {s0 : State} {s : State} (x : Nat) (barrier : Nat) (hk : Keeps pw s0 s) : Keeps pw s0 (State.tryRelease s
    x barrier) := by
  unfold State.tryRelease; with_reducible repeat' first
    | assumption | apply State.updExec_keeps | apply forEach_keeps | apply State.countLate_keeps | apply Keeps.ite | split | (intro) | extract_lets

theorem State.beginOp_keeps {pw : Bool} {s0 : State} {s : State} (x : Nat) (opId : Nat) (unit : Nat) (g : Nat) (hk : Keeps pw s0 s) : Keeps pw s0
    (State.beginOp s x opId unit g) := by
  unfold State.beginOp; with_reducible repeat' first
    | assumption | apply State.updCluster_keeps | apply State.updExec_keeps | apply Keeps.ite | split | (intro) | extract_lets

theorem State.launchBatchOf_keeps {pw : Bool} {s0 : State} {s : State} (g : Nat) (r : ThinReq) (hk : Keeps pw s0 s) : Keeps pw s0
    (State.launchBatchOf s g r) := by
  unfold State.launchBatchOf; with_reducible repeat' first
    | assumption | apply State.updCluster_keeps | apply forEach_keeps | apply State.beginOp_keeps | apply Keeps.ite | split | (intro) | extract_lets

theorem State.launchBatch_keeps {pw : Bool} {s0 : State} {s : State} (g : Nat) (hk : Keeps pw s0 s) : Keeps pw s0 (State.launchBatch s g) := by
  unfold State.launchBatch; with_reducible repeat' first
    | assumption | apply State.launchBatchOf_keeps | apply Keeps.ite | split | (intro) | extract_lets

theorem State.queueThin_keeps {pw : Bool} {s0 : State} {s : State} (x : Nat) (opId : Nat) (rows : Nat) (g : Nat) (hk : Keeps pw s0 s) : Keeps pw s0
    (State.queueThin s x opId rows g) := by
  unfold State.queueThin; with_reducible repeat' first
    | assumption | apply State.launchBatchOf_keeps | apply State.updCluster_keeps | apply State.beginOp_keeps | apply Keeps.ite | split | (intro)
    | extract_lets

theorem State.shadowReport_keeps {pw : Bool} {s0 : State} {s : State} (x : Nat) (o : OpDesc) (unit : Nat) (why : Nat) (hk : Keeps pw s0 s) : Keeps pw
    s0 (State.shadowReport s x o unit why) := by
  unfold State.shadowReport; with_reducible repeat' first
    | assumption | apply State.report_keeps | apply Keeps.ite | split | (intro) | extract_lets

theorem State.vote_keeps {pw : Bool} {s0 : State} {s : State} (x : Nat) (o : OpDesc) (r : Repeat) (b : ShadowObs) (hk : Keeps pw s0 s) : Keeps pw s0
    (State.vote s x o r b) := by
  unfold State.vote; with_reducible repeat' first
    | assumption | apply State.judge_keeps | apply State.updRecov_keeps | apply forEach_keeps | apply State.shadowReport_keeps | apply Keeps.ite
    | split | (intro) | extract_lets

theorem State.shadowCompare_keeps {pw : Bool} {s0 : State} {s : State} (x : Nat) (o : OpDesc) (b : ShadowObs) (hk : Keeps pw s0 s) : Keeps pw s0
    (State.shadowCompare s x o b) := by
  unfold State.shadowCompare; with_reducible repeat' first
    | assumption | apply State.bump_keeps | apply State.vote_keeps | apply State.updRecov_keeps | apply State.shadowReport_keeps | apply Keeps.ite
    | split | (intro) | extract_lets

theorem State.captureFor_keeps {pw : Bool} {s0 : State} {s : State} (x : Nat) (o : OpDesc) (hk : Keeps pw s0 s) : Keeps pw s0 (State.captureFor s x
    o) := by
  unfold State.captureFor; with_reducible repeat' first
    | assumption | apply forEach_keeps | apply State.updCtx_keeps | apply State.capture_keeps | apply Keeps.ite | split | (intro) | extract_lets

theorem State.powerDown_keeps {s0 : State} {s : State} (hk : Keeps false s0 s) : Keeps false s0 (State.powerDown s) := by
  unfold State.powerDown; with_reducible repeat' first
    | assumption | apply State.unpowered_keeps | apply State.disableGroup_keeps | apply Keeps.ite | split | (intro) | extract_lets

theorem State.inputTrip_keeps {s0 : State} {s : State} (hk : Keeps false s0 s) : Keeps false s0 (State.inputTrip s) := by
  unfold State.inputTrip; with_reducible repeat' first
    | assumption | apply State.updPins_keeps | apply State.powerDown_keeps | apply Keeps.ite | split | (intro) | extract_lets

theorem State.setConn_keeps {pw : Bool} {s0 : State} {s : State} (r : Req) (c : SpdmConn) (hk : Keeps pw s0 s) : Keeps pw s0 (State.setConn s r c) :=
    by
  unfold State.setConn; with_reducible repeat' first
    | assumption | apply State.updMgmt_keeps | apply Keeps.ite | split | (intro) | extract_lets

theorem State.spdm_keeps {pw : Bool} {s0 : State} {s : State} (r : Req) (code : Nat) (p1 : Nat) (p2 : Nat) (data : List Byte) (hk : Keeps pw s0 s) :
    Keeps pw s0 (State.spdm s r code p1 p2 data) := by
  unfold State.spdm; with_reducible repeat' first
    | assumption | apply State.emit_keeps | apply Keeps.ite | split | (intro) | extract_lets

theorem State.spdmError_keeps {pw : Bool} {s0 : State} {s : State} (r : Req) (err : Nat) (hk : Keeps pw s0 s) : Keeps pw s0 (State.spdmError s r err)
    := by
  unfold State.spdmError; with_reducible repeat' first
    | assumption | apply State.spdm_keeps | apply Keeps.ite | split | (intro) | extract_lets

theorem State.notReadyYet_keeps {pw : Bool} {s0 : State} {s : State} (r : Req) (request : Nat) (token : Nat) (hk : Keeps pw s0 s) : Keeps pw s0
    (State.notReadyYet s r request token) := by
  unfold State.notReadyYet; with_reducible repeat' first
    | assumption | apply State.spdm_keeps | apply State.hint_keeps | apply Keeps.ite | split | (intro) | extract_lets

theorem State.spdmStep_keeps {pw : Bool} {s0 : State} {s : State} (r : Req) (phase : Nat) (request : Nat) (body : List Byte) (code : Nat) (p1 : Nat)
    (p2 : Nat) (data : List Byte) (hk : Keeps pw s0 s) : Keeps pw s0 (State.spdmStep s r phase request body code p1 p2 data) := by
  unfold State.spdmStep; with_reducible repeat' first
    | assumption | apply State.setConn_keeps | apply State.spdm_keeps | apply Keeps.ite | split | (intro) | extract_lets

theorem State.spdmIn_keeps {pw : Bool} {s0 : State} {s : State} (r : Req) (phase : Nat) (f : SpdmConn → State → State) (hk : Keeps pw s0 s) (hf : ∀
    (x0 : SpdmConn) (x1 : State), Keeps pw s0 x1 → Keeps pw s0 (f x0 x1)) : Keeps pw s0 (State.spdmIn s r phase f) := by
  unfold State.spdmIn; with_reducible repeat' first
    | assumption | apply State.spdmError_keeps | apply hf | apply Keeps.ite | split | (intro) | extract_lets

theorem State.spdmLate_keeps {pw : Bool} {s0 : State} {s : State} (r : Req) (request : Nat) (phase : Nat) (f : SpdmConn → State → State) (hk : Keeps
    pw s0 s) (hf : ∀ (x0 : SpdmConn) (x1 : State), Keeps pw s0 x1 → Keeps pw s0 (f x0 x1)) : Keeps pw s0 (State.spdmLate s r request phase f) := by
  unfold State.spdmLate; with_reducible repeat' first
    | assumption | apply State.spdmIn_keeps | apply State.notReadyYet_keeps | apply hf | apply Keeps.ite | split | (intro) | extract_lets

theorem State.nonce_keeps {pw : Bool} {s0 : State} {s : State} (hk : Keeps pw s0 s) : Keeps pw s0 (State.nonce s).2 := by
  unfold State.nonce; with_reducible repeat' first
    | assumption | apply State.spend_keeps | apply Keeps.ite | split | (intro) | extract_lets

theorem State.updSession_keeps {pw : Bool} {s0 : State} {s : State} (id : Nat) (f : Session → Session) (hk : Keeps pw s0 s) : Keeps pw s0
    (State.updSession s id f) := by
  unfold State.updSession; with_reducible repeat' first
    | assumption | apply State.updMgmt_keeps | apply Keeps.ite | split | (intro) | extract_lets

theorem State.inSpdmSession_keeps {pw : Bool} {s0 : State} {s : State} (r : Req) (session : Nat) (f : State → State) (hk : Keeps pw s0 s) (hf : ∀ (x0
    : State), Keeps pw s0 x0 → Keeps pw s0 (f x0)) : Keeps pw s0 (State.inSpdmSession s r session f) := by
  unfold State.inSpdmSession; with_reducible repeat' first
    | assumption | apply State.spdmError_keeps | apply hf | apply Keeps.ite | split | (intro) | extract_lets

theorem State.hearRoot_keeps {pw : Bool} {s0 : State} {s : State} (root : Nat) (seq : Nat) (hk : Keeps pw s0 s) : Keeps pw s0 (State.hearRoot s root
    seq) := by
  unfold State.hearRoot; with_reducible repeat' first
    | assumption | apply State.updTime_keeps | apply Keeps.ite | split | (intro) | extract_lets

theorem State.steer_keeps {pw : Bool} {s0 : State} {s : State} (off : Int) (hk : Keeps pw s0 s) : Keeps pw s0 (State.steer s off) := by
  unfold State.steer; with_reducible repeat' first
    | assumption | apply State.updTime_keeps | apply Keeps.ite | split | (intro) | extract_lets

theorem State.watch_keeps {pw : Bool} {s0 : State} {s : State} (p : Nat) (off : Int) (theirs : Nat) (hk : Keeps pw s0 s) : Keeps pw s0 (State.watch s
    p off theirs) := by
  unfold State.watch; with_reducible repeat' first
    | assumption | apply State.setEvt_keeps | apply State.updPort_keeps | apply Keeps.ite | split | (intro) | extract_lets

theorem State.acquire_keeps {pw : Bool} {s0 : State} {s : State} (fc : Nat) (hk : Keeps pw s0 s) : Keeps pw s0 (State.acquire s fc) := by
  unfold State.acquire; with_reducible repeat' first
    | assumption | apply State.updTime_keeps | apply State.tryStart_keeps | apply State.updEvr_keeps | apply forEach_keeps | apply Keeps.ite
    | split | (intro) | extract_lets

theorem State.ptpOffset_keeps {pw : Bool} {s0 : State} {s : State} (port : Nat) (t1 : Int) (rx : Nat) (hk : Keeps pw s0 s) : Keeps pw s0
    (State.ptpOffset s port t1 rx) := by
  unfold State.ptpOffset; with_reducible repeat' first
    | assumption | apply State.acquire_keeps | apply State.updTime_keeps | apply State.updPtp_keeps | apply State.reselect_keeps
    | apply State.setEvt_keeps | apply Keeps.ite | split | (intro) | extract_lets

theorem State.vecStore_keeps {pw : Bool} {s0 : State} {s : State} (c : CoreCmd) (k : Ctx) (o : OpDesc) (first : Nat) (nearOff : Nat) (vs : List (Val
    × Bool)) (hk : Keeps pw s0 s) : Keeps pw s0 (State.vecStore s c k o first nearOff vs) := by
  unfold State.vecStore; with_reducible repeat' first
    | assumption | apply State.bump_keeps | apply State.writeNear_keeps | apply State.addrErr_keeps | apply State.addStatus_keeps | apply Keeps.ite
    | split | (intro) | extract_lets

theorem tick_keeps {pw : Bool} {s0 : State} {s : State} (hk : Keeps pw s0 s) : Keeps pw s0 (tick s) := by
  unfold tick; with_reducible repeat' first
    | assumption | apply State.updTime_keeps | apply Keeps.ite | split | (intro) | extract_lets

end Sys2Proof.Machine
end

