-- ==== Sys2Proof/Laws/Gates.lean ====
section
/-!
SUPPORT. The gates every family passes: when a CTRL message, a ring entry or a vendor request takes effect, what it takes effect on, and
what completing a ring entry leaves as it was.
-/
namespace Sys2Proof.Machine

/-! ### CTRL messages -/

theorem State.advanceTo_fields (s : State) (t : Nat) : ∃ m, s.advanceTo t = { s with time := m } := by
  unfold State.advanceTo
  split
  · exact ⟨_, rfl⟩
  · exact ⟨s.time, rfl⟩

theorem State.dupCheck_advanceTo (s : State) (h : Hdr) (t : Nat) : ((s.advanceTo t).dupCheck h).1 = (s.dupCheck h).1 := by
  obtain ⟨m, e⟩ := s.advanceTo_fields t
  rw [e]
  unfold State.dupCheck
  dsimp only
  split
  · rfl
  · split
    · split <;> rfl
    · split <;> rfl

theorem State.dupCheck_fields (s : State) (h : Hdr) : ∃ f, (s.dupCheck h).2 = { s with fab := f } := by
  unfold State.dupCheck
  dsimp only
  split
  · exact ⟨_, rfl⟩
  · split
    · split
      · exact ⟨_, rfl⟩
      · exact ⟨s.fab, rfl⟩
    · split
      · exact ⟨_, rfl⟩
      · exact ⟨s.fab, rfl⟩

/-- The state before a late arrival is noted: only the clock, the sender's number and the ACK are new. -/
theorem State.arrival_fields (s : State) (h : Hdr) :
    ∃ m f, ((s.advanceTo h.stamp).dupCheck h).2.sendResp h.src h.srcEp 0x01 h.step (field h.seq 32 0) =
      { s with time := m, fab := f, out := ackOfMsg h :: s.out } := by
  obtain ⟨m, e⟩ := s.advanceTo_fields h.stamp
  obtain ⟨f, e2⟩ := (s.advanceTo h.stamp).dupCheck_fields h
  refine ⟨m, f, ?_⟩
  rw [e2, e]
  rfl

/-- A message that takes effect acts on `atEffect`. -/
theorem State.ctrlIn_takes {s : State} {h : Hdr} (i : Instr) (eff : State → State) (ht : s.takes h = true) :
    s.ctrlIn h i eff = eff (s.atEffect h) := by
  obtain ⟨m, e⟩ := s.advanceTo_fields h.stamp
  obtain ⟨f, e2⟩ := (s.advanceTo h.stamp).dupCheck_fields h
  simp only [State.takes, Bool.and_eq_true, Bool.not_eq_true', Option.isNone_iff_eq_none] at ht
  obtain ⟨⟨⟨h1, h2⟩, h3⟩, h4⟩ := ht
  unfold State.ctrlIn State.atEffect
  dsimp only
  have h5 : (s.advanceTo h.stamp).inRun = true := by rw [e]; exact h1
  have h6 : ((s.advanceTo h.stamp).pins.pwrCycleReq && (s.advanceTo h.stamp).cal.owner.isNone) = false := by rw [e]; exact h2
  have h7 : ((s.advanceTo h.stamp).dupCheck h).1 = true := by rw [State.dupCheck_advanceTo]; exact h3
  have h8 : (((s.advanceTo h.stamp).dupCheck h).2.sendResp h.src h.srcEp 0x01 h.step (field h.seq 32 0)).releaseTick h = none := by
    rw [e2]; exact h4
  simp [h5, h6, h7, h8]

/-- Noting a late arrival changes counters, and the reasons of running steps. -/
theorem State.markLate_fields (s : State) : ∃ k c, s.markLate = { s with ctrs := k, ctxs := c } := by
  unfold State.markLate forEach
  generalize ctxIds.filter _ = l
  have : ∀ (l : List Nat) (u : State), (∃ k c, u = { s with ctrs := k, ctxs := c }) →
      ∃ k c, l.foldl (fun s x => s.updCtx x (fun c => { c with reasons := setBit c.reasons 3 true })) u = { s with ctrs := k, ctxs := c } := by
    intro l
    induction l with
    | nil => exact fun u h => h
    | cons a l ih =>
      intro u hu
      obtain ⟨k, c, rfl⟩ := hu
      exact ih _ ⟨k, _, rfl⟩
  exact this l _ ⟨_, s.ctxs, rfl⟩

/-- A context but for the reasons of its running step. -/
def Ctx.sansReasons (c : Ctx) : Ctx := { c with reasons := 0 }

/-- A field other than the reasons agrees where the contexts agree but for the reasons. -/
theorem sans_eq {α : Type} {c d : Ctx} (p : Ctx → α) (hp : ∀ c, p c.sansReasons = p c) (h : c.sansReasons = d.sansReasons) : p c = p d := by
  rw [← hp c, h, hp d]

theorem State.markLate_ctx (s : State) (x : Nat) : (s.markLate.ctx x).sansReasons = (s.ctx x).sansReasons := by
  unfold State.markLate forEach
  generalize ctxIds.filter _ = l
  have : ∀ (l : List Nat) (u : State), (u.ctx x).sansReasons = (s.ctx x).sansReasons →
      ((l.foldl (fun s x => s.updCtx x (fun c => { c with reasons := setBit c.reasons 3 true })) u).ctx x).sansReasons = (s.ctx x).sansReasons := by
    intro l
    induction l with
    | nil => exact fun u h => h
    | cons a l ih =>
      intro u hu
      apply ih
      rw [State.ctx_updCtx]
      split
      · next e => subst e; exact hu
      · exact hu
  exact this l _ rfl

/-- What a CTRL message finds: the clock, the numbers received, the counters and the reasons of running steps may differ, the ACK left. -/
theorem State.atEffect_fields (s : State) (h : Hdr) :
    ∃ m f k c, s.atEffect h = { s with time := m, fab := f, ctrs := k, ctxs := c, out := ackOfMsg h :: s.out } := by
  obtain ⟨m, f, e⟩ := s.arrival_fields h
  unfold State.atEffect
  dsimp only
  rw [e]
  unfold State.when
  split
  · obtain ⟨k, c, e2⟩ := State.markLate_fields { s with time := m, fab := f, out := ackOfMsg h :: s.out }
    exact ⟨m, f, k, c, e2⟩
  · exact ⟨m, f, s.ctrs, s.ctxs, rfl⟩

theorem State.atEffect_ctx (s : State) (h : Hdr) (x : Nat) : ((s.atEffect h).ctx x).sansReasons = (s.ctx x).sansReasons := by
  obtain ⟨m, f, e⟩ := s.arrival_fields h
  unfold State.atEffect
  dsimp only
  rw [e]
  unfold State.when
  split
  · exact (State.markLate_ctx _ x).trans rfl
  · rfl

@[simp] theorem State.atEffect_out (s : State) (h : Hdr) : (s.atEffect h).out = ackOfMsg h :: s.out := by
  obtain ⟨m, f, k, c, e⟩ := s.atEffect_fields h
  rw [e]

@[simp] theorem State.atEffect_cfg (s : State) (h : Hdr) : (s.atEffect h).cfg = s.cfg := by
  obtain ⟨m, f, k, c, e⟩ := s.atEffect_fields h
  rw [e]
@[simp] theorem State.atEffect_id (s : State) (h : Hdr) : (s.atEffect h).id = s.id := by
  obtain ⟨m, f, k, c, e⟩ := s.atEffect_fields h
  rw [e]
@[simp] theorem State.atEffect_flash (s : State) (h : Hdr) : (s.atEffect h).flash = s.flash := by
  obtain ⟨m, f, k, c, e⟩ := s.atEffect_fields h
  rw [e]
@[simp] theorem State.atEffect_mbx (s : State) (h : Hdr) : (s.atEffect h).mbx = s.mbx := by
  obtain ⟨m, f, k, c, e⟩ := s.atEffect_fields h
  rw [e]
@[simp] theorem State.atEffect_mem (s : State) (h : Hdr) : (s.atEffect h).mem = s.mem := by
  obtain ⟨m, f, k, c, e⟩ := s.atEffect_fields h
  rw [e]
@[simp] theorem State.atEffect_clus (s : State) (h : Hdr) : (s.atEffect h).clus = s.clus := by
  obtain ⟨m, f, k, c, e⟩ := s.atEffect_fields h
  rw [e]
@[simp] theorem State.atEffect_ports (s : State) (h : Hdr) : (s.atEffect h).ports = s.ports := by
  obtain ⟨m, f, k, c, e⟩ := s.atEffect_fields h
  rw [e]
@[simp] theorem State.atEffect_recov (s : State) (h : Hdr) : (s.atEffect h).recov = s.recov := by
  obtain ⟨m, f, k, c, e⟩ := s.atEffect_fields h
  rw [e]
@[simp] theorem State.atEffect_cal (s : State) (h : Hdr) : (s.atEffect h).cal = s.cal := by
  obtain ⟨m, f, k, c, e⟩ := s.atEffect_fields h
  rw [e]
@[simp] theorem State.atEffect_det (s : State) (h : Hdr) : (s.atEffect h).det = s.det := by
  obtain ⟨m, f, k, c, e⟩ := s.atEffect_fields h
  rw [e]
@[simp] theorem State.atEffect_gey (s : State) (h : Hdr) : (s.atEffect h).gey = s.gey := by
  obtain ⟨m, f, k, c, e⟩ := s.atEffect_fields h
  rw [e]
@[simp] theorem State.atEffect_tel (s : State) (h : Hdr) : (s.atEffect h).tel = s.tel := by
  obtain ⟨m, f, k, c, e⟩ := s.atEffect_fields h
  rw [e]
@[simp] theorem State.atEffect_evr (s : State) (h : Hdr) : (s.atEffect h).evr = s.evr := by
  obtain ⟨m, f, k, c, e⟩ := s.atEffect_fields h
  rw [e]
@[simp] theorem State.atEffect_pwr (s : State) (h : Hdr) : (s.atEffect h).pwr = s.pwr := by
  obtain ⟨m, f, k, c, e⟩ := s.atEffect_fields h
  rw [e]
@[simp] theorem State.atEffect_mgmt (s : State) (h : Hdr) : (s.atEffect h).mgmt = s.mgmt := by
  obtain ⟨m, f, k, c, e⟩ := s.atEffect_fields h
  rw [e]
@[simp] theorem State.atEffect_pins (s : State) (h : Hdr) : (s.atEffect h).pins = s.pins := by
  obtain ⟨m, f, k, c, e⟩ := s.atEffect_fields h
  rw [e]
@[simp] theorem State.atEffect_evts (s : State) (h : Hdr) : (s.atEffect h).evts = s.evts := by
  obtain ⟨m, f, k, c, e⟩ := s.atEffect_fields h
  rw [e]
@[simp] theorem State.atEffect_free (s : State) (h : Hdr) : (s.atEffect h).free = s.free := by
  obtain ⟨m, f, k, c, e⟩ := s.atEffect_fields h
  rw [e]
@[simp] theorem State.atEffect_pending (s : State) (h : Hdr) : (s.atEffect h).pending = s.pending := by
  obtain ⟨m, f, k, c, e⟩ := s.atEffect_fields h
  rw [e]

/-! The context a CTRL message finds, field by field. -/

@[simp] theorem State.atEffect_ctx_st (s : State) (h : Hdr) (x : Nat) : ((s.atEffect h).ctx x).st = (s.ctx x).st :=
  sans_eq Ctx.st (fun _ => rfl) (s.atEffect_ctx h x)
@[simp] theorem State.atEffect_ctx_mask (s : State) (h : Hdr) (x : Nat) : ((s.atEffect h).ctx x).mask = (s.ctx x).mask :=
  sans_eq Ctx.mask (fun _ => rfl) (s.atEffect_ctx h x)
@[simp] theorem State.atEffect_ctx_partCount (s : State) (h : Hdr) (x : Nat) : ((s.atEffect h).ctx x).partCount = (s.ctx x).partCount :=
  sans_eq Ctx.partCount (fun _ => rfl) (s.atEffect_ctx h x)
@[simp] theorem State.atEffect_ctx_received (s : State) (h : Hdr) (x : Nat) : ((s.atEffect h).ctx x).received = (s.ctx x).received :=
  sans_eq Ctx.received (fun _ => rfl) (s.atEffect_ctx h x)
@[simp] theorem State.atEffect_ctx_imageOff (s : State) (h : Hdr) (x : Nat) : ((s.atEffect h).ctx x).imageOff = (s.ctx x).imageOff :=
  sans_eq Ctx.imageOff (fun _ => rfl) (s.atEffect_ctx h x)
@[simp] theorem State.atEffect_ctx_imageLen (s : State) (h : Hdr) (x : Nat) : ((s.atEffect h).ctx x).imageLen = (s.ctx x).imageLen :=
  sans_eq Ctx.imageLen (fun _ => rfl) (s.atEffect_ctx h x)
@[simp] theorem State.atEffect_ctx_prog (s : State) (h : Hdr) (x : Nat) : ((s.atEffect h).ctx x).prog = (s.ctx x).prog :=
  sans_eq Ctx.prog (fun _ => rfl) (s.atEffect_ctx h x)
@[simp] theorem State.atEffect_ctx_progDigest (s : State) (h : Hdr) (x : Nat) : ((s.atEffect h).ctx x).progDigest = (s.ctx x).progDigest :=
  sans_eq Ctx.progDigest (fun _ => rfl) (s.atEffect_ctx h x)
@[simp] theorem State.atEffect_ctx_desc (s : State) (h : Hdr) (x : Nat) : ((s.atEffect h).ctx x).desc = (s.ctx x).desc :=
  sans_eq Ctx.desc (fun _ => rfl) (s.atEffect_ctx h x)
@[simp] theorem State.atEffect_ctx_policySet (s : State) (h : Hdr) (x : Nat) : ((s.atEffect h).ctx x).policySet = (s.ctx x).policySet :=
  sans_eq Ctx.policySet (fun _ => rfl) (s.atEffect_ctx h x)
@[simp] theorem State.atEffect_ctx_policy (s : State) (h : Hdr) (x : Nat) : ((s.atEffect h).ctx x).policy = (s.ctx x).policy :=
  sans_eq Ctx.policy (fun _ => rfl) (s.atEffect_ctx h x)
@[simp] theorem State.atEffect_ctx_adopted (s : State) (h : Hdr) (x : Nat) : ((s.atEffect h).ctx x).adopted = (s.ctx x).adopted :=
  sans_eq Ctx.adopted (fun _ => rfl) (s.atEffect_ctx h x)
@[simp] theorem State.atEffect_ctx_coordLocus (s : State) (h : Hdr) (x : Nat) : ((s.atEffect h).ctx x).coordLocus = (s.ctx x).coordLocus :=
  sans_eq Ctx.coordLocus (fun _ => rfl) (s.atEffect_ctx h x)
@[simp] theorem State.atEffect_ctx_pmap (s : State) (h : Hdr) (x : Nat) : ((s.atEffect h).ctx x).pmap = (s.ctx x).pmap :=
  sans_eq Ctx.pmap (fun _ => rfl) (s.atEffect_ctx h x)
@[simp] theorem State.atEffect_ctx_pmapParts (s : State) (h : Hdr) (x : Nat) : ((s.atEffect h).ctx x).pmapParts = (s.ctx x).pmapParts :=
  sans_eq Ctx.pmapParts (fun _ => rfl) (s.atEffect_ctx h x)
@[simp] theorem State.atEffect_ctx_index (s : State) (h : Hdr) (x : Nat) : ((s.atEffect h).ctx x).index = (s.ctx x).index :=
  sans_eq Ctx.index (fun _ => rfl) (s.atEffect_ctx h x)
@[simp] theorem State.atEffect_ctx_committed (s : State) (h : Hdr) (x : Nat) : ((s.atEffect h).ctx x).committed = (s.ctx x).committed :=
  sans_eq Ctx.committed (fun _ => rfl) (s.atEffect_ctx h x)
@[simp] theorem State.atEffect_ctx_commitTick (s : State) (h : Hdr) (x : Nat) : ((s.atEffect h).ctx x).commitTick = (s.ctx x).commitTick :=
  sans_eq Ctx.commitTick (fun _ => rfl) (s.atEffect_ctx h x)
@[simp] theorem State.atEffect_ctx_commitAttempt (s : State) (h : Hdr) (x : Nat) : ((s.atEffect h).ctx x).commitAttempt = (s.ctx x).commitAttempt :=
  sans_eq Ctx.commitAttempt (fun _ => rfl) (s.atEffect_ctx h x)
@[simp] theorem State.atEffect_ctx_step (s : State) (h : Hdr) (x : Nat) : ((s.atEffect h).ctx x).step = (s.ctx x).step :=
  sans_eq Ctx.step (fun _ => rfl) (s.atEffect_ctx h x)
@[simp] theorem State.atEffect_ctx_attempt (s : State) (h : Hdr) (x : Nat) : ((s.atEffect h).ctx x).attempt = (s.ctx x).attempt :=
  sans_eq Ctx.attempt (fun _ => rfl) (s.atEffect_ctx h x)
@[simp] theorem State.atEffect_ctx_launch (s : State) (h : Hdr) (x : Nat) : ((s.atEffect h).ctx x).launch = (s.ctx x).launch :=
  sans_eq Ctx.launch (fun _ => rfl) (s.atEffect_ctx h x)
@[simp] theorem State.atEffect_ctx_launched (s : State) (h : Hdr) (x : Nat) : ((s.atEffect h).ctx x).launched = (s.ctx x).launched :=
  sans_eq Ctx.launched (fun _ => rfl) (s.atEffect_ctx h x)
@[simp] theorem State.atEffect_ctx_cycleAtLaunch (s : State) (h : Hdr) (x : Nat) : ((s.atEffect h).ctx x).cycleAtLaunch = (s.ctx x).cycleAtLaunch :=
  sans_eq Ctx.cycleAtLaunch (fun _ => rfl) (s.atEffect_ctx h x)
@[simp] theorem State.atEffect_ctx_confirmed (s : State) (h : Hdr) (x : Nat) : ((s.atEffect h).ctx x).confirmed = (s.ctx x).confirmed :=
  sans_eq Ctx.confirmed (fun _ => rfl) (s.atEffect_ctx h x)
@[simp] theorem State.atEffect_ctx_faulted (s : State) (h : Hdr) (x : Nat) : ((s.atEffect h).ctx x).faulted = (s.ctx x).faulted :=
  sans_eq Ctx.faulted (fun _ => rfl) (s.atEffect_ctx h x)
@[simp] theorem State.atEffect_ctx_hostWrite (s : State) (h : Hdr) (x : Nat) : ((s.atEffect h).ctx x).hostWrite = (s.ctx x).hostWrite :=
  sans_eq Ctx.hostWrite (fun _ => rfl) (s.atEffect_ctx h x)
@[simp] theorem State.atEffect_ctx_confirmCycles (s : State) (h : Hdr) (x : Nat) : ((s.atEffect h).ctx x).confirmCycles = (s.ctx x).confirmCycles :=
  sans_eq Ctx.confirmCycles (fun _ => rfl) (s.atEffect_ctx h x)
@[simp] theorem State.atEffect_ctx_records (s : State) (h : Hdr) (x : Nat) : ((s.atEffect h).ctx x).records = (s.ctx x).records :=
  sans_eq Ctx.records (fun _ => rfl) (s.atEffect_ctx h x)
@[simp] theorem State.atEffect_ctx_stateSum (s : State) (h : Hdr) (x : Nat) : ((s.atEffect h).ctx x).stateSum = (s.ctx x).stateSum :=
  sans_eq Ctx.stateSum (fun _ => rfl) (s.atEffect_ctx h x)
@[simp] theorem State.atEffect_ctx_drainAt (s : State) (h : Hdr) (x : Nat) : ((s.atEffect h).ctx x).drainAt = (s.ctx x).drainAt :=
  sans_eq Ctx.drainAt (fun _ => rfl) (s.atEffect_ctx h x)
@[simp] theorem State.atEffect_ctx_holdRings (s : State) (h : Hdr) (x : Nat) : ((s.atEffect h).ctx x).holdRings = (s.ctx x).holdRings :=
  sans_eq Ctx.holdRings (fun _ => rfl) (s.atEffect_ctx h x)
@[simp] theorem State.atEffect_ctx_tearRings (s : State) (h : Hdr) (x : Nat) : ((s.atEffect h).ctx x).tearRings = (s.ctx x).tearRings :=
  sans_eq Ctx.tearRings (fun _ => rfl) (s.atEffect_ctx h x)
@[simp] theorem State.atEffect_ctx_exec (s : State) (h : Hdr) (x : Nat) : ((s.atEffect h).ctx x).exec = (s.ctx x).exec :=
  sans_eq Ctx.exec (fun _ => rfl) (s.atEffect_ctx h x)
@[simp] theorem State.atEffect_ctx_pend (s : State) (h : Hdr) (x : Nat) : ((s.atEffect h).ctx x).pend = (s.ctx x).pend :=
  sans_eq Ctx.pend (fun _ => rfl) (s.atEffect_ctx h x)
@[simp] theorem State.atEffect_ctx_dumps (s : State) (h : Hdr) (x : Nat) : ((s.atEffect h).ctx x).dumps = (s.ctx x).dumps :=
  sans_eq Ctx.dumps (fun _ => rfl) (s.atEffect_ctx h x)
@[simp] theorem State.atEffect_ctx_gey (s : State) (h : Hdr) (x : Nat) : ((s.atEffect h).ctx x).gey = (s.ctx x).gey :=
  sans_eq Ctx.gey (fun _ => rfl) (s.atEffect_ctx h x)
@[simp] theorem State.atEffect_ctx_coord (s : State) (h : Hdr) (x : Nat) : ((s.atEffect h).ctx x).coord = (s.ctx x).coord :=
  sans_eq Ctx.coord (fun _ => rfl) (s.atEffect_ctx h x)

/-! ### Mailbox entries -/

/-! The context a job message concerns. -/

@[simp] theorem State.atEffect_liveCtxs (s : State) (h : Hdr) : (s.atEffect h).liveCtxs = s.liveCtxs := by simp only [State.liveCtxs, State.atEffect_ctx_st]

@[simp] theorem State.atEffect_locus (s : State) (h : Hdr) : (s.atEffect h).locus = s.locus := by simp only [State.locus, State.atEffect_id]

theorem State.atEffect_jobCtx (s : State) (h : Hdr) (src : Nat) : (s.atEffect h).jobCtx src = s.jobCtx src := by
  simp only [State.jobCtx, State.ctxFor, State.atEffect_liveCtxs, State.atEffect_ctx_st, State.atEffect_ctx_coordLocus, State.atEffect_ctx_pmap]

theorem State.atEffect_coordCtx (s : State) (h : Hdr) (src step : Nat) : (s.atEffect h).coordCtx src step = s.coordCtx src step := by
  simp only [State.coordCtx, State.atEffect_liveCtxs, State.atEffect_ctx_coord, State.atEffect_ctx_pmap, State.atEffect_ctx_step]

/-- The state a served job message acts on: its sender and epoch adopted, this module no longer issuing for the job under an older one (R297). -/
def State.adopting (s : State) (h : Hdr) (e x : Nat) : State :=
  ((s.atEffect h).when ((s.atEffect h).stopsAt x h.src e) (fun s =>
      (s.updCoord x (fun o => o.stood (s.ctx x).coordForm s.time.loc)).updPins (fun p => { p with interlockOut := false }))).updCtx x
    (fun c => { c with adopted := e, coordLocus := h.src })

/-- A job message that is served acts on its context, its sender and epoch adopted first (R297). -/
theorem State.onJob_serves {s : State} {h : Hdr} {e x : Nat} (hs : s.serves h e x) (f : Nat → State → State) :
    (s.atEffect h).onJob h.src e f = f x (s.adopting h e x) := by
  have h1 : ¬ e < (s.ctx x).adopted := Nat.not_lt.mpr hs.2.2
  simp only [State.onJob, State.atEffect_jobCtx, hs.2.1, State.epochIn, State.atEffect_ctx_adopted, if_neg h1, State.adopting]

theorem State.runEntry_executes {s : State} {n op : Nat} {a : Staged} (f : Staged → State → Option (Nat × Nat) × State)
    (h : s.executes n op a) :
    s.runEntry n op f = match (f a s).1 with | some o => (f a s).2.complete n a o.1 o.2 | none => (f a s).2 := by
  obtain ⟨_, h2, h3, h4⟩ := h
  unfold State.runEntry
  simp [h2, h3, h4] <;> rfl

theorem onRing_lt {n : Nat} (r : State) (h : n < 4) : onRing n r = .next r := by simp [onRing, h]

theorem State.cacheOutcome_fields (s : State) (q st r : Nat) : ∃ rs ch o, s.cacheOutcome q st r = { s with mbx := { s.mbx with rings := rs, cache := ch }, out := o } := by
  exact ⟨s.mbx.rings, _, s.out, rfl⟩
theorem State.post_fields (s : State) (n q st : Nat) (d : Bool) (r : Nat) : ∃ rs ch o, s.post n q st d r = { s with mbx := { s.mbx with rings := rs, cache := ch }, out := o } := by
  unfold State.post
  dsimp only
  split
  · exact ⟨s.mbx.rings, s.mbx.cache, s.out, rfl⟩
  · split
    · exact ⟨_, s.mbx.cache, s.out, rfl⟩
    · exact ⟨_, s.mbx.cache, _, rfl⟩
theorem State.cacheForced_fields (s : State) (e : SqEntry) (st : Nat) :
    ∃ rs ch o, s.cacheForced e st = { s with mbx := { s.mbx with rings := rs, cache := ch }, out := o } := by
  unfold State.cacheForced
  split
  · exact ⟨s.mbx.rings, s.mbx.cache, s.out, rfl⟩
  · exact s.cacheOutcome_fields _ _ _
theorem State.nextEntry_fields (s : State) (n : Nat) : ∃ rs ch o, s.nextEntry n = { s with mbx := { s.mbx with rings := rs, cache := ch }, out := o } := by
  unfold State.nextEntry
  dsimp only
  split
  · exact ⟨_, s.mbx.cache, s.out, rfl⟩
  · split
    · exact ⟨_, s.mbx.cache, s.out, rfl⟩
    · rename_i a _ _ st _
      generalize hv : (s.updRing n (fun r => { r with cur := r.ahead, ahead := none })).updRing n (fun r => { r with cur := none }) = v
      obtain ⟨r, c, o, e⟩ := v.cacheForced_fields a.e st
      obtain ⟨r', c', o', e'⟩ := (v.cacheForced a.e st).post_fields n a.e.seq st a.dup 0
      exact ⟨r', c', o', by rw [e', e, ← hv]; rfl⟩
/-- What follows the posting of a completion. -/
theorem State.nextOrWait_fields (s : State) (n : Nat) :
    ∃ rs ch o, (if (s.ring n).stalled.isEmpty then s.nextEntry n else s.updRing n (fun r => { r with cur := none })) =
      { s with mbx := { s.mbx with rings := rs, cache := ch }, out := o } := by
  split
  · exact s.nextEntry_fields n
  · exact ⟨_, s.mbx.cache, s.out, rfl⟩
theorem State.complete_fields (s : State) (n : Nat) (a : Staged) (st r : Nat) : ∃ rs ch o, s.complete n a st r = { s with mbx := { s.mbx with rings := rs, cache := ch }, out := o } := by
  unfold State.complete
  dsimp only
  split
  · obtain ⟨_, _, o, e⟩ := s.post_fields n a.e.seq st a.dup r
    obtain ⟨r', c', o', e'⟩ := (s.post n a.e.seq st a.dup r).nextOrWait_fields n
    exact ⟨r', c', o', e'.trans (by rw [e])⟩
  · obtain ⟨_, _, o, e⟩ := (s.cacheOutcome a.e.seq st r).post_fields n a.e.seq st a.dup r
    obtain ⟨r', c', o', e'⟩ := ((s.cacheOutcome a.e.seq st r).post n a.e.seq st a.dup r).nextOrWait_fields n
    exact ⟨r', c', o', e'.trans (by rw [e]; rfl)⟩

@[simp] theorem State.complete_time (s : State) (n : Nat) (a : Staged) (st r : Nat) : (s.complete n a st r).time = s.time := by
  obtain ⟨r', c', o, e⟩ := s.complete_fields n a st r
  rw [e]
@[simp] theorem State.complete_cfg (s : State) (n : Nat) (a : Staged) (st r : Nat) : (s.complete n a st r).cfg = s.cfg := by
  obtain ⟨r', c', o, e⟩ := s.complete_fields n a st r
  rw [e]
@[simp] theorem State.complete_id (s : State) (n : Nat) (a : Staged) (st r : Nat) : (s.complete n a st r).id = s.id := by
  obtain ⟨r', c', o, e⟩ := s.complete_fields n a st r
  rw [e]
@[simp] theorem State.complete_flash (s : State) (n : Nat) (a : Staged) (st r : Nat) : (s.complete n a st r).flash = s.flash := by
  obtain ⟨r', c', o, e⟩ := s.complete_fields n a st r
  rw [e]
@[simp] theorem State.complete_ctxs (s : State) (n : Nat) (a : Staged) (st r : Nat) : (s.complete n a st r).ctxs = s.ctxs := by
  obtain ⟨r', c', o, e⟩ := s.complete_fields n a st r
  rw [e]
@[simp] theorem State.complete_mem (s : State) (n : Nat) (a : Staged) (st r : Nat) : (s.complete n a st r).mem = s.mem := by
  obtain ⟨r', c', o, e⟩ := s.complete_fields n a st r
  rw [e]
@[simp] theorem State.complete_clus (s : State) (n : Nat) (a : Staged) (st r : Nat) : (s.complete n a st r).clus = s.clus := by
  obtain ⟨r', c', o, e⟩ := s.complete_fields n a st r
  rw [e]
@[simp] theorem State.complete_fab (s : State) (n : Nat) (a : Staged) (st r : Nat) : (s.complete n a st r).fab = s.fab := by
  obtain ⟨r', c', o, e⟩ := s.complete_fields n a st r
  rw [e]
@[simp] theorem State.complete_ports (s : State) (n : Nat) (a : Staged) (st r : Nat) : (s.complete n a st r).ports = s.ports := by
  obtain ⟨r', c', o, e⟩ := s.complete_fields n a st r
  rw [e]
@[simp] theorem State.complete_recov (s : State) (n : Nat) (a : Staged) (st r : Nat) : (s.complete n a st r).recov = s.recov := by
  obtain ⟨r', c', o, e⟩ := s.complete_fields n a st r
  rw [e]
@[simp] theorem State.complete_cal (s : State) (n : Nat) (a : Staged) (st r : Nat) : (s.complete n a st r).cal = s.cal := by
  obtain ⟨r', c', o, e⟩ := s.complete_fields n a st r
  rw [e]
@[simp] theorem State.complete_det (s : State) (n : Nat) (a : Staged) (st r : Nat) : (s.complete n a st r).det = s.det := by
  obtain ⟨r', c', o, e⟩ := s.complete_fields n a st r
  rw [e]
@[simp] theorem State.complete_gey (s : State) (n : Nat) (a : Staged) (st r : Nat) : (s.complete n a st r).gey = s.gey := by
  obtain ⟨r', c', o, e⟩ := s.complete_fields n a st r
  rw [e]
@[simp] theorem State.complete_tel (s : State) (n : Nat) (a : Staged) (st r : Nat) : (s.complete n a st r).tel = s.tel := by
  obtain ⟨r', c', o, e⟩ := s.complete_fields n a st r
  rw [e]
@[simp] theorem State.complete_evr (s : State) (n : Nat) (a : Staged) (st r : Nat) : (s.complete n a st r).evr = s.evr := by
  obtain ⟨r', c', o, e⟩ := s.complete_fields n a st r
  rw [e]
@[simp] theorem State.complete_pwr (s : State) (n : Nat) (a : Staged) (st r : Nat) : (s.complete n a st r).pwr = s.pwr := by
  obtain ⟨r', c', o, e⟩ := s.complete_fields n a st r
  rw [e]
@[simp] theorem State.complete_mgmt (s : State) (n : Nat) (a : Staged) (st r : Nat) : (s.complete n a st r).mgmt = s.mgmt := by
  obtain ⟨r', c', o, e⟩ := s.complete_fields n a st r
  rw [e]
@[simp] theorem State.complete_pins (s : State) (n : Nat) (a : Staged) (st r : Nat) : (s.complete n a st r).pins = s.pins := by
  obtain ⟨r', c', o, e⟩ := s.complete_fields n a st r
  rw [e]
@[simp] theorem State.complete_evts (s : State) (n : Nat) (a : Staged) (st r : Nat) : (s.complete n a st r).evts = s.evts := by
  obtain ⟨r', c', o, e⟩ := s.complete_fields n a st r
  rw [e]
@[simp] theorem State.complete_ctrs (s : State) (n : Nat) (a : Staged) (st r : Nat) : (s.complete n a st r).ctrs = s.ctrs := by
  obtain ⟨r', c', o, e⟩ := s.complete_fields n a st r
  rw [e]
@[simp] theorem State.complete_free (s : State) (n : Nat) (a : Staged) (st r : Nat) : (s.complete n a st r).free = s.free := by
  obtain ⟨r', c', o, e⟩ := s.complete_fields n a st r
  rw [e]
@[simp] theorem State.complete_pending (s : State) (n : Nat) (a : Staged) (st r : Nat) : (s.complete n a st r).pending = s.pending := by
  obtain ⟨r', c', o, e⟩ := s.complete_fields n a st r
  rw [e]
@[simp] theorem State.complete_mbx_enable (s : State) (n : Nat) (a : Staged) (st r : Nat) : (s.complete n a st r).mbx.enable = s.mbx.enable := by
  obtain ⟨r', c', o, e⟩ := s.complete_fields n a st r
  rw [e]
@[simp] theorem State.complete_mbx_hostLoss (s : State) (n : Nat) (a : Staged) (st r : Nat) : (s.complete n a st r).mbx.hostLoss = s.mbx.hostLoss := by
  obtain ⟨r', c', o, e⟩ := s.complete_fields n a st r
  rw [e]
@[simp] theorem State.complete_mbx_attached (s : State) (n : Nat) (a : Staged) (st r : Nat) : (s.complete n a st r).mbx.attached = s.mbx.attached := by
  obtain ⟨r', c', o, e⟩ := s.complete_fields n a st r
  rw [e]
@[simp] theorem State.complete_mbx_ready (s : State) (n : Nat) (a : Staged) (st r : Nat) : (s.complete n a st r).mbx.ready = s.mbx.ready := by
  obtain ⟨r', c', o, e⟩ := s.complete_fields n a st r
  rw [e]
@[simp] theorem State.complete_mbx_heartbeat (s : State) (n : Nat) (a : Staged) (st r : Nat) : (s.complete n a st r).mbx.heartbeat = s.mbx.heartbeat := by
  obtain ⟨r', c', o, e⟩ := s.complete_fields n a st r
  rw [e]
@[simp] theorem State.complete_mbx_highSeq (s : State) (n : Nat) (a : Staged) (st r : Nat) : (s.complete n a st r).mbx.highSeq = s.mbx.highSeq := by
  obtain ⟨r', c', o, e⟩ := s.complete_fields n a st r
  rw [e]
@[simp] theorem State.complete_mbx_linkUp (s : State) (n : Nat) (a : Staged) (st r : Nat) : (s.complete n a st r).mbx.linkUp = s.mbx.linkUp := by
  obtain ⟨r', c', o, e⟩ := s.complete_fields n a st r
  rw [e]
@[simp] theorem State.complete_mbx_linkDownAt (s : State) (n : Nat) (a : Staged) (st r : Nat) : (s.complete n a st r).mbx.linkDownAt = s.mbx.linkDownAt := by
  obtain ⟨r', c', o, e⟩ := s.complete_fields n a st r
  rw [e]
@[simp] theorem State.complete_mbx_width (s : State) (n : Nat) (a : Staged) (st r : Nat) : (s.complete n a st r).mbx.width = s.mbx.width := by
  obtain ⟨r', c', o, e⟩ := s.complete_fields n a st r
  rw [e]
@[simp] theorem State.complete_mbx_rate (s : State) (n : Nat) (a : Staged) (st r : Nat) : (s.complete n a st r).mbx.rate = s.mbx.rate := by
  obtain ⟨r', c', o, e⟩ := s.complete_fields n a st r
  rw [e]
@[simp] theorem State.complete_mbx_busMaster (s : State) (n : Nat) (a : Staged) (st r : Nat) : (s.complete n a st r).mbx.busMaster = s.mbx.busMaster := by
  obtain ⟨r', c', o, e⟩ := s.complete_fields n a st r
  rw [e]
@[simp] theorem State.complete_mbx_dumpSeq (s : State) (n : Nat) (a : Staged) (st r : Nat) : (s.complete n a st r).mbx.dumpSeq = s.mbx.dumpSeq := by
  obtain ⟨r', c', o, e⟩ := s.complete_fields n a st r
  rw [e]
@[simp] theorem State.complete_ctx (s : State) (n : Nat) (a : Staged) (st r x : Nat) : (s.complete n a st r).ctx x = s.ctx x := by
  simp [State.ctx]

/-- A completion with a free slot is written. -/
theorem State.complete_sent (s : State) (n : Nat) (a : Staged) (st r : Nat) (h : s.posts n = true) :
    sentBetween s (s.complete n a st r) (s.completion n a st r) := by
  have key : ∀ u v : State, (u.mbx.linkUp = s.mbx.linkUp ∧ u.mbx.hostLoss = s.mbx.hostLoss ∧ u.mbx.busMaster = s.mbx.busMaster ∧
      u.ring n = s.ring n ∧ u.out = s.out) → (u.post n a.e.seq st a.dup r).out <:+ v.out → sentBetween s v (s.completion n a st r) := by
    rintro u v ⟨h1, h2, h5, h3, h4⟩ ⟨l, hl⟩
    simp only [State.posts, Bool.and_eq_true, Bool.not_eq_true', decide_eq_true_eq] at h
    obtain ⟨⟨⟨⟨g1, g2⟩, g5⟩, g3⟩, g4⟩ := h
    have hp : (u.post n a.e.seq st a.dup r).out = .msix 0 n :: s.completion n a st r :: s.out := by
      simp [State.post, h1, h2, h3, g1, g2, g3, h5, g5, Nat.not_le_of_gt g4, State.completion, h4]
    refine ⟨l ++ [.msix 0 n, s.completion n a st r], ?_, by simp⟩
    rw [← hl, hp]; simp
  have tail : ∀ u : State, u.out <:+ (if (u.ring n).stalled.isEmpty then u.nextEntry n else u.updRing n (fun r => { r with cur := none })).out := by
    intro u
    split
    · exact (State.nextEntry_keeps (pw := false) n (Keeps.refl _ u)).sent
    · exact List.suffix_rfl
  unfold State.complete
  dsimp only
  split
  · exact key s _ ⟨rfl, rfl, rfl, rfl, rfl⟩ (tail _)
  · exact key (s.cacheOutcome a.e.seq st r) _ ⟨rfl, rfl, rfl, rfl, rfl⟩ (tail _)

/-- What has left stays: something sent before more work is among what left between the two ends. -/
theorem sentBetween.mono {s t u : State} {e : Emit} (h : sentBetween s t e) (k : t.out <:+ u.out) : sentBetween s u e := by
  obtain ⟨n, h1, h2⟩ := h
  obtain ⟨l, hl⟩ := k
  exact ⟨l ++ n, by rw [← hl, h1]; simp, by simp [h2]⟩

theorem sentBetween.before {s t u : State} {e : Emit} (h : sentBetween t u e) (k : s.out <:+ t.out) : sentBetween s u e := by
  obtain ⟨n, h1, h2⟩ := h
  obtain ⟨l, hl⟩ := k
  exact ⟨n ++ l, by rw [h1, ← hl]; simp, by simp [h2]⟩

/-- Completing an entry after work that leaves the mailbox alone. -/
theorem completed_of {s u : State} (hm : u.mbx = s.mbx) (ho : s.out <:+ u.out) (n : Nat) (a : Staged) (st r : Nat) :
    completed s (u.complete n a st r) n a st r := by
  intro hp
  have e : ∀ k, u.ring k = s.ring k := fun k => by simp only [State.ring, hm]
  have h1 : u.posts n = true := by simpa only [State.posts, hm, e] using hp
  have h2 : u.completion n a st r = s.completion n a st r := by simp only [State.completion, e]
  exact h2 ▸ (State.complete_sent u n a st r h1).before ho

theorem State.complete_suffix (s : State) (n : Nat) (a : Staged) (st r : Nat) : s.out <:+ (s.complete n a st r).out :=
  (State.complete_keeps (pw := false) n a st r (Keeps.refl _ s)).sent

theorem State.hostPayload_fields (s : State) (a : Staged) (b : List Byte) : ∃ o, s.hostPayload a b = { s with out := o } := by
  unfold State.hostPayload; split
  · exact ⟨_, rfl⟩
  · exact ⟨s.out, rfl⟩

theorem State.hostPayload_suffix (s : State) (a : Staged) (b : List Byte) : s.out <:+ (s.hostPayload a b).out :=
  (State.hostPayload_keeps (pw := false) a b (Keeps.refl _ s)).sent

/-- A payload towards a host that is there is written. -/
theorem State.hostPayload_sent (s : State) (a : Staged) (b : List Byte) (h : s.mbx.linkUp = true ∧ s.mbx.busMaster = true ∧ s.mbx.hostLoss = false) :
    sentBetween s (s.hostPayload a b) (.hostWrite a.e.payloadAddr b) := by
  unfold State.hostPayload; simp only [h.1, h.2.1, h.2.2]; exact ⟨[_], rfl, by simp⟩

/-! ### Management requests -/

theorem State.vendorGate_served {s : State} {r : Req} {cmd : Nat} {early needsSession : Bool} (f : State → State)
    (h : s.vendorServed r early needsSession = true) : s.vendorGate r cmd early needsSession f = f s := by
  simp only [State.vendorServed, Bool.and_eq_true, Bool.or_eq_true, Bool.not_eq_true', beq_iff_eq, bne_iff_ne, ne_eq] at h
  obtain ⟨⟨h1, h2⟩, h3⟩ := h
  have h4 : (needsSession && !s.inSession r) = false := by
    rcases h3 with h3 | h3 <;> simp [h3]
  unfold State.vendorGate
  simp only [h1, h4]
  rcases h2 with h2 | ⟨h2, h5⟩
  · simp [h2]
  · rcases hc : s.id.cal <;> simp_all

end Sys2Proof.Machine
end

