-- ==== Sys2Proof/Laws/Only.lean ====
section
/-!
SUPPORT. The parts of the module an operation may change, as a mask over `Part`: `Only ps s t` says that from `s` to `t` nothing outside
`ps` changed, and `Foot a b` that mask `a` lies inside mask `b`.
-/
namespace Sys2Proof.Machine

/-- Mask `a` lies inside mask `b`. -/
def Foot (a b : Nat) : Prop := ∀ i, a.testBit i = true → b.testBit i = true

theorem Foot.refl (a : Nat) : Foot a a := fun _ h => h
theorem Foot.sub {a b c : Nat} (h : a ||| b = b) (k : Foot b c) : Foot a c := fun i hi => k i (by rw [← h, Nat.testBit_or, hi, Bool.true_or])

/-- The place of a part in a mask; bit 25 stands for a module reset. -/
def Part.idx : Part → Nat
  | .ctx f => 32 + f.ctorIdx
  | .time => 0
  | .cfg => 1
  | .id => 2
  | .flash => 3
  | .critical => 4
  | .mbx => 5
  | .ctxs => 6
  | .memory => 7
  | .bytes => 8
  | .clus => 9
  | .fab => 10
  | .ports => 11
  | .recov => 12
  | .cal => 13
  | .det => 14
  | .gey => 15
  | .tel => 16
  | .evr => 17
  | .pwr => 18
  | .mgmt => 19
  | .pins => 20
  | .evts => 21
  | .ctrs => 22
  | .out => 23
  | .free => 24

/-- From `s` to `t` nothing outside the mask changed; where bit 25 allows a module reset, unless one came, which raises the start count
(R405). -/
structure Only (ps : Nat) (s t : State) : Prop where
  starts : s.flash.starts ≤ t.flash.starts
  parts : (ps.testBit 25 = true → t.flash.starts = s.flash.starts) → ∀ p : Part, ps.testBit p.idx = false → p.same s t

theorem CtxField.same_refl (f : CtxField) (c : Ctx) : f.same c c := by cases f <;> rfl
theorem CtxField.same_trans {f : CtxField} {c d e : Ctx} (h : f.same c d) (k : f.same d e) : f.same c e := by cases f <;> exact Eq.trans k h
theorem Part.same_refl (p : Part) (s : State) : p.same s s := by
  cases p with
  | ctx f => exact fun y => f.same_refl _
  | _ => rfl
theorem Part.same_trans {p : Part} {s t u : State} (h : p.same s t) (k : p.same t u) : p.same s u := by
  cases p with
  | ctx f => exact fun y => CtxField.same_trans (h y) (k y)
  | _ => exact Eq.trans k h

theorem Only.refl (ps : Nat) (s : State) : Only ps s s := ⟨Nat.le_refl _, fun _ p _ => p.same_refl s⟩
theorem Only.trans {ps : Nat} {s t u : State} (h : Only ps s t) (k : Only ps t u) : Only ps s u :=
  ⟨Nat.le_trans h.starts k.starts, fun e p hp =>
    Part.same_trans (h.parts (fun b => Nat.le_antisymm (e b ▸ k.starts) h.starts) p hp)
      (k.parts (fun b => Nat.le_antisymm (e b ▸ h.starts) k.starts) p hp)⟩
theorem Only.weaken {a ps : Nat} {s t : State} (hp : Foot a ps) (k : Only a s t) : Only ps s t :=
  ⟨k.starts, fun e p hq => k.parts (fun b => e (hp _ b)) p (by
    cases e : a.testBit p.idx with
    | false => rfl
    | true => exact absurd (hp _ e) (by rw [hq]; exact Bool.false_ne_true))⟩
theorem Only.of {a ps : Nat} {s0 s t : State} (hp : Foot a ps) (h : Only ps s0 s) (hs : t.flash.starts = s.flash.starts)
    (k : ∀ p : Part, a.testBit p.idx = false → p.same s t) : Only ps s0 t :=
  h.trans (Only.weaken hp ⟨Nat.le_of_eq hs.symm, fun _ => k⟩)
theorem Only.ite {ps : Nat} {s0 a b : State} {c : Prop} [Decidable c] (ha : c → Only ps s0 a) (hb : ¬c → Only ps s0 b) :
    Only ps s0 (if c then a else b) := by
  split
  · exact ha ‹_›
  · exact hb ‹_›

/-- A mask read as a list of parts. -/
theorem Only.changes {ps : Nat} {s t : State} {l : List Part} (h : Only ps s t) (hl : ∀ p : Part, p ∉ l → ps.testBit p.idx = false)
    (hr : ps.testBit 25 = true → t.flash.starts = s.flash.starts) : onlyChanges s t l := fun p hp => h.parts hr p (hl p hp)

theorem Part.all_mem (p : Part) : p ∈ Part.module ++ ctxParts CtxField.every := by
  cases p with
  | ctx q => cases q <;> decide
  | _ => decide

/-- A mask read as a list of parts, checked in one evaluation. -/
theorem Only.changes_list {ps : Nat} {s t : State} {l : List Part} (h : Only ps s t)
    (hl : (Part.module ++ ctxParts CtxField.every).all (fun p => l.contains p || !ps.testBit p.idx) = true)
    (hr : ps.testBit 25 = true → t.flash.starts = s.flash.starts) : onlyChanges s t l :=
  h.changes (fun p hp => by
    have := List.all_eq_true.1 hl p p.all_mem
    rw [Bool.or_eq_true] at this
    rcases this with q | q
    · exact absurd (List.contains_iff_mem.1 q) hp
    · simpa using q) hr

/-- Where a command answers a next state, nothing outside the mask changed. -/
def OnlyO (ps : Nat) (s : State) (o : Host.Outcome State Fault Refusal) : Prop := ∀ t, o = .next t → Only ps s t

theorem OnlyO.next {ps : Nat} {s t : State} (h : Only ps s t) : OnlyO ps s (.next t) := by
  intro u hu; cases hu; exact h
theorem OnlyO.fault {ps : Nat} {s : State} (f : Fault) : OnlyO ps s (.fault f) := by intro u hu; cases hu
theorem OnlyO.refused {ps : Nat} {s : State} (r : Refusal) : OnlyO ps s (.refused r) := by intro u hu; cases hu
theorem OnlyO.ite {ps : Nat} {s : State} {a b : Host.Outcome State Fault Refusal} {c : Prop} [Decidable c] (ha : c → OnlyO ps s a)
    (hb : ¬c → OnlyO ps s b) : OnlyO ps s (if c then a else b) := by
  split
  · exact ha ‹_›
  · exact hb ‹_›

/-! ### The plain updates -/

section
variable {ps : Nat} {s0 s : State}

/-- A context changed in the fields of a mask. -/
theorem State.updCtx_only {x : Nat} {f : Ctx → Ctx} {a : Nat} (hp : Foot (64 ||| a) ps)
    (hf : ∀ (c : Ctx) (q : CtxField), a.testBit (32 + q.ctorIdx) = false → q.same c (f c)) (h : Only ps s0 s) : Only ps s0 (s.updCtx x f) :=
  Only.of hp h rfl (fun p hq => by
    rw [Nat.testBit_or, Bool.or_eq_false_iff] at hq
    cases p with
    | ctx q =>
      intro y
      rw [State.ctx_updCtx]
      split
      · next e => rw [e]; exact hf _ q hq.2
      · exact q.same_refl _
    | ctxs => cases hq.1
    | _ => rfl)
theorem State.setCtx_only (x : Nat) (c : Ctx) (hp : Foot 2361183241430527639616 ps) (h : Only ps s0 s) : Only ps s0 (s.setCtx x c) :=
  Only.of hp h rfl (fun p hq => by
    cases p with
    | ctx q => cases q <;> cases hq
    | ctxs => cases hq
    | _ => rfl)
theorem State.updCoord_only (x : Nat) (f : Coord → Coord) (hp : Foot (64 ||| 1180591620717411303424) ps) (h : Only ps s0 s) : Only ps s0 (s.updCoord x f) :=
  State.updCtx_only hp (fun c q hq => by cases q <;> first | rfl | cases hq) h
theorem State.updGey_only (x : Nat) (f : GeyCtx → GeyCtx) (hp : Foot (64 ||| 590295810358705651712) ps) (h : Only ps s0 s) : Only ps s0 (s.updGey x f) :=
  State.updCtx_only hp (fun c q hq => by cases q <;> first | rfl | cases hq) h
theorem State.updExec_only (x : Nat) (f : Exec → Exec) (hp : Foot (64 ||| 73786976294838206464) ps) (h : Only ps s0 s) : Only ps s0 (s.updExec x f) :=
  State.updCtx_only hp (fun c q hq => by cases q <;> first | rfl | cases hq) h
/-- A change outside the contexts. -/
theorem Only.same {a : Nat} {t : State} (hp : Foot a ps) (h : Only ps s0 s) (hs : t.flash.starts = s.flash.starts) (hc : t.ctxs = s.ctxs)
    (k : ∀ p : Part, a.testBit p.idx = false → (match p with | .ctx _ => False | _ => True) → p.same s t) : Only ps s0 t :=
  Only.of hp h hs (fun p hq => by
    cases p with
    | ctx q => intro y; rw [State.ctx, State.ctx, hc]; exact q.same_refl _
    | _ => exact k _ hq trivial)
theorem State.updPort_only (x : Nat) (f : Port → Port) (hp : Foot 2048 ps) (h : Only ps s0 s) : Only ps s0 (s.updPort x f) :=
  Only.same hp h rfl rfl (by with_unfolding_all (intro p hq hc; cases p <;> first | rfl | cases hq | cases hc))
theorem State.updPorts_only (f : KMap Port → KMap Port) (hp : Foot 2048 ps) (h : Only ps s0 s) : Only ps s0 (s.updPorts f) :=
  Only.same hp h rfl rfl (by with_unfolding_all (intro p hq hc; cases p <;> first | rfl | cases hq | cases hc))
theorem State.updCluster_only (x : Nat) (f : Cluster → Cluster) (hp : Foot 512 ps) (h : Only ps s0 s) : Only ps s0 (s.updCluster x f) :=
  Only.same hp h rfl rfl (by with_unfolding_all (intro p hq hc; cases p <;> first | rfl | cases hq | cases hc))
theorem State.updClus_only (f : KMap Cluster → KMap Cluster) (hp : Foot 512 ps) (h : Only ps s0 s) : Only ps s0 (s.updClus f) :=
  Only.same hp h rfl rfl (by with_unfolding_all (intro p hq hc; cases p <;> first | rfl | cases hq | cases hc))
theorem State.updMbx_only (f : Mbx → Mbx) (hp : Foot 32 ps) (h : Only ps s0 s) : Only ps s0 (s.updMbx f) :=
  Only.same hp h rfl rfl (by with_unfolding_all (intro p hq hc; cases p <;> first | rfl | cases hq | cases hc))
theorem State.updRing_only (x : Nat) (f : Ring → Ring) (hp : Foot 32 ps) (h : Only ps s0 s) : Only ps s0 (s.updRing x f) :=
  Only.same hp h rfl rfl (by with_unfolding_all (intro p hq hc; cases p <;> first | rfl | cases hq | cases hc))
theorem State.updFab_only (f : Fab → Fab) (hp : Foot 1024 ps) (h : Only ps s0 s) : Only ps s0 (s.updFab f) :=
  Only.same hp h rfl rfl (by with_unfolding_all (intro p hq hc; cases p <;> first | rfl | cases hq | cases hc))
theorem State.updTime_only (f : Time → Time) (hp : Foot 1 ps) (h : Only ps s0 s) : Only ps s0 (s.updTime f) :=
  Only.same hp h rfl rfl (by with_unfolding_all (intro p hq hc; cases p <;> first | rfl | cases hq | cases hc))
theorem State.updPtp_only (x : Nat) (f : PtpPort → PtpPort) (hp : Foot 1 ps) (h : Only ps s0 s) : Only ps s0 (s.updPtp x f) :=
  Only.same hp h rfl rfl (by with_unfolding_all (intro p hq hc; cases p <;> first | rfl | cases hq | cases hc))
theorem State.updRecov_only (f : Recov → Recov) (hp : Foot 4096 ps) (h : Only ps s0 s) : Only ps s0 (s.updRecov f) :=
  Only.same hp h rfl rfl (by with_unfolding_all (intro p hq hc; cases p <;> first | rfl | cases hq | cases hc))
theorem State.updCal_only (f : Cal → Cal) (hp : Foot 8192 ps) (h : Only ps s0 s) : Only ps s0 (s.updCal f) :=
  Only.same hp h rfl rfl (by with_unfolding_all (intro p hq hc; cases p <;> first | rfl | cases hq | cases hc))
theorem State.updDet_only (f : Det → Det) (hp : Foot 16384 ps) (h : Only ps s0 s) : Only ps s0 (s.updDet f) :=
  Only.same hp h rfl rfl (by with_unfolding_all (intro p hq hc; cases p <;> first | rfl | cases hq | cases hc))
theorem State.updTel_only (f : Tel → Tel) (hp : Foot 65536 ps) (h : Only ps s0 s) : Only ps s0 (s.updTel f) :=
  Only.same hp h rfl rfl (by with_unfolding_all (intro p hq hc; cases p <;> first | rfl | cases hq | cases hc))
theorem State.updEvr_only (f : Evr → Evr) (hp : Foot 131072 ps) (h : Only ps s0 s) : Only ps s0 (s.updEvr f) :=
  Only.same hp h rfl rfl (by with_unfolding_all (intro p hq hc; cases p <;> first | rfl | cases hq | cases hc))
theorem State.updId_only (f : Ident → Ident) (hp : Foot 4 ps) (h : Only ps s0 s) : Only ps s0 (s.updId f) :=
  Only.same hp h rfl rfl (by with_unfolding_all (intro p hq hc; cases p <;> first | rfl | cases hq | cases hc))
theorem State.writeBytes_only (a : Nat) (b : List Byte) (hp : Foot 256 ps) (h : Only ps s0 s) : Only ps s0 (s.writeBytes a b) :=
  Only.same hp h rfl rfl (by with_unfolding_all (intro p hq hc; cases p <;> first | rfl | cases hq | cases hc))
theorem State.clearRange_only (a n : Nat) (hp : Foot 256 ps) (h : Only ps s0 s) : Only ps s0 (s.clearRange a n) :=
  Only.same hp h rfl rfl (by with_unfolding_all (intro p hq hc; cases p <;> first | rfl | cases hq | cases hc))
theorem State.updGeyser_only (f : Gey → Gey) (hp : Foot 32768 ps) (h : Only ps s0 s) : Only ps s0 (s.updGeyser f) :=
  Only.same hp h rfl rfl (by with_unfolding_all (intro p hq hc; cases p <;> first | rfl | cases hq | cases hc))
theorem State.setCfg_only (c : Cfg) (hp : Foot 2 ps) (h : Only ps s0 s) : Only ps s0 (s.setCfg c) :=
  Only.same hp h rfl rfl (by with_unfolding_all (intro p hq hc; cases p <;> first | rfl | cases hq | cases hc))
theorem State.updEvts_only (f : KMap Nat → KMap Nat) (hp : Foot 2097152 ps) (h : Only ps s0 s) : Only ps s0 (s.updEvts f) :=
  Only.same hp h rfl rfl (by with_unfolding_all (intro p hq hc; cases p <;> first | rfl | cases hq | cases hc))
theorem State.w1c_only (r : Reg) (i m : Nat) (hp : Foot 2097152 ps) (h : Only ps s0 s) : Only ps s0 (s.w1c r i m) :=
  Only.same hp h rfl rfl (by with_unfolding_all (intro p hq hc; cases p <;> first | rfl | cases hq | cases hc))
theorem State.updPins_only (f : Pins → Pins) (hp : Foot 1048576 ps) (h : Only ps s0 s) : Only ps s0 (s.updPins f) :=
  Only.same hp h rfl rfl (by with_unfolding_all (intro p hq hc; cases p <;> first | rfl | cases hq | cases hc))
theorem State.updMgmt_only (f : Mgmt → Mgmt) (hp : Foot 524288 ps) (h : Only ps s0 s) : Only ps s0 (s.updMgmt f) :=
  Only.same hp h rfl rfl (by with_unfolding_all (intro p hq hc; cases p <;> first | rfl | cases hq | cases hc))
theorem State.updPwr_only (f : Pwr → Pwr) (hp : Foot 262144 ps) (h : Only ps s0 s) : Only ps s0 (s.updPwr f) :=
  Only.same hp h rfl rfl (by with_unfolding_all (intro p hq hc; cases p <;> first | rfl | cases hq | cases hc))
theorem State.updPwrCtx_only (x : Nat) (f : PwrCtx → PwrCtx) (hp : Foot 262144 ps) (h : Only ps s0 s) : Only ps s0 (s.updPwrCtx x f) :=
  Only.same hp h rfl rfl (by with_unfolding_all (intro p hq hc; cases p <;> first | rfl | cases hq | cases hc))
theorem State.updStage_only (x : Nat) (f : Stage → Stage) (hp : Foot 262144 ps) (h : Only ps s0 s) : Only ps s0 (s.updStage x f) :=
  Only.same hp h rfl rfl (by with_unfolding_all (intro p hq hc; cases p <;> first | rfl | cases hq | cases hc))
theorem State.setDom_only (x : Nat) (d : DomSt) (hp : Foot 262144 ps) (h : Only ps s0 s) : Only ps s0 (s.setDom x d) :=
  Only.same hp h rfl rfl (by with_unfolding_all (intro p hq hc; cases p <;> first | rfl | cases hq | cases hc))
theorem State.bump_only (c : Ctr) (i n : Nat) (hp : Foot 4194304 ps) (h : Only ps s0 s) : Only ps s0 (s.bump c i n) :=
  Only.same hp h rfl rfl (by with_unfolding_all (intro p hq hc; cases p <;> first | rfl | cases hq | cases hc))
theorem State.emit_only (e : Emit) (hp : Foot 8388608 ps) (h : Only ps s0 s) : Only ps s0 (s.emit e) :=
  Only.same hp h rfl rfl (by with_unfolding_all (intro p hq hc; cases p <;> first | rfl | cases hq | cases hc))
theorem State.sendResp_only (a b c d e : Nat) (p : Bool) (hp : Foot 8388608 ps) (h : Only ps s0 s) : Only ps s0 (s.sendResp a b c d e p) :=
  Only.same hp h rfl rfl (by with_unfolding_all (intro p hq hc; cases p <;> first | rfl | cases hq | cases hc))
theorem State.sendCtrl_only (a b c d e : Nat) (p : List Byte) (hp : Foot 8389632 ps) (h : Only ps s0 s) : Only ps s0 (s.sendCtrl a b c d e p) :=
  Only.same hp h rfl rfl (by with_unfolding_all (intro p hq hc; cases p <;> first | rfl | cases hq | cases hc))
theorem State.vendor_only (r : Req) (c k : Nat) (p : List Byte) (hp : Foot 8388608 ps) (h : Only ps s0 s) : Only ps s0 (s.vendor r c k p) :=
  Only.same hp h rfl rfl (by with_unfolding_all (intro p hq hc; cases p <;> first | rfl | cases hq | cases hc))
theorem State.spend_only (n : Nat) (hp : Foot 16777216 ps) (h : Only ps s0 s) : Only ps s0 (s.spend n) :=
  Only.same hp h rfl rfl (by with_unfolding_all (intro p hq hc; cases p <;> first | rfl | cases hq | cases hc))
theorem State.withLog_only (l : Log) (hp : Foot 6422544 ps) (h : Only ps s0 s) : Only ps s0 (s.withLog l) :=
  Only.same hp h rfl rfl (by with_unfolding_all (intro p hq hc; cases p <;> first | rfl | cases hq | cases hc))
theorem State.record_only (v : Event) (hp : Foot 6422544 ps) (h : Only ps s0 s) : Only ps s0 (s.record v) :=
  Only.same hp h rfl rfl (by with_unfolding_all (intro p hq hc; cases p <;> first | rfl | cases hq | cases hc))
theorem State.fresh_only (hp : Foot 16777216 ps) (h : Only ps s0 s) : Only ps s0 s.fresh.2 :=
  Only.same hp h rfl rfl (by with_unfolding_all (intro p hq hc; cases p <;> first | rfl | cases hq | cases hc))
theorem State.freshBool_only (hp : Foot 16777216 ps) (h : Only ps s0 s) : Only ps s0 s.freshBool.2 :=
  Only.same hp h rfl rfl (by with_unfolding_all (intro p hq hc; cases p <;> first | rfl | cases hq | cases hc))
theorem State.updFlash_only {f : Flash → Flash} (hp : Foot 8 ps) (hf : ∀ m, (f m).events = m.events ∧ (f m).starts = m.starts) (h : Only ps s0 s) :
    Only ps s0 (s.updFlash f) := Only.same hp h (hf _).2 rfl (by intro p hq hc; cases p <;> first | rfl | exact (hf _).1 | cases hq | cases hc)
theorem State.updMem_only {f : Mem → Mem} (hp : Foot 128 ps) (hf : ∀ m, (f m).bytes = m.bytes) (h : Only ps s0 s) : Only ps s0 (s.updMem f) :=
  Only.same hp h rfl rfl (by intro p hq hc; cases p <;> first | rfl | exact hf _ | cases hq | cases hc)
theorem State.clearPartition_only (p : Nat) (hp : Foot 384 ps) (h : Only ps s0 s) : Only ps s0 (s.clearPartition p) :=
  Only.same hp h rfl rfl (by with_unfolding_all (intro p hq hc; cases p <;> first | rfl | cases hq | cases hc))
theorem Only.every (hp : Foot 2361183241430561193983 ps) (h : Only ps s0 s) {t : State} (hs : s.flash.starts ≤ t.flash.starts) : Only ps s0 t :=
  h.trans (Only.weaken hp ⟨hs, fun _ p hq => by 
    cases p with
    | ctx q => cases q <;> cases hq
    | _ => cases hq⟩)
theorem State.updFlash_only_up {f : Flash → Flash} (hp : Foot 2361183241430561193983 ps) (hf : ∀ m, m.starts ≤ (f m).starts) (h : Only ps s0 s) :
    Only ps s0 (s.updFlash f) := Only.every hp h (hf _)
theorem State.unpowered_only (hp : Foot 2361183241430561193983 ps) (h : Only ps s0 s) : Only ps s0 s.unpowered := Only.every hp h (Nat.le_refl _)
/-- A module reset raises the start count. -/
theorem State.moduleReset_only (hp : Foot 33554432 ps) (h : Only ps s0 s) : Only ps s0 s.moduleReset :=
  h.trans ⟨Nat.le_succ _, fun e => absurd (e (hp 25 (by decide))) (Nat.succ_ne_self _)⟩
theorem foldl_only {α β : Type} (P : β → Prop) {f : β → α → β} (hf : ∀ b a, P b → P (f b a)) (l : List α) {b : β} (hb : P b) : P (l.foldl f b) := by
  induction l generalizing b with
  | nil => exact hb
  | cons a l ih => exact ih (hf b a hb)
theorem forEach_only {α : Type} {f : State → α → State} (l : List α) (h : Only ps s0 s) (hf : ∀ (u : State) (a : α), Only ps s0 u → Only ps s0 (f u a)) :
    Only ps s0 (forEach l s f) := foldl_only (Only ps s0) hf l h
theorem foldl_onlyS {α : Type} {f : State → α → State} {l : List α} (h : Only ps s0 s) (hf : ∀ (u : State) (a : α), Only ps s0 u → Only ps s0 (f u a)) :
    Only ps s0 (l.foldl f s) := foldl_only (Only ps s0) hf l h
theorem foldl_only1 {α β : Type} {b : State × β} {f : State × β → α → State × β} {l : List α} (h : Only ps s0 b.1)
    (hf : ∀ (u : State × β) (a : α), Only ps s0 u.1 → Only ps s0 (f u a).1) : Only ps s0 (l.foldl f b).1 :=
  foldl_only (fun u : State × β => Only ps s0 u.1) hf l h
theorem foldl_only2 {α β : Type} {b : β × State} {f : β × State → α → β × State} {l : List α} (h : Only ps s0 b.2)
    (hf : ∀ (u : β × State) (a : α), Only ps s0 u.2 → Only ps s0 (f u a).2) : Only ps s0 (l.foldl f b).2 :=
  foldl_only (fun u : β × State => Only ps s0 u.2) hf l h
theorem State.when_only {f : State → State} (b : Bool) (h : Only ps s0 s) (hf : ∀ u, Only ps s0 u → Only ps s0 (f u)) : Only ps s0 (s.when b f) := by
  unfold State.when; split
  · exact hf s h
  · exact h
end

/-! ### What stays, read off a mask: every bit but the part's own -/

theorem Only.time_eq {s t : State} (h : Only 2361183241430561193982 s t) : t.time = s.time := h.parts (fun q => nomatch q) .time (by decide)
theorem Only.cfg_eq {s t : State} (h : Only 2361183241430561193981 s t) : t.cfg = s.cfg := h.parts (fun q => nomatch q) .cfg (by decide)
theorem Only.id_eq {s t : State} (h : Only 2361183241430561193979 s t) : t.id = s.id := h.parts (fun q => nomatch q) .id (by decide)
theorem Only.mbx_eq {s t : State} (h : Only 2361183241430561193951 s t) : t.mbx = s.mbx := h.parts (fun q => nomatch q) .mbx (by decide)
theorem Only.clus_eq {s t : State} (h : Only 2361183241430561193471 s t) : t.clus = s.clus := h.parts (fun q => nomatch q) .clus (by decide)
theorem Only.fab_eq {s t : State} (h : Only 2361183241430561192959 s t) : t.fab = s.fab := h.parts (fun q => nomatch q) .fab (by decide)
theorem Only.ports_eq {s t : State} (h : Only 2361183241430561191935 s t) : t.ports = s.ports := h.parts (fun q => nomatch q) .ports (by decide)
theorem Only.recov_eq {s t : State} (h : Only 2361183241430561189887 s t) : t.recov = s.recov := h.parts (fun q => nomatch q) .recov (by decide)
theorem Only.cal_eq {s t : State} (h : Only 2361183241430561185791 s t) : t.cal = s.cal := h.parts (fun q => nomatch q) .cal (by decide)
theorem Only.det_eq {s t : State} (h : Only 2361183241430561177599 s t) : t.det = s.det := h.parts (fun q => nomatch q) .det (by decide)
theorem Only.gey_eq {s t : State} (h : Only 2361183241430561161215 s t) : t.gey = s.gey := h.parts (fun q => nomatch q) .gey (by decide)
theorem Only.tel_eq {s t : State} (h : Only 2361183241430561128447 s t) : t.tel = s.tel := h.parts (fun q => nomatch q) .tel (by decide)
theorem Only.evr_eq {s t : State} (h : Only 2361183241430561062911 s t) : t.evr = s.evr := h.parts (fun q => nomatch q) .evr (by decide)
theorem Only.pwr_eq {s t : State} (h : Only 2361183241430560931839 s t) : t.pwr = s.pwr := h.parts (fun q => nomatch q) .pwr (by decide)
theorem Only.mgmt_eq {s t : State} (h : Only 2361183241430560669695 s t) : t.mgmt = s.mgmt := h.parts (fun q => nomatch q) .mgmt (by decide)
theorem Only.pins_eq {s t : State} (h : Only 2361183241430560145407 s t) : t.pins = s.pins := h.parts (fun q => nomatch q) .pins (by decide)
theorem Only.evts_eq {s t : State} (h : Only 2361183241430559096831 s t) : t.evts = s.evts := h.parts (fun q => nomatch q) .evts (by decide)
theorem Only.ctrs_eq {s t : State} (h : Only 2361183241430556999679 s t) : t.ctrs = s.ctrs := h.parts (fun q => nomatch q) .ctrs (by decide)
theorem Only.out_eq {s t : State} (h : Only 2361183241430552805375 s t) : t.out = s.out := h.parts (fun q => nomatch q) .out (by decide)
theorem Only.free_eq {s t : State} (h : Only 2361183241430544416767 s t) : t.free = s.free := h.parts (fun q => nomatch q) .free (by decide)
theorem Only.ctxs_eq {s t : State} (h : Only 33554367 s t) : t.ctxs = s.ctxs := h.parts (fun q => nomatch q) .ctxs (by decide)
theorem Only.ctx_st_eq {s t : State} (h : Only 2361183241426266226687 s t) (y : Nat) : (t.ctx y).st = (s.ctx y).st :=
  h.parts (fun q => nomatch q) (.ctx .st) (by decide) y
theorem Only.ctx_mask_eq {s t : State} (h : Only 2361183241421971259391 s t) (y : Nat) : (t.ctx y).mask = (s.ctx y).mask :=
  h.parts (fun q => nomatch q) (.ctx .mask) (by decide) y
theorem Only.ctx_partCount_eq {s t : State} (h : Only 2361183241413381324799 s t) (y : Nat) : (t.ctx y).partCount = (s.ctx y).partCount :=
  h.parts (fun q => nomatch q) (.ctx .partCount) (by decide) y
theorem Only.ctx_received_eq {s t : State} (h : Only 2361183241396201455615 s t) (y : Nat) : (t.ctx y).received = (s.ctx y).received :=
  h.parts (fun q => nomatch q) (.ctx .received) (by decide) y
theorem Only.ctx_imageOff_eq {s t : State} (h : Only 2361183241361841717247 s t) (y : Nat) : (t.ctx y).imageOff = (s.ctx y).imageOff :=
  h.parts (fun q => nomatch q) (.ctx .imageOff) (by decide) y
theorem Only.ctx_imageLen_eq {s t : State} (h : Only 2361183241293122240511 s t) (y : Nat) : (t.ctx y).imageLen = (s.ctx y).imageLen :=
  h.parts (fun q => nomatch q) (.ctx .imageLen) (by decide) y
theorem Only.ctx_prog_eq {s t : State} (h : Only 2361183241155683287039 s t) (y : Nat) : (t.ctx y).prog = (s.ctx y).prog :=
  h.parts (fun q => nomatch q) (.ctx .prog) (by decide) y
theorem Only.ctx_progDigest_eq {s t : State} (h : Only 2361183240880805380095 s t) (y : Nat) : (t.ctx y).progDigest = (s.ctx y).progDigest :=
  h.parts (fun q => nomatch q) (.ctx .progDigest) (by decide) y
theorem Only.ctx_desc_eq {s t : State} (h : Only 2361183240331049566207 s t) (y : Nat) : (t.ctx y).desc = (s.ctx y).desc :=
  h.parts (fun q => nomatch q) (.ctx .desc) (by decide) y
theorem Only.ctx_policySet_eq {s t : State} (h : Only 2361183239231537938431 s t) (y : Nat) : (t.ctx y).policySet = (s.ctx y).policySet :=
  h.parts (fun q => nomatch q) (.ctx .policySet) (by decide) y
theorem Only.ctx_policy_eq {s t : State} (h : Only 2361183237032514682879 s t) (y : Nat) : (t.ctx y).policy = (s.ctx y).policy :=
  h.parts (fun q => nomatch q) (.ctx .policy) (by decide) y
theorem Only.ctx_adopted_eq {s t : State} (h : Only 2361183232634468171775 s t) (y : Nat) : (t.ctx y).adopted = (s.ctx y).adopted :=
  h.parts (fun q => nomatch q) (.ctx .adopted) (by decide) y
theorem Only.ctx_coordLocus_eq {s t : State} (h : Only 2361183223838375149567 s t) (y : Nat) : (t.ctx y).coordLocus = (s.ctx y).coordLocus :=
  h.parts (fun q => nomatch q) (.ctx .coordLocus) (by decide) y
theorem Only.ctx_pmap_eq {s t : State} (h : Only 2361183206246189105151 s t) (y : Nat) : (t.ctx y).pmap = (s.ctx y).pmap :=
  h.parts (fun q => nomatch q) (.ctx .pmap) (by decide) y
theorem Only.ctx_pmapParts_eq {s t : State} (h : Only 2361183171061817016319 s t) (y : Nat) : (t.ctx y).pmapParts = (s.ctx y).pmapParts :=
  h.parts (fun q => nomatch q) (.ctx .pmapParts) (by decide) y
theorem Only.ctx_index_eq {s t : State} (h : Only 2361183100693072838655 s t) (y : Nat) : (t.ctx y).index = (s.ctx y).index :=
  h.parts (fun q => nomatch q) (.ctx .index) (by decide) y
theorem Only.ctx_committed_eq {s t : State} (h : Only 2361182959955584483327 s t) (y : Nat) : (t.ctx y).committed = (s.ctx y).committed :=
  h.parts (fun q => nomatch q) (.ctx .committed) (by decide) y
theorem Only.ctx_commitTick_eq {s t : State} (h : Only 2361182678480607772671 s t) (y : Nat) : (t.ctx y).commitTick = (s.ctx y).commitTick :=
  h.parts (fun q => nomatch q) (.ctx .commitTick) (by decide) y
theorem Only.ctx_commitAttempt_eq {s t : State} (h : Only 2361182115530654351359 s t) (y : Nat) : (t.ctx y).commitAttempt = (s.ctx y).commitAttempt :=
  h.parts (fun q => nomatch q) (.ctx .commitAttempt) (by decide) y
theorem Only.ctx_step_eq {s t : State} (h : Only 2361180989630747508735 s t) (y : Nat) : (t.ctx y).step = (s.ctx y).step :=
  h.parts (fun q => nomatch q) (.ctx .step) (by decide) y
theorem Only.ctx_attempt_eq {s t : State} (h : Only 2361178737830933823487 s t) (y : Nat) : (t.ctx y).attempt = (s.ctx y).attempt :=
  h.parts (fun q => nomatch q) (.ctx .attempt) (by decide) y
theorem Only.ctx_launch_eq {s t : State} (h : Only 2361174234231306452991 s t) (y : Nat) : (t.ctx y).launch = (s.ctx y).launch :=
  h.parts (fun q => nomatch q) (.ctx .launch) (by decide) y
theorem Only.ctx_launched_eq {s t : State} (h : Only 2361165227032051711999 s t) (y : Nat) : (t.ctx y).launched = (s.ctx y).launched :=
  h.parts (fun q => nomatch q) (.ctx .launched) (by decide) y
theorem Only.ctx_cycleAtLaunch_eq {s t : State} (h : Only 2361147212633542230015 s t) (y : Nat) : (t.ctx y).cycleAtLaunch = (s.ctx y).cycleAtLaunch :=
  h.parts (fun q => nomatch q) (.ctx .cycleAtLaunch) (by decide) y
theorem Only.ctx_confirmed_eq {s t : State} (h : Only 2361111183836523266047 s t) (y : Nat) : (t.ctx y).confirmed = (s.ctx y).confirmed :=
  h.parts (fun q => nomatch q) (.ctx .confirmed) (by decide) y
theorem Only.ctx_faulted_eq {s t : State} (h : Only 2361039126242485338111 s t) (y : Nat) : (t.ctx y).faulted = (s.ctx y).faulted :=
  h.parts (fun q => nomatch q) (.ctx .faulted) (by decide) y
theorem Only.ctx_reasons_eq {s t : State} (h : Only 2360895011054409482239 s t) (y : Nat) : (t.ctx y).reasons = (s.ctx y).reasons :=
  h.parts (fun q => nomatch q) (.ctx .reasons) (by decide) y
theorem Only.ctx_hostWrite_eq {s t : State} (h : Only 2360606780678257770495 s t) (y : Nat) : (t.ctx y).hostWrite = (s.ctx y).hostWrite :=
  h.parts (fun q => nomatch q) (.ctx .hostWrite) (by decide) y
theorem Only.ctx_confirmCycles_eq {s t : State} (h : Only 2360030319925954347007 s t) (y : Nat) : (t.ctx y).confirmCycles = (s.ctx y).confirmCycles :=
  h.parts (fun q => nomatch q) (.ctx .confirmCycles) (by decide) y
theorem Only.ctx_records_eq {s t : State} (h : Only 2358877398421347500031 s t) (y : Nat) : (t.ctx y).records = (s.ctx y).records :=
  h.parts (fun q => nomatch q) (.ctx .records) (by decide) y
theorem Only.ctx_stateSum_eq {s t : State} (h : Only 2356571555412133806079 s t) (y : Nat) : (t.ctx y).stateSum = (s.ctx y).stateSum :=
  h.parts (fun q => nomatch q) (.ctx .stateSum) (by decide) y
theorem Only.ctx_drainAt_eq {s t : State} (h : Only 2351959869393706418175 s t) (y : Nat) : (t.ctx y).drainAt = (s.ctx y).drainAt :=
  h.parts (fun q => nomatch q) (.ctx .drainAt) (by decide) y
theorem Only.ctx_holdRings_eq {s t : State} (h : Only 2342736497356851642367 s t) (y : Nat) : (t.ctx y).holdRings = (s.ctx y).holdRings :=
  h.parts (fun q => nomatch q) (.ctx .holdRings) (by decide) y
theorem Only.ctx_tearRings_eq {s t : State} (h : Only 2324289753283142090751 s t) (y : Nat) : (t.ctx y).tearRings = (s.ctx y).tearRings :=
  h.parts (fun q => nomatch q) (.ctx .tearRings) (by decide) y
theorem Only.ctx_exec_eq {s t : State} (h : Only 2287396265135722987519 s t) (y : Nat) : (t.ctx y).exec = (s.ctx y).exec :=
  h.parts (fun q => nomatch q) (.ctx .exec) (by decide) y
theorem Only.ctx_pend_eq {s t : State} (h : Only 2213609288840884781055 s t) (y : Nat) : (t.ctx y).pend = (s.ctx y).pend :=
  h.parts (fun q => nomatch q) (.ctx .pend) (by decide) y
theorem Only.ctx_dumps_eq {s t : State} (h : Only 2066035336251208368127 s t) (y : Nat) : (t.ctx y).dumps = (s.ctx y).dumps :=
  h.parts (fun q => nomatch q) (.ctx .dumps) (by decide) y
theorem Only.ctx_gey_eq {s t : State} (h : Only 1770887431071855542271 s t) (y : Nat) : (t.ctx y).gey = (s.ctx y).gey :=
  h.parts (fun q => nomatch q) (.ctx .gey) (by decide) y
theorem Only.ctx_coord_eq {s t : State} (h : Only 1180591620713149890559 s t) (y : Nat) : (t.ctx y).coord = (s.ctx y).coord :=
  h.parts (fun q => nomatch q) (.ctx .coord) (by decide) y
theorem Only.mem_eq {s t : State} (h : Only 2361183241430561193599 s t) : t.mem = s.mem := by
  have a := h.parts (fun q => nomatch q) .memory (by decide)
  have b := h.parts (fun q => nomatch q) .bytes (by decide)
  dsimp only [Part.same] at a b
  have e : ∀ m : Mem, m = { ({ m with bytes := [] } : Mem) with bytes := m.bytes } := fun _ => rfl
  rw [e t.mem, e s.mem, a, b]
theorem Only.flash_eq {s t : State} (h : Only 2361183241430561193959 s t) : t.flash = s.flash := by
  have a := h.parts (fun q => nomatch q) .flash (by decide)
  have b := h.parts (fun q => nomatch q) .critical (by decide)
  dsimp only [Part.same] at a b
  have e : ∀ m : Flash, m = { ({ m with events := [] } : Flash) with events := m.events } := fun _ => rfl
  rw [e t.flash, e s.flash, a, b]
theorem Only.ctx_eq {s t : State} (h : Only 33554367 s t) (x : Nat) : t.ctx x = s.ctx x := by rw [State.ctx, State.ctx, h.ctxs_eq]
theorem Only.port_eq {s t : State} (h : Only 2361183241430561191935 s t) (x : Nat) : t.port x = s.port x := by rw [State.port, State.port, h.ports_eq]
theorem Only.cluster_eq {s t : State} (h : Only 2361183241430561193471 s t) (x : Nat) : t.cluster x = s.cluster x := by
  rw [State.cluster, State.cluster, h.clus_eq]
theorem Only.ring_eq {s t : State} (h : Only 2361183241430561193951 s t) (x : Nat) : t.ring x = s.ring x := by rw [State.ring, State.ring, h.mbx_eq]
theorem Only.byte_eq {s t : State} (h : Only 2361183241430561193727 s t) (x : Nat) : t.byte x = s.byte x := by
  have b := h.parts (fun q => nomatch q) .bytes (by decide)
  dsimp only [Part.same] at b
  rw [State.byte, State.byte, b]
theorem Only.starts_eq {s t : State} (h : Only 2361183241430561193975 s t) : t.flash.starts = s.flash.starts := by
  have a := h.parts (fun q => nomatch q) .flash (by decide)
  dsimp only [Part.same] at a
  exact (Flash.mk.inj a).2.2.2.2.2.2.2.2.2.2.2.1

end Sys2Proof.Machine
end

