-- ==== Sys2Proof/Laws/OnlyOps.lean ====
section
/-!
SUPPORT. The parts of the module that change (`Only`), for the shared operations, the messages and the engines: one lemma per operation.
-/
set_option linter.all false
namespace Sys2Proof.Machine

theorem State.advanceTo_only {ps : Nat} {s0 : State} {s : State} (t : Nat) (hp : Foot 1 ps) (hk : Only ps s0 s) : Only ps s0 (State.advanceTo s t) :=
    by
  unfold State.advanceTo; with_reducible repeat' first
    | assumption | apply State.updTime_only (hp := Foot.sub (by decide) hp) | apply Only.ite | split | (intro) | extract_lets

theorem State.hint_only {ps : Nat} {s0 : State} {s : State} (hp : Foot 16777216 ps) (hk : Only ps s0 s) : Only ps s0 (State.hint s).2 := by
  unfold State.hint; with_reducible repeat' first
    | assumption | apply State.fresh_only (hp := Foot.sub (by decide) hp) | apply Only.ite | split | (intro) | extract_lets

theorem State.endFreeze_only {ps : Nat} {s0 : State} {s : State} (hp : Foot 6422544 ps) (hk : Only ps s0 s) : Only ps s0 (State.endFreeze s) := by
  unfold State.endFreeze; with_reducible repeat' first
    | assumption | apply State.withLog_only (hp := Foot.sub (by decide) hp) | apply State.updEvr_only (hp := Foot.sub (by decide) hp)
    | apply forEach_only | apply Only.ite | split | (intro) | extract_lets

theorem State.setEvt_only {ps : Nat} {s0 : State} {s : State} (r : Reg) (i : Nat) (b : Nat) (hp : Foot 6422544 ps) (hk : Only ps s0 s) : Only ps s0
    (State.setEvt s r i b) := by
  unfold State.setEvt; with_reducible repeat' first
    | assumption | apply State.record_only (hp := Foot.sub (by decide) hp) | apply State.updEvts_only (hp := Foot.sub (by decide) hp)
    | apply Only.ite | split | (intro) | extract_lets

theorem State.vendorGate_only {ps : Nat} {s0 : State} {s : State} (r : Req) (cmd : Nat) (early : Bool) (needsSession : Bool) (f : State → State) (hp
    : Foot 25165824 ps) (hk : Only ps s0 s) (hf : ∀ (x0 : State), Only ps s0 x0 → Only ps s0 (f x0)) : Only ps s0 (State.vendorGate s r cmd early
    needsSession f) := by
  unfold State.vendorGate; with_reducible repeat' first
    | assumption | apply State.vendor_only (hp := Foot.sub (by decide) hp) | apply State.hint_only (hp := Foot.sub (by decide) hp) | apply hf
    | apply Only.ite | split | (intro) | extract_lets

theorem State.setCheck_only {ps : Nat} {s0 : State} {s : State} (a : Nat) (c : BlockCheck) (hp : Foot 128 ps) (hk : Only ps s0 s) : Only ps s0
    (State.setCheck s a c) := by
  unfold State.setCheck; with_reducible repeat' first
    | assumption | refine State.updMem_only (hp := Foot.sub (by decide) hp) (fun _ => rfl) ?_ | apply Only.ite | split | (intro) | extract_lets

theorem State.takeSlot_only {ps : Nat} {s0 : State} {s : State} (x : Nat) (a : Nat) (hp : Foot 590295810358726623296 ps) (hk : Only ps s0 s) : Only
    ps s0 (State.takeSlot s x a) := by
  unfold State.takeSlot; with_reducible repeat' first
    | assumption | apply State.updGey_only (hp := Foot.sub (by decide) hp) | apply State.bump_only (hp := Foot.sub (by decide) hp)
    | apply State.fresh_only (hp := Foot.sub (by decide) hp) | apply Only.ite | split | (intro) | extract_lets

theorem State.writeBlock_only {ps : Nat} {s0 : State} {s : State} (x : Nat) (a : Nat) (bs : List Byte) (hp : Foot 737869762948403036608 ps) (hk :
    Only ps s0 s) : Only ps s0 (State.writeBlock s x a bs) := by
  unfold State.writeBlock; with_reducible repeat' first
    | assumption | apply State.writeBytes_only (hp := Foot.sub (by decide) hp) | apply State.setCheck_only (hp := Foot.sub (by decide) hp)
    | apply State.takeSlot_only (hp := Foot.sub (by decide) hp)
    | refine State.updCtx_only (a := 147573952589676412928) (Foot.sub (by decide) hp) (by with_unfolding_all (intro c q hq; cases q <;> first
    | (cases hq; done) | rfl)) ?_ | apply Only.ite | split | (intro) | extract_lets

theorem State.invalidate_only {ps : Nat} {s0 : State} {s : State} (a : Nat) (hp : Foot 128 ps) (hk : Only ps s0 s) : Only ps s0 (State.invalidate s
    a) := by
  unfold State.invalidate; with_reducible repeat' first
    | assumption | apply State.setCheck_only (hp := Foot.sub (by decide) hp) | apply Only.ite | split | (intro) | extract_lets

theorem State.poisonBlock_only {ps : Nat} {s0 : State} {s : State} (a : Nat) (hp : Foot 128 ps) (hk : Only ps s0 s) : Only ps s0 (State.poisonBlock s
    a) := by
  unfold State.poisonBlock; with_reducible repeat' first
    | assumption | apply State.setCheck_only (hp := Foot.sub (by decide) hp) | apply Only.ite | split | (intro) | extract_lets

theorem State.dupCheck_only {ps : Nat} {s0 : State} {s : State} (h : Hdr) (hp : Foot 1024 ps) (hk : Only ps s0 s) : Only ps s0 (State.dupCheck s h).2
    := by
  unfold State.dupCheck; with_reducible repeat' first
    | assumption | apply State.updFab_only (hp := Foot.sub (by decide) hp) | apply Only.ite | split | (intro) | extract_lets

theorem State.notReadyTo_only {ps : Nat} {s0 : State} {s : State} (h : Hdr) (hp : Foot 25165824 ps) (hk : Only ps s0 s) : Only ps s0
    (State.notReadyTo s h) := by
  unfold State.notReadyTo; with_reducible repeat' first
    | assumption | apply State.sendResp_only (hp := Foot.sub (by decide) hp) | apply State.hint_only (hp := Foot.sub (by decide) hp)
    | apply Only.ite | split | (intro) | extract_lets

theorem State.markLate_only {ps : Nat} {s0 : State} {s : State} (hp : Foot 288230376155906112 ps) (hk : Only ps s0 s) : Only ps s0 (State.markLate s)
    := by
  unfold State.markLate; with_reducible repeat' first
    | assumption | apply State.bump_only (hp := Foot.sub (by decide) hp) | apply forEach_only
    | refine State.updCtx_only (a := 288230376151711744) (Foot.sub (by decide) hp) (by with_unfolding_all (intro c q hq; cases q <;> first
    | (cases hq; done) | rfl)) ?_ | apply Only.ite | split | (intro) | extract_lets

theorem State.ctrlIn_only {ps : Nat} {s0 : State} {s : State} (h : Hdr) (cmd : Instr) (eff : State → State) (hp : Foot 288230376181072961 ps) (hk :
    Only ps s0 s) (heff : ∀ (x0 : State), Only ps s0 x0 → Only ps s0 (eff x0)) : Only ps s0 (State.ctrlIn s h cmd eff) := by
  unfold State.ctrlIn; with_reducible repeat' first
    | assumption | apply State.advanceTo_only (hp := Foot.sub (by decide) hp) | apply State.markLate_only (hp := Foot.sub (by decide) hp)
    | apply State.updFab_only (hp := Foot.sub (by decide) hp) | apply State.dupCheck_only (hp := Foot.sub (by decide) hp)
    | apply State.notReadyTo_only (hp := Foot.sub (by decide) hp) | apply State.sendResp_only (hp := Foot.sub (by decide) hp)
    | apply State.when_only | apply heff | apply Only.ite | split | (intro) | extract_lets

theorem State.epochIn_only {ps : Nat} {s0 : State} {s : State} (x : Nat) (src : Nat) (epoch : Nat) (eff : State → State) (hp : Foot
    1180591647105691418688 ps) (hk : Only ps s0 s) (heff : ∀ (x0 : State), Only ps s0 x0 → Only ps s0 (eff x0)) : Only ps s0 (State.epochIn s x src
    epoch eff) := by
  unfold State.epochIn; with_reducible repeat' first
    | assumption | apply State.updPins_only (hp := Foot.sub (by decide) hp) | apply State.updCoord_only (hp := Foot.sub (by decide) hp)
    | refine State.updCtx_only (a := 26388279066624) (Foot.sub (by decide) hp) (by with_unfolding_all (intro c q hq; cases q <;> first
    | (cases hq; done) | rfl)) ?_ | apply State.when_only | apply heff | apply Only.ite | split | (intro) | extract_lets

theorem State.countReport_only {ps : Nat} {s0 : State} {s : State} (source : Nat) (hp : Foot 4194304 ps) (hk : Only ps s0 s) : Only ps s0
    (State.countReport s source) := by
  unfold State.countReport; with_reducible repeat' first
    | assumption | apply State.bump_only (hp := Foot.sub (by decide) hp) | apply Only.ite | split | (intro) | extract_lets

theorem State.report_only {ps : Nat} {s0 : State} {s : State} (x : Nat) (f : FaultParam) (hp : Foot 144115188090668112 ps) (hk : Only ps s0 s) : Only
    ps s0 (State.report s x f) := by
  unfold State.report; with_reducible repeat' first
    | assumption | apply State.sendCtrl_only (hp := Foot.sub (by decide) hp) | apply State.record_only (hp := Foot.sub (by decide) hp)
    | apply State.countReport_only (hp := Foot.sub (by decide) hp)
    | refine State.updCtx_only (a := 144115188075855872) (Foot.sub (by decide) hp) (by with_unfolding_all (intro c q hq; cases q <;> first
    | (cases hq; done) | rfl)) ?_ | apply Only.ite | split | (intro) | extract_lets

theorem State.reportLink_only {ps : Nat} {s0 : State} {s : State} (source : Nat) (detail : Nat) (hp : Foot 144115188090668112 ps) (hk : Only ps s0 s)
    : Only ps s0 (State.reportLink s source detail) := by
  unfold State.reportLink; with_reducible repeat' first
    | assumption | apply State.report_only (hp := Foot.sub (by decide) hp) | apply forEach_only | apply Only.ite | split | (intro) | extract_lets

theorem State.closeStepRecords_only {ps : Nat} {s0 : State} {s : State} (x : Nat) (hp : Foot 131072 ps) (hk : Only ps s0 s) : Only ps s0
    (State.closeStepRecords s x) := by
  unfold State.closeStepRecords; with_reducible repeat' first
    | assumption | apply State.updEvr_only (hp := Foot.sub (by decide) hp) | apply Only.ite | split | (intro) | extract_lets

theorem State.reloadImages_only {ps : Nat} {s0 : State} {s : State} (x : Nat) (hp : Foot 256 ps) (hk : Only ps s0 s) : Only ps s0 (State.reloadImages
    s x) := by
  unfold State.reloadImages; with_reducible repeat' first
    | assumption | apply State.writeBytes_only (hp := Foot.sub (by decide) hp) | apply forEach_only | apply Only.ite | split | (intro) | extract_lets

theorem State.idleClusters_only {ps : Nat} {s0 : State} {s : State} (mask : Nat) (hp : Foot 512 ps) (hk : Only ps s0 s) : Only ps s0
    (State.idleClusters s mask) := by
  unfold State.idleClusters; with_reducible repeat' first
    | assumption | apply State.updClus_only (hp := Foot.sub (by decide) hp) | apply Only.ite | split | (intro) | extract_lets

theorem State.discard_only {ps : Nat} {s0 : State} {s : State} (x : Nat) (hp : Foot 1107020817204687013696 ps) (hk : Only ps s0 s) : Only ps s0
    (State.discard s x) := by
  unfold State.discard; with_reducible repeat' first
    | assumption | apply State.closeStepRecords_only (hp := Foot.sub (by decide) hp) | apply State.updFab_only (hp := Foot.sub (by decide) hp)
    | apply State.reloadImages_only (hp := Foot.sub (by decide) hp) | apply State.idleClusters_only (hp := Foot.sub (by decide) hp)
    | refine State.updCtx_only (a := 1107020817204686880768) (Foot.sub (by decide) hp) (by with_unfolding_all (intro c q hq; cases q <;> first
    | (cases hq; done) | rfl)) ?_ | apply Only.ite | split | (intro) | extract_lets

theorem State.commitSlots_only {ps : Nat} {s0 : State} {s : State} (x : Nat) (hp : Foot 737869762948382065088 ps) (hk : Only ps s0 s) : Only ps s0
    (State.commitSlots s x) := by
  unfold State.commitSlots; with_reducible repeat' first
    | assumption | apply State.writeBytes_only (hp := Foot.sub (by decide) hp) | apply State.setCheck_only (hp := Foot.sub (by decide) hp)
    | apply forEach_only
    | refine State.updCtx_only (a := 737869762948382064640) (Foot.sub (by decide) hp) (by with_unfolding_all (intro c q hq; cases q <;> first
    | (cases hq; done) | rfl)) ?_ | apply Only.ite | apply foldl_onlyS | apply foldl_only1 | apply foldl_only2 | split | (intro) | extract_lets

theorem State.post_only {ps : Nat} {s0 : State} {s : State} (n : Nat) (seq : Nat) (status : Nat) (dup : Bool) (result : Nat) (hp : Foot 8388640 ps)
    (hk : Only ps s0 s) : Only ps s0 (State.post s n seq status dup result) := by
  unfold State.post; with_reducible repeat' first
    | assumption | apply State.updRing_only (hp := Foot.sub (by decide) hp) | apply State.emit_only (hp := Foot.sub (by decide) hp)
    | apply Only.ite | split | (intro) | extract_lets

theorem State.cacheOutcome_only {ps : Nat} {s0 : State} {s : State} (seq : Nat) (status : Nat) (result : Nat) (hp : Foot 32 ps) (hk : Only ps s0 s) :
    Only ps s0 (State.cacheOutcome s seq status result) := by
  unfold State.cacheOutcome; with_reducible repeat' first
    | assumption | apply State.updMbx_only (hp := Foot.sub (by decide) hp) | apply Only.ite | split | (intro) | extract_lets

theorem State.cacheForced_only {ps : Nat} {s0 : State} {s : State} (e : SqEntry) (st : Nat) (hp : Foot 32 ps) (hk : Only ps s0 s) : Only ps s0
    (State.cacheForced s e st) := by
  unfold State.cacheForced; with_reducible repeat' first
    | assumption | apply State.cacheOutcome_only (hp := Foot.sub (by decide) hp) | apply Only.ite | split | (intro) | extract_lets

theorem State.nextEntry_only {ps : Nat} {s0 : State} {s : State} (n : Nat) (hp : Foot 8388640 ps) (hk : Only ps s0 s) : Only ps s0 (State.nextEntry s
    n) := by
  unfold State.nextEntry; with_reducible repeat' first
    | assumption | apply State.post_only (hp := Foot.sub (by decide) hp) | apply State.cacheForced_only (hp := Foot.sub (by decide) hp)
    | apply State.updRing_only (hp := Foot.sub (by decide) hp) | apply Only.ite | split | (intro) | extract_lets

theorem State.complete_only {ps : Nat} {s0 : State} {s : State} (n : Nat) (a : Staged) (status : Nat) (result : Nat) (hp : Foot 8388640 ps) (hk :
    Only ps s0 s) : Only ps s0 (State.complete s n a status result) := by
  unfold State.complete; with_reducible repeat' first
    | assumption | apply State.post_only (hp := Foot.sub (by decide) hp) | apply State.nextEntry_only (hp := Foot.sub (by decide) hp)
    | apply State.cacheOutcome_only (hp := Foot.sub (by decide) hp) | apply State.updRing_only (hp := Foot.sub (by decide) hp) | apply Only.ite
    | split | (intro) | extract_lets

theorem State.runEntry_only {ps : Nat} {s0 : State} {s : State} (n : Nat) (opcode : Nat) (f : Staged → State → Option (Nat × Nat) × State) (hp : Foot
    8388640 ps) (hk : Only ps s0 s) (hf : ∀ (x0 : Staged) (x1 : State), Only ps s0 x1 → Only ps s0 (f x0 x1).2) : Only ps s0 (State.runEntry s n
    opcode f) := by
  unfold State.runEntry; with_reducible repeat' first
    | assumption | apply State.complete_only (hp := Foot.sub (by decide) hp) | apply hf | apply Only.ite | split | (intro) | extract_lets

theorem State.stageEntry_only {ps : Nat} {s0 : State} {s : State} (n : Nat) (a : Staged) (hp : Foot 8388640 ps) (hk : Only ps s0 s) : Only ps s0
    (State.stageEntry s n a) := by
  unfold State.stageEntry; with_reducible repeat' first
    | assumption | apply State.post_only (hp := Foot.sub (by decide) hp) | apply State.cacheForced_only (hp := Foot.sub (by decide) hp)
    | apply State.updRing_only (hp := Foot.sub (by decide) hp) | apply Only.ite | split | (intro) | extract_lets

theorem State.accept_only {ps : Nat} {s0 : State} {s : State} (n : Nat) (e : SqEntry) (payload : List Byte) (hp : Foot 8388640 ps) (hk : Only ps s0
    s) : Only ps s0 (State.accept s n e payload) := by
  unfold State.accept; with_reducible repeat' first
    | assumption | apply State.stageEntry_only (hp := Foot.sub (by decide) hp) | apply State.updMbx_only (hp := Foot.sub (by decide) hp)
    | apply State.updRing_only (hp := Foot.sub (by decide) hp) | apply Only.ite | split | (intro) | extract_lets

theorem State.consume_only {ps : Nat} {s0 : State} {s : State} (n : Nat) (head : Nat) (hp : Foot 8388640 ps) (hk : Only ps s0 s) : Only ps s0
    (State.consume s n head) := by
  unfold State.consume; with_reducible repeat' first
    | assumption | apply State.post_only (hp := Foot.sub (by decide) hp) | apply State.nextEntry_only (hp := Foot.sub (by decide) hp)
    | apply forEach_only | apply State.updRing_only (hp := Foot.sub (by decide) hp) | apply Only.ite | split | (intro) | extract_lets

theorem State.cancelDumps_only {ps : Nat} {s0 : State} {s : State} (x : Nat) (hp : Foot 295147905179361214528 ps) (hk : Only ps s0 s) : Only ps s0
    (State.cancelDumps s x) := by
  unfold State.cancelDumps; with_reducible repeat' first
    | assumption | apply forEach_only
    | refine State.updCtx_only (a := 295147905179352825856) (Foot.sub (by decide) hp) (by with_unfolding_all (intro c q hq; cases q <;> first
    | (cases hq; done) | rfl)) ?_ | apply State.emit_only (hp := Foot.sub (by decide) hp) | apply Only.ite | split | (intro) | extract_lets

theorem State.hostLost_only {ps : Nat} {s0 : State} {s : State} (trigger : Nat) (hp : Foot 295147905179367638128 ps) (hk : Only ps s0 s) : Only ps s0
    (State.hostLost s trigger) := by
  unfold State.hostLost; with_reducible repeat' first
    | assumption | apply State.sendCtrl_only (hp := Foot.sub (by decide) hp) | apply State.record_only (hp := Foot.sub (by decide) hp)
    | apply forEach_only | apply State.updMbx_only (hp := Foot.sub (by decide) hp)
    | refine State.updCtx_only (a := 295147905179352825856) (Foot.sub (by decide) hp) (by with_unfolding_all (intro c q hq; cases q <;> first
    | (cases hq; done) | rfl)) ?_ | apply State.setEvt_only (hp := Foot.sub (by decide) hp) | apply State.emit_only (hp := Foot.sub (by decide) hp)
    | apply Only.ite | split | (intro) | extract_lets

theorem State.mbxReset_only {ps : Nat} {s0 : State} {s : State} (hp : Foot 2097184 ps) (hk : Only ps s0 s) : Only ps s0 (State.mbxReset s) := by
  unfold State.mbxReset; with_reducible repeat' first
    | assumption | apply State.w1c_only (hp := Foot.sub (by decide) hp) | apply State.updMbx_only (hp := Foot.sub (by decide) hp) | apply Only.ite
    | split | (intro) | extract_lets

theorem State.setDomains_only {ps : Nat} {s0 : State} {s : State} (p : Nat) (d : DomSt) (hp : Foot 262144 ps) (hk : Only ps s0 s) : Only ps s0
    (State.setDomains s p d) := by
  unfold State.setDomains; with_reducible repeat' first
    | assumption | apply State.setDom_only (hp := Foot.sub (by decide) hp) | apply Only.ite | split | (intro) | extract_lets

theorem State.pwrNotify_only {ps : Nat} {s0 : State} {s : State} (x : Nat) (kind : Nat) (v : Nat) (hp : Foot 8388608 ps) (hk : Only ps s0 s) : Only
    ps s0 (State.pwrNotify s x kind v) := by
  unfold State.pwrNotify; with_reducible repeat' first
    | assumption | apply State.emit_only (hp := Foot.sub (by decide) hp) | apply Only.ite | split | (intro) | extract_lets

theorem State.selfLost_only {ps : Nat} {s0 : State} {s : State} (reason : Nat) (hp : Foot 14816272 ps) (hk : Only ps s0 s) : Only ps s0
    (State.selfLost s reason) := by
  unfold State.selfLost; with_reducible repeat' first
    | assumption | apply State.sendCtrl_only (hp := Foot.sub (by decide) hp) | apply State.bump_only (hp := Foot.sub (by decide) hp)
    | apply State.updRecov_only (hp := Foot.sub (by decide) hp) | apply State.record_only (hp := Foot.sub (by decide) hp) | apply forEach_only
    | apply Only.ite | split | (intro) | extract_lets

theorem State.wantFence_only {ps : Nat} {s0 : State} {s : State} (g : Nat) (slot : Nat) (hp : Foot 512 ps) (hk : Only ps s0 s) : Only ps s0
    (State.wantFence s g slot) := by
  unfold State.wantFence; with_reducible repeat' first
    | assumption | apply State.updCluster_only (hp := Foot.sub (by decide) hp) | apply Only.ite | split | (intro) | extract_lets

theorem State.wantAct_only {ps : Nat} {s0 : State} {s : State} (rank : Nat) (unit : Nat) (hp : Foot 4096 ps) (hk : Only ps s0 s) : Only ps s0
    (State.wantAct s rank unit) := by
  unfold State.wantAct; with_reducible repeat' first
    | assumption | apply State.updRecov_only (hp := Foot.sub (by decide) hp) | apply Only.ite | split | (intro) | extract_lets

theorem State.recordRecovery_only {ps : Nat} {s0 : State} {s : State} (level : Nat) (unit : Nat) (hp : Foot 6422544 ps) (hk : Only ps s0 s) : Only ps
    s0 (State.recordRecovery s level unit) := by
  unfold State.recordRecovery; with_reducible repeat' first
    | assumption | apply State.record_only (hp := Foot.sub (by decide) hp) | apply Only.ite | split | (intro) | extract_lets

theorem State.fetchBlock_only {ps : Nat} {s0 : State} {s : State} (x : Nat) (tensorId : Nat) (block : Nat) (hp : Foot 590295810358714041408 ps) (hk :
    Only ps s0 s) : Only ps s0 (State.fetchBlock s x tensorId block) := by
  unfold State.fetchBlock; with_reducible repeat' first
    | assumption | apply State.sendCtrl_only (hp := Foot.sub (by decide) hp) | apply State.updGey_only (hp := Foot.sub (by decide) hp)
    | apply Only.ite | split | (intro) | extract_lets

theorem State.noticeReady_only {ps : Nat} {s0 : State} {s : State} (x : Nat) (hp : Foot 25166848 ps) (hk : Only ps s0 s) : Only ps s0
    (State.noticeReady s x) := by
  unfold State.noticeReady; with_reducible repeat' first
    | assumption | apply State.sendCtrl_only (hp := Foot.sub (by decide) hp) | apply State.fresh_only (hp := Foot.sub (by decide) hp)
    | apply Only.ite | split | (intro) | extract_lets

theorem State.partitionReset_only {ps : Nat} {s0 : State} {s : State} (p : Nat) (hp : Foot 737869762948407248832 ps) (hk : Only ps s0 s) : Only ps s0
    (State.partitionReset s p) := by
  unfold State.partitionReset; with_reducible repeat' first
    | assumption | apply State.sendCtrl_only (hp := Foot.sub (by decide) hp) | apply State.updGey_only (hp := Foot.sub (by decide) hp)
    | apply State.updClus_only (hp := Foot.sub (by decide) hp) | apply State.clearPartition_only (hp := Foot.sub (by decide) hp)
    | refine State.updMem_only (hp := Foot.sub (by decide) hp) (fun _ => rfl) ?_ | apply State.noticeReady_only (hp := Foot.sub (by decide) hp)
    | apply State.updDet_only (hp := Foot.sub (by decide) hp) | apply State.fetchBlock_only (hp := Foot.sub (by decide) hp) | apply forEach_only
    | refine State.updCtx_only (a := 147573952589676412928) (Foot.sub (by decide) hp) (by with_unfolding_all (intro c q hq; cases q <;> first
    | (cases hq; done) | rfl)) ?_ | apply Only.ite | split | (intro) | extract_lets

theorem State.act_only {ps : Nat} {s0 : State} (a : Nat) {a1 : State} (a2 : Nat) (a3 : Nat) (a4 : Nat) (a5 : Bool) (hp : Foot 737869762948448278480
    ps) (hk : Only ps s0 a1) : Only ps s0 (State.act a a1 a2 a3 a4 a5) := by
  induction a generalizing a1 a2 a3 a4 a5 with
  | zero => unfold State.act; with_reducible repeat' first
      | assumption | apply State.bump_only (hp := Foot.sub (by decide) hp) | apply State.selfLost_only (hp := Foot.sub (by decide) hp)
      | apply State.updRecov_only (hp := Foot.sub (by decide) hp) | apply State.partitionReset_only (hp := Foot.sub (by decide) hp)
      | apply State.moduleReset_only (hp := Foot.sub (by decide) hp) | apply State.updPins_only (hp := Foot.sub (by decide) hp)
      | apply State.recordRecovery_only (hp := Foot.sub (by decide) hp) | apply Only.ite | split | (intro) | extract_lets
  | succ n ih => unfold State.act; with_reducible repeat' first
      | apply ih | assumption | apply State.bump_only (hp := Foot.sub (by decide) hp) | apply State.selfLost_only (hp := Foot.sub (by decide) hp)
      | apply State.updRecov_only (hp := Foot.sub (by decide) hp) | apply State.partitionReset_only (hp := Foot.sub (by decide) hp)
      | apply State.moduleReset_only (hp := Foot.sub (by decide) hp) | apply State.updPins_only (hp := Foot.sub (by decide) hp)
      | apply State.recordRecovery_only (hp := Foot.sub (by decide) hp) | apply Only.ite | split | (intro) | extract_lets

theorem State.recover_only {ps : Nat} {s0 : State} {s : State} (unit : Nat) (level : Nat) (p : Nat) (sq : Bool) (hp : Foot 737869762948448278480 ps)
    (hk : Only ps s0 s) : Only ps s0 (State.recover s unit level p sq) := by
  unfold State.recover; with_reducible repeat' first
    | assumption | apply State.updRecov_only (hp := Foot.sub (by decide) hp) | apply State.act_only (hp := Foot.sub (by decide) hp)
    | apply Only.ite | split | (intro) | extract_lets

theorem State.classify_only {ps : Nat} {s0 : State} {s : State} (x : Nat) (unit : Nat × Nat) (slot : Nat) (core : Nat) (opId : Nat) (layer : Nat)
    (temp : Int) (util : Nat) (cls : Nat) (hp : Foot 6422544 ps) (hk : Only ps s0 s) : Only ps s0 (State.classify s x unit slot core opId layer temp
    util cls) := by
  unfold State.classify; with_reducible repeat' first
    | assumption | apply State.record_only (hp := Foot.sub (by decide) hp) | apply Only.ite | split | (intro) | extract_lets

theorem State.classRecord_only {ps : Nat} {s0 : State} {s : State} (x : Nat) (g : Nat) (slot : Nat) (core : Nat) (opId : Nat) (layer : Nat) (cls :
    Nat) (hp : Foot 6423056 ps) (hk : Only ps s0 s) : Only ps s0 (State.classRecord s x g slot core opId layer cls) := by
  unfold State.classRecord; with_reducible repeat' first
    | assumption | apply State.updCluster_only (hp := Foot.sub (by decide) hp) | apply State.classify_only (hp := Foot.sub (by decide) hp)
    | apply State.setEvt_only (hp := Foot.sub (by decide) hp) | apply Only.ite | split | (intro) | extract_lets

theorem State.permanentSlot_only {ps : Nat} {s0 : State} {s : State} (x : Nat) (g : Nat) (slot : Nat) (core : Nat) (opId : Nat) (layer : Nat) (hp :
    Foot 6423056 ps) (hk : Only ps s0 s) : Only ps s0 (State.permanentSlot s x g slot core opId layer) := by
  unfold State.permanentSlot; with_reducible repeat' first
    | assumption | apply State.classRecord_only (hp := Foot.sub (by decide) hp) | apply State.bump_only (hp := Foot.sub (by decide) hp)
    | apply State.wantFence_only (hp := Foot.sub (by decide) hp) | apply Only.ite | split | (intro) | extract_lets

theorem State.direct_only {ps : Nat} {s0 : State} {s : State} (g : Nat) (slot : Nat) (hp : Foot 4096 ps) (hk : Only ps s0 s) : Only ps s0
    (State.direct s g slot) := by
  unfold State.direct; with_reducible repeat' first
    | assumption | apply State.updRecov_only (hp := Foot.sub (by decide) hp) | apply Only.ite | split | (intro) | extract_lets

theorem State.ageDirected_only {ps : Nat} {s0 : State} {s : State} (mask : Nat) (hp : Foot 4096 ps) (hk : Only ps s0 s) : Only ps s0
    (State.ageDirected s mask) := by
  unfold State.ageDirected; with_reducible repeat' first
    | assumption | apply State.updRecov_only (hp := Foot.sub (by decide) hp) | apply Only.ite | split | (intro) | extract_lets

theorem State.countTransient_only {ps : Nat} {s0 : State} {s : State} (key : Nat) (hp : Foot 4198400 ps) (hk : Only ps s0 s) : Only ps s0
    (State.countTransient s key).2 := by
  unfold State.countTransient; with_reducible repeat' first
    | assumption | apply State.bump_only (hp := Foot.sub (by decide) hp) | apply State.updRecov_only (hp := Foot.sub (by decide) hp)
    | apply Only.ite | split | (intro) | extract_lets

theorem State.transientSlot_only {ps : Nat} {s0 : State} {s : State} (x : Nat) (g : Nat) (slot : Nat) (core : Nat) (opId : Nat) (layer : Nat) (cls :
    Nat) (hp : Foot 6427152 ps) (hk : Only ps s0 s) : Only ps s0 (State.transientSlot s x g slot core opId layer cls) := by
  unfold State.transientSlot; with_reducible repeat' first
    | assumption | apply State.classRecord_only (hp := Foot.sub (by decide) hp) | apply State.updRecov_only (hp := Foot.sub (by decide) hp)
    | apply State.countTransient_only (hp := Foot.sub (by decide) hp) | apply State.direct_only (hp := Foot.sub (by decide) hp)
    | apply State.permanentSlot_only (hp := Foot.sub (by decide) hp) | apply Only.ite | split | (intro) | extract_lets

theorem State.unitClass_only {ps : Nat} {s0 : State} {s : State} (x : Nat) (p : Nat) (opId : Nat) (layer : Nat) (cls : Nat) (hp : Foot 6422544 ps)
    (hk : Only ps s0 s) : Only ps s0 (State.unitClass s x p opId layer cls) := by
  unfold State.unitClass; with_reducible repeat' first
    | assumption | apply State.classify_only (hp := Foot.sub (by decide) hp) | apply Only.ite | split | (intro) | extract_lets

theorem State.permanentUnit_only {ps : Nat} {s0 : State} {s : State} (x : Nat) (key : Nat) (p : Nat) (engine : Option Nat) (opId : Nat) (layer : Nat)
    (hp : Foot 737869762948448278480 ps) (hk : Only ps s0 s) : Only ps s0 (State.permanentUnit s x key p engine opId layer) := by
  unfold State.permanentUnit; with_reducible repeat' first
    | assumption | apply State.bump_only (hp := Foot.sub (by decide) hp) | apply State.unitClass_only (hp := Foot.sub (by decide) hp)
    | apply State.wantAct_only (hp := Foot.sub (by decide) hp) | apply State.recover_only (hp := Foot.sub (by decide) hp) | apply Only.ite | split
    | (intro) | extract_lets

theorem State.transientUnit_only {ps : Nat} {s0 : State} {s : State} (x : Nat) (key : Nat) (p : Nat) (engine : Option Nat) (opId : Nat) (layer : Nat)
    (cls : Nat) (hp : Foot 737869762948448278480 ps) (hk : Only ps s0 s) : Only ps s0 (State.transientUnit s x key p engine opId layer cls) := by
  unfold State.transientUnit; with_reducible repeat' first
    | assumption | apply State.permanentUnit_only (hp := Foot.sub (by decide) hp) | apply State.countTransient_only (hp := Foot.sub (by decide) hp)
    | apply State.unitClass_only (hp := Foot.sub (by decide) hp) | apply Only.ite | split | (intro) | extract_lets

theorem State.transportUnit_only {ps : Nat} {s0 : State} {s : State} (x : Nat) (unit : Nat) (p : Nat) (opId : Nat) (layer : Nat) (hp : Foot
    737869762948448278480 ps) (hk : Only ps s0 s) : Only ps s0 (State.transportUnit s x unit p opId layer) := by
  unfold State.transportUnit; with_reducible repeat' first
    | assumption | apply State.transientUnit_only (hp := Foot.sub (by decide) hp) | apply Only.ite | split | (intro) | extract_lets

theorem State.roleClass_only {ps : Nat} {s0 : State} {s : State} (x : Nat) (opId : Nat) (layer : Nat) (core : Nat) (role : Option Nat) (cls : Nat)
    (hp : Foot 737869762948448278480 ps) (hk : Only ps s0 s) : Only ps s0 (State.roleClass s x opId layer core role cls) := by
  unfold State.roleClass; with_reducible repeat' first
    | assumption | apply State.bump_only (hp := Foot.sub (by decide) hp) | apply State.permanentUnit_only (hp := Foot.sub (by decide) hp)
    | apply State.transientSlot_only (hp := Foot.sub (by decide) hp) | apply State.classify_only (hp := Foot.sub (by decide) hp)
    | apply State.transientUnit_only (hp := Foot.sub (by decide) hp) | apply State.permanentSlot_only (hp := Foot.sub (by decide) hp)
    | apply Only.ite | split | (intro) | extract_lets

theorem State.exposure_only {ps : Nat} {s0 : State} {s : State} (x : Nat) (o : OpDesc) (unit : Nat) (role : Option Nat × Nat) (cls : Nat) (hp : Foot
    6422544 ps) (hk : Only ps s0 s) : Only ps s0 (State.exposure s x o unit role cls) := by
  unfold State.exposure; with_reducible repeat' first
    | assumption | apply State.bump_only (hp := Foot.sub (by decide) hp) | apply State.record_only (hp := Foot.sub (by decide) hp) | apply Only.ite
    | split | (intro) | extract_lets

theorem State.judge_only {ps : Nat} {s0 : State} {s : State} (x : Nat) (o : OpDesc) (unit : Nat) (role : Option Nat × Nat) (cls : Nat) (hp : Foot
    737869762948448278480 ps) (hk : Only ps s0 s) : Only ps s0 (State.judge s x o unit role cls) := by
  unfold State.judge; with_reducible repeat' first
    | assumption | apply State.roleClass_only (hp := Foot.sub (by decide) hp) | apply State.exposure_only (hp := Foot.sub (by decide) hp)
    | apply Only.ite | split | (intro) | extract_lets

theorem State.settleRepeat_only {ps : Nat} {s0 : State} {s : State} (x : Nat) (r : Repeat) (ran : Bool) (hp : Foot 737869762948448278480 ps) (hk :
    Only ps s0 s) : Only ps s0 (State.settleRepeat s x r ran) := by
  unfold State.settleRepeat; with_reducible repeat' first
    | assumption | apply State.judge_only (hp := Foot.sub (by decide) hp) | apply State.transientSlot_only (hp := Foot.sub (by decide) hp)
    | apply State.permanentSlot_only (hp := Foot.sub (by decide) hp) | apply Only.ite | split | (intro) | extract_lets

theorem State.finishRing_only {ps : Nat} {s0 : State} {s : State} (n : Nat) (status : Nat) (hp : Foot 8388640 ps) (hk : Only ps s0 s) : Only ps s0
    (State.finishRing s n status) := by
  unfold State.finishRing; with_reducible repeat' first
    | assumption | apply State.complete_only (hp := Foot.sub (by decide) hp) | apply Only.ite | split | (intro) | extract_lets

theorem State.emptyCtx_only {ps : Nat} {s0 : State} {s : State} (x : Nat) (hp : Foot 2361183241430594181104 ps) (hk : Only ps s0 s) : Only ps s0
    (State.emptyCtx s x) := by
  unfold State.emptyCtx; with_reducible repeat' first
    | assumption | apply State.updClus_only (hp := Foot.sub (by decide) hp) | apply State.pwrNotify_only (hp := Foot.sub (by decide) hp)
    | apply State.setDomains_only (hp := Foot.sub (by decide) hp) | apply State.updRecov_only (hp := Foot.sub (by decide) hp)
    | apply State.updFab_only (hp := Foot.sub (by decide) hp) | apply State.idleClusters_only (hp := Foot.sub (by decide) hp)
    | apply State.finishRing_only (hp := Foot.sub (by decide) hp) | apply State.cancelDumps_only (hp := Foot.sub (by decide) hp)
    | apply State.updTel_only (hp := Foot.sub (by decide) hp) | apply forEach_only | apply State.setCtx_only (hp := Foot.sub (by decide) hp)
    | apply State.updPwrCtx_only (hp := Foot.sub (by decide) hp) | apply State.settleRepeat_only (hp := Foot.sub (by decide) hp) | apply Only.ite
    | split | (intro) | extract_lets

theorem State.pcError_only {ps : Nat} {s0 : State} {s : State} (a : Nat) (ue : Bool) (hp : Foot 4224 ps) (hk : Only ps s0 s) : Only ps s0
    (State.pcError s a ue) := by
  unfold State.pcError; with_reducible repeat' first
    | assumption | refine State.updMem_only (hp := Foot.sub (by decide) hp) (fun _ => rfl) ?_
    | apply State.wantAct_only (hp := Foot.sub (by decide) hp) | apply Only.ite | split | (intro) | extract_lets

theorem State.corrected_only {ps : Nat} {s0 : State} {s : State} (x : Option Nat) (a : Nat) (hp : Foot 288230376155910336 ps) (hk : Only ps s0 s) :
    Only ps s0 (State.corrected s x a) := by
  unfold State.corrected; with_reducible repeat' first
    | assumption | apply State.bump_only (hp := Foot.sub (by decide) hp) | apply State.pcError_only (hp := Foot.sub (by decide) hp)
    | refine State.updCtx_only (a := 288230376151711744) (Foot.sub (by decide) hp) (by with_unfolding_all (intro c q hq; cases q <;> first
    | (cases hq; done) | rfl)) ?_ | apply Only.ite | split | (intro) | extract_lets

theorem State.uncorrectable_only {ps : Nat} {s0 : State} {s : State} (a : Nat) (hp : Foot 6426768 ps) (hk : Only ps s0 s) : Only ps s0
    (State.uncorrectable s a) := by
  unfold State.uncorrectable; with_reducible repeat' first
    | assumption | apply State.bump_only (hp := Foot.sub (by decide) hp)
    | refine State.updMem_only (hp := Foot.sub (by decide) hp) (fun _ => rfl) ?_ | apply State.pcError_only (hp := Foot.sub (by decide) hp)
    | apply State.poisonBlock_only (hp := Foot.sub (by decide) hp) | apply State.setEvt_only (hp := Foot.sub (by decide) hp) | apply Only.ite
    | split | (intro) | extract_lets

theorem State.permanentBlock_only {ps : Nat} {s0 : State} {s : State} (x : Nat) (a : Nat) (opId : Nat) (layer : Nat) (hp : Foot 6422544 ps) (hk :
    Only ps s0 s) : Only ps s0 (State.permanentBlock s x a opId layer) := by
  unfold State.permanentBlock; with_reducible repeat' first
    | assumption | apply State.bump_only (hp := Foot.sub (by decide) hp) | apply State.unitClass_only (hp := Foot.sub (by decide) hp)
    | apply Only.ite | split | (intro) | extract_lets

theorem State.badBlock_only {ps : Nat} {s0 : State} {s : State} (x : Nat) (a : Nat) (hp : Foot 590295810358714041536 ps) (hk : Only ps s0 s) : Only
    ps s0 (State.badBlock s x a) := by
  unfold State.badBlock; with_reducible repeat' first
    | assumption | apply State.invalidate_only (hp := Foot.sub (by decide) hp) | apply State.fetchBlock_only (hp := Foot.sub (by decide) hp)
    | apply Only.ite | split | (intro) | extract_lets

theorem State.reportBlock_only {ps : Nat} {s0 : State} {s : State} (x : Nat) (a : Nat) (unit : Nat) (part : Nat) (opId : Nat) (layer : Nat) (poison :
    Bool) (hp : Foot 144115188090668112 ps) (hk : Only ps s0 s) : Only ps s0 (State.reportBlock s x a unit part opId layer poison) := by
  unfold State.reportBlock; with_reducible repeat' first
    | assumption | apply State.bump_only (hp := Foot.sub (by decide) hp) | apply State.report_only (hp := Foot.sub (by decide) hp) | apply Only.ite
    | split | (intro) | extract_lets

theorem State.readBlock_only {ps : Nat} {s0 : State} {s : State} (x : Nat) (a : Nat) (unit : Nat) (opId : Nat) (layer : Nat) (rd : ReadOutcome) (hp :
    Foot 738302108512675846096 ps) (hk : Only ps s0 s) : Only ps s0 (State.readBlock s x a unit opId layer rd).2 := by
  unfold State.readBlock; with_reducible repeat' first
    | assumption | apply State.reportBlock_only (hp := Foot.sub (by decide) hp) | apply State.permanentBlock_only (hp := Foot.sub (by decide) hp)
    | apply State.corrected_only (hp := Foot.sub (by decide) hp) | apply State.badBlock_only (hp := Foot.sub (by decide) hp)
    | apply State.uncorrectable_only (hp := Foot.sub (by decide) hp) | apply State.pcError_only (hp := Foot.sub (by decide) hp)
    | apply State.transportUnit_only (hp := Foot.sub (by decide) hp) | apply Only.ite | split | (intro) | extract_lets

theorem State.writePart_only {ps : Nat} {s0 : State} {s : State} (x : Nat) (a : Nat) (opId : Nat) (layer : Nat) (bs : List Byte) (hp : Foot
    738302108512675846096 ps) (hk : Only ps s0 s) : Only ps s0 (State.writePart s x a opId layer bs) := by
  unfold State.writePart; with_reducible repeat' first
    | assumption | apply State.writeBlock_only (hp := Foot.sub (by decide) hp) | apply State.readBlock_only (hp := Foot.sub (by decide) hp)
    | apply Only.ite | split | (intro) | extract_lets

theorem State.plan_only {ps : Nat} {s0 : State} {s : State} (x : Nat) (l : Nat) (hp : Foot 288230376164556864 ps) (hk : Only ps s0 s) : Only ps s0
    (State.plan s x l) := by
  unfold State.plan; with_reducible repeat' first
    | assumption | apply State.bump_only (hp := Foot.sub (by decide) hp) | apply State.pwrNotify_only (hp := Foot.sub (by decide) hp)
    | apply State.updStage_only (hp := Foot.sub (by decide) hp) | apply forEach_only | apply State.updPwr_only (hp := Foot.sub (by decide) hp)
    | refine State.updCtx_only (a := 288230376151711744) (Foot.sub (by decide) hp) (by with_unfolding_all (intro c q hq; cases q <;> first
    | (cases hq; done) | rfl)) ?_ | apply State.updPwrCtx_only (hp := Foot.sub (by decide) hp) | apply Only.ite | apply foldl_onlyS
    | apply foldl_only1 | apply foldl_only2 | split | (intro) | extract_lets

theorem State.powerLaunch_only {ps : Nat} {s0 : State} {s : State} (x : Nat) (hp : Foot 262144 ps) (hk : Only ps s0 s) : Only ps s0
    (State.powerLaunch s x) := by
  unfold State.powerLaunch; with_reducible repeat' first
    | assumption | apply State.setDom_only (hp := Foot.sub (by decide) hp) | apply forEach_only
    | apply State.updPwrCtx_only (hp := Foot.sub (by decide) hp) | apply Only.ite | split | (intro) | extract_lets

theorem State.movePoints_only {ps : Nat} {s0 : State} {s : State} (x : Nat) (k : Nat) (kp : KMap Nat) (hp : Foot 288230376156168256 ps) (hk : Only ps
    s0 s) : Only ps s0 (State.movePoints s x k kp) := by
  unfold State.movePoints; with_reducible repeat' first
    | assumption | apply State.bump_only (hp := Foot.sub (by decide) hp) | apply State.updStage_only (hp := Foot.sub (by decide) hp)
    | apply forEach_only | apply State.updPwr_only (hp := Foot.sub (by decide) hp)
    | refine State.updCtx_only (a := 288230376151711744) (Foot.sub (by decide) hp) (by with_unfolding_all (intro c q hq; cases q <;> first
    | (cases hq; done) | rfl)) ?_ | apply State.when_only | apply State.updPwrCtx_only (hp := Foot.sub (by decide) hp) | apply Only.ite
    | apply foldl_onlyS | apply foldl_only1 | apply foldl_only2 | split | (intro) | extract_lets

theorem State.project_only {ps : Nat} {s0 : State} {s : State} (x : Nat) (hp : Foot 288230376156168256 ps) (hk : Only ps s0 s) : Only ps s0
    (State.project s x) := by
  unfold State.project; with_reducible repeat' first
    | assumption | apply State.movePoints_only (hp := Foot.sub (by decide) hp) | apply Only.ite | split | (intro) | extract_lets

theorem State.gate_only {ps : Nat} {s0 : State} {s : State} (x : Nat) (hp : Foot 262144 ps) (hk : Only ps s0 s) : Only ps s0 (State.gate s x) := by
  unfold State.gate; with_reducible repeat' first
    | assumption | apply State.setDom_only (hp := Foot.sub (by decide) hp) | apply forEach_only | apply Only.ite | split | (intro) | extract_lets

theorem State.powerCommit_only {ps : Nat} {s0 : State} {s : State} (x : Nat) (hp : Foot 15073296 ps) (hk : Only ps s0 s) : Only ps s0
    (State.powerCommit s x) := by
  unfold State.powerCommit; with_reducible repeat' first
    | assumption | apply State.bump_only (hp := Foot.sub (by decide) hp) | apply State.pwrNotify_only (hp := Foot.sub (by decide) hp)
    | apply State.record_only (hp := Foot.sub (by decide) hp) | apply State.updPwrCtx_only (hp := Foot.sub (by decide) hp)
    | apply State.setEvt_only (hp := Foot.sub (by decide) hp) | apply Only.ite | split | (intro) | extract_lets

theorem done_only {ps : Nat} {s0 : State} (status : Nat) (result : Nat) {s : State} (hk : Only ps s0 s) : Only ps s0 (done status result s).2 := by
  unfold done; with_reducible repeat' first
    | assumption | apply Only.ite | split | (intro) | extract_lets

theorem later_only {ps : Nat} {s0 : State} {s : State} (hk : Only ps s0 s) : Only ps s0 (later s).2 := by
  unfold later; with_reducible repeat' first
    | assumption | apply Only.ite | split | (intro) | extract_lets

theorem State.hostPayload_only {ps : Nat} {s0 : State} {s : State} (a : Staged) (bytes : List Byte) (hp : Foot 8388608 ps) (hk : Only ps s0 s) : Only
    ps s0 (State.hostPayload s a bytes) := by
  unfold State.hostPayload; with_reducible repeat' first
    | assumption | apply State.emit_only (hp := Foot.sub (by decide) hp) | apply Only.ite | split | (intro) | extract_lets

theorem State.writeRaw_only {ps : Nat} {s0 : State} {s : State} (a : Nat) (a2 : Nat) (a3 : List Byte) (hp : Foot 384 ps) (hk : Only ps s0 s) : Only
    ps s0 (State.writeRaw s a a2 a3) := by
  induction a2 generalizing s a a3 with
  | zero => unfold State.writeRaw; with_reducible repeat' first
      | assumption | apply State.writeBytes_only (hp := Foot.sub (by decide) hp) | apply State.setCheck_only (hp := Foot.sub (by decide) hp)
      | apply Only.ite | split | (intro) | extract_lets
  | succ n ih => unfold State.writeRaw; with_reducible repeat' first
      | apply ih | assumption | apply State.writeBytes_only (hp := Foot.sub (by decide) hp)
      | apply State.setCheck_only (hp := Foot.sub (by decide) hp) | apply Only.ite | split | (intro) | extract_lets

theorem State.runLoader_only {ps : Nat} {s0 : State} {s : State} (x : Nat) (hp : Foot 2361183241430594181104 ps) (hk : Only ps s0 s) : Only ps s0
    (State.runLoader s x).2 := by
  unfold State.runLoader; with_reducible repeat' first
    | assumption | apply done_only | apply State.emptyCtx_only (hp := Foot.sub (by decide) hp)
    | refine State.updCtx_only (a := 828928688128) (Foot.sub (by decide) hp) (by with_unfolding_all (intro c q hq; cases q <;> first
    | (cases hq; done) | rfl)) ?_ | apply State.updPwrCtx_only (hp := Foot.sub (by decide) hp) | apply Only.ite | split | (intro) | extract_lets

theorem State.bind_only {ps : Nat} {s0 : State} {s : State} (x : Nat) (hp : Foot 590295810358714041408 ps) (hk : Only ps s0 s) : Only ps s0
    (State.bind s x) := by
  unfold State.bind; with_reducible repeat' first
    | assumption | apply State.sendCtrl_only (hp := Foot.sub (by decide) hp) | apply State.updGey_only (hp := Foot.sub (by decide) hp)
    | apply Only.ite | split | (intro) | extract_lets

theorem State.notCoordinator_only {ps : Nat} {s0 : State} {s : State} (hp : Foot 16777216 ps) (hk : Only ps s0 s) : Only ps s0 (State.notCoordinator
    s).2 := by
  unfold State.notCoordinator; with_reducible repeat' first
    | assumption | apply done_only | apply State.hint_only (hp := Foot.sub (by decide) hp) | apply Only.ite | split | (intro) | extract_lets

theorem State.toAll_only {ps : Nat} {s0 : State} {s : State} (x : Nat) (msg : Nat) (step : Nat) (attempt : Nat) (param : Nat) (payload : List Byte)
    (hp : Foot 8389632 ps) (hk : Only ps s0 s) : Only ps s0 (State.toAll s x msg step attempt param payload) := by
  unfold State.toAll; with_reducible repeat' first
    | assumption | apply State.sendCtrl_only (hp := Foot.sub (by decide) hp) | apply forEach_only | apply Only.ite | split | (intro) | extract_lets

theorem State.resumeJob_only {ps : Nat} {s0 : State} {s : State} (x : Nat) (hp : Foot 1180591620717419693120 ps) (hk : Only ps s0 s) : Only ps s0
    (State.resumeJob s x).2 := by
  unfold State.resumeJob; with_reducible repeat' first
    | assumption | apply State.updCoord_only (hp := Foot.sub (by decide) hp) | apply State.toAll_only (hp := Foot.sub (by decide) hp)
    | apply Only.ite | split | (intro) | extract_lets

theorem State.drainJob_only {ps : Nat} {s0 : State} {s : State} (x : Nat) (hp : Foot 1180591620717419693120 ps) (hk : Only ps s0 s) : Only ps s0
    (State.drainJob s x) := by
  unfold State.drainJob; with_reducible repeat' first
    | assumption | apply State.updCoord_only (hp := Foot.sub (by decide) hp) | apply State.toAll_only (hp := Foot.sub (by decide) hp)
    | apply Only.ite | split | (intro) | extract_lets

theorem State.meter_only {ps : Nat} {s0 : State} {s : State} (x : Nat) (dst : Nat) (vc : Nat) (hp : Foot 288230376172684352 ps) (hk : Only ps s0 s) :
    Only ps s0 (State.meter s x dst vc) := by
  unfold State.meter; with_reducible repeat' first
    | assumption | apply State.bump_only (hp := Foot.sub (by decide) hp) | apply State.updFab_only (hp := Foot.sub (by decide) hp)
    | apply State.freshBool_only (hp := Foot.sub (by decide) hp)
    | refine State.updCtx_only (a := 288230376151711744) (Foot.sub (by decide) hp) (by with_unfolding_all (intro c q hq; cases q <;> first
    | (cases hq; done) | rfl)) ?_ | apply Only.ite | split | (intro) | extract_lets

theorem State.sendBlock_only {ps : Nat} {s0 : State} {s : State} (x : Nat) (dst : Nat) (bulk : Bool) (tensorId : Nat) (addr : Nat) (check : Nat)
    (bytes : List Byte) (step : Nat) (attempt : Nat) (ack : Bool) (hp : Foot 288230376181072960 ps) (hk : Only ps s0 s) : Only ps s0 (State.sendBlock
    s x dst bulk tensorId addr check bytes step attempt ack) := by
  unfold State.sendBlock; with_reducible repeat' first
    | assumption | apply State.updFab_only (hp := Foot.sub (by decide) hp) | apply forEach_only
    | apply State.meter_only (hp := Foot.sub (by decide) hp) | apply State.emit_only (hp := Foot.sub (by decide) hp) | apply Only.ite | split
    | (intro) | extract_lets

theorem State.hostWriteBlocks_only {ps : Nat} {s0 : State} {s : State} (x : Nat) (t : Tensor) (a : Nat) (a4 : Nat) (a5 : List Byte) (hp : Foot
    738157993324563137984 ps) (hk : Only ps s0 s) : Only ps s0 (State.hostWriteBlocks s x t a a4 a5) := by
  induction a4 generalizing s a a5 with
  | zero => unfold State.hostWriteBlocks; with_reducible repeat' first
      | assumption | apply State.writeBlock_only (hp := Foot.sub (by decide) hp) | apply State.sendBlock_only (hp := Foot.sub (by decide) hp)
      | apply Only.ite | split | (intro) | extract_lets
  | succ n ih => unfold State.hostWriteBlocks; with_reducible repeat' first
      | apply ih | assumption | apply State.writeBlock_only (hp := Foot.sub (by decide) hp)
      | apply State.sendBlock_only (hp := Foot.sub (by decide) hp) | apply Only.ite | split | (intro) | extract_lets

theorem State.hostReadBlocks_only {ps : Nat} {s0 : State} {s : State} (x : Nat) (t : Tensor) (a : Nat) (a4 : Nat) (a5 : ReadOutcome) (hp : Foot
    738302108512675846096 ps) (hk : Only ps s0 s) : Only ps s0 (State.hostReadBlocks s x t a a4 a5).2 := by
  induction a4 generalizing s a a5 with
  | zero => unfold State.hostReadBlocks; with_reducible repeat' first
      | assumption | apply State.readBlock_only (hp := Foot.sub (by decide) hp) | apply Only.ite | split | (intro) | extract_lets
  | succ n ih => unfold State.hostReadBlocks; with_reducible repeat' first
      | apply ih | assumption | apply State.readBlock_only (hp := Foot.sub (by decide) hp) | apply Only.ite | split | (intro) | extract_lets

theorem State.hostRead_only {ps : Nat} {s0 : State} {s : State} (x : Nat) (t : Tensor) (b : Nat) (n : Nat) (rd : ReadOutcome) (hp : Foot
    738302108512675846096 ps) (hk : Only ps s0 s) : Only ps s0 (State.hostRead s x t b n rd).2 := by
  unfold State.hostRead; with_reducible repeat' first
    | assumption | apply State.hostReadBlocks_only (hp := Foot.sub (by decide) hp)
    | refine State.updCtx_only (a := 147573952589676412928) (Foot.sub (by decide) hp) (by with_unfolding_all (intro c q hq; cases q <;> first
    | (cases hq; done) | rfl)) ?_ | apply Only.ite | split | (intro) | extract_lets

theorem State.capture_only {ps : Nat} {s0 : State} {s : State} (x : Nat) (d : Dump) (t : Tensor) (opId : Nat) (layer : Nat) (attempt : Nat) (hp :
    Foot 738302108512675846096 ps) (hk : Only ps s0 s) : Only ps s0 (State.capture s x d t opId layer attempt).1 := by
  unfold State.capture; with_reducible repeat' first
    | assumption | apply State.bump_only (hp := Foot.sub (by decide) hp) | apply State.readBlock_only (hp := Foot.sub (by decide) hp)
    | apply forEach_only | apply State.emit_only (hp := Foot.sub (by decide) hp) | apply Only.ite | apply foldl_onlyS | apply foldl_only1
    | apply foldl_only2 | split | (intro) | extract_lets

theorem State.reportDump_only {ps : Nat} {s0 : State} {s : State} (d : Dump) (hp : Foot 8388608 ps) (hk : Only ps s0 s) : Only ps s0
    (State.reportDump s d) := by
  unfold State.reportDump; with_reducible repeat' first
    | assumption | apply State.emit_only (hp := Foot.sub (by decide) hp) | apply Only.ite | split | (intro) | extract_lets

theorem State.enableWrite_only {ps : Nat} {s0 : State} {s : State} (en : Bool) (hp : Foot 32 ps) (hk : Only ps s0 s) : Only ps s0 (State.enableWrite
    s en) := by
  unfold State.enableWrite; with_reducible repeat' first
    | assumption | apply State.updMbx_only (hp := Foot.sub (by decide) hp) | apply Only.ite | split | (intro) | extract_lets

theorem State.ringWrite_only {ps : Nat} {s0 : State} {s : State} (n : Nat) (off : Nat) (v : Nat) (hp : Foot 8388640 ps) (hk : Only ps s0 s) : Only ps
    s0 (State.ringWrite s n off v) := by
  unfold State.ringWrite; with_reducible repeat' first
    | assumption | apply State.consume_only (hp := Foot.sub (by decide) hp) | apply State.updRing_only (hp := Foot.sub (by decide) hp)
    | apply Only.ite | split | (intro) | extract_lets

theorem State.updOut_only {ps : Nat} {s0 : State} {s : State} (die : Nat) (out : Nat) (vc : Nat) (f : OutVc → OutVc) (hp : Foot 1024 ps) (hk : Only
    ps s0 s) : Only ps s0 (State.updOut s die out vc f) := by
  unfold State.updOut; with_reducible repeat' first
    | assumption | apply State.updFab_only (hp := Foot.sub (by decide) hp) | apply Only.ite | split | (intro) | extract_lets

theorem State.freeInput_only {ps : Nat} {s0 : State} {s : State} (die : Nat) (inPort : Nat) (vc : Nat) (n : Nat) (hp : Foot 3072 ps) (hk : Only ps s0
    s) : Only ps s0 (State.freeInput s die inPort vc n) := by
  unfold State.freeInput; with_reducible repeat' first
    | assumption | apply State.updOut_only (hp := Foot.sub (by decide) hp) | apply State.updPort_only (hp := Foot.sub (by decide) hp)
    | apply Only.ite | split | (intro) | extract_lets

theorem State.grant_only {ps : Nat} {s0 : State} {s : State} (die : Nat) (inPort : Nat) (w : Nat) (h : Hop) (hp : Foot 12585984 ps) (hk : Only ps s0
    s) : Only ps s0 (State.grant s die inPort w h) := by
  unfold State.grant; with_reducible repeat' first
    | assumption | apply State.bump_only (hp := Foot.sub (by decide) hp) | apply State.freeInput_only (hp := Foot.sub (by decide) hp)
    | apply State.updOut_only (hp := Foot.sub (by decide) hp) | apply State.updFab_only (hp := Foot.sub (by decide) hp)
    | apply State.updPort_only (hp := Foot.sub (by decide) hp) | apply State.emit_only (hp := Foot.sub (by decide) hp) | apply Only.ite | split
    | (intro) | extract_lets

theorem State.noteStall_only {ps : Nat} {s0 : State} {s : State} (die : Nat) (out : Nat) (hp : Foot 4195328 ps) (hk : Only ps s0 s) : Only ps s0
    (State.noteStall s die out) := by
  unfold State.noteStall; with_reducible repeat' first
    | assumption | apply State.bump_only (hp := Foot.sub (by decide) hp) | apply State.updFab_only (hp := Foot.sub (by decide) hp) | apply Only.ite
    | split | (intro) | extract_lets

theorem State.drain_only {ps : Nat} {s0 : State} (a : Nat) {a1 : State} (a2 : Nat) (a3 : Nat) (hp : Foot 12585984 ps) (hk : Only ps s0 a1) : Only ps
    s0 (State.drain a a1 a2 a3) := by
  induction a generalizing a1 a2 a3 with
  | zero => unfold State.drain; with_reducible repeat' first
      | assumption | apply State.grant_only (hp := Foot.sub (by decide) hp) | apply State.updFab_only (hp := Foot.sub (by decide) hp)
      | apply State.noteStall_only (hp := Foot.sub (by decide) hp) | apply Only.ite | split | (intro) | extract_lets
  | succ n ih => unfold State.drain; with_reducible repeat' first
      | apply ih | assumption | apply State.grant_only (hp := Foot.sub (by decide) hp) | apply State.updFab_only (hp := Foot.sub (by decide) hp)
      | apply State.noteStall_only (hp := Foot.sub (by decide) hp) | apply Only.ite | split | (intro) | extract_lets

theorem State.drainOut_only {ps : Nat} {s0 : State} {s : State} (die : Nat) (out : Nat) (hp : Foot 12585984 ps) (hk : Only ps s0 s) : Only ps s0
    (State.drainOut s die out) := by
  unfold State.drainOut; with_reducible repeat' first
    | assumption | apply State.drain_only (hp := Foot.sub (by decide) hp) | apply Only.ite | apply State.drain_only (hp := Foot.sub (by decide) hp)
    | split | (intro) | extract_lets

theorem State.drainAll_only {ps : Nat} {s0 : State} {s : State} (hp : Foot 12585984 ps) (hk : Only ps s0 s) : Only ps s0 (State.drainAll s) := by
  unfold State.drainAll; with_reducible repeat' first
    | assumption | apply forEach_only | apply State.drainOut_only (hp := Foot.sub (by decide) hp) | apply Only.ite | split | (intro) | extract_lets

theorem State.announceBreak_only {ps : Nat} {s0 : State} {s : State} (v : Nat) (isBreak : Bool) (hp : Foot 8389632 ps) (hk : Only ps s0 s) : Only ps
    s0 (State.announceBreak s v isBreak) := by
  unfold State.announceBreak; with_reducible repeat' first
    | assumption | apply State.sendCtrl_only (hp := Foot.sub (by decide) hp) | apply State.updFab_only (hp := Foot.sub (by decide) hp)
    | apply forEach_only | apply Only.ite | split | (intro) | extract_lets

theorem State.noteBundle_only {ps : Nat} {s0 : State} {s : State} (v : Nat) (hp : Foot 12585984 ps) (hk : Only ps s0 s) : Only ps s0
    (State.noteBundle s v) := by
  unfold State.noteBundle; with_reducible repeat' first
    | assumption | apply State.drainAll_only (hp := Foot.sub (by decide) hp) | apply State.updFab_only (hp := Foot.sub (by decide) hp)
    | apply State.announceBreak_only (hp := Foot.sub (by decide) hp) | apply Only.ite | split | (intro) | extract_lets

theorem State.setOutcome_only {ps : Nat} {s0 : State} {s : State} (p : Nat) (st : PortSt) (hp : Foot 12585984 ps) (hk : Only ps s0 s) : Only ps s0
    (State.setOutcome s p st) := by
  unfold State.setOutcome; with_reducible repeat' first
    | assumption | apply State.bump_only (hp := Foot.sub (by decide) hp) | apply State.updPort_only (hp := Foot.sub (by decide) hp)
    | apply State.noteBundle_only (hp := Foot.sub (by decide) hp) | apply Only.ite | split | (intro) | extract_lets

theorem State.evaluate_only {ps : Nat} {s0 : State} {s : State} (p : Nat) (i : IdentData) (hp : Foot 14814232 ps) (hk : Only ps s0 s) : Only ps s0
    (State.evaluate s p i) := by
  unfold State.evaluate; with_reducible repeat' first
    | assumption | apply State.setOutcome_only (hp := Foot.sub (by decide) hp)
    | refine State.updFlash_only (hp := Foot.sub (by decide) hp) (fun _ => ⟨rfl, rfl⟩) ?_ | apply State.setEvt_only (hp := Foot.sub (by decide) hp)
    | apply State.updPort_only (hp := Foot.sub (by decide) hp) | apply Only.ite | split | (intro) | extract_lets

theorem State.evaluateAgain_only {ps : Nat} {s0 : State} {s : State} (p : Nat) (hp : Foot 14814232 ps) (hk : Only ps s0 s) : Only ps s0
    (State.evaluateAgain s p) := by
  unfold State.evaluateAgain; with_reducible repeat' first
    | assumption | apply State.evaluate_only (hp := Foot.sub (by decide) hp) | apply Only.ite | split | (intro) | extract_lets

theorem State.fenceSlot_only {ps : Nat} {s0 : State} {s : State} (g : Nat) (slot : Nat) (quiet : Bool) (hp : Foot 14816792 ps) (hk : Only ps s0 s) :
    Only ps s0 (State.fenceSlot s g slot quiet) := by
  unfold State.fenceSlot; dsimp only; with_reducible repeat' first
    | assumption | apply State.updRecov_only (hp := Foot.sub (by decide) hp)
    | refine State.updFlash_only (hp := Foot.sub (by decide) hp) (fun _ => ⟨rfl, rfl⟩) ?_
    | apply State.selfLost_only (hp := Foot.sub (by decide) hp) | apply State.updCluster_only (hp := Foot.sub (by decide) hp)
    | apply State.setEvt_only (hp := Foot.sub (by decide) hp) | apply Only.ite | split | (intro) | extract_lets

theorem State.retirePc_only {ps : Nat} {s0 : State} {s : State} (k : Nat) (hp : Foot 737869762948448278488 ps) (hk : Only ps s0 s) : Only ps s0
    (State.retirePc s k) := by
  unfold State.retirePc; with_reducible repeat' first
    | assumption | refine State.updFlash_only (hp := Foot.sub (by decide) hp) (fun _ => ⟨rfl, rfl⟩) ?_
    | apply State.selfLost_only (hp := Foot.sub (by decide) hp) | refine State.updMem_only (hp := Foot.sub (by decide) hp) (fun _ => rfl) ?_
    | apply State.setEvt_only (hp := Foot.sub (by decide) hp) | apply State.recover_only (hp := Foot.sub (by decide) hp) | apply Only.ite | split
    | (intro) | extract_lets

theorem State.fenceEngine_only {ps : Nat} {s0 : State} {s : State} (u : Nat) (hp : Foot 737869762948448278488 ps) (hk : Only ps s0 s) : Only ps s0
    (State.fenceEngine s u) := by
  unfold State.fenceEngine; with_reducible repeat' first
    | assumption | apply State.updRecov_only (hp := Foot.sub (by decide) hp)
    | refine State.updFlash_only (hp := Foot.sub (by decide) hp) (fun _ => ⟨rfl, rfl⟩) ?_
    | apply State.recover_only (hp := Foot.sub (by decide) hp) | apply Only.ite | split | (intro) | extract_lets

theorem State.goLive_only {ps : Nat} {s0 : State} {s : State} (c : Cfg) (hp : Foot 14814238 ps) (hk : Only ps s0 s) : Only ps s0 (State.goLive s c)
    := by
  unfold State.goLive; with_reducible repeat' first
    | assumption | apply State.setCfg_only (hp := Foot.sub (by decide) hp) | apply State.updId_only (hp := Foot.sub (by decide) hp)
    | apply State.record_only (hp := Foot.sub (by decide) hp) | apply State.evaluateAgain_only (hp := Foot.sub (by decide) hp) | apply forEach_only
    | apply Only.ite | split | (intro) | extract_lets

theorem State.applyLive_only {ps : Nat} {s0 : State} {s : State} (hp : Foot 14814238 ps) (hk : Only ps s0 s) : Only ps s0 (State.applyLive s) := by
  unfold State.applyLive; with_reducible repeat' first
    | assumption | apply State.goLive_only (hp := Foot.sub (by decide) hp) | apply Only.ite | split | (intro) | extract_lets

theorem State.boundary_only {ps : Nat} {s0 : State} {s : State} (x : Nat) (hp : Foot 737869762948448280542 ps) (hk : Only ps s0 s) : Only ps s0
    (State.boundary s x) := by
  unfold State.boundary; with_reducible repeat' first
    | assumption | apply State.retirePc_only (hp := Foot.sub (by decide) hp) | apply State.fenceSlot_only (hp := Foot.sub (by decide) hp)
    | apply State.updRecov_only (hp := Foot.sub (by decide) hp) | apply State.updFab_only (hp := Foot.sub (by decide) hp)
    | apply State.updCluster_only (hp := Foot.sub (by decide) hp) | apply State.applyLive_only (hp := Foot.sub (by decide) hp) | apply forEach_only
    | apply State.fenceEngine_only (hp := Foot.sub (by decide) hp) | apply Only.ite | apply foldl_onlyS | apply foldl_only1 | apply foldl_only2
    | split | (intro) | extract_lets

theorem State.launchStep_only {ps : Nat} {s0 : State} {s : State} (x : Nat) (hp : Foot 74201307460562976848 ps) (hk : Only ps s0 s) : Only ps s0
    (State.launchStep s x) := by
  unfold State.launchStep; with_reducible repeat' first
    | assumption | apply State.record_only (hp := Foot.sub (by decide) hp)
    | refine State.updCtx_only (a := 74201307460556292096) (Foot.sub (by decide) hp) (by with_unfolding_all (intro c q hq; cases q <;> first
    | (cases hq; done) | rfl)) ?_ | apply State.powerLaunch_only (hp := Foot.sub (by decide) hp) | apply Only.ite | split | (intro) | extract_lets

theorem State.setLaunch_only {ps : Nat} {s0 : State} {s : State} (x : Nat) (l : Nat) (hp : Foot 74210314659817717840 ps) (hk : Only ps s0 s) : Only
    ps s0 (State.setLaunch s x l) := by
  unfold State.setLaunch; with_reducible repeat' first
    | assumption | apply State.launchStep_only (hp := Foot.sub (by decide) hp)
    | refine State.updCtx_only (a := 27021597764222976) (Foot.sub (by decide) hp) (by with_unfolding_all (intro c q hq; cases q <;> first
    | (cases hq; done) | rfl)) ?_ | apply Only.ite | split | (intro) | extract_lets

theorem State.sendPmap_only {ps : Nat} {s0 : State} {s : State} (x : Nat) (hp : Foot 8389632 ps) (hk : Only ps s0 s) : Only ps s0 (State.sendPmap s
    x) := by
  unfold State.sendPmap; with_reducible repeat' first
    | assumption | apply State.toAll_only (hp := Foot.sub (by decide) hp) | apply Only.ite | apply foldl_onlyS | apply foldl_only1
    | apply foldl_only2 | split | (intro) | extract_lets

theorem State.tryStart_only {ps : Nat} {s0 : State} {s : State} (x : Nat) (hp : Foot 1180591796639286559824 ps) (hk : Only ps s0 s) : Only ps s0
    (State.tryStart s x) := by
  unfold State.tryStart; with_reducible repeat' first
    | assumption | apply State.sendPmap_only (hp := Foot.sub (by decide) hp) | apply State.record_only (hp := Foot.sub (by decide) hp)
    | apply State.updCoord_only (hp := Foot.sub (by decide) hp)
    | refine State.updCtx_only (a := 175921860444160) (Foot.sub (by decide) hp) (by with_unfolding_all (intro c q hq; cases q <;> first
    | (cases hq; done) | rfl)) ?_ | apply State.toAll_only (hp := Foot.sub (by decide) hp) | apply Only.ite | split | (intro) | extract_lets

theorem State.toSome_only {ps : Nat} {s0 : State} {s : State} (x : Nat) (dest : List Nat) (msg : Nat) (step : Nat) (attempt : Nat) (param : Nat) (hp
    : Foot 8389632 ps) (hk : Only ps s0 s) : Only ps s0 (State.toSome s x dest msg step attempt param) := by
  unfold State.toSome; with_reducible repeat' first
    | assumption | apply State.sendCtrl_only (hp := Foot.sub (by decide) hp) | apply forEach_only | apply Only.ite | split | (intro) | extract_lets

theorem State.checkpoint_only {ps : Nat} {s0 : State} {s : State} (x : Nat) (n : Nat) (forHold : Bool) (hp : Foot 1180591620717419693120 ps) (hk :
    Only ps s0 s) : Only ps s0 (State.checkpoint s x n forHold) := by
  unfold State.checkpoint; with_reducible repeat' first
    | assumption | apply State.updCoord_only (hp := Foot.sub (by decide) hp) | apply State.toAll_only (hp := Foot.sub (by decide) hp)
    | apply Only.ite | split | (intro) | extract_lets

theorem State.tryCommit_only {ps : Nat} {s0 : State} {s : State} (x : Nat) (hp : Foot 1180591620717419693120 ps) (hk : Only ps s0 s) : Only ps s0
    (State.tryCommit s x) := by
  unfold State.tryCommit; with_reducible repeat' first
    | assumption | apply State.checkpoint_only (hp := Foot.sub (by decide) hp) | apply State.updCoord_only (hp := Foot.sub (by decide) hp)
    | apply State.toAll_only (hp := Foot.sub (by decide) hp) | apply Only.ite | split | (intro) | extract_lets

theorem State.holdStep_only {ps : Nat} {s0 : State} {s : State} (x : Nat) (reason : Nat) (hp : Foot 1180591620717419693120 ps) (hk : Only ps s0 s) :
    Only ps s0 (State.holdStep s x reason) := by
  unfold State.holdStep; with_reducible repeat' first
    | assumption | apply State.updCoord_only (hp := Foot.sub (by decide) hp) | apply State.toAll_only (hp := Foot.sub (by decide) hp)
    | apply Only.ite | split | (intro) | extract_lets

theorem State.issueReexec_only {ps : Nat} {s0 : State} {s : State} (x : Nat) (hp : Foot 1180591620717419693120 ps) (hk : Only ps s0 s) : Only ps s0
    (State.issueReexec s x) := by
  unfold State.issueReexec; with_reducible repeat' first
    | assumption | apply State.updCoord_only (hp := Foot.sub (by decide) hp) | apply State.toAll_only (hp := Foot.sub (by decide) hp)
    | apply Only.ite | split | (intro) | extract_lets

theorem State.collect_only {ps : Nat} {s0 : State} {s : State} (x : Nat) (hp : Foot 1180591620717411303488 ps) (hk : Only ps s0 s) : Only ps s0
    (State.collect s x) := by
  unfold State.collect; with_reducible repeat' first
    | assumption | apply State.updCoord_only (hp := Foot.sub (by decide) hp) | apply Only.ite | split | (intro) | extract_lets

theorem State.restorePair_only {ps : Nat} {s0 : State} {s : State} (x : Nat) (lost : Nat) (hp : Foot 1180591796639280137280 ps) (hk : Only ps s0 s) :
    Only ps s0 (State.restorePair s x lost) := by
  unfold State.restorePair; dsimp only; with_reducible repeat' first
    | assumption | apply State.sendPmap_only (hp := Foot.sub (by decide) hp) | apply State.updCoord_only (hp := Foot.sub (by decide) hp)
    | refine State.updCtx_only (a := 175921860444160) (Foot.sub (by decide) hp) (by with_unfolding_all (intro c q hq; cases q <;> first
    | (cases hq; done) | rfl)) ?_ | apply State.toAll_only (hp := Foot.sub (by decide) hp) | apply Only.ite | split | (intro) | extract_lets

theorem State.failByLoss_only {ps : Nat} {s0 : State} {s : State} (x : Nat) (hp : Foot 1180591620717419693120 ps) (hk : Only ps s0 s) : Only ps s0
    (State.failByLoss s x) := by
  unfold State.failByLoss; with_reducible repeat' first
    | assumption | apply State.holdStep_only (hp := Foot.sub (by decide) hp) | apply State.collect_only (hp := Foot.sub (by decide) hp)
    | apply State.updCoord_only (hp := Foot.sub (by decide) hp) | apply Only.ite | split | (intro) | extract_lets

theorem State.declareLost_only {ps : Nat} {s0 : State} {s : State} (x : Nat) (lost : Nat) (counted : Bool) (hp : Foot 1180591796639301108800 ps) (hk
    : Only ps s0 s) : Only ps s0 (State.declareLost s x lost counted) := by
  unfold State.declareLost; with_reducible repeat' first
    | assumption | apply State.holdStep_only (hp := Foot.sub (by decide) hp) | apply State.bump_only (hp := Foot.sub (by decide) hp)
    | apply State.restorePair_only (hp := Foot.sub (by decide) hp) | apply State.sendPmap_only (hp := Foot.sub (by decide) hp)
    | apply State.failByLoss_only (hp := Foot.sub (by decide) hp) | apply State.collect_only (hp := Foot.sub (by decide) hp)
    | apply State.updCoord_only (hp := Foot.sub (by decide) hp) | apply State.freshBool_only (hp := Foot.sub (by decide) hp)
    | apply State.toSome_only (hp := Foot.sub (by decide) hp)
    | refine State.updCtx_only (a := 175921860444160) (Foot.sub (by decide) hp) (by with_unfolding_all (intro c q hq; cases q <;> first
    | (cases hq; done) | rfl)) ?_ | apply State.when_only | apply State.toAll_only (hp := Foot.sub (by decide) hp) | apply Only.ite | split
    | (intro) | extract_lets

theorem State.failAttempt_only {ps : Nat} {s0 : State} {s : State} (x : Nat) (src : Nat) (hp : Foot 1180591796639301108800 ps) (hk : Only ps s0 s) :
    Only ps s0 (State.failAttempt s x src) := by
  unfold State.failAttempt; with_reducible repeat' first
    | assumption | apply State.holdStep_only (hp := Foot.sub (by decide) hp) | apply State.collect_only (hp := Foot.sub (by decide) hp)
    | apply State.updCoord_only (hp := Foot.sub (by decide) hp) | apply State.declareLost_only (hp := Foot.sub (by decide) hp) | apply Only.ite
    | split | (intro) | extract_lets

theorem State.takeOver_only {ps : Nat} {s0 : State} {s : State} (x : Nat) (hp : Foot 1180591620717424936000 ps) (hk : Only ps s0 s) : Only ps s0
    (State.takeOver s x) := by
  unfold State.takeOver; with_reducible repeat' first
    | assumption | apply State.bump_only (hp := Foot.sub (by decide) hp) | apply State.updPins_only (hp := Foot.sub (by decide) hp)
    | apply State.updCoord_only (hp := Foot.sub (by decide) hp) | apply State.toAll_only (hp := Foot.sub (by decide) hp) | apply Only.ite | split
    | (intro) | extract_lets

theorem State.settleTakeover_only {ps : Nat} {s0 : State} {s : State} (x : Nat) (hp : Foot 1180591620717419693120 ps) (hk : Only ps s0 s) : Only ps
    s0 (State.settleTakeover s x) := by
  unfold State.settleTakeover; with_reducible repeat' first
    | assumption | apply State.collect_only (hp := Foot.sub (by decide) hp) | apply State.issueReexec_only (hp := Foot.sub (by decide) hp)
    | apply State.updCoord_only (hp := Foot.sub (by decide) hp) | apply State.tryCommit_only (hp := Foot.sub (by decide) hp)
    | apply State.toSome_only (hp := Foot.sub (by decide) hp) | apply Only.ite | apply foldl_onlyS | apply foldl_only1 | apply foldl_only2 | split
    | (intro) | extract_lets

theorem State.coordAct_only {ps : Nat} {s0 : State} {s : State} (x : Nat) (hp : Foot 1180591796639286559824 ps) (hk : Only ps s0 s) : Only ps s0
    (State.coordAct s x) := by
  unfold State.coordAct; with_reducible repeat' first
    | assumption | apply State.tryStart_only (hp := Foot.sub (by decide) hp) | apply State.tryCommit_only (hp := Foot.sub (by decide) hp)
    | apply Only.ite | split | (intro) | extract_lets

theorem State.subContent_only {ps : Nat} {s0 : State} {s : State} (stream : Nat) (domain : Nat) (bytes : List Byte) (hp : Foot 65536 ps) (hk : Only
    ps s0 s) : Only ps s0 (State.subContent s stream domain bytes) := by
  unfold State.subContent; with_reducible repeat' first
    | assumption | apply State.updTel_only (hp := Foot.sub (by decide) hp) | apply Only.ite | split | (intro) | extract_lets

theorem State.assess_only {ps : Nat} {s0 : State} {s : State} (kind : Nat) (metric : Nat) (set : Bool) (domain : Nat) (key : Nat) (hp : Foot 65536
    ps) (hk : Only ps s0 s) : Only ps s0 (State.assess s kind metric set domain key) := by
  unfold State.assess; with_reducible repeat' first
    | assumption | apply State.subContent_only (hp := Foot.sub (by decide) hp) | apply Only.ite | split | (intro) | extract_lets

theorem State.judgeStraggler_only {ps : Nat} {s0 : State} {s : State} (x : Nat) (t : TelPkt) (step : Nat) (hp : Foot 6488080 ps) (hk : Only ps s0 s)
    : Only ps s0 (State.judgeStraggler s x t step) := by
  unfold State.judgeStraggler; with_reducible repeat' first
    | assumption | apply State.updTel_only (hp := Foot.sub (by decide) hp) | apply State.assess_only (hp := Foot.sub (by decide) hp)
    | apply State.setEvt_only (hp := Foot.sub (by decide) hp) | apply Only.ite | split | (intro) | extract_lets

theorem State.judgeMetric_only {ps : Nat} {s0 : State} {s : State} (t : TelPkt) (xs : List Nat) (j : Nat) (hp : Foot 6488080 ps) (hk : Only ps s0 s)
    : Only ps s0 (State.judgeMetric s t xs j) := by
  unfold State.judgeMetric; with_reducible repeat' first
    | assumption | apply State.updTel_only (hp := Foot.sub (by decide) hp) | apply State.assess_only (hp := Foot.sub (by decide) hp)
    | apply State.setEvt_only (hp := Foot.sub (by decide) hp) | apply Only.ite | split | (intro) | extract_lets

theorem State.judgeFleet_only {ps : Nat} {s0 : State} {s : State} (t : TelPkt) (hp : Foot 6488080 ps) (hk : Only ps s0 s) : Only ps s0
    (State.judgeFleet s t) := by
  unfold State.judgeFleet; with_reducible repeat' first
    | assumption | apply State.subContent_only (hp := Foot.sub (by decide) hp) | apply forEach_only
    | apply State.judgeMetric_only (hp := Foot.sub (by decide) hp) | apply Only.ite | split | (intro) | extract_lets

theorem State.judgeJob_only {ps : Nat} {s0 : State} {s : State} (x : Nat) (t : TelPkt) (step : Nat) (attempt : Nat) (hp : Foot 6488080 ps) (hk : Only
    ps s0 s) : Only ps s0 (State.judgeJob s x t step attempt) := by
  unfold State.judgeJob; with_reducible repeat' first
    | assumption | apply State.subContent_only (hp := Foot.sub (by decide) hp) | apply State.judgeStraggler_only (hp := Foot.sub (by decide) hp)
    | apply Only.ite | split | (intro) | extract_lets

theorem State.judgeWaiting_only {ps : Nat} {s0 : State} {s : State} (domain : Nat) (step : Nat) (attempt : Nat) (hp : Foot 6488080 ps) (hk : Only ps
    s0 s) : Only ps s0 (State.judgeWaiting s domain step attempt) := by
  unfold State.judgeWaiting; with_reducible repeat' first
    | assumption | apply State.judgeJob_only (hp := Foot.sub (by decide) hp) | apply State.updTel_only (hp := Foot.sub (by decide) hp)
    | apply forEach_only | apply Only.ite | split | (intro) | extract_lets

theorem State.telResult_only {ps : Nat} {s0 : State} {s : State} (t : TelPkt) (step : Nat) (attempt : Nat) (hp : Foot 14876688 ps) (hk : Only ps s0
    s) : Only ps s0 (State.telResult s t step attempt) := by
  unfold State.telResult; with_reducible repeat' first
    | assumption | apply State.judgeJob_only (hp := Foot.sub (by decide) hp) | apply State.updTel_only (hp := Foot.sub (by decide) hp)
    | apply State.judgeFleet_only (hp := Foot.sub (by decide) hp) | apply forEach_only | apply State.emit_only (hp := Foot.sub (by decide) hp)
    | apply Only.ite | split | (intro) | extract_lets

theorem State.putTelSlot_only {ps : Nat} {s0 : State} {s : State} (q : TelSlot) (hp : Foot 4259840 ps) (hk : Only ps s0 s) : Only ps s0
    (State.putTelSlot s q) := by
  unfold State.putTelSlot; with_reducible repeat' first
    | assumption | apply State.bump_only (hp := Foot.sub (by decide) hp) | apply State.updTel_only (hp := Foot.sub (by decide) hp) | apply Only.ite
    | split | (intro) | extract_lets

theorem State.releaseTelSlots_only {ps : Nat} {s0 : State} {s : State} (f : TelSlot → Bool) (hp : Foot 4259840 ps) (hk : Only ps s0 s) : Only ps s0
    (State.releaseTelSlots s f) := by
  unfold State.releaseTelSlots; with_reducible repeat' first
    | assumption | apply State.bump_only (hp := Foot.sub (by decide) hp) | apply State.updTel_only (hp := Foot.sub (by decide) hp) | apply Only.ite
    | split | (intro) | extract_lets

theorem State.freeTelSlots_only {ps : Nat} {s0 : State} {s : State} (domain : Nat) (step : Nat) (hp : Foot 4259840 ps) (hk : Only ps s0 s) : Only ps
    s0 (State.freeTelSlots s domain step) := by
  unfold State.freeTelSlots; with_reducible repeat' first
    | assumption | apply State.releaseTelSlots_only (hp := Foot.sub (by decide) hp) | apply Only.ite | split | (intro) | extract_lets

theorem State.telSend_only {ps : Nat} {s0 : State} {s : State} (q : TelSlot) (parent : Nat) (hp : Foot 12648448 ps) (hk : Only ps s0 s) : Only ps s0
    (State.telSend s q parent) := by
  unfold State.telSend; with_reducible repeat' first
    | assumption | apply State.emit_only (hp := Foot.sub (by decide) hp) | apply State.putTelSlot_only (hp := Foot.sub (by decide) hp)
    | apply Only.ite | split | (intro) | extract_lets

theorem State.telFinal_only {ps : Nat} {s0 : State} {s : State} (q : TelSlot) (hp : Foot 14876688 ps) (hk : Only ps s0 s) : Only ps s0
    (State.telFinal s q) := by
  unfold State.telFinal; with_reducible repeat' first
    | assumption | apply State.telResult_only (hp := Foot.sub (by decide) hp) | apply State.putTelSlot_only (hp := Foot.sub (by decide) hp)
    | apply Only.ite | split | (intro) | extract_lets

theorem State.telAdvance_only {ps : Nat} {s0 : State} {s : State} (q : TelSlot) (hp : Foot 14876688 ps) (hk : Only ps s0 s) : Only ps s0
    (State.telAdvance s q) := by
  unfold State.telAdvance; with_reducible repeat' first
    | assumption | apply State.telFinal_only (hp := Foot.sub (by decide) hp) | apply State.telSend_only (hp := Foot.sub (by decide) hp)
    | apply Only.ite | split | (intro) | extract_lets

theorem State.telUpset_only {ps : Nat} {s0 : State} {s : State} (q : TelSlot) (hp : Foot 737869762948448344016 ps) (hk : Only ps s0 s) : Only ps s0
    (State.telUpset s q) := by
  unfold State.telUpset; with_reducible repeat' first
    | assumption | apply State.bump_only (hp := Foot.sub (by decide) hp) | apply State.countTransient_only (hp := Foot.sub (by decide) hp)
    | apply State.record_only (hp := Foot.sub (by decide) hp) | apply State.updTel_only (hp := Foot.sub (by decide) hp)
    | apply State.recover_only (hp := Foot.sub (by decide) hp) | apply State.putTelSlot_only (hp := Foot.sub (by decide) hp) | apply Only.ite
    | split | (intro) | extract_lets

theorem State.telFold_only {ps : Nat} {s0 : State} {s : State} (tree : Nat) (group : Nat) (key : Nat) (attempt : Nat) (src : Nat) (contrib : Nat)
    (entries : List Nat) (upset : Nat) (hp : Foot 737869762948448344016 ps) (hk : Only ps s0 s) : Only ps s0 (State.telFold s tree group key attempt
    src contrib entries upset) := by
  unfold State.telFold; with_reducible repeat' first
    | assumption | apply State.bump_only (hp := Foot.sub (by decide) hp) | apply State.telUpset_only (hp := Foot.sub (by decide) hp)
    | apply State.telAdvance_only (hp := Foot.sub (by decide) hp) | apply State.putTelSlot_only (hp := Foot.sub (by decide) hp) | apply Only.ite
    | split | (intro) | extract_lets

theorem State.contributeLateness_only {ps : Nat} {s0 : State} {s : State} (x : Nat) (hp : Foot 737869762948448344016 ps) (hk : Only ps s0 s) : Only
    ps s0 (State.contributeLateness s x) := by
  unfold State.contributeLateness; with_reducible repeat' first
    | assumption | apply State.telFold_only (hp := Foot.sub (by decide) hp) | apply Only.ite | split | (intro) | extract_lets

theorem State.leaveFirst_only {ps : Nat} {s0 : State} {s : State} (x : Nat) (hp : Foot 811656739243286550480 ps) (hk : Only ps s0 s) : Only ps s0
    (State.leaveFirst s x) := by
  unfold State.leaveFirst; with_reducible repeat' first
    | assumption | apply State.contributeLateness_only (hp := Foot.sub (by decide) hp) | apply State.updExec_only (hp := Foot.sub (by decide) hp)
    | apply Only.ite | split | (intro) | extract_lets

theorem State.ventRecord_only {ps : Nat} {s0 : State} {s : State} (b : Sub) (p : Nat) (seq : Nat) (k : Nat) (body : List Byte) (hp : Foot 12582912
    ps) (hk : Only ps s0 s) : Only ps s0 (State.ventRecord s b p seq k body) := by
  unfold State.ventRecord; with_reducible repeat' first
    | assumption | apply State.bump_only (hp := Foot.sub (by decide) hp) | apply forEach_only
    | apply State.emit_only (hp := Foot.sub (by decide) hp) | apply Only.ite | split | (intro) | extract_lets

theorem State.flushVent_only {ps : Nat} {s0 : State} {s : State} (hp : Foot 12648448 ps) (hk : Only ps s0 s) : Only ps s0 (State.flushVent s) := by
  unfold State.flushVent; with_reducible repeat' first
    | assumption | apply State.updTel_only (hp := Foot.sub (by decide) hp) | apply forEach_only
    | apply State.ventRecord_only (hp := Foot.sub (by decide) hp) | apply Only.ite | split | (intro) | extract_lets

theorem State.onJob_only {ps : Nat} {s0 : State} {s : State} (src : Nat) (epoch : Nat) (f : Nat → State → State) (hp : Foot 1180591647105691418688
    ps) (hk : Only ps s0 s) (hf : ∀ (x0 : Nat) (x1 : State), Only ps s0 x1 → Only ps s0 (f x0 x1)) : Only ps s0 (State.onJob s src epoch f) := by
  unfold State.onJob; with_reducible repeat' first
    | assumption | apply State.epochIn_only (hp := Foot.sub (by decide) hp) | apply hf | apply Only.ite | split | (intro) | extract_lets

theorem State.completeRing_only {ps : Nat} {s0 : State} {s : State} (n : Nat) (status : Nat) (result : Nat) (hp : Foot 8388640 ps) (hk : Only ps s0
    s) : Only ps s0 (State.completeRing s n status result) := by
  unfold State.completeRing; with_reducible repeat' first
    | assumption | apply State.complete_only (hp := Foot.sub (by decide) hp) | apply Only.ite | split | (intro) | extract_lets

theorem State.settleRepeats_only {ps : Nat} {s0 : State} {s : State} (x : Nat) (ran : Bool) (hp : Foot 737869762948448278480 ps) (hk : Only ps s0 s)
    : Only ps s0 (State.settleRepeats s x ran) := by
  unfold State.settleRepeats; with_reducible repeat' first
    | assumption | apply State.updRecov_only (hp := Foot.sub (by decide) hp) | apply forEach_only
    | apply State.settleRepeat_only (hp := Foot.sub (by decide) hp) | apply Only.ite | split | (intro) | extract_lets

theorem effStepConfirm_only {ps : Nat} {s0 : State} (h : Hdr) {s : State} (hp : Foot 1180591620717419693120 ps) (hk : Only ps s0 s) : Only ps s0
    (effStepConfirm h s) := by
  unfold effStepConfirm; with_reducible repeat' first
    | assumption | apply State.updCoord_only (hp := Foot.sub (by decide) hp) | apply State.tryCommit_only (hp := Foot.sub (by decide) hp)
    | apply Only.ite | split | (intro) | extract_lets

theorem effFaultReport_only {ps : Nat} {s0 : State} (h : Hdr) (f : FaultParam) {s : State} (hp : Foot 1180591796639303337040 ps) (hk : Only ps s0 s)
    : Only ps s0 (effFaultReport h f s) := by
  unfold effFaultReport; with_reducible repeat' first
    | assumption | apply State.holdStep_only (hp := Foot.sub (by decide) hp) | apply State.failAttempt_only (hp := Foot.sub (by decide) hp)
    | apply State.record_only (hp := Foot.sub (by decide) hp) | apply State.updCoord_only (hp := Foot.sub (by decide) hp) | apply Only.ite | split
    | (intro) | extract_lets

theorem State.dumpsDone_only {ps : Nat} {s0 : State} {s : State} (x : Nat) (n : Nat) (hp : Foot 1033450013692028671952 ps) (hk : Only ps s0 s) : Only
    ps s0 (State.dumpsDone s x n) := by
  unfold State.dumpsDone; with_reducible repeat' first
    | assumption | apply forEach_only
    | refine State.updCtx_only (a := 295147905179352825856) (Foot.sub (by decide) hp) (by with_unfolding_all (intro c q hq; cases q <;> first
    | (cases hq; done) | rfl)) ?_ | apply State.reportDump_only (hp := Foot.sub (by decide) hp)
    | apply State.capture_only (hp := Foot.sub (by decide) hp) | apply Only.ite | split | (intro) | extract_lets

theorem State.addRecord_only {ps : Nat} {s0 : State} {s : State} (x : Nat) (step : Nat) (l : Nat) (commitTick : Nat) (hp : Foot 7493989779948699712
    ps) (hk : Only ps s0 s) : Only ps s0 (State.addRecord s x step l commitTick) := by
  unfold State.addRecord; with_reducible repeat' first
    | assumption | apply State.bump_only (hp := Foot.sub (by decide) hp)
    | refine State.updCtx_only (a := 7493989779944505344) (Foot.sub (by decide) hp) (by with_unfolding_all (intro c q hq; cases q <;> first
    | (cases hq; done) | rfl)) ?_ | apply State.when_only | apply Only.ite | split | (intro) | extract_lets

theorem State.boundaryRings_only {ps : Nat} {s0 : State} {s : State} (x : Nat) (n : Nat) (hp : Foot 1235931852938548348000 ps) (hk : Only ps s0 s) :
    Only ps s0 (State.boundaryRings s x n) := by
  unfold State.boundaryRings; with_reducible repeat' first
    | assumption | apply State.completeRing_only (hp := Foot.sub (by decide) hp) | apply forEach_only
    | refine State.updCtx_only (a := 55340232221128654848) (Foot.sub (by decide) hp) (by with_unfolding_all (intro c q hq; cases q <;> first
    | (cases hq; done) | rfl)) ?_ | apply State.drainJob_only (hp := Foot.sub (by decide) hp) | apply Only.ite | split | (intro) | extract_lets

theorem effCommit_only {ps : Nat} {s0 : State} (h : Hdr) (launch : Nat) (hold : Bool) (epoch : Nat) {s : State} (hp : Foot 2350806692811024850942 ps)
    (hk : Only ps s0 s) : Only ps s0 (effCommit h launch hold epoch s) := by
  unfold effCommit; with_reducible repeat' first
    | assumption | apply State.onJob_only (hp := Foot.sub (by decide) hp) | apply State.closeStepRecords_only (hp := Foot.sub (by decide) hp)
    | apply State.ageDirected_only (hp := Foot.sub (by decide) hp) | apply State.judgeWaiting_only (hp := Foot.sub (by decide) hp)
    | apply State.commitSlots_only (hp := Foot.sub (by decide) hp) | apply State.setLaunch_only (hp := Foot.sub (by decide) hp)
    | apply State.boundary_only (hp := Foot.sub (by decide) hp) | apply State.powerCommit_only (hp := Foot.sub (by decide) hp)
    | apply State.gate_only (hp := Foot.sub (by decide) hp) | apply State.plan_only (hp := Foot.sub (by decide) hp)
    | apply State.freeTelSlots_only (hp := Foot.sub (by decide) hp) | apply State.dumpsDone_only (hp := Foot.sub (by decide) hp)
    | refine State.updCtx_only (a := 74327126779440922624) (Foot.sub (by decide) hp) (by with_unfolding_all (intro c q hq; cases q <;> first
    | (cases hq; done) | rfl)) ?_ | apply State.boundaryRings_only (hp := Foot.sub (by decide) hp)
    | apply State.addRecord_only (hp := Foot.sub (by decide) hp) | apply Only.ite | split | (intro) | extract_lets

theorem effReexec_only {ps : Nat} {s0 : State} (h : Hdr) (launch : Nat) (epoch : Nat) {s : State} (hp : Foot 2287970500480819683294 ps) (hk : Only ps
    s0 s) : Only ps s0 (effReexec h launch epoch s) := by
  unfold effReexec; with_reducible repeat' first
    | assumption | apply State.onJob_only (hp := Foot.sub (by decide) hp) | apply State.bump_only (hp := Foot.sub (by decide) hp)
    | apply State.setLaunch_only (hp := Foot.sub (by decide) hp) | apply State.boundary_only (hp := Foot.sub (by decide) hp)
    | apply State.reloadImages_only (hp := Foot.sub (by decide) hp) | apply State.record_only (hp := Foot.sub (by decide) hp)
    | apply State.discard_only (hp := Foot.sub (by decide) hp) | apply State.settleRepeats_only (hp := Foot.sub (by decide) hp)
    | refine State.updCtx_only (a := 313000174102249472) (Foot.sub (by decide) hp) (by with_unfolding_all (intro c q hq; cases q <;> first
    | (cases hq; done) | rfl)) ?_ | apply Only.ite | split | (intro) | extract_lets

theorem effModuleLost_only {ps : Nat} {s0 : State} (h : Hdr) (lost : Nat) (spare : Nat) (epoch : Nat) {s : State} (hp : Foot 2361183241430594181104
    ps) (hk : Only ps s0 s) : Only ps s0 (effModuleLost h lost spare epoch s) := by
  unfold effModuleLost; with_reducible repeat' first
    | assumption | apply State.emptyCtx_only (hp := Foot.sub (by decide) hp) | apply State.onJob_only (hp := Foot.sub (by decide) hp)
    | apply State.updGey_only (hp := Foot.sub (by decide) hp) | apply State.bind_only (hp := Foot.sub (by decide) hp)
    | apply State.record_only (hp := Foot.sub (by decide) hp) | apply State.discard_only (hp := Foot.sub (by decide) hp)
    | apply State.noticeReady_only (hp := Foot.sub (by decide) hp) | apply State.freshBool_only (hp := Foot.sub (by decide) hp)
    | refine State.updCtx_only (a := 590330044757043052544) (Foot.sub (by decide) hp) (by with_unfolding_all (intro c q hq; cases q <;> first
    | (cases hq; done) | rfl)) ?_ | apply Only.ite | split | (intro) | extract_lets

theorem State.armedFrom_only {ps : Nat} {s0 : State} {s : State} (src : Nat) (digest : Nat) (hp : Foot 1180591796639286559824 ps) (hk : Only ps s0 s)
    : Only ps s0 (State.armedFrom s src digest) := by
  unfold State.armedFrom; with_reducible repeat' first
    | assumption | apply State.tryStart_only (hp := Foot.sub (by decide) hp) | apply State.updFab_only (hp := Foot.sub (by decide) hp)
    | apply State.updCoord_only (hp := Foot.sub (by decide) hp) | apply forEach_only | apply State.toSome_only (hp := Foot.sub (by decide) hp)
    | apply Only.ite | split | (intro) | extract_lets

theorem effArmed_only {ps : Nat} {s0 : State} (h : Hdr) (digest : Nat) {s : State} (hp : Foot 1180591796639286559824 ps) (hk : Only ps s0 s) : Only
    ps s0 (effArmed h digest s) := by
  unfold effArmed; with_reducible repeat' first
    | assumption | apply State.updFab_only (hp := Foot.sub (by decide) hp) | apply forEach_only
    | apply State.armedFrom_only (hp := Foot.sub (by decide) hp) | apply Only.ite | split | (intro) | extract_lets

theorem effStart_only {ps : Nat} {s0 : State} (h : Hdr) (launch : Nat) (policy : Nat) (epoch : Nat) {s : State} (hp : Foot 2000172755770653695966 ps)
    (hk : Only ps s0 s) : Only ps s0 (effStart h launch policy epoch s) := by
  unfold effStart; with_reducible repeat' first
    | assumption | apply State.onJob_only (hp := Foot.sub (by decide) hp) | apply State.fresh_only (hp := Foot.sub (by decide) hp)
    | apply State.setLaunch_only (hp := Foot.sub (by decide) hp) | apply State.boundary_only (hp := Foot.sub (by decide) hp)
    | apply State.plan_only (hp := Foot.sub (by decide) hp)
    | refine State.updCtx_only (a := 313286051420438528) (Foot.sub (by decide) hp) (by with_unfolding_all (intro c q hq; cases q <;> first
    | (cases hq; done) | rfl)) ?_ | apply State.addRecord_only (hp := Foot.sub (by decide) hp) | apply Only.ite | split | (intro) | extract_lets

theorem effPmap_only {ps : Nat} {s0 : State} (h : Hdr) (part : Nat) (bitmap : Nat) (epoch : Nat) {s : State} (hp : Foot 1180591893396296040512 ps)
    (hk : Only ps s0 s) : Only ps s0 (effPmap h part bitmap epoch s) := by
  unfold effPmap; with_reducible repeat' first
    | assumption | apply State.onJob_only (hp := Foot.sub (by decide) hp)
    | refine State.updCtx_only (a := 246290604621824) (Foot.sub (by decide) hp) (by with_unfolding_all (intro c q hq; cases q <;> first
    | (cases hq; done) | rfl)) ?_ | apply Only.ite | apply foldl_onlyS | apply foldl_only1 | apply foldl_only2 | split | (intro) | extract_lets

theorem effResume_only {ps : Nat} {s0 : State} (h : Hdr) (launch : Nat) (epoch : Nat) {s : State} (hp : Foot 1992822595305761824734 ps) (hk : Only ps
    s0 s) : Only ps s0 (effResume h launch epoch s) := by
  unfold effResume; with_reducible repeat' first
    | assumption | apply State.onJob_only (hp := Foot.sub (by decide) hp) | apply State.setLaunch_only (hp := Foot.sub (by decide) hp)
    | apply State.boundary_only (hp := Foot.sub (by decide) hp) | apply State.plan_only (hp := Foot.sub (by decide) hp)
    | refine State.updCtx_only (a := 529172960511000576) (Foot.sub (by decide) hp) (by with_unfolding_all (intro c q hq; cases q <;> first
    | (cases hq; done) | rfl)) ?_ | apply Only.ite | split | (intro) | extract_lets

theorem effHostLoss_only {ps : Nat} {s0 : State} (h : Hdr) {s : State} (hp : Foot 1180591620717411303488 ps) (hk : Only ps s0 s) : Only ps s0
    (effHostLoss h s) := by
  unfold effHostLoss; with_reducible repeat' first
    | assumption | apply State.updCoord_only (hp := Foot.sub (by decide) hp) | apply forEach_only | apply Only.ite | split | (intro) | extract_lets

theorem effStepHold_only {ps : Nat} {s0 : State} (h : Hdr) (reason : Nat) (epoch : Nat) {s : State} (hp : Foot 2342986473533072629758 ps) (hk : Only
    ps s0 s) : Only ps s0 (effStepHold h reason epoch s) := by
  unfold effStepHold; with_reducible repeat' first
    | assumption | apply State.onJob_only (hp := Foot.sub (by decide) hp) | apply State.bump_only (hp := Foot.sub (by decide) hp)
    | apply State.boundary_only (hp := Foot.sub (by decide) hp) | apply State.record_only (hp := Foot.sub (by decide) hp)
    | apply State.discard_only (hp := Foot.sub (by decide) hp) | apply State.gate_only (hp := Foot.sub (by decide) hp)
    | apply State.settleRepeats_only (hp := Foot.sub (by decide) hp)
    | refine State.updCtx_only (a := 33777001500246016) (Foot.sub (by decide) hp) (by with_unfolding_all (intro c q hq; cases q <;> first
    | (cases hq; done) | rfl)) ?_ | apply State.boundaryRings_only (hp := Foot.sub (by decide) hp) | apply Only.ite | split | (intro) | extract_lets

theorem effDrain_only {ps : Nat} {s0 : State} (h : Hdr) (td : Nat) (epoch : Nat) {s : State} (hp : Foot 1189815019146841161792 ps) (hk : Only ps s0
    s) : Only ps s0 (effDrain h td epoch s) := by
  unfold effDrain; with_reducible repeat' first
    | assumption | apply State.onJob_only (hp := Foot.sub (by decide) hp)
    | refine State.updCtx_only (a := 9223372041149743104) (Foot.sub (by decide) hp) (by with_unfolding_all (intro c q hq; cases q <;> first
    | (cases hq; done) | rfl)) ?_ | apply Only.ite | split | (intro) | extract_lets

theorem effDrained_only {ps : Nat} {s0 : State} (h : Hdr) {s : State} (hp : Foot 1180591620717411303488 ps) (hk : Only ps s0 s) : Only ps s0
    (effDrained h s) := by
  unfold effDrained; with_reducible repeat' first
    | assumption | apply State.updCoord_only (hp := Foot.sub (by decide) hp) | apply Only.ite | split | (intro) | extract_lets

theorem State.echo_only {ps : Nat} {s0 : State} {s : State} (dst : Nat) (vc : Nat) (hp : Foot 1024 ps) (hk : Only ps s0 s) : Only ps s0 (State.echo s
    dst vc) := by
  unfold State.echo; with_reducible repeat' first
    | assumption | apply State.updFab_only (hp := Foot.sub (by decide) hp) | apply Only.ite | apply foldl_onlyS | apply foldl_only1
    | apply foldl_only2 | split | (intro) | extract_lets

theorem State.echoAll_only {ps : Nat} {s0 : State} {s : State} (src : Nat) (hp : Foot 1024 ps) (hk : Only ps s0 s) : Only ps s0 (State.echoAll s src)
    := by
  unfold State.echoAll; with_reducible repeat' first
    | assumption | apply State.echo_only (hp := Foot.sub (by decide) hp) | apply forEach_only | apply Only.ite | split | (intro) | extract_lets

theorem State.dataAck_only {ps : Nat} {s0 : State} {s : State} (src : Nat) (seq : Nat) (hp : Foot 590295810358714040416 ps) (hk : Only ps s0 s) :
    Only ps s0 (State.dataAck s src seq) := by
  unfold State.dataAck; with_reducible repeat' first
    | assumption | apply State.updGey_only (hp := Foot.sub (by decide) hp) | apply State.completeRing_only (hp := Foot.sub (by decide) hp)
    | apply forEach_only | apply Only.ite | split | (intro) | extract_lets

theorem State.beatAcked_only {ps : Nat} {s0 : State} {s : State} (src : Nat) (seq : Nat) (hp : Foot 1180591796639287608400 ps) (hk : Only ps s0 s) :
    Only ps s0 (State.beatAcked s src seq) := by
  unfold State.beatAcked; with_reducible repeat' first
    | assumption | apply State.updPins_only (hp := Foot.sub (by decide) hp) | apply State.coordAct_only (hp := Foot.sub (by decide) hp)
    | apply State.updCoord_only (hp := Foot.sub (by decide) hp) | apply forEach_only | apply Only.ite | split | (intro) | extract_lets

theorem effAck_only {ps : Nat} {s0 : State} (h : Hdr) (seqAcked : Nat) {s : State} (hp : Foot 1770887606997993260144 ps) (hk : Only ps s0 s) : Only
    ps s0 (effAck h seqAcked s) := by
  unfold effAck; with_reducible repeat' first
    | assumption | apply State.echoAll_only (hp := Foot.sub (by decide) hp) | apply State.updFab_only (hp := Foot.sub (by decide) hp)
    | apply State.beatAcked_only (hp := Foot.sub (by decide) hp) | apply State.dataAck_only (hp := Foot.sub (by decide) hp) | apply State.when_only
    | apply Only.ite | split | (intro) | extract_lets

theorem effCoordBeat_only {ps : Nat} {s0 : State} (h : Hdr) (leaseEnd : Nat) (epoch : Nat) {s : State} (hp : Foot 1180591647105691426880 ps) (hk :
    Only ps s0 s) : Only ps s0 (effCoordBeat h leaseEnd epoch s) := by
  unfold effCoordBeat; with_reducible repeat' first
    | assumption | apply State.onJob_only (hp := Foot.sub (by decide) hp) | apply State.updCal_only (hp := Foot.sub (by decide) hp)
    | apply State.updCoord_only (hp := Foot.sub (by decide) hp) | apply State.when_only | apply Only.ite | split | (intro) | extract_lets

theorem effTakeover_only {ps : Nat} {s0 : State} (h : Hdr) (newLocus : Nat) (epoch : Nat) {s : State} (hp : Foot 1180591647105699808320 ps) (hk :
    Only ps s0 s) : Only ps s0 (effTakeover h newLocus epoch s) := by
  unfold effTakeover; with_reducible repeat' first
    | assumption | apply State.sendCtrl_only (hp := Foot.sub (by decide) hp) | apply State.onJob_only (hp := Foot.sub (by decide) hp)
    | refine State.updCtx_only (a := 17592186044416) (Foot.sub (by decide) hp) (by with_unfolding_all (intro c q hq; cases q <;> first
    | (cases hq; done) | rfl)) ?_ | apply Only.ite | split | (intro) | extract_lets

theorem effTakeoverState_only {ps : Nat} {s0 : State} (h : Hdr) (t : TakeState) {s : State} (hp : Foot 1180591620717419693120 ps) (hk : Only ps s0 s)
    : Only ps s0 (effTakeoverState h t s) := by
  unfold effTakeoverState; with_reducible repeat' first
    | assumption | apply State.updCoord_only (hp := Foot.sub (by decide) hp) | apply State.settleTakeover_only (hp := Foot.sub (by decide) hp)
    | apply Only.ite | split | (intro) | extract_lets

theorem effProbe_only {ps : Nat} {s0 : State} (h : Hdr) (epoch : Nat) {s : State} (hp : Foot 1180591647105699808320 ps) (hk : Only ps s0 s) : Only ps
    s0 (effProbe h epoch s) := by
  unfold effProbe; with_reducible repeat' first
    | assumption | apply State.sendCtrl_only (hp := Foot.sub (by decide) hp) | apply State.onJob_only (hp := Foot.sub (by decide) hp)
    | apply Only.ite | split | (intro) | extract_lets

theorem effProbeReply_only {ps : Nat} {s0 : State} (h : Hdr) (status : Nat) (level : Nat) {s : State} (hp : Foot 1180591796639301108800 ps) (hk :
    Only ps s0 s) : Only ps s0 (effProbeReply h status level s) := by
  unfold effProbeReply; with_reducible repeat' first
    | assumption | apply State.updCoord_only (hp := Foot.sub (by decide) hp) | apply State.declareLost_only (hp := Foot.sub (by decide) hp)
    | apply State.tryCommit_only (hp := Foot.sub (by decide) hp) | apply Only.ite | split | (intro) | extract_lets

theorem effSelfLost_only {ps : Nat} {s0 : State} (h : Hdr) (reason : Nat) {s : State} (hp : Foot 1180591796639303337040 ps) (hk : Only ps s0 s) :
    Only ps s0 (effSelfLost h reason s) := by
  unfold effSelfLost; with_reducible repeat' first
    | assumption | apply State.record_only (hp := Foot.sub (by decide) hp) | apply State.declareLost_only (hp := Foot.sub (by decide) hp)
    | apply forEach_only | apply Only.ite | split | (intro) | extract_lets

theorem effRecoveryNotice_only {ps : Nat} {s0 : State} (h : Hdr) (ready : Nat) {s : State} (hp : Foot 1180591620717411303488 ps) (hk : Only ps s0 s)
    : Only ps s0 (effRecoveryNotice h ready s) := by
  unfold effRecoveryNotice; with_reducible repeat' first
    | assumption | apply State.updCoord_only (hp := Foot.sub (by decide) hp) | apply Only.ite | split | (intro) | extract_lets

theorem State.geySlots_only {ps : Nat} {s0 : State} {s : State} (p : Nat) (n : Nat) (hp : Foot 4194304 ps) (hk : Only ps s0 s) : Only ps s0
    (State.geySlots s p n) := by
  unfold State.geySlots; with_reducible repeat' first
    | assumption | apply State.bump_only (hp := Foot.sub (by decide) hp) | apply Only.ite | split | (intro) | extract_lets

theorem State.sendCopy_only {ps : Nat} {s0 : State} {s : State} (x : Nat) (dst : Nat) (step : Nat) (attempt : Nat) (blocks : List (Nat × Nat × Nat ×
    Nat × List Byte)) (hp : Foot 288230376181072960 ps) (hk : Only ps s0 s) : Only ps s0 (State.sendCopy s x dst step attempt blocks).1 := by
  unfold State.sendCopy; with_reducible repeat' first
    | assumption | apply State.sendBlock_only (hp := Foot.sub (by decide) hp) | apply State.geySlots_only (hp := Foot.sub (by decide) hp)
    | apply Only.ite | apply foldl_onlyS | apply foldl_only1 | apply foldl_only2 | split | (intro) | extract_lets

theorem State.seed_only {ps : Nat} {s0 : State} {s : State} (x : Nat) (keep : Nat → Bool) (hp : Foot 590584040734886724672 ps) (hk : Only ps s0 s) :
    Only ps s0 (State.seed s x keep) := by
  unfold State.seed; with_reducible repeat' first
    | assumption | apply State.updGey_only (hp := Foot.sub (by decide) hp) | apply State.sendCopy_only (hp := Foot.sub (by decide) hp)
    | apply Only.ite | split | (intro) | extract_lets

theorem State.stream_only {ps : Nat} {s0 : State} {s : State} (x : Nat) (tensors : List Tensor) (hp : Foot 590584040734886724672 ps) (hk : Only ps s0
    s) : Only ps s0 (State.stream s x tensors) := by
  unfold State.stream; with_reducible repeat' first
    | assumption | apply State.updGey_only (hp := Foot.sub (by decide) hp) | apply State.bump_only (hp := Foot.sub (by decide) hp)
    | apply State.sendCopy_only (hp := Foot.sub (by decide) hp) | apply Only.ite | split | (intro) | extract_lets

theorem State.captureImages_only {ps : Nat} {s0 : State} {s : State} (x : Nat) (hp : Foot 664371017029724931136 ps) (hk : Only ps s0 s) : Only ps s0
    (State.captureImages s x) := by
  unfold State.captureImages; with_reducible repeat' first
    | assumption | apply State.updGey_only (hp := Foot.sub (by decide) hp) | apply State.bump_only (hp := Foot.sub (by decide) hp)
    | apply State.sendCopy_only (hp := Foot.sub (by decide) hp)
    | refine State.updCtx_only (a := 664082786653543858176) (Foot.sub (by decide) hp) (by with_unfolding_all (intro c q hq; cases q <;> first
    | (cases hq; done) | rfl)) ?_ | apply Only.ite | apply foldl_onlyS | apply foldl_only1 | apply foldl_only2 | split | (intro) | extract_lets

theorem State.shardSend_only {ps : Nat} {s0 : State} {s : State} (h : Nat) (v : Xfer) (type : Nat) (offset : Nat) (status : Nat) (payload : List
    Byte) (hp : Foot 8388608 ps) (hk : Only ps s0 s) : Only ps s0 (State.shardSend s h v type offset status payload) := by
  unfold State.shardSend; with_reducible repeat' first
    | assumption | apply State.emit_only (hp := Foot.sub (by decide) hp) | apply Only.ite | split | (intro) | extract_lets

theorem State.updXfer_only {ps : Nat} {s0 : State} {s : State} (h : Nat) (f : Xfer → Xfer) (hp : Foot 32768 ps) (hk : Only ps s0 s) : Only ps s0
    (State.updXfer s h f) := by
  unfold State.updXfer; with_reducible repeat' first
    | assumption | apply State.updGeyser_only (hp := Foot.sub (by decide) hp) | apply Only.ite | split | (intro) | extract_lets

theorem State.pump_only {ps : Nat} {s0 : State} (a : Nat) {a1 : State} (a2 : Nat) (hp : Foot 12615680 ps) (hk : Only ps s0 a1) : Only ps s0
    (State.pump a a1 a2) := by
  induction a generalizing a1 a2 with
  | zero => unfold State.pump; with_reducible repeat' first
      | assumption | apply State.bump_only (hp := Foot.sub (by decide) hp) | apply State.updXfer_only (hp := Foot.sub (by decide) hp)
      | apply State.shardSend_only (hp := Foot.sub (by decide) hp) | apply Only.ite | split | (intro) | extract_lets
  | succ n ih => unfold State.pump; with_reducible repeat' first
      | apply ih | assumption | apply State.bump_only (hp := Foot.sub (by decide) hp) | apply State.updXfer_only (hp := Foot.sub (by decide) hp)
      | apply State.shardSend_only (hp := Foot.sub (by decide) hp) | apply Only.ite | split | (intro) | extract_lets

theorem State.shardOpen_only {ps : Nat} {s0 : State} {s : State} (h : Nat) (v : Xfer) (hp : Foot 8388608 ps) (hk : Only ps s0 s) : Only ps s0
    (State.shardOpen s h v) := by
  unfold State.shardOpen; with_reducible repeat' first
    | assumption | apply State.shardSend_only (hp := Foot.sub (by decide) hp) | apply Only.ite | split | (intro) | extract_lets

theorem State.startXfer_only {ps : Nat} {s0 : State} {s : State} (v : Xfer) (hp : Foot 8421376 ps) (hk : Only ps s0 s) : Only ps s0 (State.startXfer
    s v) := by
  unfold State.startXfer; with_reducible repeat' first
    | assumption | apply State.updGeyser_only (hp := Foot.sub (by decide) hp) | apply State.shardOpen_only (hp := Foot.sub (by decide) hp)
    | apply Only.ite | split | (intro) | extract_lets

theorem State.endXfer_only {ps : Nat} {s0 : State} {s : State} (h : Nat) (hp : Foot 32768 ps) (hk : Only ps s0 s) : Only ps s0 (State.endXfer s h) :=
    by
  unfold State.endXfer; with_reducible repeat' first
    | assumption | apply State.updGeyser_only (hp := Foot.sub (by decide) hp) | apply Only.ite | split | (intro) | extract_lets

theorem State.feedCkpt_only {ps : Nat} {s0 : State} (a : Nat) {a1 : State} (a2 : Nat) (hp : Foot 2361183241430594748415 ps) (hk : Only ps s0 a1) :
    Only ps s0 (State.feedCkpt a a1 a2) := by
  induction a generalizing a1 a2 with
  | zero => unfold State.feedCkpt; with_reducible repeat' first
      | assumption | apply State.geySlots_only (hp := Foot.sub (by decide) hp) | apply State.updGey_only (hp := Foot.sub (by decide) hp)
      | apply State.startXfer_only (hp := Foot.sub (by decide) hp) | apply step_only (hp := Foot.sub (by decide) hp) | apply Only.ite | split
      | (intro) | extract_lets
  | succ n ih => unfold State.feedCkpt; with_reducible repeat' first
      | apply ih | assumption | apply State.geySlots_only (hp := Foot.sub (by decide) hp) | apply State.updGey_only (hp := Foot.sub (by decide) hp)
      | apply State.startXfer_only (hp := Foot.sub (by decide) hp) | apply step_only (hp := Foot.sub (by decide) hp) | apply Only.ite | split
      | (intro) | extract_lets

theorem State.moveXfer_only {ps : Nat} {s0 : State} {s : State} (h : Nat) (v : Xfer) (g : Nat) (hp : Foot 590295810358714073152 ps) (hk : Only ps s0
    s) : Only ps s0 (State.moveXfer s h v g) := by
  unfold State.moveXfer; with_reducible repeat' first
    | assumption | apply State.startXfer_only (hp := Foot.sub (by decide) hp) | apply State.updGey_only (hp := Foot.sub (by decide) hp)
    | apply State.endXfer_only (hp := Foot.sub (by decide) hp) | apply Only.ite | split | (intro) | extract_lets

theorem State.ckptEnd_only {ps : Nat} {s0 : State} {s : State} (x : Nat) (step : Nat) (status : Nat) (hp : Foot 590295810358720496720 ps) (hk : Only
    ps s0 s) : Only ps s0 (State.ckptEnd s x step status) := by
  unfold State.ckptEnd; with_reducible repeat' first
    | assumption | apply State.sendCtrl_only (hp := Foot.sub (by decide) hp) | apply State.updGey_only (hp := Foot.sub (by decide) hp)
    | apply State.bump_only (hp := Foot.sub (by decide) hp) | apply State.updGeyser_only (hp := Foot.sub (by decide) hp)
    | apply State.setEvt_only (hp := Foot.sub (by decide) hp) | apply Only.ite | split | (intro) | extract_lets

theorem State.restoreEnd_only {ps : Nat} {s0 : State} {s : State} (x : Nat) (status : Nat) (sum : Nat) (hp : Foot 590295810358714074176 ps) (hk :
    Only ps s0 s) : Only ps s0 (State.restoreEnd s x status sum) := by
  unfold State.restoreEnd; with_reducible repeat' first
    | assumption | apply State.sendCtrl_only (hp := Foot.sub (by decide) hp) | apply State.updGey_only (hp := Foot.sub (by decide) hp)
    | apply State.updGeyser_only (hp := Foot.sub (by decide) hp) | apply Only.ite | split | (intro) | extract_lets

theorem State.feedRestore_only {ps : Nat} {s0 : State} (a : Nat) {a1 : State} (a2 : Nat) (hp : Foot 2361183241430594748415 ps) (hk : Only ps s0 a1) :
    Only ps s0 (State.feedRestore a a1 a2) := by
  induction a generalizing a1 a2 with
  | zero => unfold State.feedRestore; with_reducible repeat' first
      | assumption | apply State.updGey_only (hp := Foot.sub (by decide) hp) | apply State.startXfer_only (hp := Foot.sub (by decide) hp)
      | apply step_only (hp := Foot.sub (by decide) hp) | apply Only.ite | split | (intro) | extract_lets
  | succ n ih => unfold State.feedRestore; with_reducible repeat' first
      | apply ih | assumption | apply State.updGey_only (hp := Foot.sub (by decide) hp)
      | apply State.startXfer_only (hp := Foot.sub (by decide) hp) | apply step_only (hp := Foot.sub (by decide) hp) | apply Only.ite | split
      | (intro) | extract_lets

theorem State.domainDrop_only {ps : Nat} {s0 : State} {s : State} (h : Hdr) (hp : Foot 6422544 ps) (hk : Only ps s0 s) : Only ps s0 (State.domainDrop
    s h) := by
  unfold State.domainDrop; with_reducible repeat' first
    | assumption | apply State.bump_only (hp := Foot.sub (by decide) hp) | apply State.record_only (hp := Foot.sub (by decide) hp) | apply Only.ite
    | split | (intro) | extract_lets

theorem State.marked_only {ps : Nat} {s0 : State} {s : State} (h : Hdr) (vc : Nat) (hp : Foot 8389632 ps) (hk : Only ps s0 s) : Only ps s0
    (State.marked s h vc) := by
  unfold State.marked; with_reducible repeat' first
    | assumption | apply State.updFab_only (hp := Foot.sub (by decide) hp) | apply State.sendResp_only (hp := Foot.sub (by decide) hp)
    | apply Only.ite | split | (intro) | extract_lets

theorem State.putElems_only {ps : Nat} {s0 : State} {s : State} (x : Nat) (t : Tensor) (opId : Nat) (layer : Nat) (els : List (Nat × Nat)) (hp : Foot
    738302108512675846096 ps) (hk : Only ps s0 s) : Only ps s0 (State.putElems s x t opId layer els) := by
  unfold State.putElems; with_reducible repeat' first
    | assumption | apply State.writeBlock_only (hp := Foot.sub (by decide) hp) | apply State.readBlock_only (hp := Foot.sub (by decide) hp)
    | apply forEach_only | apply Only.ite | apply foldl_onlyS | apply foldl_only1 | apply foldl_only2 | split | (intro) | extract_lets

theorem State.putSlot_only {ps : Nat} {s0 : State} {s : State} (q : SqSlot) (hp : Foot 1024 ps) (hk : Only ps s0 s) : Only ps s0 (State.putSlot s q)
    := by
  unfold State.putSlot; with_reducible repeat' first
    | assumption | apply State.updFab_only (hp := Foot.sub (by decide) hp) | apply Only.ite | split | (intro) | extract_lets

theorem State.dropSlot_only {ps : Nat} {s0 : State} {s : State} (q : SqSlot) (hp : Foot 1024 ps) (hk : Only ps s0 s) : Only ps s0 (State.dropSlot s
    q) := by
  unfold State.dropSlot; with_reducible repeat' first
    | assumption | apply State.updFab_only (hp := Foot.sub (by decide) hp) | apply Only.ite | split | (intro) | extract_lets

theorem State.reportSquare_only {ps : Nat} {s0 : State} {s : State} (x : Nat) (sq : Nat) (f : FaultParam) (hp : Foot 738013878136524134352 ps) (hk :
    Only ps s0 s) : Only ps s0 (State.reportSquare s x sq f) := by
  unfold State.reportSquare; with_reducible repeat' first
    | assumption | apply State.updRecov_only (hp := Foot.sub (by decide) hp) | apply State.updFab_only (hp := Foot.sub (by decide) hp)
    | apply State.report_only (hp := Foot.sub (by decide) hp) | apply State.recover_only (hp := Foot.sub (by decide) hp) | apply Only.ite | split
    | (intro) | extract_lets

theorem State.resultBlock_only {ps : Nat} {s0 : State} {s : State} (x : Nat) (d : Collective) (block : Nat) (form : Nat) (anchor : Int) (entries :
    List Nat) (nibbles : List Nat) (mark : Bool) (hp : Foot 812089084807514052560 ps) (hk : Only ps s0 s) : Only ps s0 (State.resultBlock s x d block
    form anchor entries nibbles mark) := by
  unfold State.resultBlock; with_reducible repeat' first
    | assumption | apply State.putElems_only (hp := Foot.sub (by decide) hp) | apply State.updExec_only (hp := Foot.sub (by decide) hp)
    | apply forEach_only | apply State.emit_only (hp := Foot.sub (by decide) hp) | apply Only.ite | apply foldl_onlyS | apply foldl_only1
    | apply foldl_only2 | split | (intro) | extract_lets

theorem State.sendSlot_only {ps : Nat} {s0 : State} {s : State} (x : Nat) (d : Collective) (q : SqSlot) (hp : Foot 812089084807514118096 ps) (hk :
    Only ps s0 s) : Only ps s0 (State.sendSlot s x d q) := by
  unfold State.sendSlot; with_reducible repeat' first
    | assumption | apply State.reportSquare_only (hp := Foot.sub (by decide) hp) | apply State.resultBlock_only (hp := Foot.sub (by decide) hp)
    | apply State.leaveFirst_only (hp := Foot.sub (by decide) hp) | apply State.updExec_only (hp := Foot.sub (by decide) hp)
    | apply State.dropSlot_only (hp := Foot.sub (by decide) hp) | apply State.meter_only (hp := Foot.sub (by decide) hp)
    | apply State.emit_only (hp := Foot.sub (by decide) hp) | apply Only.ite | split | (intro) | extract_lets

theorem State.settle_only {ps : Nat} {s0 : State} (a : Nat) {a1 : State} (a2 : Nat) (hp : Foot 2361183241430594748415 ps) (hk : Only ps s0 a1) : Only
    ps s0 (State.settle a a1 a2) := by
  induction a generalizing a1 a2 with
  | zero => unfold State.settle; with_reducible repeat' first
      | assumption | apply State.sendSlot_only (hp := Foot.sub (by decide) hp) | apply step_only (hp := Foot.sub (by decide) hp) | apply Only.ite
      | split | (intro) | extract_lets
  | succ n ih => unfold State.settle; with_reducible repeat' first
      | apply ih | assumption | apply State.sendSlot_only (hp := Foot.sub (by decide) hp) | apply step_only (hp := Foot.sub (by decide) hp)
      | apply Only.ite | split | (intro) | extract_lets

theorem State.settleSlots_only {ps : Nat} {s0 : State} {s : State} (x : Nat) (hp : Foot 2361183241430594748415 ps) (hk : Only ps s0 s) : Only ps s0
    (State.settleSlots s x) := by
  unfold State.settleSlots; with_reducible repeat' first
    | assumption | apply State.settle_only (hp := Foot.sub (by decide) hp) | apply Only.ite
    | apply State.settle_only (hp := Foot.sub (by decide) hp) | split | (intro) | extract_lets

theorem State.squareViolation_only {ps : Nat} {s0 : State} {s : State} (x : Nat) (d : Collective) (block : Nat) (bound : Int) (anchor : Int) (hp :
    Foot 811800854431362340816 ps) (hk : Only ps s0 s) : Only ps s0 (State.squareViolation s x d block bound anchor) := by
  unfold State.squareViolation; with_reducible repeat' first
    | assumption | apply State.reportSquare_only (hp := Foot.sub (by decide) hp) | apply State.updExec_only (hp := Foot.sub (by decide) hp)
    | apply Only.ite | split | (intro) | extract_lets

theorem State.foldBlock_only {ps : Nat} {s0 : State} {s : State} (x : Nat) (d : Collective) (r : RedPkt) (src : Nat) (j : Nat) (hp : Foot
    811800854431362340816 ps) (hk : Only ps s0 s) : Only ps s0 (State.foldBlock s x d r src j) := by
  unfold State.foldBlock; with_reducible repeat' first
    | assumption | apply State.bump_only (hp := Foot.sub (by decide) hp) | apply State.putSlot_only (hp := Foot.sub (by decide) hp)
    | apply State.squareViolation_only (hp := Foot.sub (by decide) hp) | apply Only.ite | split | (intro) | extract_lets

theorem State.redGuard_only {ps : Nat} {s0 : State} {s : State} (h : Hdr) (vc : Nat) (f : Nat → State → State) (hp : Foot 14812177 ps) (hk : Only ps
    s0 s) (hf : ∀ (x0 : Nat) (x1 : State), Only ps s0 x1 → Only ps s0 (f x0 x1)) : Only ps s0 (State.redGuard s h vc f) := by
  unfold State.redGuard; with_reducible repeat' first
    | assumption | apply State.advanceTo_only (hp := Foot.sub (by decide) hp) | apply State.domainDrop_only (hp := Foot.sub (by decide) hp)
    | apply State.bump_only (hp := Foot.sub (by decide) hp) | apply State.marked_only (hp := Foot.sub (by decide) hp) | apply hf | apply Only.ite
    | split | (intro) | extract_lets

theorem effRedUp_only {ps : Nat} {s0 : State} (h : Hdr) {s : State} (hp : Foot 2361183241430594748415 ps) (hk : Only ps s0 s) : Only ps s0 (effRedUp
    h s) := by
  unfold effRedUp; with_reducible repeat' first
    | assumption | apply State.settleSlots_only (hp := Foot.sub (by decide) hp) | apply Only.ite | split | (intro) | extract_lets

theorem State.takeDown_only {ps : Nat} {s0 : State} {s : State} (x : Nat) (d : Collective) (r : RedPkt) (mark : Bool) (hp : Foot
    812089084807514052560 ps) (hk : Only ps s0 s) : Only ps s0 (State.takeDown s x d r mark) := by
  unfold State.takeDown; with_reducible repeat' first
    | assumption | apply State.resultBlock_only (hp := Foot.sub (by decide) hp) | apply forEach_only | apply Only.ite | split | (intro) | extract_lets

theorem effRedDown_only {ps : Nat} {s0 : State} (h : Hdr) (r : RedPkt) {s : State} (hp : Foot 2361183241430594748415 ps) (hk : Only ps s0 s) : Only
    ps s0 (effRedDown h r s) := by
  unfold effRedDown; with_reducible repeat' first
    | assumption | apply State.settleSlots_only (hp := Foot.sub (by decide) hp) | apply State.updExec_only (hp := Foot.sub (by decide) hp)
    | apply Only.ite | split | (intro) | extract_lets

theorem effGeyBind_only {ps : Nat} {s0 : State} (h : Hdr) (jobId : Nat) {s : State} (hp : Foot 590295810358714041408 ps) (hk : Only ps s0 s) : Only
    ps s0 (effGeyBind h jobId s) := by
  unfold effGeyBind; with_reducible repeat' first
    | assumption | apply State.sendCtrl_only (hp := Foot.sub (by decide) hp) | apply State.updGey_only (hp := Foot.sub (by decide) hp)
    | apply Only.ite | split | (intro) | extract_lets

theorem effGeyBindReply_only {ps : Nat} {s0 : State} (h : Hdr) (accepted : Bool) (jobId : Nat) {s : State} (hp : Foot 590584040734886724672 ps) (hk :
    Only ps s0 s) : Only ps s0 (effGeyBindReply h accepted jobId s) := by
  unfold effGeyBindReply; with_reducible repeat' first
    | assumption | apply State.updGey_only (hp := Foot.sub (by decide) hp) | apply State.seed_only (hp := Foot.sub (by decide) hp) | apply Only.ite
    | split | (intro) | extract_lets

theorem effGeySpareReady_only {ps : Nat} {s0 : State} (h : Hdr) (jobId : Nat) {s : State} (hp : Foot 1180591620717411303488 ps) (hk : Only ps s0 s) :
    Only ps s0 (effGeySpareReady h jobId s) := by
  unfold effGeySpareReady; with_reducible repeat' first
    | assumption | apply State.updCoord_only (hp := Foot.sub (by decide) hp) | apply Only.ite | split | (intro) | extract_lets

theorem effGeyTake_only {ps : Nat} {s0 : State} (h : Hdr) (lost : Nat) (spare : Nat) (epoch : Nat) {s : State} (hp : Foot 1771175687840578143296 ps)
    (hk : Only ps s0 s) : Only ps s0 (effGeyTake h lost spare epoch s) := by
  unfold effGeyTake; with_reducible repeat' first
    | assumption | apply State.onJob_only (hp := Foot.sub (by decide) hp) | apply State.updGey_only (hp := Foot.sub (by decide) hp)
    | apply State.bump_only (hp := Foot.sub (by decide) hp) | apply State.sendCopy_only (hp := Foot.sub (by decide) hp) | apply Only.ite | split
    | (intro) | extract_lets

theorem effGeyTakeDone_only {ps : Nat} {s0 : State} (h : Hdr) {s : State} (hp : Foot 1180591620717411303488 ps) (hk : Only ps s0 s) : Only ps s0
    (effGeyTakeDone h s) := by
  unfold effGeyTakeDone; with_reducible repeat' first
    | assumption | apply State.updCoord_only (hp := Foot.sub (by decide) hp) | apply Only.ite | split | (intro) | extract_lets

theorem effGeyReseed_only {ps : Nat} {s0 : State} (h : Hdr) (mask : Nat) {s : State} (hp : Foot 590584040734886724672 ps) (hk : Only ps s0 s) : Only
    ps s0 (effGeyReseed h mask s) := by
  unfold effGeyReseed; with_reducible repeat' first
    | assumption | apply State.bump_only (hp := Foot.sub (by decide) hp) | apply State.seed_only (hp := Foot.sub (by decide) hp) | apply Only.ite
    | split | (intro) | extract_lets

theorem effGeyFetch_only {ps : Nat} {s0 : State} (h : Hdr) (tensorId : Nat) (block : Nat) {s : State} (hp : Foot 288230376181072960 ps) (hk : Only ps
    s0 s) : Only ps s0 (effGeyFetch h tensorId block s) := by
  unfold effGeyFetch; with_reducible repeat' first
    | assumption | apply State.sendCopy_only (hp := Foot.sub (by decide) hp) | apply Only.ite | split | (intro) | extract_lets

theorem effGeyCkpt_only {ps : Nat} {s0 : State} (h : Hdr) (epoch : Nat) {s : State} (hp : Foot 2361183241430594748415 ps) (hk : Only ps s0 s) : Only
    ps s0 (effGeyCkpt h epoch s) := by
  unfold effGeyCkpt; with_reducible repeat' first
    | assumption | apply State.sendCtrl_only (hp := Foot.sub (by decide) hp) | apply State.onJob_only (hp := Foot.sub (by decide) hp)
    | apply State.updGey_only (hp := Foot.sub (by decide) hp) | apply State.feedCkpt_only (hp := Foot.sub (by decide) hp)
    | apply State.setEvt_only (hp := Foot.sub (by decide) hp) | apply State.ckptEnd_only (hp := Foot.sub (by decide) hp) | apply Only.ite | split
    | (intro) | extract_lets

theorem effGeyCkptDone_only {ps : Nat} {s0 : State} (h : Hdr) (status : Nat) {s : State} (hp : Foot 1180591620717411303488 ps) (hk : Only ps s0 s) :
    Only ps s0 (effGeyCkptDone h status s) := by
  unfold effGeyCkptDone; with_reducible repeat' first
    | assumption | apply State.updCoord_only (hp := Foot.sub (by decide) hp) | apply Only.ite | split | (intro) | extract_lets

theorem State.fetchManifest_only {ps : Nat} {s0 : State} {s : State} (x : Nat) (g : Nat) (jobId : Nat) (k : Nat) (hp : Foot 8421376 ps) (hk : Only ps
    s0 s) : Only ps s0 (State.fetchManifest s x g jobId k) := by
  unfold State.fetchManifest; with_reducible repeat' first
    | assumption | apply State.startXfer_only (hp := Foot.sub (by decide) hp) | apply Only.ite | split | (intro) | extract_lets

theorem effGeyRestore_only {ps : Nat} {s0 : State} (h : Hdr) (jobId : Nat) (epoch : Nat) {s : State} (hp : Foot 2287612464310386853696 ps) (hk : Only
    ps s0 s) : Only ps s0 (effGeyRestore h jobId epoch s) := by
  unfold effGeyRestore; with_reducible repeat' first
    | assumption | apply State.onJob_only (hp := Foot.sub (by decide) hp) | apply State.updGey_only (hp := Foot.sub (by decide) hp)
    | apply State.restoreEnd_only (hp := Foot.sub (by decide) hp) | apply State.discard_only (hp := Foot.sub (by decide) hp)
    | apply State.fetchManifest_only (hp := Foot.sub (by decide) hp) | apply Only.ite | split | (intro) | extract_lets

theorem State.placeBlock_only {ps : Nat} {s0 : State} {s : State} (x : Nat) (k : Nat) (b : PBlock) (hp : Foot 590295810358705652160 ps) (hk : Only ps
    s0 s) : Only ps s0 (State.placeBlock s x k b) := by
  unfold State.placeBlock; with_reducible repeat' first
    | assumption | apply State.updGey_only (hp := Foot.sub (by decide) hp) | apply State.writeBytes_only (hp := Foot.sub (by decide) hp)
    | apply State.setCheck_only (hp := Foot.sub (by decide) hp) | apply Only.ite | split | (intro) | extract_lets

theorem effGeyRestored_only {ps : Nat} {s0 : State} (h : Hdr) (status : Nat) {s : State} (hp : Foot 1180591796639286559824 ps) (hk : Only ps s0 s) :
    Only ps s0 (effGeyRestored h status s) := by
  unfold effGeyRestored; dsimp only; with_reducible repeat' first
    | assumption | apply State.tryStart_only (hp := Foot.sub (by decide) hp) | apply State.updCoord_only (hp := Foot.sub (by decide) hp)
    | apply State.resumeJob_only (hp := Foot.sub (by decide) hp) | apply Only.ite | split | (intro) | extract_lets

theorem State.onXfer_only {ps : Nat} {s0 : State} {s : State} (m : ShardMsg) (f : Xfer → State → State) (hk : Only ps s0 s) (hf : ∀ (x0 : Xfer) (x1 :
    State), Only ps s0 x1 → Only ps s0 (f x0 x1)) : Only ps s0 (State.onXfer s m f) := by
  unfold State.onXfer; with_reducible repeat' first
    | assumption | apply hf | apply Only.ite | split | (intro) | extract_lets

theorem State.storedXfer_only {ps : Nat} {s0 : State} {s : State} (v : Xfer) (hp : Foot 2361183241430594748415 ps) (hk : Only ps s0 s) : Only ps s0
    (State.storedXfer s v) := by
  unfold State.storedXfer; with_reducible repeat' first
    | assumption | apply State.updGey_only (hp := Foot.sub (by decide) hp) | apply State.feedCkpt_only (hp := Foot.sub (by decide) hp)
    | apply State.ckptEnd_only (hp := Foot.sub (by decide) hp) | apply Only.ite | split | (intro) | extract_lets

theorem State.nextSource_only {ps : Nat} {s0 : State} {s : State} (h : Nat) (v : Xfer) (status : Nat) (hp : Foot 590295810358714074176 ps) (hk : Only
    ps s0 s) : Only ps s0 (State.nextSource s h v status) := by
  unfold State.nextSource; with_reducible repeat' first
    | assumption | apply State.startXfer_only (hp := Foot.sub (by decide) hp) | apply State.updGey_only (hp := Foot.sub (by decide) hp)
    | apply State.restoreEnd_only (hp := Foot.sub (by decide) hp) | apply State.endXfer_only (hp := Foot.sub (by decide) hp) | apply Only.ite
    | split | (intro) | extract_lets

theorem State.objectRead_only {ps : Nat} {s0 : State} {s : State} (h : Nat) (v : Xfer) (object : List Byte) (hp : Foot 2361183241430594748415 ps) (hk
    : Only ps s0 s) : Only ps s0 (State.objectRead s h v object) := by
  unfold State.objectRead; with_reducible repeat' first
    | assumption | apply State.feedRestore_only (hp := Foot.sub (by decide) hp) | apply State.updGey_only (hp := Foot.sub (by decide) hp)
    | apply State.restoreEnd_only (hp := Foot.sub (by decide) hp) | apply State.endXfer_only (hp := Foot.sub (by decide) hp)
    | apply State.nextSource_only (hp := Foot.sub (by decide) hp) | apply Only.ite | apply foldl_onlyS | apply foldl_only1 | apply foldl_only2
    | split | (intro) | extract_lets

theorem State.resend_only {ps : Nat} {s0 : State} {s : State} (h : Nat) (v : Xfer) (hp : Foot 12615680 ps) (hk : Only ps s0 s) : Only ps s0
    (State.resend s h v) := by
  unfold State.resend; with_reducible repeat' first
    | assumption | apply State.bump_only (hp := Foot.sub (by decide) hp) | apply State.pump_only (hp := Foot.sub (by decide) hp)
    | apply State.shardOpen_only (hp := Foot.sub (by decide) hp) | apply State.shardSend_only (hp := Foot.sub (by decide) hp)
    | apply State.updXfer_only (hp := Foot.sub (by decide) hp) | apply Only.ite | split | (intro) | extract_lets

theorem State.ownBlock_only {ps : Nat} {s0 : State} {s : State} (x : Nat) (src : Nat) (k : Nat) (a : Nat) (b : PBlock) (hp : Foot
    590295810358709846464 ps) (hk : Only ps s0 s) : Only ps s0 (State.ownBlock s x src k a b) := by
  unfold State.ownBlock; with_reducible repeat' first
    | assumption | apply State.updGey_only (hp := Foot.sub (by decide) hp) | apply State.bump_only (hp := Foot.sub (by decide) hp)
    | apply State.placeBlock_only (hp := Foot.sub (by decide) hp) | refine State.updMem_only (hp := Foot.sub (by decide) hp) (fun _ => rfl) ?_
    | apply Only.ite | split | (intro) | extract_lets

theorem State.partnerBlock_only {ps : Nat} {s0 : State} {s : State} (x : Nat) (step : Nat) (attempt : Nat) (k : Nat) (b : PBlock) (hp : Foot
    590295810358709846080 ps) (hk : Only ps s0 s) : Only ps s0 (State.partnerBlock s x step attempt k b) := by
  unfold State.partnerBlock; with_reducible repeat' first
    | assumption | apply State.updGey_only (hp := Foot.sub (by decide) hp) | apply State.bump_only (hp := Foot.sub (by decide) hp) | apply Only.ite
    | split | (intro) | extract_lets

theorem State.restoreFailed_only {ps : Nat} {s0 : State} {s : State} (x : Nat) (k : Nat) (a : Nat) (hp : Foot 737869762948448278480 ps) (hk : Only ps
    s0 s) : Only ps s0 (State.restoreFailed s x k a) := by
  unfold State.restoreFailed; with_reducible repeat' first
    | assumption | apply State.updGey_only (hp := Foot.sub (by decide) hp) | apply State.fetchBlock_only (hp := Foot.sub (by decide) hp)
    | apply State.recover_only (hp := Foot.sub (by decide) hp) | apply Only.ite | split | (intro) | extract_lets

theorem State.bulkBlock_only {ps : Nat} {s0 : State} {s : State} (x : Nat) (src : Nat) (step : Nat) (attempt : Nat) (k : Nat) (a : Nat) (b : PBlock)
    (hp : Foot 590295810358709846464 ps) (hk : Only ps s0 s) : Only ps s0 (State.bulkBlock s x src step attempt k a b) := by
  unfold State.bulkBlock; with_reducible repeat' first
    | assumption | apply State.ownBlock_only (hp := Foot.sub (by decide) hp) | apply State.geySlots_only (hp := Foot.sub (by decide) hp)
    | apply State.partnerBlock_only (hp := Foot.sub (by decide) hp) | apply Only.ite | split | (intro) | extract_lets

theorem State.ackData_only {ps : Nat} {s0 : State} {s : State} (h : Hdr) (ep : Nat) (step : Nat) (seq : Nat) (hp : Foot 8388608 ps) (hk : Only ps s0
    s) : Only ps s0 (State.ackData s h ep step seq) := by
  unfold State.ackData; with_reducible repeat' first
    | assumption | apply State.sendResp_only (hp := Foot.sub (by decide) hp) | apply Only.ite | split | (intro) | extract_lets

theorem State.assemble_only {ps : Nat} {s0 : State} {s : State} (h : Hdr) (d : DataPart) (hp : Foot 1024 ps) (hk : Only ps s0 s) : Only ps s0
    (State.assemble s h d).1 := by
  unfold State.assemble; with_reducible repeat' first
    | assumption | apply State.updFab_only (hp := Foot.sub (by decide) hp) | apply Only.ite | split | (intro) | extract_lets

theorem State.bulkIn_only {ps : Nat} {s0 : State} {s : State} (x : Nat) (h : Hdr) (d : DataPart) (b : List Byte) (ack : Bool) (hp : Foot
    590295810358718235072 ps) (hk : Only ps s0 s) : Only ps s0 (State.bulkIn s x h d b ack) := by
  unfold State.bulkIn; with_reducible repeat' first
    | assumption | apply State.updGey_only (hp := Foot.sub (by decide) hp) | apply State.bulkBlock_only (hp := Foot.sub (by decide) hp)
    | apply State.ackData_only (hp := Foot.sub (by decide) hp) | apply forEach_only | apply Only.ite | split | (intro) | extract_lets

theorem effRouteBreak_only {ps : Nat} {s0 : State} (dim : Nat) (after : Nat) (isBreak : Bool) (effective : Nat) {s : State} (hp : Foot 1024 ps) (hk :
    Only ps s0 s) : Only ps s0 (effRouteBreak dim after isBreak effective s) := by
  unfold effRouteBreak; with_reducible repeat' first
    | assumption | apply State.updFab_only (hp := Foot.sub (by decide) hp) | apply Only.ite | split | (intro) | extract_lets

theorem State.holdover_only {ps : Nat} {s0 : State} {s : State} (hp : Foot 6422545 ps) (hk : Only ps s0 s) : Only ps s0 (State.holdover s) := by
  unfold State.holdover; with_reducible repeat' first
    | assumption | apply State.updTime_only (hp := Foot.sub (by decide) hp) | apply State.setEvt_only (hp := Foot.sub (by decide) hp)
    | apply Only.ite | split | (intro) | extract_lets

theorem State.beRoot_only {ps : Nat} {s0 : State} {s : State} (hp : Foot 6422545 ps) (hk : Only ps s0 s) : Only ps s0 (State.beRoot s) := by
  unfold State.beRoot; with_reducible repeat' first
    | assumption | apply State.updTime_only (hp := Foot.sub (by decide) hp) | apply State.holdover_only (hp := Foot.sub (by decide) hp)
    | apply State.setEvt_only (hp := Foot.sub (by decide) hp) | apply Only.ite | split | (intro) | extract_lets

theorem State.follow_only {ps : Nat} {s0 : State} {s : State} (p : Nat) (o : Offer) (hp : Foot 6422545 ps) (hk : Only ps s0 s) : Only ps s0
    (State.follow s p o) := by
  unfold State.follow; with_reducible repeat' first
    | assumption | apply State.updTime_only (hp := Foot.sub (by decide) hp) | apply State.setEvt_only (hp := Foot.sub (by decide) hp)
    | apply Only.ite | split | (intro) | extract_lets

theorem State.reselect_only {ps : Nat} {s0 : State} {s : State} (claim : Bool) (hp : Foot 6422545 ps) (hk : Only ps s0 s) : Only ps s0
    (State.reselect s claim) := by
  unfold State.reselect; dsimp only; with_reducible repeat' first
    | assumption | apply State.follow_only (hp := Foot.sub (by decide) hp) | apply State.beRoot_only (hp := Foot.sub (by decide) hp)
    | apply Only.ite | apply foldl_onlyS | apply foldl_only1 | apply foldl_only2 | split | (intro) | extract_lets

theorem State.sendLcf_only {ps : Nat} {s0 : State} {s : State} (p : Nat) (kind : Nat) (nak : Bool) (body : Nat) (hp : Foot 8388608 ps) (hk : Only ps
    s0 s) : Only ps s0 (State.sendLcf s p kind nak body) := by
  unfold State.sendLcf; with_reducible repeat' first
    | assumption | apply State.emit_only (hp := Foot.sub (by decide) hp) | apply Only.ite | split | (intro) | extract_lets

theorem State.sendIdent_only {ps : Nat} {s0 : State} {s : State} (p : Nat) (hp : Foot 8388608 ps) (hk : Only ps s0 s) : Only ps s0 (State.sendIdent s
    p) := by
  unfold State.sendIdent; with_reducible repeat' first
    | assumption | apply State.sendLcf_only (hp := Foot.sub (by decide) hp) | apply Only.ite | split | (intro) | extract_lets

theorem State.sendLsm_only {ps : Nat} {s0 : State} {s : State} (p : Nat) (req : Nat) (lane : Nat) (ref : Nat) (hp : Foot 8388608 ps) (hk : Only ps s0
    s) : Only ps s0 (State.sendLsm s p req lane ref) := by
  unfold State.sendLsm; with_reducible repeat' first
    | assumption | apply State.sendLcf_only (hp := Foot.sub (by decide) hp) | apply Only.ite | split | (intro) | extract_lets

theorem State.loseFlits_only {ps : Nat} {s0 : State} {s : State} (p : Nat) (hp : Foot 144115188090670160 ps) (hk : Only ps s0 s) : Only ps s0
    (State.loseFlits s p) := by
  unfold State.loseFlits; with_reducible repeat' first
    | assumption | apply State.bump_only (hp := Foot.sub (by decide) hp) | apply State.reportLink_only (hp := Foot.sub (by decide) hp)
    | apply State.updPort_only (hp := Foot.sub (by decide) hp) | apply Only.ite | split | (intro) | extract_lets

theorem State.toDetect_only {ps : Nat} {s0 : State} {s : State} (p : Nat) (hp : Foot 144115188090670161 ps) (hk : Only ps s0 s) : Only ps s0
    (State.toDetect s p) := by
  unfold State.toDetect; with_reducible repeat' first
    | assumption | apply State.loseFlits_only (hp := Foot.sub (by decide) hp) | apply State.reselect_only (hp := Foot.sub (by decide) hp)
    | apply State.updPort_only (hp := Foot.sub (by decide) hp) | apply Only.ite | split | (intro) | extract_lets

theorem State.backoff_only {ps : Nat} {s0 : State} {s : State} (p : Nat) (hp : Foot 2048 ps) (hk : Only ps s0 s) : Only ps s0 (State.backoff s p) :=
    by
  unfold State.backoff; with_reducible repeat' first
    | assumption | apply State.updPort_only (hp := Foot.sub (by decide) hp) | apply Only.ite | split | (intro) | extract_lets

theorem State.leaveUp_only {ps : Nat} {s0 : State} {s : State} (p : Nat) (hp : Foot 144115188090670161 ps) (hk : Only ps s0 s) : Only ps s0
    (State.leaveUp s p) := by
  unfold State.leaveUp; with_reducible repeat' first
    | assumption | apply State.bump_only (hp := Foot.sub (by decide) hp) | apply State.record_only (hp := Foot.sub (by decide) hp)
    | apply State.loseFlits_only (hp := Foot.sub (by decide) hp) | apply State.reselect_only (hp := Foot.sub (by decide) hp)
    | apply State.updPort_only (hp := Foot.sub (by decide) hp) | apply State.noteBundle_only (hp := Foot.sub (by decide) hp) | apply Only.ite
    | split | (intro) | extract_lets

theorem State.fullRetrain_only {ps : Nat} {s0 : State} {s : State} (p : Nat) (hp : Foot 144115188090670161 ps) (hk : Only ps s0 s) : Only ps s0
    (State.fullRetrain s p) := by
  unfold State.fullRetrain; with_reducible repeat' first
    | assumption | apply State.leaveUp_only (hp := Foot.sub (by decide) hp) | apply State.toDetect_only (hp := Foot.sub (by decide) hp)
    | apply Only.ite | split | (intro) | extract_lets

theorem State.askWidth4_only {ps : Nat} {s0 : State} {s : State} (p : Nat) (hp : Foot 144115188090670161 ps) (hk : Only ps s0 s) : Only ps s0
    (State.askWidth4 s p) := by
  unfold State.askWidth4; with_reducible repeat' first
    | assumption | apply State.leaveUp_only (hp := Foot.sub (by decide) hp) | apply State.sendLsm_only (hp := Foot.sub (by decide) hp)
    | apply State.updPort_only (hp := Foot.sub (by decide) hp) | apply Only.ite | split | (intro) | extract_lets

theorem State.laneCheck_only {ps : Nat} {s0 : State} {s : State} (p : Nat) (hp : Foot 144115188090670161 ps) (hk : Only ps s0 s) : Only ps s0
    (State.laneCheck s p) := by
  unfold State.laneCheck; with_reducible repeat' first
    | assumption | apply State.askWidth4_only (hp := Foot.sub (by decide) hp) | apply State.sendLsm_only (hp := Foot.sub (by decide) hp)
    | apply State.setEvt_only (hp := Foot.sub (by decide) hp) | apply State.updPort_only (hp := Foot.sub (by decide) hp) | apply Only.ite | split
    | (intro) | extract_lets

theorem State.laneFail_only {ps : Nat} {s0 : State} {s : State} (p : Nat) (lane : Nat) (hp : Foot 144115188090670161 ps) (hk : Only ps s0 s) : Only
    ps s0 (State.laneFail s p lane) := by
  unfold State.laneFail; with_reducible repeat' first
    | assumption | apply State.bump_only (hp := Foot.sub (by decide) hp) | apply State.laneCheck_only (hp := Foot.sub (by decide) hp)
    | apply State.toDetect_only (hp := Foot.sub (by decide) hp) | apply State.updPort_only (hp := Foot.sub (by decide) hp) | apply Only.ite | split
    | (intro) | extract_lets

theorem State.setWidth4_only {ps : Nat} {s0 : State} {s : State} (p : Nat) (hp : Foot 6424592 ps) (hk : Only ps s0 s) : Only ps s0 (State.setWidth4 s
    p) := by
  unfold State.setWidth4; with_reducible repeat' first
    | assumption | apply State.setEvt_only (hp := Foot.sub (by decide) hp) | apply State.updPort_only (hp := Foot.sub (by decide) hp)
    | apply Only.ite | split | (intro) | extract_lets

theorem State.freshLink_only {ps : Nat} {s0 : State} {s : State} (p : Nat) (hp : Foot 2048 ps) (hk : Only ps s0 s) : Only ps s0 (State.freshLink s p)
    := by
  unfold State.freshLink; with_reducible repeat' first
    | assumption | apply State.updPort_only (hp := Foot.sub (by decide) hp) | apply Only.ite | split | (intro) | extract_lets

theorem State.lcfIn_only {ps : Nat} {s0 : State} {s : State} (p : Nat) (kind : Nat) (flit : BitVec 512) (f : Nat → State → State) (hp : Foot
    144115188090670161 ps) (hk : Only ps s0 s) (hf : ∀ (x0 : Nat) (x1 : State), Only ps s0 x1 → Only ps s0 (f x0 x1)) : Only ps s0 (State.lcfIn s p
    kind flit f) := by
  unfold State.lcfIn; with_reducible repeat' first
    | assumption | apply State.leaveUp_only (hp := Foot.sub (by decide) hp) | apply State.bump_only (hp := Foot.sub (by decide) hp)
    | apply State.sendLcf_only (hp := Foot.sub (by decide) hp) | apply State.drainOut_only (hp := Foot.sub (by decide) hp)
    | apply State.updPort_only (hp := Foot.sub (by decide) hp) | apply State.emit_only (hp := Foot.sub (by decide) hp) | apply hf | apply Only.ite
    | apply foldl_onlyS | apply foldl_only1 | apply foldl_only2 | split | (intro) | extract_lets

theorem State.calRelease_only {ps : Nat} {s0 : State} {s : State} (half : Nat) (hp : Foot 8204 ps) (hk : Only ps s0 s) : Only ps s0 (State.calRelease
    s half) := by
  unfold State.calRelease; with_reducible repeat' first
    | assumption | apply State.updId_only (hp := Foot.sub (by decide) hp)
    | refine State.updFlash_only (hp := Foot.sub (by decide) hp) (fun _ => ⟨rfl, rfl⟩) ?_ | apply State.updCal_only (hp := Foot.sub (by decide) hp)
    | apply Only.ite | split | (intro) | extract_lets

theorem State.calFence_only {ps : Nat} {s0 : State} {s : State} (half : Nat) (hp : Foot 8200 ps) (hk : Only ps s0 s) : Only ps s0 (State.calFence s
    half) := by
  unfold State.calFence; with_reducible repeat' first
    | assumption | refine State.updFlash_only (hp := Foot.sub (by decide) hp) (fun _ => ⟨rfl, rfl⟩) ?_
    | apply State.updCal_only (hp := Foot.sub (by decide) hp) | apply Only.ite | split | (intro) | extract_lets

theorem State.reportHang_only {ps : Nat} {s0 : State} {s : State} (u : HangUnit) (loses : Bool) (hp : Foot 144115188090668112 ps) (hk : Only ps s0 s)
    : Only ps s0 (State.reportHang s u loses) := by
  unfold State.reportHang; with_reducible repeat' first
    | assumption | apply State.report_only (hp := Foot.sub (by decide) hp) | apply forEach_only
    | refine State.updCtx_only (a := 144115188075855872) (Foot.sub (by decide) hp) (by with_unfolding_all (intro c q hq; cases q <;> first
    | (cases hq; done) | rfl)) ?_ | apply Only.ite | split | (intro) | extract_lets

theorem State.hangTransient_only {ps : Nat} {s0 : State} {s : State} (u : HangUnit) (hp : Foot 737869762948448278480 ps) (hk : Only ps s0 s) : Only
    ps s0 (State.hangTransient s u) := by
  unfold State.hangTransient; with_reducible repeat' first
    | assumption | apply State.bump_only (hp := Foot.sub (by decide) hp) | apply State.permanentUnit_only (hp := Foot.sub (by decide) hp)
    | apply State.countTransient_only (hp := Foot.sub (by decide) hp) | apply State.recover_only (hp := Foot.sub (by decide) hp) | apply Only.ite
    | split | (intro) | extract_lets

theorem State.engineReset_only {ps : Nat} {s0 : State} {s : State} (u : HangUnit) (hp : Foot 737869762948448344016 ps) (hk : Only ps s0 s) : Only ps
    s0 (State.engineReset s u) := by
  unfold State.engineReset; with_reducible repeat' first
    | assumption | apply State.updFab_only (hp := Foot.sub (by decide) hp) | apply State.updTel_only (hp := Foot.sub (by decide) hp)
    | apply State.updCluster_only (hp := Foot.sub (by decide) hp) | apply State.recover_only (hp := Foot.sub (by decide) hp) | apply Only.ite
    | split | (intro) | extract_lets

theorem State.geyRestart_only {ps : Nat} {s0 : State} {s : State} (u : HangUnit) (hp : Foot 664371017029724931136 ps) (hk : Only ps s0 s) : Only ps
    s0 (State.geyRestart s u) := by
  unfold State.geyRestart; with_reducible repeat' first
    | assumption | apply State.updGey_only (hp := Foot.sub (by decide) hp) | apply State.seed_only (hp := Foot.sub (by decide) hp)
    | apply State.stream_only (hp := Foot.sub (by decide) hp) | apply State.captureImages_only (hp := Foot.sub (by decide) hp) | apply forEach_only
    | apply Only.ite | split | (intro) | extract_lets

theorem State.hangFirst_only {ps : Nat} {s0 : State} {s : State} (u : HangUnit) (hp : Foot 812089084807514128349 ps) (hk : Only ps s0 s) : Only ps s0
    (State.hangFirst s u) := by
  unfold State.hangFirst; with_reducible repeat' first
    | assumption | apply State.geyRestart_only (hp := Foot.sub (by decide) hp) | apply State.engineReset_only (hp := Foot.sub (by decide) hp)
    | apply State.fullRetrain_only (hp := Foot.sub (by decide) hp) | apply State.calRelease_only (hp := Foot.sub (by decide) hp) | apply Only.ite
    | split | (intro) | extract_lets

theorem State.hangSecond_only {ps : Nat} {s0 : State} {s : State} (u : HangUnit) (hp : Foot 738013878136524210137 ps) (hk : Only ps s0 s) : Only ps
    s0 (State.hangSecond s u) := by
  unfold State.hangSecond; with_reducible repeat' first
    | assumption | apply State.engineReset_only (hp := Foot.sub (by decide) hp) | apply State.calFence_only (hp := Foot.sub (by decide) hp)
    | apply State.loseFlits_only (hp := Foot.sub (by decide) hp) | apply State.reselect_only (hp := Foot.sub (by decide) hp)
    | apply State.wantAct_only (hp := Foot.sub (by decide) hp) | apply State.updPort_only (hp := Foot.sub (by decide) hp)
    | apply State.recover_only (hp := Foot.sub (by decide) hp) | apply State.noteBundle_only (hp := Foot.sub (by decide) hp) | apply Only.ite
    | split | (intro) | extract_lets

theorem State.writeNear_only {ps : Nat} {s0 : State} {s : State} (a : Nat) (bs : List Byte) (hp : Foot 384 ps) (hk : Only ps s0 s) : Only ps s0
    (State.writeNear s a bs) := by
  unfold State.writeNear; with_reducible repeat' first
    | assumption | apply State.writeBytes_only (hp := Foot.sub (by decide) hp)
    | refine State.updMem_only (hp := Foot.sub (by decide) hp) (fun _ => rfl) ?_ | apply Only.ite | split | (intro) | extract_lets

theorem State.addStatus_only {ps : Nat} {s0 : State} {s : State} (x : Nat) (opId : Nat) (t : OpStatus) (hp : Foot 73786976294838206528 ps) (hk : Only
    ps s0 s) : Only ps s0 (State.addStatus s x opId t) := by
  unfold State.addStatus; with_reducible repeat' first
    | assumption | apply State.updExec_only (hp := Foot.sub (by decide) hp) | apply Only.ite | split | (intro) | extract_lets

theorem State.addrErr_only {ps : Nat} {s0 : State} {s : State} (x : Nat) (opId : Nat) (layer : Nat) (a : Nat) (hp : Foot 73931091482928874576 ps) (hk
    : Only ps s0 s) : Only ps s0 (State.addrErr s x opId layer a) := by
  unfold State.addrErr; with_reducible repeat' first
    | assumption | apply State.report_only (hp := Foot.sub (by decide) hp) | apply State.addStatus_only (hp := Foot.sub (by decide) hp)
    | apply Only.ite | split | (intro) | extract_lets

theorem State.noteMismatch_only {ps : Nat} {s0 : State} {s : State} (c : CoreCmd) (layer : Nat) (hp : Foot 4096 ps) (hk : Only ps s0 s) : Only ps s0
    (State.noteMismatch s c layer) := by
  unfold State.noteMismatch; with_reducible repeat' first
    | assumption | apply State.updRecov_only (hp := Foot.sub (by decide) hp) | apply Only.ite | split | (intro) | extract_lets

theorem State.anchorFault_only {ps : Nat} {s0 : State} {s : State} (c : CoreCmd) (layer : Nat) (bound : Int) (anchor : Int) (hp : Foot
    73931091482928878672 ps) (hk : Only ps s0 s) : Only ps s0 (State.anchorFault s c layer bound anchor) := by
  unfold State.anchorFault; with_reducible repeat' first
    | assumption | apply State.report_only (hp := Foot.sub (by decide) hp) | apply State.noteMismatch_only (hp := Foot.sub (by decide) hp)
    | apply State.addStatus_only (hp := Foot.sub (by decide) hp) | apply Only.ite | split | (intro) | extract_lets

theorem State.checkFault_only {ps : Nat} {s0 : State} {s : State} (c : CoreCmd) (layer : Nat) (r : Nat) (detail : Nat) (hp : Foot 144115188090672208
    ps) (hk : Only ps s0 s) : Only ps s0 (State.checkFault s c layer r detail) := by
  unfold State.checkFault; with_reducible repeat' first
    | assumption | apply State.bump_only (hp := Foot.sub (by decide) hp) | apply State.report_only (hp := Foot.sub (by decide) hp)
    | apply State.noteMismatch_only (hp := Foot.sub (by decide) hp) | apply Only.ite | split | (intro) | extract_lets

theorem State.combine_only {ps : Nat} {s0 : State} {s : State} (c : CoreCmd) (k : Ctx) (o : OpDesc) (t : Tile) (n : Nat) (hp : Foot
    73786976294838206912 ps) (hk : Only ps s0 s) : Only ps s0 (State.combine s c k o t n) := by
  unfold State.combine; with_reducible repeat' first
    | assumption | apply State.writeNear_only (hp := Foot.sub (by decide) hp) | apply State.updExec_only (hp := Foot.sub (by decide) hp)
    | apply forEach_only | apply State.when_only | apply State.addStatus_only (hp := Foot.sub (by decide) hp) | apply Only.ite | split | (intro)
    | extract_lets

theorem State.adderRow_only {ps : Nat} {s0 : State} {s : State} (c : CoreCmd) (k : Ctx) (o : OpDesc) (row : Nat) (col : Nat) (parts : Nat) (colCount
    : Nat) (ws : List (Nat × Window)) (hp : Foot 812089084807514052560 ps) (hk : Only ps s0 s) : Only ps s0 (State.adderRow s c k o row col parts
    colCount ws) := by
  unfold State.adderRow; dsimp only; with_reducible repeat' first
    | assumption | apply State.putElems_only (hp := Foot.sub (by decide) hp) | apply State.report_only (hp := Foot.sub (by decide) hp)
    | apply State.noteMismatch_only (hp := Foot.sub (by decide) hp) | apply State.updExec_only (hp := Foot.sub (by decide) hp)
    | apply State.when_only | apply State.addStatus_only (hp := Foot.sub (by decide) hp) | apply Only.ite | split | (intro) | extract_lets

theorem State.contribute_only {ps : Nat} {s0 : State} {s : State} (x : Nat) (coll : Nat) (block : Nat) (els : List (Nat × SqWindow × Nat)) (form :
    Nat) (hp : Foot 2361183241430594748415 ps) (hk : Only ps s0 s) : Only ps s0 (State.contribute s x coll block els form) := by
  unfold State.contribute; with_reducible repeat' first
    | assumption | apply State.bump_only (hp := Foot.sub (by decide) hp) | apply State.putSlot_only (hp := Foot.sub (by decide) hp)
    | apply State.squareViolation_only (hp := Foot.sub (by decide) hp) | apply State.settleSlots_only (hp := Foot.sub (by decide) hp)
    | apply Only.ite | apply foldl_onlyS | apply foldl_only1 | apply foldl_only2 | split | (intro) | extract_lets

theorem State.enableGroup_only {ps : Nat} {s0 : State} {s : State} (g : Nat) (hp : Foot 18087936 ps) (hk : Only ps s0 s) : Only ps s0
    (State.enableGroup s g) := by
  unfold State.enableGroup; with_reducible repeat' first
    | assumption | apply State.fresh_only (hp := Foot.sub (by decide) hp) | apply State.updPins_only (hp := Foot.sub (by decide) hp)
    | apply State.setDom_only (hp := Foot.sub (by decide) hp) | apply State.updStage_only (hp := Foot.sub (by decide) hp) | apply forEach_only
    | apply Only.ite | split | (intro) | extract_lets

theorem State.disableGroup_only {ps : Nat} {s0 : State} {s : State} (g : Nat) (hp : Foot 1310720 ps) (hk : Only ps s0 s) : Only ps s0
    (State.disableGroup s g) := by
  unfold State.disableGroup; with_reducible repeat' first
    | assumption | apply State.updPins_only (hp := Foot.sub (by decide) hp) | apply State.setDom_only (hp := Foot.sub (by decide) hp)
    | apply State.updStage_only (hp := Foot.sub (by decide) hp) | apply forEach_only | apply Only.ite | split | (intro) | extract_lets

theorem State.keepCeiling_only {ps : Nat} {s0 : State} (a : Nat) {a1 : State} (hp : Foot 288230376156168256 ps) (hk : Only ps s0 a1) : Only ps s0
    (State.keepCeiling a a1) := by
  induction a generalizing a1 with
  | zero => unfold State.keepCeiling; with_reducible repeat' first
      | assumption | apply State.movePoints_only (hp := Foot.sub (by decide) hp) | apply State.updPwr_only (hp := Foot.sub (by decide) hp)
      | apply Only.ite | split | (intro) | extract_lets
  | succ n ih => unfold State.keepCeiling; with_reducible repeat' first
      | apply ih | assumption | apply State.movePoints_only (hp := Foot.sub (by decide) hp)
      | apply State.updPwr_only (hp := Foot.sub (by decide) hp) | apply Only.ite | split | (intro) | extract_lets

theorem State.noteSlow_only {ps : Nat} {s0 : State} {s : State} (hp : Foot 4456448 ps) (hk : Only ps s0 s) : Only ps s0 (State.noteSlow s) := by
  unfold State.noteSlow; with_reducible repeat' first
    | assumption | apply State.bump_only (hp := Foot.sub (by decide) hp) | apply forEach_only
    | apply State.updPwr_only (hp := Foot.sub (by decide) hp) | apply Only.ite | split | (intro) | extract_lets

theorem State.powerReason_only {ps : Nat} {s0 : State} {s : State} (parts : List Nat) (hp : Foot 288230376151711808 ps) (hk : Only ps s0 s) : Only ps
    s0 (State.powerReason s parts) := by
  unfold State.powerReason; with_reducible repeat' first
    | assumption | apply forEach_only
    | refine State.updCtx_only (a := 288230376151711744) (Foot.sub (by decide) hp) (by with_unfolding_all (intro c q hq; cases q <;> first
    | (cases hq; done) | rfl)) ?_ | apply Only.ite | split | (intro) | extract_lets

theorem State.limitActs_only {ps : Nat} {s0 : State} {s : State} (row : Nat) (unit : Nat) (parts : List Nat) (hp : Foot 288230376156168256 ps) (hk :
    Only ps s0 s) : Only ps s0 (State.limitActs s row unit parts) := by
  unfold State.limitActs; with_reducible repeat' first
    | assumption | apply State.powerReason_only (hp := Foot.sub (by decide) hp) | apply State.updPwr_only (hp := Foot.sub (by decide) hp)
    | apply State.noteSlow_only (hp := Foot.sub (by decide) hp) | apply Only.ite | split | (intro) | extract_lets

theorem State.stageOff_only {ps : Nat} {s0 : State} {s : State} (i : Nat) (hp : Foot 270336 ps) (hk : Only ps s0 s) : Only ps s0 (State.stageOff s i)
    := by
  unfold State.stageOff; with_reducible repeat' first
    | assumption | apply State.updCal_only (hp := Foot.sub (by decide) hp) | apply State.setDom_only (hp := Foot.sub (by decide) hp)
    | apply State.updStage_only (hp := Foot.sub (by decide) hp) | apply forEach_only | apply Only.ite | split | (intro) | extract_lets

theorem State.restoreDomains_only {ps : Nat} {s0 : State} {s : State} (p : Nat) (hp : Foot 262144 ps) (hk : Only ps s0 s) : Only ps s0
    (State.restoreDomains s p) := by
  unfold State.restoreDomains; with_reducible repeat' first
    | assumption | apply State.setDom_only (hp := Foot.sub (by decide) hp) | apply Only.ite | split | (intro) | extract_lets

theorem State.powerUp_only {ps : Nat} {s0 : State} {s : State} (hp : Foot 2361183241430561193983 ps) (hk : Only ps s0 s) : Only ps s0 (State.powerUp
    s) := by
  unfold State.powerUp; with_reducible repeat' first
    | assumption | apply State.unpowered_only (hp := Foot.sub (by decide) hp) | apply State.updPins_only (hp := Foot.sub (by decide) hp)
    | refine State.updFlash_only (hp := Foot.sub (by decide) hp) (fun _ => ⟨rfl, rfl⟩) ?_
    | refine State.updFlash_only_up (hp := Foot.sub (by decide) hp) (fun _ => Nat.le_succ _) ?_
    | apply State.enableGroup_only (hp := Foot.sub (by decide) hp) | apply State.updCal_only (hp := Foot.sub (by decide) hp)
    | apply State.updStage_only (hp := Foot.sub (by decide) hp) | apply forEach_only | apply Only.ite | split | (intro) | extract_lets

theorem State.updSlot_only {ps : Nat} {s0 : State} {s : State} (i : Nat) (f : Slot → Slot) (hp : Foot 8 ps) (hk : Only ps s0 s) : Only ps s0
    (State.updSlot s i f) := by
  unfold State.updSlot; with_reducible repeat' first
    | assumption | refine State.updFlash_only (hp := Foot.sub (by decide) hp) (fun _ => ⟨rfl, rfl⟩) ?_ | apply Only.ite | split | (intro)
    | extract_lets

theorem State.imageRejected_only {ps : Nat} {s0 : State} {s : State} (slot : Nat) (code : Nat) (hp : Foot 6422548 ps) (hk : Only ps s0 s) : Only ps
    s0 (State.imageRejected s slot code) := by
  unfold State.imageRejected; with_reducible repeat' first
    | assumption | apply State.updId_only (hp := Foot.sub (by decide) hp) | apply State.record_only (hp := Foot.sub (by decide) hp)
    | apply Only.ite | split | (intro) | extract_lets

theorem State.enterRecovery_only {ps : Nat} {s0 : State} {s : State} (code : Nat) (hp : Foot 6424628 ps) (hk : Only ps s0 s) : Only ps s0
    (State.enterRecovery s code) := by
  unfold State.enterRecovery; with_reducible repeat' first
    | assumption | apply State.updId_only (hp := Foot.sub (by decide) hp) | apply State.updEvr_only (hp := Foot.sub (by decide) hp)
    | apply State.record_only (hp := Foot.sub (by decide) hp) | apply State.updPorts_only (hp := Foot.sub (by decide) hp)
    | apply State.updMbx_only (hp := Foot.sub (by decide) hp) | apply Only.ite | split | (intro) | extract_lets

theorem State.checkAccept_only {ps : Nat} {s0 : State} {s : State} (hp : Foot 6422548 ps) (hk : Only ps s0 s) : Only ps s0 (State.checkAccept s) := by
  unfold State.checkAccept; with_reducible repeat' first
    | assumption | apply State.updId_only (hp := Foot.sub (by decide) hp) | apply State.record_only (hp := Foot.sub (by decide) hp)
    | apply Only.ite | split | (intro) | extract_lets

theorem State.startSlot_only {ps : Nat} {s0 : State} {s : State} (k : Nat) (other : Bool) (hp : Foot 24510494 ps) (hk : Only ps s0 s) : Only ps s0
    (State.startSlot s k other) := by
  unfold State.startSlot; with_reducible repeat' first
    | assumption | apply State.setCfg_only (hp := Foot.sub (by decide) hp) | apply State.updSlot_only (hp := Foot.sub (by decide) hp)
    | apply State.updId_only (hp := Foot.sub (by decide) hp) | apply State.enableGroup_only (hp := Foot.sub (by decide) hp)
    | apply State.record_only (hp := Foot.sub (by decide) hp) | apply State.checkAccept_only (hp := Foot.sub (by decide) hp)
    | apply State.setEvt_only (hp := Foot.sub (by decide) hp) | apply Only.ite | split | (intro) | extract_lets

theorem State.applyFaultMap_only {ps : Nat} {s0 : State} {s : State} (failed : List (Nat × Nat)) (hp : Foot 14816920 ps) (hk : Only ps s0 s) : Only
    ps s0 (State.applyFaultMap s failed) := by
  unfold State.applyFaultMap; with_reducible repeat' first
    | assumption | apply State.fenceSlot_only (hp := Foot.sub (by decide) hp) | apply State.updRecov_only (hp := Foot.sub (by decide) hp)
    | refine State.updMem_only (hp := Foot.sub (by decide) hp) (fun _ => rfl) ?_ | apply forEach_only | apply Only.ite | split | (intro)
    | extract_lets

theorem State.acceptLocus_only {ps : Nat} {s0 : State} {s : State} (hp : Foot 12 ps) (hk : Only ps s0 s) : Only ps s0 (State.acceptLocus s) := by
  unfold State.acceptLocus; with_reducible repeat' first
    | assumption | apply State.updId_only (hp := Foot.sub (by decide) hp)
    | refine State.updFlash_only (hp := Foot.sub (by decide) hp) (fun _ => ⟨rfl, rfl⟩) ?_ | apply Only.ite | split | (intro) | extract_lets

theorem State.acceptPort_only {ps : Nat} {s0 : State} {s : State} (p : Nat) (hp : Foot 8 ps) (hk : Only ps s0 s) : Only ps s0 (State.acceptPort s p)
    := by
  unfold State.acceptPort; with_reducible repeat' first
    | assumption | refine State.updFlash_only (hp := Foot.sub (by decide) hp) (fun _ => ⟨rfl, rfl⟩) ?_ | apply Only.ite | split | (intro)
    | extract_lets

theorem State.asWriter_only {ps : Nat} {s0 : State} {s : State} (r : Req) (cmd : Nat) (f : Writer → State → State) (hp : Foot 8388608 ps) (hk : Only
    ps s0 s) (hf : ∀ (x0 : Writer) (x1 : State), Only ps s0 x1 → Only ps s0 (f x0 x1)) : Only ps s0 (State.asWriter s r cmd f) := by
  unfold State.asWriter; with_reducible repeat' first
    | assumption | apply State.vendor_only (hp := Foot.sub (by decide) hp) | apply hf | apply Only.ite | split | (intro) | extract_lets

theorem State.written_only {ps : Nat} {s0 : State} {s : State} (w : Writer) (hp : Foot 16777216 ps) (hk : Only ps s0 s) : Only ps s0 (State.written s
    w).2 := by
  unfold State.written; with_reducible repeat' first
    | assumption | apply State.spend_only (hp := Foot.sub (by decide) hp) | apply Only.ite | split | (intro) | extract_lets

theorem State.commitLive_only {ps : Nat} {s0 : State} {s : State} (c : Cfg) (hp : Foot 14814238 ps) (hk : Only ps s0 s) : Only ps s0
    (State.commitLive s c) := by
  unfold State.commitLive; with_reducible repeat' first
    | assumption | apply State.updId_only (hp := Foot.sub (by decide) hp) | apply State.goLive_only (hp := Foot.sub (by decide) hp)
    | apply Only.ite | split | (intro) | extract_lets

theorem State.chooseAlign_only {ps : Nat} {s0 : State} {s : State} (hp : Foot 16384 ps) (hk : Only ps s0 s) : Only ps s0 (State.chooseAlign s) := by
  unfold State.chooseAlign; with_reducible repeat' first
    | assumption | apply State.updDet_only (hp := Foot.sub (by decide) hp) | apply Only.ite | split | (intro) | extract_lets

theorem heldEffect_only {ps : Nat} {s0 : State} (c : Instr) {s : State} (hp : Foot 2361183241430594748415 ps) (hk : Only ps s0 s) : Only ps s0
    (heldEffect c s) := by
  unfold heldEffect; with_reducible repeat' first
    | assumption | apply effDrained_only (hp := Foot.sub (by decide) hp) | apply effHostLoss_only (hp := Foot.sub (by decide) hp)
    | apply effStart_only (hp := Foot.sub (by decide) hp) | apply effGeyRestored_only (hp := Foot.sub (by decide) hp)
    | apply effStepHold_only (hp := Foot.sub (by decide) hp) | apply effRecoveryNotice_only (hp := Foot.sub (by decide) hp)
    | apply effGeyCkpt_only (hp := Foot.sub (by decide) hp) | apply effReexec_only (hp := Foot.sub (by decide) hp)
    | apply effRedUp_only (hp := Foot.sub (by decide) hp) | apply effPmap_only (hp := Foot.sub (by decide) hp)
    | apply effGeyBindReply_only (hp := Foot.sub (by decide) hp) | apply effProbe_only (hp := Foot.sub (by decide) hp)
    | apply effModuleLost_only (hp := Foot.sub (by decide) hp) | apply effCoordBeat_only (hp := Foot.sub (by decide) hp)
    | apply effResume_only (hp := Foot.sub (by decide) hp) | apply effGeyReseed_only (hp := Foot.sub (by decide) hp)
    | apply effGeyRestore_only (hp := Foot.sub (by decide) hp) | apply effGeyCkptDone_only (hp := Foot.sub (by decide) hp)
    | apply effArmed_only (hp := Foot.sub (by decide) hp) | apply effProbeReply_only (hp := Foot.sub (by decide) hp)
    | apply effTakeover_only (hp := Foot.sub (by decide) hp) | apply effTakeoverState_only (hp := Foot.sub (by decide) hp)
    | apply effSelfLost_only (hp := Foot.sub (by decide) hp) | apply effAck_only (hp := Foot.sub (by decide) hp)
    | apply effGeyFetch_only (hp := Foot.sub (by decide) hp) | apply effFaultReport_only (hp := Foot.sub (by decide) hp)
    | apply effCommit_only (hp := Foot.sub (by decide) hp) | apply effGeySpareReady_only (hp := Foot.sub (by decide) hp)
    | apply effStepConfirm_only (hp := Foot.sub (by decide) hp) | apply effRedDown_only (hp := Foot.sub (by decide) hp)
    | apply effDrain_only (hp := Foot.sub (by decide) hp) | apply effGeyBind_only (hp := Foot.sub (by decide) hp)
    | apply effGeyTakeDone_only (hp := Foot.sub (by decide) hp) | apply effRouteBreak_only (hp := Foot.sub (by decide) hp)
    | apply effGeyTake_only (hp := Foot.sub (by decide) hp) | apply Only.ite | split | (intro) | extract_lets

theorem State.request_only {ps : Nat} {s0 : State} {s : State} (p : Nat) (req : Nat) (carry : State → State) (hp : Foot 8390656 ps) (hk : Only ps s0
    s) (hcarry : ∀ (x0 : State), Only ps s0 x0 → Only ps s0 (carry x0)) : Only ps s0 (State.request s p req carry) := by
  unfold State.request; with_reducible repeat' first
    | assumption | apply State.sendLsm_only (hp := Foot.sub (by decide) hp) | apply State.updPort_only (hp := Foot.sub (by decide) hp)
    | apply hcarry | apply Only.ite | split | (intro) | extract_lets

theorem State.takeSample_only {ps : Nat} {s0 : State} {s : State} (k : Nat) (r : Reading) (hp : Foot 21037568 ps) (hk : Only ps s0 s) : Only ps s0
    (State.takeSample s k r) := by
  unfold State.takeSample; with_reducible repeat' first
    | assumption | apply State.bump_only (hp := Foot.sub (by decide) hp) | apply State.fresh_only (hp := Foot.sub (by decide) hp)
    | apply State.updTel_only (hp := Foot.sub (by decide) hp) | apply State.updCluster_only (hp := Foot.sub (by decide) hp) | apply Only.ite
    | split | (intro) | extract_lets

theorem State.metrics_only {ps : Nat} {s0 : State} {s : State} (now : List Nat) (hp : Foot 16777216 ps) (hk : Only ps s0 s) : Only ps s0
    (State.metrics s now).2 := by
  unfold State.metrics; with_reducible repeat' first
    | assumption | apply State.fresh_only (hp := Foot.sub (by decide) hp) | apply Only.ite | split | (intro) | extract_lets

theorem State.endInterval_only {ps : Nat} {s0 : State} {s : State} (i : Nat) (hp : Foot 737869762948448344016 ps) (hk : Only ps s0 s) : Only ps s0
    (State.endInterval s i) := by
  unfold State.endInterval; with_reducible repeat' first
    | assumption | apply State.updTel_only (hp := Foot.sub (by decide) hp) | apply State.telFold_only (hp := Foot.sub (by decide) hp)
    | apply State.metrics_only (hp := Foot.sub (by decide) hp) | apply Only.ite | split | (intro) | extract_lets

theorem State.emitRecords_only {ps : Nat} {s0 : State} {s : State} (k : Nat) (hp : Foot 12779520 ps) (hk : Only ps s0 s) : Only ps s0
    (State.emitRecords s k) := by
  unfold State.emitRecords; with_reducible repeat' first
    | assumption | apply State.flushVent_only (hp := Foot.sub (by decide) hp) | apply State.updEvr_only (hp := Foot.sub (by decide) hp)
    | apply State.updTel_only (hp := Foot.sub (by decide) hp) | apply Only.ite | split | (intro) | extract_lets

theorem State.telGuard_only {ps : Nat} {s0 : State} {s : State} (h : Hdr) (t : TelPkt) (f : State → State) (hp : Foot 14812177 ps) (hk : Only ps s0
    s) (hf : ∀ (x0 : State), Only ps s0 x0 → Only ps s0 (f x0)) : Only ps s0 (State.telGuard s h t f) := by
  unfold State.telGuard; with_reducible repeat' first
    | assumption | apply State.advanceTo_only (hp := Foot.sub (by decide) hp) | apply State.domainDrop_only (hp := Foot.sub (by decide) hp)
    | apply State.bump_only (hp := Foot.sub (by decide) hp) | apply State.marked_only (hp := Foot.sub (by decide) hp) | apply hf | apply Only.ite
    | split | (intro) | extract_lets

theorem State.subReply_only {ps : Nat} {s0 : State} {s : State} (port : Nat) (addr : Nat) (udp : Nat) (subId : Nat) (status : Nat) (lease : Nat)
    (retryMs : Nat) (nextSeq : Nat) (hp : Foot 8388608 ps) (hk : Only ps s0 s) : Only ps s0 (State.subReply s port addr udp subId status lease
    retryMs nextSeq) := by
  unfold State.subReply; with_reducible repeat' first
    | assumption | apply State.emit_only (hp := Foot.sub (by decide) hp) | apply Only.ite | split | (intro) | extract_lets

theorem State.control_only {ps : Nat} {s0 : State} {s : State} (r : Req) (completion : Nat) (data : List Byte) (hp : Foot 8388608 ps) (hk : Only ps
    s0 s) : Only ps s0 (State.control s r completion data) := by
  unfold State.control; with_reducible repeat' first
    | assumption | apply State.emit_only (hp := Foot.sub (by decide) hp) | apply Only.ite | split | (intro) | extract_lets

theorem State.pldm_only {ps : Nat} {s0 : State} {s : State} (r : Req) (completion : Nat) (data : List Byte) (hp : Foot 8388608 ps) (hk : Only ps s0
    s) : Only ps s0 (State.pldm s r completion data) := by
  unfold State.pldm; with_reducible repeat' first
    | assumption | apply State.emit_only (hp := Foot.sub (by decide) hp) | apply Only.ite | split | (intro) | extract_lets

theorem State.pldmBase_only {ps : Nat} {s0 : State} {s : State} (r : Req) (f : State → State) (hk : Only ps s0 s) (hf : ∀ (x0 : State), Only ps s0 x0
    → Only ps s0 (f x0)) : Only ps s0 (State.pldmBase s r f) := by
  unfold State.pldmBase; with_reducible repeat' first
    | assumption | apply hf | apply Only.ite | split | (intro) | extract_lets

theorem State.pldmGate_only {ps : Nat} {s0 : State} {s : State} (r : Req) (f : State → State) (hp : Foot 8388608 ps) (hk : Only ps s0 s) (hf : ∀ (x0
    : State), Only ps s0 x0 → Only ps s0 (f x0)) : Only ps s0 (State.pldmGate s r f) := by
  unfold State.pldmGate; with_reducible repeat' first
    | assumption | apply State.pldm_only (hp := Foot.sub (by decide) hp) | apply hf | apply Only.ite | split | (intro) | extract_lets

theorem State.nearRead_only {ps : Nat} {s0 : State} {s : State} (a : Nat) (n : Nat) (rd : ReadOutcome) (hp : Foot 288230376158138576 ps) (hk : Only
    ps s0 s) : Only ps s0 (State.nearRead s a n rd).2 := by
  unfold State.nearRead; with_reducible repeat' first
    | assumption | apply State.corrected_only (hp := Foot.sub (by decide) hp) | apply State.uncorrectable_only (hp := Foot.sub (by decide) hp)
    | apply Only.ite | split | (intro) | extract_lets

theorem State.fgSlots_only {ps : Nat} {s0 : State} {s : State} (a : Nat) (n : Nat) (hp : Foot 4194304 ps) (hk : Only ps s0 s) : Only ps s0
    (State.fgSlots s a n) := by
  unfold State.fgSlots; with_reducible repeat' first
    | assumption | apply State.bump_only (hp := Foot.sub (by decide) hp) | apply Only.ite | split | (intro) | extract_lets

theorem State.readRange_only {ps : Nat} {s0 : State} {s : State} (x : Nat) (a : Nat) (n : Nat) (unit : Nat) (opId : Nat) (layer : Nat) (rd :
    ReadOutcome) (hp : Foot 738302108512675846096 ps) (hk : Only ps s0 s) : Only ps s0 (State.readRange s x a n unit opId layer rd).2 := by
  unfold State.readRange; with_reducible repeat' first
    | assumption | apply State.readBlock_only (hp := Foot.sub (by decide) hp) | apply State.reportBlock_only (hp := Foot.sub (by decide) hp)
    | apply State.fgSlots_only (hp := Foot.sub (by decide) hp) | apply State.nearRead_only (hp := Foot.sub (by decide) hp) | apply Only.ite
    | apply foldl_onlyS | apply foldl_only1 | apply foldl_only2 | split | (intro) | extract_lets

theorem State.writeRange_only {ps : Nat} {s0 : State} {s : State} (x : Nat) (a : Nat) (opId : Nat) (layer : Nat) (bs : List Byte) (hp : Foot
    738302108512675846096 ps) (hk : Only ps s0 s) : Only ps s0 (State.writeRange s x a opId layer bs) := by
  unfold State.writeRange; with_reducible repeat' first
    | assumption | apply State.fgSlots_only (hp := Foot.sub (by decide) hp) | apply State.writePart_only (hp := Foot.sub (by decide) hp)
    | apply State.writeNear_only (hp := Foot.sub (by decide) hp) | apply forEach_only | apply Only.ite | split | (intro) | extract_lets

theorem State.transfer_only {ps : Nat} {s0 : State} {s : State} (x : Nat) (src : Nat) (dst : Nat) (n : Nat) (unit : Nat) (opId : Nat) (layer : Nat)
    (rd : ReadOutcome) (hp : Foot 812089084807514052560 ps) (hk : Only ps s0 s) : Only ps s0 (State.transfer s x src dst n unit opId layer rd) := by
  unfold State.transfer; with_reducible repeat' first
    | assumption | apply State.readRange_only (hp := Foot.sub (by decide) hp) | apply State.addrErr_only (hp := Foot.sub (by decide) hp)
    | apply State.writeRange_only (hp := Foot.sub (by decide) hp) | apply Only.ite | split | (intro) | extract_lets

theorem State.readTensor_only {ps : Nat} {s0 : State} {s : State} (x : Nat) (opId : Nat) (layer : Nat) (t : Tensor) (rd : ReadOutcome) (hp : Foot
    738302108512675846096 ps) (hk : Only ps s0 s) : Only ps s0 (State.readTensor s x opId layer t rd).2 := by
  unfold State.readTensor; with_reducible repeat' first
    | assumption | apply State.readBlock_only (hp := Foot.sub (by decide) hp) | apply State.fgSlots_only (hp := Foot.sub (by decide) hp)
    | apply Only.ite | apply foldl_onlyS | apply foldl_only1 | apply foldl_only2 | split | (intro) | extract_lets

theorem State.writeTensor_only {ps : Nat} {s0 : State} {s : State} (x : Nat) (t : Tensor) (blocks : List (List Byte)) (hp : Foot
    737869762948403036608 ps) (hk : Only ps s0 s) : Only ps s0 (State.writeTensor s x t blocks) := by
  unfold State.writeTensor; with_reducible repeat' first
    | assumption | apply State.writeBlock_only (hp := Foot.sub (by decide) hp) | apply State.fgSlots_only (hp := Foot.sub (by decide) hp)
    | apply forEach_only | apply Only.ite | split | (intro) | extract_lets

theorem State.countLate_only {ps : Nat} {s0 : State} {s : State} (g : Nat) (last : Bool) (hp : Foot 6423056 ps) (hk : Only ps s0 s) : Only ps s0
    (State.countLate s g last) := by
  unfold State.countLate; with_reducible repeat' first
    | assumption | apply State.bump_only (hp := Foot.sub (by decide) hp) | apply State.updCluster_only (hp := Foot.sub (by decide) hp)
    | apply State.setEvt_only (hp := Foot.sub (by decide) hp) | apply Only.ite | split | (intro) | extract_lets

theorem State.tryRelease_only {ps : Nat} {s0 : State} {s : State} (x : Nat) (barrier : Nat) (hp : Foot 73786976294844629584 ps) (hk : Only ps s0 s) :
    Only ps s0 (State.tryRelease s x barrier) := by
  unfold State.tryRelease; with_reducible repeat' first
    | assumption | apply State.updExec_only (hp := Foot.sub (by decide) hp) | apply forEach_only
    | apply State.countLate_only (hp := Foot.sub (by decide) hp) | apply Only.ite | split | (intro) | extract_lets

theorem State.beginOp_only {ps : Nat} {s0 : State} {s : State} (x : Nat) (opId : Nat) (unit : Nat) (g : Nat) (hp : Foot 73786976294838207040 ps) (hk
    : Only ps s0 s) : Only ps s0 (State.beginOp s x opId unit g) := by
  unfold State.beginOp; with_reducible repeat' first
    | assumption | apply State.updCluster_only (hp := Foot.sub (by decide) hp) | apply State.updExec_only (hp := Foot.sub (by decide) hp)
    | apply Only.ite | split | (intro) | extract_lets

theorem State.launchBatchOf_only {ps : Nat} {s0 : State} {s : State} (g : Nat) (r : ThinReq) (hp : Foot 73786976294838207040 ps) (hk : Only ps s0 s)
    : Only ps s0 (State.launchBatchOf s g r) := by
  unfold State.launchBatchOf; with_reducible repeat' first
    | assumption | apply State.updCluster_only (hp := Foot.sub (by decide) hp) | apply forEach_only
    | apply State.beginOp_only (hp := Foot.sub (by decide) hp) | apply Only.ite | split | (intro) | extract_lets

theorem State.launchBatch_only {ps : Nat} {s0 : State} {s : State} (g : Nat) (hp : Foot 73786976294838207040 ps) (hk : Only ps s0 s) : Only ps s0
    (State.launchBatch s g) := by
  unfold State.launchBatch; with_reducible repeat' first
    | assumption | apply State.launchBatchOf_only (hp := Foot.sub (by decide) hp) | apply Only.ite | split | (intro) | extract_lets

theorem State.queueThin_only {ps : Nat} {s0 : State} {s : State} (x : Nat) (opId : Nat) (rows : Nat) (g : Nat) (hp : Foot 73786976294838207040 ps)
    (hk : Only ps s0 s) : Only ps s0 (State.queueThin s x opId rows g) := by
  unfold State.queueThin; with_reducible repeat' first
    | assumption | apply State.launchBatchOf_only (hp := Foot.sub (by decide) hp) | apply State.updCluster_only (hp := Foot.sub (by decide) hp)
    | apply State.beginOp_only (hp := Foot.sub (by decide) hp) | apply Only.ite | split | (intro) | extract_lets

theorem State.shadowReport_only {ps : Nat} {s0 : State} {s : State} (x : Nat) (o : OpDesc) (unit : Nat) (why : Nat) (hp : Foot 144115188090668112 ps)
    (hk : Only ps s0 s) : Only ps s0 (State.shadowReport s x o unit why) := by
  unfold State.shadowReport; with_reducible repeat' first
    | assumption | apply State.report_only (hp := Foot.sub (by decide) hp) | apply Only.ite | split | (intro) | extract_lets

theorem State.vote_only {ps : Nat} {s0 : State} {s : State} (x : Nat) (o : OpDesc) (r : Repeat) (b : ShadowObs) (hp : Foot 738013878136524134352 ps)
    (hk : Only ps s0 s) : Only ps s0 (State.vote s x o r b) := by
  unfold State.vote; with_reducible repeat' first
    | assumption | apply State.judge_only (hp := Foot.sub (by decide) hp) | apply State.updRecov_only (hp := Foot.sub (by decide) hp)
    | apply forEach_only | apply State.shadowReport_only (hp := Foot.sub (by decide) hp) | apply Only.ite | split | (intro) | extract_lets

theorem State.shadowCompare_only {ps : Nat} {s0 : State} {s : State} (x : Nat) (o : OpDesc) (b : ShadowObs) (hp : Foot 738013878136524134352 ps) (hk
    : Only ps s0 s) : Only ps s0 (State.shadowCompare s x o b) := by
  unfold State.shadowCompare; with_reducible repeat' first
    | assumption | apply State.bump_only (hp := Foot.sub (by decide) hp) | apply State.vote_only (hp := Foot.sub (by decide) hp)
    | apply State.updRecov_only (hp := Foot.sub (by decide) hp) | apply State.shadowReport_only (hp := Foot.sub (by decide) hp) | apply Only.ite
    | split | (intro) | extract_lets

theorem State.captureFor_only {ps : Nat} {s0 : State} {s : State} (x : Nat) (o : OpDesc) (hp : Foot 1033450013692028671952 ps) (hk : Only ps s0 s) :
    Only ps s0 (State.captureFor s x o) := by
  unfold State.captureFor; with_reducible repeat' first
    | assumption | apply forEach_only
    | refine State.updCtx_only (a := 295436135555504537600) (Foot.sub (by decide) hp) (by with_unfolding_all (intro c q hq; cases q <;> first
    | (cases hq; done) | rfl)) ?_ | apply State.capture_only (hp := Foot.sub (by decide) hp) | apply Only.ite | split | (intro) | extract_lets

theorem State.powerDown_only {ps : Nat} {s0 : State} {s : State} (hp : Foot 2361183241430561193983 ps) (hk : Only ps s0 s) : Only ps s0
    (State.powerDown s) := by
  unfold State.powerDown; with_reducible repeat' first
    | assumption | apply State.unpowered_only (hp := Foot.sub (by decide) hp) | apply State.disableGroup_only (hp := Foot.sub (by decide) hp)
    | apply Only.ite | split | (intro) | extract_lets

theorem State.inputTrip_only {ps : Nat} {s0 : State} {s : State} (hp : Foot 2361183241430561193983 ps) (hk : Only ps s0 s) : Only ps s0
    (State.inputTrip s) := by
  unfold State.inputTrip; with_reducible repeat' first
    | assumption | apply State.updPins_only (hp := Foot.sub (by decide) hp) | apply State.powerDown_only (hp := Foot.sub (by decide) hp)
    | apply Only.ite | split | (intro) | extract_lets

theorem State.setConn_only {ps : Nat} {s0 : State} {s : State} (r : Req) (c : SpdmConn) (hp : Foot 524288 ps) (hk : Only ps s0 s) : Only ps s0
    (State.setConn s r c) := by
  unfold State.setConn; with_reducible repeat' first
    | assumption | apply State.updMgmt_only (hp := Foot.sub (by decide) hp) | apply Only.ite | split | (intro) | extract_lets

theorem State.spdm_only {ps : Nat} {s0 : State} {s : State} (r : Req) (code : Nat) (p1 : Nat) (p2 : Nat) (data : List Byte) (hp : Foot 8388608 ps)
    (hk : Only ps s0 s) : Only ps s0 (State.spdm s r code p1 p2 data) := by
  unfold State.spdm; with_reducible repeat' first
    | assumption | apply State.emit_only (hp := Foot.sub (by decide) hp) | apply Only.ite | split | (intro) | extract_lets

theorem State.spdmError_only {ps : Nat} {s0 : State} {s : State} (r : Req) (err : Nat) (hp : Foot 8388608 ps) (hk : Only ps s0 s) : Only ps s0
    (State.spdmError s r err) := by
  unfold State.spdmError; with_reducible repeat' first
    | assumption | apply State.spdm_only (hp := Foot.sub (by decide) hp) | apply Only.ite | split | (intro) | extract_lets

theorem State.notReadyYet_only {ps : Nat} {s0 : State} {s : State} (r : Req) (request : Nat) (token : Nat) (hp : Foot 25165824 ps) (hk : Only ps s0
    s) : Only ps s0 (State.notReadyYet s r request token) := by
  unfold State.notReadyYet; with_reducible repeat' first
    | assumption | apply State.spdm_only (hp := Foot.sub (by decide) hp) | apply State.hint_only (hp := Foot.sub (by decide) hp) | apply Only.ite
    | split | (intro) | extract_lets

theorem State.spdmStep_only {ps : Nat} {s0 : State} {s : State} (r : Req) (phase : Nat) (request : Nat) (body : List Byte) (code : Nat) (p1 : Nat)
    (p2 : Nat) (data : List Byte) (hp : Foot 8912896 ps) (hk : Only ps s0 s) : Only ps s0 (State.spdmStep s r phase request body code p1 p2 data) :=
    by
  unfold State.spdmStep; with_reducible repeat' first
    | assumption | apply State.setConn_only (hp := Foot.sub (by decide) hp) | apply State.spdm_only (hp := Foot.sub (by decide) hp)
    | apply Only.ite | split | (intro) | extract_lets

theorem State.spdmIn_only {ps : Nat} {s0 : State} {s : State} (r : Req) (phase : Nat) (f : SpdmConn → State → State) (hp : Foot 8388608 ps) (hk :
    Only ps s0 s) (hf : ∀ (x0 : SpdmConn) (x1 : State), Only ps s0 x1 → Only ps s0 (f x0 x1)) : Only ps s0 (State.spdmIn s r phase f) := by
  unfold State.spdmIn; with_reducible repeat' first
    | assumption | apply State.spdmError_only (hp := Foot.sub (by decide) hp) | apply hf | apply Only.ite | split | (intro) | extract_lets

theorem State.spdmLate_only {ps : Nat} {s0 : State} {s : State} (r : Req) (request : Nat) (phase : Nat) (f : SpdmConn → State → State) (hp : Foot
    25165824 ps) (hk : Only ps s0 s) (hf : ∀ (x0 : SpdmConn) (x1 : State), Only ps s0 x1 → Only ps s0 (f x0 x1)) : Only ps s0 (State.spdmLate s r
    request phase f) := by
  unfold State.spdmLate; with_reducible repeat' first
    | assumption | apply State.spdmIn_only (hp := Foot.sub (by decide) hp) | apply State.notReadyYet_only (hp := Foot.sub (by decide) hp)
    | apply hf | apply Only.ite | split | (intro) | extract_lets

theorem State.nonce_only {ps : Nat} {s0 : State} {s : State} (hp : Foot 16777216 ps) (hk : Only ps s0 s) : Only ps s0 (State.nonce s).2 := by
  unfold State.nonce; with_reducible repeat' first
    | assumption | apply State.spend_only (hp := Foot.sub (by decide) hp) | apply Only.ite | split | (intro) | extract_lets

theorem State.updSession_only {ps : Nat} {s0 : State} {s : State} (id : Nat) (f : Session → Session) (hp : Foot 524288 ps) (hk : Only ps s0 s) : Only
    ps s0 (State.updSession s id f) := by
  unfold State.updSession; with_reducible repeat' first
    | assumption | apply State.updMgmt_only (hp := Foot.sub (by decide) hp) | apply Only.ite | split | (intro) | extract_lets

theorem State.inSpdmSession_only {ps : Nat} {s0 : State} {s : State} (r : Req) (session : Nat) (f : State → State) (hp : Foot 8388608 ps) (hk : Only
    ps s0 s) (hf : ∀ (x0 : State), Only ps s0 x0 → Only ps s0 (f x0)) : Only ps s0 (State.inSpdmSession s r session f) := by
  unfold State.inSpdmSession; with_reducible repeat' first
    | assumption | apply State.spdmError_only (hp := Foot.sub (by decide) hp) | apply hf | apply Only.ite | split | (intro) | extract_lets

theorem State.hearRoot_only {ps : Nat} {s0 : State} {s : State} (root : Nat) (seq : Nat) (hp : Foot 1 ps) (hk : Only ps s0 s) : Only ps s0
    (State.hearRoot s root seq) := by
  unfold State.hearRoot; with_reducible repeat' first
    | assumption | apply State.updTime_only (hp := Foot.sub (by decide) hp) | apply Only.ite | split | (intro) | extract_lets

theorem State.steer_only {ps : Nat} {s0 : State} {s : State} (off : Int) (hp : Foot 1 ps) (hk : Only ps s0 s) : Only ps s0 (State.steer s off) := by
  unfold State.steer; with_reducible repeat' first
    | assumption | apply State.updTime_only (hp := Foot.sub (by decide) hp) | apply Only.ite | split | (intro) | extract_lets

theorem State.watch_only {ps : Nat} {s0 : State} {s : State} (p : Nat) (off : Int) (theirs : Nat) (hp : Foot 6424592 ps) (hk : Only ps s0 s) : Only
    ps s0 (State.watch s p off theirs) := by
  unfold State.watch; with_reducible repeat' first
    | assumption | apply State.setEvt_only (hp := Foot.sub (by decide) hp) | apply State.updPort_only (hp := Foot.sub (by decide) hp)
    | apply Only.ite | split | (intro) | extract_lets

theorem State.acquire_only {ps : Nat} {s0 : State} {s : State} (fc : Nat) (hp : Foot 1180591796639286559825 ps) (hk : Only ps s0 s) : Only ps s0
    (State.acquire s fc) := by
  unfold State.acquire; with_reducible repeat' first
    | assumption | apply State.updTime_only (hp := Foot.sub (by decide) hp) | apply State.tryStart_only (hp := Foot.sub (by decide) hp)
    | apply State.updEvr_only (hp := Foot.sub (by decide) hp) | apply forEach_only | apply Only.ite | split | (intro) | extract_lets

theorem State.ptpOffset_only {ps : Nat} {s0 : State} {s : State} (port : Nat) (t1 : Int) (rx : Nat) (hp : Foot 1180591796639286559825 ps) (hk : Only
    ps s0 s) : Only ps s0 (State.ptpOffset s port t1 rx) := by
  unfold State.ptpOffset; with_reducible repeat' first
    | assumption | apply State.acquire_only (hp := Foot.sub (by decide) hp) | apply State.updTime_only (hp := Foot.sub (by decide) hp)
    | apply State.updPtp_only (hp := Foot.sub (by decide) hp) | apply State.reselect_only (hp := Foot.sub (by decide) hp)
    | apply State.setEvt_only (hp := Foot.sub (by decide) hp) | apply Only.ite | split | (intro) | extract_lets

theorem State.vecStore_only {ps : Nat} {s0 : State} {s : State} (c : CoreCmd) (k : Ctx) (o : OpDesc) (first : Nat) (nearOff : Nat) (vs : List (Val ×
    Bool)) (hp : Foot 73931091482928874960 ps) (hk : Only ps s0 s) : Only ps s0 (State.vecStore s c k o first nearOff vs) := by
  unfold State.vecStore; with_reducible repeat' first
    | assumption | apply State.bump_only (hp := Foot.sub (by decide) hp) | apply State.writeNear_only (hp := Foot.sub (by decide) hp)
    | apply State.addrErr_only (hp := Foot.sub (by decide) hp) | apply State.addStatus_only (hp := Foot.sub (by decide) hp) | apply Only.ite
    | split | (intro) | extract_lets

theorem tick_only {ps : Nat} {s0 : State} {s : State} (hp : Foot 1 ps) (hk : Only ps s0 s) : Only ps s0 (tick s) := by
  unfold tick; with_reducible repeat' first
    | assumption | apply State.updTime_only (hp := Foot.sub (by decide) hp) | apply Only.ite | split | (intro) | extract_lets

end Sys2Proof.Machine
end

