-- ==== Sys2Proof/Laws/Effects.lean ====
section
/-!
SUPPORT. What the shared operations send and set: the messages of a loop over modules, blocks written raw, domains switched, a context
emptied.
-/
namespace Sys2Proof.Machine

/-! ### What has been sent -/

theorem suffix_emit (s : State) (e : Emit) : s.out <:+ (s.emit e).out := ⟨[e], rfl⟩

theorem State.emit_sent (s : State) (e : Emit) : sentBetween s (s.emit e) e := ⟨[e], rfl, List.mem_singleton_self e⟩

theorem ctrlSent.mono {s t u : State} {d m n k p : Nat} (h : ctrlSent s t d m n k p) (hu : t.out <:+ u.out) : ctrlSent s u d m n k p :=
  h.imp (fun _ ⟨a, b, c, e, f, g⟩ => ⟨a, b, c, e, f, g.mono hu⟩)
theorem ctrlSent.before {s t u : State} {d m n k p : Nat} (h : ctrlSent t u d m n k p) (hs : s.out <:+ t.out) : ctrlSent s u d m n k p :=
  h.imp (fun _ ⟨a, b, c, e, f, g⟩ => ⟨a, b, c, e, f, g.before hs⟩)

theorem State.sendCtrl_sent (s : State) (d m n k p : Nat) (pl : List Byte) : ctrlSent s (s.sendCtrl d m n k p pl) d m n k p :=
  ⟨_, rfl, rfl, rfl, rfl, rfl, [_], rfl, List.mem_singleton_self _⟩

theorem State.sendResp_sent (s : State) (d e m n p : Nat) (ec : Bool) : respSent s (s.sendResp d e m n p ec) d e m n p :=
  ⟨ec, [_], rfl, List.mem_singleton_self _⟩

theorem State.sendCtrl_suffix (s : State) (d m n k p : Nat) (pl : List Byte) : s.out <:+ (s.sendCtrl d m n k p pl).out := ⟨[_], rfl⟩

/-- A loop that only adds to what was sent. -/
theorem forEach_suffix {α : Type} {f : State → α → State} (hf : ∀ u a, u.out <:+ (f u a).out) (l : List α) (s : State) :
    s.out <:+ (forEach l s f).out := by
  unfold forEach
  induction l generalizing s with
  | nil => exact List.suffix_rfl
  | cons a l ih => exact (hf s a).trans (ih (f s a))

/-- A loop sends what each of its rounds sends. -/
theorem forEach_ctrlSent {α : Type} {f : State → α → State} (hf : ∀ u a, u.out <:+ (f u a).out) {l : List α} {a : α} (ha : a ∈ l) (s : State)
    {d m n k p : Nat} (hs : ∀ u, ctrlSent u (f u a) d m n k p) : ctrlSent s (forEach l s f) d m n k p := by
  induction l generalizing s with
  | nil => cases ha
  | cons b l ih =>
    rcases List.mem_cons.1 ha with rfl | h
    · exact (hs s).mono (forEach_suffix hf l (f s a))
    · exact (ih h (f s b)).before (hf s b)

theorem State.toAll_sent (s : State) (x m n k p : Nat) (pl : List Byte) {l : Nat} (h : l ∈ (s.ctx x).pmap) :
    ctrlSent s (s.toAll x m n k p pl) l m n k (p + field (s.ctx x).coord.epoch 32 160) := by
  unfold State.toAll
  dsimp only
  exact forEach_ctrlSent (fun u a => State.sendCtrl_suffix u _ _ _ _ _ _) h s (fun u => State.sendCtrl_sent u _ _ _ _ _ _)
theorem State.toAll_suffix (s : State) (x m n k p : Nat) (pl : List Byte) : s.out <:+ (s.toAll x m n k p pl).out := by
  unfold State.toAll
  exact forEach_suffix (fun u a => State.sendCtrl_suffix u _ _ _ _ _ _) _ s
theorem State.toAll_fields (s : State) (x m n k p : Nat) (pl : List Byte) : ∃ f o, s.toAll x m n k p pl = { s with fab := f, out := o } := by
  unfold State.toAll forEach
  dsimp only
  generalize (s.ctx x).pmap = l
  have : ∀ (l : List Nat) (u : State), (∃ f o, u = { s with fab := f, out := o }) →
      ∃ f o, l.foldl (fun w l => w.sendCtrl l m n k (p + field (s.ctx x).coord.epoch 32 160) pl) u = { s with fab := f, out := o } := by
    intro l
    induction l with
    | nil => exact fun _ h => h
    | cons a l ih =>
      intro u hu
      obtain ⟨f, o, rfl⟩ := hu
      exact ih _ ⟨_, _, rfl⟩
  exact this l s ⟨s.fab, s.out, rfl⟩

/-! ### Raw blocks, domains, an emptied context -/

/-- A piece written raw: its bytes, and checks of the blocks it lies in. -/
theorem State.writeRaw_piece (s : State) (a n : Nat) (bs : List Byte) :
    ∃ k, s.writeRaw a (n + 1) bs =
      ((s.writeBytes a (bs.take 4096)).updMem (fun m => { m with checks := k })).writeRaw (a + 4096) n (bs.drop 4096) := by
  by_cases h : a % 4096 = 0
  · exact ⟨_, by rw [State.writeRaw]; simp only [if_pos h]; rfl⟩
  · exact ⟨_, by rw [State.writeRaw]; simp only [if_neg h]; rfl⟩

theorem State.writeRaw_fields (s : State) (a n : Nat) (bs : List Byte) : ∃ m, s.writeRaw a n bs = s.updMem (fun _ => m) := by
  induction n generalizing s a bs with
  | zero => exact ⟨s.mem, rfl⟩
  | succ n ih =>
    obtain ⟨k, ek⟩ := s.writeRaw_piece a n bs
    obtain ⟨m, e⟩ := ih ((s.writeBytes a (bs.take 4096)).updMem (fun m => { m with checks := k })) (a + 4096) (bs.drop 4096)
    exact ⟨m, ek.trans (e.trans rfl)⟩

theorem State.writeRaw_byte (s : State) (a n q : Nat) (bs : List Byte) (hw : Memory.wf s.mem = true) (hn : 4096 * n ≤ bs.length) :
    (s.writeRaw a n bs).byte q = if a ≤ q ∧ q < a + 4096 * n then bs.getD (q - a) 0#8 else s.byte q := by
  induction n generalizing s a bs with
  | zero => rw [if_neg (by omega)]; rfl
  | succ n ih =>
    obtain ⟨k, ek⟩ := s.writeRaw_piece a n bs
    rw [ek, ih _ _ _ (by exact State.wf_writeBytes hw a _) (by simp; omega)]
    have hb : ((s.writeBytes a (bs.take 4096)).updMem (fun m => { m with checks := k })).byte q =
        if a ≤ q then ((bs.take 4096)[q - a]?).getD (s.byte q) else s.byte q := State.byte_writeBytes hw a q _
    rw [hb]
    by_cases h1 : a + 4096 ≤ q ∧ q < a + 4096 + 4096 * n
    · have h2 : a ≤ q ∧ q < a + 4096 * (n + 1) := by omega
      rw [if_pos h1, if_pos h2]
      have e : 4096 + (q - (a + 4096)) = q - a := by omega
      simp [List.getD_eq_getElem?_getD, List.getElem?_drop, e]
    · rw [if_neg h1]
      by_cases h2 : a ≤ q
      · rw [if_pos h2]
        by_cases h3 : q < a + 4096
        · have h4 : a ≤ q ∧ q < a + 4096 * (n + 1) := by omega
          rw [if_pos h4]
          have h5 : q - a < 4096 := by omega
          have h6 : q - a < bs.length := by omega
          simp [h5, h6]
        · have h4 : ¬ (a ≤ q ∧ q < a + 4096 * (n + 1)) := by omega
          rw [if_neg h4]
          have h5 : ¬ (q - a < 4096) := by omega
          simp [List.getElem?_take, h5]
      · have h4 : ¬ (a ≤ q ∧ q < a + 4096 * (n + 1)) := by omega
        rw [if_neg h2, if_neg h4]

theorem forEach_setDomains (s : State) (l : List Nat) (d : DomSt) : ∃ p, forEach l s (fun s p => s.setDomains p d) = s.updPwr (fun _ => p) := by
  unfold forEach
  induction l generalizing s with
  | nil => exact ⟨s.pwr, rfl⟩
  | cons a l ih =>
    obtain ⟨p, e⟩ := ih (s.setDomains a d)
    exact ⟨p, by rw [List.foldl_cons, e]; rfl⟩


/-- Ring pair `n`, and what decides whether a completion is written, are as they were. -/
def samePair (n : Nat) (s t : State) : Prop :=
  t.ring n = s.ring n ∧ t.mbx.linkUp = s.mbx.linkUp ∧ t.mbx.busMaster = s.mbx.busMaster ∧ t.mbx.hostLoss = s.mbx.hostLoss

theorem samePair.refl (n : Nat) (s : State) : samePair n s s := ⟨rfl, rfl, rfl, rfl⟩
theorem samePair.trans {n : Nat} {s t u : State} (h : samePair n s t) (k : samePair n t u) : samePair n s u :=
  ⟨k.1.trans h.1, k.2.1.trans h.2.1, k.2.2.1.trans h.2.2.1, k.2.2.2.trans h.2.2.2⟩
theorem samePair.of_mbx {n : Nat} {s t : State} (h : t.mbx = s.mbx) : samePair n s t := by
  unfold samePair State.ring
  rw [h]
  exact ⟨rfl, rfl, rfl, rfl⟩
theorem samePair.updRing {n k : Nat} (s : State) (f : Ring → Ring) (h : n ≠ k) : samePair n s (s.updRing k f) :=
  ⟨State.ring_updRing_ne s f h, rfl, rfl, rfl⟩
theorem samePair.cacheOutcome (n : Nat) (s : State) (q st r : Nat) : samePair n s (s.cacheOutcome q st r) := ⟨rfl, rfl, rfl, rfl⟩
theorem samePair.cacheForced (n : Nat) (s : State) (e : SqEntry) (st : Nat) : samePair n s (s.cacheForced e st) := by
  unfold State.cacheForced
  split
  · exact .refl _ _
  · exact .cacheOutcome ..
theorem samePair.post {n k : Nat} (s : State) (q st : Nat) (d : Bool) (r : Nat) (h : n ≠ k) : samePair n s (s.post k q st d r) := by
  unfold State.post
  dsimp only
  split
  · exact .refl _ _
  · split
    · exact .updRing s _ h
    · exact (samePair.updRing s (fun r => { r with
          cqTail := if decide ((s.ring k).cqTail + 1 = (s.ring k).size) then 0 else r.cqTail + 1, cqUsed := r.cqUsed + 1,
          phase := if decide ((s.ring k).cqTail + 1 = (s.ring k).size) then !r.phase else r.phase }) h).trans (.of_mbx rfl)
theorem samePair.nextEntry {n k : Nat} (s : State) (h : n ≠ k) : samePair n s (s.nextEntry k) := by
  unfold State.nextEntry
  dsimp only
  split
  · exact .updRing s _ h
  · split
    · exact .updRing s _ h
    · exact (((samePair.updRing s _ h).trans (.updRing _ _ h)).trans (.cacheForced ..)).trans (.post _ _ _ _ _ h)
theorem samePair.complete {n k : Nat} (s : State) (a : Staged) (st r : Nat) (h : n ≠ k) : samePair n s (s.complete k a st r) := by
  have tail : ∀ u : State, samePair n u (if (u.ring k).stalled.isEmpty then u.nextEntry k else u.updRing k (fun r => { r with cur := none })) := by
    intro u
    split
    · exact .nextEntry u h
    · exact .updRing u _ h
  unfold State.complete
  dsimp only
  split
  · exact (samePair.post s _ _ _ _ h).trans (tail _)
  · exact ((samePair.cacheOutcome n s _ _ _).trans (.post _ _ _ _ _ h)).trans (tail _)
theorem samePair.finishRing {n k : Nat} (s : State) (st : Nat) (h : n ≠ k) : samePair n s (s.finishRing k st) := by
  unfold State.finishRing
  split
  · exact .complete s _ _ _ h
  · exact .refl _ _
theorem samePair.forEach {n : Nat} {α : Type} {f : State → α → State} (l : List α) (s : State) (hf : ∀ u, ∀ a ∈ l, samePair n u (f u a)) :
    samePair n s (forEach l s f) := by
  unfold Sys2Proof.Machine.forEach
  induction l generalizing s with
  | nil => exact .refl _ _
  | cons a l ih => exact (hf s a (List.mem_cons_self ..)).trans (ih _ (fun u b hb => hf u b (List.mem_cons_of_mem _ hb)))

/-- The rings whose command waits on a context. -/
def Ctx.waiting (c : Ctx) : List Nat := c.holdRings ++ (c.gey.writeAcks.map (·.2)).eraseDups ++ c.tearRings

/-- A context that ends leaves the pairs alone on which nothing waits for it, unless judging its repeats resets the module. -/
theorem State.emptyCtx_pair (s : State) (x : Nat) {n : Nat} (h : n ∉ (s.ctx x).waiting)
    (hs : (s.emptyCtx x).flash.starts = s.flash.starts) : samePair n s (s.emptyCtx x) := by
  have hw : ∀ u st, ∀ r ∈ (s.ctx x).waiting, samePair n u (u.finishRing r st) :=
    fun u st r hr => .finishRing u st (fun e => h (e ▸ hr))
  unfold State.emptyCtx at hs ⊢
  dsimp only at hs ⊢
  split
  · exact .refl _ _
  · next hne =>
    rw [if_neg hne] at hs
    generalize hv : State.cancelDumps _ x = v at hs ⊢
    have hA : Only 1033017668127801104336 s v := by
      rw [← hv]
      exact State.cancelDumps_only x (Foot.sub (by decide) (Foot.refl _)) (State.updRecov_only _ (Foot.sub (by decide) (Foot.refl _))
        (forEach_only _ (Only.refl _ s) (fun u r k => State.settleRepeat_only x r false (Foot.sub (by decide) (Foot.refl _)) k)))
    have h1 : samePair n v (Sys2Proof.Machine.forEach (s.ctx x).tearRings (Sys2Proof.Machine.forEach
        ((s.ctx x).holdRings ++ ((s.ctx x).gey.writeAcks.map (·.2)).eraseDups) v (fun s r => s.finishRing r 5)) (fun s r => s.finishRing r 0)) :=
      (samePair.forEach _ _ (fun u r hr => hw u 5 r (List.mem_append_left _ hr))).trans
        (.forEach _ _ (fun u r hr => hw u 0 r (List.mem_append_right _ hr)))
    have h2 : (Sys2Proof.Machine.forEach (s.ctx x).tearRings (Sys2Proof.Machine.forEach
        ((s.ctx x).holdRings ++ ((s.ctx x).gey.writeAcks.map (·.2)).eraseDups) v (fun s r => s.finishRing r 5))
        (fun s r => s.finishRing r 0)).flash.starts = v.flash.starts :=
      Only.starts_eq (Only.weaken (a := 8388640) (Foot.sub (by decide) (Foot.refl _))
        (forEach_only _ (forEach_only _ (Only.refl _ v) (fun u r k => State.finishRing_only r 5 (Foot.refl _) k))
          (fun u r k => State.finishRing_only r 0 (Foot.refl _) k)))
    generalize Sys2Proof.Machine.forEach (s.ctx x).tearRings _ _ = w at hs h1 h2 ⊢
    have hB : ∀ u, Only 2361183241430561193951 w u → u.flash.starts = s.flash.starts → samePair n s u := by
      intro u hu hs
      have e : v.flash.starts = s.flash.starts :=
        Nat.le_antisymm (by rw [← hs, ← h2]; exact hu.starts) hA.starts
      exact ((samePair.of_mbx (hA.parts (fun _ => e) .mbx (by decide))).trans h1).trans (.of_mbx hu.mbx_eq)
    refine hB _ ?_ hs
    have hp := Foot.refl 2361183241430561193951
    have hk := Only.refl 2361183241430561193951 w
    with_reducible repeat' first
      | assumption | apply State.setCtx_only (hp := Foot.sub (by decide) hp) | apply State.updTel_only (hp := Foot.sub (by decide) hp)
      | apply State.pwrNotify_only (hp := Foot.sub (by decide) hp) | apply State.updPwrCtx_only (hp := Foot.sub (by decide) hp)
      | apply State.updClus_only (hp := Foot.sub (by decide) hp) | apply State.idleClusters_only (hp := Foot.sub (by decide) hp)
      | apply State.setDomains_only (hp := Foot.sub (by decide) hp) | apply State.updFab_only (hp := Foot.sub (by decide) hp)
      | apply forEach_only | (intro)
/-- The pair of an entry that ends a context on which its own pair does not wait. -/
theorem completed_of_pair {s u : State} {n : Nat} (hm : samePair n s u) (ho : s.out <:+ u.out) (a : Staged) (st r : Nat) :
    completed s (u.complete n a st r) n a st r := by
  intro hp
  have h1 : u.posts n = true := by simpa only [State.posts, hm.1, hm.2.1, hm.2.2.1, hm.2.2.2] using hp
  have h2 : u.completion n a st r = s.completion n a st r := by simp only [State.completion, hm.1]
  exact h2 ▸ (State.complete_sent u n a st r h1).before ho
theorem State.emptyCtx_ctx (s : State) (x : Nat) (h : (s.ctx x).st ≠ .empty) : (s.emptyCtx x).ctx x = Ctx.reset := by
  unfold State.emptyCtx; dsimp only; rw [if_neg h, State.ctx_setCtx_self]

theorem mem_maskParts {m p : Nat} (h : p ∈ maskParts m) : p < 16 := by
  unfold maskParts bitList at h
  exact List.mem_range.1 (List.mem_filter.1 h).1

/-- Every domain of the listed partitions reads as it was set. -/
theorem State.forEach_setDomains_dom (s : State) (l : List Nat) (d : DomSt) {p : Nat} (hp : p ∈ l ∨ s.dom p = d) (hl : ∀ q ∈ l, q < 16)
    (h : p < 16) : (forEach l s (fun s p => s.setDomains p d)).dom p = d := by
  unfold forEach
  induction l generalizing s with
  | nil => rcases hp with q | q
           · cases q
           · exact q
  | cons a l ih =>
    have ha : a < 16 := hl a (List.mem_cons_self ..)
    apply ih
    · by_cases e : p = a
      · right
        subst e
        unfold State.setDomains
        rw [State.dom_setDom_ne _ _ (by omega), State.dom_setDom_ne _ _ (by omega), State.dom_setDom_self]
      · rcases hp with q | q
        · rcases List.mem_cons.1 q with q | q
          · exact absurd q e
          · exact .inl q
        · right
          unfold State.setDomains
          rw [State.dom_setDom_ne _ _ (by omega), State.dom_setDom_ne _ _ (by omega), State.dom_setDom_ne _ _ e, q]
    · exact fun q hq => hl q (List.mem_cons_of_mem _ hq)

end Sys2Proof.Machine
end

