-- ==== Sys2Proof/Laws/KeepsExec.lean ====
section
/-!
SUPPORT. What no command undoes (`Keeps`), for the commands: one lemma per operation.
-/
set_option linter.all false
namespace Sys2Proof.Machine

theorem onRing_keeps {pw : Bool} {s0 : State} (n : Nat) {r : State} (hk : Keeps pw s0 r) : KeepsO pw s0 (onRing n r) := by
  unfold onRing; with_reducible repeat' first
    | assumption | exact KeepsO.fault _ | exact KeepsO.refused _ | apply KeepsO.next | apply KeepsO.ite | apply Keeps.ite | split | (intro)
    | extract_lets

theorem execIdentify_keeps {pw : Bool} {s0 : State} (ring : Nat) {s : State} (hk : Keeps pw s0 s) : KeepsO pw s0 (execIdentify ring s) := by
  unfold execIdentify; with_reducible repeat' first
    | assumption | exact KeepsO.fault _ | exact KeepsO.refused _ | apply KeepsO.next | apply KeepsO.ite | apply done_keeps | apply onRing_keeps
    | apply State.hostPayload_keeps | apply State.runEntry_keeps | apply Keeps.ite | split | (intro) | extract_lets

theorem execAttach_keeps {pw : Bool} {s0 : State} (ring : Nat) {s : State} (hk : Keeps pw s0 s) : KeepsO pw s0 (execAttach ring s) := by
  unfold execAttach; with_reducible repeat' first
    | assumption | exact KeepsO.fault _ | exact KeepsO.refused _ | apply KeepsO.next | apply KeepsO.ite | apply done_keeps | apply onRing_keeps
    | apply State.runEntry_keeps | apply State.updMbx_keeps | apply Keeps.ite | split | (intro) | extract_lets

theorem execNop_keeps {pw : Bool} {s0 : State} (ring : Nat) {s : State} (hk : Keeps pw s0 s) : KeepsO pw s0 (execNop ring s) := by
  unfold execNop; with_reducible repeat' first
    | assumption | exact KeepsO.fault _ | exact KeepsO.refused _ | apply KeepsO.next | apply KeepsO.ite | apply done_keeps | apply onRing_keeps
    | apply State.runEntry_keeps | apply Keeps.ite | split | (intro) | extract_lets

theorem execCtxLoad_keeps {pw : Bool} {s0 : State} (ring : Nat) {s : State} (hk : Keeps pw s0 s) : KeepsO pw s0 (execCtxLoad ring s) := by
  unfold execCtxLoad; with_reducible repeat' first
    | assumption | exact KeepsO.fault _ | exact KeepsO.refused _ | apply KeepsO.next | apply KeepsO.ite | apply done_keeps
    | apply State.setDomains_keeps | apply onRing_keeps | apply State.writeRaw_keeps | apply State.runLoader_keeps | apply State.runEntry_keeps
    | apply forEach_keeps | apply State.updCtx_keeps | apply State.setCtx_keeps | apply Keeps.ite | split | (intro) | extract_lets

theorem execCtxArm_keeps {pw : Bool} {s0 : State} (ring : Nat) {s : State} (hk : Keeps pw s0 s) : KeepsO pw s0 (execCtxArm ring s) := by
  unfold execCtxArm; with_reducible repeat' first
    | assumption | exact KeepsO.fault _ | exact KeepsO.refused _ | apply KeepsO.next | apply KeepsO.ite | apply State.sendCtrl_keeps
    | apply done_keeps | apply State.bind_keeps | apply onRing_keeps | apply State.runEntry_keeps | apply State.updCtx_keeps | apply Keeps.ite
    | split | (intro) | extract_lets

theorem execCtxHold_keeps {pw : Bool} {s0 : State} (ring : Nat) {s : State} (hk : Keeps pw s0 s) : KeepsO pw s0 (execCtxHold ring s) := by
  unfold execCtxHold; with_reducible repeat' first
    | assumption | exact KeepsO.fault _ | exact KeepsO.refused _ | apply KeepsO.next | apply KeepsO.ite | apply done_keeps | apply onRing_keeps
    | apply later_keeps | apply State.runEntry_keeps | apply State.updCtx_keeps | apply State.notCoordinator_keeps | apply Keeps.ite | split
    | (intro) | extract_lets

theorem execCtxResume_keeps {pw : Bool} {s0 : State} (ring : Nat) {s : State} (hk : Keeps pw s0 s) : KeepsO pw s0 (execCtxResume ring s) := by
  unfold execCtxResume; with_reducible repeat' first
    | assumption | exact KeepsO.fault _ | exact KeepsO.refused _ | apply KeepsO.next | apply KeepsO.ite | apply done_keeps | apply onRing_keeps
    | apply State.runEntry_keeps | apply State.resumeJob_keeps | apply State.notCoordinator_keeps | apply Keeps.ite | split | (intro) | extract_lets

theorem execCtxTeardown_keeps {pw : Bool} {s0 : State} (ring : Nat) {s : State} (hk : Keeps pw s0 s) : KeepsO pw s0 (execCtxTeardown ring s) := by
  unfold execCtxTeardown; with_reducible repeat' first
    | assumption | exact KeepsO.fault _ | exact KeepsO.refused _ | apply KeepsO.next | apply KeepsO.ite | apply done_keeps
    | apply State.emptyCtx_keeps | apply onRing_keeps | apply later_keeps | apply State.runEntry_keeps | apply State.updCtx_keeps
    | apply State.notCoordinator_keeps | apply State.drainJob_keeps | apply Keeps.ite | split | (intro) | extract_lets

theorem execTensorWrite_keeps {pw : Bool} {s0 : State} (ring : Nat) {s : State} (hk : Keeps pw s0 s) : KeepsO pw s0 (execTensorWrite ring s) := by
  unfold execTensorWrite; with_reducible repeat' first
    | assumption | exact KeepsO.fault _ | exact KeepsO.refused _ | apply KeepsO.next | apply KeepsO.ite | apply done_keeps
    | apply State.updGey_keeps | apply onRing_keeps | apply State.hostWriteBlocks_keeps | apply later_keeps | apply State.runEntry_keeps
    | apply State.updCtx_keeps | apply Keeps.ite | split | (intro) | extract_lets

theorem execTensorRead_keeps {pw : Bool} {s0 : State} (ring : Nat) (rd : ReadOutcome) {s : State} (hk : Keeps pw s0 s) : KeepsO pw s0 (execTensorRead
    ring rd s) := by
  unfold execTensorRead; with_reducible repeat' first
    | assumption | exact KeepsO.fault _ | exact KeepsO.refused _ | apply KeepsO.next | apply KeepsO.ite | apply done_keeps | apply onRing_keeps
    | apply State.hostPayload_keeps | apply State.hostRead_keeps | apply State.runEntry_keeps | apply State.updCtx_keeps | apply Keeps.ite | split
    | (intro) | extract_lets

theorem execDumpRequest_keeps {pw : Bool} {s0 : State} (ring : Nat) (list : List Byte) {s : State} (hk : Keeps pw s0 s) : KeepsO pw s0
    (execDumpRequest ring list s) := by
  unfold execDumpRequest; with_reducible repeat' first
    | assumption | exact KeepsO.fault _ | exact KeepsO.refused _ | apply KeepsO.next | apply KeepsO.ite | apply done_keeps | apply onRing_keeps
    | apply State.runEntry_keeps | apply State.updMbx_keeps | apply State.updCtx_keeps | apply State.reportDump_keeps | apply State.capture_keeps
    | apply Keeps.ite | split | (intro) | extract_lets

theorem execFingerprintGet_keeps {pw : Bool} {s0 : State} (ring : Nat) {s : State} (hk : Keeps pw s0 s) : KeepsO pw s0 (execFingerprintGet ring s) :=
    by
  unfold execFingerprintGet; with_reducible repeat' first
    | assumption | exact KeepsO.fault _ | exact KeepsO.refused _ | apply KeepsO.next | apply KeepsO.ite | apply done_keeps | apply onRing_keeps
    | apply State.hostPayload_keeps | apply State.runEntry_keeps | apply Keeps.ite | split | (intro) | extract_lets

theorem execPolicySet_keeps {pw : Bool} {s0 : State} (ring : Nat) {s : State} (hk : Keeps pw s0 s) : KeepsO pw s0 (execPolicySet ring s) := by
  unfold execPolicySet; with_reducible repeat' first
    | assumption | exact KeepsO.fault _ | exact KeepsO.refused _ | apply KeepsO.next | apply KeepsO.ite | apply done_keeps | apply onRing_keeps
    | apply State.runEntry_keeps | apply State.updCtx_keeps | apply Keeps.ite | split | (intro) | extract_lets

theorem execCommandAccept_keeps {pw : Bool} {s0 : State} (ring : Nat) (e : SqEntry) (payload : List Byte) {s : State} (hk : Keeps pw s0 s) : KeepsO
    pw s0 (execCommandAccept ring e payload s) := by
  unfold execCommandAccept; with_reducible repeat' first
    | assumption | exact KeepsO.fault _ | exact KeepsO.refused _ | apply KeepsO.next | apply KeepsO.ite | apply onRing_keeps
    | apply State.accept_keeps | apply Keeps.ite | split | (intro) | extract_lets

theorem execSqDoorbell_keeps {pw : Bool} {s0 : State} (ring : Nat) (tail : Nat) {s : State} (hk : Keeps pw s0 s) : KeepsO pw s0 (execSqDoorbell ring
    tail s) := by
  unfold execSqDoorbell; with_reducible repeat' first
    | assumption | exact KeepsO.fault _ | exact KeepsO.refused _ | apply KeepsO.next | apply KeepsO.ite | apply onRing_keeps
    | apply State.updRing_keeps | apply Keeps.ite | split | (intro) | extract_lets

theorem execRingEnWrite_keeps {pw : Bool} {s0 : State} (ring : Nat) (en : Bool) {s : State} (hk : Keeps pw s0 s) : KeepsO pw s0 (execRingEnWrite ring
    en s) := by
  unfold execRingEnWrite; with_reducible repeat' first
    | assumption | exact KeepsO.fault _ | exact KeepsO.refused _ | apply KeepsO.next | apply KeepsO.ite | apply onRing_keeps
    | apply State.updRing_keeps | apply Keeps.ite | split | (intro) | extract_lets

theorem execMbxEnableWrite_keeps {pw : Bool} {s0 : State} (en : Bool) {s : State} (hk : Keeps pw s0 s) : KeepsO pw s0 (execMbxEnableWrite en s) := by
  unfold execMbxEnableWrite; with_reducible repeat' first
    | assumption | exact KeepsO.fault _ | exact KeepsO.refused _ | apply KeepsO.next | apply KeepsO.ite | apply State.enableWrite_keeps
    | apply Keeps.ite | split | (intro) | extract_lets

theorem execCqHeadWrite_keeps {pw : Bool} {s0 : State} (ring : Nat) (head : Nat) {s : State} (hk : Keeps pw s0 s) : KeepsO pw s0 (execCqHeadWrite
    ring head s) := by
  unfold execCqHeadWrite; with_reducible repeat' first
    | assumption | exact KeepsO.fault _ | exact KeepsO.refused _ | apply KeepsO.next | apply KeepsO.ite | apply onRing_keeps
    | apply State.consume_keeps | apply Keeps.ite | split | (intro) | extract_lets

theorem execMbxHeartbeat_keeps {pw : Bool} {s0 : State} (value : Nat) {s : State} (hk : Keeps pw s0 s) : KeepsO pw s0 (execMbxHeartbeat value s) := by
  unfold execMbxHeartbeat; with_reducible repeat' first
    | assumption | exact KeepsO.fault _ | exact KeepsO.refused _ | apply KeepsO.next | apply KeepsO.ite | apply State.updMbx_keeps
    | apply Keeps.ite | split | (intro) | extract_lets

theorem execRegisterWrite_keeps {pw : Bool} {s0 : State} (offset : Nat) (value : Nat) {s : State} (hk : Keeps pw s0 s) : KeepsO pw s0
    (execRegisterWrite offset value s) := by
  unfold execRegisterWrite; with_reducible repeat' first
    | assumption | exact KeepsO.fault _ | exact KeepsO.refused _ | apply KeepsO.next | apply KeepsO.ite | apply State.ringWrite_keeps
    | apply State.enableWrite_keeps | apply State.w1c_keeps | apply State.updMbx_keeps | apply Keeps.ite | split | (intro) | extract_lets

theorem execPcieHotReset_keeps {pw : Bool} {s0 : State} {s : State} (hk : Keeps pw s0 s) : KeepsO pw s0 (execPcieHotReset s) := by
  unfold execPcieHotReset; with_reducible repeat' first
    | assumption | exact KeepsO.fault _ | exact KeepsO.refused _ | apply KeepsO.next | apply KeepsO.ite | apply State.mbxReset_keeps
    | apply Keeps.ite | split | (intro) | extract_lets

theorem execPcieLinkDown_keeps {pw : Bool} {s0 : State} {s : State} (hk : Keeps pw s0 s) : KeepsO pw s0 (execPcieLinkDown s) := by
  unfold execPcieLinkDown; with_reducible repeat' first
    | assumption | exact KeepsO.fault _ | exact KeepsO.refused _ | apply KeepsO.next | apply KeepsO.ite | apply State.mbxReset_keeps
    | apply State.updMbx_keeps | apply Keeps.ite | split | (intro) | extract_lets

theorem execPcieFlr_keeps {pw : Bool} {s0 : State} {s : State} (hk : Keeps pw s0 s) : KeepsO pw s0 (execPcieFlr s) := by
  unfold execPcieFlr; with_reducible repeat' first
    | assumption | exact KeepsO.fault _ | exact KeepsO.refused _ | apply KeepsO.next | apply KeepsO.ite | apply State.hostLost_keeps
    | apply State.mbxReset_keeps | apply State.updMbx_keeps | apply Keeps.ite | split | (intro) | extract_lets

theorem execPf1Flr_keeps {pw : Bool} {s0 : State} {s : State} (hk : Keeps pw s0 s) : KeepsO pw s0 (execPf1Flr s) := by
  unfold execPf1Flr; with_reducible repeat' first
    | assumption | exact KeepsO.fault _ | exact KeepsO.refused _ | apply KeepsO.next | apply KeepsO.ite | apply State.updMgmt_keeps
    | apply Keeps.ite | split | (intro) | extract_lets

theorem execBusMasterDisable_keeps {pw : Bool} {s0 : State} {s : State} (hk : Keeps pw s0 s) : KeepsO pw s0 (execBusMasterDisable s) := by
  unfold execBusMasterDisable; with_reducible repeat' first
    | assumption | exact KeepsO.fault _ | exact KeepsO.refused _ | apply KeepsO.next | apply KeepsO.ite | apply State.hostLost_keeps
    | apply State.updMbx_keeps | apply Keeps.ite | split | (intro) | extract_lets

theorem execHostHbTimeout_keeps {pw : Bool} {s0 : State} {s : State} (hk : Keeps pw s0 s) : KeepsO pw s0 (execHostHbTimeout s) := by
  unfold execHostHbTimeout; with_reducible repeat' first
    | assumption | exact KeepsO.fault _ | exact KeepsO.refused _ | apply KeepsO.next | apply KeepsO.ite | apply State.hostLost_keeps
    | apply Keeps.ite | split | (intro) | extract_lets

theorem execPcieLinkDownTimeout_keeps {pw : Bool} {s0 : State} {s : State} (hk : Keeps pw s0 s) : KeepsO pw s0 (execPcieLinkDownTimeout s) := by
  unfold execPcieLinkDownTimeout; with_reducible repeat' first
    | assumption | exact KeepsO.fault _ | exact KeepsO.refused _ | apply KeepsO.next | apply KeepsO.ite | apply State.hostLost_keeps
    | apply Keeps.ite | split | (intro) | extract_lets

theorem execStepLaunch_keeps {pw : Bool} {s0 : State} (x : Nat) {s : State} (hk : Keeps pw s0 s) : KeepsO pw s0 (execStepLaunch x s) := by
  unfold execStepLaunch; with_reducible repeat' first
    | assumption | exact KeepsO.fault _ | exact KeepsO.refused _ | apply KeepsO.next | apply KeepsO.ite | apply State.advanceTo_keeps
    | apply State.launchStep_keeps | apply Keeps.ite | split | (intro) | extract_lets

theorem execStepConfirmSend_keeps {pw : Bool} {s0 : State} (x : Nat) {s : State} (hk : Keeps pw s0 s) : KeepsO pw s0 (execStepConfirmSend x s) := by
  unfold execStepConfirmSend; with_reducible repeat' first
    | assumption | exact KeepsO.fault _ | exact KeepsO.refused _ | apply KeepsO.next | apply KeepsO.ite | apply State.sendCtrl_keeps
    | apply State.leaveFirst_keeps | apply State.gate_keeps | apply State.settleRepeats_keeps | apply State.updCtx_keeps | apply Keeps.ite | split
    | (intro) | extract_lets

theorem execStepConfirm_keeps {pw : Bool} {s0 : State} (h : Hdr) {s : State} (hk : Keeps pw s0 s) : KeepsO pw s0 (execStepConfirm h s) := by
  unfold execStepConfirm; with_reducible repeat' first
    | assumption | exact KeepsO.fault _ | exact KeepsO.refused _ | apply KeepsO.next | apply KeepsO.ite | apply State.ctrlIn_keeps
    | apply effStepConfirm_keeps | apply Keeps.ite | split | (intro) | extract_lets

theorem execCommitDeadline_keeps {pw : Bool} {s0 : State} (x : Nat) {s : State} (hk : Keeps pw s0 s) : KeepsO pw s0 (execCommitDeadline x s) := by
  unfold execCommitDeadline; with_reducible repeat' first
    | assumption | exact KeepsO.fault _ | exact KeepsO.refused _ | apply KeepsO.next | apply KeepsO.ite | apply State.advanceTo_keeps
    | apply State.updCoord_keeps | apply forEach_keeps | apply State.toSome_keeps | apply Keeps.ite | split | (intro) | extract_lets

theorem execFaultReport_keeps {pw : Bool} {s0 : State} (h : Hdr) (f : FaultParam) {s : State} (hk : Keeps pw s0 s) : KeepsO pw s0 (execFaultReport h
    f s) := by
  unfold execFaultReport; with_reducible repeat' first
    | assumption | exact KeepsO.fault _ | exact KeepsO.refused _ | apply KeepsO.next | apply KeepsO.ite | apply State.ctrlIn_keeps
    | apply effFaultReport_keeps | apply Keeps.ite | split | (intro) | extract_lets

theorem execReexecCollect_keeps {pw : Bool} {s0 : State} (x : Nat) {s : State} (hk : Keeps pw s0 s) : KeepsO pw s0 (execReexecCollect x s) := by
  unfold execReexecCollect; with_reducible repeat' first
    | assumption | exact KeepsO.fault _ | exact KeepsO.refused _ | apply KeepsO.next | apply KeepsO.ite | apply State.issueReexec_keeps
    | apply Keeps.ite | split | (intro) | extract_lets

theorem execCommit_keeps {pw : Bool} {s0 : State} (h : Hdr) (launch : Nat) (hold : Bool) (epoch : Nat) {s : State} (hk : Keeps pw s0 s) : KeepsO pw
    s0 (execCommit h launch hold epoch s) := by
  unfold execCommit; with_reducible repeat' first
    | assumption | exact KeepsO.fault _ | exact KeepsO.refused _ | apply KeepsO.next | apply KeepsO.ite | apply State.ctrlIn_keeps
    | apply effCommit_keeps | apply Keeps.ite | split | (intro) | extract_lets

theorem execReexec_keeps {pw : Bool} {s0 : State} (h : Hdr) (launch : Nat) (epoch : Nat) {s : State} (hk : Keeps pw s0 s) : KeepsO pw s0 (execReexec
    h launch epoch s) := by
  unfold execReexec; with_reducible repeat' first
    | assumption | exact KeepsO.fault _ | exact KeepsO.refused _ | apply KeepsO.next | apply KeepsO.ite | apply State.ctrlIn_keeps
    | apply effReexec_keeps | apply Keeps.ite | split | (intro) | extract_lets

theorem execModuleLost_keeps {pw : Bool} {s0 : State} (h : Hdr) (lost : Nat) (spare : Nat) (epoch : Nat) {s : State} (hk : Keeps pw s0 s) : KeepsO pw
    s0 (execModuleLost h lost spare epoch s) := by
  unfold execModuleLost; with_reducible repeat' first
    | assumption | exact KeepsO.fault _ | exact KeepsO.refused _ | apply KeepsO.next | apply KeepsO.ite | apply State.ctrlIn_keeps
    | apply effModuleLost_keeps | apply Keeps.ite | split | (intro) | extract_lets

theorem execArmed_keeps {pw : Bool} {s0 : State} (h : Hdr) (digest : Nat) {s : State} (hk : Keeps pw s0 s) : KeepsO pw s0 (execArmed h digest s) := by
  unfold execArmed; with_reducible repeat' first
    | assumption | exact KeepsO.fault _ | exact KeepsO.refused _ | apply KeepsO.next | apply KeepsO.ite | apply State.ctrlIn_keeps
    | apply effArmed_keeps | apply Keeps.ite | split | (intro) | extract_lets

theorem execStart_keeps {pw : Bool} {s0 : State} (h : Hdr) (launch : Nat) (policy : Nat) (epoch : Nat) {s : State} (hk : Keeps pw s0 s) : KeepsO pw
    s0 (execStart h launch policy epoch s) := by
  unfold execStart; with_reducible repeat' first
    | assumption | exact KeepsO.fault _ | exact KeepsO.refused _ | apply KeepsO.next | apply KeepsO.ite | apply effStart_keeps
    | apply State.ctrlIn_keeps | apply Keeps.ite | split | (intro) | extract_lets

theorem execPmap_keeps {pw : Bool} {s0 : State} (h : Hdr) (part : Nat) (bitmap : Nat) (epoch : Nat) {s : State} (hk : Keeps pw s0 s) : KeepsO pw s0
    (execPmap h part bitmap epoch s) := by
  unfold execPmap; with_reducible repeat' first
    | assumption | exact KeepsO.fault _ | exact KeepsO.refused _ | apply KeepsO.next | apply KeepsO.ite | apply State.ctrlIn_keeps
    | apply effPmap_keeps | apply Keeps.ite | split | (intro) | extract_lets

theorem execResume_keeps {pw : Bool} {s0 : State} (h : Hdr) (launch : Nat) (epoch : Nat) {s : State} (hk : Keeps pw s0 s) : KeepsO pw s0 (execResume
    h launch epoch s) := by
  unfold execResume; with_reducible repeat' first
    | assumption | exact KeepsO.fault _ | exact KeepsO.refused _ | apply KeepsO.next | apply KeepsO.ite | apply State.ctrlIn_keeps
    | apply effResume_keeps | apply Keeps.ite | split | (intro) | extract_lets

theorem execHostLoss_keeps {pw : Bool} {s0 : State} (h : Hdr) (tick : Nat) {s : State} (hk : Keeps pw s0 s) : KeepsO pw s0 (execHostLoss h tick s) :=
    by
  unfold execHostLoss; with_reducible repeat' first
    | assumption | exact KeepsO.fault _ | exact KeepsO.refused _ | apply KeepsO.next | apply KeepsO.ite | apply effHostLoss_keeps
    | apply State.ctrlIn_keeps | apply Keeps.ite | split | (intro) | extract_lets

theorem execStepHold_keeps {pw : Bool} {s0 : State} (h : Hdr) (reason : Nat) (epoch : Nat) {s : State} (hk : Keeps pw s0 s) : KeepsO pw s0
    (execStepHold h reason epoch s) := by
  unfold execStepHold; with_reducible repeat' first
    | assumption | exact KeepsO.fault _ | exact KeepsO.refused _ | apply KeepsO.next | apply KeepsO.ite | apply State.ctrlIn_keeps
    | apply effStepHold_keeps | apply Keeps.ite | split | (intro) | extract_lets

theorem execDrain_keeps {pw : Bool} {s0 : State} (h : Hdr) (td : Nat) (epoch : Nat) {s : State} (hk : Keeps pw s0 s) : KeepsO pw s0 (execDrain h td
    epoch s) := by
  unfold execDrain; with_reducible repeat' first
    | assumption | exact KeepsO.fault _ | exact KeepsO.refused _ | apply KeepsO.next | apply KeepsO.ite | apply State.ctrlIn_keeps
    | apply effDrain_keeps | apply Keeps.ite | split | (intro) | extract_lets

theorem execDrainStart_keeps {pw : Bool} {s0 : State} (x : Nat) {s : State} (hk : Keeps pw s0 s) : KeepsO pw s0 (execDrainStart x s) := by
  unfold execDrainStart; with_reducible repeat' first
    | assumption | exact KeepsO.fault _ | exact KeepsO.refused _ | apply KeepsO.next | apply KeepsO.ite | apply State.advanceTo_keeps
    | apply State.updFab_keeps | apply Keeps.ite | split | (intro) | extract_lets

theorem execDrainEnd_keeps {pw : Bool} {s0 : State} (x : Nat) {s : State} (hk : Keeps pw s0 s) : KeepsO pw s0 (execDrainEnd x s) := by
  unfold execDrainEnd; with_reducible repeat' first
    | assumption | exact KeepsO.fault _ | exact KeepsO.refused _ | apply KeepsO.next | apply KeepsO.ite | apply State.advanceTo_keeps
    | apply State.sendCtrl_keeps | apply State.emptyCtx_keeps | apply Keeps.ite | split | (intro) | extract_lets

theorem execDrained_keeps {pw : Bool} {s0 : State} (h : Hdr) {s : State} (hk : Keeps pw s0 s) : KeepsO pw s0 (execDrained h s) := by
  unfold execDrained; with_reducible repeat' first
    | assumption | exact KeepsO.fault _ | exact KeepsO.refused _ | apply KeepsO.next | apply KeepsO.ite | apply effDrained_keeps
    | apply State.ctrlIn_keeps | apply Keeps.ite | split | (intro) | extract_lets

theorem execAck_keeps {pw : Bool} {s0 : State} (h : Hdr) (seqAcked : Nat) {s : State} (hk : Keeps pw s0 s) : KeepsO pw s0 (execAck h seqAcked s) := by
  unfold execAck; with_reducible repeat' first
    | assumption | exact KeepsO.fault _ | exact KeepsO.refused _ | apply KeepsO.next | apply KeepsO.ite | apply State.advanceTo_keeps
    | apply State.markLate_keeps | apply State.updFab_keeps | apply effAck_keeps | apply State.when_keeps | apply Keeps.ite | split | (intro)
    | extract_lets

theorem execNotReady_keeps {pw : Bool} {s0 : State} (h : Hdr) (hintUs : Nat) (seqRefused : Nat) {s : State} (hk : Keeps pw s0 s) : KeepsO pw s0
    (execNotReady h hintUs seqRefused s) := by
  unfold execNotReady; with_reducible repeat' first
    | assumption | exact KeepsO.fault _ | exact KeepsO.refused _ | apply KeepsO.next | apply KeepsO.ite | apply State.advanceTo_keeps
    | apply State.echoAll_keeps | apply State.updFab_keeps | apply State.when_keeps | apply Keeps.ite | split | (intro) | extract_lets

theorem execCnEcho_keeps {pw : Bool} {s0 : State} (h : Hdr) (vc : Nat) {s : State} (hk : Keeps pw s0 s) : KeepsO pw s0 (execCnEcho h vc s) := by
  unfold execCnEcho; with_reducible repeat' first
    | assumption | exact KeepsO.fault _ | exact KeepsO.refused _ | apply KeepsO.next | apply KeepsO.ite | apply State.advanceTo_keeps
    | apply State.echo_keeps | apply Keeps.ite | split | (intro) | extract_lets

theorem execLimiterIncrease_keeps {pw : Bool} {s0 : State} (dst : Nat) (vc : Nat) {s : State} (hk : Keeps pw s0 s) : KeepsO pw s0
    (execLimiterIncrease dst vc s) := by
  unfold execLimiterIncrease; with_reducible repeat' first
    | assumption | exact KeepsO.fault _ | exact KeepsO.refused _ | apply KeepsO.next | apply KeepsO.ite | apply State.updFab_keeps
    | apply Keeps.ite | split | (intro) | extract_lets

theorem execCtrlRetransmit_keeps {pw : Bool} {s0 : State} (dst : Nat) (ep : Nat) (seq : Nat) {s : State} (hk : Keeps pw s0 s) : KeepsO pw s0
    (execCtrlRetransmit dst ep seq s) := by
  unfold execCtrlRetransmit; with_reducible repeat' first
    | assumption | exact KeepsO.fault _ | exact KeepsO.refused _ | apply KeepsO.next | apply KeepsO.ite | apply State.updFab_keeps
    | apply State.emit_keeps | apply Keeps.ite | split | (intro) | extract_lets

theorem execCoordBeatSend_keeps {pw : Bool} {s0 : State} (x : Nat) {s : State} (hk : Keeps pw s0 s) : KeepsO pw s0 (execCoordBeatSend x s) := by
  unfold execCoordBeatSend; with_reducible repeat' first
    | assumption | exact KeepsO.fault _ | exact KeepsO.refused _ | apply KeepsO.next | apply KeepsO.ite | apply State.sendCtrl_keeps
    | apply State.updPins_keeps | apply State.updCoord_keeps | apply State.when_keeps | apply Keeps.ite | split | (intro) | extract_lets

theorem execCoordBeat_keeps {pw : Bool} {s0 : State} (h : Hdr) (leaseEnd : Nat) (epoch : Nat) {s : State} (hk : Keeps pw s0 s) : KeepsO pw s0
    (execCoordBeat h leaseEnd epoch s) := by
  unfold execCoordBeat; with_reducible repeat' first
    | assumption | exact KeepsO.fault _ | exact KeepsO.refused _ | apply KeepsO.next | apply KeepsO.ite | apply State.ctrlIn_keeps
    | apply effCoordBeat_keeps | apply Keeps.ite | split | (intro) | extract_lets

theorem execLeaseEnd_keeps {pw : Bool} {s0 : State} (x : Nat) {s : State} (hk : Keeps pw s0 s) : KeepsO pw s0 (execLeaseEnd x s) := by
  unfold execLeaseEnd; with_reducible repeat' first
    | assumption | exact KeepsO.fault _ | exact KeepsO.refused _ | apply KeepsO.next | apply KeepsO.ite | apply State.updPins_keeps
    | apply Keeps.ite | split | (intro) | extract_lets

theorem execLeaseExpiry_keeps {pw : Bool} {s0 : State} (x : Nat) {s : State} (hk : Keeps pw s0 s) : KeepsO pw s0 (execLeaseExpiry x s) := by
  unfold execLeaseExpiry; with_reducible repeat' first
    | assumption | exact KeepsO.fault _ | exact KeepsO.refused _ | apply KeepsO.next | apply KeepsO.ite | apply State.takeOver_keeps
    | apply Keeps.ite | split | (intro) | extract_lets

theorem execInterlockInFall_keeps {pw : Bool} {s0 : State} {s : State} (hk : Keeps pw s0 s) : KeepsO pw s0 (execInterlockInFall s) := by
  unfold execInterlockInFall; with_reducible repeat' first
    | assumption | exact KeepsO.fault _ | exact KeepsO.refused _ | apply KeepsO.next | apply KeepsO.ite | apply State.updCal_keeps
    | apply Keeps.ite | split | (intro) | extract_lets

theorem execInterlockStuck_keeps {pw : Bool} {s0 : State} (x : Nat) {s : State} (hk : Keeps pw s0 s) : KeepsO pw s0 (execInterlockStuck x s) := by
  unfold execInterlockStuck; with_reducible repeat' first
    | assumption | exact KeepsO.fault _ | exact KeepsO.refused _ | apply KeepsO.next | apply KeepsO.ite | apply State.takeOver_keeps
    | apply State.setEvt_keeps | apply Keeps.ite | split | (intro) | extract_lets

theorem execTakeover_keeps {pw : Bool} {s0 : State} (h : Hdr) (newLocus : Nat) (epoch : Nat) {s : State} (hk : Keeps pw s0 s) : KeepsO pw s0
    (execTakeover h newLocus epoch s) := by
  unfold execTakeover; with_reducible repeat' first
    | assumption | exact KeepsO.fault _ | exact KeepsO.refused _ | apply KeepsO.next | apply KeepsO.ite | apply State.ctrlIn_keeps
    | apply effTakeover_keeps | apply Keeps.ite | split | (intro) | extract_lets

theorem execTakeoverState_keeps {pw : Bool} {s0 : State} (h : Hdr) (attempt : Nat) (confirmed : Bool) (faulted : Bool) (hasLaunch : Bool) (held :
    Bool) (launch : Nat) (epoch : Nat) {s : State} (hk : Keeps pw s0 s) : KeepsO pw s0 (execTakeoverState h attempt confirmed faulted hasLaunch held
    launch epoch s) := by
  unfold execTakeoverState; with_reducible repeat' first
    | assumption | exact KeepsO.fault _ | exact KeepsO.refused _ | apply KeepsO.next | apply KeepsO.ite | apply State.ctrlIn_keeps
    | apply effTakeoverState_keeps | apply Keeps.ite | split | (intro) | extract_lets

theorem execTakeoverStateTimeout_keeps {pw : Bool} {s0 : State} (x : Nat) (locus : Nat) {s : State} (hk : Keeps pw s0 s) : KeepsO pw s0
    (execTakeoverStateTimeout x locus s) := by
  unfold execTakeoverStateTimeout; with_reducible repeat' first
    | assumption | exact KeepsO.fault _ | exact KeepsO.refused _ | apply KeepsO.next | apply KeepsO.ite | apply State.updCoord_keeps
    | apply State.settleTakeover_keeps | apply State.declareLost_keeps | apply Keeps.ite | apply foldl_keepsS | apply foldl_keeps1
    | apply foldl_keeps2 | split | (intro) | extract_lets

theorem execProbe_keeps {pw : Bool} {s0 : State} (h : Hdr) (epoch : Nat) {s : State} (hk : Keeps pw s0 s) : KeepsO pw s0 (execProbe h epoch s) := by
  unfold execProbe; with_reducible repeat' first
    | assumption | exact KeepsO.fault _ | exact KeepsO.refused _ | apply KeepsO.next | apply KeepsO.ite | apply State.ctrlIn_keeps
    | apply effProbe_keeps | apply Keeps.ite | split | (intro) | extract_lets

theorem execProbeReply_keeps {pw : Bool} {s0 : State} (h : Hdr) (attempt : Nat) (status : Nat) (level : Nat) {s : State} (hk : Keeps pw s0 s) :
    KeepsO pw s0 (execProbeReply h attempt status level s) := by
  unfold execProbeReply; with_reducible repeat' first
    | assumption | exact KeepsO.fault _ | exact KeepsO.refused _ | apply KeepsO.next | apply KeepsO.ite | apply State.ctrlIn_keeps
    | apply effProbeReply_keeps | apply Keeps.ite | split | (intro) | extract_lets

theorem execProbeTimeout_keeps {pw : Bool} {s0 : State} (x : Nat) (locus : Nat) {s : State} (hk : Keeps pw s0 s) : KeepsO pw s0 (execProbeTimeout x
    locus s) := by
  unfold execProbeTimeout; with_reducible repeat' first
    | assumption | exact KeepsO.fault _ | exact KeepsO.refused _ | apply KeepsO.next | apply KeepsO.ite | apply State.declareLost_keeps
    | apply Keeps.ite | split | (intro) | extract_lets

theorem execSelfLost_keeps {pw : Bool} {s0 : State} (h : Hdr) (reason : Nat) {s : State} (hk : Keeps pw s0 s) : KeepsO pw s0 (execSelfLost h reason
    s) := by
  unfold execSelfLost; with_reducible repeat' first
    | assumption | exact KeepsO.fault _ | exact KeepsO.refused _ | apply KeepsO.next | apply KeepsO.ite | apply State.ctrlIn_keeps
    | apply effSelfLost_keeps | apply Keeps.ite | split | (intro) | extract_lets

theorem execRecoveryNotice_keeps {pw : Bool} {s0 : State} (h : Hdr) (attempt : Nat) (ready : Nat) {s : State} (hk : Keeps pw s0 s) : KeepsO pw s0
    (execRecoveryNotice h attempt ready s) := by
  unfold execRecoveryNotice; with_reducible repeat' first
    | assumption | exact KeepsO.fault _ | exact KeepsO.refused _ | apply KeepsO.next | apply KeepsO.ite | apply State.ctrlIn_keeps
    | apply effRecoveryNotice_keeps | apply Keeps.ite | split | (intro) | extract_lets

theorem execPacketForward_keeps {pw : Bool} {s0 : State} (die : Nat) (inPort : Nat) (header : BitVec 512) (now : Nat) {s : State} (hk : Keeps pw s0
    s) : KeepsO pw s0 (execPacketForward die inPort header now s) := by
  unfold execPacketForward; with_reducible repeat' first
    | assumption | exact KeepsO.fault _ | exact KeepsO.refused _ | apply KeepsO.next | apply KeepsO.ite | apply State.advanceTo_keeps
    | apply State.bump_keeps | apply State.freeInput_keeps | apply State.noteStall_keeps | apply State.updOut_keeps | apply State.updFab_keeps
    | apply State.grant_keeps | apply State.drainOut_keeps | apply State.reportLink_keeps | apply State.updPort_keeps | apply Keeps.ite | split
    | (intro) | extract_lets

theorem execCrossingReserve_keeps {pw : Bool} {s0 : State} (die : Nat) (out : Nat) (vc : Nat) {s : State} (hk : Keeps pw s0 s) : KeepsO pw s0
    (execCrossingReserve die out vc s) := by
  unfold execCrossingReserve; with_reducible repeat' first
    | assumption | exact KeepsO.fault _ | exact KeepsO.refused _ | apply KeepsO.next | apply KeepsO.ite | apply State.updOut_keeps
    | apply Keeps.ite | split | (intro) | extract_lets

theorem execCrossingReserveEnd_keeps {pw : Bool} {s0 : State} (die : Nat) (out : Nat) (vc : Nat) {s : State} (hk : Keeps pw s0 s) : KeepsO pw s0
    (execCrossingReserveEnd die out vc s) := by
  unfold execCrossingReserveEnd; with_reducible repeat' first
    | assumption | exact KeepsO.fault _ | exact KeepsO.refused _ | apply KeepsO.next | apply KeepsO.ite | apply State.updOut_keeps
    | apply State.drainOut_keeps | apply Keeps.ite | split | (intro) | extract_lets

theorem execRedUp_keeps {s0 : State} (h : Hdr) (r : RedPkt) {s : State} (hk : Keeps false s0 s) : KeepsO false s0 (execRedUp h r s) := by
  unfold execRedUp; with_reducible repeat' first
    | assumption | exact KeepsO.fault _ | exact KeepsO.refused _ | apply KeepsO.next | apply KeepsO.ite | apply State.bump_keeps
    | apply State.markLate_keeps | apply State.updFab_keeps | apply State.redGuard_keeps | apply State.foldBlock_keeps
    | apply State.settleSlots_keeps | apply forEach_keeps | apply State.when_keeps | apply Keeps.ite | split | (intro) | extract_lets

theorem execRedDown_keeps {s0 : State} (h : Hdr) (r : RedPkt) {s : State} (hk : Keeps false s0 s) : KeepsO false s0 (execRedDown h r s) := by
  unfold execRedDown; with_reducible repeat' first
    | assumption | exact KeepsO.fault _ | exact KeepsO.refused _ | apply KeepsO.next | apply KeepsO.ite | apply State.bump_keeps
    | apply State.markLate_keeps | apply State.takeDown_keeps | apply State.updFab_keeps | apply State.redGuard_keeps
    | apply State.settleSlots_keeps | apply State.when_keeps | apply Keeps.ite | split | (intro) | extract_lets

theorem execGeyBind_keeps {pw : Bool} {s0 : State} (h : Hdr) (jobId : Nat) {s : State} (hk : Keeps pw s0 s) : KeepsO pw s0 (execGeyBind h jobId s) :=
    by
  unfold execGeyBind; with_reducible repeat' first
    | assumption | exact KeepsO.fault _ | exact KeepsO.refused _ | apply KeepsO.next | apply KeepsO.ite | apply State.ctrlIn_keeps
    | apply effGeyBind_keeps | apply Keeps.ite | split | (intro) | extract_lets

theorem execGeyBindReply_keeps {pw : Bool} {s0 : State} (h : Hdr) (accepted : Bool) (jobId : Nat) {s : State} (hk : Keeps pw s0 s) : KeepsO pw s0
    (execGeyBindReply h accepted jobId s) := by
  unfold execGeyBindReply; with_reducible repeat' first
    | assumption | exact KeepsO.fault _ | exact KeepsO.refused _ | apply KeepsO.next | apply KeepsO.ite | apply State.ctrlIn_keeps
    | apply effGeyBindReply_keeps | apply Keeps.ite | split | (intro) | extract_lets

theorem execGeyBindRetry_keeps {pw : Bool} {s0 : State} (x : Nat) {s : State} (hk : Keeps pw s0 s) : KeepsO pw s0 (execGeyBindRetry x s) := by
  unfold execGeyBindRetry; with_reducible repeat' first
    | assumption | exact KeepsO.fault _ | exact KeepsO.refused _ | apply KeepsO.next | apply KeepsO.ite | apply State.bind_keeps | apply Keeps.ite
    | split | (intro) | extract_lets

theorem execGeyBindTimeout_keeps {pw : Bool} {s0 : State} (x : Nat) {s : State} (hk : Keeps pw s0 s) : KeepsO pw s0 (execGeyBindTimeout x s) := by
  unfold execGeyBindTimeout; with_reducible repeat' first
    | assumption | exact KeepsO.fault _ | exact KeepsO.refused _ | apply KeepsO.next | apply KeepsO.ite | apply State.setEvt_keeps
    | apply Keeps.ite | split | (intro) | extract_lets

theorem execGeySpareReady_keeps {pw : Bool} {s0 : State} (h : Hdr) (jobId : Nat) {s : State} (hk : Keeps pw s0 s) : KeepsO pw s0 (execGeySpareReady h
    jobId s) := by
  unfold execGeySpareReady; with_reducible repeat' first
    | assumption | exact KeepsO.fault _ | exact KeepsO.refused _ | apply KeepsO.next | apply KeepsO.ite | apply State.ctrlIn_keeps
    | apply effGeySpareReady_keeps | apply Keeps.ite | split | (intro) | extract_lets

theorem execGeyTake_keeps {pw : Bool} {s0 : State} (h : Hdr) (lost : Nat) (spare : Nat) (epoch : Nat) {s : State} (hk : Keeps pw s0 s) : KeepsO pw s0
    (execGeyTake h lost spare epoch s) := by
  unfold execGeyTake; with_reducible repeat' first
    | assumption | exact KeepsO.fault _ | exact KeepsO.refused _ | apply KeepsO.next | apply KeepsO.ite | apply State.ctrlIn_keeps
    | apply effGeyTake_keeps | apply Keeps.ite | split | (intro) | extract_lets

theorem execTakeCopyComplete_keeps {pw : Bool} {s0 : State} (x : Nat) {s : State} (hk : Keeps pw s0 s) : KeepsO pw s0 (execTakeCopyComplete x s) := by
  unfold execTakeCopyComplete; with_reducible repeat' first
    | assumption | exact KeepsO.fault _ | exact KeepsO.refused _ | apply KeepsO.next | apply KeepsO.ite | apply State.sendCtrl_keeps
    | apply State.bump_keeps | apply State.reloadImages_keeps | apply State.updCtx_keeps | apply State.setEvt_keeps | apply Keeps.ite | split
    | (intro) | extract_lets

theorem execGeyTakeDone_keeps {pw : Bool} {s0 : State} (h : Hdr) (stateSum : Nat) {s : State} (hk : Keeps pw s0 s) : KeepsO pw s0 (execGeyTakeDone h
    stateSum s) := by
  unfold execGeyTakeDone; with_reducible repeat' first
    | assumption | exact KeepsO.fault _ | exact KeepsO.refused _ | apply KeepsO.next | apply KeepsO.ite | apply State.ctrlIn_keeps
    | apply effGeyTakeDone_keeps | apply Keeps.ite | split | (intro) | extract_lets

theorem execGeyReseed_keeps {pw : Bool} {s0 : State} (h : Hdr) (mask : Nat) {s : State} (hk : Keeps pw s0 s) : KeepsO pw s0 (execGeyReseed h mask s)
    := by
  unfold execGeyReseed; with_reducible repeat' first
    | assumption | exact KeepsO.fault _ | exact KeepsO.refused _ | apply KeepsO.next | apply KeepsO.ite | apply State.ctrlIn_keeps
    | apply effGeyReseed_keeps | apply Keeps.ite | split | (intro) | extract_lets

theorem execGeyFetch_keeps {pw : Bool} {s0 : State} (h : Hdr) (tensorId : Nat) (block : Nat) {s : State} (hk : Keeps pw s0 s) : KeepsO pw s0
    (execGeyFetch h tensorId block s) := by
  unfold execGeyFetch; with_reducible repeat' first
    | assumption | exact KeepsO.fault _ | exact KeepsO.refused _ | apply KeepsO.next | apply KeepsO.ite | apply State.ctrlIn_keeps
    | apply effGeyFetch_keeps | apply Keeps.ite | split | (intro) | extract_lets

theorem execGeyCkpt_keeps {s0 : State} (h : Hdr) (epoch : Nat) {s : State} (hk : Keeps false s0 s) : KeepsO false s0 (execGeyCkpt h epoch s) := by
  unfold execGeyCkpt; with_reducible repeat' first
    | assumption | exact KeepsO.fault _ | exact KeepsO.refused _ | apply KeepsO.next | apply KeepsO.ite | apply State.ctrlIn_keeps
    | apply effGeyCkpt_keeps | apply Keeps.ite | split | (intro) | extract_lets

theorem execGeyCkptDone_keeps {pw : Bool} {s0 : State} (h : Hdr) (status : Nat) {s : State} (hk : Keeps pw s0 s) : KeepsO pw s0 (execGeyCkptDone h
    status s) := by
  unfold execGeyCkptDone; with_reducible repeat' first
    | assumption | exact KeepsO.fault _ | exact KeepsO.refused _ | apply KeepsO.next | apply KeepsO.ite | apply State.ctrlIn_keeps
    | apply effGeyCkptDone_keeps | apply Keeps.ite | split | (intro) | extract_lets

theorem execCkptTimeout_keeps {pw : Bool} {s0 : State} (x : Nat) {s : State} (hk : Keeps pw s0 s) : KeepsO pw s0 (execCkptTimeout x s) := by
  unfold execCkptTimeout; with_reducible repeat' first
    | assumption | exact KeepsO.fault _ | exact KeepsO.refused _ | apply KeepsO.next | apply KeepsO.ite | apply State.ckptEnd_keeps
    | apply Keeps.ite | split | (intro) | extract_lets

theorem execGeyRestore_keeps {pw : Bool} {s0 : State} (h : Hdr) (jobId : Nat) (epoch : Nat) {s : State} (hk : Keeps pw s0 s) : KeepsO pw s0
    (execGeyRestore h jobId epoch s) := by
  unfold execGeyRestore; with_reducible repeat' first
    | assumption | exact KeepsO.fault _ | exact KeepsO.refused _ | apply KeepsO.next | apply KeepsO.ite | apply State.ctrlIn_keeps
    | apply effGeyRestore_keeps | apply Keeps.ite | split | (intro) | extract_lets

theorem execRestoreComplete_keeps {pw : Bool} {s0 : State} (x : Nat) {s : State} (hk : Keeps pw s0 s) : KeepsO pw s0 (execRestoreComplete x s) := by
  unfold execRestoreComplete; with_reducible repeat' first
    | assumption | exact KeepsO.fault _ | exact KeepsO.refused _ | apply KeepsO.next | apply KeepsO.ite | apply State.seed_keeps
    | apply State.restoreEnd_keeps | apply State.placeBlock_keeps | apply State.reloadImages_keeps | apply forEach_keeps | apply State.updCtx_keeps
    | apply Keeps.ite | split | (intro) | extract_lets

theorem execGeyRestored_keeps {pw : Bool} {s0 : State} (h : Hdr) (status : Nat) (stateSum : Nat) {s : State} (hk : Keeps pw s0 s) : KeepsO pw s0
    (execGeyRestored h status stateSum s) := by
  unfold execGeyRestored; with_reducible repeat' first
    | assumption | exact KeepsO.fault _ | exact KeepsO.refused _ | apply KeepsO.next | apply KeepsO.ite | apply effGeyRestored_keeps
    | apply State.ctrlIn_keeps | apply Keeps.ite | split | (intro) | extract_lets

theorem execOpenReply_keeps {pw : Bool} {s0 : State} (m : ShardMsg) {s : State} (hk : Keeps pw s0 s) : KeepsO pw s0 (execOpenReply m s) := by
  unfold execOpenReply; with_reducible repeat' first
    | assumption | exact KeepsO.fault _ | exact KeepsO.refused _ | apply KeepsO.next | apply KeepsO.ite | apply State.pump_keeps
    | apply State.moveXfer_keeps | apply State.updXfer_keeps | apply State.onXfer_keeps | apply Keeps.ite | split | (intro) | extract_lets

theorem execBusyRetryDelayExpiry_keeps {pw : Bool} {s0 : State} (handle : Nat) {s : State} (hk : Keeps pw s0 s) : KeepsO pw s0
    (execBusyRetryDelayExpiry handle s) := by
  unfold execBusyRetryDelayExpiry; with_reducible repeat' first
    | assumption | exact KeepsO.fault _ | exact KeepsO.refused _ | apply KeepsO.next | apply KeepsO.ite | apply State.shardOpen_keeps
    | apply State.updXfer_keeps | apply Keeps.ite | split | (intro) | extract_lets

theorem execDack_keeps {pw : Bool} {s0 : State} (m : ShardMsg) {s : State} (hk : Keeps pw s0 s) : KeepsO pw s0 (execDack m s) := by
  unfold execDack; with_reducible repeat' first
    | assumption | exact KeepsO.fault _ | exact KeepsO.refused _ | apply KeepsO.next | apply KeepsO.ite | apply State.pump_keeps
    | apply State.shardSend_keeps | apply State.updXfer_keeps | apply State.onXfer_keeps | apply Keeps.ite | split | (intro) | extract_lets

theorem execCloseReply_keeps {s0 : State} (m : ShardMsg) {s : State} (hk : Keeps false s0 s) : KeepsO false s0 (execCloseReply m s) := by
  unfold execCloseReply; with_reducible repeat' first
    | assumption | exact KeepsO.fault _ | exact KeepsO.refused _ | apply KeepsO.next | apply KeepsO.ite | apply State.startXfer_keeps
    | apply State.endXfer_keeps | apply State.onXfer_keeps | apply State.storedXfer_keeps | apply Keeps.ite | split | (intro) | extract_lets

theorem execFetchReply_keeps {pw : Bool} {s0 : State} (m : ShardMsg) {s : State} (hk : Keeps pw s0 s) : KeepsO pw s0 (execFetchReply m s) := by
  unfold execFetchReply; with_reducible repeat' first
    | assumption | exact KeepsO.fault _ | exact KeepsO.refused _ | apply KeepsO.next | apply KeepsO.ite | apply State.updXfer_keeps
    | apply State.nextSource_keeps | apply State.onXfer_keeps | apply Keeps.ite | split | (intro) | extract_lets

theorem execShardData_keeps {s0 : State} (m : ShardMsg) {s : State} (hk : Keeps false s0 s) : KeepsO false s0 (execShardData m s) := by
  unfold execShardData; with_reducible repeat' first
    | assumption | exact KeepsO.fault _ | exact KeepsO.refused _ | apply KeepsO.next | apply KeepsO.ite | apply State.objectRead_keeps
    | apply State.shardSend_keeps | apply State.updXfer_keeps | apply State.nextSource_keeps | apply State.onXfer_keeps | apply Keeps.ite | split
    | (intro) | extract_lets

theorem execDackTimer_keeps {pw : Bool} {s0 : State} (handle : Nat) {s : State} (hk : Keeps pw s0 s) : KeepsO pw s0 (execDackTimer handle s) := by
  unfold execDackTimer; with_reducible repeat' first
    | assumption | exact KeepsO.fault _ | exact KeepsO.refused _ | apply KeepsO.next | apply KeepsO.ite | apply State.shardSend_keeps
    | apply State.updXfer_keeps | apply Keeps.ite | split | (intro) | extract_lets

theorem execShardRto_keeps {pw : Bool} {s0 : State} (handle : Nat) {s : State} (hk : Keeps pw s0 s) : KeepsO pw s0 (execShardRto handle s) := by
  unfold execShardRto; with_reducible repeat' first
    | assumption | exact KeepsO.fault _ | exact KeepsO.refused _ | apply KeepsO.next | apply KeepsO.ite | apply State.bump_keeps
    | apply State.resend_keeps | apply State.moveXfer_keeps | apply State.updGeyser_keeps | apply State.updXfer_keeps | apply State.setEvt_keeps
    | apply Keeps.ite | split | (intro) | extract_lets

theorem execGwDownExpiry_keeps {s0 : State} (g : Nat) {s : State} (hk : Keeps false s0 s) : KeepsO false s0 (execGwDownExpiry g s) := by
  unfold execGwDownExpiry; with_reducible repeat' first
    | assumption | exact KeepsO.fault _ | exact KeepsO.refused _ | apply KeepsO.next | apply KeepsO.ite | apply State.moveXfer_keeps
    | apply State.updGeyser_keeps | apply State.feedCkpt_keeps | apply forEach_keeps | apply Keeps.ite | split | (intro) | extract_lets

theorem execDataPacket_keeps {pw : Bool} {s0 : State} (h : Hdr) (d : DataPart) (rd : ReadOutcome) {s : State} (hk : Keeps pw s0 s) : KeepsO pw s0
    (execDataPacket h d rd s) := by
  unfold execDataPacket; with_reducible repeat' first
    | assumption | exact KeepsO.fault _ | exact KeepsO.refused _ | apply KeepsO.next | apply KeepsO.ite | apply State.advanceTo_keeps
    | apply State.assemble_keeps | apply State.domainDrop_keeps | apply State.writeBlock_keeps | apply State.bump_keeps | apply State.marked_keeps
    | apply State.markLate_keeps | apply State.reportBlock_keeps | apply State.bulkIn_keeps | apply State.ackData_keeps
    | apply State.notReadyTo_keeps | apply State.when_keeps | apply State.restoreFailed_keeps | apply State.transportUnit_keeps | apply Keeps.ite
    | split | (intro) | extract_lets

theorem execRouteBreak_keeps {pw : Bool} {s0 : State} (h : Hdr) (dim : Nat) (after : Nat) (isBreak : Bool) (effective : Nat) {s : State} (hk : Keeps
    pw s0 s) : KeepsO pw s0 (execRouteBreak h dim after isBreak effective s) := by
  unfold execRouteBreak; with_reducible repeat' first
    | assumption | exact KeepsO.fault _ | exact KeepsO.refused _ | apply KeepsO.next | apply KeepsO.ite | apply State.ctrlIn_keeps
    | apply effRouteBreak_keeps | apply Keeps.ite | split | (intro) | extract_lets

theorem execRouteBreakEffective_keeps {pw : Bool} {s0 : State} (dim : Nat) {s : State} (hk : Keeps pw s0 s) : KeepsO pw s0 (execRouteBreakEffective
    dim s) := by
  unfold execRouteBreakEffective; with_reducible repeat' first
    | assumption | exact KeepsO.fault _ | exact KeepsO.refused _ | apply KeepsO.next | apply KeepsO.ite | apply State.drainAll_keeps
    | apply State.updFab_keeps | apply State.declareLost_keeps | apply forEach_keeps | apply State.reportLink_keeps | apply State.setEvt_keeps
    | apply Keeps.ite | split | (intro) | extract_lets

theorem execCalHalfFault_keeps {pw : Bool} {s0 : State} (half : Nat) (_cause : Nat) {s : State} (hk : Keeps pw s0 s) : KeepsO pw s0 (execCalHalfFault
    half _cause s) := by
  unfold execCalHalfFault; with_reducible repeat' first
    | assumption | exact KeepsO.fault _ | exact KeepsO.refused _ | apply KeepsO.next | apply KeepsO.ite | apply State.calRelease_keeps
    | apply Keeps.ite | split | (intro) | extract_lets

theorem execSelfTest_keeps {pw : Bool} {s0 : State} (passA : Bool) (passB : Bool) {s : State} (hk : Keeps pw s0 s) : KeepsO pw s0 (execSelfTest passA
    passB s) := by
  unfold execSelfTest; with_reducible repeat' first
    | assumption | exact KeepsO.fault _ | exact KeepsO.refused _ | apply KeepsO.next | apply KeepsO.ite | apply State.updCal_keeps
    | apply State.calRelease_keeps | apply Keeps.ite | split | (intro) | extract_lets

theorem execCalOwnAcquire_keeps {pw : Bool} {s0 : State} (half : Nat) {s : State} (hk : Keeps pw s0 s) : KeepsO pw s0 (execCalOwnAcquire half s) := by
  unfold execCalOwnAcquire; with_reducible repeat' first
    | assumption | exact KeepsO.fault _ | exact KeepsO.refused _ | apply KeepsO.next | apply KeepsO.ite | apply State.bump_keeps
    | apply State.flushVent_keeps | apply State.updCal_keeps | apply State.when_keeps | apply State.setEvt_keeps | apply Keeps.ite | split
    | (intro) | extract_lets

theorem execCalOwnTimeout_keeps {pw : Bool} {s0 : State} {s : State} (hk : Keeps pw s0 s) : KeepsO pw s0 (execCalOwnTimeout s) := by
  unfold execCalOwnTimeout; with_reducible repeat' first
    | assumption | exact KeepsO.fault _ | exact KeepsO.refused _ | apply KeepsO.next | apply KeepsO.ite | apply State.bump_keeps
    | apply State.updPins_keeps | apply Keeps.ite | split | (intro) | extract_lets

theorem execHangWindowExpiry_keeps {pw : Bool} {s0 : State} (u : HangUnit) {s : State} (hk : Keeps pw s0 s) : KeepsO pw s0 (execHangWindowExpiry u s)
    := by
  unfold execHangWindowExpiry; with_reducible repeat' first
    | assumption | exact KeepsO.fault _ | exact KeepsO.refused _ | apply KeepsO.next | apply KeepsO.ite | apply State.reportHang_keeps
    | apply State.bump_keeps | apply State.hangTransient_keeps | apply State.updRecov_keeps | apply State.hangSecond_keeps
    | apply State.hangFirst_keeps | apply Keeps.ite | split | (intro) | extract_lets

theorem execActionBoundExpiry_keeps {pw : Bool} {s0 : State} (u : HangUnit) (level : Nat) {s : State} (hk : Keeps pw s0 s) : KeepsO pw s0
    (execActionBoundExpiry u level s) := by
  unfold execActionBoundExpiry; with_reducible repeat' first
    | assumption | exact KeepsO.fault _ | exact KeepsO.refused _ | apply KeepsO.next | apply KeepsO.ite | apply State.recover_keeps
    | apply Keeps.ite | split | (intro) | extract_lets

theorem execPartitionRefillDone_keeps {pw : Bool} {s0 : State} (p : Nat) {s : State} (hk : Keeps pw s0 s) : KeepsO pw s0 (execPartitionRefillDone p
    s) := by
  unfold execPartitionRefillDone; with_reducible repeat' first
    | assumption | exact KeepsO.fault _ | exact KeepsO.refused _ | apply KeepsO.next | apply KeepsO.ite
    | refine State.updMem_keeps (fun _ => rfl) ?_ | apply Keeps.ite | split | (intro) | extract_lets

theorem execDieLinkFail_keeps {pw : Bool} {s0 : State} (pos : Nat) {s : State} (hk : Keeps pw s0 s) : KeepsO pw s0 (execDieLinkFail pos s) := by
  unfold execDieLinkFail; with_reducible repeat' first
    | assumption | exact KeepsO.fault _ | exact KeepsO.refused _ | apply KeepsO.next | apply KeepsO.ite | apply State.updRecov_keeps
    | apply State.updFab_keeps | apply State.selfLost_keeps | apply State.reportLink_keeps | apply Keeps.ite | split | (intro) | extract_lets

theorem State.onCore_keeps {pw : Bool} {s0 : State} {s : State} (c : CoreCmd) (f : Ctx → OpDesc → State → State) (hk : Keeps pw s0 s) (hf : ∀ (x0 :
    Ctx) (x1 : OpDesc) (x2 : State), Keeps pw s0 x2 → Keeps pw s0 (f x0 x1 x2)) : KeepsO pw s0 (State.onCore s c f) := by
  unfold State.onCore; with_reducible repeat' first
    | assumption | exact KeepsO.fault _ | exact KeepsO.refused _ | apply KeepsO.next | apply KeepsO.ite | apply State.bump_keeps | apply hf
    | apply Keeps.ite | split | (intro) | extract_lets

theorem execAnch_keeps {pw : Bool} {s0 : State} (c : CoreCmd) (share : AnchShare) {s : State} (hk : Keeps pw s0 s) : KeepsO pw s0 (execAnch c share
    s) := by
  unfold execAnch; with_reducible repeat' first
    | assumption | exact KeepsO.fault _ | exact KeepsO.refused _ | apply KeepsO.next | apply KeepsO.ite | apply State.updExec_keeps
    | apply forEach_keeps | apply State.onCore_keeps | apply Keeps.ite | split | (intro) | extract_lets

theorem execMma_keeps {pw : Bool} {s0 : State} (c : CoreCmd) (tile : Tile) {s : State} (hk : Keeps pw s0 s) : KeepsO pw s0 (execMma c tile s) := by
  unfold execMma; with_reducible repeat' first
    | assumption | exact KeepsO.fault _ | exact KeepsO.refused _ | apply KeepsO.next | apply KeepsO.ite | apply State.bump_keeps
    | apply State.anchorFault_keeps | apply State.combine_keeps | apply State.writeNear_keeps | apply State.updExec_keeps | apply forEach_keeps
    | apply State.checkFault_keeps | apply State.addrErr_keeps | apply State.addStatus_keeps | apply State.onCore_keeps | apply Keeps.ite | split
    | (intro) | extract_lets

theorem execSend_keeps {s0 : State} (c : CoreCmd) (dest : SendTo) {s : State} (hk : Keeps false s0 s) : KeepsO false s0 (execSend c dest s) := by
  unfold execSend; with_reducible repeat' first
    | assumption | exact KeepsO.fault _ | exact KeepsO.refused _ | apply KeepsO.next | apply KeepsO.ite | apply State.adderRow_keeps
    | apply State.squareViolation_keeps | apply State.updExec_keeps | apply forEach_keeps | apply State.contribute_keeps | apply State.onCore_keeps
    | apply Keeps.ite | apply foldl_keepsS | apply foldl_keeps1 | apply foldl_keeps2 | split | (intro) | extract_lets

theorem execEvrRecordClose_keeps {pw : Bool} {s0 : State} (seq : Nat) {s : State} (hk : Keeps pw s0 s) : KeepsO pw s0 (execEvrRecordClose seq s) := by
  unfold execEvrRecordClose; with_reducible repeat' first
    | assumption | exact KeepsO.fault _ | exact KeepsO.refused _ | apply KeepsO.next | apply KeepsO.ite | apply State.updEvr_keeps
    | apply Keeps.ite | split | (intro) | extract_lets

theorem execEvrInfo_keeps {pw : Bool} {s0 : State} (r : Req) {s : State} (hk : Keeps pw s0 s) : KeepsO pw s0 (execEvrInfo r s) := by
  unfold execEvrInfo; with_reducible repeat' first
    | assumption | exact KeepsO.fault _ | exact KeepsO.refused _ | apply KeepsO.next | apply KeepsO.ite | apply State.vendor_keeps
    | apply State.vendorGate_keeps | apply State.updEvr_keeps | apply Keeps.ite | split | (intro) | extract_lets

theorem execEvrFreeze_keeps {pw : Bool} {s0 : State} (r : Req) {s : State} (hk : Keeps pw s0 s) : KeepsO pw s0 (execEvrFreeze r s) := by
  unfold execEvrFreeze; with_reducible repeat' first
    | assumption | exact KeepsO.fault _ | exact KeepsO.refused _ | apply KeepsO.next | apply KeepsO.ite | apply State.vendor_keeps
    | apply State.vendorGate_keeps | apply State.updEvr_keeps | apply Keeps.ite | split | (intro) | extract_lets

theorem execEvrRead_keeps {pw : Bool} {s0 : State} (r : Req) (fromSeq : Nat) (maxCount : Nat) (minSev : Nat) {s : State} (hk : Keeps pw s0 s) :
    KeepsO pw s0 (execEvrRead r fromSeq maxCount minSev s) := by
  unfold execEvrRead; with_reducible repeat' first
    | assumption | exact KeepsO.fault _ | exact KeepsO.refused _ | apply KeepsO.next | apply KeepsO.ite | apply State.vendor_keeps
    | apply State.vendorGate_keeps | apply Keeps.ite | split | (intro) | extract_lets

theorem execEvrRelease_keeps {pw : Bool} {s0 : State} (r : Req) {s : State} (hk : Keeps pw s0 s) : KeepsO pw s0 (execEvrRelease r s) := by
  unfold execEvrRelease; with_reducible repeat' first
    | assumption | exact KeepsO.fault _ | exact KeepsO.refused _ | apply KeepsO.next | apply KeepsO.ite | apply State.vendor_keeps
    | apply State.vendorGate_keeps | apply State.when_keeps | apply State.endFreeze_keeps | apply Keeps.ite | split | (intro) | extract_lets

theorem execEvrClear_keeps {pw : Bool} {s0 : State} (r : Req) (uptoSeq : Nat) (maxSev : Nat) {s : State} (hk : Keeps pw s0 s) : KeepsO pw s0
    (execEvrClear r uptoSeq maxSev s) := by
  unfold execEvrClear; with_reducible repeat' first
    | assumption | exact KeepsO.fault _ | exact KeepsO.refused _ | apply KeepsO.next | apply KeepsO.ite | apply State.bump_keeps
    | apply State.vendor_keeps | apply State.withLog_keeps | apply State.vendorGate_keeps | apply State.updEvr_keeps | apply State.record_keeps
    | apply State.when_keeps | apply State.endFreeze_keeps | apply Keeps.ite | split | (intro) | extract_lets

theorem execEvrFreezeTimeout_keeps {pw : Bool} {s0 : State} {s : State} (hk : Keeps pw s0 s) : KeepsO pw s0 (execEvrFreezeTimeout s) := by
  unfold execEvrFreezeTimeout; with_reducible repeat' first
    | assumption | exact KeepsO.fault _ | exact KeepsO.refused _ | apply KeepsO.next | apply KeepsO.ite | apply State.record_keeps
    | apply State.endFreeze_keeps | apply Keeps.ite | split | (intro) | extract_lets

theorem execRailPowerGood_keeps {pw : Bool} {s0 : State} (group : Nat) {s : State} (hk : Keeps pw s0 s) : KeepsO pw s0 (execRailPowerGood group s) :=
    by
  unfold execRailPowerGood; with_reducible repeat' first
    | assumption | exact KeepsO.fault _ | exact KeepsO.refused _ | apply KeepsO.next | apply KeepsO.ite | apply State.enableGroup_keeps
    | apply State.updStage_keeps | apply forEach_keeps | apply Keeps.ite | split | (intro) | extract_lets

theorem execLedgerUpdate_keeps {pw : Bool} {s0 : State} (stage : Nat) (mv : Nat) (ma : Nat) {s : State} (hk : Keeps pw s0 s) : KeepsO pw s0
    (execLedgerUpdate stage mv ma s) := by
  unfold execLedgerUpdate; with_reducible repeat' first
    | assumption | exact KeepsO.fault _ | exact KeepsO.refused _ | apply KeepsO.next | apply KeepsO.ite | apply State.updStage_keeps
    | apply Keeps.ite | split | (intro) | extract_lets

theorem execPwrGrant_keeps {pw : Bool} {s0 : State} (r : Req) (x : Nat) (g : Nat) (eff : Nat) {s : State} (hk : Keeps pw s0 s) : KeepsO pw s0
    (execPwrGrant r x g eff s) := by
  unfold execPwrGrant; with_reducible repeat' first
    | assumption | exact KeepsO.fault _ | exact KeepsO.refused _ | apply KeepsO.next | apply KeepsO.ite | apply State.bump_keeps
    | apply State.vendor_keeps | apply State.vendorGate_keeps | apply State.record_keeps | apply State.updPwrCtx_keeps | apply State.setEvt_keeps
    | apply Keeps.ite | split | (intro) | extract_lets

theorem execPwrCeiling_keeps {pw : Bool} {s0 : State} (r : Req) (watts : Nat) {s : State} (hk : Keeps pw s0 s) : KeepsO pw s0 (execPwrCeiling r watts
    s) := by
  unfold execPwrCeiling; with_reducible repeat' first
    | assumption | exact KeepsO.fault _ | exact KeepsO.refused _ | apply KeepsO.next | apply KeepsO.ite | apply State.vendor_keeps
    | apply State.vendorGate_keeps | apply State.record_keeps | apply State.updPwr_keeps | apply State.keepCeiling_keeps | apply Keeps.ite | split
    | (intro) | extract_lets

theorem execPwrDemand_keeps {pw : Bool} {s0 : State} (r : Req) (x : Nat) {s : State} (hk : Keeps pw s0 s) : KeepsO pw s0 (execPwrDemand r x s) := by
  unfold execPwrDemand; with_reducible repeat' first
    | assumption | exact KeepsO.fault _ | exact KeepsO.refused _ | apply KeepsO.next | apply KeepsO.ite | apply State.vendor_keeps
    | apply State.vendorGate_keeps | apply Keeps.ite | split | (intro) | extract_lets

theorem execVcoreUndervoltage_keeps {pw : Bool} {s0 : State} (part : Nat) {s : State} (hk : Keeps pw s0 s) : KeepsO pw s0 (execVcoreUndervoltage part
    s) := by
  unfold execVcoreUndervoltage; with_reducible repeat' first
    | assumption | exact KeepsO.fault _ | exact KeepsO.refused _ | apply KeepsO.next | apply KeepsO.ite | apply State.limitActs_keeps
    | apply State.setEvt_keeps | apply Keeps.ite | split | (intro) | extract_lets

theorem execFrequencyMargin_keeps {pw : Bool} {s0 : State} (part : Nat) (reading : Nat) {s : State} (hk : Keeps pw s0 s) : KeepsO pw s0
    (execFrequencyMargin part reading s) := by
  unfold execFrequencyMargin; with_reducible repeat' first
    | assumption | exact KeepsO.fault _ | exact KeepsO.refused _ | apply KeepsO.next | apply KeepsO.ite | apply State.record_keeps
    | apply State.limitActs_keeps | apply Keeps.ite | split | (intro) | extract_lets

theorem execTjThrottle_keeps {pw : Bool} {s0 : State} (part : Nat) (temp : Nat) {s : State} (hk : Keeps pw s0 s) : KeepsO pw s0 (execTjThrottle part
    temp s) := by
  unfold execTjThrottle; with_reducible repeat' first
    | assumption | exact KeepsO.fault _ | exact KeepsO.refused _ | apply KeepsO.next | apply KeepsO.ite | apply State.record_keeps
    | apply State.limitActs_keeps | apply State.setEvt_keeps | apply Keeps.ite | split | (intro) | extract_lets

theorem execTjTrip_keeps {pw : Bool} {s0 : State} (part : Nat) (temp : Nat) {s : State} (hk : Keeps pw s0 s) : KeepsO pw s0 (execTjTrip part temp s)
    := by
  unfold execTjTrip; with_reducible repeat' first
    | assumption | exact KeepsO.fault _ | exact KeepsO.refused _ | apply KeepsO.next | apply KeepsO.ite | apply State.bump_keeps
    | apply State.setDomains_keeps | apply State.updEvr_keeps | apply State.record_keeps | apply State.limitActs_keeps | apply State.setEvt_keeps
    | apply Keeps.ite | split | (intro) | extract_lets

theorem execRailOvervoltage_keeps {pw : Bool} {s0 : State} (stage : Nat) (mv : Nat) {s : State} (hk : Keeps pw s0 s) : KeepsO pw s0
    (execRailOvervoltage stage mv s) := by
  unfold execRailOvervoltage; with_reducible repeat' first
    | assumption | exact KeepsO.fault _ | exact KeepsO.refused _ | apply KeepsO.next | apply KeepsO.ite | apply State.bump_keeps
    | apply State.record_keeps | apply State.limitActs_keeps | apply State.setEvt_keeps | apply State.stageOff_keeps | apply Keeps.ite | split
    | (intro) | extract_lets

theorem execInputPowerLimit_keeps {pw : Bool} {s0 : State} (watts : Nat) {s : State} (hk : Keeps pw s0 s) : KeepsO pw s0 (execInputPowerLimit watts
    s) := by
  unfold execInputPowerLimit; with_reducible repeat' first
    | assumption | exact KeepsO.fault _ | exact KeepsO.refused _ | apply KeepsO.next | apply KeepsO.ite | apply State.record_keeps
    | apply State.limitActs_keeps | apply State.setEvt_keeps | apply Keeps.ite | split | (intro) | extract_lets

theorem execComparatorRelease_keeps {pw : Bool} {s0 : State} (limit : Nat) (unit : Nat) {s : State} (hk : Keeps pw s0 s) : KeepsO pw s0
    (execComparatorRelease limit unit s) := by
  unfold execComparatorRelease; with_reducible repeat' first
    | assumption | exact KeepsO.fault _ | exact KeepsO.refused _ | apply KeepsO.next | apply KeepsO.ite | apply State.restoreDomains_keeps
    | apply State.updStage_keeps | apply forEach_keeps | apply State.updPwr_keeps | apply State.noteSlow_keeps | apply State.recover_keeps
    | apply Keeps.ite | split | (intro) | extract_lets

theorem execPhaseRetire_keeps {pw : Bool} {s0 : State} (stage : Nat) (phase : Nat) (reason : Nat) {s : State} (hk : Keeps pw s0 s) : KeepsO pw s0
    (execPhaseRetire stage phase reason s) := by
  unfold execPhaseRetire; with_reducible repeat' first
    | assumption | exact KeepsO.fault _ | exact KeepsO.refused _ | apply KeepsO.next | apply KeepsO.ite | apply State.bump_keeps
    | apply State.fresh_keeps | apply State.record_keeps | apply State.powerReason_keeps | apply State.updStage_keeps
    | apply State.movePoints_keeps | apply forEach_keeps | apply State.updPwr_keeps | apply State.setEvt_keeps | apply State.stageOff_keeps
    | apply Keeps.ite | split | (intro) | extract_lets

theorem execPowerOn_keeps {s0 : State} {s : State} (hk : Keeps false s0 s) : KeepsO false s0 (execPowerOn s) := by
  unfold execPowerOn; with_reducible repeat' first
    | assumption | exact KeepsO.fault _ | exact KeepsO.refused _ | apply KeepsO.next | apply KeepsO.ite | apply State.updPins_keeps
    | apply State.powerUp_keeps | apply Keeps.ite | split | (intro) | extract_lets

theorem execSlotSelect_keeps {pw : Bool} {s0 : State} {s : State} (hk : Keeps pw s0 s) : KeepsO pw s0 (execSlotSelect s) := by
  unfold execSlotSelect; with_reducible repeat' first
    | assumption | exact KeepsO.fault _ | exact KeepsO.refused _ | apply KeepsO.next | apply KeepsO.ite | apply State.imageRejected_keeps
    | refine State.updId_keeps (fun _ => ⟨rfl, rfl⟩) ?_ | apply State.enterRecovery_keeps
    | refine State.updFlash_keeps (fun _ => ⟨rfl, rfl, rfl, rfl⟩) ?_ | apply State.startSlot_keeps | apply Keeps.ite
    | refine State.updFlash_keeps_le (Nat.le_refl _) (Nat.le_refl _) (Nat.le_succ _) (fun _ _ m => m) ?_ | split | (intro) | extract_lets

theorem execTriesClear_keeps {pw : Bool} {s0 : State} {s : State} (hk : Keeps pw s0 s) : KeepsO pw s0 (execTriesClear s) := by
  unfold execTriesClear; with_reducible repeat' first
    | assumption | exact KeepsO.fault _ | exact KeepsO.refused _ | apply KeepsO.next | apply KeepsO.ite | apply State.updSlot_keeps
    | apply Keeps.ite | split | (intro) | extract_lets

theorem execOpticsRelease_keeps {pw : Bool} {s0 : State} {s : State} (hk : Keeps pw s0 s) : KeepsO pw s0 (execOpticsRelease s) := by
  unfold execOpticsRelease; with_reducible repeat' first
    | assumption | exact KeepsO.fault _ | exact KeepsO.refused _ | apply KeepsO.next | apply KeepsO.ite
    | refine State.updId_keeps (fun _ => ⟨rfl, rfl⟩) ?_ | apply State.enableGroup_keeps | apply Keeps.ite | split | (intro) | extract_lets

theorem execRunEntry_keeps {pw : Bool} {s0 : State} (failedSlots : List (Nat × Nat)) {s : State} (hk : Keeps pw s0 s) : KeepsO pw s0 (execRunEntry
    failedSlots s) := by
  unfold execRunEntry; with_reducible repeat' first
    | assumption | exact KeepsO.fault _ | exact KeepsO.refused _ | apply KeepsO.next | apply KeepsO.ite | apply State.updSlot_keeps
    | refine State.updId_keeps (fun _ => ⟨rfl, rfl⟩) ?_ | apply State.enterRecovery_keeps | apply State.updTel_keeps | apply State.updPwr_keeps
    | apply State.updMbx_keeps | apply State.applyFaultMap_keeps | apply State.emit_keeps | apply Keeps.ite | split | (intro) | extract_lets

theorem execMbIdentify_keeps {pw : Bool} {s0 : State} (r : Req) {s : State} (hk : Keeps pw s0 s) : KeepsO pw s0 (execMbIdentify r s) := by
  unfold execMbIdentify; with_reducible repeat' first
    | assumption | exact KeepsO.fault _ | exact KeepsO.refused _ | apply KeepsO.next | apply KeepsO.ite | apply State.vendor_keeps
    | apply State.vendorGate_keeps | apply Keeps.ite | split | (intro) | extract_lets

theorem execLocusAssign_keeps {pw : Bool} {s0 : State} (r : Req) (locus : Nat) {s : State} (hk : Keeps pw s0 s) : KeepsO pw s0 (execLocusAssign r
    locus s) := by
  unfold execLocusAssign; with_reducible repeat' first
    | assumption | exact KeepsO.fault _ | exact KeepsO.refused _ | apply KeepsO.next | apply KeepsO.ite | apply State.vendor_keeps
    | refine State.updId_keeps (fun _ => ⟨rfl, rfl⟩) ?_ | apply State.record_keeps | apply State.checkAccept_keeps | apply Keeps.ite
    | refine State.updId_keeps_first ‹_› rfl ?_ | split | (intro) | extract_lets

theorem execIdAccept_keeps {pw : Bool} {s0 : State} (r : Req) (scope : Nat) (mask : Nat) {s : State} (hk : Keeps pw s0 s) : KeepsO pw s0
    (execIdAccept r scope mask s) := by
  unfold execIdAccept; with_reducible repeat' first
    | assumption | exact KeepsO.fault _ | exact KeepsO.refused _ | apply KeepsO.next | apply KeepsO.ite | apply State.vendor_keeps
    | refine State.updId_keeps (fun _ => ⟨rfl, rfl⟩) ?_ | apply State.vendorGate_keeps | apply State.record_keeps | apply State.acceptLocus_keeps
    | apply State.acceptPort_keeps | apply State.evaluateAgain_keeps | apply forEach_keeps | apply State.setEvt_keeps | apply Keeps.ite | split
    | (intro) | extract_lets

theorem execIdStatus_keeps {pw : Bool} {s0 : State} (r : Req) {s : State} (hk : Keeps pw s0 s) : KeepsO pw s0 (execIdStatus r s) := by
  unfold execIdStatus; with_reducible repeat' first
    | assumption | exact KeepsO.fault _ | exact KeepsO.refused _ | apply KeepsO.next | apply KeepsO.ite | apply State.vendor_keeps
    | apply State.vendorGate_keeps | apply Keeps.ite | split | (intro) | extract_lets

theorem execImgBegin_keeps {pw : Bool} {s0 : State} (r : Req) (length : Nat) {s : State} (hk : Keeps pw s0 s) : KeepsO pw s0 (execImgBegin r length
    s) := by
  unfold execImgBegin; with_reducible repeat' first
    | assumption | exact KeepsO.fault _ | exact KeepsO.refused _ | apply KeepsO.next | apply KeepsO.ite | apply State.vendor_keeps
    | apply State.updSlot_keeps | refine State.updId_keeps (fun _ => ⟨rfl, rfl⟩) ?_ | apply State.vendorGate_keeps | apply Keeps.ite | split
    | (intro) | extract_lets

theorem execImgWrite_keeps {pw : Bool} {s0 : State} (r : Req) (offset : Nat) (bytes : List Byte) {s : State} (hk : Keeps pw s0 s) : KeepsO pw s0
    (execImgWrite r offset bytes s) := by
  unfold execImgWrite; with_reducible repeat' first
    | assumption | exact KeepsO.fault _ | exact KeepsO.refused _ | apply KeepsO.next | apply KeepsO.ite | apply State.vendor_keeps
    | refine State.updId_keeps (fun _ => ⟨rfl, rfl⟩) ?_ | apply State.vendorGate_keeps | apply State.asWriter_keeps | apply Keeps.ite | split
    | (intro) | extract_lets

theorem execImgCommit_keeps {pw : Bool} {s0 : State} (r : Req) {s : State} (hk : Keeps pw s0 s) : KeepsO pw s0 (execImgCommit r s) := by
  unfold execImgCommit; with_reducible repeat' first
    | assumption | exact KeepsO.fault _ | exact KeepsO.refused _ | apply KeepsO.next | apply KeepsO.ite | apply State.imageRejected_keeps
    | apply State.vendor_keeps | apply State.updSlot_keeps | refine State.updId_keeps (fun _ => ⟨rfl, rfl⟩) ?_
    | refine State.updFlash_keeps (fun _ => ⟨rfl, rfl, rfl, rfl⟩) ?_ | apply State.vendorGate_keeps | apply State.record_keeps
    | apply State.asWriter_keeps | apply State.commitLive_keeps | apply State.written_keeps | apply Keeps.ite | split | (intro) | extract_lets

theorem execImgAbort_keeps {pw : Bool} {s0 : State} (r : Req) {s : State} (hk : Keeps pw s0 s) : KeepsO pw s0 (execImgAbort r s) := by
  unfold execImgAbort; with_reducible repeat' first
    | assumption | exact KeepsO.fault _ | exact KeepsO.refused _ | apply KeepsO.next | apply KeepsO.ite | apply State.vendor_keeps
    | refine State.updId_keeps (fun _ => ⟨rfl, rfl⟩) ?_ | apply State.vendorGate_keeps | apply State.asWriter_keeps | apply Keeps.ite | split
    | (intro) | extract_lets

theorem execImgStatus_keeps {pw : Bool} {s0 : State} (r : Req) {s : State} (hk : Keeps pw s0 s) : KeepsO pw s0 (execImgStatus r s) := by
  unfold execImgStatus; with_reducible repeat' first
    | assumption | exact KeepsO.fault _ | exact KeepsO.refused _ | apply KeepsO.next | apply KeepsO.ite | apply State.vendor_keeps
    | apply State.vendorGate_keeps | apply Keeps.ite | split | (intro) | extract_lets

theorem execImgWriterIdle_keeps {pw : Bool} {s0 : State} {s : State} (hk : Keeps pw s0 s) : KeepsO pw s0 (execImgWriterIdle s) := by
  unfold execImgWriterIdle; with_reducible repeat' first
    | assumption | exact KeepsO.fault _ | exact KeepsO.refused _ | apply KeepsO.next | apply KeepsO.ite
    | refine State.updId_keeps (fun _ => ⟨rfl, rfl⟩) ?_ | apply Keeps.ite | split | (intro) | extract_lets

theorem execSecverAdvance_keeps {pw : Bool} {s0 : State} (r : Req) (v : Nat) {s : State} (hk : Keeps pw s0 s) : KeepsO pw s0 (execSecverAdvance r v
    s) := by
  unfold execSecverAdvance; dsimp only; with_reducible repeat' first
    | assumption | exact KeepsO.fault _ | exact KeepsO.refused _ | apply KeepsO.next | apply KeepsO.ite | apply State.vendor_keeps
    | refine State.updFlash_keeps (fun _ => ⟨rfl, rfl, rfl, rfl⟩) ?_ | apply State.vendorGate_keeps | apply State.record_keeps | apply Keeps.ite
    | refine State.updFlash_keeps_le (Nat.le_of_not_le (by assumption)) (Nat.le_refl _) (Nat.le_refl _) (fun _ _ m => m) ?_ | split | (intro)
    | extract_lets

theorem execOwnerProvision_keeps {pw : Bool} {s0 : State} (r : Req) (pubkey : List Byte) (sig : List Byte) {s : State} (hk : Keeps pw s0 s) : KeepsO
    pw s0 (execOwnerProvision r pubkey sig s) := by
  unfold execOwnerProvision; with_reducible repeat' first
    | assumption | exact KeepsO.fault _ | exact KeepsO.refused _ | apply KeepsO.next | apply KeepsO.ite | apply State.vendor_keeps
    | refine State.updFlash_keeps (fun _ => ⟨rfl, rfl, rfl, rfl⟩) ?_ | apply State.vendorGate_keeps | apply State.record_keeps | apply Keeps.ite
    | split | (intro) | extract_lets

theorem execModuleReset_keeps {pw : Bool} {s0 : State} (r : Req) {s : State} (hk : Keeps pw s0 s) : KeepsO pw s0 (execModuleReset r s) := by
  unfold execModuleReset; with_reducible repeat' first
    | assumption | exact KeepsO.fault _ | exact KeepsO.refused _ | apply KeepsO.next | apply KeepsO.ite | apply State.moduleReset_keeps
    | apply State.vendor_keeps | apply State.vendorGate_keeps | apply Keeps.ite | split | (intro) | extract_lets

theorem execCtxResumeReq_keeps {pw : Bool} {s0 : State} (r : Req) (x : Nat) {s : State} (hk : Keeps pw s0 s) : KeepsO pw s0 (execCtxResumeReq r x s)
    := by
  unfold execCtxResumeReq; with_reducible repeat' first
    | assumption | exact KeepsO.fault _ | exact KeepsO.refused _ | apply KeepsO.next | apply KeepsO.ite | apply State.vendor_keeps
    | apply State.vendorGate_keeps | apply State.resumeJob_keeps | apply Keeps.ite | split | (intro) | extract_lets

theorem execGeyRestoreReq_keeps {pw : Bool} {s0 : State} (r : Req) (x : Nat) (jobId : Nat) (k : Nat) {s : State} (hk : Keeps pw s0 s) : KeepsO pw s0
    (execGeyRestoreReq r x jobId k s) := by
  unfold execGeyRestoreReq; with_reducible repeat' first
    | assumption | exact KeepsO.fault _ | exact KeepsO.refused _ | apply KeepsO.next | apply KeepsO.ite | apply State.vendor_keeps
    | apply State.vendorGate_keeps | apply State.updCoord_keeps | apply State.toSome_keeps | apply Keeps.ite | split | (intro) | extract_lets

theorem execAlignStart_keeps {pw : Bool} {s0 : State} {s : State} (hk : Keeps pw s0 s) : KeepsO pw s0 (execAlignStart s) := by
  unfold execAlignStart; with_reducible repeat' first
    | assumption | exact KeepsO.fault _ | exact KeepsO.refused _ | apply KeepsO.next | apply KeepsO.ite | apply State.chooseAlign_keeps
    | apply Keeps.ite | split | (intro) | extract_lets

theorem execAlignQuiesce_keeps {pw : Bool} {s0 : State} {s : State} (hk : Keeps pw s0 s) : KeepsO pw s0 (execAlignQuiesce s) := by
  unfold execAlignQuiesce; with_reducible repeat' first
    | assumption | exact KeepsO.fault _ | exact KeepsO.refused _ | apply KeepsO.next | apply KeepsO.ite | apply State.advanceTo_keeps
    | apply State.updDet_keeps | apply Keeps.ite | split | (intro) | extract_lets

theorem execAlignApply_keeps {pw : Bool} {s0 : State} {s : State} (hk : Keeps pw s0 s) : KeepsO pw s0 (execAlignApply s) := by
  unfold execAlignApply; with_reducible repeat' first
    | assumption | exact KeepsO.fault _ | exact KeepsO.refused _ | apply KeepsO.next | apply KeepsO.ite | apply State.advanceTo_keeps
    | refine State.updMem_keeps (fun _ => rfl) ?_ | apply State.updDet_keeps | apply Keeps.ite | split | (intro) | extract_lets

theorem execAlignComplete_keeps {pw : Bool} {s0 : State} (inBounds : Bool) {s : State} (hk : Keeps pw s0 s) : KeepsO pw s0 (execAlignComplete
    inBounds s) := by
  unfold execAlignComplete; with_reducible repeat' first
    | assumption | exact KeepsO.fault _ | exact KeepsO.refused _ | apply KeepsO.next | apply KeepsO.ite | apply State.bump_keeps
    | apply State.updDet_keeps | apply State.setEvt_keeps | apply Keeps.ite | split | (intro) | extract_lets

theorem execPacketRelease_keeps {s0 : State} {s : State} (hk : Keeps false s0 s) : KeepsO false s0 (execPacketRelease s) := by
  unfold execPacketRelease; with_reducible repeat' first
    | assumption | exact KeepsO.fault _ | exact KeepsO.refused _ | apply KeepsO.next | apply KeepsO.ite | apply State.advanceTo_keeps
    | apply State.updFab_keeps | apply heldEffect_keeps | apply Keeps.ite | split | (intro) | extract_lets

theorem onFabricPort_keeps {pw : Bool} {s0 : State} (p : Nat) {s : State} (f : State → State) (hk : Keeps pw s0 s) (hf : ∀ (x0 : State), Keeps pw s0
    x0 → Keeps pw s0 (f x0)) : KeepsO pw s0 (onFabricPort p s f) := by
  unfold onFabricPort; with_reducible repeat' first
    | assumption | exact KeepsO.fault _ | exact KeepsO.refused _ | apply KeepsO.next | apply KeepsO.ite | apply hf | apply Keeps.ite | split
    | (intro) | extract_lets

theorem onEdgePort_keeps {pw : Bool} {s0 : State} (p : Nat) {s : State} (f : State → State) (hk : Keeps pw s0 s) (hf : ∀ (x0 : State), Keeps pw s0 x0
    → Keeps pw s0 (f x0)) : KeepsO pw s0 (onEdgePort p s f) := by
  unfold onEdgePort; with_reducible repeat' first
    | assumption | exact KeepsO.fault _ | exact KeepsO.refused _ | apply KeepsO.next | apply KeepsO.ite | apply hf | apply Keeps.ite | split
    | (intro) | extract_lets

theorem execCredit_keeps {pw : Bool} {s0 : State} (port : Nat) (flit : BitVec 512) {s : State} (hk : Keeps pw s0 s) : KeepsO pw s0 (execCredit port
    flit s) := by
  unfold execCredit; with_reducible repeat' first
    | assumption | exact KeepsO.fault _ | exact KeepsO.refused _ | apply KeepsO.next | apply KeepsO.ite | apply onFabricPort_keeps
    | apply State.lcfIn_keeps | apply Keeps.ite | split | (intro) | extract_lets

theorem execIdent_keeps {pw : Bool} {s0 : State} (port : Nat) (flit : BitVec 512) {s : State} (hk : Keeps pw s0 s) : KeepsO pw s0 (execIdent port
    flit s) := by
  unfold execIdent; with_reducible repeat' first
    | assumption | exact KeepsO.fault _ | exact KeepsO.refused _ | apply KeepsO.next | apply KeepsO.ite | apply State.freshLink_keeps
    | apply State.sendIdent_keeps | apply onFabricPort_keeps | apply State.toDetect_keeps | apply State.lcfIn_keeps | apply State.evaluate_keeps
    | apply State.updPort_keeps | apply State.noteBundle_keeps | apply Keeps.ite | split | (intro) | extract_lets

theorem execLsmFastRetrain_keeps {pw : Bool} {s0 : State} (port : Nat) (flit : BitVec 512) {s : State} (hk : Keeps pw s0 s) : KeepsO pw s0
    (execLsmFastRetrain port flit s) := by
  unfold execLsmFastRetrain; with_reducible repeat' first
    | assumption | exact KeepsO.fault _ | exact KeepsO.refused _ | apply KeepsO.next | apply KeepsO.ite | apply State.leaveUp_keeps
    | apply onFabricPort_keeps | apply State.lcfIn_keeps | apply State.request_keeps | apply Keeps.ite | split | (intro) | extract_lets

theorem execLsmFullRetrain_keeps {pw : Bool} {s0 : State} (port : Nat) (flit : BitVec 512) {s : State} (hk : Keeps pw s0 s) : KeepsO pw s0
    (execLsmFullRetrain port flit s) := by
  unfold execLsmFullRetrain; with_reducible repeat' first
    | assumption | exact KeepsO.fault _ | exact KeepsO.refused _ | apply KeepsO.next | apply KeepsO.ite | apply onFabricPort_keeps
    | apply State.lcfIn_keeps | apply State.request_keeps | apply State.fullRetrain_keeps | apply Keeps.ite | split | (intro) | extract_lets

theorem execLsmWidth4_keeps {pw : Bool} {s0 : State} (port : Nat) (flit : BitVec 512) {s : State} (hk : Keeps pw s0 s) : KeepsO pw s0 (execLsmWidth4
    port flit s) := by
  unfold execLsmWidth4; with_reducible repeat' first
    | assumption | exact KeepsO.fault _ | exact KeepsO.refused _ | apply KeepsO.next | apply KeepsO.ite | apply State.leaveUp_keeps
    | apply State.setWidth4_keeps | apply onFabricPort_keeps | apply State.lcfIn_keeps | apply State.request_keeps | apply Keeps.ite | split
    | (intro) | extract_lets

theorem execLsmSpare_keeps {pw : Bool} {s0 : State} (port : Nat) (flit : BitVec 512) {s : State} (hk : Keeps pw s0 s) : KeepsO pw s0 (execLsmSpare
    port flit s) := by
  unfold execLsmSpare; with_reducible repeat' first
    | assumption | exact KeepsO.fault _ | exact KeepsO.refused _ | apply KeepsO.next | apply KeepsO.ite | apply onFabricPort_keeps
    | apply State.lcfIn_keeps | apply State.sendLsm_keeps | apply State.updPort_keeps | apply Keeps.ite | split | (intro) | extract_lets

theorem execLsmGrant_keeps {pw : Bool} {s0 : State} (port : Nat) (flit : BitVec 512) {s : State} (hk : Keeps pw s0 s) : KeepsO pw s0 (execLsmGrant
    port flit s) := by
  unfold execLsmGrant; with_reducible repeat' first
    | assumption | exact KeepsO.fault _ | exact KeepsO.refused _ | apply KeepsO.next | apply KeepsO.ite | apply State.leaveUp_keeps
    | apply State.setWidth4_keeps | apply onFabricPort_keeps | apply State.lcfIn_keeps | apply State.sendLsm_keeps | apply State.fullRetrain_keeps
    | apply State.updPort_keeps | apply Keeps.ite | split | (intro) | extract_lets

theorem execLsmDone_keeps {pw : Bool} {s0 : State} (port : Nat) (flit : BitVec 512) {s : State} (hk : Keeps pw s0 s) : KeepsO pw s0 (execLsmDone port
    flit s) := by
  unfold execLsmDone; with_reducible repeat' first
    | assumption | exact KeepsO.fault _ | exact KeepsO.refused _ | apply KeepsO.next | apply KeepsO.ite | apply State.laneCheck_keeps
    | apply onFabricPort_keeps | apply State.lcfIn_keeps | apply Keeps.ite | split | (intro) | extract_lets

theorem execCodewordFlagged_keeps {pw : Bool} {s0 : State} (port : Nat) (lane : Nat) (firstLost : Nat) (uncorrectable : Bool) {s : State} (hk : Keeps
    pw s0 s) : KeepsO pw s0 (execCodewordFlagged port lane firstLost uncorrectable s) := by
  unfold execCodewordFlagged; with_reducible repeat' first
    | assumption | exact KeepsO.fault _ | exact KeepsO.refused _ | apply KeepsO.next | apply KeepsO.ite | apply State.bump_keeps
    | apply State.sendLcf_keeps | apply onFabricPort_keeps | apply State.updPort_keeps | apply Keeps.ite | split | (intro) | extract_lets

theorem execNakRetry_keeps {pw : Bool} {s0 : State} (port : Nat) {s : State} (hk : Keeps pw s0 s) : KeepsO pw s0 (execNakRetry port s) := by
  unfold execNakRetry; with_reducible repeat' first
    | assumption | exact KeepsO.fault _ | exact KeepsO.refused _ | apply KeepsO.next | apply KeepsO.ite | apply State.leaveUp_keeps
    | apply State.sendLcf_keeps | apply onFabricPort_keeps | apply State.updPort_keeps | apply Keeps.ite | split | (intro) | extract_lets

theorem execLossOfSignal_keeps {pw : Bool} {s0 : State} (port : Nat) (lane : Nat) {s : State} (hk : Keeps pw s0 s) : KeepsO pw s0 (execLossOfSignal
    port lane s) := by
  unfold execLossOfSignal; with_reducible repeat' first
    | assumption | exact KeepsO.fault _ | exact KeepsO.refused _ | apply KeepsO.next | apply KeepsO.ite | apply State.laneFail_keeps
    | apply State.updPort_keeps | apply Keeps.ite | split | (intro) | extract_lets

theorem execLaneCeLimit_keeps {pw : Bool} {s0 : State} (port : Nat) (lane : Nat) {s : State} (hk : Keeps pw s0 s) : KeepsO pw s0 (execLaneCeLimit
    port lane s) := by
  unfold execLaneCeLimit; with_reducible repeat' first
    | assumption | exact KeepsO.fault _ | exact KeepsO.refused _ | apply KeepsO.next | apply KeepsO.ite | apply State.bump_keeps
    | apply onFabricPort_keeps | apply State.laneFail_keeps | apply Keeps.ite | split | (intro) | extract_lets

theorem execLaneUeLimit_keeps {pw : Bool} {s0 : State} (port : Nat) (lane : Nat) {s : State} (hk : Keeps pw s0 s) : KeepsO pw s0 (execLaneUeLimit
    port lane s) := by
  unfold execLaneUeLimit; with_reducible repeat' first
    | assumption | exact KeepsO.fault _ | exact KeepsO.refused _ | apply KeepsO.next | apply KeepsO.ite | apply onFabricPort_keeps
    | apply State.laneFail_keeps | apply Keeps.ite | split | (intro) | extract_lets

theorem execPortLcfTimeout_keeps {pw : Bool} {s0 : State} (port : Nat) {s : State} (hk : Keeps pw s0 s) : KeepsO pw s0 (execPortLcfTimeout port s) :=
    by
  unfold execPortLcfTimeout; with_reducible repeat' first
    | assumption | exact KeepsO.fault _ | exact KeepsO.refused _ | apply KeepsO.next | apply KeepsO.ite | apply State.leaveUp_keeps
    | apply onFabricPort_keeps | apply State.toDetect_keeps | apply Keeps.ite | split | (intro) | extract_lets

theorem execFastRetrainTimeout_keeps {pw : Bool} {s0 : State} (port : Nat) {s : State} (hk : Keeps pw s0 s) : KeepsO pw s0 (execFastRetrainTimeout
    port s) := by
  unfold execFastRetrainTimeout; with_reducible repeat' first
    | assumption | exact KeepsO.fault _ | exact KeepsO.refused _ | apply KeepsO.next | apply KeepsO.ite | apply onFabricPort_keeps
    | apply State.toDetect_keeps | apply Keeps.ite | split | (intro) | extract_lets

theorem execPortStart_keeps {pw : Bool} {s0 : State} (port : Nat) {s : State} (hk : Keeps pw s0 s) : KeepsO pw s0 (execPortStart port s) := by
  unfold execPortStart; with_reducible repeat' first
    | assumption | exact KeepsO.fault _ | exact KeepsO.refused _ | apply KeepsO.next | apply KeepsO.ite | apply State.updPort_keeps
    | apply Keeps.ite | split | (intro) | extract_lets

theorem execPartnerReady_keeps {pw : Bool} {s0 : State} (port : Nat) (lanes : Nat) {s : State} (hk : Keeps pw s0 s) : KeepsO pw s0 (execPartnerReady
    port lanes s) := by
  unfold execPartnerReady; with_reducible repeat' first
    | assumption | exact KeepsO.fault _ | exact KeepsO.refused _ | apply KeepsO.next | apply KeepsO.ite | apply State.updPort_keeps
    | apply Keeps.ite | split | (intro) | extract_lets

theorem execEqualiseDone_keeps {pw : Bool} {s0 : State} (port : Nat) {s : State} (hk : Keeps pw s0 s) : KeepsO pw s0 (execEqualiseDone port s) := by
  unfold execEqualiseDone; with_reducible repeat' first
    | assumption | exact KeepsO.fault _ | exact KeepsO.refused _ | apply KeepsO.next | apply KeepsO.ite | apply onFabricPort_keeps
    | apply State.updPort_keeps | apply Keeps.ite | split | (intro) | extract_lets

theorem execAlignDone_keeps {pw : Bool} {s0 : State} (port : Nat) (lanes : Nat) {s : State} (hk : Keeps pw s0 s) : KeepsO pw s0 (execAlignDone port
    lanes s) := by
  unfold execAlignDone; with_reducible repeat' first
    | assumption | exact KeepsO.fault _ | exact KeepsO.refused _ | apply KeepsO.next | apply KeepsO.ite | apply State.sendIdent_keeps
    | apply State.backoff_keeps | apply onFabricPort_keeps | apply State.toDetect_keeps | apply State.updPort_keeps | apply Keeps.ite | split
    | (intro) | extract_lets

theorem execAttemptTimeout_keeps {pw : Bool} {s0 : State} (port : Nat) {s : State} (hk : Keeps pw s0 s) : KeepsO pw s0 (execAttemptTimeout port s) :=
    by
  unfold execAttemptTimeout; with_reducible repeat' first
    | assumption | exact KeepsO.fault _ | exact KeepsO.refused _ | apply KeepsO.next | apply KeepsO.ite | apply State.backoff_keeps
    | apply onFabricPort_keeps | apply Keeps.ite | split | (intro) | extract_lets

theorem execBackoffExpiry_keeps {pw : Bool} {s0 : State} (port : Nat) {s : State} (hk : Keeps pw s0 s) : KeepsO pw s0 (execBackoffExpiry port s) := by
  unfold execBackoffExpiry; with_reducible repeat' first
    | assumption | exact KeepsO.fault _ | exact KeepsO.refused _ | apply KeepsO.next | apply KeepsO.ite | apply onFabricPort_keeps
    | apply State.updPort_keeps | apply Keeps.ite | split | (intro) | extract_lets

theorem execHeldExpiry_keeps {pw : Bool} {s0 : State} (port : Nat) {s : State} (hk : Keeps pw s0 s) : KeepsO pw s0 (execHeldExpiry port s) := by
  unfold execHeldExpiry; with_reducible repeat' first
    | assumption | exact KeepsO.fault _ | exact KeepsO.refused _ | apply KeepsO.next | apply KeepsO.ite | apply onFabricPort_keeps
    | apply State.toDetect_keeps | apply Keeps.ite | split | (intro) | extract_lets

theorem execHeldSignalLoss_keeps {pw : Bool} {s0 : State} (port : Nat) {s : State} (hk : Keeps pw s0 s) : KeepsO pw s0 (execHeldSignalLoss port s) :=
    by
  unfold execHeldSignalLoss; with_reducible repeat' first
    | assumption | exact KeepsO.fault _ | exact KeepsO.refused _ | apply KeepsO.next | apply KeepsO.ite | apply onFabricPort_keeps
    | apply State.toDetect_keeps | apply Keeps.ite | split | (intro) | extract_lets

theorem execEdgeLinkUp_keeps {pw : Bool} {s0 : State} (port : Nat) (duplicate : Bool) {s : State} (hk : Keeps pw s0 s) : KeepsO pw s0 (execEdgeLinkUp
    port duplicate s) := by
  unfold execEdgeLinkUp; with_reducible repeat' first
    | assumption | exact KeepsO.fault _ | exact KeepsO.refused _ | apply KeepsO.next | apply KeepsO.ite | apply State.flushVent_keeps
    | apply State.record_keeps | apply onEdgePort_keeps | apply State.updPort_keeps | apply Keeps.ite | split | (intro) | extract_lets

theorem execEdgeLinkDown_keeps {pw : Bool} {s0 : State} (port : Nat) {s : State} (hk : Keeps pw s0 s) : KeepsO pw s0 (execEdgeLinkDown port s) := by
  unfold execEdgeLinkDown; with_reducible repeat' first
    | assumption | exact KeepsO.fault _ | exact KeepsO.refused _ | apply KeepsO.next | apply KeepsO.ite | apply onEdgePort_keeps
    | apply State.updPort_keeps | apply Keeps.ite | split | (intro) | extract_lets

theorem execEdgeFrameReceive_keeps {pw : Bool} {s0 : State} (port : Nat) (f : EdgeFrame) {s : State} (hk : Keeps pw s0 s) : KeepsO pw s0
    (execEdgeFrameReceive port f s) := by
  unfold execEdgeFrameReceive; with_reducible repeat' first
    | assumption | exact KeepsO.fault _ | exact KeepsO.refused _ | apply KeepsO.next | apply KeepsO.ite | apply State.bump_keeps
    | apply onEdgePort_keeps | apply Keeps.ite | split | (intro) | extract_lets

theorem execSampleLatch_keeps {pw : Bool} {s0 : State} (k : Nat) (readings : List Reading) {s : State} (hk : Keeps pw s0 s) : KeepsO pw s0
    (execSampleLatch k readings s) := by
  unfold execSampleLatch; with_reducible repeat' first
    | assumption | exact KeepsO.fault _ | exact KeepsO.refused _ | apply KeepsO.next | apply KeepsO.ite | apply State.advanceTo_keeps
    | apply State.emitRecords_keeps | apply State.endInterval_keeps | apply State.takeSample_keeps | apply forEach_keeps
    | apply State.project_keeps | apply Keeps.ite | split | (intro) | extract_lets

theorem execSampleMissed_keeps {pw : Bool} {s0 : State} (cls : Nat) (index : Nat) {s : State} (hk : Keeps pw s0 s) : KeepsO pw s0 (execSampleMissed
    cls index s) := by
  unfold execSampleMissed; with_reducible repeat' first
    | assumption | exact KeepsO.fault _ | exact KeepsO.refused _ | apply KeepsO.next | apply KeepsO.ite | apply State.bump_keeps | apply Keeps.ite
    | split | (intro) | extract_lets

theorem execTelUp_keeps {pw : Bool} {s0 : State} (h : Hdr) (t : TelPkt) {s : State} (hk : Keeps pw s0 s) : KeepsO pw s0 (execTelUp h t s) := by
  unfold execTelUp; with_reducible repeat' first
    | assumption | exact KeepsO.fault _ | exact KeepsO.refused _ | apply KeepsO.next | apply KeepsO.ite | apply State.bump_keeps
    | apply State.telGuard_keeps | apply State.telFold_keeps | apply Keeps.ite | split | (intro) | extract_lets

theorem execTelDown_keeps {pw : Bool} {s0 : State} (h : Hdr) (t : TelPkt) {s : State} (hk : Keeps pw s0 s) : KeepsO pw s0 (execTelDown h t s) := by
  unfold execTelDown; with_reducible repeat' first
    | assumption | exact KeepsO.fault _ | exact KeepsO.refused _ | apply KeepsO.next | apply KeepsO.ite | apply State.bump_keeps
    | apply State.telResult_keeps | apply State.telGuard_keeps | apply State.setEvt_keeps | apply Keeps.ite | split | (intro) | extract_lets

theorem execTelSendBy_keeps {pw : Bool} {s0 : State} (tree : Nat) (group : Nat) (key : Nat) (attempt : Nat) {s : State} (hk : Keeps pw s0 s) : KeepsO
    pw s0 (execTelSendBy tree group key attempt s) := by
  unfold execTelSendBy; with_reducible repeat' first
    | assumption | exact KeepsO.fault _ | exact KeepsO.refused _ | apply KeepsO.next | apply KeepsO.ite | apply State.advanceTo_keeps
    | apply State.telSend_keeps | apply State.releaseTelSlots_keeps | apply Keeps.ite | split | (intro) | extract_lets

theorem execTelFinalize_keeps {pw : Bool} {s0 : State} (tree : Nat) (group : Nat) (key : Nat) (attempt : Nat) {s : State} (hk : Keeps pw s0 s) :
    KeepsO pw s0 (execTelFinalize tree group key attempt s) := by
  unfold execTelFinalize; with_reducible repeat' first
    | assumption | exact KeepsO.fault _ | exact KeepsO.refused _ | apply KeepsO.next | apply KeepsO.ite | apply State.advanceTo_keeps
    | apply State.telFinal_keeps | apply Keeps.ite | split | (intro) | extract_lets

theorem execTelSlotRelease_keeps {pw : Bool} {s0 : State} (tree : Nat) (group : Nat) (key : Nat) {s : State} (hk : Keeps pw s0 s) : KeepsO pw s0
    (execTelSlotRelease tree group key s) := by
  unfold execTelSlotRelease; with_reducible repeat' first
    | assumption | exact KeepsO.fault _ | exact KeepsO.refused _ | apply KeepsO.next | apply KeepsO.ite | apply State.releaseTelSlots_keeps
    | apply Keeps.ite | split | (intro) | extract_lets

theorem execSubscribe_keeps {pw : Bool} {s0 : State} (port : Nat) (addr : Nat) (udp : Nat) (subId : Nat) (version : Nat) (body : List Byte) {s :
    State} (hk : Keeps pw s0 s) : KeepsO pw s0 (execSubscribe port addr udp subId version body s) := by
  unfold execSubscribe; with_reducible repeat' first
    | assumption | exact KeepsO.fault _ | exact KeepsO.refused _ | apply KeepsO.next | apply KeepsO.ite | apply State.bump_keeps
    | apply State.updTel_keeps | apply State.hint_keeps | apply State.subReply_keeps | apply State.setEvt_keeps | apply Keeps.ite | split | (intro)
    | extract_lets

theorem execUnsubscribe_keeps {pw : Bool} {s0 : State} (addr : Nat) (udp : Nat) (subId : Nat) {s : State} (hk : Keeps pw s0 s) : KeepsO pw s0
    (execUnsubscribe addr udp subId s) := by
  unfold execUnsubscribe; with_reducible repeat' first
    | assumption | exact KeepsO.fault _ | exact KeepsO.refused _ | apply KeepsO.next | apply KeepsO.ite | apply State.updTel_keeps
    | apply Keeps.ite | split | (intro) | extract_lets

theorem execSubscriptionLeaseEnd_keeps {pw : Bool} {s0 : State} (addr : Nat) (udp : Nat) (subId : Nat) {s : State} (hk : Keeps pw s0 s) : KeepsO pw
    s0 (execSubscriptionLeaseEnd addr udp subId s) := by
  unfold execSubscriptionLeaseEnd; with_reducible repeat' first
    | assumption | exact KeepsO.fault _ | exact KeepsO.refused _ | apply KeepsO.next | apply KeepsO.ite | apply State.advanceTo_keeps
    | apply State.updTel_keeps | apply Keeps.ite | split | (intro) | extract_lets

theorem execRecordAged_keeps {pw : Bool} {s0 : State} (addr : Nat) (udp : Nat) (subId : Nat) (seq : Nat) {s : State} (hk : Keeps pw s0 s) : KeepsO pw
    s0 (execRecordAged addr udp subId seq s) := by
  unfold execRecordAged; with_reducible repeat' first
    | assumption | exact KeepsO.fault _ | exact KeepsO.refused _ | apply KeepsO.next | apply KeepsO.ite | apply State.bump_keeps
    | apply State.updTel_keeps | apply Keeps.ite | split | (intro) | extract_lets

theorem execSetEndpointId_keeps {pw : Bool} {s0 : State} (binding : Nat) (eid : Nat) {s : State} (hk : Keeps pw s0 s) : KeepsO pw s0
    (execSetEndpointId binding eid s) := by
  unfold execSetEndpointId; with_reducible repeat' first
    | assumption | exact KeepsO.fault _ | exact KeepsO.refused _ | apply KeepsO.next | apply KeepsO.ite | apply State.control_keeps
    | apply State.updMgmt_keeps | apply Keeps.ite | split | (intro) | extract_lets

theorem execGetEndpointId_keeps {pw : Bool} {s0 : State} (binding : Nat) {s : State} (hk : Keeps pw s0 s) : KeepsO pw s0 (execGetEndpointId binding
    s) := by
  unfold execGetEndpointId; with_reducible repeat' first
    | assumption | exact KeepsO.fault _ | exact KeepsO.refused _ | apply KeepsO.next | apply KeepsO.ite | apply State.control_keeps
    | apply Keeps.ite | split | (intro) | extract_lets

theorem execGetMctpVersionSupport_keeps {pw : Bool} {s0 : State} (r : Req) (msgType : Nat) {s : State} (hk : Keeps pw s0 s) : KeepsO pw s0
    (execGetMctpVersionSupport r msgType s) := by
  unfold execGetMctpVersionSupport; with_reducible repeat' first
    | assumption | exact KeepsO.fault _ | exact KeepsO.refused _ | apply KeepsO.next | apply KeepsO.ite | apply State.control_keeps
    | apply Keeps.ite | split | (intro) | extract_lets

theorem execGetMessageTypeSupport_keeps {pw : Bool} {s0 : State} (r : Req) {s : State} (hk : Keeps pw s0 s) : KeepsO pw s0 (execGetMessageTypeSupport
    r s) := by
  unfold execGetMessageTypeSupport; with_reducible repeat' first
    | assumption | exact KeepsO.fault _ | exact KeepsO.refused _ | apply KeepsO.next | apply KeepsO.ite | apply State.control_keeps
    | apply Keeps.ite | split | (intro) | extract_lets

theorem execGetVendorDefinedMessageSupport_keeps {pw : Bool} {s0 : State} (r : Req) (selector : Nat) {s : State} (hk : Keeps pw s0 s) : KeepsO pw s0
    (execGetVendorDefinedMessageSupport r selector s) := by
  unfold execGetVendorDefinedMessageSupport; with_reducible repeat' first
    | assumption | exact KeepsO.fault _ | exact KeepsO.refused _ | apply KeepsO.next | apply KeepsO.ite | apply State.control_keeps
    | apply Keeps.ite | split | (intro) | extract_lets

theorem execDynamicAddressAssignment_keeps {pw : Bool} {s0 : State} (addr : Nat) {s : State} (hk : Keeps pw s0 s) : KeepsO pw s0
    (execDynamicAddressAssignment addr s) := by
  unfold execDynamicAddressAssignment; with_reducible repeat' first
    | assumption | exact KeepsO.fault _ | exact KeepsO.refused _ | apply KeepsO.next | apply KeepsO.ite | apply State.updMgmt_keeps
    | apply Keeps.ite | split | (intro) | extract_lets

theorem execGetTid_keeps {pw : Bool} {s0 : State} (r : Req) {s : State} (hk : Keeps pw s0 s) : KeepsO pw s0 (execGetTid r s) := by
  unfold execGetTid; with_reducible repeat' first
    | assumption | exact KeepsO.fault _ | exact KeepsO.refused _ | apply KeepsO.next | apply KeepsO.ite | apply State.pldmBase_keeps
    | apply State.pldm_keeps | apply Keeps.ite | split | (intro) | extract_lets

theorem execGetPldmVersion_keeps {pw : Bool} {s0 : State} (r : Req) (pldmType : Nat) {s : State} (hk : Keeps pw s0 s) : KeepsO pw s0
    (execGetPldmVersion r pldmType s) := by
  unfold execGetPldmVersion; with_reducible repeat' first
    | assumption | exact KeepsO.fault _ | exact KeepsO.refused _ | apply KeepsO.next | apply KeepsO.ite | apply State.pldmBase_keeps
    | apply State.pldm_keeps | apply Keeps.ite | split | (intro) | extract_lets

theorem execGetPldmTypes_keeps {pw : Bool} {s0 : State} (r : Req) {s : State} (hk : Keeps pw s0 s) : KeepsO pw s0 (execGetPldmTypes r s) := by
  unfold execGetPldmTypes; with_reducible repeat' first
    | assumption | exact KeepsO.fault _ | exact KeepsO.refused _ | apply KeepsO.next | apply KeepsO.ite | apply State.pldmBase_keeps
    | apply State.pldm_keeps | apply Keeps.ite | split | (intro) | extract_lets

theorem execGetPldmCommands_keeps {pw : Bool} {s0 : State} (r : Req) (pldmType : Nat) {s : State} (hk : Keeps pw s0 s) : KeepsO pw s0
    (execGetPldmCommands r pldmType s) := by
  unfold execGetPldmCommands; with_reducible repeat' first
    | assumption | exact KeepsO.fault _ | exact KeepsO.refused _ | apply KeepsO.next | apply KeepsO.ite | apply State.pldmBase_keeps
    | apply State.pldm_keeps | apply Keeps.ite | split | (intro) | extract_lets

theorem execGetPdr_keeps {pw : Bool} {s0 : State} (r : Req) (handle : Nat) {s : State} (hk : Keeps pw s0 s) : KeepsO pw s0 (execGetPdr r handle s) :=
    by
  unfold execGetPdr; with_reducible repeat' first
    | assumption | exact KeepsO.fault _ | exact KeepsO.refused _ | apply KeepsO.next | apply KeepsO.ite | apply State.pldmGate_keeps
    | apply State.pldm_keeps | apply Keeps.ite | split | (intro) | extract_lets

theorem execGetSensorReading_keeps {pw : Bool} {s0 : State} (r : Req) (sensor : Nat) {s : State} (hk : Keeps pw s0 s) : KeepsO pw s0
    (execGetSensorReading r sensor s) := by
  unfold execGetSensorReading; with_reducible repeat' first
    | assumption | exact KeepsO.fault _ | exact KeepsO.refused _ | apply KeepsO.next | apply KeepsO.ite | apply State.fresh_keeps
    | apply State.pldmGate_keeps | apply State.pldm_keeps | apply Keeps.ite | split | (intro) | extract_lets

theorem execGetStateSensorReadings_keeps {pw : Bool} {s0 : State} (r : Req) (sensor : Nat) {s : State} (hk : Keeps pw s0 s) : KeepsO pw s0
    (execGetStateSensorReadings r sensor s) := by
  unfold execGetStateSensorReadings; with_reducible repeat' first
    | assumption | exact KeepsO.fault _ | exact KeepsO.refused _ | apply KeepsO.next | apply KeepsO.ite | apply State.pldmGate_keeps
    | apply State.pldm_keeps | apply Keeps.ite | split | (intro) | extract_lets

theorem execPldmFullRetrain_keeps {pw : Bool} {s0 : State} (r : Req) (port : Nat) {s : State} (hk : Keeps pw s0 s) : KeepsO pw s0
    (execPldmFullRetrain r port s) := by
  unfold execPldmFullRetrain; with_reducible repeat' first
    | assumption | exact KeepsO.fault _ | exact KeepsO.refused _ | apply KeepsO.next | apply KeepsO.ite | apply State.pldmGate_keeps
    | apply State.toDetect_keeps | apply State.sendLsm_keeps | apply State.pldm_keeps | apply State.updPort_keeps | apply Keeps.ite | split
    | (intro) | extract_lets

theorem execReleaseHold_keeps {pw : Bool} {s0 : State} (r : Req) (port : Nat) {s : State} (hk : Keeps pw s0 s) : KeepsO pw s0 (execReleaseHold r port
    s) := by
  unfold execReleaseHold; with_reducible repeat' first
    | assumption | exact KeepsO.fault _ | exact KeepsO.refused _ | apply KeepsO.next | apply KeepsO.ite | apply State.pldmGate_keeps
    | apply State.toDetect_keeps | apply State.pldm_keeps | apply Keeps.ite | split | (intro) | extract_lets

theorem execAlignRetry_keeps {pw : Bool} {s0 : State} (r : Req) {s : State} (hk : Keeps pw s0 s) : KeepsO pw s0 (execAlignRetry r s) := by
  unfold execAlignRetry; with_reducible repeat' first
    | assumption | exact KeepsO.fault _ | exact KeepsO.refused _ | apply KeepsO.next | apply KeepsO.ite | apply State.pldmGate_keeps
    | apply State.pldm_keeps | apply State.chooseAlign_keeps | apply Keeps.ite | split | (intro) | extract_lets

theorem execRegRead_keeps {pw : Bool} {s0 : State} (r : Req) (block : Nat) (a2 : Nat) (offset : Nat) (length : Nat) {s : State} (hk : Keeps pw s0 s)
    : KeepsO pw s0 (execRegRead r block a2 offset length s) := by
  unfold execRegRead; with_reducible repeat' first
    | assumption | exact KeepsO.fault _ | exact KeepsO.refused _ | apply KeepsO.next | apply KeepsO.ite | apply State.pldmGate_keeps
    | apply State.pldm_keeps | apply Keeps.ite | split | (intro) | extract_lets

theorem execRegW1c_keeps {pw : Bool} {s0 : State} (r : Req) (block : Nat) (a2 : Nat) (offset : Nat) (mask : Nat) {s : State} (hk : Keeps pw s0 s) :
    KeepsO pw s0 (execRegW1c r block a2 offset mask s) := by
  unfold execRegW1c; with_reducible repeat' first
    | assumption | exact KeepsO.fault _ | exact KeepsO.refused _ | apply KeepsO.next | apply KeepsO.ite | apply State.w1c_keeps
    | apply State.pldmGate_keeps | apply State.pldm_keeps | apply Keeps.ite | split | (intro) | extract_lets

theorem execMove_keeps {pw : Bool} {s0 : State} (c : CoreCmd) (src : Nat) (dst : Nat) (len : Nat) (rd : ReadOutcome) {s : State} (hk : Keeps pw s0 s)
    : KeepsO pw s0 (execMove c src dst len rd s) := by
  unfold execMove; with_reducible repeat' first
    | assumption | exact KeepsO.fault _ | exact KeepsO.refused _ | apply KeepsO.next | apply KeepsO.ite | apply State.transfer_keeps
    | apply State.onCore_keeps | apply Keeps.ite | split | (intro) | extract_lets

theorem execDma_keeps {pw : Bool} {s0 : State} (x : Nat) (opId : Nat) (src : Nat) (dst : Nat) (len : Nat) (rd : ReadOutcome) {s : State} (hk : Keeps
    pw s0 s) : KeepsO pw s0 (execDma x opId src dst len rd s) := by
  unfold execDma; with_reducible repeat' first
    | assumption | exact KeepsO.fault _ | exact KeepsO.refused _ | apply KeepsO.next | apply KeepsO.ite | apply State.transfer_keeps
    | apply Keeps.ite | split | (intro) | extract_lets

theorem execXposeJobComplete_keeps {pw : Bool} {s0 : State} (p : Nat) (e : Nat) (flips : List (Nat × Nat)) (rd : ReadOutcome) {s : State} (hk : Keeps
    pw s0 s) : KeepsO pw s0 (execXposeJobComplete p e flips rd s) := by
  unfold execXposeJobComplete; dsimp only; with_reducible repeat' first
    | assumption | exact KeepsO.fault _ | exact KeepsO.refused _ | apply KeepsO.next | apply KeepsO.ite | apply State.bump_keeps
    | apply State.invalidate_keeps | apply State.writeTensor_keeps | apply State.report_keeps | apply forEach_keeps
    | apply State.transientUnit_keeps | apply State.readTensor_keeps | apply Keeps.ite | split | (intro) | extract_lets

theorem execScrubSlot_keeps {pw : Bool} {s0 : State} (level : Nat) (unit : Nat) (rd : ReadOutcome) (foregroundWrote : Bool) {s : State} (hk : Keeps
    pw s0 s) : KeepsO pw s0 (execScrubSlot level unit rd foregroundWrote s) := by
  unfold execScrubSlot; with_reducible repeat' first
    | assumption | exact KeepsO.fault _ | exact KeepsO.refused _ | apply KeepsO.next | apply KeepsO.ite | apply State.bump_keeps
    | apply State.corrected_keeps | refine State.updMem_keeps (fun _ => rfl) ?_ | apply State.uncorrectable_keeps | apply State.pcError_keeps
    | apply Keeps.ite | split | (intro) | extract_lets

theorem execCalGapStart_keeps {pw : Bool} {s0 : State} (count : Nat) {s : State} (hk : Keeps pw s0 s) : KeepsO pw s0 (execCalGapStart count s) := by
  unfold execCalGapStart; with_reducible repeat' first
    | assumption | exact KeepsO.fault _ | exact KeepsO.refused _ | apply KeepsO.next | apply KeepsO.ite | apply State.advanceTo_keeps
    | refine State.updMem_keeps (fun _ => rfl) ?_ | apply Keeps.ite | split | (intro) | extract_lets

theorem execCalGapEnd_keeps {pw : Bool} {s0 : State} (failed : List (Nat × Nat)) {s : State} (hk : Keeps pw s0 s) : KeepsO pw s0 (execCalGapEnd
    failed s) := by
  unfold execCalGapEnd; with_reducible repeat' first
    | assumption | exact KeepsO.fault _ | exact KeepsO.refused _ | apply KeepsO.next | apply KeepsO.ite | apply State.advanceTo_keeps
    | apply State.bump_keeps | refine State.updMem_keeps (fun _ => rfl) ?_ | apply forEach_keeps | apply State.wantAct_keeps | apply Keeps.ite
    | apply foldl_keepsS | apply foldl_keeps1 | apply foldl_keeps2 | split | (intro) | extract_lets

theorem onCluster_keeps {pw : Bool} {s0 : State} (x : Nat) (g : Nat) {r : State} (hk : Keeps pw s0 r) : KeepsO pw s0 (onCluster x g r) := by
  unfold onCluster; with_reducible repeat' first
    | assumption | exact KeepsO.fault _ | exact KeepsO.refused _ | apply KeepsO.next | apply KeepsO.ite | apply Keeps.ite | split | (intro)
    | extract_lets

theorem execOperatorStart_keeps {pw : Bool} {s0 : State} (x : Nat) (opId : Nat) (g : Nat) {s : State} (hk : Keeps pw s0 s) : KeepsO pw s0
    (execOperatorStart x opId g s) := by
  unfold execOperatorStart; with_reducible repeat' first
    | assumption | exact KeepsO.fault _ | exact KeepsO.refused _ | apply KeepsO.next | apply KeepsO.ite | apply onCluster_keeps
    | apply State.queueThin_keeps | apply State.beginOp_keeps | apply Keeps.ite | split | (intro) | extract_lets

theorem execBatchWaitExpiry_keeps {pw : Bool} {s0 : State} (g : Nat) {s : State} (hk : Keeps pw s0 s) : KeepsO pw s0 (execBatchWaitExpiry g s) := by
  unfold execBatchWaitExpiry; with_reducible repeat' first
    | assumption | exact KeepsO.fault _ | exact KeepsO.refused _ | apply KeepsO.next | apply KeepsO.ite | apply onCluster_keeps
    | apply State.launchBatch_keeps | apply Keeps.ite | split | (intro) | extract_lets

theorem execSliceStreamDone_keeps {pw : Bool} {s0 : State} (g : Nat) (opId : Nat) {s : State} (hk : Keeps pw s0 s) : KeepsO pw s0
    (execSliceStreamDone g opId s) := by
  unfold execSliceStreamDone; with_reducible repeat' first
    | assumption | exact KeepsO.fault _ | exact KeepsO.refused _ | apply KeepsO.next | apply KeepsO.ite | apply onCluster_keeps
    | apply State.updCluster_keeps | apply Keeps.ite | split | (intro) | extract_lets

theorem execWait_keeps {pw : Bool} {s0 : State} (c : CoreCmd) (barrier : Nat) {s : State} (hk : Keeps pw s0 s) : KeepsO pw s0 (execWait c barrier s)
    := by
  unfold execWait; with_reducible repeat' first
    | assumption | exact KeepsO.fault _ | exact KeepsO.refused _ | apply KeepsO.next | apply KeepsO.ite | apply State.launchBatchOf_keeps
    | apply State.tryRelease_keeps | apply State.updCluster_keeps | apply State.updExec_keeps | apply forEach_keeps | apply State.onCore_keeps
    | apply Keeps.ite | split | (intro) | extract_lets

theorem execOperatorComplete_keeps {pw : Bool} {s0 : State} (x : Nat) (opId : Nat) (g : Nat) (shadows : List ShadowObs) {s : State} (hk : Keeps pw s0
    s) : KeepsO pw s0 (execOperatorComplete x opId g shadows s) := by
  unfold execOperatorComplete; with_reducible repeat' first
    | assumption | exact KeepsO.fault _ | exact KeepsO.refused _ | apply KeepsO.next | apply KeepsO.ite | apply State.stream_keeps
    | apply onCluster_keeps | apply State.captureFor_keeps | apply State.tryRelease_keeps | apply State.shadowCompare_keeps
    | apply State.captureImages_keeps | apply State.updCluster_keeps | apply State.updExec_keeps | apply forEach_keeps | apply Keeps.ite | split
    | (intro) | extract_lets

theorem execPgoodFall_keeps {s0 : State} {s : State} (hk : Keeps false s0 s) : KeepsO false s0 (execPgoodFall s) := by
  unfold execPgoodFall; with_reducible repeat' first
    | assumption | exact KeepsO.fault _ | exact KeepsO.refused _ | apply KeepsO.next | apply KeepsO.ite | apply State.updPins_keeps
    | apply State.powerDown_keeps | apply Keeps.ite | split | (intro) | extract_lets

theorem execInputUndervoltage_keeps {s0 : State} {s : State} (hk : Keeps false s0 s) : KeepsO false s0 (execInputUndervoltage s) := by
  unfold execInputUndervoltage; with_reducible repeat' first
    | assumption | exact KeepsO.fault _ | exact KeepsO.refused _ | apply KeepsO.next | apply KeepsO.ite | apply State.inputTrip_keeps
    | apply Keeps.ite | split | (intro) | extract_lets

theorem execInputOvervoltage_keeps {s0 : State} {s : State} (hk : Keeps false s0 s) : KeepsO false s0 (execInputOvervoltage s) := by
  unfold execInputOvervoltage; with_reducible repeat' first
    | assumption | exact KeepsO.fault _ | exact KeepsO.refused _ | apply KeepsO.next | apply KeepsO.ite | apply State.inputTrip_keeps
    | apply Keeps.ite | split | (intro) | extract_lets

theorem execInputCollapse_keeps {s0 : State} {s : State} (hk : Keeps false s0 s) : KeepsO false s0 (execInputCollapse s) := by
  unfold execInputCollapse; with_reducible repeat' first
    | assumption | exact KeepsO.fault _ | exact KeepsO.refused _ | apply KeepsO.next | apply KeepsO.ite | apply State.updPins_keeps
    | apply State.inputTrip_keeps | apply Keeps.ite | split | (intro) | extract_lets

theorem execResetNFall_keeps {pw : Bool} {s0 : State} {s : State} (hk : Keeps pw s0 s) : KeepsO pw s0 (execResetNFall s) := by
  unfold execResetNFall; with_reducible repeat' first
    | assumption | exact KeepsO.fault _ | exact KeepsO.refused _ | apply KeepsO.next | apply KeepsO.ite | apply State.moduleReset_keeps
    | apply State.updPins_keeps | apply Keeps.ite | split | (intro) | extract_lets

theorem execTestEnHigh_keeps {pw : Bool} {s0 : State} {s : State} (hk : Keeps pw s0 s) : KeepsO pw s0 (execTestEnHigh s) := by
  unfold execTestEnHigh; with_reducible repeat' first
    | assumption | exact KeepsO.fault _ | exact KeepsO.refused _ | apply KeepsO.next | apply KeepsO.ite | apply State.updPins_keeps
    | apply Keeps.ite | split | (intro) | extract_lets

theorem execPciePerstN_keeps {pw : Bool} {s0 : State} (level : Bool) {s : State} (hk : Keeps pw s0 s) : KeepsO pw s0 (execPciePerstN level s) := by
  unfold execPciePerstN; with_reducible repeat' first
    | assumption | exact KeepsO.fault _ | exact KeepsO.refused _ | apply KeepsO.next | apply KeepsO.ite | apply State.updPins_keeps
    | apply State.mbxReset_keeps | apply State.updMbx_keeps | apply State.updMgmt_keeps | apply Keeps.ite | split | (intro) | extract_lets

theorem execPcieLinkUp_keeps {pw : Bool} {s0 : State} (width : Nat) (rate : Nat) {s : State} (hk : Keeps pw s0 s) : KeepsO pw s0 (execPcieLinkUp
    width rate s) := by
  unfold execPcieLinkUp; with_reducible repeat' first
    | assumption | exact KeepsO.fault _ | exact KeepsO.refused _ | apply KeepsO.next | apply KeepsO.ite | apply State.record_keeps
    | apply State.updMbx_keeps | apply Keeps.ite | split | (intro) | extract_lets

theorem execGetVersion_keeps {pw : Bool} {s0 : State} (r : Req) {s : State} (hk : Keeps pw s0 s) : KeepsO pw s0 (execGetVersion r s) := by
  unfold execGetVersion; with_reducible repeat' first
    | assumption | exact KeepsO.fault _ | exact KeepsO.refused _ | apply KeepsO.next | apply KeepsO.ite | apply State.setConn_keeps
    | apply State.spdmStep_keeps | apply Keeps.ite | split | (intro) | extract_lets

theorem execGetCapabilities_keeps {pw : Bool} {s0 : State} (r : Req) (body : List Byte) {s : State} (hk : Keeps pw s0 s) : KeepsO pw s0
    (execGetCapabilities r body s) := by
  unfold execGetCapabilities; with_reducible repeat' first
    | assumption | exact KeepsO.fault _ | exact KeepsO.refused _ | apply KeepsO.next | apply KeepsO.ite | apply State.spdmError_keeps
    | apply State.spdmIn_keeps | apply State.spdmStep_keeps | apply Keeps.ite | split | (intro) | extract_lets

theorem execNegotiateAlgorithms_keeps {pw : Bool} {s0 : State} (r : Req) (body : List Byte) {s : State} (hk : Keeps pw s0 s) : KeepsO pw s0
    (execNegotiateAlgorithms r body s) := by
  unfold execNegotiateAlgorithms; with_reducible repeat' first
    | assumption | exact KeepsO.fault _ | exact KeepsO.refused _ | apply KeepsO.next | apply KeepsO.ite | apply State.spdmError_keeps
    | apply State.spdmIn_keeps | apply State.spdmStep_keeps | apply Keeps.ite | split | (intro) | extract_lets

theorem execGetDigests_keeps {pw : Bool} {s0 : State} (r : Req) {s : State} (hk : Keeps pw s0 s) : KeepsO pw s0 (execGetDigests r s) := by
  unfold execGetDigests; with_reducible repeat' first
    | assumption | exact KeepsO.fault _ | exact KeepsO.refused _ | apply KeepsO.next | apply KeepsO.ite | apply State.spdmIn_keeps
    | apply State.spdmStep_keeps | apply Keeps.ite | split | (intro) | extract_lets

theorem execGetCertificate_keeps {pw : Bool} {s0 : State} (r : Req) (slot : Nat) (offset : Nat) (length : Nat) {s : State} (hk : Keeps pw s0 s) :
    KeepsO pw s0 (execGetCertificate r slot offset length s) := by
  unfold execGetCertificate; with_reducible repeat' first
    | assumption | exact KeepsO.fault _ | exact KeepsO.refused _ | apply KeepsO.next | apply KeepsO.ite | apply State.spdmError_keeps
    | apply State.spdmIn_keeps | apply State.notReadyYet_keeps | apply State.spdmStep_keeps | apply Keeps.ite | split | (intro) | extract_lets

theorem execChallenge_keeps {pw : Bool} {s0 : State} (r : Req) (slot : Nat) (nonce : List Byte) {s : State} (hk : Keeps pw s0 s) : KeepsO pw s0
    (execChallenge r slot nonce s) := by
  unfold execChallenge; with_reducible repeat' first
    | assumption | exact KeepsO.fault _ | exact KeepsO.refused _ | apply KeepsO.next | apply KeepsO.ite | apply State.spdmError_keeps
    | apply State.nonce_keeps | apply State.spdmIn_keeps | apply State.notReadyYet_keeps | apply State.spdmStep_keeps | apply Keeps.ite | split
    | (intro) | extract_lets

theorem execGetMeasurements_keeps {pw : Bool} {s0 : State} (r : Req) (index : Nat) (nonce : List Byte) {s : State} (hk : Keeps pw s0 s) : KeepsO pw
    s0 (execGetMeasurements r index nonce s) := by
  unfold execGetMeasurements; with_reducible repeat' first
    | assumption | exact KeepsO.fault _ | exact KeepsO.refused _ | apply KeepsO.next | apply KeepsO.ite | apply State.spdmLate_keeps
    | apply State.spdmError_keeps | apply State.nonce_keeps | apply State.spdmStep_keeps | apply Keeps.ite | split | (intro) | extract_lets

theorem execKeyExchange_keeps {pw : Bool} {s0 : State} (r : Req) (reqSessionId : Nat) (body : List Byte) {s : State} (hk : Keeps pw s0 s) : KeepsO pw
    s0 (execKeyExchange r reqSessionId body s) := by
  unfold execKeyExchange; with_reducible repeat' first
    | assumption | exact KeepsO.fault _ | exact KeepsO.refused _ | apply KeepsO.next | apply KeepsO.ite | apply State.spdmLate_keeps
    | apply State.updMgmt_keeps | apply State.spdmStep_keeps | apply Keeps.ite | split | (intro) | extract_lets

theorem execFinish_keeps {pw : Bool} {s0 : State} (r : Req) (session : Nat) (body : List Byte) {s : State} (hk : Keeps pw s0 s) : KeepsO pw s0
    (execFinish r session body s) := by
  unfold execFinish; with_reducible repeat' first
    | assumption | exact KeepsO.fault _ | exact KeepsO.refused _ | apply KeepsO.next | apply KeepsO.ite | apply State.spdmError_keeps
    | apply State.spdm_keeps | apply State.updSession_keeps | apply State.updMgmt_keeps | apply Keeps.ite | split | (intro) | extract_lets

theorem execKeyUpdate_keeps {pw : Bool} {s0 : State} (r : Req) (session : Nat) (op : Nat) {s : State} (hk : Keeps pw s0 s) : KeepsO pw s0
    (execKeyUpdate r session op s) := by
  unfold execKeyUpdate; with_reducible repeat' first
    | assumption | exact KeepsO.fault _ | exact KeepsO.refused _ | apply KeepsO.next | apply KeepsO.ite | apply State.spdmError_keeps
    | apply State.inSpdmSession_keeps | apply State.spdm_keeps | apply State.updSession_keeps | apply Keeps.ite | split | (intro) | extract_lets

theorem execEndSession_keeps {pw : Bool} {s0 : State} (r : Req) (session : Nat) {s : State} (hk : Keeps pw s0 s) : KeepsO pw s0 (execEndSession r
    session s) := by
  unfold execEndSession; with_reducible repeat' first
    | assumption | exact KeepsO.fault _ | exact KeepsO.refused _ | apply KeepsO.next | apply KeepsO.ite | apply State.inSpdmSession_keeps
    | apply State.spdm_keeps | apply State.updMgmt_keeps | apply Keeps.ite | split | (intro) | extract_lets

theorem execRespondIfReady_keeps {pw : Bool} {s0 : State} (r : Req) (token : Nat) {s : State} (hk : Keeps pw s0 s) : KeepsO pw s0 (execRespondIfReady
    r token s) := by
  unfold execRespondIfReady; with_reducible repeat' first
    | assumption | exact KeepsO.fault _ | exact KeepsO.refused _ | apply KeepsO.next | apply KeepsO.ite | apply State.notReadyYet_keeps
    | apply State.emit_keeps | apply Keeps.ite | split | (intro) | extract_lets

theorem execTimeLcfSend_keeps {pw : Bool} {s0 : State} (port : Nat) {s : State} (hk : Keeps pw s0 s) : KeepsO pw s0 (execTimeLcfSend port s) := by
  unfold execTimeLcfSend; with_reducible repeat' first
    | assumption | exact KeepsO.fault _ | exact KeepsO.refused _ | apply KeepsO.next | apply KeepsO.ite | apply State.sendLcf_keeps
    | apply onFabricPort_keeps | apply State.updPort_keeps | apply Keeps.ite | split | (intro) | extract_lets

theorem execTimeLcf_keeps {pw : Bool} {s0 : State} (port : Nat) (flit : BitVec 512) (stamp : Nat) {s : State} (hk : Keeps pw s0 s) : KeepsO pw s0
    (execTimeLcf port flit stamp s) := by
  unfold execTimeLcf; with_reducible repeat' first
    | assumption | exact KeepsO.fault _ | exact KeepsO.refused _ | apply KeepsO.next | apply KeepsO.ite | apply State.acquire_keeps
    | apply State.advanceTo_keeps | apply State.updTime_keeps | apply State.hearRoot_keeps | apply onFabricPort_keeps | apply State.lcfIn_keeps
    | apply State.watch_keeps | apply State.reselect_keeps | apply State.steer_keeps | apply State.setEvt_keeps | apply State.updPort_keeps
    | apply Keeps.ite | split | (intro) | extract_lets

theorem execOfferExpiry_keeps {pw : Bool} {s0 : State} (port : Nat) {s : State} (hk : Keeps pw s0 s) : KeepsO pw s0 (execOfferExpiry port s) := by
  unfold execOfferExpiry; with_reducible repeat' first
    | assumption | exact KeepsO.fault _ | exact KeepsO.refused _ | apply KeepsO.next | apply KeepsO.ite | apply onFabricPort_keeps
    | apply State.reselect_keeps | apply State.updPort_keeps | apply Keeps.ite | split | (intro) | extract_lets

theorem execRootSeqAdvance_keeps {pw : Bool} {s0 : State} (count : Nat) {s : State} (hk : Keeps pw s0 s) : KeepsO pw s0 (execRootSeqAdvance count s)
    := by
  unfold execRootSeqAdvance; with_reducible repeat' first
    | assumption | exact KeepsO.fault _ | exact KeepsO.refused _ | apply KeepsO.next | apply KeepsO.ite | apply State.advanceTo_keeps
    | apply State.updTime_keeps | apply Keeps.ite | split | (intro) | extract_lets

theorem execRootClaimTimer_keeps {pw : Bool} {s0 : State} {s : State} (hk : Keeps pw s0 s) : KeepsO pw s0 (execRootClaimTimer s) := by
  unfold execRootClaimTimer; with_reducible repeat' first
    | assumption | exact KeepsO.fault _ | exact KeepsO.refused _ | apply KeepsO.next | apply KeepsO.ite | apply State.reselect_keeps
    | apply Keeps.ite | split | (intro) | extract_lets

theorem execPtpUnlockTimeout_keeps {pw : Bool} {s0 : State} {s : State} (hk : Keeps pw s0 s) : KeepsO pw s0 (execPtpUnlockTimeout s) := by
  unfold execPtpUnlockTimeout; with_reducible repeat' first
    | assumption | exact KeepsO.fault _ | exact KeepsO.refused _ | apply KeepsO.next | apply KeepsO.ite | apply State.updTime_keeps
    | apply State.reselect_keeps | apply Keeps.ite | split | (intro) | extract_lets

theorem execSync_keeps {pw : Bool} {s0 : State} (port : Nat) (m : PtpMsg) {s : State} (hk : Keeps pw s0 s) : KeepsO pw s0 (execSync port m s) := by
  unfold execSync; with_reducible repeat' first
    | assumption | exact KeepsO.fault _ | exact KeepsO.refused _ | apply KeepsO.next | apply KeepsO.ite | apply State.updPtp_keeps
    | apply State.ptpOffset_keeps | apply onEdgePort_keeps | apply Keeps.ite | split | (intro) | extract_lets

theorem execFollowUp_keeps {pw : Bool} {s0 : State} (port : Nat) (m : PtpMsg) {s : State} (hk : Keeps pw s0 s) : KeepsO pw s0 (execFollowUp port m s)
    := by
  unfold execFollowUp; with_reducible repeat' first
    | assumption | exact KeepsO.fault _ | exact KeepsO.refused _ | apply KeepsO.next | apply KeepsO.ite | apply State.updPtp_keeps
    | apply State.ptpOffset_keeps | apply onEdgePort_keeps | apply Keeps.ite | split | (intro) | extract_lets

theorem execDelayResp_keeps {pw : Bool} {s0 : State} (port : Nat) (m : PtpMsg) {s : State} (hk : Keeps pw s0 s) : KeepsO pw s0 (execDelayResp port m
    s) := by
  unfold execDelayResp; with_reducible repeat' first
    | assumption | exact KeepsO.fault _ | exact KeepsO.refused _ | apply KeepsO.next | apply KeepsO.ite | apply State.updPtp_keeps
    | apply State.ptpOffset_keeps | apply onEdgePort_keeps | apply Keeps.ite | split | (intro) | extract_lets

theorem execDelayReq_keeps {pw : Bool} {s0 : State} (port : Nat) (m : PtpMsg) {s : State} (hk : Keeps pw s0 s) : KeepsO pw s0 (execDelayReq port m s)
    := by
  unfold execDelayReq; with_reducible repeat' first
    | assumption | exact KeepsO.fault _ | exact KeepsO.refused _ | apply KeepsO.next | apply KeepsO.ite | apply onEdgePort_keeps
    | apply State.emit_keeps | apply Keeps.ite | split | (intro) | extract_lets

theorem execAnnounce_keeps {pw : Bool} {s0 : State} (port : Nat) (m : PtpMsg) (a : AnnounceData) {s : State} (hk : Keeps pw s0 s) : KeepsO pw s0
    (execAnnounce port m a s) := by
  unfold execAnnounce; with_reducible repeat' first
    | assumption | exact KeepsO.fault _ | exact KeepsO.refused _ | apply KeepsO.next | apply KeepsO.ite | apply State.updTime_keeps
    | apply State.updPtp_keeps | apply onEdgePort_keeps | apply Keeps.ite | split | (intro) | extract_lets

theorem execAnnounceReceiptTimeout_keeps {pw : Bool} {s0 : State} (port : Nat) {s : State} (hk : Keeps pw s0 s) : KeepsO pw s0
    (execAnnounceReceiptTimeout port s) := by
  unfold execAnnounceReceiptTimeout; with_reducible repeat' first
    | assumption | exact KeepsO.fault _ | exact KeepsO.refused _ | apply KeepsO.next | apply KeepsO.ite | apply State.updTime_keeps
    | apply State.holdover_keeps | apply State.updPtp_keeps | apply onEdgePort_keeps | apply Keeps.ite | split | (intro) | extract_lets

theorem execPtpSyncSend_keeps {pw : Bool} {s0 : State} (port : Nat) {s : State} (hk : Keeps pw s0 s) : KeepsO pw s0 (execPtpSyncSend port s) := by
  unfold execPtpSyncSend; with_reducible repeat' first
    | assumption | exact KeepsO.fault _ | exact KeepsO.refused _ | apply KeepsO.next | apply KeepsO.ite | apply State.updPtp_keeps
    | apply onEdgePort_keeps | apply State.emit_keeps | apply Keeps.ite | split | (intro) | extract_lets

theorem execPtpAnnounceSend_keeps {pw : Bool} {s0 : State} (port : Nat) {s : State} (hk : Keeps pw s0 s) : KeepsO pw s0 (execPtpAnnounceSend port s)
    := by
  unfold execPtpAnnounceSend; with_reducible repeat' first
    | assumption | exact KeepsO.fault _ | exact KeepsO.refused _ | apply KeepsO.next | apply KeepsO.ite | apply State.fresh_keeps
    | apply State.updPtp_keeps | apply onEdgePort_keeps | apply State.emit_keeps | apply Keeps.ite | split | (intro) | extract_lets

theorem execPtpDelayReqSend_keeps {pw : Bool} {s0 : State} (port : Nat) {s : State} (hk : Keeps pw s0 s) : KeepsO pw s0 (execPtpDelayReqSend port s)
    := by
  unfold execPtpDelayReqSend; with_reducible repeat' first
    | assumption | exact KeepsO.fault _ | exact KeepsO.refused _ | apply KeepsO.next | apply KeepsO.ite | apply State.updPtp_keeps
    | apply onEdgePort_keeps | apply State.emit_keeps | apply Keeps.ite | split | (intro) | extract_lets

theorem execVec_keeps {pw : Bool} {s0 : State} (c : CoreCmd) (first : Nat) (ins : List (List InElem)) (nearOff : Nat) {s : State} (hk : Keeps pw s0
    s) : KeepsO pw s0 (execVec c first ins nearOff s) := by
  unfold execVec; with_reducible repeat' first
    | assumption | exact KeepsO.fault _ | exact KeepsO.refused _ | apply KeepsO.next | apply KeepsO.ite | apply State.anchorFault_keeps
    | apply State.vecStore_keeps | apply State.updExec_keeps | apply State.addStatus_keeps | apply State.onCore_keeps | apply Keeps.ite | split
    | (intro) | extract_lets

end Sys2Proof.Machine
end

