-- ==== Sys2Proof/Laws/OnlyExec.lean ====
section
/-!
SUPPORT. The parts of the module that change (`Only`), for the commands: one lemma per operation.
-/
set_option linter.all false
namespace Sys2Proof.Machine

theorem onRing_only {ps : Nat} {s0 : State} (n : Nat) {r : State} (hk : Only ps s0 r) : OnlyO ps s0 (onRing n r) := by
  unfold onRing; with_reducible repeat' first
    | assumption | exact OnlyO.fault _ | exact OnlyO.refused _ | apply OnlyO.next | apply OnlyO.ite | apply Only.ite | split | (intro) | extract_lets

theorem execIdentify_only {ps : Nat} {s0 : State} (ring : Nat) {s : State} (hp : Foot 8388640 ps) (hk : Only ps s0 s) : OnlyO ps s0 (execIdentify
    ring s) := by
  unfold execIdentify; with_reducible repeat' first
    | assumption | exact OnlyO.fault _ | exact OnlyO.refused _ | apply OnlyO.next | apply OnlyO.ite | apply done_only | apply onRing_only
    | apply State.hostPayload_only (hp := Foot.sub (by decide) hp) | apply State.runEntry_only (hp := Foot.sub (by decide) hp) | apply Only.ite
    | split | (intro) | extract_lets

theorem execAttach_only {ps : Nat} {s0 : State} (ring : Nat) {s : State} (hp : Foot 8388640 ps) (hk : Only ps s0 s) : OnlyO ps s0 (execAttach ring s)
    := by
  unfold execAttach; with_reducible repeat' first
    | assumption | exact OnlyO.fault _ | exact OnlyO.refused _ | apply OnlyO.next | apply OnlyO.ite | apply done_only | apply onRing_only
    | apply State.runEntry_only (hp := Foot.sub (by decide) hp) | apply State.updMbx_only (hp := Foot.sub (by decide) hp) | apply Only.ite | split
    | (intro) | extract_lets

theorem execNop_only {ps : Nat} {s0 : State} (ring : Nat) {s : State} (hp : Foot 8388640 ps) (hk : Only ps s0 s) : OnlyO ps s0 (execNop ring s) := by
  unfold execNop; with_reducible repeat' first
    | assumption | exact OnlyO.fault _ | exact OnlyO.refused _ | apply OnlyO.next | apply OnlyO.ite | apply done_only | apply onRing_only
    | apply State.runEntry_only (hp := Foot.sub (by decide) hp) | apply Only.ite | split | (intro) | extract_lets

theorem execCtxLoad_only {ps : Nat} {s0 : State} (ring : Nat) {s : State} (hp : Foot 2361183241430594181104 ps) (hk : Only ps s0 s) : OnlyO ps s0
    (execCtxLoad ring s) := by
  unfold execCtxLoad; with_reducible repeat' first
    | assumption | exact OnlyO.fault _ | exact OnlyO.refused _ | apply OnlyO.next | apply OnlyO.ite | apply done_only
    | apply State.setDomains_only (hp := Foot.sub (by decide) hp) | apply onRing_only | apply State.writeRaw_only (hp := Foot.sub (by decide) hp)
    | apply State.runLoader_only (hp := Foot.sub (by decide) hp) | apply State.runEntry_only (hp := Foot.sub (by decide) hp) | apply forEach_only
    | refine State.updCtx_only (a := 171798691840) (Foot.sub (by decide) hp) (by with_unfolding_all (intro c q hq; cases q <;> first
    | (cases hq; done) | rfl)) ?_ | apply State.setCtx_only (hp := Foot.sub (by decide) hp) | apply Only.ite | split | (intro) | extract_lets

theorem execCtxArm_only {ps : Nat} {s0 : State} (ring : Nat) {s : State} (hp : Foot 1773200329655749444704 ps) (hk : Only ps s0 s) : OnlyO ps s0
    (execCtxArm ring s) := by
  unfold execCtxArm; with_reducible repeat' first
    | assumption | exact OnlyO.fault _ | exact OnlyO.refused _ | apply OnlyO.next | apply OnlyO.ite
    | apply State.sendCtrl_only (hp := Foot.sub (by decide) hp) | apply done_only | apply State.bind_only (hp := Foot.sub (by decide) hp)
    | apply onRing_only | apply State.runEntry_only (hp := Foot.sub (by decide) hp)
    | refine State.updCtx_only (a := 1773200329655741054976) (Foot.sub (by decide) hp) (by with_unfolding_all (intro c q hq; cases q <;> first
    | (cases hq; done) | rfl)) ?_ | apply Only.ite | split | (intro) | extract_lets

theorem execCtxHold_only {ps : Nat} {s0 : State} (ring : Nat) {s : State} (hp : Foot 1199038364791146020960 ps) (hk : Only ps s0 s) : OnlyO ps s0
    (execCtxHold ring s) := by
  unfold execCtxHold; with_reducible repeat' first
    | assumption | exact OnlyO.fault _ | exact OnlyO.refused _ | apply OnlyO.next | apply OnlyO.ite | apply done_only | apply onRing_only
    | apply later_only | apply State.runEntry_only (hp := Foot.sub (by decide) hp)
    | refine State.updCtx_only (a := 1199038364791120855040) (Foot.sub (by decide) hp) (by with_unfolding_all (intro c q hq; cases q <;> first
    | (cases hq; done) | rfl)) ?_ | apply State.notCoordinator_only (hp := Foot.sub (by decide) hp) | apply Only.ite | split | (intro) | extract_lets

theorem execCtxResume_only {ps : Nat} {s0 : State} (ring : Nat) {s : State} (hp : Foot 1180591620717436470368 ps) (hk : Only ps s0 s) : OnlyO ps s0
    (execCtxResume ring s) := by
  unfold execCtxResume; with_reducible repeat' first
    | assumption | exact OnlyO.fault _ | exact OnlyO.refused _ | apply OnlyO.next | apply OnlyO.ite | apply done_only | apply onRing_only
    | apply State.runEntry_only (hp := Foot.sub (by decide) hp) | apply State.resumeJob_only (hp := Foot.sub (by decide) hp)
    | apply State.notCoordinator_only (hp := Foot.sub (by decide) hp) | apply Only.ite | split | (intro) | extract_lets

theorem execCtxTeardown_only {ps : Nat} {s0 : State} (ring : Nat) {s : State} (hp : Foot 2361183241430594181104 ps) (hk : Only ps s0 s) : OnlyO ps s0
    (execCtxTeardown ring s) := by
  unfold execCtxTeardown; with_reducible repeat' first
    | assumption | exact OnlyO.fault _ | exact OnlyO.refused _ | apply OnlyO.next | apply OnlyO.ite | apply done_only
    | apply State.emptyCtx_only (hp := Foot.sub (by decide) hp) | apply onRing_only | apply later_only
    | apply State.runEntry_only (hp := Foot.sub (by decide) hp)
    | refine State.updCtx_only (a := 1217485108864830406656) (Foot.sub (by decide) hp) (by with_unfolding_all (intro c q hq; cases q <;> first
    | (cases hq; done) | rfl)) ?_ | apply State.notCoordinator_only (hp := Foot.sub (by decide) hp)
    | apply State.drainJob_only (hp := Foot.sub (by decide) hp) | apply Only.ite | split | (intro) | extract_lets

theorem execTensorWrite_only {ps : Nat} {s0 : State} (ring : Nat) {s : State} (hp : Foot 738734454076866561504 ps) (hk : Only ps s0 s) : OnlyO ps s0
    (execTensorWrite ring s) := by
  unfold execTensorWrite; with_reducible repeat' first
    | assumption | exact OnlyO.fault _ | exact OnlyO.refused _ | apply OnlyO.next | apply OnlyO.ite | apply done_only
    | apply State.updGey_only (hp := Foot.sub (by decide) hp) | apply onRing_only
    | apply State.hostWriteBlocks_only (hp := Foot.sub (by decide) hp) | apply later_only
    | apply State.runEntry_only (hp := Foot.sub (by decide) hp)
    | refine State.updCtx_only (a := 576460752303423488) (Foot.sub (by decide) hp) (by with_unfolding_all (intro c q hq; cases q <;> first
    | (cases hq; done) | rfl)) ?_ | apply Only.ite | split | (intro) | extract_lets

theorem execTensorRead_only {ps : Nat} {s0 : State} (ring : Nat) (rd : ReadOutcome) {s : State} (hp : Foot 738302108512675846128 ps) (hk : Only ps s0
    s) : OnlyO ps s0 (execTensorRead ring rd s) := by
  unfold execTensorRead; with_reducible repeat' first
    | assumption | exact OnlyO.fault _ | exact OnlyO.refused _ | apply OnlyO.next | apply OnlyO.ite | apply done_only | apply onRing_only
    | apply State.hostPayload_only (hp := Foot.sub (by decide) hp) | apply State.hostRead_only (hp := Foot.sub (by decide) hp)
    | apply State.runEntry_only (hp := Foot.sub (by decide) hp)
    | refine State.updCtx_only (a := 288230376151711744) (Foot.sub (by decide) hp) (by with_unfolding_all (intro c q hq; cases q <;> first
    | (cases hq; done) | rfl)) ?_ | apply Only.ite | split | (intro) | extract_lets

theorem execDumpRequest_only {ps : Nat} {s0 : State} (ring : Nat) (list : List Byte) {s : State} (hp : Foot 1033450013692028671984 ps) (hk : Only ps
    s0 s) : OnlyO ps s0 (execDumpRequest ring list s) := by
  unfold execDumpRequest; with_reducible repeat' first
    | assumption | exact OnlyO.fault _ | exact OnlyO.refused _ | apply OnlyO.next | apply OnlyO.ite | apply done_only | apply onRing_only
    | apply State.runEntry_only (hp := Foot.sub (by decide) hp) | apply State.updMbx_only (hp := Foot.sub (by decide) hp)
    | refine State.updCtx_only (a := 442721857769029238784) (Foot.sub (by decide) hp) (by with_unfolding_all (intro c q hq; cases q <;> first
    | (cases hq; done) | rfl)) ?_ | apply State.reportDump_only (hp := Foot.sub (by decide) hp)
    | apply State.capture_only (hp := Foot.sub (by decide) hp) | apply Only.ite | split | (intro) | extract_lets

theorem execFingerprintGet_only {ps : Nat} {s0 : State} (ring : Nat) {s : State} (hp : Foot 8388640 ps) (hk : Only ps s0 s) : OnlyO ps s0
    (execFingerprintGet ring s) := by
  unfold execFingerprintGet; with_reducible repeat' first
    | assumption | exact OnlyO.fault _ | exact OnlyO.refused _ | apply OnlyO.next | apply OnlyO.ite | apply done_only | apply onRing_only
    | apply State.hostPayload_only (hp := Foot.sub (by decide) hp) | apply State.runEntry_only (hp := Foot.sub (by decide) hp) | apply Only.ite
    | split | (intro) | extract_lets

theorem execPolicySet_only {ps : Nat} {s0 : State} (ring : Nat) {s : State} (hp : Foot 2199031644256 ps) (hk : Only ps s0 s) : OnlyO ps s0
    (execPolicySet ring s) := by
  unfold execPolicySet; with_reducible repeat' first
    | assumption | exact OnlyO.fault _ | exact OnlyO.refused _ | apply OnlyO.next | apply OnlyO.ite | apply done_only | apply onRing_only
    | apply State.runEntry_only (hp := Foot.sub (by decide) hp)
    | refine State.updCtx_only (a := 2199023255552) (Foot.sub (by decide) hp) (by with_unfolding_all (intro c q hq; cases q <;> first
    | (cases hq; done) | rfl)) ?_ | apply Only.ite | split | (intro) | extract_lets

theorem execCommandAccept_only {ps : Nat} {s0 : State} (ring : Nat) (e : SqEntry) (payload : List Byte) {s : State} (hp : Foot 8388640 ps) (hk : Only
    ps s0 s) : OnlyO ps s0 (execCommandAccept ring e payload s) := by
  unfold execCommandAccept; with_reducible repeat' first
    | assumption | exact OnlyO.fault _ | exact OnlyO.refused _ | apply OnlyO.next | apply OnlyO.ite | apply onRing_only
    | apply State.accept_only (hp := Foot.sub (by decide) hp) | apply Only.ite | split | (intro) | extract_lets

theorem execSqDoorbell_only {ps : Nat} {s0 : State} (ring : Nat) (tail : Nat) {s : State} (hp : Foot 32 ps) (hk : Only ps s0 s) : OnlyO ps s0
    (execSqDoorbell ring tail s) := by
  unfold execSqDoorbell; with_reducible repeat' first
    | assumption | exact OnlyO.fault _ | exact OnlyO.refused _ | apply OnlyO.next | apply OnlyO.ite | apply onRing_only
    | apply State.updRing_only (hp := Foot.sub (by decide) hp) | apply Only.ite | split | (intro) | extract_lets

theorem execRingEnWrite_only {ps : Nat} {s0 : State} (ring : Nat) (en : Bool) {s : State} (hp : Foot 32 ps) (hk : Only ps s0 s) : OnlyO ps s0
    (execRingEnWrite ring en s) := by
  unfold execRingEnWrite; with_reducible repeat' first
    | assumption | exact OnlyO.fault _ | exact OnlyO.refused _ | apply OnlyO.next | apply OnlyO.ite | apply onRing_only
    | apply State.updRing_only (hp := Foot.sub (by decide) hp) | apply Only.ite | split | (intro) | extract_lets

theorem execMbxEnableWrite_only {ps : Nat} {s0 : State} (en : Bool) {s : State} (hp : Foot 32 ps) (hk : Only ps s0 s) : OnlyO ps s0
    (execMbxEnableWrite en s) := by
  unfold execMbxEnableWrite; with_reducible repeat' first
    | assumption | exact OnlyO.fault _ | exact OnlyO.refused _ | apply OnlyO.next | apply OnlyO.ite
    | apply State.enableWrite_only (hp := Foot.sub (by decide) hp) | apply Only.ite | split | (intro) | extract_lets

theorem execCqHeadWrite_only {ps : Nat} {s0 : State} (ring : Nat) (head : Nat) {s : State} (hp : Foot 8388640 ps) (hk : Only ps s0 s) : OnlyO ps s0
    (execCqHeadWrite ring head s) := by
  unfold execCqHeadWrite; with_reducible repeat' first
    | assumption | exact OnlyO.fault _ | exact OnlyO.refused _ | apply OnlyO.next | apply OnlyO.ite | apply onRing_only
    | apply State.consume_only (hp := Foot.sub (by decide) hp) | apply Only.ite | split | (intro) | extract_lets

theorem execMbxHeartbeat_only {ps : Nat} {s0 : State} (value : Nat) {s : State} (hp : Foot 32 ps) (hk : Only ps s0 s) : OnlyO ps s0 (execMbxHeartbeat
    value s) := by
  unfold execMbxHeartbeat; with_reducible repeat' first
    | assumption | exact OnlyO.fault _ | exact OnlyO.refused _ | apply OnlyO.next | apply OnlyO.ite
    | apply State.updMbx_only (hp := Foot.sub (by decide) hp) | apply Only.ite | split | (intro) | extract_lets

theorem execRegisterWrite_only {ps : Nat} {s0 : State} (offset : Nat) (value : Nat) {s : State} (hp : Foot 10485792 ps) (hk : Only ps s0 s) : OnlyO
    ps s0 (execRegisterWrite offset value s) := by
  unfold execRegisterWrite; with_reducible repeat' first
    | assumption | exact OnlyO.fault _ | exact OnlyO.refused _ | apply OnlyO.next | apply OnlyO.ite
    | apply State.ringWrite_only (hp := Foot.sub (by decide) hp) | apply State.enableWrite_only (hp := Foot.sub (by decide) hp)
    | apply State.w1c_only (hp := Foot.sub (by decide) hp) | apply State.updMbx_only (hp := Foot.sub (by decide) hp) | apply Only.ite | split
    | (intro) | extract_lets

theorem execPcieHotReset_only {ps : Nat} {s0 : State} {s : State} (hp : Foot 2097184 ps) (hk : Only ps s0 s) : OnlyO ps s0 (execPcieHotReset s) := by
  unfold execPcieHotReset; with_reducible repeat' first
    | assumption | exact OnlyO.fault _ | exact OnlyO.refused _ | apply OnlyO.next | apply OnlyO.ite
    | apply State.mbxReset_only (hp := Foot.sub (by decide) hp) | apply Only.ite | split | (intro) | extract_lets

theorem execPcieLinkDown_only {ps : Nat} {s0 : State} {s : State} (hp : Foot 2097184 ps) (hk : Only ps s0 s) : OnlyO ps s0 (execPcieLinkDown s) := by
  unfold execPcieLinkDown; with_reducible repeat' first
    | assumption | exact OnlyO.fault _ | exact OnlyO.refused _ | apply OnlyO.next | apply OnlyO.ite
    | apply State.mbxReset_only (hp := Foot.sub (by decide) hp) | apply State.updMbx_only (hp := Foot.sub (by decide) hp) | apply Only.ite | split
    | (intro) | extract_lets

theorem execPcieFlr_only {ps : Nat} {s0 : State} {s : State} (hp : Foot 295147905179367638128 ps) (hk : Only ps s0 s) : OnlyO ps s0 (execPcieFlr s)
    := by
  unfold execPcieFlr; with_reducible repeat' first
    | assumption | exact OnlyO.fault _ | exact OnlyO.refused _ | apply OnlyO.next | apply OnlyO.ite
    | apply State.hostLost_only (hp := Foot.sub (by decide) hp) | apply State.mbxReset_only (hp := Foot.sub (by decide) hp)
    | apply State.updMbx_only (hp := Foot.sub (by decide) hp) | apply Only.ite | split | (intro) | extract_lets

theorem execPf1Flr_only {ps : Nat} {s0 : State} {s : State} (hp : Foot 524288 ps) (hk : Only ps s0 s) : OnlyO ps s0 (execPf1Flr s) := by
  unfold execPf1Flr; with_reducible repeat' first
    | assumption | exact OnlyO.fault _ | exact OnlyO.refused _ | apply OnlyO.next | apply OnlyO.ite
    | apply State.updMgmt_only (hp := Foot.sub (by decide) hp) | apply Only.ite | split | (intro) | extract_lets

theorem execBusMasterDisable_only {ps : Nat} {s0 : State} {s : State} (hp : Foot 295147905179367638128 ps) (hk : Only ps s0 s) : OnlyO ps s0
    (execBusMasterDisable s) := by
  unfold execBusMasterDisable; with_reducible repeat' first
    | assumption | exact OnlyO.fault _ | exact OnlyO.refused _ | apply OnlyO.next | apply OnlyO.ite
    | apply State.hostLost_only (hp := Foot.sub (by decide) hp) | apply State.updMbx_only (hp := Foot.sub (by decide) hp) | apply Only.ite | split
    | (intro) | extract_lets

theorem execHostHbTimeout_only {ps : Nat} {s0 : State} {s : State} (hp : Foot 295147905179367638128 ps) (hk : Only ps s0 s) : OnlyO ps s0
    (execHostHbTimeout s) := by
  unfold execHostHbTimeout; with_reducible repeat' first
    | assumption | exact OnlyO.fault _ | exact OnlyO.refused _ | apply OnlyO.next | apply OnlyO.ite
    | apply State.hostLost_only (hp := Foot.sub (by decide) hp) | apply Only.ite | split | (intro) | extract_lets

theorem execPcieLinkDownTimeout_only {ps : Nat} {s0 : State} {s : State} (hp : Foot 295147905179367638128 ps) (hk : Only ps s0 s) : OnlyO ps s0
    (execPcieLinkDownTimeout s) := by
  unfold execPcieLinkDownTimeout; with_reducible repeat' first
    | assumption | exact OnlyO.fault _ | exact OnlyO.refused _ | apply OnlyO.next | apply OnlyO.ite
    | apply State.hostLost_only (hp := Foot.sub (by decide) hp) | apply Only.ite | split | (intro) | extract_lets

theorem execStepLaunch_only {ps : Nat} {s0 : State} (x : Nat) {s : State} (hp : Foot 74201307460562976849 ps) (hk : Only ps s0 s) : OnlyO ps s0
    (execStepLaunch x s) := by
  unfold execStepLaunch; with_reducible repeat' first
    | assumption | exact OnlyO.fault _ | exact OnlyO.refused _ | apply OnlyO.next | apply OnlyO.ite
    | apply State.advanceTo_only (hp := Foot.sub (by decide) hp) | apply State.launchStep_only (hp := Foot.sub (by decide) hp) | apply Only.ite
    | split | (intro) | extract_lets

theorem execStepConfirmSend_only {ps : Nat} {s0 : State} (x : Nat) {s : State} (hp : Foot 812881718341931587536 ps) (hk : Only ps s0 s) : OnlyO ps s0
    (execStepConfirmSend x s) := by
  unfold execStepConfirmSend; with_reducible repeat' first
    | assumption | exact OnlyO.fault _ | exact OnlyO.refused _ | apply OnlyO.next | apply OnlyO.ite
    | apply State.sendCtrl_only (hp := Foot.sub (by decide) hp) | apply State.leaveFirst_only (hp := Foot.sub (by decide) hp)
    | apply State.gate_only (hp := Foot.sub (by decide) hp) | apply State.settleRepeats_only (hp := Foot.sub (by decide) hp)
    | refine State.updCtx_only (a := 1224979098644774912) (Foot.sub (by decide) hp) (by with_unfolding_all (intro c q hq; cases q <;> first
    | (cases hq; done) | rfl)) ?_ | apply Only.ite | split | (intro) | extract_lets

theorem execStepConfirm_only {ps : Nat} {s0 : State} (h : Hdr) {s : State} (hp : Foot 1180879851093592376385 ps) (hk : Only ps s0 s) : OnlyO ps s0
    (execStepConfirm h s) := by
  unfold execStepConfirm; with_reducible repeat' first
    | assumption | exact OnlyO.fault _ | exact OnlyO.refused _ | apply OnlyO.next | apply OnlyO.ite
    | apply State.ctrlIn_only (hp := Foot.sub (by decide) hp) | apply effStepConfirm_only (hp := Foot.sub (by decide) hp) | apply Only.ite | split
    | (intro) | extract_lets

theorem execCommitDeadline_only {ps : Nat} {s0 : State} (x : Nat) {s : State} (hp : Foot 1180591620717419693121 ps) (hk : Only ps s0 s) : OnlyO ps s0
    (execCommitDeadline x s) := by
  unfold execCommitDeadline; with_reducible repeat' first
    | assumption | exact OnlyO.fault _ | exact OnlyO.refused _ | apply OnlyO.next | apply OnlyO.ite
    | apply State.advanceTo_only (hp := Foot.sub (by decide) hp) | apply State.updCoord_only (hp := Foot.sub (by decide) hp) | apply forEach_only
    | apply State.toSome_only (hp := Foot.sub (by decide) hp) | apply Only.ite | split | (intro) | extract_lets

theorem execFaultReport_only {ps : Nat} {s0 : State} (h : Hdr) (f : FaultParam) {s : State} (hp : Foot 1180880027015455048785 ps) (hk : Only ps s0 s)
    : OnlyO ps s0 (execFaultReport h f s) := by
  unfold execFaultReport; with_reducible repeat' first
    | assumption | exact OnlyO.fault _ | exact OnlyO.refused _ | apply OnlyO.next | apply OnlyO.ite
    | apply State.ctrlIn_only (hp := Foot.sub (by decide) hp) | apply effFaultReport_only (hp := Foot.sub (by decide) hp) | apply Only.ite | split
    | (intro) | extract_lets

theorem execReexecCollect_only {ps : Nat} {s0 : State} (x : Nat) {s : State} (hp : Foot 1180591620717419693120 ps) (hk : Only ps s0 s) : OnlyO ps s0
    (execReexecCollect x s) := by
  unfold execReexecCollect; with_reducible repeat' first
    | assumption | exact OnlyO.fault _ | exact OnlyO.refused _ | apply OnlyO.next | apply OnlyO.ite
    | apply State.issueReexec_only (hp := Foot.sub (by decide) hp) | apply Only.ite | split | (intro) | extract_lets

theorem execCommit_only {ps : Nat} {s0 : State} (h : Hdr) (launch : Nat) (hold : Bool) (epoch : Nat) {s : State} (hp : Foot 2350806692811024850943
    ps) (hk : Only ps s0 s) : OnlyO ps s0 (execCommit h launch hold epoch s) := by
  unfold execCommit; with_reducible repeat' first
    | assumption | exact OnlyO.fault _ | exact OnlyO.refused _ | apply OnlyO.next | apply OnlyO.ite
    | apply State.ctrlIn_only (hp := Foot.sub (by decide) hp) | apply effCommit_only (hp := Foot.sub (by decide) hp) | apply Only.ite | split
    | (intro) | extract_lets

theorem execReexec_only {ps : Nat} {s0 : State} (h : Hdr) (launch : Nat) (epoch : Nat) {s : State} (hp : Foot 2287970500480819683295 ps) (hk : Only
    ps s0 s) : OnlyO ps s0 (execReexec h launch epoch s) := by
  unfold execReexec; with_reducible repeat' first
    | assumption | exact OnlyO.fault _ | exact OnlyO.refused _ | apply OnlyO.next | apply OnlyO.ite
    | apply State.ctrlIn_only (hp := Foot.sub (by decide) hp) | apply effReexec_only (hp := Foot.sub (by decide) hp) | apply Only.ite | split
    | (intro) | extract_lets

theorem execModuleLost_only {ps : Nat} {s0 : State} (h : Hdr) (lost : Nat) (spare : Nat) (epoch : Nat) {s : State} (hp : Foot 2361183241430594181105
    ps) (hk : Only ps s0 s) : OnlyO ps s0 (execModuleLost h lost spare epoch s) := by
  unfold execModuleLost; with_reducible repeat' first
    | assumption | exact OnlyO.fault _ | exact OnlyO.refused _ | apply OnlyO.next | apply OnlyO.ite
    | apply State.ctrlIn_only (hp := Foot.sub (by decide) hp) | apply effModuleLost_only (hp := Foot.sub (by decide) hp) | apply Only.ite | split
    | (intro) | extract_lets

theorem execArmed_only {ps : Nat} {s0 : State} (h : Hdr) (digest : Nat) {s : State} (hp : Foot 1180880027015455048785 ps) (hk : Only ps s0 s) : OnlyO
    ps s0 (execArmed h digest s) := by
  unfold execArmed; with_reducible repeat' first
    | assumption | exact OnlyO.fault _ | exact OnlyO.refused _ | apply OnlyO.next | apply OnlyO.ite
    | apply State.ctrlIn_only (hp := Foot.sub (by decide) hp) | apply effArmed_only (hp := Foot.sub (by decide) hp) | apply Only.ite | split
    | (intro) | extract_lets

theorem execStart_only {ps : Nat} {s0 : State} (h : Hdr) (launch : Nat) (policy : Nat) (epoch : Nat) {s : State} (hp : Foot 2000172755770653695967
    ps) (hk : Only ps s0 s) : OnlyO ps s0 (execStart h launch policy epoch s) := by
  unfold execStart; with_reducible repeat' first
    | assumption | exact OnlyO.fault _ | exact OnlyO.refused _ | apply OnlyO.next | apply OnlyO.ite
    | apply effStart_only (hp := Foot.sub (by decide) hp) | apply State.ctrlIn_only (hp := Foot.sub (by decide) hp) | apply Only.ite | split
    | (intro) | extract_lets

theorem execPmap_only {ps : Nat} {s0 : State} (h : Hdr) (part : Nat) (bitmap : Nat) (epoch : Nat) {s : State} (hp : Foot 1180880123772477113409 ps)
    (hk : Only ps s0 s) : OnlyO ps s0 (execPmap h part bitmap epoch s) := by
  unfold execPmap; with_reducible repeat' first
    | assumption | exact OnlyO.fault _ | exact OnlyO.refused _ | apply OnlyO.next | apply OnlyO.ite
    | apply State.ctrlIn_only (hp := Foot.sub (by decide) hp) | apply effPmap_only (hp := Foot.sub (by decide) hp) | apply Only.ite | split
    | (intro) | extract_lets

theorem execResume_only {ps : Nat} {s0 : State} (h : Hdr) (launch : Nat) (epoch : Nat) {s : State} (hp : Foot 1992822595305761824735 ps) (hk : Only
    ps s0 s) : OnlyO ps s0 (execResume h launch epoch s) := by
  unfold execResume; with_reducible repeat' first
    | assumption | exact OnlyO.fault _ | exact OnlyO.refused _ | apply OnlyO.next | apply OnlyO.ite
    | apply State.ctrlIn_only (hp := Foot.sub (by decide) hp) | apply effResume_only (hp := Foot.sub (by decide) hp) | apply Only.ite | split
    | (intro) | extract_lets

theorem execHostLoss_only {ps : Nat} {s0 : State} (h : Hdr) (tick : Nat) {s : State} (hp : Foot 1180879851093592376385 ps) (hk : Only ps s0 s) :
    OnlyO ps s0 (execHostLoss h tick s) := by
  unfold execHostLoss; with_reducible repeat' first
    | assumption | exact OnlyO.fault _ | exact OnlyO.refused _ | apply OnlyO.next | apply OnlyO.ite
    | apply effHostLoss_only (hp := Foot.sub (by decide) hp) | apply State.ctrlIn_only (hp := Foot.sub (by decide) hp) | apply Only.ite | split
    | (intro) | extract_lets

theorem execStepHold_only {ps : Nat} {s0 : State} (h : Hdr) (reason : Nat) (epoch : Nat) {s : State} (hp : Foot 2343274703909224341503 ps) (hk : Only
    ps s0 s) : OnlyO ps s0 (execStepHold h reason epoch s) := by
  unfold execStepHold; with_reducible repeat' first
    | assumption | exact OnlyO.fault _ | exact OnlyO.refused _ | apply OnlyO.next | apply OnlyO.ite
    | apply State.ctrlIn_only (hp := Foot.sub (by decide) hp) | apply effStepHold_only (hp := Foot.sub (by decide) hp) | apply Only.ite | split
    | (intro) | extract_lets

theorem execDrain_only {ps : Nat} {s0 : State} (h : Hdr) (td : Nat) (epoch : Nat) {s : State} (hp : Foot 1190103249523022234689 ps) (hk : Only ps s0
    s) : OnlyO ps s0 (execDrain h td epoch s) := by
  unfold execDrain; with_reducible repeat' first
    | assumption | exact OnlyO.fault _ | exact OnlyO.refused _ | apply OnlyO.next | apply OnlyO.ite
    | apply State.ctrlIn_only (hp := Foot.sub (by decide) hp) | apply effDrain_only (hp := Foot.sub (by decide) hp) | apply Only.ite | split
    | (intro) | extract_lets

theorem execDrainStart_only {ps : Nat} {s0 : State} (x : Nat) {s : State} (hp : Foot 1025 ps) (hk : Only ps s0 s) : OnlyO ps s0 (execDrainStart x s)
    := by
  unfold execDrainStart; with_reducible repeat' first
    | assumption | exact OnlyO.fault _ | exact OnlyO.refused _ | apply OnlyO.next | apply OnlyO.ite
    | apply State.advanceTo_only (hp := Foot.sub (by decide) hp) | apply State.updFab_only (hp := Foot.sub (by decide) hp) | apply Only.ite | split
    | (intro) | extract_lets

theorem execDrainEnd_only {ps : Nat} {s0 : State} (x : Nat) {s : State} (hp : Foot 2361183241430594181105 ps) (hk : Only ps s0 s) : OnlyO ps s0
    (execDrainEnd x s) := by
  unfold execDrainEnd; with_reducible repeat' first
    | assumption | exact OnlyO.fault _ | exact OnlyO.refused _ | apply OnlyO.next | apply OnlyO.ite
    | apply State.advanceTo_only (hp := Foot.sub (by decide) hp) | apply State.sendCtrl_only (hp := Foot.sub (by decide) hp)
    | apply State.emptyCtx_only (hp := Foot.sub (by decide) hp) | apply Only.ite | split | (intro) | extract_lets

theorem execDrained_only {ps : Nat} {s0 : State} (h : Hdr) {s : State} (hp : Foot 1180879851093592376385 ps) (hk : Only ps s0 s) : OnlyO ps s0
    (execDrained h s) := by
  unfold execDrained; with_reducible repeat' first
    | assumption | exact OnlyO.fault _ | exact OnlyO.refused _ | apply OnlyO.next | apply OnlyO.ite
    | apply effDrained_only (hp := Foot.sub (by decide) hp) | apply State.ctrlIn_only (hp := Foot.sub (by decide) hp) | apply Only.ite | split
    | (intro) | extract_lets

theorem execAck_only {ps : Nat} {s0 : State} (h : Hdr) (seqAcked : Nat) {s : State} (hp : Foot 1771175837374144971889 ps) (hk : Only ps s0 s) : OnlyO
    ps s0 (execAck h seqAcked s) := by
  unfold execAck; with_reducible repeat' first
    | assumption | exact OnlyO.fault _ | exact OnlyO.refused _ | apply OnlyO.next | apply OnlyO.ite
    | apply State.advanceTo_only (hp := Foot.sub (by decide) hp) | apply State.markLate_only (hp := Foot.sub (by decide) hp)
    | apply State.updFab_only (hp := Foot.sub (by decide) hp) | apply effAck_only (hp := Foot.sub (by decide) hp) | apply State.when_only
    | apply Only.ite | split | (intro) | extract_lets

theorem execNotReady_only {ps : Nat} {s0 : State} (h : Hdr) (hintUs : Nat) (seqRefused : Nat) {s : State} (hp : Foot 1025 ps) (hk : Only ps s0 s) :
    OnlyO ps s0 (execNotReady h hintUs seqRefused s) := by
  unfold execNotReady; with_reducible repeat' first
    | assumption | exact OnlyO.fault _ | exact OnlyO.refused _ | apply OnlyO.next | apply OnlyO.ite
    | apply State.advanceTo_only (hp := Foot.sub (by decide) hp) | apply State.echoAll_only (hp := Foot.sub (by decide) hp)
    | apply State.updFab_only (hp := Foot.sub (by decide) hp) | apply State.when_only | apply Only.ite | split | (intro) | extract_lets

theorem execCnEcho_only {ps : Nat} {s0 : State} (h : Hdr) (vc : Nat) {s : State} (hp : Foot 1025 ps) (hk : Only ps s0 s) : OnlyO ps s0 (execCnEcho h
    vc s) := by
  unfold execCnEcho; with_reducible repeat' first
    | assumption | exact OnlyO.fault _ | exact OnlyO.refused _ | apply OnlyO.next | apply OnlyO.ite
    | apply State.advanceTo_only (hp := Foot.sub (by decide) hp) | apply State.echo_only (hp := Foot.sub (by decide) hp) | apply Only.ite | split
    | (intro) | extract_lets

theorem execLimiterIncrease_only {ps : Nat} {s0 : State} (dst : Nat) (vc : Nat) {s : State} (hp : Foot 1024 ps) (hk : Only ps s0 s) : OnlyO ps s0
    (execLimiterIncrease dst vc s) := by
  unfold execLimiterIncrease; with_reducible repeat' first
    | assumption | exact OnlyO.fault _ | exact OnlyO.refused _ | apply OnlyO.next | apply OnlyO.ite
    | apply State.updFab_only (hp := Foot.sub (by decide) hp) | apply Only.ite | split | (intro) | extract_lets

theorem execCtrlRetransmit_only {ps : Nat} {s0 : State} (dst : Nat) (ep : Nat) (seq : Nat) {s : State} (hp : Foot 8389632 ps) (hk : Only ps s0 s) :
    OnlyO ps s0 (execCtrlRetransmit dst ep seq s) := by
  unfold execCtrlRetransmit; with_reducible repeat' first
    | assumption | exact OnlyO.fault _ | exact OnlyO.refused _ | apply OnlyO.next | apply OnlyO.ite
    | apply State.updFab_only (hp := Foot.sub (by decide) hp) | apply State.emit_only (hp := Foot.sub (by decide) hp) | apply Only.ite | split
    | (intro) | extract_lets

theorem execCoordBeatSend_only {ps : Nat} {s0 : State} (x : Nat) {s : State} (hp : Foot 1180591620717420741696 ps) (hk : Only ps s0 s) : OnlyO ps s0
    (execCoordBeatSend x s) := by
  unfold execCoordBeatSend; with_reducible repeat' first
    | assumption | exact OnlyO.fault _ | exact OnlyO.refused _ | apply OnlyO.next | apply OnlyO.ite
    | apply State.sendCtrl_only (hp := Foot.sub (by decide) hp) | apply State.updPins_only (hp := Foot.sub (by decide) hp)
    | apply State.updCoord_only (hp := Foot.sub (by decide) hp) | apply State.when_only | apply Only.ite | split | (intro) | extract_lets

theorem execCoordBeat_only {ps : Nat} {s0 : State} (h : Hdr) (leaseEnd : Nat) (epoch : Nat) {s : State} (hp : Foot 1180879877481872499777 ps) (hk :
    Only ps s0 s) : OnlyO ps s0 (execCoordBeat h leaseEnd epoch s) := by
  unfold execCoordBeat; with_reducible repeat' first
    | assumption | exact OnlyO.fault _ | exact OnlyO.refused _ | apply OnlyO.next | apply OnlyO.ite
    | apply State.ctrlIn_only (hp := Foot.sub (by decide) hp) | apply effCoordBeat_only (hp := Foot.sub (by decide) hp) | apply Only.ite | split
    | (intro) | extract_lets

theorem execLeaseEnd_only {ps : Nat} {s0 : State} (x : Nat) {s : State} (hp : Foot 1048576 ps) (hk : Only ps s0 s) : OnlyO ps s0 (execLeaseEnd x s)
    := by
  unfold execLeaseEnd; with_reducible repeat' first
    | assumption | exact OnlyO.fault _ | exact OnlyO.refused _ | apply OnlyO.next | apply OnlyO.ite
    | apply State.updPins_only (hp := Foot.sub (by decide) hp) | apply Only.ite | split | (intro) | extract_lets

theorem execLeaseExpiry_only {ps : Nat} {s0 : State} (x : Nat) {s : State} (hp : Foot 1180591620717424936000 ps) (hk : Only ps s0 s) : OnlyO ps s0
    (execLeaseExpiry x s) := by
  unfold execLeaseExpiry; with_reducible repeat' first
    | assumption | exact OnlyO.fault _ | exact OnlyO.refused _ | apply OnlyO.next | apply OnlyO.ite
    | apply State.takeOver_only (hp := Foot.sub (by decide) hp) | apply Only.ite | split | (intro) | extract_lets

theorem execInterlockInFall_only {ps : Nat} {s0 : State} {s : State} (hp : Foot 8192 ps) (hk : Only ps s0 s) : OnlyO ps s0 (execInterlockInFall s) :=
    by
  unfold execInterlockInFall; with_reducible repeat' first
    | assumption | exact OnlyO.fault _ | exact OnlyO.refused _ | apply OnlyO.next | apply OnlyO.ite
    | apply State.updCal_only (hp := Foot.sub (by decide) hp) | apply Only.ite | split | (intro) | extract_lets

theorem execInterlockStuck_only {ps : Nat} {s0 : State} (x : Nat) {s : State} (hp : Foot 1180591620717427164240 ps) (hk : Only ps s0 s) : OnlyO ps s0
    (execInterlockStuck x s) := by
  unfold execInterlockStuck; with_reducible repeat' first
    | assumption | exact OnlyO.fault _ | exact OnlyO.refused _ | apply OnlyO.next | apply OnlyO.ite
    | apply State.takeOver_only (hp := Foot.sub (by decide) hp) | apply State.setEvt_only (hp := Foot.sub (by decide) hp) | apply Only.ite | split
    | (intro) | extract_lets

theorem execTakeover_only {ps : Nat} {s0 : State} (h : Hdr) (newLocus : Nat) (epoch : Nat) {s : State} (hp : Foot 1180879877481872491585 ps) (hk :
    Only ps s0 s) : OnlyO ps s0 (execTakeover h newLocus epoch s) := by
  unfold execTakeover; with_reducible repeat' first
    | assumption | exact OnlyO.fault _ | exact OnlyO.refused _ | apply OnlyO.next | apply OnlyO.ite
    | apply State.ctrlIn_only (hp := Foot.sub (by decide) hp) | apply effTakeover_only (hp := Foot.sub (by decide) hp) | apply Only.ite | split
    | (intro) | extract_lets

theorem execTakeoverState_only {ps : Nat} {s0 : State} (h : Hdr) (attempt : Nat) (confirmed : Bool) (faulted : Bool) (hasLaunch : Bool) (held : Bool)
    (launch : Nat) (epoch : Nat) {s : State} (hp : Foot 1180879851093592376385 ps) (hk : Only ps s0 s) : OnlyO ps s0 (execTakeoverState h attempt
    confirmed faulted hasLaunch held launch epoch s) := by
  unfold execTakeoverState; with_reducible repeat' first
    | assumption | exact OnlyO.fault _ | exact OnlyO.refused _ | apply OnlyO.next | apply OnlyO.ite
    | apply State.ctrlIn_only (hp := Foot.sub (by decide) hp) | apply effTakeoverState_only (hp := Foot.sub (by decide) hp) | apply Only.ite
    | split | (intro) | extract_lets

theorem execTakeoverStateTimeout_only {ps : Nat} {s0 : State} (x : Nat) (locus : Nat) {s : State} (hp : Foot 1180591796639301108800 ps) (hk : Only ps
    s0 s) : OnlyO ps s0 (execTakeoverStateTimeout x locus s) := by
  unfold execTakeoverStateTimeout; with_reducible repeat' first
    | assumption | exact OnlyO.fault _ | exact OnlyO.refused _ | apply OnlyO.next | apply OnlyO.ite
    | apply State.updCoord_only (hp := Foot.sub (by decide) hp) | apply State.settleTakeover_only (hp := Foot.sub (by decide) hp)
    | apply State.declareLost_only (hp := Foot.sub (by decide) hp) | apply Only.ite | apply foldl_onlyS | apply foldl_only1 | apply foldl_only2
    | split | (intro) | extract_lets

theorem execProbe_only {ps : Nat} {s0 : State} (h : Hdr) (epoch : Nat) {s : State} (hp : Foot 1180879877481872491585 ps) (hk : Only ps s0 s) : OnlyO
    ps s0 (execProbe h epoch s) := by
  unfold execProbe; with_reducible repeat' first
    | assumption | exact OnlyO.fault _ | exact OnlyO.refused _ | apply OnlyO.next | apply OnlyO.ite
    | apply State.ctrlIn_only (hp := Foot.sub (by decide) hp) | apply effProbe_only (hp := Foot.sub (by decide) hp) | apply Only.ite | split
    | (intro) | extract_lets

theorem execProbeReply_only {ps : Nat} {s0 : State} (h : Hdr) (attempt : Nat) (status : Nat) (level : Nat) {s : State} (hp : Foot
    1180880027015452820545 ps) (hk : Only ps s0 s) : OnlyO ps s0 (execProbeReply h attempt status level s) := by
  unfold execProbeReply; with_reducible repeat' first
    | assumption | exact OnlyO.fault _ | exact OnlyO.refused _ | apply OnlyO.next | apply OnlyO.ite
    | apply State.ctrlIn_only (hp := Foot.sub (by decide) hp) | apply effProbeReply_only (hp := Foot.sub (by decide) hp) | apply Only.ite | split
    | (intro) | extract_lets

theorem execProbeTimeout_only {ps : Nat} {s0 : State} (x : Nat) (locus : Nat) {s : State} (hp : Foot 1180591796639301108800 ps) (hk : Only ps s0 s) :
    OnlyO ps s0 (execProbeTimeout x locus s) := by
  unfold execProbeTimeout; with_reducible repeat' first
    | assumption | exact OnlyO.fault _ | exact OnlyO.refused _ | apply OnlyO.next | apply OnlyO.ite
    | apply State.declareLost_only (hp := Foot.sub (by decide) hp) | apply Only.ite | split | (intro) | extract_lets

theorem execSelfLost_only {ps : Nat} {s0 : State} (h : Hdr) (reason : Nat) {s : State} (hp : Foot 1180880027015455048785 ps) (hk : Only ps s0 s) :
    OnlyO ps s0 (execSelfLost h reason s) := by
  unfold execSelfLost; with_reducible repeat' first
    | assumption | exact OnlyO.fault _ | exact OnlyO.refused _ | apply OnlyO.next | apply OnlyO.ite
    | apply State.ctrlIn_only (hp := Foot.sub (by decide) hp) | apply effSelfLost_only (hp := Foot.sub (by decide) hp) | apply Only.ite | split
    | (intro) | extract_lets

theorem execRecoveryNotice_only {ps : Nat} {s0 : State} (h : Hdr) (attempt : Nat) (ready : Nat) {s : State} (hp : Foot 1180879851093592376385 ps) (hk
    : Only ps s0 s) : OnlyO ps s0 (execRecoveryNotice h attempt ready s) := by
  unfold execRecoveryNotice; with_reducible repeat' first
    | assumption | exact OnlyO.fault _ | exact OnlyO.refused _ | apply OnlyO.next | apply OnlyO.ite
    | apply State.ctrlIn_only (hp := Foot.sub (by decide) hp) | apply effRecoveryNotice_only (hp := Foot.sub (by decide) hp) | apply Only.ite
    | split | (intro) | extract_lets

theorem execPacketForward_only {ps : Nat} {s0 : State} (die : Nat) (inPort : Nat) (header : BitVec 512) (now : Nat) {s : State} (hp : Foot
    144115188090670161 ps) (hk : Only ps s0 s) : OnlyO ps s0 (execPacketForward die inPort header now s) := by
  unfold execPacketForward; with_reducible repeat' first
    | assumption | exact OnlyO.fault _ | exact OnlyO.refused _ | apply OnlyO.next | apply OnlyO.ite
    | apply State.advanceTo_only (hp := Foot.sub (by decide) hp) | apply State.bump_only (hp := Foot.sub (by decide) hp)
    | apply State.freeInput_only (hp := Foot.sub (by decide) hp) | apply State.noteStall_only (hp := Foot.sub (by decide) hp)
    | apply State.updOut_only (hp := Foot.sub (by decide) hp) | apply State.updFab_only (hp := Foot.sub (by decide) hp)
    | apply State.grant_only (hp := Foot.sub (by decide) hp) | apply State.drainOut_only (hp := Foot.sub (by decide) hp)
    | apply State.reportLink_only (hp := Foot.sub (by decide) hp) | apply State.updPort_only (hp := Foot.sub (by decide) hp) | apply Only.ite
    | split | (intro) | extract_lets

theorem execCrossingReserve_only {ps : Nat} {s0 : State} (die : Nat) (out : Nat) (vc : Nat) {s : State} (hp : Foot 1024 ps) (hk : Only ps s0 s) :
    OnlyO ps s0 (execCrossingReserve die out vc s) := by
  unfold execCrossingReserve; with_reducible repeat' first
    | assumption | exact OnlyO.fault _ | exact OnlyO.refused _ | apply OnlyO.next | apply OnlyO.ite
    | apply State.updOut_only (hp := Foot.sub (by decide) hp) | apply Only.ite | split | (intro) | extract_lets

theorem execCrossingReserveEnd_only {ps : Nat} {s0 : State} (die : Nat) (out : Nat) (vc : Nat) {s : State} (hp : Foot 12585984 ps) (hk : Only ps s0
    s) : OnlyO ps s0 (execCrossingReserveEnd die out vc s) := by
  unfold execCrossingReserveEnd; with_reducible repeat' first
    | assumption | exact OnlyO.fault _ | exact OnlyO.refused _ | apply OnlyO.next | apply OnlyO.ite
    | apply State.updOut_only (hp := Foot.sub (by decide) hp) | apply State.drainOut_only (hp := Foot.sub (by decide) hp) | apply Only.ite | split
    | (intro) | extract_lets

theorem execRedUp_only {ps : Nat} {s0 : State} (h : Hdr) (r : RedPkt) {s : State} (hp : Foot 2361183241430594748415 ps) (hk : Only ps s0 s) : OnlyO
    ps s0 (execRedUp h r s) := by
  unfold execRedUp; with_reducible repeat' first
    | assumption | exact OnlyO.fault _ | exact OnlyO.refused _ | apply OnlyO.next | apply OnlyO.ite
    | apply State.bump_only (hp := Foot.sub (by decide) hp) | apply State.markLate_only (hp := Foot.sub (by decide) hp)
    | apply State.updFab_only (hp := Foot.sub (by decide) hp) | apply State.redGuard_only (hp := Foot.sub (by decide) hp)
    | apply State.foldBlock_only (hp := Foot.sub (by decide) hp) | apply State.settleSlots_only (hp := Foot.sub (by decide) hp)
    | apply forEach_only | apply State.when_only | apply Only.ite | split | (intro) | extract_lets

theorem execRedDown_only {ps : Nat} {s0 : State} (h : Hdr) (r : RedPkt) {s : State} (hp : Foot 2361183241430594748415 ps) (hk : Only ps s0 s) : OnlyO
    ps s0 (execRedDown h r s) := by
  unfold execRedDown; with_reducible repeat' first
    | assumption | exact OnlyO.fault _ | exact OnlyO.refused _ | apply OnlyO.next | apply OnlyO.ite
    | apply State.bump_only (hp := Foot.sub (by decide) hp) | apply State.markLate_only (hp := Foot.sub (by decide) hp)
    | apply State.takeDown_only (hp := Foot.sub (by decide) hp) | apply State.updFab_only (hp := Foot.sub (by decide) hp)
    | apply State.redGuard_only (hp := Foot.sub (by decide) hp) | apply State.settleSlots_only (hp := Foot.sub (by decide) hp)
    | apply State.when_only | apply Only.ite | split | (intro) | extract_lets

theorem execGeyBind_only {ps : Nat} {s0 : State} (h : Hdr) (jobId : Nat) {s : State} (hp : Foot 590584040734886724673 ps) (hk : Only ps s0 s) : OnlyO
    ps s0 (execGeyBind h jobId s) := by
  unfold execGeyBind; with_reducible repeat' first
    | assumption | exact OnlyO.fault _ | exact OnlyO.refused _ | apply OnlyO.next | apply OnlyO.ite
    | apply State.ctrlIn_only (hp := Foot.sub (by decide) hp) | apply effGeyBind_only (hp := Foot.sub (by decide) hp) | apply Only.ite | split
    | (intro) | extract_lets

theorem execGeyBindReply_only {ps : Nat} {s0 : State} (h : Hdr) (accepted : Bool) (jobId : Nat) {s : State} (hp : Foot 590584040734886724673 ps) (hk
    : Only ps s0 s) : OnlyO ps s0 (execGeyBindReply h accepted jobId s) := by
  unfold execGeyBindReply; with_reducible repeat' first
    | assumption | exact OnlyO.fault _ | exact OnlyO.refused _ | apply OnlyO.next | apply OnlyO.ite
    | apply State.ctrlIn_only (hp := Foot.sub (by decide) hp) | apply effGeyBindReply_only (hp := Foot.sub (by decide) hp) | apply Only.ite | split
    | (intro) | extract_lets

theorem execGeyBindRetry_only {ps : Nat} {s0 : State} (x : Nat) {s : State} (hp : Foot 590295810358714041408 ps) (hk : Only ps s0 s) : OnlyO ps s0
    (execGeyBindRetry x s) := by
  unfold execGeyBindRetry; with_reducible repeat' first
    | assumption | exact OnlyO.fault _ | exact OnlyO.refused _ | apply OnlyO.next | apply OnlyO.ite
    | apply State.bind_only (hp := Foot.sub (by decide) hp) | apply Only.ite | split | (intro) | extract_lets

theorem execGeyBindTimeout_only {ps : Nat} {s0 : State} (x : Nat) {s : State} (hp : Foot 6422544 ps) (hk : Only ps s0 s) : OnlyO ps s0
    (execGeyBindTimeout x s) := by
  unfold execGeyBindTimeout; with_reducible repeat' first
    | assumption | exact OnlyO.fault _ | exact OnlyO.refused _ | apply OnlyO.next | apply OnlyO.ite
    | apply State.setEvt_only (hp := Foot.sub (by decide) hp) | apply Only.ite | split | (intro) | extract_lets

theorem execGeySpareReady_only {ps : Nat} {s0 : State} (h : Hdr) (jobId : Nat) {s : State} (hp : Foot 1180879851093592376385 ps) (hk : Only ps s0 s)
    : OnlyO ps s0 (execGeySpareReady h jobId s) := by
  unfold execGeySpareReady; with_reducible repeat' first
    | assumption | exact OnlyO.fault _ | exact OnlyO.refused _ | apply OnlyO.next | apply OnlyO.ite
    | apply State.ctrlIn_only (hp := Foot.sub (by decide) hp) | apply effGeySpareReady_only (hp := Foot.sub (by decide) hp) | apply Only.ite
    | split | (intro) | extract_lets

theorem execGeyTake_only {ps : Nat} {s0 : State} (h : Hdr) (lost : Nat) (spare : Nat) (epoch : Nat) {s : State} (hp : Foot 1771175687840578143297 ps)
    (hk : Only ps s0 s) : OnlyO ps s0 (execGeyTake h lost spare epoch s) := by
  unfold execGeyTake; with_reducible repeat' first
    | assumption | exact OnlyO.fault _ | exact OnlyO.refused _ | apply OnlyO.next | apply OnlyO.ite
    | apply State.ctrlIn_only (hp := Foot.sub (by decide) hp) | apply effGeyTake_only (hp := Foot.sub (by decide) hp) | apply Only.ite | split
    | (intro) | extract_lets

theorem execTakeCopyComplete_only {ps : Nat} {s0 : State} (x : Nat) {s : State} (hp : Foot 594907496377147852112 ps) (hk : Only ps s0 s) : OnlyO ps
    s0 (execTakeCopyComplete x s) := by
  unfold execTakeCopyComplete; with_reducible repeat' first
    | assumption | exact OnlyO.fault _ | exact OnlyO.refused _ | apply OnlyO.next | apply OnlyO.ite
    | apply State.sendCtrl_only (hp := Foot.sub (by decide) hp) | apply State.bump_only (hp := Foot.sub (by decide) hp)
    | apply State.reloadImages_only (hp := Foot.sub (by decide) hp)
    | refine State.updCtx_only (a := 594907496377133039616) (Foot.sub (by decide) hp) (by with_unfolding_all (intro c q hq; cases q <;> first
    | (cases hq; done) | rfl)) ?_ | apply State.setEvt_only (hp := Foot.sub (by decide) hp) | apply Only.ite | split | (intro) | extract_lets

theorem execGeyTakeDone_only {ps : Nat} {s0 : State} (h : Hdr) (stateSum : Nat) {s : State} (hp : Foot 1180879851093592376385 ps) (hk : Only ps s0 s)
    : OnlyO ps s0 (execGeyTakeDone h stateSum s) := by
  unfold execGeyTakeDone; with_reducible repeat' first
    | assumption | exact OnlyO.fault _ | exact OnlyO.refused _ | apply OnlyO.next | apply OnlyO.ite
    | apply State.ctrlIn_only (hp := Foot.sub (by decide) hp) | apply effGeyTakeDone_only (hp := Foot.sub (by decide) hp) | apply Only.ite | split
    | (intro) | extract_lets

theorem execGeyReseed_only {ps : Nat} {s0 : State} (h : Hdr) (mask : Nat) {s : State} (hp : Foot 590584040734886724673 ps) (hk : Only ps s0 s) :
    OnlyO ps s0 (execGeyReseed h mask s) := by
  unfold execGeyReseed; with_reducible repeat' first
    | assumption | exact OnlyO.fault _ | exact OnlyO.refused _ | apply OnlyO.next | apply OnlyO.ite
    | apply State.ctrlIn_only (hp := Foot.sub (by decide) hp) | apply effGeyReseed_only (hp := Foot.sub (by decide) hp) | apply Only.ite | split
    | (intro) | extract_lets

theorem execGeyFetch_only {ps : Nat} {s0 : State} (h : Hdr) (tensorId : Nat) (block : Nat) {s : State} (hp : Foot 288230376181072961 ps) (hk : Only
    ps s0 s) : OnlyO ps s0 (execGeyFetch h tensorId block s) := by
  unfold execGeyFetch; with_reducible repeat' first
    | assumption | exact OnlyO.fault _ | exact OnlyO.refused _ | apply OnlyO.next | apply OnlyO.ite
    | apply State.ctrlIn_only (hp := Foot.sub (by decide) hp) | apply effGeyFetch_only (hp := Foot.sub (by decide) hp) | apply Only.ite | split
    | (intro) | extract_lets

theorem execGeyCkpt_only {ps : Nat} {s0 : State} (h : Hdr) (epoch : Nat) {s : State} (hp : Foot 2361183241430594748415 ps) (hk : Only ps s0 s) :
    OnlyO ps s0 (execGeyCkpt h epoch s) := by
  unfold execGeyCkpt; with_reducible repeat' first
    | assumption | exact OnlyO.fault _ | exact OnlyO.refused _ | apply OnlyO.next | apply OnlyO.ite
    | apply State.ctrlIn_only (hp := Foot.sub (by decide) hp) | apply effGeyCkpt_only (hp := Foot.sub (by decide) hp) | apply Only.ite | split
    | (intro) | extract_lets

theorem execGeyCkptDone_only {ps : Nat} {s0 : State} (h : Hdr) (status : Nat) {s : State} (hp : Foot 1180879851093592376385 ps) (hk : Only ps s0 s) :
    OnlyO ps s0 (execGeyCkptDone h status s) := by
  unfold execGeyCkptDone; with_reducible repeat' first
    | assumption | exact OnlyO.fault _ | exact OnlyO.refused _ | apply OnlyO.next | apply OnlyO.ite
    | apply State.ctrlIn_only (hp := Foot.sub (by decide) hp) | apply effGeyCkptDone_only (hp := Foot.sub (by decide) hp) | apply Only.ite | split
    | (intro) | extract_lets

theorem execCkptTimeout_only {ps : Nat} {s0 : State} (x : Nat) {s : State} (hp : Foot 590295810358720496720 ps) (hk : Only ps s0 s) : OnlyO ps s0
    (execCkptTimeout x s) := by
  unfold execCkptTimeout; with_reducible repeat' first
    | assumption | exact OnlyO.fault _ | exact OnlyO.refused _ | apply OnlyO.next | apply OnlyO.ite
    | apply State.ckptEnd_only (hp := Foot.sub (by decide) hp) | apply Only.ite | split | (intro) | extract_lets

theorem execGeyRestore_only {ps : Nat} {s0 : State} (h : Hdr) (jobId : Nat) (epoch : Nat) {s : State} (hp : Foot 2287900694686559536961 ps) (hk :
    Only ps s0 s) : OnlyO ps s0 (execGeyRestore h jobId epoch s) := by
  unfold execGeyRestore; with_reducible repeat' first
    | assumption | exact OnlyO.fault _ | exact OnlyO.refused _ | apply OnlyO.next | apply OnlyO.ite
    | apply State.ctrlIn_only (hp := Foot.sub (by decide) hp) | apply effGeyRestore_only (hp := Foot.sub (by decide) hp) | apply Only.ite | split
    | (intro) | extract_lets

theorem execRestoreComplete_only {ps : Nat} {s0 : State} (x : Nat) {s : State} (hp : Foot 595202763627731912128 ps) (hk : Only ps s0 s) : OnlyO ps s0
    (execRestoreComplete x s) := by
  unfold execRestoreComplete; with_reducible repeat' first
    | assumption | exact OnlyO.fault _ | exact OnlyO.refused _ | apply OnlyO.next | apply OnlyO.ite
    | apply State.seed_only (hp := Foot.sub (by decide) hp) | apply State.restoreEnd_only (hp := Foot.sub (by decide) hp)
    | apply State.placeBlock_only (hp := Foot.sub (by decide) hp) | apply State.reloadImages_only (hp := Foot.sub (by decide) hp)
    | apply forEach_only
    | refine State.updCtx_only (a := 4618722892845154304) (Foot.sub (by decide) hp) (by with_unfolding_all (intro c q hq; cases q <;> first
    | (cases hq; done) | rfl)) ?_ | apply Only.ite | split | (intro) | extract_lets

theorem execGeyRestored_only {ps : Nat} {s0 : State} (h : Hdr) (status : Nat) (stateSum : Nat) {s : State} (hp : Foot 1180880027015455048785 ps) (hk
    : Only ps s0 s) : OnlyO ps s0 (execGeyRestored h status stateSum s) := by
  unfold execGeyRestored; with_reducible repeat' first
    | assumption | exact OnlyO.fault _ | exact OnlyO.refused _ | apply OnlyO.next | apply OnlyO.ite
    | apply effGeyRestored_only (hp := Foot.sub (by decide) hp) | apply State.ctrlIn_only (hp := Foot.sub (by decide) hp) | apply Only.ite | split
    | (intro) | extract_lets

theorem execOpenReply_only {ps : Nat} {s0 : State} (m : ShardMsg) {s : State} (hp : Foot 590295810358718267456 ps) (hk : Only ps s0 s) : OnlyO ps s0
    (execOpenReply m s) := by
  unfold execOpenReply; with_reducible repeat' first
    | assumption | exact OnlyO.fault _ | exact OnlyO.refused _ | apply OnlyO.next | apply OnlyO.ite
    | apply State.pump_only (hp := Foot.sub (by decide) hp) | apply State.moveXfer_only (hp := Foot.sub (by decide) hp)
    | apply State.updXfer_only (hp := Foot.sub (by decide) hp) | apply State.onXfer_only | apply Only.ite | split | (intro) | extract_lets

theorem execBusyRetryDelayExpiry_only {ps : Nat} {s0 : State} (handle : Nat) {s : State} (hp : Foot 8421376 ps) (hk : Only ps s0 s) : OnlyO ps s0
    (execBusyRetryDelayExpiry handle s) := by
  unfold execBusyRetryDelayExpiry; with_reducible repeat' first
    | assumption | exact OnlyO.fault _ | exact OnlyO.refused _ | apply OnlyO.next | apply OnlyO.ite
    | apply State.shardOpen_only (hp := Foot.sub (by decide) hp) | apply State.updXfer_only (hp := Foot.sub (by decide) hp) | apply Only.ite
    | split | (intro) | extract_lets

theorem execDack_only {ps : Nat} {s0 : State} (m : ShardMsg) {s : State} (hp : Foot 12615680 ps) (hk : Only ps s0 s) : OnlyO ps s0 (execDack m s) :=
    by
  unfold execDack; with_reducible repeat' first
    | assumption | exact OnlyO.fault _ | exact OnlyO.refused _ | apply OnlyO.next | apply OnlyO.ite
    | apply State.pump_only (hp := Foot.sub (by decide) hp) | apply State.shardSend_only (hp := Foot.sub (by decide) hp)
    | apply State.updXfer_only (hp := Foot.sub (by decide) hp) | apply State.onXfer_only | apply Only.ite | split | (intro) | extract_lets

theorem execCloseReply_only {ps : Nat} {s0 : State} (m : ShardMsg) {s : State} (hp : Foot 2361183241430594748415 ps) (hk : Only ps s0 s) : OnlyO ps
    s0 (execCloseReply m s) := by
  unfold execCloseReply; with_reducible repeat' first
    | assumption | exact OnlyO.fault _ | exact OnlyO.refused _ | apply OnlyO.next | apply OnlyO.ite
    | apply State.startXfer_only (hp := Foot.sub (by decide) hp) | apply State.endXfer_only (hp := Foot.sub (by decide) hp)
    | apply State.onXfer_only | apply State.storedXfer_only (hp := Foot.sub (by decide) hp) | apply Only.ite | split | (intro) | extract_lets

theorem execFetchReply_only {ps : Nat} {s0 : State} (m : ShardMsg) {s : State} (hp : Foot 590295810358714074176 ps) (hk : Only ps s0 s) : OnlyO ps s0
    (execFetchReply m s) := by
  unfold execFetchReply; with_reducible repeat' first
    | assumption | exact OnlyO.fault _ | exact OnlyO.refused _ | apply OnlyO.next | apply OnlyO.ite
    | apply State.updXfer_only (hp := Foot.sub (by decide) hp) | apply State.nextSource_only (hp := Foot.sub (by decide) hp)
    | apply State.onXfer_only | apply Only.ite | split | (intro) | extract_lets

theorem execShardData_only {ps : Nat} {s0 : State} (m : ShardMsg) {s : State} (hp : Foot 2361183241430594748415 ps) (hk : Only ps s0 s) : OnlyO ps s0
    (execShardData m s) := by
  unfold execShardData; with_reducible repeat' first
    | assumption | exact OnlyO.fault _ | exact OnlyO.refused _ | apply OnlyO.next | apply OnlyO.ite
    | apply State.objectRead_only (hp := Foot.sub (by decide) hp) | apply State.shardSend_only (hp := Foot.sub (by decide) hp)
    | apply State.updXfer_only (hp := Foot.sub (by decide) hp) | apply State.nextSource_only (hp := Foot.sub (by decide) hp)
    | apply State.onXfer_only | apply Only.ite | split | (intro) | extract_lets

theorem execDackTimer_only {ps : Nat} {s0 : State} (handle : Nat) {s : State} (hp : Foot 8421376 ps) (hk : Only ps s0 s) : OnlyO ps s0 (execDackTimer
    handle s) := by
  unfold execDackTimer; with_reducible repeat' first
    | assumption | exact OnlyO.fault _ | exact OnlyO.refused _ | apply OnlyO.next | apply OnlyO.ite
    | apply State.shardSend_only (hp := Foot.sub (by decide) hp) | apply State.updXfer_only (hp := Foot.sub (by decide) hp) | apply Only.ite
    | split | (intro) | extract_lets

theorem execShardRto_only {ps : Nat} {s0 : State} (handle : Nat) {s : State} (hp : Foot 590295810358720495696 ps) (hk : Only ps s0 s) : OnlyO ps s0
    (execShardRto handle s) := by
  unfold execShardRto; with_reducible repeat' first
    | assumption | exact OnlyO.fault _ | exact OnlyO.refused _ | apply OnlyO.next | apply OnlyO.ite
    | apply State.bump_only (hp := Foot.sub (by decide) hp) | apply State.resend_only (hp := Foot.sub (by decide) hp)
    | apply State.moveXfer_only (hp := Foot.sub (by decide) hp) | apply State.updGeyser_only (hp := Foot.sub (by decide) hp)
    | apply State.updXfer_only (hp := Foot.sub (by decide) hp) | apply State.setEvt_only (hp := Foot.sub (by decide) hp) | apply Only.ite | split
    | (intro) | extract_lets

theorem execGwDownExpiry_only {ps : Nat} {s0 : State} (g : Nat) {s : State} (hp : Foot 2361183241430594748415 ps) (hk : Only ps s0 s) : OnlyO ps s0
    (execGwDownExpiry g s) := by
  unfold execGwDownExpiry; with_reducible repeat' first
    | assumption | exact OnlyO.fault _ | exact OnlyO.refused _ | apply OnlyO.next | apply OnlyO.ite
    | apply State.moveXfer_only (hp := Foot.sub (by decide) hp) | apply State.updGeyser_only (hp := Foot.sub (by decide) hp)
    | apply State.feedCkpt_only (hp := Foot.sub (by decide) hp) | apply forEach_only | apply Only.ite | split | (intro) | extract_lets

theorem execDataPacket_only {ps : Nat} {s0 : State} (h : Hdr) (d : DataPart) (rd : ReadOutcome) {s : State} (hp : Foot 738302108512675846097 ps) (hk
    : Only ps s0 s) : OnlyO ps s0 (execDataPacket h d rd s) := by
  unfold execDataPacket; with_reducible repeat' first
    | assumption | exact OnlyO.fault _ | exact OnlyO.refused _ | apply OnlyO.next | apply OnlyO.ite
    | apply State.advanceTo_only (hp := Foot.sub (by decide) hp) | apply State.assemble_only (hp := Foot.sub (by decide) hp)
    | apply State.domainDrop_only (hp := Foot.sub (by decide) hp) | apply State.writeBlock_only (hp := Foot.sub (by decide) hp)
    | apply State.bump_only (hp := Foot.sub (by decide) hp) | apply State.marked_only (hp := Foot.sub (by decide) hp)
    | apply State.markLate_only (hp := Foot.sub (by decide) hp) | apply State.reportBlock_only (hp := Foot.sub (by decide) hp)
    | apply State.bulkIn_only (hp := Foot.sub (by decide) hp) | apply State.ackData_only (hp := Foot.sub (by decide) hp)
    | apply State.notReadyTo_only (hp := Foot.sub (by decide) hp) | apply State.when_only
    | apply State.restoreFailed_only (hp := Foot.sub (by decide) hp) | apply State.transportUnit_only (hp := Foot.sub (by decide) hp)
    | apply Only.ite | split | (intro) | extract_lets

theorem execRouteBreak_only {ps : Nat} {s0 : State} (h : Hdr) (dim : Nat) (after : Nat) (isBreak : Bool) (effective : Nat) {s : State} (hp : Foot
    288230376181072961 ps) (hk : Only ps s0 s) : OnlyO ps s0 (execRouteBreak h dim after isBreak effective s) := by
  unfold execRouteBreak; with_reducible repeat' first
    | assumption | exact OnlyO.fault _ | exact OnlyO.refused _ | apply OnlyO.next | apply OnlyO.ite
    | apply State.ctrlIn_only (hp := Foot.sub (by decide) hp) | apply effRouteBreak_only (hp := Foot.sub (by decide) hp) | apply Only.ite | split
    | (intro) | extract_lets

theorem execRouteBreakEffective_only {ps : Nat} {s0 : State} (dim : Nat) {s : State} (hp : Foot 1180735911827379194960 ps) (hk : Only ps s0 s) :
    OnlyO ps s0 (execRouteBreakEffective dim s) := by
  unfold execRouteBreakEffective; with_reducible repeat' first
    | assumption | exact OnlyO.fault _ | exact OnlyO.refused _ | apply OnlyO.next | apply OnlyO.ite
    | apply State.drainAll_only (hp := Foot.sub (by decide) hp) | apply State.updFab_only (hp := Foot.sub (by decide) hp)
    | apply State.declareLost_only (hp := Foot.sub (by decide) hp) | apply forEach_only
    | apply State.reportLink_only (hp := Foot.sub (by decide) hp) | apply State.setEvt_only (hp := Foot.sub (by decide) hp) | apply Only.ite
    | split | (intro) | extract_lets

theorem execCalHalfFault_only {ps : Nat} {s0 : State} (half : Nat) (_cause : Nat) {s : State} (hp : Foot 8204 ps) (hk : Only ps s0 s) : OnlyO ps s0
    (execCalHalfFault half _cause s) := by
  unfold execCalHalfFault; with_reducible repeat' first
    | assumption | exact OnlyO.fault _ | exact OnlyO.refused _ | apply OnlyO.next | apply OnlyO.ite
    | apply State.calRelease_only (hp := Foot.sub (by decide) hp) | apply Only.ite | split | (intro) | extract_lets

theorem execSelfTest_only {ps : Nat} {s0 : State} (passA : Bool) (passB : Bool) {s : State} (hp : Foot 8204 ps) (hk : Only ps s0 s) : OnlyO ps s0
    (execSelfTest passA passB s) := by
  unfold execSelfTest; with_reducible repeat' first
    | assumption | exact OnlyO.fault _ | exact OnlyO.refused _ | apply OnlyO.next | apply OnlyO.ite
    | apply State.updCal_only (hp := Foot.sub (by decide) hp) | apply State.calRelease_only (hp := Foot.sub (by decide) hp) | apply Only.ite
    | split | (intro) | extract_lets

theorem execCalOwnAcquire_only {ps : Nat} {s0 : State} (half : Nat) {s : State} (hp : Foot 14884880 ps) (hk : Only ps s0 s) : OnlyO ps s0
    (execCalOwnAcquire half s) := by
  unfold execCalOwnAcquire; with_reducible repeat' first
    | assumption | exact OnlyO.fault _ | exact OnlyO.refused _ | apply OnlyO.next | apply OnlyO.ite
    | apply State.bump_only (hp := Foot.sub (by decide) hp) | apply State.flushVent_only (hp := Foot.sub (by decide) hp)
    | apply State.updCal_only (hp := Foot.sub (by decide) hp) | apply State.when_only | apply State.setEvt_only (hp := Foot.sub (by decide) hp)
    | apply Only.ite | split | (intro) | extract_lets

theorem execCalOwnTimeout_only {ps : Nat} {s0 : State} {s : State} (hp : Foot 5242880 ps) (hk : Only ps s0 s) : OnlyO ps s0 (execCalOwnTimeout s) :=
    by
  unfold execCalOwnTimeout; with_reducible repeat' first
    | assumption | exact OnlyO.fault _ | exact OnlyO.refused _ | apply OnlyO.next | apply OnlyO.ite
    | apply State.bump_only (hp := Foot.sub (by decide) hp) | apply State.updPins_only (hp := Foot.sub (by decide) hp) | apply Only.ite | split
    | (intro) | extract_lets

theorem execHangWindowExpiry_only {ps : Nat} {s0 : State} (u : HangUnit) {s : State} (hp : Foot 812089084807514128349 ps) (hk : Only ps s0 s) : OnlyO
    ps s0 (execHangWindowExpiry u s) := by
  unfold execHangWindowExpiry; with_reducible repeat' first
    | assumption | exact OnlyO.fault _ | exact OnlyO.refused _ | apply OnlyO.next | apply OnlyO.ite
    | apply State.reportHang_only (hp := Foot.sub (by decide) hp) | apply State.bump_only (hp := Foot.sub (by decide) hp)
    | apply State.hangTransient_only (hp := Foot.sub (by decide) hp) | apply State.updRecov_only (hp := Foot.sub (by decide) hp)
    | apply State.hangSecond_only (hp := Foot.sub (by decide) hp) | apply State.hangFirst_only (hp := Foot.sub (by decide) hp) | apply Only.ite
    | split | (intro) | extract_lets

theorem execActionBoundExpiry_only {ps : Nat} {s0 : State} (u : HangUnit) (level : Nat) {s : State} (hp : Foot 737869762948448278480 ps) (hk : Only
    ps s0 s) : OnlyO ps s0 (execActionBoundExpiry u level s) := by
  unfold execActionBoundExpiry; with_reducible repeat' first
    | assumption | exact OnlyO.fault _ | exact OnlyO.refused _ | apply OnlyO.next | apply OnlyO.ite
    | apply State.recover_only (hp := Foot.sub (by decide) hp) | apply Only.ite | split | (intro) | extract_lets

theorem execPartitionRefillDone_only {ps : Nat} {s0 : State} (p : Nat) {s : State} (hp : Foot 128 ps) (hk : Only ps s0 s) : OnlyO ps s0
    (execPartitionRefillDone p s) := by
  unfold execPartitionRefillDone; with_reducible repeat' first
    | assumption | exact OnlyO.fault _ | exact OnlyO.refused _ | apply OnlyO.next | apply OnlyO.ite
    | refine State.updMem_only (hp := Foot.sub (by decide) hp) (fun _ => rfl) ?_ | apply Only.ite | split | (intro) | extract_lets

theorem execDieLinkFail_only {ps : Nat} {s0 : State} (pos : Nat) {s : State} (hp : Foot 144115188090672208 ps) (hk : Only ps s0 s) : OnlyO ps s0
    (execDieLinkFail pos s) := by
  unfold execDieLinkFail; with_reducible repeat' first
    | assumption | exact OnlyO.fault _ | exact OnlyO.refused _ | apply OnlyO.next | apply OnlyO.ite
    | apply State.updRecov_only (hp := Foot.sub (by decide) hp) | apply State.updFab_only (hp := Foot.sub (by decide) hp)
    | apply State.selfLost_only (hp := Foot.sub (by decide) hp) | apply State.reportLink_only (hp := Foot.sub (by decide) hp) | apply Only.ite
    | split | (intro) | extract_lets

theorem State.onCore_only {ps : Nat} {s0 : State} {s : State} (c : CoreCmd) (f : Ctx → OpDesc → State → State) (hp : Foot 4194304 ps) (hk : Only ps
    s0 s) (hf : ∀ (x0 : Ctx) (x1 : OpDesc) (x2 : State), Only ps s0 x2 → Only ps s0 (f x0 x1 x2)) : OnlyO ps s0 (State.onCore s c f) := by
  unfold State.onCore; with_reducible repeat' first
    | assumption | exact OnlyO.fault _ | exact OnlyO.refused _ | apply OnlyO.next | apply OnlyO.ite
    | apply State.bump_only (hp := Foot.sub (by decide) hp) | apply hf | apply Only.ite | split | (intro) | extract_lets

theorem execAnch_only {ps : Nat} {s0 : State} (c : CoreCmd) (share : AnchShare) {s : State} (hp : Foot 73786976294842400832 ps) (hk : Only ps s0 s) :
    OnlyO ps s0 (execAnch c share s) := by
  unfold execAnch; with_reducible repeat' first
    | assumption | exact OnlyO.fault _ | exact OnlyO.refused _ | apply OnlyO.next | apply OnlyO.ite
    | apply State.updExec_only (hp := Foot.sub (by decide) hp) | apply forEach_only | apply State.onCore_only (hp := Foot.sub (by decide) hp)
    | apply Only.ite | split | (intro) | extract_lets

theorem execMma_only {ps : Nat} {s0 : State} (c : CoreCmd) (tile : Tile) {s : State} (hp : Foot 73931091482928879056 ps) (hk : Only ps s0 s) : OnlyO
    ps s0 (execMma c tile s) := by
  unfold execMma; with_reducible repeat' first
    | assumption | exact OnlyO.fault _ | exact OnlyO.refused _ | apply OnlyO.next | apply OnlyO.ite
    | apply State.bump_only (hp := Foot.sub (by decide) hp) | apply State.anchorFault_only (hp := Foot.sub (by decide) hp)
    | apply State.combine_only (hp := Foot.sub (by decide) hp) | apply State.writeNear_only (hp := Foot.sub (by decide) hp)
    | apply State.updExec_only (hp := Foot.sub (by decide) hp) | apply forEach_only | apply State.checkFault_only (hp := Foot.sub (by decide) hp)
    | apply State.addrErr_only (hp := Foot.sub (by decide) hp) | apply State.addStatus_only (hp := Foot.sub (by decide) hp)
    | apply State.onCore_only (hp := Foot.sub (by decide) hp) | apply Only.ite | split | (intro) | extract_lets

theorem execSend_only {ps : Nat} {s0 : State} (c : CoreCmd) (dest : SendTo) {s : State} (hp : Foot 2361183241430594748415 ps) (hk : Only ps s0 s) :
    OnlyO ps s0 (execSend c dest s) := by
  unfold execSend; with_reducible repeat' first
    | assumption | exact OnlyO.fault _ | exact OnlyO.refused _ | apply OnlyO.next | apply OnlyO.ite
    | apply State.adderRow_only (hp := Foot.sub (by decide) hp) | apply State.squareViolation_only (hp := Foot.sub (by decide) hp)
    | apply State.updExec_only (hp := Foot.sub (by decide) hp) | apply forEach_only | apply State.contribute_only (hp := Foot.sub (by decide) hp)
    | apply State.onCore_only (hp := Foot.sub (by decide) hp) | apply Only.ite | apply foldl_onlyS | apply foldl_only1 | apply foldl_only2 | split
    | (intro) | extract_lets

theorem execEvrRecordClose_only {ps : Nat} {s0 : State} (seq : Nat) {s : State} (hp : Foot 131072 ps) (hk : Only ps s0 s) : OnlyO ps s0
    (execEvrRecordClose seq s) := by
  unfold execEvrRecordClose; with_reducible repeat' first
    | assumption | exact OnlyO.fault _ | exact OnlyO.refused _ | apply OnlyO.next | apply OnlyO.ite
    | apply State.updEvr_only (hp := Foot.sub (by decide) hp) | apply Only.ite | split | (intro) | extract_lets

theorem execEvrInfo_only {ps : Nat} {s0 : State} (r : Req) {s : State} (hp : Foot 25296896 ps) (hk : Only ps s0 s) : OnlyO ps s0 (execEvrInfo r s) :=
    by
  unfold execEvrInfo; with_reducible repeat' first
    | assumption | exact OnlyO.fault _ | exact OnlyO.refused _ | apply OnlyO.next | apply OnlyO.ite
    | apply State.vendor_only (hp := Foot.sub (by decide) hp) | apply State.vendorGate_only (hp := Foot.sub (by decide) hp)
    | apply State.updEvr_only (hp := Foot.sub (by decide) hp) | apply Only.ite | split | (intro) | extract_lets

theorem execEvrFreeze_only {ps : Nat} {s0 : State} (r : Req) {s : State} (hp : Foot 25296896 ps) (hk : Only ps s0 s) : OnlyO ps s0 (execEvrFreeze r
    s) := by
  unfold execEvrFreeze; with_reducible repeat' first
    | assumption | exact OnlyO.fault _ | exact OnlyO.refused _ | apply OnlyO.next | apply OnlyO.ite
    | apply State.vendor_only (hp := Foot.sub (by decide) hp) | apply State.vendorGate_only (hp := Foot.sub (by decide) hp)
    | apply State.updEvr_only (hp := Foot.sub (by decide) hp) | apply Only.ite | split | (intro) | extract_lets

theorem execEvrRead_only {ps : Nat} {s0 : State} (r : Req) (fromSeq : Nat) (maxCount : Nat) (minSev : Nat) {s : State} (hp : Foot 25165824 ps) (hk :
    Only ps s0 s) : OnlyO ps s0 (execEvrRead r fromSeq maxCount minSev s) := by
  unfold execEvrRead; with_reducible repeat' first
    | assumption | exact OnlyO.fault _ | exact OnlyO.refused _ | apply OnlyO.next | apply OnlyO.ite
    | apply State.vendor_only (hp := Foot.sub (by decide) hp) | apply State.vendorGate_only (hp := Foot.sub (by decide) hp) | apply Only.ite
    | split | (intro) | extract_lets

theorem execEvrRelease_only {ps : Nat} {s0 : State} (r : Req) {s : State} (hp : Foot 31588368 ps) (hk : Only ps s0 s) : OnlyO ps s0 (execEvrRelease r
    s) := by
  unfold execEvrRelease; with_reducible repeat' first
    | assumption | exact OnlyO.fault _ | exact OnlyO.refused _ | apply OnlyO.next | apply OnlyO.ite
    | apply State.vendor_only (hp := Foot.sub (by decide) hp) | apply State.vendorGate_only (hp := Foot.sub (by decide) hp) | apply State.when_only
    | apply State.endFreeze_only (hp := Foot.sub (by decide) hp) | apply Only.ite | split | (intro) | extract_lets

theorem execEvrClear_only {ps : Nat} {s0 : State} (r : Req) (uptoSeq : Nat) (maxSev : Nat) {s : State} (hp : Foot 31588368 ps) (hk : Only ps s0 s) :
    OnlyO ps s0 (execEvrClear r uptoSeq maxSev s) := by
  unfold execEvrClear; with_reducible repeat' first
    | assumption | exact OnlyO.fault _ | exact OnlyO.refused _ | apply OnlyO.next | apply OnlyO.ite
    | apply State.bump_only (hp := Foot.sub (by decide) hp) | apply State.vendor_only (hp := Foot.sub (by decide) hp)
    | apply State.withLog_only (hp := Foot.sub (by decide) hp) | apply State.vendorGate_only (hp := Foot.sub (by decide) hp)
    | apply State.updEvr_only (hp := Foot.sub (by decide) hp) | apply State.record_only (hp := Foot.sub (by decide) hp) | apply State.when_only
    | apply State.endFreeze_only (hp := Foot.sub (by decide) hp) | apply Only.ite | split | (intro) | extract_lets

theorem execEvrFreezeTimeout_only {ps : Nat} {s0 : State} {s : State} (hp : Foot 6422544 ps) (hk : Only ps s0 s) : OnlyO ps s0 (execEvrFreezeTimeout
    s) := by
  unfold execEvrFreezeTimeout; with_reducible repeat' first
    | assumption | exact OnlyO.fault _ | exact OnlyO.refused _ | apply OnlyO.next | apply OnlyO.ite
    | apply State.record_only (hp := Foot.sub (by decide) hp) | apply State.endFreeze_only (hp := Foot.sub (by decide) hp) | apply Only.ite | split
    | (intro) | extract_lets

theorem execRailPowerGood_only {ps : Nat} {s0 : State} (group : Nat) {s : State} (hp : Foot 18087936 ps) (hk : Only ps s0 s) : OnlyO ps s0
    (execRailPowerGood group s) := by
  unfold execRailPowerGood; with_reducible repeat' first
    | assumption | exact OnlyO.fault _ | exact OnlyO.refused _ | apply OnlyO.next | apply OnlyO.ite
    | apply State.enableGroup_only (hp := Foot.sub (by decide) hp) | apply State.updStage_only (hp := Foot.sub (by decide) hp) | apply forEach_only
    | apply Only.ite | split | (intro) | extract_lets

theorem execLedgerUpdate_only {ps : Nat} {s0 : State} (stage : Nat) (mv : Nat) (ma : Nat) {s : State} (hp : Foot 262144 ps) (hk : Only ps s0 s) :
    OnlyO ps s0 (execLedgerUpdate stage mv ma s) := by
  unfold execLedgerUpdate; with_reducible repeat' first
    | assumption | exact OnlyO.fault _ | exact OnlyO.refused _ | apply OnlyO.next | apply OnlyO.ite
    | apply State.updStage_only (hp := Foot.sub (by decide) hp) | apply Only.ite | split | (intro) | extract_lets

theorem execPwrGrant_only {ps : Nat} {s0 : State} (r : Req) (x : Nat) (g : Nat) (eff : Nat) {s : State} (hp : Foot 31850512 ps) (hk : Only ps s0 s) :
    OnlyO ps s0 (execPwrGrant r x g eff s) := by
  unfold execPwrGrant; with_reducible repeat' first
    | assumption | exact OnlyO.fault _ | exact OnlyO.refused _ | apply OnlyO.next | apply OnlyO.ite
    | apply State.bump_only (hp := Foot.sub (by decide) hp) | apply State.vendor_only (hp := Foot.sub (by decide) hp)
    | apply State.vendorGate_only (hp := Foot.sub (by decide) hp) | apply State.record_only (hp := Foot.sub (by decide) hp)
    | apply State.updPwrCtx_only (hp := Foot.sub (by decide) hp) | apply State.setEvt_only (hp := Foot.sub (by decide) hp) | apply Only.ite | split
    | (intro) | extract_lets

theorem execPwrCeiling_only {ps : Nat} {s0 : State} (r : Req) (watts : Nat) {s : State} (hp : Foot 288230376183562320 ps) (hk : Only ps s0 s) : OnlyO
    ps s0 (execPwrCeiling r watts s) := by
  unfold execPwrCeiling; with_reducible repeat' first
    | assumption | exact OnlyO.fault _ | exact OnlyO.refused _ | apply OnlyO.next | apply OnlyO.ite
    | apply State.vendor_only (hp := Foot.sub (by decide) hp) | apply State.vendorGate_only (hp := Foot.sub (by decide) hp)
    | apply State.record_only (hp := Foot.sub (by decide) hp) | apply State.updPwr_only (hp := Foot.sub (by decide) hp)
    | apply State.keepCeiling_only (hp := Foot.sub (by decide) hp) | apply Only.ite | split | (intro) | extract_lets

theorem execPwrDemand_only {ps : Nat} {s0 : State} (r : Req) (x : Nat) {s : State} (hp : Foot 25165824 ps) (hk : Only ps s0 s) : OnlyO ps s0
    (execPwrDemand r x s) := by
  unfold execPwrDemand; with_reducible repeat' first
    | assumption | exact OnlyO.fault _ | exact OnlyO.refused _ | apply OnlyO.next | apply OnlyO.ite
    | apply State.vendor_only (hp := Foot.sub (by decide) hp) | apply State.vendorGate_only (hp := Foot.sub (by decide) hp) | apply Only.ite
    | split | (intro) | extract_lets

theorem execVcoreUndervoltage_only {ps : Nat} {s0 : State} (part : Nat) {s : State} (hp : Foot 288230376158396496 ps) (hk : Only ps s0 s) : OnlyO ps
    s0 (execVcoreUndervoltage part s) := by
  unfold execVcoreUndervoltage; with_reducible repeat' first
    | assumption | exact OnlyO.fault _ | exact OnlyO.refused _ | apply OnlyO.next | apply OnlyO.ite
    | apply State.limitActs_only (hp := Foot.sub (by decide) hp) | apply State.setEvt_only (hp := Foot.sub (by decide) hp) | apply Only.ite | split
    | (intro) | extract_lets

theorem execFrequencyMargin_only {ps : Nat} {s0 : State} (part : Nat) (reading : Nat) {s : State} (hp : Foot 288230376158396496 ps) (hk : Only ps s0
    s) : OnlyO ps s0 (execFrequencyMargin part reading s) := by
  unfold execFrequencyMargin; with_reducible repeat' first
    | assumption | exact OnlyO.fault _ | exact OnlyO.refused _ | apply OnlyO.next | apply OnlyO.ite
    | apply State.record_only (hp := Foot.sub (by decide) hp) | apply State.limitActs_only (hp := Foot.sub (by decide) hp) | apply Only.ite | split
    | (intro) | extract_lets

theorem execTjThrottle_only {ps : Nat} {s0 : State} (part : Nat) (temp : Nat) {s : State} (hp : Foot 288230376158396496 ps) (hk : Only ps s0 s) :
    OnlyO ps s0 (execTjThrottle part temp s) := by
  unfold execTjThrottle; with_reducible repeat' first
    | assumption | exact OnlyO.fault _ | exact OnlyO.refused _ | apply OnlyO.next | apply OnlyO.ite
    | apply State.record_only (hp := Foot.sub (by decide) hp) | apply State.limitActs_only (hp := Foot.sub (by decide) hp)
    | apply State.setEvt_only (hp := Foot.sub (by decide) hp) | apply Only.ite | split | (intro) | extract_lets

theorem execTjTrip_only {ps : Nat} {s0 : State} (part : Nat) (temp : Nat) {s : State} (hp : Foot 288230376158396496 ps) (hk : Only ps s0 s) : OnlyO
    ps s0 (execTjTrip part temp s) := by
  unfold execTjTrip; with_reducible repeat' first
    | assumption | exact OnlyO.fault _ | exact OnlyO.refused _ | apply OnlyO.next | apply OnlyO.ite
    | apply State.bump_only (hp := Foot.sub (by decide) hp) | apply State.setDomains_only (hp := Foot.sub (by decide) hp)
    | apply State.updEvr_only (hp := Foot.sub (by decide) hp) | apply State.record_only (hp := Foot.sub (by decide) hp)
    | apply State.limitActs_only (hp := Foot.sub (by decide) hp) | apply State.setEvt_only (hp := Foot.sub (by decide) hp) | apply Only.ite | split
    | (intro) | extract_lets

theorem execRailOvervoltage_only {ps : Nat} {s0 : State} (stage : Nat) (mv : Nat) {s : State} (hp : Foot 288230376158404688 ps) (hk : Only ps s0 s) :
    OnlyO ps s0 (execRailOvervoltage stage mv s) := by
  unfold execRailOvervoltage; with_reducible repeat' first
    | assumption | exact OnlyO.fault _ | exact OnlyO.refused _ | apply OnlyO.next | apply OnlyO.ite
    | apply State.bump_only (hp := Foot.sub (by decide) hp) | apply State.record_only (hp := Foot.sub (by decide) hp)
    | apply State.limitActs_only (hp := Foot.sub (by decide) hp) | apply State.setEvt_only (hp := Foot.sub (by decide) hp)
    | apply State.stageOff_only (hp := Foot.sub (by decide) hp) | apply Only.ite | split | (intro) | extract_lets

theorem execInputPowerLimit_only {ps : Nat} {s0 : State} (watts : Nat) {s : State} (hp : Foot 288230376158396496 ps) (hk : Only ps s0 s) : OnlyO ps
    s0 (execInputPowerLimit watts s) := by
  unfold execInputPowerLimit; with_reducible repeat' first
    | assumption | exact OnlyO.fault _ | exact OnlyO.refused _ | apply OnlyO.next | apply OnlyO.ite
    | apply State.record_only (hp := Foot.sub (by decide) hp) | apply State.limitActs_only (hp := Foot.sub (by decide) hp)
    | apply State.setEvt_only (hp := Foot.sub (by decide) hp) | apply Only.ite | split | (intro) | extract_lets

theorem execComparatorRelease_only {ps : Nat} {s0 : State} (limit : Nat) (unit : Nat) {s : State} (hp : Foot 737869762948448540624 ps) (hk : Only ps
    s0 s) : OnlyO ps s0 (execComparatorRelease limit unit s) := by
  unfold execComparatorRelease; with_reducible repeat' first
    | assumption | exact OnlyO.fault _ | exact OnlyO.refused _ | apply OnlyO.next | apply OnlyO.ite
    | apply State.restoreDomains_only (hp := Foot.sub (by decide) hp) | apply State.updStage_only (hp := Foot.sub (by decide) hp)
    | apply forEach_only | apply State.updPwr_only (hp := Foot.sub (by decide) hp) | apply State.noteSlow_only (hp := Foot.sub (by decide) hp)
    | apply State.recover_only (hp := Foot.sub (by decide) hp) | apply Only.ite | split | (intro) | extract_lets

theorem execPhaseRetire_only {ps : Nat} {s0 : State} (stage : Nat) (phase : Nat) (reason : Nat) {s : State} (hp : Foot 288230376175181904 ps) (hk :
    Only ps s0 s) : OnlyO ps s0 (execPhaseRetire stage phase reason s) := by
  unfold execPhaseRetire; with_reducible repeat' first
    | assumption | exact OnlyO.fault _ | exact OnlyO.refused _ | apply OnlyO.next | apply OnlyO.ite
    | apply State.bump_only (hp := Foot.sub (by decide) hp) | apply State.fresh_only (hp := Foot.sub (by decide) hp)
    | apply State.record_only (hp := Foot.sub (by decide) hp) | apply State.powerReason_only (hp := Foot.sub (by decide) hp)
    | apply State.updStage_only (hp := Foot.sub (by decide) hp) | apply State.movePoints_only (hp := Foot.sub (by decide) hp) | apply forEach_only
    | apply State.updPwr_only (hp := Foot.sub (by decide) hp) | apply State.setEvt_only (hp := Foot.sub (by decide) hp)
    | apply State.stageOff_only (hp := Foot.sub (by decide) hp) | apply Only.ite | split | (intro) | extract_lets

theorem execPowerOn_only {ps : Nat} {s0 : State} {s : State} (hp : Foot 2361183241430561193983 ps) (hk : Only ps s0 s) : OnlyO ps s0 (execPowerOn s)
    := by
  unfold execPowerOn; with_reducible repeat' first
    | assumption | exact OnlyO.fault _ | exact OnlyO.refused _ | apply OnlyO.next | apply OnlyO.ite
    | apply State.updPins_only (hp := Foot.sub (by decide) hp) | apply State.powerUp_only (hp := Foot.sub (by decide) hp) | apply Only.ite | split
    | (intro) | extract_lets

theorem execSlotSelect_only {ps : Nat} {s0 : State} {s : State} (hp : Foot 24512574 ps) (hk : Only ps s0 s) : OnlyO ps s0 (execSlotSelect s) := by
  unfold execSlotSelect; with_reducible repeat' first
    | assumption | exact OnlyO.fault _ | exact OnlyO.refused _ | apply OnlyO.next | apply OnlyO.ite
    | apply State.imageRejected_only (hp := Foot.sub (by decide) hp) | apply State.updId_only (hp := Foot.sub (by decide) hp)
    | apply State.enterRecovery_only (hp := Foot.sub (by decide) hp)
    | refine State.updFlash_only (hp := Foot.sub (by decide) hp) (fun _ => ⟨rfl, rfl⟩) ?_
    | apply State.startSlot_only (hp := Foot.sub (by decide) hp) | apply Only.ite | split | (intro) | extract_lets

theorem execTriesClear_only {ps : Nat} {s0 : State} {s : State} (hp : Foot 8 ps) (hk : Only ps s0 s) : OnlyO ps s0 (execTriesClear s) := by
  unfold execTriesClear; with_reducible repeat' first
    | assumption | exact OnlyO.fault _ | exact OnlyO.refused _ | apply OnlyO.next | apply OnlyO.ite
    | apply State.updSlot_only (hp := Foot.sub (by decide) hp) | apply Only.ite | split | (intro) | extract_lets

theorem execOpticsRelease_only {ps : Nat} {s0 : State} {s : State} (hp : Foot 18087940 ps) (hk : Only ps s0 s) : OnlyO ps s0 (execOpticsRelease s) :=
    by
  unfold execOpticsRelease; with_reducible repeat' first
    | assumption | exact OnlyO.fault _ | exact OnlyO.refused _ | apply OnlyO.next | apply OnlyO.ite
    | apply State.updId_only (hp := Foot.sub (by decide) hp) | apply State.enableGroup_only (hp := Foot.sub (by decide) hp) | apply Only.ite
    | split | (intro) | extract_lets

theorem execRunEntry_only {ps : Nat} {s0 : State} (failedSlots : List (Nat × Nat)) {s : State} (hp : Foot 15146684 ps) (hk : Only ps s0 s) : OnlyO ps
    s0 (execRunEntry failedSlots s) := by
  unfold execRunEntry; with_reducible repeat' first
    | assumption | exact OnlyO.fault _ | exact OnlyO.refused _ | apply OnlyO.next | apply OnlyO.ite
    | apply State.updSlot_only (hp := Foot.sub (by decide) hp) | apply State.updId_only (hp := Foot.sub (by decide) hp)
    | apply State.enterRecovery_only (hp := Foot.sub (by decide) hp) | apply State.updTel_only (hp := Foot.sub (by decide) hp)
    | apply State.updPwr_only (hp := Foot.sub (by decide) hp) | apply State.updMbx_only (hp := Foot.sub (by decide) hp)
    | apply State.applyFaultMap_only (hp := Foot.sub (by decide) hp) | apply State.emit_only (hp := Foot.sub (by decide) hp) | apply Only.ite
    | split | (intro) | extract_lets

theorem execMbIdentify_only {ps : Nat} {s0 : State} (r : Req) {s : State} (hp : Foot 25165824 ps) (hk : Only ps s0 s) : OnlyO ps s0 (execMbIdentify r
    s) := by
  unfold execMbIdentify; with_reducible repeat' first
    | assumption | exact OnlyO.fault _ | exact OnlyO.refused _ | apply OnlyO.next | apply OnlyO.ite
    | apply State.vendor_only (hp := Foot.sub (by decide) hp) | apply State.vendorGate_only (hp := Foot.sub (by decide) hp) | apply Only.ite
    | split | (intro) | extract_lets

theorem execLocusAssign_only {ps : Nat} {s0 : State} (r : Req) (locus : Nat) {s : State} (hp : Foot 14811156 ps) (hk : Only ps s0 s) : OnlyO ps s0
    (execLocusAssign r locus s) := by
  unfold execLocusAssign; with_reducible repeat' first
    | assumption | exact OnlyO.fault _ | exact OnlyO.refused _ | apply OnlyO.next | apply OnlyO.ite
    | apply State.vendor_only (hp := Foot.sub (by decide) hp) | apply State.updId_only (hp := Foot.sub (by decide) hp)
    | apply State.record_only (hp := Foot.sub (by decide) hp) | apply State.checkAccept_only (hp := Foot.sub (by decide) hp) | apply Only.ite
    | split | (intro) | extract_lets

theorem execIdAccept_only {ps : Nat} {s0 : State} (r : Req) (scope : Nat) (mask : Nat) {s : State} (hp : Foot 31591452 ps) (hk : Only ps s0 s) :
    OnlyO ps s0 (execIdAccept r scope mask s) := by
  unfold execIdAccept; with_reducible repeat' first
    | assumption | exact OnlyO.fault _ | exact OnlyO.refused _ | apply OnlyO.next | apply OnlyO.ite
    | apply State.vendor_only (hp := Foot.sub (by decide) hp) | apply State.updId_only (hp := Foot.sub (by decide) hp)
    | apply State.vendorGate_only (hp := Foot.sub (by decide) hp) | apply State.record_only (hp := Foot.sub (by decide) hp)
    | apply State.acceptLocus_only (hp := Foot.sub (by decide) hp) | apply State.acceptPort_only (hp := Foot.sub (by decide) hp)
    | apply State.evaluateAgain_only (hp := Foot.sub (by decide) hp) | apply forEach_only | apply State.setEvt_only (hp := Foot.sub (by decide) hp)
    | apply Only.ite | split | (intro) | extract_lets

theorem execIdStatus_only {ps : Nat} {s0 : State} (r : Req) {s : State} (hp : Foot 25165824 ps) (hk : Only ps s0 s) : OnlyO ps s0 (execIdStatus r s)
    := by
  unfold execIdStatus; with_reducible repeat' first
    | assumption | exact OnlyO.fault _ | exact OnlyO.refused _ | apply OnlyO.next | apply OnlyO.ite
    | apply State.vendor_only (hp := Foot.sub (by decide) hp) | apply State.vendorGate_only (hp := Foot.sub (by decide) hp) | apply Only.ite
    | split | (intro) | extract_lets

theorem execImgBegin_only {ps : Nat} {s0 : State} (r : Req) (length : Nat) {s : State} (hp : Foot 25165836 ps) (hk : Only ps s0 s) : OnlyO ps s0
    (execImgBegin r length s) := by
  unfold execImgBegin; with_reducible repeat' first
    | assumption | exact OnlyO.fault _ | exact OnlyO.refused _ | apply OnlyO.next | apply OnlyO.ite
    | apply State.vendor_only (hp := Foot.sub (by decide) hp) | apply State.updSlot_only (hp := Foot.sub (by decide) hp)
    | apply State.updId_only (hp := Foot.sub (by decide) hp) | apply State.vendorGate_only (hp := Foot.sub (by decide) hp) | apply Only.ite | split
    | (intro) | extract_lets

theorem execImgWrite_only {ps : Nat} {s0 : State} (r : Req) (offset : Nat) (bytes : List Byte) {s : State} (hp : Foot 25165828 ps) (hk : Only ps s0
    s) : OnlyO ps s0 (execImgWrite r offset bytes s) := by
  unfold execImgWrite; with_reducible repeat' first
    | assumption | exact OnlyO.fault _ | exact OnlyO.refused _ | apply OnlyO.next | apply OnlyO.ite
    | apply State.vendor_only (hp := Foot.sub (by decide) hp) | apply State.updId_only (hp := Foot.sub (by decide) hp)
    | apply State.vendorGate_only (hp := Foot.sub (by decide) hp) | apply State.asWriter_only (hp := Foot.sub (by decide) hp) | apply Only.ite
    | split | (intro) | extract_lets

theorem execImgCommit_only {ps : Nat} {s0 : State} (r : Req) {s : State} (hp : Foot 31591454 ps) (hk : Only ps s0 s) : OnlyO ps s0 (execImgCommit r
    s) := by
  unfold execImgCommit; with_reducible repeat' first
    | assumption | exact OnlyO.fault _ | exact OnlyO.refused _ | apply OnlyO.next | apply OnlyO.ite
    | apply State.imageRejected_only (hp := Foot.sub (by decide) hp) | apply State.vendor_only (hp := Foot.sub (by decide) hp)
    | apply State.updSlot_only (hp := Foot.sub (by decide) hp) | apply State.updId_only (hp := Foot.sub (by decide) hp)
    | refine State.updFlash_only (hp := Foot.sub (by decide) hp) (fun _ => ⟨rfl, rfl⟩) ?_
    | apply State.vendorGate_only (hp := Foot.sub (by decide) hp) | apply State.record_only (hp := Foot.sub (by decide) hp)
    | apply State.asWriter_only (hp := Foot.sub (by decide) hp) | apply State.commitLive_only (hp := Foot.sub (by decide) hp)
    | apply State.written_only (hp := Foot.sub (by decide) hp) | apply Only.ite | split | (intro) | extract_lets

theorem execImgAbort_only {ps : Nat} {s0 : State} (r : Req) {s : State} (hp : Foot 25165828 ps) (hk : Only ps s0 s) : OnlyO ps s0 (execImgAbort r s)
    := by
  unfold execImgAbort; with_reducible repeat' first
    | assumption | exact OnlyO.fault _ | exact OnlyO.refused _ | apply OnlyO.next | apply OnlyO.ite
    | apply State.vendor_only (hp := Foot.sub (by decide) hp) | apply State.updId_only (hp := Foot.sub (by decide) hp)
    | apply State.vendorGate_only (hp := Foot.sub (by decide) hp) | apply State.asWriter_only (hp := Foot.sub (by decide) hp) | apply Only.ite
    | split | (intro) | extract_lets

theorem execImgStatus_only {ps : Nat} {s0 : State} (r : Req) {s : State} (hp : Foot 25165824 ps) (hk : Only ps s0 s) : OnlyO ps s0 (execImgStatus r
    s) := by
  unfold execImgStatus; with_reducible repeat' first
    | assumption | exact OnlyO.fault _ | exact OnlyO.refused _ | apply OnlyO.next | apply OnlyO.ite
    | apply State.vendor_only (hp := Foot.sub (by decide) hp) | apply State.vendorGate_only (hp := Foot.sub (by decide) hp) | apply Only.ite
    | split | (intro) | extract_lets

theorem execImgWriterIdle_only {ps : Nat} {s0 : State} {s : State} (hp : Foot 4 ps) (hk : Only ps s0 s) : OnlyO ps s0 (execImgWriterIdle s) := by
  unfold execImgWriterIdle; with_reducible repeat' first
    | assumption | exact OnlyO.fault _ | exact OnlyO.refused _ | apply OnlyO.next | apply OnlyO.ite
    | apply State.updId_only (hp := Foot.sub (by decide) hp) | apply Only.ite | split | (intro) | extract_lets

theorem execSecverAdvance_only {ps : Nat} {s0 : State} (r : Req) (v : Nat) {s : State} (hp : Foot 31588376 ps) (hk : Only ps s0 s) : OnlyO ps s0
    (execSecverAdvance r v s) := by
  unfold execSecverAdvance; dsimp only; with_reducible repeat' first
    | assumption | exact OnlyO.fault _ | exact OnlyO.refused _ | apply OnlyO.next | apply OnlyO.ite
    | apply State.vendor_only (hp := Foot.sub (by decide) hp) | refine State.updFlash_only (hp := Foot.sub (by decide) hp) (fun _ => ⟨rfl, rfl⟩) ?_
    | apply State.vendorGate_only (hp := Foot.sub (by decide) hp) | apply State.record_only (hp := Foot.sub (by decide) hp) | apply Only.ite
    | split | (intro) | extract_lets

theorem execOwnerProvision_only {ps : Nat} {s0 : State} (r : Req) (pubkey : List Byte) (sig : List Byte) {s : State} (hp : Foot 31588376 ps) (hk :
    Only ps s0 s) : OnlyO ps s0 (execOwnerProvision r pubkey sig s) := by
  unfold execOwnerProvision; with_reducible repeat' first
    | assumption | exact OnlyO.fault _ | exact OnlyO.refused _ | apply OnlyO.next | apply OnlyO.ite
    | apply State.vendor_only (hp := Foot.sub (by decide) hp) | refine State.updFlash_only (hp := Foot.sub (by decide) hp) (fun _ => ⟨rfl, rfl⟩) ?_
    | apply State.vendorGate_only (hp := Foot.sub (by decide) hp) | apply State.record_only (hp := Foot.sub (by decide) hp) | apply Only.ite
    | split | (intro) | extract_lets

theorem execModuleReset_only {ps : Nat} {s0 : State} (r : Req) {s : State} (hp : Foot 58720256 ps) (hk : Only ps s0 s) : OnlyO ps s0 (execModuleReset
    r s) := by
  unfold execModuleReset; with_reducible repeat' first
    | assumption | exact OnlyO.fault _ | exact OnlyO.refused _ | apply OnlyO.next | apply OnlyO.ite
    | apply State.moduleReset_only (hp := Foot.sub (by decide) hp) | apply State.vendor_only (hp := Foot.sub (by decide) hp)
    | apply State.vendorGate_only (hp := Foot.sub (by decide) hp) | apply Only.ite | split | (intro) | extract_lets

theorem execCtxResumeReq_only {ps : Nat} {s0 : State} (r : Req) (x : Nat) {s : State} (hp : Foot 1180591620717436470336 ps) (hk : Only ps s0 s) :
    OnlyO ps s0 (execCtxResumeReq r x s) := by
  unfold execCtxResumeReq; with_reducible repeat' first
    | assumption | exact OnlyO.fault _ | exact OnlyO.refused _ | apply OnlyO.next | apply OnlyO.ite
    | apply State.vendor_only (hp := Foot.sub (by decide) hp) | apply State.vendorGate_only (hp := Foot.sub (by decide) hp)
    | apply State.resumeJob_only (hp := Foot.sub (by decide) hp) | apply Only.ite | split | (intro) | extract_lets

theorem execGeyRestoreReq_only {ps : Nat} {s0 : State} (r : Req) (x : Nat) (jobId : Nat) (k : Nat) {s : State} (hp : Foot 1180591620717436470336 ps)
    (hk : Only ps s0 s) : OnlyO ps s0 (execGeyRestoreReq r x jobId k s) := by
  unfold execGeyRestoreReq; with_reducible repeat' first
    | assumption | exact OnlyO.fault _ | exact OnlyO.refused _ | apply OnlyO.next | apply OnlyO.ite
    | apply State.vendor_only (hp := Foot.sub (by decide) hp) | apply State.vendorGate_only (hp := Foot.sub (by decide) hp)
    | apply State.updCoord_only (hp := Foot.sub (by decide) hp) | apply State.toSome_only (hp := Foot.sub (by decide) hp) | apply Only.ite | split
    | (intro) | extract_lets

theorem execAlignStart_only {ps : Nat} {s0 : State} {s : State} (hp : Foot 16384 ps) (hk : Only ps s0 s) : OnlyO ps s0 (execAlignStart s) := by
  unfold execAlignStart; with_reducible repeat' first
    | assumption | exact OnlyO.fault _ | exact OnlyO.refused _ | apply OnlyO.next | apply OnlyO.ite
    | apply State.chooseAlign_only (hp := Foot.sub (by decide) hp) | apply Only.ite | split | (intro) | extract_lets

theorem execAlignQuiesce_only {ps : Nat} {s0 : State} {s : State} (hp : Foot 16385 ps) (hk : Only ps s0 s) : OnlyO ps s0 (execAlignQuiesce s) := by
  unfold execAlignQuiesce; with_reducible repeat' first
    | assumption | exact OnlyO.fault _ | exact OnlyO.refused _ | apply OnlyO.next | apply OnlyO.ite
    | apply State.advanceTo_only (hp := Foot.sub (by decide) hp) | apply State.updDet_only (hp := Foot.sub (by decide) hp) | apply Only.ite | split
    | (intro) | extract_lets

theorem execAlignApply_only {ps : Nat} {s0 : State} {s : State} (hp : Foot 16513 ps) (hk : Only ps s0 s) : OnlyO ps s0 (execAlignApply s) := by
  unfold execAlignApply; with_reducible repeat' first
    | assumption | exact OnlyO.fault _ | exact OnlyO.refused _ | apply OnlyO.next | apply OnlyO.ite
    | apply State.advanceTo_only (hp := Foot.sub (by decide) hp) | refine State.updMem_only (hp := Foot.sub (by decide) hp) (fun _ => rfl) ?_
    | apply State.updDet_only (hp := Foot.sub (by decide) hp) | apply Only.ite | split | (intro) | extract_lets

theorem execAlignComplete_only {ps : Nat} {s0 : State} (inBounds : Bool) {s : State} (hp : Foot 6438928 ps) (hk : Only ps s0 s) : OnlyO ps s0
    (execAlignComplete inBounds s) := by
  unfold execAlignComplete; with_reducible repeat' first
    | assumption | exact OnlyO.fault _ | exact OnlyO.refused _ | apply OnlyO.next | apply OnlyO.ite
    | apply State.bump_only (hp := Foot.sub (by decide) hp) | apply State.updDet_only (hp := Foot.sub (by decide) hp)
    | apply State.setEvt_only (hp := Foot.sub (by decide) hp) | apply Only.ite | split | (intro) | extract_lets

theorem execPacketRelease_only {ps : Nat} {s0 : State} {s : State} (hp : Foot 2361183241430594748415 ps) (hk : Only ps s0 s) : OnlyO ps s0
    (execPacketRelease s) := by
  unfold execPacketRelease; with_reducible repeat' first
    | assumption | exact OnlyO.fault _ | exact OnlyO.refused _ | apply OnlyO.next | apply OnlyO.ite
    | apply State.advanceTo_only (hp := Foot.sub (by decide) hp) | apply State.updFab_only (hp := Foot.sub (by decide) hp)
    | apply heldEffect_only (hp := Foot.sub (by decide) hp) | apply Only.ite | split | (intro) | extract_lets

theorem onFabricPort_only {ps : Nat} {s0 : State} (p : Nat) {s : State} (f : State → State) (hk : Only ps s0 s) (hf : ∀ (x0 : State), Only ps s0 x0 →
    Only ps s0 (f x0)) : OnlyO ps s0 (onFabricPort p s f) := by
  unfold onFabricPort; with_reducible repeat' first
    | assumption | exact OnlyO.fault _ | exact OnlyO.refused _ | apply OnlyO.next | apply OnlyO.ite | apply hf | apply Only.ite | split | (intro)
    | extract_lets

theorem onEdgePort_only {ps : Nat} {s0 : State} (p : Nat) {s : State} (f : State → State) (hk : Only ps s0 s) (hf : ∀ (x0 : State), Only ps s0 x0 →
    Only ps s0 (f x0)) : OnlyO ps s0 (onEdgePort p s f) := by
  unfold onEdgePort; with_reducible repeat' first
    | assumption | exact OnlyO.fault _ | exact OnlyO.refused _ | apply OnlyO.next | apply OnlyO.ite | apply hf | apply Only.ite | split | (intro)
    | extract_lets

theorem execCredit_only {ps : Nat} {s0 : State} (port : Nat) (flit : BitVec 512) {s : State} (hp : Foot 144115188090670161 ps) (hk : Only ps s0 s) :
    OnlyO ps s0 (execCredit port flit s) := by
  unfold execCredit; with_reducible repeat' first
    | assumption | exact OnlyO.fault _ | exact OnlyO.refused _ | apply OnlyO.next | apply OnlyO.ite | apply onFabricPort_only
    | apply State.lcfIn_only (hp := Foot.sub (by decide) hp) | apply Only.ite | split | (intro) | extract_lets

theorem execIdent_only {ps : Nat} {s0 : State} (port : Nat) (flit : BitVec 512) {s : State} (hp : Foot 144115188090670169 ps) (hk : Only ps s0 s) :
    OnlyO ps s0 (execIdent port flit s) := by
  unfold execIdent; with_reducible repeat' first
    | assumption | exact OnlyO.fault _ | exact OnlyO.refused _ | apply OnlyO.next | apply OnlyO.ite
    | apply State.freshLink_only (hp := Foot.sub (by decide) hp) | apply State.sendIdent_only (hp := Foot.sub (by decide) hp)
    | apply onFabricPort_only | apply State.toDetect_only (hp := Foot.sub (by decide) hp) | apply State.lcfIn_only (hp := Foot.sub (by decide) hp)
    | apply State.evaluate_only (hp := Foot.sub (by decide) hp) | apply State.updPort_only (hp := Foot.sub (by decide) hp)
    | apply State.noteBundle_only (hp := Foot.sub (by decide) hp) | apply Only.ite | split | (intro) | extract_lets

theorem execLsmFastRetrain_only {ps : Nat} {s0 : State} (port : Nat) (flit : BitVec 512) {s : State} (hp : Foot 144115188090670161 ps) (hk : Only ps
    s0 s) : OnlyO ps s0 (execLsmFastRetrain port flit s) := by
  unfold execLsmFastRetrain; with_reducible repeat' first
    | assumption | exact OnlyO.fault _ | exact OnlyO.refused _ | apply OnlyO.next | apply OnlyO.ite
    | apply State.leaveUp_only (hp := Foot.sub (by decide) hp) | apply onFabricPort_only | apply State.lcfIn_only (hp := Foot.sub (by decide) hp)
    | apply State.request_only (hp := Foot.sub (by decide) hp) | apply Only.ite | split | (intro) | extract_lets

theorem execLsmFullRetrain_only {ps : Nat} {s0 : State} (port : Nat) (flit : BitVec 512) {s : State} (hp : Foot 144115188090670161 ps) (hk : Only ps
    s0 s) : OnlyO ps s0 (execLsmFullRetrain port flit s) := by
  unfold execLsmFullRetrain; with_reducible repeat' first
    | assumption | exact OnlyO.fault _ | exact OnlyO.refused _ | apply OnlyO.next | apply OnlyO.ite | apply onFabricPort_only
    | apply State.lcfIn_only (hp := Foot.sub (by decide) hp) | apply State.request_only (hp := Foot.sub (by decide) hp)
    | apply State.fullRetrain_only (hp := Foot.sub (by decide) hp) | apply Only.ite | split | (intro) | extract_lets

theorem execLsmWidth4_only {ps : Nat} {s0 : State} (port : Nat) (flit : BitVec 512) {s : State} (hp : Foot 144115188090670161 ps) (hk : Only ps s0 s)
    : OnlyO ps s0 (execLsmWidth4 port flit s) := by
  unfold execLsmWidth4; with_reducible repeat' first
    | assumption | exact OnlyO.fault _ | exact OnlyO.refused _ | apply OnlyO.next | apply OnlyO.ite
    | apply State.leaveUp_only (hp := Foot.sub (by decide) hp) | apply State.setWidth4_only (hp := Foot.sub (by decide) hp)
    | apply onFabricPort_only | apply State.lcfIn_only (hp := Foot.sub (by decide) hp) | apply State.request_only (hp := Foot.sub (by decide) hp)
    | apply Only.ite | split | (intro) | extract_lets

theorem execLsmSpare_only {ps : Nat} {s0 : State} (port : Nat) (flit : BitVec 512) {s : State} (hp : Foot 144115188090670161 ps) (hk : Only ps s0 s)
    : OnlyO ps s0 (execLsmSpare port flit s) := by
  unfold execLsmSpare; with_reducible repeat' first
    | assumption | exact OnlyO.fault _ | exact OnlyO.refused _ | apply OnlyO.next | apply OnlyO.ite | apply onFabricPort_only
    | apply State.lcfIn_only (hp := Foot.sub (by decide) hp) | apply State.sendLsm_only (hp := Foot.sub (by decide) hp)
    | apply State.updPort_only (hp := Foot.sub (by decide) hp) | apply Only.ite | split | (intro) | extract_lets

theorem execLsmGrant_only {ps : Nat} {s0 : State} (port : Nat) (flit : BitVec 512) {s : State} (hp : Foot 144115188090670161 ps) (hk : Only ps s0 s)
    : OnlyO ps s0 (execLsmGrant port flit s) := by
  unfold execLsmGrant; with_reducible repeat' first
    | assumption | exact OnlyO.fault _ | exact OnlyO.refused _ | apply OnlyO.next | apply OnlyO.ite
    | apply State.leaveUp_only (hp := Foot.sub (by decide) hp) | apply State.setWidth4_only (hp := Foot.sub (by decide) hp)
    | apply onFabricPort_only | apply State.lcfIn_only (hp := Foot.sub (by decide) hp) | apply State.sendLsm_only (hp := Foot.sub (by decide) hp)
    | apply State.fullRetrain_only (hp := Foot.sub (by decide) hp) | apply State.updPort_only (hp := Foot.sub (by decide) hp) | apply Only.ite
    | split | (intro) | extract_lets

theorem execLsmDone_only {ps : Nat} {s0 : State} (port : Nat) (flit : BitVec 512) {s : State} (hp : Foot 144115188090670161 ps) (hk : Only ps s0 s) :
    OnlyO ps s0 (execLsmDone port flit s) := by
  unfold execLsmDone; with_reducible repeat' first
    | assumption | exact OnlyO.fault _ | exact OnlyO.refused _ | apply OnlyO.next | apply OnlyO.ite
    | apply State.laneCheck_only (hp := Foot.sub (by decide) hp) | apply onFabricPort_only | apply State.lcfIn_only (hp := Foot.sub (by decide) hp)
    | apply Only.ite | split | (intro) | extract_lets

theorem execCodewordFlagged_only {ps : Nat} {s0 : State} (port : Nat) (lane : Nat) (firstLost : Nat) (uncorrectable : Bool) {s : State} (hp : Foot
    12584960 ps) (hk : Only ps s0 s) : OnlyO ps s0 (execCodewordFlagged port lane firstLost uncorrectable s) := by
  unfold execCodewordFlagged; with_reducible repeat' first
    | assumption | exact OnlyO.fault _ | exact OnlyO.refused _ | apply OnlyO.next | apply OnlyO.ite
    | apply State.bump_only (hp := Foot.sub (by decide) hp) | apply State.sendLcf_only (hp := Foot.sub (by decide) hp) | apply onFabricPort_only
    | apply State.updPort_only (hp := Foot.sub (by decide) hp) | apply Only.ite | split | (intro) | extract_lets

theorem execNakRetry_only {ps : Nat} {s0 : State} (port : Nat) {s : State} (hp : Foot 144115188090670161 ps) (hk : Only ps s0 s) : OnlyO ps s0
    (execNakRetry port s) := by
  unfold execNakRetry; with_reducible repeat' first
    | assumption | exact OnlyO.fault _ | exact OnlyO.refused _ | apply OnlyO.next | apply OnlyO.ite
    | apply State.leaveUp_only (hp := Foot.sub (by decide) hp) | apply State.sendLcf_only (hp := Foot.sub (by decide) hp) | apply onFabricPort_only
    | apply State.updPort_only (hp := Foot.sub (by decide) hp) | apply Only.ite | split | (intro) | extract_lets

theorem execLossOfSignal_only {ps : Nat} {s0 : State} (port : Nat) (lane : Nat) {s : State} (hp : Foot 144115188090670161 ps) (hk : Only ps s0 s) :
    OnlyO ps s0 (execLossOfSignal port lane s) := by
  unfold execLossOfSignal; with_reducible repeat' first
    | assumption | exact OnlyO.fault _ | exact OnlyO.refused _ | apply OnlyO.next | apply OnlyO.ite
    | apply State.laneFail_only (hp := Foot.sub (by decide) hp) | apply State.updPort_only (hp := Foot.sub (by decide) hp) | apply Only.ite | split
    | (intro) | extract_lets

theorem execLaneCeLimit_only {ps : Nat} {s0 : State} (port : Nat) (lane : Nat) {s : State} (hp : Foot 144115188090670161 ps) (hk : Only ps s0 s) :
    OnlyO ps s0 (execLaneCeLimit port lane s) := by
  unfold execLaneCeLimit; with_reducible repeat' first
    | assumption | exact OnlyO.fault _ | exact OnlyO.refused _ | apply OnlyO.next | apply OnlyO.ite
    | apply State.bump_only (hp := Foot.sub (by decide) hp) | apply onFabricPort_only | apply State.laneFail_only (hp := Foot.sub (by decide) hp)
    | apply Only.ite | split | (intro) | extract_lets

theorem execLaneUeLimit_only {ps : Nat} {s0 : State} (port : Nat) (lane : Nat) {s : State} (hp : Foot 144115188090670161 ps) (hk : Only ps s0 s) :
    OnlyO ps s0 (execLaneUeLimit port lane s) := by
  unfold execLaneUeLimit; with_reducible repeat' first
    | assumption | exact OnlyO.fault _ | exact OnlyO.refused _ | apply OnlyO.next | apply OnlyO.ite | apply onFabricPort_only
    | apply State.laneFail_only (hp := Foot.sub (by decide) hp) | apply Only.ite | split | (intro) | extract_lets

theorem execPortLcfTimeout_only {ps : Nat} {s0 : State} (port : Nat) {s : State} (hp : Foot 144115188090670161 ps) (hk : Only ps s0 s) : OnlyO ps s0
    (execPortLcfTimeout port s) := by
  unfold execPortLcfTimeout; with_reducible repeat' first
    | assumption | exact OnlyO.fault _ | exact OnlyO.refused _ | apply OnlyO.next | apply OnlyO.ite
    | apply State.leaveUp_only (hp := Foot.sub (by decide) hp) | apply onFabricPort_only
    | apply State.toDetect_only (hp := Foot.sub (by decide) hp) | apply Only.ite | split | (intro) | extract_lets

theorem execFastRetrainTimeout_only {ps : Nat} {s0 : State} (port : Nat) {s : State} (hp : Foot 144115188090670161 ps) (hk : Only ps s0 s) : OnlyO ps
    s0 (execFastRetrainTimeout port s) := by
  unfold execFastRetrainTimeout; with_reducible repeat' first
    | assumption | exact OnlyO.fault _ | exact OnlyO.refused _ | apply OnlyO.next | apply OnlyO.ite | apply onFabricPort_only
    | apply State.toDetect_only (hp := Foot.sub (by decide) hp) | apply Only.ite | split | (intro) | extract_lets

theorem execPortStart_only {ps : Nat} {s0 : State} (port : Nat) {s : State} (hp : Foot 2048 ps) (hk : Only ps s0 s) : OnlyO ps s0 (execPortStart port
    s) := by
  unfold execPortStart; with_reducible repeat' first
    | assumption | exact OnlyO.fault _ | exact OnlyO.refused _ | apply OnlyO.next | apply OnlyO.ite
    | apply State.updPort_only (hp := Foot.sub (by decide) hp) | apply Only.ite | split | (intro) | extract_lets

theorem execPartnerReady_only {ps : Nat} {s0 : State} (port : Nat) (lanes : Nat) {s : State} (hp : Foot 2048 ps) (hk : Only ps s0 s) : OnlyO ps s0
    (execPartnerReady port lanes s) := by
  unfold execPartnerReady; with_reducible repeat' first
    | assumption | exact OnlyO.fault _ | exact OnlyO.refused _ | apply OnlyO.next | apply OnlyO.ite
    | apply State.updPort_only (hp := Foot.sub (by decide) hp) | apply Only.ite | split | (intro) | extract_lets

theorem execEqualiseDone_only {ps : Nat} {s0 : State} (port : Nat) {s : State} (hp : Foot 2048 ps) (hk : Only ps s0 s) : OnlyO ps s0
    (execEqualiseDone port s) := by
  unfold execEqualiseDone; with_reducible repeat' first
    | assumption | exact OnlyO.fault _ | exact OnlyO.refused _ | apply OnlyO.next | apply OnlyO.ite | apply onFabricPort_only
    | apply State.updPort_only (hp := Foot.sub (by decide) hp) | apply Only.ite | split | (intro) | extract_lets

theorem execAlignDone_only {ps : Nat} {s0 : State} (port : Nat) (lanes : Nat) {s : State} (hp : Foot 144115188090670161 ps) (hk : Only ps s0 s) :
    OnlyO ps s0 (execAlignDone port lanes s) := by
  unfold execAlignDone; with_reducible repeat' first
    | assumption | exact OnlyO.fault _ | exact OnlyO.refused _ | apply OnlyO.next | apply OnlyO.ite
    | apply State.sendIdent_only (hp := Foot.sub (by decide) hp) | apply State.backoff_only (hp := Foot.sub (by decide) hp)
    | apply onFabricPort_only | apply State.toDetect_only (hp := Foot.sub (by decide) hp)
    | apply State.updPort_only (hp := Foot.sub (by decide) hp) | apply Only.ite | split | (intro) | extract_lets

theorem execAttemptTimeout_only {ps : Nat} {s0 : State} (port : Nat) {s : State} (hp : Foot 2048 ps) (hk : Only ps s0 s) : OnlyO ps s0
    (execAttemptTimeout port s) := by
  unfold execAttemptTimeout; with_reducible repeat' first
    | assumption | exact OnlyO.fault _ | exact OnlyO.refused _ | apply OnlyO.next | apply OnlyO.ite
    | apply State.backoff_only (hp := Foot.sub (by decide) hp) | apply onFabricPort_only | apply Only.ite | split | (intro) | extract_lets

theorem execBackoffExpiry_only {ps : Nat} {s0 : State} (port : Nat) {s : State} (hp : Foot 2048 ps) (hk : Only ps s0 s) : OnlyO ps s0
    (execBackoffExpiry port s) := by
  unfold execBackoffExpiry; with_reducible repeat' first
    | assumption | exact OnlyO.fault _ | exact OnlyO.refused _ | apply OnlyO.next | apply OnlyO.ite | apply onFabricPort_only
    | apply State.updPort_only (hp := Foot.sub (by decide) hp) | apply Only.ite | split | (intro) | extract_lets

theorem execHeldExpiry_only {ps : Nat} {s0 : State} (port : Nat) {s : State} (hp : Foot 144115188090670161 ps) (hk : Only ps s0 s) : OnlyO ps s0
    (execHeldExpiry port s) := by
  unfold execHeldExpiry; with_reducible repeat' first
    | assumption | exact OnlyO.fault _ | exact OnlyO.refused _ | apply OnlyO.next | apply OnlyO.ite | apply onFabricPort_only
    | apply State.toDetect_only (hp := Foot.sub (by decide) hp) | apply Only.ite | split | (intro) | extract_lets

theorem execHeldSignalLoss_only {ps : Nat} {s0 : State} (port : Nat) {s : State} (hp : Foot 144115188090670161 ps) (hk : Only ps s0 s) : OnlyO ps s0
    (execHeldSignalLoss port s) := by
  unfold execHeldSignalLoss; with_reducible repeat' first
    | assumption | exact OnlyO.fault _ | exact OnlyO.refused _ | apply OnlyO.next | apply OnlyO.ite | apply onFabricPort_only
    | apply State.toDetect_only (hp := Foot.sub (by decide) hp) | apply Only.ite | split | (intro) | extract_lets

theorem execEdgeLinkUp_only {ps : Nat} {s0 : State} (port : Nat) (duplicate : Bool) {s : State} (hp : Foot 14878736 ps) (hk : Only ps s0 s) : OnlyO
    ps s0 (execEdgeLinkUp port duplicate s) := by
  unfold execEdgeLinkUp; with_reducible repeat' first
    | assumption | exact OnlyO.fault _ | exact OnlyO.refused _ | apply OnlyO.next | apply OnlyO.ite
    | apply State.flushVent_only (hp := Foot.sub (by decide) hp) | apply State.record_only (hp := Foot.sub (by decide) hp) | apply onEdgePort_only
    | apply State.updPort_only (hp := Foot.sub (by decide) hp) | apply Only.ite | split | (intro) | extract_lets

theorem execEdgeLinkDown_only {ps : Nat} {s0 : State} (port : Nat) {s : State} (hp : Foot 2048 ps) (hk : Only ps s0 s) : OnlyO ps s0
    (execEdgeLinkDown port s) := by
  unfold execEdgeLinkDown; with_reducible repeat' first
    | assumption | exact OnlyO.fault _ | exact OnlyO.refused _ | apply OnlyO.next | apply OnlyO.ite | apply onEdgePort_only
    | apply State.updPort_only (hp := Foot.sub (by decide) hp) | apply Only.ite | split | (intro) | extract_lets

theorem execEdgeFrameReceive_only {ps : Nat} {s0 : State} (port : Nat) (f : EdgeFrame) {s : State} (hp : Foot 4194304 ps) (hk : Only ps s0 s) : OnlyO
    ps s0 (execEdgeFrameReceive port f s) := by
  unfold execEdgeFrameReceive; with_reducible repeat' first
    | assumption | exact OnlyO.fault _ | exact OnlyO.refused _ | apply OnlyO.next | apply OnlyO.ite
    | apply State.bump_only (hp := Foot.sub (by decide) hp) | apply onEdgePort_only | apply Only.ite | split | (intro) | extract_lets

theorem execSampleLatch_only {ps : Nat} {s0 : State} (k : Nat) (readings : List Reading) {s : State} (hp : Foot 738157993324600317905 ps) (hk : Only
    ps s0 s) : OnlyO ps s0 (execSampleLatch k readings s) := by
  unfold execSampleLatch; with_reducible repeat' first
    | assumption | exact OnlyO.fault _ | exact OnlyO.refused _ | apply OnlyO.next | apply OnlyO.ite
    | apply State.advanceTo_only (hp := Foot.sub (by decide) hp) | apply State.emitRecords_only (hp := Foot.sub (by decide) hp)
    | apply State.endInterval_only (hp := Foot.sub (by decide) hp) | apply State.takeSample_only (hp := Foot.sub (by decide) hp)
    | apply forEach_only | apply State.project_only (hp := Foot.sub (by decide) hp) | apply Only.ite | split | (intro) | extract_lets

theorem execSampleMissed_only {ps : Nat} {s0 : State} (cls : Nat) (index : Nat) {s : State} (hp : Foot 4194304 ps) (hk : Only ps s0 s) : OnlyO ps s0
    (execSampleMissed cls index s) := by
  unfold execSampleMissed; with_reducible repeat' first
    | assumption | exact OnlyO.fault _ | exact OnlyO.refused _ | apply OnlyO.next | apply OnlyO.ite
    | apply State.bump_only (hp := Foot.sub (by decide) hp) | apply Only.ite | split | (intro) | extract_lets

theorem execTelUp_only {ps : Nat} {s0 : State} (h : Hdr) (t : TelPkt) {s : State} (hp : Foot 737869762948448344017 ps) (hk : Only ps s0 s) : OnlyO ps
    s0 (execTelUp h t s) := by
  unfold execTelUp; with_reducible repeat' first
    | assumption | exact OnlyO.fault _ | exact OnlyO.refused _ | apply OnlyO.next | apply OnlyO.ite
    | apply State.bump_only (hp := Foot.sub (by decide) hp) | apply State.telGuard_only (hp := Foot.sub (by decide) hp)
    | apply State.telFold_only (hp := Foot.sub (by decide) hp) | apply Only.ite | split | (intro) | extract_lets

theorem execTelDown_only {ps : Nat} {s0 : State} (h : Hdr) (t : TelPkt) {s : State} (hp : Foot 14877713 ps) (hk : Only ps s0 s) : OnlyO ps s0
    (execTelDown h t s) := by
  unfold execTelDown; with_reducible repeat' first
    | assumption | exact OnlyO.fault _ | exact OnlyO.refused _ | apply OnlyO.next | apply OnlyO.ite
    | apply State.bump_only (hp := Foot.sub (by decide) hp) | apply State.telResult_only (hp := Foot.sub (by decide) hp)
    | apply State.telGuard_only (hp := Foot.sub (by decide) hp) | apply State.setEvt_only (hp := Foot.sub (by decide) hp) | apply Only.ite | split
    | (intro) | extract_lets

theorem execTelSendBy_only {ps : Nat} {s0 : State} (tree : Nat) (group : Nat) (key : Nat) (attempt : Nat) {s : State} (hp : Foot 12648449 ps) (hk :
    Only ps s0 s) : OnlyO ps s0 (execTelSendBy tree group key attempt s) := by
  unfold execTelSendBy; with_reducible repeat' first
    | assumption | exact OnlyO.fault _ | exact OnlyO.refused _ | apply OnlyO.next | apply OnlyO.ite
    | apply State.advanceTo_only (hp := Foot.sub (by decide) hp) | apply State.telSend_only (hp := Foot.sub (by decide) hp)
    | apply State.releaseTelSlots_only (hp := Foot.sub (by decide) hp) | apply Only.ite | split | (intro) | extract_lets

theorem execTelFinalize_only {ps : Nat} {s0 : State} (tree : Nat) (group : Nat) (key : Nat) (attempt : Nat) {s : State} (hp : Foot 14876689 ps) (hk :
    Only ps s0 s) : OnlyO ps s0 (execTelFinalize tree group key attempt s) := by
  unfold execTelFinalize; with_reducible repeat' first
    | assumption | exact OnlyO.fault _ | exact OnlyO.refused _ | apply OnlyO.next | apply OnlyO.ite
    | apply State.advanceTo_only (hp := Foot.sub (by decide) hp) | apply State.telFinal_only (hp := Foot.sub (by decide) hp) | apply Only.ite
    | split | (intro) | extract_lets

theorem execTelSlotRelease_only {ps : Nat} {s0 : State} (tree : Nat) (group : Nat) (key : Nat) {s : State} (hp : Foot 4259840 ps) (hk : Only ps s0 s)
    : OnlyO ps s0 (execTelSlotRelease tree group key s) := by
  unfold execTelSlotRelease; with_reducible repeat' first
    | assumption | exact OnlyO.fault _ | exact OnlyO.refused _ | apply OnlyO.next | apply OnlyO.ite
    | apply State.releaseTelSlots_only (hp := Foot.sub (by decide) hp) | apply Only.ite | split | (intro) | extract_lets

theorem execSubscribe_only {ps : Nat} {s0 : State} (port : Nat) (addr : Nat) (udp : Nat) (subId : Nat) (version : Nat) (body : List Byte) {s : State}
    (hp : Foot 31653904 ps) (hk : Only ps s0 s) : OnlyO ps s0 (execSubscribe port addr udp subId version body s) := by
  unfold execSubscribe; with_reducible repeat' first
    | assumption | exact OnlyO.fault _ | exact OnlyO.refused _ | apply OnlyO.next | apply OnlyO.ite
    | apply State.bump_only (hp := Foot.sub (by decide) hp) | apply State.updTel_only (hp := Foot.sub (by decide) hp)
    | apply State.hint_only (hp := Foot.sub (by decide) hp) | apply State.subReply_only (hp := Foot.sub (by decide) hp)
    | apply State.setEvt_only (hp := Foot.sub (by decide) hp) | apply Only.ite | split | (intro) | extract_lets

theorem execUnsubscribe_only {ps : Nat} {s0 : State} (addr : Nat) (udp : Nat) (subId : Nat) {s : State} (hp : Foot 65536 ps) (hk : Only ps s0 s) :
    OnlyO ps s0 (execUnsubscribe addr udp subId s) := by
  unfold execUnsubscribe; with_reducible repeat' first
    | assumption | exact OnlyO.fault _ | exact OnlyO.refused _ | apply OnlyO.next | apply OnlyO.ite
    | apply State.updTel_only (hp := Foot.sub (by decide) hp) | apply Only.ite | split | (intro) | extract_lets

theorem execSubscriptionLeaseEnd_only {ps : Nat} {s0 : State} (addr : Nat) (udp : Nat) (subId : Nat) {s : State} (hp : Foot 65537 ps) (hk : Only ps
    s0 s) : OnlyO ps s0 (execSubscriptionLeaseEnd addr udp subId s) := by
  unfold execSubscriptionLeaseEnd; with_reducible repeat' first
    | assumption | exact OnlyO.fault _ | exact OnlyO.refused _ | apply OnlyO.next | apply OnlyO.ite
    | apply State.advanceTo_only (hp := Foot.sub (by decide) hp) | apply State.updTel_only (hp := Foot.sub (by decide) hp) | apply Only.ite | split
    | (intro) | extract_lets

theorem execRecordAged_only {ps : Nat} {s0 : State} (addr : Nat) (udp : Nat) (subId : Nat) (seq : Nat) {s : State} (hp : Foot 4259840 ps) (hk : Only
    ps s0 s) : OnlyO ps s0 (execRecordAged addr udp subId seq s) := by
  unfold execRecordAged; with_reducible repeat' first
    | assumption | exact OnlyO.fault _ | exact OnlyO.refused _ | apply OnlyO.next | apply OnlyO.ite
    | apply State.bump_only (hp := Foot.sub (by decide) hp) | apply State.updTel_only (hp := Foot.sub (by decide) hp) | apply Only.ite | split
    | (intro) | extract_lets

theorem execSetEndpointId_only {ps : Nat} {s0 : State} (binding : Nat) (eid : Nat) {s : State} (hp : Foot 8912896 ps) (hk : Only ps s0 s) : OnlyO ps
    s0 (execSetEndpointId binding eid s) := by
  unfold execSetEndpointId; with_reducible repeat' first
    | assumption | exact OnlyO.fault _ | exact OnlyO.refused _ | apply OnlyO.next | apply OnlyO.ite
    | apply State.control_only (hp := Foot.sub (by decide) hp) | apply State.updMgmt_only (hp := Foot.sub (by decide) hp) | apply Only.ite | split
    | (intro) | extract_lets

theorem execGetEndpointId_only {ps : Nat} {s0 : State} (binding : Nat) {s : State} (hp : Foot 8388608 ps) (hk : Only ps s0 s) : OnlyO ps s0
    (execGetEndpointId binding s) := by
  unfold execGetEndpointId; with_reducible repeat' first
    | assumption | exact OnlyO.fault _ | exact OnlyO.refused _ | apply OnlyO.next | apply OnlyO.ite
    | apply State.control_only (hp := Foot.sub (by decide) hp) | apply Only.ite | split | (intro) | extract_lets

theorem execGetMctpVersionSupport_only {ps : Nat} {s0 : State} (r : Req) (msgType : Nat) {s : State} (hp : Foot 8388608 ps) (hk : Only ps s0 s) :
    OnlyO ps s0 (execGetMctpVersionSupport r msgType s) := by
  unfold execGetMctpVersionSupport; with_reducible repeat' first
    | assumption | exact OnlyO.fault _ | exact OnlyO.refused _ | apply OnlyO.next | apply OnlyO.ite
    | apply State.control_only (hp := Foot.sub (by decide) hp) | apply Only.ite | split | (intro) | extract_lets

theorem execGetMessageTypeSupport_only {ps : Nat} {s0 : State} (r : Req) {s : State} (hp : Foot 8388608 ps) (hk : Only ps s0 s) : OnlyO ps s0
    (execGetMessageTypeSupport r s) := by
  unfold execGetMessageTypeSupport; with_reducible repeat' first
    | assumption | exact OnlyO.fault _ | exact OnlyO.refused _ | apply OnlyO.next | apply OnlyO.ite
    | apply State.control_only (hp := Foot.sub (by decide) hp) | apply Only.ite | split | (intro) | extract_lets

theorem execGetVendorDefinedMessageSupport_only {ps : Nat} {s0 : State} (r : Req) (selector : Nat) {s : State} (hp : Foot 8388608 ps) (hk : Only ps
    s0 s) : OnlyO ps s0 (execGetVendorDefinedMessageSupport r selector s) := by
  unfold execGetVendorDefinedMessageSupport; with_reducible repeat' first
    | assumption | exact OnlyO.fault _ | exact OnlyO.refused _ | apply OnlyO.next | apply OnlyO.ite
    | apply State.control_only (hp := Foot.sub (by decide) hp) | apply Only.ite | split | (intro) | extract_lets

theorem execDynamicAddressAssignment_only {ps : Nat} {s0 : State} (addr : Nat) {s : State} (hp : Foot 524288 ps) (hk : Only ps s0 s) : OnlyO ps s0
    (execDynamicAddressAssignment addr s) := by
  unfold execDynamicAddressAssignment; with_reducible repeat' first
    | assumption | exact OnlyO.fault _ | exact OnlyO.refused _ | apply OnlyO.next | apply OnlyO.ite
    | apply State.updMgmt_only (hp := Foot.sub (by decide) hp) | apply Only.ite | split | (intro) | extract_lets

theorem execGetTid_only {ps : Nat} {s0 : State} (r : Req) {s : State} (hp : Foot 8388608 ps) (hk : Only ps s0 s) : OnlyO ps s0 (execGetTid r s) := by
  unfold execGetTid; with_reducible repeat' first
    | assumption | exact OnlyO.fault _ | exact OnlyO.refused _ | apply OnlyO.next | apply OnlyO.ite | apply State.pldmBase_only
    | apply State.pldm_only (hp := Foot.sub (by decide) hp) | apply Only.ite | split | (intro) | extract_lets

theorem execGetPldmVersion_only {ps : Nat} {s0 : State} (r : Req) (pldmType : Nat) {s : State} (hp : Foot 8388608 ps) (hk : Only ps s0 s) : OnlyO ps
    s0 (execGetPldmVersion r pldmType s) := by
  unfold execGetPldmVersion; with_reducible repeat' first
    | assumption | exact OnlyO.fault _ | exact OnlyO.refused _ | apply OnlyO.next | apply OnlyO.ite | apply State.pldmBase_only
    | apply State.pldm_only (hp := Foot.sub (by decide) hp) | apply Only.ite | split | (intro) | extract_lets

theorem execGetPldmTypes_only {ps : Nat} {s0 : State} (r : Req) {s : State} (hp : Foot 8388608 ps) (hk : Only ps s0 s) : OnlyO ps s0
    (execGetPldmTypes r s) := by
  unfold execGetPldmTypes; with_reducible repeat' first
    | assumption | exact OnlyO.fault _ | exact OnlyO.refused _ | apply OnlyO.next | apply OnlyO.ite | apply State.pldmBase_only
    | apply State.pldm_only (hp := Foot.sub (by decide) hp) | apply Only.ite | split | (intro) | extract_lets

theorem execGetPldmCommands_only {ps : Nat} {s0 : State} (r : Req) (pldmType : Nat) {s : State} (hp : Foot 8388608 ps) (hk : Only ps s0 s) : OnlyO ps
    s0 (execGetPldmCommands r pldmType s) := by
  unfold execGetPldmCommands; with_reducible repeat' first
    | assumption | exact OnlyO.fault _ | exact OnlyO.refused _ | apply OnlyO.next | apply OnlyO.ite | apply State.pldmBase_only
    | apply State.pldm_only (hp := Foot.sub (by decide) hp) | apply Only.ite | split | (intro) | extract_lets

theorem execGetPdr_only {ps : Nat} {s0 : State} (r : Req) (handle : Nat) {s : State} (hp : Foot 8388608 ps) (hk : Only ps s0 s) : OnlyO ps s0
    (execGetPdr r handle s) := by
  unfold execGetPdr; with_reducible repeat' first
    | assumption | exact OnlyO.fault _ | exact OnlyO.refused _ | apply OnlyO.next | apply OnlyO.ite
    | apply State.pldmGate_only (hp := Foot.sub (by decide) hp) | apply State.pldm_only (hp := Foot.sub (by decide) hp) | apply Only.ite | split
    | (intro) | extract_lets

theorem execGetSensorReading_only {ps : Nat} {s0 : State} (r : Req) (sensor : Nat) {s : State} (hp : Foot 25165824 ps) (hk : Only ps s0 s) : OnlyO ps
    s0 (execGetSensorReading r sensor s) := by
  unfold execGetSensorReading; with_reducible repeat' first
    | assumption | exact OnlyO.fault _ | exact OnlyO.refused _ | apply OnlyO.next | apply OnlyO.ite
    | apply State.fresh_only (hp := Foot.sub (by decide) hp) | apply State.pldmGate_only (hp := Foot.sub (by decide) hp)
    | apply State.pldm_only (hp := Foot.sub (by decide) hp) | apply Only.ite | split | (intro) | extract_lets

theorem execGetStateSensorReadings_only {ps : Nat} {s0 : State} (r : Req) (sensor : Nat) {s : State} (hp : Foot 8388608 ps) (hk : Only ps s0 s) :
    OnlyO ps s0 (execGetStateSensorReadings r sensor s) := by
  unfold execGetStateSensorReadings; with_reducible repeat' first
    | assumption | exact OnlyO.fault _ | exact OnlyO.refused _ | apply OnlyO.next | apply OnlyO.ite
    | apply State.pldmGate_only (hp := Foot.sub (by decide) hp) | apply State.pldm_only (hp := Foot.sub (by decide) hp) | apply Only.ite | split
    | (intro) | extract_lets

theorem execPldmFullRetrain_only {ps : Nat} {s0 : State} (r : Req) (port : Nat) {s : State} (hp : Foot 144115188090670161 ps) (hk : Only ps s0 s) :
    OnlyO ps s0 (execPldmFullRetrain r port s) := by
  unfold execPldmFullRetrain; with_reducible repeat' first
    | assumption | exact OnlyO.fault _ | exact OnlyO.refused _ | apply OnlyO.next | apply OnlyO.ite
    | apply State.pldmGate_only (hp := Foot.sub (by decide) hp) | apply State.toDetect_only (hp := Foot.sub (by decide) hp)
    | apply State.sendLsm_only (hp := Foot.sub (by decide) hp) | apply State.pldm_only (hp := Foot.sub (by decide) hp)
    | apply State.updPort_only (hp := Foot.sub (by decide) hp) | apply Only.ite | split | (intro) | extract_lets

theorem execReleaseHold_only {ps : Nat} {s0 : State} (r : Req) (port : Nat) {s : State} (hp : Foot 144115188090670161 ps) (hk : Only ps s0 s) : OnlyO
    ps s0 (execReleaseHold r port s) := by
  unfold execReleaseHold; with_reducible repeat' first
    | assumption | exact OnlyO.fault _ | exact OnlyO.refused _ | apply OnlyO.next | apply OnlyO.ite
    | apply State.pldmGate_only (hp := Foot.sub (by decide) hp) | apply State.toDetect_only (hp := Foot.sub (by decide) hp)
    | apply State.pldm_only (hp := Foot.sub (by decide) hp) | apply Only.ite | split | (intro) | extract_lets

theorem execAlignRetry_only {ps : Nat} {s0 : State} (r : Req) {s : State} (hp : Foot 8404992 ps) (hk : Only ps s0 s) : OnlyO ps s0 (execAlignRetry r
    s) := by
  unfold execAlignRetry; with_reducible repeat' first
    | assumption | exact OnlyO.fault _ | exact OnlyO.refused _ | apply OnlyO.next | apply OnlyO.ite
    | apply State.pldmGate_only (hp := Foot.sub (by decide) hp) | apply State.pldm_only (hp := Foot.sub (by decide) hp)
    | apply State.chooseAlign_only (hp := Foot.sub (by decide) hp) | apply Only.ite | split | (intro) | extract_lets

theorem execRegRead_only {ps : Nat} {s0 : State} (r : Req) (block : Nat) (a2 : Nat) (offset : Nat) (length : Nat) {s : State} (hp : Foot 8388608 ps)
    (hk : Only ps s0 s) : OnlyO ps s0 (execRegRead r block a2 offset length s) := by
  unfold execRegRead; with_reducible repeat' first
    | assumption | exact OnlyO.fault _ | exact OnlyO.refused _ | apply OnlyO.next | apply OnlyO.ite
    | apply State.pldmGate_only (hp := Foot.sub (by decide) hp) | apply State.pldm_only (hp := Foot.sub (by decide) hp) | apply Only.ite | split
    | (intro) | extract_lets

theorem execRegW1c_only {ps : Nat} {s0 : State} (r : Req) (block : Nat) (a2 : Nat) (offset : Nat) (mask : Nat) {s : State} (hp : Foot 10485760 ps)
    (hk : Only ps s0 s) : OnlyO ps s0 (execRegW1c r block a2 offset mask s) := by
  unfold execRegW1c; with_reducible repeat' first
    | assumption | exact OnlyO.fault _ | exact OnlyO.refused _ | apply OnlyO.next | apply OnlyO.ite
    | apply State.w1c_only (hp := Foot.sub (by decide) hp) | apply State.pldmGate_only (hp := Foot.sub (by decide) hp)
    | apply State.pldm_only (hp := Foot.sub (by decide) hp) | apply Only.ite | split | (intro) | extract_lets

theorem execMove_only {ps : Nat} {s0 : State} (c : CoreCmd) (src : Nat) (dst : Nat) (len : Nat) (rd : ReadOutcome) {s : State} (hp : Foot
    812089084807514052560 ps) (hk : Only ps s0 s) : OnlyO ps s0 (execMove c src dst len rd s) := by
  unfold execMove; with_reducible repeat' first
    | assumption | exact OnlyO.fault _ | exact OnlyO.refused _ | apply OnlyO.next | apply OnlyO.ite
    | apply State.transfer_only (hp := Foot.sub (by decide) hp) | apply State.onCore_only (hp := Foot.sub (by decide) hp) | apply Only.ite | split
    | (intro) | extract_lets

theorem execDma_only {ps : Nat} {s0 : State} (x : Nat) (opId : Nat) (src : Nat) (dst : Nat) (len : Nat) (rd : ReadOutcome) {s : State} (hp : Foot
    812089084807514052560 ps) (hk : Only ps s0 s) : OnlyO ps s0 (execDma x opId src dst len rd s) := by
  unfold execDma; with_reducible repeat' first
    | assumption | exact OnlyO.fault _ | exact OnlyO.refused _ | apply OnlyO.next | apply OnlyO.ite
    | apply State.transfer_only (hp := Foot.sub (by decide) hp) | apply Only.ite | split | (intro) | extract_lets

theorem execXposeJobComplete_only {ps : Nat} {s0 : State} (p : Nat) (e : Nat) (flips : List (Nat × Nat)) (rd : ReadOutcome) {s : State} (hp : Foot
    738302108512675846096 ps) (hk : Only ps s0 s) : OnlyO ps s0 (execXposeJobComplete p e flips rd s) := by
  unfold execXposeJobComplete; dsimp only; with_reducible repeat' first
    | assumption | exact OnlyO.fault _ | exact OnlyO.refused _ | apply OnlyO.next | apply OnlyO.ite
    | apply State.bump_only (hp := Foot.sub (by decide) hp) | apply State.invalidate_only (hp := Foot.sub (by decide) hp)
    | apply State.writeTensor_only (hp := Foot.sub (by decide) hp) | apply State.report_only (hp := Foot.sub (by decide) hp) | apply forEach_only
    | apply State.transientUnit_only (hp := Foot.sub (by decide) hp) | apply State.readTensor_only (hp := Foot.sub (by decide) hp) | apply Only.ite
    | split | (intro) | extract_lets

theorem execScrubSlot_only {ps : Nat} {s0 : State} (level : Nat) (unit : Nat) (rd : ReadOutcome) (foregroundWrote : Bool) {s : State} (hp : Foot
    288230376158138576 ps) (hk : Only ps s0 s) : OnlyO ps s0 (execScrubSlot level unit rd foregroundWrote s) := by
  unfold execScrubSlot; with_reducible repeat' first
    | assumption | exact OnlyO.fault _ | exact OnlyO.refused _ | apply OnlyO.next | apply OnlyO.ite
    | apply State.bump_only (hp := Foot.sub (by decide) hp) | apply State.corrected_only (hp := Foot.sub (by decide) hp)
    | refine State.updMem_only (hp := Foot.sub (by decide) hp) (fun _ => rfl) ?_ | apply State.uncorrectable_only (hp := Foot.sub (by decide) hp)
    | apply State.pcError_only (hp := Foot.sub (by decide) hp) | apply Only.ite | split | (intro) | extract_lets

theorem execCalGapStart_only {ps : Nat} {s0 : State} (count : Nat) {s : State} (hp : Foot 129 ps) (hk : Only ps s0 s) : OnlyO ps s0 (execCalGapStart
    count s) := by
  unfold execCalGapStart; with_reducible repeat' first
    | assumption | exact OnlyO.fault _ | exact OnlyO.refused _ | apply OnlyO.next | apply OnlyO.ite
    | apply State.advanceTo_only (hp := Foot.sub (by decide) hp) | refine State.updMem_only (hp := Foot.sub (by decide) hp) (fun _ => rfl) ?_
    | apply Only.ite | split | (intro) | extract_lets

theorem execCalGapEnd_only {ps : Nat} {s0 : State} (failed : List (Nat × Nat)) {s : State} (hp : Foot 4198529 ps) (hk : Only ps s0 s) : OnlyO ps s0
    (execCalGapEnd failed s) := by
  unfold execCalGapEnd; with_reducible repeat' first
    | assumption | exact OnlyO.fault _ | exact OnlyO.refused _ | apply OnlyO.next | apply OnlyO.ite
    | apply State.advanceTo_only (hp := Foot.sub (by decide) hp) | apply State.bump_only (hp := Foot.sub (by decide) hp)
    | refine State.updMem_only (hp := Foot.sub (by decide) hp) (fun _ => rfl) ?_ | apply forEach_only
    | apply State.wantAct_only (hp := Foot.sub (by decide) hp) | apply Only.ite | apply foldl_onlyS | apply foldl_only1 | apply foldl_only2 | split
    | (intro) | extract_lets

theorem onCluster_only {ps : Nat} {s0 : State} (x : Nat) (g : Nat) {r : State} (hk : Only ps s0 r) : OnlyO ps s0 (onCluster x g r) := by
  unfold onCluster; with_reducible repeat' first
    | assumption | exact OnlyO.fault _ | exact OnlyO.refused _ | apply OnlyO.next | apply OnlyO.ite | apply Only.ite | split | (intro) | extract_lets

theorem execOperatorStart_only {ps : Nat} {s0 : State} (x : Nat) (opId : Nat) (g : Nat) {s : State} (hp : Foot 73786976294838207040 ps) (hk : Only ps
    s0 s) : OnlyO ps s0 (execOperatorStart x opId g s) := by
  unfold execOperatorStart; with_reducible repeat' first
    | assumption | exact OnlyO.fault _ | exact OnlyO.refused _ | apply OnlyO.next | apply OnlyO.ite | apply onCluster_only
    | apply State.queueThin_only (hp := Foot.sub (by decide) hp) | apply State.beginOp_only (hp := Foot.sub (by decide) hp) | apply Only.ite
    | split | (intro) | extract_lets

theorem execBatchWaitExpiry_only {ps : Nat} {s0 : State} (g : Nat) {s : State} (hp : Foot 73786976294838207040 ps) (hk : Only ps s0 s) : OnlyO ps s0
    (execBatchWaitExpiry g s) := by
  unfold execBatchWaitExpiry; with_reducible repeat' first
    | assumption | exact OnlyO.fault _ | exact OnlyO.refused _ | apply OnlyO.next | apply OnlyO.ite | apply onCluster_only
    | apply State.launchBatch_only (hp := Foot.sub (by decide) hp) | apply Only.ite | split | (intro) | extract_lets

theorem execSliceStreamDone_only {ps : Nat} {s0 : State} (g : Nat) (opId : Nat) {s : State} (hp : Foot 512 ps) (hk : Only ps s0 s) : OnlyO ps s0
    (execSliceStreamDone g opId s) := by
  unfold execSliceStreamDone; with_reducible repeat' first
    | assumption | exact OnlyO.fault _ | exact OnlyO.refused _ | apply OnlyO.next | apply OnlyO.ite | apply onCluster_only
    | apply State.updCluster_only (hp := Foot.sub (by decide) hp) | apply Only.ite | split | (intro) | extract_lets

theorem execWait_only {ps : Nat} {s0 : State} (c : CoreCmd) (barrier : Nat) {s : State} (hp : Foot 73786976294844629584 ps) (hk : Only ps s0 s) :
    OnlyO ps s0 (execWait c barrier s) := by
  unfold execWait; with_reducible repeat' first
    | assumption | exact OnlyO.fault _ | exact OnlyO.refused _ | apply OnlyO.next | apply OnlyO.ite
    | apply State.launchBatchOf_only (hp := Foot.sub (by decide) hp) | apply State.tryRelease_only (hp := Foot.sub (by decide) hp)
    | apply State.updCluster_only (hp := Foot.sub (by decide) hp) | apply State.updExec_only (hp := Foot.sub (by decide) hp) | apply forEach_only
    | apply State.onCore_only (hp := Foot.sub (by decide) hp) | apply Only.ite | split | (intro) | extract_lets

theorem execOperatorComplete_only {ps : Nat} {s0 : State} (x : Nat) (opId : Nat) (g : Nat) (shadows : List ShadowObs) {s : State} (hp : Foot
    1107236989986866878416 ps) (hk : Only ps s0 s) : OnlyO ps s0 (execOperatorComplete x opId g shadows s) := by
  unfold execOperatorComplete; with_reducible repeat' first
    | assumption | exact OnlyO.fault _ | exact OnlyO.refused _ | apply OnlyO.next | apply OnlyO.ite
    | apply State.stream_only (hp := Foot.sub (by decide) hp) | apply onCluster_only | apply State.captureFor_only (hp := Foot.sub (by decide) hp)
    | apply State.tryRelease_only (hp := Foot.sub (by decide) hp) | apply State.shadowCompare_only (hp := Foot.sub (by decide) hp)
    | apply State.captureImages_only (hp := Foot.sub (by decide) hp) | apply State.updCluster_only (hp := Foot.sub (by decide) hp)
    | apply State.updExec_only (hp := Foot.sub (by decide) hp) | apply forEach_only | apply Only.ite | split | (intro) | extract_lets

theorem execPgoodFall_only {ps : Nat} {s0 : State} {s : State} (hp : Foot 2361183241430561193983 ps) (hk : Only ps s0 s) : OnlyO ps s0 (execPgoodFall
    s) := by
  unfold execPgoodFall; with_reducible repeat' first
    | assumption | exact OnlyO.fault _ | exact OnlyO.refused _ | apply OnlyO.next | apply OnlyO.ite
    | apply State.updPins_only (hp := Foot.sub (by decide) hp) | apply State.powerDown_only (hp := Foot.sub (by decide) hp) | apply Only.ite
    | split | (intro) | extract_lets

theorem execInputUndervoltage_only {ps : Nat} {s0 : State} {s : State} (hp : Foot 2361183241430561193983 ps) (hk : Only ps s0 s) : OnlyO ps s0
    (execInputUndervoltage s) := by
  unfold execInputUndervoltage; with_reducible repeat' first
    | assumption | exact OnlyO.fault _ | exact OnlyO.refused _ | apply OnlyO.next | apply OnlyO.ite
    | apply State.inputTrip_only (hp := Foot.sub (by decide) hp) | apply Only.ite | split | (intro) | extract_lets

theorem execInputOvervoltage_only {ps : Nat} {s0 : State} {s : State} (hp : Foot 2361183241430561193983 ps) (hk : Only ps s0 s) : OnlyO ps s0
    (execInputOvervoltage s) := by
  unfold execInputOvervoltage; with_reducible repeat' first
    | assumption | exact OnlyO.fault _ | exact OnlyO.refused _ | apply OnlyO.next | apply OnlyO.ite
    | apply State.inputTrip_only (hp := Foot.sub (by decide) hp) | apply Only.ite | split | (intro) | extract_lets

theorem execInputCollapse_only {ps : Nat} {s0 : State} {s : State} (hp : Foot 2361183241430561193983 ps) (hk : Only ps s0 s) : OnlyO ps s0
    (execInputCollapse s) := by
  unfold execInputCollapse; with_reducible repeat' first
    | assumption | exact OnlyO.fault _ | exact OnlyO.refused _ | apply OnlyO.next | apply OnlyO.ite
    | apply State.updPins_only (hp := Foot.sub (by decide) hp) | apply State.inputTrip_only (hp := Foot.sub (by decide) hp) | apply Only.ite
    | split | (intro) | extract_lets

theorem execResetNFall_only {ps : Nat} {s0 : State} {s : State} (hp : Foot 34603008 ps) (hk : Only ps s0 s) : OnlyO ps s0 (execResetNFall s) := by
  unfold execResetNFall; with_reducible repeat' first
    | assumption | exact OnlyO.fault _ | exact OnlyO.refused _ | apply OnlyO.next | apply OnlyO.ite
    | apply State.moduleReset_only (hp := Foot.sub (by decide) hp) | apply State.updPins_only (hp := Foot.sub (by decide) hp) | apply Only.ite
    | split | (intro) | extract_lets

theorem execTestEnHigh_only {ps : Nat} {s0 : State} {s : State} (hp : Foot 1048576 ps) (hk : Only ps s0 s) : OnlyO ps s0 (execTestEnHigh s) := by
  unfold execTestEnHigh; with_reducible repeat' first
    | assumption | exact OnlyO.fault _ | exact OnlyO.refused _ | apply OnlyO.next | apply OnlyO.ite
    | apply State.updPins_only (hp := Foot.sub (by decide) hp) | apply Only.ite | split | (intro) | extract_lets

theorem execPciePerstN_only {ps : Nat} {s0 : State} (level : Bool) {s : State} (hp : Foot 3670048 ps) (hk : Only ps s0 s) : OnlyO ps s0
    (execPciePerstN level s) := by
  unfold execPciePerstN; with_reducible repeat' first
    | assumption | exact OnlyO.fault _ | exact OnlyO.refused _ | apply OnlyO.next | apply OnlyO.ite
    | apply State.updPins_only (hp := Foot.sub (by decide) hp) | apply State.mbxReset_only (hp := Foot.sub (by decide) hp)
    | apply State.updMbx_only (hp := Foot.sub (by decide) hp) | apply State.updMgmt_only (hp := Foot.sub (by decide) hp) | apply Only.ite | split
    | (intro) | extract_lets

theorem execPcieLinkUp_only {ps : Nat} {s0 : State} (width : Nat) (rate : Nat) {s : State} (hp : Foot 6422576 ps) (hk : Only ps s0 s) : OnlyO ps s0
    (execPcieLinkUp width rate s) := by
  unfold execPcieLinkUp; with_reducible repeat' first
    | assumption | exact OnlyO.fault _ | exact OnlyO.refused _ | apply OnlyO.next | apply OnlyO.ite
    | apply State.record_only (hp := Foot.sub (by decide) hp) | apply State.updMbx_only (hp := Foot.sub (by decide) hp) | apply Only.ite | split
    | (intro) | extract_lets

theorem execGetVersion_only {ps : Nat} {s0 : State} (r : Req) {s : State} (hp : Foot 8912896 ps) (hk : Only ps s0 s) : OnlyO ps s0 (execGetVersion r
    s) := by
  unfold execGetVersion; with_reducible repeat' first
    | assumption | exact OnlyO.fault _ | exact OnlyO.refused _ | apply OnlyO.next | apply OnlyO.ite
    | apply State.setConn_only (hp := Foot.sub (by decide) hp) | apply State.spdmStep_only (hp := Foot.sub (by decide) hp) | apply Only.ite | split
    | (intro) | extract_lets

theorem execGetCapabilities_only {ps : Nat} {s0 : State} (r : Req) (body : List Byte) {s : State} (hp : Foot 8912896 ps) (hk : Only ps s0 s) : OnlyO
    ps s0 (execGetCapabilities r body s) := by
  unfold execGetCapabilities; with_reducible repeat' first
    | assumption | exact OnlyO.fault _ | exact OnlyO.refused _ | apply OnlyO.next | apply OnlyO.ite
    | apply State.spdmError_only (hp := Foot.sub (by decide) hp) | apply State.spdmIn_only (hp := Foot.sub (by decide) hp)
    | apply State.spdmStep_only (hp := Foot.sub (by decide) hp) | apply Only.ite | split | (intro) | extract_lets

theorem execNegotiateAlgorithms_only {ps : Nat} {s0 : State} (r : Req) (body : List Byte) {s : State} (hp : Foot 8912896 ps) (hk : Only ps s0 s) :
    OnlyO ps s0 (execNegotiateAlgorithms r body s) := by
  unfold execNegotiateAlgorithms; with_reducible repeat' first
    | assumption | exact OnlyO.fault _ | exact OnlyO.refused _ | apply OnlyO.next | apply OnlyO.ite
    | apply State.spdmError_only (hp := Foot.sub (by decide) hp) | apply State.spdmIn_only (hp := Foot.sub (by decide) hp)
    | apply State.spdmStep_only (hp := Foot.sub (by decide) hp) | apply Only.ite | split | (intro) | extract_lets

theorem execGetDigests_only {ps : Nat} {s0 : State} (r : Req) {s : State} (hp : Foot 8912896 ps) (hk : Only ps s0 s) : OnlyO ps s0 (execGetDigests r
    s) := by
  unfold execGetDigests; with_reducible repeat' first
    | assumption | exact OnlyO.fault _ | exact OnlyO.refused _ | apply OnlyO.next | apply OnlyO.ite
    | apply State.spdmIn_only (hp := Foot.sub (by decide) hp) | apply State.spdmStep_only (hp := Foot.sub (by decide) hp) | apply Only.ite | split
    | (intro) | extract_lets

theorem execGetCertificate_only {ps : Nat} {s0 : State} (r : Req) (slot : Nat) (offset : Nat) (length : Nat) {s : State} (hp : Foot 25690112 ps) (hk
    : Only ps s0 s) : OnlyO ps s0 (execGetCertificate r slot offset length s) := by
  unfold execGetCertificate; with_reducible repeat' first
    | assumption | exact OnlyO.fault _ | exact OnlyO.refused _ | apply OnlyO.next | apply OnlyO.ite
    | apply State.spdmError_only (hp := Foot.sub (by decide) hp) | apply State.spdmIn_only (hp := Foot.sub (by decide) hp)
    | apply State.notReadyYet_only (hp := Foot.sub (by decide) hp) | apply State.spdmStep_only (hp := Foot.sub (by decide) hp) | apply Only.ite
    | split | (intro) | extract_lets

theorem execChallenge_only {ps : Nat} {s0 : State} (r : Req) (slot : Nat) (nonce : List Byte) {s : State} (hp : Foot 25690112 ps) (hk : Only ps s0 s)
    : OnlyO ps s0 (execChallenge r slot nonce s) := by
  unfold execChallenge; with_reducible repeat' first
    | assumption | exact OnlyO.fault _ | exact OnlyO.refused _ | apply OnlyO.next | apply OnlyO.ite
    | apply State.spdmError_only (hp := Foot.sub (by decide) hp) | apply State.nonce_only (hp := Foot.sub (by decide) hp)
    | apply State.spdmIn_only (hp := Foot.sub (by decide) hp) | apply State.notReadyYet_only (hp := Foot.sub (by decide) hp)
    | apply State.spdmStep_only (hp := Foot.sub (by decide) hp) | apply Only.ite | split | (intro) | extract_lets

theorem execGetMeasurements_only {ps : Nat} {s0 : State} (r : Req) (index : Nat) (nonce : List Byte) {s : State} (hp : Foot 25690112 ps) (hk : Only
    ps s0 s) : OnlyO ps s0 (execGetMeasurements r index nonce s) := by
  unfold execGetMeasurements; with_reducible repeat' first
    | assumption | exact OnlyO.fault _ | exact OnlyO.refused _ | apply OnlyO.next | apply OnlyO.ite
    | apply State.spdmLate_only (hp := Foot.sub (by decide) hp) | apply State.spdmError_only (hp := Foot.sub (by decide) hp)
    | apply State.nonce_only (hp := Foot.sub (by decide) hp) | apply State.spdmStep_only (hp := Foot.sub (by decide) hp) | apply Only.ite | split
    | (intro) | extract_lets

theorem execKeyExchange_only {ps : Nat} {s0 : State} (r : Req) (reqSessionId : Nat) (body : List Byte) {s : State} (hp : Foot 25690112 ps) (hk : Only
    ps s0 s) : OnlyO ps s0 (execKeyExchange r reqSessionId body s) := by
  unfold execKeyExchange; with_reducible repeat' first
    | assumption | exact OnlyO.fault _ | exact OnlyO.refused _ | apply OnlyO.next | apply OnlyO.ite
    | apply State.spdmLate_only (hp := Foot.sub (by decide) hp) | apply State.updMgmt_only (hp := Foot.sub (by decide) hp)
    | apply State.spdmStep_only (hp := Foot.sub (by decide) hp) | apply Only.ite | split | (intro) | extract_lets

theorem execFinish_only {ps : Nat} {s0 : State} (r : Req) (session : Nat) (body : List Byte) {s : State} (hp : Foot 8912896 ps) (hk : Only ps s0 s) :
    OnlyO ps s0 (execFinish r session body s) := by
  unfold execFinish; with_reducible repeat' first
    | assumption | exact OnlyO.fault _ | exact OnlyO.refused _ | apply OnlyO.next | apply OnlyO.ite
    | apply State.spdmError_only (hp := Foot.sub (by decide) hp) | apply State.spdm_only (hp := Foot.sub (by decide) hp)
    | apply State.updSession_only (hp := Foot.sub (by decide) hp) | apply State.updMgmt_only (hp := Foot.sub (by decide) hp) | apply Only.ite
    | split | (intro) | extract_lets

theorem execKeyUpdate_only {ps : Nat} {s0 : State} (r : Req) (session : Nat) (op : Nat) {s : State} (hp : Foot 8912896 ps) (hk : Only ps s0 s) :
    OnlyO ps s0 (execKeyUpdate r session op s) := by
  unfold execKeyUpdate; with_reducible repeat' first
    | assumption | exact OnlyO.fault _ | exact OnlyO.refused _ | apply OnlyO.next | apply OnlyO.ite
    | apply State.spdmError_only (hp := Foot.sub (by decide) hp) | apply State.inSpdmSession_only (hp := Foot.sub (by decide) hp)
    | apply State.spdm_only (hp := Foot.sub (by decide) hp) | apply State.updSession_only (hp := Foot.sub (by decide) hp) | apply Only.ite | split
    | (intro) | extract_lets

theorem execEndSession_only {ps : Nat} {s0 : State} (r : Req) (session : Nat) {s : State} (hp : Foot 8912896 ps) (hk : Only ps s0 s) : OnlyO ps s0
    (execEndSession r session s) := by
  unfold execEndSession; with_reducible repeat' first
    | assumption | exact OnlyO.fault _ | exact OnlyO.refused _ | apply OnlyO.next | apply OnlyO.ite
    | apply State.inSpdmSession_only (hp := Foot.sub (by decide) hp) | apply State.spdm_only (hp := Foot.sub (by decide) hp)
    | apply State.updMgmt_only (hp := Foot.sub (by decide) hp) | apply Only.ite | split | (intro) | extract_lets

theorem execRespondIfReady_only {ps : Nat} {s0 : State} (r : Req) (token : Nat) {s : State} (hp : Foot 25165824 ps) (hk : Only ps s0 s) : OnlyO ps s0
    (execRespondIfReady r token s) := by
  unfold execRespondIfReady; with_reducible repeat' first
    | assumption | exact OnlyO.fault _ | exact OnlyO.refused _ | apply OnlyO.next | apply OnlyO.ite
    | apply State.notReadyYet_only (hp := Foot.sub (by decide) hp) | apply State.emit_only (hp := Foot.sub (by decide) hp) | apply Only.ite | split
    | (intro) | extract_lets

theorem execTimeLcfSend_only {ps : Nat} {s0 : State} (port : Nat) {s : State} (hp : Foot 8390656 ps) (hk : Only ps s0 s) : OnlyO ps s0
    (execTimeLcfSend port s) := by
  unfold execTimeLcfSend; with_reducible repeat' first
    | assumption | exact OnlyO.fault _ | exact OnlyO.refused _ | apply OnlyO.next | apply OnlyO.ite
    | apply State.sendLcf_only (hp := Foot.sub (by decide) hp) | apply onFabricPort_only | apply State.updPort_only (hp := Foot.sub (by decide) hp)
    | apply Only.ite | split | (intro) | extract_lets

theorem execTimeLcf_only {ps : Nat} {s0 : State} (port : Nat) (flit : BitVec 512) (stamp : Nat) {s : State} (hp : Foot 1180735911827362417745 ps) (hk
    : Only ps s0 s) : OnlyO ps s0 (execTimeLcf port flit stamp s) := by
  unfold execTimeLcf; with_reducible repeat' first
    | assumption | exact OnlyO.fault _ | exact OnlyO.refused _ | apply OnlyO.next | apply OnlyO.ite
    | apply State.acquire_only (hp := Foot.sub (by decide) hp) | apply State.advanceTo_only (hp := Foot.sub (by decide) hp)
    | apply State.updTime_only (hp := Foot.sub (by decide) hp) | apply State.hearRoot_only (hp := Foot.sub (by decide) hp)
    | apply onFabricPort_only | apply State.lcfIn_only (hp := Foot.sub (by decide) hp) | apply State.watch_only (hp := Foot.sub (by decide) hp)
    | apply State.reselect_only (hp := Foot.sub (by decide) hp) | apply State.steer_only (hp := Foot.sub (by decide) hp)
    | apply State.setEvt_only (hp := Foot.sub (by decide) hp) | apply State.updPort_only (hp := Foot.sub (by decide) hp) | apply Only.ite | split
    | (intro) | extract_lets

theorem execOfferExpiry_only {ps : Nat} {s0 : State} (port : Nat) {s : State} (hp : Foot 6424593 ps) (hk : Only ps s0 s) : OnlyO ps s0
    (execOfferExpiry port s) := by
  unfold execOfferExpiry; with_reducible repeat' first
    | assumption | exact OnlyO.fault _ | exact OnlyO.refused _ | apply OnlyO.next | apply OnlyO.ite | apply onFabricPort_only
    | apply State.reselect_only (hp := Foot.sub (by decide) hp) | apply State.updPort_only (hp := Foot.sub (by decide) hp) | apply Only.ite | split
    | (intro) | extract_lets

theorem execRootSeqAdvance_only {ps : Nat} {s0 : State} (count : Nat) {s : State} (hp : Foot 1 ps) (hk : Only ps s0 s) : OnlyO ps s0
    (execRootSeqAdvance count s) := by
  unfold execRootSeqAdvance; with_reducible repeat' first
    | assumption | exact OnlyO.fault _ | exact OnlyO.refused _ | apply OnlyO.next | apply OnlyO.ite
    | apply State.advanceTo_only (hp := Foot.sub (by decide) hp) | apply State.updTime_only (hp := Foot.sub (by decide) hp) | apply Only.ite
    | split | (intro) | extract_lets

theorem execRootClaimTimer_only {ps : Nat} {s0 : State} {s : State} (hp : Foot 6422545 ps) (hk : Only ps s0 s) : OnlyO ps s0 (execRootClaimTimer s)
    := by
  unfold execRootClaimTimer; with_reducible repeat' first
    | assumption | exact OnlyO.fault _ | exact OnlyO.refused _ | apply OnlyO.next | apply OnlyO.ite
    | apply State.reselect_only (hp := Foot.sub (by decide) hp) | apply Only.ite | split | (intro) | extract_lets

theorem execPtpUnlockTimeout_only {ps : Nat} {s0 : State} {s : State} (hp : Foot 6422545 ps) (hk : Only ps s0 s) : OnlyO ps s0 (execPtpUnlockTimeout
    s) := by
  unfold execPtpUnlockTimeout; with_reducible repeat' first
    | assumption | exact OnlyO.fault _ | exact OnlyO.refused _ | apply OnlyO.next | apply OnlyO.ite
    | apply State.updTime_only (hp := Foot.sub (by decide) hp) | apply State.reselect_only (hp := Foot.sub (by decide) hp) | apply Only.ite | split
    | (intro) | extract_lets

theorem execSync_only {ps : Nat} {s0 : State} (port : Nat) (m : PtpMsg) {s : State} (hp : Foot 1180591796639286559825 ps) (hk : Only ps s0 s) : OnlyO
    ps s0 (execSync port m s) := by
  unfold execSync; with_reducible repeat' first
    | assumption | exact OnlyO.fault _ | exact OnlyO.refused _ | apply OnlyO.next | apply OnlyO.ite
    | apply State.updPtp_only (hp := Foot.sub (by decide) hp) | apply State.ptpOffset_only (hp := Foot.sub (by decide) hp) | apply onEdgePort_only
    | apply Only.ite | split | (intro) | extract_lets

theorem execFollowUp_only {ps : Nat} {s0 : State} (port : Nat) (m : PtpMsg) {s : State} (hp : Foot 1180591796639286559825 ps) (hk : Only ps s0 s) :
    OnlyO ps s0 (execFollowUp port m s) := by
  unfold execFollowUp; with_reducible repeat' first
    | assumption | exact OnlyO.fault _ | exact OnlyO.refused _ | apply OnlyO.next | apply OnlyO.ite
    | apply State.updPtp_only (hp := Foot.sub (by decide) hp) | apply State.ptpOffset_only (hp := Foot.sub (by decide) hp) | apply onEdgePort_only
    | apply Only.ite | split | (intro) | extract_lets

theorem execDelayResp_only {ps : Nat} {s0 : State} (port : Nat) (m : PtpMsg) {s : State} (hp : Foot 1180591796639286559825 ps) (hk : Only ps s0 s) :
    OnlyO ps s0 (execDelayResp port m s) := by
  unfold execDelayResp; with_reducible repeat' first
    | assumption | exact OnlyO.fault _ | exact OnlyO.refused _ | apply OnlyO.next | apply OnlyO.ite
    | apply State.updPtp_only (hp := Foot.sub (by decide) hp) | apply State.ptpOffset_only (hp := Foot.sub (by decide) hp) | apply onEdgePort_only
    | apply Only.ite | split | (intro) | extract_lets

theorem execDelayReq_only {ps : Nat} {s0 : State} (port : Nat) (m : PtpMsg) {s : State} (hp : Foot 8388608 ps) (hk : Only ps s0 s) : OnlyO ps s0
    (execDelayReq port m s) := by
  unfold execDelayReq; with_reducible repeat' first
    | assumption | exact OnlyO.fault _ | exact OnlyO.refused _ | apply OnlyO.next | apply OnlyO.ite | apply onEdgePort_only
    | apply State.emit_only (hp := Foot.sub (by decide) hp) | apply Only.ite | split | (intro) | extract_lets

theorem execAnnounce_only {ps : Nat} {s0 : State} (port : Nat) (m : PtpMsg) (a : AnnounceData) {s : State} (hp : Foot 1 ps) (hk : Only ps s0 s) :
    OnlyO ps s0 (execAnnounce port m a s) := by
  unfold execAnnounce; with_reducible repeat' first
    | assumption | exact OnlyO.fault _ | exact OnlyO.refused _ | apply OnlyO.next | apply OnlyO.ite
    | apply State.updTime_only (hp := Foot.sub (by decide) hp) | apply State.updPtp_only (hp := Foot.sub (by decide) hp) | apply onEdgePort_only
    | apply Only.ite | split | (intro) | extract_lets

theorem execAnnounceReceiptTimeout_only {ps : Nat} {s0 : State} (port : Nat) {s : State} (hp : Foot 6422545 ps) (hk : Only ps s0 s) : OnlyO ps s0
    (execAnnounceReceiptTimeout port s) := by
  unfold execAnnounceReceiptTimeout; with_reducible repeat' first
    | assumption | exact OnlyO.fault _ | exact OnlyO.refused _ | apply OnlyO.next | apply OnlyO.ite
    | apply State.updTime_only (hp := Foot.sub (by decide) hp) | apply State.holdover_only (hp := Foot.sub (by decide) hp)
    | apply State.updPtp_only (hp := Foot.sub (by decide) hp) | apply onEdgePort_only | apply Only.ite | split | (intro) | extract_lets

theorem execPtpSyncSend_only {ps : Nat} {s0 : State} (port : Nat) {s : State} (hp : Foot 8388609 ps) (hk : Only ps s0 s) : OnlyO ps s0
    (execPtpSyncSend port s) := by
  unfold execPtpSyncSend; with_reducible repeat' first
    | assumption | exact OnlyO.fault _ | exact OnlyO.refused _ | apply OnlyO.next | apply OnlyO.ite
    | apply State.updPtp_only (hp := Foot.sub (by decide) hp) | apply onEdgePort_only | apply State.emit_only (hp := Foot.sub (by decide) hp)
    | apply Only.ite | split | (intro) | extract_lets

theorem execPtpAnnounceSend_only {ps : Nat} {s0 : State} (port : Nat) {s : State} (hp : Foot 25165825 ps) (hk : Only ps s0 s) : OnlyO ps s0
    (execPtpAnnounceSend port s) := by
  unfold execPtpAnnounceSend; with_reducible repeat' first
    | assumption | exact OnlyO.fault _ | exact OnlyO.refused _ | apply OnlyO.next | apply OnlyO.ite
    | apply State.fresh_only (hp := Foot.sub (by decide) hp) | apply State.updPtp_only (hp := Foot.sub (by decide) hp) | apply onEdgePort_only
    | apply State.emit_only (hp := Foot.sub (by decide) hp) | apply Only.ite | split | (intro) | extract_lets

theorem execPtpDelayReqSend_only {ps : Nat} {s0 : State} (port : Nat) {s : State} (hp : Foot 8388609 ps) (hk : Only ps s0 s) : OnlyO ps s0
    (execPtpDelayReqSend port s) := by
  unfold execPtpDelayReqSend; with_reducible repeat' first
    | assumption | exact OnlyO.fault _ | exact OnlyO.refused _ | apply OnlyO.next | apply OnlyO.ite
    | apply State.updPtp_only (hp := Foot.sub (by decide) hp) | apply onEdgePort_only | apply State.emit_only (hp := Foot.sub (by decide) hp)
    | apply Only.ite | split | (intro) | extract_lets

theorem execVec_only {ps : Nat} {s0 : State} (c : CoreCmd) (first : Nat) (ins : List (List InElem)) (nearOff : Nat) {s : State} (hp : Foot
    73931091482928879056 ps) (hk : Only ps s0 s) : OnlyO ps s0 (execVec c first ins nearOff s) := by
  unfold execVec; with_reducible repeat' first
    | assumption | exact OnlyO.fault _ | exact OnlyO.refused _ | apply OnlyO.next | apply OnlyO.ite
    | apply State.anchorFault_only (hp := Foot.sub (by decide) hp) | apply State.vecStore_only (hp := Foot.sub (by decide) hp)
    | apply State.updExec_only (hp := Foot.sub (by decide) hp) | apply State.addStatus_only (hp := Foot.sub (by decide) hp)
    | apply State.onCore_only (hp := Foot.sub (by decide) hp) | apply Only.ite | split | (intro) | extract_lets

end Sys2Proof.Machine
end

