-- ==== Sys2Proof/Tests/Slice0.lean ====
section
/-!
SUPPORT. The model's own tests: ill-formed terms that well-formedness refuses, the manual's worked examples, and, for every clause of every
statement that has hypotheses, a state and operands that meet them all (`test_meets_<statement>_<clause>`, clauses counted from 0 in the
order the statement writes them).
-/
set_option maxRecDepth 100000
set_option linter.unusedVariables false
set_option Elab.async false
namespace Sys2Proof.Tests
open Sys2Proof Sys2Proof.Machine

/-! ### Ill-formed terms: each check of well-formedness refuses one -/

namespace IllFormed
def h0 : Hdr := ⟨0, 0, 0, 0, 0, 0, false, 0, 0, 0, 0, 0, false, false, 0, 0⟩
def c0 : CoreCmd := ⟨0, 0, 0, 0⟩
def r0 : Req := ⟨0, 0, none, 0⟩
def q0 : SqEntry := ⟨0, 0, 0, 0, 0, 0, 0, List.replicate 32 0, false⟩
def f0 : FaultParam := ⟨0, 0, false, false, 0, 0, 0, 0, 0, 0, 0⟩
def d0 : DataPart := ⟨false, 0, 0, 0, 0, false, List.replicate 1024 0⟩
def p0 : RedPkt := ⟨0, 0, 0, 1, 1, 0, [], [], [], 0⟩
def t0 : TelPkt := ⟨0, 0, 0, 0, false, 0, [], 0⟩
def m0 : ShardMsg := ⟨0, 0, 0, 0, 0, 0, 0, 0, 0, []⟩
def y0 : PtpMsg := ⟨0, 0, 0, 0, 0, false, 0, 0⟩
def a0 : AnnounceData := ⟨0, 0, 0, 0, 0, 0, 0, 0⟩
def e0 : EdgeFrame := ⟨0, 0, false, 0, false, false, 0, false⟩
def k0 : Tile := ⟨0, 0, [], [], [], 0, 0, 0, false, 0, []⟩
def s0 : AnchShare := ⟨[], []⟩
def g0 : Reading := ⟨0, 0, 0, 0, 0⟩
theorem test_base_terms_are_well_formed : h0.wf = true ∧ c0.wf = true ∧ r0.wf = true ∧ q0.wf = true ∧ f0.wf = true ∧ d0.wf = true ∧ p0.wf = true ∧
    t0.wf = true ∧ m0.wf = true ∧ y0.wf = true ∧ a0.wf = true ∧ e0.wf = true ∧ k0.wf = true ∧ s0.wf = true ∧ g0.wf = true := by decide +kernel
theorem test_ill_formed_part_0 :
    ({ h0 with src := 2 ^ 17 } : Hdr).wf = false ∧
    ({ h0 with srcEp := 32 } : Hdr).wf = false ∧
    ({ h0 with dstEp := 32 } : Hdr).wf = false ∧
    ({ h0 with seq := 2 ^ 32 } : Hdr).wf = false ∧
    ({ h0 with incarn := 2 ^ 8 } : Hdr).wf = false ∧
    ({ h0 with injTick := 2 ^ 32 } : Hdr).wf = false ∧
    ({ h0 with domain := 2 ^ 12 } : Hdr).wf = false ∧
    ({ h0 with step := 2 ^ 48 } : Hdr).wf = false ∧
    ({ h0 with attempt := 16 } : Hdr).wf = false ∧
    ({ h0 with layer := 2 ^ 16 } : Hdr).wf = false ∧
    ({ h0 with opId := 2 ^ 32 } : Hdr).wf = false ∧
    ({ h0 with port := 36 } : Hdr).wf = false ∧
    ({ h0 with stamp := 2 ^ 64 } : Hdr).wf = false ∧
    ({ c0 with ctx := 16 } : CoreCmd).wf = false ∧
    ({ c0 with opId := 2 ^ 32 } : CoreCmd).wf = false ∧
    ({ c0 with core := 2 ^ 20 } : CoreCmd).wf = false ∧
    ({ c0 with slot := slotsPerCluster } : CoreCmd).wf = false ∧
    ({ r0 with binding := 2 } : Req).wf = false ∧
    ({ r0 with eid := 2 ^ 8 } : Req).wf = false ∧
    ({ r0 with inst := 32 } : Req).wf = false := by
  decide +kernel
theorem test_ill_formed_part_1 :
    ({ q0 with opcode := 2 ^ 16 } : SqEntry).wf = false ∧
    ({ q0 with flags := 2 ^ 16 } : SqEntry).wf = false ∧
    ({ q0 with seq := 2 ^ 32 } : SqEntry).wf = false ∧
    ({ q0 with ctx := 2 ^ 16 } : SqEntry).wf = false ∧
    ({ q0 with payloadLen := 2 ^ 32 } : SqEntry).wf = false ∧
    ({ q0 with payloadAddr := 2 ^ 64 } : SqEntry).wf = false ∧
    ({ q0 with payloadCrc := 2 ^ 32 } : SqEntry).wf = false ∧
    ({ f0 with kind := 2 ^ 8 } : FaultParam).wf = false ∧
    ({ f0 with source := 2 ^ 8 } : FaultParam).wf = false ∧
    ({ f0 with tileRow := 4 } : FaultParam).wf = false ∧
    ({ f0 with layer := 2 ^ 16 } : FaultParam).wf = false ∧
    ({ f0 with opId := 2 ^ 32 } : FaultParam).wf = false ∧
    ({ f0 with physCore := 2 ^ 21 } : FaultParam).wf = false ∧
    ({ f0 with logicalCore := 2 ^ 20 } : FaultParam).wf = false ∧
    ({ f0 with addr := 2 ^ 48 } : FaultParam).wf = false ∧
    ({ f0 with detail := 2 ^ 32 } : FaultParam).wf = false ∧
    ({ d0 with tensorId := 2 ^ 32 } : DataPart).wf = false ∧
    ({ d0 with addr := 2 ^ 48 } : DataPart).wf = false ∧
    ({ d0 with check := 2 ^ 64 } : DataPart).wf = false ∧
    ({ d0 with part := 4 } : DataPart).wf = false := by
  decide +kernel
theorem test_ill_formed_part_2 :
    ({ p0 with collId := 2 ^ 12 } : RedPkt).wf = false ∧
    ({ p0 with op := 4 } : RedPkt).wf = false ∧
    ({ p0 with form := 4 } : RedPkt).wf = false ∧
    ({ p0 with nb := 0 } : RedPkt).wf = false ∧
    ({ p0 with nb := 9 } : RedPkt).wf = false ∧
    ({ p0 with contrib := 0 } : RedPkt).wf = false ∧
    ({ p0 with contrib := 131073 } : RedPkt).wf = false ∧
    ({ p0 with firstBlock := 2 ^ 43 } : RedPkt).wf = false ∧
    ({ t0 with tree := 2 ^ 12 } : TelPkt).wf = false ∧
    ({ t0 with op := 16 } : TelPkt).wf = false ∧
    ({ t0 with group := 2 ^ 16 } : TelPkt).wf = false ∧
    ({ t0 with contrib := 2 ^ 18 } : TelPkt).wf = false ∧
    ({ t0 with key := 2 ^ 64 } : TelPkt).wf = false ∧
    ({ m0 with gateway := 2 ^ 8 } : ShardMsg).wf = false ∧
    ({ m0 with version := 2 ^ 8 } : ShardMsg).wf = false ∧
    ({ m0 with handle := 2 ^ 32 } : ShardMsg).wf = false ∧
    ({ m0 with participant := 2 ^ 17 } : ShardMsg).wf = false ∧
    ({ m0 with shard := 2 ^ 32 } : ShardMsg).wf = false ∧
    ({ m0 with status := 2 ^ 8 } : ShardMsg).wf = false ∧
    ({ y0 with nanos := 1000000000 } : PtpMsg).wf = false := by
  decide +kernel
theorem test_ill_formed_part_3 :
    ({ y0 with seqId := 2 ^ 16 } : PtpMsg).wf = false ∧
    ({ y0 with domain := 2 ^ 8 } : PtpMsg).wf = false ∧
    ({ a0 with priority1 := 2 ^ 8 } : AnnounceData).wf = false ∧
    ({ a0 with clockClass := 2 ^ 8 } : AnnounceData).wf = false ∧
    ({ a0 with priority2 := 2 ^ 8 } : AnnounceData).wf = false ∧
    ({ a0 with stepsRemoved := 2 ^ 16 } : AnnounceData).wf = false ∧
    ({ e0 with etherType := 2 ^ 16 } : EdgeFrame).wf = false ∧
    ({ e0 with vid := 2 ^ 12 } : EdgeFrame).wf = false ∧
    ({ e0 with dstPort := 2 ^ 16 } : EdgeFrame).wf = false ∧
    ({ k0 with nearOff := 2 ^ 15 } : Tile).wf = false ∧
    ({ r0 with session := some (2 ^ 32) } : Req).wf = false ∧
    ({ q0 with param := List.replicate 31 0 } : SqEntry).wf = false ∧
    ({ d0 with payload := [] } : DataPart).wf = false ∧
    ({ p0 with entries := List.replicate 33 0 } : RedPkt).wf = false ∧
    ({ t0 with entries := List.replicate 257 0 } : TelPkt).wf = false ∧
    ({ m0 with payload := List.replicate 8193 0 } : ShardMsg).wf = false ∧
    (HangUnit.sequencer 4096 0).wf = false ∧
    (HangUnit.sequencer 0 256).wf = false ∧
    (HangUnit.clusterControl 4096).wf = false ∧
    (HangUnit.dma 16).wf = false := by
  decide +kernel
theorem test_ill_formed_part_4 :
    (HangUnit.xpose 16 0).wf = false ∧
    (HangUnit.xpose 0 4).wf = false ∧
    (HangUnit.geyser 16).wf = false ∧
    (HangUnit.square 5).wf = false ∧
    (HangUnit.crossing 4).wf = false ∧
    (HangUnit.port 32).wf = false ∧
    (HangUnit.calCore 2 0).wf = false ∧
    (HangUnit.calCore 0 4).wf = false ∧
    ({ k0 with aRows := [[], [], [], [], []] } : Tile).wf = false ∧
    ({ k0 with bCols := [[], [], [], [], []] } : Tile).wf = false ∧
    ({ k0 with faults := [⟨4, 0, 0⟩] } : Tile).wf = false ∧
    ({ k0 with faults := [⟨0, 5, 0⟩] } : Tile).wf = false ∧
    ({ k0 with faults := [⟨0, 0, 2 ^ 96⟩] } : Tile).wf = false ∧
    ({ s0 with rows := [(2 ^ 32, [])] } : AnchShare).wf = false ∧
    (SendTo.adder 0 0 0 0).wf = false ∧
    (SendTo.squareRaw (2 ^ 12) 0 0).wf = false ∧
    (SendTo.squareRaw 0 0 32).wf = false ∧
    (SendTo.squareVal (2 ^ 12) 0 0 0).wf = false ∧
    (SendTo.squareVal 0 0 32 0).wf = false ∧
    (SendTo.squareVal 0 0 0 (2 ^ 32)).wf = false := by
  decide +kernel
theorem test_ill_formed_part_5 :
    ({ g0 with index := 4096 } : Reading).wf = false ∧
    ({ g0 with cls := 1, index := 36 } : Reading).wf = false ∧
    ({ g0 with cls := 4, index := 1 } : Reading).wf = false ∧
    ({ g0 with cls := 5 } : Reading).wf = false := by
  decide +kernel
theorem test_ill_formed_command_0 :
    (Instr.stepLaunch 16).wf = false ∧
    (Instr.stepConfirmSend 16).wf = false ∧
    (Instr.stepConfirm ({ h0 with src := 2 ^ 17 })).wf = false ∧
    (Instr.commit ({ h0 with src := 2 ^ 17 }) 0 false 0).wf = false ∧
    (Instr.commit h0 (2 ^ 64) false 0).wf = false ∧
    (Instr.commit h0 0 false (2 ^ 32)).wf = false ∧
    (Instr.commitDeadline 16).wf = false ∧
    (Instr.faultReport ({ h0 with src := 2 ^ 17 }) f0).wf = false ∧
    (Instr.faultReport h0 ({ f0 with tileRow := 4 })).wf = false ∧
    (Instr.reexecCollect 16).wf = false ∧
    (Instr.reexec ({ h0 with src := 2 ^ 17 }) 0 0).wf = false ∧
    (Instr.reexec h0 (2 ^ 64) 0).wf = false ∧
    (Instr.reexec h0 0 (2 ^ 32)).wf = false ∧
    (Instr.moduleLost ({ h0 with src := 2 ^ 17 }) 0 0 0).wf = false ∧
    (Instr.moduleLost h0 (2 ^ 17) 0 0).wf = false ∧
    (Instr.moduleLost h0 0 (2 ^ 17) 0).wf = false ∧
    (Instr.moduleLost h0 0 0 (2 ^ 32)).wf = false ∧
    (Instr.anch ({ c0 with slot := 272 }) s0).wf = false ∧
    (Instr.anch c0 ({ s0 with rows := [(2 ^ 32, [])] })).wf = false ∧
    (Instr.mma ({ c0 with slot := 272 }) k0).wf = false ∧
    (Instr.mma c0 ({ k0 with nearOff := 2 ^ 15 })).wf = false ∧
    (Instr.vec ({ c0 with slot := 272 }) 0 [] 0).wf = false ∧
    (Instr.vec c0 (2 ^ 32) [] 0).wf = false ∧
    (Instr.vec c0 0 [] (2 ^ 15)).wf = false := by
  decide +kernel
theorem test_ill_formed_command_1 :
    (Instr.move ({ c0 with slot := 272 }) 0 0 0 (.good)).wf = false ∧
    (Instr.move c0 (2 ^ 48) 0 0 (.good)).wf = false ∧
    (Instr.move c0 0 (2 ^ 48) 0 (.good)).wf = false ∧
    (Instr.move c0 0 0 (2 ^ 48) (.good)).wf = false ∧
    (Instr.send ({ c0 with slot := 272 }) (.squareRaw 0 0 0)).wf = false ∧
    (Instr.send c0 (.adder 0 0 0 0)).wf = false ∧
    (Instr.wait ({ c0 with slot := 272 }) 0).wf = false ∧
    (Instr.wait c0 (2 ^ 16)).wf = false ∧
    (Instr.dma 16 0 0 0 0 (.good)).wf = false ∧
    (Instr.dma 0 (2 ^ 32) 0 0 0 (.good)).wf = false ∧
    (Instr.dma 0 0 (2 ^ 48) 0 0 (.good)).wf = false ∧
    (Instr.dma 0 0 0 (2 ^ 48) 0 (.good)).wf = false ∧
    (Instr.dma 0 0 0 0 (2 ^ 48) (.good)).wf = false ∧
    (Instr.operatorStart 16 0 0).wf = false ∧
    (Instr.operatorStart 0 (2 ^ 32) 0).wf = false ∧
    (Instr.operatorStart 0 0 numClusters).wf = false ∧
    (Instr.operatorComplete 16 0 0 []).wf = false ∧
    (Instr.operatorComplete 0 (2 ^ 32) 0 []).wf = false ∧
    (Instr.operatorComplete 0 0 numClusters []).wf = false ∧
    (Instr.batchWaitExpiry numClusters).wf = false ∧
    (Instr.sliceStreamDone numClusters 0).wf = false ∧
    (Instr.sliceStreamDone 0 (2 ^ 32)).wf = false ∧
    (Instr.xposeJobComplete 16 0 [] (.good)).wf = false ∧
    (Instr.xposeJobComplete 0 4 [] (.good)).wf = false := by
  decide +kernel
theorem test_ill_formed_command_2 :
    (Instr.scrubSlot 3 0 (.good) false).wf = false ∧
    (Instr.calGapStart (2 ^ 64)).wf = false ∧
    (Instr.identify 4).wf = false ∧
    (Instr.attach 4).wf = false ∧
    (Instr.ctxLoad 4).wf = false ∧
    (Instr.ctxArm 4).wf = false ∧
    (Instr.ctxHold 4).wf = false ∧
    (Instr.ctxResume 4).wf = false ∧
    (Instr.ctxTeardown 4).wf = false ∧
    (Instr.tensorWrite 4).wf = false ∧
    (Instr.tensorRead 4 (.good)).wf = false ∧
    (Instr.dumpRequest 4 []).wf = false ∧
    (Instr.fingerprintGet 4).wf = false ∧
    (Instr.policySet 4).wf = false ∧
    (Instr.nop 4).wf = false ∧
    (Instr.commandAccept 4 q0 []).wf = false ∧
    (Instr.commandAccept 0 ({ q0 with param := [] }) []).wf = false ∧
    (Instr.sqDoorbell 4 0).wf = false ∧
    (Instr.sqDoorbell 0 (2 ^ 16)).wf = false ∧
    (Instr.ringEnWrite 4 false).wf = false ∧
    (Instr.cqHeadWrite 4 0).wf = false ∧
    (Instr.cqHeadWrite 0 (2 ^ 16)).wf = false ∧
    (Instr.mbxHeartbeat (2 ^ 64)).wf = false ∧
    (Instr.registerWrite (2 ^ 32) 0).wf = false := by
  decide +kernel
theorem test_ill_formed_command_3 :
    (Instr.registerWrite 0 (2 ^ 32)).wf = false ∧
    (Instr.armed ({ h0 with src := 2 ^ 17 }) 0).wf = false ∧
    (Instr.armed h0 (2 ^ 128)).wf = false ∧
    (Instr.start ({ h0 with src := 2 ^ 17 }) 0 0 0).wf = false ∧
    (Instr.start h0 (2 ^ 64) 0 0).wf = false ∧
    (Instr.start h0 0 (2 ^ 8) 0).wf = false ∧
    (Instr.start h0 0 0 (2 ^ 32)).wf = false ∧
    (Instr.pmap ({ h0 with src := 2 ^ 17 }) 0 0 0).wf = false ∧
    (Instr.pmap h0 16 0 0).wf = false ∧
    (Instr.pmap h0 0 (2 ^ 8192) 0).wf = false ∧
    (Instr.pmap h0 0 0 (2 ^ 32)).wf = false ∧
    (Instr.resume ({ h0 with src := 2 ^ 17 }) 0 0).wf = false ∧
    (Instr.resume h0 (2 ^ 64) 0).wf = false ∧
    (Instr.resume h0 0 (2 ^ 32)).wf = false ∧
    (Instr.hostLoss ({ h0 with src := 2 ^ 17 }) 0).wf = false ∧
    (Instr.hostLoss h0 (2 ^ 64)).wf = false ∧
    (Instr.drain ({ h0 with src := 2 ^ 17 }) 0 0).wf = false ∧
    (Instr.drain h0 (2 ^ 64) 0).wf = false ∧
    (Instr.drain h0 0 (2 ^ 32)).wf = false ∧
    (Instr.drainStart 16).wf = false ∧
    (Instr.drainEnd 16).wf = false ∧
    (Instr.drained ({ h0 with src := 2 ^ 17 })).wf = false ∧
    (Instr.routeBreak ({ h0 with src := 2 ^ 17 }) 0 0 false 0).wf = false ∧
    (Instr.routeBreak h0 4 0 false 0).wf = false := by
  decide +kernel
theorem test_ill_formed_command_4 :
    (Instr.routeBreak h0 0 (2 ^ 6) false 0).wf = false ∧
    (Instr.routeBreak h0 0 0 false (2 ^ 64)).wf = false ∧
    (Instr.routeBreakEffective 4).wf = false ∧
    (Instr.ack ({ h0 with src := 2 ^ 17 }) 0).wf = false ∧
    (Instr.ack h0 (2 ^ 32)).wf = false ∧
    (Instr.notReady ({ h0 with src := 2 ^ 17 }) 0 0).wf = false ∧
    (Instr.notReady h0 (2 ^ 16) 0).wf = false ∧
    (Instr.notReady h0 0 (2 ^ 32)).wf = false ∧
    (Instr.cnEcho ({ h0 with src := 2 ^ 17 }) 0).wf = false ∧
    (Instr.cnEcho h0 8).wf = false ∧
    (Instr.ctrlRetransmit (2 ^ 17) 0 0).wf = false ∧
    (Instr.ctrlRetransmit 0 (2 ^ 5) 0).wf = false ∧
    (Instr.ctrlRetransmit 0 0 (2 ^ 32)).wf = false ∧
    (Instr.limiterIncrease (2 ^ 17) 0).wf = false ∧
    (Instr.limiterIncrease 0 8).wf = false ∧
    (Instr.packetForward 4 0 0 0).wf = false ∧
    (Instr.packetForward 0 35 0 0).wf = false ∧
    (Instr.packetForward 0 0 0 (2 ^ 64)).wf = false ∧
    (Instr.crossingReserve 4 0 0).wf = false ∧
    (Instr.crossingReserve 0 10 0).wf = false ∧
    (Instr.crossingReserve 0 0 8).wf = false ∧
    (Instr.crossingReserveEnd 4 0 0).wf = false ∧
    (Instr.crossingReserveEnd 0 10 0).wf = false ∧
    (Instr.crossingReserveEnd 0 0 8).wf = false := by
  decide +kernel
theorem test_ill_formed_command_5 :
    (Instr.dataPacket ({ h0 with src := 2 ^ 17 }) d0 (.good)).wf = false ∧
    (Instr.dataPacket h0 ({ d0 with part := 4 }) (.good)).wf = false ∧
    (Instr.redUp ({ h0 with src := 2 ^ 17 }) p0).wf = false ∧
    (Instr.redUp h0 ({ p0 with nb := 9 })).wf = false ∧
    (Instr.redDown ({ h0 with src := 2 ^ 17 }) p0).wf = false ∧
    (Instr.redDown h0 ({ p0 with nb := 9 })).wf = false ∧
    (Instr.telUp ({ h0 with src := 2 ^ 17 }) t0).wf = false ∧
    (Instr.telUp h0 ({ t0 with tree := 4096 })).wf = false ∧
    (Instr.telDown ({ h0 with src := 2 ^ 17 }) t0).wf = false ∧
    (Instr.telDown h0 ({ t0 with tree := 4096 })).wf = false ∧
    (Instr.credit 32 0).wf = false ∧
    (Instr.ident 32 0).wf = false ∧
    (Instr.lsmFastRetrain 32 0).wf = false ∧
    (Instr.lsmFullRetrain 32 0).wf = false ∧
    (Instr.lsmWidth4 32 0).wf = false ∧
    (Instr.lsmSpare 32 0).wf = false ∧
    (Instr.lsmGrant 32 0).wf = false ∧
    (Instr.lsmDone 32 0).wf = false ∧
    (Instr.codewordFlagged 32 0 0 false).wf = false ∧
    (Instr.codewordFlagged 0 9 0 false).wf = false ∧
    (Instr.codewordFlagged 0 0 (2 ^ 32) false).wf = false ∧
    (Instr.nakRetry 32).wf = false ∧
    (Instr.lossOfSignal 36 0).wf = false ∧
    (Instr.lossOfSignal 0 9).wf = false := by
  decide +kernel
theorem test_ill_formed_command_6 :
    (Instr.laneCeLimit 32 0).wf = false ∧
    (Instr.laneCeLimit 0 9).wf = false ∧
    (Instr.laneUeLimit 32 0).wf = false ∧
    (Instr.laneUeLimit 0 9).wf = false ∧
    (Instr.portLcfTimeout 32).wf = false ∧
    (Instr.fastRetrainTimeout 32).wf = false ∧
    (Instr.portStart 36).wf = false ∧
    (Instr.partnerReady 36 0).wf = false ∧
    (Instr.partnerReady 0 (2 ^ 9)).wf = false ∧
    (Instr.equaliseDone 32).wf = false ∧
    (Instr.alignDone 32 0).wf = false ∧
    (Instr.alignDone 0 (2 ^ 9)).wf = false ∧
    (Instr.attemptTimeout 32).wf = false ∧
    (Instr.backoffExpiry 32).wf = false ∧
    (Instr.heldExpiry 32).wf = false ∧
    (Instr.heldSignalLoss 32).wf = false ∧
    (Instr.edgeLinkUp 31 false).wf = false ∧
    (Instr.edgeLinkUp 36 false).wf = false ∧
    (Instr.edgeLinkDown 31).wf = false ∧
    (Instr.edgeLinkDown 36).wf = false ∧
    (Instr.edgeFrameReceive 31 e0).wf = false ∧
    (Instr.edgeFrameReceive 36 e0).wf = false ∧
    (Instr.edgeFrameReceive 32 ({ e0 with vid := 4096 })).wf = false ∧
    (Instr.timeLcfSend 32).wf = false := by
  decide +kernel
theorem test_ill_formed_command_7 :
    (Instr.timeLcf 32 0 0).wf = false ∧
    (Instr.timeLcf 0 0 (2 ^ 64)).wf = false ∧
    (Instr.offerExpiry 32).wf = false ∧
    (Instr.rootSeqAdvance (2 ^ 64)).wf = false ∧
    (Instr.sync 31 y0).wf = false ∧
    (Instr.sync 36 y0).wf = false ∧
    (Instr.sync 32 ({ y0 with nanos := 1000000000 })).wf = false ∧
    (Instr.followUp 31 y0).wf = false ∧
    (Instr.followUp 36 y0).wf = false ∧
    (Instr.followUp 32 ({ y0 with nanos := 1000000000 })).wf = false ∧
    (Instr.delayResp 31 y0).wf = false ∧
    (Instr.delayResp 36 y0).wf = false ∧
    (Instr.delayResp 32 ({ y0 with nanos := 1000000000 })).wf = false ∧
    (Instr.delayReq 31 y0).wf = false ∧
    (Instr.delayReq 36 y0).wf = false ∧
    (Instr.delayReq 32 ({ y0 with nanos := 1000000000 })).wf = false ∧
    (Instr.announce 31 y0 a0).wf = false ∧
    (Instr.announce 36 y0 a0).wf = false ∧
    (Instr.announce 32 ({ y0 with nanos := 1000000000 }) a0).wf = false ∧
    (Instr.announce 32 y0 ({ a0 with stepsRemoved := 2 ^ 16 })).wf = false ∧
    (Instr.ptpSyncSend 31).wf = false ∧
    (Instr.ptpSyncSend 36).wf = false ∧
    (Instr.ptpAnnounceSend 31).wf = false ∧
    (Instr.ptpAnnounceSend 36).wf = false := by
  decide +kernel
theorem test_ill_formed_command_8 :
    (Instr.ptpDelayReqSend 31).wf = false ∧
    (Instr.ptpDelayReqSend 36).wf = false ∧
    (Instr.hangWindowExpiry (.port 32)).wf = false ∧
    (Instr.partitionRefillDone 16).wf = false ∧
    (Instr.dieLinkFail 4).wf = false ∧
    (Instr.calHalfFault 2 0).wf = false ∧
    (Instr.calHalfFault 0 (2 ^ 8)).wf = false ∧
    (Instr.calOwnAcquire 2).wf = false ∧
    (Instr.coordBeatSend 16).wf = false ∧
    (Instr.coordBeat ({ h0 with src := 2 ^ 17 }) 0 0).wf = false ∧
    (Instr.coordBeat h0 (2 ^ 64) 0).wf = false ∧
    (Instr.coordBeat h0 0 (2 ^ 32)).wf = false ∧
    (Instr.leaseEnd 16).wf = false ∧
    (Instr.leaseExpiry 16).wf = false ∧
    (Instr.interlockStuck 16).wf = false ∧
    (Instr.takeover ({ h0 with src := 2 ^ 17 }) 0 0).wf = false ∧
    (Instr.takeover h0 (2 ^ 17) 0).wf = false ∧
    (Instr.takeover h0 0 (2 ^ 32)).wf = false ∧
    (Instr.takeoverState ({ h0 with src := 2 ^ 17 }) 0 false false false false 0 0).wf = false ∧
    (Instr.takeoverState h0 16 false false false false 0 0).wf = false ∧
    (Instr.takeoverState h0 0 false false false false (2 ^ 64) 0).wf = false ∧
    (Instr.takeoverState h0 0 false false false false 0 (2 ^ 32)).wf = false ∧
    (Instr.takeoverStateTimeout 16 0).wf = false ∧
    (Instr.takeoverStateTimeout 0 (2 ^ 17)).wf = false := by
  decide +kernel
theorem test_ill_formed_command_9 :
    (Instr.probe ({ h0 with src := 2 ^ 17 }) 0).wf = false ∧
    (Instr.probe h0 (2 ^ 32)).wf = false ∧
    (Instr.probeReply ({ h0 with src := 2 ^ 17 }) 0 0 0).wf = false ∧
    (Instr.probeReply h0 16 0 0).wf = false ∧
    (Instr.probeReply h0 0 (2 ^ 8) 0).wf = false ∧
    (Instr.probeReply h0 0 0 (2 ^ 4)).wf = false ∧
    (Instr.probeTimeout 16 0).wf = false ∧
    (Instr.probeTimeout 0 (2 ^ 17)).wf = false ∧
    (Instr.stepHold ({ h0 with src := 2 ^ 17 }) 0 0).wf = false ∧
    (Instr.stepHold h0 (2 ^ 8) 0).wf = false ∧
    (Instr.stepHold h0 0 (2 ^ 32)).wf = false ∧
    (Instr.selfLost ({ h0 with src := 2 ^ 17 }) 0).wf = false ∧
    (Instr.selfLost h0 (2 ^ 8)).wf = false ∧
    (Instr.recoveryNotice ({ h0 with src := 2 ^ 17 }) 0 0).wf = false ∧
    (Instr.recoveryNotice h0 16 0).wf = false ∧
    (Instr.recoveryNotice h0 0 (2 ^ 64)).wf = false ∧
    (Instr.geyBind ({ h0 with src := 2 ^ 17 }) 0).wf = false ∧
    (Instr.geyBind h0 (2 ^ 32)).wf = false ∧
    (Instr.geyBindReply ({ h0 with src := 2 ^ 17 }) false 0).wf = false ∧
    (Instr.geyBindReply h0 false (2 ^ 32)).wf = false ∧
    (Instr.geyBindRetry 16).wf = false ∧
    (Instr.geyBindTimeout 16).wf = false ∧
    (Instr.geySpareReady ({ h0 with src := 2 ^ 17 }) 0).wf = false ∧
    (Instr.geySpareReady h0 (2 ^ 32)).wf = false := by
  decide +kernel
theorem test_ill_formed_command_10 :
    (Instr.geyTake ({ h0 with src := 2 ^ 17 }) 0 0 0).wf = false ∧
    (Instr.geyTake h0 (2 ^ 17) 0 0).wf = false ∧
    (Instr.geyTake h0 0 (2 ^ 17) 0).wf = false ∧
    (Instr.geyTake h0 0 0 (2 ^ 32)).wf = false ∧
    (Instr.takeCopyComplete 16).wf = false ∧
    (Instr.geyTakeDone ({ h0 with src := 2 ^ 17 }) 0).wf = false ∧
    (Instr.geyTakeDone h0 (2 ^ 64)).wf = false ∧
    (Instr.geyReseed ({ h0 with src := 2 ^ 17 }) 0).wf = false ∧
    (Instr.geyReseed h0 (2 ^ 16)).wf = false ∧
    (Instr.geyFetch ({ h0 with src := 2 ^ 17 }) 0 0).wf = false ∧
    (Instr.geyFetch h0 (2 ^ 32) 0).wf = false ∧
    (Instr.geyFetch h0 0 (2 ^ 32)).wf = false ∧
    (Instr.geyCkpt ({ h0 with src := 2 ^ 17 }) 0).wf = false ∧
    (Instr.geyCkpt h0 (2 ^ 32)).wf = false ∧
    (Instr.geyCkptDone ({ h0 with src := 2 ^ 17 }) 0).wf = false ∧
    (Instr.geyCkptDone h0 (2 ^ 8)).wf = false ∧
    (Instr.ckptTimeout 16).wf = false ∧
    (Instr.geyRestore ({ h0 with src := 2 ^ 17 }) 0 0).wf = false ∧
    (Instr.geyRestore h0 (2 ^ 32) 0).wf = false ∧
    (Instr.geyRestore h0 0 (2 ^ 32)).wf = false ∧
    (Instr.restoreComplete 16).wf = false ∧
    (Instr.geyRestored ({ h0 with src := 2 ^ 17 }) 0 0).wf = false ∧
    (Instr.geyRestored h0 (2 ^ 8) 0).wf = false ∧
    (Instr.geyRestored h0 0 (2 ^ 64)).wf = false := by
  decide +kernel
theorem test_ill_formed_command_11 :
    (Instr.openReply ({ m0 with handle := 2 ^ 32 })).wf = false ∧
    (Instr.shardData ({ m0 with handle := 2 ^ 32 })).wf = false ∧
    (Instr.dack ({ m0 with handle := 2 ^ 32 })).wf = false ∧
    (Instr.closeReply ({ m0 with handle := 2 ^ 32 })).wf = false ∧
    (Instr.fetchReply ({ m0 with handle := 2 ^ 32 })).wf = false ∧
    (Instr.shardRto (2 ^ 32)).wf = false ∧
    (Instr.dackTimer (2 ^ 32)).wf = false ∧
    (Instr.gwDownExpiry (2 ^ 8)).wf = false ∧
    (Instr.sampleLatch (2 ^ 64) []).wf = false ∧
    (Instr.telSendBy 4096 0 0 0).wf = false ∧
    (Instr.telSendBy 0 (2 ^ 16) 0 0).wf = false ∧
    (Instr.telSendBy 0 0 (2 ^ 64) 0).wf = false ∧
    (Instr.telSendBy 0 0 0 16).wf = false ∧
    (Instr.telFinalize 4096 0 0 0).wf = false ∧
    (Instr.telFinalize 0 (2 ^ 16) 0 0).wf = false ∧
    (Instr.telFinalize 0 0 (2 ^ 64) 0).wf = false ∧
    (Instr.telFinalize 0 0 0 16).wf = false ∧
    (Instr.telSlotRelease 4096 0 0).wf = false ∧
    (Instr.telSlotRelease 0 (2 ^ 16) 0).wf = false ∧
    (Instr.telSlotRelease 0 0 (2 ^ 64)).wf = false ∧
    (Instr.subscribe 31 0 0 0 0 []).wf = false ∧
    (Instr.subscribe 36 0 0 0 0 []).wf = false ∧
    (Instr.subscribe 32 (2 ^ 128) 0 0 0 []).wf = false ∧
    (Instr.subscribe 32 0 (2 ^ 16) 0 0 []).wf = false := by
  decide +kernel
theorem test_ill_formed_command_12 :
    (Instr.subscribe 32 0 0 (2 ^ 16) 0 []).wf = false ∧
    (Instr.subscribe 32 0 0 0 (2 ^ 8) []).wf = false ∧
    (Instr.unsubscribe (2 ^ 128) 0 0).wf = false ∧
    (Instr.unsubscribe 0 (2 ^ 16) 0).wf = false ∧
    (Instr.unsubscribe 0 0 (2 ^ 16)).wf = false ∧
    (Instr.subscriptionLeaseEnd (2 ^ 128) 0 0).wf = false ∧
    (Instr.subscriptionLeaseEnd 0 (2 ^ 16) 0).wf = false ∧
    (Instr.subscriptionLeaseEnd 0 0 (2 ^ 16)).wf = false ∧
    (Instr.recordAged (2 ^ 128) 0 0 0).wf = false ∧
    (Instr.recordAged 0 (2 ^ 16) 0 0).wf = false ∧
    (Instr.recordAged 0 0 (2 ^ 16) 0).wf = false ∧
    (Instr.recordAged 0 0 0 (2 ^ 32)).wf = false ∧
    (Instr.evrRecordClose (2 ^ 32)).wf = false ∧
    (Instr.evrInfo ({ r0 with binding := 2 })).wf = false ∧
    (Instr.evrFreeze ({ r0 with binding := 2 })).wf = false ∧
    (Instr.evrRead ({ r0 with binding := 2 }) 0 0 0).wf = false ∧
    (Instr.evrRead r0 (2 ^ 32) 0 0).wf = false ∧
    (Instr.evrRead r0 0 (2 ^ 16) 0).wf = false ∧
    (Instr.evrRead r0 0 0 (2 ^ 2)).wf = false ∧
    (Instr.evrRelease ({ r0 with binding := 2 })).wf = false ∧
    (Instr.evrClear ({ r0 with binding := 2 }) 0 0).wf = false ∧
    (Instr.evrClear r0 (2 ^ 32) 0).wf = false ∧
    (Instr.evrClear r0 0 (2 ^ 2)).wf = false ∧
    (Instr.ledgerUpdate 36 0 0).wf = false := by
  decide +kernel
theorem test_ill_formed_command_13 :
    (Instr.ledgerUpdate 0 (2 ^ 16) 0).wf = false ∧
    (Instr.ledgerUpdate 0 0 (2 ^ 32)).wf = false ∧
    (Instr.pwrGrant ({ r0 with binding := 2 }) 0 0 0).wf = false ∧
    (Instr.pwrGrant r0 16 0 0).wf = false ∧
    (Instr.pwrGrant r0 0 (2 ^ 64) 0).wf = false ∧
    (Instr.pwrGrant r0 0 0 (2 ^ 64)).wf = false ∧
    (Instr.pwrCeiling ({ r0 with binding := 2 }) 0).wf = false ∧
    (Instr.pwrCeiling r0 (2 ^ 32)).wf = false ∧
    (Instr.pwrDemand ({ r0 with binding := 2 }) 0).wf = false ∧
    (Instr.pwrDemand r0 16).wf = false ∧
    (Instr.vcoreUndervoltage 16).wf = false ∧
    (Instr.frequencyMargin 16 0).wf = false ∧
    (Instr.frequencyMargin 0 (2 ^ 16)).wf = false ∧
    (Instr.tjThrottle 16 0).wf = false ∧
    (Instr.tjThrottle 0 (2 ^ 16)).wf = false ∧
    (Instr.tjTrip 16 0).wf = false ∧
    (Instr.tjTrip 0 (2 ^ 16)).wf = false ∧
    (Instr.railOvervoltage 36 0).wf = false ∧
    (Instr.railOvervoltage 0 (2 ^ 16)).wf = false ∧
    (Instr.inputPowerLimit (2 ^ 32)).wf = false ∧
    (Instr.comparatorRelease 6 0).wf = false ∧
    (Instr.phaseRetire 36 0 0).wf = false ∧
    (Instr.phaseRetire 0 0 (2 ^ 8)).wf = false ∧
    (Instr.railPowerGood 0).wf = false := by
  decide +kernel
theorem test_ill_formed_command_14 :
    (Instr.railPowerGood 6).wf = false ∧
    (Instr.locusAssign ({ r0 with binding := 2 }) 0).wf = false ∧
    (Instr.locusAssign r0 (2 ^ 32)).wf = false ∧
    (Instr.mbIdentify ({ r0 with binding := 2 })).wf = false ∧
    (Instr.idAccept ({ r0 with binding := 2 }) 0 0).wf = false ∧
    (Instr.idAccept r0 (2 ^ 8) 0).wf = false ∧
    (Instr.idAccept r0 0 (2 ^ 32)).wf = false ∧
    (Instr.idStatus ({ r0 with binding := 2 })).wf = false ∧
    (Instr.imgBegin ({ r0 with binding := 2 }) 0).wf = false ∧
    (Instr.imgBegin r0 (2 ^ 32)).wf = false ∧
    (Instr.imgWrite ({ r0 with binding := 2 }) 0 []).wf = false ∧
    (Instr.imgWrite r0 (2 ^ 32) []).wf = false ∧
    (Instr.imgCommit ({ r0 with binding := 2 })).wf = false ∧
    (Instr.imgAbort ({ r0 with binding := 2 })).wf = false ∧
    (Instr.imgStatus ({ r0 with binding := 2 })).wf = false ∧
    (Instr.secverAdvance ({ r0 with binding := 2 }) 0).wf = false ∧
    (Instr.secverAdvance r0 (2 ^ 8)).wf = false ∧
    (Instr.ownerProvision ({ r0 with binding := 2 }) [] []).wf = false ∧
    (Instr.moduleReset ({ r0 with binding := 2 })).wf = false ∧
    (Instr.ctxResumeReq ({ r0 with binding := 2 }) 0).wf = false ∧
    (Instr.ctxResumeReq r0 16).wf = false ∧
    (Instr.geyRestoreReq ({ r0 with binding := 2 }) 0 0 0).wf = false ∧
    (Instr.geyRestoreReq r0 16 0 0).wf = false ∧
    (Instr.geyRestoreReq r0 0 (2 ^ 32) 0).wf = false := by
  decide +kernel
theorem test_ill_formed_command_15 :
    (Instr.geyRestoreReq r0 0 0 (2 ^ 48)).wf = false ∧
    (Instr.getTid ({ r0 with binding := 2 })).wf = false ∧
    (Instr.getPldmVersion ({ r0 with binding := 2 }) 0).wf = false ∧
    (Instr.getPldmVersion r0 (2 ^ 8)).wf = false ∧
    (Instr.getPldmTypes ({ r0 with binding := 2 })).wf = false ∧
    (Instr.getPldmCommands ({ r0 with binding := 2 }) 0).wf = false ∧
    (Instr.getPldmCommands r0 (2 ^ 8)).wf = false ∧
    (Instr.getPdr ({ r0 with binding := 2 }) 0).wf = false ∧
    (Instr.getPdr r0 (2 ^ 32)).wf = false ∧
    (Instr.getSensorReading ({ r0 with binding := 2 }) 0).wf = false ∧
    (Instr.getSensorReading r0 (2 ^ 16)).wf = false ∧
    (Instr.getStateSensorReadings ({ r0 with binding := 2 }) 0).wf = false ∧
    (Instr.getStateSensorReadings r0 (2 ^ 16)).wf = false ∧
    (Instr.pldmFullRetrain ({ r0 with binding := 2 }) 0).wf = false ∧
    (Instr.pldmFullRetrain r0 36).wf = false ∧
    (Instr.releaseHold ({ r0 with binding := 2 }) 0).wf = false ∧
    (Instr.releaseHold r0 36).wf = false ∧
    (Instr.alignRetry ({ r0 with binding := 2 })).wf = false ∧
    (Instr.regRead ({ r0 with binding := 2 }) 0 0 0 0).wf = false ∧
    (Instr.regRead r0 (2 ^ 32) 0 0 0).wf = false ∧
    (Instr.regRead r0 0 (2 ^ 16) 0 0).wf = false ∧
    (Instr.regRead r0 0 0 (2 ^ 32) 0).wf = false ∧
    (Instr.regRead r0 0 0 0 (2 ^ 32)).wf = false ∧
    (Instr.regW1c ({ r0 with binding := 2 }) 0 0 0 0).wf = false := by
  decide +kernel
theorem test_ill_formed_command_16 :
    (Instr.regW1c r0 (2 ^ 32) 0 0 0).wf = false ∧
    (Instr.regW1c r0 0 (2 ^ 16) 0 0).wf = false ∧
    (Instr.regW1c r0 0 0 (2 ^ 32) 0).wf = false ∧
    (Instr.regW1c r0 0 0 0 (2 ^ 32)).wf = false ∧
    (Instr.setEndpointId 2 0).wf = false ∧
    (Instr.setEndpointId 0 (2 ^ 8)).wf = false ∧
    (Instr.getEndpointId 2).wf = false ∧
    (Instr.getMctpVersionSupport ({ r0 with binding := 2 }) 0).wf = false ∧
    (Instr.getMctpVersionSupport r0 (2 ^ 8)).wf = false ∧
    (Instr.getMessageTypeSupport ({ r0 with binding := 2 })).wf = false ∧
    (Instr.getVendorDefinedMessageSupport ({ r0 with binding := 2 }) 0).wf = false ∧
    (Instr.getVendorDefinedMessageSupport r0 (2 ^ 8)).wf = false ∧
    (Instr.getVersion ({ r0 with binding := 2 })).wf = false ∧
    (Instr.getCapabilities ({ r0 with binding := 2 }) []).wf = false ∧
    (Instr.negotiateAlgorithms ({ r0 with binding := 2 }) []).wf = false ∧
    (Instr.getDigests ({ r0 with binding := 2 })).wf = false ∧
    (Instr.getCertificate ({ r0 with binding := 2 }) 0 0 0).wf = false ∧
    (Instr.getCertificate r0 (2 ^ 4) 0 0).wf = false ∧
    (Instr.getCertificate r0 0 (2 ^ 32) 0).wf = false ∧
    (Instr.getCertificate r0 0 0 (2 ^ 32)).wf = false ∧
    (Instr.challenge ({ r0 with binding := 2 }) 0 []).wf = false ∧
    (Instr.challenge r0 (2 ^ 4) []).wf = false ∧
    (Instr.getMeasurements ({ r0 with binding := 2 }) 0 []).wf = false ∧
    (Instr.getMeasurements r0 (2 ^ 16) []).wf = false := by
  decide +kernel
theorem test_ill_formed_command_17 :
    (Instr.keyExchange ({ r0 with binding := 2 }) 0 []).wf = false ∧
    (Instr.keyExchange r0 (2 ^ 16) []).wf = false ∧
    (Instr.pcieLinkUp (2 ^ 8) 0).wf = false ∧
    (Instr.pcieLinkUp 0 (2 ^ 8)).wf = false ∧
    (Instr.dynamicAddressAssignment (2 ^ 7)).wf = false ∧
    (Instr.finish ({ r0 with binding := 2 }) 0 []).wf = false ∧
    (Instr.finish r0 (2 ^ 32) []).wf = false ∧
    (Instr.keyUpdate ({ r0 with binding := 2 }) 0 0).wf = false ∧
    (Instr.keyUpdate r0 (2 ^ 32) 0).wf = false ∧
    (Instr.keyUpdate r0 0 (2 ^ 8)).wf = false ∧
    (Instr.endSession ({ r0 with binding := 2 }) 0).wf = false ∧
    (Instr.endSession r0 (2 ^ 32)).wf = false ∧
    (Instr.respondIfReady ({ r0 with binding := 2 }) 0).wf = false ∧
    (Instr.respondIfReady r0 (2 ^ 8)).wf = false ∧
    (Instr.announceReceiptTimeout 31).wf = false ∧
    (Instr.announceReceiptTimeout 36).wf = false ∧
    (Instr.actionBoundExpiry (.port 32) 0).wf = false ∧
    (Instr.actionBoundExpiry (.square 0) (2 ^ 4)).wf = false ∧
    (Instr.busyRetryDelayExpiry (2 ^ 32)).wf = false ∧
    (Instr.scrubSlot 0 256 .good false).wf = false ∧
    (Instr.calGapEnd [(16, 0)]).wf = false ∧
    (Instr.calGapEnd [(0, 16)]).wf = false ∧
    (Instr.packetForward 0 8 0 0).wf = false ∧
    (Instr.sampleLatch 0 [{ g0 with index := 4096 }]).wf = false := by
  decide +kernel
theorem test_ill_formed_command_18 :
    (Instr.sampleMissed 1 36).wf = false ∧
    (Instr.comparatorRelease 4 36).wf = false ∧
    (Instr.comparatorRelease 5 1).wf = false ∧
    (Instr.comparatorRelease 0 16).wf = false ∧
    (Instr.phaseRetire 0 8 0).wf = false ∧
    (Instr.phaseRetire 16 6 0).wf = false ∧
    (Instr.phaseRetire 20 4 0).wf = false ∧
    (Instr.phaseRetire 34 2 0).wf = false ∧
    (Instr.runEntry [(4096, 0)]).wf = false ∧
    (Instr.runEntry [(0, 272)]).wf = false := by
  decide +kernel
end IllFormed

/-! ### States and operands the witnesses are built from -/

def ringU : Ring := { Ring.reset with sqBase := 0x10000, cqBase := 0x20000, log2 := 4, en := true }
def run0 : State := { State.reset with
  pins := { Pins.reset with pgood := true, resetN := true, perstN := true, groups := 31 }
  id := { Ident.reset with cal := .run, locus := some 1, booted := some 0, opticsAt := some 5, counted := true, secVersion := 3, fwMajor := 1 }
  cal := { Cal.reset with owner := some 0, okA := true, okB := true, last := some 0 }
  time := { Time.reset with loc := 10000000, st := 2, fc := 5000000, root := 9 }
  mgmt := { Mgmt.reset with i3cAddr := some 8, eidI3c := 9, eidVdm := 10 }
  mbx := { Mbx.reset with enable := true, attached := true, ready := true, linkUp := true, busMaster := true, width := 16, rate := 5,
                          highSeq := 4, rings := [(0, ringU), (1, ringU), (2, ringU), (3, ringU)] } }
def desc (form coordA coordB buddy : Nat) : List Byte :=
  leBytes 4 77 ++ leBytes 2 6 ++ leBytes 1 form ++ leBytes 1 0 ++ leBytes 4 2 ++ leBytes 8 99 ++ leBytes 6 1 ++ leBytes 2 0 ++ leBytes 4 coordA ++ leBytes 4 coordB ++
  leBytes 4 buddy ++ leBytes 8 100000 ++ List.replicate 80 0#8
def ctx0 : Ctx := { Ctx.reset with st := .running, mask := 1, desc := desc 0 1 2 3, pmap := [1, 3], coordLocus := 1, step := 5, attempt := 1, committed := some 4, launch := some 6000000 }
def withCtx (s : State) (x : Nat) (c : Ctx) : State := { s with ctxs := KMap.put s.ctxs x c }
def e (op : Nat) (ctx : Nat := 0) (par : List Byte := []) (len : Nat := 0) (fl : Nat := 0) : SqEntry :=
  { opcode := op, flags := fl, seq := 5, ctx, payloadLen := len, payloadAddr := 0x7000, payloadCrc := 0, param := fitBytes 32 par, rsvSet := false }
def stg (e : SqEntry) (pl : List Byte := []) : Staged := ⟨e, false, none, pl⟩
def onR (s : State) (n : Nat) (a : Staged) : State := { s with mbx := { s.mbx with rings := KMap.put s.mbx.rings n { s.ring n with cur := some a } } }
def hdr (src : Nat) (step := 5) (attempt := 1) (seq := 7) : Hdr := { src, srcEp := 16, dstEp := 16, seq, incarn := 0, injTick := 0, tv := false, domain := 6, step, attempt, layer := 0, opId := 0, cm := false, echo := false, port := 33, stamp := 5000100 }
def req : Req := ⟨0, 9, none, 3⟩
def tA : Tensor := { tensorId := 10, format := 3, rank := 2, order := 0, persistent := true, hostIo := true, dims := [2, 4096], base := 0, scaleId := 0, metaId := 0, rsvSet := false }
def tB : Tensor := { tensorId := 11, format := 3, rank := 2, order := 0, persistent := false, hostIo := true, dims := [1, 4096], base := 0x4000, scaleId := 0, metaId := 0, rsvSet := false }
def tC : Tensor := { tensorId := 12, format := 3, rank := 2, order := 0, persistent := false, hostIo := false, dims := [64, 64], base := 0x8000, scaleId := 0, metaId := 0, rsvSet := false }
def tD : Tensor := { tensorId := 13, format := 0, rank := 2, order := 0, persistent := false, hostIo := false, dims := [64, 64], base := 0xA000, scaleId := 0, metaId := 0, rsvSet := false }
def prog0 : Program := { arithRev := 2, deadline := 70000, tensors := [tA, tB, tC, tD], operators := [], deps := [], barriers := [], collectives := [] }
def ctxP (st : CtxSt) : Ctx := { ctx0 with st, prog := some prog0, imageLen := 4096 }
def fresh (st : CtxSt) : Ctx := { Ctx.reset with st, mask := 1, prog := some prog0, imageLen := 4096, partCount := 1, received := [0] }
def op1 : OpDesc := { opId := 5, layer := 2, kind := .mma, inputs := [12, 12], output := 12, placement := 1 * 2 ^ 16, depOff := 0, attr := 3 * 2 ^ 28, coll := none }
def opV : OpDesc := { opId := 6, layer := 2, kind := .add, inputs := [12, 12], output := 12, placement := 2 * 2 ^ 16, depOff := 0, attr := 3 * 2 ^ 28, coll := none }
def opX : OpDesc := { opId := 7, layer := 2, kind := .xpose [1, 0, 2, 3], inputs := [12], output := 14, placement := 1 * 2 ^ 16, depOff := 0, attr := 3 * 2 ^ 28, coll := none }
def opM : OpDesc := { opId := 8, layer := 2, kind := .move, inputs := [12], output := 14, placement := 1 * 2 ^ 16, depOff := 0, attr := 3 * 2 ^ 28, coll := none }
def opF : OpDesc := { op1 with opId := 9, attr := 3 * 2 ^ 28 + 2 * 2 ^ 26 }
def tE : Tensor := { tC with tensorId := 14, base := 0xC000 }
def prog1 : Program := { prog0 with tensors := [tA, tB, tC, tD, tE], operators := [op1, opV, opX, opM, opF], deps := [[], [], [], [], []] }
def ctxR : Ctx := { ctxP .running with prog := some prog1, launched := true, launch := some 4000000 }
def cmd (op : Nat) : CoreCmd := ⟨0, op, 3, 3⟩
def core : State := withCtx run0 0 ctxR
def el (n : Nat) : InElem := ⟨n, 0⟩
def tile0 (raw : Bool) : Tile := { blockRow := 0, blockCol := 0, aRows := (List.range 4).map (fun r => (List.range 8).map (fun i => el (0x38 + r + i))), bCols := (List.range 4).map (fun r => (List.range 8).map (fun i => el (0x30 + 3 * r + i))), nibbles := [], operandBubbles := 1, anchorBubbles := 2, sliceBubbles := 0, raw, nearOff := 64, faults := [] }
def share0 : AnchShare := ⟨(List.range 4).map (fun r => (r, (List.range 8).map (fun i => el (0x38 + r + i)))), (List.range 8).map (fun i => (List.range 4).map (fun r => el (0x30 + 3 * r + i)))⟩
def cfgBlob (s : State) (id : Nat) (b : List Byte) : State := { s with cfg := { s.cfg with blob := KMap.put s.cfg.blob id b } }
def cl1 : Collective := { collId := 4, op := 0, inForm := 0, inTensor := 13, outTensor := 99, blocks := 128, waveBlocks := 64, rootLocus := 1, rsvSet := false }
def prog2 : Program := { prog1 with collectives := [cl1] }
def ctxC : Ctx := { ctxR with prog := some prog2, pmap := [1, 2, 3, 17] }
def coll : State := withCtx run0 0 ctxC
def red0 (blk : Nat := 0) : RedPkt := ⟨4, 0, 0, 1, 2, blk, [7], List.range 32, List.replicate 32 0, 0⟩
def mkF (kind : Nat) (body : Nat) (lseq := 0) (ack := 0) : BitVec 512 := let w := field kind 4 508 + field lseq 24 484 + field ack 24 460 + body; BitVec.ofNat 512 (w + lcfCrc w)
def prt (s : State) (p : Nat) (f : Port → Port) : State := { s with ports := KMap.put s.ports p (f (s.port p)) }
def pUp (p : Port) : Port := { p with st := .up, lanesOk := 0x1FF, lanes := [0,1,2,3,4,5,6,7], spare := some 8, width := 8, dir := 0, rank := 1, size := 4, accepted := true, peerSeen := true, remoteLocus := 2 }
def pS (st : PortSt) (p : Port) : Port := { pUp p with st }
def cfgSet (s : State) (l : List (Nat × Int)) : State :=
  { s with cfg := { s.cfg with scal := l.foldl (fun m e => KMap.put m e.1 e.2) s.cfg.scal } }
def nxt (o : Host.Outcome State Fault Refusal) (d : State) : State := match o with | .next t => t | _ => d

/-! ### The manual's own worked examples -/

namespace Examples

/-- 02 R46, example: three products, anchor 4, S = 2^62 + 160 with INEXACT, in any order; 8.0 in BF16 and in FP32. -/
def row46 : Tile :=
  { blockRow := 0, blockCol := 0
    aRows := [[⟨0x4040, 0⟩, ⟨0x26A0, 0⟩, ⟨0xC000, 0⟩]]
    bCols := [[⟨0x40A0, 0⟩, ⟨0x3EE0, 0⟩, ⟨0x4060, 0⟩], [⟨0, 0⟩, ⟨0x3F60, 0⟩, ⟨0, 0⟩]]
    nibbles := [], operandBubbles := 0, anchorBubbles := 0, sliceBubbles := 0, raw := false, nearOff := 0, faults := [] }
def row46b : Tile := { row46 with aRows := [[⟨0xC000, 0⟩, ⟨0x4040, 0⟩, ⟨0x26A0, 0⟩]], bCols := [[⟨0x4060, 0⟩, ⟨0x40A0, 0⟩, ⟨0x3EE0, 0⟩]] }
theorem test_window_of_three_products : (row46.cell 0 1 1 0 0 4).s = 0x40000000000000A0#96 ∧ (row46.cell 0 1 1 0 0 4).flags.inexact = true := by
  decide +kernel
theorem test_window_order_free : (row46b.cell 0 1 1 0 0 4).s = (row46.cell 0 1 1 0 0 4).s := by decide +kernel
theorem test_window_rounds_to_eight : (convOut 1 .rne false (row46.cell 0 1 1 0 0 4).val).1 = 0x4100 ∧
    (convOut 0 .rne false (row46.cell 0 1 1 0 0 4).val).1 = 0x41000000 := by decide +kernel
/-- The check term of pair 1 with 0.4375 and 0.875 is 640 units. -/
theorem test_check_term : checkTerm (decodeElem 1 0x26A0) [decodeElem 1 0x3EE0, decodeElem 1 0x3F60] 4 = 640 := by decide +kernel
/-- 02 R56, example: stochastic rounding of 1 + 2^-8 to BF16 with two random words. -/
theorem test_stochastic_rounding : (convOut 1 (.sr 0x90000000) false (.fin false 257 (-8))).1 = 0x3F81 ∧
    (convOut 1 (.sr 0x70000000) false (.fin false 257 (-8))).1 = 0x3F80 := by decide +kernel
/-- 03 R74, example: nibble 0xD takes positions 1 and 3; 0xA forms no pair and is invalid. -/
theorem test_sparse_nibbles : (sparsePairs [⟨1, 0⟩, ⟨2, 0⟩] [⟨10, 0⟩, ⟨11, 0⟩, ⟨12, 0⟩, ⟨13, 0⟩] [0xD]) = [(⟨1, 0⟩, ⟨11, 0⟩), (⟨2, 0⟩, ⟨13, 0⟩)] ∧
    sparsePairs [⟨1, 0⟩, ⟨2, 0⟩] [⟨10, 0⟩, ⟨11, 0⟩, ⟨12, 0⟩, ⟨13, 0⟩] [0xA] = [] ∧ ({ row46 with nibbles := [[0xA]] } : Tile).badNibble 1 = true := by
  decide +kernel
/-- 03 R82, example: layernorm of (1, 3) with w = 2 and b = 0.5 is (-1.5, 2.5). -/
theorem test_layernorm : (layernormRow 0 [0x3F800000, 0x40400000] [0x40000000, 0x40000000] [0x3F000000, 0x3F000000]).map (·.1) =
    [0xBFC00000, 0x40200000] := by decide +kernel
/-- 04 R90, example: an address of partition P9. -/
theorem test_hbm_address : addrPart 0x004800123400 = 9 := by decide +kernel
/-- 05 R124, example: the cluster status register of cluster 1,755. -/
theorem test_cluster_register : (0x00101B6C - 0x100000) / 4 = 1024 + 731 := by decide
/-- 06 R142, example: the route of a packet from CD1 of 0x3_2A5 to P9 of 0x5_E13, dimension by dimension. -/
theorem test_route_order : (List.range 4).map (fun d => coordOf 0x32A5 d) = [5, 10, 2, 3] ∧ (List.range 4).map (fun d => coordOf 0x5E13 d) = [3, 1, 14, 5] := by
  decide +kernel
/-- The last crossing: from CD1, the tie on the die ring goes plus. -/
theorem test_die_ring_tie : run0.ringPlus 1 (epDie 9) = true := by decide +kernel
/-- 08 R208, example: 100 ticks of delay, and A's count 512 ahead. -/
theorem test_time_exchange : measure { Port.reset with txHistory := [1000000000] } 1000000000 1000010612 1000010200 10000 = some (100, 512) := by
  decide +kernel
/-- 08 R218, example: calendar time of a launch count. -/
theorem test_calendar : (5000000000000 + 1750000000 * 1000000000) / 1000000000 = 1750005000 := by decide
/-- 09 R230, example: the index of element (3, 17, 2,000, 0). -/
theorem test_element_index : ({ tA with dims := [8, 1024, 4096, 1] } : Tensor).index [3, 17, 2000, 0] = 12654544 := by decide +kernel
/-- 09 R232, example: L(N+1) at level CYCLE. -/
theorem test_aligned_launch : roundUp (9000012345678 + 200000) alignQuantum = 9000012677120 := by decide +kernel
/-- 10 R249, example: bit 40 of a cell flipped is reported as DETAIL 40. -/
def cells249 : List Window := [3 * 2 ^ 59, -(2 ^ 59), 5 * 2 ^ 58, 0].map (fun v => { Window.clear 4 with s := BitVec.ofInt 96 v })
theorem test_check_column_sum : (cells249.foldl (fun a w => a + w.s) 0#96) = 0x000000002400000000000000#96 := by decide +kernel
theorem test_check_column_detail :
    (checkDetail (cells249.set 2 ((cells249.getD 2 (Window.clear 4)).upset (2 ^ 40)))
      { Window.clear 4 with s := 0x000000002400000000000000#96 }).map (· % 256) = some 40 ∧
    checkDetail cells249 { Window.clear 4 with s := 0x000000002400000000000000#96 } = none := by decide +kernel
/-- 10 R254, example: logical core 0xA_5811 with operator 339 is shadowed in step 48,228 and not in the next. -/
def sh254 (n : Nat) : State := withCtx run0 0 { ctx0 with step := n }
def obs254 : ShadowObs := { core := 0xA5811, digP := 0, digQ := 0, digT := none, why := 0 }
def op254 : OpDesc := { op1 with opId := 339 }
theorem test_shadow_phase : (sh254 48228).shadowDue 0 op254 obs254 = true ∧ (sh254 48292).shadowDue 0 op254 obs254 = true ∧
    (sh254 48229).shadowDue 0 op254 obs254 = false := by decide +kernel
/-- 13 R346, example: the metric of the hot module reaches the threshold 4.0 at the eleventh interval, not at the tenth. -/
def drift346 : Nat → Nat
  | 0 => 0
  | n + 1 => driftNext 64 3280 (63 * 3200 + 3280) (63 * 3200 ^ 2 + 3280 ^ 2) (drift346 n)
theorem test_drift_enters : drift346 10 < 0x40800000 ∧ 0x40800000 ≤ drift346 11 := by decide +kernel
/-- 16 R393, example: the two configuration entries. -/
theorem test_config_entries : (Cfg.parseEntries 2 ([3, 10, 8, 0, 12, 0, 0, 0, 0, 0, 0, 0] ++ [7, 13, 8, 0, 0, 0, 0x90, 0x40, 0, 0, 0, 0]) 0 Cfg.dflt).map
    (fun c => (c.suspectS, c.driftEnter)) = some (12, 0x40900000) := by decide +kernel
theorem test_config_entry_bytes : cfgEntry 0x0A03 (cfgScalarBytes 12) = [3, 10, 8, 0, 12, 0, 0, 0, 0, 0, 0, 0] := by decide +kernel
/-- Public check values: CRC-32C of "123456789", SHA-256 and SHA-384 of "abc". -/
theorem test_crc32c : crc32c [0x31, 0x32, 0x33, 0x34, 0x35, 0x36, 0x37, 0x38, 0x39] = 0xE3069283#32 := by decide +kernel
theorem test_sha256 : beNat (sha256 [0x61, 0x62, 0x63]) = 0xBA7816BF8F01CFEA414140DE5DAE2223B00361A396177A9CB410FF61F20015AD := by decide +kernel
theorem test_sha384 : beNat (sha384 [0x61, 0x62, 0x63]) =
    0xCB00753F45A35E8BB5A03D699AC65007272C32AB0EDED1631A8B605A43FF5BED8086072BA1E7CC2358BAECA134C825A7 := by decide +kernel
/-- No word spells a command (the table gives no bits); the queue is left as it is. -/
theorem test_no_word : decodeTableWord 32 5 = none ∧ (State.reset.withFetchWord 32 5).pending = [] := by decide +kernel

end Examples

/-! ### Witnesses: every statement's hypotheses can be met together -/

namespace MailboxBounds

theorem test_meets_HostQueriesComplete_0 : ∃ (s : State) (n : Nat) (a : Staged),
    s.executes n 0x01 a :=
  ⟨(onR run0 1 (stg (e 1))), 1, (stg (e 1)),
   (by unfold State.executes; decide +kernel)⟩

theorem test_meets_HostQueriesComplete_1 : ∃ (s : State) (n : Nat) (a : Staged),
    s.executes n 0x02 a :=
  ⟨(onR run0 1 (stg (e 2))), 1, (stg (e 2)),
   (by unfold State.executes; decide +kernel)⟩

theorem test_meets_HostQueriesComplete_2 : ∃ (s : State) (n : Nat) (a : Staged),
    s.executes n 0xFF a :=
  ⟨(onR run0 1 (stg (e 255))), 1, (stg (e 255)),
   (by unfold State.executes; decide +kernel)⟩

theorem test_meets_HostQueriesComplete_3 : ∃ (s : State) (n : Nat) (a : Staged),
    s.executes n 0x31 a ∧
    a.e.ctx < 16 :=
  ⟨(onR run0 1 (stg (e 0x31))), 1, (stg (e 0x31)),
   (by unfold State.executes; decide +kernel),
   (by decide +kernel)⟩

theorem test_meets_HostQueriesComplete_4 : ∃ (s : State) (n : Nat) (a : Staged),
    s.executes n 0x31 a ∧
    a.e.ctx = 0xFFFF :=
  ⟨(onR run0 1 (stg (e 0x31 0xFFFF))), 1, (stg (e 0x31 0xFFFF)),
   (by unfold State.executes; decide +kernel),
   (by decide +kernel)⟩

theorem test_meets_HostQueriesComplete_5 : ∃ (s : State) (n : Nat) (a : Staged),
    s.executes n 0x40 a ∧
    a.e.ctx < 16 ∧
    ((s.ctx a.e.ctx).st = .loaded ∨ (s.ctx a.e.ctx).st = .armed) ∧
    (a.par 32 1 ≤ 2 ∨ a.par 32 1 = 0xFF) ∧
    a.par 33 31 = 0 :=
  ⟨(withCtx (onR run0 1 (stg (e 0x40 0))) 0 { ctx0 with st := .armed }), 1, (stg (e 0x40)),
   (by unfold State.executes; decide +kernel),
   (by decide +kernel),
   (by decide +kernel),
   (by decide +kernel),
   (by decide +kernel)⟩

end MailboxBounds

namespace MailboxRuns
def ld (count : Nat) := stg (e 0x10 0 (leBytes 2 0 ++ leBytes 2 count ++ leBytes 2 3 ++ leBytes 2 0 ++ leBytes 4 8192) 4096 1) (List.replicate 4096 5#8)
def ar := stg (e 0x11 0 [] 128 1) (desc 0 1 2 3)
def ar2 := stg (e 0x11 0 [] 128 1) (desc 1 4 4 3)
def cc (st : CtxSt) (act : Bool) : Ctx := { ctxP st with coord := { Coord.reset with active := act, started := true, epoch := 4, step := 6, standby := 2, held := decide (st = .held) }, adopted := 4 }
def tw (id first k : Nat) := stg (e 0x20 0 (leBytes 4 id ++ leBytes 4 first) (4096*k) 1) (List.replicate (4096*k) 7#8)
def tr (id first k : Nat) := stg (e 0x21 0 (leBytes 4 id ++ leBytes 4 first) (4096*k) 0)
def dl : List Byte := leBytes 4 0 ++ leBytes 4 1 ++ List.replicate 56 0#8 ++ leBytes 8 0x100000 ++ leBytes 8 4160 ++ List.replicate (4096-80) 0#8
def dr := stg (e 0x30 0 (leBytes 4 10 ++ leBytes 6 9 ++ leBytes 1 0 ++ leBytes 1 0 ++ leBytes 4 0 ++ leBytes 8 0x100000 ++ leBytes 8 0))
def rr (t h : Nat) : State := { run0 with mbx := { run0.mbx with rings := KMap.put run0.mbx.rings 1 { ringU with tail := t, head := h } } }

theorem test_meets_CtxLoadAndArmComplete_0 : ∃ (s : State) (n : Nat) (a : Staged) (mask : Nat) (count : Nat) (off : Nat),
    s.executes n 0x10 a ∧
    a.e.ctx < 16 ∧
    s.id.unaccepted = false ∧
    (s.ctx a.e.ctx).st = .empty ∧
    mask = a.par 36 2 ∧
    count = a.par 34 2 ∧
    off = a.par 40 4 ∧
    a.par 32 2 = 0 ∧
    mask ≠ 0 ∧
    1 ≤ count ∧
    count ≤ 16 ∧
    a.par 38 2 = 0 ∧
    a.e.flags.testBit 0 = true ∧
    a.payload.length ≠ 0 ∧
    off % 4096 = 0 ∧
    off + partSize * (count - 1) + a.payload.length ≤ s.cfg.programSpace ∧
    (∀ y, y < 16 → y ≠ a.e.ctx → (s.ctx y).st = .empty ∨ (s.ctx y).mask &&& mask = 0) :=
  ⟨(onR run0 1 (ld 2)), 1, (ld 2), 3, 2, 8192,
   (by unfold State.executes; decide +kernel),
   (by decide +kernel),
   (by decide +kernel),
   (by decide +kernel),
   (by decide +kernel),
   (by decide +kernel),
   (by decide +kernel),
   (by decide +kernel),
   (by decide +kernel),
   (by decide +kernel),
   (by decide +kernel),
   (by decide +kernel),
   (by decide +kernel),
   (by decide +kernel),
   (by decide +kernel),
   (by decide +kernel),
   (by decide +kernel)⟩

theorem test_meets_CtxLoadAndArmComplete_0b : ∃ (s : State) (n : Nat) (a : Staged) (mask : Nat) (count : Nat) (off : Nat),
    s.executes n 0x10 a ∧
    a.e.ctx < 16 ∧
    s.id.unaccepted = false ∧
    (s.ctx a.e.ctx).st = .empty ∧
    mask = a.par 36 2 ∧
    count = a.par 34 2 ∧
    off = a.par 40 4 ∧
    a.par 32 2 = 0 ∧
    mask ≠ 0 ∧
    1 ≤ count ∧
    count ≤ 16 ∧
    a.par 38 2 = 0 ∧
    a.e.flags.testBit 0 = true ∧
    a.payload.length ≠ 0 ∧
    off % 4096 = 0 ∧
    off + partSize * (count - 1) + a.payload.length ≤ s.cfg.programSpace ∧
    (∀ y, y < 16 → y ≠ a.e.ctx → (s.ctx y).st = .empty ∨ (s.ctx y).mask &&& mask = 0) :=
  ⟨(onR run0 1 (ld 1)), 1, (ld 1), 3, 1, 8192,
   (by unfold State.executes; decide +kernel),
   (by decide +kernel),
   (by decide +kernel),
   (by decide +kernel),
   (by decide +kernel),
   (by decide +kernel),
   (by decide +kernel),
   (by decide +kernel),
   (by decide +kernel),
   (by decide +kernel),
   (by decide +kernel),
   (by decide +kernel),
   (by decide +kernel),
   (by decide +kernel),
   (by decide +kernel),
   (by decide +kernel),
   (by decide +kernel)⟩

theorem test_meets_CtxLoadAndArmComplete_1 : ∃ (s : State) (n : Nat) (a : Staged) (c : Ctx),
    s.executes n 0x11 a ∧
    a.e.ctx < 16 ∧
    (s.ctx a.e.ctx).st = .loaded ∧
    128 ≤ a.payload.length ∧
    s.armBad a.e.ctx (fitBytes 128 a.payload) = false ∧
    c = { s.ctx a.e.ctx with desc := fitBytes 128 a.payload } :=
  ⟨(withCtx (onR run0 1 ar) 0 (fresh .loaded)), 1, ar, ({ (withCtx (onR run0 1 ar) 0 (fresh .loaded)).ctx 0 with desc := fitBytes 128 (desc 0 1 2 3) }),
   (by unfold State.executes; decide +kernel),
   (by decide +kernel),
   (by decide +kernel),
   (by decide +kernel),
   (by decide +kernel),
   (by decide +kernel)⟩

theorem test_meets_CtxLoadAndArmComplete_1b : ∃ (s : State) (n : Nat) (a : Staged) (c : Ctx),
    s.executes n 0x11 a ∧
    a.e.ctx < 16 ∧
    (s.ctx a.e.ctx).st = .loaded ∧
    128 ≤ a.payload.length ∧
    s.armBad a.e.ctx (fitBytes 128 a.payload) = false ∧
    c = { s.ctx a.e.ctx with desc := fitBytes 128 a.payload } :=
  ⟨(withCtx (onR run0 1 ar2) 0 (fresh .loaded)), 1, ar2, ({ (withCtx (onR run0 1 ar2) 0 (fresh .loaded)).ctx 0 with desc := fitBytes 128 (desc 1 4 4 3) }),
   (by unfold State.executes; decide +kernel),
   (by decide +kernel),
   (by decide +kernel),
   (by decide +kernel),
   (by decide +kernel),
   (by decide +kernel)⟩

theorem test_meets_CtxControlCompletes_0 : ∃ (s : State) (n : Nat) (a : Staged),
    s.executes n 0x12 a ∧
    a.e.ctx < 16 ∧
    (s.ctx a.e.ctx).st = .running ∧
    (s.ctx a.e.ctx).coord.active = true :=
  ⟨(withCtx (onR run0 1 (stg (e 0x12))) 0 (cc .running true)), 1, (stg (e 0x12)),
   (by unfold State.executes; decide +kernel),
   (by decide +kernel),
   (by decide +kernel),
   (by decide +kernel)⟩

theorem test_meets_CtxControlCompletes_1 : ∃ (s : State) (n : Nat) (a : Staged),
    s.executes n 0x13 a ∧
    a.e.ctx < 16 ∧
    (s.ctx a.e.ctx).st = .held ∧
    (s.ctx a.e.ctx).coord.active = true :=
  ⟨(withCtx (onR run0 1 (stg (e 0x13))) 0 (cc .held true)), 1, (stg (e 0x13)),
   (by unfold State.executes; decide +kernel),
   (by decide +kernel),
   (by decide +kernel),
   (by decide +kernel)⟩

theorem test_meets_CtxControlCompletes_1b : ∃ (s : State) (n : Nat) (a : Staged),
    s.executes n 0x13 a ∧
    a.e.ctx < 16 ∧
    (s.ctx a.e.ctx).st = .held ∧
    (s.ctx a.e.ctx).coord.active = true :=
  ⟨(withCtx (onR run0 1 (stg (e 0x13))) 0 {cc .held true with coord := {(cc .held true).coord with stepHeld := some 3}}), 1, (stg (e 0x13)),
   (by unfold State.executes; decide +kernel),
   (by decide +kernel),
   (by decide +kernel),
   (by decide +kernel)⟩

theorem test_meets_CtxControlCompletes_2 : ∃ (s : State) (n : Nat) (a : Staged),
    s.executes n 0x14 a ∧
    a.e.ctx < 16 ∧
    ((s.ctx a.e.ctx).st = .loading ∨ (s.ctx a.e.ctx).st = .loaded ∨ (s.ctx a.e.ctx).st = .armed) ∧
    s.nothingWaits a.e.ctx :=
  ⟨(withCtx (onR run0 1 (stg (e 0x14))) 0 (cc .loaded true)), 1, (stg (e 0x14)),
   (by unfold State.executes; decide +kernel),
   (by decide +kernel),
   (by decide +kernel),
   (by unfold State.nothingWaits; decide +kernel)⟩

theorem test_meets_CtxControlCompletes_3 : ∃ (s : State) (n : Nat) (a : Staged),
    s.executes n 0x14 a ∧
    a.e.ctx < 16 ∧
    (s.ctx a.e.ctx).st = .running ∧
    (s.ctx a.e.ctx).coord.active = true :=
  ⟨(withCtx (onR run0 1 (stg (e 0x14))) 0 (cc .running true)), 1, (stg (e 0x14)),
   (by unfold State.executes; decide +kernel),
   (by decide +kernel),
   (by decide +kernel),
   (by decide +kernel)⟩

theorem test_meets_CtxControlCompletes_4 : ∃ (s : State) (n : Nat) (a : Staged),
    s.executes n 0x14 a ∧
    a.e.ctx < 16 ∧
    (s.ctx a.e.ctx).st = .held ∧
    (s.ctx a.e.ctx).coord.active = true :=
  ⟨(withCtx (onR run0 1 (stg (e 0x14))) 0 (cc .held true)), 1, (stg (e 0x14)),
   (by unfold State.executes; decide +kernel),
   (by decide +kernel),
   (by decide +kernel),
   (by decide +kernel)⟩

theorem test_meets_TensorTransfersAndDumpsComplete_0 : ∃ (s : State) (n : Nat) (a : Staged) (d : Tensor) (k : Nat),
    s.executes n 0x20 a ∧
    a.e.ctx < 16 ∧
    ((s.ctx a.e.ctx).st = .loaded ∨ (s.ctx a.e.ctx).st = .armed ∨ (s.ctx a.e.ctx).st = .held) ∧
    (s.ctx a.e.ctx).tensor (a.par 32 4) = some d ∧
    d.hostIo = true ∧
    d.base % 4096 = 0 ∧
    a.payload.length = 4096 * k ∧
    a.par 36 4 + k ≤ d.blocks ∧
    Memory.wf s.mem = true :=
  ⟨(withCtx (onR run0 1 (tw 10 0 2)) 0 (cc .held true)), 1, (tw 10 0 2), tA, 2,
   (by unfold State.executes; decide +kernel),
   (by decide +kernel),
   (by decide +kernel),
   (by decide +kernel),
   (by decide +kernel),
   (by decide +kernel),
   (by decide +kernel),
   (by decide +kernel),
   (by decide +kernel)⟩

theorem test_meets_TensorTransfersAndDumpsComplete_0b : ∃ (s : State) (n : Nat) (a : Staged) (d : Tensor) (k : Nat),
    s.executes n 0x20 a ∧
    a.e.ctx < 16 ∧
    ((s.ctx a.e.ctx).st = .loaded ∨ (s.ctx a.e.ctx).st = .armed ∨ (s.ctx a.e.ctx).st = .held) ∧
    (s.ctx a.e.ctx).tensor (a.par 32 4) = some d ∧
    d.hostIo = true ∧
    d.base % 4096 = 0 ∧
    a.payload.length = 4096 * k ∧
    a.par 36 4 + k ≤ d.blocks ∧
    Memory.wf s.mem = true :=
  ⟨(withCtx (onR run0 1 (tw 10 1 1)) 0 (cc .loaded true)), 1, (tw 10 1 1), tA, 1,
   (by unfold State.executes; decide +kernel),
   (by decide +kernel),
   (by decide +kernel),
   (by decide +kernel),
   (by decide +kernel),
   (by decide +kernel),
   (by decide +kernel),
   (by decide +kernel),
   (by decide +kernel)⟩

theorem test_meets_TensorTransfersAndDumpsComplete_1 : ∃ (s : State) (n : Nat) (a : Staged) (d : Tensor),
    s.executes n 0x21 a ∧
    a.e.ctx < 16 ∧
    ((s.ctx a.e.ctx).st = .loaded ∨ (s.ctx a.e.ctx).st = .armed ∨ (s.ctx a.e.ctx).st = .held ∨
      ((s.ctx a.e.ctx).st = .running ∧ d.persistent = true)) ∧
    (s.ctx a.e.ctx).tensor (a.par 32 4) = some d ∧
    d.hostIo = true ∧
    a.par 36 4 + a.e.payloadLen / 4096 ≤ d.blocks ∧
    (∀ b, a.par 36 4 ≤ b → b < a.par 36 4 + a.e.payloadLen / 4096 → (s.checkAt (d.blockAddr b)).poison = false ∧
      (s.checkAt (d.blockAddr b)).fails ((s.ctx a.e.ctx).codeAt (d.blockAddr b)) (s.readBytes (blockOf (d.blockAddr b)) 4096) = 0) :=
  ⟨(withCtx (onR run0 1 (tr 10 0 2)) 0 (cc .running true)), 1, (tr 10 0 2), tA,
   (by unfold State.executes; decide +kernel),
   (by decide +kernel),
   (by decide +kernel),
   (by decide +kernel),
   (by decide +kernel),
   (by decide +kernel),
   (by intro b h1 h2; have hb : b < 8 := Nat.lt_of_lt_of_le h2 (by decide +kernel); have hc : ∀ b, b < 8 → State.checkAt (withCtx (onR run0 1 (tr 10 0 2)) 0 (cc .running true)) (Tensor.blockAddr tA b) = BlockCheck.blank := (by decide +kernel); exact ⟨by rw [hc b hb]; rfl, Laws.blank_passes _ _ _ _ rfl (hc b hb)⟩)⟩

theorem test_meets_TensorTransfersAndDumpsComplete_1b : ∃ (s : State) (n : Nat) (a : Staged) (d : Tensor),
    s.executes n 0x21 a ∧
    a.e.ctx < 16 ∧
    ((s.ctx a.e.ctx).st = .loaded ∨ (s.ctx a.e.ctx).st = .armed ∨ (s.ctx a.e.ctx).st = .held ∨
      ((s.ctx a.e.ctx).st = .running ∧ d.persistent = true)) ∧
    (s.ctx a.e.ctx).tensor (a.par 32 4) = some d ∧
    d.hostIo = true ∧
    a.par 36 4 + a.e.payloadLen / 4096 ≤ d.blocks ∧
    (∀ b, a.par 36 4 ≤ b → b < a.par 36 4 + a.e.payloadLen / 4096 → (s.checkAt (d.blockAddr b)).poison = false ∧
      (s.checkAt (d.blockAddr b)).fails ((s.ctx a.e.ctx).codeAt (d.blockAddr b)) (s.readBytes (blockOf (d.blockAddr b)) 4096) = 0) :=
  ⟨(withCtx (onR run0 1 (tr 11 0 1)) 0 (cc .armed true)), 1, (tr 11 0 1), tB,
   (by unfold State.executes; decide +kernel),
   (by decide +kernel),
   (by decide +kernel),
   (by decide +kernel),
   (by decide +kernel),
   (by decide +kernel),
   (by intro b h1 h2; have hb : b < 8 := Nat.lt_of_lt_of_le h2 (by decide +kernel); have hc : ∀ b, b < 8 → State.checkAt (withCtx (onR run0 1 (tr 11 0 1)) 0 (cc .armed true)) (Tensor.blockAddr tB b) = BlockCheck.blank := (by decide +kernel); exact ⟨by rw [hc b hb]; rfl, Laws.blank_passes _ _ _ _ rfl (hc b hb)⟩)⟩

theorem test_meets_TensorTransfersAndDumpsComplete_2 : ∃ (s : State) (n : Nat) (a : Staged) (list : List Byte) (td : Tensor) (bufs : List (Nat × Nat)),
    s.executes n 0x30 a ∧
    a.e.ctx < 16 ∧
    (s.ctx a.e.ctx).st = .loaded ∧
    (s.ctx a.e.ctx).committed ≠ some (a.par 36 6) ∧
    (s.ctx a.e.ctx).tensor (a.par 32 4) = some td ∧
    dumpBuffers list = some bufs ∧
    (s.ctx a.e.ctx).dumps.length < 16 ∧
    a.par 42 1 = 0 ∧
    a.par 43 1 = 0 ∧
    a.par 44 4 = 0 ∧
    a.par 56 8 = 0 ∧
    a.par 48 8 % 4096 = 0 :=
  ⟨(withCtx (onR run0 1 dr) 0 (cc .loaded true)), 1, dr, dl, tA, [(0x100000, 4160)],
   (by unfold State.executes; decide +kernel),
   (by decide +kernel),
   (by decide +kernel),
   (by decide +kernel),
   (by decide +kernel),
   (by decide +kernel),
   (by decide +kernel),
   (by decide +kernel),
   (by decide +kernel),
   (by decide +kernel),
   (by decide +kernel),
   (by decide +kernel)⟩

theorem test_meets_MailboxAcceptsAndItsRegisters_0 : ∃ (s : State) (n : Nat) (e : SqEntry) (p : List Byte),
    n < 4 ∧
    s.mayFetch n = true ∧
    (s.ring n).cur = none ∧
    (e.flags.testBit 0 = true → e.flags.testBit 1 = true ∨ (crc32c p).toNat = e.payloadCrc) ∧
    e.opcode ≠ 0x02 ∧
    s.cached e.seq = none ∧
    serialNewer 32 e.seq s.mbx.highSeq = true ∧
    entryRefusal e = none :=
  ⟨(rr 3 2), 1, (e 0x12), [],
   (by decide +kernel),
   (by decide +kernel),
   (by decide +kernel),
   (by decide +kernel),
   (by decide +kernel),
   (by decide +kernel),
   (by decide +kernel),
   (by decide +kernel)⟩

theorem test_meets_MailboxAcceptsAndItsRegisters_1 : ∃ (s : State) (n : Nat) (e : SqEntry) (p : List Byte) (c : SeqEntry),
    n < 4 ∧
    s.mayFetch n = true ∧
    (s.ring n).cur = none ∧
    (e.flags.testBit 0 = true → e.flags.testBit 1 = true ∨ (crc32c p).toNat = e.payloadCrc) ∧
    e.opcode ≠ 0x02 ∧
    s.cached e.seq = some c :=
  ⟨({rr 3 2 with mbx := {(rr 3 2).mbx with cache := [⟨5, 0x10, some (0, 0)⟩]}}), 1, (e 0x10), [], ⟨5, 0x10, some (0, 0)⟩,
   (by decide +kernel),
   (by decide +kernel),
   (by decide +kernel),
   (by decide +kernel),
   (by decide +kernel),
   (by decide +kernel)⟩

theorem test_meets_MailboxAcceptsAndItsRegisters_2 : ∃ (s : State) (n : Nat) (e : SqEntry) (p : List Byte),
    n < 4 ∧
    s.mayFetch n = true ∧
    (s.ring n).cur = none ∧
    (e.flags.testBit 0 = true → e.flags.testBit 1 = true ∨ (crc32c p).toNat = e.payloadCrc) ∧
    e.opcode ≠ 0x02 ∧
    s.cached e.seq = none ∧
    serialNewer 32 e.seq s.mbx.highSeq = false :=
  ⟨({rr 3 2 with mbx := {(rr 3 2).mbx with highSeq := 5}}), 1, (e 0x10), [],
   (by decide +kernel),
   (by decide +kernel),
   (by decide +kernel),
   (by decide +kernel),
   (by decide +kernel),
   (by decide +kernel),
   (by decide +kernel)⟩

theorem test_meets_MailboxAcceptsAndItsRegisters_3 : ∃ (s : State) (n : Nat) (e : SqEntry) (p : List Byte),
    n < 4 ∧
    s.mayFetch n = true ∧
    (s.ring n).cur = none ∧
    e.flags.testBit 0 = true ∧
    e.flags.testBit 1 = false ∧
    (crc32c p).toNat ≠ e.payloadCrc :=
  ⟨(rr 3 2), 1, ({e 0x10 with flags := 1, payloadCrc := 1}), [],
   (by decide +kernel),
   (by decide +kernel),
   (by decide +kernel),
   (by decide +kernel),
   (by decide +kernel),
   (by decide +kernel)⟩

theorem test_meets_MailboxAcceptsAndItsRegisters_4 : ∃ (s : State) (n : Nat) (e : SqEntry) (p : List Byte),
    n < 4 ∧
    s.mayFetch n = false :=
  ⟨(rr 2 2), 1, (e 0x10), [],
   (by decide +kernel),
   (by decide +kernel)⟩

theorem test_meets_MailboxAcceptsAndItsRegisters_5 : ∃ (s : State) (n : Nat) (tail : Nat),
    n < 4 :=
  ⟨run0, 1, 4097,
   (by decide +kernel)⟩

theorem test_meets_MailboxAcceptsAndItsRegisters_6 : ∃ (s : State) (n : Nat) (en : Bool),
    n < 4 :=
  ⟨run0, 1, false,
   (by decide +kernel)⟩

theorem test_meets_MailboxAcceptsAndItsRegisters_8 : ∃ (s : State) (n : Nat) (head : Nat),
    n < 4 ∧
    (s.ring n).stalled = [] :=
  ⟨({rr 0 0 with mbx := {run0.mbx with rings := KMap.put run0.mbx.rings 1 {ringU with cqHead := 14, cqUsed := 5}}}), 1, 2,
   (by decide +kernel),
   (by decide +kernel)⟩

theorem test_meets_MailboxAcceptsAndItsRegisters_11 : ∃ (s : State) (n : Nat) (v : Nat),
    n < 4 :=
  ⟨run0, 2, (2^64+12345),
   (by decide +kernel)⟩

theorem test_meets_MailboxAcceptsAndItsRegisters_12 : ∃ (s : State) (g : Nat) (v : Nat),
    g < 4096 :=
  ⟨run0, 3, (2^30),
   (by decide +kernel)⟩

theorem test_meets_MailboxAcceptsAndItsRegisters_13 : ∃ (s : State) (off : Nat) (v : Nat),
    0x104040 ≤ off :=
  ⟨run0, 0x104040, 5,
   (by decide +kernel)⟩

theorem test_meets_PcieResets_0 : ∃ (c : Instr) (s : State),
    (c = .pcieHotReset ∨ c = .pcieLinkDown) :=
  ⟨.pcieHotReset, (rr 3 2),
   (by decide +kernel)⟩

theorem test_meets_PcieResets_0b : ∃ (c : Instr) (s : State),
    (c = .pcieHotReset ∨ c = .pcieLinkDown) :=
  ⟨.pcieLinkDown, (rr 3 2),
   (by decide +kernel)⟩

theorem test_meets_PcieResets_1 : ∃ (c : Instr) (s : State),
    (c = .pcieFlr ∨ c = .busMasterDisable) :=
  ⟨.pcieFlr, (rr 3 2),
   (by decide +kernel)⟩

theorem test_meets_PcieResets_1b : ∃ (c : Instr) (s : State),
    (c = .pcieFlr ∨ c = .busMasterDisable) :=
  ⟨.busMasterDisable, (withCtx (rr 3 2) 0 (cc .running true)),
   (by decide +kernel)⟩

theorem test_meets_PcieResets_2 : ∃ (s : State),
    s.mbx.attached = true :=
  ⟨(withCtx (rr 3 2) 0 (cc .running true)),
   (by decide +kernel)⟩

theorem test_meets_PcieResets_3 : ∃ (s : State),
    s.mbx.attached = false :=
  ⟨({run0 with mbx := {run0.mbx with attached := false}}),
   (by decide +kernel)⟩

theorem test_meets_PcieResets_4 : ∃ (s : State),
    s.mbx.linkUp = false :=
  ⟨(withCtx {run0 with mbx := {run0.mbx with linkUp := false}} 0 (cc .armed true)),
   (by decide +kernel)⟩

theorem test_meets_PcieResets_5 : ∃ (s : State),
    s.mbx.linkUp = true :=
  ⟨run0,
   (by decide +kernel)⟩

end MailboxRuns

namespace StepLife
def c1 : Ctx := { ctxP .running with coord := { Coord.reset with active := true, started := true, epoch := 4, step := 5, attempt := 1, standby := 2, launch := 6000000, deadline := 7000000 }, adopted := 4 }
def j1 := withCtx run0 0 c1
def cL : Ctx := {c1 with launched := true, exec := { Exec.reset with firstUp := some 5, captured := true }, gey := {c1.gey with buddyValid := true, buddy := 3} }
def fp : FaultParam := FaultParam.of 1 0x31
def pb : PBlock := ⟨List.replicate 4096 9#8, 77⟩

theorem test_meets_StepsLaunchAndConfirmOnce_0 : ∃ (s : State) (x : Nat) (l : Nat),
    (s.ctx x).st = .running ∧
    (s.ctx x).launched = false ∧
    (s.ctx x).launch = some l ∧
    s.fcHeld = true ∧
    s.pins.latchedOff = false ∧
    (s.pins.pwrCycleReq = true → s.cal.owner ≠ none) :=
  ⟨j1, 0, 6000000,
   (by decide +kernel),
   (by decide +kernel),
   (by decide +kernel),
   (by decide +kernel),
   (by decide +kernel),
   (by decide +kernel)⟩

theorem test_meets_StepsLaunchAndConfirmOnce_0b : ∃ (s : State) (x : Nat) (l : Nat),
    (s.ctx x).st = .running ∧
    (s.ctx x).launched = false ∧
    (s.ctx x).launch = some l ∧
    s.fcHeld = true ∧
    s.pins.latchedOff = false ∧
    (s.pins.pwrCycleReq = true → s.cal.owner ≠ none) :=
  ⟨(withCtx run0 0 {c1 with launch := some 100}), 0, 100,
   (by decide +kernel),
   (by decide +kernel),
   (by decide +kernel),
   (by decide +kernel),
   (by decide +kernel),
   (by decide +kernel)⟩

theorem test_meets_StepsLaunchAndConfirmOnce_1 : ∃ (s : State) (x : Nat),
    (s.ctx x).launched = true :=
  ⟨(withCtx run0 0 {c1 with launched := true}), 0,
   (by decide +kernel)⟩

theorem test_meets_StepsLaunchAndConfirmOnce_2 : ∃ (s : State) (x : Nat),
    (s.ctx x).mayConfirm s.locus = true ∧
    (s.ctx x).exec.firstUp ≠ none :=
  ⟨(withCtx run0 0 cL), 0,
   (by decide +kernel),
   (by decide +kernel)⟩

theorem test_meets_StepsLaunchAndConfirmOnce_3 : ∃ (s : State) (x : Nat),
    (s.ctx x).mayConfirm s.locus = true :=
  ⟨(withCtx run0 0 {cL with exec := {cL.exec with firstUp := none}}), 0,
   (by decide +kernel)⟩

theorem test_meets_StepsLaunchAndConfirmOnce_4 : ∃ (s : State) (x : Nat),
    (s.ctx x).confirmed = true :=
  ⟨(withCtx run0 0 {cL with confirmed := true}), 0,
   (by decide +kernel)⟩

theorem test_meets_CoordinatorRulesOfAStep_0 : ∃ (s : State) (h : Hdr) (x : Nat),
    s.coordinates h x ∧
    (s.ctx x).coord.step = h.step ∧
    (s.ctx x).coord.attempt = h.attempt ∧
    (∃ l ∈ (s.ctx x).pmap, l ≠ h.src ∧ KMap.find (s.ctx x).coord.confirms l = none) :=
  ⟨j1, (hdr 3), 0,
   (by unfold State.coordinates; decide +kernel),
   (by decide +kernel),
   (by decide +kernel),
   (by decide +kernel)⟩

theorem test_meets_CoordinatorRulesOfAStep_0b : ∃ (s : State) (h : Hdr) (x : Nat),
    s.coordinates h x ∧
    (s.ctx x).coord.step = h.step ∧
    (s.ctx x).coord.attempt = h.attempt ∧
    (∃ l ∈ (s.ctx x).pmap, l ≠ h.src ∧ KMap.find (s.ctx x).coord.confirms l = none) :=
  ⟨j1, (hdr 1), 0,
   (by unfold State.coordinates; decide +kernel),
   (by decide +kernel),
   (by decide +kernel),
   (by decide +kernel)⟩

theorem test_meets_CoordinatorRulesOfAStep_1 : ∃ (s : State) (h : Hdr) (x : Nat) (hold : Bool),
    s.coordinates h x ∧
    (s.ctx x).coord.step = h.step ∧
    (s.ctx x).coord.attempt = h.attempt ∧
    h.src ∈ (s.ctx x).pmap ∧
    h.stamp ≤ (s.ctx x).coord.deadline ∧
    (∀ l ∈ (s.ctx x).pmap, l ≠ h.src → ∃ c, KMap.find (s.ctx x).coord.confirms l = some c ∧ c ≤ (s.ctx x).coord.deadline) ∧
    reportWaits s.pending h.step h.stamp = false ∧
    (s.ctx x).coord.started = true ∧
    (s.ctx x).coord.held = false ∧
    (s.atEffect h).mayIssue x = true ∧
    (s.ctx x).coord.reports = [] ∧
    (s.ctx x).coord.collecting = none ∧
    (s.ctx x).coord.takeover = none ∧
    (s.ctx x).coord.hostLoss = none ∧
    hold = ((s.ctx x).coord.holdReq || (s.ctx x).coord.tearReq || h.step == 2 ^ 48 - 1) :=
  ⟨(withCtx run0 0 {c1 with coord := {c1.coord with confirms := [(1, 9)]}}), (hdr 3), 0, (((withCtx run0 0 {c1 with coord := {c1.coord with confirms := [(1, 9)]}}).ctx 0).coord.holdReq || ((withCtx run0 0 {c1 with coord := {c1.coord with confirms := [(1, 9)]}}).ctx 0).coord.tearReq || (hdr 3).step == 2 ^ 48 - 1),
   (by unfold State.coordinates; decide +kernel),
   (by decide +kernel),
   (by decide +kernel),
   (by decide +kernel),
   (by decide +kernel),
   (fun l hl hn => ⟨9, (show ∀ l ∈ ((withCtx run0 0 {c1 with coord := {c1.coord with confirms := [(1, 9)]}}).ctx 0).pmap, l ≠ (hdr 3).src → KMap.find ((withCtx run0 0 {c1 with coord := {c1.coord with confirms := [(1, 9)]}}).ctx 0).coord.confirms l = some 9 ∧ 9 ≤ ((withCtx run0 0 {c1 with coord := {c1.coord with confirms := [(1, 9)]}}).ctx 0).coord.deadline by decide +kernel) l hl hn⟩),
   (by decide +kernel),
   (by decide +kernel),
   (by decide +kernel),
   (by decide +kernel),
   (by decide +kernel),
   (by decide +kernel),
   (by decide +kernel),
   (by decide +kernel),
   (by decide +kernel)⟩

theorem test_meets_CoordinatorRulesOfAStep_1b : ∃ (s : State) (h : Hdr) (x : Nat) (hold : Bool),
    s.coordinates h x ∧
    (s.ctx x).coord.step = h.step ∧
    (s.ctx x).coord.attempt = h.attempt ∧
    h.src ∈ (s.ctx x).pmap ∧
    h.stamp ≤ (s.ctx x).coord.deadline ∧
    (∀ l ∈ (s.ctx x).pmap, l ≠ h.src → ∃ c, KMap.find (s.ctx x).coord.confirms l = some c ∧ c ≤ (s.ctx x).coord.deadline) ∧
    reportWaits s.pending h.step h.stamp = false ∧
    (s.ctx x).coord.started = true ∧
    (s.ctx x).coord.held = false ∧
    (s.atEffect h).mayIssue x = true ∧
    (s.ctx x).coord.reports = [] ∧
    (s.ctx x).coord.collecting = none ∧
    (s.ctx x).coord.takeover = none ∧
    (s.ctx x).coord.hostLoss = none ∧
    hold = ((s.ctx x).coord.holdReq || (s.ctx x).coord.tearReq || h.step == 2 ^ 48 - 1) :=
  ⟨(withCtx run0 0 {c1 with coord := {c1.coord with confirms := [(1, 9)], holdReq := true}}), (hdr 3), 0, (((withCtx run0 0 {c1 with coord := {c1.coord with confirms := [(1, 9)], holdReq := true}}).ctx 0).coord.holdReq || ((withCtx run0 0 {c1 with coord := {c1.coord with confirms := [(1, 9)], holdReq := true}}).ctx 0).coord.tearReq || (hdr 3).step == 2 ^ 48 - 1),
   (by unfold State.coordinates; decide +kernel),
   (by decide +kernel),
   (by decide +kernel),
   (by decide +kernel),
   (by decide +kernel),
   (fun l hl hn => ⟨9, (show ∀ l ∈ ((withCtx run0 0 {c1 with coord := {c1.coord with confirms := [(1, 9)], holdReq := true}}).ctx 0).pmap, l ≠ (hdr 3).src → KMap.find ((withCtx run0 0 {c1 with coord := {c1.coord with confirms := [(1, 9)], holdReq := true}}).ctx 0).coord.confirms l = some 9 ∧ 9 ≤ ((withCtx run0 0 {c1 with coord := {c1.coord with confirms := [(1, 9)], holdReq := true}}).ctx 0).coord.deadline by decide +kernel) l hl hn⟩),
   (by decide +kernel),
   (by decide +kernel),
   (by decide +kernel),
   (by decide +kernel),
   (by decide +kernel),
   (by decide +kernel),
   (by decide +kernel),
   (by decide +kernel),
   (by decide +kernel)⟩

theorem test_meets_CoordinatorRulesOfAStep_2 : ∃ (s : State) (x : Nat),
    (s.ctx x).coord.started = true ∧
    (s.ctx x).coord.held = false ∧
    s.mayIssue x = true ∧
    (s.ctx x).coord.reports = [] ∧
    (s.ctx x).coord.collecting = none :=
  ⟨(withCtx run0 0 {c1 with coord := {c1.coord with confirms := [(1, 9)]}}), 0,
   (by decide +kernel),
   (by decide +kernel),
   (by decide +kernel),
   (by decide +kernel),
   (by decide +kernel)⟩

theorem test_meets_CoordinatorRulesOfAStep_3 : ∃ (s : State) (h : Hdr) (f : FaultParam) (x : Nat),
    s.coordinates h x ∧
    (s.ctx x).coord.step = h.step ∧
    (s.ctx x).coord.attempt = h.attempt ∧
    (s.ctx x).coord.held = false ∧
    (s.ctx x).coord.reports = [] :=
  ⟨j1, (hdr 3), fp, 0,
   (by unfold State.coordinates; decide +kernel),
   (by decide +kernel),
   (by decide +kernel),
   (by decide +kernel),
   (by decide +kernel)⟩

theorem test_meets_CoordinatorRulesOfAStep_3b : ∃ (s : State) (h : Hdr) (f : FaultParam) (x : Nat),
    s.coordinates h x ∧
    (s.ctx x).coord.step = h.step ∧
    (s.ctx x).coord.attempt = h.attempt ∧
    (s.ctx x).coord.held = false ∧
    (s.ctx x).coord.reports = [] :=
  ⟨j1, (hdr 3), (FaultParam.of 5 0x31), 0,
   (by unfold State.coordinates; decide +kernel),
   (by decide +kernel),
   (by decide +kernel),
   (by decide +kernel),
   (by decide +kernel)⟩

theorem test_meets_CoordinatorRulesOfAStep_4 : ∃ (s : State) (x : Nat),
    (s.ctx x).coord.collecting ≠ none ∧
    s.mayIssue x = true ∧
    (s.ctx x).coord.held = false :=
  ⟨(withCtx run0 0 {c1 with coord := {c1.coord with collecting := some 3, ready := 9000000, attempt := 15}}), 0,
   (by decide +kernel),
   (by decide +kernel),
   (by decide +kernel)⟩

theorem test_meets_CommitSwitchesTheCopy_0 : ∃ (s : State) (h : Hdr) (launch : Nat) (hold : Bool) (epoch : Nat) (x : Nat),
    s.serves h epoch x ∧
    (s.ctx x).st = .running ∧
    (s.ctx x).committed ≠ some h.step ∧
    (s.ctx x).step = h.step ∧
    (s.ctx x).dumps = [] ∧
    s.quiet ∧
    Memory.wf s.mem = true :=
  ⟨(withCtx run0 0 {c1 with pend := [(4096, pb)], confirmed := true, launched := true}), (hdr 1), 8000000, false, 4, 0,
   (by unfold State.serves; decide +kernel),
   (by decide +kernel),
   (by decide +kernel),
   (by decide +kernel),
   (by decide +kernel),
   (by unfold State.quiet; decide +kernel),
   (by decide +kernel)⟩

theorem test_meets_CommitSwitchesTheCopy_0b : ∃ (s : State) (h : Hdr) (launch : Nat) (hold : Bool) (epoch : Nat) (x : Nat),
    s.serves h epoch x ∧
    (s.ctx x).st = .running ∧
    (s.ctx x).committed ≠ some h.step ∧
    (s.ctx x).step = h.step ∧
    (s.ctx x).dumps = [] ∧
    s.quiet ∧
    Memory.wf s.mem = true :=
  ⟨(withCtx run0 0 {c1 with pend := [(4096, pb)], confirmed := true, launched := true}), (hdr 1), 8000000, true, 5, 0,
   (by unfold State.serves; decide +kernel),
   (by decide +kernel),
   (by decide +kernel),
   (by decide +kernel),
   (by decide +kernel),
   (by unfold State.quiet; decide +kernel),
   (by decide +kernel)⟩

theorem test_meets_ReexecutionAndLoss_0 : ∃ (s : State) (h : Hdr) (launch : Nat) (epoch : Nat) (x : Nat),
    s.serves h epoch x ∧
    (s.ctx x).st = .running ∧
    (s.ctx x).committed ≠ some h.step ∧
    ¬((s.ctx x).step = h.step ∧ (s.ctx x).attempt = h.attempt ∧ (s.ctx x).launch = some launch) ∧
    s.quiet :=
  ⟨(withCtx run0 0 {c1 with pend := [(4096, pb)], confirmed := true, launched := true}), (hdr 1 5 2), 8000000, 4, 0,
   (by unfold State.serves; decide +kernel),
   (by decide +kernel),
   (by decide +kernel),
   (by decide +kernel),
   (by unfold State.quiet; decide +kernel)⟩

theorem test_meets_ReexecutionAndLoss_0b : ∃ (s : State) (h : Hdr) (launch : Nat) (epoch : Nat) (x : Nat),
    s.serves h epoch x ∧
    (s.ctx x).st = .running ∧
    (s.ctx x).committed ≠ some h.step ∧
    ¬((s.ctx x).step = h.step ∧ (s.ctx x).attempt = h.attempt ∧ (s.ctx x).launch = some launch) ∧
    s.quiet :=
  ⟨(withCtx run0 0 {c1 with pend := [(4096, pb)], confirmed := true, launched := true}), (hdr 1 7 2), 8000000, 5, 0,
   (by unfold State.serves; decide +kernel),
   (by decide +kernel),
   (by decide +kernel),
   (by decide +kernel),
   (by unfold State.quiet; decide +kernel)⟩

theorem test_meets_ReexecutionAndLoss_1 : ∃ (s : State) (h : Hdr) (launch : Nat) (epoch : Nat) (x : Nat),
    s.serves h epoch x ∧
    (s.ctx x).committed = some h.step :=
  ⟨(withCtx run0 0 {c1 with pend := [(4096, pb)], confirmed := true, launched := true}), (hdr 1 4 2), 8000000, 5, 0,
   (by unfold State.serves; decide +kernel),
   (by decide +kernel)⟩

theorem test_meets_ReexecutionAndLoss_2 : ∃ (s : State) (h : Hdr) (spare : Nat) (epoch : Nat) (x : Nat),
    s.serves h epoch x :=
  ⟨(withCtx run0 0 {c1 with pend := [(4096, pb)], confirmed := true, launched := true}), (hdr 1 5 2), 8, 4, 0,
   (by unfold State.serves; decide +kernel)⟩

theorem test_meets_ReexecutionAndLoss_3 : ∃ (s : State) (h : Hdr) (lost : Nat) (epoch : Nat) (x : Nat),
    s.serves h epoch x ∧
    lost ≠ s.locus ∧
    (s.ctx x).st = .armed :=
  ⟨(withCtx run0 0 {c1 with st := .armed, coordLocus := 1}), (hdr 1 5 0), 3, 4, 0,
   (by unfold State.serves; decide +kernel),
   (by decide +kernel),
   (by decide +kernel)⟩

theorem test_meets_ReexecutionAndLoss_4 : ∃ (s : State) (h : Hdr) (lost : Nat) (spare : Nat) (epoch : Nat) (x : Nat),
    s.serves h epoch x ∧
    lost ≠ s.locus ∧
    spare ≠ s.locus :=
  ⟨(withCtx run0 0 {c1 with pend := [(4096, pb)], gey := {c1.gey with buddy := 3, bound := true} }), (hdr 1 5 0), 3, 8, 4, 0,
   (by unfold State.serves; decide +kernel),
   (by decide +kernel),
   (by decide +kernel)⟩

end StepLife

namespace CoresAndEngines
def kk (o : OpDesc) (raw : Bool) (t : Tile) : State := withCtx run0 0 { ctxR with exec := { Exec.reset with anchors := (List.range 64).map (fun r => (rowKey o.opId r, 30)) } }
def anc (o : OpDesc) (s : State) (t : Tile) (r : Nat) : Int := ((s.ctx 0).anchorFor o (64 * t.blockRow + 0 + r)).getD 0
def cells (o : OpDesc) (s : State) (t : Tile) (r : Nat) : List Window := (List.range t.bCols.length).map (fun j => t.disturb r j (t.cell o.sparse ((s.ctx 0).inFormat o 0) ((s.ctx 0).inFormat o 1) r j (anc o s t r)))
def chkc (o : OpDesc) (s : State) (t : Tile) (r : Nat) : Window := t.disturb r 4 (t.check o.sparse ((s.ctx 0).inFormat o 0) ((s.ctx 0).inFormat o 1) r (anc o s t r))
def badt : Tile := { tile0 false with faults := [⟨1, 2, 64⟩] }
def vins : List (List InElem) := [(List.range 8).map (fun i => el (0x38 + i)), (List.range 8).map (fun i => el (0x30 + 5*i))]
def vvs (s : State) := (vecValues (s.ctx 0) opV 16 vins).getD []
def near : State := { core with mem := { core.mem with bytes := [(nearAddr 3 5, 9#8), (nearAddr 3 7, 8#8)] } }
def cst : State := withCtx { run0 with clus := [(0, {Cluster.reset with vectorOp := some (0, 6)})] } 0 { ctxR with exec := { Exec.reset with started := [(6, [0, 1])] } }
def w0 : Window := ⟨5#96, 3, {}⟩
def xs : State := withCtx run0 0 { ctxR with exec := { Exec.reset with started := [(7, [0])] } }

theorem test_meets_CheckColumnCatchesEveryCell_0 : ∃ (t : Tile) (fa : Nat) (fb : Nat) (r : Nat) (anchor : Int) (k : Nat),
    (t.aRows.getD r []).length = k ∧
    (∀ b ∈ t.bCols, b.length = k) :=
  ⟨(tile0 false), 3, 3, 1, 20, 8,
   (by decide +kernel),
   (by decide +kernel)⟩

theorem test_meets_CheckColumnCatchesEveryCell_1 : ∃ (cells : List Window) (chk : Window) (w : Window) (l₁ : List Window) (l₂ : List Window) (mask : Nat),
    cells = l₁ ++ w :: l₂ ∧
    checkDetail cells chk = none ∧
    mask % 2 ^ 96 ≠ 0 :=
  ⟨[w0], w0, w0, [], [], 1,
   (by decide +kernel),
   (by decide +kernel),
   (by decide +kernel)⟩

theorem test_meets_CheckColumnCatchesEveryCell_1b : ∃ (cells : List Window) (chk : Window) (w : Window) (l₁ : List Window) (l₂ : List Window) (mask : Nat),
    cells = l₁ ++ w :: l₂ ∧
    checkDetail cells chk = none ∧
    mask % 2 ^ 96 ≠ 0 :=
  ⟨[w0], w0, w0, [], [], (2 ^ 95),
   (by decide +kernel),
   (by decide +kernel),
   (by decide +kernel)⟩

theorem test_meets_AnchorAndTilePassesComplete_0 : ∃ (s : State) (c : CoreCmd) (o : OpDesc) (share : AnchShare),
    s.runsOn c o ∧
    (share.rows.map Prod.fst).Nodup :=
  ⟨core, (cmd 5), op1, share0,
   (by unfold State.runsOn; decide +kernel),
   (by decide +kernel)⟩

theorem test_meets_AnchorAndTilePassesComplete_0b : ∃ (s : State) (c : CoreCmd) (o : OpDesc) (share : AnchShare),
    s.runsOn c o ∧
    (share.rows.map Prod.fst).Nodup :=
  ⟨core, (cmd 6), opV, share0,
   (by unfold State.runsOn; decide +kernel),
   (by decide +kernel)⟩

theorem test_meets_AnchorAndTilePassesComplete_1 : ∃ (s : State) (c : CoreCmd) (o : OpDesc) (tile : Tile) (fa : Nat) (fb : Nat) (anchor : Nat → Int) (cells : Nat → List Window) (chk : Nat → Window) (k : Ctx),
    s.runsOn c o ∧
    o.kind = .mma ∧
    k = s.ctx c.ctx ∧
    fa = k.inFormat o 0 ∧
    fb = k.inFormat o 1 ∧
    (∀ r, r < tile.aRows.length → k.anchorFor o (64 * tile.blockRow + c.core / 16 % 16 * 4 + r) = some (anchor r)) ∧
    (∀ r, cells r = (List.range tile.bCols.length).map (fun j => tile.disturb r j (tile.cell o.sparse fa fb r j (anchor r)))) ∧
    (∀ r, chk r = tile.disturb r 4 (tile.check o.sparse fa fb r (anchor r))) ∧
    tile.badNibble o.sparse = false ∧
    (∀ r, r < tile.aRows.length → o.anchorSrc = 2 ∨ boundExceeds (maxBounds ((List.range tile.bCols.length).map (fun j => maxBounds
      ((tile.pairs o.sparse r j).map (fun p => pairBound o.anchorSrc fa fb p.1.elem p.2.elem))))) (anchor r) = false) :=
  ⟨(kk op1 true (tile0 true)), (cmd 5), op1, (tile0 true), 3, 3, (anc op1 (kk op1 true (tile0 true)) (tile0 true)), (cells op1 (kk op1 true (tile0 true)) (tile0 true)), (chkc op1 (kk op1 true (tile0 true)) (tile0 true)), ((kk op1 true (tile0 true)).ctx 0),
   (by unfold State.runsOn; decide +kernel),
   (by decide +kernel),
   (by decide +kernel),
   (by decide +kernel),
   (by decide +kernel),
   (by decide +kernel),
   (fun _ => rfl),
   (fun _ => rfl),
   (by decide +kernel),
   (by decide +kernel)⟩

theorem test_meets_AnchorAndTilePassesComplete_1b : ∃ (s : State) (c : CoreCmd) (o : OpDesc) (tile : Tile) (fa : Nat) (fb : Nat) (anchor : Nat → Int) (cells : Nat → List Window) (chk : Nat → Window) (k : Ctx),
    s.runsOn c o ∧
    o.kind = .mma ∧
    k = s.ctx c.ctx ∧
    fa = k.inFormat o 0 ∧
    fb = k.inFormat o 1 ∧
    (∀ r, r < tile.aRows.length → k.anchorFor o (64 * tile.blockRow + c.core / 16 % 16 * 4 + r) = some (anchor r)) ∧
    (∀ r, cells r = (List.range tile.bCols.length).map (fun j => tile.disturb r j (tile.cell o.sparse fa fb r j (anchor r)))) ∧
    (∀ r, chk r = tile.disturb r 4 (tile.check o.sparse fa fb r (anchor r))) ∧
    tile.badNibble o.sparse = false ∧
    (∀ r, r < tile.aRows.length → o.anchorSrc = 2 ∨ boundExceeds (maxBounds ((List.range tile.bCols.length).map (fun j => maxBounds
      ((tile.pairs o.sparse r j).map (fun p => pairBound o.anchorSrc fa fb p.1.elem p.2.elem))))) (anchor r) = false) :=
  ⟨(kk op1 true badt), (cmd 5), op1, badt, 3, 3, (anc op1 (kk op1 true badt) badt), (cells op1 (kk op1 true badt) badt), (chkc op1 (kk op1 true badt) badt), ((kk op1 true badt).ctx 0),
   (by unfold State.runsOn; decide +kernel),
   (by decide +kernel),
   (by decide +kernel),
   (by decide +kernel),
   (by decide +kernel),
   (by decide +kernel),
   (fun _ => rfl),
   (fun _ => rfl),
   (by decide +kernel),
   (by decide +kernel)⟩

theorem test_meets_DataMovementCompletes_0 : ∃ (s : State) (c : CoreCmd) (o : OpDesc) (first : Nat) (ins : List (List InElem)) (nearOff : Nat) (vs : List (Val × Bool)) (bs : List Byte),
    s.runsOn c o ∧
    vecValues (s.ctx c.ctx) o first ins = some vs ∧
    isMx o.outFormat = false ∧
    bs = packElems o.outFormat (vs.zipIdx.map (fun e => (convOut o.outFormat
      (rmodeOf o.round (s.ctx c.ctx).seed (s.ctx c.ctx).step o.output (first + e.2)) o.infMode e.1.1).1)) ∧
    nearOff + bs.length ≤ nearSize ∧
    s.mem.nsPoison = [] ∧
    Memory.wf s.mem = true :=
  ⟨core, (cmd 6), opV, 16, vins, 100, (vvs core), (packElems 3 ((vvs core).zipIdx.map (fun e => (convOut 3 (rmodeOf opV.round (core.ctx 0).seed (core.ctx 0).step 12 (16 + e.2)) opV.infMode e.1.1).1))),
   (by unfold State.runsOn; decide +kernel),
   (by decide +kernel),
   (by decide +kernel),
   (by decide +kernel),
   (by decide +kernel),
   (by decide +kernel),
   (by decide +kernel)⟩

theorem test_meets_DataMovementCompletes_1 : ∃ (s : State) (c : CoreCmd) (o : OpDesc) (src : Nat) (dst : Nat) (len : Nat),
    s.runsOn c o ∧
    s.rangeOk src len = true ∧
    s.rangeOk dst len = true ∧
    addrLevel src = 2 ∧
    addrLevel dst = 2 ∧
    s.mem.nsPoison = [] ∧
    Memory.wf s.mem = true :=
  ⟨near, (cmd 6), opV, (nearAddr 3 4), (nearAddr 3 200), 8,
   (by unfold State.runsOn; decide +kernel),
   (by decide +kernel),
   (by decide +kernel),
   (by decide +kernel),
   (by decide +kernel),
   (by decide +kernel),
   (by decide +kernel)⟩

theorem test_meets_DataMovementCompletes_1b : ∃ (s : State) (c : CoreCmd) (o : OpDesc) (src : Nat) (dst : Nat) (len : Nat),
    s.runsOn c o ∧
    s.rangeOk src len = true ∧
    s.rangeOk dst len = true ∧
    addrLevel src = 2 ∧
    addrLevel dst = 2 ∧
    s.mem.nsPoison = [] ∧
    Memory.wf s.mem = true :=
  ⟨near, (cmd 6), opV, (nearAddr 3 4), (nearAddr 3 6), 8,
   (by unfold State.runsOn; decide +kernel),
   (by decide +kernel),
   (by decide +kernel),
   (by decide +kernel),
   (by decide +kernel),
   (by decide +kernel),
   (by decide +kernel)⟩

theorem test_meets_DataMovementCompletes_2 : ∃ (s : State) (x : Nat) (opId : Nat) (o : OpDesc) (src : Nat) (dst : Nat),
    x < 16 ∧
    (s.ctx x).op opId = some o ∧
    (s.ctx x).st = .running ∧
    (s.ctx x).launched = true ∧
    s.rangeOk src 4096 = true ∧
    s.rangeOk dst 4096 = true ∧
    addrLevel src < 2 ∧
    addrLevel dst < 2 ∧
    src % 4096 = 0 ∧
    dst % 4096 = 0 ∧
    KMap.find (s.ctx x).pend src = none ∧
    s.pends x dst = false ∧
    (s.checkAt src).poison = false ∧
    (s.checkAt src).fails ((s.ctx x).codeAt src) (s.readBytes src 4096) = 0 ∧
    Memory.wf s.mem = true :=
  ⟨core, 0, 8, opM, 0x8000, 0xC000,
   (by decide +kernel),
   (by decide +kernel),
   (by decide +kernel),
   (by decide +kernel),
   (by decide +kernel),
   (by decide +kernel),
   (by decide +kernel),
   (by decide +kernel),
   (by decide +kernel),
   (by decide +kernel),
   (by decide +kernel),
   (by decide +kernel),
   (by decide +kernel),
   (Laws.blank_passes _ _ _ _ rfl (by decide +kernel)),
   (by decide +kernel)⟩

theorem test_meets_DataMovementCompletes_3 : ∃ (s : State) (x : Nat) (opId : Nat) (o : OpDesc) (src : Nat) (dst : Nat) (len : Nat) (rd : ReadOutcome),
    x < 16 ∧
    (s.ctx x).op opId = some o ∧
    (s.ctx x).st = .running ∧
    (s.ctx x).launched = true ∧
    s.rangeOk src len = false :=
  ⟨core, 0, 8, opM, (2^48 - 5), 0xC000, 4096, .good,
   (by decide +kernel),
   (by decide +kernel),
   (by decide +kernel),
   (by decide +kernel),
   (by decide +kernel)⟩

theorem test_meets_DataMovementCompletes_3b : ∃ (s : State) (x : Nat) (opId : Nat) (o : OpDesc) (src : Nat) (dst : Nat) (len : Nat) (rd : ReadOutcome),
    x < 16 ∧
    (s.ctx x).op opId = some o ∧
    (s.ctx x).st = .running ∧
    (s.ctx x).launched = true ∧
    s.rangeOk src len = false :=
  ⟨core, 0, 8, opM, (4), (0x9000), (2^36), .uncorrectable,
   (by decide +kernel),
   (by decide +kernel),
   (by decide +kernel),
   (by decide +kernel),
   (by decide +kernel)⟩

theorem test_meets_OperatorsAndSendComplete_0 : ∃ (s : State) (x : Nat) (opId : Nat) (o : OpDesc) (g : Nat),
    x < 16 ∧
    g < numClusters ∧
    (s.ctx x).op opId = some o ∧
    (s.ctx x).st = .running ∧
    (s.ctx x).launched = true ∧
    g ∈ o.clusters ∧
    (s.ctx x).depsMet opId = true ∧
    (KMap.getD (s.ctx x).exec.started opId []).contains g = false ∧
    (s.cluster g).queue = [] ∧
    o.batchable = false ∧
    (o.unitOf = 1 → (s.cluster g).arrayOp = none) ∧
    (o.unitOf = 2 → (s.cluster g).vectorOp = none) :=
  ⟨core, 0, 5, op1, 0,
   (by decide +kernel),
   (by decide +kernel),
   (by decide +kernel),
   (by decide +kernel),
   (by decide +kernel),
   (by decide +kernel),
   (by decide +kernel),
   (by decide +kernel),
   (by decide +kernel),
   (by decide +kernel),
   (by decide +kernel),
   (by decide +kernel)⟩

theorem test_meets_OperatorsAndSendComplete_0b : ∃ (s : State) (x : Nat) (opId : Nat) (o : OpDesc) (g : Nat),
    x < 16 ∧
    g < numClusters ∧
    (s.ctx x).op opId = some o ∧
    (s.ctx x).st = .running ∧
    (s.ctx x).launched = true ∧
    g ∈ o.clusters ∧
    (s.ctx x).depsMet opId = true ∧
    (KMap.getD (s.ctx x).exec.started opId []).contains g = false ∧
    (s.cluster g).queue = [] ∧
    o.batchable = false ∧
    (o.unitOf = 1 → (s.cluster g).arrayOp = none) ∧
    (o.unitOf = 2 → (s.cluster g).vectorOp = none) :=
  ⟨core, 0, 6, opV, 1,
   (by decide +kernel),
   (by decide +kernel),
   (by decide +kernel),
   (by decide +kernel),
   (by decide +kernel),
   (by decide +kernel),
   (by decide +kernel),
   (by decide +kernel),
   (by decide +kernel),
   (by decide +kernel),
   (by decide +kernel),
   (by decide +kernel)⟩

theorem test_meets_OperatorsAndSendComplete_1 : ∃ (s : State) (x : Nat) (opId : Nat) (o : OpDesc) (g : Nat),
    x < 16 ∧
    g < numClusters ∧
    (s.ctx x).op opId = some o ∧
    (s.ctx x).st = .running ∧
    (s.ctx x).launched = true ∧
    (KMap.getD (s.ctx x).exec.started opId []).contains g = true ∧
    (KMap.getD (s.ctx x).exec.done opId []).contains g = false ∧
    (∃ k ∈ o.clusters, k ≠ g ∧ k ∉ KMap.getD (s.ctx x).exec.done opId []) ∧
    (∀ q ∈ (s.cluster g).queue, ¬(q.ctx = x ∧ q.opId = opId)) :=
  ⟨cst, 0, 6, opV, 0,
   (by decide +kernel),
   (by decide +kernel),
   (by decide +kernel),
   (by decide +kernel),
   (by decide +kernel),
   (by decide +kernel),
   (by decide +kernel),
   (by decide +kernel),
   (by decide +kernel)⟩

theorem test_meets_OperatorsAndSendComplete_2 : ∃ (s : State) (g : Nat) (opId : Nat),
    g < numClusters ∧
    (s.cluster g).streaming = some opId :=
  ⟨{ core with clus := [(5, {Cluster.reset with streaming := some 6})] }, 5, 6,
   (by decide +kernel),
   (by decide +kernel)⟩

theorem test_meets_OperatorsAndSendComplete_3 : ∃ (s : State) (g : Nat) (r : ThinReq),
    g < numClusters ∧
    (s.cluster g).queue = [r] :=
  ⟨{ core with clus := [(0, {Cluster.reset with queue := [⟨0, 5, 4, 7⟩]})] }, 0, ⟨0, 5, 4, 7⟩,
   (by decide +kernel),
   (by decide +kernel)⟩

theorem test_meets_OperatorsAndSendComplete_4 : ∃ (s : State) (c : CoreCmd) (o : OpDesc) (b : Nat),
    s.runsOn c o :=
  ⟨core, (cmd 6), opV, 3,
   (by unfold State.runsOn; decide +kernel)⟩

theorem test_meets_OperatorsAndSendComplete_5 : ∃ (s : State) (c : CoreCmd) (o : OpDesc) (row : Nat) (col : Nat) (parts : Nat) (n : Nat) (w : Window),
    s.runsOn c o ∧
    KMap.find (s.ctx c.ctx).exec.raw c.core = some [(0, 0, w)] ∧
    KMap.find (s.ctx c.ctx).exec.adder (adderKey (coreCluster c.core) c.opId row col) = none ∧
    1 < parts :=
  ⟨(withCtx run0 0 { ctxR with exec := { Exec.reset with raw := [(3, [(0, 0, w0)])] } }), (cmd 5), op1, 2, 4, 2, 4, w0,
   (by unfold State.runsOn; decide +kernel),
   (by decide +kernel),
   (by decide +kernel),
   (by decide +kernel)⟩

theorem test_meets_MemoryUpkeepCompletes_0 : ∃ (s : State) (p : Nat) (e : Nat) (flips : List (Nat × Nat)) (rd : ReadOutcome),
    p < 16 ∧
    e < 4 ∧
    s.jobOn p e = none :=
  ⟨core, 0, 1, [], .good,
   (by decide +kernel),
   (by decide +kernel),
   (by decide +kernel)⟩

theorem test_meets_MemoryUpkeepCompletes_1 : ∃ (s : State) (p : Nat) (e : Nat) (rd : ReadOutcome) (x : Nat) (o : OpDesc) (perm : List Nat) (src : Tensor) (dst : Tensor) (out : List Byte),
    p < 16 ∧
    e < 4 ∧
    s.jobOn p e = some (x, o) ∧
    o.kind = .xpose perm ∧
    (s.ctx x).tensor (o.inputs.getD 0 0) = some src ∧
    (s.ctx x).tensor o.output = some dst ∧
    isMx src.format = false ∧
    src.blocks = 1 ∧
    dst.blocks = 1 ∧
    KMap.find (s.ctx x).pend (blockOf (src.blockAddr 0)) = none ∧
    s.pends x (dst.blockAddr 0) = false ∧
    (s.checkAt (src.blockAddr 0)).poison = false ∧
    rd = .good ∧
    (s.checkAt (src.blockAddr 0)).fails ((s.ctx x).codeAt (src.blockAddr 0)) (s.readBytes (blockOf (src.blockAddr 0)) 4096) = 0 ∧
    permuteBlocks perm src dst [s.readBytes (blockOf (src.blockAddr 0)) 4096] [] = [out] ∧
    Memory.wf s.mem = true :=
  ⟨xs, 0, 3, .good, 0, opX, [1, 0, 2, 3], tC, tE, ((permuteBlocks [1, 0, 2, 3] tC tE [xs.readBytes (blockOf (tC.blockAddr 0)) 4096] []).headD []),
   (by decide +kernel),
   (by decide +kernel),
   (by decide +kernel),
   (by decide +kernel),
   (by decide +kernel),
   (by decide +kernel),
   (by decide +kernel),
   (by decide +kernel),
   (by decide +kernel),
   (by decide +kernel),
   (by decide +kernel),
   (by decide +kernel),
   (by decide +kernel),
   (Laws.blank_passes _ _ _ _ rfl (by decide +kernel)),
   rfl,
   (by decide +kernel)⟩

theorem test_meets_MemoryUpkeepCompletes_2 : ∃ (s : State) (level : Nat) (unit : Nat) (fg : Bool),
    unitOk level unit = true :=
  ⟨core, 0, 3, false,
   (by decide +kernel)⟩

theorem test_meets_MemoryUpkeepCompletes_2b : ∃ (s : State) (level : Nat) (unit : Nat) (fg : Bool),
    unitOk level unit = true :=
  ⟨core, 1, 3, true,
   (by decide +kernel)⟩

theorem test_meets_MemoryUpkeepCompletes_3 : ∃ (s : State) (n : Nat),
    s.fcHeld = true ∧
    (n + 2 ^ 27 - s.cfg.calGapPhase) % 2 ^ 27 = 0 :=
  ⟨core, (2^27 * 2 + core.cfg.calGapPhase),
   (by decide +kernel),
   (by decide +kernel)⟩

theorem test_meets_MemoryUpkeepCompletes_4 : ∃ (s : State) (n : Nat),
    s.mem.gapCount = some n :=
  ⟨{core with mem := {core.mem with gapCount := some 77}}, 77,
   (by decide +kernel)⟩

end CoresAndEngines

namespace Jobs
def cA : Ctx := { ctxP .armed with coord := { Coord.reset with active := true, epoch := 4, standby := 2 }, adopted := 4, launch := none }
def jA := withCtx run0 0 cA
def dg : Nat := descDigest cA.desc
def cH : Ctx := { ctxP .held with coord := { Coord.reset with active := true, epoch := 4, standby := 2 , started := true}, adopted := 4, launch := none }
def un (dst q : Nat) : Unacked := ⟨⟨dst, 16, q, 1, 1, 0, 0, 0, [], 1⟩, 10, 0⟩
def fa (l : List Unacked) : State := { run0 with fab := { run0.fab with unacked := l } }
def cS : Ctx := { ctxP .running with gey := { GeyCtx.reset with buddy := 3, bound := true, seedAcks := [7], streamAcks := [7, 8] } }
def lm (r : Nat) : State := { run0 with fab := { run0.fab with limiters := [(8*3+2, ⟨r, 0, 0⟩), (8*4, ⟨6,0,0⟩)] } }

theorem test_meets_JobsStartDrainAndLoseTheirHost_0 : ∃ (s : State) (h : Hdr) (digest : Nat) (x : Nat),
    s.takes h = true ∧
    s.liveCtxs.filter (fun x => (s.ctx x).st == .armed && (s.ctx x).coord.active && !(s.ctx x).coord.started) = [x] ∧
    (s.ctx x).coord.armed.length < (s.ctx x).participants ∧
    s.fab.early = [] :=
  ⟨jA, (hdr 3), dg, 0,
   (by decide +kernel),
   (by decide +kernel),
   (by decide +kernel),
   (by decide +kernel)⟩

theorem test_meets_JobsStartDrainAndLoseTheirHost_1 : ∃ (s : State) (h : Hdr) (digest : Nat) (x : Nat) (l : Nat),
    s.takes h = true ∧
    s.liveCtxs.filter (fun x => (s.ctx x).st == .armed && (s.ctx x).coord.active && !(s.ctx x).coord.started) = [x] ∧
    (s.ctx x).coord.armed.length < (s.ctx x).participants ∧
    s.fab.early = [] ∧
    (s.ctx x).coord.restore = none ∧
    s.fcHeld = true ∧
    (s.atEffect h).mayIssue x = true ∧
    (s.ctx x).participants ≤ (KMap.put (s.ctx x).coord.armed h.src digest).length ∧
    (∀ e ∈ KMap.put (s.ctx x).coord.armed h.src digest, e.2 = descDigest (s.ctx x).desc) ∧
    l = (s.atEffect h).launchCount 0 :=
  ⟨(withCtx run0 0 {cA with coord := {cA.coord with armed := [(1, dg)]}}), (hdr 3), dg, 0, (((withCtx run0 0 {cA with coord := {cA.coord with armed := [(1, dg)]}}).atEffect (hdr 3)).launchCount 0),
   (by decide +kernel),
   (by decide +kernel),
   (by decide +kernel),
   (by decide +kernel),
   (by decide +kernel),
   (by decide +kernel),
   (by decide +kernel),
   (by decide +kernel),
   (by decide +kernel),
   (by decide +kernel)⟩

theorem test_meets_ParticipantFollowsTheCoordinator_0 : ∃ (s : State) (h : Hdr) (launch : Nat) (policy : Nat) (epoch : Nat) (x : Nat),
    s.serves h epoch x ∧
    (s.ctx x).st = .armed ∧
    s.quiet :=
  ⟨jA, (hdr 1 1 0), 6000000, 1, 4, 0,
   (by unfold State.serves; decide +kernel),
   (by decide +kernel),
   (by unfold State.quiet; decide +kernel)⟩

theorem test_meets_ParticipantFollowsTheCoordinator_1 : ∃ (s : State) (h : Hdr) (part : Nat) (bitmap : Nat) (epoch : Nat) (x : Nat),
    s.serves h epoch x :=
  ⟨jA, (hdr 1 1 0), 0, (2^8+2^1), 4, 0,
   (by unfold State.serves; decide +kernel)⟩

theorem test_meets_ParticipantFollowsTheCoordinator_1b : ∃ (s : State) (h : Hdr) (part : Nat) (bitmap : Nat) (epoch : Nat) (x : Nat),
    s.serves h epoch x :=
  ⟨jA, (hdr 1 1 0), 1, (2^8+2^1), 5, 0,
   (by unfold State.serves; decide +kernel)⟩

theorem test_meets_ParticipantFollowsTheCoordinator_2 : ∃ (s : State) (h : Hdr) (launch : Nat) (epoch : Nat) (x : Nat),
    s.serves h epoch x ∧
    (s.ctx x).st = .held ∧
    s.quiet :=
  ⟨(withCtx run0 0 cH), (hdr 1 5 17), 6000000, 4, 0,
   (by unfold State.serves; decide +kernel),
   (by decide +kernel),
   (by unfold State.quiet; decide +kernel)⟩

theorem test_meets_ParticipantFollowsTheCoordinator_3 : ∃ (s : State) (h : Hdr) (reason : Nat) (epoch : Nat) (x : Nat),
    s.serves h epoch x ∧
    (s.ctx x).st = .running ∧
    s.quiet :=
  ⟨(withCtx run0 0 {cH with st := .running}), (hdr 1 5 17), 2, 4, 0,
   (by unfold State.serves; decide +kernel),
   (by decide +kernel),
   (by unfold State.quiet; decide +kernel)⟩

theorem test_meets_ParticipantFollowsTheCoordinator_4 : ∃ (s : State) (h : Hdr) (td : Nat) (epoch : Nat) (x : Nat),
    s.serves h epoch x :=
  ⟨(withCtx run0 0 {cH with st := .running}), (hdr 1 5 17), 123456, 4, 0,
   (by unfold State.serves; decide +kernel)⟩

theorem test_meets_ParticipantFollowsTheCoordinator_4b : ∃ (s : State) (h : Hdr) (td : Nat) (epoch : Nat) (x : Nat),
    s.serves h epoch x :=
  ⟨(withCtx run0 0 {cH with st := .draining, drainAt := some 3}), (hdr 1 5 17), 123456, 4, 0,
   (by unfold State.serves; decide +kernel)⟩

theorem test_meets_JobsStartDrainAndLoseTheirHost_2 : ∃ (s : State) (x : Nat) (d : Nat),
    (s.ctx x).drainAt = some d :=
  ⟨(withCtx { run0 with fab := { run0.fab with limiters := [(8*1+2, ⟨5,0,0⟩), (8*4, ⟨6,0,0⟩)] } } 0 {cH with st := .draining, drainAt := some 30}), 0, 30,
   (by decide +kernel)⟩

theorem test_meets_JobsStartDrainAndLoseTheirHost_3 : ∃ (s : State) (x : Nat) (d : Nat),
    (s.ctx x).drainAt = some d ∧
    (s.ctx x).st ≠ .empty ∧
    (∀ r ∈ s.recov.repeats, r.ctx ≠ x) :=
  ⟨(withCtx run0 0 {cH with st := .draining, drainAt := some 30}), 0, 30,
   (by decide +kernel),
   (by decide +kernel),
   (by decide +kernel)⟩

theorem test_meets_JobsStartDrainAndLoseTheirHost_4 : ∃ (s : State) (x : Nat),
    (s.ctx x).drainAt = none :=
  ⟨(withCtx run0 0 cH), 0,
   (by decide +kernel)⟩

theorem test_meets_JobsStartDrainAndLoseTheirHost_5 : ∃ (s : State) (h : Hdr) (x : Nat),
    s.takes h = true ∧
    s.coordCtx h.src 0 = some x :=
  ⟨(withCtx run0 0 {cH with st := .draining}), (hdr 3 0 0), 0,
   (by decide +kernel),
   (by decide +kernel)⟩

theorem test_meets_JobsStartDrainAndLoseTheirHost_6 : ∃ (s : State) (h : Hdr) (tick : Nat),
    s.takes h = true :=
  ⟨(withCtx run0 0 {cH with st := .running}), (hdr 3 0 0), 7,
   (by decide +kernel)⟩

theorem test_meets_AcknowledgementsComplete_0 : ∃ (s : State) (h : Hdr) (q : Nat),
    (s.advanceTo h.stamp).releaseTick h = none ∧
    h.srcEp = 16 ∧
    (∀ x ∈ s.liveCtxs, (s.ctx x).coord.active = false) :=
  ⟨(fa [un 3 7, un 3 8, un 4 7]), (hdr 3), 7,
   (by decide +kernel),
   (by decide +kernel),
   (by decide +kernel)⟩

theorem test_meets_AcknowledgementsComplete_1 : ∃ (s : State) (h : Hdr) (q : Nat) (x : Nat),
    (s.advanceTo h.stamp).releaseTick h = none ∧
    h.srcEp ≠ 16 ∧
    s.liveCtxs = [x] ∧
    (s.ctx x).gey.buddy = h.src ∧
    (s.ctx x).gey.writeAcks = [] :=
  ⟨(withCtx run0 0 cS), {hdr 3 with srcEp := 0}, 7, 0,
   (by decide +kernel),
   (by decide +kernel),
   (by decide +kernel),
   (by decide +kernel),
   (by decide +kernel)⟩

theorem test_meets_AcknowledgementsComplete_1b : ∃ (s : State) (h : Hdr) (q : Nat) (x : Nat),
    (s.advanceTo h.stamp).releaseTick h = none ∧
    h.srcEp ≠ 16 ∧
    s.liveCtxs = [x] ∧
    (s.ctx x).gey.buddy = h.src ∧
    (s.ctx x).gey.writeAcks = [] :=
  ⟨(withCtx run0 0 {cS with gey := {cS.gey with seedAcks := [7, 2^31+7], streamAcks := [9]}}), {hdr 3 with srcEp := 0}, 7, 0,
   (by decide +kernel),
   (by decide +kernel),
   (by decide +kernel),
   (by decide +kernel),
   (by decide +kernel)⟩

theorem test_meets_AcknowledgementsComplete_2 : ∃ (s : State) (h : Hdr) (q : Nat) (x : Nat) (b : Nat × Nat × Nat),
    (s.advanceTo h.stamp).releaseTick h = none ∧
    h.srcEp = 16 ∧
    s.liveCtxs = [x] ∧
    (s.ctx x).coord.active = true ∧
    (s.ctx x).coord.standby = h.src ∧
    (s.ctx x).coord.beatSent = some b ∧
    b.1 = q :=
  ⟨(withCtx run0 0 {cH with coord := {cH.coord with standby := 2, beatSent := some (7, 100, 200)}}), (hdr 2), 7, 0, (7, 100, 200),
   (by decide +kernel),
   (by decide +kernel),
   (by decide +kernel),
   (by decide +kernel),
   (by decide +kernel),
   (by decide +kernel),
   (by decide +kernel)⟩

theorem test_meets_AcknowledgementsComplete_4 : ∃ (s : State) (h : Hdr) (vc : Nat) (l : Limiter),
    KMap.find s.fab.limiters (8 * h.src + vc) = some l ∧
    l.cutAt + 4096 ≤ (s.advanceTo h.stamp).time.loc :=
  ⟨(lm 1000), (hdr 3), 2, ⟨1000, 0, 0⟩,
   (by decide +kernel),
   (by decide +kernel)⟩

theorem test_meets_AcknowledgementsComplete_4b : ∃ (s : State) (h : Hdr) (vc : Nat) (l : Limiter),
    KMap.find s.fab.limiters (8 * h.src + vc) = some l ∧
    l.cutAt + 4096 ≤ (s.advanceTo h.stamp).time.loc :=
  ⟨(lm 5), (hdr 3), 2, ⟨5, 0, 0⟩,
   (by decide +kernel),
   (by decide +kernel)⟩

theorem test_meets_AcknowledgementsComplete_5 : ∃ (s : State) (dst : Nat) (vc : Nat) (l : Limiter),
    KMap.find s.fab.limiters (8 * dst + vc) = some l :=
  ⟨(lm 1020), 3, 2, ⟨1020, 0, 0⟩,
   (by decide +kernel)⟩

theorem test_meets_AcknowledgementsComplete_6 : ∃ (s : State) (dst : Nat) (ep : Nat) (q : Nat) (u : Unacked),
    s.fab.unacked.find? (fun u => u.m.dst == dst && u.m.ep == ep && u.m.seq == q) = some u ∧
    u.notBefore ≤ s.time.loc :=
  ⟨(fa [un 3 7, un 3 8, un 4 7]), 3, 16, 8, (un 3 8),
   (by decide +kernel),
   (by decide +kernel)⟩

end Jobs

namespace FabricAndTrees
def un (dst q : Nat) : Unacked := ⟨⟨dst, 16, q, 1, 1, 0, 0, 0, [], 1⟩, 10, 0⟩
def fa (l : List Unacked) : State := { run0 with fab := { run0.fab with unacked := l } }
def mkH (kind vc len dst ep : Nat) : BitVec 512 := let w := field kind 4 508 + field vc 3 505 + field len 5 498 + field dst 17 462 + field 3 17 445 + field ep 5 440 ; BitVec.ofNat 512 (w + hdrCrc w)
def outs0 (v : Nat) : State := { run0 with fab := { run0.fab with outs := (List.range 512).map (fun i => (i, ⟨v, none, false, 0⟩)) } }
def oR (r : Bool) : State := { run0 with fab := { run0.fab with outs := [(8 * (16 * 1 + 3) + 2, ⟨7, some 5, r, 0⟩)] } }
def bo : State := { run0 with fab := { run0.fab with orders := [⟨2, 5, true, 9⟩] } }
def cD : State := withCtx run0 0 ctxR
def dp (part : Nat) (ack : Bool) (check : Nat := 0) : DataPart := ⟨false, 12, 0x8000, check, part, ack, List.replicate 1024 0#8⟩
def rs (a : Bool) : Reasm := ⟨3, 12, 0x8000, 5, 1, false, 0, a, [(0, List.replicate 1024 0#8), (1, List.replicate 1024 0#8), (2, List.replicate 1024 0#8)]⟩
def chk12 : Nat := 0x98F94189

theorem test_meets_AcknowledgementsComplete_0b : ∃ (s : State) (h : Hdr) (q : Nat),
    (s.advanceTo h.stamp).releaseTick h = none ∧
    h.srcEp = 16 ∧
    (∀ x ∈ s.liveCtxs, (s.ctx x).coord.active = false) :=
  ⟨(fa [un 3 7, un 3 8, un 4 7]), (hdr 3), 7,
   (by decide +kernel),
   (by decide +kernel),
   (by decide +kernel)⟩

theorem test_meets_CrossingsAndDataPackets_0 : ∃ (s : State) (die : Nat) (header : BitVec 512) (now : Nat),
    die < 4 ∧
    hdrGood header.toNat = true ∧
    hdrTv header.toNat = false ∧
    s.fab.waits = [] ∧
    (s.advanceTo now).hop die header.toNat = .deliver :=
  ⟨run0, 0, (mkH 0 0 16 1 2), 5000100,
   (by decide +kernel),
   (by decide +kernel),
   (by decide +kernel),
   (by decide +kernel),
   (by decide +kernel)⟩

theorem test_meets_CrossingsAndDataPackets_0b : ∃ (s : State) (die : Nat) (header : BitVec 512) (now : Nat),
    die < 4 ∧
    hdrGood header.toNat = true ∧
    hdrTv header.toNat = false ∧
    s.fab.waits = [] ∧
    (s.advanceTo now).hop die header.toNat = .deliver :=
  ⟨run0, 1, (mkH 1 2 16 1 5), 50,
   (by decide +kernel),
   (by decide +kernel),
   (by decide +kernel),
   (by decide +kernel),
   (by decide +kernel)⟩

theorem test_meets_CrossingsAndDataPackets_1 : ∃ (s : State) (die : Nat) (header : BitVec 512) (now : Nat),
    die < 4 ∧
    hdrGood header.toNat = true ∧
    hdrTv header.toNat = false ∧
    (s.advanceTo now).mayGrant die 34 header.toNat ((s.advanceTo now).hop die header.toNat) = false :=
  ⟨(outs0 3), 0, (mkH 0 0 16 1 9), 50,
   (by decide +kernel),
   (by decide +kernel),
   (by decide +kernel),
   (by decide +kernel)⟩

theorem test_meets_CrossingsAndDataPackets_2 : ∃ (s : State) (die : Nat) (header : BitVec 512) (now : Nat),
    die < 4 ∧
    hdrGood header.toNat = false ∧
    (∀ x, (s.ctx x).st ≠ .running) :=
  ⟨run0, 0, (mkH 0 0 16 1 2 + 1), 50,
   (by decide +kernel),
   (by decide +kernel),
   (fun _ => show CtxSt.empty ≠ CtxSt.running by decide)⟩

theorem test_meets_CrossingsAndDataPackets_2b : ∃ (s : State) (die : Nat) (header : BitVec 512) (now : Nat),
    die < 4 ∧
    hdrGood header.toNat = false ∧
    (∀ x, (s.ctx x).st ≠ .running) :=
  ⟨run0, 3, (mkH 7 0 16 1 2), 50,
   (by decide +kernel),
   (by decide +kernel),
   (fun _ => show CtxSt.empty ≠ CtxSt.running by decide)⟩

theorem test_meets_CrossingsAndDataPackets_3 : ∃ (s : State) (die : Nat) (out : Nat) (vc : Nat),
    die < 4 ∧
    out < 10 ∧
    vc < 8 ∧
    (s.outVc die out vc).waiting ≠ none ∧
    (s.outVc die out vc).reserved = false ∧
    (s.outVc die out vc).coolUntil ≤ s.time.loc :=
  ⟨(oR false), 1, 3, 2,
   (by decide +kernel),
   (by decide +kernel),
   (by decide +kernel),
   (by decide +kernel),
   (by decide +kernel),
   (by decide +kernel)⟩

theorem test_meets_CrossingsAndDataPackets_4 : ∃ (s : State) (die : Nat) (out : Nat) (vc : Nat),
    die < 4 ∧
    out < 10 ∧
    vc < 8 ∧
    (s.outVc die out vc).reserved = true ∧
    s.fab.waits = [] :=
  ⟨(oR true), 1, 3, 2,
   (by decide +kernel),
   (by decide +kernel),
   (by decide +kernel),
   (by decide +kernel),
   (by decide +kernel)⟩

theorem test_meets_CrossingsAndDataPackets_5 : ∃ (s : State) (h : Hdr) (dim : Nat) (after : Nat) (isBreak : Bool) (eff : Nat),
    s.takes h = true ∧
    (∀ q ∈ s.fab.orders, ¬(q.dim = dim % 4 ∧ q.after = after ∧ q.isBreak = isBreak)) :=
  ⟨run0, (hdr 3 0 0), 6, 7, true, 99,
   (by decide +kernel),
   (by decide +kernel)⟩

theorem test_meets_CrossingsAndDataPackets_5b : ∃ (s : State) (h : Hdr) (dim : Nat) (after : Nat) (isBreak : Bool) (eff : Nat),
    s.takes h = true ∧
    (∀ q ∈ s.fab.orders, ¬(q.dim = dim % 4 ∧ q.after = after ∧ q.isBreak = isBreak)) :=
  ⟨run0, (hdr 3 0 0), 1, 7, false, 99,
   (by decide +kernel),
   (by decide +kernel)⟩

theorem test_meets_CrossingsAndDataPackets_6 : ∃ (s : State) (dim : Nat) (o : BreakOrder),
    dim < 4 ∧
    s.fab.orders.find? (fun o => o.dim == dim) = some o ∧
    o.isBreak = true ∧
    s.isLine dim = false ∧
    s.fab.waits = [] :=
  ⟨bo, 2, ⟨2, 5, true, 9⟩,
   (by decide +kernel),
   (by decide +kernel),
   (by decide +kernel),
   (by decide +kernel),
   (by decide +kernel)⟩

theorem test_meets_CrossingsAndDataPackets_7 : ∃ (s : State) (h : Hdr) (d : DataPart) (rd : ReadOutcome) (x : Nat),
    (s.advanceTo h.stamp).inRun = true ∧
    (s.advanceTo h.stamp).tooOld h = false ∧
    h.cm = false ∧
    s.domainCtx h.domain = some x ∧
    (s.ctx x).st = .running ∧
    addrOk d.addr = true ∧
    inMask (s.ctx x).mask (addrPart d.addr) = true ∧
    h.dstEp = addrPart d.addr ∧
    d.bulk = false ∧
    (s.ctx x).executing h.step h.attempt = true ∧
    s.fab.reasm = [] :=
  ⟨cD, {hdr 3 with dstEp := 0}, (dp 1 true), .good, 0,
   (by decide +kernel),
   (by decide +kernel),
   (by decide +kernel),
   (by decide +kernel),
   (by decide +kernel),
   (by decide +kernel),
   (by decide +kernel),
   (by decide +kernel),
   (by decide +kernel),
   (by decide +kernel),
   (by decide +kernel)⟩

theorem test_meets_CrossingsAndDataPackets_8 : ∃ (s : State) (h : Hdr) (d : DataPart) (x : Nat) (r : Reasm) (p₀ : List Byte) (p₁ : List Byte) (p₂ : List Byte),
    (s.advanceTo h.stamp).inRun = true ∧
    (s.advanceTo h.stamp).tooOld h = false ∧
    h.cm = false ∧
    s.domainCtx h.domain = some x ∧
    (s.ctx x).st = .running ∧
    addrOk d.addr = true ∧
    inMask (s.ctx x).mask (addrPart d.addr) = true ∧
    h.dstEp = addrPart d.addr ∧
    d.bulk = false ∧
    (s.ctx x).executing h.step h.attempt = true ∧
    s.fab.reasm = [r] ∧
    r.src = h.src ∧
    r.tensorId = d.tensorId ∧
    r.addr = d.addr ∧
    r.step = h.step ∧
    r.attempt = h.attempt ∧
    r.bulk = false ∧
    r.parts = [(0, p₀), (1, p₁), (2, p₂)] ∧
    d.part = 3 ∧
    s.pends x d.addr = false ∧
    Memory.wf s.mem = true ∧
    ({ mass := d.check / 2 ^ 32, crc := d.check % 2 ^ 32, poison := false, invalid := false } : BlockCheck).fails ((s.ctx x).codeOf d.tensorId)
      (p₀ ++ (p₁ ++ (p₂ ++ fitBytes 1024 d.payload))) = 0 :=
  ⟨{ cD with fab := { cD.fab with reasm := [rs false] } }, {hdr 3 with dstEp := 0}, (dp 3 true chk12), 0, (rs false), (List.replicate 1024 0#8), (List.replicate 1024 0#8), (List.replicate 1024 0#8),
   (by decide +kernel),
   (by decide +kernel),
   (by decide +kernel),
   (by decide +kernel),
   (by decide +kernel),
   (by decide +kernel),
   (by decide +kernel),
   (by decide +kernel),
   (by decide +kernel),
   (by decide +kernel),
   (by decide +kernel),
   (by decide +kernel),
   (by decide +kernel),
   (by decide +kernel),
   (by decide +kernel),
   (by decide +kernel),
   (by decide +kernel),
   (by decide +kernel),
   (by decide +kernel),
   (by decide +kernel),
   (by decide +kernel),
   (by
     have e : List.replicate 1024 (0#8 : Byte) ++ (List.replicate 1024 0#8 ++ (List.replicate 1024 0#8 ++ fitBytes 1024 (List.replicate 1024 0#8))) =
         List.replicate 4096 0#8 := by
       simp only [fitBytes, List.length_replicate, Nat.sub_self, List.replicate_zero, List.append_nil, List.take_replicate,
         List.replicate_append_replicate, Nat.min_self, Nat.reduceAdd]
     exact (congrArg (BlockCheck.fails BlockCheck.blank (Ctx.codeOf (cD.ctx 0) 12)) e).trans (Laws.blank_block_passes _))⟩

theorem test_meets_CrossingsAndDataPackets_9 : ∃ (s : State) (h : Hdr) (d : DataPart) (rd : ReadOutcome),
    (s.advanceTo h.stamp).inRun = true ∧
    s.domainCtx h.domain = none :=
  ⟨cD, {hdr 3 with dstEp := 0, domain := 99}, (dp 1 true), .good,
   (by decide +kernel),
   (by decide +kernel)⟩

end FabricAndTrees

namespace PortsAndLinks
def sq0 : SqSlot := ⟨6, 4, 0, 5, 1, 0, 0, 1, [2], [], [], [], 0⟩
def tp (g : Nat) : TelPkt := ⟨0, telOp g, g, 3, false, 0, List.range (telCount g), 0⟩
def rt (r : Nat) : State := { run0 with time := { run0.time with root := r, isRoot := r == 1 } }
def ts0 : TelSlot := ⟨0, 1, 0, 0, 9, 2, [2], telEmpty 1, false⟩
def rd : Reading := ⟨1, 3, 400, 77, 5⟩
def vent : State := cfgBlob run0 0x0D0C ((List.replicate 15 0#8 ++ [9#8]) ++ [128#8] ++ List.replicate 119 0#8)
def body0 : List Byte := [1#8, 0#8, 0#8, 0#8] ++ List.replicate 8 0#8 ++ beBytes 2 60 ++ [0#8, 0#8]
def sb (l : Option Nat) : Sub := ⟨9, 5000, 2, body0, 33, l, 3, none, [], [(4, 1, []), (5, 2, [])]⟩
def vs (l : Option Nat) : State := { vent with tel := { vent.tel with subs := [sb l, {sb l with subId := 3}] } }

theorem test_meets_TreesFold_0 : ∃ (s : State) (h : Hdr) (r : RedPkt) (x : Nat) (d : Collective),
    (s.advanceTo h.stamp).inRun = true ∧
    (s.advanceTo h.stamp).tooOld h = false ∧
    h.cm = false ∧
    s.domainCtx h.domain = some x ∧
    (s.ctx x).executing h.step h.attempt = true ∧
    r.op < 8 ∧
    (s.ctx x).collective r.collId = some d ∧
    (s.advanceTo h.stamp).releaseTick h = none ∧
    s.fab.slots = [] ∧
    h.src ≠ s.locus ∧
    r.form = 0 :=
  ⟨coll, (hdr 2), red0, 0, cl1,
   (by decide +kernel),
   (by decide +kernel),
   (by decide +kernel),
   (by decide +kernel),
   (by decide +kernel),
   (by decide +kernel),
   (by decide +kernel),
   (by decide +kernel),
   (by decide +kernel),
   (by decide +kernel),
   (by decide +kernel)⟩

theorem test_meets_TreesFold_1 : ∃ (s : State) (h : Hdr) (r : RedPkt) (x : Nat) (d : Collective) (q : SqSlot),
    (s.advanceTo h.stamp).inRun = true ∧
    (s.advanceTo h.stamp).tooOld h = false ∧
    h.cm = false ∧
    s.domainCtx h.domain = some x ∧
    (s.ctx x).executing h.step h.attempt = true ∧
    r.op < 8 ∧
    (s.ctx x).collective r.collId = some d ∧
    (s.advanceTo h.stamp).releaseTick h = none ∧
    s.fab.slots = [q] ∧
    r.form = 0 ∧
    q.domain = (s.ctx x).domain ∧
    q.coll = d.collId ∧
    q.block = r.firstBlock ∧
    q.step = h.step ∧
    q.attempt = h.attempt ∧
    h.src ∈ q.from_ ∧
    s.locus ∉ q.from_ :=
  ⟨{ coll with fab := { coll.fab with slots := [sq0] } }, (hdr 2), red0, 0, cl1, sq0,
   (by decide +kernel),
   (by decide +kernel),
   (by decide +kernel),
   (by decide +kernel),
   (by decide +kernel),
   (by decide +kernel),
   (by decide +kernel),
   (by decide +kernel),
   (by decide +kernel),
   (by decide +kernel),
   (by decide +kernel),
   (by decide +kernel),
   (by decide +kernel),
   (by decide +kernel),
   (by decide +kernel),
   (by decide +kernel),
   (by decide +kernel)⟩

theorem test_meets_TreesFold_2 : ∃ (s : State) (h : Hdr) (r : RedPkt) (x : Nat) (d : Collective),
    (s.advanceTo h.stamp).inRun = true ∧
    (s.advanceTo h.stamp).tooOld h = false ∧
    h.cm = false ∧
    s.domainCtx h.domain = some x ∧
    (s.ctx x).executing h.step h.attempt = true ∧
    r.op < 8 ∧
    (s.ctx x).collective r.collId = some d ∧
    (s.advanceTo h.stamp).releaseTick h = none ∧
    s.fab.slots = [] ∧
    r.form = 0 ∧
    r.firstBlock ∉ (s.ctx x).downOf d.collId ∧
    (s.ctx x).tensor d.outTensor = none :=
  ⟨coll, (hdr 2), red0, 0, cl1,
   (by decide +kernel),
   (by decide +kernel),
   (by decide +kernel),
   (by decide +kernel),
   (by decide +kernel),
   (by decide +kernel),
   (by decide +kernel),
   (by decide +kernel),
   (by decide +kernel),
   (by decide +kernel),
   (by decide +kernel),
   (by decide +kernel)⟩

theorem test_meets_TreesFold_2b : ∃ (s : State) (h : Hdr) (r : RedPkt) (x : Nat) (d : Collective),
    (s.advanceTo h.stamp).inRun = true ∧
    (s.advanceTo h.stamp).tooOld h = false ∧
    h.cm = false ∧
    s.domainCtx h.domain = some x ∧
    (s.ctx x).executing h.step h.attempt = true ∧
    r.op < 8 ∧
    (s.ctx x).collective r.collId = some d ∧
    (s.advanceTo h.stamp).releaseTick h = none ∧
    s.fab.slots = [] ∧
    r.form = 0 ∧
    r.firstBlock ∉ (s.ctx x).downOf d.collId ∧
    (s.ctx x).tensor d.outTensor = none :=
  ⟨(withCtx run0 0 {ctxC with prog := some {prog2 with collectives := [{cl1 with rootLocus := 2}]}}), (hdr 2), red0, 0, {cl1 with rootLocus := 2},
   (by decide +kernel),
   (by decide +kernel),
   (by decide +kernel),
   (by decide +kernel),
   (by decide +kernel),
   (by decide +kernel),
   (by decide +kernel),
   (by decide +kernel),
   (by decide +kernel),
   (by decide +kernel),
   (by decide +kernel),
   (by decide +kernel)⟩

theorem test_meets_TreesFold_3 : ∃ (s : State) (h : Hdr) (r : RedPkt) (x : Nat) (d : Collective),
    (s.advanceTo h.stamp).inRun = true ∧
    (s.advanceTo h.stamp).tooOld h = false ∧
    s.domainCtx h.domain = some x ∧
    (s.ctx x).executing h.step h.attempt = true ∧
    r.op < 8 ∧
    (s.ctx x).collective r.collId = some d ∧
    (s.advanceTo h.stamp).releaseTick h = none ∧
    s.fab.slots = [] ∧
    r.form = 0 :=
  ⟨(withCtx run0 0 {ctxC with prog := some {prog2 with collectives := [{cl1 with outTensor := 13}]}}), (hdr 2), red0, 0, {cl1 with outTensor := 13},
   (by decide +kernel),
   (by decide +kernel),
   (by decide +kernel),
   (by decide +kernel),
   (by decide +kernel),
   (by decide +kernel),
   (by decide +kernel),
   (by decide +kernel),
   (by decide +kernel)⟩

theorem test_meets_TreesFold_4 : ∃ (s : State) (h : Hdr) (p : TelPkt),
    (s.advanceTo h.stamp).inRun = true ∧
    (s.advanceTo h.stamp).tooOld h = false ∧
    h.cm = false ∧
    p.tree = 0 ∧
    p.op = telOp p.group ∧
    p.group < 4 ∧
    p.upset = 0 ∧
    s.time.root = s.locus ∧
    s.tel.slots = [] ∧
    (∀ due, (s.advanceTo h.stamp).telSendBy 0 p.key h.attempt = some due → h.stamp ≤ due) :=
  ⟨(rt 1), (hdr 2), (tp 0),
   (by decide +kernel),
   (by decide +kernel),
   (by decide +kernel),
   (by decide +kernel),
   (by decide +kernel),
   (by decide +kernel),
   (by decide +kernel),
   (by decide +kernel),
   (by decide +kernel),
   (by decide +kernel)⟩

theorem test_meets_TreesFold_4b : ∃ (s : State) (h : Hdr) (p : TelPkt),
    (s.advanceTo h.stamp).inRun = true ∧
    (s.advanceTo h.stamp).tooOld h = false ∧
    h.cm = false ∧
    p.tree = 0 ∧
    p.op = telOp p.group ∧
    p.group < 4 ∧
    p.upset = 0 ∧
    s.time.root = s.locus ∧
    s.tel.slots = [] ∧
    (∀ due, (s.advanceTo h.stamp).telSendBy 0 p.key h.attempt = some due → h.stamp ≤ due) :=
  ⟨(rt 1), (hdr 2), (tp 1),
   (by decide +kernel),
   (by decide +kernel),
   (by decide +kernel),
   (by decide +kernel),
   (by decide +kernel),
   (by decide +kernel),
   (by decide +kernel),
   (by decide +kernel),
   (by decide +kernel),
   (by decide +kernel)⟩

theorem test_meets_TreesFold_5 : ∃ (s : State) (h : Hdr) (p : TelPkt) (due : Nat),
    (s.advanceTo h.stamp).inRun = true ∧
    (s.advanceTo h.stamp).tooOld h = false ∧
    h.cm = false ∧
    p.tree = 0 ∧
    p.op = telOp p.group ∧
    p.group < 4 ∧
    (s.advanceTo h.stamp).telSendBy 0 p.key h.attempt = some due ∧
    due < h.stamp :=
  ⟨(rt 1), {hdr 2 with stamp := 2^31}, (tp 0), (((rt 1).telSendBy 0 0 1).getD 0),
   (by decide +kernel),
   (by decide +kernel),
   (by decide +kernel),
   (by decide +kernel),
   (by decide +kernel),
   (by decide +kernel),
   (by decide +kernel),
   (by decide +kernel)⟩

theorem test_meets_TreesFold_5b : ∃ (s : State) (h : Hdr) (p : TelPkt) (due : Nat),
    (s.advanceTo h.stamp).inRun = true ∧
    (s.advanceTo h.stamp).tooOld h = false ∧
    h.cm = false ∧
    p.tree = 0 ∧
    p.op = telOp p.group ∧
    p.group < 4 ∧
    (s.advanceTo h.stamp).telSendBy 0 p.key h.attempt = some due ∧
    due < h.stamp :=
  ⟨(rt 9), {hdr 2 with stamp := 2^31}, (tp 0), (((rt 9).telSendBy 0 0 1).getD 0),
   (by decide +kernel),
   (by decide +kernel),
   (by decide +kernel),
   (by decide +kernel),
   (by decide +kernel),
   (by decide +kernel),
   (by decide +kernel),
   (by decide +kernel)⟩

theorem test_meets_TreesFold_6 : ∃ (s : State) (h : Hdr) (p : TelPkt),
    (s.advanceTo h.stamp).inRun = true ∧
    (s.advanceTo h.stamp).tooOld h = false ∧
    h.cm = false ∧
    p.tree = 0 ∧
    p.op = telOp p.group ∧
    p.group < 4 :=
  ⟨(rt 1), (hdr 2), (tp 0),
   (by decide +kernel),
   (by decide +kernel),
   (by decide +kernel),
   (by decide +kernel),
   (by decide +kernel),
   (by decide +kernel)⟩

theorem test_meets_TreesFold_6b : ∃ (s : State) (h : Hdr) (p : TelPkt),
    (s.advanceTo h.stamp).inRun = true ∧
    (s.advanceTo h.stamp).tooOld h = false ∧
    h.cm = false ∧
    p.tree = 0 ∧
    p.op = telOp p.group ∧
    p.group < 4 :=
  ⟨(rt 0), (hdr 2), {tp 1 with key := 4},
   (by decide +kernel),
   (by decide +kernel),
   (by decide +kernel),
   (by decide +kernel),
   (by decide +kernel),
   (by decide +kernel)⟩

theorem test_meets_TreesFold_7 : ∃ (s : State) (tree : Nat) (group : Nat) (key : Nat) (attempt : Nat) (q : TelSlot) (p : Nat),
    (match s.telSendBy tree key attempt with | some t => s.advanceTo t | none => s).telRoot tree ≠ s.locus ∧
    s.tel.slots.find? (fun q => q.isKey tree group key attempt && !q.sent) = some q ∧
    s.telParent tree = some p :=
  ⟨{ rt 0 with tel := { Tel.reset with slots := [ts0] } }, 0, 1, 0, 0, ts0, 0,
   (by decide +kernel),
   (by decide +kernel),
   (by decide +kernel)⟩

theorem test_meets_TreesFold_8 : ∃ (s : State) (group : Nat) (key : Nat) (attempt : Nat),
    group < 4 ∧
    s.time.root = s.locus ∧
    s.telMember = true ∧
    (s.telSlot 0 group key attempt).sent = false :=
  ⟨{ rt 1 with tel := { Tel.reset with slots := [ts0] } }, 1, 0, 0,
   (by decide +kernel),
   (by decide +kernel),
   (by decide +kernel),
   (by decide +kernel)⟩

theorem test_meets_TreesFold_8b : ∃ (s : State) (group : Nat) (key : Nat) (attempt : Nat),
    group < 4 ∧
    s.time.root = s.locus ∧
    s.telMember = true ∧
    (s.telSlot 0 group key attempt).sent = false :=
  ⟨(rt 1), 2, 0, 0,
   (by decide +kernel),
   (by decide +kernel),
   (by decide +kernel),
   (by decide +kernel)⟩

theorem test_meets_SamplesAndSubscriptionsComplete_0 : ∃ (s : State) (k : Nat) (r : Reading),
    s.fcHeld = true ∧
    r.index < classCount r.cls ∧
    (k % 1024 ≠ 1023 ∨ s.telMember = false) :=
  ⟨run0, 5, rd,
   (by decide +kernel),
   (by decide +kernel),
   (by decide +kernel)⟩

theorem test_meets_SamplesAndSubscriptionsComplete_0b : ∃ (s : State) (k : Nat) (r : Reading),
    s.fcHeld = true ∧
    r.index < classCount r.cls ∧
    (k % 1024 ≠ 1023 ∨ s.telMember = false) :=
  ⟨run0, 5, ⟨0, 4000, -5, 3, 0⟩,
   (by decide +kernel),
   (by decide +kernel),
   (by decide +kernel)⟩

theorem test_meets_SamplesAndSubscriptionsComplete_1 : ∃ (s : State) (k : Nat) (rs : List Reading),
    s.fcHeld = false :=
  ⟨{run0 with time := {run0.time with st := 0}}, 5, [rd],
   (by decide +kernel)⟩

theorem test_meets_SamplesAndSubscriptionsComplete_2 : ∃ (s : State) (cls : Nat) (index : Nat),
    s.fcHeld = true ∧
    index < classCount cls :=
  ⟨run0, 4, 0,
   (by decide +kernel),
   (by decide +kernel)⟩

theorem test_meets_SamplesAndSubscriptionsComplete_3 : ∃ (s : State) (port : Nat) (addr : Nat) (udp : Nat) (sub : Nat) (body : List Byte),
    s.cfg.ventAllows addr = true ∧
    s.inRun = true ∧
    subOk body = true ∧
    s.tel.subs.find? (fun b => b.isKey addr udp sub) = none ∧
    s.tel.subs.length < 256 ∧
    sumL (s.tel.subs.map (fun b => exportRate b.body)) + exportRate body ≤ s.cfg.ventBudgetMbps * 2 ^ 40 :=
  ⟨vent, 33, 9, 5000, 2, body0,
   (by decide +kernel),
   (by decide +kernel),
   (by decide +kernel),
   (by decide +kernel),
   (by decide +kernel),
   (by decide +kernel)⟩

theorem test_meets_SamplesAndSubscriptionsComplete_4 : ∃ (s : State) (port : Nat) (addr : Nat) (udp : Nat) (sub : Nat) (body : List Byte),
    s.cfg.ventAllows addr = false :=
  ⟨vent, 33, 10, 5000, 2, body0,
   (by decide +kernel)⟩

theorem test_meets_SamplesAndSubscriptionsComplete_6 : ∃ (s : State) (addr : Nat) (udp : Nat) (sub : Nat) (b : Sub) (e : Nat),
    s.tel.subs.find? (fun b => b.isKey addr udp sub) = some b ∧
    b.leaseEnd = some e :=
  ⟨(vs (some 4)), 9, 5000, 2, (sb (some 4)), 4,
   (by decide +kernel),
   (by decide +kernel)⟩

theorem test_meets_SamplesAndSubscriptionsComplete_7 : ∃ (s : State) (addr : Nat) (udp : Nat) (sub : Nat) (seq : Nat) (b : Sub),
    b ∈ s.tel.subs ∧
    b.isKey addr udp sub = true ∧
    (∃ u ∈ b.unsent, u.1 = seq) :=
  ⟨(vs (some 4)), 9, 5000, 2, 4, (sb (some 4)),
   (by decide +kernel),
   (by decide +kernel),
   (by decide +kernel)⟩

end PortsAndLinks

namespace TimeAndRelease
def creditF : BitVec 512 := mkF 0 (field 5 16 440 + field 77 16 328) 0 9
def idF (done : Bool) : BitVec 512 := mkF 1 (field 2 17 311 + field 6 5 306 + field 1 3 303 + field 1 6 297 + field 4 6 291 + field 1 8 283 + field 1 8 275 + field 0 8 267 + field 0 16 251 + field 2 8 243 + field 12345 128 115 + field (b2n done) 1 114)
def idp (p : Nat) : BitVec 512 := let d := divPort run0.cfg p; mkF 1 (field ((run0.partnerLocus d.1).getD 0) 17 311 + field 6 5 306 + field (d.1 ^^^ 1) 3 303 + field d.2.1 6 297 + field d.2.2 6 291 + field 1 8 283 + field 1 8 275 + field 0 8 267 + field 0 16 251 + field 2 8 243 + field 12345 128 115 + field 1 1 114)
def dg (p : Nat) : State := prt { run0 with flash := { run0.flash with digests := [(p, 12345)] } } p (fun q => {pS .ident q with failures := 3})
def lsm (req lane ref : Nat) : BitVec 512 := mkF 2 (field req 4 324 + field lane 4 320 + field ref 4 292)
def up5 := prt run0 5 pUp
def no1 : State := cfgSet run0 [(0x100C, 1), (0x100D, 1), (0x100E, 1)]
def eq8 : State := (List.range 8).foldl (fun s i => prt s (10+i) (pS .equalise)) (prt run0 5 (pS .detect))
def fr : EdgeFrame := ⟨100, 0x0800, false, 0, false, true, 5, false⟩
def tf : BitVec 512 := mkF 3 (field 4990000 64 264 + field 9 17 151 + field 7 16 131 + field 3 8 123 + field (epochTag run0.cfg) 16 103 + field 1 2 85 + field 2 2 95)
def ent : State := cfgSet { run0 with time := { run0.time with ptp := [(35, { PtpPort.reset with locked := true })] } } [(0x101A, 1)]
def ann : AnnounceData := ⟨128, 6, 0x21, 5, 128, 77, 1, 37⟩
def slave (q : PtpPort → PtpPort) : State := cfgSet (prt { run0 with time := { run0.time with ptp := [(35, q { PtpPort.reset with best := some ann, bestSource := 4 })] } } 35 pUp) [(0x101A, 1)]
def pm (two : Bool) : PtpMsg := ⟨run0.cfg.ptpDomain, 6, 100, 200, -3, two, 4999000, 4⟩
def mast : State := cfgSet (prt { run0 with time := { run0.time with ptp := [(35, PtpPort.reset)] } } 35 pUp) [(0x101A, 1), (0x101F, 8)]

theorem test_meets_LinkControlFlitsComplete_0 : ∃ (s : State) (p : Nat) (flit : BitVec 512),
    s.lcfClean p 0 flit ∧
    (bitsOf flit.toNat 483 460 + 2 ^ 24 - (s.port p).txAck) % 2 ^ 24 ≤ ((s.port p).txSeq + 2 ^ 24 - (s.port p).txAck) % 2 ^ 24 :=
  ⟨(prt run0 5 (fun p => {pUp p with txSeq := 20, txAck := 3})), 5, creditF,
   (by unfold State.lcfClean; decide +kernel),
   (by decide +kernel)⟩

theorem test_meets_LinkControlFlitsComplete_0b : ∃ (s : State) (p : Nat) (flit : BitVec 512),
    s.lcfClean p 0 flit ∧
    (bitsOf flit.toNat 483 460 + 2 ^ 24 - (s.port p).txAck) % 2 ^ 24 ≤ ((s.port p).txSeq + 2 ^ 24 - (s.port p).txAck) % 2 ^ 24 :=
  ⟨(prt run0 5 (fun p => {pS .ident p with txSeq := 20, txAck := 3})), 5, creditF,
   (by unfold State.lcfClean; decide +kernel),
   (by decide +kernel)⟩

theorem test_meets_LinkControlFlitsComplete_1 : ∃ (s : State) (p : Nat) (flit : BitVec 512),
    p < 32 ∧
    lcfCrc flit.toNat ≠ bitsOf flit.toNat 31 0 :=
  ⟨(prt run0 5 pUp), 5, (creditF + 1),
   (by decide +kernel),
   (by decide +kernel)⟩

theorem test_meets_LinkControlFlitsComplete_2 : ∃ (s : State) (p : Nat) (flit : BitVec 512),
    s.lcfClean p 1 flit ∧
    ((s.port p).st = .ident ∨ (s.port p).st = .fastRetrain) ∧
    flit.toNat.testBit 114 = false :=
  ⟨(prt run0 5 (pS .ident)), 5, (idF false),
   (by unfold State.lcfClean; decide +kernel),
   (by decide +kernel),
   (by decide +kernel)⟩

theorem test_meets_LinkControlFlitsComplete_2b : ∃ (s : State) (p : Nat) (flit : BitVec 512),
    s.lcfClean p 1 flit ∧
    ((s.port p).st = .ident ∨ (s.port p).st = .fastRetrain) ∧
    flit.toNat.testBit 114 = false :=
  ⟨(prt run0 5 (fun p => {pS .fastRetrain p with peerSeen := false})), 5, (idF false),
   (by unfold State.lcfClean; decide +kernel),
   (by decide +kernel),
   (by decide +kernel)⟩

theorem test_meets_LinkControlFlitsComplete_3 : ∃ (s : State) (p : Nat) (flit : BitVec 512) (v : Nat) (rank : Nat) (size : Nat) (i : IdentData),
    s.lcfClean p 1 flit ∧
    (s.port p).st = .ident ∧
    flit.toNat.testBit 114 = true ∧
    i = parseIdent flit.toNat ∧
    divPort s.cfg p = (v, rank, size) ∧
    s.partnerLocus v = some i.locus ∧
    i.dir = v ^^^ 1 ∧
    i.rank = rank ∧
    i.size = size ∧
    1 ≤ i.linkProto ∧
    i.compatMin ≤ 1 ∧
    KMap.getD s.flash.digests p 0 ≠ 0 ∧
    KMap.getD s.flash.digests p 0 = i.cert ∧
    s.id.unaccepted = false :=
  ⟨(dg 5), 5, (idp 5), (divPort (dg 5).cfg 5).1, (divPort (dg 5).cfg 5).2.1, (divPort (dg 5).cfg 5).2.2, (parseIdent (idp 5).toNat),
   (by unfold State.lcfClean; decide +kernel),
   (by decide +kernel),
   (by decide +kernel),
   (by decide +kernel),
   (by decide +kernel),
   (by decide +kernel),
   (by decide +kernel),
   (by decide +kernel),
   (by decide +kernel),
   (by decide +kernel),
   (by decide +kernel),
   (by decide +kernel),
   (by decide +kernel),
   (by decide +kernel)⟩

theorem test_meets_LinkControlFlitsComplete_3b : ∃ (s : State) (p : Nat) (flit : BitVec 512) (v : Nat) (rank : Nat) (size : Nat) (i : IdentData),
    s.lcfClean p 1 flit ∧
    (s.port p).st = .ident ∧
    flit.toNat.testBit 114 = true ∧
    i = parseIdent flit.toNat ∧
    divPort s.cfg p = (v, rank, size) ∧
    s.partnerLocus v = some i.locus ∧
    i.dir = v ^^^ 1 ∧
    i.rank = rank ∧
    i.size = size ∧
    1 ≤ i.linkProto ∧
    i.compatMin ≤ 1 ∧
    KMap.getD s.flash.digests p 0 ≠ 0 ∧
    KMap.getD s.flash.digests p 0 = i.cert ∧
    s.id.unaccepted = false :=
  ⟨(dg 0), 0, (idp 0), (divPort (dg 0).cfg 0).1, (divPort (dg 0).cfg 0).2.1, (divPort (dg 0).cfg 0).2.2, (parseIdent (idp 0).toNat),
   (by unfold State.lcfClean; decide +kernel),
   (by decide +kernel),
   (by decide +kernel),
   (by decide +kernel),
   (by decide +kernel),
   (by decide +kernel),
   (by decide +kernel),
   (by decide +kernel),
   (by decide +kernel),
   (by decide +kernel),
   (by decide +kernel),
   (by decide +kernel),
   (by decide +kernel),
   (by decide +kernel)⟩

theorem test_meets_LinkControlFlitsComplete_4 : ∃ (s : State) (p : Nat) (flit : BitVec 512),
    s.lcfClean p 2 flit ∧
    (s.port p).st = .up ∧
    (s.port p).req = none ∧
    bitsOf flit.toNat 327 324 = 1 :=
  ⟨up5, 5, (lsm 1 0 0),
   (by unfold State.lcfClean; decide +kernel),
   (by decide +kernel),
   (by decide +kernel),
   (by decide +kernel)⟩

theorem test_meets_LinkControlFlitsComplete_4b : ∃ (s : State) (p : Nat) (flit : BitVec 512),
    s.lcfClean p 2 flit ∧
    (s.port p).st = .up ∧
    (s.port p).req = none ∧
    bitsOf flit.toNat 327 324 = 1 :=
  ⟨(prt run0 5 (fun p => {pUp p with exits := [4999990,4999980,4999970,4999960,4999950, 4999940]})), 5, (lsm 1 0 0),
   (by unfold State.lcfClean; decide +kernel),
   (by decide +kernel),
   (by decide +kernel),
   (by decide +kernel)⟩

theorem test_meets_LinkControlFlitsComplete_5 : ∃ (s : State) (p : Nat) (flit : BitVec 512),
    s.lcfClean p 2 flit ∧
    (s.port p).st = .up ∧
    (s.port p).req = none ∧
    bitsOf flit.toNat 327 324 = 2 :=
  ⟨up5, 5, (lsm 2 0 0),
   (by unfold State.lcfClean; decide +kernel),
   (by decide +kernel),
   (by decide +kernel),
   (by decide +kernel)⟩

theorem test_meets_LinkControlFlitsComplete_6 : ∃ (s : State) (p : Nat) (flit : BitVec 512),
    s.lcfClean p 2 flit ∧
    (s.port p).st = .up ∧
    (s.port p).req = none ∧
    bitsOf flit.toNat 327 324 = 3 ∧
    4 ≤ popCount (s.port p).lanesOk 9 :=
  ⟨up5, 5, (lsm 3 0 0),
   (by unfold State.lcfClean; decide +kernel),
   (by decide +kernel),
   (by decide +kernel),
   (by decide +kernel),
   (by decide +kernel)⟩

theorem test_meets_LinkControlFlitsComplete_7 : ∃ (s : State) (p : Nat) (flit : BitVec 512),
    s.lcfClean p 2 flit ∧
    (s.port p).st = .up ∧
    bitsOf flit.toNat 327 324 = 4 :=
  ⟨up5, 5, (lsm 4 7 0),
   (by unfold State.lcfClean; decide +kernel),
   (by decide +kernel),
   (by decide +kernel)⟩

theorem test_meets_LinkControlFlitsComplete_8 : ∃ (s : State) (p : Nat) (flit : BitVec 512) (r : LsmReq),
    s.lcfClean p 2 flit ∧
    bitsOf flit.toNat 327 324 = 5 ∧
    bitsOf flit.toNat 295 292 = 3 ∧
    (s.port p).req = some r ∧
    r.req = 3 :=
  ⟨(prt run0 5 (fun p => {pUp p with req := some ⟨3⟩, lanesOk := 0xF1})), 5, (lsm 5 0 3), ⟨3⟩,
   (by unfold State.lcfClean; decide +kernel),
   (by decide +kernel),
   (by decide +kernel),
   (by decide +kernel),
   (by decide +kernel)⟩

theorem test_meets_LinkControlFlitsComplete_9 : ∃ (s : State) (p : Nat) (flit : BitVec 512) (l : Nat),
    s.lcfClean p 2 flit ∧
    (s.port p).st = .up ∧
    (s.port p).req = none ∧
    bitsOf flit.toNat 327 324 = 6 ∧
    (s.port p).lanes.find? (fun l => !(s.port p).lanesOk.testBit l) = some l ∧
    (s.port p).spare = none ∧
    4 ≤ popCount (s.port p).lanesOk 9 :=
  ⟨(prt run0 5 (fun p => {pUp p with spare := none, lanesOk := 0xF1})), 5, (lsm 6 0 0), 1,
   (by unfold State.lcfClean; decide +kernel),
   (by decide +kernel),
   (by decide +kernel),
   (by decide +kernel),
   (by decide +kernel),
   (by decide +kernel),
   (by decide +kernel)⟩

theorem test_meets_LinkErrorsComplete_0 : ∃ (s : State) (p : Nat) (lane : Nat) (first : Nat) (unc : Bool),
    p < 32 ∧
    lane < 9 ∧
    (s.port p).discarding = false ∧
    (s.port p).st ≠ .dark ∧
    (s.port p).st ≠ .unused :=
  ⟨up5, 5, 3, 77, true,
   (by decide +kernel),
   (by decide +kernel),
   (by decide +kernel),
   (by decide +kernel),
   (by decide +kernel)⟩

theorem test_meets_LinkErrorsComplete_0b : ∃ (s : State) (p : Nat) (lane : Nat) (first : Nat) (unc : Bool),
    p < 32 ∧
    lane < 9 ∧
    (s.port p).discarding = false ∧
    (s.port p).st ≠ .dark ∧
    (s.port p).st ≠ .unused :=
  ⟨(prt run0 5 (pS .align)), 5, 3, (2^24+77), false,
   (by decide +kernel),
   (by decide +kernel),
   (by decide +kernel),
   (by decide +kernel),
   (by decide +kernel)⟩

theorem test_meets_LinkErrorsComplete_1 : ∃ (s : State) (p : Nat),
    p < 32 ∧
    (s.port p).discarding = true ∧
    (s.port p).nakSent < 7 :=
  ⟨(prt run0 5 (fun p => {pUp p with discarding := true, nakSent := 6})), 5,
   (by decide +kernel),
   (by decide +kernel),
   (by decide +kernel)⟩

theorem test_meets_LinkErrorsComplete_2 : ∃ (c : Instr) (p : Nat) (lane : Nat) (s : State),
    (c = .lossOfSignal p lane ∨ c = .laneCeLimit p lane ∨ c = .laneUeLimit p lane) ∧
    p < 32 ∧
    lane < 9 :=
  ⟨(.lossOfSignal 5 2), 5, 2, up5,
   (by decide +kernel),
   (by decide +kernel),
   (by decide +kernel)⟩

theorem test_meets_LinkErrorsComplete_2b : ∃ (c : Instr) (p : Nat) (lane : Nat) (s : State),
    (c = .lossOfSignal p lane ∨ c = .laneCeLimit p lane ∨ c = .laneUeLimit p lane) ∧
    p < 32 ∧
    lane < 9 :=
  ⟨(.laneCeLimit 5 2), 5, 2, up5,
   (by decide +kernel),
   (by decide +kernel),
   (by decide +kernel)⟩

theorem test_meets_LinkErrorsComplete_3 : ∃ (s : State) (p : Nat) (lane : Nat),
    p < 32 ∧
    lane < 9 ∧
    (s.port p).lanesOk.testBit lane = false :=
  ⟨(prt run0 5 (fun p => {pUp p with lanesOk := 0xFF})), 5, 8,
   (by decide +kernel),
   (by decide +kernel),
   (by decide +kernel)⟩

theorem test_meets_LinkErrorsComplete_4 : ∃ (s : State) (p : Nat) (lane : Nat),
    32 ≤ p ∧
    p < 36 ∧
    lane < 9 ∧
    (s.port p).st = .up :=
  ⟨(prt run0 33 pUp), 33, 2,
   (by decide +kernel),
   (by decide +kernel),
   (by decide +kernel),
   (by decide +kernel)⟩

theorem test_meets_LinkErrorsComplete_5 : ∃ (s : State) (p : Nat),
    p < 32 ∧
    (s.port p).st = .mgmtOnly :=
  ⟨(prt run0 5 (pS .mgmtOnly)), 5,
   (by decide +kernel),
   (by decide +kernel)⟩

theorem test_meets_LinkErrorsComplete_6 : ∃ (s : State) (p : Nat),
    p < 32 ∧
    (s.port p).st = .up :=
  ⟨up5, 5,
   (by decide +kernel),
   (by decide +kernel)⟩

theorem test_meets_LinkErrorsComplete_7 : ∃ (s : State) (p : Nat),
    p < 32 ∧
    (s.port p).st = .fastRetrain :=
  ⟨(prt run0 5 (pS .fastRetrain)), 5,
   (by decide +kernel),
   (by decide +kernel)⟩

theorem test_meets_TrainingFollowsItsStates_0 : ∃ (s : State) (p : Nat) (v : Nat) (rank : Nat) (size : Nat) (l : Nat),
    p < 32 ∧
    (s.port p).st = .dark ∧
    s.id.opticsAt ≠ none ∧
    divPort s.cfg p = (v, rank, size) ∧
    s.partnerLocus v = some l :=
  ⟨run0, 5, (divPort run0.cfg 5).1, (divPort run0.cfg 5).2.1, (divPort run0.cfg 5).2.2, ((run0.partnerLocus (divPort run0.cfg 5).1).getD 0),
   (by decide +kernel),
   (by decide +kernel),
   (by decide +kernel),
   (by decide +kernel),
   (by decide +kernel)⟩

theorem test_meets_TrainingFollowsItsStates_1 : ∃ (s : State) (p : Nat) (v : Nat) (rank : Nat) (size : Nat),
    p < 32 ∧
    (s.port p).st = .dark ∧
    s.id.opticsAt ≠ none ∧
    divPort s.cfg p = (v, rank, size) ∧
    s.partnerLocus v = none :=
  ⟨no1, 5, (divPort no1.cfg 5).1, (divPort no1.cfg 5).2.1, (divPort no1.cfg 5).2.2,
   (by decide +kernel),
   (by decide +kernel),
   (by decide +kernel),
   (by decide +kernel),
   (by decide +kernel)⟩

theorem test_meets_TrainingFollowsItsStates_2 : ∃ (s : State) (p : Nat) (lanes : Nat),
    p < 32 ∧
    (s.port p).st = .detect ∧
    4 ≤ popCount lanes 9 ∧
    ((List.range 32).filter (fun i => (s.port i).st == .equalise)).length < 8 :=
  ⟨(prt run0 5 (pS .detect)), 5, 0x1E1,
   (by decide +kernel),
   (by decide +kernel),
   (by decide +kernel),
   (by decide +kernel)⟩

theorem test_meets_TrainingFollowsItsStates_3 : ∃ (s : State) (p : Nat) (lanes : Nat),
    p < 32 ∧
    8 ≤ ((List.range 32).filter (fun i => (s.port i).st == .equalise)).length :=
  ⟨eq8, 5, 0x1FF,
   (by decide +kernel),
   (by decide +kernel)⟩

theorem test_meets_TrainingFollowsItsStates_4 : ∃ (s : State) (p : Nat),
    p < 32 ∧
    (s.port p).st = .equalise :=
  ⟨(prt run0 5 (pS .equalise)), 5,
   (by decide +kernel),
   (by decide +kernel)⟩

theorem test_meets_TrainingFollowsItsStates_5 : ∃ (s : State) (p : Nat) (lanes : Nat),
    p < 32 ∧
    (s.port p).st = .align ∧
    4 ≤ popCount lanes 9 :=
  ⟨(prt run0 5 (pS .align)), 5, 0x1FF,
   (by decide +kernel),
   (by decide +kernel),
   (by decide +kernel)⟩

theorem test_meets_TrainingFollowsItsStates_5b : ∃ (s : State) (p : Nat) (lanes : Nat),
    p < 32 ∧
    (s.port p).st = .align ∧
    4 ≤ popCount lanes 9 :=
  ⟨(prt run0 5 (pS .align)), 5, 0x0F,
   (by decide +kernel),
   (by decide +kernel),
   (by decide +kernel)⟩

theorem test_meets_TrainingFollowsItsStates_6 : ∃ (s : State) (p : Nat) (lanes : Nat),
    p < 32 ∧
    (s.port p).st = .align ∧
    popCount lanes 9 < 4 :=
  ⟨(prt run0 5 (pS .align)), 5, 0x7,
   (by decide +kernel),
   (by decide +kernel),
   (by decide +kernel)⟩

theorem test_meets_TrainingFollowsItsStates_7 : ∃ (s : State) (p : Nat),
    p < 32 ∧
    ((s.port p).st = .equalise ∨ (s.port p).st = .align ∨ (s.port p).st = .ident) :=
  ⟨(prt run0 5 (pS .align)), 5,
   (by decide +kernel),
   (by decide +kernel)⟩

theorem test_meets_TrainingFollowsItsStates_7b : ∃ (s : State) (p : Nat),
    p < 32 ∧
    ((s.port p).st = .equalise ∨ (s.port p).st = .align ∨ (s.port p).st = .ident) :=
  ⟨(prt run0 5 (pS .ident)), 5,
   (by decide +kernel),
   (by decide +kernel)⟩

theorem test_meets_TrainingFollowsItsStates_8 : ∃ (s : State) (p : Nat),
    p < 32 ∧
    (s.port p).st = .backoff :=
  ⟨(prt run0 5 (pS .backoff)), 5,
   (by decide +kernel),
   (by decide +kernel)⟩

theorem test_meets_TrainingFollowsItsStates_9 : ∃ (s : State) (p : Nat),
    p < 32 ∧
    (s.port p).st = .held ∧
    (s.port p).heldAt ≠ none :=
  ⟨(prt run0 5 (fun p => {pS .held p with heldAt := some 5})), 5,
   (by decide +kernel),
   (by decide +kernel),
   (by decide +kernel)⟩

theorem test_meets_TrainingFollowsItsStates_10 : ∃ (s : State) (p : Nat),
    p < 32 ∧
    (s.port p).st = .held ∧
    (s.port p).heldAt = none :=
  ⟨(prt run0 5 (fun p => {pS .held p with heldAt := none})), 5,
   (by decide +kernel),
   (by decide +kernel),
   (by decide +kernel)⟩

theorem test_meets_TrainingFollowsItsStates_11 : ∃ (c : Instr) (p : Nat) (s : State),
    (c = .equaliseDone p ∨ c = .attemptTimeout p ∨ c = .backoffExpiry p ∨ c = .heldExpiry p ∨ c = .heldSignalLoss p ∨ c = .fastRetrainTimeout p) ∧
    p < 32 ∧
    (s.port p).st = .up :=
  ⟨(.heldExpiry 5), 5, up5,
   (by decide +kernel),
   (by decide +kernel),
   (by decide +kernel)⟩

theorem test_meets_TrainingFollowsItsStates_11b : ∃ (c : Instr) (p : Nat) (s : State),
    (c = .equaliseDone p ∨ c = .attemptTimeout p ∨ c = .backoffExpiry p ∨ c = .heldExpiry p ∨ c = .heldSignalLoss p ∨ c = .fastRetrainTimeout p) ∧
    p < 32 ∧
    (s.port p).st = .up :=
  ⟨(.fastRetrainTimeout 5), 5, up5,
   (by decide +kernel),
   (by decide +kernel),
   (by decide +kernel)⟩

theorem test_meets_EdgePortsComplete_0 : ∃ (s : State) (p : Nat) (dup : Bool),
    32 ≤ p ∧
    p < 36 ∧
    ((s.port p).st = .align ∨ (s.port p).st = .detect) :=
  ⟨(prt run0 33 (pS .align)), 33, true,
   (by decide +kernel),
   (by decide +kernel),
   (by decide +kernel)⟩

theorem test_meets_EdgePortsComplete_0b : ∃ (s : State) (p : Nat) (dup : Bool),
    32 ≤ p ∧
    p < 36 ∧
    ((s.port p).st = .align ∨ (s.port p).st = .detect) :=
  ⟨(prt run0 33 (pS .detect)), 33, false,
   (by decide +kernel),
   (by decide +kernel),
   (by decide +kernel)⟩

theorem test_meets_EdgePortsComplete_1 : ∃ (s : State) (p : Nat),
    32 ≤ p ∧
    p < 36 ∧
    (s.port p).st = .up :=
  ⟨(prt run0 33 pUp), 33,
   (by decide +kernel),
   (by decide +kernel),
   (by decide +kernel)⟩

theorem test_meets_EdgePortsComplete_2 : ∃ (s : State) (p : Nat) (f : EdgeFrame),
    32 ≤ p ∧
    p < 36 ∧
    (s.port p).st = .up ∧
    s.edgeKeeps p f = false :=
  ⟨(prt run0 33 pUp), 33, fr,
   (by decide +kernel),
   (by decide +kernel),
   (by decide +kernel),
   (by decide +kernel)⟩

theorem test_meets_EdgePortsComplete_3 : ∃ (s : State) (p : Nat) (f : EdgeFrame),
    32 ≤ p ∧
    p < 36 ∧
    s.edgeKeeps p f = true :=
  ⟨(prt run0 35 pUp), 35, {fr with etherType := 0x88F7},
   (by decide +kernel),
   (by decide +kernel),
   (by decide +kernel)⟩

theorem test_meets_TimeTreeComplete_0 : ∃ (s : State) (p : Nat),
    p < 32 ∧
    (s.port p).st = .up ∧
    (s.port p).req = none :=
  ⟨up5, 5,
   (by decide +kernel),
   (by decide +kernel),
   (by decide +kernel)⟩

theorem test_meets_TimeTreeComplete_1 : ∃ (s : State) (p : Nat) (flit : BitVec 512) (stamp : Nat),
    s.lcfClean p 3 flit ∧
    (s.port p).st = .up ∧
    s.startsNone :=
  ⟨up5, 5, tf, 5000050,
   (by unfold State.lcfClean; decide +kernel),
   (by decide +kernel),
   Or.inl (by decide +kernel)⟩

theorem test_meets_TimeTreeComplete_2 : ∃ (s : State) (p : Nat),
    p < 32 :=
  ⟨(prt run0 5 (fun p => {pUp p with offer := some ⟨0,0,0,0,0,0,false,0,0,0⟩})), 5,
   (by decide +kernel)⟩

theorem test_meets_TimeTreeComplete_3 : ∃ (s : State) (n : Nat),
    s.time.isRoot = true ∧
    s.fcHeld = true ∧
    n % 1048576 = 0 :=
  ⟨{ run0 with time := { run0.time with isRoot := true, root := 1, rootSeq := 65535 } }, (1048576*9),
   (by decide +kernel),
   (by decide +kernel),
   (by decide +kernel)⟩

theorem test_meets_TimeTreeComplete_4 : ∃ (s : State) (p : Nat),
    s.cfg.timEntry = true ∧
    s.lockedPort = some p ∧
    s.fcHeld = true ∧
    (∀ q, q < 32 → s.qualifies q = false) :=
  ⟨ent, 35,
   (by decide +kernel),
   (by decide +kernel),
   (by decide +kernel),
   (by decide +kernel)⟩

theorem test_meets_TimeTreeComplete_5 : ∃ (s : State),
    s.time.isRoot = true ∧
    s.time.rootClass = 0 ∧
    s.lockedPort = none ∧
    (∀ q, q < 32 → s.qualifies q = false) :=
  ⟨{ run0 with time := { run0.time with isRoot := true, rootClass := 0, root := 1 } },
   (by decide +kernel),
   (by decide +kernel),
   (by decide +kernel),
   (by decide +kernel)⟩

theorem test_meets_PtpComplete_0 : ∃ (s : State) (p : Nat) (m : PtpMsg),
    32 ≤ p ∧
    p < 36 ∧
    s.hears p m = true ∧
    m.twoStep = false ∧
    s.startsNone :=
  ⟨(slave id), 35, (pm false),
   (by decide +kernel),
   (by decide +kernel),
   (by decide +kernel),
   (by decide +kernel),
   Or.inl (by decide +kernel)⟩

theorem test_meets_PtpComplete_0b : ∃ (s : State) (p : Nat) (m : PtpMsg),
    32 ≤ p ∧
    p < 36 ∧
    s.hears p m = true ∧
    m.twoStep = false ∧
    s.startsNone :=
  ⟨(slave (fun q => {q with pathDelay := some 100})), 35, (pm false),
   (by decide +kernel),
   (by decide +kernel),
   (by decide +kernel),
   (by decide +kernel),
   Or.inl (by decide +kernel)⟩

theorem test_meets_PtpComplete_1 : ∃ (s : State) (p : Nat) (m : PtpMsg),
    32 ≤ p ∧
    p < 36 ∧
    s.hears p m = true ∧
    m.twoStep = true :=
  ⟨(slave (fun q => {q with pathDelay := some 100})), 35, (pm true),
   (by decide +kernel),
   (by decide +kernel),
   (by decide +kernel),
   (by decide +kernel)⟩

theorem test_meets_PtpComplete_2 : ∃ (s : State) (p : Nat) (m : PtpMsg) (rx : Nat) (corr : Int),
    32 ≤ p ∧
    p < 36 ∧
    s.hears p m = true ∧
    (s.ptp p).lastSync = some (m.seqId, rx, 1, corr) ∧
    s.startsNone :=
  ⟨(slave (fun q => {q with pathDelay := some 100, lastSync := some (6, 55, 1, -5)})), 35, (pm true), 55, (-5),
   (by decide +kernel),
   (by decide +kernel),
   (by decide +kernel),
   (by decide +kernel),
   Or.inl (by decide +kernel)⟩

theorem test_meets_PtpComplete_3 : ∃ (s : State) (p : Nat) (m : PtpMsg) (q : Nat) (rx : Nat) (t1 : Int) (t3 : Nat),
    32 ≤ p ∧
    p < 36 ∧
    s.hears p m = true ∧
    (s.ptp p).lastSync = some (q, rx, 0, t1) ∧
    (s.ptp p).delayTx = some t3 ∧
    m.seqId = (s.ptp p).delaySeq ∧
    s.startsNone :=
  ⟨(slave (fun q => {q with pathDelay := some 100, delaySeq := 6, delayTx := some 77, lastSync := some (6, 55, 0, -5)})), 35, (pm true), 6, 55, (-5), 77,
   (by decide +kernel),
   (by decide +kernel),
   (by decide +kernel),
   (by decide +kernel),
   (by decide +kernel),
   (by decide +kernel),
   Or.inl (by decide +kernel)⟩

theorem test_meets_PtpComplete_4 : ∃ (s : State) (p : Nat) (m : PtpMsg),
    32 ≤ p ∧
    p < 36 ∧
    s.ptpMaySend p = true ∧
    m.domain = s.cfg.ptpDomain :=
  ⟨mast, 35, (pm false),
   (by decide +kernel),
   (by decide +kernel),
   (by decide +kernel),
   (by decide +kernel)⟩

theorem test_meets_PtpComplete_5 : ∃ (s : State) (p : Nat) (m : PtpMsg) (a : AnnounceData),
    32 ≤ p ∧
    p < 36 ∧
    (s.port p).st = .up ∧
    s.ptpSlave p = true ∧
    m.domain = s.cfg.ptpDomain ∧
    (s.ptp p).best = none :=
  ⟨(slave (fun q => {q with best := none, locked := true})), 35, (pm false), ann,
   (by decide +kernel),
   (by decide +kernel),
   (by decide +kernel),
   (by decide +kernel),
   (by decide +kernel),
   (by decide +kernel)⟩

theorem test_meets_PtpComplete_6 : ∃ (s : State) (p : Nat),
    32 ≤ p ∧
    p < 36 :=
  ⟨(slave (fun q => {q with locked := true})), 35,
   (by decide +kernel),
   (by decide +kernel)⟩

theorem test_meets_PtpComplete_7 : ∃ (s : State) (p : Nat),
    32 ≤ p ∧
    p < 36 ∧
    s.ptpMaySend p = true :=
  ⟨mast, 35,
   (by decide +kernel),
   (by decide +kernel),
   (by decide +kernel)⟩

theorem test_meets_PtpComplete_8 : ∃ (s : State) (p : Nat),
    32 ≤ p ∧
    p < 36 ∧
    s.ptpMaySend p = true :=
  ⟨mast, 35,
   (by decide +kernel),
   (by decide +kernel),
   (by decide +kernel)⟩

theorem test_meets_PtpComplete_9 : ∃ (s : State) (p : Nat),
    32 ≤ p ∧
    p < 36 ∧
    (s.port p).st = .up ∧
    s.ptpSlave p = true ∧
    (s.ptp p).best ≠ none :=
  ⟨(slave id), 35,
   (by decide +kernel),
   (by decide +kernel),
   (by decide +kernel),
   (by decide +kernel),
   (by decide +kernel)⟩

end TimeAndRelease

namespace RecoveryAndLoss
def dcfg (s : State) : State := cfgSet s [(0x1024, 1)]
def ph (n : Nat) (ta : Option Nat) (tries := 0) : State := dcfg { run0 with det := { Det.reset with phase := n, ta, tries } }
def cRun : Ctx := { ctxP .running with coord := { Coord.reset with active := true, started := true, epoch := 4, step := 5, attempt := 1, standby := 2, launch := 6000000, deadline := 7000000, ready := 9 }, adopted := 4 }
def jR := withCtx run0 0 cRun
def rn (seq ready : Nat) : Instr := .recoveryNotice (hdr 3 5 1 seq) 1 ready
def e1 : State := { jR with cfg := { scal := [(0x0B01, 1)], blob := [] } }
def stby : State := withCtx run0 0 {cRun with coordLocus := 2, coord := {cRun.coord with active := false, heardAt := some 100, heardEnd := 1000}}
def tk (l : Nat) : TakeState := ⟨l, 4, 1, false, false, false, false, 0⟩
def cT (l : List TakeState) (pm : List Nat := [1, 3]) : State := withCtx run0 0 {cRun with pmap := pm, coord := {cRun.coord with takeover := some l}}
def pr (ans rec : Bool) (e := 0) : Probe := ⟨3, e, rec, ans⟩
def cP (p : Probe) (sp : List Nat := []) : State := withCtx run0 0 {cRun with coord := {cRun.coord with probes := [(3, p)], spares := sp}}

theorem test_meets_AlignmentRunsAndReleasesInOrder_0 : ∃ (s : State),
    s.cfg.detLevel = 1 ∧
    s.time.st = 2 ∧
    s.det.aligned = false ∧
    s.det.downgrade = false ∧
    s.det.phase = 0 ∧
    (∀ l, s.nextLaunch = some l → s.time.fc + 108192 + alignQuantum ≤ l) :=
  ⟨(dcfg run0),
   (by decide +kernel),
   (by decide +kernel),
   (by decide +kernel),
   (by decide +kernel),
   (by decide +kernel),
   (by decide +kernel)⟩

theorem test_meets_AlignmentRunsAndReleasesInOrder_0b : ∃ (s : State),
    s.cfg.detLevel = 1 ∧
    s.time.st = 2 ∧
    s.det.aligned = false ∧
    s.det.downgrade = false ∧
    s.det.phase = 0 ∧
    (∀ l, s.nextLaunch = some l → s.time.fc + 108192 + alignQuantum ≤ l) :=
  ⟨(dcfg (withCtx run0 0 {ctxP .running with launch := some (5000000 + 108192 + alignQuantum)})),
   (by decide +kernel),
   (by decide +kernel),
   (by decide +kernel),
   (by decide +kernel),
   (by decide +kernel),
   (by decide +kernel)⟩

theorem test_meets_AlignmentRunsAndReleasesInOrder_1 : ∃ (s : State) (a : Nat),
    s.det.phase = 1 ∧
    s.det.ta = some a :=
  ⟨(ph 1 (some 5242880)), 5242880,
   (by decide +kernel),
   (by decide +kernel)⟩

theorem test_meets_AlignmentRunsAndReleasesInOrder_2 : ∃ (s : State) (a : Nat),
    s.det.phase = 2 ∧
    s.det.ta = some a :=
  ⟨{ ph 2 (some 5242880) with mem := { run0.mem with slotAt := [(3, 4)], bytes := [(7, 3#8)] } }, 5242880,
   (by decide +kernel),
   (by decide +kernel)⟩

theorem test_meets_AlignmentRunsAndReleasesInOrder_3 : ∃ (s : State) (a : Nat),
    s.det.phase = 3 ∧
    s.det.ta = some a :=
  ⟨(ph 3 (some 5242880)), 5242880,
   (by decide +kernel),
   (by decide +kernel)⟩

theorem test_meets_AlignmentRunsAndReleasesInOrder_4 : ∃ (s : State) (a : Nat),
    s.det.phase = 3 ∧
    s.det.ta = some a ∧
    s.det.tries < 2 :=
  ⟨(ph 3 (some 5242880) 1), 5242880,
   (by decide +kernel),
   (by decide +kernel),
   (by decide +kernel)⟩

theorem test_meets_AlignmentRunsAndReleasesInOrder_5 : ∃ (s : State) (a : Nat),
    s.det.phase = 3 ∧
    s.det.ta = some a ∧
    2 ≤ s.det.tries ∧
    s.det.downgrade = false :=
  ⟨(ph 3 (some 5242880) 2), 5242880,
   (by decide +kernel),
   (by decide +kernel),
   (by decide +kernel),
   (by decide +kernel)⟩

theorem test_meets_AlignmentRunsAndReleasesInOrder_5b : ∃ (s : State) (a : Nat),
    s.det.phase = 3 ∧
    s.det.ta = some a ∧
    2 ≤ s.det.tries ∧
    s.det.downgrade = false :=
  ⟨(ph 3 (some 5242880) 7), 5242880,
   (by decide +kernel),
   (by decide +kernel),
   (by decide +kernel),
   (by decide +kernel)⟩

theorem test_meets_AlignmentRunsAndReleasesInOrder_6 : ∃ (s : State),
    s.fab.held = [] :=
  ⟨run0,
   (by decide +kernel)⟩

theorem test_meets_AlignmentRunsAndReleasesInOrder_7 : ∃ (s : State) (a : Nat) (h : Hdr) (k : Nat) (ready : Nat) (x : Nat),
    s.fab.held = [(a, .recoveryNotice h k ready)] ∧
    s.coordCtx h.src h.step = some x :=
  ⟨{ jR with fab := { jR.fab with held := [(5500000, rn 7 44)] } }, 5500000, (hdr 3), 1, 44, 0,
   (by decide +kernel),
   (by decide +kernel)⟩

theorem test_meets_AlignmentRunsAndReleasesInOrder_8 : ∃ (s : State) (a : Nat) (b : Nat) (c : Nat) (g : Hdr) (h : Hdr) (k : Nat) (j : Nat) (r : Nat) (q : Nat) (x : Nat),
    s.fab.held = [(a, .recoveryNotice g j q), (b, .recoveryNotice h k r)] ∧
    b < a ∧
    c = max (s.ctx x).coord.ready r ∧
    s.coordCtx h.src h.step = some x :=
  ⟨{ jR with fab := { jR.fab with held := [(5500000, rn 7 44), (5400000, rn 8 55)] } }, 5500000, 5400000, 55, (hdr 3 5 1 7), (hdr 3 5 1 8), 1, 1, 55, 44, 0,
   (by decide +kernel),
   (by decide +kernel),
   (by decide +kernel),
   (by decide +kernel)⟩

theorem test_meets_FaultsAreContained_0 : ∃ (s : State) (u : HangUnit),
    hasUnit u = true :=
  ⟨run0, (.dma 3),
   (by decide +kernel)⟩

theorem test_meets_FaultsAreContained_0b : ∃ (s : State) (u : HangUnit),
    hasUnit u = true :=
  ⟨jR, (.sequencer 5 7),
   (by decide +kernel)⟩

theorem test_meets_FaultsAreContained_1 : ∃ (s : State) (d : Nat),
    d < 4 ∧
    KMap.find s.recov.hangs (hangKey (.crossing d)) = none ∧
    1 < s.cfg.transientLimit ∧
    KMap.getD s.recov.transients (hangKey (.crossing d)) [] = [] :=
  ⟨jR, 2,
   (by decide +kernel),
   (by decide +kernel),
   (by decide +kernel),
   (by decide +kernel)⟩

theorem test_meets_FaultsAreContained_2 : ∃ (s : State) (p : Nat),
    p < 16 ∧
    KMap.find s.recov.hangs (hangKey (.dma p)) = none ∧
    1 < s.cfg.transientLimit ∧
    1 < s.cfg.escalateCount ∧
    KMap.getD s.recov.transients (hangKey (.dma p)) [] = [] ∧
    (∀ k, KMap.getD s.recov.actions k [] = []) ∧
    s.recov.completed = [] :=
  ⟨jR, 0,
   (by decide +kernel),
   (by decide +kernel),
   (by decide +kernel),
   (by decide +kernel),
   (by decide +kernel),
   (fun _ => rfl),
   (by decide +kernel)⟩

theorem test_meets_FaultsAreContained_3 : ∃ (s : State) (p : Nat) (a : Nat),
    p < 32 ∧
    KMap.find s.recov.hangs (hangKey (.port p)) = some a ∧
    s.now ≤ a + hangWindow s.cfg (.port p) :=
  ⟨(prt { jR with recov := { jR.recov with hangs := [(hangKey (.port 5), 4999999)] } } 5 pUp), 5, 4999999,
   (by decide +kernel),
   (by decide +kernel),
   (by decide +kernel)⟩

theorem test_meets_FaultsAreContained_4 : ∃ (s : State) (h : Nat) (c : Nat),
    h < 2 ∧
    c < 4 ∧
    KMap.find s.recov.hangs (hangKey (.calCore h c)) = none ∧
    s.cal.owner = some h :=
  ⟨jR, 0, 2,
   (by decide +kernel),
   (by decide +kernel),
   (by decide +kernel),
   (by decide +kernel)⟩

theorem test_meets_FaultsAreContained_4b : ∃ (s : State) (h : Nat) (c : Nat),
    h < 2 ∧
    c < 4 ∧
    KMap.find s.recov.hangs (hangKey (.calCore h c)) = none ∧
    s.cal.owner = some h :=
  ⟨{ jR with cal := { jR.cal with owner := some 1 } }, 1, 3,
   (by decide +kernel),
   (by decide +kernel),
   (by decide +kernel),
   (by decide +kernel)⟩

theorem test_meets_FaultsAreContained_5 : ∃ (s : State) (p : Nat),
    p < 16 ∧
    1 < s.cfg.escalateCount ∧
    (∀ k, KMap.getD s.recov.actions k [] = []) ∧
    s.recov.completed = [] :=
  ⟨{ jR with mem := { jR.mem with bytes := [(5, 3#8), (2^35+7, 3#8), (2^46+9, 3#8), (2^46+2^30+9, 4#8)] } }, 0,
   (by decide +kernel),
   (by decide +kernel),
   (fun _ => rfl),
   (by decide +kernel)⟩

theorem test_meets_FaultsAreContained_5b : ∃ (s : State) (p : Nat),
    p < 16 ∧
    1 < s.cfg.escalateCount ∧
    (∀ k, KMap.getD s.recov.actions k [] = []) ∧
    s.recov.completed = [] :=
  ⟨{ jR with mem := { jR.mem with bytes := [(5, 3#8), (2^35+7, 3#8), (2^46+9, 3#8), (2^46+2^30+9, 4#8)] } }, 1,
   (by decide +kernel),
   (by decide +kernel),
   (fun _ => rfl),
   (by decide +kernel)⟩

theorem test_meets_FaultsAreContained_6 : ∃ (s : State) (u : HangUnit) (level : Nat),
    hasUnit u = true ∧
    (level < 2 ∨ 4 < level) :=
  ⟨jR, (.dma 3), 5,
   (by decide +kernel),
   (by decide +kernel)⟩

theorem test_meets_FaultsAreContained_7 : ∃ (s : State) (p : Nat),
    p < 16 ∧
    KMap.find s.mem.refill p = some 0 :=
  ⟨{ jR with mem := { jR.mem with refill := [(3, 0)] } }, 3,
   (by decide +kernel),
   (by decide +kernel)⟩

theorem test_meets_FaultsAreContained_8 : ∃ (s : State) (p : Nat),
    p < 16 ∧
    KMap.find s.mem.refill p ≠ some 0 :=
  ⟨{ jR with mem := { jR.mem with refill := [(3, 1)] } }, 3,
   (by decide +kernel),
   (by decide +kernel)⟩

theorem test_meets_FaultsAreContained_9 : ∃ (s : State) (pos : Nat),
    pos < 4 ∧
    s.recov.dieLinks = [] :=
  ⟨jR, 2,
   (by decide +kernel),
   (by decide +kernel)⟩

theorem test_meets_FaultsAreContained_10 : ∃ (s : State) (pos : Nat) (n : Nat),
    pos < 4 ∧
    s.recov.dieLinks = [n] ∧
    n ≠ pos ∧
    s.recov.lost = false :=
  ⟨{ jR with recov := { jR.recov with dieLinks := [1] } }, 2, 1,
   (by decide +kernel),
   (by decide +kernel),
   (by decide +kernel),
   (by decide +kernel)⟩

theorem test_meets_OneCalderaHalfOwns_0 : ∃ (s : State) (c : Nat),
    s.cal.owner = some 0 ∧
    s.cal.releasesA.length + 1 < s.cfg.escalateCount :=
  ⟨run0, 1,
   (by decide +kernel),
   (by decide +kernel)⟩

theorem test_meets_OneCalderaHalfOwns_1 : ∃ (s : State) (c : Nat),
    s.cal.owner = some 0 ∧
    s.cfg.escalateCount ≤ 1 :=
  ⟨e1, 1,
   (by decide +kernel),
   (by decide +kernel)⟩

theorem test_meets_OneCalderaHalfOwns_2 : ∃ (s : State) (c : Nat),
    s.cal.owner ≠ some 1 :=
  ⟨run0, 1,
   (by decide +kernel)⟩

theorem test_meets_OneCalderaHalfOwns_3 : ∃ (s : State),
    s.cal.fencedA = false ∧
    s.cal.fencedB = false :=
  ⟨run0,
   (by decide +kernel),
   (by decide +kernel)⟩

theorem test_meets_OneCalderaHalfOwns_4 : ∃ (s : State),
    s.cal.owner = some 0 ∧
    s.cal.fencedA = false :=
  ⟨run0,
   (by decide +kernel),
   (by decide +kernel)⟩

theorem test_meets_OneCalderaHalfOwns_5 : ∃ (s : State),
    s.cal.owner = none ∧
    s.cal.okB = true ∧
    s.cal.fencedB = false ∧
    s.cal.last = some 0 :=
  ⟨{ run0 with cal := { run0.cal with owner := none } },
   (by decide +kernel),
   (by decide +kernel),
   (by decide +kernel),
   (by decide +kernel)⟩

theorem test_meets_OneCalderaHalfOwns_6 : ∃ (s : State) (half : Nat),
    half < 2 ∧
    s.cal.owner ≠ none :=
  ⟨run0, 1,
   (by decide +kernel),
   (by decide +kernel)⟩

theorem test_meets_OneCalderaHalfOwns_7 : ∃ (s : State),
    s.cal.owner = none ∧
    s.pins.pwrCycleReq = false :=
  ⟨{ run0 with cal := { run0.cal with owner := none } },
   (by decide +kernel),
   (by decide +kernel)⟩

theorem test_meets_OneCalderaHalfOwns_8 : ∃ (s : State),
    s.cal.owner ≠ none :=
  ⟨run0,
   (by decide +kernel)⟩

theorem test_meets_LeasesPassTheCoordinator_0 : ∃ (s : State) (x : Nat),
    (s.ctx x).coord.active = true ∧
    (s.ctx x).coord.standby ≠ s.locus :=
  ⟨jR, 0,
   (by decide +kernel),
   (by decide +kernel)⟩

theorem test_meets_LeasesPassTheCoordinator_1 : ∃ (s : State) (h : Hdr) (e : Nat) (epoch : Nat) (x : Nat),
    s.serves h epoch x :=
  ⟨(withCtx run0 0 {cRun with coordLocus := 2, adopted := 3, coord := {cRun.coord with active := false}}), (hdr 2), 7777, 4, 0,
   (by unfold State.serves; decide +kernel)⟩

theorem test_meets_LeasesPassTheCoordinator_2 : ∃ (s : State) (x : Nat),
    (s.ctx x).coord.active = true ∧
    s.mayIssue x = false :=
  ⟨(withCtx run0 0 {cRun with coord := {cRun.coord with ackedAt := 1, ackedEnd := 1000}}), 0,
   (by decide +kernel),
   (by decide +kernel)⟩

theorem test_meets_LeasesPassTheCoordinator_3 : ∃ (s : State) (x : Nat),
    s.mayIssue x = true :=
  ⟨jR, 0,
   (by decide +kernel)⟩

theorem test_meets_LeasesPassTheCoordinator_4 : ∃ (s : State) (x : Nat),
    s.leaseOver x = true ∧
    s.interlockFree x = true :=
  ⟨stby, 0,
   (by decide +kernel),
   (by decide +kernel)⟩

theorem test_meets_LeasesPassTheCoordinator_5 : ∃ (s : State) (x : Nat),
    (s.leaseOver x = false ∨ s.interlockFree x = false) :=
  ⟨jR, 0,
   (by decide +kernel)⟩

theorem test_meets_LeasesPassTheCoordinator_7 : ∃ (s : State) (x : Nat),
    s.leaseOver x = true ∧
    s.cfg.coordInterlock = true ∧
    s.cal.interlockIn = true :=
  ⟨(cfgSet { stby with cal := { stby.cal with interlockIn := true } } [(0x0B0C, 1)]), 0,
   (by decide +kernel),
   (by decide +kernel),
   (by decide +kernel)⟩

theorem test_meets_LeasesPassTheCoordinator_8 : ∃ (s : State) (h : Hdr) (l : Nat) (epoch : Nat) (x : Nat),
    s.serves h epoch x ∧
    (s.ctx x).adopted < epoch ∧
    (s.ctx x).coord.active = true ∧
    h.src ≠ s.locus ∧
    (s.ctx x).coordForm = 0 :=
  ⟨jR, (hdr 2), 2, 5, 0,
   (by unfold State.serves; decide +kernel),
   (by decide +kernel),
   (by decide +kernel),
   (by decide +kernel),
   (by decide +kernel)⟩

theorem test_meets_LeasesPassTheCoordinator_9 : ∃ (s : State) (h : Hdr) (l : Nat) (epoch : Nat) (x : Nat),
    s.serves h epoch x :=
  ⟨jR, (hdr 2), 2, 5, 0,
   (by unfold State.serves; decide +kernel)⟩

theorem test_meets_LeasesPassTheCoordinator_9b : ∃ (s : State) (h : Hdr) (l : Nat) (epoch : Nat) (x : Nat),
    s.serves h epoch x :=
  ⟨(withCtx run0 0 {cRun with launched := true, confirmed := true}), (hdr 2), 2, 9, 0,
   (by unfold State.serves; decide +kernel)⟩

theorem test_meets_ProbesAndLossesComplete_0 : ∃ (s : State) (h : Hdr) (k : Nat) (cf : Bool) (fa : Bool) (hl : Bool) (held : Bool) (launch : Nat) (epoch : Nat) (x : Nat) (l : List TakeState),
    s.takes h = true ∧
    s.liveCtxs = [x] ∧
    (s.ctx x).coord.takeover = some l ∧
    h.src ∈ (s.ctx x).pmap ∧
    (s.ctx x).coord.taking = [] ∧
    (∃ p ∈ (s.ctx x).pmap, p ≠ h.src ∧ ∀ u ∈ l, u.locus ≠ p) :=
  ⟨(cT [] [1, 3]), (hdr 3), 1, true, false, false, false, 0, 4, 0, [],
   (by decide +kernel),
   (by decide +kernel),
   (by decide +kernel),
   (by decide +kernel),
   (by decide +kernel),
   (by decide +kernel)⟩

theorem test_meets_ProbesAndLossesComplete_0b : ∃ (s : State) (h : Hdr) (k : Nat) (cf : Bool) (fa : Bool) (hl : Bool) (held : Bool) (launch : Nat) (epoch : Nat) (x : Nat) (l : List TakeState),
    s.takes h = true ∧
    s.liveCtxs = [x] ∧
    (s.ctx x).coord.takeover = some l ∧
    h.src ∈ (s.ctx x).pmap ∧
    (s.ctx x).coord.taking = [] ∧
    (∃ p ∈ (s.ctx x).pmap, p ≠ h.src ∧ ∀ u ∈ l, u.locus ≠ p) :=
  ⟨(cT [tk 3] [1, 3, 5]), (hdr 3), 1, true, false, false, false, 0, 4, 0, [tk 3],
   (by decide +kernel),
   (by decide +kernel),
   (by decide +kernel),
   (by decide +kernel),
   (by decide +kernel),
   (by decide +kernel)⟩

theorem test_meets_ProbesAndLossesComplete_1 : ∃ (s : State) (h : Hdr) (k : Nat) (cf : Bool) (fa : Bool) (hl : Bool) (held : Bool) (launch : Nat) (epoch : Nat) (x : Nat),
    s.takes h = true ∧
    s.liveCtxs = [x] ∧
    (s.ctx x).coord.takeover = some [] ∧
    (s.ctx x).pmap = [h.src] :=
  ⟨(cT [] [3]), (hdr 3), 1, true, false, false, true, 0, 4, 0,
   (by decide +kernel),
   (by decide +kernel),
   (by decide +kernel),
   (by decide +kernel)⟩

theorem test_meets_ProbesAndLossesComplete_1b : ∃ (s : State) (h : Hdr) (k : Nat) (cf : Bool) (fa : Bool) (hl : Bool) (held : Bool) (launch : Nat) (epoch : Nat) (x : Nat),
    s.takes h = true ∧
    s.liveCtxs = [x] ∧
    (s.ctx x).coord.takeover = some [] ∧
    (s.ctx x).pmap = [h.src] :=
  ⟨(cT [] [3]), (hdr 3), 1, true, false, true, false, 60, 4, 0,
   (by decide +kernel),
   (by decide +kernel),
   (by decide +kernel),
   (by decide +kernel)⟩

theorem test_meets_ProbesAndLossesComplete_2 : ∃ (s : State) (x : Nat) (l : List TakeState) (locus : Nat),
    (s.ctx x).coord.takeover = some l ∧
    (∀ u ∈ l, u.locus ≠ locus) ∧
    locus ∈ (s.ctx x).pmap ∧
    s.mayIssue x = true :=
  ⟨(cT [tk 1] [1, 3]), 0, [tk 1], 3,
   (by decide +kernel),
   (by decide +kernel),
   (by decide +kernel),
   (by decide +kernel)⟩

theorem test_meets_ProbesAndLossesComplete_3 : ∃ (s : State) (x : Nat) (l : List TakeState) (locus : Nat) (u : TakeState),
    (s.ctx x).coord.takeover = some l ∧
    u ∈ l ∧
    u.locus = locus :=
  ⟨(cT [tk 1] [1, 3]), 0, [tk 1], 1, (tk 1),
   (by decide +kernel),
   (by decide +kernel),
   (by decide +kernel)⟩

theorem test_meets_ProbesAndLossesComplete_4 : ∃ (s : State) (h : Hdr) (epoch : Nat) (x : Nat),
    s.serves h epoch x ∧
    (s.ctx x).confirmed = false ∧
    (s.ctx x).committed ≠ some h.step ∧
    s.mem.refill = [] ∧
    (s.ctx x).gey.fetching = [] ∧
    (s.ctx x).gey.takingFrom = none :=
  ⟨jR, (hdr 1), 4, 0,
   (by unfold State.serves; decide +kernel),
   (by decide +kernel),
   (by decide +kernel),
   (by decide +kernel),
   (by decide +kernel),
   (by decide +kernel)⟩

theorem test_meets_ProbesAndLossesComplete_5 : ∃ (s : State) (h : Hdr) (k : Nat) (level : Nat) (x : Nat) (p : Probe),
    s.coordinates h x ∧
    KMap.find (s.ctx x).coord.probes h.src = some p ∧
    p.extends_ < s.cfg.coordExtend ∧
    h.src ∈ (s.ctx x).pmap ∧
    KMap.find (s.ctx x).coord.confirms h.src = none :=
  ⟨(cP (pr false false)), (hdr 3), 1, 3, 0, (pr false false),
   (by unfold State.coordinates; decide +kernel),
   (by decide +kernel),
   (by decide +kernel),
   (by decide +kernel),
   (by decide +kernel)⟩

theorem test_meets_ProbesAndLossesComplete_6 : ∃ (s : State) (h : Hdr) (k : Nat) (level : Nat) (b : Nat) (x : Nat) (p : Probe),
    s.coordinates h x ∧
    KMap.find (s.ctx x).coord.probes h.src = some p ∧
    p.recovering = false ∧
    levelBound level = some b ∧
    h.src ∈ (s.ctx x).pmap ∧
    KMap.find (s.ctx x).coord.confirms h.src = none :=
  ⟨(cP (pr false false)), (hdr 3), 1, 3, ((levelBound 3).getD 0), 0, (pr false false),
   (by unfold State.coordinates; decide +kernel),
   (by decide +kernel),
   (by decide +kernel),
   rfl,
   (by decide +kernel),
   (by decide +kernel)⟩

theorem test_meets_ProbesAndLossesComplete_7 : ∃ (s : State) (x : Nat) (locus : Nat) (p : Probe) (sp : Nat) (more : List Nat),
    KMap.find (s.ctx x).coord.probes locus = some p ∧
    p.answered = false ∧
    locus ∈ (s.ctx x).pmap ∧
    s.mayIssue x = true ∧
    (s.ctx x).coord.taking = [] ∧
    (s.ctx x).coord.held = false ∧
    (∃ l ∈ (s.ctx x).pmap, l ≠ locus) ∧
    (s.ctx x).freeSpares = sp :: more ∧
    (s.ctx x).coord.failed < 13 ∧
    (s.ctx x).coord.failed + 1 < s.cfg.reexecLimit :=
  ⟨(cP (pr false false) [8, 9]), 0, 3, (pr false false), 8, [9],
   (by decide +kernel),
   (by decide +kernel),
   (by decide +kernel),
   (by decide +kernel),
   (by decide +kernel),
   (by decide +kernel),
   (by decide +kernel),
   (by decide +kernel),
   (by decide +kernel),
   (by decide +kernel)⟩

theorem test_meets_ProbesAndLossesComplete_7b : ∃ (s : State) (x : Nat) (locus : Nat) (p : Probe) (sp : Nat) (more : List Nat),
    KMap.find (s.ctx x).coord.probes locus = some p ∧
    p.answered = false ∧
    locus ∈ (s.ctx x).pmap ∧
    s.mayIssue x = true ∧
    (s.ctx x).coord.taking = [] ∧
    (s.ctx x).coord.held = false ∧
    (∃ l ∈ (s.ctx x).pmap, l ≠ locus) ∧
    (s.ctx x).freeSpares = sp :: more ∧
    (s.ctx x).coord.failed < 13 ∧
    (s.ctx x).coord.failed + 1 < s.cfg.reexecLimit :=
  ⟨(cP (pr false false) [1, 9]), 0, 3, (pr false false), 9, [],
   (by decide +kernel),
   (by decide +kernel),
   (by decide +kernel),
   (by decide +kernel),
   (by decide +kernel),
   (by decide +kernel),
   (by decide +kernel),
   (by decide +kernel),
   (by decide +kernel),
   (by decide +kernel)⟩

theorem test_meets_ProbesAndLossesComplete_8 : ∃ (s : State) (x : Nat) (locus : Nat) (p : Probe),
    KMap.find (s.ctx x).coord.probes locus = some p ∧
    p.answered = true :=
  ⟨(cP (pr true false)), 0, 3, (pr true false),
   (by decide +kernel),
   (by decide +kernel)⟩

theorem test_meets_ProbesAndLossesComplete_9 : ∃ (s : State) (h : Hdr) (reason : Nat) (x : Nat),
    s.takes h = true ∧
    s.liveCtxs = [x] ∧
    (s.ctx x).coord.active = true ∧
    h.src ∈ (s.ctx x).pmap ∧
    (s.atEffect h).mayIssue x = true ∧
    (s.ctx x).coord.taking = [] ∧
    (s.ctx x).pmap ≠ [h.src] ∧
    (s.ctx x).freeSpares = [] :=
  ⟨jR, (hdr 3), 4, 0,
   (by decide +kernel),
   (by decide +kernel),
   (by decide +kernel),
   (by decide +kernel),
   (by decide +kernel),
   (by decide +kernel),
   (by decide +kernel),
   (by decide +kernel)⟩

theorem test_meets_ProbesAndLossesComplete_10 : ∃ (s : State) (h : Hdr) (k : Nat) (ready : Nat) (x : Nat),
    s.coordinates h x :=
  ⟨jR, (hdr 3), 1, 8888888, 0,
   (by unfold State.coordinates; decide +kernel)⟩

end RecoveryAndLoss

namespace GeyserAndCopies
def cRun : Ctx := { ctxP .running with coord := { Coord.reset with active := true, started := true, epoch := 4, step := 5, attempt := 1, standby := 2, launch := 6000000, deadline := 7000000, ready := 9 }, adopted := 4, gey := { GeyCtx.reset with buddy := 3 } }
def gs (f : Ctx → Ctx) : State := cfgSet (prt (withCtx run0 0 (f cRun)) 32 (fun p => {pUp p with hasAddr := true})) [(0x0C04, 2)]
def gy (f : GeyCtx → GeyCtx) (c : Ctx) : Ctx := { c with gey := f c.gey }
def co (f : Coord → Coord) (c : Ctx) : Ctx := { c with coord := f c.coord }
def pt (l : Nat) (cm : KMap PBlock := []) : Partner := ⟨l, cm, [(9, ⟨[], 0⟩)], true, []⟩
def pb (n : Nat) : PBlock := ⟨List.replicate 4096 (BitVec.ofNat 8 n), n⟩
def ck : CkptRun := ⟨4, 50, [], 2, [], [0], false, false, 0, 0, 0⟩
def xw (f : Xfer → Xfer) : Xfer := f ⟨0, true, 0, 77, 0, 1, 4, 0, List.replicate 20000 6#8, 20000, [], 0, 0, 8, 1000, 0, 0, 0, 2, [5, 6]⟩
def gx (c : Ctx → Ctx) (l : KMap Xfer) (nh := 9) : State := { gs c with gey := { Gey.reset with xfers := l, nextHandle := nh } }
def rr : RestoreRun := ⟨9, 70, some [], [], 0, [0], [], [(blockKey 10 1, pb 3)]⟩
def sm (h st off : Nat) (win := 4) (pl : List Byte := []) : ShardMsg := ⟨0, 1, h, off, 77, 0, 1, st, win, pl⟩
def xd : Xfer := xw (fun v => {v with phase := 1, sent := 20000, acked := 8192})
def xc : Xfer := {xd with phase := 2}
def xm : Xfer := {xc with shard := 0xFFFFFFFF, keys := []}
def xr : Xfer := { xw id with writing := false, object := [], total := 0 }
def gr : Ctx → Ctx := gy (fun g => {g with restore := some {rr with manifest := none}})
def xq : Xfer := {xr with phase := 1, object := [1#8, 2#8], total := 5000, sinceDack := 15}

theorem test_meets_BindsAndSeedsComplete_0 : ∃ (s : State) (h : Hdr) (j : Nat) (x : Nat),
    s.takes h = true ∧
    s.jobById j = some x ∧
    h.src ≠ s.locus ∧
    (s.ctx x).gey.partner = none :=
  ⟨(gs id), (hdr 3), 77, 0,
   (by decide +kernel),
   (by decide +kernel),
   (by decide +kernel),
   (by decide +kernel)⟩

theorem test_meets_BindsAndSeedsComplete_1 : ∃ (s : State) (h : Hdr) (j : Nat) (x : Nat) (p : Partner),
    s.takes h = true ∧
    s.jobById j = some x ∧
    (s.ctx x).gey.partner = some p ∧
    p.locus ≠ h.src :=
  ⟨(gs (gy (fun g => {g with partner := some (pt 5)}))), (hdr 3), 77, 0, (pt 5),
   (by decide +kernel),
   (by decide +kernel),
   (by decide +kernel),
   (by decide +kernel)⟩

theorem test_meets_BindsAndSeedsComplete_2 : ∃ (s : State) (h : Hdr) (j : Nat) (x : Nat),
    s.takes h = true ∧
    s.jobById j = some x ∧
    (s.ctx x).gey.bound = false ∧
    (s.ctx x).gey.buddy = h.src :=
  ⟨(gs id), (hdr 3), 77, 0,
   (by decide +kernel),
   (by decide +kernel),
   (by decide +kernel),
   (by decide +kernel)⟩

theorem test_meets_BindsAndSeedsComplete_2b : ∃ (s : State) (h : Hdr) (j : Nat) (x : Nat),
    s.takes h = true ∧
    s.jobById j = some x ∧
    (s.ctx x).gey.bound = false ∧
    (s.ctx x).gey.buddy = h.src :=
  ⟨(gs (fun c => {c with prog := some {prog0 with tensors := []}})), (hdr 3), 77, 0,
   (by decide +kernel),
   (by decide +kernel),
   (by decide +kernel),
   (by decide +kernel)⟩

theorem test_meets_BindsAndSeedsComplete_3 : ∃ (s : State) (h : Hdr) (j : Nat),
    s.takes h = true :=
  ⟨(gs id), (hdr 3), 77,
   (by decide +kernel)⟩

theorem test_meets_BindsAndSeedsComplete_4 : ∃ (s : State) (x : Nat),
    (s.ctx x).st ≠ .empty ∧
    (s.ctx x).gey.bound = false ∧
    (s.ctx x).gey.bindSince ≠ none ∧
    (s.ctx x).gey.buddy ≠ s.locus :=
  ⟨(gs (gy (fun g => {g with bindSince := some 0}))), 0,
   (by decide +kernel),
   (by decide +kernel),
   (by decide +kernel),
   (by decide +kernel)⟩

theorem test_meets_BindsAndSeedsComplete_5 : ∃ (s : State) (x : Nat),
    (s.ctx x).gey.bound = true :=
  ⟨(gs (gy (fun g => {g with bound := true}))), 0,
   (by decide +kernel)⟩

theorem test_meets_CopiesAreTakenReseededAndFetched_0 : ∃ (s : State) (h : Hdr) (j : Nat) (x : Nat),
    s.takes h = true ∧
    s.jobById j = some x ∧
    h.src ∉ (s.ctx x).coord.spares :=
  ⟨(gs (co (fun o => {o with spares := [8]}))), (hdr 9 0 0), 77, 0,
   (by decide +kernel),
   (by decide +kernel),
   (by decide +kernel)⟩

theorem test_meets_CopiesAreTakenReseededAndFetched_1 : ∃ (s : State) (h : Hdr) (lost : Nat) (spare : Nat) (epoch : Nat) (x : Nat) (p : Partner),
    s.serves h epoch x ∧
    (s.ctx x).gey.partner = some p ∧
    p.locus = lost :=
  ⟨(gs (gy (fun g => {g with partner := some (pt 5 [(blockKey 10 1, pb 3), (blockKey 10 0, pb 4)])}))), (hdr 1), 5, 8, 4, 0, (pt 5 [(blockKey 10 1, pb 3), (blockKey 10 0, pb 4)]),
   (by unfold State.serves; decide +kernel),
   (by decide +kernel),
   (by decide +kernel)⟩

theorem test_meets_CopiesAreTakenReseededAndFetched_1b : ∃ (s : State) (h : Hdr) (lost : Nat) (spare : Nat) (epoch : Nat) (x : Nat) (p : Partner),
    s.serves h epoch x ∧
    (s.ctx x).gey.partner = some p ∧
    p.locus = lost :=
  ⟨(gs (gy (fun g => {g with partner := some (pt 5 [])}))), (hdr 1), 5, 8, 4, 0, (pt 5 []),
   (by unfold State.serves; decide +kernel),
   (by decide +kernel),
   (by decide +kernel)⟩

theorem test_meets_CopiesAreTakenReseededAndFetched_2 : ∃ (s : State) (h : Hdr) (lost : Nat) (spare : Nat) (epoch : Nat) (x : Nat) (p : Partner),
    s.serves h epoch x ∧
    (s.ctx x).gey.partner = some p ∧
    p.locus ≠ lost ∧
    p.locus ≠ spare :=
  ⟨(gs (gy (fun g => {g with partner := some (pt 6 [])}))), (hdr 1), 5, 8, 4, 0, (pt 6 []),
   (by unfold State.serves; decide +kernel),
   (by decide +kernel),
   (by decide +kernel),
   (by decide +kernel)⟩

theorem test_meets_CopiesAreTakenReseededAndFetched_3 : ∃ (s : State) (x : Nat) (t0 : Nat),
    (s.ctx x).gey.takeStart = some t0 :=
  ⟨(gs (gy (fun g => {g with takingFrom := some 7, takeStart := some 100}))), 0, 100,
   (by decide +kernel)⟩

theorem test_meets_CopiesAreTakenReseededAndFetched_3b : ∃ (s : State) (x : Nat) (t0 : Nat),
    (s.ctx x).gey.takeStart = some t0 :=
  ⟨{gs (gy (fun g => {g with takingFrom := some 7, takeStart := some 100})) with time := {run0.time with loc := 9000000000}}, 0, 100,
   (by decide +kernel)⟩

theorem test_meets_CopiesAreTakenReseededAndFetched_4 : ∃ (s : State) (x : Nat),
    (s.ctx x).gey.takeStart = none :=
  ⟨(gs id), 0,
   (by decide +kernel)⟩

theorem test_meets_CopiesAreTakenReseededAndFetched_5 : ∃ (s : State) (h : Hdr) (sum : Nat) (x : Nat),
    s.takes h = true ∧
    s.coordCtx h.src (nextStep h.step) = some x :=
  ⟨(gs (co (fun o => {o with taking := [(5, 3), (6, 4)]}))), (hdr 3 4 0), 99, 0,
   (by decide +kernel),
   (by decide +kernel)⟩

theorem test_meets_CopiesAreTakenReseededAndFetched_6 : ∃ (s : State) (h : Hdr) (mask : Nat) (x : Nat),
    s.takes h = true ∧
    s.liveCtxs = [x] ∧
    (s.ctx x).gey.buddy = h.src ∧
    3 ≤ (s.ctx x).st.code :=
  ⟨(gs id), (hdr 3), 1, 0,
   (by decide +kernel),
   (by decide +kernel),
   (by decide +kernel),
   (by decide +kernel)⟩

theorem test_meets_CopiesAreTakenReseededAndFetched_6b : ∃ (s : State) (h : Hdr) (mask : Nat) (x : Nat),
    s.takes h = true ∧
    s.liveCtxs = [x] ∧
    (s.ctx x).gey.buddy = h.src ∧
    3 ≤ (s.ctx x).st.code :=
  ⟨(gs id), (hdr 3), 2, 0,
   (by decide +kernel),
   (by decide +kernel),
   (by decide +kernel),
   (by decide +kernel)⟩

theorem test_meets_CopiesAreTakenReseededAndFetched_7 : ∃ (s : State) (h : Hdr) (tensorId : Nat) (block : Nat) (x : Nat) (p : Partner) (b : PBlock),
    s.takes h = true ∧
    s.liveCtxs = [x] ∧
    (s.ctx x).gey.partner = some p ∧
    p.locus = h.src ∧
    KMap.find p.committed (blockKey tensorId block) = some b :=
  ⟨(gs (gy (fun g => {g with partner := some (pt 5 [(blockKey 10 1, pb 3)])}))), (hdr 5), 10, 1, 0, (pt 5 [(blockKey 10 1, pb 3)]), (pb 3),
   (by decide +kernel),
   (by decide +kernel),
   (by decide +kernel),
   (by decide +kernel),
   (by decide +kernel)⟩

theorem test_meets_CopiesAreTakenReseededAndFetched_8 : ∃ (s : State) (h : Hdr) (tensorId : Nat) (block : Nat),
    s.takes h = true ∧
    (∀ x, (s.ctx x).gey.partner = none) :=
  ⟨(prt run0 32 (fun p => {pUp p with hasAddr := true})), (hdr 5), 10, 1,
   (by decide +kernel),
   (fun _ => rfl)⟩

theorem test_meets_CheckpointsAndRestoresComplete_0 : ∃ (s : State) (h : Hdr) (epoch : Nat) (x : Nat),
    s.serves h epoch x ∧
    (s.ctx x).gey.ckpt = none ∧
    (s.ctx x).lastStep = h.step ∧
    s.cfg.geyGwCount ≠ 0 :=
  ⟨(gs id), (hdr 1 4), 4, 0,
   (by unfold State.serves; decide +kernel),
   (by decide +kernel),
   (by decide +kernel),
   (by decide +kernel)⟩

theorem test_meets_CheckpointsAndRestoresComplete_1 : ∃ (s : State) (h : Hdr) (epoch : Nat) (x : Nat),
    s.serves h epoch x ∧
    (s.ctx x).gey.ckpt = none ∧
    (s.ctx x).lastStep = h.step ∧
    s.cfg.geyGwCount = 0 :=
  ⟨(cfgSet (gs id) [(0x0C04, 0)]), (hdr 1 4), 4, 0,
   (by unfold State.serves; decide +kernel),
   (by decide +kernel),
   (by decide +kernel),
   (by decide +kernel)⟩

theorem test_meets_CheckpointsAndRestoresComplete_2 : ∃ (s : State) (h : Hdr) (epoch : Nat) (x : Nat) (k : CkptRun),
    s.serves h epoch x ∧
    (s.ctx x).gey.ckpt = some k :=
  ⟨(gs (gy (fun g => {g with ckpt := some ck}))), (hdr 1 4), 4, 0, ck,
   (by unfold State.serves; decide +kernel),
   (by decide +kernel)⟩

theorem test_meets_CheckpointsAndRestoresComplete_3 : ∃ (s : State) (x : Nat) (k : CkptRun),
    (s.ctx x).gey.ckpt = some k :=
  ⟨(gx (gy (fun g => {g with ckpt := some ck, pins := [(3, pb 1)], pinWait := [4]})) [(3, xw id), (4, xw (fun v => {v with writing := false}))]), 0, ck,
   (by decide +kernel)⟩

theorem test_meets_CheckpointsAndRestoresComplete_4 : ∃ (s : State) (x : Nat),
    (s.ctx x).gey.ckpt = none :=
  ⟨(gs id), 0,
   (by decide +kernel)⟩

theorem test_meets_CheckpointsAndRestoresComplete_5 : ∃ (s : State) (h : Hdr) (status : Nat) (x : Nat) (l : List (Nat × Nat)),
    s.takes h = true ∧
    s.coordCtx h.src (nextStep h.step) = some x ∧
    (s.ctx x).coord.ckpt = some (h.step, l) ∧
    (∀ e ∈ l, e.1 ≠ h.src ∧ e.2 = 0) ∧
    (∀ p ∈ (s.ctx x).pmap, p ≠ h.src → ∃ e ∈ l, e.1 = p) :=
  ⟨(gs (co (fun o => {o with ckpt := some (4, [(1, 0)])}))), (hdr 3 4), 0, 0, [(1, 0)],
   (by decide +kernel),
   (by decide +kernel),
   (by decide +kernel),
   (by decide +kernel),
   (by decide +kernel)⟩

theorem test_meets_CheckpointsAndRestoresComplete_5b : ∃ (s : State) (h : Hdr) (status : Nat) (x : Nat) (l : List (Nat × Nat)),
    s.takes h = true ∧
    s.coordCtx h.src (nextStep h.step) = some x ∧
    (s.ctx x).coord.ckpt = some (h.step, l) ∧
    (∀ e ∈ l, e.1 ≠ h.src ∧ e.2 = 0) ∧
    (∀ p ∈ (s.ctx x).pmap, p ≠ h.src → ∃ e ∈ l, e.1 = p) :=
  ⟨(gs (co (fun o => {o with ckpt := some (4, [(1, 0)])}))), (hdr 3 4), 1, 0, [(1, 0)],
   (by decide +kernel),
   (by decide +kernel),
   (by decide +kernel),
   (by decide +kernel),
   (by decide +kernel)⟩

theorem test_meets_CheckpointsAndRestoresComplete_6 : ∃ (s : State) (h : Hdr) (status : Nat) (x : Nat) (l : List (Nat × Nat)) (p : Nat),
    s.takes h = true ∧
    s.coordCtx h.src (nextStep h.step) = some x ∧
    (s.ctx x).coord.ckpt = some (h.step, l) ∧
    (∀ e ∈ l, e.1 ≠ h.src ∧ e.1 ≠ p) ∧
    p ∈ (s.ctx x).pmap ∧
    p ≠ h.src :=
  ⟨(gs (fun c => {co (fun o => {o with ckpt := some (4, [])}) c with pmap := [1,3]})), (hdr 3 4), 1, 0, [], 1,
   (by decide +kernel),
   (by decide +kernel),
   (by decide +kernel),
   (by decide +kernel),
   (by decide +kernel),
   (by decide +kernel)⟩

theorem test_meets_CheckpointsAndRestoresComplete_7 : ∃ (s : State) (h : Hdr) (j : Nat) (epoch : Nat) (x : Nat),
    s.serves h epoch x ∧
    (∀ g, g ∉ List.range s.cfg.geyGwCount ∨ g ∈ s.gey.gwDown) :=
  ⟨(cfgSet (gs id) [(0x0C04, 0)]), (hdr 1 9), 70, 4, 0,
   (by unfold State.serves; decide +kernel),
   (fun g => Or.inl (show g ∉ ([] : List Nat) from List.not_mem_nil))⟩

theorem test_meets_CheckpointsAndRestoresComplete_8 : ∃ (s : State) (h : Hdr) (j : Nat) (epoch : Nat) (x : Nat),
    s.serves h epoch x ∧
    0 < s.cfg.geyGwCount ∧
    s.gey.gwDown = [] :=
  ⟨(gs (fun c => {c with pend := [(0, pb 3)]})), (hdr 1 9), 70, 4, 0,
   (by unfold State.serves; decide +kernel),
   (by decide +kernel),
   (by decide +kernel)⟩

theorem test_meets_CheckpointsAndRestoresComplete_9 : ∃ (s : State) (x : Nat) (r : RestoreRun) (m : List Byte),
    (s.ctx x).gey.restore = some r ∧
    r.manifest = some m ∧
    r.left = [] ∧
    r.running = 0 :=
  ⟨(gs (gy (fun g => {g with restore := some rr}))), 0, rr, [],
   (by decide +kernel),
   (by decide +kernel),
   (by decide +kernel),
   (by decide +kernel)⟩

theorem test_meets_CheckpointsAndRestoresComplete_10 : ∃ (s : State) (x : Nat),
    (s.ctx x).gey.restore = none :=
  ⟨(gs id), 0,
   (by decide +kernel)⟩

theorem test_meets_CheckpointsAndRestoresComplete_11 : ∃ (s : State) (h : Hdr) (sum : Nat) (x : Nat) (j : Nat) (l : List (Nat × Nat)) (p : Nat),
    s.takes h = true ∧
    s.liveCtxs = [x] ∧
    (s.ctx x).coord.restore = some (h.step, j, l) ∧
    (s.ctx x).coord.active = true ∧
    (s.ctx x).coord.started = true ∧
    (∀ e ∈ l, e.1 ≠ h.src ∧ e.1 ≠ p) ∧
    p ∈ (s.ctx x).pmap ∧
    p ≠ h.src :=
  ⟨(gs (co (fun o => {o with restore := some (9, 70, []), held := true}))), (hdr 3 9), 5, 0, 70, [], 1,
   (by decide +kernel),
   (by decide +kernel),
   (by decide +kernel),
   (by decide +kernel),
   (by decide +kernel),
   (by decide +kernel),
   (by decide +kernel),
   (by decide +kernel)⟩

theorem test_meets_CheckpointsAndRestoresComplete_12 : ∃ (s : State) (h : Hdr) (sum : Nat) (x : Nat) (j : Nat) (l : List (Nat × Nat)),
    s.takes h = true ∧
    s.liveCtxs = [x] ∧
    (s.ctx x).coord.restore = some (h.step, j, l) ∧
    (s.ctx x).coord.active = true ∧
    (s.ctx x).coord.started = true ∧
    (∀ e ∈ l, e.1 ≠ h.src) ∧
    (∀ p ∈ (s.ctx x).pmap, p ≠ h.src → ∃ e ∈ l, e.1 = p) ∧
    (s.ctx x).committed = some h.step :=
  ⟨(gs (fun c => {co (fun o => {o with restore := some (9, 70, [(1, 0)]), held := true}) c with committed := some 9})), (hdr 3 9), 5, 0, 70, [(1, 0)],
   (by decide +kernel),
   (by decide +kernel),
   (by decide +kernel),
   (by decide +kernel),
   (by decide +kernel),
   (by decide +kernel),
   (by decide +kernel),
   (by decide +kernel)⟩

theorem test_meets_WritingTransfersComplete_0 : ∃ (s : State) (m : ShardMsg) (v : Xfer),
    KMap.find s.gey.xfers m.handle = some v ∧
    m.version = 1 ∧
    v.writing = true ∧
    v.phase = 0 ∧
    m.status = 0 :=
  ⟨(gx id [(3, xw id)]), (sm 3 0 0), (xw id),
   rfl,
   (by decide +kernel),
   (by decide +kernel),
   (by decide +kernel),
   (by decide +kernel)⟩

theorem test_meets_WritingTransfersComplete_0b : ∃ (s : State) (m : ShardMsg) (v : Xfer),
    KMap.find s.gey.xfers m.handle = some v ∧
    m.version = 1 ∧
    v.writing = true ∧
    v.phase = 0 ∧
    m.status = 0 :=
  ⟨(gx id [(3, xw (fun v => {v with object := [], total := 0}))]), (sm 3 0 0), (xw (fun v => {v with object := [], total := 0})),
   rfl,
   (by decide +kernel),
   (by decide +kernel),
   (by decide +kernel),
   (by decide +kernel)⟩

theorem test_meets_WritingTransfersComplete_1 : ∃ (s : State) (m : ShardMsg) (v : Xfer),
    KMap.find s.gey.xfers m.handle = some v ∧
    m.version = 1 ∧
    v.writing = true ∧
    v.phase = 0 ∧
    m.status = 1 :=
  ⟨(gx id [(3, xw id)]), (sm 3 1 0), (xw id),
   rfl,
   (by decide +kernel),
   (by decide +kernel),
   (by decide +kernel),
   (by decide +kernel)⟩

theorem test_meets_WritingTransfersComplete_2 : ∃ (s : State) (m : ShardMsg) (v : Xfer) (g : Nat),
    KMap.find s.gey.xfers m.handle = some v ∧
    m.version = 1 ∧
    v.writing = true ∧
    v.phase = 0 ∧
    2 ≤ m.status ∧
    s.nextGateway (v.gateway + 1) [v.gateway] = some g ∧
    m.handle ≠ s.gey.nextHandle :=
  ⟨(gx id [(3, xw id)]), (sm 3 2 0), (xw id), 1,
   rfl,
   (by decide +kernel),
   (by decide +kernel),
   (by decide +kernel),
   (by decide +kernel),
   (by decide +kernel),
   (by decide +kernel)⟩

theorem test_meets_WritingTransfersComplete_3 : ∃ (s : State) (h : Nat) (v : Xfer),
    KMap.find s.gey.xfers h = some v ∧
    v.phase = 3 :=
  ⟨(gx id [(3, xw (fun v => {v with phase := 3}))]), 3, (xw (fun v => {v with phase := 3})),
   rfl,
   (by decide +kernel)⟩

theorem test_meets_WritingTransfersComplete_3b : ∃ (s : State) (h : Nat) (v : Xfer),
    KMap.find s.gey.xfers h = some v ∧
    v.phase = 3 :=
  ⟨(gx id [(3, xw (fun v => {v with phase := 3, writing := false}))]), 3, (xw (fun v => {v with phase := 3, writing := false})),
   rfl,
   (by decide +kernel)⟩

theorem test_meets_WritingTransfersComplete_4 : ∃ (s : State) (m : ShardMsg) (v : Xfer),
    KMap.find s.gey.xfers m.handle = some v ∧
    m.version = 1 ∧
    v.writing = true ∧
    v.phase = 1 ∧
    m.offset ≤ v.sent ∧
    v.total ≤ m.offset :=
  ⟨(gx id [(3, xd)]), (sm 3 0 20000), xd,
   rfl,
   (by decide +kernel),
   (by decide +kernel),
   (by decide +kernel),
   (by decide +kernel),
   (by decide +kernel)⟩

theorem test_meets_WritingTransfersComplete_5 : ∃ (s : State) (m : ShardMsg) (v : Xfer),
    KMap.find s.gey.xfers m.handle = some v ∧
    m.version = 1 ∧
    v.writing = true ∧
    v.phase = 1 ∧
    m.offset ≤ v.sent ∧
    m.offset < v.total :=
  ⟨(gx id [(3, xd)]), (sm 3 0 16384), xd,
   rfl,
   (by decide +kernel),
   (by decide +kernel),
   (by decide +kernel),
   (by decide +kernel),
   (by decide +kernel)⟩

theorem test_meets_WritingTransfersComplete_5b : ∃ (s : State) (m : ShardMsg) (v : Xfer),
    KMap.find s.gey.xfers m.handle = some v ∧
    m.version = 1 ∧
    v.writing = true ∧
    v.phase = 1 ∧
    m.offset ≤ v.sent ∧
    m.offset < v.total :=
  ⟨(gx id [(3, {xd with sent := 8192})]), (sm 3 0 8192), {xd with sent := 8192},
   rfl,
   (by decide +kernel),
   (by decide +kernel),
   (by decide +kernel),
   (by decide +kernel),
   (by decide +kernel)⟩

theorem test_meets_WritingTransfersComplete_6 : ∃ (s : State) (m : ShardMsg) (v : Xfer) (k : CkptRun),
    KMap.find s.gey.xfers m.handle = some v ∧
    m.version = 1 ∧
    v.writing = true ∧
    v.phase = 2 ∧
    m.status = 0 ∧
    (s.ctx v.ctx).gey.ckpt = some k ∧
    v.shard ≠ 0xFFFFFFFF :=
  ⟨(gx (gy (fun g => {g with ckpt := some ck, pins := [(5, pb 1), (7, pb 1)], pinWait := [6, 8]})) [(3, xc)]), (sm 3 0 20000), xc, ck,
   rfl,
   (by decide +kernel),
   (by decide +kernel),
   (by decide +kernel),
   (by decide +kernel),
   (by decide +kernel),
   (by decide +kernel)⟩

theorem test_meets_WritingTransfersComplete_7 : ∃ (s : State) (m : ShardMsg) (v : Xfer) (k : CkptRun),
    KMap.find s.gey.xfers m.handle = some v ∧
    m.version = 1 ∧
    v.writing = true ∧
    v.phase = 2 ∧
    m.status = 0 ∧
    (s.ctx v.ctx).gey.ckpt = some k ∧
    v.shard = 0xFFFFFFFF ∧
    k.manifestLeft = [v.gateway] :=
  ⟨(gx (gy (fun g => {g with ckpt := some {ck with unstored := 0, manifestOpen := true}})) [(3, xm)]), (sm 3 0 20000), xm, {ck with unstored := 0, manifestOpen := true},
   rfl,
   (by decide +kernel),
   (by decide +kernel),
   (by decide +kernel),
   (by decide +kernel),
   (by decide +kernel),
   (by decide +kernel),
   (by decide +kernel)⟩

theorem test_meets_WritingTransfersComplete_8 : ∃ (s : State) (m : ShardMsg) (v : Xfer),
    KMap.find s.gey.xfers m.handle = some v ∧
    m.version = 1 ∧
    v.writing = true ∧
    v.phase = 2 ∧
    m.status ≠ 0 ∧
    m.handle ≠ s.gey.nextHandle :=
  ⟨(gx (gy (fun g => {g with ckpt := some ck})) [(3, xc)]), (sm 3 5 20000), xc,
   rfl,
   (by decide +kernel),
   (by decide +kernel),
   (by decide +kernel),
   (by decide +kernel),
   (by decide +kernel)⟩

theorem test_meets_ReadingTransfersComplete_0 : ∃ (s : State) (m : ShardMsg) (v : Xfer),
    KMap.find s.gey.xfers m.handle = some v ∧
    m.version = 1 ∧
    v.writing = false ∧
    v.phase = 0 ∧
    m.status = 0 :=
  ⟨(gx gr [(3, xr)]), (sm 3 0 0 0 (beBytes 8 5000)), xr,
   rfl,
   (by decide +kernel),
   (by decide +kernel),
   (by decide +kernel),
   (by decide +kernel)⟩

theorem test_meets_ReadingTransfersComplete_1 : ∃ (s : State) (m : ShardMsg) (v : Xfer) (r : RestoreRun),
    KMap.find s.gey.xfers m.handle = some v ∧
    m.version = 1 ∧
    v.writing = false ∧
    v.phase = 0 ∧
    m.status ≠ 0 ∧
    (s.ctx v.ctx).gey.restore = some r ∧
    s.cfg.geyGwCount = 1 ∧
    v.gateway = 0 :=
  ⟨(cfgSet (gx gr [(3, xr)]) [(0x0C04, 1)]), (sm 3 3 0), xr, {rr with manifest := none},
   rfl,
   (by decide +kernel),
   (by decide +kernel),
   (by decide +kernel),
   (by decide +kernel),
   (by decide +kernel),
   (by decide +kernel),
   (by decide +kernel)⟩

theorem test_meets_ReadingTransfersComplete_1b : ∃ (s : State) (m : ShardMsg) (v : Xfer) (r : RestoreRun),
    KMap.find s.gey.xfers m.handle = some v ∧
    m.version = 1 ∧
    v.writing = false ∧
    v.phase = 0 ∧
    m.status ≠ 0 ∧
    (s.ctx v.ctx).gey.restore = some r ∧
    s.cfg.geyGwCount = 1 ∧
    v.gateway = 0 :=
  ⟨(cfgSet (gx gr [(3, {xr with shard := 0xFFFFFFFF})]) [(0x0C04, 1)]), (sm 3 3 0), {xr with shard := 0xFFFFFFFF}, {rr with manifest := none},
   rfl,
   (by decide +kernel),
   (by decide +kernel),
   (by decide +kernel),
   (by decide +kernel),
   (by decide +kernel),
   (by decide +kernel),
   (by decide +kernel)⟩

theorem test_meets_ReadingTransfersComplete_2 : ∃ (s : State) (m : ShardMsg) (v : Xfer),
    KMap.find s.gey.xfers m.handle = some v ∧
    m.version = 1 ∧
    v.writing = false ∧
    v.phase = 1 ∧
    m.offset = v.object.length ∧
    v.object.length + m.payload.length < v.total :=
  ⟨(gx gr [(3, xq)]), (sm 3 0 2 0 [7#8, 8#8]), xq,
   rfl,
   (by decide +kernel),
   (by decide +kernel),
   (by decide +kernel),
   (by decide +kernel),
   (by decide +kernel)⟩

theorem test_meets_ReadingTransfersComplete_2b : ∃ (s : State) (m : ShardMsg) (v : Xfer),
    KMap.find s.gey.xfers m.handle = some v ∧
    m.version = 1 ∧
    v.writing = false ∧
    v.phase = 1 ∧
    m.offset = v.object.length ∧
    v.object.length + m.payload.length < v.total :=
  ⟨(gx gr [(3, {xq with sinceDack := 3})]), (sm 3 0 2 0 [7#8, 8#8]), {xq with sinceDack := 3},
   rfl,
   (by decide +kernel),
   (by decide +kernel),
   (by decide +kernel),
   (by decide +kernel),
   (by decide +kernel)⟩

theorem test_meets_ReadingTransfersComplete_3 : ∃ (s : State) (m : ShardMsg) (v : Xfer),
    KMap.find s.gey.xfers m.handle = some v ∧
    m.version = 1 ∧
    v.writing = false ∧
    v.phase = 1 ∧
    m.offset ≠ v.object.length :=
  ⟨(gx gr [(3, xq)]), (sm 3 0 7 0 [7#8, 8#8]), xq,
   rfl,
   (by decide +kernel),
   (by decide +kernel),
   (by decide +kernel),
   (by decide +kernel)⟩

theorem test_meets_ReadingTransfersComplete_4 : ∃ (s : State) (h : Nat) (v : Xfer),
    KMap.find s.gey.xfers h = some v ∧
    v.writing = false ∧
    v.phase = 1 :=
  ⟨(gx gr [(3, xq)]), 3, xq,
   rfl,
   (by decide +kernel),
   (by decide +kernel)⟩

theorem test_meets_ReadingTransfersComplete_5 : ∃ (s : State) (h : Nat) (v : Xfer),
    KMap.find s.gey.xfers h = some v ∧
    v.phase ≤ 2 ∧
    v.timeouts < 11 :=
  ⟨(gx gr [(3, {xq with timeouts := 10})]), 3, {xq with timeouts := 10},
   rfl,
   (by decide +kernel),
   (by decide +kernel)⟩

theorem test_meets_ReadingTransfersComplete_5b : ∃ (s : State) (h : Nat) (v : Xfer),
    KMap.find s.gey.xfers h = some v ∧
    v.phase ≤ 2 ∧
    v.timeouts < 11 :=
  ⟨(gx id [(3, {xd with timeouts := 0})]), 3, {xd with timeouts := 0},
   rfl,
   (by decide +kernel),
   (by decide +kernel)⟩

theorem test_meets_ReadingTransfersComplete_6 : ∃ (s : State) (h : Nat) (v : Xfer),
    KMap.find s.gey.xfers h = some v ∧
    v.phase ≤ 2 ∧
    11 ≤ v.timeouts :=
  ⟨(gx gr [(3, {xq with timeouts := 11})]), 3, {xq with timeouts := 11},
   rfl,
   (by decide +kernel),
   (by decide +kernel)⟩

theorem test_meets_ReadingTransfersComplete_6b : ∃ (s : State) (h : Nat) (v : Xfer),
    KMap.find s.gey.xfers h = some v ∧
    v.phase ≤ 2 ∧
    11 ≤ v.timeouts :=
  ⟨(gx id [(3, {xd with timeouts := 11})]), 3, {xd with timeouts := 11},
   rfl,
   (by decide +kernel),
   (by decide +kernel)⟩

theorem test_meets_ReadingTransfersComplete_7 : ∃ (s : State) (h : Nat) (v : Xfer),
    KMap.find s.gey.xfers h = some v ∧
    2 < v.phase :=
  ⟨(gx id [(3, {xd with phase := 3})]), 3, {xd with phase := 3},
   rfl,
   (by decide +kernel)⟩

theorem test_meets_ReadingTransfersComplete_8 : ∃ (s : State) (h : Nat),
    KMap.find s.gey.xfers h = none :=
  ⟨(gx id []), 3,
   rfl⟩

end GeyserAndCopies

namespace RecordsAndPower
def rec (q code sev : Nat) (op : Bool) : EvRec := ⟨q, 1, 2, 3, 4, 0, code, sev, false, 0, op, 1, 2, 3, 0, 0, 1, [5, 6]⟩
def ev (l : List EvRec) (f : Option Freeze := none) : State := { run0 with evr := { Evr.reset with log := l, nextSeq := 9, freeze := f, alert := true }, mgmt := { run0.mgmt with sessions := [⟨5, 0, 9, true, 0, 0⟩] } }
def rq : Req := { req with session := some 5 }
def fz : Freeze := ⟨rq, 3, 8, 500⟩
def rq2 : Req := { rq with binding := 1, eid := 12 }
def gst : State := withCtx run0 0 (ctxP .running)
def gref : State := { gst with pwr := { gst.pwr with ctx := [(0, { PwrCtx.reset with ref := some { PwrRef.empty with tref := 0, other := 5000, dyn := [(0, 900000)] } })] } }
def rr : State := withCtx run0 0 { ctxR with mask := 3 }
def sta (i n : Nat) (off := false) : State := { rr with pwr := { rr.pwr with stages := [(i, { Stage.reset with active := n, off, good := true })] } }

theorem test_meets_RecorderCommandsComplete_1 : ∃ (s : State) (r : Req),
    s.vendorServed r false false = true :=
  ⟨(ev [rec 3 0x101 1 true, rec 4 0x101 1 true]), rq,
   (by decide +kernel)⟩

theorem test_meets_RecorderCommandsComplete_1b : ∃ (s : State) (r : Req),
    s.vendorServed r false false = true :=
  ⟨(ev []), rq2,
   (by decide +kernel)⟩

theorem test_meets_RecorderCommandsComplete_2 : ∃ (s : State) (r : Req),
    s.vendorServed r false false = true ∧
    s.evr.freeze = none :=
  ⟨(ev [rec 3 0x101 1 true, rec 4 0x101 1 true]), rq,
   (by decide +kernel),
   (by decide +kernel)⟩

theorem test_meets_RecorderCommandsComplete_2b : ∃ (s : State) (r : Req),
    s.vendorServed r false false = true ∧
    s.evr.freeze = none :=
  ⟨(ev []), rq,
   (by decide +kernel),
   (by decide +kernel)⟩

theorem test_meets_RecorderCommandsComplete_3 : ∃ (s : State) (r : Req) (f : Freeze),
    s.vendorServed r false false = true ∧
    s.evr.freeze = some f ∧
    s.evr.heldBy r = true :=
  ⟨(ev [rec 3 0x101 1 true, rec 4 0x101 1 true] (some fz)), rq, fz,
   (by decide +kernel),
   (by decide +kernel),
   (by decide +kernel)⟩

theorem test_meets_RecorderCommandsComplete_4 : ∃ (s : State) (r : Req) (f : Freeze),
    s.vendorServed r false false = true ∧
    s.evr.freeze = some f ∧
    s.evr.heldBy r = false :=
  ⟨(ev [rec 3 0x101 1 true, rec 4 0x101 1 true] (some fz)), rq2, fz,
   (by decide +kernel),
   (by decide +kernel),
   (by decide +kernel)⟩

theorem test_meets_RecorderCommandsComplete_5 : ∃ (s : State) (r : Req) (n : Nat) (sev : Nat) (a : EvRec),
    s.vendorServed r false false = true ∧
    s.evr.freeze = none ∧
    s.evr.log = [a] ∧
    s.evr.spill = [] ∧
    1 ≤ n ∧
    n ≤ 40 ∧
    sev ≤ a.severity :=
  ⟨(ev [rec 3 0x101 1 true]), rq2, 40, 1, (rec 3 0x101 1 true),
   (by decide +kernel),
   (by decide +kernel),
   (by decide +kernel),
   (by decide +kernel),
   (by decide +kernel),
   (by decide +kernel),
   (by decide +kernel)⟩

theorem test_meets_RecorderCommandsComplete_5b : ∃ (s : State) (r : Req) (n : Nat) (sev : Nat) (a : EvRec),
    s.vendorServed r false false = true ∧
    s.evr.freeze = none ∧
    s.evr.log = [a] ∧
    s.evr.spill = [] ∧
    1 ≤ n ∧
    n ≤ 40 ∧
    sev ≤ a.severity :=
  ⟨(ev [rec (2^32-1) 0x101 1 true]), rq2, 1, 0, (rec (2^32-1) 0x101 1 true),
   (by decide +kernel),
   (by decide +kernel),
   (by decide +kernel),
   (by decide +kernel),
   (by decide +kernel),
   (by decide +kernel),
   (by decide +kernel)⟩

theorem test_meets_RecorderCommandsComplete_6 : ∃ (s : State) (r : Req) (q : Nat) (n : Nat) (sev : Nat),
    s.vendorServed r false false = true ∧
    (n = 0 ∨ 40 < n) :=
  ⟨(ev [rec 3 0x101 1 true]), rq2, 3, 41, 1,
   (by decide +kernel),
   (by decide +kernel)⟩

theorem test_meets_RecorderCommandsComplete_7 : ∃ (s : State) (r : Req),
    s.vendorServed r false false = true ∧
    s.evr.heldBy r = true ∧
    s.evr.spill = [] :=
  ⟨(ev [rec 3 0x101 1 true, rec 4 0x101 1 true] (some fz)), rq,
   (by decide +kernel),
   (by decide +kernel),
   (by decide +kernel)⟩

theorem test_meets_RecorderCommandsComplete_8 : ∃ (s : State) (r : Req),
    s.vendorServed r false false = true ∧
    s.evr.heldByOther r = true :=
  ⟨(ev [rec 3 0x101 1 true, rec 4 0x101 1 true] (some fz)), rq2,
   (by decide +kernel),
   (by decide +kernel)⟩

theorem test_meets_RecorderCommandsComplete_9 : ∃ (s : State) (r : Req) (a : EvRec) (sev : Nat),
    s.vendorServed r false true = true ∧
    s.cfg.evrClearChannels.testBit r.binding = true ∧
    s.evr.freeze = none ∧
    s.evr.log = [a] ∧
    s.evr.spill = [] ∧
    a.isOpen = false ∧
    a.severity ≤ sev ∧
    a.seq ≠ s.evr.nextSeq :=
  ⟨(ev [rec 3 0x101 1 false]), rq, (rec 3 0x101 1 false), 2,
   (by decide +kernel),
   (by decide +kernel),
   (by decide +kernel),
   (by decide +kernel),
   (by decide +kernel),
   (by decide +kernel),
   (by decide +kernel),
   (by decide +kernel)⟩

theorem test_meets_RecorderCommandsComplete_10 : ∃ (s : State) (r : Req) (a : EvRec) (q : Nat) (sev : Nat),
    s.vendorServed r false true = true ∧
    s.cfg.evrClearChannels.testBit r.binding = true ∧
    s.evr.freeze = none ∧
    s.evr.log = [a] ∧
    s.evr.spill = [] ∧
    (a.isOpen = true ∨ sev < a.severity) :=
  ⟨(ev [rec 3 0x101 1 true]), rq, (rec 3 0x101 1 true), 9, 2,
   (by decide +kernel),
   (by decide +kernel),
   (by decide +kernel),
   (by decide +kernel),
   (by decide +kernel),
   (by decide +kernel)⟩

theorem test_meets_RecorderCommandsComplete_10b : ∃ (s : State) (r : Req) (a : EvRec) (q : Nat) (sev : Nat),
    s.vendorServed r false true = true ∧
    s.cfg.evrClearChannels.testBit r.binding = true ∧
    s.evr.freeze = none ∧
    s.evr.log = [a] ∧
    s.evr.spill = [] ∧
    (a.isOpen = true ∨ sev < a.severity) :=
  ⟨(ev [rec 3 0x101 2 false]), rq, (rec 3 0x101 2 false), 9, 1,
   (by decide +kernel),
   (by decide +kernel),
   (by decide +kernel),
   (by decide +kernel),
   (by decide +kernel),
   (by decide +kernel)⟩

theorem test_meets_RecorderCommandsComplete_11 : ∃ (s : State) (r : Req) (q : Nat) (sev : Nat),
    s.vendorServed r false true = true ∧
    s.cfg.evrClearChannels.testBit r.binding = false :=
  ⟨(cfgSet (ev [rec 3 0x101 2 false]) [(0x0E03, 2)]), rq, 9, 1,
   (by decide +kernel),
   (by decide +kernel)⟩

theorem test_meets_RecorderCommandsComplete_12 : ∃ (s : State) (f : Freeze),
    s.evr.freeze = some f :=
  ⟨(ev [rec 3 0x101 1 true, rec 4 0x101 1 true] (some fz)), fz,
   (by decide +kernel)⟩

theorem test_meets_RecorderCommandsComplete_13 : ∃ (s : State),
    s.evr.freeze = none :=
  ⟨(ev []),
   (by decide +kernel)⟩

theorem test_meets_LedgerCommandsComplete_0 : ∃ (s : State) (i : Nat) (mv : Nat) (ma : Nat),
    i < 36 ∧
    s.pins.pgood = true :=
  ⟨run0, 35, 750, 3000,
   (by decide +kernel),
   (by decide +kernel)⟩

theorem test_meets_LedgerCommandsComplete_1 : ∃ (s : State) (i : Nat) (mv : Nat) (ma : Nat),
    i < 36 ∧
    s.pins.pgood = false :=
  ⟨{ run0 with pins := {run0.pins with pgood := false}}, 35, 750, 3000,
   (by decide +kernel),
   (by decide +kernel)⟩

theorem test_meets_LedgerCommandsComplete_2 : ∃ (s : State) (r : Req) (x : Nat) (g : Nat) (eff : Nat),
    s.vendorServed r false false = true ∧
    s.cfg.pwrGrantChannels.testBit r.binding = true ∧
    x < 16 ∧
    (s.ctx x).st.grantable = true ∧
    (∀ q, (s.pwrCtx x).ref = some q → (q.floorOf (maskParts (s.ctx x).mask) (s.ctx x).dOffset).1 ≤ g) :=
  ⟨gst, req, 0, 1000000, 7000000,
   (by decide +kernel),
   (by decide +kernel),
   (by decide +kernel),
   (by decide +kernel),
   (by decide +kernel)⟩

theorem test_meets_LedgerCommandsComplete_2b : ∃ (s : State) (r : Req) (x : Nat) (g : Nat) (eff : Nat),
    s.vendorServed r false false = true ∧
    s.cfg.pwrGrantChannels.testBit r.binding = true ∧
    x < 16 ∧
    (s.ctx x).st.grantable = true ∧
    (∀ q, (s.pwrCtx x).ref = some q → (q.floorOf (maskParts (s.ctx x).mask) (s.ctx x).dOffset).1 ≤ g) :=
  ⟨gref, req, 0, (10^15), 7000000,
   (by decide +kernel),
   (by decide +kernel),
   (by decide +kernel),
   (by decide +kernel),
   (by decide +kernel)⟩

theorem test_meets_LedgerCommandsComplete_3 : ∃ (s : State) (r : Req) (x : Nat) (g : Nat) (eff : Nat) (q : PwrRef),
    s.vendorServed r false false = true ∧
    s.cfg.pwrGrantChannels.testBit r.binding = true ∧
    x < 16 ∧
    (s.ctx x).st.grantable = true ∧
    (s.pwrCtx x).ref = some q ∧
    g < (q.floorOf (maskParts (s.ctx x).mask) (s.ctx x).dOffset).1 :=
  ⟨gref, req, 0, 0, 7000000, { PwrRef.empty with tref := 0, other := 5000, dyn := [(0, 900000)] },
   (by decide +kernel),
   (by decide +kernel),
   (by decide +kernel),
   (by decide +kernel),
   (by decide +kernel),
   (by decide +kernel)⟩

theorem test_meets_LedgerCommandsComplete_4 : ∃ (s : State) (r : Req) (x : Nat) (g : Nat) (eff : Nat),
    s.vendorServed r false false = true ∧
    s.cfg.pwrGrantChannels.testBit r.binding = false :=
  ⟨(cfgSet gst [(0x0F02, 2)]), req, 0, 1000000, 7000000,
   (by decide +kernel),
   (by decide +kernel)⟩

theorem test_meets_LedgerCommandsComplete_5 : ∃ (s : State) (r : Req) (w : Nat),
    s.vendorServed r false false = true ∧
    (w = 0 ∨ (1000 ≤ w ∧ w ≤ 5500)) :=
  ⟨gst, req, 1000,
   (by decide +kernel),
   (by decide +kernel)⟩

theorem test_meets_LedgerCommandsComplete_5b : ∃ (s : State) (r : Req) (w : Nat),
    s.vendorServed r false false = true ∧
    (w = 0 ∨ (1000 ≤ w ∧ w ≤ 5500)) :=
  ⟨gst, req, 0,
   (by decide +kernel),
   (by decide +kernel)⟩

theorem test_meets_LedgerCommandsComplete_6 : ∃ (s : State) (r : Req) (w : Nat),
    s.vendorServed r false false = true ∧
    w ≠ 0 ∧
    (w < 1000 ∨ 5500 < w) :=
  ⟨gst, req, 999,
   (by decide +kernel),
   (by decide +kernel),
   (by decide +kernel)⟩

theorem test_meets_LedgerCommandsComplete_7 : ∃ (s : State) (r : Req) (x : Nat),
    s.vendorServed r false false = true ∧
    x < 16 ∧
    (s.pwrCtx x).ref = none :=
  ⟨gst, req, 0,
   (by decide +kernel),
   (by decide +kernel),
   (by decide +kernel)⟩

theorem test_meets_ComparatorsAct_0 : ∃ (c : Instr) (p : Nat) (s : State),
    (c = Instr.vcoreUndervoltage p ∨ (∃ v, c = .frequencyMargin p v) ∨ (∃ v, c = .tjThrottle p v)) ∧
    p < 16 :=
  ⟨(.vcoreUndervoltage 0), 0, rr,
   (Or.inl rfl),
   (by decide +kernel)⟩

theorem test_meets_ComparatorsAct_0b : ∃ (c : Instr) (p : Nat) (s : State),
    (c = Instr.vcoreUndervoltage p ∨ (∃ v, c = .frequencyMargin p v) ∨ (∃ v, c = .tjThrottle p v)) ∧
    p < 16 :=
  ⟨(.frequencyMargin 5 6), 5, rr,
   (Or.inr (Or.inl ⟨_, rfl⟩)),
   (by decide +kernel)⟩

theorem test_meets_ComparatorsAct_1 : ∃ (s : State) (p : Nat),
    p < 16 :=
  ⟨rr, 3,
   (by decide +kernel)⟩

theorem test_meets_ComparatorsAct_2 : ∃ (s : State) (p : Nat) (v : Nat),
    p < 16 :=
  ⟨rr, 3, 5,
   (by decide +kernel)⟩

theorem test_meets_ComparatorsAct_3 : ∃ (s : State) (p : Nat) (v : Nat),
    p < 16 :=
  ⟨rr, 1, 120,
   (by decide +kernel)⟩

theorem test_meets_ComparatorsAct_4 : ∃ (s : State) (i : Nat) (v : Nat),
    i < 36 :=
  ⟨rr, 3, 900,
   (by decide +kernel)⟩

theorem test_meets_ComparatorsAct_4b : ∃ (s : State) (i : Nat) (v : Nat),
    i < 36 :=
  ⟨rr, 33, 900,
   (by decide +kernel)⟩

theorem test_meets_ComparatorsAct_6 : ∃ (s : State) (l : Nat) (u : Nat),
    l < 3 ∧
    u < 16 :=
  ⟨{ rr with pwr := { rr.pwr with acting := [limitKey 1 3, limitKey 2 3] } }, 1, 3,
   (by decide +kernel),
   (by decide +kernel)⟩

theorem test_meets_ComparatorsAct_7 : ∃ (s : State) (p : Nat),
    p < 16 ∧
    limitKey 3 p ∈ s.pwr.acting ∧
    1 < s.cfg.escalateCount ∧
    (∀ k, KMap.getD s.recov.actions k [] = []) ∧
    s.recov.completed = [] :=
  ⟨{ rr with mem := { rr.mem with bytes := [(5, 3#8), (2^35+5, 3#8)] }, pwr := { rr.pwr with acting := [limitKey 3 0, limitKey 3 3] } }, 0,
   (by decide +kernel),
   (by decide +kernel),
   (by decide +kernel),
   (fun _ => rfl),
   (by decide +kernel)⟩

theorem test_meets_ComparatorsAct_8 : ∃ (s : State) (i : Nat) (ph : Nat) (why : Nat),
    i < 36 ∧
    ph < phasesOf i ∧
    phasesMin i < (s.stage i).active :=
  ⟨(sta 3 (phasesOf 3)), 3, 0, 1,
   (by decide +kernel),
   (by decide +kernel),
   (by decide +kernel)⟩

theorem test_meets_ComparatorsAct_8b : ∃ (s : State) (i : Nat) (ph : Nat) (why : Nat),
    i < 36 ∧
    ph < phasesOf i ∧
    phasesMin i < (s.stage i).active :=
  ⟨(sta 20 (phasesOf 20)), 20, 0, 2,
   (by decide +kernel),
   (by decide +kernel),
   (by decide +kernel)⟩

theorem test_meets_ComparatorsAct_9 : ∃ (s : State) (i : Nat) (ph : Nat) (why : Nat),
    i < 36 ∧
    ph < phasesOf i ∧
    0 < (s.stage i).active ∧
    (s.stage i).active ≤ phasesMin i :=
  ⟨(sta 3 (phasesMin 3)), 3, 0, 1,
   (by decide +kernel),
   (by decide +kernel),
   (by decide +kernel),
   (by decide +kernel)⟩

theorem test_meets_ComparatorsAct_9b : ∃ (s : State) (i : Nat) (ph : Nat) (why : Nat),
    i < 36 ∧
    ph < phasesOf i ∧
    0 < (s.stage i).active ∧
    (s.stage i).active ≤ phasesMin i :=
  ⟨(sta 20 1), 20, 0, 0,
   (by decide +kernel),
   (by decide +kernel),
   (by decide +kernel),
   (by decide +kernel)⟩

theorem test_meets_ComparatorsAct_10 : ∃ (s : State) (g : Nat),
    (g = 2 ∨ g = 3) ∧
    s.pins.groups.testBit (g - 1) = true ∧
    s.pins.groups.testBit g = false :=
  ⟨{ rr with pins := { rr.pins with groups := 3 } }, 2,
   (by decide +kernel),
   (by decide +kernel),
   (by decide +kernel)⟩

theorem test_meets_ComparatorsAct_10b : ∃ (s : State) (g : Nat),
    (g = 2 ∨ g = 3) ∧
    s.pins.groups.testBit (g - 1) = true ∧
    s.pins.groups.testBit g = false :=
  ⟨{ rr with pins := { rr.pins with groups := 7 } }, 3,
   (by decide +kernel),
   (by decide +kernel),
   (by decide +kernel)⟩

theorem test_meets_ComparatorsAct_11 : ∃ (s : State) (g : Nat),
    1 ≤ g ∧
    g ≤ 5 ∧
    s.pins.groups.testBit (g - 1) = false :=
  ⟨{ rr with pins := { rr.pins with groups := 7 } }, 4,
   (by decide +kernel),
   (by decide +kernel),
   (by decide +kernel)⟩

theorem test_meets_ComparatorsAct_11b : ∃ (s : State) (g : Nat),
    1 ≤ g ∧
    g ≤ 5 ∧
    s.pins.groups.testBit (g - 1) = false :=
  ⟨{ rr with pins := { rr.pins with groups := 0 } }, 1,
   (by decide +kernel),
   (by decide +kernel),
   (by decide +kernel)⟩

end RecordsAndPower

namespace IdentityAndImages
def pub : List Byte := [4, 0, 108, 92, 200, 238, 240, 21, 6, 255, 33, 179, 95, 175, 160, 119, 195, 109, 125, 90, 9, 83, 246, 28, 99, 42, 221, 133, 153, 45, 202, 245, 51, 188, 6, 240, 170, 129, 183, 244, 154, 219, 190, 246, 106, 169, 28, 52, 72, 53, 137, 193, 186, 93, 31, 217, 164, 160, 101, 238, 231, 9, 119, 134, 75, 211, 27, 115, 42, 249, 46, 175, 2, 138, 26, 238, 183, 235, 55, 221, 32, 49, 111, 151, 183, 42, 224, 201, 229, 33, 55, 245, 160, 163, 118, 38, 148]
def sigE : List Byte := [67, 208, 132, 39, 252, 3, 185, 210, 87, 5, 131, 124, 104, 4, 125, 151, 14, 14, 211, 151, 236, 61, 148, 177, 222, 23, 49, 56, 222, 208, 113, 78, 240, 135, 1, 144, 1, 53, 20, 30, 81, 8, 85, 82, 128, 6, 226, 45]
def keyD : List Byte := [124, 161, 81, 12, 152, 168, 130, 70, 34, 162, 220, 13, 214, 44, 104, 82, 151, 48, 254, 232, 10, 219, 74, 200, 207, 241, 251, 245, 79, 159, 245, 15, 203, 102, 5, 63, 248, 212, 66, 11, 53, 192, 162, 109, 249, 96, 174, 143]
def emptyD : List Byte := [56, 176, 96, 167, 81, 172, 150, 56, 76, 217, 50, 126, 177, 177, 227, 106, 33, 253, 183, 17, 20, 190, 7, 67, 76, 12, 199, 191, 99, 246, 225, 218, 39, 78, 222, 191, 231, 111, 101, 251, 213, 26, 210, 241, 72, 152, 185, 91]
def minorN : Nat := 1
def imgHdr : List Byte :=
  leBytes 4 0x3144524E ++ leBytes 2 1 ++ leBytes 2 2 ++ [1, 0] ++ leBytes 2 minorN ++ List.replicate 4 0 ++ leBytes 4 8192 ++ List.replicate 8 0 ++
  leBytes 2 7 ++ List.replicate 226 0 ++
  ((List.range' 1 7).map (fun t => leBytes 2 t ++ [0, 0] ++ leBytes 4 4096 ++ leBytes 4 0 ++ emptyD ++ List.replicate 4 0)).flatten ++ List.replicate 3392 0
def img : List Byte := imgHdr ++ ([1, 0, 0, 0] ++ pub ++ List.replicate 3 0 ++ sigE ++ sigE ++ List.replicate 3896 0)
def good (g : Nat) : Slot := ⟨.valid, g, 1, img⟩
def bad (g : Nat) : Slot := ⟨.valid, g, 3, img⟩
def fl (a b : Slot) : Flash := { Flash.reset with slotA := a, slotB := b, mbawen := [([], true), (keyD, true), ([], false), (keyD, false)] }
def fl0 (a b : Slot) : Flash := { fl a b with mbawen := [(keyD, false), (keyD, false), ([], false), (keyD, false)] }
def bt (f : Flash) : State := { run0 with id := { Ident.reset with cal := .boot, counted := true }, flash := f }
def off : State := { State.reset with out := [] }
def allGood (s : State) (n : Nat) : State := { s with pwr := { s.pwr with stages := (List.range n).map (fun i => (i, { Stage.reset with good := true, active := 2 })) } }
def ini : State := allGood { run0 with id := { run0.id with cal := .init, opticsAt := none, booted := some 1 }, flash := fl0 (good 3) (good 4) } 50
def ini2 : State := { ini with id := { ini.id with opticsAt := some 3 } }
def ini3 : State := { ini2 with id := { ini2.id with locus := some 130000 } }
def rs : Req := { req with session := some 5 }
def wr (n : Nat) : Writer := ⟨rs, 0, n, (List.range n).zip img⟩
def ww (n : Nat) : State := { run0 with id := { run0.id with booted := some 1, writer := some (wr n), secVersion := 3 }, flash := fl0 (good 3) (good 4), mgmt := { run0.mgmt with sessions := [⟨5, 0, 9, true, 0, 0⟩] } }
def loc (l : Option Nat) : State := { run0 with id := { run0.id with locus := l } }
def prtI : State := prt (ww 1) 5 (fun p => { p with last := some ⟨2, 6, 0, 1, 4, 4, 4, 1, 0, 2, 77⟩ })
def key97 : List Byte := List.replicate 97 4#8
def own (d : List Byte) : State := { ww 9 with flash := { (ww 9).flash with owners := [(d, false)] } }
def keyN : List Byte := List.replicate 96 4#8 ++ [4]
def ownerD : List Byte := [32, 104, 141, 168, 46, 87, 14, 184, 241, 130, 211, 215, 69, 179, 142, 103, 111, 206, 240, 165, 144, 242, 164, 92, 183, 157, 155, 50, 186, 55, 154, 46, 14, 61, 206, 148, 93, 15, 145, 69, 174, 241, 105, 204, 206, 20, 74, 50]
def halfSig : List Byte := [165, 149, 9, 117, 232, 190, 181, 48, 124, 224, 195, 1, 95, 129, 197, 203, 58, 159, 54, 212, 76, 79, 35, 216, 68, 121, 79, 235, 219, 136, 117, 144, 65, 23, 143, 217, 82, 82, 183, 252, 221, 158, 213, 22, 17, 185, 89, 138]
def heldS : State := withCtx (ww 9) 0 { ctx0 with st := .held, coord := { ctx0.coord with active := true, held := true, epoch := 3 } }
def armS : State := withCtx (ww 9) 0 { ctx0 with st := .armed, coord := { ctx0.coord with active := true, epoch := 3, armed := [(1, 1), (3, 2)] } }
def keys : List (List Byte × Bool) := [(keyD, false), (keyD, false), ([], false), (keyD, false)]
theorem img_layout : imgLayoutOk img false = true := by decide +kernel
theorem img_sections : sectionsOk img = true := by decide +kernel
theorem img_signed : fwSigned img keys = true := by decide +kernel
theorem img_rest : (decide (0 ≤ imgSecVersion img), leAt img 6 2 == arithRev && imgFwMajor img == 1, imgHasCfg img, imgConfigOnly img) =
    (true, true, false, false) := by decide +kernel
theorem img_fwCodes (f : Flash) (hk : f.mbawen = keys) (hm : f.secMin = 0) :
    fwCodes img f = [(0x03, true), (0x04, true), (0x05, true), (0x06, true)] := by
  have h := img_rest
  simp only [Prod.mk.injEq] at h
  unfold fwCodes
  rw [hk, hm, img_signed, img_sections, h.1, h.2.1]
theorem img_cfgCodes (o : List (List Byte × Bool)) (n : Nat) : cfgCodes img o n = [(0x07, true), (0x08, true), (0x09, true), (0x0A, true)] := by
  have h := img_rest
  simp only [Prod.mk.injEq] at h
  have hx : Cfg.crossOk Cfg.dflt = true := by decide +kernel
  simp [cfgCodes, ownerSigned, imgConfig, h.2.2.1, hx]
theorem img_accepted (q : Slot) (f : Flash) (hq : q.st = .valid ∧ q.tries < 3 ∧ q.image = img) (hk : f.mbawen = keys) (hm : f.secMin = 0) :
    q.reject f = 0 := by
  unfold Slot.reject
  simp [hq.1, hq.2.1, hq.2.2, img_layout, img_fwCodes f hk hm, img_cfgCodes, firstCode]
theorem find_listed (l : List Byte) (n k i : Nat) : KMap.find ((List.range' k n).zip l) i = if k ≤ i ∧ i < k + n then l[i - k]? else none := by
  induction n generalizing l k with
  | zero => rw [if_neg (by omega)]; rfl
  | succ n ih =>
    cases l with
    | nil => simp [KMap.find]
    | cons a l =>
      simp only [List.range'_succ, List.zip_cons_cons, KMap.find]
      rw [ih]
      by_cases h : i = k
      · subst h; simp
      · by_cases h2 : k ≤ i ∧ i < k + (n + 1)
        · have e : i - k = (i - (k + 1)) + 1 := by omega
          rw [if_neg h, if_pos (by omega), if_pos h2, e, List.getElem?_cons_succ]
        · rw [if_neg h, if_neg (by omega), if_neg h2]
theorem written_listed (m : List Byte) (s : State) (w : Writer) (hl : w.length = m.length) (hb : w.bytes = (List.range m.length).zip m) :
    (s.written w).1 = m := by
  unfold State.written
  rw [hl, hb]
  apply List.ext_getElem?
  intro i
  rw [List.getElem?_map]
  simp only [List.range_eq_range', find_listed]
  by_cases h : i < m.length
  · rw [List.getElem?_eq_getElem h]; simp [h]
  · rw [List.getElem?_eq_none (by omega : m.length ≤ i), List.getElem?_eq_none (by rw [List.length_range']; omega)]; rfl
theorem img_length : img.length = 8192 := by decide +kernel
theorem commit_img (s : State) (w : Writer) (b : List Byte) (hl : w.length = 8192) (hb : w.bytes = (List.range 8192).zip img)
    (hk : s.flash.mbawen = keys) (hm : s.flash.secMin = 0) (hr : s.flash.retiredPcs = []) : commitTest (s.written w).1 b s.flash = (0, img) := by
  have h := img_rest
  simp only [Prod.mk.injEq] at h
  have hx : Cfg.fitsMap Cfg.dflt [] = true := by decide +kernel
  rw [written_listed img s w (hl.trans img_length.symm) (hb.trans (by rw [img_length]))]
  simp [commitTest, h.2.2.2, img_layout, img_fwCodes s.flash hk hm, img_cfgCodes, imgConfig, h.2.2.1, hr, hx, firstCode]

theorem test_meets_StartupFollowsTheTimeline_0 : ∃ (s : State),
    s.pins.latchedOff = false ∧
    s.pins.pgood = false :=
  ⟨State.reset,
   (by decide +kernel),
   (by decide +kernel)⟩

theorem test_meets_StartupFollowsTheTimeline_0b : ∃ (s : State),
    s.pins.latchedOff = false ∧
    s.pins.pgood = false :=
  ⟨{ run0 with pins := { run0.pins with pgood := false } },
   (by decide +kernel),
   (by decide +kernel)⟩

theorem test_meets_StartupFollowsTheTimeline_1 : ∃ (s : State),
    s.pins.latchedOff = false ∧
    s.pins.pgood = true ∧
    s.pins.resetN = false :=
  ⟨{ run0 with pins := { run0.pins with resetN := false } },
   (by decide +kernel),
   (by decide +kernel),
   (by decide +kernel)⟩

theorem test_meets_StartupFollowsTheTimeline_2 : ∃ (s : State),
    s.pins.latchedOff = true :=
  ⟨{ run0 with pins := { run0.pins with latchedOff := true } },
   (by decide +kernel)⟩

theorem test_meets_StartupFollowsTheTimeline_3 : ∃ (s : State),
    s.served = true ∧
    s.id.cal = .boot ∧
    s.flash.slotA.reject s.flash ≠ 0 ∧
    s.flash.slotB.reject s.flash ≠ 0 :=
  ⟨(bt (fl0 (bad 3) (bad 4))),
   (by decide +kernel),
   (by decide +kernel),
   (by decide +kernel),
   (by decide +kernel)⟩

theorem test_meets_StartupFollowsTheTimeline_3b : ∃ (s : State),
    s.served = true ∧
    s.id.cal = .boot ∧
    s.flash.slotA.reject s.flash ≠ 0 ∧
    s.flash.slotB.reject s.flash ≠ 0 :=
  ⟨(bt Flash.reset),
   (by decide +kernel),
   (by decide +kernel),
   (by decide +kernel),
   (by decide +kernel)⟩

theorem test_meets_StartupFollowsTheTimeline_4 : ∃ (s : State) (l : Nat),
    (s.id.cal = .init ∨ s.id.cal = .run) ∧
    s.id.locus = some l ∧
    s.id.opticsAt = none ∧
    s.groupGood 4 = true :=
  ⟨ini, 1,
   (by decide +kernel),
   (by decide +kernel),
   (by decide +kernel),
   (by decide +kernel)⟩

theorem test_meets_StartupFollowsTheTimeline_4b : ∃ (s : State) (l : Nat),
    (s.id.cal = .init ∨ s.id.cal = .run) ∧
    s.id.locus = some l ∧
    s.id.opticsAt = none ∧
    s.groupGood 4 = true :=
  ⟨{ ini with id := { ini.id with cal := .run } }, 1,
   (by decide +kernel),
   (by decide +kernel),
   (by decide +kernel),
   (by decide +kernel)⟩

theorem test_meets_StartupFollowsTheTimeline_5 : ∃ (s : State) (l : Nat) (k : Nat) (o : Nat),
    s.id.cal = .init ∧
    s.id.locus = some l ∧
    s.id.booted = some k ∧
    s.id.opticsAt = some o ∧
    s.flash.fencedSlots = [] ∧
    s.flash.retiredPcs = [] ∧
    s.cfg.coordsOk l = true ∧
    s.cfg.fitsMap [] = true :=
  ⟨ini2, 1, 1, 3,
   (by decide +kernel),
   (by decide +kernel),
   (by decide +kernel),
   (by decide +kernel),
   (by decide +kernel),
   (by decide +kernel),
   (by decide +kernel),
   (by decide +kernel)⟩

theorem test_meets_StartupFollowsTheTimeline_6 : ∃ (s : State) (l : Nat) (k : Nat) (o : Nat),
    s.id.cal = .init ∧
    s.id.locus = some l ∧
    s.id.booted = some k ∧
    s.id.opticsAt = some o ∧
    s.cfg.coordsOk l = false ∧
    s.flash.fencedSlots = [] ∧
    s.flash.retiredPcs = [] :=
  ⟨ini3, 130000, 1, 3,
   (by decide +kernel),
   (by decide +kernel),
   (by decide +kernel),
   (by decide +kernel),
   (by decide +kernel),
   (by decide +kernel),
   (by decide +kernel)⟩

theorem test_meets_StartupFollowsTheTimeline_7 : ∃ (s : State),
    s.id.locus = none :=
  ⟨{ run0 with id := { run0.id with locus := none } },
   (by decide +kernel)⟩

theorem test_meets_HigherGenerationBoots_0 : ∃ (s : State) (k : Nat),
    s.served = true ∧
    s.id.cal = .boot ∧
    k < 2 ∧
    (s.flash.slot k).reject s.flash = 0 ∧
    ((s.flash.slot (1 - k)).reject s.flash = 0 → (s.flash.slot (1 - k)).gen < (s.flash.slot k).gen ∨ k = 0 ∧ s.flash.slotB.gen ≤ s.flash.slotA.gen) :=
  ⟨(bt (fl0 (good 3) (good 4))), 1,
   (by decide +kernel),
   (by decide +kernel),
   (by decide +kernel),
   (img_accepted _ _ ⟨rfl, by decide, rfl⟩ rfl rfl),
   (fun _ => by decide +kernel)⟩

theorem test_meets_HigherGenerationBoots_0b : ∃ (s : State) (k : Nat),
    s.served = true ∧
    s.id.cal = .boot ∧
    k < 2 ∧
    (s.flash.slot k).reject s.flash = 0 ∧
    ((s.flash.slot (1 - k)).reject s.flash = 0 → (s.flash.slot (1 - k)).gen < (s.flash.slot k).gen ∨ k = 0 ∧ s.flash.slotB.gen ≤ s.flash.slotA.gen) :=
  ⟨(bt (fl0 (good 4) (good 4))), 0,
   (by decide +kernel),
   (by decide +kernel),
   (by decide +kernel),
   (img_accepted _ _ ⟨rfl, by decide, rfl⟩ rfl rfl),
   (fun _ => by decide +kernel)⟩

theorem test_meets_HigherGenerationBoots_0c : ∃ (s : State) (k : Nat),
    s.served = true ∧
    s.id.cal = .boot ∧
    k < 2 ∧
    (s.flash.slot k).reject s.flash = 0 ∧
    ((s.flash.slot (1 - k)).reject s.flash = 0 → (s.flash.slot (1 - k)).gen < (s.flash.slot k).gen ∨ k = 0 ∧ s.flash.slotB.gen ≤ s.flash.slotA.gen) :=
  ⟨(bt (fl0 (bad 5) (good 4))), 1,
   (by decide +kernel),
   (by decide +kernel),
   (by decide +kernel),
   (img_accepted _ _ ⟨rfl, by decide, rfl⟩ rfl rfl),
   (by decide +kernel)⟩

theorem test_meets_HigherGenerationBoots_0d : ∃ (s : State) (k : Nat),
    s.served = true ∧
    s.id.cal = .boot ∧
    k < 2 ∧
    (s.flash.slot k).reject s.flash = 0 ∧
    ((s.flash.slot (1 - k)).reject s.flash = 0 → (s.flash.slot (1 - k)).gen < (s.flash.slot k).gen ∨ k = 0 ∧ s.flash.slotB.gen ≤ s.flash.slotA.gen) :=
  ⟨(bt (fl0 (good 3) (bad 4))), 0,
   (by decide +kernel),
   (by decide +kernel),
   (by decide +kernel),
   (img_accepted _ _ ⟨rfl, by decide, rfl⟩ rfl rfl),
   (by decide +kernel)⟩

theorem test_meets_HigherGenerationBoots_1 : ∃ (s : State) (failed : List (Nat × Nat)) (t : State) (k : Nat),
    s.id.cal = .init ∧
    s.id.booted = some k ∧
    exec (.runEntry failed) s = .next t ∧
    t.id.cal = .run :=
  ⟨ini2, [], (nxt (exec (.runEntry []) ini2) ini2), 1,
   (by decide +kernel),
   (by decide +kernel),
   rfl,
   (by decide +kernel)⟩

theorem test_meets_HigherGenerationBoots_2 : ∃ (s : State) (k : Nat),
    s.id.booted = some k ∧
    s.id.released = false ∧
    (s.id.cal = .init ∨ s.id.cal = .run) :=
  ⟨ini2, 1,
   (by decide +kernel),
   (by decide +kernel),
   (by decide +kernel)⟩

theorem test_meets_HigherGenerationBoots_2b : ∃ (s : State) (k : Nat),
    s.id.booted = some k ∧
    s.id.released = false ∧
    (s.id.cal = .init ∨ s.id.cal = .run) :=
  ⟨run0, 0,
   (by decide +kernel),
   (by decide +kernel),
   (by decide +kernel)⟩

theorem test_meets_HigherGenerationBoots_3 : ∃ (s : State),
    s.id.released = true :=
  ⟨{ run0 with id := { run0.id with released := true } },
   (by decide +kernel)⟩

theorem test_meets_HigherGenerationBoots_4 : ∃ (s : State),
    s.served = true ∧
    s.id.cal = .boot ∧
    s.id.booted = none ∧
    3 ≤ s.flash.slotA.tries :=
  ⟨(bt (fl0 (bad 3) (good 4))),
   (by decide +kernel),
   (by decide +kernel),
   (by decide +kernel),
   (by decide +kernel)⟩

theorem test_meets_HigherGenerationBoots_4b : ∃ (s : State),
    s.served = true ∧
    s.id.cal = .boot ∧
    s.id.booted = none ∧
    3 ≤ s.flash.slotA.tries :=
  ⟨(bt (fl0 (bad 3) (bad 4))),
   (by decide +kernel),
   (by decide +kernel),
   (by decide +kernel),
   (by decide +kernel)⟩

theorem test_meets_HigherGenerationBoots_5 : ∃ (s : State),
    s.served = true ∧
    s.id.cal = .boot ∧
    s.id.booted = none ∧
    3 ≤ s.flash.slotB.tries :=
  ⟨(bt (fl0 (good 3) (bad 4))),
   (by decide +kernel),
   (by decide +kernel),
   (by decide +kernel),
   (by decide +kernel)⟩

theorem test_meets_HigherGenerationBoots_6 : ∃ (s : State) (r : Req) (w : Writer),
    s.vendorServed r true true = true ∧
    s.id.writer = some w ∧
    w.heldBy r = true ∧
    w.target < 2 ∧
    (commitTest (s.written w).1 (match s.id.booted with | some k => (s.flash.slot k).image | none => []) s.flash).1 = 0 :=
  ⟨(ww 8192), rs, (wr 8192),
   (by decide +kernel),
   (by decide +kernel),
   (by decide +kernel),
   (by decide +kernel),
   (congrArg Prod.fst (commit_img (ww 8192) (wr 8192) img rfl rfl rfl rfl rfl))⟩

theorem test_meets_ResetHoldsBoot_0 : ∃ (s : State),
    s.pins.pgood = true ∧
    s.pins.latchedOff = false ∧
    s.pins.resetN = true :=
  ⟨(withCtx run0 0 ctx0),
   (by decide +kernel),
   (by decide +kernel),
   (by decide +kernel)⟩

theorem test_meets_ResetHoldsBoot_1 : ∃ (s : State),
    s.pins.pgood = false :=
  ⟨{ run0 with pins := { run0.pins with pgood := false } },
   (by decide +kernel)⟩

theorem test_meets_LocusAndAcceptanceComplete_0 : ∃ (s : State) (r : Req) (l : Nat),
    s.reached r = true ∧
    r.binding = 0 ∧
    l < 2 ^ 17 ∧
    s.id.locus = none :=
  ⟨(loc none), req, 131071,
   (by decide +kernel),
   (by decide +kernel),
   (by decide +kernel),
   (by decide +kernel)⟩

theorem test_meets_LocusAndAcceptanceComplete_1 : ∃ (s : State) (r : Req) (l : Nat),
    s.reached r = true ∧
    r.binding = 0 ∧
    l < 2 ^ 17 ∧
    s.id.locus = some l :=
  ⟨(loc (some 5)), req, 5,
   (by decide +kernel),
   (by decide +kernel),
   (by decide +kernel),
   (by decide +kernel)⟩

theorem test_meets_LocusAndAcceptanceComplete_2 : ∃ (s : State) (r : Req) (l : Nat) (k : Nat),
    s.reached r = true ∧
    r.binding = 0 ∧
    l < 2 ^ 17 ∧
    s.id.locus = some k ∧
    k ≠ l :=
  ⟨(loc (some 5)), req, 6, 5,
   (by decide +kernel),
   (by decide +kernel),
   (by decide +kernel),
   (by decide +kernel),
   (by decide +kernel)⟩

theorem test_meets_LocusAndAcceptanceComplete_3 : ∃ (s : State) (r : Req) (l : Nat),
    s.reached r = true ∧
    r.binding ≠ 0 :=
  ⟨(loc (some 5)), { req with binding := 1 }, 6,
   (by decide +kernel),
   (by decide +kernel)⟩

theorem test_meets_LocusAndAcceptanceComplete_4 : ∃ (s : State) (r : Req),
    s.vendorServed r true false = true :=
  ⟨run0, req,
   (by decide +kernel)⟩

theorem test_meets_LocusAndAcceptanceComplete_5 : ∃ (s : State) (r : Req),
    s.vendorServed r true false = true :=
  ⟨{ run0 with flash := { run0.flash with digests := [(3, 99)] } }, req,
   (by decide +kernel)⟩

theorem test_meets_LocusAndAcceptanceComplete_6 : ∃ (s : State) (r : Req) (l : Nat),
    s.vendorServed r false true = true ∧
    s.cfg.acceptChannels.testBit r.binding = true ∧
    s.id.locus = some l ∧
    s.flash.acceptedLocus ≠ some l :=
  ⟨(ww 1), rs, 1,
   (by decide +kernel),
   (by decide +kernel),
   (by decide +kernel),
   (by decide +kernel)⟩

theorem test_meets_LocusAndAcceptanceComplete_7 : ∃ (s : State) (r : Req) (p : Nat) (i : IdentData),
    s.vendorServed r false true = true ∧
    s.cfg.acceptChannels.testBit r.binding = true ∧
    p < 32 ∧
    (s.port p).last = some i :=
  ⟨prtI, rs, 5, ⟨2, 6, 0, 1, 4, 4, 4, 1, 0, 2, 77⟩,
   (by decide +kernel),
   (by decide +kernel),
   (by decide +kernel),
   (by decide +kernel)⟩

theorem test_meets_LocusAndAcceptanceComplete_8 : ∃ (s : State) (r : Req) (scope : Nat) (mask : Nat),
    s.vendorServed r false true = true ∧
    s.cfg.acceptChannels.testBit r.binding = false :=
  ⟨(cfgSet (ww 1) [(0x1026, 0)]), rs, 1, 1,
   (by decide +kernel),
   (by decide +kernel)⟩

theorem test_meets_ImagesAreWritten_0 : ∃ (s : State) (r : Req) (n : Nat),
    s.vendorServed r true true = true ∧
    s.id.writer = none ∧
    0 < n ∧
    n ≤ slotCapacity :=
  ⟨{ ww 1 with id := { (ww 1).id with writer := none } }, rs, 4096,
   (by decide +kernel),
   (by decide +kernel),
   (by decide +kernel),
   (by decide +kernel)⟩

theorem test_meets_ImagesAreWritten_0b : ∃ (s : State) (r : Req) (n : Nat),
    s.vendorServed r true true = true ∧
    s.id.writer = none ∧
    0 < n ∧
    n ≤ slotCapacity :=
  ⟨{ ww 1 with id := { (ww 1).id with writer := none } }, rs, slotCapacity,
   (by decide +kernel),
   (by decide +kernel),
   (by decide +kernel),
   (by decide +kernel)⟩

theorem test_meets_ImagesAreWritten_1 : ∃ (s : State) (r : Req) (n : Nat) (w : Writer),
    s.vendorServed r true true = true ∧
    s.id.writer = some w :=
  ⟨(ww 1), rs, 4096, (wr 1),
   (by decide +kernel),
   (by decide +kernel)⟩

theorem test_meets_ImagesAreWritten_2 : ∃ (s : State) (r : Req) (off : Nat) (b : Byte) (w : Writer),
    s.vendorServed r true true = true ∧
    s.id.writer = some w ∧
    w.heldBy r = true ∧
    off < w.length :=
  ⟨(ww 7), rs, 6, 3#8, (wr 7),
   (by decide +kernel),
   (by decide +kernel),
   (by decide +kernel),
   (by decide +kernel)⟩

theorem test_meets_ImagesAreWritten_3 : ∃ (s : State) (r : Req) (off : Nat) (bs : List Byte),
    s.vendorServed r true true = true ∧
    s.id.writer = none :=
  ⟨{ ww 1 with id := { (ww 1).id with writer := none } }, rs, 4, [3#8],
   (by decide +kernel),
   (by decide +kernel)⟩

theorem test_meets_ImagesAreWritten_4 : ∃ (s : State) (r : Req) (w : Writer) (code : Nat),
    s.vendorServed r true true = true ∧
    s.id.writer = some w ∧
    w.heldBy r = true ∧
    code ≠ 0 ∧
    code = (commitTest (s.written w).1 (match s.id.booted with | some k => (s.flash.slot k).image | none => []) s.flash).1 :=
  ⟨(ww 9), rs, (wr 9), 2,
   (by decide +kernel),
   (by decide +kernel),
   (by decide +kernel),
   (by decide +kernel),
   (by decide +kernel)⟩

theorem test_meets_ImagesAreWritten_5 : ∃ (s : State) (r : Req) (w : Writer) (m : List Byte),
    s.vendorServed r true true = true ∧
    s.id.writer = some w ∧
    w.heldBy r = true ∧
    w.target < 2 ∧
    commitTest (s.written w).1 (match s.id.booted with | some k => (s.flash.slot k).image | none => []) s.flash = (0, m) :=
  ⟨(ww 8192), rs, (wr 8192), img,
   (by decide +kernel),
   (by decide +kernel),
   (by decide +kernel),
   (by decide +kernel),
   (commit_img (ww 8192) (wr 8192) img rfl rfl rfl rfl rfl)⟩

theorem test_meets_ImagesAreWritten_6 : ∃ (s : State) (r : Req) (w : Writer),
    s.vendorServed r true true = true ∧
    s.id.writer = some w ∧
    w.heldBy r = true :=
  ⟨(ww 9), rs, (wr 9),
   (by decide +kernel),
   (by decide +kernel),
   (by decide +kernel)⟩

theorem test_meets_ImagesAreWritten_7 : ∃ (s : State) (r : Req),
    s.vendorServed r true false = true :=
  ⟨(ww 9), rs,
   (by decide +kernel)⟩

theorem test_meets_SecurityAndRequestsComplete_0 : ∃ (s : State) (r : Req) (v : Nat) (k : Nat),
    s.vendorServed r true true = true ∧
    s.id.booted = some k ∧
    v ≤ s.id.secVersion :=
  ⟨(ww 9), rs, 3, 1,
   (by decide +kernel),
   (by decide +kernel),
   (by decide +kernel)⟩

theorem test_meets_SecurityAndRequestsComplete_1 : ∃ (s : State) (r : Req) (v : Nat),
    s.vendorServed r true true = true ∧
    (s.id.booted = none ∨ s.id.secVersion < v) :=
  ⟨(ww 9), rs, 4,
   (by decide +kernel),
   (by decide +kernel)⟩

theorem test_meets_SecurityAndRequestsComplete_2 : ∃ (s : State) (r : Req) (key : List Byte) (sig : List Byte),
    s.vendorServed r true true = true ∧
    key.length = 97 ∧
    s.flash.owners = [] :=
  ⟨(ww 9), rs, key97, [],
   (by decide +kernel),
   (by decide +kernel),
   (by decide +kernel)⟩

theorem test_meets_SecurityAndRequestsComplete_3 : ∃ (s : State) (r : Req) (key : List Byte) (sig : List Byte) (d : List Byte),
    s.vendorServed r true true = true ∧
    key.length = 97 ∧
    s.flash.owners = [(d, false)] ∧
    ecdsaByDigest d sig (sha384 key) = true :=
  ⟨(own ownerD), rs, keyN, (halfSig ++ halfSig), ownerD,
   (by decide +kernel),
   (by decide +kernel),
   (by decide +kernel),
   (by decide +kernel)⟩

theorem test_meets_SecurityAndRequestsComplete_4 : ∃ (s : State) (r : Req) (key : List Byte) (sig : List Byte) (d : List Byte),
    s.vendorServed r true true = true ∧
    key.length = 97 ∧
    s.flash.owners = [(d, false)] ∧
    ecdsaByDigest d sig (sha384 key) = false :=
  ⟨(own []), rs, key97, [], [],
   (by decide +kernel),
   (by decide +kernel),
   (by decide +kernel),
   (by decide +kernel)⟩

theorem test_meets_SecurityAndRequestsComplete_5 : ∃ (s : State) (r : Req),
    s.vendorServed r true true = true :=
  ⟨(ww 9), rs,
   (by decide +kernel)⟩

theorem test_meets_SecurityAndRequestsComplete_6 : ∃ (s : State) (r : Req) (x : Nat),
    s.vendorServed r false false = true ∧
    x < 16 ∧
    (s.ctx x).st = .held ∧
    (s.ctx x).coord.active = true :=
  ⟨heldS, req, 0,
   (by decide +kernel),
   (by decide +kernel),
   (by decide +kernel),
   (by decide +kernel)⟩

theorem test_meets_SecurityAndRequestsComplete_7 : ∃ (s : State) (r : Req) (x : Nat),
    s.vendorServed r false false = true ∧
    ((s.ctx x).st ≠ .held ∨ (s.ctx x).coord.active = false) :=
  ⟨(ww 9), req, 0,
   (by decide +kernel),
   (by decide +kernel)⟩

theorem test_meets_SecurityAndRequestsComplete_8 : ∃ (s : State) (r : Req) (x : Nat) (j : Nat) (k : Nat),
    s.vendorServed r false false = true ∧
    x < 16 ∧
    (s.ctx x).st = .armed ∧
    (s.ctx x).coord.active = true :=
  ⟨armS, req, 0, 7, 4,
   (by decide +kernel),
   (by decide +kernel),
   (by decide +kernel),
   (by decide +kernel)⟩

end IdentityAndImages

namespace ManagementAndPins
def cn (n : Nat) (l : List Session := []) : State := { run0 with mgmt := { run0.mgmt with conns := [(9, ⟨n, []⟩)], sessions := l } }
def x5 (b : Bool) : Session := ⟨5, 0, 9, b, 0, 0⟩
def ev2 : State := { run0 with evts := [(Reg.portStatus.key 3, 2^24 + 2^25),(Reg.portStatus.key 4, 2^24 + 2^25)] }

theorem test_meets_ControlAndPldmComplete_0 : ∃ (s : State) (b : Nat) (e : Nat),
    s.reached (busOwner b) = true ∧
    0 < e ∧
    e < 255 :=
  ⟨run0, 0, 7,
   (by decide +kernel),
   (by decide +kernel),
   (by decide +kernel)⟩

theorem test_meets_ControlAndPldmComplete_0b : ∃ (s : State) (b : Nat) (e : Nat),
    s.reached (busOwner b) = true ∧
    0 < e ∧
    e < 255 :=
  ⟨run0, 1, 7,
   (by decide +kernel),
   (by decide +kernel),
   (by decide +kernel)⟩

theorem test_meets_ControlAndPldmComplete_1 : ∃ (s : State) (b : Nat),
    s.reached (busOwner b) = true :=
  ⟨run0, 0,
   (by decide +kernel)⟩

theorem test_meets_ControlAndPldmComplete_1b : ∃ (s : State) (b : Nat),
    s.reached (busOwner b) = true :=
  ⟨run0, 1,
   (by decide +kernel)⟩

theorem test_meets_ControlAndPldmComplete_2 : ∃ (s : State) (r : Req) (ty : Nat),
    s.reached r = true ∧
    ty ∈ messageTypes :=
  ⟨run0, req, 5,
   (by decide +kernel),
   (by decide +kernel)⟩

theorem test_meets_ControlAndPldmComplete_3 : ∃ (s : State) (r : Req),
    s.reached r = true :=
  ⟨run0, req,
   (by decide +kernel)⟩

theorem test_meets_ControlAndPldmComplete_4 : ∃ (s : State) (r : Req),
    s.reached r = true :=
  ⟨run0, req,
   (by decide +kernel)⟩

theorem test_meets_ControlAndPldmComplete_5 : ∃ (s : State) (a : Nat),
    s.served = true :=
  ⟨run0, 9,
   (by decide +kernel)⟩

theorem test_meets_ControlAndPldmComplete_6 : ∃ (s : State) (r : Req),
    s.reached r = true ∧
    s.id.cal ≠ .boot :=
  ⟨run0, req,
   (by decide +kernel),
   (by decide +kernel)⟩

theorem test_meets_ControlAndPldmComplete_7 : ∃ (s : State) (r : Req),
    s.reached r = true ∧
    s.id.cal = .run :=
  ⟨(prt (prt (prt { run0 with det := { run0.det with downgrade := true } } 3 pUp) 4 (pS .mgmtOnly)) 5 (fun p => { pS .held p with heldAt := some 3 })), req,
   (by decide +kernel),
   (by decide +kernel)⟩

theorem test_meets_ControlAndPldmComplete_8 : ∃ (s : State) (r : Req) (c : Instr),
    s.reached r = true ∧
    s.id.cal = .init ∧
    (c = Instr.alignRetry r ∨ (∃ h, c = .getPdr r h) ∨ (∃ p, c = .releaseHold r p)) :=
  ⟨{ run0 with id := { run0.id with cal := .init } }, req, (Instr.alignRetry req),
   (by decide +kernel),
   (by decide +kernel),
   (Or.inl rfl)⟩

theorem test_meets_RegisterBlocksReadAndClear_0 : ∃ (s : State) (r : Req) (b : Nat) (i : Nat) (off : Nat) (n : Nat) (l : List (Nat × Nat)),
    s.reached r = true ∧
    s.id.cal = .run ∧
    s.blockItems b i = some l ∧
    1 ≤ n ∧
    n ≤ 256 ∧
    off + n ≤ (blockBytesOf l).length :=
  ⟨run0, req, 2, 3, 5, 4, ((run0.blockItems 2 3).getD []),
   (by decide +kernel),
   (by decide +kernel),
   (by decide +kernel),
   (by decide +kernel),
   (by decide +kernel),
   (by decide +kernel)⟩

theorem test_meets_RegisterBlocksReadAndClear_1 : ∃ (s : State) (r : Req) (b : Nat) (i : Nat) (off : Nat) (n : Nat),
    s.reached r = true ∧
    s.id.cal = .run ∧
    s.blockItems b i = none :=
  ⟨run0, req, 99, 0, 0, 4,
   (by decide +kernel),
   (by decide +kernel),
   (by decide +kernel)⟩

theorem test_meets_RegisterBlocksReadAndClear_2 : ∃ (s : State) (r : Req) (b : Nat) (i : Nat) (mask : Nat) (l : List (Nat × Nat)) (q : Reg),
    s.reached r = true ∧
    s.id.cal = .run ∧
    s.blockItems b i = some l ∧
    blockReg b = some q :=
  ⟨ev2, req, 2, 3, (2^24), ((ev2.blockItems 2 3).getD []), Reg.portStatus,
   (by decide +kernel),
   (by decide +kernel),
   (by decide +kernel),
   (by decide +kernel)⟩

theorem test_meets_RegisterBlocksReadAndClear_3 : ∃ (s : State) (r : Req) (b : Nat) (i : Nat) (off : Nat) (mask : Nat),
    s.reached r = true ∧
    s.id.cal = .run ∧
    s.blockItems b i = none :=
  ⟨run0, req, 99, 0, 0, 4,
   (by decide +kernel),
   (by decide +kernel),
   (by decide +kernel)⟩

theorem test_meets_SpdmResponderCompletes_0 : ∃ (s : State) (r : Req),
    s.reached r = true :=
  ⟨(cn 0), req,
   (by decide +kernel)⟩

theorem test_meets_SpdmResponderCompletes_1 : ∃ (s : State) (r : Req) (b : List Byte),
    s.reached r = true ∧
    (s.conn r).phase = 1 :=
  ⟨(cn 1), req, [],
   (by decide +kernel),
   (by decide +kernel)⟩

theorem test_meets_SpdmResponderCompletes_2 : ∃ (s : State) (r : Req) (b : List Byte),
    s.reached r = true ∧
    (s.conn r).phase = 2 :=
  ⟨(cn 2), req, [],
   (by decide +kernel),
   (by decide +kernel)⟩

theorem test_meets_SpdmResponderCompletes_3 : ∃ (s : State) (r : Req),
    s.reached r = true ∧
    3 ≤ (s.conn r).phase ∧
    s.id.cal = .run :=
  ⟨(cn 3), req,
   (by decide +kernel),
   (by decide +kernel),
   (by decide +kernel)⟩

theorem test_meets_SpdmResponderCompletes_3b : ∃ (s : State) (r : Req),
    s.reached r = true ∧
    3 ≤ (s.conn r).phase ∧
    s.id.cal = .run :=
  ⟨(cn 5), req,
   (by decide +kernel),
   (by decide +kernel),
   (by decide +kernel)⟩

theorem test_meets_SpdmResponderCompletes_4 : ∃ (s : State) (r : Req) (o : Nat) (n : Nat),
    s.reached r = true ∧
    3 ≤ (s.conn r).phase ∧
    o ≤ (s.chain 0).length :=
  ⟨(cn 3), req, 0, 5,
   (by decide +kernel),
   (by decide +kernel),
   (by decide +kernel)⟩

theorem test_meets_SpdmResponderCompletes_5 : ∃ (s : State) (r : Req) (n : List Byte),
    s.reached r = true ∧
    3 ≤ (s.conn r).phase :=
  ⟨(cn 3), req, [],
   (by decide +kernel),
   (by decide +kernel)⟩

theorem test_meets_SpdmResponderCompletes_6 : ∃ (s : State) (r : Req) (i : Nat) (n : List Byte),
    s.reached r = true ∧
    s.id.cal = .run ∧
    3 ≤ (s.conn r).phase ∧
    1 ≤ i ∧
    i ≤ 5 :=
  ⟨(cn 3), req, 1, [],
   (by decide +kernel),
   (by decide +kernel),
   (by decide +kernel),
   (by decide +kernel),
   (by decide +kernel)⟩

theorem test_meets_SpdmResponderCompletes_6b : ∃ (s : State) (r : Req) (i : Nat) (n : List Byte),
    s.reached r = true ∧
    s.id.cal = .run ∧
    3 ≤ (s.conn r).phase ∧
    1 ≤ i ∧
    i ≤ 5 :=
  ⟨(cn 3), req, 5, [],
   (by decide +kernel),
   (by decide +kernel),
   (by decide +kernel),
   (by decide +kernel),
   (by decide +kernel)⟩

theorem test_meets_SpdmResponderCompletes_7 : ∃ (s : State) (r : Req) (q : Nat) (b : List Byte),
    s.reached r = true ∧
    s.id.cal = .run ∧
    3 ≤ (s.conn r).phase :=
  ⟨(cn 3), req, 65537, [],
   (by decide +kernel),
   (by decide +kernel),
   (by decide +kernel)⟩

theorem test_meets_SpdmResponderCompletes_8 : ∃ (s : State) (r : Req) (k : Nat) (b : List Byte) (x : Session),
    s.reached r = true ∧
    s.sessionOf r k = some x ∧
    x.established = false :=
  ⟨(cn 3 [x5 false]), req, 5, [], (x5 false),
   (by decide +kernel),
   (by decide +kernel),
   (by decide +kernel)⟩

theorem test_meets_SpdmResponderCompletes_9 : ∃ (s : State) (r : Req) (k : Nat) (x : Session),
    s.reached r = true ∧
    s.sessionOf r k = some x ∧
    x.established = true :=
  ⟨(cn 3 [x5 true]), req, 5, (x5 true),
   (by decide +kernel),
   (by decide +kernel),
   (by decide +kernel)⟩

theorem test_meets_SpdmResponderCompletes_10 : ∃ (s : State) (r : Req) (k : Nat) (x : Session),
    s.reached r = true ∧
    s.sessionOf r k = some x ∧
    x.established = true :=
  ⟨(cn 3 [x5 true]), req, 5, (x5 true),
   (by decide +kernel),
   (by decide +kernel),
   (by decide +kernel)⟩

theorem test_meets_SpdmResponderCompletes_11 : ∃ (s : State) (r : Req) (k : Nat),
    s.reached r = true ∧
    s.id.cal ≠ .boot :=
  ⟨run0, req, 5,
   (by decide +kernel),
   (by decide +kernel)⟩

theorem test_meets_SpdmResponderCompletes_12 : ∃ (s : State) (r : Req) (k : Nat),
    s.reached r = true ∧
    s.id.cal = .boot :=
  ⟨{ run0 with id := { run0.id with cal := .boot } }, req, 5,
   (by decide +kernel),
   (by decide +kernel)⟩

theorem test_meets_PinsAct_0 : ∃ (s : State),
    s.pins.pgood = true ∧
    s.pins.latchedOff = false :=
  ⟨(withCtx run0 0 ctx0),
   (by decide +kernel),
   (by decide +kernel)⟩

theorem test_meets_PinsAct_1 : ∃ (s : State),
    s.pins.latchedOff = true :=
  ⟨{ run0 with pins := { run0.pins with latchedOff := true } },
   (by decide +kernel)⟩

theorem test_meets_PinsAct_2 : ∃ (c : Instr) (s : State),
    (c = Instr.inputUndervoltage ∨ c = .inputOvervoltage ∨ c = .inputCollapse) ∧
    s.pins.pgood = true ∧
    s.pins.latchedOff = false :=
  ⟨Instr.inputCollapse, run0,
   (by decide +kernel),
   (by decide +kernel),
   (by decide +kernel)⟩

theorem test_meets_PinsAct_3 : ∃ (c : Instr) (s : State),
    (c = Instr.inputUndervoltage ∨ c = .inputOvervoltage) ∧
    s.pins.latchedOff = true :=
  ⟨Instr.inputUndervoltage, { run0 with pins := { run0.pins with latchedOff := true } },
   (by decide +kernel),
   (by decide +kernel)⟩

theorem test_meets_PinsAct_5 : ∃ (s : State),
    s.pins.pgood = true :=
  ⟨run0,
   (by decide +kernel)⟩

theorem test_meets_PinsAct_7 : ∃ (s : State) (w : Nat) (g : Nat),
    s.pins.pgood = true ∧
    s.pins.perstN = true ∧
    (w = 8 ∨ w = 16) ∧
    g ∈ pcieRates :=
  ⟨run0, 16, 80,
   (by decide +kernel),
   (by decide +kernel),
   (by decide +kernel),
   (by decide +kernel)⟩

theorem test_meets_PinsAct_8 : ∃ (s : State) (w : Nat) (g : Nat),
    w < 8 :=
  ⟨run0, 4, 4,
   (by decide +kernel)⟩

theorem test_meets_PinsAct_9 : ∃ (s : State),
    s.id.cal = .boot :=
  ⟨{ run0 with id := { run0.id with cal := .boot } },
   (by decide +kernel)⟩

theorem test_meets_PinsAct_10 : ∃ (s : State),
    s.id.cal ≠ .boot :=
  ⟨run0,
   (by decide +kernel)⟩

end ManagementAndPins

namespace TheBlock
def q1 : State := { run0 with pending := [.pciePerstN false] }
def dupA (op : Nat) : Staged := { stg (e op) with dup := true }
def dupS (n op : Nat) (o : Option (Nat × Nat)) : State := onR { run0 with mbx := { run0.mbx with cache := [⟨5, op, o⟩] } } n (dupA op)

theorem test_meets_StepRunsTheFrontCommand_1 : ∃ (s : State),
    s.pending = [] :=
  ⟨run0,
   (by decide +kernel)⟩

theorem test_meets_EveryStepKeepsMemoryCanonical_0 : ∃ (s : State) (t : State),
    step s = .next t ∧
    s.Inv :=
  ⟨q1, (nxt (step q1) q1),
   rfl,
   (by unfold State.Inv; decide +kernel)⟩

theorem test_meets_QueueIsFirstInFirstOut_0 : ∃ (s : State) (t : State),
    step s = .next t :=
  ⟨q1, (nxt (step q1) q1),
   rfl⟩

theorem test_meets_CommandsTouchOnlyTheirParts_0 : ∃ (c : Instr) (s : State) (t : State),
    exec c s = .next t ∧
    (c.mayReset = true → t.flash.starts = s.flash.starts) :=
  ⟨(.pciePerstN false), run0, (nxt (exec (.pciePerstN false) run0) run0),
   rfl,
   (by decide +kernel)⟩

theorem test_meets_CommandsTouchOnlyTheirParts_0b : ∃ (c : Instr) (s : State) (t : State),
    exec c s = .next t ∧
    (c.mayReset = true → t.flash.starts = s.flash.starts) :=
  ⟨(.moduleReset req), run0, (nxt (exec (.moduleReset req) run0) run0),
   rfl,
   (by decide +kernel)⟩

theorem test_meets_NothingFusedIsUndone_0 : ∃ (s : State) (t : State),
    step s = .next t :=
  ⟨q1, (nxt (step q1) q1),
   rfl⟩

theorem test_meets_WellFormedCommandsGoOn_0 : ∃ (c : Instr) (s : State),
    c.wf = true :=
  ⟨(.ctxLoad 3), run0,
   (by decide +kernel)⟩

theorem test_meets_AbsentUnitsStop_0 : ∃ (c : Instr) (n : Nat) (op : Nat) (s : State),
    c.mailboxOp = some (n, op) ∧
    4 ≤ n :=
  ⟨(.nop 4), 4, 0xFF, run0,
   (by decide +kernel),
   (by decide +kernel)⟩

theorem test_meets_AbsentUnitsStop_1 : ∃ (s : State) (p : Nat),
    32 ≤ p :=
  ⟨run0, 32,
   (by decide +kernel)⟩

theorem test_meets_AbsentUnitsStop_2 : ∃ (s : State) (p : Nat) (up : Bool),
    (p < 32 ∨ 36 ≤ p) :=
  ⟨run0, 31, true,
   (by decide +kernel)⟩

theorem test_meets_AbsentUnitsStop_2b : ∃ (s : State) (p : Nat) (up : Bool),
    (p < 32 ∨ 36 ≤ p) :=
  ⟨run0, 36, true,
   (by decide +kernel)⟩

theorem test_meets_AbsentUnitsStop_3 : ∃ (s : State) (x : Nat) (g : Nat) (o : Nat),
    4096 ≤ g :=
  ⟨run0, 0, 4096, 5,
   (by decide +kernel)⟩

theorem test_meets_AbsentUnitsStop_4 : ∃ (s : State) (p : Nat),
    16 ≤ p :=
  ⟨run0, 16,
   (by decide +kernel)⟩

theorem test_meets_AbsentUnitsStop_5 : ∃ (s : State) (h : Nat) (c : Nat),
    2 ≤ h :=
  ⟨run0, 2, 0,
   (by decide +kernel)⟩

theorem test_meets_AbsentUnitsStop_6 : ∃ (s : State) (g : Nat),
    (g = 0 ∨ 6 ≤ g) :=
  ⟨run0, 0,
   (by decide +kernel)⟩

theorem test_meets_AbsentUnitsStop_6b : ∃ (s : State) (g : Nat),
    (g = 0 ∨ 6 ≤ g) :=
  ⟨run0, 6,
   (by decide +kernel)⟩

theorem test_meets_ClusterCountersWrapOrSaturate_0 : ∃ (s : State) (g : Nat) (n : Nat),
    g < 4096 :=
  ⟨run0, 4095, (2 ^ 64 - 1),
   (by decide +kernel)⟩

theorem test_meets_Duplicates_0 : ∃ (c : Instr) (n : Nat) (op : Nat) (s : State) (a : Staged) (e : SeqEntry) (o : Nat × Nat),
    c.mailboxOp = some (n, op) ∧
    n < 4 ∧
    (s.ring n).cur = some a ∧
    a.e.opcode = op ∧
    a.dup = true ∧
    readOnlyOp op = false ∧
    s.cached a.e.seq = some e ∧
    e.outcome = some o :=
  ⟨(.ctxArm 3), 3, 0x11, (dupS 3 0x11 (some (0, 7))), (dupA 0x11), ⟨5, 0x11, some (0, 7)⟩, (0, 7),
   (by decide +kernel),
   (by decide +kernel),
   (by decide +kernel),
   (by decide +kernel),
   (by decide +kernel),
   (by decide +kernel),
   (by decide +kernel),
   (by decide +kernel)⟩

theorem test_meets_Duplicates_1 : ∃ (c : Instr) (n : Nat) (op : Nat) (s : State) (a : Staged) (e : SeqEntry),
    c.mailboxOp = some (n, op) ∧
    n < 4 ∧
    (s.ring n).cur = some a ∧
    a.e.opcode = op ∧
    a.dup = true ∧
    readOnlyOp op = false ∧
    s.cached a.e.seq = some e ∧
    e.outcome = none :=
  ⟨(.ctxArm 3), 3, 0x11, (dupS 3 0x11 none), (dupA 0x11), ⟨5, 0x11, none⟩,
   (by decide +kernel),
   (by decide +kernel),
   (by decide +kernel),
   (by decide +kernel),
   (by decide +kernel),
   (by decide +kernel),
   (by decide +kernel),
   (by decide +kernel)⟩

theorem test_meets_Duplicates_2 : ∃ (s : State) (n : Nat) (a : Staged),
    n < 4 ∧
    (s.ring n).cur = some a ∧
    a.e.opcode = 0x01 ∧
    a.dup = true ∧
    s.posts n = true :=
  ⟨(dupS 0 1 none), 0, (dupA 1),
   (by decide +kernel),
   (by decide +kernel),
   (by decide +kernel),
   (by decide +kernel),
   (by decide +kernel)⟩

end TheBlock

end Sys2Proof.Tests
end

section
/-!
The counters of Table 3.7 (R88): what one count does to the counter counted and to every other.
-/
namespace Sys2Proof.Machine

/-- The rule of R88 for a utilisation counter, at any width. -/
theorem Ctr.next_of_wraps {c : Ctr} (h : c.wraps = true) (v n : Nat) : c.next v n = (v + n) % 2 ^ c.width := by
  rw [Ctr.next, if_pos h, wrapAdd]

/-- The rule of R88 for an error counter, at any width. -/
theorem Ctr.next_of_saturates {c : Ctr} (h : c.wraps = false) (v n : Nat) :
    c.next v n = if v + n < 2 ^ c.width then v + n else 2 ^ c.width - 1 := by
  rw [Ctr.next, if_neg (Bool.eq_false_iff.mp h), satAdd]

/-- The frame of a count: two places of the counter table differ when the counter or the instance does. -/
theorem State.ctr_bump_ne (s : State) {c d : Ctr} {i k : Nat} (n : Nat) (hi : i < 2 ^ 24) (hk : k < 2 ^ 24)
    (h : d ≠ c ∨ k ≠ i) : (s.bump c i n).ctr d k = s.ctr d k := by
  have hkey : d.key k ≠ c.key i := fun he => by
    obtain ⟨hdc, hki⟩ := Ctr.key_inj d c k i hk hi he
    exact h.elim (· hdc) (· hki)
  exact KMap.getD_put_ne s.ctrs _ 0 hkey

/-- Settles O9: Table 3.7 gives each counter its width and its rule at the limit, and `Ctr.key_inj` keeps the places apart. -/
theorem clusterCountersWrapOrSaturate : Obligations.ClusterCountersWrapOrSaturate := by
  intro s g n hg
  refine ⟨fun c hc => ?wraps, fun c hc => ?saturates, fun c d k hk h => ?frame⟩
  case wraps =>
    obtain ⟨hrule, hwidth⟩ : c.wraps = true ∧ c.width = 64 := by revert c; decide
    rw [State.ctr_bump_self, Ctr.next_of_wraps hrule, hwidth]
  case saturates =>
    obtain ⟨hrule, hwidth⟩ : c.wraps = false ∧ c.width = 16 := by revert c; decide
    rw [State.ctr_bump_self, Ctr.next_of_saturates hrule, hwidth]
  case frame => exact s.ctr_bump_ne n (by omega) hk h

end Sys2Proof.Machine
end

section
/-!
The image slots of the flash (16 R389, R395): what writes a slot record and what leaves both records as they were, the candidate that
boots, and what TRIES counts.
-/
namespace Sys2Proof.Machine

/-! ### What leaves the slot records alone -/

/-- What may change every part but the flash's record area, critical records included, changes no slot record. -/
theorem Only.slot_eq {s t : State} (h : Only 2361183241430561193975 s t) (j : Nat) : t.flash.slot j = s.flash.slot j := by
  have hf : ({ t.flash with events := [] } : Flash) = { s.flash with events := [] } := h.parts (fun q => nomatch q) .flash (by decide)
  exact (congrArg (Flash.slot · j) hf :)

@[simp] theorem State.slot_record (s : State) (v : Event) (j : Nat) : (s.record v).flash.slot j = s.flash.slot j := rfl
@[simp] theorem State.slot_setEvt (s : State) (r : Reg) (i b j : Nat) : (s.setEvt r i b).flash.slot j = s.flash.slot j :=
  (s.setEvt_only r i b (Foot.sub (by decide) (Foot.refl _)) (Only.refl _ s)).slot_eq j
@[simp] theorem State.id_setEvt (s : State) (r : Reg) (i b : Nat) : (s.setEvt r i b).id = s.id :=
  (s.setEvt_only r i b (Foot.sub (by decide) (Foot.refl _)) (Only.refl _ s)).id_eq
@[simp] theorem State.slot_enableGroup (s : State) (g j : Nat) : (s.enableGroup g).flash.slot j = s.flash.slot j :=
  (s.enableGroup_only g (Foot.sub (by decide) (Foot.refl _)) (Only.refl _ s)).slot_eq j
@[simp] theorem State.id_enableGroup (s : State) (g : Nat) : (s.enableGroup g).id = s.id :=
  (s.enableGroup_only g (Foot.sub (by decide) (Foot.refl _)) (Only.refl _ s)).id_eq
@[simp] theorem State.slot_checkAccept (s : State) (j : Nat) : s.checkAccept.flash.slot j = s.flash.slot j :=
  (s.checkAccept_only (Foot.sub (by decide) (Foot.refl _)) (Only.refl _ s)).slot_eq j
@[simp] theorem State.slot_imageRejected (s : State) (i c j : Nat) : (s.imageRejected i c).flash.slot j = s.flash.slot j := by
  simp [State.imageRejected]
@[simp] theorem State.slot_setOutcome (s : State) (p : Nat) (x : PortSt) (j : Nat) : (s.setOutcome p x).flash.slot j = s.flash.slot j :=
  (s.setOutcome_only p x (Foot.sub (by decide) (Foot.refl _)) (Only.refl _ s)).slot_eq j

/-- The check of the locus touches UNACCEPTED alone (R411). -/
theorem State.checkAccept_boot (s : State) : s.checkAccept.id.cal = s.id.cal ∧ s.checkAccept.id.booted = s.id.booted := by
  unfold State.checkAccept
  split
  · exact ⟨rfl, rfl⟩
  · split <;> exact ⟨rfl, rfl⟩

/-- A port's evaluation may learn its neighbour's digest, which stands in the flash beside the slot records (R188). -/
theorem State.slot_evaluate (s : State) (p : Nat) (i : IdentData) (j : Nat) : (s.evaluate p i).flash.slot j = s.flash.slot j := by
  have digest (t : State) (c : Nat) : (t.updFlash (fun f => { f with digests := KMap.put f.digests p c })).flash.slot j = t.flash.slot j := rfl
  simp only [State.evaluate, apply_ite State.flash, apply_ite (Flash.slot · j), State.slot_setOutcome, State.slot_setEvt,
    State.updPort_flash, digest, ite_self]

theorem State.slot_evaluateAgain (s : State) (p j : Nat) : (s.evaluateAgain p).flash.slot j = s.flash.slot j := by
  unfold State.evaluateAgain
  dsimp only
  split
  · rfl
  · split
    · exact s.slot_evaluate p _ j
    · rfl

/-- A loop whose rounds leave a slot record alone leaves it alone. -/
theorem slot_forEach {α : Type} {f : State → α → State} {j : Nat} (hf : ∀ u a, (f u a).flash.slot j = u.flash.slot j) (l : List α)
    (s : State) : (forEach l s f).flash.slot j = s.flash.slot j :=
  foldl_only (fun u : State => u.flash.slot j = s.flash.slot j) (fun u a h => (hf u a).trans h) l rfl

/-- Live fields of a committed configuration take effect without a write to a slot record (R398). -/
@[simp] theorem State.slot_commitLive (s : State) (c : Cfg) (j : Nat) : (s.commitLive c).flash.slot j = s.flash.slot j := by
  unfold State.commitLive
  split
  · rfl
  · dsimp only
    split
    · rfl
    · exact slot_forEach (fun u p => u.slot_evaluateAgain p j) _ _

/-! ### What writes a slot record -/

@[simp] theorem State.id_updSlot (s : State) (i : Nat) (f : Slot → Slot) : (s.updSlot i f).id = s.id := rfl

@[simp] theorem State.slot_updSlot_same (s : State) (i : Nat) (f : Slot → Slot) : (s.updSlot i f).flash.slot i = f (s.flash.slot i) := by
  by_cases hi : i = 0 <;> simp [State.updSlot, Flash.slot, hi]

theorem State.slot_updSlot_other (s : State) {i : Nat} (f : Slot → Slot) (hi : i < 2) :
    (s.updSlot i f).flash.slot (1 - i) = s.flash.slot (1 - i) := by
  obtain rfl | rfl : i = 0 ∨ i = 1 := by omega
  · rfl
  · rfl

/-- The start of a slot's firmware writes TRIES of that slot and no other record (R395). -/
theorem State.startSlot_slot (s : State) (k : Nat) (other : Bool) (j : Nat) :
    (s.startSlot k other).flash.slot j = (s.updSlot k (fun q => { q with tries := q.tries + 1 })).flash.slot j := by
  unfold State.startSlot
  dsimp only
  split <;> split <;> simp

/-- It leaves BOOT for INIT, with its slot the booted one (R402). -/
theorem State.startSlot_boot (s : State) (k : Nat) (other : Bool) :
    (s.startSlot k other).id.cal = .init ∧ (s.startSlot k other).id.booted = some k := by
  unfold State.startSlot
  dsimp only
  split <;> split <;> simp [State.checkAccept_boot]

/-! ### The candidate that boots (R394, R395) -/

/-- The slot that boots out of the two records, if either is a candidate. -/
def Flash.candidate (f : Flash) : Option Nat := pickSlot (f.slotA.reject f == 0) (f.slotB.reject f == 0) f.slotA.gen f.slotB.gen

/-- The slot beside `k` holds an image that passes. -/
def Flash.otherPasses (f : Flash) (k : Nat) : Bool := if k = 0 then f.slotB.reject f == 0 else f.slotA.reject f == 0

/-- BOOT counts a power-up once (Table 16.9). -/
def State.countPowerUp (s : State) : State :=
  if s.id.counted then s else (s.updFlash (fun f => { f with boot := f.boot + 1 })).updId (fun d => { d with counted := true })

/-- Both slots tested, each rejected image recorded with its code (R394). -/
def State.testSlots (s : State) : State :=
  let a := s.flash.slotA.reject s.flash
  let b := s.flash.slotB.reject s.flash
  let s := if a = 0 then s else s.imageRejected 0 a
  if b = 0 then s else s.imageRejected 1 b

/-- What SLOT_SELECT makes of the tested slots: the candidate's firmware starts, or the module is in RECOVERY where there is none (R395, R396). -/
def State.bootCandidate (s : State) (other : Nat → Bool) : Option Nat → State
  | none => s.enterRecovery 0
  | some k => s.startSlot k (other k)

@[simp] theorem State.id_booted_imageRejected (s : State) (i c : Nat) : (s.imageRejected i c).id.booted = s.id.booted := rfl

theorem State.slot_countPowerUp (s : State) (j : Nat) : s.countPowerUp.flash.slot j = s.flash.slot j := by
  unfold State.countPowerUp
  split <;> rfl

theorem State.booted_countPowerUp (s : State) : s.countPowerUp.id.booted = s.id.booted := by
  unfold State.countPowerUp
  split <;> rfl

/-- The images are tested against the keys, versions and serial of the flash; its count of power-ups is not among them. -/
theorem State.candidate_countPowerUp (s : State) : s.countPowerUp.flash.candidate = s.flash.candidate := by
  unfold State.countPowerUp
  split <;> rfl

theorem State.slot_testSlots (s : State) (j : Nat) : s.testSlots.flash.slot j = s.flash.slot j := by
  unfold State.testSlots
  dsimp only
  split <;> split <;> simp

theorem State.booted_testSlots (s : State) : s.testSlots.id.booted = s.id.booted := by
  unfold State.testSlots
  dsimp only
  split <;> split <;> simp

/-- SLOT_SELECT boots the candidate of the flash as it finds it (R394 to R396). -/
theorem slotSelect_boots {s : State} (hs : s.served = true) (hb : s.id.cal = .boot) :
    exec .slotSelect s = .next (s.countPowerUp.testSlots.bootCandidate s.countPowerUp.flash.otherPasses s.flash.candidate) := by
  have hgo : ¬ (!s.served || s.id.cal != .boot) = true := by simp [hs, hb]
  have hA : s.countPowerUp.testSlots.flash.slotA = s.countPowerUp.flash.slotA := s.countPowerUp.slot_testSlots 0
  have hB : s.countPowerUp.testSlots.flash.slotB = s.countPowerUp.flash.slotB := s.countPowerUp.slot_testSlots 1
  calc exec .slotSelect s
    _ = .next (if !s.served || s.id.cal != .boot then s else
          s.countPowerUp.testSlots.bootCandidate s.countPowerUp.flash.otherPasses
            (pickSlot (s.countPowerUp.flash.slotA.reject s.countPowerUp.flash == 0)
              (s.countPowerUp.flash.slotB.reject s.countPowerUp.flash == 0)
              s.countPowerUp.testSlots.flash.slotA.gen s.countPowerUp.testSlots.flash.slotB.gen)) := rfl
    _ = .next (s.countPowerUp.testSlots.bootCandidate s.countPowerUp.flash.otherPasses s.countPowerUp.flash.candidate) := by
      rw [if_neg hgo, hA, hB, Flash.candidate]
    _ = .next (s.countPowerUp.testSlots.bootCandidate s.countPowerUp.flash.otherPasses s.flash.candidate) := by
      rw [State.candidate_countPowerUp]

/-- The candidate is a slot whose image passes. -/
theorem Flash.candidate_accepted {f : Flash} {k : Nat} (h : f.candidate = some k) : (f.slot k).reject f = 0 := by
  unfold Flash.candidate pickSlot at h
  split at h
  · next hA hB =>
    split at h
    · exact Option.some.inj h ▸ eq_of_beq hB
    · exact Option.some.inj h ▸ eq_of_beq hA
  · next hA _ => exact Option.some.inj h ▸ eq_of_beq hA
  · next _ hB => exact Option.some.inj h ▸ eq_of_beq hB
  · cases h

/-- Between two images that pass GENERATION decides, and slot A where it is equal (R395). -/
theorem Flash.candidate_eq_some {f : Flash} {k : Nat} (hk : k < 2) (hr : (f.slot k).reject f = 0)
    (hg : (f.slot (1 - k)).reject f = 0 → (f.slot (1 - k)).gen < (f.slot k).gen ∨ k = 0 ∧ f.slotB.gen ≤ f.slotA.gen) :
    f.candidate = some k := by
  obtain rfl | rfl : k = 0 ∨ k = 1 := by omega
  case inl =>
    have hA : f.slotA.reject f = 0 := hr
    have hg : f.slotB.reject f = 0 → f.slotB.gen < f.slotA.gen ∨ 0 = 0 ∧ f.slotB.gen ≤ f.slotA.gen := hg
    by_cases hB : f.slotB.reject f = 0
    · have hle : ¬ f.slotA.gen < f.slotB.gen := by have := hg hB; omega
      simp [Flash.candidate, pickSlot, hA, hB, hle]
    · simp [Flash.candidate, pickSlot, hA, beq_false_of_ne hB]
  case inr =>
    have hB : f.slotB.reject f = 0 := hr
    have hg : f.slotA.reject f = 0 → f.slotA.gen < f.slotB.gen ∨ 1 = 0 ∧ f.slotB.gen ≤ f.slotA.gen := hg
    by_cases hA : f.slotA.reject f = 0
    · have hlt : f.slotA.gen < f.slotB.gen := by have := hg hA; omega
      simp [Flash.candidate, pickSlot, hA, hB, hlt]
    · simp [Flash.candidate, pickSlot, hB, beq_false_of_ne hA]

/-- A slot with three tries is no candidate (R395, code 0x01). -/
theorem Flash.candidate_of_tries {f : Flash} {k : Nat} (h : 3 ≤ (f.slot k).tries) : f.candidate ≠ some k := fun hk => by
  have hr : (f.slot k).reject f = 0 := Flash.candidate_accepted hk
  simp [Slot.reject, firstCode, Nat.not_lt.2 h] at hr

/-- Only the candidate can come to be booted where none was. -/
theorem State.bootCandidate_booted {s : State} {other : Nat → Bool} {c : Option Nat} {k : Nat} (hs : s.id.booted = none) (hc : c ≠ some k) :
    (s.bootCandidate other c).id.booted ≠ some k := by
  cases c with
  | some i => rwa [State.bootCandidate, (s.startSlot_boot i (other i)).2]
  | none =>
    have hkept : (s.bootCandidate other none).id.booted = none := hs
    rw [hkept]
    exact nofun

/-- A slot with three tries does not come to be booted (R395). -/
theorem slotSelect_skips {s : State} {k : Nat} (hs : s.served = true) (hb : s.id.cal = .boot) (hn : s.id.booted = none)
    (h : 3 ≤ (s.flash.slot k).tries) : ∃ t, exec .slotSelect s = .next t ∧ t.id.booted ≠ some k := by
  have hn : s.countPowerUp.testSlots.id.booted = none := by rw [State.booted_testSlots, State.booted_countPowerUp, hn]
  exact ⟨_, slotSelect_boots hs hb, State.bootCandidate_booted hn (Flash.candidate_of_tries h)⟩

/-! ### The commands that clear TRIES -/

/-- RUN_ENTRY reaches RUN only by writing TRIES of the booted slot to 0 (R395). -/
theorem runEntry_clears_tries {s t : State} {failed : List (Nat × Nat)} {k : Nat} (hi : s.id.cal = .init) (hk : s.id.booted = some k)
    (he : exec (.runEntry failed) s = .next t) (hr : t.id.cal = .run) : (t.flash.slot k).tries = 0 := by
  have hstay : t ≠ s := fun e => by rw [e, hi] at hr; cases hr
  change execRunEntry failed s = _ at he
  unfold execRunEntry at he
  split at he
  · cases he
  · have he := Host.Outcome.next.inj he
    split at he
    · next l k' _ hk' =>
      obtain rfl : k' = k := Option.some.inj (hk'.symm.trans hk)
      split at he
      · exact absurd he.symm hstay
      · extract_lets at he
        split at he
        · subst he
          cases hr
        · have hf : t.flash = ((s.applyFaultMap failed).updSlot k' (fun q => { q with tries := 0 })).flash := by
            split at he <;> exact he ▸ rfl
          rw [hf, State.slot_updSlot_same]
    · exact absurd he.symm hstay

/-- TRIES_CLEAR acts on the booted slot while CAL_OWN has not been released (R395). -/
theorem triesClear_unreleased {s : State} {k : Nat} (hk : s.id.booted = some k) (hr : s.id.released = false)
    (hc : s.id.cal = .init ∨ s.id.cal = .run) : exec .triesClear s = .next (s.updSlot k (fun q => { q with tries := 0 })) := by
  change execTriesClear s = _
  obtain hc | hc := hc <;> simp [execTriesClear, hk, hr, hc]

theorem triesClear_released {s : State} (hr : s.id.released = true) : exec .triesClear s = .next s := by
  change execTriesClear s = _
  unfold execTriesClear
  split <;> simp [hr]

/-- The writer's own request is carried out. -/
theorem State.asWriter_held {s : State} {r : Req} {w : Writer} (cmd : Nat) (f : Writer → State → State) (hw : s.id.writer = some w)
    (hh : w.heldBy r = true) : s.asWriter r cmd f = f w s := by
  simp [State.asWriter, hw, hh]

/-- An image that passes makes its slot's record anew, with no tries counted (R395, R397). -/
theorem imgCommit_clears_tries {s : State} {r : Req} {w : Writer} (hv : s.vendorServed r true true = true) (hw : s.id.writer = some w)
    (hh : w.heldBy r = true)
    (ht : (commitTest (s.written w).1 (match s.id.booted with | some k => (s.flash.slot k).image | none => []) s.flash).1 = 0) :
    ∃ t, exec (.imgCommit r) s = .next t ∧ (t.flash.slot w.target).tries = 0 := by
  refine ⟨_, rfl, ?_⟩
  rw [State.vendorGate_served _ hv, State.asWriter_held _ _ hw hh]
  extract_lets
  split
  · next hf => exact absurd ht hf
  · rw [State.vendor_flash, State.slot_commitLive]
    exact congrArg Slot.tries ((s.written w).2.slot_updSlot_same w.target _)

/-- Settles O52: SLOT_SELECT boots the candidate `pickSlot` gives, a slot with three tries is never that candidate, and what a command
does after it clears TRIES leaves the slot records alone. -/
theorem higherGenerationBoots : Obligations.HigherGenerationBoots := by
  unfold Obligations.HigherGenerationBoots
  refine ⟨?starts, fun s failed t k => runEntry_clears_tries, ?clears, fun s => triesClear_released, ?notA, ?notB, ?commits⟩
  case starts =>
    intro s k hs hb hk hr hg
    have e := slotSelect_boots hs hb
    rw [Flash.candidate_eq_some hk hr hg] at e
    have slots (j : Nat) : s.countPowerUp.testSlots.flash.slot j = s.flash.slot j := by
      rw [State.slot_testSlots, State.slot_countPowerUp]
    obtain ⟨hcal, hbooted⟩ := s.countPowerUp.testSlots.startSlot_boot k (s.countPowerUp.flash.otherPasses k)
    refine ⟨_, e, hcal, hbooted, ?_, ?_⟩ <;> rw [State.bootCandidate, State.startSlot_slot]
    · rw [State.slot_updSlot_same, slots]
    · rw [State.slot_updSlot_other _ _ hk, slots]
  case clears =>
    intro s k hk hr hc
    exact ⟨_, triesClear_unreleased hk hr hc, by rw [State.slot_updSlot_same], s.id_updSlot k _⟩
  case notA => exact fun s hs hb hn h3 => slotSelect_skips (k := 0) hs hb hn h3
  case notB => exact fun s hs hb hn h3 => slotSelect_skips (k := 1) hs hb hn h3
  case commits => exact fun s r w hv hw hh _ ht => imgCommit_clears_tries hv hw hh ht

end Sys2Proof.Machine
end

section
/-!
The reset by RESET_N (17 R432, 16 R405): what the module reset leaves, and the pin that holds Caldera in BOOT.
-/
namespace Sys2Proof

/-- A change of the entries that leaves the keys alone and the value under this key leaves what is read there. -/
theorem KMap.find_map_of_fixed {α : Type} (m : KMap α) {f : Nat × α → Nat × α} {k : Nat} (hkey : ∀ e, (f e).1 = e.1)
    (hfix : ∀ v, f (k, v) = (k, v)) : KMap.find (m.map f) k = KMap.find m k := by
  induction m with
  | nil => rfl
  | cons e m ih =>
    rw [List.map_cons, KMap.find, KMap.find, hkey e, ih]
    split
    · next hk =>
      subst hk
      exact congrArg (fun a => some a.2) (hfix e.2)
    · rfl

namespace Machine

/-! ### What a module reset leaves -/

/-- Only group 5, stages 32 and 33, goes off; the rails of groups 1 to 4 stay as they were (R405). -/
theorem State.stage_moduleReset (s : State) {i : Nat} (h32 : i ≠ 32) (h33 : i ≠ 33) : s.moduleReset.stage i = s.stage i := by
  refine congrArg (Option.getD · Stage.reset) (KMap.find_map_of_fixed _ (fun e => ?_) (fun v => ?_))
  · exact (apply_ite Prod.fst _ _ _).trans (ite_self _)
  · exact if_neg (not_or.2 ⟨h32, h33⟩)

/-! ### The hold of RESET_N -/

/-- RESET_N low: the module reset has run and the pin is down. -/
def State.heldByReset (s : State) : State := s.moduleReset.updPins (fun p => { p with resetN := false })

theorem resetNFall_resets {s : State} (hg : s.pins.pgood = true) (hl : s.pins.latchedOff = false) (hr : s.pins.resetN = true) :
    exec .resetNFall s = .next s.heldByReset := by
  change execResetNFall s = _
  simp [execResetNFall, State.heldByReset, hg, hl, hr]

theorem resetNFall_unpowered {s : State} (hg : s.pins.pgood = false) : exec .resetNFall s = .next s := by
  change execResetNFall s = _
  simp [execResetNFall, hg]

/-- No request is answered while RESET_N is low. -/
theorem State.served_of_resetN_low {s : State} (hr : s.pins.resetN = false) : s.served = false := by
  simp [State.served, hr]

/-- BOOT does not end for INIT while the module is not served. -/
theorem slotSelect_unserved {s : State} (hs : s.served = false) : exec .slotSelect s = .next s := by
  change execSlotSelect s = _
  simp [execSlotSelect, hs]

/-- A module whose image has not been chosen does not enter RUN, or RECOVERY in its place. -/
theorem runEntry_unbooted {s : State} (hb : s.id.booted = none) : exec (.runEntry []) s = .next s := by
  change execRunEntry [] s = _
  simp [execRunEntry, hb]

/-- Settles O53: RESET_N_FALL answers the module reset with the pin low, the low pin closes SLOT_SELECT, and the lost choice of an image
closes RUN_ENTRY. -/
theorem resetHoldsBoot : Obligations.ResetHoldsBoot := by
  unfold Obligations.ResetHoldsBoot
  refine ⟨fun s hg hl hr => ?falls, fun s => resetNFall_unpowered⟩
  case falls =>
    have hlow : s.heldByReset.pins.resetN = false := rfl
    have hstages (i : Nat) (h32 : i ≠ 32) (h33 : i ≠ 33) : s.heldByReset.stage i = s.stage i := s.stage_moduleReset h32 h33
    have hboot : exec .slotSelect s.heldByReset = .next s.heldByReset := slotSelect_unserved (State.served_of_resetN_low hlow)
    have hrun : exec (.runEntry []) s.heldByReset = .next s.heldByReset := runEntry_unbooted rfl
    exact ⟨_, resetNFall_resets hg hl hr, hlow, rfl, hstages, rfl, rfl, rfl, rfl, rfl, rfl, hboot, hrun⟩

end Machine
end Sys2Proof
end

section
/-!
The block as a whole: what every step keeps (`Keeps`) and the parts each command may change (`Only`), the lemmas of `Laws` read off for
the command that runs; what a step is; and the state after reset.
-/
namespace Sys2Proof
open Machine

/-- The mask of a list of parts. -/
def Machine.Part.maskOf (l : List Part) : Nat := l.foldr (fun p n => 1 <<< p.idx ||| n) 0

/-- The mask of what a command may change: the parts listed for it, and bit 25 where it may reset the module. -/
def Instr.mask (c : Instr) : Nat := Part.maskOf c.touches ||| bif c.mayReset then 33554432 else 0

namespace Machine

/-! ### What a command keeps and changes -/

/-- No command undoes what none may undo. -/
theorem exec_keeps {s0 s : State} (c : Instr) (hk : Keeps false s0 s) : KeepsO false s0 (exec c s) :=
  match c with
  | .stepLaunch .. => execStepLaunch_keeps _ hk
  | .stepConfirmSend .. => execStepConfirmSend_keeps _ hk
  | .stepConfirm .. => execStepConfirm_keeps _ hk
  | .commit .. => execCommit_keeps _ _ _ _ hk
  | .commitDeadline .. => execCommitDeadline_keeps _ hk
  | .faultReport .. => execFaultReport_keeps _ _ hk
  | .reexecCollect .. => execReexecCollect_keeps _ hk
  | .reexec .. => execReexec_keeps _ _ _ hk
  | .moduleLost .. => execModuleLost_keeps _ _ _ _ hk
  | .anch .. => execAnch_keeps _ _ hk
  | .mma .. => execMma_keeps _ _ hk
  | .vec .. => execVec_keeps _ _ _ _ hk
  | .move .. => execMove_keeps _ _ _ _ _ hk
  | .send .. => execSend_keeps _ _ hk
  | .wait .. => execWait_keeps _ _ hk
  | .dma .. => execDma_keeps _ _ _ _ _ _ hk
  | .operatorStart .. => execOperatorStart_keeps _ _ _ hk
  | .operatorComplete .. => execOperatorComplete_keeps _ _ _ _ hk
  | .batchWaitExpiry .. => execBatchWaitExpiry_keeps _ hk
  | .sliceStreamDone .. => execSliceStreamDone_keeps _ _ hk
  | .xposeJobComplete .. => execXposeJobComplete_keeps _ _ _ _ hk
  | .scrubSlot .. => execScrubSlot_keeps _ _ _ _ hk
  | .calGapStart .. => execCalGapStart_keeps _ hk
  | .calGapEnd .. => execCalGapEnd_keeps _ hk
  | .identify .. => execIdentify_keeps _ hk
  | .attach .. => execAttach_keeps _ hk
  | .ctxLoad .. => execCtxLoad_keeps _ hk
  | .ctxArm .. => execCtxArm_keeps _ hk
  | .ctxHold .. => execCtxHold_keeps _ hk
  | .ctxResume .. => execCtxResume_keeps _ hk
  | .ctxTeardown .. => execCtxTeardown_keeps _ hk
  | .tensorWrite .. => execTensorWrite_keeps _ hk
  | .tensorRead .. => execTensorRead_keeps _ _ hk
  | .dumpRequest .. => execDumpRequest_keeps _ _ hk
  | .fingerprintGet .. => execFingerprintGet_keeps _ hk
  | .policySet .. => execPolicySet_keeps _ hk
  | .nop .. => execNop_keeps _ hk
  | .commandAccept .. => execCommandAccept_keeps _ _ _ hk
  | .sqDoorbell .. => execSqDoorbell_keeps _ _ hk
  | .ringEnWrite .. => execRingEnWrite_keeps _ _ hk
  | .mbxEnableWrite .. => execMbxEnableWrite_keeps _ hk
  | .cqHeadWrite .. => execCqHeadWrite_keeps _ _ hk
  | .mbxHeartbeat .. => execMbxHeartbeat_keeps _ hk
  | .registerWrite .. => execRegisterWrite_keeps _ _ hk
  | .pcieHotReset => execPcieHotReset_keeps hk
  | .pcieLinkDown => execPcieLinkDown_keeps hk
  | .pcieFlr => execPcieFlr_keeps hk
  | .pf1Flr => execPf1Flr_keeps hk
  | .busMasterDisable => execBusMasterDisable_keeps hk
  | .hostHbTimeout => execHostHbTimeout_keeps hk
  | .pcieLinkDownTimeout => execPcieLinkDownTimeout_keeps hk
  | .armed .. => execArmed_keeps _ _ hk
  | .start .. => execStart_keeps _ _ _ _ hk
  | .pmap .. => execPmap_keeps _ _ _ _ hk
  | .resume .. => execResume_keeps _ _ _ hk
  | .hostLoss .. => execHostLoss_keeps _ _ hk
  | .drain .. => execDrain_keeps _ _ _ hk
  | .drainStart .. => execDrainStart_keeps _ hk
  | .drainEnd .. => execDrainEnd_keeps _ hk
  | .drained .. => execDrained_keeps _ hk
  | .routeBreak .. => execRouteBreak_keeps _ _ _ _ _ hk
  | .routeBreakEffective .. => execRouteBreakEffective_keeps _ hk
  | .ack .. => execAck_keeps _ _ hk
  | .notReady .. => execNotReady_keeps _ _ _ hk
  | .cnEcho .. => execCnEcho_keeps _ _ hk
  | .ctrlRetransmit .. => execCtrlRetransmit_keeps _ _ _ hk
  | .limiterIncrease .. => execLimiterIncrease_keeps _ _ hk
  | .packetForward .. => execPacketForward_keeps _ _ _ _ hk
  | .crossingReserve .. => execCrossingReserve_keeps _ _ _ hk
  | .crossingReserveEnd .. => execCrossingReserveEnd_keeps _ _ _ hk
  | .dataPacket .. => execDataPacket_keeps _ _ _ hk
  | .redUp .. => execRedUp_keeps _ _ hk
  | .redDown .. => execRedDown_keeps _ _ hk
  | .telUp .. => execTelUp_keeps _ _ hk
  | .telDown .. => execTelDown_keeps _ _ hk
  | .credit .. => execCredit_keeps _ _ hk
  | .ident .. => execIdent_keeps _ _ hk
  | .lsmFastRetrain .. => execLsmFastRetrain_keeps _ _ hk
  | .lsmFullRetrain .. => execLsmFullRetrain_keeps _ _ hk
  | .lsmWidth4 .. => execLsmWidth4_keeps _ _ hk
  | .lsmSpare .. => execLsmSpare_keeps _ _ hk
  | .lsmGrant .. => execLsmGrant_keeps _ _ hk
  | .lsmDone .. => execLsmDone_keeps _ _ hk
  | .codewordFlagged .. => execCodewordFlagged_keeps _ _ _ _ hk
  | .nakRetry .. => execNakRetry_keeps _ hk
  | .lossOfSignal .. => execLossOfSignal_keeps _ _ hk
  | .laneCeLimit .. => execLaneCeLimit_keeps _ _ hk
  | .laneUeLimit .. => execLaneUeLimit_keeps _ _ hk
  | .portLcfTimeout .. => execPortLcfTimeout_keeps _ hk
  | .fastRetrainTimeout .. => execFastRetrainTimeout_keeps _ hk
  | .portStart .. => execPortStart_keeps _ hk
  | .partnerReady .. => execPartnerReady_keeps _ _ hk
  | .equaliseDone .. => execEqualiseDone_keeps _ hk
  | .alignDone .. => execAlignDone_keeps _ _ hk
  | .attemptTimeout .. => execAttemptTimeout_keeps _ hk
  | .backoffExpiry .. => execBackoffExpiry_keeps _ hk
  | .heldExpiry .. => execHeldExpiry_keeps _ hk
  | .heldSignalLoss .. => execHeldSignalLoss_keeps _ hk
  | .edgeLinkUp .. => execEdgeLinkUp_keeps _ _ hk
  | .edgeLinkDown .. => execEdgeLinkDown_keeps _ hk
  | .edgeFrameReceive .. => execEdgeFrameReceive_keeps _ _ hk
  | .timeLcfSend .. => execTimeLcfSend_keeps _ hk
  | .timeLcf .. => execTimeLcf_keeps _ _ _ hk
  | .offerExpiry .. => execOfferExpiry_keeps _ hk
  | .rootSeqAdvance .. => execRootSeqAdvance_keeps _ hk
  | .rootClaimTimer => execRootClaimTimer_keeps hk
  | .ptpUnlockTimeout => execPtpUnlockTimeout_keeps hk
  | .sync .. => execSync_keeps _ _ hk
  | .followUp .. => execFollowUp_keeps _ _ hk
  | .delayResp .. => execDelayResp_keeps _ _ hk
  | .delayReq .. => execDelayReq_keeps _ _ hk
  | .announce .. => execAnnounce_keeps _ _ _ hk
  | .ptpSyncSend .. => execPtpSyncSend_keeps _ hk
  | .ptpAnnounceSend .. => execPtpAnnounceSend_keeps _ hk
  | .ptpDelayReqSend .. => execPtpDelayReqSend_keeps _ hk
  | .alignStart => execAlignStart_keeps hk
  | .alignQuiesce => execAlignQuiesce_keeps hk
  | .alignApply => execAlignApply_keeps hk
  | .alignComplete .. => execAlignComplete_keeps _ hk
  | .packetRelease => execPacketRelease_keeps hk
  | .hangWindowExpiry .. => execHangWindowExpiry_keeps _ hk
  | .partitionRefillDone .. => execPartitionRefillDone_keeps _ hk
  | .dieLinkFail .. => execDieLinkFail_keeps _ hk
  | .calHalfFault _ cause => execCalHalfFault_keeps _ cause hk
  | .selfTest .. => execSelfTest_keeps _ _ hk
  | .calOwnAcquire .. => execCalOwnAcquire_keeps _ hk
  | .calOwnTimeout => execCalOwnTimeout_keeps hk
  | .coordBeatSend .. => execCoordBeatSend_keeps _ hk
  | .coordBeat .. => execCoordBeat_keeps _ _ _ hk
  | .leaseEnd .. => execLeaseEnd_keeps _ hk
  | .leaseExpiry .. => execLeaseExpiry_keeps _ hk
  | .interlockInFall => execInterlockInFall_keeps hk
  | .interlockStuck .. => execInterlockStuck_keeps _ hk
  | .takeover .. => execTakeover_keeps _ _ _ hk
  | .takeoverState .. => execTakeoverState_keeps _ _ _ _ _ _ _ _ hk
  | .takeoverStateTimeout .. => execTakeoverStateTimeout_keeps _ _ hk
  | .probe .. => execProbe_keeps _ _ hk
  | .probeReply .. => execProbeReply_keeps _ _ _ _ hk
  | .probeTimeout .. => execProbeTimeout_keeps _ _ hk
  | .stepHold .. => execStepHold_keeps _ _ _ hk
  | .selfLost .. => execSelfLost_keeps _ _ hk
  | .recoveryNotice .. => execRecoveryNotice_keeps _ _ _ hk
  | .geyBind .. => execGeyBind_keeps _ _ hk
  | .geyBindReply .. => execGeyBindReply_keeps _ _ _ hk
  | .geyBindRetry .. => execGeyBindRetry_keeps _ hk
  | .geyBindTimeout .. => execGeyBindTimeout_keeps _ hk
  | .geySpareReady .. => execGeySpareReady_keeps _ _ hk
  | .geyTake .. => execGeyTake_keeps _ _ _ _ hk
  | .takeCopyComplete .. => execTakeCopyComplete_keeps _ hk
  | .geyTakeDone .. => execGeyTakeDone_keeps _ _ hk
  | .geyReseed .. => execGeyReseed_keeps _ _ hk
  | .geyFetch .. => execGeyFetch_keeps _ _ _ hk
  | .geyCkpt .. => execGeyCkpt_keeps _ _ hk
  | .geyCkptDone .. => execGeyCkptDone_keeps _ _ hk
  | .ckptTimeout .. => execCkptTimeout_keeps _ hk
  | .geyRestore .. => execGeyRestore_keeps _ _ _ hk
  | .restoreComplete .. => execRestoreComplete_keeps _ hk
  | .geyRestored .. => execGeyRestored_keeps _ _ _ hk
  | .openReply .. => execOpenReply_keeps _ hk
  | .shardData .. => execShardData_keeps _ hk
  | .dack .. => execDack_keeps _ hk
  | .closeReply .. => execCloseReply_keeps _ hk
  | .fetchReply .. => execFetchReply_keeps _ hk
  | .shardRto .. => execShardRto_keeps _ hk
  | .dackTimer .. => execDackTimer_keeps _ hk
  | .gwDownExpiry .. => execGwDownExpiry_keeps _ hk
  | .sampleLatch .. => execSampleLatch_keeps _ _ hk
  | .sampleMissed .. => execSampleMissed_keeps _ _ hk
  | .telSendBy .. => execTelSendBy_keeps _ _ _ _ hk
  | .telFinalize .. => execTelFinalize_keeps _ _ _ _ hk
  | .telSlotRelease .. => execTelSlotRelease_keeps _ _ _ hk
  | .subscribe .. => execSubscribe_keeps _ _ _ _ _ _ hk
  | .unsubscribe .. => execUnsubscribe_keeps _ _ _ hk
  | .subscriptionLeaseEnd .. => execSubscriptionLeaseEnd_keeps _ _ _ hk
  | .recordAged .. => execRecordAged_keeps _ _ _ _ hk
  | .evrRecordClose .. => execEvrRecordClose_keeps _ hk
  | .evrInfo .. => execEvrInfo_keeps _ hk
  | .evrFreeze .. => execEvrFreeze_keeps _ hk
  | .evrRead .. => execEvrRead_keeps _ _ _ _ hk
  | .evrRelease .. => execEvrRelease_keeps _ hk
  | .evrClear .. => execEvrClear_keeps _ _ _ hk
  | .evrFreezeTimeout => execEvrFreezeTimeout_keeps hk
  | .ledgerUpdate .. => execLedgerUpdate_keeps _ _ _ hk
  | .pwrGrant .. => execPwrGrant_keeps _ _ _ _ hk
  | .pwrCeiling .. => execPwrCeiling_keeps _ _ hk
  | .pwrDemand .. => execPwrDemand_keeps _ _ hk
  | .vcoreUndervoltage .. => execVcoreUndervoltage_keeps _ hk
  | .frequencyMargin .. => execFrequencyMargin_keeps _ _ hk
  | .tjThrottle .. => execTjThrottle_keeps _ _ hk
  | .tjTrip .. => execTjTrip_keeps _ _ hk
  | .railOvervoltage .. => execRailOvervoltage_keeps _ _ hk
  | .inputPowerLimit .. => execInputPowerLimit_keeps _ hk
  | .comparatorRelease .. => execComparatorRelease_keeps _ _ hk
  | .phaseRetire .. => execPhaseRetire_keeps _ _ _ hk
  | .railPowerGood .. => execRailPowerGood_keeps _ hk
  | .powerOn => execPowerOn_keeps hk
  | .slotSelect => execSlotSelect_keeps hk
  | .triesClear => execTriesClear_keeps hk
  | .opticsRelease => execOpticsRelease_keeps hk
  | .runEntry .. => execRunEntry_keeps _ hk
  | .locusAssign .. => execLocusAssign_keeps _ _ hk
  | .mbIdentify .. => execMbIdentify_keeps _ hk
  | .idAccept .. => execIdAccept_keeps _ _ _ hk
  | .idStatus .. => execIdStatus_keeps _ hk
  | .imgBegin .. => execImgBegin_keeps _ _ hk
  | .imgWrite .. => execImgWrite_keeps _ _ _ hk
  | .imgCommit .. => execImgCommit_keeps _ hk
  | .imgAbort .. => execImgAbort_keeps _ hk
  | .imgStatus .. => execImgStatus_keeps _ hk
  | .imgWriterIdle => execImgWriterIdle_keeps hk
  | .secverAdvance .. => execSecverAdvance_keeps _ _ hk
  | .ownerProvision .. => execOwnerProvision_keeps _ _ _ hk
  | .moduleReset .. => execModuleReset_keeps _ hk
  | .ctxResumeReq .. => execCtxResumeReq_keeps _ _ hk
  | .geyRestoreReq .. => execGeyRestoreReq_keeps _ _ _ _ hk
  | .getTid .. => execGetTid_keeps _ hk
  | .getPldmVersion .. => execGetPldmVersion_keeps _ _ hk
  | .getPldmTypes .. => execGetPldmTypes_keeps _ hk
  | .getPldmCommands .. => execGetPldmCommands_keeps _ _ hk
  | .getPdr .. => execGetPdr_keeps _ _ hk
  | .getSensorReading .. => execGetSensorReading_keeps _ _ hk
  | .getStateSensorReadings .. => execGetStateSensorReadings_keeps _ _ hk
  | .pldmFullRetrain .. => execPldmFullRetrain_keeps _ _ hk
  | .releaseHold .. => execReleaseHold_keeps _ _ hk
  | .alignRetry .. => execAlignRetry_keeps _ hk
  | .regRead .. => execRegRead_keeps _ _ _ _ _ hk
  | .regW1c .. => execRegW1c_keeps _ _ _ _ _ hk
  | .setEndpointId .. => execSetEndpointId_keeps _ _ hk
  | .getEndpointId .. => execGetEndpointId_keeps _ hk
  | .getMctpVersionSupport .. => execGetMctpVersionSupport_keeps _ _ hk
  | .getMessageTypeSupport .. => execGetMessageTypeSupport_keeps _ hk
  | .getVendorDefinedMessageSupport .. => execGetVendorDefinedMessageSupport_keeps _ _ hk
  | .getVersion .. => execGetVersion_keeps _ hk
  | .getCapabilities .. => execGetCapabilities_keeps _ _ hk
  | .negotiateAlgorithms .. => execNegotiateAlgorithms_keeps _ _ hk
  | .getDigests .. => execGetDigests_keeps _ hk
  | .getCertificate .. => execGetCertificate_keeps _ _ _ _ hk
  | .challenge .. => execChallenge_keeps _ _ _ hk
  | .getMeasurements .. => execGetMeasurements_keeps _ _ _ hk
  | .keyExchange .. => execKeyExchange_keeps _ _ _ hk
  | .pgoodFall => execPgoodFall_keeps hk
  | .resetNFall => execResetNFall_keeps hk
  | .pciePerstN .. => execPciePerstN_keeps _ hk
  | .testEnHigh => execTestEnHigh_keeps hk
  | .inputUndervoltage => execInputUndervoltage_keeps hk
  | .inputOvervoltage => execInputOvervoltage_keeps hk
  | .inputCollapse => execInputCollapse_keeps hk
  | .pcieLinkUp .. => execPcieLinkUp_keeps _ _ hk
  | .dynamicAddressAssignment .. => execDynamicAddressAssignment_keeps _ hk
  | .finish .. => execFinish_keeps _ _ _ hk
  | .keyUpdate .. => execKeyUpdate_keeps _ _ _ hk
  | .endSession .. => execEndSession_keeps _ _ hk
  | .respondIfReady .. => execRespondIfReady_keeps _ _ hk
  | .announceReceiptTimeout .. => execAnnounceReceiptTimeout_keeps _ hk
  | .actionBoundExpiry .. => execActionBoundExpiry_keeps _ _ hk
  | .busyRetryDelayExpiry .. => execBusyRetryDelayExpiry_keeps _ hk

/-- Every command stays inside its mask. -/
theorem exec_only (s : State) (c : Instr) : OnlyO c.mask s (exec c s) := by
  refine match c with
  | .stepLaunch .. => execStepLaunch_only _ (Foot.sub ?_ (Foot.refl _)) (Only.refl _ s)
  | .stepConfirmSend .. => execStepConfirmSend_only _ (Foot.sub ?_ (Foot.refl _)) (Only.refl _ s)
  | .stepConfirm .. => execStepConfirm_only _ (Foot.sub ?_ (Foot.refl _)) (Only.refl _ s)
  | .commit .. => execCommit_only _ _ _ _ (Foot.sub ?_ (Foot.refl _)) (Only.refl _ s)
  | .commitDeadline .. => execCommitDeadline_only _ (Foot.sub ?_ (Foot.refl _)) (Only.refl _ s)
  | .faultReport .. => execFaultReport_only _ _ (Foot.sub ?_ (Foot.refl _)) (Only.refl _ s)
  | .reexecCollect .. => execReexecCollect_only _ (Foot.sub ?_ (Foot.refl _)) (Only.refl _ s)
  | .reexec .. => execReexec_only _ _ _ (Foot.sub ?_ (Foot.refl _)) (Only.refl _ s)
  | .moduleLost .. => execModuleLost_only _ _ _ _ (Foot.sub ?_ (Foot.refl _)) (Only.refl _ s)
  | .anch .. => execAnch_only _ _ (Foot.sub ?_ (Foot.refl _)) (Only.refl _ s)
  | .mma .. => execMma_only _ _ (Foot.sub ?_ (Foot.refl _)) (Only.refl _ s)
  | .vec .. => execVec_only _ _ _ _ (Foot.sub ?_ (Foot.refl _)) (Only.refl _ s)
  | .move .. => execMove_only _ _ _ _ _ (Foot.sub ?_ (Foot.refl _)) (Only.refl _ s)
  | .send .. => execSend_only _ _ (Foot.sub ?_ (Foot.refl _)) (Only.refl _ s)
  | .wait .. => execWait_only _ _ (Foot.sub ?_ (Foot.refl _)) (Only.refl _ s)
  | .dma .. => execDma_only _ _ _ _ _ _ (Foot.sub ?_ (Foot.refl _)) (Only.refl _ s)
  | .operatorStart .. => execOperatorStart_only _ _ _ (Foot.sub ?_ (Foot.refl _)) (Only.refl _ s)
  | .operatorComplete .. => execOperatorComplete_only _ _ _ _ (Foot.sub ?_ (Foot.refl _)) (Only.refl _ s)
  | .batchWaitExpiry .. => execBatchWaitExpiry_only _ (Foot.sub ?_ (Foot.refl _)) (Only.refl _ s)
  | .sliceStreamDone .. => execSliceStreamDone_only _ _ (Foot.sub ?_ (Foot.refl _)) (Only.refl _ s)
  | .xposeJobComplete .. => execXposeJobComplete_only _ _ _ _ (Foot.sub ?_ (Foot.refl _)) (Only.refl _ s)
  | .scrubSlot .. => execScrubSlot_only _ _ _ _ (Foot.sub ?_ (Foot.refl _)) (Only.refl _ s)
  | .calGapStart .. => execCalGapStart_only _ (Foot.sub ?_ (Foot.refl _)) (Only.refl _ s)
  | .calGapEnd .. => execCalGapEnd_only _ (Foot.sub ?_ (Foot.refl _)) (Only.refl _ s)
  | .identify .. => execIdentify_only _ (Foot.sub ?_ (Foot.refl _)) (Only.refl _ s)
  | .attach .. => execAttach_only _ (Foot.sub ?_ (Foot.refl _)) (Only.refl _ s)
  | .ctxLoad .. => execCtxLoad_only _ (Foot.sub ?_ (Foot.refl _)) (Only.refl _ s)
  | .ctxArm .. => execCtxArm_only _ (Foot.sub ?_ (Foot.refl _)) (Only.refl _ s)
  | .ctxHold .. => execCtxHold_only _ (Foot.sub ?_ (Foot.refl _)) (Only.refl _ s)
  | .ctxResume .. => execCtxResume_only _ (Foot.sub ?_ (Foot.refl _)) (Only.refl _ s)
  | .ctxTeardown .. => execCtxTeardown_only _ (Foot.sub ?_ (Foot.refl _)) (Only.refl _ s)
  | .tensorWrite .. => execTensorWrite_only _ (Foot.sub ?_ (Foot.refl _)) (Only.refl _ s)
  | .tensorRead .. => execTensorRead_only _ _ (Foot.sub ?_ (Foot.refl _)) (Only.refl _ s)
  | .dumpRequest .. => execDumpRequest_only _ _ (Foot.sub ?_ (Foot.refl _)) (Only.refl _ s)
  | .fingerprintGet .. => execFingerprintGet_only _ (Foot.sub ?_ (Foot.refl _)) (Only.refl _ s)
  | .policySet .. => execPolicySet_only _ (Foot.sub ?_ (Foot.refl _)) (Only.refl _ s)
  | .nop .. => execNop_only _ (Foot.sub ?_ (Foot.refl _)) (Only.refl _ s)
  | .commandAccept .. => execCommandAccept_only _ _ _ (Foot.sub ?_ (Foot.refl _)) (Only.refl _ s)
  | .sqDoorbell .. => execSqDoorbell_only _ _ (Foot.sub ?_ (Foot.refl _)) (Only.refl _ s)
  | .ringEnWrite .. => execRingEnWrite_only _ _ (Foot.sub ?_ (Foot.refl _)) (Only.refl _ s)
  | .mbxEnableWrite .. => execMbxEnableWrite_only _ (Foot.sub ?_ (Foot.refl _)) (Only.refl _ s)
  | .cqHeadWrite .. => execCqHeadWrite_only _ _ (Foot.sub ?_ (Foot.refl _)) (Only.refl _ s)
  | .mbxHeartbeat .. => execMbxHeartbeat_only _ (Foot.sub ?_ (Foot.refl _)) (Only.refl _ s)
  | .registerWrite .. => execRegisterWrite_only _ _ (Foot.sub ?_ (Foot.refl _)) (Only.refl _ s)
  | .pcieHotReset => execPcieHotReset_only (Foot.sub ?_ (Foot.refl _)) (Only.refl _ s)
  | .pcieLinkDown => execPcieLinkDown_only (Foot.sub ?_ (Foot.refl _)) (Only.refl _ s)
  | .pcieFlr => execPcieFlr_only (Foot.sub ?_ (Foot.refl _)) (Only.refl _ s)
  | .pf1Flr => execPf1Flr_only (Foot.sub ?_ (Foot.refl _)) (Only.refl _ s)
  | .busMasterDisable => execBusMasterDisable_only (Foot.sub ?_ (Foot.refl _)) (Only.refl _ s)
  | .hostHbTimeout => execHostHbTimeout_only (Foot.sub ?_ (Foot.refl _)) (Only.refl _ s)
  | .pcieLinkDownTimeout => execPcieLinkDownTimeout_only (Foot.sub ?_ (Foot.refl _)) (Only.refl _ s)
  | .armed .. => execArmed_only _ _ (Foot.sub ?_ (Foot.refl _)) (Only.refl _ s)
  | .start .. => execStart_only _ _ _ _ (Foot.sub ?_ (Foot.refl _)) (Only.refl _ s)
  | .pmap .. => execPmap_only _ _ _ _ (Foot.sub ?_ (Foot.refl _)) (Only.refl _ s)
  | .resume .. => execResume_only _ _ _ (Foot.sub ?_ (Foot.refl _)) (Only.refl _ s)
  | .hostLoss .. => execHostLoss_only _ _ (Foot.sub ?_ (Foot.refl _)) (Only.refl _ s)
  | .drain .. => execDrain_only _ _ _ (Foot.sub ?_ (Foot.refl _)) (Only.refl _ s)
  | .drainStart .. => execDrainStart_only _ (Foot.sub ?_ (Foot.refl _)) (Only.refl _ s)
  | .drainEnd .. => execDrainEnd_only _ (Foot.sub ?_ (Foot.refl _)) (Only.refl _ s)
  | .drained .. => execDrained_only _ (Foot.sub ?_ (Foot.refl _)) (Only.refl _ s)
  | .routeBreak .. => execRouteBreak_only _ _ _ _ _ (Foot.sub ?_ (Foot.refl _)) (Only.refl _ s)
  | .routeBreakEffective .. => execRouteBreakEffective_only _ (Foot.sub ?_ (Foot.refl _)) (Only.refl _ s)
  | .ack .. => execAck_only _ _ (Foot.sub ?_ (Foot.refl _)) (Only.refl _ s)
  | .notReady .. => execNotReady_only _ _ _ (Foot.sub ?_ (Foot.refl _)) (Only.refl _ s)
  | .cnEcho .. => execCnEcho_only _ _ (Foot.sub ?_ (Foot.refl _)) (Only.refl _ s)
  | .ctrlRetransmit .. => execCtrlRetransmit_only _ _ _ (Foot.sub ?_ (Foot.refl _)) (Only.refl _ s)
  | .limiterIncrease .. => execLimiterIncrease_only _ _ (Foot.sub ?_ (Foot.refl _)) (Only.refl _ s)
  | .packetForward .. => execPacketForward_only _ _ _ _ (Foot.sub ?_ (Foot.refl _)) (Only.refl _ s)
  | .crossingReserve .. => execCrossingReserve_only _ _ _ (Foot.sub ?_ (Foot.refl _)) (Only.refl _ s)
  | .crossingReserveEnd .. => execCrossingReserveEnd_only _ _ _ (Foot.sub ?_ (Foot.refl _)) (Only.refl _ s)
  | .dataPacket .. => execDataPacket_only _ _ _ (Foot.sub ?_ (Foot.refl _)) (Only.refl _ s)
  | .redUp .. => execRedUp_only _ _ (Foot.sub ?_ (Foot.refl _)) (Only.refl _ s)
  | .redDown .. => execRedDown_only _ _ (Foot.sub ?_ (Foot.refl _)) (Only.refl _ s)
  | .telUp .. => execTelUp_only _ _ (Foot.sub ?_ (Foot.refl _)) (Only.refl _ s)
  | .telDown .. => execTelDown_only _ _ (Foot.sub ?_ (Foot.refl _)) (Only.refl _ s)
  | .credit .. => execCredit_only _ _ (Foot.sub ?_ (Foot.refl _)) (Only.refl _ s)
  | .ident .. => execIdent_only _ _ (Foot.sub ?_ (Foot.refl _)) (Only.refl _ s)
  | .lsmFastRetrain .. => execLsmFastRetrain_only _ _ (Foot.sub ?_ (Foot.refl _)) (Only.refl _ s)
  | .lsmFullRetrain .. => execLsmFullRetrain_only _ _ (Foot.sub ?_ (Foot.refl _)) (Only.refl _ s)
  | .lsmWidth4 .. => execLsmWidth4_only _ _ (Foot.sub ?_ (Foot.refl _)) (Only.refl _ s)
  | .lsmSpare .. => execLsmSpare_only _ _ (Foot.sub ?_ (Foot.refl _)) (Only.refl _ s)
  | .lsmGrant .. => execLsmGrant_only _ _ (Foot.sub ?_ (Foot.refl _)) (Only.refl _ s)
  | .lsmDone .. => execLsmDone_only _ _ (Foot.sub ?_ (Foot.refl _)) (Only.refl _ s)
  | .codewordFlagged .. => execCodewordFlagged_only _ _ _ _ (Foot.sub ?_ (Foot.refl _)) (Only.refl _ s)
  | .nakRetry .. => execNakRetry_only _ (Foot.sub ?_ (Foot.refl _)) (Only.refl _ s)
  | .lossOfSignal .. => execLossOfSignal_only _ _ (Foot.sub ?_ (Foot.refl _)) (Only.refl _ s)
  | .laneCeLimit .. => execLaneCeLimit_only _ _ (Foot.sub ?_ (Foot.refl _)) (Only.refl _ s)
  | .laneUeLimit .. => execLaneUeLimit_only _ _ (Foot.sub ?_ (Foot.refl _)) (Only.refl _ s)
  | .portLcfTimeout .. => execPortLcfTimeout_only _ (Foot.sub ?_ (Foot.refl _)) (Only.refl _ s)
  | .fastRetrainTimeout .. => execFastRetrainTimeout_only _ (Foot.sub ?_ (Foot.refl _)) (Only.refl _ s)
  | .portStart .. => execPortStart_only _ (Foot.sub ?_ (Foot.refl _)) (Only.refl _ s)
  | .partnerReady .. => execPartnerReady_only _ _ (Foot.sub ?_ (Foot.refl _)) (Only.refl _ s)
  | .equaliseDone .. => execEqualiseDone_only _ (Foot.sub ?_ (Foot.refl _)) (Only.refl _ s)
  | .alignDone .. => execAlignDone_only _ _ (Foot.sub ?_ (Foot.refl _)) (Only.refl _ s)
  | .attemptTimeout .. => execAttemptTimeout_only _ (Foot.sub ?_ (Foot.refl _)) (Only.refl _ s)
  | .backoffExpiry .. => execBackoffExpiry_only _ (Foot.sub ?_ (Foot.refl _)) (Only.refl _ s)
  | .heldExpiry .. => execHeldExpiry_only _ (Foot.sub ?_ (Foot.refl _)) (Only.refl _ s)
  | .heldSignalLoss .. => execHeldSignalLoss_only _ (Foot.sub ?_ (Foot.refl _)) (Only.refl _ s)
  | .edgeLinkUp .. => execEdgeLinkUp_only _ _ (Foot.sub ?_ (Foot.refl _)) (Only.refl _ s)
  | .edgeLinkDown .. => execEdgeLinkDown_only _ (Foot.sub ?_ (Foot.refl _)) (Only.refl _ s)
  | .edgeFrameReceive .. => execEdgeFrameReceive_only _ _ (Foot.sub ?_ (Foot.refl _)) (Only.refl _ s)
  | .timeLcfSend .. => execTimeLcfSend_only _ (Foot.sub ?_ (Foot.refl _)) (Only.refl _ s)
  | .timeLcf .. => execTimeLcf_only _ _ _ (Foot.sub ?_ (Foot.refl _)) (Only.refl _ s)
  | .offerExpiry .. => execOfferExpiry_only _ (Foot.sub ?_ (Foot.refl _)) (Only.refl _ s)
  | .rootSeqAdvance .. => execRootSeqAdvance_only _ (Foot.sub ?_ (Foot.refl _)) (Only.refl _ s)
  | .rootClaimTimer => execRootClaimTimer_only (Foot.sub ?_ (Foot.refl _)) (Only.refl _ s)
  | .ptpUnlockTimeout => execPtpUnlockTimeout_only (Foot.sub ?_ (Foot.refl _)) (Only.refl _ s)
  | .sync .. => execSync_only _ _ (Foot.sub ?_ (Foot.refl _)) (Only.refl _ s)
  | .followUp .. => execFollowUp_only _ _ (Foot.sub ?_ (Foot.refl _)) (Only.refl _ s)
  | .delayResp .. => execDelayResp_only _ _ (Foot.sub ?_ (Foot.refl _)) (Only.refl _ s)
  | .delayReq .. => execDelayReq_only _ _ (Foot.sub ?_ (Foot.refl _)) (Only.refl _ s)
  | .announce .. => execAnnounce_only _ _ _ (Foot.sub ?_ (Foot.refl _)) (Only.refl _ s)
  | .ptpSyncSend .. => execPtpSyncSend_only _ (Foot.sub ?_ (Foot.refl _)) (Only.refl _ s)
  | .ptpAnnounceSend .. => execPtpAnnounceSend_only _ (Foot.sub ?_ (Foot.refl _)) (Only.refl _ s)
  | .ptpDelayReqSend .. => execPtpDelayReqSend_only _ (Foot.sub ?_ (Foot.refl _)) (Only.refl _ s)
  | .alignStart => execAlignStart_only (Foot.sub ?_ (Foot.refl _)) (Only.refl _ s)
  | .alignQuiesce => execAlignQuiesce_only (Foot.sub ?_ (Foot.refl _)) (Only.refl _ s)
  | .alignApply => execAlignApply_only (Foot.sub ?_ (Foot.refl _)) (Only.refl _ s)
  | .alignComplete .. => execAlignComplete_only _ (Foot.sub ?_ (Foot.refl _)) (Only.refl _ s)
  | .packetRelease => execPacketRelease_only (Foot.sub ?_ (Foot.refl _)) (Only.refl _ s)
  | .hangWindowExpiry .. => execHangWindowExpiry_only _ (Foot.sub ?_ (Foot.refl _)) (Only.refl _ s)
  | .partitionRefillDone .. => execPartitionRefillDone_only _ (Foot.sub ?_ (Foot.refl _)) (Only.refl _ s)
  | .dieLinkFail .. => execDieLinkFail_only _ (Foot.sub ?_ (Foot.refl _)) (Only.refl _ s)
  | .calHalfFault _ cause => execCalHalfFault_only _ cause (Foot.sub ?_ (Foot.refl _)) (Only.refl _ s)
  | .selfTest .. => execSelfTest_only _ _ (Foot.sub ?_ (Foot.refl _)) (Only.refl _ s)
  | .calOwnAcquire .. => execCalOwnAcquire_only _ (Foot.sub ?_ (Foot.refl _)) (Only.refl _ s)
  | .calOwnTimeout => execCalOwnTimeout_only (Foot.sub ?_ (Foot.refl _)) (Only.refl _ s)
  | .coordBeatSend .. => execCoordBeatSend_only _ (Foot.sub ?_ (Foot.refl _)) (Only.refl _ s)
  | .coordBeat .. => execCoordBeat_only _ _ _ (Foot.sub ?_ (Foot.refl _)) (Only.refl _ s)
  | .leaseEnd .. => execLeaseEnd_only _ (Foot.sub ?_ (Foot.refl _)) (Only.refl _ s)
  | .leaseExpiry .. => execLeaseExpiry_only _ (Foot.sub ?_ (Foot.refl _)) (Only.refl _ s)
  | .interlockInFall => execInterlockInFall_only (Foot.sub ?_ (Foot.refl _)) (Only.refl _ s)
  | .interlockStuck .. => execInterlockStuck_only _ (Foot.sub ?_ (Foot.refl _)) (Only.refl _ s)
  | .takeover .. => execTakeover_only _ _ _ (Foot.sub ?_ (Foot.refl _)) (Only.refl _ s)
  | .takeoverState .. => execTakeoverState_only _ _ _ _ _ _ _ _ (Foot.sub ?_ (Foot.refl _)) (Only.refl _ s)
  | .takeoverStateTimeout .. => execTakeoverStateTimeout_only _ _ (Foot.sub ?_ (Foot.refl _)) (Only.refl _ s)
  | .probe .. => execProbe_only _ _ (Foot.sub ?_ (Foot.refl _)) (Only.refl _ s)
  | .probeReply .. => execProbeReply_only _ _ _ _ (Foot.sub ?_ (Foot.refl _)) (Only.refl _ s)
  | .probeTimeout .. => execProbeTimeout_only _ _ (Foot.sub ?_ (Foot.refl _)) (Only.refl _ s)
  | .stepHold .. => execStepHold_only _ _ _ (Foot.sub ?_ (Foot.refl _)) (Only.refl _ s)
  | .selfLost .. => execSelfLost_only _ _ (Foot.sub ?_ (Foot.refl _)) (Only.refl _ s)
  | .recoveryNotice .. => execRecoveryNotice_only _ _ _ (Foot.sub ?_ (Foot.refl _)) (Only.refl _ s)
  | .geyBind .. => execGeyBind_only _ _ (Foot.sub ?_ (Foot.refl _)) (Only.refl _ s)
  | .geyBindReply .. => execGeyBindReply_only _ _ _ (Foot.sub ?_ (Foot.refl _)) (Only.refl _ s)
  | .geyBindRetry .. => execGeyBindRetry_only _ (Foot.sub ?_ (Foot.refl _)) (Only.refl _ s)
  | .geyBindTimeout .. => execGeyBindTimeout_only _ (Foot.sub ?_ (Foot.refl _)) (Only.refl _ s)
  | .geySpareReady .. => execGeySpareReady_only _ _ (Foot.sub ?_ (Foot.refl _)) (Only.refl _ s)
  | .geyTake .. => execGeyTake_only _ _ _ _ (Foot.sub ?_ (Foot.refl _)) (Only.refl _ s)
  | .takeCopyComplete .. => execTakeCopyComplete_only _ (Foot.sub ?_ (Foot.refl _)) (Only.refl _ s)
  | .geyTakeDone .. => execGeyTakeDone_only _ _ (Foot.sub ?_ (Foot.refl _)) (Only.refl _ s)
  | .geyReseed .. => execGeyReseed_only _ _ (Foot.sub ?_ (Foot.refl _)) (Only.refl _ s)
  | .geyFetch .. => execGeyFetch_only _ _ _ (Foot.sub ?_ (Foot.refl _)) (Only.refl _ s)
  | .geyCkpt .. => execGeyCkpt_only _ _ (Foot.sub ?_ (Foot.refl _)) (Only.refl _ s)
  | .geyCkptDone .. => execGeyCkptDone_only _ _ (Foot.sub ?_ (Foot.refl _)) (Only.refl _ s)
  | .ckptTimeout .. => execCkptTimeout_only _ (Foot.sub ?_ (Foot.refl _)) (Only.refl _ s)
  | .geyRestore .. => execGeyRestore_only _ _ _ (Foot.sub ?_ (Foot.refl _)) (Only.refl _ s)
  | .restoreComplete .. => execRestoreComplete_only _ (Foot.sub ?_ (Foot.refl _)) (Only.refl _ s)
  | .geyRestored .. => execGeyRestored_only _ _ _ (Foot.sub ?_ (Foot.refl _)) (Only.refl _ s)
  | .openReply .. => execOpenReply_only _ (Foot.sub ?_ (Foot.refl _)) (Only.refl _ s)
  | .shardData .. => execShardData_only _ (Foot.sub ?_ (Foot.refl _)) (Only.refl _ s)
  | .dack .. => execDack_only _ (Foot.sub ?_ (Foot.refl _)) (Only.refl _ s)
  | .closeReply .. => execCloseReply_only _ (Foot.sub ?_ (Foot.refl _)) (Only.refl _ s)
  | .fetchReply .. => execFetchReply_only _ (Foot.sub ?_ (Foot.refl _)) (Only.refl _ s)
  | .shardRto .. => execShardRto_only _ (Foot.sub ?_ (Foot.refl _)) (Only.refl _ s)
  | .dackTimer .. => execDackTimer_only _ (Foot.sub ?_ (Foot.refl _)) (Only.refl _ s)
  | .gwDownExpiry .. => execGwDownExpiry_only _ (Foot.sub ?_ (Foot.refl _)) (Only.refl _ s)
  | .sampleLatch .. => execSampleLatch_only _ _ (Foot.sub ?_ (Foot.refl _)) (Only.refl _ s)
  | .sampleMissed .. => execSampleMissed_only _ _ (Foot.sub ?_ (Foot.refl _)) (Only.refl _ s)
  | .telSendBy .. => execTelSendBy_only _ _ _ _ (Foot.sub ?_ (Foot.refl _)) (Only.refl _ s)
  | .telFinalize .. => execTelFinalize_only _ _ _ _ (Foot.sub ?_ (Foot.refl _)) (Only.refl _ s)
  | .telSlotRelease .. => execTelSlotRelease_only _ _ _ (Foot.sub ?_ (Foot.refl _)) (Only.refl _ s)
  | .subscribe .. => execSubscribe_only _ _ _ _ _ _ (Foot.sub ?_ (Foot.refl _)) (Only.refl _ s)
  | .unsubscribe .. => execUnsubscribe_only _ _ _ (Foot.sub ?_ (Foot.refl _)) (Only.refl _ s)
  | .subscriptionLeaseEnd .. => execSubscriptionLeaseEnd_only _ _ _ (Foot.sub ?_ (Foot.refl _)) (Only.refl _ s)
  | .recordAged .. => execRecordAged_only _ _ _ _ (Foot.sub ?_ (Foot.refl _)) (Only.refl _ s)
  | .evrRecordClose .. => execEvrRecordClose_only _ (Foot.sub ?_ (Foot.refl _)) (Only.refl _ s)
  | .evrInfo .. => execEvrInfo_only _ (Foot.sub ?_ (Foot.refl _)) (Only.refl _ s)
  | .evrFreeze .. => execEvrFreeze_only _ (Foot.sub ?_ (Foot.refl _)) (Only.refl _ s)
  | .evrRead .. => execEvrRead_only _ _ _ _ (Foot.sub ?_ (Foot.refl _)) (Only.refl _ s)
  | .evrRelease .. => execEvrRelease_only _ (Foot.sub ?_ (Foot.refl _)) (Only.refl _ s)
  | .evrClear .. => execEvrClear_only _ _ _ (Foot.sub ?_ (Foot.refl _)) (Only.refl _ s)
  | .evrFreezeTimeout => execEvrFreezeTimeout_only (Foot.sub ?_ (Foot.refl _)) (Only.refl _ s)
  | .ledgerUpdate .. => execLedgerUpdate_only _ _ _ (Foot.sub ?_ (Foot.refl _)) (Only.refl _ s)
  | .pwrGrant .. => execPwrGrant_only _ _ _ _ (Foot.sub ?_ (Foot.refl _)) (Only.refl _ s)
  | .pwrCeiling .. => execPwrCeiling_only _ _ (Foot.sub ?_ (Foot.refl _)) (Only.refl _ s)
  | .pwrDemand .. => execPwrDemand_only _ _ (Foot.sub ?_ (Foot.refl _)) (Only.refl _ s)
  | .vcoreUndervoltage .. => execVcoreUndervoltage_only _ (Foot.sub ?_ (Foot.refl _)) (Only.refl _ s)
  | .frequencyMargin .. => execFrequencyMargin_only _ _ (Foot.sub ?_ (Foot.refl _)) (Only.refl _ s)
  | .tjThrottle .. => execTjThrottle_only _ _ (Foot.sub ?_ (Foot.refl _)) (Only.refl _ s)
  | .tjTrip .. => execTjTrip_only _ _ (Foot.sub ?_ (Foot.refl _)) (Only.refl _ s)
  | .railOvervoltage .. => execRailOvervoltage_only _ _ (Foot.sub ?_ (Foot.refl _)) (Only.refl _ s)
  | .inputPowerLimit .. => execInputPowerLimit_only _ (Foot.sub ?_ (Foot.refl _)) (Only.refl _ s)
  | .comparatorRelease .. => execComparatorRelease_only _ _ (Foot.sub ?_ (Foot.refl _)) (Only.refl _ s)
  | .phaseRetire .. => execPhaseRetire_only _ _ _ (Foot.sub ?_ (Foot.refl _)) (Only.refl _ s)
  | .railPowerGood .. => execRailPowerGood_only _ (Foot.sub ?_ (Foot.refl _)) (Only.refl _ s)
  | .powerOn => execPowerOn_only (Foot.sub ?_ (Foot.refl _)) (Only.refl _ s)
  | .slotSelect => execSlotSelect_only (Foot.sub ?_ (Foot.refl _)) (Only.refl _ s)
  | .triesClear => execTriesClear_only (Foot.sub ?_ (Foot.refl _)) (Only.refl _ s)
  | .opticsRelease => execOpticsRelease_only (Foot.sub ?_ (Foot.refl _)) (Only.refl _ s)
  | .runEntry .. => execRunEntry_only _ (Foot.sub ?_ (Foot.refl _)) (Only.refl _ s)
  | .locusAssign .. => execLocusAssign_only _ _ (Foot.sub ?_ (Foot.refl _)) (Only.refl _ s)
  | .mbIdentify .. => execMbIdentify_only _ (Foot.sub ?_ (Foot.refl _)) (Only.refl _ s)
  | .idAccept .. => execIdAccept_only _ _ _ (Foot.sub ?_ (Foot.refl _)) (Only.refl _ s)
  | .idStatus .. => execIdStatus_only _ (Foot.sub ?_ (Foot.refl _)) (Only.refl _ s)
  | .imgBegin .. => execImgBegin_only _ _ (Foot.sub ?_ (Foot.refl _)) (Only.refl _ s)
  | .imgWrite .. => execImgWrite_only _ _ _ (Foot.sub ?_ (Foot.refl _)) (Only.refl _ s)
  | .imgCommit .. => execImgCommit_only _ (Foot.sub ?_ (Foot.refl _)) (Only.refl _ s)
  | .imgAbort .. => execImgAbort_only _ (Foot.sub ?_ (Foot.refl _)) (Only.refl _ s)
  | .imgStatus .. => execImgStatus_only _ (Foot.sub ?_ (Foot.refl _)) (Only.refl _ s)
  | .imgWriterIdle => execImgWriterIdle_only (Foot.sub ?_ (Foot.refl _)) (Only.refl _ s)
  | .secverAdvance .. => execSecverAdvance_only _ _ (Foot.sub ?_ (Foot.refl _)) (Only.refl _ s)
  | .ownerProvision .. => execOwnerProvision_only _ _ _ (Foot.sub ?_ (Foot.refl _)) (Only.refl _ s)
  | .moduleReset .. => execModuleReset_only _ (Foot.sub ?_ (Foot.refl _)) (Only.refl _ s)
  | .ctxResumeReq .. => execCtxResumeReq_only _ _ (Foot.sub ?_ (Foot.refl _)) (Only.refl _ s)
  | .geyRestoreReq .. => execGeyRestoreReq_only _ _ _ _ (Foot.sub ?_ (Foot.refl _)) (Only.refl _ s)
  | .getTid .. => execGetTid_only _ (Foot.sub ?_ (Foot.refl _)) (Only.refl _ s)
  | .getPldmVersion .. => execGetPldmVersion_only _ _ (Foot.sub ?_ (Foot.refl _)) (Only.refl _ s)
  | .getPldmTypes .. => execGetPldmTypes_only _ (Foot.sub ?_ (Foot.refl _)) (Only.refl _ s)
  | .getPldmCommands .. => execGetPldmCommands_only _ _ (Foot.sub ?_ (Foot.refl _)) (Only.refl _ s)
  | .getPdr .. => execGetPdr_only _ _ (Foot.sub ?_ (Foot.refl _)) (Only.refl _ s)
  | .getSensorReading .. => execGetSensorReading_only _ _ (Foot.sub ?_ (Foot.refl _)) (Only.refl _ s)
  | .getStateSensorReadings .. => execGetStateSensorReadings_only _ _ (Foot.sub ?_ (Foot.refl _)) (Only.refl _ s)
  | .pldmFullRetrain .. => execPldmFullRetrain_only _ _ (Foot.sub ?_ (Foot.refl _)) (Only.refl _ s)
  | .releaseHold .. => execReleaseHold_only _ _ (Foot.sub ?_ (Foot.refl _)) (Only.refl _ s)
  | .alignRetry .. => execAlignRetry_only _ (Foot.sub ?_ (Foot.refl _)) (Only.refl _ s)
  | .regRead .. => execRegRead_only _ _ _ _ _ (Foot.sub ?_ (Foot.refl _)) (Only.refl _ s)
  | .regW1c .. => execRegW1c_only _ _ _ _ _ (Foot.sub ?_ (Foot.refl _)) (Only.refl _ s)
  | .setEndpointId .. => execSetEndpointId_only _ _ (Foot.sub ?_ (Foot.refl _)) (Only.refl _ s)
  | .getEndpointId .. => execGetEndpointId_only _ (Foot.sub ?_ (Foot.refl _)) (Only.refl _ s)
  | .getMctpVersionSupport .. => execGetMctpVersionSupport_only _ _ (Foot.sub ?_ (Foot.refl _)) (Only.refl _ s)
  | .getMessageTypeSupport .. => execGetMessageTypeSupport_only _ (Foot.sub ?_ (Foot.refl _)) (Only.refl _ s)
  | .getVendorDefinedMessageSupport .. => execGetVendorDefinedMessageSupport_only _ _ (Foot.sub ?_ (Foot.refl _)) (Only.refl _ s)
  | .getVersion .. => execGetVersion_only _ (Foot.sub ?_ (Foot.refl _)) (Only.refl _ s)
  | .getCapabilities .. => execGetCapabilities_only _ _ (Foot.sub ?_ (Foot.refl _)) (Only.refl _ s)
  | .negotiateAlgorithms .. => execNegotiateAlgorithms_only _ _ (Foot.sub ?_ (Foot.refl _)) (Only.refl _ s)
  | .getDigests .. => execGetDigests_only _ (Foot.sub ?_ (Foot.refl _)) (Only.refl _ s)
  | .getCertificate .. => execGetCertificate_only _ _ _ _ (Foot.sub ?_ (Foot.refl _)) (Only.refl _ s)
  | .challenge .. => execChallenge_only _ _ _ (Foot.sub ?_ (Foot.refl _)) (Only.refl _ s)
  | .getMeasurements .. => execGetMeasurements_only _ _ _ (Foot.sub ?_ (Foot.refl _)) (Only.refl _ s)
  | .keyExchange .. => execKeyExchange_only _ _ _ (Foot.sub ?_ (Foot.refl _)) (Only.refl _ s)
  | .pgoodFall => execPgoodFall_only (Foot.sub ?_ (Foot.refl _)) (Only.refl _ s)
  | .resetNFall => execResetNFall_only (Foot.sub ?_ (Foot.refl _)) (Only.refl _ s)
  | .pciePerstN .. => execPciePerstN_only _ (Foot.sub ?_ (Foot.refl _)) (Only.refl _ s)
  | .testEnHigh => execTestEnHigh_only (Foot.sub ?_ (Foot.refl _)) (Only.refl _ s)
  | .inputUndervoltage => execInputUndervoltage_only (Foot.sub ?_ (Foot.refl _)) (Only.refl _ s)
  | .inputOvervoltage => execInputOvervoltage_only (Foot.sub ?_ (Foot.refl _)) (Only.refl _ s)
  | .inputCollapse => execInputCollapse_only (Foot.sub ?_ (Foot.refl _)) (Only.refl _ s)
  | .pcieLinkUp .. => execPcieLinkUp_only _ _ (Foot.sub ?_ (Foot.refl _)) (Only.refl _ s)
  | .dynamicAddressAssignment .. => execDynamicAddressAssignment_only _ (Foot.sub ?_ (Foot.refl _)) (Only.refl _ s)
  | .finish .. => execFinish_only _ _ _ (Foot.sub ?_ (Foot.refl _)) (Only.refl _ s)
  | .keyUpdate .. => execKeyUpdate_only _ _ _ (Foot.sub ?_ (Foot.refl _)) (Only.refl _ s)
  | .endSession .. => execEndSession_only _ _ (Foot.sub ?_ (Foot.refl _)) (Only.refl _ s)
  | .respondIfReady .. => execRespondIfReady_only _ _ (Foot.sub ?_ (Foot.refl _)) (Only.refl _ s)
  | .announceReceiptTimeout .. => execAnnounceReceiptTimeout_only _ (Foot.sub ?_ (Foot.refl _)) (Only.refl _ s)
  | .actionBoundExpiry .. => execActionBoundExpiry_only _ _ (Foot.sub ?_ (Foot.refl _)) (Only.refl _ s)
  | .busyRetryDelayExpiry .. => execBusyRetryDelayExpiry_only _ (Foot.sub ?_ (Foot.refl _)) (Only.refl _ s)
  all_goals
    dsimp only [Instr.mask, Instr.touches, Instr.mayReset]
    decide +kernel

/-- Two parts have two places in a mask. -/
theorem Part.idx_inj {p q : Part} (h : p.idx = q.idx) : p = q := by
  have all : ∀ p ∈ Part.module ++ ctxParts CtxField.every, ∀ q ∈ Part.module ++ ctxParts CtxField.every, p.idx = q.idx → p = q := by
    decide +kernel
  exact all p p.all_mem q q.all_mem h

theorem Part.idx_ne_reset (p : Part) : p.idx ≠ 25 := by
  have all : ∀ p ∈ Part.module ++ ctxParts CtxField.every, p.idx ≠ 25 := by decide +kernel
  exact all p p.all_mem

/-- A mask holds the places of its parts. -/
theorem Part.testBit_maskOf (l : List Part) (i : Nat) : (Part.maskOf l).testBit i = true ↔ ∃ p ∈ l, p.idx = i := by
  induction l with
  | nil => simp [Part.maskOf]
  | cons p l ih =>
    have hp : (1 <<< p.idx).testBit i = decide (p.idx = i) := by rw [Nat.one_shiftLeft, Nat.testBit_two_pow]
    have hc : Part.maskOf (p :: l) = 1 <<< p.idx ||| Part.maskOf l := rfl
    rw [hc, Nat.testBit_or, Bool.or_eq_true, hp, decide_eq_true_eq, ih]
    simp

/-- The place of a part that is not listed is not in the command's mask. -/
theorem Instr.mask_of_not_mem {c : Instr} {p : Part} (hp : p ∉ c.touches) : c.mask.testBit p.idx = false := by
  have hl : (Part.maskOf c.touches).testBit p.idx = false := by
    rw [Bool.eq_false_iff, ne_eq, Part.testBit_maskOf]
    rintro ⟨q, hq, he⟩
    exact hp (Part.idx_inj he ▸ hq)
  have hr : (bif c.mayReset then 33554432 else 0 : Nat).testBit p.idx = false := by
    cases c.mayReset with
    | false => exact Nat.zero_testBit _
    | true =>
      have he : (33554432 : Nat) = 2 ^ 25 := rfl
      rw [cond_true, he, Nat.testBit_two_pow, decide_eq_false_iff_not]
      exact fun e => p.idx_ne_reset e.symm
  rw [Instr.mask, Nat.testBit_or, hl, hr]
  rfl

/-- Bit 25 is in the mask of a command that may reset the module, and of no other. -/
theorem Instr.mask_reset {c : Instr} (h : c.mask.testBit 25 = true) : c.mayReset = true := by
  rw [Instr.mask, Nat.testBit_or, Bool.or_eq_true] at h
  obtain h | h := h
  · obtain ⟨p, -, hp⟩ := (Part.testBit_maskOf _ _).1 h
    exact absurd hp p.idx_ne_reset
  · cases hc : c.mayReset with
    | true => rfl
    | false => rw [hc, cond_false, Nat.zero_testBit] at h; cases h

/-! ### What a step is -/

/-- A tick with no command waiting, or the command at the front of the queue run on the state with the queue's rest. -/
theorem step_cases {s t : State} (h : step s = .next t) :
    (s.pending = [] ∧ t = tick s) ∨ ∃ c rest, s.pending = c :: rest ∧ exec c { s with pending := rest } = .next t := by
  unfold step at h
  split at h
  · next he => exact .inl ⟨he, (Host.Outcome.next.inj h).symm⟩
  · next c rest he => exact .inr ⟨c, rest, he, h⟩

/-- From the state with its front command taken, a step undoes nothing. -/
theorem step_keeps {s t : State} (h : step s = .next t) : Keeps false { s with pending := s.pending.tail } t := by
  obtain ⟨he, rfl⟩ | ⟨c, rest, he, hx⟩ := step_cases h
  · have hs : ({ s with pending := s.pending.tail } : State) = s := by rw [he, List.tail_nil, ← he]
    rw [hs]
    exact State.updTime_keeps _ (Keeps.refl _ s)
  · rw [he]
    exact exec_keeps c (Keeps.refl _ _) t hx

/-! ### The statements -/

/-- Settles O3: memory is kept canonical by whatever command runs (`exec_keeps`), and a tick does not reach it. -/
theorem everyStepKeepsMemoryCanonical : Obligations.EveryStepKeepsMemoryCanonical :=
  fun _ _ h hi => (step_keeps h).mem hi

/-- Settles O4: a step takes the front command, no command writes to the queue, and each only adds to what has left. -/
theorem queueIsFirstInFirstOut : Obligations.QueueIsFirstInFirstOut := fun s t h => by
  obtain ⟨new, hn⟩ : s.out <:+ t.out := (step_keeps h).sent
  exact ⟨(step_keeps h).queue, new, hn.symm⟩

/-- Settles O5: every command stays inside the mask of its parts (`exec_only`). -/
theorem commandsTouchOnlyTheirParts : Obligations.CommandsTouchOnlyTheirParts := fun c s t h hr =>
  (exec_only s c t h).changes (fun _ => Instr.mask_of_not_mem) (fun hb => hr (Instr.mask_reset hb))

/-- Settles O6: each clause is a field of `Keeps`. -/
theorem nothingFusedIsUndone : Obligations.NothingFusedIsUndone := fun _ _ h =>
  have k := step_keeps h
  ⟨k.grade, k.secMin, k.starts, k.boot, k.fenced⟩

/-- The clock alone changes in a tick. -/
theorem tick_onlyChanges (s : State) : onlyChanges s (tick s) [.time] :=
  (State.updTime_only (ps := 1) _ (Foot.refl _) (Only.refl _ s)).changes_list rfl nofun

/-- A fleet count that is not slewing advances by one. -/
theorem tick_fc {s : State} (hh : s.time.st ≠ 0) (hr : s.time.residual = 0) : (tick s).time.fc = (s.time.fc + 1) % 2 ^ 64 := by
  simp [tick, State.updTime, slewTick, hh, hr]

/-- A tick of local time passes whether or not a fleet count is held. -/
theorem tick_loc (s : State) : (tick s).time.loc = s.time.loc + 1 := by
  unfold tick State.updTime
  dsimp only
  split <;> rfl

/-- Settles O1: the step is its two cases, and the idle one is `tick`. -/
theorem stepRunsTheFrontCommand : Obligations.StepRunsTheFrontCommand := by
  refine ⟨fun c rest s => rfl, fun s he => ⟨tick s, ?_, tick_loc s, he, fun h0 => ?_, tick_fc, tick_onlyChanges s⟩⟩
  · rw [step, he]
  · simp [tick, State.updTime, h0]

/-- Settles O2: each field has its reset value. -/
theorem resetState : Obligations.ResetState :=
  ⟨Mem.wf_reset, rfl, rfl, rfl, rfl, rfl, fun _ => rfl, fun _ => rfl, fun _ _ => rfl, fun _ _ => rfl, rfl, rfl, rfl, rfl, rfl, rfl, fun _ => rfl⟩

end Machine
end Sys2Proof
end

section
/-!
The mailbox's commands: one shape for all of them (`exec_mailbox`), what a duplicate comes to (05 R127), and the queries of the host.
-/
namespace Sys2Proof.Machine

/-! ### The shape of a mailbox command -/

/-- Every mailbox command runs the entry of its ring pair under its opcode. -/
theorem exec_mailbox {c : Instr} {n op : Nat} (h : c.mailboxOp = some (n, op)) :
    ∃ f, ∀ s, exec c s = onRing n (s.runEntry n op f) := by
  cases c
  case identify | attach | ctxLoad | ctxArm | ctxHold | ctxResume | ctxTeardown | tensorWrite | tensorRead | dumpRequest | fingerprintGet
      | policySet | nop =>
    cases h
    exact ⟨_, fun _ => rfl⟩
  all_goals cases h

theorem onRing_absent {n : Nat} (h : 4 ≤ n) (r : State) : onRing n r = .fault (.noSuchUnit "mailbox ring pair") :=
  if_neg (Nat.not_lt.2 h)

/-! ### Duplicates (R127) -/

/-- A duplicate of a changing command takes the original's outcome, or waits for it. -/
theorem State.runEntry_dup {s : State} {n op : Nat} {a : Staged} {e : SeqEntry} (f : Staged → State → Option (Nat × Nat) × State)
    (hc : (s.ring n).cur = some a) (ho : a.e.opcode = op) (hd : a.dup = true) (hr : readOnlyOp op = false)
    (he : s.cached a.e.seq = some e) :
    s.runEntry n op f = match e.outcome with | some o => s.complete n a o.1 o.2 | none => s := by
  cases hout : e.outcome <;> simp [State.runEntry, hc, ho, hd, hr, he, hout]

/-- A pair that can take a completion stands before a host that can take a payload. -/
theorem State.posts_host {s : State} {n : Nat} (h : s.posts n = true) :
    s.mbx.linkUp = true ∧ s.mbx.busMaster = true ∧ s.mbx.hostLoss = false := by
  simp only [State.posts, Bool.and_eq_true, Bool.not_eq_true'] at h
  obtain ⟨⟨⟨⟨-, hl⟩, hb⟩, hh⟩, -⟩ := h
  exact ⟨hl, hb, hh⟩

/-! ### Commands that complete at once -/

/-- A command whose entry completes at once. -/
theorem exec_completes {s t : State} {n op : Nat} {a : Staged} {st r : Nat} {f : Staged → State → Option (Nat × Nat) × State}
    (hx : s.executes n op a) (hf : f a s = done st r t) : onRing n (s.runEntry n op f) = .next (t.complete n a st r) := by
  rw [onRing_lt _ hx.1, State.runEntry_executes f hx, hf]
  rfl

/-- A command whose entry completes at a later event. -/
theorem exec_waits {s t : State} {n op : Nat} {a : Staged} {f : Staged → State → Option (Nat × Nat) × State} (hx : s.executes n op a)
    (hf : f a s = later t) : onRing n (s.runEntry n op f) = .next t := by
  rw [onRing_lt _ hx.1, State.runEntry_executes f hx, hf]
  rfl

/-- A command that answers a payload and completes: both leave, and nothing else of the module changes but the mailbox. -/
theorem answered_payload {s : State} {n : Nat} (a : Staged) (st r : Nat) (b : List Byte) :
    completed s ((s.hostPayload a b).complete n a st r) n a st r ∧
    (s.mbx.linkUp = true ∧ s.mbx.busMaster = true ∧ s.mbx.hostLoss = false →
      sentBetween s ((s.hostPayload a b).complete n a st r) (.hostWrite a.e.payloadAddr b)) ∧
    ((s.hostPayload a b).complete n a st r).ctxs = s.ctxs ∧ ((s.hostPayload a b).complete n a st r).mem = s.mem ∧
    ((s.hostPayload a b).complete n a st r).id = s.id := by
  obtain ⟨o, e⟩ := s.hostPayload_fields a b
  have hm : (s.hostPayload a b).mbx = s.mbx := by rw [e]
  refine ⟨completed_of hm (s.hostPayload_suffix a b) n a st r, fun h => ?_, ?_, ?_, ?_⟩
  · exact (s.hostPayload_sent a b h).mono (State.complete_suffix _ n a st r)
  all_goals
    rw [e]
    simp

/-- Settles O10: `exec_mailbox` gives every mailbox command the one shape, and `State.runEntry_dup` what it does with a duplicate. -/
theorem duplicates : Obligations.Duplicates := by
  refine ⟨?outcome, ?waits, ?reads⟩
  case outcome =>
    intro c n op s a e o hm hn hc ho hd hr he hout
    obtain ⟨f, hf⟩ := exec_mailbox hm
    refine ⟨s.complete n a o.1 o.2, ?_, s.complete_sent n a o.1 o.2, s.complete_ctxs .., s.complete_mem .., s.complete_fab ..⟩
    rw [hf, onRing_lt _ hn, State.runEntry_dup f hc ho hd hr he, hout]
  case waits =>
    intro c n op s a e hm hn hc ho hd hr he hout
    obtain ⟨f, hf⟩ := exec_mailbox hm
    rw [hf, onRing_lt _ hn, State.runEntry_dup f hc ho hd hr he, hout]
  case reads =>
    intro s n a hn hc ho hd hp
    have hx : s.executes n 0x01 a := ⟨hn, hc, ho, by simp [readOnlyOp]⟩
    obtain ⟨hdone, hpay, -⟩ := answered_payload (s := s) (n := n) a stOk 0 (fitBytes 4096 (s.identity ++ s.configDigest))
    refine ⟨_, exec_completes hx rfl, hpay (State.posts_host hp), ?_⟩
    have hsent := hdone hp
    rwa [State.completion, hd] at hsent

/-! ### The queries -/

/-- The codes of a policy: 0 to 2, and 0xFF for none; the rest of PARAM is zero. -/
theorem policySet_completes {s : State} {n : Nat} {a : Staged} (hx : s.executes n 0x40 a) (hc : a.e.ctx < 16)
    (hs : (s.ctx a.e.ctx).st = .loaded ∨ (s.ctx a.e.ctx).st = .armed) (hp : a.par 32 1 ≤ 2 ∨ a.par 32 1 = 0xFF) (hz : a.par 33 31 = 0) :
    exec (.policySet n) s = .next ((s.updCtx a.e.ctx (fun c => { c with policySet := a.par 32 1 })).complete n a 0 0) := by
  have hx16 : ¬ 16 ≤ a.e.ctx := Nat.not_le.2 hc
  have hst : ¬ (!((s.ctx a.e.ctx).st == .loaded || (s.ctx a.e.ctx).st == .armed)) = true := by
    obtain hs | hs := hs <;> simp [hs]
  have hpar : ¬ ((2 < a.par 32 1 ∧ a.par 32 1 ≠ 0xFF) ∨ a.par 33 31 ≠ 0) := by omega
  exact exec_completes hx (by simp only [if_neg hx16, if_neg hst, if_neg hpar]; rfl)

/-- Settles O11: each query completes at once (`exec_completes`), with a payload where it answers one (`answered_payload`). -/
theorem hostQueriesComplete : Obligations.HostQueriesComplete := by
  refine ⟨?identify, ?attach, ?nop, ?fingerprint, ?fingerprintNone, ?policy⟩
  case identify =>
    intro s n a hx
    obtain ⟨o, e⟩ := s.hostPayload_fields a (fitBytes 4096 (s.identity ++ s.configDigest))
    obtain ⟨hdone, hpay, hctxs, hmem, hid⟩ := answered_payload (s := s) (n := n) a 0 0 (fitBytes 4096 (s.identity ++ s.configDigest))
    exact ⟨_, exec_completes hx rfl, hdone, hpay, hctxs, hmem, hid, by rw [e]; simp, by rw [e]; simp⟩
  case attach =>
    intro s n a hx
    exact ⟨_, exec_completes hx rfl, completed_of rfl List.suffix_rfl n a _ _, by simp, by simp, by simp, by simp, by simp, by simp⟩
  case nop =>
    intro s n a hx
    exact ⟨_, exec_completes hx rfl, completed_of rfl List.suffix_rfl n a _ _, by simp, by simp, by simp, by simp, by simp⟩
  case fingerprint =>
    intro s n a hx hc
    have h1 : ¬ a.e.ctx = 0xFFFF := by omega
    have h2 : ¬ 16 ≤ a.e.ctx := Nat.not_le.2 hc
    exact ⟨_, exec_completes hx (by simp only [if_neg h1, if_neg h2]; rfl), answered_payload a 0 0 _⟩
  case fingerprintNone =>
    intro s n a hx hc
    exact ⟨_, exec_completes hx (by simp only [if_pos hc]; rfl), answered_payload a 0 0 _⟩
  case policy =>
    intro s n a hx hc hs hp hz
    refine ⟨_, policySet_completes hx hc hs hp hz, ?_, ?_, fun y hy => ?_, ?_, ?_⟩
    · exact completed_of (s := s) (u := s.updCtx _ _) rfl List.suffix_rfl n a 0 0
    · rw [State.complete_ctx, State.ctx_updCtx_self]
    · rw [State.complete_ctx, State.ctx_updCtx_ne _ _ hy]
    · simp
    · simp

end Sys2Proof.Machine
end

section
/-!
Commands and the units they name: a command whose units exist goes on in every state, one that names an absent unit stops by name.
-/
namespace Sys2Proof.Machine

/-- The outcome is a next state. -/
def GoesOn (o : Host.Outcome State Fault Refusal) : Prop := ∃ t, o = .next t

theorem GoesOn.next (t : State) : GoesOn (.next t) := ⟨t, rfl⟩
theorem GoesOn.ite {c : Prop} [Decidable c] {a b : Host.Outcome State Fault Refusal} (ha : GoesOn a) (hb : GoesOn b) :
    GoesOn (if c then a else b) := by
  split
  · exact ha
  · exact hb
/-- Past the test of its units. -/
theorem GoesOn.past {c : Prop} [Decidable c] {a b : Host.Outcome State Fault Refusal} (hc : ¬ c) (hb : GoesOn b) :
    GoesOn (if c then a else b) := by
  rwa [if_neg hc]

theorem onRing_goesOn {n : Nat} (h : n < 4) (r : State) : GoesOn (onRing n r) := ⟨r, onRing_lt r h⟩
theorem onFabricPort_goesOn {p : Nat} (h : p < 32) (s : State) (f : State → State) : GoesOn (onFabricPort p s f) := ⟨f s, if_pos h⟩
theorem onEdgePort_goesOn {p : Nat} (h : 32 ≤ p) (h' : p < 36) (s : State) (f : State → State) : GoesOn (onEdgePort p s f) :=
  ⟨f s, if_pos ⟨h, h'⟩⟩
theorem onCluster_goesOn {x g : Nat} (hx : x < 16) (hg : g < numClusters) (r : State) : GoesOn (onCluster x g r) := ⟨r, if_pos ⟨hx, hg⟩⟩
theorem State.onCore_goesOn {c : CoreCmd} (h : c.wf = true) (s : State) (f : Ctx → OpDesc → State → State) : GoesOn (s.onCore c f) := by
  simp only [CoreCmd.wf, Bool.and_eq_true, decide_eq_true_eq] at h
  obtain ⟨⟨⟨hx, -⟩, hc⟩, hk⟩ := h
  have hu : ¬ (16 ≤ c.ctx ∨ slotsPerCluster ≤ c.slot ∨ 2 ^ 20 ≤ c.core) := by omega
  exact .past hu (.next _)

/-- The units Table 11.3 names are those its operand check admits. -/
theorem hasUnit_of_wf {u : HangUnit} (h : u.wf = true) : hasUnit u = true := by
  cases u <;> exact h

/-- The scrubbers of Table 4.5: 256 pseudo-channels, 16 far stores, 2^20 near stores. -/
theorem unitOk_of_lt {level unit : Nat} (hl : level < 3) (hu : unit < [256, 16, 2 ^ 20].getD level 0) : unitOk level unit = true := by
  obtain rfl | rfl | rfl : level = 0 ∨ level = 1 ∨ level = 2 := by omega
  all_goals exact decide_eq_true hu

theorem packetForward_goesOn {die inPort : Nat} (header : BitVec 512) (now : Nat) (s : State) (hd : die < 4) (hp : inPort < 35)
    (ho : 32 ≤ inPort ∨ inPort / 8 = die) : GoesOn (execPacketForward die inPort header now s) := by
  have h1 : ¬ 4 ≤ die := Nat.not_le.2 hd
  have h2 : ¬ (35 ≤ inPort ∨ (inPort < 32 ∧ inPort / 8 ≠ die)) := by omega
  refine .past h1 (.past h2 ?_)
  exact .ite (.next _) (.ite (.next _) (.ite (.next _) (.ite (.next _) (.ite (.next _) (.ite (.next _) (.next _))))))

theorem takeCopyComplete_goesOn (x : Nat) (s : State) : GoesOn (execTakeCopyComplete x s) := by
  unfold execTakeCopyComplete
  split <;> exact .next _

theorem restoreComplete_goesOn (x : Nat) (s : State) : GoesOn (execRestoreComplete x s) := by
  unfold execRestoreComplete
  split
  · exact .next _
  · exact .ite (.next _) (.next _)

theorem portStart_goesOn {p : Nat} (s : State) (hp : p < 36) : GoesOn (execPortStart p s) :=
  .past (Nat.not_le.2 hp) (.ite (.next _) (.ite (.ite (.next _) (.next _)) (.next _)))

theorem partnerReady_goesOn {p : Nat} (lanes : Nat) (s : State) (hp : p < 36) : GoesOn (execPartnerReady p lanes s) :=
  .past (Nat.not_le.2 hp) (.ite (.next _) (.ite (.next _) (.ite (.next _) (.next _))))

theorem lossOfSignal_goesOn {p lane : Nat} (s : State) (hp : p < 36) (hl : lane < 9) : GoesOn (execLossOfSignal p lane s) := by
  have hu : ¬ (9 ≤ lane ∨ 36 ≤ p) := by omega
  exact .past hu (.ite (.next _) (.next _))

theorem runEntry_goesOn {failed : List (Nat × Nat)} (s : State)
    (h : failed.all (fun e => decide (e.1 < numClusters) && decide (e.2 < slotsPerCluster)) = true) : GoesOn (execRunEntry failed s) := by
  have hu : ¬ failed.any (fun e => decide (numClusters ≤ e.1) || decide (slotsPerCluster ≤ e.2)) = true := by
    simp only [List.any_eq_true, Bool.or_eq_true, decide_eq_true_eq, not_exists, not_and, not_or, Nat.not_le]
    simp only [List.all_eq_true, Bool.and_eq_true, decide_eq_true_eq] at h
    exact h
  exact .past hu (.next _)

/-- Settles O7: the units a well-formed command names pass the test its meaning begins with; the commands that name none answer a state at
once. -/
theorem wellFormedCommandsGoOn : Obligations.WellFormedCommandsGoOn := by
  intro c s h
  change GoesOn (exec c s)
  cases c
  all_goals
    dsimp only [Instr.wf] at h
    dsimp only [exec]
    try simp only [Bool.and_eq_true, Bool.or_eq_true, decide_eq_true_eq, beq_iff_eq] at h
  case identify | attach | ctxLoad | ctxArm | ctxHold | ctxResume | ctxTeardown | tensorWrite | tensorRead | dumpRequest | fingerprintGet
      | policySet | nop | ringEnWrite => exact onRing_goesOn h _
  case commandAccept | sqDoorbell | cqHeadWrite => exact onRing_goesOn h.1 _
  case anch | mma | wait | send => exact State.onCore_goesOn h.1 s _
  case vec => exact State.onCore_goesOn h.1.1 s _
  case move => exact State.onCore_goesOn h.1.1.1 s _
  case operatorStart => exact onCluster_goesOn h.1.1 h.2 _
  case operatorComplete => exact onCluster_goesOn h.1.1 h.2 _
  case batchWaitExpiry => exact onCluster_goesOn (by decide) h _
  case sliceStreamDone => exact onCluster_goesOn (by decide) h.1 _
  case credit | ident | lsmFastRetrain | lsmFullRetrain | lsmWidth4 | lsmSpare | lsmGrant | lsmDone | nakRetry | portLcfTimeout
      | fastRetrainTimeout | equaliseDone | attemptTimeout | backoffExpiry | heldExpiry | heldSignalLoss | timeLcfSend | offerExpiry =>
    exact onFabricPort_goesOn h s _
  case alignDone | timeLcf => exact onFabricPort_goesOn h.1 s _
  case codewordFlagged => exact .past (by omega) (onFabricPort_goesOn (by omega) s _)
  case laneCeLimit | laneUeLimit => exact .past (by omega) (onFabricPort_goesOn h.1 s _)
  case edgeLinkUp | edgeLinkDown | ptpSyncSend | ptpAnnounceSend | ptpDelayReqSend | announceReceiptTimeout =>
    exact onEdgePort_goesOn h.1 h.2 s _
  case edgeFrameReceive | sync | followUp | delayResp | delayReq => exact onEdgePort_goesOn h.1.1 h.1.2 s _
  case announce => exact onEdgePort_goesOn h.1.1.1 h.1.1.2 s _
  case packetForward => exact packetForward_goesOn _ _ s h.1.1.1 h.1.1.2 h.1.2
  case crossingReserve | crossingReserveEnd => exact .past (by omega) (.next _)
  case routeBreakEffective | partitionRefillDone | dieLinkFail | calOwnAcquire | ledgerUpdate | vcoreUndervoltage | frequencyMargin
      | tjThrottle | tjTrip | railOvervoltage | railPowerGood | dma | xposeJobComplete => exact .past (by omega) (.next _)
  case calHalfFault => exact ⟨_, if_pos h.1⟩
  case hangWindowExpiry => exact .past (by simp [hasUnit_of_wf h]) (.next _)
  case actionBoundExpiry => exact .past (by simp [hasUnit_of_wf h.1]) (.next _)
  case comparatorRelease => exact .past (not_or.2 ⟨Nat.not_le.2 h.1, Nat.not_le.2 h.2⟩) (.next _)
  case phaseRetire => exact .past (not_or.2 ⟨Nat.not_le.2 h.1.1, Nat.not_le.2 h.1.2⟩) (.next _)
  case sampleMissed => exact .past (Nat.not_le.2 h) (.next _)
  case scrubSlot => exact .past (by simp [unitOk_of_lt h.1 h.2]) (.next _)
  case takeCopyComplete => exact takeCopyComplete_goesOn _ s
  case restoreComplete => exact restoreComplete_goesOn _ s
  case portStart => exact portStart_goesOn s h
  case partnerReady => exact partnerReady_goesOn _ s h.1
  case lossOfSignal => exact lossOfSignal_goesOn s h.1 h.2
  case runEntry => exact runEntry_goesOn s h
  all_goals exact .next _

/-- Settles O8: each meaning begins with the test of the units its operands name. -/
theorem absentUnitsStop : Obligations.AbsentUnitsStop := by
  refine ⟨fun c n op hm hn s => ?ring, fun s p h => if_neg (Nat.not_lt.2 h), fun s p up h => if_neg (by omega),
    fun s x g o h => if_neg (by simp only [numClusters]; omega), fun s p h => if_pos h, fun s h c hh => if_neg (Nat.not_lt.2 hh),
    fun s g h => if_pos (by omega)⟩
  obtain ⟨f, hf⟩ := exec_mailbox hm
  rw [hf, onRing_absent hn]

end Sys2Proof.Machine
end

section
/-!
The check column of a dense tile pass (02 R42, 10 R249): the check cell's sum is the sum of the row's cells whatever the elements, and the
comparison is on the sum of all cells, which no change of a single cell leaves as it was.
-/
namespace Sys2Proof

/-! ### One term -/

/-- The integer a pair adds to its cell. -/
def pairTerm (fa fb : Nat) (anchor : Int) (p : InElem × InElem) : Int := (arrayTerm (p.1.elem.val fa) (p.2.elem.val fb) anchor).1

/-- The flags a pair adds to its cell. -/
def pairFlags (fa fb : Nat) (anchor : Int) (p : InElem × InElem) : WFlags :=
  (prodFlags (p.1.elem.val fa) (p.2.elem.val fb)).or { inexact := (arrayTerm (p.1.elem.val fa) (p.2.elem.val fb) anchor).2 }

/-- An A element times a truncated B element is the term of their pair: both truncate B on the grid A leaves it (R39, R42). -/
theorem checkTerm_singleton (a b : Val) (anchor : Int) : checkTerm a [b] anchor = (arrayTerm a b anchor).1 := by
  cases a with
  | fin na ma qa =>
    cases b with
    | fin nb mb qb => cases na <;> cases nb <;> simp [checkTerm, truncAt, arrayTerm, Int.mul_neg]
    | _ => simp [checkTerm, truncAt, arrayTerm]
  | _ => cases b <;> rfl

/-- The check term is additive in the B elements. -/
theorem checkTerm_cons (a b : Val) (bs : List Val) (anchor : Int) :
    checkTerm a (b :: bs) anchor = checkTerm a [b] anchor + checkTerm a bs anchor := by
  cases a with
  | fin na ma qa => cases na <;> simp [checkTerm, Int.mul_add, Int.neg_add, Int.add_comm]
  | _ => rfl

theorem checkTerm_nil (a : Val) (anchor : Int) : checkTerm a [] anchor = 0 := by
  cases a with
  | fin na ma qa => cases na <;> simp [checkTerm]
  | _ => rfl

/-! ### Flags -/

theorem WFlags.clear_or (f : WFlags) : WFlags.clear.or f = f := by simp [WFlags.or, WFlags.clear]
theorem WFlags.or_clear (f : WFlags) : f.or WFlags.clear = f := by simp [WFlags.or, WFlags.clear]
theorem WFlags.or_assoc (f g h : WFlags) : (f.or g).or h = f.or (g.or h) := by simp [WFlags.or, Bool.or_assoc]

/-- Flags collected from a start are the start's with those collected from none. -/
theorem WFlags.foldl_or {α : Type} (g : α → WFlags) (l : List α) (f : WFlags) :
    l.foldl (fun f a => f.or (g a)) f = f.or (l.foldl (fun f a => f.or (g a)) WFlags.clear) := by
  induction l generalizing f with
  | nil => exact (WFlags.or_clear f).symm
  | cons a l ih => rw [List.foldl_cons, List.foldl_cons, ih, ih (WFlags.clear.or (g a)), WFlags.clear_or, WFlags.or_assoc]

/-! ### Sums -/

/-- Windows are added from any start. -/
theorem foldl_addWindow (cells : List Window) (z : Win96) :
    cells.foldl (fun a w => a + w.s) z = z + cells.foldl (fun a w => a + w.s) 0#96 := by
  induction cells generalizing z with
  | nil => simp
  | cons w cells ih => rw [List.foldl_cons, List.foldl_cons, ih, ih (0#96 + w.s), BitVec.zero_add, BitVec.add_assoc]

/-- A cell after its pairs: the sum of their terms, and their flags. -/
theorem foldl_addProd (fa fb : Nat) (ps : List (InElem × InElem)) (w : Window) :
    ps.foldl (fun w p => w.addProd (p.1.elem.val fa) (p.2.elem.val fb)) w =
      { s := w.s + BitVec.ofInt 96 (ps.map (pairTerm fa fb w.anchor)).sum, anchor := w.anchor,
        flags := ps.foldl (fun f p => f.or (pairFlags fa fb w.anchor p)) w.flags } := by
  induction ps generalizing w with
  | nil => simp
  | cons p ps ih =>
    rw [List.foldl_cons, ih]
    simp only [Window.addProd, List.map_cons, List.sum_cons, List.foldl_cons, BitVec.ofInt_add, BitVec.add_assoc]
    rfl

theorem Tile.cell_eq (t : Tile) (fa fb r j : Nat) (anchor : Int) :
    t.cell 0 fa fb r j anchor =
      { s := BitVec.ofInt 96 ((t.pairs 0 r j).map (pairTerm fa fb anchor)).sum, anchor,
        flags := (t.pairs 0 r j).foldl (fun f p => f.or (pairFlags fa fb anchor p)) WFlags.clear } := by
  rw [Tile.cell, foldl_addProd]
  simp [Window.clear, WFlags.clear]

/-- The sum of cells is the sum of their pairs' terms. -/
theorem Tile.sum_cells (t : Tile) (fa fb r : Nat) (anchor : Int) (js : List Nat) :
    (js.map (fun j => t.cell 0 fa fb r j anchor)).foldl (fun a w => a + w.s) 0#96 =
      BitVec.ofInt 96 (js.map (fun j => ((t.pairs 0 r j).map (pairTerm fa fb anchor)).sum)).sum := by
  induction js with
  | nil => rfl
  | cons j js ih => rw [List.map_cons, List.foldl_cons, foldl_addWindow, ih, t.cell_eq]; simp [BitVec.ofInt_add]

/-- The flags of cells are their pairs' flags, collected in one pass. -/
theorem Tile.flags_cells (t : Tile) (fa fb r : Nat) (anchor : Int) (js : List Nat) (f : WFlags) :
    (js.map (fun j => t.cell 0 fa fb r j anchor)).foldl (fun a w => a.or w.flags) f =
      js.foldl (fun f j => (t.pairs 0 r j).foldl (fun f p => f.or (pairFlags fa fb anchor p)) f) f := by
  induction js generalizing f with
  | nil => rfl
  | cons j js ih => rw [List.map_cons, List.foldl_cons, List.foldl_cons, ih, t.cell_eq, ← WFlags.foldl_or]

/-! ### The check cell -/

/-- The check cell's term of reduction index `e.2`, with `e.1` the A element's pair there. -/
def Tile.checkAt (t : Tile) (fa fb r : Nat) (anchor : Int) (js : List Nat) (e : (InElem × InElem) × Nat) : Int :=
  checkTerm (e.1.1.elem.val fa)
    (js.map (fun j => (((t.pairs 0 r j)[e.2]?).map (fun p => p.2.elem.val fb)).getD (.zero false))) anchor

/-- One column's share of the check terms is the sum of its pairs' terms. -/
theorem Tile.sum_checkAt_column (t : Tile) (fa fb r j i : Nat) (anchor : Int) (h : (t.pairs 0 r j).length = (t.pairs 0 r i).length) :
    ((t.pairs 0 r i).zipIdx.map (t.checkAt fa fb r anchor [j])).sum = ((t.pairs 0 r j).map (pairTerm fa fb anchor)).sum := by
  congr 1
  refine List.ext_getElem (by simp [h]) (fun n hn _ => ?_)
  have hi : n < (t.pairs 0 r i).length := by simpa using hn
  have hj : n < (t.pairs 0 r j).length := h ▸ hi
  have ha : ((t.pairs 0 r i)[n]).1 = ((t.pairs 0 r j)[n]).1 := by simp [Tile.pairs]
  simp [Tile.checkAt, List.getElem?_eq_getElem hj, checkTerm_singleton, pairTerm, ha]

theorem sum_map_zero {α : Type} (l : List α) : (l.map (fun _ => (0 : Int))).sum = 0 := by
  induction l with
  | nil => rfl
  | cons a l ih => rw [List.map_cons, List.sum_cons, ih, Int.add_zero]

theorem sum_map_add {α : Type} (l : List α) (f g : α → Int) : (l.map (fun a => f a + g a)).sum = (l.map f).sum + (l.map g).sum := by
  induction l with
  | nil => rfl
  | cons a l ih =>
    rw [List.map_cons, List.map_cons, List.map_cons, List.sum_cons, List.sum_cons, List.sum_cons, ih]
    omega

/-- The check terms of a row are the terms of all its cells: the order of the two sums is exchanged (R42). -/
theorem Tile.sum_checkAt (t : Tile) (fa fb r i : Nat) (anchor : Int) (js : List Nat)
    (h : ∀ j ∈ js, (t.pairs 0 r j).length = (t.pairs 0 r i).length) :
    ((t.pairs 0 r i).zipIdx.map (t.checkAt fa fb r anchor js)).sum =
      (js.map (fun j => ((t.pairs 0 r j).map (pairTerm fa fb anchor)).sum)).sum := by
  induction js with
  | nil =>
    have h0 : t.checkAt fa fb r anchor [] = fun _ => 0 := funext fun e => checkTerm_nil _ _
    rw [h0, sum_map_zero]
    rfl
  | cons j js ih =>
    have hsplit : t.checkAt fa fb r anchor (j :: js) = fun e => t.checkAt fa fb r anchor [j] e + t.checkAt fa fb r anchor js e :=
      funext fun e => checkTerm_cons _ _ _ _
    rw [hsplit, sum_map_add, t.sum_checkAt_column fa fb r j i anchor (h j List.mem_cons_self),
      ih (fun j hj => h j (List.mem_cons_of_mem _ hj)), List.map_cons, List.sum_cons]

theorem Tile.check_eq (t : Tile) (fa fb r : Nat) (anchor : Int) :
    t.check 0 fa fb r anchor =
      { s := BitVec.ofInt 96 ((t.pairs 0 r 0).zipIdx.map (t.checkAt fa fb r anchor (List.range t.bCols.length))).sum, anchor,
        flags := (List.range t.bCols.length).foldl
          (fun f j => (t.pairs 0 r j).foldl (fun f p => f.or (pairFlags fa fb anchor p)) f) WFlags.clear } := rfl

/-- Every cell of a dense row sums as many pairs as the row has elements. -/
theorem Tile.length_pairs (t : Tile) {r j k : Nat} (hr : (t.aRows.getD r []).length = k) (hb : ∀ b ∈ t.bCols, b.length = k)
    (hj : j < t.bCols.length) : (t.pairs 0 r j).length = k := by
  have hc : t.bCols.getD j [] ∈ t.bCols := by
    rw [List.getD_eq_getElem?_getD, List.getElem?_eq_getElem hj]
    exact List.getElem_mem hj
  have hz : t.pairs 0 r j = (t.aRows.getD r []).zip (t.bCols.getD j []) := rfl
  rw [hz, List.length_zip, hr, hb _ hc, Nat.min_self]

end Sys2Proof

namespace Sys2Proof.Machine

theorem checkDetail_eq_none {cells : List Window} {chk : Window} :
    checkDetail cells chk = none ↔
      chk.s - cells.foldl (fun a w => a + w.s) 0#96 = 0#96 ∧ cells.foldl (fun a w => a.or w.flags) WFlags.clear = chk.flags := by
  unfold checkDetail
  dsimp only
  split
  · next h => exact iff_of_true rfl h
  · next h => exact iff_of_false nofun h

/-- The cells' sum with one cell taken out. -/
theorem foldl_addWindow_split (l₁ l₂ : List Window) (w : Window) :
    (l₁ ++ w :: l₂).foldl (fun a w => a + w.s) 0#96 =
      (l₁.foldl (fun a w => a + w.s) 0#96 + l₂.foldl (fun a w => a + w.s) 0#96) + w.s := by
  rw [List.foldl_append, List.foldl_cons, foldl_addWindow, BitVec.add_assoc, BitVec.add_assoc, BitVec.add_comm w.s]

/-- Flipping some bits of a sum changes it. -/
theorem upset_ne {w : Window} {mask : Nat} (h : mask % 2 ^ 96 ≠ 0) : (w.upset mask).s ≠ w.s := fun he => by
  have hm : BitVec.ofNat 96 mask = 0#96 := by
    calc BitVec.ofNat 96 mask
      _ = w.s ^^^ (w.s ^^^ BitVec.ofNat 96 mask) := by rw [← BitVec.xor_assoc, BitVec.xor_self, BitVec.zero_xor]
      _ = 0#96 := by rw [show w.s ^^^ BitVec.ofNat 96 mask = w.s from he, BitVec.xor_self]
  exact h (by simpa using congrArg BitVec.toNat hm)

/-- Settles O21: the check cell sums the same terms as the row's cells (`Tile.sum_checkAt`), and a sum in which one summand changed is
another sum. -/
theorem checkColumnCatchesEveryCell : Obligations.CheckColumnCatchesEveryCell := by
  refine ⟨?passes, ?catches⟩
  case passes =>
    intro t fa fb r anchor k hr hb
    have hlen : ∀ j ∈ List.range t.bCols.length, (t.pairs 0 r j).length = (t.pairs 0 r 0).length := fun j hj => by
      have hj : j < t.bCols.length := List.mem_range.1 hj
      rw [t.length_pairs hr hb hj, t.length_pairs hr hb (Nat.zero_lt_of_lt hj)]
    rw [checkDetail_eq_none, t.sum_cells, t.flags_cells, t.check_eq, t.sum_checkAt fa fb r 0 anchor _ hlen]
    exact ⟨BitVec.sub_self _, rfl⟩
  case catches =>
    rintro cells chk w l₁ l₂ mask rfl h hm h'
    have hsum := (checkDetail_eq_none.1 h).1
    have hsum' := (checkDetail_eq_none.1 h').1
    rw [foldl_addWindow_split, BitVec.sub_eq_iff_eq_add, BitVec.zero_add] at hsum hsum'
    exact upset_ne hm (BitVec.add_right_inj _ |>.1 (hsum'.symm.trans hsum))

end Sys2Proof.Machine
end

section
/-!
What the port operations leave of a port (07): forwarding moves only the flow-control fields, and a port that leaves UP keeps its lanes.
-/
namespace Sys2Proof.Machine

-- Proofs elaborated one after another keep the whole text within the memory its compile is given.
set_option Elab.async false

/-! ### A reading of every port that stays -/

/-- A reading of ports is the same for every port of two states. -/
def SamePorts {α : Type} (π : Port → α) (s t : State) : Prop := ∀ q, π (t.port q) = π (s.port q)

section
variable {α : Type} {π : Port → α} {s t u : State}

theorem SamePorts.refl (s : State) : SamePorts π s s := fun _ => rfl
theorem SamePorts.trans (h : SamePorts π s t) (k : SamePorts π t u) : SamePorts π s u := fun q => (k q).trans (h q)
theorem SamePorts.of_ports (h : t.ports = s.ports) : SamePorts π s t := fun q => by rw [State.port, State.port, h]
theorem SamePorts.of_only (h : Only 2361183241430561191935 s t) : SamePorts π s t := .of_ports h.ports_eq
theorem SamePorts.updPort (s : State) (p : Nat) {f : Port → Port} (hf : ∀ q, π (f q) = π q := by intro _; rfl) :
    SamePorts π s (s.updPort p f) := fun q => by
  rw [State.port_updPort]
  split
  · next e => rw [e, hf]
  · rfl
theorem SamePorts.ite {c : Prop} [Decidable c] (ht : SamePorts π s t) (hu : SamePorts π s u) : SamePorts π s (if c then t else u) := by
  split
  · exact ht
  · exact hu
theorem SamePorts.forEach {β : Type} {f : State → β → State} (hf : ∀ u a, SamePorts π u (f u a)) (l : List β) (s : State) :
    SamePorts π s (Machine.forEach l s f) :=
  foldl_only (SamePorts π s) (fun u a h => h.trans (hf u a)) l (.refl s)
end

/-! ### Forwarding -/

/-- A port but for what forwarding moves: the sequence it sends next, and the flits sent and freed. -/
def Port.sansFlow (q : Port) : Port := { q with txSeq := 0, sent := [], freedOut := [] }

theorem SamePorts.of_flow {α : Type} {π : Port → α} {s t : State} (h : SamePorts Port.sansFlow s t) (hπ : ∀ q, π q.sansFlow = π q) :
    SamePorts π s t := fun q => by rw [← hπ, h q, hπ]

theorem State.freeInput_flow (s : State) (die inPort vc n : Nat) : SamePorts Port.sansFlow s (s.freeInput die inPort vc n) :=
  .ite (.updPort s _) (.ite (.of_ports rfl) (.ite (.of_ports rfl) (.refl s)))

theorem State.grant_flow (s : State) (die inPort w : Nat) (h : Hop) : SamePorts Port.sansFlow s (s.grant die inPort w h) := by
  unfold State.grant
  extract_lets vc n u marks w' entering p left sent served ended
  have hu : SamePorts Port.sansFlow s u := s.freeInput_flow die inPort vc n
  have hsent : SamePorts Port.sansFlow s sent := by
    have hp : SamePorts Port.sansFlow u left := fun q =>
      SamePorts.updPort (π := Port.sansFlow) u p
        (f := fun q => { q with sent := KMap.put q.sent vc ((KMap.getD q.sent vc 0 + n) % 2 ^ 16), txSeq := (q.txSeq + n) % 2 ^ 24 })
        (hf := fun _ => rfl) q
    exact hu.trans (.ite (.ite (hp.trans (.of_ports rfl)) hp) (.of_ports rfl))
  have hended : SamePorts Port.sansFlow s ended := hsent.trans (.ite (.of_ports rfl) (.of_ports rfl))
  split
  · exact hu.trans (.of_ports rfl)
  · exact hu.trans (.of_ports rfl)
  · exact hended.trans (.of_ports rfl)

theorem State.noteStall_ports (s : State) (die out : Nat) : (s.noteStall die out).ports = s.ports :=
  (s.noteStall_only die out (Foot.sub (by decide) (Foot.refl _)) (Only.refl _ s)).ports_eq

theorem State.drain_flow (n : Nat) (s : State) (die out : Nat) : SamePorts Port.sansFlow s (State.drain n s die out) := by
  induction n generalizing s with
  | zero => exact .of_ports (s.noteStall_ports die out)
  | succ n ih =>
    unfold State.drain
    split
    · exact .of_ports (s.noteStall_ports die out)
    · exact .trans (t := s.updFab _) (.of_ports rfl) (.trans (State.grant_flow _ _ _ _ _) (ih _))

theorem State.drainOut_flow (s : State) (die out : Nat) : SamePorts Port.sansFlow s (s.drainOut die out) := State.drain_flow _ s die out

theorem State.drainAll_flow (s : State) : SamePorts Port.sansFlow s s.drainAll := by
  unfold State.drainAll
  refine .forEach (fun u die => ?_) _ s
  exact .forEach (fun v out => v.drainOut_flow die out) _ u

/-- A bundle that dies or comes back is announced, and what waits is looked at again. -/
theorem State.noteBundle_flow (s : State) (v : Nat) : SamePorts Port.sansFlow s (s.noteBundle v) := by
  have announce (u : State) (b : Bool) : SamePorts Port.sansFlow u (u.announceBreak v b) :=
    .of_only (u.announceBreak_only v b (Foot.sub (by decide) (Foot.refl _)) (Only.refl _ u))
  have both (f : Fab → Fab) (b : Bool) : SamePorts Port.sansFlow s (((s.updFab f).announceBreak v b).drainAll) :=
    .trans (.trans (.of_ports rfl) (announce (s.updFab f) b)) (State.drainAll_flow _)
  unfold State.noteBundle
  split
  · exact .refl s
  · split
    · split
      · exact .refl s
      · exact both _ true
    · split
      · exact both _ false
      · exact .refl s

end Sys2Proof.Machine
end

section
/-!
Link errors and edge ports (07 R175, R177, R197, R200, R201, R203).
-/
namespace Sys2Proof.Machine

-- Proofs elaborated one after another keep the whole text within the memory its compile is given.
set_option Elab.async false

/-! ### Link control flits that leave -/

theorem State.sendLcf_sent (s : State) (p kind : Nat) (nak : Bool) (body : Nat) : lcfSent s (s.sendLcf p kind nak body) p :=
  ⟨_, s.emit_sent _⟩

theorem lcfSent.before {s t u : State} {p : Nat} (h : lcfSent t u p) (k : s.out <:+ t.out) : lcfSent s u p :=
  h.imp fun _ hf => hf.before k

@[simp] theorem State.sendLcf_ports (s : State) (p kind : Nat) (nak : Bool) (body : Nat) : (s.sendLcf p kind nak body).ports = s.ports := rfl
@[simp] theorem State.port_of_sendLcf (s : State) (p kind : Nat) (nak : Bool) (body q : Nat) : (s.sendLcf p kind nak body).port q = s.port q := rfl
@[simp] theorem State.ctr_of_sendLcf (s : State) (p kind : Nat) (nak : Bool) (body : Nat) (c : Ctr) (i : Nat) :
    (s.sendLcf p kind nak body).ctr c i = s.ctr c i := rfl

/-! ### Lanes -/

theorem State.loseFlits_lanesOk (s : State) (p : Nat) : SamePorts Port.lanesOk s (s.loseFlits p) := by
  unfold State.loseFlits
  extract_lets q n u
  have hu : SamePorts Port.lanesOk s u := .updPort s p
  split
  · exact hu
  · exact hu.trans (.of_only (State.reportLink_only _ _ (Foot.sub (by decide) (Foot.refl _))
      (State.bump_only _ _ _ (Foot.sub (by decide) (Foot.refl _)) (Only.refl _ u))))

theorem State.reselect_ports (s : State) (claim : Bool) : (s.reselect claim).ports = s.ports :=
  (s.reselect_only claim (Foot.sub (by decide) (Foot.refl _)) (Only.refl _ s)).ports_eq

/-- A port that trains anew: its flits are lost, and it begins in DETECT. -/
theorem State.toDetect_ports (s : State) (p : Nat) : (s.toDetect p).ports = ((s.loseFlits p).updPort p (fun q => { q with
    st := .detect, width := 0, peerSeen := false, heldAt := none, req := none, offer := none })).ports := State.reselect_ports _ _

theorem State.toDetect_lanesOk (s : State) (p : Nat) : SamePorts Port.lanesOk s (s.toDetect p) :=
  (s.loseFlits_lanesOk p).trans (.trans (.updPort _ p) (.of_ports (s.toDetect_ports p)))

theorem State.toDetect_st (s : State) (p : Nat) : ((s.toDetect p).port p).st = .detect := by
  rw [State.port, s.toDetect_ports, ← State.port, State.port_updPort_self]

theorem State.leaveUp_lanesOk (s : State) (p : Nat) : SamePorts Port.lanesOk s (s.leaveUp p) := by
  unfold State.leaveUp
  extract_lets q t exits b u
  have hu : SamePorts Port.lanesOk s u := by
    have held : SamePorts Port.lanesOk b (((b.loseFlits p).updPort p (fun q =>
        { q with st := .held, exits := [], heldAt := some t, width := 0, req := none }))) := (b.loseFlits_lanesOk p).trans (.updPort _ p)
    exact .trans (t := b) (.of_ports rfl) (.ite (held.trans (.of_ports rfl)) (.updPort b p))
  split
  · exact .refl s
  · exact hu.trans (((u.noteBundle_flow q.dir).of_flow fun _ => rfl).trans (.of_ports (State.reselect_ports _ _)))

/-- A port that leaves UP has left it, and trains again fast or is held. -/
def Left (p : Nat) (s : State) : Prop := (s.port p).st = .fastRetrain ∨ (s.port p).st = .held

theorem Left.record {p : Nat} {s : State} (h : Left p s) (v : Event) : Left p (s.record v) := h

theorem Left.fast (s : State) (p : Nat) (f : Port → Port) (hf : ∀ q, (f q).st = .fastRetrain := by intro _; rfl) : Left p (s.updPort p f) :=
  .inl ((congrArg Port.st (s.port_updPort_self p _)).trans (hf _))

theorem Left.held (s : State) (p : Nat) (f : Port → Port) (hf : ∀ q, (f q).st = .held := by intro _; rfl) : Left p (s.updPort p f) :=
  .inr ((congrArg Port.st (s.port_updPort_self p _)).trans (hf _))

theorem Left.ite {p : Nat} {c : Prop} [Decidable c] {s t : State} (hs : Left p s) (ht : Left p t) : Left p (if c then s else t) := by
  split
  · exact hs
  · exact ht

theorem Left.of_same {p : Nat} {s t : State} (hs : Left p s) (h : SamePorts Port.st s t) : Left p t := by
  rwa [Left, h p]

/-- A port that leaves UP trains again fast, or is held (R185, R197). -/
theorem State.leaveUp_st {s : State} {p : Nat} (h : (s.port p).st = .up) : Left p (s.leaveUp p) := by
  unfold State.leaveUp
  extract_lets q t exits b u
  have hu : Left p u := .ite (.record (.held _ p _) _) (.fast _ p _)
  have hend : SamePorts Port.st u (u.noteBundle q.dir).reselect :=
    ((u.noteBundle_flow q.dir).of_flow fun _ => rfl).trans (.of_ports (State.reselect_ports _ _))
  split
  · next hne => exact absurd h hne
  · exact hu.of_same hend
theorem State.laneCheck_lanesOk (s : State) (p : Nat) : SamePorts Port.lanesOk s (s.laneCheck p) := by
  have ask : SamePorts Port.lanesOk s (s.askWidth4 p) := by
    unfold State.askWidth4
    dsimp only
    split
    · exact s.leaveUp_lanesOk p
    · exact .trans (t := s.updPort p (fun q => { q with req := some { req := 3 } })) (.updPort s p) (.of_ports rfl)
  unfold State.laneCheck
  dsimp only
  split
  · exact .refl s
  · split
    · exact .refl s
    · split
      · split
        · have moved (f : Port → Port) (hf : ∀ q, (f q).lanesOk = q.lanesOk) (l : Nat) :
              SamePorts Port.lanesOk s (((s.updPort p f).setEvt .portStatus p 24).sendLsm p 4 l 0) :=
            .trans (.updPort s p hf) (.of_only (State.sendLsm_only _ _ _ _ (Foot.sub (by decide) (Foot.refl _))
              (State.setEvt_only _ _ _ (Foot.sub (by decide) (Foot.refl _)) (Only.refl _ _))))
          refine moved _ ?_ _
          exact fun _ => rfl
        · exact ask
      · exact ask

/-- A lane declared failing is not used any more; the port's other lanes are as they were (R177). -/
theorem State.laneFail_lanes (s : State) (p lane l : Nat) :
    ((s.laneFail p lane).port p).lanesOk.testBit l = if l = lane then false else (s.port p).lanesOk.testBit l := by
  unfold State.laneFail
  split
  · next h =>
    have h : (s.port p).lanesOk.testBit lane = false := by simpa using h
    split
    · next e => rw [e, h]
    · rfl
  · extract_lets u q
    have hu : (u.port p).lanesOk.testBit l = if l = lane then false else (s.port p).lanesOk.testBit l := by
      have e : (u.port p).lanesOk = setBit (s.port p).lanesOk lane false := by unfold u; simp
      rw [e, testBit_setBit]
    split
    · rw [u.laneCheck_lanesOk p p, hu]
    · split
      · rw [u.toDetect_lanesOk p p, hu]
      · exact hu

theorem State.laneFail_mem (s : State) (p lane : Nat) : (s.laneFail p lane).mem = s.mem :=
  (s.laneFail_only p lane (Foot.sub (by decide) (Foot.refl _)) (Only.refl _ s)).mem_eq

/-- The three events that declare a lane failing do so on the port as it was. -/
theorem laneEvent_fails {c : Instr} {p lane : Nat} (hc : c = .lossOfSignal p lane ∨ c = .laneCeLimit p lane ∨ c = .laneUeLimit p lane)
    (s : State) (hp : p < 32) (hl : lane < 9) : ∃ u : State, exec c s = .next (u.laneFail p lane) ∧ u.ports = s.ports ∧ u.mem = s.mem := by
  have hl9 : ¬ 9 ≤ lane := Nat.not_le.2 hl
  have hlp : ¬ (9 ≤ lane ∨ 36 ≤ p) := by omega
  obtain rfl | rfl | rfl := hc
  · refine ⟨s, ?_, rfl, rfl⟩
    change execLossOfSignal p lane s = _
    rw [execLossOfSignal, if_neg hlp, if_pos hp]
  · refine ⟨s.bump .prtFecCorr p 4097, ?_, rfl, rfl⟩
    change execLaneCeLimit p lane s = _
    rw [execLaneCeLimit, if_neg hl9, onFabricPort, if_pos hp]
  · refine ⟨s, ?_, rfl, rfl⟩
    change execLaneUeLimit p lane s = _
    rw [execLaneUeLimit, if_neg hl9, onFabricPort, if_pos hp]

/-! ### Errors of a link -/

/-- A codeword flagged on a port that is not waiting for a replay: the flit lost is asked for (R175). -/
theorem codewordFlagged_asks {s : State} {p lane first : Nat} {unc : Bool} (hp : p < 32) (hl : lane < 9) (hd : (s.port p).discarding = false)
    (h1 : (s.port p).st ≠ .dark) (h2 : (s.port p).st ≠ .unused) :
    exec (.codewordFlagged p lane first unc) s = .next (((if unc then s.bump .prtFecUncorr p else s).updPort p (fun q =>
      { q with rxSeq := first % 2 ^ 24, discarding := true, nakSent := 1 })).sendLcf p 0 true 0) := by
  have hl9 : ¬ 9 ≤ lane := Nat.not_le.2 hl
  have hport : (if unc then s.bump .prtFecUncorr p else s).port p = s.port p := by split <;> rfl
  have hgo : ¬ ((s.port p).discarding = true ∨ (s.port p).st = .dark ∨ (s.port p).st = .unused) := by simp [hd, h1, h2]
  change execCodewordFlagged p lane first unc s = _
  rw [execCodewordFlagged, if_neg hl9, onFabricPort, if_pos hp]
  dsimp only
  rw [hport, if_neg hgo]

/-- A replay that has not come is asked for again (R175). -/
theorem nakRetry_asks {s : State} {p : Nat} (hp : p < 32) (hd : (s.port p).discarding = true) (hn : (s.port p).nakSent < 7) :
    exec (.nakRetry p) s = .next ((s.updPort p (fun q => { q with nakSent := q.nakSent + 1 })).sendLcf p 0 true 0) := by
  have h8 : ¬ 8 ≤ (s.port p).nakSent + 1 := by omega
  change execNakRetry p s = _
  simp [execNakRetry, onFabricPort, hp, hd, h8]

/-- Settles O33: the flagged codeword and its repeats send one NAK each; the lane events share `State.laneFail`; a port that falls silent
trains anew, from DETECT or fast. -/
theorem linkErrorsComplete : Obligations.LinkErrorsComplete := by
  refine ⟨?flagged, ?again, ?lane, ?counted, ?edge, ?silent, ?leaves, ?failed⟩
  case flagged =>
    intro s p lane first unc hp hl hd h1 h2
    refine ⟨_, codewordFlagged_asks hp hl hd h1 h2, ?_, ?_, ?_, (State.sendLcf_sent _ _ _ _ _).before ?_, ?_, ?_⟩
    · simp
    · simp
    · cases unc <;> simp
    · cases unc <;> exact List.suffix_rfl
    · intro q hq
      rw [State.port_of_sendLcf, State.port_updPort_ne _ _ hq]
      cases unc <;> rfl
    · cases unc
      · rfl
      · exact State.ctr_bump_self s .prtFecUncorr p 1
  case again =>
    intro s p hp hd hn
    exact ⟨_, nakRetry_asks hp hd hn, by simp, by simp, (State.sendLcf_sent _ _ _ _ _).before List.suffix_rfl⟩
  case lane =>
    intro c p lane hc s hp hl
    obtain ⟨u, he, hports, hmem⟩ := laneEvent_fails hc s hp hl
    have hu : u.port p = s.port p := by rw [State.port, State.port, hports]
    refine ⟨_, he, ?_, fun l hl => ?_, by rw [State.laneFail_mem, hmem]⟩
    · rw [State.laneFail_lanes, if_pos rfl]
    · rw [State.laneFail_lanes, if_neg hl, hu]
  case counted =>
    intro s p lane hp hl hb
    have hl9 : ¬ 9 ≤ lane := Nat.not_le.2 hl
    refine ⟨s.bump .prtFecCorr p 4097, ?_, State.ctr_bump_self s .prtFecCorr p 4097, rfl⟩
    change execLaneCeLimit p lane s = _
    simp [execLaneCeLimit, onFabricPort, State.laneFail, hl9, hp, hb]
  case edge =>
    intro s p lane h1 h2 hl hup
    have hlp : ¬ (9 ≤ lane ∨ 36 ≤ p) := by omega
    have hp : ¬ p < 32 := Nat.not_lt.2 h1
    refine ⟨s.updPort p (fun q => { q with st := .detect, hasAddr := false }), ?_, by simp, by simp, fun q hq => State.port_updPort_ne s _ hq⟩
    change execLossOfSignal p lane s = _
    rw [execLossOfSignal, if_neg hlp, if_neg hp, if_pos (.inl hup)]
  case silent =>
    intro s p hp hm
    refine ⟨s.toDetect p, ?_, s.toDetect_st p, (s.toDetect_only p (Foot.sub (by decide) (Foot.refl _)) (Only.refl _ s)).mem_eq⟩
    change execPortLcfTimeout p s = _
    rw [execPortLcfTimeout, onFabricPort, if_pos hp, if_pos hm]
  case leaves =>
    intro s p hp hup
    refine ⟨s.leaveUp p, ?_, State.leaveUp_st hup⟩
    change execPortLcfTimeout p s = _
    rw [execPortLcfTimeout, onFabricPort, if_pos hp, if_neg (by rw [hup]; decide)]
  case failed =>
    intro s p hp hf
    refine ⟨s.toDetect p, ?_, s.toDetect_st p, (s.toDetect_only p (Foot.sub (by decide) (Foot.refl _)) (Only.refl _ s)).mem_eq⟩
    change execFastRetrainTimeout p s = _
    rw [execFastRetrainTimeout, onFabricPort, if_pos hp, if_pos hf]

/-! ### Edge ports -/

/-- Settles O35: each event writes the port's own record; what the address check records and what waits for the Vent leave the ports alone. -/
theorem edgePortsComplete : Obligations.EdgePortsComplete := by
  refine ⟨?up, ?down, ?drops, ?keeps⟩
  case up =>
    intro s p dup h1 h2 hst
    have hgo : ¬ (!((s.port p).st == .align || (s.port p).st == .detect)) = true := by
      obtain hst | hst := hst <;> simp [hst]
    let u := s.updPort p (fun q => { q with st := .up, width := 8, hasAddr := !dup && s.cfg.edgeHolds (p - 32) })
    have key : ∃ t, exec (.edgeLinkUp p dup) s = .next t ∧ ∀ ps, Foot 14876688 ps → Only ps u t := by
      change ∃ t, execEdgeLinkUp p dup s = .next t ∧ _
      rw [execEdgeLinkUp, onEdgePort, if_pos ⟨h1, h2⟩, if_neg hgo]
      exact ⟨_, rfl, fun ps hps => Only.ite (fun _ => u.record_only _ (Foot.sub (by decide) hps) (Only.refl _ u))
        (fun _ => u.flushVent_only (Foot.sub (by decide) hps) (Only.refl _ u))⟩
    obtain ⟨t, ht, only⟩ := key
    have hports : t.ports = u.ports := (only _ (Foot.sub (by decide) (Foot.refl _))).ports_eq
    have hctxs : t.ctxs = s.ctxs := (only _ (Foot.sub (by decide) (Foot.refl _))).ctxs_eq
    have hport (q : Nat) : t.port q = u.port q := by rw [State.port, hports, ← State.port]
    refine ⟨t, ht, ?_, ?_, ?_, fun q hq => (hport q).trans (State.port_updPort_ne s _ hq), hctxs⟩ <;> simp [hport, u]
  case down =>
    intro s p h1 h2 hup
    refine ⟨s.updPort p (fun q => { q with st := .detect, width := 0, hasAddr := false }), ?_, by simp, by simp,
      fun q hq => State.port_updPort_ne s _ hq, rfl⟩
    change execEdgeLinkDown p s = _
    rw [execEdgeLinkDown, onEdgePort, if_pos ⟨h1, h2⟩, if_pos hup]
  case drops =>
    intro s p f h1 h2 hup hk
    refine ⟨s.bump .prtEdgeDrop p, ?_, State.ctr_bump_self s .prtEdgeDrop p 1, rfl, rfl⟩
    change execEdgeFrameReceive p f s = _
    simp [execEdgeFrameReceive, onEdgePort, h1, h2, hup, hk]
  case keeps =>
    intro s p f h1 h2 hk
    change execEdgeFrameReceive p f s = _
    simp [execEdgeFrameReceive, onEdgePort, h1, h2, hk]

end Sys2Proof.Machine
end

section
/-!
MCTP control, PLDM and its register blocks, and the SPDM responder (16 R407, R410, R413, R415, R416).
-/
namespace Sys2Proof.Machine

-- Proofs elaborated one after another keep the whole text within the memory its compile is given.
set_option Elab.async false

/-! ### Answers -/

theorem State.control_sent (s : State) (r : Req) (c : Nat) (d : List Byte) : sentBetween s (s.control r c d) (.mctp r 0x00 (leBytes 1 c ++ d)) :=
  s.emit_sent _

theorem State.pldm_sent (s : State) (r : Req) (c : Nat) (d : List Byte) : sentBetween s (s.pldm r c d) (.mctp r 0x01 (leBytes 1 c ++ d)) :=
  s.emit_sent _

theorem State.spdm_sent (s : State) (r : Req) (code p1 p2 : Nat) (d : List Byte) :
    sentBetween s (s.spdm r code p1 p2 d) (.mctp r 0x05 ([0x13#8] ++ leBytes 1 code ++ leBytes 1 p1 ++ leBytes 1 p2 ++ d)) := s.emit_sent _

@[simp] theorem State.pldm_port (s : State) (r : Req) (c : Nat) (d : List Byte) (p : Nat) : (s.pldm r c d).port p = s.port p := rfl
@[simp] theorem State.pldm_evBits (s : State) (r : Req) (c : Nat) (d : List Byte) (q : Reg) (i : Nat) :
    (s.pldm r c d).evBits q i = s.evBits q i := rfl
theorem State.pldm_suffix (s : State) (r : Req) (c : Nat) (d : List Byte) : s.out <:+ (s.pldm r c d).out := ⟨[_], rfl⟩

/-! ### Gates of PLDM (R407) -/

theorem State.pldmBase_served {s : State} {r : Req} (h : s.reached r = true) (hb : s.id.cal ≠ .boot) (f : State → State) : s.pldmBase r f = f s := by
  simp [State.pldmBase, h, hb]

theorem State.pldmGate_run {s : State} {r : Req} (h : s.reached r = true) (hr : s.id.cal = .run) (f : State → State) : s.pldmGate r f = f s := by
  simp [State.pldmGate, h, hr]

theorem State.pldmGate_init {s : State} {r : Req} (h : s.reached r = true) (hi : s.id.cal = .init) (f : State → State) : s.pldmGate r f = s.pldm r 4 [] := by
  simp [State.pldmGate, h, hi]

/-! ### Register blocks (R416) -/

theorem Reg.key_ne {q r : Reg} {i j : Nat} (hi : i < 2 ^ 16) (hj : j < 2 ^ 16) (h : (q, i) ≠ (r, j)) : q.key i ≠ r.key j := by
  intro e
  have e' : q.ctorIdx = r.ctorIdx ∧ i = j := by simp only [Reg.key] at e; omega
  exact h (by rw [e'.2, ← Reg.ofNat_ctorIdx q, e'.1, Reg.ofNat_ctorIdx])

theorem State.w1c_evBits_ne (s : State) {q r : Reg} {i j : Nat} (m : Nat) (hi : i < 2 ^ 16) (hj : j < 2 ^ 16) (h : (q, i) ≠ (r, j)) :
    (s.w1c r j m).evBits q i = s.evBits q i := KMap.getD_put_ne _ _ _ (Reg.key_ne hi hj h)

/-- A block with a W1C register has it at its head, four bytes wide. -/
theorem State.blockItems_head {s : State} {b i : Nat} {q : Reg} {l : List (Nat × Nat)} (hq : blockReg b = some q) (hl : s.blockItems b i = some l) :
    ∃ v rest, l = (32, v) :: rest := by
  unfold blockReg at hq
  split at hq <;> first | cases hq; done | skip
  all_goals
    simp only [State.blockItems, Option.ite_none_right_eq_some, Option.some.injEq] at hl
    exact ⟨_, _, hl.2.symm⟩

/-- Settles O58: the block's bytes are answered, and the write of ones clears the bits of the block's own register at its head. -/
theorem registerBlocksReadAndClear : Obligations.RegisterBlocksReadAndClear := by
  refine ⟨?read, ?readAbsent, ?clear, ?clearAbsent⟩
  case read =>
    intro s r b i off n l hr hc hl h1 h2 h3
    refine ⟨s.pldm r 0 (slice (blockBytesOf l) off n), ?_, s.pldm_sent r 0 _, rfl⟩
    change execRegRead r b i off n s = _
    have hn : ¬ (n = 0 ∨ 256 < n ∨ (blockBytesOf l).length < off + n) := by omega
    rw [execRegRead, State.pldmGate_run hr hc]
    simp only [hl, if_neg hn]
  case readAbsent =>
    intro s r b i off n hr hc hl
    refine ⟨s.pldm r 2 [], ?_, s.pldm_sent r 2 _, rfl⟩
    change execRegRead r b i off n s = _
    rw [execRegRead, State.pldmGate_run hr hc]
    simp only [hl]
  case clear =>
    intro s r b i mask l q hr hc hl hq
    refine ⟨(s.w1c q i mask).pldm r 0 [], ?_, fun k hk => ?_, fun q' i' hi hi' hne => ?_, rfl⟩
    · obtain ⟨v, rest, rfl⟩ := State.blockItems_head hq hl
      have hlen : ¬ (0 % 4 ≠ 0 ∨ (blockBytesOf ((32, v) :: rest)).length ≤ 0) := by
        simp [blockBytesOf, leBytes, ceilDiv]
      change execRegW1c r b i 0 mask s = _
      rw [execRegW1c, State.pldmGate_run hr hc]
      simp only [hl, hq, if_neg hlen, if_true]
    · exact s.w1c_bit q i _ k hk
    · exact s.w1c_evBits_ne _ hi' hi hne
  case clearAbsent =>
    intro s r b i off mask hr hc hl
    refine ⟨s.pldm r 2 [], ?_, rfl⟩
    change execRegW1c r b i off mask s = _
    rw [execRegW1c, State.pldmGate_run hr hc]
    simp only [hl]

/-! ### MCTP control and PLDM -/

/-- Settles O57: each request passes its gate and is answered, or acts on the port or the alignment it names. -/
theorem controlAndPldmComplete : Obligations.ControlAndPldmComplete := by
  refine ⟨?setEid, ?getEid, ?versions, ?types, ?vendors, ?address, ?base, ?run, ?early⟩
  case setEid =>
    intro s b e hr h0 h1
    have he : ¬ (e = 0 ∨ 255 ≤ e) := by omega
    refine ⟨(s.updMgmt (fun m => if b = 0 then { m with eidI3c := e } else { m with eidVdm := e })).control (busOwner b) 0 ([0#8] ++ leBytes 1 e ++ [0#8]),
      ?_, ?_, fun c hc => ?_, ?_⟩
    · change execSetEndpointId b e s = _
      simp only [execSetEndpointId, hr, if_neg he, Bool.not_true, Bool.false_eq_true, if_false]
    · by_cases hb : b = 0 <;> simp [State.control, State.emit, State.updMgmt, Mgmt.eid, hb]
    · by_cases hb : b = 0 <;> simp_all [State.control, State.emit, State.updMgmt, Mgmt.eid]
    · by_cases hb : b = 0 <;> simp [State.control, State.emit, State.updMgmt, hb]
  case getEid =>
    intro s b hr
    refine ⟨_, ?_, s.control_sent _ _ _, rfl⟩
    change execGetEndpointId b s = _
    simp only [execGetEndpointId, hr, Bool.not_true, Bool.false_eq_true, if_false]
  case versions =>
    intro s r ty hr hty
    refine ⟨_, ?_, s.control_sent _ _ _⟩
    change execGetMctpVersionSupport r ty s = _
    simp only [execGetMctpVersionSupport, hr, List.contains_iff_mem.2 hty, Bool.not_true, Bool.true_or, Bool.false_eq_true, if_false, if_true]
  case types =>
    intro s r hr
    refine ⟨_, ?_, s.control_sent _ _ _⟩
    change execGetMessageTypeSupport r s = _
    simp only [execGetMessageTypeSupport, hr, Bool.not_true, Bool.false_eq_true, if_false]
    rfl
  case vendors =>
    intro s r hr
    refine ⟨_, ?_, s.control_sent _ _ _⟩
    change execGetVendorDefinedMessageSupport r 0 s = _
    simp only [execGetVendorDefinedMessageSupport, hr, Bool.not_true, Bool.false_eq_true, if_false, if_true]
  case address =>
    intro s a hs
    refine ⟨s.updMgmt (fun m => { m with i3cAddr := some a }), ?_, rfl, rfl⟩
    change execDynamicAddressAssignment a s = _
    simp only [execDynamicAddressAssignment, hs, Bool.not_true, Bool.false_eq_true, if_false]
  case base =>
    intro s r hr hb
    refine ⟨?_, ?_, fun ty hty => ?_, fun ty hty => ?_⟩
    · refine ⟨_, ?_, s.pldm_sent r _ _, rfl⟩
      change execGetTid r s = _
      rw [execGetTid, State.pldmBase_served hr hb]
    · refine ⟨_, ?_, s.pldm_sent r _ _⟩
      change execGetPldmTypes r s = _
      rw [execGetPldmTypes, State.pldmBase_served hr hb]
      rfl
    · refine ⟨_, ?_, s.pldm_sent r _ _⟩
      change execGetPldmVersion r ty s = _
      rw [execGetPldmVersion, State.pldmBase_served hr hb, if_pos (List.contains_iff_mem.2 hty)]
    · refine ⟨_, ?_, s.pldm_sent r _ _⟩
      change execGetPldmCommands r ty s = _
      rw [execGetPldmCommands, State.pldmBase_served hr hb, if_pos (List.contains_iff_mem.2 hty)]
  case run =>
    intro s r hr hc
    refine ⟨fun h => ?pdr, fun n => ?sensor, fun n => ?stateSensor, fun p hp hup => ?asks, fun p hp hm => ?trains, fun p hp hh ha => ?releases,
      fun p hp hh => ?stays, fun h1 h2 h3 h4 h5 => ?aligns⟩
    case pdr =>
      refine ⟨_, ?_, s.pldm_sent r _ _⟩
      change execGetPdr r h s = _
      rw [execGetPdr, State.pldmGate_run hr hc]
    case sensor =>
      change ∃ t, execGetSensorReading r n s = .next t ∧ _
      rw [execGetSensorReading, State.pldmGate_run hr hc]
      refine ⟨_, rfl, ?_, fun hn => ?_, fun q v hq hv => ?_⟩
      · cases Config.numericSensor n with
        | none => rfl
        | some q => cases h : (s.sensorValue q).isNone <;> simp only [h] <;> rfl
      · simp only [hn]
        exact s.pldm_sent r _ _
      · simp only [hq, hv]
        exact s.pldm_sent r _ _
    case stateSensor =>
      change ∃ t, execGetStateSensorReadings r n s = .next t ∧ _
      rw [execGetStateSensorReadings, State.pldmGate_run hr hc]
      refine ⟨_, rfl, ?_, fun hn => ?_, fun p hp => ?_⟩
      · cases Config.stateSensor n <;> rfl
      · simp only [hn, hc]
        exact s.pldm_sent r _ _
      · simp only [hp]
        exact s.pldm_sent r _ _
    case asks =>
      let u := (s.updPort p (fun q => { q with req := some { req := 2 } }))
      refine ⟨(u.sendLsm p 2 0 0).pldm r 0 [], ?_, by simp [State.sendLsm, u], (lcfSent.before (u.sendLcf_sent p 2 false _) List.suffix_rfl).imp
        fun f hf => hf.mono (State.pldm_suffix _ r 0 [])⟩
      change execPldmFullRetrain r p s = _
      rw [execPldmFullRetrain, State.pldmGate_run hr hc, if_neg (Nat.not_le.2 hp)]
      simp only [hup]
      rfl
    case trains =>
      refine ⟨(s.toDetect p).pldm r 0 [], ?_, by rw [State.pldm_port, State.toDetect_st]⟩
      change execPldmFullRetrain r p s = _
      rw [execPldmFullRetrain, State.pldmGate_run hr hc, if_neg (Nat.not_le.2 hp)]
      simp only [hm]
    case releases =>
      refine ⟨(s.toDetect p).pldm r 0 [], ?_, by rw [State.pldm_port, State.toDetect_st]⟩
      change execReleaseHold r p s = _
      rw [execReleaseHold, State.pldmGate_run hr hc, if_neg (Nat.not_le.2 hp), if_pos ⟨hh, Option.isSome_iff_ne_none.2 ha⟩]
    case stays =>
      refine ⟨s.pldm r 0 [], ?_, rfl, s.pldm_sent r 0 []⟩
      change execReleaseHold r p s = _
      rw [execReleaseHold, State.pldmGate_run hr hc, if_neg (Nat.not_le.2 hp), if_neg fun h => hh h.1]
    case aligns =>
      let u := s.updDet (fun d => { d with ta := some (roundUp (s.time.fc + 100000) alignQuantum), phase := 1 })
      refine ⟨u.pldm r 0 [], ?_, rfl, h3, (u.pldm_sent r 0 []).before List.suffix_rfl⟩
      change execAlignRetry r s = _
      rw [execAlignRetry, State.pldmGate_run hr hc, if_pos ⟨h1, h2, h3, h4⟩, State.chooseAlign, h5]
  case early =>
    intro s r hr hi c hc
    refine ⟨s.pldm r 4 [], ?_, rfl, rfl, s.pldm_sent r 4 []⟩
    obtain rfl | ⟨h, rfl⟩ | ⟨p, rfl⟩ := hc
    · change execAlignRetry r s = _
      rw [execAlignRetry, State.pldmGate_init hr hi]
    · change execGetPdr r h s = _
      rw [execGetPdr, State.pldmGate_init hr hi]
    · change execReleaseHold r p s = _
      rw [execReleaseHold, State.pldmGate_init hr hi]

end Sys2Proof.Machine
end

section
/-!
The SPDM responder (16 R407, R409, R410).
-/
namespace Sys2Proof.Machine

-- Proofs elaborated one after another keep the whole text within the memory its compile is given.
set_option Elab.async false

/-! ### Connections -/

theorem State.setConn_conn (s : State) (r : Req) (c : SpdmConn) : (s.setConn r c).conn r = c := KMap.getD_put_self _ _ _ _

theorem State.spdmStep_phase (s : State) (r : Req) (ph q : Nat) (b : List Byte) (code p1 p2 : Nat) (d : List Byte) :
    ((s.spdmStep r ph q b code p1 p2 d).conn r).phase = ph := congrArg SpdmConn.phase (s.setConn_conn r _)

theorem State.spdmStep_sent (s : State) (r : Req) (ph q : Nat) (b : List Byte) (code p1 p2 : Nat) (d : List Byte) :
    sentBetween s (s.spdmStep r ph q b code p1 p2 d) (.mctp r 0x05 ([0x13#8] ++ leBytes 1 code ++ leBytes 1 p1 ++ leBytes 1 p2 ++ d)) :=
  (State.spdm_sent _ r code p1 p2 d).before List.suffix_rfl

/-- A request of a reached requester whose connection has come far enough. -/
theorem State.spdmIn_at {s : State} {r : Req} {ph : Nat} (h : s.reached r = true) (hp : ph ≤ (s.conn r).phase) (f : SpdmConn → State → State) :
    s.spdmIn r ph f = f (s.conn r) s := by
  rw [State.spdmIn, h, if_neg (by decide), if_neg (Nat.not_lt.2 hp)]

theorem State.spdmLate_at {s : State} {r : Req} {ph : Nat} (q : Nat) (h : s.reached r = true) (hc : s.id.cal = .run) (hp : ph ≤ (s.conn r).phase)
    (f : SpdmConn → State → State) : s.spdmLate r q ph f = f (s.conn r) s := by
  rw [State.spdmLate, hc, if_neg (by simp), State.spdmIn_at h hp]

/-! ### Sessions -/

theorem State.sessionOf_mem {s : State} {r : Req} {k : Nat} {x : Session} (h : s.sessionOf r k = some x) : x ∈ s.mgmt.sessions ∧ x.id = k := by
  refine ⟨List.mem_of_find?_eq_some h, ?_⟩
  have hx := List.find?_some h
  simp only [Bool.and_eq_true, beq_iff_eq] at hx
  exact hx.1.1

theorem State.inSpdmSession_at {s : State} {r : Req} {k : Nat} {x : Session} (h : s.reached r = true) (hs : s.sessionOf r k = some x)
    (he : x.established = true) (f : State → State) : s.inSpdmSession r k f = f s := by
  simp [State.inSpdmSession, h, hs, he]

/-- Sessions after an update of those of one ID. -/
theorem State.mem_updSession {s : State} {k : Nat} {f : Session → Session} {y : Session} :
    y ∈ (s.updSession k f).mgmt.sessions ↔ ∃ x ∈ s.mgmt.sessions, (if x.id = k then f x else x) = y := List.mem_map

/-- The hint of RESPOND_IF_READY lies between 1,000 and 65,535 µs (R407). -/
theorem State.hint_range (s : State) : 1000 ≤ s.hint.1 ∧ s.hint.1 ≤ 65535 := by
  have : s.fresh.1 % 64536 < 64536 := Nat.mod_lt _ (by decide)
  simp only [State.hint]
  omega

theorem finish_does {s : State} {r : Req} {k : Nat} {x : Session} (h : s.reached r = true) (hs : s.sessionOf r k = some x) (he : x.established = false)
    (b : List Byte) : exec (.finish r k b) s = .next (if Config.finishOk k b then
      (s.updSession k (fun x => { x with established := true })).spdm r 0x65 0 0 (Config.spdmBody 0x65 b)
      else (s.updMgmt (fun m => { m with sessions := m.sessions.filter (fun x => x.id != k) })).spdmError r 6) := by
  change execFinish r k b s = _
  simp [execFinish, h, hs, he]

/-- Settles O59: each request passes its gate; its answer goes out and the connection is in the phase the row names. -/
theorem spdmResponderCompletes : Obligations.SpdmResponderCompletes := by
  refine ⟨?version, ?capabilities, ?algorithms, ?digests, ?certificate, ?challenge, ?measurements, ?exchange, ?finish, ?update, ?ends, ?ready, ?notReady⟩
  case version =>
    intro s r hr
    refine ⟨_, ?_, State.spdmStep_phase (s.setConn r SpdmConn.reset) r 1 0x84 [] 0x04 0 0 [0#8, 1#8, 0#8, 0x13#8],
      (State.spdmStep_sent _ r 1 0x84 [] 0x04 0 0 _).before List.suffix_rfl, rfl⟩
    change execGetVersion r s = _
    simp [execGetVersion, hr]
  case capabilities =>
    intro s r b hr hp
    refine ⟨_, ?_, s.spdmStep_phase r 2 0xE1 b 0x61 0 0 ([0#8] ++ Config.spdmBody 0x61 [] ++ leBytes 4 capFlags)⟩
    change execGetCapabilities r b s = _
    rw [execGetCapabilities, State.spdmIn_at hr (Nat.le_of_eq hp.symm), if_neg (Classical.not_not.2 hp)]
  case algorithms =>
    intro s r b hr hp
    refine ⟨_, ?_, s.spdmStep_phase r 3 0xE3 b 0x63 0 0 (Config.spdmBody 0x63 b)⟩
    change execNegotiateAlgorithms r b s = _
    rw [execNegotiateAlgorithms, State.spdmIn_at hr (Nat.le_of_eq hp.symm), if_neg (Classical.not_not.2 hp)]
  case digests =>
    intro s r hr hp hc
    refine ⟨_, ?_, s.spdmStep_phase r (max 4 (s.conn r).phase) 0x81 [] 0x01 0 3 (sha384 (s.chain 0) ++ sha384 (s.chain 1)),
      s.spdmStep_sent r (max 4 (s.conn r).phase) 0x81 [] 0x01 0 3 _⟩
    change execGetDigests r s = _
    rw [execGetDigests, State.spdmIn_at hr hp]
    simp only [hc]
    rfl
  case certificate =>
    intro s r o n hr hp ho
    have hno : ¬ (2 ≤ 0 ∨ (s.chain 0).length < o) := by omega
    refine ⟨_, ?_, s.spdmStep_sent r (max 4 (s.conn r).phase) 0x82 (leBytes 1 0 ++ leBytes 2 o ++ leBytes 2 n) 0x02 0 0 _⟩
    change execGetCertificate r 0 o n s = _
    rw [execGetCertificate]
    simp only [Nat.zero_ne_one, decide_false, Bool.false_and, Bool.false_eq_true, if_false, State.spdmIn_at hr hp, if_neg hno]
  case challenge =>
    intro s r n hr hp
    have hno : ¬ 2 ≤ 0 := by decide
    let data := sha384 (s.chain 0) ++ s.nonce.1 ++ leBytes 2 0
    let sign := Config.identitySign ((s.conn r).transcript ++ [0x83#8] ++ leBytes 1 0 ++ n ++ [0x03#8] ++ data)
    refine ⟨s.nonce.2.spdmStep r 5 0x83 (leBytes 1 0 ++ n) 0x03 0 (2 ^ 0) (data ++ sign), ?_, State.spdmStep_phase .., s.nonce.1 ++ leBytes 2 0 ++ sign, ?_⟩
    · change execChallenge r 0 n s = _
      rw [execChallenge]
      simp only [Nat.zero_ne_one, decide_false, Bool.false_and, Bool.false_eq_true, if_false, State.spdmIn_at hr hp, if_neg hno]
      rfl
    · have h := (State.spdmStep_sent s.nonce.2 r 5 0x83 (leBytes 1 0 ++ n) 0x03 0 (2 ^ 0) (data ++ sign)).before (s := s) List.suffix_rfl
      simpa only [data, List.append_assoc, Nat.pow_zero] using h
  case measurements =>
    intro s r i n hr hc hp h1 h5
    have hno : ¬ (5 < i ∧ i ≠ 0xFF) := by omega
    have h0 : i ≠ 0 := by omega
    have hff : i ≠ 0xFF := by omega
    let data := leBytes 1 1 ++ leBytes 3 (s.measBlock i).length ++ s.measBlock i ++ s.nonce.1 ++ leBytes 2 0
    let sign := Config.identitySign ((s.conn r).transcript ++ [0xE0#8] ++ leBytes 1 i ++ n ++ [0x60#8] ++ data)
    refine ⟨s.nonce.2.spdmStep r (s.conn r).phase 0xE0 (leBytes 1 i ++ n) 0x60 0 0 (data ++ sign), ?_, ⟨s.nonce.1 ++ leBytes 2 0 ++ sign, ?_⟩,
      State.spdmStep_phase ..⟩
    · change execGetMeasurements r i n s = _
      rw [execGetMeasurements, State.spdmLate_at _ hr hc hp, if_neg hno]
      simp only [if_neg h0, if_neg hff]
      rfl
    · have h := (State.spdmStep_sent s.nonce.2 r (s.conn r).phase 0xE0 (leBytes 1 i ++ n) 0x60 0 0 (data ++ sign)).before (s := s) List.suffix_rfl
      simpa only [data, List.append_assoc] using h
  case exchange =>
    intro s r q b hr hc hp
    let x : Session := { id := q % 2 ^ 16 + 2 ^ 16 * (s.mgmt.nextSession % 2 ^ 16), binding := r.binding, eid := r.eid, established := false,
                         reqGen := 0, rspGen := 0 }
    let u := s.updMgmt (fun m => { m with nextSession := m.nextSession + 1, sessions := m.sessions ++ [x] })
    refine ⟨u.spdmStep r (s.conn r).phase 0xE4 b 0x64 0 0 (leBytes 2 (s.mgmt.nextSession % 2 ^ 16) ++ Config.spdmBody 0x64 b), ?_,
      x, rfl, rfl, rfl, rfl, ?_⟩
    · change execKeyExchange r q b s = _
      rw [execKeyExchange, State.spdmLate_at _ hr hc hp]
    · simp only [x]
      omega
  case finish =>
    intro s r k b x hr hs he
    obtain ⟨hmem, hid⟩ := State.sessionOf_mem hs
    cases hok : Config.finishOk k b with
    | true =>
      have mem (y : Session) := s.mem_updSession (k := k) (f := fun x => { x with established := true }) (y := y)
      refine ⟨(s.updSession k (fun x => { x with established := true })).spdm r 0x65 0 0 (Config.spdmBody 0x65 b),
        (finish_does hr hs he b).trans (by rw [if_pos hok]), fun y hy => (mem y).trans ⟨?_, fun h => ?_⟩, fun y hy hk => ⟨rfl, ?_⟩, fun _ => ?_⟩
      · rintro ⟨z, hz, rfl⟩
        by_cases hzk : z.id = k
        · rw [if_pos hzk] at hy
          exact absurd hzk hy
        · rwa [if_neg hzk]
      · exact ⟨y, h, if_neg hy⟩
      · obtain ⟨z, -, rfl⟩ := (mem y).1 hy
        by_cases hzk : z.id = k
        · rw [if_pos hzk]
        · rw [if_neg hzk] at hk
          exact absurd hk hzk
      · exact ⟨{ x with established := true }, (mem _).2 ⟨x, hmem, if_pos hid⟩, hid⟩
    | false =>
      refine ⟨_, (finish_does hr hs he b).trans (by rw [if_neg (by simp [hok])]), fun y hy => ?_, fun y hy hk => ?_, nofun⟩
      · simp [State.spdmError, State.spdm, State.emit, State.updMgmt, hy]
      · simp [State.spdmError, State.spdm, State.emit, State.updMgmt, hk] at hy
  case update =>
    intro s r k x hr hs he
    refine ⟨(s.updSession k (fun y => { y with reqGen := y.reqGen + 1, rspGen := y.rspGen + 1 })).spdm r 0x69 2 0 [], ?_, rfl⟩
    change execKeyUpdate r k 2 s = _
    rw [execKeyUpdate, State.inSpdmSession_at hr hs he]
    rfl
  case ends =>
    intro s r k x hr hs he
    refine ⟨(s.updMgmt (fun m => { m with sessions := m.sessions.filter (fun x => x.id != k) })).spdm r 0x6C 0 0 [], ?_, fun y => ?_, rfl⟩
    · change execEndSession r k s = _
      rw [execEndSession, State.inSpdmSession_at hr hs he]
    · simp [State.spdm, State.emit, State.updMgmt]
  case ready =>
    intro s r k hr hc
    refine ⟨_, ?_, s.emit_sent _, rfl⟩
    change execRespondIfReady r k s = _
    simp [execRespondIfReady, hr, hc]
  case notReady =>
    intro s r k hr hc
    refine ⟨_, s.hint.1, ?_, s.hint_range.1, s.hint_range.2, (State.spdm_sent s.hint.2 r 0x7F 0x42 0 _).before List.suffix_rfl, rfl⟩
    change execRespondIfReady r k s = _
    simp [execRespondIfReady, hr, hc, State.notReadyYet]

end Sys2Proof.Machine
end

section
/-!
Power-up, the pins and the power input (05 R122, 16 R394 to R396, R402 to R404, 17 R424, R430, R433, R434).
-/
namespace Sys2Proof.Machine

-- Proofs elaborated one after another keep the whole text within the memory its compile is given.
set_option Elab.async false

/-! ### Loops -/

/-- A loop whose rounds keep a reading of the state keeps it. -/
theorem forEach_keeps_reading {α β : Type} (π : State → β) {f : State → α → State} (hf : ∀ u a, π (f u a) = π u) (l : List α) (s : State) :
    π (forEach l s f) = π s := foldl_only (fun u => π u = π s) (fun u a h => (hf u a).trans h) l rfl

/-! ### Stage groups -/

/-- Enabling a group marks it on the pins. -/
theorem State.enableGroup_pins (s : State) (g : Nat) : (s.enableGroup g).pins = { s.pins with groups := s.pins.groups ||| 2 ^ (g - 1) } := by
  refine forEach_keeps_reading State.pins (fun u i => ?_) _ _
  have spent (v w : State) (hv : v.pins = u.pins) (hw : w.pins = u.pins) (c : Prop) [Decidable c] (f : Stage → Stage) :
      ((if c then v else w).updStage i f).pins = u.pins := by
    split
    · exact hv
    · exact hw
  dsimp only
  split
  · refine (forEach_keeps_reading State.pins (f := fun s d => s.setDom d .on) (fun _ _ => rfl) _ _).trans ?_
    apply spent <;> rfl
  · apply spent <;> rfl

theorem State.disableGroup_flash (s : State) (g : Nat) : (s.disableGroup g).flash = s.flash :=
  (s.disableGroup_only g (Foot.sub (by decide) (Foot.refl _)) (Only.refl _ s)).flash_eq

/-- What a power-down leaves (R434). -/
structure PoweredDown (s t : State) : Prop where
  groups : t.pins.groups = 0
  ctxs : t.ctxs = []
  mem : t.mem = Mem.reset
  locus : t.id.locus = none
  stages : ∀ i, t.stage i = Stage.reset
  flash : t.flash = s.flash

theorem State.unpowered_off (s : State) : PoweredDown s s.unpowered := ⟨rfl, rfl, rfl, rfl, fun _ => rfl, rfl⟩

theorem PoweredDown.of_flash {s u t : State} (h : PoweredDown u t) (hf : u.flash = s.flash) : PoweredDown s t :=
  ⟨h.groups, h.ctxs, h.mem, h.locus, h.stages, h.flash.trans hf⟩

theorem State.powerDown_off (s : State) : PoweredDown s s.powerDown := by
  unfold State.powerDown
  refine (State.unpowered_off _).of_flash ?_
  simp only [State.disableGroup_flash]

/-! ### The power input -/

theorem powerOn_latched {s : State} (h : s.pins.latchedOff = true) : exec .powerOn s = .next s := by
  change execPowerOn s = _
  rw [execPowerOn, if_pos h]

theorem State.inputTrip_acts {s : State} (hg : s.pins.pgood = true) (hl : s.pins.latchedOff = false) :
    s.inputTrip = s.powerDown.updPins (fun p => { p with latchedOff := true }) := by
  simp [State.inputTrip, hg, hl]

theorem State.updPins_same (s : State) : s.updPins (fun p => p) = s := rfl

theorem State.inputTrip_latched {s : State} (hl : s.pins.latchedOff = true) : s.inputTrip = s := by
  simp [State.inputTrip, hl]

theorem State.inputTrip_flash (s : State) : s.inputTrip.flash = s.flash := by
  unfold State.inputTrip
  split
  · rfl
  · rw [State.updPins_flash, s.powerDown_off.flash]

/-- Settles O60: the power-down leaves what reset leaves and the flash; each pin's command writes its own pin. -/
theorem pinsAct : Obligations.PinsAct := by
  refine ⟨?pgood, ?pgoodLatched, ?input, ?inputLatched, ?collapse, ?perstLow, ?perstHigh, ?linkUp, ?narrow, ?testEn, ?testEnLate⟩
  case pgood =>
    intro s hg hl
    have e : exec .pgoodFall s = .next (s.powerDown.updPins (fun p => { p with pgood := false, latchedOff := false })) := by
      change execPgoodFall s = _
      simp only [execPgoodFall, hg, hl, Bool.not_false, Bool.and_self, if_true]
    have down := s.powerDown_off
    generalize s.powerDown = d at e down
    exact ⟨_, e, rfl, down.groups, down.ctxs, down.mem, down.locus, down.flash, down.stages⟩
  case pgoodLatched =>
    intro s hl
    refine ⟨s.updPins (fun p => { p with pgood := false, latchedOff := false }), ?_, rfl, rfl, rfl⟩
    change execPgoodFall s = _
    simp [execPgoodFall, hl]
  case input =>
    intro c hc s hg hl
    have trip : ∃ f : Pins → Pins, exec c s = .next ((s.powerDown.updPins (fun p => { p with latchedOff := true })).updPins f) ∧
        ∀ p, (f p).latchedOff = p.latchedOff ∧ (f p).groups = p.groups := by
      obtain rfl | rfl | rfl := hc
      · refine ⟨fun p => p, ?_, fun _ => ⟨rfl, rfl⟩⟩
        change execInputUndervoltage s = _
        rw [execInputUndervoltage, State.inputTrip_acts hg hl, State.updPins_same]
      · refine ⟨fun p => p, ?_, fun _ => ⟨rfl, rfl⟩⟩
        change execInputOvervoltage s = _
        rw [execInputOvervoltage, State.inputTrip_acts hg hl, State.updPins_same]
      · refine ⟨fun p => { p with pwrCycleReq := false }, ?_, fun _ => ⟨rfl, rfl⟩⟩
        change execInputCollapse s = _
        rw [execInputCollapse, State.inputTrip_acts hg hl]
    obtain ⟨f, he, hf⟩ := trip
    have down := s.powerDown_off
    generalize s.powerDown = d at he down
    have latched : ((d.updPins (fun p => { p with latchedOff := true })).updPins f).pins.latchedOff = true := (hf _).1
    exact ⟨_, he, latched, (hf _).2.trans down.groups, down.ctxs, down.mem, down.flash, powerOn_latched latched⟩
  case inputLatched =>
    intro c hc s hl
    obtain rfl | rfl := hc
    · exact congrArg Host.Outcome.next (State.inputTrip_latched hl)
    · exact congrArg Host.Outcome.next (State.inputTrip_latched hl)
  case collapse => exact fun s => ⟨s.inputTrip.updPins (fun p => { p with pwrCycleReq := false }), rfl, rfl, s.inputTrip_flash⟩
  case perstLow =>
    intro s hg
    change ∃ t, execPciePerstN false s = .next t ∧ _
    have hgo : ¬ (false || !(s.updPins (fun p => { p with perstN := false })).pins.pgood) = true := by simp [State.updPins, hg]
    rw [execPciePerstN]
    simp only [if_neg hgo]
    exact ⟨_, rfl, rfl, rfl, rfl, rfl, rfl, rfl, rfl, rfl, rfl⟩
  case perstHigh => exact fun s => ⟨s.updPins (fun p => { p with perstN := true }), rfl, rfl, rfl, rfl, rfl⟩
  case linkUp =>
    intro s w g hg hp hw hr
    refine ⟨s.updMbx (fun m => { m with linkUp := true, linkDownAt := none, width := w, rate := g }), ?_, rfl, rfl, rfl, rfl⟩
    have h8 : ¬ w < 8 := by omega
    have h16 : ¬ ((w ≠ 8 ∧ w ≠ 16) ∨ (!pcieRates.contains g) = true) := by
      rw [List.contains_iff_mem.2 hr]
      simp only [Bool.not_true, Bool.false_eq_true, or_false]
      omega
    change execPcieLinkUp w g s = _
    rw [execPcieLinkUp, hg, hp, if_neg (by decide), if_neg h8, if_neg h16]
  case narrow =>
    intro s w g hw
    change ∃ t, execPcieLinkUp w g s = .next t ∧ _
    rw [execPcieLinkUp]
    split
    · exact ⟨s, rfl, rfl, rfl⟩
    · exact ⟨_, rfl, rfl, rfl⟩
  case testEn =>
    intro s hb
    have e : exec .testEnHigh s = .next (s.updPins (fun p => { p with testEn := true })) := congrArg Host.Outcome.next (if_pos hb)
    have unserved : (s.updPins (fun p => { p with testEn := true })).served = false := by simp [State.served, State.updPins]
    exact ⟨_, e, rfl, slotSelect_unserved unserved, rfl⟩
  case testEnLate => exact fun s hb => congrArg Host.Outcome.next (if_neg hb)

/-! ### Start-up -/

/-- What a fresh power-up leaves: the pins high, stage group 1 enabled, nothing volatile kept (R403, R431, R432). -/
structure PoweredUp (s t : State) : Prop where
  cal : t.id.cal = .boot
  locus : t.id.locus = none
  flash : t.flash = { s.flash with starts := s.flash.starts + 1 }
  pgood : t.pins.pgood = true
  resetN : t.pins.resetN = true
  groups : t.pins.groups = 1
  ctxs : t.ctxs = []
  mem : t.mem = Mem.reset
  log : t.evr.log = []

/-- Caldera, the flash and the pins at a power-up, before the stages. -/
def State.poweringUp (s : State) : State :=
  ((s.unpowered.updFlash (fun f => { f with starts := f.starts + 1 })).updCal (fun c =>
    { c with fencedA := s.flash.fencedHalf == some 0, fencedB := s.flash.fencedHalf == some 1 })).updPins
    (fun p => { p with pgood := true, resetN := true, testEn := false, latchedOff := false })

theorem State.powerUp_eq (s : State) :
    s.powerUp = (forEach (List.range 36) s.poweringUp (fun s i => s.updStage i (fun g => { g with active := phasesOf i }))).enableGroup 1 := rfl

theorem State.powerUp_up (s : State) : PoweredUp s s.powerUp := by
  rw [State.powerUp_eq]
  have only : ∀ ps, Foot 18087936 ps → Only ps s.poweringUp
      ((forEach (List.range 36) s.poweringUp (fun s i => s.updStage i (fun g => { g with active := phasesOf i }))).enableGroup 1) := fun ps hps =>
    State.enableGroup_only 1 hps (forEach_only _ (Only.refl _ _) fun u i hu => State.updStage_only i _ (Foot.sub (by decide) hps) hu)
  have hpins : ((forEach (List.range 36) s.poweringUp (fun s i => s.updStage i (fun g => { g with active := phasesOf i }))).enableGroup 1).pins =
      { s.poweringUp.pins with groups := s.poweringUp.pins.groups ||| 2 ^ (1 - 1) } := by
    rw [State.enableGroup_pins, forEach_keeps_reading State.pins (f := fun s i => s.updStage i (fun g => { g with active := phasesOf i })) fun _ _ => rfl]
  generalize (forEach (List.range 36) s.poweringUp (fun s i => s.updStage i (fun g => { g with active := phasesOf i }))).enableGroup 1 = t at only hpins
  have hid : t.id = s.poweringUp.id := (only _ (Foot.sub (by decide) (Foot.refl _))).id_eq
  have hflash : t.flash = s.poweringUp.flash := (only _ (Foot.sub (by decide) (Foot.refl _))).flash_eq
  have hctxs : t.ctxs = s.poweringUp.ctxs := (only _ (Foot.sub (by decide) (Foot.refl _))).ctxs_eq
  have hmem : t.mem = s.poweringUp.mem := (only _ (Foot.sub (by decide) (Foot.refl _))).mem_eq
  have hevr : t.evr = s.poweringUp.evr := (only _ (Foot.sub (by decide) (Foot.refl _))).evr_eq
  exact { cal := hid ▸ rfl, locus := hid ▸ rfl, flash := hflash, pgood := hpins ▸ rfl, resetN := hpins ▸ rfl, groups := by rw [hpins]; exact (show 0 ||| 2 ^ (1 - 1) = 1 by decide),
          ctxs := hctxs, mem := hmem, log := hevr ▸ rfl }

/-- With nothing fenced or retired and no slot failing, the fault map sets the fenced engines alone. -/
theorem State.applyFaultMap_clean {s : State} (hf : s.flash.fencedSlots = []) (hr : s.flash.retiredPcs = []) :
    s.applyFaultMap [] = s.updRecov (fun r => { r with engines := s.flash.fencedEngines }) := by
  unfold State.applyFaultMap
  rw [hf]
  change forEach s.flash.retiredPcs _ _ = _
  rw [hr]
  rfl

/-- The code of RUN_ENTRY's two tests, 0 for none (Table 16.15). -/
def State.entryCode (s : State) (l : Nat) : Nat := if !s.cfg.coordsOk l then 0x0B else if !s.cfg.fitsMap s.flash.retiredPcs then 0x0C else 0

/-- What RUN begins with: TRIES of the booted slot 0, the mailbox ready, the ceiling and the static subscriptions in force (R403, R408). -/
def State.intoRun (s : State) (k : Nat) : State :=
  let s := (s.updSlot k (fun q => { q with tries := 0 })).updId (fun d => { d with cal := .run })
  let s := (s.updMbx (fun m => { m with ready := true })).updPwr (fun p => { p with ceiling := s.cfg.pwrCeilingW })
  s.updTel (fun t => { t with subs := s.staticSubs })

/-- RUN_ENTRY of a module that has booted an image and released its optics, with nothing fenced or retired (R402, R403, R408). -/
theorem runEntry_starts {s : State} {l k o : Nat} (hi : s.id.cal = .init) (hl : s.id.locus = some l) (hk : s.id.booted = some k)
    (ho : s.id.opticsAt = some o) (hf : s.flash.fencedSlots = []) (hr : s.flash.retiredPcs = []) :
    exec (.runEntry []) s = .next (
      let u := s.updRecov (fun r => { r with engines := s.flash.fencedEngines })
      if s.entryCode l ≠ 0 then (u.updId (fun d => { d with lastReject := s.entryCode l })).enterRecovery (s.entryCode l)
      else if s.mbx.linkUp && s.mbx.busMaster then (u.intoRun k).emit (.msix 0 4) else u.intoRun k) := by
  have hgo : ¬ (s.id.cal != .init || s.id.opticsAt.isNone) = true := by simp [hi, ho]
  change execRunEntry [] s = _
  rw [execRunEntry, if_neg (by decide)]
  simp only [hl, hk, if_neg hgo, State.applyFaultMap_clean hf hr]
  rfl

/-- RECOVERY, by what it leaves (R396, R402, 17 R429). -/
structure InRecovery (t : State) : Prop where
  cal : t.id.cal = .recovery
  ready : t.mbx.ready = false
  ports : t.ports = []
  alert : t.evr.alert = true
  optics : t.id.opticsAt = none

theorem State.enterRecovery_in (s : State) (code : Nat) : InRecovery (s.enterRecovery code) := ⟨rfl, rfl, rfl, rfl, rfl⟩

/-- Settles O51: each command of the timeline leaves what its row says. -/
theorem startupFollowsTheTimeline : Obligations.StartupFollowsTheTimeline := by
  refine ⟨?up, ?release, fun s h => powerOn_latched h, ?recovery, ?optics, ?run, ?badLocus, ?unassigned⟩
  case up =>
    intro s hl hg
    have e : exec .powerOn s = .next s.powerUp := by
      change execPowerOn s = _
      simp only [execPowerOn, hl, hg, Bool.false_eq_true, if_false, Bool.not_false, if_true]
    have up := s.powerUp_up
    generalize s.powerUp = t at e up
    exact ⟨t, e, up.cal, up.locus, by rw [up.flash], up.pgood, up.resetN, up.groups, up.ctxs, up.mem, up.log, by rw [up.flash], by rw [up.flash]⟩
  case release =>
    intro s hl hg hr
    refine ⟨s.updPins (fun p => { p with resetN := true }), ?_, rfl, rfl, rfl⟩
    change execPowerOn s = _
    simp [execPowerOn, hl, hg, hr]
  case recovery =>
    intro s hs hb hA hB
    have hc : s.flash.candidate = none := by
      rw [Flash.candidate, beq_false_of_ne hA, beq_false_of_ne hB, pickSlot]
    have down := s.countPowerUp.testSlots.enterRecovery_in 0
    refine ⟨_, slotSelect_boots hs hb, ?_⟩
    rw [hc, State.bootCandidate]
    exact ⟨down.cal, down.ready, down.ports, down.alert, down.optics⟩
  case optics =>
    intro s l hc hl ho hg
    have hgo : ¬ ((s.id.cal != .init && s.id.cal != .run) || s.id.locus.isNone || s.id.opticsAt.isSome || !s.groupGood 4) = true := by
      obtain hc | hc := hc <;> simp [hc, hl, ho, hg]
    refine ⟨(s.enableGroup 5).updId (fun d => { d with opticsAt := some s.time.loc }), ?_, rfl, ?_, ?_⟩
    · change execOpticsRelease s = _
      rw [execOpticsRelease, if_neg hgo]
    · rw [State.updId_pins, State.enableGroup_pins]
      exact (Nat.testBit_or _ _ _).trans (Bool.or_eq_true_iff.2 (.inr (by decide)))
    · exact (congrArg Ident.cal (s.id_enableGroup 5) :)
  case run =>
    intro s l k o hi hl hk ho hf hr hcoord hfit
    have hcode : s.entryCode l = 0 := by simp [State.entryCode, hcoord, hr, hfit]
    refine ⟨_, runEntry_starts hi hl hk ho hf hr, ?_⟩
    simp only [hcode, ne_eq, not_true, if_false]
    split <;> exact ⟨rfl, rfl, rfl, rfl⟩
  case badLocus =>
    intro s l k o hi hl hk ho hcoord hf hr
    have hcode : s.entryCode l = 0x0B := by simp [State.entryCode, hcoord]
    refine ⟨_, runEntry_starts hi hl hk ho hf hr, ?_⟩
    rw [hcode]
    exact ⟨rfl, rfl, rfl, rfl⟩
  case unassigned =>
    intro s hl
    refine ⟨?_, ?_⟩
    · change execOpticsRelease s = _
      simp [execOpticsRelease, hl]
    · change execRunEntry [] s = _
      simp [execRunEntry, hl]

end Sys2Proof.Machine
end

section
/-!
What recording an event keeps and adds (14 R355 to R361).
-/
namespace Sys2Proof.Machine

-- Proofs elaborated one after another keep the whole text within the memory its compile is given.
set_option Elab.async false

/-! ### Event bits once set stay set, and a log that holds records holds some afterwards -/

/-- The counters recording counts (R361, Table 14.8). -/
def recorderCtrs : List Ctr := [.evrRecords, .evrFolded, .evrReplaced, .evrDropped]

/-- What recording never takes back or counts: event bits that are set, that the log holds a record, and every counter but its own. -/
structure Log.Before (l m : Log) : Prop where
  bits : ∀ k b, (KMap.getD l.evts k 0).testBit b = true → (KMap.getD m.evts k 0).testBit b = true
  log : l.evr.log ≠ [] → m.evr.log ≠ []
  ctr : ∀ c i, c ∉ recorderCtrs → i < 2 ^ 24 → ctrGet m.ctrs c i = ctrGet l.ctrs c i

theorem Log.Before.refl (l : Log) : l.Before l := ⟨fun _ _ h => h, id, fun _ _ _ _ => rfl⟩
theorem Log.Before.trans {l m n : Log} (h : l.Before m) (k : m.Before n) : l.Before n :=
  ⟨fun i b hb => k.bits i b (h.bits i b hb), fun hl => k.log (h.log hl), fun c i hc hi => (k.ctr c i hc hi).trans (h.ctr c i hc hi)⟩

/-- The event bits and counters as they were, the log of some length. -/
theorem Log.Before.of_evts {l m : Log} (he : m.evts = l.evts) (hc : m.ctrs = l.ctrs) (hl : l.evr.log ≠ [] → m.evr.log ≠ []) : l.Before m :=
  ⟨fun _ _ h => he ▸ h, hl, fun c i _ _ => congrArg (ctrGet · c i) hc⟩

theorem Evr.updRec_log_length (e : Evr) (q : Nat) (f : EvRec → EvRec) : (e.updRec q f).log.length = e.log.length := List.length_map ..

theorem Evr.exportOnOpen_log (e : Evr) (r : EvRec) : (e.exportOnOpen r).log = e.log ∧ (e.exportOnOpen r).spill = e.spill ∧ (e.exportOnOpen r).freeze = e.freeze := by
  unfold Evr.exportOnOpen
  split <;> exact ⟨rfl, rfl, rfl⟩

theorem Evr.exportOnClose_log (e : Evr) (r : EvRec) : (e.exportOnClose r).log = e.log ∧ (e.exportOnClose r).spill = e.spill ∧ (e.exportOnClose r).freeze = e.freeze := by
  unfold Evr.exportOnClose
  split <;> exact ⟨rfl, rfl, rfl⟩

theorem Evr.close_log_length (e : Evr) (q : Nat) : (e.close q).log.length = e.log.length := by
  unfold Evr.close
  split
  · rfl
  · rw [(Evr.exportOnClose_log _ _).1, Evr.updRec_log_length]

theorem Evr.makeRoom_log_length (e : Evr) : e.makeRoom.log.length = e.log.length := by
  unfold Evr.makeRoom
  split
  · split
    · exact e.close_log_length _
    · rfl
  · rfl

theorem log_ne_of_length {a b : List EvRec} (h : b.length = a.length) (ha : a ≠ []) : b ≠ [] := by
  rw [← List.length_pos_iff] at *
  omega

theorem insertRec_ne (rs : List EvRec) (cap : Nat) (r : EvRec) (h : rs ≠ []) : (insertRec rs cap r).1 ≠ [] := by
  unfold insertRec
  split
  · exact List.append_ne_nil_of_right_ne_nil _ (List.cons_ne_nil _ _)
  · split
    · exact List.append_ne_nil_of_right_ne_nil _ (List.cons_ne_nil _ _)
    · exact h

theorem Log.bump_before (l : Log) {c : Ctr} (hc : c ∈ recorderCtrs) : l.Before (l.bump c) := by
  refine ⟨fun _ _ h => h, id, fun d i hd hi => ?_⟩
  have hkey : d.key i ≠ c.key 0 := fun e => hd ((Ctr.key_inj d c i 0 hi (by omega) e).1 ▸ hc)
  exact KMap.getD_put_ne _ _ _ hkey

theorem Log.evrBit_before (l : Log) (b : Nat) : l.Before (l.evrBit b) := by
  refine ⟨fun k i h => ?_, id, fun _ _ _ _ => rfl⟩
  simp only [Log.evrBit, KMap.upd, KMap.getD_put]
  split
  · next hk =>
    rw [testBit_setBit]
    split
    · rfl
    · exact hk ▸ h
  · exact h

theorem Log.store_before (l : Log) (r : EvRec) : l.Before (l.store r).1 := by
  unfold Log.store
  split
  · exact .of_evts rfl rfl (insertRec_ne _ _ _)
  · split
    · exact .of_evts rfl rfl fun _ => List.append_ne_nil_of_right_ne_nil _ (List.cons_ne_nil _ _)
    · extract_lets p src m
      have hm : l.Before m := .of_evts rfl rfl id
      split
      · exact hm.trans (m.evrBit_before 28)
      · exact hm

theorem Log.countLoss_before (l : Log) (x : Nat × Bool) : l.Before (l.countLoss x) :=
  (Log.bump_before _ (by split <;> decide)).trans (Log.evrBit_before _ _)

theorem Log.fold_before (l : Log) (r : EvRec) (now n : Nat) (d : List Nat → List Nat) : l.Before (l.fold r now n d) := by
  unfold Log.fold
  extract_lets e m
  have hm : l.Before m := by
    refine .of_evts rfl rfl fun hl => ?_
    dsimp only [m]
    split
    · exact log_ne_of_length ((Evr.close_log_length _ _).trans (Evr.updRec_log_length _ _ _)) hl
    · exact log_ne_of_length (Evr.updRec_log_length _ _ _) hl
  exact hm.trans (m.bump_before (by decide))

theorem Log.loss_before (l : Log) (mk : Nat → Nat → List Nat → EvRec) (now : Nat) (x : Nat × Bool) : l.Before (l.loss mk now x) := by
  unfold Log.loss
  extract_lets l1 r e l2 p l3
  have h1 : l.Before l1 := l.countLoss_before x
  split
  · exact h1.trans (Log.fold_before ..)
  · have h2 : l1.Before l2 := .of_evts rfl rfl (log_ne_of_length (Evr.makeRoom_log_length _))
    have h3 : l.Before l3 := h1.trans (h2.trans ((l2.store_before r).trans (Log.bump_before _ (by decide))))
    split
    · exact h3
    · exact h3.trans ((Log.countLoss_before _ _).trans (Log.fold_before ..))

/-- The log with the next SEQ taken, what leaves later kept and, where the event is CRITICAL, the flash record written (R359, R366, 17 R429). -/
def Log.entered (l : Log) (sev : Nat) (r : EvRec) : Log :=
  let e := l.evr.makeRoom
  let l := { l with evr := { (e.exportOnOpen r) with nextSeq := (e.nextSeq + 1) % 2 ^ 32 } }
  if sev = 3 then { l with flash := (r :: l.flash).take 256, evr := { l.evr with alert := true } } else l

/-- The record an event makes. -/
def Event.made (v : Event) (l : Log) (mk : Nat → Nat → List Nat → EvRec) : EvRec :=
  { mk l.evr.makeRoom.nextSeq v.code v.data with
    severity := v.sev, srcType := v.srcType, srcIndex := v.srcIndex, ctx := v.ctx, step := v.step, attempt := v.attempt }

theorem Log.record_eq (l : Log) (mk : Nat → Nat → List Nat → EvRec) (now : Nat) (v : Event) : l.record mk now v =
    match l.openFor v.code v.srcType v.srcIndex v.ctx with
    | some r => l.fold r now 1 id
    | none =>
      match ((l.entered v.sev (v.made l mk)).store (v.made l mk)).2 with
      | none => (((l.entered v.sev (v.made l mk)).store (v.made l mk)).1).bump .evrRecords
      | some x => ((((l.entered v.sev (v.made l mk)).store (v.made l mk)).1).bump .evrRecords).loss mk now x := rfl

theorem Log.entered_log_length (l : Log) (sev : Nat) (r : EvRec) : (l.entered sev r).evr.log.length = l.evr.log.length := by
  unfold Log.entered
  extract_lets e src m
  have hm : m.evr.log.length = l.evr.log.length := by
    rw [show m.evr.log = e.log from (e.exportOnOpen_log r).1, Evr.makeRoom_log_length]
  split <;> exact hm

theorem Log.entered_before (l : Log) (sev : Nat) (r : EvRec) : l.Before (l.entered sev r) := by
  refine .of_evts ?_ ?_ (log_ne_of_length (l.entered_log_length sev r)) <;>
  · unfold Log.entered
    dsimp only
    split <;> rfl

theorem Log.record_before (l : Log) (mk : Nat → Nat → List Nat → EvRec) (now : Nat) (v : Event) : l.Before (l.record mk now v) := by
  rw [Log.record_eq]
  split
  · exact Log.fold_before ..
  · have h := (l.entered_before v.sev (v.made l mk)).trans ((Log.store_before _ (v.made l mk)).trans (Log.bump_before _ (c := .evrRecords) (by decide)))
    split
    · exact h
    · exact h.trans (Log.loss_before ..)

theorem State.record_bit {s : State} {r : Reg} {i b : Nat} (v : Event) (h : (s.evBits r i).testBit b = true) :
    ((s.record v).evBits r i).testBit b = true := (s.toLog.record_before s.mkRec s.now v).bits _ b h

/-- Recording counts its own counters alone. -/
theorem State.record_ctr (s : State) (v : Event) {c : Ctr} {i : Nat} (hc : c ∉ recorderCtrs) (hi : i < 2 ^ 24) : (s.record v).ctr c i = s.ctr c i :=
  (s.toLog.record_before s.mkRec s.now v).ctr c i hc hi

theorem State.setEvt_ctr (s : State) (r : Reg) (j b : Nat) {c : Ctr} {i : Nat} (hc : c ∉ recorderCtrs) (hi : i < 2 ^ 24) :
    (s.setEvt r j b).ctr c i = s.ctr c i := by
  unfold State.setEvt
  split
  · rfl
  · extract_lets u
    split
    · rfl
    · exact State.record_ctr u _ hc hi

/-- The bit an event sets is set afterwards, whatever recording it sets besides (R8, R357). -/
theorem State.setEvt_bit (s : State) (r : Reg) (i b : Nat) : ((s.setEvt r i b).evBits r i).testBit b = true := by
  unfold State.setEvt
  split
  · next h => exact h
  · extract_lets u
    have hu : (u.evBits r i).testBit b = true := by
      simp only [u, State.evBits, State.updEvts, KMap.getD_put_self]
      rw [testBit_setBit, if_pos rfl]
    split
    · exact hu
    · exact State.record_bit _ hu

/-! ### The record made is found in the log (R355, R360) -/

/-- Some record of the log or the spill area has a CODE. -/
def Evr.hasCode (e : Evr) (code : Nat) : Prop := ∃ r ∈ e.log ++ e.spill, r.code = code

theorem Evr.updRec_hasCode {e : Evr} {code : Nat} (q : Nat) {f : EvRec → EvRec} (hf : ∀ r, (f r).code = r.code) (h : e.hasCode code) :
    (e.updRec q f).hasCode code := by
  obtain ⟨r, hr, hc⟩ := h
  have hlist : (e.updRec q f).log ++ (e.updRec q f).spill = (e.log ++ e.spill).map (fun r => if r.seq = q then f r else r) := List.map_append.symm
  refine ⟨if r.seq = q then f r else r, by rw [hlist]; exact List.mem_map_of_mem hr, ?_⟩
  split
  · rw [hf, hc]
  · exact hc

theorem Evr.close_hasCode {e : Evr} {code : Nat} (q : Nat) (h : e.hasCode code) : (e.close q).hasCode code := by
  unfold Evr.close
  split
  · exact h
  · rw [Evr.hasCode, (Evr.exportOnClose_log _ _).1, (Evr.exportOnClose_log _ _).2.1]
    exact Evr.updRec_hasCode q (fun _ => rfl) h

theorem Log.fold_hasCode {l : Log} {code : Nat} (r : EvRec) (now n : Nat) (d : List Nat → List Nat) (h : l.evr.hasCode code) :
    (l.fold r now n d).evr.hasCode code := by
  have hu : (l.evr.updRec r.seq (fun r => { r with repeat_ := satAdd 32 r.repeat_ n, lastFc := now, data := d r.data })).hasCode code :=
    Evr.updRec_hasCode _ (fun _ => rfl) h
  unfold Log.fold
  dsimp only [Log.bump]
  split
  · exact Evr.close_hasCode _ hu
  · exact hu

theorem Log.openFor_code {l : Log} {code t i x : Nat} {r : EvRec} (h : l.openFor code t i x = some r) : l.evr.hasCode code := by
  unfold Log.openFor at h
  split at h
  · cases h
  · have hp := List.find?_some h
    simp only [Bool.and_eq_true, beq_iff_eq] at hp
    exact ⟨r, List.mem_of_find?_eq_some h, hp.1.1.1.1.2⟩

/-- A log that is not full takes a record at its end, and loses none (R361, R362). -/
theorem Log.store_room {l : Log} {r : EvRec} (h : l.evr.log.length < evrCapacity) :
    (l.store r).1.evr.log = l.evr.log ++ [r] ∧ (l.store r).2 = none := by
  unfold Log.store
  split
  · simp only [insertRec, if_pos h, and_self]
  · rw [if_pos h]
    exact ⟨rfl, rfl⟩

/-- The event is found in the recorder, unless the log was full. -/
theorem State.record_found (s : State) (v : Event) :
    ∃ r ∈ (s.record v).evr.log ++ (s.record v).evr.spill, r.code = v.code ∨ evrCapacity ≤ s.evr.log.length := by
  by_cases hroom : s.evr.log.length < evrCapacity
  · have found : (s.record v).evr.hasCode v.code := by
      change (s.toLog.record s.mkRec s.now v).evr.hasCode v.code
      rw [Log.record_eq]
      split
      · next r hr => exact Log.fold_hasCode r _ _ _ (Log.openFor_code hr)
      · have hstore := Log.store_room (l := s.toLog.entered v.sev (v.made s.toLog s.mkRec)) (r := v.made s.toLog s.mkRec)
          (by rw [Log.entered_log_length]; exact hroom)
        rw [hstore.2]
        refine ⟨v.made s.toLog s.mkRec, List.mem_append_left _ ?_, rfl⟩
        exact (congrArg (v.made s.toLog s.mkRec ∈ ·) hstore.1).mpr (List.mem_append_right _ (List.mem_singleton_self _))
    exact found.imp fun r hr => ⟨hr.1, .inl hr.2⟩
  · have hne : s.evr.log ≠ [] := fun e => hroom (by rw [e]; decide)
    obtain ⟨r, rest, hr⟩ := List.exists_cons_of_ne_nil ((s.toLog.record_before s.mkRec s.now v).log hne)
    refine ⟨r, List.mem_append_left _ ?_, .inr (Nat.not_lt.1 hroom)⟩
    exact (congrArg (r ∈ ·) hr).mpr (List.mem_cons_self ..)

/-! ### Records without a freeze (R362) -/

/-- No freeze stands and the spill area is empty. -/
def Evr.Thawed (e : Evr) : Prop := e.freeze = none ∧ e.spill = []

theorem Evr.updRec_thawed {e : Evr} (q : Nat) (f : EvRec → EvRec) (h : e.Thawed) : (e.updRec q f).Thawed :=
  ⟨h.1, by rw [Evr.updRec, h.2]; rfl⟩

theorem Evr.close_thawed {e : Evr} (q : Nat) (h : e.Thawed) : (e.close q).Thawed := by
  unfold Evr.close
  split
  · exact h
  · rw [Evr.Thawed, (Evr.exportOnClose_log _ _).2.2, (Evr.exportOnClose_log _ _).2.1]
    exact Evr.updRec_thawed q _ h

theorem Evr.makeRoom_thawed {e : Evr} (h : e.Thawed) : e.makeRoom.Thawed := by
  unfold Evr.makeRoom
  split
  · split
    · exact Evr.close_thawed _ h
    · exact h
  · exact h

theorem Log.store_thawed {l : Log} (r : EvRec) (h : l.evr.Thawed) : (l.store r).1.evr.Thawed := by
  unfold Log.store
  rw [h.1]
  exact h

theorem Log.fold_thawed {l : Log} (r : EvRec) (now n : Nat) (d : List Nat → List Nat) (h : l.evr.Thawed) : (l.fold r now n d).evr.Thawed := by
  unfold Log.fold
  dsimp only [Log.bump]
  split
  · exact Evr.close_thawed _ (Evr.updRec_thawed _ _ h)
  · exact Evr.updRec_thawed _ _ h

theorem Log.loss_thawed {l : Log} (mk : Nat → Nat → List Nat → EvRec) (now : Nat) (x : Nat × Bool) (h : l.evr.Thawed) :
    (l.loss mk now x).evr.Thawed := by
  unfold Log.loss
  extract_lets l1 r e l2 p l3
  have h2 : l2.evr.Thawed := ⟨(Evr.makeRoom_thawed h).1, (Evr.makeRoom_thawed h).2⟩
  have h3 : l3.evr.Thawed := Log.store_thawed r h2
  split
  · exact Log.fold_thawed _ _ _ _ h
  · split
    · exact h3
    · exact Log.fold_thawed _ _ _ _ h3

/-- After a freeze ends none stands, and its spill records are in the log. -/
theorem State.endFreeze_thawed (s : State) : s.endFreeze.evr.Thawed := by
  unfold State.endFreeze
  extract_lets sp u
  refine foldl_only (fun v : State => v.evr.Thawed) (fun v r h => ?_) sp ⟨rfl, rfl⟩
  extract_lets p l
  have hl : l.evr.Thawed := by
    unfold l
    split
    · exact Log.store_thawed r h
    · exact Log.loss_thawed _ _ _ (Log.store_thawed r h)
  exact hl

theorem State.endFreeze_unspilled {s : State} (h : s.evr.spill = []) : s.endFreeze = s.updEvr (fun e => { e with freeze := none, spill := [] }) := by
  unfold State.endFreeze
  rw [h]
  rfl

/-- An event recorded where there is room, and no open record to fold into: its record stands at the end of the log. -/
theorem State.record_room {s : State} {v : Event} (hopen : s.toLog.openFor v.code v.srcType v.srcIndex v.ctx = none)
    (hroom : s.evr.log.length < evrCapacity) :
    (s.record v).evr.log = s.evr.makeRoom.log ++ [v.made s.toLog s.mkRec] := by
  change (s.toLog.record s.mkRec s.now v).evr.log = _
  rw [Log.record_eq, hopen]
  have hstore := Log.store_room (l := s.toLog.entered v.sev (v.made s.toLog s.mkRec)) (r := v.made s.toLog s.mkRec)
    (by rw [Log.entered_log_length]; exact hroom)
  rw [hstore.2]
  refine hstore.1.trans (congrArg (· ++ [v.made s.toLog s.mkRec]) ?_)
  unfold Log.entered
  extract_lets e src l
  have hl : l.evr.log = s.evr.makeRoom.log := (e.exportOnOpen_log _).1
  split <;> exact hl

end Sys2Proof.Machine
end

section
/-!
The locus, the acceptance of a module, image slots, owner keys and requests to a coordinator (16 R397 to R399, R404, R405, R410 to R412,
05 R133, 12 R325).
-/
namespace Sys2Proof.Machine

-- Proofs elaborated one after another keep the whole text within the memory its compile is given.
set_option Elab.async false

theorem State.vendor_sent (s : State) (r : Req) (cmd c : Nat) (p : List Byte) : sentBetween s (s.vendor r cmd c p) (vendorAnswer r cmd c p) := s.emit_sent _

/-- An answer after what keeps the outputs. -/
theorem State.vendor_sent_after {s u : State} (h : s.out <:+ u.out) (r : Req) (cmd c : Nat) (p : List Byte) :
    sentBetween s (u.vendor r cmd c p) (vendorAnswer r cmd c p) := (u.vendor_sent r cmd c p).before h

/-! ### What the flash holds beside its critical records -/

/-- A property of the flash that the critical records are no part of. -/
def Flash.Plain (P : Flash → Prop) : Prop := ∀ (f : Flash) (l : List EvRec), P f → P { f with events := l }

theorem Only.plain {P : Flash → Prop} (hP : Flash.Plain P) {s t : State} (h : Only 2361183241430561193975 s t) (hs : P s.flash) : P t.flash := by
  have hf : ({ t.flash with events := [] } : Flash) = { s.flash with events := [] } := h.parts (fun q => nomatch q) .flash (by decide)
  have ht : P { t.flash with events := [] } := hf ▸ hP s.flash [] hs
  exact hP { t.flash with events := [] } t.flash.events ht

/-- Evaluating a port writes nothing to the flash but the digest it learns where none was stored (R188). -/
theorem State.evaluate_plain {P : Flash → Prop} (hP : Flash.Plain P) {s : State} (p : Nat) (i : IdentData)
    (hd : ∀ f : Flash, KMap.getD f.digests p 0 = 0 → P f → P { f with digests := KMap.put f.digests p i.cert }) (hs : P s.flash) :
    P (s.evaluate p i).flash := by
  have evt (u : State) (b : Nat) : P u.flash → P (u.setEvt .portStatus p b).flash :=
    (u.setEvt_only .portStatus p b (Foot.sub (by decide) (Foot.refl _)) (Only.refl _ u)).plain hP
  have outcome (u : State) (st : PortSt) : P u.flash → P (u.setOutcome p st).flash :=
    (u.setOutcome_only p st (Foot.sub (by decide) (Foot.refl _)) (Only.refl _ u)).plain hP
  unfold State.evaluate
  split
  next v rank size _ =>
    extract_lets right v' join u1 u2 stored u3
    have h1 : P u1.flash := by
      unfold u1
      split
      · exact hs
      · exact evt s 27 hs
    have h2 : P u2.flash := by
      unfold u2
      split
      · exact h1
      · exact h1
    split
    · exact outcome _ _ h1
    · split
      · exact outcome _ _ (evt _ _ h2)
      · split
        · exact outcome _ _ (evt _ _ h2)
        · split
          · exact outcome _ _ (evt _ _ h2)
          · refine outcome _ _ ?_
            unfold u3
            split
            · next h0 => exact hd _ h0 h2
            · exact h2

theorem State.evaluateAgain_plain {P : Flash → Prop} (hP : Flash.Plain P) {s : State} (p : Nat)
    (hd : ∀ i, (s.port p).last = some i → ∀ f : Flash, KMap.getD f.digests p 0 = 0 → P f → P { f with digests := KMap.put f.digests p i.cert })
    (hs : P s.flash) : P (s.evaluateAgain p).flash := by
  unfold State.evaluateAgain
  extract_lets q
  split
  · exact hs
  · next i hi =>
    split
    · exact State.evaluate_plain hP p i (hd i hi) hs
    · exact hs

/-! ### The locus (R404, R411) -/

theorem State.checkAccept_locus (s : State) : s.checkAccept.id.locus = s.id.locus := by
  unfold State.checkAccept
  split
  · rfl
  · split <;> rfl

theorem State.checkAccept_out (s : State) : s.checkAccept.out = s.out :=
  (s.checkAccept_only (Foot.sub (by decide) (Foot.refl _)) (Only.refl _ s)).out_eq

/-- The first assignment is taken, and past BOOT compared with the accepted locus. -/
theorem locusAssign_first {s : State} {r : Req} {l : Nat} (hr : s.reached r = true) (hb : r.binding = 0) (hl : l < 2 ^ 17) (hn : s.id.locus = none) :
    exec (.locusAssign r l) s = .next ((if s.id.cal = .boot then s.updId (fun d => { d with locus := some l })
      else (s.updId (fun d => { d with locus := some l })).checkAccept).vendor r 0x02 0 []) := by
  change execLocusAssign r l s = _
  simp only [execLocusAssign, hr, hb, Nat.not_le.2 hl, hn, Bool.not_true, Bool.false_eq_true, ne_eq, not_true, if_false]
  rfl

/-- A later one is a repeat, or refused and recorded. -/
theorem locusAssign_later {s : State} {r : Req} {l k : Nat} (hr : s.reached r = true) (hb : r.binding = 0) (hl : l < 2 ^ 17) (hn : s.id.locus = some k) :
    exec (.locusAssign r l) s = .next (if k = l then s.vendor r 0x02 0 []
      else (s.record { code := 0x3108, sev := 2, data := [l, k] }).vendor r 0x02 4 []) := by
  change execLocusAssign r l s = _
  simp only [execLocusAssign, hr, hb, Nat.not_le.2 hl, hn, Bool.not_true, Bool.false_eq_true, ne_eq, not_true, if_false]

/-! ### Acceptance (R412) -/

/-- ID_ACCEPT on an accepting channel, before the answer: what is stored, then where it stores anything new the ports evaluated again. -/
def State.accepting (s : State) (r : Req) (scope mask : Nat) : State :=
  let ports := if scope.testBit 1 then bitList mask 32 else []
  let t := forEach ports (if scope.testBit 0 then s.acceptLocus else s) State.acceptPort
  if decide (t.flash = s.flash) && t.id.unaccepted == s.id.unaccepted && s.id.lastAccept == some (scope, mask) then t else
    ((forEach (if scope.testBit 0 then List.range 32 else ports) t State.evaluateAgain).setEvt .calId 0 24).record
      { code := 0x3107, sev := 1, data := [scope, mask % 2 ^ 32, r.binding, r.eid] }

/-- The ports ID_ACCEPT gives a digest. -/
def State.acceptCount (s : State) (scope mask : Nat) : Nat :=
  ((if scope.testBit 1 then bitList mask 32 else []).filter (fun p => (s.port p).last.isSome)).length

theorem idAccept_accepts {s : State} {r : Req} {scope : Nat} (mask : Nat) (h : s.vendorServed r false true = true)
    (hc : s.cfg.acceptChannels.testBit r.binding = true) (hs : scope < 4) : exec (.idAccept r scope mask) s =
      .next (((s.accepting r scope mask).updId (fun d => { d with lastAccept := some (scope, mask) })).vendor r 0x03 0
        (leBytes 1 (s.acceptCount scope mask))) := by
  change execIdAccept r scope mask s = _
  rw [execIdAccept, State.vendorGate_served _ h, hc, if_neg (by decide), if_neg (Nat.not_le.2 hs)]
  rfl

theorem State.accepting_suffix (s : State) (r : Req) (scope mask : Nat) : s.out <:+ (s.accepting r scope mask).out := by
  have stored : Keeps false s (forEach (if scope.testBit 1 then bitList mask 32 else []) (if scope.testBit 0 then s.acceptLocus else s) State.acceptPort) :=
    forEach_keeps _ (Keeps.ite (fun _ => State.acceptLocus_keeps (Keeps.refl _ s)) (fun _ => Keeps.refl _ s)) fun u p => State.acceptPort_keeps p
  exact (Keeps.ite (fun _ => stored) (fun _ => State.record_keeps _ (State.setEvt_keeps _ _ _
    (forEach_keeps _ stored fun u p => State.evaluateAgain_keeps p)))).sent

/-- An acceptance of the locus that stores something new: every port is evaluated again, and the acceptance noted. -/
theorem State.accepting_new {s t : State} (r : Req) (mask : Nat) (ht : s.acceptLocus = t) (hne : t.flash ≠ s.flash) :
    s.accepting r 1 mask = ((forEach (List.range 32) t State.evaluateAgain).setEvt .calId 0 24).record
      { code := 0x3107, sev := 1, data := [1, mask % 2 ^ 32, r.binding, r.eid] } := by
  have hsame : ¬ (decide (t.flash = s.flash) && t.id.unaccepted == s.id.unaccepted && s.id.lastAccept == some (1, mask)) = true := by simp [hne]
  have h0 : Nat.testBit 1 0 = true := by decide
  have h1 : ¬ Nat.testBit 1 1 = true := by decide
  simp only [State.accepting, if_pos h0, if_neg h1, ht]
  exact if_neg hsame

/-- Evaluating every port again keeps what is accepted. -/
theorem State.evaluateAll_accepted (t : State) : (forEach (List.range 32) t State.evaluateAgain).flash.acceptedLocus = t.flash.acceptedLocus ∧
    (forEach (List.range 32) t State.evaluateAgain).id = t.id := by
  have plain : Flash.Plain (fun f => f.acceptedLocus = t.flash.acceptedLocus) := fun _ _ h => h
  generalize List.range 32 = l
  constructor
  · exact foldl_only (fun v : State => v.flash.acceptedLocus = t.flash.acceptedLocus)
      (fun v p h => State.evaluateAgain_plain plain p (fun _ _ _ _ hf => hf) h) l rfl
  · exact forEach_keeps_reading State.id (fun v p => (v.evaluateAgain_only p (Foot.sub (by decide) (Foot.refl _)) (Only.refl _ v)).id_eq) l t

/-- The assigned locus accepted where another stood: it is stored, and the module counts as accepted. -/
theorem State.accepting_locus {s : State} {l : Nat} (r : Req) (mask : Nat) (hl : s.id.locus = some l) (ha : s.flash.acceptedLocus ≠ some l) :
    (s.accepting r 1 mask).flash.acceptedLocus = some l ∧ (s.accepting r 1 mask).id.unaccepted = false ∧
      ((s.accepting r 1 mask).evBits .calId 0).testBit 24 = true := by
  obtain ⟨t, ht, hacc, hun⟩ : ∃ t, s.acceptLocus = t ∧ t.flash.acceptedLocus = some l ∧ t.id.unaccepted = false := by
    rw [State.acceptLocus, hl]
    exact ⟨_, rfl, rfl, rfl⟩
  have changed : t.flash ≠ s.flash := fun e => ha (e ▸ hacc)
  rw [State.accepting_new r mask ht changed]
  obtain ⟨hflash, hid⟩ := t.evaluateAll_accepted
  generalize forEach (List.range 32) t State.evaluateAgain = u at hflash hid
  have plain : Flash.Plain (fun f => f.acceptedLocus = some l) := fun _ _ h => h
  refine ⟨?_, ?_, State.record_bit _ (u.setEvt_bit _ _ _)⟩
  · exact (u.setEvt_only .calId 0 24 (Foot.sub (by decide) (Foot.refl _)) (Only.refl _ u)).plain plain (hflash.trans hacc)
  · exact (congrArg Ident.unaccepted ((u.id_setEvt .calId 0 24).trans hid)).trans hun

theorem bitList_single {p : Nat} (h : p < 32) : bitList (2 ^ p) 32 = [p] := by
  have all : ∀ q : Fin 32, bitList (1 <<< q.val) 32 = [q.val] := by decide
  rw [← Nat.one_shiftLeft]
  exact all ⟨p, h⟩

/-- A port accepted with the IDENT it last received: its digest is stored, and the accepted locus is as it was. -/
theorem State.accepting_port {s : State} {p : Nat} {i : IdentData} (r : Req) (hp : p < 32) (hi : (s.port p).last = some i) :
    KMap.find (s.accepting r 2 (2 ^ p)).flash.digests p = some i.cert ∧ (s.accepting r 2 (2 ^ p)).flash.acceptedLocus = s.flash.acceptedLocus := by
  let P (f : Flash) : Prop := KMap.find f.digests p = some i.cert ∧ f.acceptedLocus = s.flash.acceptedLocus
  have plain : Flash.Plain P := fun _ _ h => h
  have ht : P (s.acceptPort p).flash := by
    refine ⟨?_, rfl⟩
    simp only [State.acceptPort, hi, State.updFlash, KMap.find_put_self]
  have h0 : ¬ Nat.testBit 2 0 = true := by decide
  have h1 : Nat.testBit 2 1 = true := by decide
  have goal : P (s.accepting r 2 (2 ^ p)).flash := by
    simp only [State.accepting, if_pos h1, if_neg h0, bitList_single hp, forEach, List.foldl_cons, List.foldl_nil]
    split
    · exact ht
    · refine (State.setEvt_only .calId 0 24 (Foot.sub (by decide) (Foot.refl _)) (Only.refl _ _)).plain plain ?_
      refine State.evaluateAgain_plain plain p (fun j hj f _ hf => ⟨?_, hf.2⟩) ht
      obtain rfl : i = j := Option.some.inj (hi.symm.trans hj)
      exact KMap.find_put_self _ _ _
  exact goal

/-- Settles O54: LOCUS_ASSIGN by what the module holds already, the two readings, and ID_ACCEPT by its scope. -/
theorem locusAndAcceptanceComplete : Obligations.LocusAndAcceptanceComplete := by
  refine ⟨?first, ?again, ?other, ?vdm, ?identify, ?status, ?acceptsLocus, ?acceptsPort, ?refuses⟩
  case first =>
    intro s r l hr hb hl hn
    refine ⟨_, locusAssign_first hr hb hl hn, ?_⟩
    let u := s.updId (fun d => { d with locus := some l })
    split
    · exact ⟨rfl, u.vendor_sent_after List.suffix_rfl r 0x02 0 [], rfl⟩
    · exact ⟨u.checkAccept_locus, State.vendor_sent_after (by rw [State.checkAccept_out]; exact List.suffix_rfl) r 0x02 0 [], u.checkAccept_boot.1⟩
  case again =>
    intro s r l hr hb hl hn
    refine ⟨_, locusAssign_later hr hb hl hn, ?_⟩
    rw [if_pos rfl]
    exact ⟨rfl, rfl, s.vendor_sent r 0x02 0 []⟩
  case other =>
    intro s r l k hr hb hl hn hne
    refine ⟨_, locusAssign_later hr hb hl hn, ?_⟩
    rw [if_neg hne]
    exact ⟨rfl, State.vendor_sent_after List.suffix_rfl r 0x02 4 [], s.record_found { code := 0x3108, sev := 2, data := [l, k] }⟩
  case vdm =>
    intro s r l hr hb
    refine ⟨s.vendor r 0x02 3 [], ?_, rfl, s.vendor_sent r 0x02 3 []⟩
    change execLocusAssign r l s = _
    rw [execLocusAssign, hr, if_neg (by decide), if_pos hb]
  case identify =>
    intro s r h
    refine ⟨_, ?_, s.vendor_sent r 0x01 0 _, rfl⟩
    change execMbIdentify r s = _
    rw [execMbIdentify, State.vendorGate_served _ h]
  case status =>
    intro s r h
    refine ⟨_, ?_, s.vendor_sent r 0x04 0 _, rfl⟩
    change execIdStatus r s = _
    rw [execIdStatus, State.vendorGate_served _ h]
  case acceptsLocus =>
    intro s r l h hc hl ha
    obtain ⟨hloc, hacc, hbit⟩ := State.accepting_locus r 0 hl ha
    exact ⟨_, idAccept_accepts 0 h hc (by decide), hloc, hacc, hbit, State.vendor_sent_after (s.accepting_suffix r 1 0) r 0x03 0 (leBytes 1 0)⟩
  case acceptsPort =>
    intro s r p i h hc hp hi
    obtain ⟨hdig, hacc⟩ := State.accepting_port r hp hi
    have count : s.acceptCount 2 (2 ^ p) = 1 := by
      rw [State.acceptCount, if_pos (by decide), bitList_single hp]
      simp [hi]
    refine ⟨_, idAccept_accepts (2 ^ p) h hc (by decide), hdig, hacc, ?_⟩
    rw [count]
    exact State.vendor_sent_after (s.accepting_suffix r 2 (2 ^ p)) r 0x03 0 (leBytes 1 1)
  case refuses =>
    intro s r scope mask h hc
    refine ⟨s.vendor r 0x03 3 [], ?_, rfl, rfl, s.vendor_sent r 0x03 3 []⟩
    change execIdAccept r scope mask s = _
    rw [execIdAccept, State.vendorGate_served _ h, hc, if_pos (by decide)]

end Sys2Proof.Machine
end

section
/-!
Image slots (16 R397, R398).
-/
namespace Sys2Proof.Machine

/-! ### What a committed configuration leaves -/

theorem State.goLive_id (s : State) (c : Cfg) : (s.goLive c).id = { s.id with liveWaiting := none } := by
  unfold State.goLive
  extract_lets u v
  generalize List.range 32 = l
  exact forEach_keeps_reading State.id (fun w p => (w.evaluateAgain_only p (Foot.sub (by decide) (Foot.refl _)) (Only.refl _ w)).id_eq) l v

theorem State.commitLive_writer (s : State) (c : Cfg) : (s.commitLive c).id.writer = s.id.writer := by
  unfold State.commitLive
  split
  · rfl
  · extract_lets n
    split
    · rfl
    · exact (congrArg Ident.writer (s.goLive_id n) :)

theorem State.commitLive_suffix (s : State) (c : Cfg) : s.out <:+ (s.commitLive c).out :=
  (State.commitLive_keeps (pw := false) c (Keeps.refl _ s)).sent

/-! ### The writer (R397) -/

/-- The slot that did not boot is the one written. -/
theorem State.writeTarget_other {s : State} {k : Nat} (hk : s.id.booted = some k) : s.writeTarget = 1 - k := by
  rw [State.writeTarget, hk]

/-- The image that booted, empty where none did. -/
def State.bootedImage (s : State) : List Byte := match s.id.booted with | some k => (s.flash.slot k).image | none => []

/-- The GENERATION the next committed image takes (R397). -/
def State.nextGen (s : State) : Nat := (max s.flash.slotA.gen s.flash.slotB.gen + 1) % 2 ^ 32

/-- Image `m` stored in slot `k` (R397, R398), before its live fields take effect. -/
def State.storeImage (s : State) (k : Nat) (m : List Byte) : State :=
  let u := (s.updSlot k (fun _ => { st := .valid, gen := s.nextGen, tries := 0, image := m })).updFlash
    (fun f => { f with serial := max s.flash.serial (imgSerial m) })
  (u.updId (fun d => { d with writer := none, pendingReset := s.id.booted.isNone || needsReset s.bootedImage m })).record
    { code := 0x3104, sev := 1, data := [k, s.nextGen] ++ wide (imgSerial m) }

/-- IMG_COMMIT by the writer: the image is tested, and stored where it passes (R397). -/
theorem imgCommit_writer {s : State} {r : Req} {w : Writer} (hv : s.vendorServed r true true = true) (hw : s.id.writer = some w)
    (hh : w.heldBy r = true) : exec (.imgCommit r) s = .next (
      let t := commitTest (s.written w).1 s.bootedImage s.flash
      let u := (s.written w).2
      if t.1 ≠ 0 then (u.imageRejected w.target t.1).vendor r 0x0A 6 (leBytes 1 t.1)
      else ((u.storeImage w.target t.2).commitLive ((imgConfig t.2).getD Cfg.dflt)).vendor r 0x0A 0 (leBytes 4 s.nextGen)) := by
  change execImgCommit r s = _
  rw [execImgCommit, State.vendorGate_served _ hv, State.asWriter_held _ _ hw hh]
  rfl

/-- Settles O55: one writer at a time; what a command of the writer's does to the slot it holds, and to the record of the writer. -/
theorem imagesAreWritten : Obligations.ImagesAreWritten := by
  refine ⟨?begins, ?busy, ?writes, ?noWriter, ?rejects, ?commits, ?aborts, ?status, ?idle⟩
  case begins =>
    intro s r n hv hw h0 hn
    have hlen : ¬ (n = 0 ∨ slotCapacity < n) := by omega
    let u := s.updSlot s.writeTarget (fun q => { q with st := .writing })
    let v := u.updId (fun d => { d with pendingReset := false, writer := some { who := r, target := s.writeTarget, length := n, bytes := [] } })
    refine ⟨v.vendor r 0x08 0 (leBytes 1 s.writeTarget), ?_, rfl, ?_, fun k hk hk2 => ?_, State.vendor_sent_after List.suffix_rfl r 0x08 0 _⟩
    · change execImgBegin r n s = _
      rw [execImgBegin, State.vendorGate_served _ hv, hw, if_neg (by decide), if_neg hlen]
    · exact congrArg Slot.st (s.slot_updSlot_same s.writeTarget (fun q => { q with st := .writing }))
    · have hother := s.slot_updSlot_other (i := s.writeTarget) (fun q => { q with st := .writing }) (by rw [State.writeTarget_other hk]; omega)
      rw [State.writeTarget_other hk, show 1 - (1 - k) = k by omega] at hother
      exact (congrArg (fun i => ((s.updSlot i (fun q => { q with st := .writing })).flash.slot k)) (State.writeTarget_other hk)).trans hother
  case busy =>
    intro s r n w hv hw
    refine ⟨s.vendor r 0x08 2 [], ?_, rfl, rfl, s.vendor_sent r 0x08 2 []⟩
    change execImgBegin r n s = _
    rw [execImgBegin, State.vendorGate_served _ hv, hw, Option.isSome_some, if_pos rfl]
  case writes =>
    intro s r off b w hv hw hh hoff
    have hgo : ¬ (([b] : List Byte).isEmpty ∨ 1024 < [b].length ∨ w.length < off + [b].length) := by
      simp only [List.isEmpty_cons, List.length_cons, List.length_nil, Bool.false_eq_true, false_or]
      omega
    let u := s.updId (fun d => { d with writer := some { w with bytes := KMap.put w.bytes off b } })
    refine ⟨u.vendor r 0x09 0 [], ?_, ⟨_, rfl, KMap.find_put_self _ _ _, fun i hi => ?_⟩, rfl, State.vendor_sent_after List.suffix_rfl r 0x09 0 []⟩
    · change execImgWrite r off [b] s = _
      rw [execImgWrite, State.vendorGate_served _ hv, State.asWriter_held _ _ hw hh, if_neg hgo]
      rfl
    · rw [KMap.find_put, if_neg hi]
  case noWriter =>
    intro s r off bs hv hw
    refine ⟨s.vendor r 0x09 3 [], ?_, rfl, s.vendor_sent r 0x09 3 []⟩
    change execImgWrite r off bs s = _
    rw [execImgWrite, State.vendorGate_served _ hv, State.asWriter, hw]
  case rejects =>
    intro s r w code hv hw hh hne hcode
    have hcode : (commitTest (s.written w).1 s.bootedImage s.flash).1 = code := hcode.symm
    refine ⟨((s.written w).2.imageRejected w.target code).vendor r 0x0A 6 (leBytes 1 code), ?_, rfl, hw, rfl, rfl,
      State.vendor_sent_after List.suffix_rfl r 0x0A 6 _⟩
    rw [imgCommit_writer hv hw hh]
    simp only [hcode, ne_eq, hne, not_false_eq_true, if_true]
  case commits =>
    intro s r w m hv hw hh ht hpass
    have hpass : commitTest (s.written w).1 s.bootedImage s.flash = (0, m) := hpass
    let u := (s.written w).2.storeImage w.target m
    refine ⟨(u.commitLive ((imgConfig m).getD Cfg.dflt)).vendor r 0x0A 0 (leBytes 4 s.nextGen), ?_, ?_, ?_, ?_,
      State.vendor_sent_after (s := s) (State.commitLive_suffix u _) r 0x0A 0 _⟩
    · rw [imgCommit_writer hv hw hh]
      simp only [hpass, ne_eq, not_true, if_false]
      rfl
    · rw [State.vendor_flash, State.slot_commitLive]
      exact State.slot_updSlot_same ..
    · rw [State.vendor_flash, State.slot_commitLive]
      exact State.slot_updSlot_other (s.written w).2 _ ht
    · rw [State.vendor_id, State.commitLive_writer]
      rfl
  case aborts =>
    intro s r w hv hw hh
    refine ⟨(s.updId (fun d => { d with writer := none })).vendor r 0x0B 0 [], ?_, rfl, rfl, State.vendor_sent_after List.suffix_rfl r 0x0B 0 []⟩
    change execImgAbort r s = _
    rw [execImgAbort, State.vendorGate_served _ hv, State.asWriter_held _ _ hw hh]
  case status =>
    intro s r hv
    refine ⟨s.vendor r 0x0C 0 (s.flash.slotA.bytes ++ s.flash.slotB.bytes), ?_, rfl, s.vendor_sent r 0x0C 0 _⟩
    change execImgStatus r s = _
    rw [execImgStatus, State.vendorGate_served _ hv]
  case idle => exact fun s => ⟨s.updId (fun d => { d with writer := none }), rfl, rfl, rfl, rfl⟩

end Sys2Proof.Machine
end

section
/-!
Owner keys, the security version, MODULE_RESET and requests to a coordinator (16 R399, R405, 05 R133, 12 R325).
-/
namespace Sys2Proof.Machine

/-! ### Messages to some participants -/

/-- No message changes the coordinator's epoch, so all of them carry the same. -/
theorem State.toSome_eq (s : State) (x m n k p : Nat) (dest : List Nat) :
    s.toSome x dest m n k p = forEach dest s (fun u l => u.sendCtrl l m n k (p + field (s.ctx x).coord.epoch 32 160)) := by
  unfold State.toSome forEach
  induction dest generalizing s with
  | nil => rw [List.foldl_nil, List.foldl_nil]
  | cons l dest ih =>
    have same (q : Nat) : (s.sendCtrl l m n k q).ctx x = s.ctx x := rfl
    rw [List.foldl_cons, List.foldl_cons, ih, same]

theorem State.toSome_sent (s : State) (x m n k p : Nat) {dest : List Nat} {l : Nat} (h : l ∈ dest) :
    ctrlSent s (s.toSome x dest m n k p) l m n k (p + field (s.ctx x).coord.epoch 32 160) := by
  rw [State.toSome_eq]
  generalize p + field (s.ctx x).coord.epoch 32 160 = q
  exact forEach_ctrlSent (fun u a => u.sendCtrl_suffix a m n k q []) h s (fun u => u.sendCtrl_sent l m n k q [])

theorem State.toSome_suffix (s : State) (x m n k p : Nat) (dest : List Nat) : s.out <:+ (s.toSome x dest m n k p).out := by
  unfold State.toSome
  exact forEach_suffix (fun u a => State.sendCtrl_suffix u _ _ _ _ _ _) _ s

theorem State.toSome_ctxs (s : State) (x m n k p : Nat) (dest : List Nat) : (s.toSome x dest m n k p).ctxs = s.ctxs :=
  (s.toSome_only x dest m n k p (Foot.sub (by decide) (Foot.refl _)) (Only.refl _ s)).ctxs_eq

/-! ### A job resumed (05 R133) -/

/-- RESUME goes to every participant with the launch count answered, and the coordinator holds the job no more. -/
theorem State.resumeJob_resumes (s : State) (x : Nat) : ((s.resumeJob x).2.ctx x).coord.held = false ∧
    ((s.resumeJob x).2.ctx x).coord.launch = (s.resumeJob x).1 ∧ s.out <:+ (s.resumeJob x).2.out ∧
    ∀ p ∈ (s.ctx x).pmap, ∃ n k, ctrlSent s (s.resumeJob x).2 p 0x08 n k ((s.resumeJob x).1 + field (s.ctx x).coord.epoch 32 160) := by
  unfold State.resumeJob
  dsimp only
  refine ⟨?_, ?_, State.toAll_suffix .., fun p hp => ⟨_, _, s.toAll_sent x 0x08 _ _ _ [] hp⟩⟩
  · rw [State.ctx_updCoord_self]
  · rw [State.ctx_updCoord_self]
    rfl

/-! ### Owner keys (R399) -/

/-- A key may be taken: none is current, or the current one signed it. -/
def State.ownerAllows (s : State) (key sig : List Byte) : Bool :=
  match s.flash.ownerSlot with
  | none => true
  | some k => ecdsaByDigest (s.flash.owners.getD k ([], true)).1 sig (sha384 key)

/-- The keys with a new one current and the earlier ones revoked. -/
def Flash.withOwner (f : Flash) (key : List Byte) : List (List Byte × Bool) := f.owners.map (fun o => (o.1, true)) ++ [(sha384 key, false)]

theorem ownerProvision_takes {s : State} {r : Req} {key sig : List Byte} (hv : s.vendorServed r true true = true) (hlen : key.length = 97)
    (hroom : s.flash.owners.length < 4) (hok : s.ownerAllows key sig = true) :
    ∃ t, exec (.ownerProvision r key sig) s = .next t ∧ t.flash.owners = s.flash.withOwner key ∧
      sentBetween s t (vendorAnswer r 0x0E 0 (leBytes 1 s.flash.owners.length)) := by
  refine ⟨((s.updFlash (fun f => { f with owners := f.withOwner key })).record
      { code := 0x310A, sev := 1, data := [s.flash.owners.length, s.flash.ownerSlot.getD 0xFFFFFFFF] }).vendor r 0x0E 0
      (leBytes 1 s.flash.owners.length), ?_, rfl, State.vendor_sent_after List.suffix_rfl r 0x0E 0 _⟩
  have hok : ¬ (!s.ownerAllows key sig) = true := by simp [hok]
  change execOwnerProvision r key sig s = _
  rw [execOwnerProvision, State.vendorGate_served _ hv, if_neg (Classical.not_not.2 hlen), if_neg (Nat.not_le.2 hroom)]
  exact congrArg Host.Outcome.next (if_neg hok)

theorem ownerProvision_refuses {s : State} {r : Req} {key sig : List Byte} (hv : s.vendorServed r true true = true) (hlen : key.length = 97)
    (hroom : s.flash.owners.length < 4) (hok : s.ownerAllows key sig = false) :
    exec (.ownerProvision r key sig) s = .next (s.vendor r 0x0E 3 []) := by
  have hok : (!s.ownerAllows key sig) = true := by simp [hok]
  change execOwnerProvision r key sig s = _
  rw [execOwnerProvision, State.vendorGate_served _ hv, if_neg (Classical.not_not.2 hlen), if_neg (Nat.not_le.2 hroom)]
  exact congrArg Host.Outcome.next (if_pos hok)

/-- With one key, current, the next must be signed with it. -/
theorem State.ownerAllows_one {s : State} {d : List Byte} (key sig : List Byte) (h : s.flash.owners = [(d, false)]) :
    s.ownerAllows key sig = ecdsaByDigest d sig (sha384 key) := by
  have hslot : s.flash.ownerSlot = some 0 := by simp [Flash.ownerSlot, h, List.range_succ]
  rw [State.ownerAllows, hslot, h]
  rfl

/-- Settles O56: the flash records a version or a key that is allowed, MODULE_RESET answers first, and a coordinator passes a request on. -/
theorem securityAndRequestsComplete : Obligations.SecurityAndRequestsComplete := by
  refine ⟨?version, ?versionHigh, ?firstKey, ?signedKey, ?unsignedKey, ?reset, ?resumes, ?notHeld, ?restores⟩
  case version =>
    intro s r v k hv hk hle
    have hgo : ¬ (s.id.booted.isNone ∨ s.id.secVersion < v) := by simp [hk, hle]
    change ∃ t, execSecverAdvance r v s = .next t ∧ _
    rw [execSecverAdvance, State.vendorGate_served _ hv, if_neg hgo]
    dsimp only
    by_cases hold : v ≤ s.flash.secMin
    · rw [if_pos hold, Nat.max_eq_left hold]
      exact ⟨_, rfl, rfl, s.vendor_sent r 0x0D 0 _⟩
    · rw [if_neg hold, Nat.max_eq_right (Nat.le_of_not_le hold)]
      exact ⟨_, rfl, rfl, State.vendor_sent_after List.suffix_rfl r 0x0D 0 _⟩
  case versionHigh =>
    intro s r v hv hno
    have hgo : s.id.booted.isNone ∨ s.id.secVersion < v := hno.imp (fun h => by simp [h]) id
    refine ⟨s.vendor r 0x0D 4 [], ?_, rfl, s.vendor_sent r 0x0D 4 []⟩
    change execSecverAdvance r v s = _
    rw [execSecverAdvance, State.vendorGate_served _ hv, if_pos hgo]
  case firstKey =>
    intro s r key sig hv hlen hown
    have hslot : s.flash.ownerSlot = none := by simp [Flash.ownerSlot, hown]
    have h := ownerProvision_takes (sig := sig) hv hlen (by rw [hown]; decide) (by rw [State.ownerAllows, hslot])
    rwa [Flash.withOwner, hown] at h
  case signedKey =>
    intro s r key sig d hv hlen hown hsig
    have h := ownerProvision_takes hv hlen (by simp [hown]) ((State.ownerAllows_one key sig hown).trans hsig)
    rwa [Flash.withOwner, hown] at h
  case unsignedKey =>
    intro s r key sig d hv hlen hown hsig
    exact ⟨_, ownerProvision_refuses hv hlen (by simp [hown]) ((State.ownerAllows_one key sig hown).trans hsig), rfl,
      s.vendor_sent r 0x0E 3 []⟩
  case reset =>
    intro s r hv
    refine ⟨(s.vendor r 0x10 0 []).moduleReset, ?_, ?_, rfl, rfl, rfl, rfl, rfl, rfl⟩
    · change execModuleReset r s = _
      rw [execModuleReset, State.vendorGate_served _ hv]
    · exact s.vendor_sent r 0x10 0 []
  case resumes =>
    intro s r x hv hx hst hact
    have hgo : ¬ (decide (16 ≤ x) || (s.ctx x).st != .held || !(s.ctx x).coord.active) = true := by simp [hst, hact, hx]
    obtain ⟨hheld, hlaunch, hout, hsent⟩ := s.resumeJob_resumes x
    refine ⟨(s.resumeJob x).2.vendor r 0x20 0 (leBytes 8 (s.resumeJob x).1), ?_, hheld, (s.resumeJob x).1, State.vendor_sent_after hout r 0x20 0 _, hlaunch,
      fun p hp => ?_⟩
    · change execCtxResumeReq r x s = _
      rw [execCtxResumeReq, State.vendorGate_served _ hv, if_neg hgo]
    · obtain ⟨n, k, h⟩ := hsent p hp
      exact ⟨n, k, h.mono ⟨[_], rfl⟩⟩
  case notHeld =>
    intro s r x hv hno
    have hgo : (decide (16 ≤ x) || (s.ctx x).st != .held || !(s.ctx x).coord.active) = true := by
      obtain h | h := hno <;> simp [h]
    refine ⟨s.vendor r 0x20 4 [], ?_, rfl, s.vendor_sent r 0x20 4 []⟩
    change execCtxResumeReq r x s = _
    rw [execCtxResumeReq, State.vendorGate_served _ hv, if_pos hgo]
  case restores =>
    intro s r x j k hv hx hst hact
    have hgo : ¬ (decide (16 ≤ x) || (s.ctx x).st != .armed || !(s.ctx x).coord.active) = true := by simp [hst, hact, hx]
    refine ⟨(State.toSome (s.updCoord x (fun o => { o with restore := some (k, j, []) })) x ((s.ctx x).coord.armed.map (·.1)) 0x49 k 0
      (field j 32 32)).vendor r 0x21 0 [], ?_, ?_, fun e he => ?_, State.vendor_sent_after (State.toSome_suffix ..) r 0x21 0 []⟩
    · change execGeyRestoreReq r x j k s = _
      rw [execGeyRestoreReq, State.vendorGate_served _ hv, if_neg hgo]
      simp only [State.ctx_updCoord_self]
    · rw [State.ctx, State.vendor_ctxs, State.toSome_ctxs, ← State.ctx, State.ctx_updCoord_self]
    · have h := State.toSome_sent (s.updCoord x (fun o => { o with restore := some (k, j, []) })) x 0x49 k 0 (field j 32 32)
        (List.mem_map_of_mem (f := (·.1)) he)
      rw [State.ctx_updCoord_self] at h
      exact (h.before List.suffix_rfl).mono ⟨[_], rfl⟩

end Sys2Proof.Machine
end

section
/-!
The commands of the event recorder (14 R359, R362 to R364, 17 R429).
-/
namespace Sys2Proof.Machine

-- Proofs elaborated one after another keep the whole text within the memory its compile is given.
set_option Elab.async false

/-! ### Closing a record (R359) -/

theorem Evr.updRec_records (e : Evr) (q : Nat) (f : EvRec → EvRec) :
    (e.updRec q f).log ++ (e.updRec q f).spill = (e.log ++ e.spill).map (fun r => if r.seq = q then f r else r) := List.map_append.symm

theorem Evr.close_nextSeq (e : Evr) (q : Nat) : (e.close q).nextSeq = e.nextSeq := by
  unfold Evr.close
  split
  · rfl
  · unfold Evr.exportOnClose
    split <;> rfl

/-- The records after a close: the ones of its SEQ closed, the others as they were. -/
theorem Evr.close_records (e : Evr) (q : Nat) : (e.close q).log ++ (e.close q).spill =
    (e.log ++ e.spill).map (fun r => if r.seq = q then { r with isOpen := false } else r) := by
  unfold Evr.close
  split
  · next h =>
    rw [List.find?_eq_none] at h
    have same (r : EvRec) (hr : r ∈ e.log ++ e.spill) : (if r.seq = q then { r with isOpen := false } else r) = r := by
      split
      · next hq =>
        have ho : r.isOpen = false := by simpa [hq] using h r hr
        rw [← ho]
      · rfl
    exact ((List.map_congr_left same).trans (List.map_id _)).symm
  · rw [(Evr.exportOnClose_log _ _).1, (Evr.exportOnClose_log _ _).2.1, Evr.updRec_records]

/-! ### The requester and the freeze (R362) -/

theorem Evr.heldByOther_of_held {e : Evr} {r : Req} (h : e.heldBy r = true) : e.heldByOther r = false := by
  rw [Evr.heldByOther, h, Bool.not_true, Bool.and_false]

theorem Evr.unheld_of_none {e : Evr} (r : Req) (h : e.freeze = none) : e.heldBy r = false ∧ e.heldByOther r = false := by
  simp [Evr.heldBy, Evr.heldByOther, h]

theorem Evr.frozen_of_held {e : Evr} {r : Req} (h : e.heldBy r = true) : e.freeze.isSome = true := by
  unfold Evr.heldBy at h
  split at h
  · next hf => rw [hf]; rfl
  · cases h

/-- The closed records up to a SEQ and severity (R364). -/
def Evr.cleared (e : Evr) (q sev : Nat) (x : EvRec) : Bool :=
  !x.isOpen && decide (x.severity ≤ sev) && decide (serialOff 32 x.seq (e.base false) ≤ serialOff 32 q (e.base false))

/-- The log without the records cleared. -/
def State.clearLog (s : State) (q sev : Nat) : State := s.updEvr (fun e => { e with log := e.log.filter (fun x => !s.evr.cleared q sev x) })

/-- A clear is counted and its event bit set. -/
def State.noteClear (s : State) : State := (s.bump .evrClears 0).withLog ((s.bump .evrClears 0).toLog.evrBit 29)

theorem State.noteClear_bit (s : State) : (s.noteClear.evBits .evrStatus 0).testBit 29 = true := by
  simp only [State.noteClear, State.evBits, State.withLog, Log.evrBit, KMap.upd, KMap.getD_put_self]
  rw [testBit_setBit, if_pos rfl]

theorem State.noteClear_ctr (s : State) : s.noteClear.ctr .evrClears 0 = satAdd 16 (s.ctr .evrClears 0) 1 := s.ctr_bump_self .evrClears 0 1

/-- EVR_CLEAR where no freeze stands: the records go, and a CLEARED record says so (R364). -/
theorem evrClear_clears {s : State} {r : Req} {q sev : Nat} (hv : s.vendorServed r false true = true)
    (hc : s.cfg.evrClearChannels.testBit r.binding = true) (hf : s.evr.freeze = none) :
    exec (.evrClear r q sev) s = .next (((s.clearLog q sev).noteClear.record
      { code := 0x0F01, sev := 1, data := [r.binding, r.eid, q, sev, (s.evr.log.filter (s.evr.cleared q sev)).length] }).vendor r 0x34 0
        (leBytes 4 (s.evr.log.filter (s.evr.cleared q sev)).length)) := by
  have hw : s.when s.evr.freeze.isSome State.endFreeze = s := by rw [hf]; rfl
  change execEvrClear r q sev s = _
  rw [execEvrClear, State.vendorGate_served _ hv, hc, if_neg (by decide), (Evr.unheld_of_none r hf).2, if_neg (by decide), hw]
  have hgone : (fun x : EvRec => !x.isOpen && decide (x.severity ≤ sev) &&
      decide (serialOff 32 x.seq (s.evr.base false) ≤ serialOff 32 q (s.evr.base false))) = s.evr.cleared q sev := by
    funext x
    rw [Evr.cleared]
  dsimp only [State.clearLog, State.noteClear]
  rw [hgone]
  dsimp only [Evr.cleared]

/-- The CLEARED record stands at the end of what is left of a short log. -/
theorem State.record_cleared {s : State} (v : Event) (hv : v.code = 0x0F01) (hl : s.evr.log.length < 256) (hs : s.evr.spill = []) :
    (s.record v).evr.log = s.evr.log ++ [v.made s.toLog s.mkRec] ∧ (v.made s.toLog s.mkRec).seq = s.evr.nextSeq := by
  have hopen : s.toLog.openFor v.code v.srcType v.srcIndex v.ctx = none := by rw [Log.openFor, if_pos hv]
  have hroom : s.evr.makeRoom = s.evr := by
    have hfew : s.evr.openRecs.length ≤ s.evr.log.length := by
      rw [Evr.openRecs, hs, List.append_nil]
      exact List.length_filter_le _ _
    rw [Evr.makeRoom, if_neg (by omega)]
  refine ⟨?_, congrArg Evr.nextSeq hroom⟩
  rw [State.record_room hopen (Nat.lt_trans hl (by decide)), hroom]

/-- Settles O48: each command by who holds the freeze; a read and a clear of a log of one record. -/
theorem recorderCommandsComplete : Obligations.RecorderCommandsComplete := by
  refine ⟨?close, ?info, ?freeze, ?renews, ?busy, ?read, ?badCount, ?release, ?releaseBusy, ?clears, ?clearKeeps, ?clearDenied, ?timeout,
    fun s h => congrArg Host.Outcome.next (by rw [h])⟩
  case close =>
    intro s q
    refine ⟨s.updEvr (fun e => e.close q), rfl, fun r hr hq => ?_, fun r hq => ?_, s.evr.close_nextSeq q⟩
    · have hr : r ∈ (s.evr.close q).log ++ (s.evr.close q).spill := hr
      rw [Evr.close_records, List.mem_map] at hr
      obtain ⟨x, -, rfl⟩ := hr
      split
      · rfl
      · next h => rw [if_neg h] at hq; exact absurd hq h
    · change r ∈ (s.evr.close q).log ++ (s.evr.close q).spill ↔ _
      rw [Evr.close_records, List.mem_map]
      refine ⟨?_, fun h => ⟨r, h, if_neg hq⟩⟩
      rintro ⟨x, hx, rfl⟩
      split at hq
      · next h => exact absurd h hq
      · next h => rwa [if_neg h]
  case info =>
    intro s r hv
    change ∃ t, execEvrInfo r s = .next t ∧ _
    rw [execEvrInfo, State.vendorGate_served _ hv]
    refine ⟨_, rfl, fun h => ?_, fun h => ?_, ?_⟩
    · rw [State.vendor_evr, State.updEvr_evr, if_pos h]
    · rw [State.vendor_evr, State.updEvr_evr, if_neg h]
    · dsimp only
      cases hf : s.evr.freeze <;> exact State.vendor_sent_after List.suffix_rfl r 0x30 0 _
  case freeze =>
    intro s r hv hf
    change ∃ t, execEvrFreeze r s = .next t ∧ _
    rw [execEvrFreeze, State.vendorGate_served _ hv]
    simp only [hf]
    exact ⟨_, rfl, ⟨_, rfl, rfl, rfl, rfl, State.vendor_sent_after List.suffix_rfl r 0x31 0 _⟩, rfl⟩
  case renews =>
    intro s r f hv hf hh
    change ∃ t, execEvrFreeze r s = .next t ∧ _
    rw [execEvrFreeze, State.vendorGate_served _ hv]
    simp only [hf, hh, if_true]
    exact ⟨_, rfl, rfl, rfl⟩
  case busy =>
    intro s r f hv hf hh
    change ∃ t, execEvrFreeze r s = .next t ∧ _
    rw [execEvrFreeze, State.vendorGate_served _ hv]
    simp only [hf, hh, Bool.false_eq_true, if_false]
    exact ⟨_, rfl, rfl, s.vendor_sent r 0x31 2 _⟩
  case read =>
    intro s r n sev a hv hf hl hsp h1 h40 hsev
    have hgo : ¬ (n = 0 ∨ 40 < n) := by omega
    obtain ⟨k, rfl⟩ : ∃ k, n = k + 1 := ⟨n - 1, by omega⟩
    have hscan : evrScan sev (k + 1) [a] = ([a], [a]) := by simp [evrScan, hsev]
    change ∃ t, execEvrRead r a.seq (k + 1) sev s = .next t ∧ _
    rw [execEvrRead, State.vendorGate_served _ hv, if_neg hgo]
    simp only [(Evr.unheld_of_none r hf).1, Evr.base, Evr.all, hf, hl, Bool.false_eq_true, if_false, List.head?_cons, Option.map_some, Option.getD_some,
      Int.le_refl, decide_true, List.filter_cons_of_pos, List.filter_nil, hscan]
    refine ⟨_, rfl, rfl, ?_⟩
    simp only [List.getLast?_singleton, List.length_singleton, Nat.lt_irrefl, decide_false, List.map_cons, List.map_nil, List.flatten_cons, List.flatten_nil,
      List.append_nil]
    exact s.vendor_sent r 0x32 0 _
  case badCount =>
    intro s r q n sev hv hn
    refine ⟨s.vendor r 0x32 4 [], ?_, rfl, s.vendor_sent r 0x32 4 []⟩
    change execEvrRead r q n sev s = _
    rw [execEvrRead, State.vendorGate_served _ hv, if_pos hn]
  case release =>
    intro s r hv hh hsp
    refine ⟨(s.updEvr (fun e => { e with freeze := none, spill := [] })).vendor r 0x33 0 [], ?_, rfl, rfl,
      State.vendor_sent_after List.suffix_rfl r 0x33 0 []⟩
    change execEvrRelease r s = _
    rw [execEvrRelease, State.vendorGate_served _ hv, Evr.heldByOther_of_held hh, if_neg (by decide), Evr.frozen_of_held hh, State.when, if_pos rfl,
      State.endFreeze_unspilled hsp]
  case releaseBusy =>
    intro s r hv hh
    refine ⟨s.vendor r 0x33 2 [], ?_, rfl, s.vendor_sent r 0x33 2 []⟩
    change execEvrRelease r s = _
    rw [execEvrRelease, State.vendorGate_served _ hv, if_pos hh]
  case clears =>
    intro s r a sev hv hc hf hl hsp ho hsev hne
    have hbase : s.evr.base false = a.seq := by simp [Evr.base, Evr.all, hf, hl]
    have gone : s.evr.cleared a.seq sev a = true := by simp [Evr.cleared, ho, hsev]
    have hn : s.evr.log.filter (s.evr.cleared a.seq sev) = [a] := by rw [hl, List.filter_cons_of_pos gone, List.filter_nil]
    let v : Event := { code := 0x0F01, sev := 1, data := [r.binding, r.eid, a.seq, sev, [a].length] }
    have hlog : (s.clearLog a.seq sev).noteClear.evr.log = [] := by
      change s.evr.log.filter _ = []
      rw [hl, List.filter_cons_of_neg (by simp [gone]), List.filter_nil]
    obtain ⟨hrec, hseq⟩ := State.record_cleared (s := (s.clearLog a.seq sev).noteClear) v rfl (by rw [hlog]; decide) hsp
    rw [hlog, List.nil_append] at hrec
    have hexec := evrClear_clears (q := a.seq) (sev := sev) hv hc hf
    rw [hn] at hexec
    refine ⟨_, hexec, ?_, ⟨v.made (s.clearLog a.seq sev).noteClear.toLog (s.clearLog a.seq sev).noteClear.mkRec, ?_, rfl, rfl⟩, ?_, ?_,
      State.vendor_sent_after List.suffix_rfl r 0x34 0 _⟩
    · rw [State.vendor_evr]
      intro h
      rw [hrec, List.mem_singleton] at h
      exact hne (h ▸ hseq)
    · rw [State.vendor_evr, hrec]
      exact List.mem_singleton_self _
    · exact (State.record_ctr _ v (by decide) (by decide)).trans ((State.noteClear_ctr _).trans rfl)
    · exact State.record_bit v (State.noteClear_bit _)
  case clearKeeps =>
    intro s r a q sev hv hc hf hl hsp hkeep
    have stays : ¬ s.evr.cleared q sev a = true := by
      obtain h | h := hkeep
      · simp [Evr.cleared, h]
      · simp [Evr.cleared, Nat.not_le.2 h]
    have hn : s.evr.log.filter (s.evr.cleared q sev) = [] := by rw [hl, List.filter_cons_of_neg stays, List.filter_nil]
    have hlog : (s.clearLog q sev).noteClear.evr.log = [a] := by
      change s.evr.log.filter _ = [a]
      rw [hl, List.filter_cons_of_pos (by simpa using stays), List.filter_nil]
    let v : Event := { code := 0x0F01, sev := 1, data := [r.binding, r.eid, q, sev, ([] : List EvRec).length] }
    have hrec := (State.record_cleared (s := (s.clearLog q sev).noteClear) v rfl (by simp [hlog]) hsp).1
    have hexec := evrClear_clears (q := q) (sev := sev) hv hc hf
    rw [hn] at hexec
    refine ⟨_, hexec, ?_, State.vendor_sent_after List.suffix_rfl r 0x34 0 _⟩
    rw [State.vendor_evr, hrec, hlog]
    exact List.mem_append_left _ (List.mem_singleton_self _)
  case clearDenied =>
    intro s r q sev hv hc
    refine ⟨s.vendor r 0x34 3 [], ?_, rfl, s.vendor_sent r 0x34 3 []⟩
    change execEvrClear r q sev s = _
    rw [execEvrClear, State.vendorGate_served _ hv, hc, Bool.not_false, if_pos rfl]
  case timeout =>
    intro s f hf
    have e : exec .evrFreezeTimeout s =
        .next (s.record { code := 0x0F03, sev := 1, data := [f.holder.binding, f.holder.eid] }).endFreeze := by
      change execEvrFreezeTimeout s = _
      rw [execEvrFreezeTimeout, hf]
    have thawed := State.endFreeze_thawed (s.record { code := 0x0F03, sev := 1, data := [f.holder.binding, f.holder.eid] })
    refine ⟨_, e, thawed.1, thawed.2, ?_⟩
    exact (State.endFreeze_only (Foot.sub (by decide) (Foot.refl _)) (Only.refl _ _)).out_eq

end Sys2Proof.Machine
end

section
/-!
The energy ledger's commands (15 R373 to R377).
-/
namespace Sys2Proof.Machine

-- Proofs elaborated one after another keep the whole text within the memory its compile is given.
set_option Elab.async false

/-! ### The ceiling (R377) -/

theorem State.movePoints_ceiling (s : State) (x k : Nat) (kp : KMap Nat) : (s.movePoints x k kp).pwr.ceiling = s.pwr.ceiling := by
  unfold State.movePoints
  extract_lets c w parts w' first u1 u2 u3 u4
  have h3 : u3.pwr.ceiling = u2.pwr.ceiling :=
    forEach_keeps_reading (fun u => u.pwr.ceiling) (f := fun s e => s.updStage e.1 (fun g => { g with setMv := pointMv e.2 })) (fun _ _ => rfl) kp u2
  have h4 : u4.pwr.ceiling = s.pwr.ceiling := h3
  unfold State.when
  split
  · exact h4
  · exact h4

theorem State.keepCeiling_ceiling (n : Nat) (s : State) : (State.keepCeiling n s).pwr.ceiling = s.pwr.ceiling := by
  induction n generalizing s with
  | zero => rfl
  | succ n ih =>
    unfold State.keepCeiling
    split
    · rfl
    · split
      · rfl
      · exact (ih _).trans (s.movePoints_ceiling _ _ _)

/-- With no ceiling no point moves. -/
theorem State.keepCeiling_none {s : State} (h : s.pwr.ceiling = 0) (n : Nat) : State.keepCeiling n s = s := by
  cases n with
  | zero => rfl
  | succ n => rw [State.keepCeiling, if_pos (.inl h)]

/-- A ceiling noted and set (R377). -/
def State.setCeiling (s : State) (w : Nat) : State :=
  (s.record { code := 0x3009, sev := 0, data := [w] }).updPwr (fun p => { p with ceiling := w, ceilingActive := p.ceilingActive && w != 0 })

/-! ### Grants (R375, R376) -/

/-- The least grant a context's reference allows, 0 without one (R375). -/
def State.grantFloor (s : State) (x : Nat) : Nat :=
  (((s.pwrCtx x).ref).map (fun q => (q.floorOf (maskParts (s.ctx x).mask) (s.ctx x).dOffset).1)).getD 0

theorem State.grantFloor_some {s : State} {x : Nat} {q : PwrRef} (h : (s.pwrCtx x).ref = some q) :
    s.grantFloor x = (q.floorOf (maskParts (s.ctx x).mask) (s.ctx x).dOffset).1 := by rw [State.grantFloor, h, Option.map_some, Option.getD_some]

theorem State.grantFloor_none {s : State} {x : Nat} (h : (s.pwrCtx x).ref = none) : s.grantFloor x = 0 := by
  rw [State.grantFloor, h, Option.map_none, Option.getD_none]

/-- PWR_GRANT to a context that may hold one, on a granting channel. -/
theorem pwrGrant_weighs {s : State} {r : Req} {x : Nat} (g eff : Nat) (hv : s.vendorServed r false false = true)
    (hc : s.cfg.pwrGrantChannels.testBit r.binding = true) (hx : x < 16) (hg : (s.ctx x).st.grantable = true) :
    exec (.pwrGrant r x g eff) s = .next (
      if g < s.grantFloor x then
        (((s.bump .pwrRefused 0).setEvt .pwrCtx x 19).record { code := 0x3007, sev := 1, ctx := x, data := wide g ++ wide (s.grantFloor x) }).vendor r 0x50 5
          (leBytes 8 (s.grantFloor x))
      else (s.updPwrCtx x (fun w => { w with waiting := w.waiting.filter (fun q => decide (q.1 ≤ eff)) ++ [(eff, g)], floorAsked := false })).vendor r 0x50 0
        (leBytes 8 (s.grantFloor x))) := by
  have hgo : ¬ (decide (16 ≤ x) || !(s.ctx x).st.grantable) = true := by simp [hg, hx]
  change execPwrGrant r x g eff s = _
  rw [execPwrGrant, State.vendorGate_served _ hv]
  simp only [hc, Bool.not_true, Bool.false_eq_true, if_false, if_neg hgo]
  rfl

/-- Settles O49: the accumulator of one stage, a grant by its floor, the ceiling by its range, and what PWR_DEMAND reads. -/
theorem ledgerCommandsComplete : Obligations.LedgerCommandsComplete := by
  refine ⟨?update, ?unpowered, ?granted, ?refused, ?denied, ?ceiling, ?badCeiling, ?demand⟩
  case update =>
    intro s i mv ma hi hg
    refine ⟨s.updStage i (fun g => { g with acc := (g.acc + 1024 * (mv * ma)) % 2 ^ 96 }), ?_, State.stage_updStage_self ..,
      fun j hj => s.stage_updStage_ne _ hj, rfl⟩
    change execLedgerUpdate i mv ma s = _
    rw [execLedgerUpdate, if_neg (Nat.not_le.2 hi), hg, Bool.not_true, if_neg Bool.false_ne_true]
  case unpowered =>
    intro s i mv ma hi hg
    change execLedgerUpdate i mv ma s = _
    rw [execLedgerUpdate, if_neg (Nat.not_le.2 hi), hg, Bool.not_false, if_pos rfl]
  case granted =>
    intro s r x g eff hv hc hx hg hfloor
    have hf : ¬ g < s.grantFloor x := by
      cases h : (s.pwrCtx x).ref with
      | none => rw [State.grantFloor_none h]; omega
      | some q => rw [State.grantFloor_some h]; exact Nat.not_lt.2 (hfloor q h)
    have e := pwrGrant_weighs g eff hv hc hx hg
    rw [if_neg hf] at e
    refine ⟨_, e, ?_, ?_, fun y hy => ?_,
      ⟨s.grantFloor x, State.vendor_sent_after List.suffix_rfl r 0x50 0 _⟩⟩
    · rw [State.pwrCtx_of_vendor, State.pwrCtx_updPwrCtx_self]
    · rw [State.pwrCtx_of_vendor, State.pwrCtx_updPwrCtx_self]
    · rw [State.pwrCtx_of_vendor, s.pwrCtx_updPwrCtx_ne _ hy]
  case refused =>
    intro s r x g eff q hv hc hx hg hq hlow
    have hf : g < s.grantFloor x := by rw [State.grantFloor_some hq]; exact hlow
    let v : Event := { code := 0x3007, sev := 1, ctx := x, data := wide g ++ wide (s.grantFloor x) }
    have out : s.out <:+ (((s.bump .pwrRefused 0).setEvt .pwrCtx x 19).record v).out :=
      (State.record_keeps (pw := false) v (State.setEvt_keeps .pwrCtx x 19 (State.bump_keeps .pwrRefused 0 1 (Keeps.refl _ s)))).sent
    have pwr : ((s.bump .pwrRefused 0).setEvt .pwrCtx x 19).pwr = s.pwr :=
      (State.setEvt_only .pwrCtx x 19 (Foot.sub (by decide) (Foot.refl _)) (Only.refl _ (s.bump .pwrRefused 0))).pwr_eq
    have e := pwrGrant_weighs g eff hv hc hx hg
    rw [if_pos hf] at e
    refine ⟨_, e, pwr, ?_, ?_, ?_⟩
    · exact (State.record_ctr _ v (by decide) (by decide)).trans
        ((State.setEvt_ctr _ .pwrCtx x 19 (by decide) (by decide)).trans (s.ctr_bump_self .pwrRefused 0 1))
    · exact State.record_bit v (State.setEvt_bit _ _ _ _)
    · rw [← State.grantFloor_some hq]
      exact State.vendor_sent_after out r 0x50 5 _
  case denied =>
    intro s r x g eff hv hc
    refine ⟨s.vendor r 0x50 3 [], ?_, rfl, s.vendor_sent r 0x50 3 []⟩
    change execPwrGrant r x g eff s = _
    rw [execPwrGrant, State.vendorGate_served _ hv]
    simp only [hc, Bool.not_false, if_true]
  case ceiling =>
    intro s r w hv hw
    have hgo : ¬ (w ≠ 0 ∧ (w < 1000 ∨ 5500 < w)) := by omega
    have e : exec (.pwrCeiling r w) s = .next ((State.keepCeiling 112 (s.setCeiling w)).vendor r 0x51 0 []) := by
      change execPwrCeiling r w s = _
      rw [execPwrCeiling, State.vendorGate_served _ hv, if_neg hgo]
      rfl
    have hu : (s.setCeiling w).pwr.ceiling = w := rfl
    have hout : s.out <:+ (s.setCeiling w).out := List.suffix_rfl
    have hmem : (s.setCeiling w).mem = s.mem := rfl
    have hpwr : (s.setCeiling w).pwr.ctx = s.pwr.ctx ∧
        (s.setCeiling w).pwr.point = s.pwr.point := ⟨rfl, rfl⟩
    generalize s.setCeiling w = u at e hu hout hmem hpwr
    refine ⟨_, e, ?_, State.vendor_sent_after ?_ r 0x51 0 [], ?_, fun h0 => ?_⟩
    · rw [State.vendor_pwr, State.keepCeiling_ceiling, hu]
    · exact hout.trans (State.keepCeiling_keeps (pw := false) 112 (Keeps.refl _ u)).sent
    · rw [State.vendor_mem, ← hmem]
      exact (State.keepCeiling_only 112 (Foot.sub (by decide) (Foot.refl _)) (Only.refl _ u)).mem_eq
    · rw [State.vendor_pwr, State.keepCeiling_none (hu.trans h0)]
      exact hpwr
  case badCeiling =>
    intro s r w hv h0 hw
    refine ⟨s.vendor r 0x51 4 [], ?_, rfl, s.vendor_sent r 0x51 4 []⟩
    change execPwrCeiling r w s = _
    rw [execPwrCeiling, State.vendorGate_served _ hv, if_pos ⟨h0, hw⟩]
  case demand =>
    intro s r x hv hx hn
    have e : exec (.pwrDemand r x) s = .next (s.vendor r 0x52 0 (leBytes 1 0 ++ leBytes 1 ((s.pwrCtx x).point.getD 15) ++ leBytes 8 0 ++ leBytes 8 0 ++
        leBytes 8 (s.pwrCtx x).lastCharge ++ leBytes 8 (s.pwrCtx x).carry ++ leBytes 8 0)) := by
      change execPwrDemand r x s = _
      rw [execPwrDemand, State.vendorGate_served _ hv, if_neg (Nat.not_le.2 hx)]
      simp only [hn, Option.map_none, Option.getD_none, Option.isSome_none, b2n, Bool.false_eq_true, if_false]
    exact ⟨_, e, rfl, s.vendor_sent r 0x52 0 _⟩

end Sys2Proof.Machine
end

section
/-!
Samples and subscriptions (13 R333, R334, R347 to R349).
-/
namespace Sys2Proof.Machine

-- Proofs elaborated one after another keep the whole text within the memory its compile is given.
set_option Elab.async false

/-! ### Time -/

theorem State.advanceTo_reaches {s : State} (h : s.fcHeld = true) (t : Nat) : t ≤ (s.advanceTo t).time.fc := by
  unfold State.advanceTo
  split
  · exact Nat.le_refl t
  · next hno => simpa [h] using hno

theorem State.advanceTo_st (s : State) (t : Nat) : (s.advanceTo t).time.st = s.time.st := by
  unfold State.advanceTo
  split <;> rfl

/-! ### What latching keeps -/

/-- What a sampler latches: its reading, and for the beats the counter as it stands. -/
theorem State.takeSample_samples {s : State} {k : Nat} {r : Reading} (h : r.index < classCount r.cls) :
    ∃ e : Sample, e.index = k ∧ e.temp = r.temp ∧ e.aux = r.aux ∧ e.beats = s.ctr .validBeats r.index ∧
      (s.takeSample k r).tel.samples = KMap.put s.tel.samples (sampleKey r.cls r.index) e := by
  unfold State.takeSample
  rw [if_neg (Nat.not_le.2 h)]
  extract_lets key old f g span beats u s1 e s2
  have h1 : s1.tel = s.tel := by
    unfold s1
    split <;> rfl
  have h2 : s2.tel.samples = KMap.put s.tel.samples key e := by
    change KMap.put s1.tel.samples key e = _
    rw [h1]
  refine ⟨e, rfl, rfl, rfl, rfl, ?_⟩
  split
  · exact h2
  · exact h2

/-- Records sent leave telemetry's own state as it was. -/
theorem ventRecords_tel (b : Sub) (p : Nat) (l : List (Nat × Nat × List Byte)) (s : State) :
    (forEach l s (fun s u => s.ventRecord b p u.1 u.2.1 u.2.2)).tel = s.tel :=
  (forEach_only l (Only.refl _ s) fun u _ hu => State.ventRecord_only b p _ _ _ (Foot.sub (by decide) (Foot.refl _)) hu).tel_eq

theorem State.flushVent_samples (s : State) : s.flushVent.tel.samples = s.tel.samples := by
  unfold State.flushVent
  split
  · rfl
  · refine forEach_keeps_reading (fun u => u.tel.samples) (fun u b => ?_) _ _
    split
    · rfl
    · extract_lets go v
      have hv : v.tel = u.tel := ventRecords_tel b _ _ u
      change v.tel.samples = u.tel.samples
      rw [hv]

theorem State.emitRecords_samples (s : State) (k : Nat) : (s.emitRecords k).tel.samples = s.tel.samples := (State.flushVent_samples _).trans rfl

/-- The end of an interval of a module that is no member of the fleet tree: the sums of the next one begin. -/
theorem State.endInterval_alone {s : State} (h : s.telMember = false) (i : Nat) :
    (s.endInterval i).tel.samples = s.tel.samples ∧ (s.endInterval i).time = s.time ∧ (s.endInterval i).mem = s.mem := by
  unfold State.endInterval
  extract_lets now ok m s1 s2 one
  have only : ∀ ps, Foot 16777216 ps → Only ps s s1 := fun ps hps =>
    Only.ite (fun _ => s.metrics_only now hps (Only.refl _ s)) (fun _ => Only.refl _ s)
  have htel : s1.tel = s.tel := (only _ (Foot.sub (by decide) (Foot.refl _))).tel_eq
  have htime : s1.time = s.time := (only _ (Foot.sub (by decide) (Foot.refl _))).time_eq
  have hmem : s1.mem = s.mem := (only _ (Foot.sub (by decide) (Foot.refl _))).mem_eq
  have hid : s1.id = s.id := (only _ (Foot.sub (by decide) (Foot.refl _))).id_eq
  clear_value s1
  have hbase : s2.tel.samples = s1.tel.samples := rfl
  have htel2 : s2.tel.samples = s.tel.samples := hbase.trans (congrArg Tel.samples htel)
  have htime2 : s2.time = s.time := (State.updTel_time _ _).trans htime
  have hmem2 : s2.mem = s.mem := (State.updTel_mem _ _).trans hmem
  have hid2 : s2.id = s.id := (State.updTel_id _ _).trans hid
  clear_value s2
  have hm : s2.telMember = false := by
    rw [← h, State.telMember, State.telMember, State.inRun, State.inRun, hid2, htime2]
  rw [hm, Bool.not_false, if_pos rfl]
  exact ⟨htel2, htime2, hmem2⟩

/-! ### Subscriptions -/

theorem Sub.isKey_iff {b : Sub} {addr udp sub : Nat} : b.isKey addr udp sub = true ↔ b.addr = addr ∧ b.udp = udp ∧ b.subId = sub := by
  simp [Sub.isKey, and_assoc]

theorem mem_filter_not_key {l : List Sub} {b : Sub} {addr udp sub : Nat} :
    b ∈ l.filter (fun b => !b.isKey addr udp sub) ↔ b ∈ l ∧ ¬(b.addr = addr ∧ b.udp = udp ∧ b.subId = sub) := by
  rw [List.mem_filter, ← Sub.isKey_iff, Bool.not_eq_true']
  simp

/-- The samplers' state, time and memory are what they were, and telemetry belongs to the fleet tree as before. -/
structure SameSamples (s t : State) : Prop where
  samples : t.tel.samples = s.tel.samples
  time : t.time = s.time
  mem : t.mem = s.mem
  member : t.telMember = s.telMember

theorem State.projectAll_samples (l : List Nat) (s : State) : SameSamples s (forEach l s State.project) := by
  have only : ∀ ps, Foot 288230376156168256 ps → Only ps s (forEach l s State.project) := fun ps hps =>
    forEach_only l (Only.refl _ s) fun u x hu => State.project_only x hps hu
  have time : (forEach l s State.project).time = s.time := (only _ (Foot.sub (by decide) (Foot.refl _))).time_eq
  have id : (forEach l s State.project).id = s.id := (only _ (Foot.sub (by decide) (Foot.refl _))).id_eq
  exact { samples := congrArg Tel.samples (only _ (Foot.sub (by decide) (Foot.refl _))).tel_eq, time,
          mem := (only _ (Foot.sub (by decide) (Foot.refl _))).mem_eq,
          member := by rw [State.telMember, State.telMember, State.inRun, State.inRun, id, time] }

/-- A latch with one reading in a module that holds the fleet count (R333). -/
theorem sampleLatch_one {s : State} (k : Nat) (r : Reading) (hf : s.fcHeld = true) : exec (.sampleLatch k [r]) s = .next (
    let v := forEach ((s.advanceTo (k * samplePeriod)).takeSample k r).liveCtxs ((s.advanceTo (k * samplePeriod)).takeSample k r) State.project
    (if k % 1024 = 1023 then v.endInterval (k / 1024) else v).emitRecords k) := by
  change execSampleLatch k [r] s = _
  rw [execSampleLatch, hf, Bool.not_true, if_neg Bool.false_ne_true]
  rfl

/-- Settles O31: a latch stores one sample, and a subscription begins, ends or loses a record by its key. -/
theorem samplesAndSubscriptionsComplete : Obligations.SamplesAndSubscriptionsComplete := by
  refine ⟨?latch, ?unheld, ?missed, ?subscribe, ?refused, ?unsubscribe, ?leaseEnd, ?aged⟩
  case latch =>
    intro s k r hf hi hk
    obtain ⟨e, h1, h2, h3, h4, hput⟩ := State.takeSample_samples (s := s.advanceTo (k * samplePeriod)) (k := k) hi
    have reached := State.advanceTo_reaches hf (k * samplePeriod)
    have hexec := sampleLatch_one k r hf
    have hu : ∀ ps, Foot 21037569 ps → Only ps s ((s.advanceTo (k * samplePeriod)).takeSample k r) := fun ps hps =>
      State.takeSample_only k r (Foot.sub (by decide) hps) (s.advanceTo_only _ (Foot.sub (by decide) hps) (Only.refl _ s))
    have hut : ((s.advanceTo (k * samplePeriod)).takeSample k r).time = (s.advanceTo (k * samplePeriod)).time :=
      (State.takeSample_only k r (Foot.sub (by decide) (Foot.refl _)) (Only.refl _ _)).time_eq
    have hadv : (s.advanceTo (k * samplePeriod)).tel = s.tel ∧ (s.advanceTo (k * samplePeriod)).ctr .validBeats r.index = s.ctr .validBeats r.index := by
      obtain ⟨m, hm⟩ := s.advanceTo_fields (k * samplePeriod)
      rw [hm]
      exact ⟨rfl, rfl⟩
    have hst := s.advanceTo_st (k * samplePeriod)
    generalize s.advanceTo (k * samplePeriod) = a at *
    generalize a.takeSample k r = u at *
    have hum : u.telMember = s.telMember := by
      rw [State.telMember, State.telMember, State.inRun, State.inRun, hut, hst, (hu _ (Foot.sub (by decide) (Foot.refl _))).id_eq]
    have hv := State.projectAll_samples u.liveCtxs u
    generalize forEach u.liveCtxs u State.project = v at hexec hv
    have hw : ∃ w : State, exec (.sampleLatch k [r]) s = .next (w.emitRecords k) ∧ w.tel.samples = u.tel.samples ∧ w.time = u.time ∧ w.mem = u.mem := by
      by_cases hlast : k % 1024 = 1023
      · have alone : v.telMember = false := hv.member.trans (hum.trans (hk.resolve_left (Classical.not_not.2 hlast)))
        obtain ⟨e1, e2, e3⟩ := State.endInterval_alone alone (k / 1024)
        exact ⟨v.endInterval (k / 1024), by rw [hexec]; simp only [if_pos hlast], e1.trans hv.samples, e2.trans hv.time, e3.trans hv.mem⟩
      · exact ⟨v, by rw [hexec]; simp only [if_neg hlast], hv.samples, hv.time, hv.mem⟩
    obtain ⟨w, hexec, hws, hwt, hwm⟩ := hw
    have only : ∀ ps, Foot 12779520 ps → Only ps w (w.emitRecords k) := fun ps hps => w.emitRecords_only k hps (Only.refl _ w)
    have hsamples : (w.emitRecords k).tel.samples = KMap.put s.tel.samples (sampleKey r.cls r.index) e := by
      rw [State.emitRecords_samples, hws, hput, hadv.1]
    refine ⟨w.emitRecords k, hexec, ?_, ⟨e, ?_, h1, h2, h3, h4.trans hadv.2⟩, fun q hq => ?_, ?_⟩
    · rw [(only _ (Foot.sub (by decide) (Foot.refl _))).time_eq, hwt, hut]
      exact reached
    · rw [hsamples, KMap.find_put_self]
    · rw [hsamples, KMap.find_put, if_neg hq]
    · rw [(only _ (Foot.sub (by decide) (Foot.refl _))).mem_eq, hwm, (hu _ (Foot.sub (by decide) (Foot.refl _))).mem_eq]
  case unheld =>
    intro s k rs hf
    change execSampleLatch k rs s = _
    rw [execSampleLatch, hf, Bool.not_false, if_pos rfl]
  case missed =>
    intro s cls index hf hi
    refine ⟨s.bump .telMissed 0, ?_, s.ctr_bump_self .telMissed 0 1, rfl, rfl⟩
    change execSampleMissed cls index s = _
    rw [execSampleMissed, if_neg (Nat.not_le.2 hi), if_pos hf]
  case subscribe =>
    intro s port addr udp sub body ha hr hok hnew hlen hrate
    have hkeep : s.tel.subs.filter (fun b => !b.isKey addr udp sub) = s.tel.subs := by
      rw [List.filter_eq_self]
      intro b hb
      have := List.find?_eq_none.1 hnew b hb
      simpa using this
    have hrate : ¬ s.cfg.ventBudgetMbps * 2 ^ 40 < sumL (s.tel.subs.map (fun b => exportRate b.body)) + exportRate body := Nat.not_lt.2 hrate
    have hfull : ¬ (True ∧ 256 ≤ s.tel.subs.length) := fun h => by omega
    change ∃ t, execSubscribe port addr udp sub 1 body s = .next t ∧ _
    rw [execSubscribe]
    simp only [ne_eq, not_true, if_false, ha, hr, hok, Bool.not_true, Bool.false_eq_true, hnew, Option.isNone_none, if_neg hfull, hkeep, if_neg hrate]
    exact ⟨_, rfl, ⟨_, rfl, rfl, rfl, rfl, rfl, rfl, rfl⟩, ⟨_, (State.emit_sent _ _).before List.suffix_rfl⟩, rfl⟩
  case refused =>
    intro s port addr udp sub body ha
    change ∃ t, execSubscribe port addr udp sub 1 body s = .next t ∧ _
    rw [execSubscribe]
    simp only [ne_eq, not_true, if_false, ha, Bool.not_false, if_true]
    exact ⟨_, rfl, rfl, ⟨_, (State.emit_sent _ _).before List.suffix_rfl⟩⟩
  case unsubscribe => exact fun s addr udp sub => ⟨_, rfl, rfl, fun b => mem_filter_not_key⟩
  case leaseEnd =>
    intro s addr udp sub b e hfind hend
    obtain ⟨m, hm⟩ := s.advanceTo_fields e
    refine ⟨(s.advanceTo e).updTel (fun q => { q with subs := q.subs.filter (fun b => !b.isKey addr udp sub) }), ?_, ?_, fun c => ?_⟩
    · change execSubscriptionLeaseEnd addr udp sub s = _
      rw [execSubscriptionLeaseEnd, hfind, Option.bind_some, hend]
    · rw [State.updTel_out, hm]
    · rw [hm]
      exact mem_filter_not_key
  case aged =>
    intro s addr udp sub seq b hb hkey hun
    have hany : ¬ (!s.tel.subs.any (fun b => b.isKey addr udp sub && b.unsent.any (fun u => u.1 == seq))) = true := by
      obtain ⟨u, hu, hseq⟩ := hun
      have : s.tel.subs.any (fun b => b.isKey addr udp sub && b.unsent.any (fun u => u.1 == seq)) = true := by
        rw [List.any_eq_true]
        exact ⟨b, hb, by rw [hkey, Bool.true_and, List.any_eq_true]; exact ⟨u, hu, beq_iff_eq.2 hseq⟩⟩
      simp [this]
    refine ⟨(s.updTel (fun t => { t with subs := t.subs.map (fun b =>
      if b.isKey addr udp sub then { b with unsent := b.unsent.filter (fun u => u.1 != seq) } else b) })).bump .ventAged 0, ?_, ?_,
      State.ctr_bump_self _ .ventAged 0 1, rfl⟩
    · change execRecordAged addr udp sub seq s = _
      rw [execRecordAged, if_neg hany]
    · exact List.mem_map.2 ⟨b, hb, by rw [if_pos hkey]⟩

end Sys2Proof.Machine
end

section
/-!
Determinism (09 R233 to R237): the reset-alignment protocol and the release of held arrivals.
-/
namespace Sys2Proof.Machine

-- Proofs elaborated one after another keep the whole text within the memory its compile is given.
set_option Elab.async false

/-! ### Rounding up -/

theorem roundUp_mod (a q : Nat) : roundUp a q % q = 0 := Nat.mul_mod_left _ q

theorem le_roundUp (a : Nat) {q : Nat} (hq : 0 < q) : a ≤ roundUp a q := by
  have e : roundUp a q = (a + q - 1) / q * q := by rw [roundUp, ceilDiv, if_neg (Nat.ne_of_gt hq)]
  have hd := Nat.div_add_mod (a + q - 1) q
  have hm := Nat.mod_lt (a + q - 1) hq
  rw [Nat.mul_comm] at hd
  omega

theorem roundUp_lt (a : Nat) {q : Nat} (hq : 0 < q) : roundUp a q < a + q := by
  have e : roundUp a q = (a + q - 1) / q * q := by rw [roundUp, ceilDiv, if_neg (Nat.ne_of_gt hq)]
  have hd := Nat.div_mul_le_self (a + q - 1) q
  omega

theorem alignQuantum_pos : 0 < alignQuantum := by decide

/-! ### The phases of R233 -/

/-- The chosen T_a is stood in phase 1 wherever it ends 8,192 ticks before the next launch. -/
theorem State.chooseAlign_chosen {s : State} (h : ∀ l, s.nextLaunch = some l → s.time.fc + 108192 + alignQuantum ≤ l) :
    s.chooseAlign = s.updDet (fun d => { d with ta := some (roundUp (s.time.fc + 100000) alignQuantum), phase := 1 }) := by
  have hlt := roundUp_lt (s.time.fc + 100000) alignQuantum_pos
  unfold State.chooseAlign
  split
  · next l hl =>
    have hle := h l hl
    exact if_pos (by omega)
  · rfl

/-- ALIGN_START of a LOCKED module at level CYCLE that is not aligned, does not run the protocol and has not given up. -/
theorem alignStart_chooses {s : State} (hlevel : s.cfg.detLevel = 1) (hlocked : s.time.st = 2) (haligned : s.det.aligned = false)
    (hdown : s.det.downgrade = false) (hphase : s.det.phase = 0) : execAlignStart s = .next s.chooseAlign := by
  unfold execAlignStart
  rw [if_neg (by simp [hlevel, hlocked, haligned, hdown, hphase])]

theorem alignQuiesce_phase {s : State} {a : Nat} (hphase : s.det.phase = 1) (hta : s.det.ta = some a) :
    execAlignQuiesce s = .next ((s.advanceTo (a - 4096)).updDet (fun d => { d with phase := 2 })) := by
  unfold execAlignQuiesce
  rw [hta]
  dsimp only
  rw [if_pos hphase]

theorem alignApply_phase {s : State} {a : Nat} (hphase : s.det.phase = 2) (hta : s.det.ta = some a) :
    execAlignApply s = .next (((s.advanceTo a).updDet (fun d => { d with phase := 3 })).updMem (fun m => { m with slotAt := [] })) := by
  unfold execAlignApply
  rw [hta]
  dsimp only
  rw [if_pos hphase]

theorem State.advanceTo_det (s : State) (a : Nat) : (s.advanceTo a).det = s.det := by
  obtain ⟨m, e⟩ := s.advanceTo_fields a
  rw [e]

theorem State.advanceTo_mem (s : State) (a : Nat) : (s.advanceTo a).mem = s.mem := by
  obtain ⟨m, e⟩ := s.advanceTo_fields a
  rw [e]

/-! ### The end of an attempt (R235) -/

theorem alignComplete_inBounds {s : State} {a : Nat} (hphase : s.det.phase = 3) (hta : s.det.ta = some a) :
    execAlignComplete true s = .next (s.updDet (fun d =>
      { d with aligned := true, downgrade := false, tries := 0, count := a, ta := none, phase := 0 })) := by
  unfold execAlignComplete
  rw [hta]
  dsimp only
  rw [if_neg (by simp [hphase]), if_pos rfl]

/-- The state after a failed attempt is counted, before DOWNGRADE is thought of. -/
def State.alignFailed (s : State) : State :=
  (s.bump .alignFail 0).updDet (fun d => { d with aligned := false, tries := min 3 (s.det.tries + 1), ta := none, phase := 0 })

theorem alignComplete_failed {s : State} {a : Nat} (hphase : s.det.phase = 3) (hta : s.det.ta = some a) :
    execAlignComplete false s = .next (if min 3 (s.det.tries + 1) = 3 ∧ !s.alignFailed.det.downgrade then
      (s.alignFailed.updDet (fun d => { d with downgrade := true })).setEvt .alignStatus 0 30 else s.alignFailed) := by
  unfold execAlignComplete
  rw [hta]
  dsimp only
  rw [if_neg (by simp [hphase]), if_neg Bool.false_ne_true]
  rfl

theorem State.alignFailed_ctr (s : State) : s.alignFailed.ctr .alignFail 0 = satAdd 16 (s.ctr .alignFail 0) 1 :=
  State.ctr_bump_self s .alignFail 0 1

/-! ### Release in order (R237) -/

theorem earliest_one (e : Nat × Instr) : earliest [e] = some e := rfl

/-- Of two held effects the second goes first when its tick is before the first's. -/
theorem earliest_second {e f : Nat × Instr} (h : f.1 < e.1) : earliest [e, f] = some f := by
  change (if e.1 ≤ f.1 then some e else some f) = some f
  exact if_neg (Nat.not_le.2 h)

theorem dropFirst_one (e : Nat × Instr) : dropFirst e [e] = [] := if_pos rfl

theorem dropFirst_second {e f : Nat × Instr} (h : f.1 < e.1) : dropFirst f [e, f] = [e] := by
  have hne : e ≠ f := fun he => absurd h (he ▸ Nat.lt_irrefl _)
  rw [dropFirst, if_neg hne, dropFirst_one]

theorem packetRelease_first {s : State} {e : Nat × Instr} (h : earliest s.fab.held = some e) :
    execPacketRelease s = .next (heldEffect e.2 ((s.advanceTo e.1).updFab (fun f => { f with held := dropFirst e f.held }))) := by
  unfold execPacketRelease
  rw [h]

theorem State.advanceTo_coordCtx (s : State) (a src step : Nat) (f : Fab → Fab) :
    ((s.advanceTo a).updFab f).coordCtx src step = s.coordCtx src step := by
  obtain ⟨m, e⟩ := s.advanceTo_fields a
  rw [e]
  rfl

theorem effRecoveryNotice_at {s : State} {h : Hdr} {x : Nat} (ready : Nat) (hx : s.coordCtx h.src h.step = some x) :
    effRecoveryNotice h ready s = s.updCoord x (fun o => { o with ready := max o.ready ready }) := by
  unfold effRecoveryNotice
  rw [hx]

/-- The release of a RECOVERY_NOTICE held first: its tick is reached and the ready count of the job is no smaller than it says. -/
theorem packetRelease_recoveryNotice {s : State} {a : Nat} {h : Hdr} {k ready x : Nat}
    (hfirst : earliest s.fab.held = some (a, .recoveryNotice h k ready)) (hx : s.coordCtx h.src h.step = some x) :
    ∃ t, execPacketRelease s = .next t ∧ t.fab.held = dropFirst (a, .recoveryNotice h k ready) s.fab.held ∧
      (t.ctx x).coord.ready = max (s.ctx x).coord.ready ready ∧ (s.fcHeld = true → a ≤ t.time.fc) ∧ t.out = s.out := by
  rw [packetRelease_first hfirst]
  change ∃ t, Host.Outcome.next (effRecoveryNotice h ready _) = .next t ∧ _
  rw [effRecoveryNotice_at ready (by rw [State.advanceTo_coordCtx]; exact hx)]
  obtain ⟨m, e⟩ := s.advanceTo_fields a
  refine ⟨_, rfl, ?_, ?_, ?_, ?_⟩
  · simp only [State.updCoord_fab, State.updFab_fab, e]
  · rw [State.ctx_updCoord_self, e]
    rfl
  · intro hheld
    exact State.advanceTo_reaches hheld a
  · simp only [State.updCoord_out, State.updFab_out, e]

/-- Settles O38, phase by phase of R233 and by the order of the held effects. -/
theorem alignmentRunsAndReleasesInOrder : Obligations.AlignmentRunsAndReleasesInOrder := by
  unfold Obligations.AlignmentRunsAndReleasesInOrder
  refine ⟨?start, ?quiesce, ?apply, ?bounds, ?failed, ?givesUp, ?none, ?one, ?two⟩
  case start =>
    intro s hlevel hlocked haligned hdown hphase hfits
    have e := alignStart_chooses hlevel hlocked haligned hdown hphase
    rw [State.chooseAlign_chosen hfits] at e
    refine ⟨_, e, rfl,
      ⟨_, rfl, roundUp_mod _ _, le_roundUp _ alignQuantum_pos, roundUp_lt _ alignQuantum_pos⟩, rfl⟩
  case quiesce =>
    intro s a hphase hta
    exact ⟨_, alignQuiesce_phase hphase hta, rfl, (congrArg (fun d => d.ta) (s.advanceTo_det _)).trans hta,
      fun hheld => State.advanceTo_reaches hheld _, s.advanceTo_mem _⟩
  case apply =>
    intro s a hphase hta
    have hmem := s.advanceTo_mem a
    exact ⟨_, alignApply_phase hphase hta, rfl, rfl, congrArg (fun m => m.bytes) hmem,
      fun hheld => State.advanceTo_reaches hheld a⟩
  case bounds =>
    intro s a hphase hta
    exact ⟨_, alignComplete_inBounds hphase hta, rfl, rfl, rfl, rfl, rfl, rfl⟩
  case failed =>
    intro s a hphase hta htries
    have hmin : min 3 (s.det.tries + 1) = s.det.tries + 1 := by omega
    have e := alignComplete_failed hphase hta
    rw [if_neg (by omega)] at e
    exact ⟨_, e, rfl, hmin, rfl, rfl, s.alignFailed_ctr⟩
  case givesUp =>
    intro s a hphase hta htries hdown
    have e := alignComplete_failed hphase hta
    rw [if_pos ⟨by omega, by change (!s.det.downgrade) = true; rw [hdown]; rfl⟩] at e
    have hdet := (State.setEvt_only .alignStatus 0 30 (Foot.sub (by decide) (Foot.refl _))
      (Only.refl _ (s.alignFailed.updDet (fun d => { d with downgrade := true })))).det_eq
    refine ⟨_, e, ?_, ?_, State.setEvt_bit _ _ _ _, ?_⟩ <;> rw [hdet] <;> rfl
  case none =>
    intro s h
    change execPacketRelease s = .next s
    unfold execPacketRelease
    rw [h]
    rfl
  case one =>
    intro s a h k ready x hheld hx
    obtain ⟨t, e, hfab, hready, hfc, hout⟩ := packetRelease_recoveryNotice (by rw [hheld]; exact earliest_one _) hx
    exact ⟨t, e, by rw [hfab, hheld, dropFirst_one], hready, hfc, hout⟩
  case two =>
    intro s a b c g h k j r q x hheld hlt hc hx
    obtain ⟨t, e, hfab, hready, -, -⟩ := packetRelease_recoveryNotice (by rw [hheld]; exact earliest_second hlt) hx
    exact ⟨t, e, by rw [hfab, hheld, dropFirst_second hlt], hready.trans hc.symm⟩

end Sys2Proof.Machine
end

section
/-!
PTP on the edge ports (08 R205, R214, R216, R219): what choosing a root and acquiring the count keep of the ports, then each message.
-/
namespace Sys2Proof.Machine

-- Proofs elaborated one after another keep the whole text within the memory its compile is given.
set_option Elab.async false

/-! ### What the choice of a root keeps -/

/-- The PTP ports, the fleet count and what left the module are the same. -/
def SamePtp (s t : State) : Prop := t.time.ptp = s.time.ptp ∧ t.time.fc = s.time.fc ∧ t.out = s.out

theorem SamePtp.refl (s : State) : SamePtp s s := ⟨rfl, rfl, rfl⟩

theorem SamePtp.trans {s t u : State} (h : SamePtp s t) (k : SamePtp t u) : SamePtp s u :=
  ⟨k.1.trans h.1, k.2.1.trans h.2.1, k.2.2.trans h.2.2⟩

theorem SamePtp.ptp_eq {s t : State} (h : SamePtp s t) (p : Nat) : t.ptp p = s.ptp p :=
  congrArg (fun k => KMap.getD k p PtpPort.reset) h.1

theorem State.setEvt_samePtp (s : State) (r : Reg) (i b : Nat) : SamePtp s (s.setEvt r i b) := by
  have htime := (State.setEvt_only r i b (Foot.sub (by decide) (Foot.refl _)) (Only.refl _ s)).time_eq
  have hout := (State.setEvt_only r i b (Foot.sub (by decide) (Foot.refl _)) (Only.refl _ s)).out_eq
  exact ⟨congrArg (fun t => t.ptp) htime, congrArg (fun t => t.fc) htime, hout⟩

theorem State.setEvt_samePtp_if (s : State) (c : Prop) [Decidable c] (r : Reg) (i b : Nat) : SamePtp s (if c then s.setEvt r i b else s) := by
  split
  · exact s.setEvt_samePtp r i b
  · exact SamePtp.refl s

theorem State.holdover_samePtp (s : State) : SamePtp s s.holdover := by
  unfold State.holdover
  split
  · exact SamePtp.refl s
  · exact State.setEvt_samePtp _ _ _ _

theorem State.beRoot_samePtp (s : State) : SamePtp s s.beRoot := by
  unfold State.beRoot
  extract_lets cls t0 changed u v
  have hv : SamePtp s v := by
    unfold v
    split
    · exact State.setEvt_samePtp u _ _ _
    · exact ⟨rfl, rfl, rfl⟩
  split
  · exact hv.trans v.holdover_samePtp
  · split
    · exact hv.trans ⟨rfl, rfl, rfl⟩
    · exact hv

theorem State.follow_samePtp (s : State) (p : Nat) (o : Offer) : SamePtp s (s.follow p o) := by
  unfold State.follow
  extract_lets t0 changed newUp off u
  exact SamePtp.trans (t := u) ⟨rfl, rfl, rfl⟩ (u.setEvt_samePtp_if _ _ _ _)

theorem State.reselect_samePtp (s : State) (claim : Bool) : SamePtp s (s.reselect claim) := by
  unfold State.reselect
  split
  · exact SamePtp.refl s
  · extract_lets cands best long
    clear_value best long
    rcases best with _ | ⟨k, p, o⟩
    · exact s.beRoot_samePtp
    · dsimp only
      split
      · exact s.beRoot_samePtp
      · exact s.follow_samePtp p o

/-! ### Acquiring the count -/

theorem State.tryStart_idle {s : State} {x : Nat} (h : (s.ctx x).coord.active = false) : s.tryStart x = s := by
  have hno : s.mayIssue x = false := by simp [State.mayIssue, h]
  unfold State.tryStart
  exact if_pos (by simp [hno])

/-- Where this module coordinates no job the count is acquired and nothing else happens. -/
theorem State.acquire_idle {s : State} (h : ∀ x, (s.ctx x).coord.active = false) (fc : Nat) :
    s.acquire fc = (s.updTime (fun t => { t with fc := fc % 2 ^ 64, st := 1, run64 := 0, run16 := 0, residual := 0 })).updEvr
      (fun e => e.closeWhere (·.preFc)) := by
  unfold State.acquire
  extract_lets u
  have hidle : ∀ l : List Nat, forEach l u State.tryStart = u := by
    intro l
    induction l with
    | nil => rfl
    | cons x l ih =>
      have e : u.tryStart x = u := State.tryStart_idle (s := u) (h x)
      rw [forEach, List.foldl_cons, e]
      exact ih
  exact hidle _

/-! ### The offset of a slave port -/

/-- The measured Sync and path delay of a port stand, and nothing has left the module. -/
def SameSync (p : Nat) (s t : State) : Prop :=
  (t.ptp p).lastSync = (s.ptp p).lastSync ∧ (t.ptp p).pathDelay = (s.ptp p).pathDelay ∧ t.out = s.out

theorem SamePtp.sameSync {s t : State} (h : SamePtp s t) (p : Nat) : SameSync p s t := by
  refine ⟨?_, ?_, h.2.2⟩ <;> rw [h.ptp_eq p]

theorem SameSync.trans {p : Nat} {s t u : State} (h : SameSync p s t) (k : SameSync p t u) : SameSync p s u :=
  ⟨k.1.trans h.1, k.2.1.trans h.2.1, k.2.2.trans h.2.2⟩

theorem State.updPtp_sameSync {s : State} {p : Nat} {f : PtpPort → PtpPort}
    (h : (f (s.ptp p)).lastSync = (s.ptp p).lastSync ∧ (f (s.ptp p)).pathDelay = (s.ptp p).pathDelay) : SameSync p s (s.updPtp p f) := by
  refine ⟨?_, ?_, rfl⟩ <;> rw [State.ptp_updPtp_self]
  · exact h.1
  · exact h.2

theorem State.ptpOffset_sameSync {s : State} (h : s.startsNone) (p : Nat) (t1 : Int) (rx : Nat) : SameSync p s (s.ptpOffset p t1 rx) := by
  unfold State.ptpOffset
  extract_lets q locks lockIt
  split
  · exact (SamePtp.refl s).sameSync p
  · extract_lets there now off u v w
    have hlock : ∀ (u : State) off, SameSync p u (lockIt u off) := fun u off => State.updPtp_sameSync ⟨rfl, rfl⟩
    split
    · next hnot =>
      have hidle : ∀ x, (s.ctx x).coord.active = false := h.resolve_left (by simpa using hnot)
      split
      · exact (s.setEvt_samePtp _ _ _).sameSync p
      · rw [State.acquire_idle hidle]
        refine SameSync.trans ?_ ((State.reselect_samePtp _ true).sameSync p)
        exact SameSync.trans ⟨rfl, rfl, rfl⟩ (hlock _ _)
    · have hw : SameSync p s w := by
        refine (hlock s off).trans (SamePtp.sameSync ?_ p)
        refine SamePtp.trans ?_ (v.reselect_samePtp false)
        unfold v
        split
        · exact SamePtp.refl _
        · exact State.setEvt_samePtp _ _ _ _
      split
      · exact hw.trans ⟨rfl, rfl, rfl⟩
      · exact hw

/-- A port whose path delay is known locks where a fleet count is held. -/
theorem State.ptpOffset_locked {s : State} {p : Nat} {d : Int} (hheld : s.fcHeld = true) (hd : (s.ptp p).pathDelay = some d) (t1 : Int)
    (rx : Nat) : ((s.ptpOffset p t1 rx).ptp p).locked = true := by
  unfold State.ptpOffset
  extract_lets q locks lockIt
  split
  · next hno => exact absurd (hd.symm.trans hno) (by simp)
  · extract_lets there now off u v w
    rw [if_neg (by simp [hheld])]
    have hu : (u.ptp p).locked = true := by
      unfold u lockIt
      rw [State.ptp_updPtp_self]
    have hw : SamePtp u w := by
      refine SamePtp.trans ?_ (v.reselect_samePtp false)
      unfold v
      split
      · exact SamePtp.refl _
      · exact State.setEvt_samePtp _ _ _ _
    have hw' : (w.ptp p).locked = true := (congrArg (fun k => k.locked) (hw.ptp_eq p)).trans hu
    split
    · exact hw'
    · exact hw'

/-! ### Messages at an edge port -/

theorem onEdgePort_runs {p : Nat} (h : 32 ≤ p) (h' : p < 36) (s : State) (f : State → State) : onEdgePort p s f = .next (f s) := if_pos ⟨h, h'⟩

/-- A one-step Sync. -/
theorem sync_oneStep {s : State} {p : Nat} {m : PtpMsg} (h : 32 ≤ p) (h' : p < 36) (hears : s.hears p m = true) (hone : m.twoStep = false) :
    execSync p m s = .next ((s.updPtp p (fun q => { q with
      lastSync := some (m.seqId, m.rx, 0, s.ptpCount m.seconds m.nanos m.corrNs) })).ptpOffset p (s.ptpCount m.seconds m.nanos m.corrNs) m.rx) := by
  rw [execSync, onEdgePort_runs h h', if_neg (by simp [hears]), if_neg (by simp [hone]), hone]
  rfl

/-- A two-step Sync waits for its Follow_Up. -/
theorem sync_twoStep {s : State} {p : Nat} {m : PtpMsg} (h : 32 ≤ p) (h' : p < 36) (hears : s.hears p m = true) (htwo : m.twoStep = true) :
    execSync p m s = .next (s.updPtp p (fun q => { q with lastSync := some (m.seqId, m.rx, 1, m.corrNs) })) := by
  rw [execSync, onEdgePort_runs h h', if_neg (by simp [hears]), if_pos htwo, htwo]
  rfl

theorem followUp_completes {s : State} {p rx : Nat} {m : PtpMsg} {corr : Int} (h : 32 ≤ p) (h' : p < 36) (hears : s.hears p m = true)
    (hsync : (s.ptp p).lastSync = some (m.seqId, rx, 1, corr)) :
    execFollowUp p m s = .next ((s.updPtp p (fun q => { q with
      lastSync := some (m.seqId, rx, 0, s.ptpCount m.seconds m.nanos (m.corrNs + corr)) })).ptpOffset p
        (s.ptpCount m.seconds m.nanos (m.corrNs + corr)) rx) := by
  rw [execFollowUp, onEdgePort_runs h h', hsync]
  dsimp only
  rw [if_neg (by simp [hears])]

/-- Half the sum of the two one-way differences (R219). -/
def pathDelayOf (rx : Nat) (t1 t4 t3 : Int) : Int := (((rx : Int) - t1) + (t4 - t3)) / 2

theorem delayResp_completes {s : State} {p q rx : Nat} {m : PtpMsg} {t1 : Int} {t3 : Nat} (h : 32 ≤ p) (h' : p < 36)
    (hears : s.hears p m = true) (hsync : (s.ptp p).lastSync = some (q, rx, 0, t1)) (htx : (s.ptp p).delayTx = some t3)
    (hseq : m.seqId = (s.ptp p).delaySeq) :
    execDelayResp p m s = .next ((s.updPtp p (fun q => { q with
      pathDelay := some (pathDelayOf rx t1 (s.ptpCount m.seconds m.nanos (-m.corrNs)) t3) })).ptpOffset p t1 rx) := by
  rw [execDelayResp, onEdgePort_runs h h']
  extract_lets k
  rw [show k.lastSync = _ from hsync, show k.delayTx = _ from htx]
  have hgo : ¬((!s.hears p m) = true ∨ m.seqId ≠ k.delaySeq) := fun h => h.elim (by simp [hears]) (fun hne => hne hseq)
  exact congrArg Host.Outcome.next (if_neg hgo)

/-- An Announce at a slave port that follows no master: it is followed, and the lock is a new one. -/
theorem announce_followed {s : State} {p : Nat} {m : PtpMsg} (a : AnnounceData) (h : 32 ≤ p) (h' : p < 36) (hup : (s.port p).st = .up)
    (hslave : s.ptpSlave p = true) (hdom : m.domain = s.cfg.ptpDomain) (hnone : (s.ptp p).best = none) :
    ∃ t, execAnnounce p m a s = .next t ∧ (t.ptp p).best = some a ∧ (t.ptp p).bestSource = m.sourceId ∧ (t.ptp p).locked = false ∧
      t.out = s.out := by
  rw [execAnnounce, onEdgePort_runs h h', if_neg (by simp [hup, hslave, hdom])]
  extract_lets q same take new_ u
  have htake : take = true := by
    change (match (s.ptp p).best with | none => true | some b => _) = true
    rw [hnone]
  have hnew : new_ = true := by
    change ((s.ptp p).best.isNone || !same) = true
    rw [hnone]
    rfl
  rw [if_neg (by simp [htake])]
  have hu : (u.ptp p).best = some a ∧ (u.ptp p).bestSource = m.sourceId ∧ (u.ptp p).locked = false ∧ u.out = s.out := by
    unfold u
    rw [State.ptp_updPtp_self]
    refine ⟨rfl, rfl, ?_, rfl⟩
    simp [hnew]
  split
  · exact ⟨_, rfl, hu⟩
  · exact ⟨_, rfl, hu⟩

/-- Losing Announce: the port follows no master and is not locked (R214). -/
theorem announceReceiptTimeout_unlocks {s : State} {p : Nat} (h : 32 ≤ p) (h' : p < 36) :
    ∃ t, execAnnounceReceiptTimeout p s = .next t ∧ (t.ptp p).best = none ∧ (t.ptp p).locked = false ∧ t.time.fc = s.time.fc ∧
      t.out = s.out := by
  rw [execAnnounceReceiptTimeout, onEdgePort_runs h h']
  extract_lets u v
  have hv : (v.ptp p).best = none ∧ (v.ptp p).locked = false := by
    change (u.ptp p).best = none ∧ (u.ptp p).locked = false
    unfold u
    rw [State.ptp_updPtp_self]
    exact ⟨rfl, rfl⟩
  split
  · have hsame := v.holdover_samePtp
    have hp := hsame.ptp_eq p
    exact ⟨_, rfl, by rw [hp]; exact hv.1, by rw [hp]; exact hv.2, hsame.2.1, hsame.2.2⟩
  · exact ⟨_, rfl, hv.1, hv.2, rfl, rfl⟩

/-- The dataset a master port announces is that of the module's own master, or a free one where it follows none. -/
theorem ptpAnnounceSend_sends {s : State} {p : Nat} (h : 32 ≤ p) (h' : p < 36) (hmay : s.ptpMaySend p = true) :
    ∃ t, execPtpAnnounceSend p s = .next t ∧ (t.ptp p).announceSeq = ((s.ptp p).announceSeq + 1) % 2 ^ 16 ∧
      (∃ a, sentBetween s t (.announce p (s.ptp p).announceSeq a) ∧ (s.time.st = 3 → a.accuracy = 0xFE)) := by
  rw [execPtpAnnounceSend, onEdgePort_runs h h', if_neg (by simp [hmay])]
  extract_lets q own f a0 a u
  have hu : u.out = s.out := by
    unfold u
    split
    · rfl
    · rfl
  refine ⟨_, rfl, ?_, a, ?_, fun h3 => if_pos h3⟩
  · rw [State.ptp_of_emit, State.ptp_updPtp_self]
  · exact sentBetween.before (State.emit_sent _ _) ⟨[], hu.symm⟩

/-- Settles O37, message by message. -/
theorem ptpComplete : Obligations.PtpComplete := by
  unfold Obligations.PtpComplete
  refine ⟨?oneStep, ?twoStep, ?followUp, ?delayResp, ?delayReq, ?announce, ?timeout, ?syncSend, ?announceSend, ?delayReqSend⟩
  case oneStep =>
    intro s p m h h' hears hone hnone
    obtain ⟨hsync, -, hout⟩ := State.ptpOffset_sameSync (s := s.updPtp p (fun q => { q with
      lastSync := some (m.seqId, m.rx, 0, s.ptpCount m.seconds m.nanos m.corrNs) })) hnone p (s.ptpCount m.seconds m.nanos m.corrNs) m.rx
    exact ⟨_, sync_oneStep h h' hears hone, by rw [hsync, State.ptp_updPtp_self], hout⟩
  case twoStep =>
    intro s p m h h' hears htwo
    exact ⟨_, sync_twoStep h h' hears htwo, by rw [State.ptp_updPtp_self], rfl, rfl⟩
  case followUp =>
    intro s p m rx corr h h' hears hlast hnone
    obtain ⟨hsync, -, hout⟩ := State.ptpOffset_sameSync (s := s.updPtp p (fun q => { q with
      lastSync := some (m.seqId, rx, 0, s.ptpCount m.seconds m.nanos (m.corrNs + corr)) })) hnone p
      (s.ptpCount m.seconds m.nanos (m.corrNs + corr)) rx
    exact ⟨_, followUp_completes h h' hears hlast, by rw [hsync, State.ptp_updPtp_self], hout⟩
  case delayResp =>
    intro s p m q rx t1 t3 h h' hears hlast htx hseq hnone
    have hset : ((s.updPtp p (fun q => { q with
        pathDelay := some (pathDelayOf rx t1 (s.ptpCount m.seconds m.nanos (-m.corrNs)) t3) })).ptp p).pathDelay =
        some (pathDelayOf rx t1 (s.ptpCount m.seconds m.nanos (-m.corrNs)) t3) := by rw [State.ptp_updPtp_self]
    obtain ⟨-, hdelay, hout⟩ := State.ptpOffset_sameSync (s := s.updPtp p (fun q => { q with
      pathDelay := some (pathDelayOf rx t1 (s.ptpCount m.seconds m.nanos (-m.corrNs)) t3) })) hnone p t1 rx
    exact ⟨_, delayResp_completes h h' hears hlast htx hseq, hdelay.trans hset, fun hheld => State.ptpOffset_locked (s := s.updPtp p _) hheld hset t1 rx, hout⟩
  case delayReq =>
    intro s p m h h' hmay hdom
    change ∃ t, execDelayReq p m s = .next t ∧ _
    rw [execDelayReq, onEdgePort_runs h h', if_neg (by simp [hmay, hdom])]
    exact ⟨_, rfl, State.emit_sent _ _, rfl⟩
  case announce =>
    intro s p m a h h' hup hslave hdom hnone
    exact announce_followed a h h' hup hslave hdom hnone
  case timeout =>
    intro s p h h'
    exact announceReceiptTimeout_unlocks h h'
  case syncSend =>
    intro s p h h' hmay
    change ∃ t, execPtpSyncSend p s = .next t ∧ _
    rw [execPtpSyncSend, onEdgePort_runs h h', if_neg (by simp [hmay])]
    refine ⟨_, rfl, ?_, State.emit_sent _ _⟩
    rw [State.ptp_of_emit, State.ptp_updPtp_self]
  case announceSend =>
    intro s p h h' hmay
    exact ptpAnnounceSend_sends h h' hmay
  case delayReqSend =>
    intro s p h h' hup hslave hbest
    have hsome : (s.ptp p).best.isNone = false := Option.isNone_eq_false_iff.2 (Option.ne_none_iff_isSome.1 hbest)
    change ∃ t, execPtpDelayReqSend p s = .next t ∧ _
    rw [execPtpDelayReqSend, onEdgePort_runs h h', if_neg (by simp [hup, hslave, hsome])]
    refine ⟨_, rfl, ?_, ?_, State.emit_sent _ _⟩
    · rw [State.ptp_of_emit, State.ptp_updPtp_self]
    · rw [State.ptp_of_emit, State.ptp_updPtp_self]

end Sys2Proof.Machine
end

section
/-!
What a job's coordinator does (01 R23 to R26, 11 R277, R281, R286, R296): which of its fields its rules never write, and that the rules of one
job touch no other context and no memory.
-/
namespace Sys2Proof.Machine

-- Proofs elaborated one after another keep the whole text within the memory its compile is given.
set_option Elab.async false

/-! ### What lasts of a coordinator's state -/

/-- The fields of a coordinator that neither START, COMMIT, REEXEC, STEP_HOLD nor a loss writes again. -/
def Coord.lasting (o : Coord) : Coord :=
  { Coord.reset with
    active := o.active, epoch := o.epoch, armed := o.armed, passed := o.passed, lost := o.lost, beatSent := o.beatSent,
    ackedAt := o.ackedAt, ackedEnd := o.ackedEnd, heardAt := o.heardAt, heardEnd := o.heardEnd, takeover := o.takeover,
    drained := o.drained }

/-- A lasting field agrees where the lasting fields do. -/
theorem lasting_eq {α : Type} (π : Coord → α) (hπ : ∀ o : Coord, π o.lasting = π o) {o p : Coord} (h : o.lasting = p.lasting) : π o = π p := by
  rw [← hπ o, h, hπ p]

/-- A step of the coordinator of the job in context `x`: the other contexts, memory and what lasts of it are the same, and what was sent stays
sent. -/
structure CoordStep (x : Nat) (s t : State) : Prop where
  others : ∀ y, y ≠ x → t.ctx y = s.ctx y
  lasting : (t.ctx x).coord.lasting = (s.ctx x).coord.lasting
  st : (t.ctx x).st = (s.ctx x).st
  mem : t.mem = s.mem
  out : s.out <:+ t.out

section
variable {x : Nat} {s t u : State}

theorem CoordStep.refl (x : Nat) (s : State) : CoordStep x s s := ⟨fun _ _ => rfl, rfl, rfl, rfl, List.suffix_rfl⟩

theorem CoordStep.trans (h : CoordStep x s t) (k : CoordStep x t u) : CoordStep x s u where
  others y hy := (k.others y hy).trans (h.others y hy)
  lasting := k.lasting.trans h.lasting
  st := k.st.trans h.st
  mem := k.mem.trans h.mem
  out := h.out.trans k.out

theorem CoordStep.after (k : CoordStep x t u) (h : CoordStep x s t) : CoordStep x s u := h.trans k

theorem CoordStep.ite {c : Prop} [Decidable c] (ht : CoordStep x s t) (hu : CoordStep x s u) : CoordStep x s (if c then t else u) := by
  split
  · exact ht
  · exact hu

theorem CoordStep.of_ctxs (hc : t.ctxs = s.ctxs) (hm : t.mem = s.mem) (ho : s.out <:+ t.out) : CoordStep x s t where
  others y _ := by rw [State.ctx, State.ctx, hc]
  lasting := by rw [State.ctx, State.ctx, hc]
  st := by rw [State.ctx, State.ctx, hc]
  mem := hm
  out := ho

/-- What is sent changes no context. -/
theorem CoordStep.sends (x : Nat) (h : ∃ f o, t = { s with fab := f, out := o }) (ho : s.out <:+ t.out) : CoordStep x s t := by
  obtain ⟨f, o, rfl⟩ := h
  exact .of_ctxs rfl rfl ho

theorem CoordStep.updCtx (s : State) (x : Nat) {f : Ctx → Ctx} (hf : ∀ c, (f c).coord.lasting = c.coord.lasting ∧ (f c).st = c.st) :
    CoordStep x s (s.updCtx x f) where
  others y hy := State.ctx_updCtx_ne s f hy
  lasting := by rw [State.ctx_updCtx_self]; exact (hf _).1
  st := by rw [State.ctx_updCtx_self]; exact (hf _).2
  mem := rfl
  out := List.suffix_rfl

theorem CoordStep.updCoord (s : State) (x : Nat) {f : Coord → Coord} (hf : ∀ o, (f o).lasting = o.lasting) : CoordStep x s (s.updCoord x f) where
  others y hy := State.ctx_updCoord_ne s f hy
  lasting := by rw [State.ctx_updCoord_self]; exact hf _
  st := by rw [State.ctx_updCoord_self]
  mem := rfl
  out := List.suffix_rfl

theorem CoordStep.thenCoord {f : Coord → Coord} (h : CoordStep x s t) (hf : ∀ o, (f o).lasting = o.lasting) :
    CoordStep x s (t.updCoord x f) := h.trans (.updCoord t x hf)

theorem CoordStep.record (x : Nat) (s : State) (e : Event) : CoordStep x s (s.record e) := .of_ctxs rfl rfl List.suffix_rfl

end

/-! ### Messages to the participants -/

theorem State.toAll_step (s : State) (x y m n k p : Nat) (pl : List Byte) : CoordStep y s (s.toAll x m n k p pl) :=
  .sends y (s.toAll_fields x m n k p pl) (s.toAll_suffix x m n k p pl)

theorem State.toAll_ctxs (s : State) (x m n k p : Nat) (pl : List Byte) : (s.toAll x m n k p pl).ctxs = s.ctxs := by
  obtain ⟨f, o, e⟩ := s.toAll_fields x m n k p pl
  rw [e]

theorem State.toSome_step (s : State) (x y m n k p : Nat) (dest : List Nat) : CoordStep y s (s.toSome x dest m n k p) := by
  refine .of_ctxs (s.toSome_ctxs x m n k p dest) ?_ (s.toSome_suffix x m n k p dest)
  exact (s.toSome_only x dest m n k p (Foot.sub (by decide) (Foot.refl _)) (Only.refl _ s)).mem_eq

theorem State.sendPmap_fields (s : State) (x : Nat) : ∃ f o, s.sendPmap x = { s with fab := f, out := o } := by
  unfold State.sendPmap
  dsimp only
  generalize List.range 16 = l
  have : ∀ (l : List Nat) (u : State), (∃ f o, u = { s with fab := f, out := o }) →
      ∃ f o, l.foldl (fun u part => u.toAll x 0x0C 0 0 part (leBytes 1024
        (sumL (((s.ctx x).pmap.filter (fun l => l / 8192 == part)).map (fun l => 2 ^ (l % 8192)))))) u = { s with fab := f, out := o } := by
    intro l
    induction l with
    | nil => exact fun _ h => h
    | cons a l ih =>
      rintro u ⟨f, o, rfl⟩
      rw [List.foldl_cons]
      refine ih _ ?_
      generalize leBytes 1024 _ = pl
      obtain ⟨f', o', e⟩ := State.toAll_fields { s with fab := f, out := o } x 0x0C 0 0 a pl
      exact ⟨f', o', e⟩
  exact this l s ⟨s.fab, s.out, rfl⟩

theorem State.sendPmap_ctxs (s : State) (x : Nat) : (s.sendPmap x).ctxs = s.ctxs := by
  obtain ⟨f, o, e⟩ := s.sendPmap_fields x
  rw [e]

theorem State.sendPmap_suffix (s : State) (x : Nat) : s.out <:+ (s.sendPmap x).out := by
  have keeps := State.sendPmap_keeps (pw := false) x (Keeps.refl false s)
  exact keeps.sent

theorem State.sendPmap_step (s : State) (x y : Nat) : CoordStep y s (s.sendPmap x) := .sends y (s.sendPmap_fields x) (s.sendPmap_suffix x)

/-! ### The coordinator's rules -/

theorem State.tryStart_step (s : State) (x : Nat) : CoordStep x s (s.tryStart x) := by
  unfold State.tryStart
  extract_lets c o ready own l pol loci u v
  split
  · exact .refl x s
  · split
    · exact .record x s _
    · have hu : CoordStep x s u := .updCtx s x fun _ => ⟨rfl, rfl⟩
      exact ((hu.trans (u.toAll_step x x _ _ _ _ _)).trans (v.sendPmap_step x x)).trans (.updCoord _ x fun _ => rfl)

theorem State.checkpoint_step (s : State) (x n : Nat) (b : Bool) : CoordStep x s (s.checkpoint x n b) := by
  unfold State.checkpoint
  extract_lets o due
  refine .ite (.refl x s) (.ite (.updCoord s x fun _ => rfl) ?_)
  exact (s.toAll_step x x _ _ _ _ _).trans (.updCoord _ x fun _ => rfl)

theorem State.tryCommit_step (s : State) (x : Nat) : CoordStep x s (s.tryCommit x) := by
  unfold State.tryCommit
  extract_lets c o n lossHold hold l u v
  refine .ite (.refl x s) ?_
  exact ((s.toAll_step x x _ _ _ _ _).trans (u.checkpoint_step x _ _)).trans (.updCoord v x fun _ => rfl)

theorem State.coordAct_step (s : State) (x : Nat) : CoordStep x s (s.coordAct x) := (s.tryStart_step x).trans (State.tryCommit_step _ x)

theorem State.holdStep_step (s : State) (x reason : Nat) : CoordStep x s (s.holdStep x reason) := by
  unfold State.holdStep
  extract_lets o
  exact .ite (.refl x s) ((s.toAll_step x x _ _ _ _ _).trans (.updCoord _ x fun _ => rfl))

theorem State.issueReexec_step (s : State) (x : Nat) : CoordStep x s (s.issueReexec x) := by
  unfold State.issueReexec
  extract_lets c o l k
  exact .ite (.refl x s) ((s.toAll_step x x _ _ _ _ _).trans (.updCoord _ x fun _ => rfl))

theorem State.collect_step (s : State) (x : Nat) : CoordStep x s (s.collect x) := .updCoord s x fun _ => rfl

theorem State.failByLoss_step (s : State) (x : Nat) : CoordStep x s (s.failByLoss x) := by
  unfold State.failByLoss
  extract_lets n u
  have hu : CoordStep x s u := .updCoord s x fun _ => rfl
  exact .ite (hu.trans (u.holdStep_step x 2)) (hu.trans (u.collect_step x))

theorem State.restorePair_step (s : State) (x lost : Nat) : CoordStep x s (s.restorePair x lost) := by
  unfold State.restorePair
  extract_lets o u
  have hu : CoordStep x s u := by
    unfold u
    split
    · exact .refl x s
    · next sp more hs =>
      extract_lets v
      have hw : CoordStep x s (s.updCtx x (fun c => c.substitute lost sp)) := .updCtx s x fun _ => ⟨rfl, rfl⟩
      have hv : CoordStep x s v := hw.trans (.updCoord _ x fun _ => rfl)
      exact (hv.trans (v.sendPmap_step x x)).trans (State.toAll_step _ x x _ _ _ _ _)
  split
  · exact hu
  · exact (hu.trans (u.toAll_step x x _ _ _ _ _)).trans (.updCoord _ x fun _ => rfl)

/-! ### A participant is lost (R26) -/

/-- The loss noted at the coordinator: nothing is waited for from the module, and the loss is counted. -/
def State.noteLost (s : State) (x lost : Nat) : State :=
  (s.updCoord x (fun o => { o with lost := lost :: o.lost, probes := KMap.del o.probes lost,
                                   confirms := KMap.del o.confirms lost })).when (lost != s.locus) (fun s => s.bump .recL4 0)

theorem State.noteLost_ctxs (s : State) (x lost : Nat) : (s.noteLost x lost).ctxs = (s.updCoord x (fun o =>
    { o with lost := lost :: o.lost, probes := KMap.del o.probes lost, confirms := KMap.del o.confirms lost })).ctxs := by
  unfold State.noteLost State.when
  split <;> rfl

theorem State.noteLost_ctx_self (s : State) (x lost : Nat) : (s.noteLost x lost).ctx x = { s.ctx x with coord :=
    { (s.ctx x).coord with lost := lost :: (s.ctx x).coord.lost, probes := KMap.del (s.ctx x).coord.probes lost,
                           confirms := KMap.del (s.ctx x).coord.confirms lost } } := by
  rw [State.ctx, s.noteLost_ctxs, ← State.ctx, State.ctx_updCoord_self]

theorem State.noteLost_out (s : State) (x lost : Nat) : (s.noteLost x lost).out = s.out := by
  unfold State.noteLost State.when
  split <;> rfl

/-- What the loss is noted on: the second of a pair draws whether the holder of its copy is the one lost (log 29). -/
def State.lossFrom (s : State) (x : Nat) : State := if (s.ctx x).coord.taking.isEmpty then s else s.freshBool.2

/-- A loss that counts is noted; everything after it keeps what lasts. -/
theorem State.declareLost_step {s : State} {x lost : Nat} (counted : Bool) (hp : lost ∈ (s.ctx x).pmap) (hm : s.mayIssue x = true) :
    CoordStep x ((s.lossFrom x).noteLost x lost) (s.declareLost x lost counted) := by
  unfold State.declareLost
  extract_lets c o r u v
  have hgo : ¬((!c.pmap.contains lost) = true ∨ (!s.mayIssue x) = true) := by simp [c, hp, hm]
  rw [if_neg hgo]
  have hv : v = (s.lossFrom x).noteLost x lost := by
    unfold v u r State.lossFrom State.noteLost
    split <;> rfl
  rw [← hv]
  clear_value v
  refine .ite ((v.holdStep_step x 3).trans (State.restorePair_step _ x lost)) ?_
  split
  · exact v.holdStep_step x 4
  · next sp more hs =>
    extract_lets a b d e f
    have ha : CoordStep x v a := .updCtx v x fun _ => ⟨rfl, rfl⟩
    have hb : CoordStep x v b := ha.trans (.updCoord a x fun _ => rfl)
    have hf : CoordStep x v f := ((hb.trans (b.sendPmap_step x x)).trans (d.toAll_step x x _ _ _ _ _)).trans (e.toSome_step x x _ _ _ _ _)
    exact .ite hf (.ite (hf.trans (f.collect_step x)) (hf.trans (f.failByLoss_step x)))

theorem State.declareLost_lost {s : State} {x lost : Nat} (counted : Bool) (hp : lost ∈ (s.ctx x).pmap) (hm : s.mayIssue x = true) :
    lost ∈ ((s.declareLost x lost counted).ctx x).coord.lost := by
  have h := lasting_eq Coord.lost (fun _ => rfl) (State.declareLost_step counted hp hm).lasting
  rw [h, State.noteLost_ctx_self]
  exact List.mem_cons_self

theorem State.declareLost_mem {s : State} {x lost : Nat} (counted : Bool) : (s.declareLost x lost counted).mem = s.mem :=
  (s.declareLost_only x lost counted (Foot.sub (by decide) (Foot.refl _)) (Only.refl _ s)).mem_eq

/-! ### Settling a take-over (R296) -/

/-- A take-over waits: no participant has answered, or one has neither answered nor a spare that takes its place. -/
def Ctx.takeoverWaits (c : Ctx) (l : List TakeState) : Prop :=
  l.isEmpty ∨ c.pmap.any (fun p => !l.any (fun t => t.locus == p) && !c.coord.taking.any (fun e => e.2 == p))

theorem State.settleTakeover_waits {s : State} {x : Nat} {l : List TakeState} (ht : (s.ctx x).coord.takeover = some l)
    (h : (s.ctx x).takeoverWaits l) : s.settleTakeover x = s := by
  unfold State.settleTakeover
  extract_lets c
  rw [show c.coord.takeover = some l from ht]
  dsimp only
  exact if_pos h

/-- A take-over that waits no more ends; what follows is a step of the coordinator. -/
theorem State.settleTakeover_step {s : State} {x : Nat} {l : List TakeState} (ht : (s.ctx x).coord.takeover = some l)
    (h : ¬(s.ctx x).takeoverWaits l) : CoordStep x (s.updCoord x (fun o => { o with takeover := none })) (s.settleTakeover x) := by
  unfold State.settleTakeover
  extract_lets c
  rw [show c.coord.takeover = some l from ht]
  dsimp only
  change ¬c.takeoverWaits l at h
  unfold Ctx.takeoverWaits at h
  rw [if_neg h]
  split
  · exact (State.toSome_step _ x x _ _ _ _ _).trans (.updCoord _ x fun _ => rfl)
  · refine .ite (.updCoord _ x fun _ => rfl) (.ite ?_ (.ite ?_ ?_))
    · exact (State.tryCommit_step _ x).after (.thenCoord (.updCoord _ x fun _ => rfl) fun _ => rfl)
    · exact (State.issueReexec_step _ x).after (.updCoord _ x fun _ => rfl)
    · exact (State.collect_step _ x).after (.updCoord _ x fun _ => rfl)

theorem State.settleTakeover_mem (s : State) (x : Nat) : (s.settleTakeover x).mem = s.mem :=
  (s.settleTakeover_only x (Foot.sub (by decide) (Foot.refl _)) (Only.refl _ s)).mem_eq

end Sys2Proof.Machine
end

section
/-!
Acknowledgement and flow control (06 R154, R155, R160, R161, 11 R294).
-/
namespace Sys2Proof.Machine

-- Proofs elaborated one after another keep the whole text within the memory its compile is given.
set_option Elab.async false

/-! ### Congestion echoes -/

/-- An echo of congestion writes the limiters and nothing else. -/
theorem State.echo_fields (s : State) (dst vc : Nat) : ∃ ls, s.echo dst vc = s.updFab (fun f => { f with limiters := ls }) := by
  unfold State.echo
  extract_lets k t cut
  split
  · split
    · exact ⟨s.fab.limiters, rfl⟩
    · exact ⟨_, rfl⟩
  · exact ⟨_, rfl⟩

/-- A state with its limiters as given. -/
def State.withLimiters (s : State) (ls : KMap Limiter) : State := s.updFab (fun f => { f with limiters := ls })

theorem State.echoAll_fields (s : State) (src : Nat) : ∃ ls, s.echoAll src = s.withLimiters ls := by
  unfold State.echoAll forEach
  generalize (s.fab.limiters.filter _).map _ = l
  have : ∀ (l : List Nat) (u : State), (∃ ls, u = s.withLimiters ls) → ∃ ls, l.foldl (fun s vc => s.echo src vc) u = s.withLimiters ls := by
    intro l
    induction l with
    | nil => exact fun _ h => h
    | cons a l ih =>
      rintro u ⟨ls, rfl⟩
      obtain ⟨ls', e⟩ := (s.withLimiters ls).echo_fields src a
      rw [List.foldl_cons, e]
      exact ih _ ⟨ls', rfl⟩
  exact this l s ⟨s.fab.limiters, rfl⟩

/-- The limiter of a destination and VC outside its hold-off is cut by an eighth, and no other changes (R155). -/
theorem State.echo_cuts {s : State} {dst vc : Nat} {l : Limiter} (hl : KMap.find s.fab.limiters (8 * dst + vc) = some l)
    (h : l.cutAt + 4096 ≤ s.time.loc) : s.echo dst vc = s.withLimiters (KMap.put s.fab.limiters (8 * dst + vc)
      { l with rate := max 4 (l.rate - ceilDiv l.rate 8), cutAt := s.time.loc, usedAt := s.time.loc }) := by
  unfold State.echo
  extract_lets k t cut
  rw [show KMap.find s.fab.limiters k = some l from hl]
  dsimp only
  rw [if_neg (Nat.not_lt.2 h)]
  rfl

/-! ### What an ACK finds -/

/-- The state an ACK takes effect on: time at its stamp, a late arrival noted, an echo of congestion acted on. -/
def State.heardAck (s : State) (h : Hdr) : State :=
  ((s.advanceTo h.stamp).when ((s.advanceTo h.stamp).lateRelease h) State.markLate).when h.echo (fun s => s.echoAll h.src)

theorem State.heardAck_fields (s : State) (h : Hdr) :
    ∃ m k c ls, s.heardAck h = { s with time := m, ctrs := k, ctxs := c, fab := { s.fab with limiters := ls } } := by
  obtain ⟨m, e⟩ := s.advanceTo_fields h.stamp
  have hlate : ∃ k c, (s.advanceTo h.stamp).when ((s.advanceTo h.stamp).lateRelease h) State.markLate =
      { s with time := m, ctrs := k, ctxs := c } := by
    unfold State.when
    split
    · obtain ⟨k, c, e'⟩ := (s.advanceTo h.stamp).markLate_fields
      exact ⟨k, c, by rw [e', e]⟩
    · exact ⟨s.ctrs, s.ctxs, e⟩
  obtain ⟨k, c, hlate⟩ := hlate
  unfold State.heardAck
  rw [hlate]
  unfold State.when
  split
  · obtain ⟨ls, e'⟩ := State.echoAll_fields { s with time := m, ctrs := k, ctxs := c } h.src
    exact ⟨m, k, c, ls, e'⟩
  · exact ⟨m, k, c, s.fab.limiters, rfl⟩

theorem State.heardAck_ctx (s : State) (h : Hdr) (x : Nat) : ((s.heardAck h).ctx x).sansReasons = (s.ctx x).sansReasons := by
  obtain ⟨m, e⟩ := s.advanceTo_fields h.stamp
  have hlate : (((s.advanceTo h.stamp).when ((s.advanceTo h.stamp).lateRelease h) State.markLate).ctx x).sansReasons =
      (s.ctx x).sansReasons := by
    unfold State.when
    split
    · rw [State.markLate_ctx, e]
      rfl
    · rw [e]
      rfl
  have hecho (u : State) : ((u.when h.echo (fun s => s.echoAll h.src)).ctx x) = u.ctx x := by
    unfold State.when
    split
    · obtain ⟨ls, e'⟩ := u.echoAll_fields h.src
      exact (congrArg (fun v => State.ctx v x) e').trans rfl
    · rfl
  unfold State.heardAck
  rw [hecho, hlate]

theorem State.heardAck_mem (s : State) (h : Hdr) : (s.heardAck h).mem = s.mem := by
  obtain ⟨m, k, c, ls, e⟩ := s.heardAck_fields h
  rw [e]

theorem State.heardAck_unacked (s : State) (h : Hdr) : (s.heardAck h).fab.unacked = s.fab.unacked := by
  obtain ⟨m, k, c, ls, e⟩ := s.heardAck_fields h
  rw [e]

theorem State.heardAck_coord (s : State) (h : Hdr) (x : Nat) : ((s.heardAck h).ctx x).coord = (s.ctx x).coord :=
  sans_eq Ctx.coord (fun _ => rfl) (s.heardAck_ctx h x)

theorem State.heardAck_gey (s : State) (h : Hdr) (x : Nat) : ((s.heardAck h).ctx x).gey = (s.ctx x).gey :=
  sans_eq Ctx.gey (fun _ => rfl) (s.heardAck_ctx h x)

theorem State.heardAck_liveCtxs (s : State) (h : Hdr) : (s.heardAck h).liveCtxs = s.liveCtxs := by
  have hst (x : Nat) : ((s.heardAck h).ctx x).st = (s.ctx x).st := sans_eq Ctx.st (fun _ => rfl) (s.heardAck_ctx h x)
  simp only [State.liveCtxs, hst]

/-- An ACK no release tick holds counts at once: from the endpoint of CTRL messages it ends the wait for one (R160). -/
theorem ack_ofMessage {s : State} {h : Hdr} (q : Nat) (hrel : (s.advanceTo h.stamp).releaseTick h = none) (hep : h.srcEp = 16) :
    execAck h q s = .next (((s.heardAck h).updFab (fun f => { f with
      unacked := f.unacked.filter (fun u => !(u.m.dst == h.src && u.m.seq == q)) })).beatAcked h.src q) := by
  unfold execAck
  extract_lets u
  rw [show u.releaseTick h = none from hrel]
  dsimp only
  unfold effAck
  extract_lets v
  rw [if_pos hep]
  rfl

/-- One from another endpoint acknowledges a block (R310). -/
theorem ack_ofBlock {s : State} {h : Hdr} (q : Nat) (hrel : (s.advanceTo h.stamp).releaseTick h = none) (hep : h.srcEp ≠ 16) :
    execAck h q s = .next ((s.heardAck h).dataAck h.src q) := by
  unfold execAck
  extract_lets u
  rw [show u.releaseTick h = none from hrel]
  dsimp only
  unfold effAck
  extract_lets v
  rw [if_neg hep]
  rfl

/-! ### What an ACK ends -/

theorem filter_only {α : Type} {p : α → Bool} {a : α} (h : p a = true) : [a].filter p = [a] := by
  rw [List.filter_cons_of_pos h, List.filter_nil]

theorem forEach_one {α : Type} (a : α) (s : State) (f : State → α → State) : forEach [a] s f = f s a := rfl

theorem forEach_none {α : Type} (s : State) (f : State → α → State) : forEach [] s f = s := rfl

/-- Where this module coordinates no job no beat is acknowledged. -/
theorem State.beatAcked_idle {s : State} (h : ∀ x ∈ s.liveCtxs, (s.ctx x).coord.active = false) (src q : Nat) : s.beatAcked src q = s := by
  have hnone : s.liveCtxs.filter (fun x => (s.ctx x).coord.active && (s.ctx x).coord.standby == src) = [] :=
    List.filter_eq_nil_iff.2 fun x hx => by simp [h x hx]
  unfold State.beatAcked
  rw [hnone, forEach_none]

/-- The beat acknowledged by the standby extends the lease; what the coordinator may do then keeps it (R294). -/
theorem State.beatAcked_extends {s : State} {src q x : Nat} {b : Nat × Nat × Nat} (hlive : s.liveCtxs = [x])
    (hactive : (s.ctx x).coord.active = true) (hstandby : (s.ctx x).coord.standby = src) (hbeat : (s.ctx x).coord.beatSent = some b)
    (hq : b.1 = q) : ((s.beatAcked src q).ctx x).coord.ackedAt = b.2.1 ∧ ((s.beatAcked src q).ctx x).coord.ackedEnd = b.2.2 := by
  unfold State.beatAcked
  rw [hlive, filter_only (by simp [hactive, hstandby]), forEach_one, hbeat]
  dsimp only
  rw [if_pos hq]
  generalize hu : ((s.updCoord x (fun o => { o with ackedAt := b.2.1, ackedEnd := b.2.2 })).updPins _) = u
  have hset : (u.ctx x).coord.ackedAt = b.2.1 ∧ (u.ctx x).coord.ackedEnd = b.2.2 := by
    rw [← hu, State.ctx_of_updPins, State.ctx_updCoord_self]
    exact ⟨rfl, rfl⟩
  have hact := (u.coordAct_step x).lasting
  exact ⟨(lasting_eq Coord.ackedAt (fun _ => rfl) hact).trans hset.1, (lasting_eq Coord.ackedEnd (fun _ => rfl) hact).trans hset.2⟩

/-- The acknowledgements of blocks a context waits for no more. -/
def GeyCtx.acked (g : GeyCtx) (q : Nat) : GeyCtx :=
  { g with
    seedAcks := g.seedAcks.filter (fun r => !ackOf r q), streamAcks := g.streamAcks.filter (fun r => !ackOf r q),
    writeAcks := g.writeAcks.filter (fun w => !ackOf w.1 q),
    buddyValid := g.buddyValid || (!g.seedAcks.isEmpty && (g.seedAcks.filter (fun r => !ackOf r q)).isEmpty),
    takeAcks := g.takeAcks.filter (fun r => !ackOf r q),
    takeSend := if (g.takeAcks.filter (fun r => !ackOf r q)).isEmpty then none else g.takeSend }

/-- A block acknowledged by the buddy of the one live context, with no TENSOR_WRITE waiting. -/
theorem State.dataAck_acks {s : State} {src x : Nat} (q : Nat) (hlive : s.liveCtxs = [x]) (hbuddy : (s.ctx x).gey.buddy = src)
    (hnone : (s.ctx x).gey.writeAcks = []) : s.dataAck src q = s.updGey x (fun _ => (s.ctx x).gey.acked q) := by
  unfold State.dataAck
  rw [hlive, filter_only (by simp [hbuddy]), forEach_one]
  extract_lets g rings seeded u
  have hrings : rings = [] := by
    change (((s.ctx x).gey.writeAcks.filter (fun w => ackOf w.1 q)).map (·.2)) = []
    rw [hnone]
    rfl
  rw [hrings, forEach_none]
  rfl

/-- A completed seed makes the buddy's copy valid. -/
theorem GeyCtx.acked_buddyValid {g : GeyCtx} {q : Nat} (hne : g.seedAcks ≠ []) (hall : ∀ r ∈ g.seedAcks, ackOf r q = true) :
    (g.acked q).buddyValid = true := by
  have hnil : g.seedAcks.filter (fun r => !ackOf r q) = [] := List.filter_eq_nil_iff.2 fun r hr => by simp [hall r hr]
  have hsome : g.seedAcks.isEmpty = false := List.isEmpty_eq_false_iff.2 hne
  simp [GeyCtx.acked, hnil, hsome]

/-! ### NOT_READY and repeats -/

/-- A refused message is not repeated before the hint has passed (R161). -/
def Unacked.delayed (u : Unacked) (src q until_ : Nat) : Unacked :=
  if u.m.dst = src ∧ u.m.seq = q then { u with notBefore := until_ } else u

theorem notReady_delays (s : State) (h : Hdr) (hint q : Nat) : ∃ ls, execNotReady h hint q s =
    .next (((s.advanceTo h.stamp).withLimiters ls).updFab (fun f => { f with
      unacked := f.unacked.map (fun u => u.delayed h.src q ((s.advanceTo h.stamp).time.loc + hint * 1000)) })) := by
  unfold execNotReady
  extract_lets u v
  have hv : ∃ ls, v = u.withLimiters ls := by
    unfold v State.when
    split
    · exact u.echoAll_fields h.src
    · exact ⟨u.fab.limiters, rfl⟩
  obtain ⟨ls, hv⟩ := hv
  exact ⟨ls, by rw [hv]; rfl⟩

/-- A repeat of a message doubles its interval up to 1,280 µs (R160). -/
theorem ctrlRetransmit_sends {s : State} {dst ep q : Nat} {u : Unacked}
    (hu : s.fab.unacked.find? (fun u => u.m.dst == dst && u.m.ep == ep && u.m.seq == q) = some u) (h : u.notBefore ≤ s.time.loc) :
    ∃ t, execCtrlRetransmit dst ep q s = .next t ∧ sentBetween s t (.ctrl { u.m with copies := s.copies }) ∧
      { u with intervalUs := min 1280 (2 * u.intervalUs) } ∈ t.fab.unacked ∧ t.ctxs = s.ctxs := by
  have hm : u.m.dst = dst ∧ u.m.ep = ep ∧ u.m.seq = q := by
    have := List.find?_some hu
    simp only [Bool.and_eq_true, beq_iff_eq] at this
    obtain ⟨⟨h1, h2⟩, h3⟩ := this
    exact ⟨h1, h2, h3⟩
  unfold execCtrlRetransmit
  rw [hu]
  dsimp only
  rw [if_neg (Nat.not_lt.2 h)]
  refine ⟨_, rfl, State.emit_sent _ _, ?_, rfl⟩
  exact List.mem_map.2 ⟨u, List.mem_of_find?_eq_some hu, if_pos hm⟩

/-- Settles O28, answer by answer. -/
theorem acknowledgementsComplete : Obligations.AcknowledgementsComplete := by
  unfold Obligations.AcknowledgementsComplete
  refine ⟨?message, ?block, ?beat, ?notReady, ?cut, ?increase, ?repeats⟩
  case message =>
    intro s h q hrel hep hidle
    have e := ack_ofMessage q hrel hep
    rw [State.beatAcked_idle] at e
    · refine ⟨_, e, fun u => ?_, s.heardAck_mem h⟩
      change u ∈ (s.heardAck h).fab.unacked.filter _ ↔ _
      rw [s.heardAck_unacked h, List.mem_filter]
      simp only [Bool.not_eq_true', Bool.and_eq_false_iff, beq_eq_false_iff_ne, ne_eq, Classical.not_and_iff_not_or_not]
    · intro x hx
      change ((s.heardAck h).ctx x).coord.active = false
      rw [s.heardAck_coord h x]
      refine hidle x ?_
      rw [← s.heardAck_liveCtxs h]
      exact hx
  case block =>
    intro s h q x hrel hep hlive hbuddy hnone
    have e := ack_ofBlock q hrel hep
    rw [State.dataAck_acks q (by rw [s.heardAck_liveCtxs h, hlive]) (by rw [s.heardAck_gey h x, hbuddy]) (by rw [s.heardAck_gey h x, hnone]),
      s.heardAck_gey h x] at e
    refine ⟨_, e, ?_, fun hne hall => ?_, s.heardAck_mem h⟩
    · rw [State.ctx_updGey_self]
      rfl
    · rw [State.ctx_updGey_self]
      exact GeyCtx.acked_buddyValid hne hall
  case beat =>
    intro s h q x b hrel hep hlive hactive hstandby hbeat hq
    refine ⟨_, ack_ofMessage q hrel hep, ?_⟩
    refine State.beatAcked_extends ((s.heardAck_liveCtxs h).trans hlive) ?_ ?_ ?_ hq
    · exact (congrArg Coord.active (s.heardAck_coord h x)).trans hactive
    · exact (congrArg Coord.standby (s.heardAck_coord h x)).trans hstandby
    · exact (congrArg Coord.beatSent (s.heardAck_coord h x)).trans hbeat
  case notReady =>
    intro s h hint q
    obtain ⟨ls, e⟩ := notReady_delays s h hint q
    obtain ⟨m, ea⟩ := s.advanceTo_fields h.stamp
    refine ⟨_, e, ?_, ?_, fun u hu hdst hseq => ?_⟩
    · rw [ea]
      rfl
    · rw [ea]
      rfl
    · refine List.mem_map.2 ⟨u, ?_, if_pos ⟨hdst, hseq⟩⟩
      rw [ea]
      exact hu
  case cut =>
    intro s h vc l hl hpast
    obtain ⟨m, ea⟩ := s.advanceTo_fields h.stamp
    have hl' : KMap.find (s.advanceTo h.stamp).fab.limiters (8 * h.src + vc) = some l := by rw [ea]; exact hl
    have e : execCnEcho h vc s = .next ((s.advanceTo h.stamp).echo h.src vc) := rfl
    rw [State.echo_cuts hl' hpast] at e
    refine ⟨_, e, ⟨_, KMap.find_put_self _ _ _, rfl⟩, fun k hk => ?_, ?_⟩
    · refine ((KMap.find_put _ _ _ _).trans (if_neg hk)).trans ?_
      rw [ea]
    · rw [ea]
      rfl
  case increase =>
    intro s dst vc l hl
    have e : execLimiterIncrease dst vc s = .next (s.withLimiters (KMap.put s.fab.limiters (8 * dst + vc)
        { l with rate := min 1024 (l.rate + 16) })) := by
      unfold execLimiterIncrease
      extract_lets k
      rw [show KMap.find s.fab.limiters k = some l from hl]
      rfl
    exact ⟨_, e, KMap.find_put_self _ _ _, fun k hk => (KMap.find_put _ _ _ _).trans (if_neg hk), rfl⟩
  case repeats =>
    intro s dst ep q u hu h
    exact ctrlRetransmit_sends hu h

end Sys2Proof.Machine
end

section
/-!
The coordinator's lease (11 R293 to R297): beats, the take-over at its end, and a former coordinator's stop.
-/
namespace Sys2Proof.Machine

-- Proofs elaborated one after another keep the whole text within the memory its compile is given.
set_option Elab.async false

/-! ### A message to one module -/


/-- A pin set or not on a condition changes the pins alone. -/
theorem State.whenPins_fields (s : State) (b : Bool) (f : Pins → Pins) : ∃ p, s.when b (State.updPins · f) = { s with pins := p } := by
  unfold State.when
  split
  · exact ⟨_, rfl⟩
  · exact ⟨s.pins, rfl⟩

theorem State.whenCal_fields (s : State) (b : Bool) (f : Cal → Cal) : ∃ c, s.when b (State.updCal · f) = { s with cal := c } := by
  unfold State.when
  split
  · exact ⟨_, rfl⟩
  · exact ⟨s.cal, rfl⟩

/-! ### Beats -/

/-- A beat leaves for the standby with the end of the lease, and is remembered (R293). -/
theorem coordBeatSend_sends {s : State} {x : Nat} (hactive : (s.ctx x).coord.active = true) (hother : (s.ctx x).coord.standby ≠ s.locus) :
    ∃ t, execCoordBeatSend x s = .next t ∧
      ctrlSent s t (s.ctx x).coord.standby 0x60 0 0 (field (s.now + s.cfg.coordLeaseUs * 1000) 64 0 + field (s.ctx x).coord.epoch 32 160) ∧
      (∃ q, (t.ctx x).coord.beatSent = some (q, s.time.loc, s.now + s.cfg.coordLeaseUs * 1000)) ∧ (∀ y, y ≠ x → t.ctx y = s.ctx y) ∧
      t.mem = s.mem := by
  unfold execCoordBeatSend
  extract_lets c o e u v q
  rw [if_neg (by simp [o, c, hactive, hother])]
  obtain ⟨p, hu⟩ := s.whenPins_fields (s.cfg.coordInterlock && s.mayIssue x) (fun p => { p with interlockOut := true })
  have hu : u = { s with pins := p } := hu
  have hv : v = u.sendCtrl o.standby 0x60 0 0 (field e 64 0 + field o.epoch 32 160) := rfl
  clear_value u v
  subst hu hv
  refine ⟨_, rfl, ?_, ⟨q, ?_⟩, fun y hy => ?_, rfl⟩
  · exact (State.sendCtrl_sent _ _ _ _ _ _ _).before List.suffix_rfl
  · rw [State.ctx_updCoord_self]
    rfl
  · rw [State.ctx_updCoord_ne _ _ hy]
    rfl

/-! ### What a served message finds -/

theorem State.adopting_ctx_self (s : State) (h : Hdr) (e x : Nat) : ∃ o, (s.adopting h e x).ctx x =
    { (s.atEffect h).ctx x with coord := o, adopted := e, coordLocus := h.src } := by
  unfold State.adopting
  rw [State.ctx_updCtx_self]
  unfold State.when
  split
  · exact ⟨_, by rw [State.ctx_of_updPins, State.ctx_updCoord_self]⟩
  · exact ⟨((s.atEffect h).ctx x).coord, rfl⟩

theorem State.adopting_ctx_ne (s : State) (h : Hdr) (e : Nat) {x y : Nat} (hy : y ≠ x) : (s.adopting h e x).ctx y = (s.atEffect h).ctx y := by
  unfold State.adopting
  rw [State.ctx_updCtx_ne _ _ hy]
  unfold State.when
  split
  · rw [State.ctx_of_updPins, State.ctx_updCoord_ne _ _ hy]
  · rfl

theorem State.adopting_fields (s : State) (h : Hdr) (e x : Nat) :
    ∃ c p, s.adopting h e x = { s.atEffect h with ctxs := c, pins := p } := by
  unfold State.adopting State.when
  split
  · exact ⟨_, _, rfl⟩
  · exact ⟨_, (s.atEffect h).pins, rfl⟩

@[simp] theorem State.adopting_mem (s : State) (h : Hdr) (e x : Nat) : (s.adopting h e x).mem = s.mem := by
  obtain ⟨c, p, eq⟩ := s.adopting_fields h e x
  rw [eq]
  exact s.atEffect_mem h

theorem State.adopting_out (s : State) (h : Hdr) (e x : Nat) : (s.adopting h e x).out = ackOfMsg h :: s.out := by
  obtain ⟨c, p, eq⟩ := s.adopting_fields h e x
  rw [eq]
  exact s.atEffect_out h

theorem State.adopting_suffix (s : State) (h : Hdr) (e x : Nat) : s.out <:+ (s.adopting h e x).out :=
  ⟨[ackOfMsg h], (s.adopting_out h e x).symm⟩

/-- A message of a higher epoch from another module stops this module issuing for the job (R297). -/
theorem State.adopting_stops {s : State} {h : Hdr} {e x : Nat} (hepoch : (s.ctx x).adopted < e) (hactive : (s.ctx x).coord.active = true)
    (hother : h.src ≠ s.locus) : ((s.adopting h e x).ctx x).coord = (s.ctx x).coord.stood (s.ctx x).coordForm (s.adopting h e x).time.loc ∧
    (s.adopting h e x).pins.interlockOut = false := by
  have hstops : (s.atEffect h).stopsAt x h.src e = true := by simp [State.stopsAt, hepoch, hactive, hother]
  have hform : ((s.atEffect h).ctx x).coordForm = (s.ctx x).coordForm := congrArg (fun d => leAt d 6 1) (s.atEffect_ctx_desc h x)
  unfold State.adopting State.when
  rw [if_pos hstops]
  refine ⟨?_, rfl⟩
  rw [State.ctx_updCtx_self, State.ctx_of_updPins, State.ctx_updCoord_self, hform, State.atEffect_ctx_coord]
  rfl

/-! ### Taking over (R296) -/

/-- The standby becomes coordinator of the next epoch and says so to every participant. -/
theorem State.takeOver_takes (s : State) (x : Nat) : ((s.takeOver x).ctx x).coord.active = true ∧
    ((s.takeOver x).ctx x).coord.epoch = (s.ctx x).adopted + 1 ∧ ((s.takeOver x).ctx x).coord.takeover = some [] ∧
    (s.takeOver x).ctr .recCoordTakeover 0 = satAdd 16 (s.ctr .recCoordTakeover 0) 1 ∧ (s.takeOver x).evts = s.evts ∧
    (∀ l ∈ (s.ctx x).pmap, ctrlSent s (s.takeOver x) l 0x61 0 0 (field s.locus 17 0 + field ((s.ctx x).adopted + 1) 32 160)) ∧
    (∀ y, y ≠ x → (s.takeOver x).ctx y = s.ctx y) ∧ (s.takeOver x).mem = s.mem := by
  unfold State.takeOver
  extract_lets c e u v
  have hself : v.ctx x = { s.ctx x with coord := (u.ctx x).coord } := by
    change u.ctx x = _
    unfold u
    rw [State.ctx_updCoord_self]
  have hcoord : (u.ctx x).coord.active = true ∧ (u.ctx x).coord.epoch = e ∧ (u.ctx x).coord.takeover = some [] := by
    unfold u
    rw [State.ctx_updCoord_self]
    exact ⟨rfl, rfl, rfl⟩
  have hctxs := v.toAll_ctxs x 0x61 0 0 (field v.locus 17 0) []
  have hsame (y : Nat) : (v.toAll x 0x61 0 0 (field v.locus 17 0) []).ctx y = v.ctx y := congrArg (fun m => KMap.getD m y Ctx.reset) hctxs
  obtain ⟨f, o, eq⟩ := v.toAll_fields x 0x61 0 0 (field v.locus 17 0) []
  refine ⟨?_, ?_, ?_, ?_, ?_, fun l hl => ?_, fun y hy => ?_, ?_⟩
  · rw [hsame, hself]
    exact hcoord.1
  · rw [hsame, hself]
    exact hcoord.2.1
  · rw [hsame, hself]
    exact hcoord.2.2
  · rw [eq]
    exact State.ctr_bump_self u .recCoordTakeover 0 1
  · rw [eq]
    rfl
  · have hsent := v.toAll_sent x 0x61 0 0 (field v.locus 17 0) [] (l := l) (by rw [hself]; exact hl)
    rw [hself, hcoord.2.1] at hsent
    exact hsent.before List.suffix_rfl
  · rw [hsame]
    change u.ctx y = s.ctx y
    unfold u
    exact State.ctx_updCoord_ne s _ hy
  · rw [eq]
    rfl

/-- TAKEOVER at a participant: the new coordinator is adopted and told the state of the step (R296). -/
theorem takeover_answers {s : State} {h : Hdr} (l : Nat) {epoch x : Nat} (hs : s.serves h epoch x) :
    execTakeover h l epoch s = .next (((s.adopting h epoch x).updCtx x (fun c => { c with coordLocus := l })).sendCtrl l 0x62
      (s.ctx x).lastStep (s.ctx x).attempt
      (field (s.ctx x).attempt 4 0 + field (b2n (s.ctx x).confirmed) 1 4 + field (b2n (s.ctx x).faulted) 1 5 +
        field (b2n (s.ctx x).launch.isSome) 1 6 + field (b2n ((s.ctx x).st == .held)) 1 7 + field ((s.ctx x).launch.getD 0) 64 64 +
        field epoch 32 160)) := by
  unfold execTakeover
  rw [State.ctrlIn_takes _ _ hs.1]
  unfold effTakeover
  rw [State.onJob_serves hs]
  extract_lets u c hasL
  obtain ⟨o, hctx⟩ := s.adopting_ctx_self h epoch x
  have hc : c = { (s.atEffect h).ctx x with coord := o, adopted := epoch, coordLocus := l } := by
    unfold c u
    rw [State.ctx_updCtx_self, hctx]
  have hlast : c.lastStep = (s.ctx x).lastStep := by
    rw [hc]
    unfold Ctx.lastStep
    rw [State.atEffect_ctx_committed]
    exact congrArg (fun d => Option.getD _ (prevStep (leAt d 20 6))) (s.atEffect_ctx_desc h x)
  have hattempt : c.attempt = (s.ctx x).attempt := by rw [hc]; exact s.atEffect_ctx_attempt h x
  have hconfirmed : c.confirmed = (s.ctx x).confirmed := by rw [hc]; exact s.atEffect_ctx_confirmed h x
  have hfaulted : c.faulted = (s.ctx x).faulted := by rw [hc]; exact s.atEffect_ctx_faulted h x
  have hlaunch : c.launch = (s.ctx x).launch := by rw [hc]; exact s.atEffect_ctx_launch h x
  have hst : c.st = (s.ctx x).st := by rw [hc]; exact s.atEffect_ctx_st h x
  have hadopted : c.adopted = epoch := by rw [hc]
  rw [hlast, hattempt, hconfirmed, hfaulted, show hasL = (s.ctx x).launch.isSome from congrArg Option.isSome hlaunch, hst, hlaunch, hadopted]

/-- Settles O41, event by event. -/
theorem leasesPassTheCoordinator : Obligations.LeasesPassTheCoordinator := by
  unfold Obligations.LeasesPassTheCoordinator
  refine ⟨?send, ?beat, ?ends, ?goesOn, ?expiry, ?early, ?fall, ?stuck, ?former, ?participant⟩
  case send =>
    intro s x hactive hother
    exact coordBeatSend_sends hactive hother
  case beat =>
    intro s h e epoch x hs
    change ∃ t, execCoordBeat h e epoch s = .next t ∧ _
    unfold execCoordBeat
    rw [State.ctrlIn_takes _ _ hs.1]
    unfold effCoordBeat
    rw [State.onJob_serves hs]
    extract_lets u
    obtain ⟨c, hu⟩ := (s.adopting h epoch x).whenCal_fields
      ((s.adopting h epoch x).cfg.coordInterlock && ((s.adopting h epoch x).ctx x).coordForm == 0)
      (fun c => { c with interlockIn := true, interlockLowAt := none })
    have hu : u = { s.adopting h epoch x with cal := c } := hu
    clear_value u
    subst hu
    obtain ⟨o, hctx⟩ := s.adopting_ctx_self h epoch x
    refine ⟨_, rfl, ?_, ?_, ?_, fun y hy => ?_, s.adopting_mem h epoch x⟩
    · rw [State.ctx_updCoord_self]
      rfl
    · rw [State.ctx_updCoord_self]
    · rw [State.ctx_updCoord_self]
      exact congrArg Ctx.adopted hctx
    · rw [State.ctx_updCoord_ne _ _ hy]
      exact (congrArg Ctx.coord (s.adopting_ctx_ne h epoch hy)).trans (s.atEffect_ctx_coord h y)
  case ends =>
    intro s x hactive hmay
    have e : execLeaseEnd x s = .next (s.updPins (fun p => { p with interlockOut := false })) := by
      unfold execLeaseEnd
      rw [if_pos (by simp [hactive, hmay])]
    exact ⟨_, e, rfl, rfl⟩
  case goesOn =>
    intro s x hmay
    change execLeaseEnd x s = _
    unfold execLeaseEnd
    rw [if_neg (by simp [hmay])]
  case expiry =>
    intro s x hover hfree
    have e : execLeaseExpiry x s = .next (s.takeOver x) := by
      unfold execLeaseExpiry
      rw [if_pos (by simp [hover, hfree])]
    obtain ⟨hactive, hepoch, htake, hctr, -, hsent, hothers, hmem⟩ := s.takeOver_takes x
    exact ⟨_, e, hactive, hepoch, htake, hctr, hsent, hothers, hmem⟩
  case early =>
    intro s x h
    change execLeaseExpiry x s = _
    unfold execLeaseExpiry
    rw [if_neg (by rcases h with h | h <;> simp [h])]
  case fall =>
    intro s
    exact ⟨_, rfl, rfl, rfl, rfl⟩
  case stuck =>
    intro s x hover hwired hhigh
    have e : execInterlockStuck x s = .next ((s.setEvt .calHalf 0 23).takeOver x) := by
      unfold execInterlockStuck
      rw [if_pos (by simp [hover, hwired, hhigh])]
    obtain ⟨hactive, hepoch, -, -, hevts, -, -, hmem⟩ := (s.setEvt .calHalf 0 23).takeOver_takes x
    have hsame := (State.setEvt_only .calHalf 0 23 (Foot.sub (by decide) (Foot.refl _)) (Only.refl _ s)).ctxs_eq
    have hsameMem := (State.setEvt_only .calHalf 0 23 (Foot.sub (by decide) (Foot.refl _)) (Only.refl _ s)).mem_eq
    refine ⟨_, e, hactive, ?_, ?_, hmem.trans hsameMem⟩
    · rw [hepoch, State.ctx, hsame]
      rfl
    · rw [State.evBits, hevts, ← State.evBits]
      exact State.setEvt_bit s .calHalf 0 23
  case former =>
    intro s h l epoch x hs hepoch hactive hother hform
    obtain ⟨hcoord, hpins⟩ := State.adopting_stops hepoch hactive hother
    obtain ⟨o, hctx⟩ := s.adopting_ctx_self h epoch x
    refine ⟨_, takeover_answers l hs, ?_, ?_, hpins, ?_, ?_, s.adopting_mem h epoch x⟩ <;>
      rw [State.ctx_of_sendCtrl, State.ctx_updCtx_self]
    · rw [hcoord]
      rfl
    · rw [hcoord]
      exact if_pos hform
    · exact congrArg Ctx.adopted hctx
  case participant =>
    intro s h l epoch x hs
    obtain ⟨o, hctx⟩ := s.adopting_ctx_self h epoch x
    refine ⟨_, takeover_answers l hs, ?_, ?_, ?_, s.adopting_mem h epoch x⟩
    · rw [State.ctx_of_sendCtrl, State.ctx_updCtx_self]
    · rw [State.ctx_of_sendCtrl, State.ctx_updCtx_self]
      exact congrArg Ctx.adopted hctx
    · exact (State.sendCtrl_sent _ _ _ _ _ _ _).before (s.adopting_suffix h epoch x)

end Sys2Proof.Machine
end

section
/-!
Probes, losses and the end of a take-over (01 R26, 11 R286, R296, R298).
-/
namespace Sys2Proof.Machine

-- Proofs elaborated one after another keep the whole text within the memory its compile is given.
set_option Elab.async false

/-! ### Loops that only send -/

theorem forEach_sends {α : Type} {g : State → α → State} (hg : ∀ u a, ∃ f o, g u a = { u with fab := f, out := o }) (l : List α) (s : State) :
    ∃ f o, forEach l s g = { s with fab := f, out := o } := by
  unfold forEach
  induction l generalizing s with
  | nil => exact ⟨s.fab, s.out, rfl⟩
  | cons a l ih =>
    obtain ⟨f, o, e⟩ := hg s a
    obtain ⟨f', o', e'⟩ := ih (g s a)
    exact ⟨f', o', by rw [List.foldl_cons, e', e]⟩

theorem State.toSome_fields (s : State) (x m n k p : Nat) (dest : List Nat) : ∃ f o, s.toSome x dest m n k p = { s with fab := f, out := o } := by
  unfold State.toSome
  exact forEach_sends (fun u l => ⟨_, _, rfl⟩) dest s

/-! ### What COMMIT waits for -/

/-- A participant without a confirmation in time holds COMMIT back. -/
theorem State.tryCommit_waits {s : State} {x l : Nat} (hl : l ∈ (s.ctx x).pmap) (hlacks : (s.ctx x).coord.lacks l = true) :
    s.tryCommit x = s := by
  unfold State.tryCommit
  extract_lets c o n lossHold hold k u v
  have hany : c.pmap.any (o.lacks ·) = true := List.any_eq_true.2 ⟨l, hl, hlacks⟩
  exact if_pos (.inr (.inr (.inr (.inr (.inr (.inr (.inr hany)))))))

theorem Coord.lacks_of_none {o : Coord} {l : Nat} (h : KMap.find o.confirms l = none) : o.lacks l = true := by
  unfold Coord.lacks
  rw [h]

theorem Coord.lacks_of_inTime {o : Coord} {l t : Nat} (h : KMap.find o.confirms l = some t) (ht : t ≤ o.deadline) : o.lacks l = false := by
  unfold Coord.lacks
  rw [h]
  exact decide_eq_false (Nat.not_lt.2 ht)

/-! ### May issue -/

/-- Whether a coordinator may issue turns on the clock, the settings, this module's locus, and its own activity, standby and lease. -/
theorem State.mayIssue_congr {s t : State} {x : Nat} (hnow : t.now = s.now) (hloc : t.time.loc = s.time.loc) (hcfg : t.cfg = s.cfg)
    (hlocus : t.locus = s.locus) (hactive : (t.ctx x).coord.active = (s.ctx x).coord.active)
    (hstandby : (t.ctx x).coord.standby = (s.ctx x).coord.standby) (hend : (t.ctx x).coord.ackedEnd = (s.ctx x).coord.ackedEnd)
    (hat : (t.ctx x).coord.ackedAt = (s.ctx x).coord.ackedAt) : t.mayIssue x = s.mayIssue x := by
  unfold State.mayIssue
  dsimp only
  rw [hnow, hloc, hcfg, hlocus, hactive, hstandby, hend, hat]

theorem State.updCoord_mayIssue {s : State} {x : Nat} {f : Coord → Coord} (hactive : (f (s.ctx x).coord).active = (s.ctx x).coord.active)
    (hstandby : (f (s.ctx x).coord).standby = (s.ctx x).coord.standby) (hend : (f (s.ctx x).coord).ackedEnd = (s.ctx x).coord.ackedEnd)
    (hat : (f (s.ctx x).coord).ackedAt = (s.ctx x).coord.ackedAt) : (s.updCoord x f).mayIssue x = s.mayIssue x := by
  refine State.mayIssue_congr rfl rfl rfl rfl ?_ ?_ ?_ ?_ <;> rw [State.ctx_updCoord_self]
  · exact hactive
  · exact hstandby
  · exact hend
  · exact hat

/-! ### The answers of a take-over -/

/-- A TAKEOVER_STATE is kept among the answers, an earlier one of its module dropped. -/
def takenIn (l : List TakeState) (t : TakeState) : List TakeState := l.filter (fun u => u.locus != t.locus) ++ [t]

/-- The answer a TAKEOVER_STATE carries. -/
def answerOf (h : Hdr) (k : Nat) (cf fa hl held : Bool) (launch : Nat) : TakeState :=
  { locus := h.src, committed := h.step, attempt := k, confirmed := cf, faulted := fa, hasLaunch := hl, held, launch }

def State.hearAnswer (s : State) (x : Nat) (t : TakeState) : State :=
  s.updCoord x (fun o => { o with takeover := o.takeover.map (fun l => takenIn l t) })

/-- At the one live context with a take-over in progress the answer is kept, and the take-over settled if it was the last. -/
theorem takeoverState_keeps {s : State} {h : Hdr} {k launch epoch x : Nat} {cf fa hl held : Bool} {l : List TakeState}
    (htakes : s.takes h = true) (hlive : s.liveCtxs = [x]) (htake : (s.ctx x).coord.takeover = some l) (hpart : h.src ∈ (s.ctx x).pmap) :
    execTakeoverState h k cf fa hl held launch epoch s =
      .next (((s.atEffect h).hearAnswer x (answerOf h k cf fa hl held launch)).settleTakeover x) := by
  unfold execTakeoverState
  rw [State.ctrlIn_takes _ _ htakes]
  unfold effTakeoverState
  have hfind : (s.atEffect h).liveCtxs.find? (fun x => ((s.atEffect h).ctx x).coord.takeover.isSome &&
      ((s.atEffect h).ctx x).pmap.contains h.src) = some x := by
    rw [s.atEffect_liveCtxs h, hlive]
    exact List.find?_cons_of_pos (by simp [htake, hpart])
  rw [hfind]
  rfl

/-! ### Replies to probes -/

/-- The deadline and the probe after a reply, before COMMIT is thought of. -/
def State.putProbe (s : State) (x src : Nat) (p : Probe) (more : Nat) : State :=
  s.updCoord x (fun o => { o with probes := KMap.put o.probes src p, deadline := max o.deadline (o.passed + more) })

theorem State.putProbe_ctx (s : State) (x src : Nat) (p : Probe) (more : Nat) : (s.putProbe x src p more).ctx x = { s.ctx x with coord :=
    { (s.ctx x).coord with probes := KMap.put (s.ctx x).coord.probes src p,
                           deadline := max (s.ctx x).coord.deadline ((s.ctx x).coord.passed + more) } } := State.ctx_updCoord_self _ _ _

/-- Extending the deadline of a participant that has not confirmed commits nothing. -/
theorem State.putProbe_tryCommit {s : State} {x src : Nat} (p : Probe) (more : Nat) (hpart : src ∈ (s.ctx x).pmap)
    (hnone : KMap.find (s.ctx x).coord.confirms src = none) : (s.putProbe x src p more).tryCommit x = s.putProbe x src p more := by
  refine State.tryCommit_waits (l := src) ?_ (Coord.lacks_of_none ?_)
  · rw [s.putProbe_ctx]
    exact hpart
  · rw [s.putProbe_ctx]
    exact hnone

/-- A reply that counts as RUNNING, with extensions left: a quarter of DEADLINE_TICKS more (R286). -/
theorem effProbeReply_running {s : State} {h : Hdr} {x : Nat} (level : Nat) {p : Probe} (hx : s.coordCtx h.src h.step = some x)
    (hp : KMap.find (s.ctx x).coord.probes h.src = some p) (hleft : p.extends_ < s.cfg.coordExtend) :
    effProbeReply h 0 level s = (s.putProbe x h.src { p with answered := true, extends_ := p.extends_ + 1 } ((s.ctx x).dOffset / 4)).tryCommit x := by
  unfold effProbeReply
  rw [hx]
  dsimp only
  rw [hp]
  dsimp only
  rw [if_neg (by simp)]
  dsimp only
  rw [if_pos hleft]
  rfl

/-- A first RECOVERING: the level's bound more (R286). -/
theorem effProbeReply_recovering {s : State} {h : Hdr} {x level b : Nat} {p : Probe} (hx : s.coordCtx h.src h.step = some x)
    (hp : KMap.find (s.ctx x).coord.probes h.src = some p) (hfirst : p.recovering = false) (hb : levelBound level = some b) :
    effProbeReply h 1 level s = (s.putProbe x h.src { p with answered := true, recovering := true } b).tryCommit x := by
  unfold effProbeReply
  rw [hx]
  dsimp only
  rw [hp]
  dsimp only
  rw [if_pos (by simp [hfirst]), hb]
  rfl

/-! ### STEP_HOLD and a loss with a spare -/

/-- A coordinator that may issue holds the step: STEP_HOLD goes to every participant (R281). -/
theorem State.holdStep_holds {s : State} {x : Nat} (reason : Nat) (hmay : s.mayIssue x = true) :
    ((s.holdStep x reason).ctx x).coord.held = true ∧ ∀ l ∈ (s.ctx x).pmap, ctrlSent s (s.holdStep x reason) l 0x65 (s.ctx x).coord.step
      (s.ctx x).coord.attempt (reason + field (s.ctx x).coord.epoch 32 160) := by
  unfold State.holdStep
  extract_lets o
  rw [if_neg (by simp [hmay])]
  refine ⟨?_, fun l hl => ?_⟩
  · rw [State.ctx_updCoord_self]
  · exact s.toAll_sent x 0x65 o.step o.attempt reason [] hl

theorem State.noteLost_cfg (s : State) (x lost : Nat) : (s.noteLost x lost).cfg = s.cfg := by
  unfold State.noteLost State.when
  split <;> rfl

theorem State.noteLost_mayIssue (s : State) (x lost : Nat) : (s.noteLost x lost).mayIssue x = s.mayIssue x := by
  refine State.mayIssue_congr ?_ ?_ ?_ ?_ ?_ ?_ ?_ ?_
  case refine_5 | refine_6 | refine_7 | refine_8 => rw [s.noteLost_ctx_self]
  all_goals
    unfold State.noteLost State.when
    split <;> rfl

/-- With no take-over of a copy running, a loss among several participants draws nothing. -/
theorem State.firstLoss {s : State} {x : Nat} (htaking : (s.ctx x).coord.taking = []) (hmore : (s.ctx x).pmap.length ≠ 1) :
    (if (s.ctx x).coord.taking.isEmpty then ((s.ctx x).pmap.length == 1, s) else s.freshBool) = (false, s) := by
  rw [htaking, beq_false_of_ne hmore]
  rfl

/-- A loss with no spare holds the job (R26). -/
theorem State.declareLost_noSpare {s : State} {x lost : Nat} (counted : Bool) (hp : lost ∈ (s.ctx x).pmap) (hm : s.mayIssue x = true)
    (htaking : (s.ctx x).coord.taking = []) (hmore : (s.ctx x).pmap.length ≠ 1) (hspare : (s.ctx x).freeSpares = []) :
    s.declareLost x lost counted = (s.noteLost x lost).holdStep x 4 := by
  unfold State.declareLost
  extract_lets c o r u v
  have hgo : ¬((!c.pmap.contains lost) = true ∨ (!s.mayIssue x) = true) := by simp [c, hp, hm]
  have hr : r = (false, s) := State.firstLoss htaking hmore
  rw [if_neg hgo]
  have hv : v = s.noteLost x lost := by
    unfold v u
    rw [hr]
    rfl
  rw [hr, if_neg Bool.false_ne_true, hv, show c.freeSpares = [] from hspare]

/-- The job after a spare has taken a lost module's place: PMAP and MODULE_LOST to the participants, GEY_TAKE to those left. -/
def State.replaceLost (s : State) (x lost sp : Nat) (more : List Nat) : State :=
  let o := (s.ctx x).coord
  let u := ((s.noteLost x lost).updCtx x (fun c => c.substitute lost sp)).updCoord x (fun o =>
    { o with spares := more, taking := KMap.put o.taking lost sp, standby := if o.standby = lost then sp else o.standby })
  ((u.sendPmap x).toAll x 0x07 o.step o.attempt (field lost 17 0 + field sp 17 32)).toSome x ((s.ctx x).pmap.filter (· != lost)) 0x43
    (prevStep o.step) 0 (field lost 17 0 + field sp 17 32)

/-- A first loss of an attempt with a spare at hand: the spare takes the place, and the attempt has failed by the loss (R26, R277). -/
theorem State.declareLost_spare {s : State} {x lost sp : Nat} {more : List Nat} (hp : lost ∈ (s.ctx x).pmap) (hm : s.mayIssue x = true)
    (htaking : (s.ctx x).coord.taking = []) (hmore : (s.ctx x).pmap.length ≠ 1) (hspare : (s.ctx x).freeSpares = sp :: more)
    (hheld : (s.ctx x).coord.held = false) : s.declareLost x lost =
      (if !(s.ctx x).coord.reports.isEmpty || (s.ctx x).coord.collecting.isSome then (s.replaceLost x lost sp more).collect x
        else (s.replaceLost x lost sp more).failByLoss x) := by
  unfold State.declareLost
  extract_lets c o r u v
  have hgo : ¬((!c.pmap.contains lost) = true ∨ (!s.mayIssue x) = true) := by simp [c, hp, hm]
  have hr : r = (false, s) := State.firstLoss htaking hmore
  rw [if_neg hgo]
  have hv : v = s.noteLost x lost := by
    unfold v u
    rw [hr]
    rfl
  rw [hr, if_neg Bool.false_ne_true, hv, show c.freeSpares = sp :: more from hspare]
  dsimp only
  rw [show o.held = false from hheld, if_neg Bool.false_ne_true, Bool.false_or]
  rfl

theorem State.replaceLost_ctx (s : State) (x lost sp : Nat) (more : List Nat) :
    ((s.replaceLost x lost sp more).ctx x).pmap = insertAsc sp ((s.ctx x).pmap.filter (· != lost)) ∧
      ((s.replaceLost x lost sp more).ctx x).coord.failed = (s.ctx x).coord.failed ∧ (s.replaceLost x lost sp more).cfg = s.cfg := by
  unfold State.replaceLost
  extract_lets o u
  have hu : (u.ctx x).pmap = insertAsc sp ((s.ctx x).pmap.filter (· != lost)) ∧ (u.ctx x).coord.failed = (s.ctx x).coord.failed ∧
      u.cfg = s.cfg := by
    unfold u
    rw [State.ctx_updCoord_self, State.ctx_updCtx_self, s.noteLost_ctx_self]
    exact ⟨rfl, rfl, s.noteLost_cfg x lost⟩
  obtain ⟨f, k, e⟩ := u.sendPmap_fields x
  generalize field lost 17 0 + field sp 17 32 = q
  obtain ⟨f', k', e'⟩ := (u.sendPmap x).toAll_fields x 0x07 o.step o.attempt q []
  obtain ⟨f'', k'', e''⟩ := State.toSome_fields ((u.sendPmap x).toAll x 0x07 o.step o.attempt q) x 0x43 (prevStep o.step) 0 q
    ((s.ctx x).pmap.filter (· != lost))
  rw [e'', e', e]
  exact hu

/-- MODULE_LOST goes to every participant of the map with the spare in it. -/
theorem State.replaceLost_sends (s : State) (x lost sp : Nat) (more : List Nat) {l : Nat}
    (hl : l ∈ ((s.ctx x).substitute lost sp).pmap) : ctrlSent s (s.replaceLost x lost sp more) l 0x07 (s.ctx x).coord.step
      (s.ctx x).coord.attempt (field lost 17 0 + field sp 17 32 + field (s.ctx x).coord.epoch 32 160) := by
  unfold State.replaceLost
  extract_lets o u
  have hu : (u.ctx x).pmap = ((s.ctx x).substitute lost sp).pmap ∧ (u.ctx x).coord.epoch = (s.ctx x).coord.epoch ∧ u.out = s.out := by
    unfold u
    rw [State.ctx_updCoord_self, State.ctx_updCtx_self, s.noteLost_ctx_self]
    exact ⟨rfl, rfl, s.noteLost_out x lost⟩
  have hctx : (u.sendPmap x).ctx x = u.ctx x := congrArg (fun m => KMap.getD m x Ctx.reset) (u.sendPmap_ctxs x)
  generalize field lost 17 0 + field sp 17 32 = q
  have hsent := (u.sendPmap x).toAll_sent x 0x07 o.step o.attempt q [] (l := l) (by rw [hctx, hu.1]; exact hl)
  rw [hctx, hu.2.1] at hsent
  refine (hsent.before ?_).mono (State.toSome_suffix _ _ _ _ _ _ _)
  rw [← hu.2.2]
  exact u.sendPmap_suffix x

/-- The attempt failed by a loss, far from its limits: the coordinator collects notices for REEXEC (R277, R286). -/
theorem State.failByLoss_collects {s : State} {x : Nat} (h13 : (s.ctx x).coord.failed < 13)
    (hlimit : (s.ctx x).coord.failed + 1 < s.cfg.reexecLimit) :
    s.failByLoss x = (s.updCoord x (fun o => { o with failed := (s.ctx x).coord.failed + 1, reporters := (noLocus :: o.reporters).take 16 })).collect x := by
  unfold State.failByLoss
  extract_lets n u
  exact if_neg (by
    change ¬(14 ≤ (s.ctx x).coord.failed + 1 ∨ s.cfg.reexecLimit ≤ (s.ctx x).coord.failed + 1)
    omega)

/-- A first loss with a spare at hand and no limit reached: the map names the spare, and the coordinator collects for REEXEC. -/
theorem State.declareLost_collects {s : State} {x lost sp : Nat} {more : List Nat} (hpart : lost ∈ (s.ctx x).pmap) (hm : s.mayIssue x = true)
    (htaking : (s.ctx x).coord.taking = []) (hheld : (s.ctx x).coord.held = false) (hmore : (s.ctx x).pmap.length ≠ 1)
    (hspare : (s.ctx x).freeSpares = sp :: more) (h13 : (s.ctx x).coord.failed < 13) (hlimit : (s.ctx x).coord.failed + 1 < s.cfg.reexecLimit) :
    ∃ u : State, s.declareLost x lost = u.collect x ∧ (u.ctx x).pmap = insertAsc sp ((s.ctx x).pmap.filter (· != lost)) ∧
      u.out = (s.replaceLost x lost sp more).out := by
  obtain ⟨hpmap, hfailed, hcfg⟩ := s.replaceLost_ctx x lost sp more
  rw [State.declareLost_spare hpart hm htaking hmore hspare hheld]
  split
  · exact ⟨_, rfl, hpmap, rfl⟩
  · rw [State.failByLoss_collects (by omega) (by rw [hfailed, hcfg]; exact hlimit)]
    refine ⟨_, rfl, ?_, rfl⟩
    rw [State.ctx_updCoord_self]
    exact hpmap

/-! ### The end of a take-over -/

/-- The answer of the one participant ends the take-over: where it holds the step, the job is held. -/
theorem State.settleTakeover_held {s : State} {x : Nat} {t : TakeState} (ht : (s.ctx x).coord.takeover = some [t])
    (hw : ¬(s.ctx x).takeoverWaits [t]) (hheld : t.held = true) : ((s.settleTakeover x).ctx x).coord.held = true := by
  have hahead : [t].filter (fun u => decide (min t.committed t.committed < u.committed)) = [] := by simp
  unfold State.settleTakeover
  extract_lets c
  rw [show c.coord.takeover = some [t] from ht]
  dsimp only
  change ¬c.takeoverWaits [t] at hw
  unfold Ctx.takeoverWaits at hw
  rw [if_neg hw]
  change ((match ([t].filter (fun u => decide (min t.committed t.committed < u.committed))).head? with | some a => _ | none => _ : State).ctx x).coord.held = true
  rw [hahead]
  dsimp only [List.head?_nil]
  rw [if_pos (by simp [hheld]), State.ctx_updCoord_self]

/-- A loss during a take-over stays noted when the take-over is settled. -/
theorem State.settleTakeover_lost {s : State} {x l : Nat} (h : l ∈ (s.ctx x).coord.lost) : l ∈ ((s.settleTakeover x).ctx x).coord.lost := by
  cases ht : (s.ctx x).coord.takeover with
  | none =>
    have e : s.settleTakeover x = s := by
      unfold State.settleTakeover
      extract_lets c
      rw [show c.coord.takeover = none from ht]
    rw [e]
    exact h
  | some answers =>
    by_cases hw : (s.ctx x).takeoverWaits answers
    · rw [State.settleTakeover_waits ht hw]
      exact h
    · have hstep := lasting_eq Coord.lost (fun _ => rfl) (State.settleTakeover_step ht hw).lasting
      rw [hstep, State.ctx_updCoord_self]
      exact h

theorem State.hearAnswer_ctx (s : State) (x : Nat) (t : TakeState) : (s.hearAnswer x t).ctx x =
    { s.ctx x with coord := { (s.ctx x).coord with takeover := (s.ctx x).coord.takeover.map (fun l => takenIn l t) } } :=
  State.ctx_updCoord_self _ _ _

/-! ### A module that declares itself lost -/

theorem length_ne_one {l : List Nat} {a : Nat} (ha : a ∈ l) (h : l ≠ [a]) : l.length ≠ 1 := by
  intro h1
  obtain ⟨b, rfl⟩ := List.length_eq_one_iff.1 h1
  exact h (by rw [List.mem_singleton.1 ha])

theorem length_ne_one_of_other {l : List Nat} {a b : Nat} (ha : a ∈ l) (hb : b ∈ l) (hne : b ≠ a) : l.length ≠ 1 :=
  length_ne_one ha (fun h => hne (List.mem_singleton.1 (h ▸ hb)))

/-- The record a SELF_LOST leaves. -/
def selfLostEvent (h : Hdr) (reason : Nat) : Event :=
  { code := 0x0410 + reason, sev := 3, srcType := 9, srcIndex := h.src, step := h.step, attempt := h.attempt, data := [h.src, 0] }

/-- SELF_LOST at the coordinator of the one live context: the sender is lost there (R20). -/
theorem effSelfLost_one {s : State} {h : Hdr} {x : Nat} (reason : Nat) (hlive : s.liveCtxs = [x]) (hactive : (s.ctx x).coord.active = true)
    (hpart : h.src ∈ (s.ctx x).pmap) : effSelfLost h reason s = (s.record (selfLostEvent h reason)).declareLost x h.src := by
  unfold effSelfLost
  extract_lets u
  have hone : u.liveCtxs.filter (fun x => (u.ctx x).coord.active && (u.ctx x).pmap.contains h.src) = [x] := by
    rw [show u.liveCtxs = [x] from hlive]
    exact filter_only (by
      change ((s.ctx x).coord.active && (s.ctx x).pmap.contains h.src) = true
      simp [hactive, hpart])
  rw [hone, forEach_one]
  rfl

/-- A loss with no spare: noted, and the job held with STEP_HOLD to every participant. -/
theorem State.declareLost_holds {s : State} {x lost : Nat} (hp : lost ∈ (s.ctx x).pmap) (hm : s.mayIssue x = true)
    (htaking : (s.ctx x).coord.taking = []) (hmore : (s.ctx x).pmap.length ≠ 1) (hspare : (s.ctx x).freeSpares = []) :
    lost ∈ ((s.declareLost x lost).ctx x).coord.lost ∧ ((s.declareLost x lost).ctx x).coord.held = true ∧
      ∀ l ∈ (s.ctx x).pmap, ctrlSent s (s.declareLost x lost) l 0x65 (s.ctx x).coord.step (s.ctx x).coord.attempt
        (4 + field (s.ctx x).coord.epoch 32 160) := by
  refine ⟨State.declareLost_lost false hp hm, ?_⟩
  obtain ⟨hheld, hsent⟩ := State.holdStep_holds (s := s.noteLost x lost) 4 ((s.noteLost_mayIssue x lost).trans hm)
  rw [State.noteLost_ctx_self] at hsent
  rw [State.declareLost_noSpare false hp hm htaking hmore hspare]
  exact ⟨hheld, fun l hl => (hsent l hl).before ⟨[], (s.noteLost_out x lost).symm⟩⟩

theorem State.record_ctx (s : State) (e : Event) (y : Nat) : (s.record e).ctx y = s.ctx y := rfl
theorem State.record_mayIssue (s : State) (e : Event) (x : Nat) : (s.record e).mayIssue x = s.mayIssue x := rfl

/-- Settles O42, event by event. -/
theorem probesAndLossesComplete : Obligations.ProbesAndLossesComplete := by
  unfold Obligations.ProbesAndLossesComplete
  refine ⟨?answer, ?lastAnswer, ?answerTimeout, ?answered, ?probe, ?running, ?recovering, ?timeout, ?replied, ?selfLost, ?notice⟩
  case answer =>
    intro s h k cf fa hl held launch epoch x l htakes hlive htake hpart htaking hwaits
    obtain ⟨p, hp, hne, hno⟩ := hwaits
    have hkeep := takeoverState_keeps (k := k) (launch := launch) (epoch := epoch) (cf := cf) (fa := fa) (hl := hl) (held := held)
      htakes hlive htake hpart
    have hctx := (s.atEffect h).hearAnswer_ctx x (answerOf h k cf fa hl held launch)
    have htake' : (((s.atEffect h).hearAnswer x (answerOf h k cf fa hl held launch)).ctx x).coord.takeover =
        some (takenIn l (answerOf h k cf fa hl held launch)) := by
      rw [hctx, s.atEffect_ctx_coord, htake]
      rfl
    rw [State.settleTakeover_waits htake'] at hkeep
    · exact ⟨_, hkeep, htake', s.atEffect_mem h⟩
    · rw [hctx]
      refine .inr (List.any_eq_true.2 ⟨p, ?_, ?_⟩)
      · rw [s.atEffect_ctx_pmap]
        exact hp
      · have hnone : (takenIn l (answerOf h k cf fa hl held launch)).any (fun t => t.locus == p) = false := by
          rw [List.any_eq_false]
          intro u hu
          rcases List.mem_append.1 hu with hu | hu
          · simpa using hno u (List.mem_filter.1 hu).1
          · rw [List.mem_singleton.1 hu]
            simpa [answerOf] using hne.symm
        rw [hnone, s.atEffect_ctx_coord, htaking]
        rfl
  case lastAnswer =>
    intro s h k cf fa hl held launch epoch x htakes hlive htake hpmap
    have hkeep := takeoverState_keeps (k := k) (launch := launch) (epoch := epoch) (cf := cf) (fa := fa) (hl := hl) (held := held)
      htakes hlive htake (by rw [hpmap]; exact List.mem_cons_self)
    have hctx := (s.atEffect h).hearAnswer_ctx x (answerOf h k cf fa hl held launch)
    have htake' : (((s.atEffect h).hearAnswer x (answerOf h k cf fa hl held launch)).ctx x).coord.takeover =
        some [answerOf h k cf fa hl held launch] := by
      rw [hctx, s.atEffect_ctx_coord, htake]
      rfl
    have hdone : ¬(((s.atEffect h).hearAnswer x (answerOf h k cf fa hl held launch)).ctx x).takeoverWaits
        [answerOf h k cf fa hl held launch] := by
      rw [hctx]
      unfold Ctx.takeoverWaits
      rw [s.atEffect_ctx_pmap, hpmap]
      simp [answerOf]
    refine ⟨_, hkeep, ?_, fun hheld => State.settleTakeover_held htake' hdone hheld, ?_⟩
    · rw [lasting_eq Coord.takeover (fun _ => rfl) (State.settleTakeover_step htake' hdone).lasting, State.ctx_updCoord_self]
    · rw [State.settleTakeover_mem]
      exact s.atEffect_mem h
  case answerTimeout =>
    intro s x l locus htake hno hpart hm
    have hany : l.any (fun t => t.locus == locus) = false := by
      rw [List.any_eq_false]
      intro u hu
      simpa using hno u hu
    change ∃ t, execTakeoverStateTimeout x locus s = .next t ∧ _
    unfold execTakeoverStateTimeout
    rw [htake]
    dsimp only
    rw [if_neg (by simp [hany])]
    refine ⟨_, rfl, ?_, ?_⟩
    · refine State.settleTakeover_lost (State.declareLost_lost false ?_ ?_)
      · rw [State.ctx_updCoord_self]
        exact hpart
      · exact (State.updCoord_mayIssue rfl rfl rfl rfl).trans hm
    · rw [State.settleTakeover_mem, State.declareLost_mem]
      rfl
  case answered =>
    intro s x l locus u htake hu hlocus
    change execTakeoverStateTimeout x locus s = _
    unfold execTakeoverStateTimeout
    rw [htake]
    dsimp only
    rw [if_pos (List.any_eq_true.2 ⟨u, hu, by simp [hlocus]⟩)]
  case probe =>
    intro s h epoch x hs hconfirmed hcommitted hrefill hfetching htaking
    change ∃ t, execProbe h epoch s = .next t ∧ _
    unfold execProbe
    rw [State.ctrlIn_takes _ _ hs.1]
    unfold effProbe
    rw [State.onJob_serves hs]
    extract_lets c recovering st level
    obtain ⟨o, hctx⟩ := s.adopting_ctx_self h epoch x
    have hgey : c.gey = (s.ctx x).gey := (congrArg Ctx.gey hctx).trans (s.atEffect_ctx_gey h x)
    have hrec : recovering = false := by
      unfold recovering
      rw [s.adopting_mem, hrefill, hgey, hfetching, htaking]
      rfl
    have hattempt : c.attempt = (s.ctx x).attempt := (congrArg Ctx.attempt hctx).trans (s.atEffect_ctx_attempt h x)
    have hlaunched : c.launched = (s.ctx x).launched := (congrArg Ctx.launched hctx).trans (s.atEffect_ctx_launched h x)
    have hst : st = if (s.ctx x).launched then 0 else 3 := by
      have h2 : ¬(c.confirmed = true ∨ c.committed = some h.step) := by
        rw [show c.confirmed = (s.ctx x).confirmed from (congrArg Ctx.confirmed hctx).trans (s.atEffect_ctx_confirmed h x),
          show c.committed = (s.ctx x).committed from (congrArg Ctx.committed hctx).trans (s.atEffect_ctx_committed h x), hconfirmed]
        simp [hcommitted]
      unfold st
      rw [if_neg h2, hrec, if_neg Bool.false_ne_true, hlaunched]
    have hlevel : level = 0 := by
      unfold level
      rw [s.adopting_mem, hrefill, hrec]
      rfl
    rw [hst, hlevel, hattempt]
    exact ⟨_, rfl, (State.sendCtrl_sent _ _ _ _ _ _ _).before (s.adopting_suffix h epoch x), s.adopting_mem h epoch x⟩
  case running =>
    intro s h k level x p hx hp hleft hpart hnone
    have hd : ((s.atEffect h).ctx x).dOffset = (s.ctx x).dOffset := sans_eq Ctx.dOffset (fun _ => rfl) (s.atEffect_ctx h x)
    have e : execProbeReply h k 0 level s = .next ((s.atEffect h).putProbe x h.src { p with answered := true, extends_ := p.extends_ + 1 }
        ((s.ctx x).dOffset / 4)) := by
      unfold execProbeReply
      rw [State.ctrlIn_takes _ _ hx.1, effProbeReply_running level ((s.atEffect_coordCtx h h.src h.step).trans hx.2)
        (by rw [s.atEffect_ctx_coord]; exact hp) (by rw [s.atEffect_cfg]; exact hleft),
        State.putProbe_tryCommit _ _ (by rw [s.atEffect_ctx_pmap]; exact hpart) (by rw [s.atEffect_ctx_coord]; exact hnone), hd]
    refine ⟨_, e, ?_, ?_, s.atEffect_mem h⟩
    · rw [State.putProbe_ctx, s.atEffect_ctx_coord]
    · rw [State.putProbe_ctx]
      exact KMap.find_put_self _ _ _
  case recovering =>
    intro s h k level b x p hx hp hfirst hb hpart hnone
    have e : execProbeReply h k 1 level s = .next ((s.atEffect h).putProbe x h.src { p with answered := true, recovering := true } b) := by
      unfold execProbeReply
      rw [State.ctrlIn_takes _ _ hx.1, effProbeReply_recovering ((s.atEffect_coordCtx h h.src h.step).trans hx.2)
        (by rw [s.atEffect_ctx_coord]; exact hp) hfirst hb,
        State.putProbe_tryCommit _ _ (by rw [s.atEffect_ctx_pmap]; exact hpart) (by rw [s.atEffect_ctx_coord]; exact hnone)]
    refine ⟨_, e, ?_, s.atEffect_mem h⟩
    rw [State.putProbe_ctx, s.atEffect_ctx_coord]
  case timeout =>
    intro s x locus p sp more hp hquiet hpart hm htaking hheld hother hspare h13 hlimit
    obtain ⟨l, hl, hne⟩ := hother
    have e : execProbeTimeout x locus s = .next (s.declareLost x locus) := by
      unfold execProbeTimeout
      rw [hp]
      exact congrArg Host.Outcome.next (if_neg (by simp [hquiet]))
    obtain ⟨u, hu, hpmap, hout⟩ := State.declareLost_collects hpart hm htaking hheld (length_ne_one_of_other hpart hl hne) hspare h13 hlimit
    have hpmap' : ((s.declareLost x locus).ctx x).pmap = insertAsc sp ((s.ctx x).pmap.filter (· != locus)) := by
      rw [hu, State.collect, State.ctx_updCoord_self]
      exact hpmap
    refine ⟨_, e, State.declareLost_lost false hpart hm, hpmap', ?_, fun l hl => ?_, State.declareLost_mem false⟩
    · rw [hu, State.collect, State.ctx_updCoord_self]
      exact Option.some_ne_none _
    · rw [hpmap'] at hl
      refine (s.replaceLost_sends x locus sp more hl).mono ?_
      rw [hu, ← hout]
      exact List.suffix_rfl
  case replied =>
    intro s x locus p hp hans
    change execProbeTimeout x locus s = _
    unfold execProbeTimeout
    rw [hp]
    exact congrArg Host.Outcome.next (if_pos hans)
  case selfLost =>
    intro s h reason x htakes hlive hactive hpart hm htaking hmore hspare
    have he := effSelfLost_one (s := s.atEffect h) (h := h) (x := x) reason ((s.atEffect_liveCtxs h).trans hlive)
      (by rw [s.atEffect_ctx_coord]; exact hactive) (by rw [s.atEffect_ctx_pmap]; exact hpart)
    generalize selfLostEvent h reason = ev at he
    have e : execSelfLost h reason s = .next (((s.atEffect h).record ev).declareLost x h.src) := by
      unfold execSelfLost
      rw [State.ctrlIn_takes _ _ htakes, he]
    have hctx := (s.atEffect h).record_ctx ev x
    have hout := (s.atEffect h).record_out ev
    have hmem := (s.atEffect h).record_mem ev
    have hmay := (s.atEffect h).record_mayIssue ev x
    generalize (s.atEffect h).record ev = v at e hctx hout hmem hmay
    have hpm : (v.ctx x).pmap = (s.ctx x).pmap := by rw [hctx, s.atEffect_ctx_pmap]
    have hco : (v.ctx x).coord = (s.ctx x).coord := by rw [hctx, s.atEffect_ctx_coord]
    have hnone : (v.ctx x).freeSpares = [] := by
      rw [hctx]
      exact (sans_eq Ctx.freeSpares (fun _ => rfl) (s.atEffect_ctx h x)).trans hspare
    obtain ⟨hlost, hheld, hsent⟩ := State.declareLost_holds (s := v) (x := x) (lost := h.src) (by rw [hpm]; exact hpart) (hmay.trans hm)
      (by rw [hco]; exact htaking) (by rw [hpm]; exact length_ne_one hpart hmore) hnone
    rw [hpm, hco] at hsent
    refine ⟨_, e, hlost, hheld, fun l hl => ?_, ?_⟩
    · refine (hsent l hl).before ?_
      rw [hout, s.atEffect_out]
      exact ⟨[ackOfMsg h], rfl⟩
    · rw [State.declareLost_mem, hmem, s.atEffect_mem]
  case notice =>
    intro s h k ready x hx
    have hx' : (s.atEffect h).coordCtx h.src h.step = some x := (s.atEffect_coordCtx h h.src h.step).trans hx.2
    have e : execRecoveryNotice h k ready s = .next ((s.atEffect h).updCoord x (fun o => { o with ready := max o.ready ready })) := by
      unfold execRecoveryNotice
      rw [State.ctrlIn_takes _ _ hx.1, effRecoveryNotice_at ready hx']
    refine ⟨_, e, ?_, fun y hy => ?_, s.atEffect_mem h⟩
    · rw [State.ctx_updCoord_self, s.atEffect_ctx_coord]
    · rw [State.ctx_updCoord_ne _ _ hy, s.atEffect_ctx_coord]

end Sys2Proof.Machine
end

section
/-!
The coordinator's rules of a step (01 R22 to R25, 11 R277, R281, R286).
-/
namespace Sys2Proof.Machine

-- Proofs elaborated one after another keep the whole text within the memory its compile is given.
set_option Elab.async false

/-! ### Loops of messages -/

theorem CoordStep.forEach {α : Type} {x : Nat} {f : State → α → State} (hf : ∀ u a, CoordStep x u (f u a)) (l : List α) (s : State) :
    CoordStep x s (Machine.forEach l s f) :=
  foldl_only (CoordStep x s) (fun u a h => h.trans (hf u a)) l (.refl x s)

/-- A loop sends what each of its rounds sends while what the rounds rely on stays. -/
theorem forEach_ctrlSent_while {α : Type} {f : State → α → State} {P : State → Prop} (hf : ∀ u a, u.out <:+ (f u a).out)
    (hP : ∀ u a, P u → P (f u a)) {l : List α} {a : α} (ha : a ∈ l) {s : State} (hs : P s) {d m n k p : Nat}
    (h : ∀ u, P u → ctrlSent u (f u a) d m n k p) : ctrlSent s (forEach l s f) d m n k p := by
  induction l generalizing s with
  | nil => cases ha
  | cons b l ih =>
    rcases List.mem_cons.1 ha with rfl | hl
    · exact (h s hs).mono (forEach_suffix hf l (f s a))
    · exact (ih hl (hP s b hs)).before (hf s b)

/-! ### COMMIT (R23) -/

/-- The last confirmation in time, with nothing against it: COMMIT goes to every participant, and the next step is collected for. -/
theorem State.tryCommit_commits {s : State} {x n : Nat} {hold : Bool} (hstep : (s.ctx x).coord.step = n)
    (hstarted : (s.ctx x).coord.started = true) (hheld : (s.ctx x).coord.held = false) (hm : s.mayIssue x = true)
    (hreports : (s.ctx x).coord.reports = []) (hcollect : (s.ctx x).coord.collecting = none) (htake : (s.ctx x).coord.takeover = none)
    (hne : (s.ctx x).pmap ≠ []) (hall : ∀ l ∈ (s.ctx x).pmap, (s.ctx x).coord.lacks l = false) (hloss : (s.ctx x).coord.hostLoss = none)
    (hhold : hold = ((s.ctx x).coord.holdReq || (s.ctx x).coord.tearReq || n == 2 ^ 48 - 1)) :
    ((s.tryCommit x).ctx x).coord.step = nextStep n ∧ ((s.tryCommit x).ctx x).coord.attempt = 0 ∧
      ((s.tryCommit x).ctx x).coord.confirms = [] ∧ ((s.tryCommit x).ctx x).coord.held = hold ∧
      ∀ l ∈ (s.ctx x).pmap, ctrlSent s (s.tryCommit x) l 0x03 n (s.ctx x).coord.attempt
        (field (if hold then 0 else s.launchCount 0) 64 0 + field (b2n hold) 1 64 + field (s.ctx x).coord.epoch 32 160) := by
  unfold State.tryCommit
  extract_lets c o k lossHold hold' l u v
  have hgo : ¬((!o.started) = true ∨ o.held = true ∨ (!s.mayIssue x) = true ∨ (!o.reports.isEmpty) = true ∨ o.collecting.isSome = true ∨
      o.takeover.isSome = true ∨ c.pmap.isEmpty = true ∨ (c.pmap.any (o.lacks ·)) = true) := by
    have hany : c.pmap.any (o.lacks ·) = false := List.any_eq_false.2 fun l hl => by rw [hall l hl]; exact Bool.false_ne_true
    have hsome : c.pmap.isEmpty = false := List.isEmpty_eq_false_iff.2 hne
    rw [hany, hsome, show o.started = true from hstarted, show o.held = false from hheld, hm, show o.reports = [] from hreports,
      show o.collecting = none from hcollect, show o.takeover = none from htake]
    simp
  rw [if_neg hgo]
  have hk : k = n := hstep
  have hno : lossHold = false := by
    unfold lossHold
    rw [show o.hostLoss = none from hloss]
    exact Bool.and_false _
  have hsame : hold' = hold := by
    unfold hold'
    rw [hno, Bool.or_false, hhold, hk]
  refine ⟨?_, ?_, ?_, ?_, fun d hd => ?_⟩
  · rw [State.ctx_updCoord_self, ← hk]
    rfl
  · rw [State.ctx_updCoord_self]
    rfl
  · rw [State.ctx_updCoord_self]
    rfl
  · rw [State.ctx_updCoord_self, ← hsame]
  · have hl : l = if hold then 0 else s.launchCount 0 := by
      unfold l
      rw [hsame]
    rw [← hl, ← hsame, ← hk]
    have hsent : ctrlSent s u d 0x03 k o.attempt (field l 64 0 + field (b2n hold') 1 64 + field o.epoch 32 160) :=
      s.toAll_sent x 0x03 k o.attempt (field l 64 0 + field (b2n hold') 1 64) [] hd
    exact hsent.mono (u.checkpoint_step x k (lossHold && c.policy == 1)).out

/-- The confirmation noted with its stamp. -/
def State.noteConfirm (s : State) (x src stamp : Nat) : State :=
  s.updCoord x (fun o => { o with confirms := KMap.put o.confirms src stamp, probes := KMap.del o.probes src })

theorem State.noteConfirm_ctx (s : State) (x src stamp : Nat) : (s.noteConfirm x src stamp).ctx x = { s.ctx x with coord :=
    { (s.ctx x).coord with confirms := KMap.put (s.ctx x).coord.confirms src stamp, probes := KMap.del (s.ctx x).coord.probes src } } :=
  State.ctx_updCoord_self _ _ _

theorem effStepConfirm_notes {s : State} {h : Hdr} {x : Nat} (hx : s.coordCtx h.src h.step = some x) (hstep : (s.ctx x).coord.step = h.step)
    (hattempt : (s.ctx x).coord.attempt = h.attempt) : effStepConfirm h s =
      if reportWaits s.pending h.step h.stamp then s.noteConfirm x h.src h.stamp else (s.noteConfirm x h.src h.stamp).tryCommit x := by
  unfold effStepConfirm
  rw [hx]
  dsimp only
  rw [if_neg (by simp [hstep, hattempt])]
  rfl

/-! ### The deadline (R24, R286) -/

/-- The probe of a participant, not answered yet. -/
def Coord.probeOf (o : Coord) (l : Nat) : Probe :=
  { KMap.getD o.probes l { locus := l, extends_ := 0, recovering := false, answered := false } with answered := false }

/-- One missing participant is probed. -/
def State.probeOne (o : Coord) (x : Nat) (s : State) (l : Nat) : State :=
  (s.toSome x [l] 0x63 o.step o.attempt 0).updCoord x (fun p => { p with probes := KMap.put p.probes l (o.probeOf l) })

theorem State.probeOne_step (o : Coord) (x : Nat) (s : State) (l : Nat) : CoordStep x s (s.probeOne o x l) :=
  (s.toSome_step x x _ _ _ _ _).thenCoord fun _ => rfl

theorem State.probeOne_coordStep (o : Coord) (x : Nat) (s : State) (l : Nat) :
    ((s.probeOne o x l).ctx x).coord.step = (s.ctx x).coord.step := by
  unfold State.probeOne
  rw [State.ctx_updCoord_self, State.ctx, State.toSome_ctxs]
  rfl

theorem commitDeadline_probes {s : State} {x : Nat} (hstarted : (s.ctx x).coord.started = true) (hheld : (s.ctx x).coord.held = false)
    (hm : s.mayIssue x = true) (hreports : (s.ctx x).coord.reports = []) (hcollect : (s.ctx x).coord.collecting = none) :
    ∃ u : State, u.ctx x = { s.ctx x with coord := { (s.ctx x).coord with passed := (s.ctx x).coord.deadline } } ∧
      (∀ y, y ≠ x → u.ctx y = s.ctx y) ∧ u.mem = s.mem ∧ u.out = s.out ∧ execCommitDeadline x s =
        .next (forEach ((s.ctx x).pmap.filter ((s.ctx x).coord.lacks ·)) u (State.probeOne (s.ctx x).coord x)) := by
  obtain ⟨m, ea⟩ := s.advanceTo_fields (s.ctx x).coord.deadline
  refine ⟨(s.advanceTo (s.ctx x).coord.deadline).updCoord x (fun o => { o with passed := o.deadline }), ?_, fun y hy => ?_, ?_, ?_, ?_⟩
  · rw [State.ctx_updCoord_self, ea]
    rfl
  · rw [State.ctx_updCoord_ne _ _ hy, ea]
    rfl
  · rw [ea]
    rfl
  · rw [ea]
    rfl
  · unfold execCommitDeadline
    dsimp only
    rw [if_neg (by simp [hstarted, hheld, hm, hreports, hcollect])]
    rfl

/-! ### Fault reports (R25, R277) and REEXEC -/

/-- An attempt that fails far from its limits is collected for (R277, R286). -/
theorem State.failAttempt_collects {s : State} {x : Nat} (src : Nat) (h13 : (s.ctx x).coord.failed < 13)
    (hlimit : (s.ctx x).coord.failed + 1 < s.cfg.reexecLimit) : s.failAttempt x src =
      (s.updCoord x (fun o => { o with failed := (s.ctx x).coord.failed + 1, reporters := (src :: (s.ctx x).coord.reporters).take 16 })).collect x := by
  unfold State.failAttempt
  extract_lets o n reps u
  have hn : n = (s.ctx x).coord.failed + 1 := rfl
  rw [if_neg (by rw [hn]; omega), if_neg (by rw [hn]; exact Nat.not_le.2 hlimit)]

/-- A report whose core address is no core's is recorded (R10). -/
def State.reportSeen (s : State) (h : Hdr) (f : FaultParam) : State :=
  if f.physValid && decide (slotsPerCluster ≤ f.physCore % 512) then
    s.record { code := 0x2001, sev := 1, srcType := 9, srcIndex := h.src, step := h.step, attempt := h.attempt, data := [f.physCore] }
  else s

/-- Recording a report keeps what a record keeps. -/
theorem State.reportSeen_keeps {α : Type} (π : State → α) (hπ : ∀ (u : State) e, π (u.record e) = π u) (s : State) (h : Hdr) (f : FaultParam) :
    π (s.reportSeen h f) = π s := by
  unfold State.reportSeen
  split
  · exact hπ s _
  · rfl

/-- A report noted among the attempt's. -/
def State.noteReport (s : State) (x src source : Nat) : State := s.updCoord x (fun o => { o with reports := o.reports ++ [(src, source)] })

theorem State.noteReport_ctx (s : State) (x src source : Nat) : (s.noteReport x src source).ctx x = { s.ctx x with coord :=
    { (s.ctx x).coord with reports := (s.ctx x).coord.reports ++ [(src, source)] } } := State.ctx_updCoord_self _ _ _

/-- The first report of an attempt is acted on: PROGRAM holds the job, any other fails the attempt. -/
theorem effFaultReport_first {s : State} {h : Hdr} {x : Nat} (f : FaultParam) (hx : s.coordCtx h.src h.step = some x)
    (hstep : (s.ctx x).coord.step = h.step) (hattempt : (s.ctx x).coord.attempt = h.attempt) (hheld : (s.ctx x).coord.held = false)
    (hreports : (s.ctx x).coord.reports = []) : effFaultReport h f s =
      if f.kind = 5 then ((s.reportSeen h f).noteReport x h.src f.source).holdStep x 1
      else ((s.reportSeen h f).noteReport x h.src f.source).failAttempt x h.src := by
  unfold effFaultReport
  extract_lets u
  have hu : u = s.reportSeen h f := rfl
  have hctx : u.ctx x = s.ctx x := State.reportSeen_keeps (fun v => v.ctx x) (fun _ _ => rfl) s h f
  have hfind : u.coordCtx h.src h.step = some x :=
    (State.reportSeen_keeps (fun v => v.coordCtx h.src h.step) (fun _ _ => rfl) s h f).trans hx
  rw [hfind]
  dsimp only
  rw [hctx, if_neg (by simp [hstep, hattempt, hheld]), hreports, ← hu]
  rfl

/-- REEXEC goes to every participant with the next attempt and a launch no earlier than the latest ready count (R25, R286). -/
theorem State.issueReexec_issues {s : State} {x : Nat} (hm : s.mayIssue x = true) (hheld : (s.ctx x).coord.held = false) :
    ((s.issueReexec x).ctx x).coord = (s.ctx x).coord.fresh (s.ctx x).coord.step (((s.ctx x).coord.attempt + 1) % 16)
      (s.launchCount (s.ctx x).coord.ready) (s.launchCount (s.ctx x).coord.ready + (s.ctx x).dOffset) ∧
    ∀ l ∈ (s.ctx x).pmap, ctrlSent s (s.issueReexec x) l 0x06 (s.ctx x).coord.step (((s.ctx x).coord.attempt + 1) % 16)
      (s.launchCount (s.ctx x).coord.ready + field (s.ctx x).coord.epoch 32 160) := by
  unfold State.issueReexec
  extract_lets c o l k
  rw [if_neg (by simp [hm, o, c, hheld])]
  refine ⟨?_, fun d hd => ?_⟩
  · have hsame : ((s.toAll x 0x06 o.step k l).ctx x) = s.ctx x := congrArg (fun m => KMap.getD m x Ctx.reset) (s.toAll_ctxs x 0x06 o.step k l [])
    rw [State.ctx_updCoord_self, hsame]
  · exact s.toAll_sent x 0x06 o.step k l [] hd

/-- Settles O18, rule by rule. -/
theorem coordinatorRulesOfAStep : Obligations.CoordinatorRulesOfAStep := by
  unfold Obligations.CoordinatorRulesOfAStep
  refine ⟨?confirm, ?commit, ?deadline, ?report, ?reexec⟩
  case confirm =>
    intro s h x hx hstep hattempt hmissing
    obtain ⟨l, hl, hne, hnone⟩ := hmissing
    have hwaits : ((s.atEffect h).noteConfirm x h.src h.stamp).tryCommit x = (s.atEffect h).noteConfirm x h.src h.stamp := by
      refine State.tryCommit_waits (l := l) ?_ (Coord.lacks_of_none ?_)
      · rw [State.noteConfirm_ctx, s.atEffect_ctx_pmap]
        exact hl
      · rw [State.noteConfirm_ctx, s.atEffect_ctx_coord]
        exact (KMap.find_put _ _ _ _).trans ((if_neg hne).trans hnone)
    have e : execStepConfirm h s = .next ((s.atEffect h).noteConfirm x h.src h.stamp) := by
      unfold execStepConfirm
      rw [State.ctrlIn_takes _ _ hx.1, effStepConfirm_notes ((s.atEffect_coordCtx h h.src h.step).trans hx.2)
        (by rw [s.atEffect_ctx_coord]; exact hstep) (by rw [s.atEffect_ctx_coord]; exact hattempt), hwaits, ite_self]
    refine ⟨_, e, ?_, ?_, fun d hd => ?_, fun y hy => ?_, s.atEffect_mem h⟩
    · rw [State.noteConfirm_ctx]
      exact KMap.find_put_self _ _ _
    · rw [State.noteConfirm_ctx, s.atEffect_ctx_coord]
      exact hstep
    · rw [State.noteConfirm_ctx, s.atEffect_ctx_coord]
      exact (KMap.find_put _ _ _ _).trans (if_neg hd)
    · rw [State.noteConfirm, State.ctx_updCoord_ne _ _ hy, s.atEffect_ctx_coord]
  case commit =>
    intro s h x hold hx hstep hattempt hpart hstamp hall hreportWaits hstarted hheld hm hreports hcollect htake hloss hhold
    have hco : (((s.atEffect h).noteConfirm x h.src h.stamp).ctx x).coord = { (s.ctx x).coord with
        confirms := KMap.put (s.ctx x).coord.confirms h.src h.stamp, probes := KMap.del (s.ctx x).coord.probes h.src } := by
      rw [State.noteConfirm_ctx, s.atEffect_ctx_coord]
    have hpm : (((s.atEffect h).noteConfirm x h.src h.stamp).ctx x).pmap = (s.ctx x).pmap := by
      rw [State.noteConfirm_ctx, s.atEffect_ctx_pmap]
    have e : execStepConfirm h s = .next (((s.atEffect h).noteConfirm x h.src h.stamp).tryCommit x) := by
      unfold execStepConfirm
      rw [State.ctrlIn_takes _ _ hx.1, effStepConfirm_notes ((s.atEffect_coordCtx h h.src h.step).trans hx.2)
        (by rw [s.atEffect_ctx_coord]; exact hstep) (by rw [s.atEffect_ctx_coord]; exact hattempt),
        s.atEffect_pending h, hreportWaits, if_neg Bool.false_ne_true]
    obtain ⟨hnext, hzero, hconfirms, hheld', hsent⟩ := State.tryCommit_commits (s := (s.atEffect h).noteConfirm x h.src h.stamp) (x := x)
      (n := h.step) (hold := hold) (by rw [hco]; exact hstep) (by rw [hco]; exact hstarted) (by rw [hco]; exact hheld)
      ((State.updCoord_mayIssue rfl rfl rfl rfl).trans hm) (by rw [hco]; exact hreports) (by rw [hco]; exact hcollect)
      (by rw [hco]; exact htake) (by rw [hpm]; exact List.ne_nil_of_mem hpart)
      (by
        intro l hl
        rw [hpm] at hl
        rw [hco]
        by_cases hsrc : l = h.src
        · exact Coord.lacks_of_inTime (t := h.stamp) (by rw [hsrc]; exact KMap.find_put_self _ _ _) hstamp
        · obtain ⟨c, hc, hle⟩ := hall l hl hsrc
          exact Coord.lacks_of_inTime (t := c) ((KMap.find_put _ _ _ _).trans ((if_neg hsrc).trans hc)) hle)
      (by rw [hco]; exact hloss) (by rw [hco]; exact hhold)
    refine ⟨_, e, hnext, hzero, hconfirms, hheld', fun l hl => ?_⟩
    have := hsent l (by rw [hpm]; exact hl)
    rw [hco, hattempt] at this
    exact this.before ⟨[ackOfMsg h], (s.atEffect_out h).symm⟩
  case deadline =>
    intro s x hstarted hheld hm hreports hcollect
    obtain ⟨u, hctx, hothers, hmem, hout, e⟩ := commitDeadline_probes hstarted hheld hm hreports hcollect
    have hstep := CoordStep.forEach (fun v l => State.probeOne_step (s.ctx x).coord x v l) ((s.ctx x).pmap.filter ((s.ctx x).coord.lacks ·)) u
    refine ⟨_, e, ?_, fun l hl hnone => ?_, fun y hy => (hstep.others y hy).trans (hothers y hy), hstep.mem.trans hmem⟩
    · rw [forEach_keeps_reading (fun v => (v.ctx x).coord.step) (fun v l => State.probeOne_coordStep _ x v l), hctx]
    · refine ctrlSent.before ?_ ⟨[], hout.symm⟩
      refine forEach_ctrlSent_while (P := fun v => (v.ctx x).coord.epoch = (s.ctx x).coord.epoch) (a := l)
        (fun v a => (State.probeOne_step _ x v a).out) (fun v a hv => ?_) (List.mem_filter.2 ⟨hl, Coord.lacks_of_none hnone⟩) ?_
        (fun v hv => ?_)
      · exact (lasting_eq Coord.epoch (fun _ => rfl) (State.probeOne_step _ x v a).lasting).trans hv
      · rw [hctx]
      · have hsent := v.toSome_sent x 0x63 (s.ctx x).coord.step (s.ctx x).coord.attempt 0 (List.mem_singleton_self l)
        rw [hv, Nat.zero_add] at hsent
        exact hsent
  case report =>
    intro s h f x hx hstep hattempt hheld hreports
    have hctx : ((s.atEffect h).reportSeen h f).ctx x = (s.atEffect h).ctx x :=
      State.reportSeen_keeps (fun v => v.ctx x) (fun _ _ => rfl) _ h f
    have hco : ((((s.atEffect h).reportSeen h f).noteReport x h.src f.source).ctx x).coord =
        { (s.ctx x).coord with reports := (s.ctx x).coord.reports ++ [(h.src, f.source)] } := by
      rw [State.noteReport_ctx, hctx, s.atEffect_ctx_coord]
    have hmem : (((s.atEffect h).reportSeen h f).noteReport x h.src f.source).mem = s.mem :=
      (State.reportSeen_keeps (fun v => v.mem) (fun _ _ => rfl) _ h f).trans (s.atEffect_mem h)
    have first := effFaultReport_first (s := s.atEffect h) f ((s.atEffect_coordCtx h h.src h.step).trans hx.2)
      (by rw [s.atEffect_ctx_coord]; exact hstep) (by rw [s.atEffect_ctx_coord]; exact hattempt) (by rw [s.atEffect_ctx_coord]; exact hheld)
      (by rw [s.atEffect_ctx_coord]; exact hreports)
    refine ⟨fun hkind h13 hlimit => ?_, fun hkind hm => ?_⟩
    · have hcfg : (((s.atEffect h).reportSeen h f).noteReport x h.src f.source).cfg = s.cfg :=
        (State.reportSeen_keeps (fun v => v.cfg) (fun _ _ => rfl) _ h f).trans (s.atEffect_cfg h)
      have e : execFaultReport h f s = .next ((((s.atEffect h).reportSeen h f).noteReport x h.src f.source).failAttempt x h.src) := by
        unfold execFaultReport
        rw [State.ctrlIn_takes _ _ hx.1, first, if_neg hkind]
      rw [State.failAttempt_collects h.src (by rw [hco]; exact h13) (by rw [hco, hcfg]; exact hlimit)] at e
      refine ⟨_, e, ?_, ?_, ?_, hmem⟩ <;> rw [State.collect, State.ctx_updCoord_self, State.ctx_updCoord_self]
      · rw [hco, hreports]
        rfl
      · rw [hco]
      · exact Option.some_ne_none _
    · have e : execFaultReport h f s = .next ((((s.atEffect h).reportSeen h f).noteReport x h.src f.source).holdStep x 1) := by
        unfold execFaultReport
        rw [State.ctrlIn_takes _ _ hx.1, first, if_pos hkind]
      have hm' : (((s.atEffect h).reportSeen h f).noteReport x h.src f.source).mayIssue x = true :=
        (State.updCoord_mayIssue rfl rfl rfl rfl).trans
          ((State.reportSeen_keeps (fun v => v.mayIssue x) (fun _ _ => rfl) _ h f).trans hm)
      obtain ⟨hholds, hsent⟩ := State.holdStep_holds 1 hm'
      refine ⟨_, e, hholds, fun l hl => ?_, (State.holdStep_step _ x 1).mem.trans hmem⟩
      have hpm : ((((s.atEffect h).reportSeen h f).noteReport x h.src f.source).ctx x).pmap = (s.ctx x).pmap := by
        rw [State.noteReport_ctx, hctx, s.atEffect_ctx_pmap]
      have hout : (((s.atEffect h).reportSeen h f).noteReport x h.src f.source).out = ackOfMsg h :: s.out :=
        (State.reportSeen_keeps (fun v => v.out) (fun _ _ => rfl) _ h f).trans (s.atEffect_out h)
      have := hsent l (by rw [hpm]; exact hl)
      rw [hco, hstep, hattempt] at this
      exact this.before ⟨[ackOfMsg h], hout.symm⟩
  case reexec =>
    intro s x hcollect hm hheld
    obtain ⟨t0, ht0⟩ := Option.ne_none_iff_exists'.1 hcollect
    have e : execReexecCollect x s = .next (s.issueReexec x) := by
      unfold execReexecCollect
      rw [ht0]
    obtain ⟨hco, hsent⟩ := State.issueReexec_issues hm hheld
    exact ⟨_, e, by rw [hco]; rfl, by rw [hco]; rfl, by rw [hco]; rfl, by rw [hco]; rfl, hsent, (s.issueReexec_step x).others,
      (s.issueReexec_step x).mem⟩

end Sys2Proof.Machine
end

section
/-!
A job that starts, drains and loses its host (05 R113, R115, R133, R134, 06 R158).
-/
namespace Sys2Proof.Machine

-- Proofs elaborated one after another keep the whole text within the memory its compile is given.
set_option Elab.async false

/-! ### A context emptied with nothing to judge -/

theorem State.cancelDumps_ctxs (s : State) (x : Nat) : (s.cancelDumps x).ctxs = (s.updCtx x (fun c => { c with dumps := [] })).ctxs := by
  unfold State.cancelDumps
  extract_lets ds u
  split
  · exact forEach_keeps_reading (fun v => v.ctxs) (fun v d => v.emit_ctxs _) ds u
  · rfl

theorem State.dom_of_updPwrCtx (s : State) (x : Nat) (f : PwrCtx → PwrCtx) (p : Nat) : (s.updPwrCtx x f).dom p = s.dom p := rfl

/-- With no repeat of the context to be judged, emptying it leaves memory, the flash and the other contexts alone, and its domains are off. -/
theorem State.emptyCtx_quiet {s : State} {x : Nat} (hst : (s.ctx x).st ≠ .empty) (hrep : ∀ r ∈ s.recov.repeats, r.ctx ≠ x) :
    (∀ y, y ≠ x → (s.emptyCtx x).ctx y = s.ctx y) ∧ (s.emptyCtx x).mem = s.mem ∧ (s.emptyCtx x).flash = s.flash ∧
      ∀ p ∈ maskParts (s.ctx x).mask, (s.emptyCtx x).dom p = .off := by
  have hnone : s.recov.repeats.filter (fun r => r.ctx == x) = [] := List.filter_eq_nil_iff.2 fun r hr => by simpa using hrep r hr
  unfold State.emptyCtx
  extract_lets c g s1 s2 s3 s4 s5 s6 s7 s8 s9
  rw [if_neg hst]
  have h1 : s1 = s := by
    unfold s1
    rw [hnone]
    rfl
  have hc2 : s2.ctxs = (s.updCtx x (fun c => { c with dumps := [] })).ctxs := by
    unfold s2
    rw [State.cancelDumps_ctxs, h1]
    rfl
  have hm2 : s2.mem = s.mem ∧ s2.flash = s.flash := by
    unfold s2
    rw [h1]
    exact ⟨(State.cancelDumps_only x (Foot.sub (by decide) (Foot.refl _)) (Only.refl _ _)).mem_eq,
      (State.cancelDumps_only x (Foot.sub (by decide) (Foot.refl _)) (Only.refl _ _)).flash_eq⟩
  have only4 : ∀ ps, Foot 8388640 ps → Only ps s2 s4 := fun ps hps =>
    forEach_only _ (forEach_only _ (Only.refl ps s2) fun u r hu => State.finishRing_only r 5 hps hu) fun u r hu => State.finishRing_only r 0 hps hu
  have only6 : ∀ ps, Foot 8651808 ps → Only ps s2 s6 := fun ps hps =>
    forEach_only _ (State.updFab_only _ (Foot.sub (by decide) hps) (only4 ps (Foot.sub (by decide) hps)))
      fun u p hu => State.setDomains_only p .off (Foot.sub (by decide) hps) hu
  have only9 : ∀ ps, Foot 8717856 ps → Only ps s2 s9 := fun ps hps =>
    State.updTel_only _ (Foot.sub (by decide) hps) (State.pwrNotify_only x 1 g (Foot.sub (by decide) hps)
      (State.updPwrCtx_only x _ (Foot.sub (by decide) hps) (State.updClus_only _ (Foot.sub (by decide) hps)
        (State.idleClusters_only _ (Foot.sub (by decide) hps) (only6 ps (Foot.sub (by decide) hps))))))
  have hdom : ∀ p ∈ maskParts c.mask, s9.dom p = .off := fun p hp => by
    have h6 : s6.dom p = .off :=
      State.forEach_setDomains_dom s5 (maskParts c.mask) .off (.inl hp) (fun q hq => mem_maskParts hq) (mem_maskParts hp)
    have h9 : s9.dom p = s6.dom p := by
      unfold s9 s8 s7
      clear_value s6
      rw [State.dom_of_updTel, State.pwrNotify, State.dom_of_emit, State.dom_of_updPwrCtx, State.dom_of_updClus, State.idleClusters,
        State.dom_of_updClus]
    rw [h9]
    exact h6
  have hctx9 := (only9 _ (Foot.sub (by decide) (Foot.refl _))).ctxs_eq
  have hmem9 := (only9 _ (Foot.sub (by decide) (Foot.refl _))).mem_eq
  have hflash9 := (only9 _ (Foot.sub (by decide) (Foot.refl _))).flash_eq
  refine ⟨fun y hy => ?_, hmem9.trans hm2.1, hflash9.trans hm2.2, hdom⟩
  rw [State.ctx_setCtx_ne _ _ hy, State.ctx, hctx9, hc2, ← State.ctx, State.ctx_updCtx_ne _ _ hy]

/-! ### ARMED (R113, R115) -/

theorem State.atEffect_early (s : State) (h : Hdr) : (s.atEffect h).fab.early = s.fab.early := by
  obtain ⟨m, ea⟩ := s.advanceTo_fields h.stamp
  have hdup : ((s.advanceTo h.stamp).dupCheck h).2.fab.early = s.fab.early := by
    rw [ea]
    unfold State.dupCheck
    dsimp only
    split
    · rfl
    · split
      · split <;> rfl
      · split <;> rfl
  unfold State.atEffect State.when
  extract_lets u
  split
  · obtain ⟨k, c, e⟩ := u.markLate_fields
    rw [e]
    exact hdup
  · exact hdup

theorem State.atEffect_fcHeld (s : State) (h : Hdr) : (s.atEffect h).fcHeld = s.fcHeld := by
  have hdup : ∀ u : State, (u.dupCheck h).2.time = u.time := fun u => by
    obtain ⟨f, e⟩ := u.dupCheck_fields h
    rw [e]
  unfold State.fcHeld State.atEffect State.when
  extract_lets u
  have hu : u.time.st = s.time.st := (congrArg (fun t => t.st) (hdup (s.advanceTo h.stamp))).trans (s.advanceTo_st h.stamp)
  split
  · obtain ⟨k, c, e⟩ := u.markLate_fields
    rw [e, ← hu]
  · rw [hu]

/-- A state with what it has sent as given. -/
def State.withSent (s : State) (f : Fab) (o : List Emit) : State := { s with fab := f, out := o }

/-- The contexts armed whose job has not started, at their coordinator. -/
def State.notStarted (s : State) : List Nat :=
  s.liveCtxs.filter (fun x => (s.ctx x).st == .armed && (s.ctx x).coord.active && !(s.ctx x).coord.started)

/-- A report kept at the coordinator. -/
def State.noteArmed (s : State) (x src digest : Nat) : State := s.updCoord x (fun o => { o with armed := KMap.put o.armed src digest })

theorem State.noteArmed_ctx (s : State) (x src digest : Nat) : (s.noteArmed x src digest).ctx x = { s.ctx x with coord :=
    { (s.ctx x).coord with armed := KMap.put (s.ctx x).coord.armed src digest } } := State.ctx_updCoord_self _ _ _

theorem State.noteArmed_fields (s : State) (x src digest : Nat) :
    (s.noteArmed x src digest).fab = s.fab ∧ (s.noteArmed x src digest).out = s.out := ⟨rfl, rfl⟩

theorem find_one_or_head (p : Nat → Bool) (x : Nat) : ([x].find? p).orElse (fun _ => [x].head?) = some x := by
  cases hp : p x <;> simp [hp]

/-- A report of the one job to start, which has room for it: it is kept, a spare told of a restore, and START thought of. -/
theorem State.armedFrom_notes {s : State} {src digest x : Nat} (hone : s.notStarted = [x])
    (hroom : (s.ctx x).coord.armed.length < (s.ctx x).participants) :
    ∃ f o, s.armedFrom src digest = ((s.noteArmed x src digest).withSent f o).tryStart x ∧
      (s.noteArmed x src digest).out <:+ o ∧ ((s.ctx x).coord.restore = none → f = s.fab ∧ o = s.out) := by
  unfold State.armedFrom
  extract_lets mine begun spare
  have hmine : mine = [x] := hone
  rw [hmine, find_one_or_head]
  dsimp only
  rw [if_neg (fun h => absurd hroom (Nat.not_lt.2 h.2))]
  have hu := s.noteArmed_fields x src digest
  change ∃ f o, (match (KMap.find (s.ctx x).coord.armed src).isNone, (s.ctx x).coord.restore with
    | true, some (k, j, _) => (s.noteArmed x src digest).toSome x [src] 0x49 k 0 (field j 32 32)
    | _, _ => s.noteArmed x src digest).tryStart x = _ ∧ _
  generalize s.noteArmed x src digest = u at hu ⊢
  split
  · next k j l hf hr =>
    obtain ⟨f, k', e⟩ := u.toSome_fields x 0x49 k 0 (field j 32 32) [src]
    refine ⟨f, k', by rw [e]; rfl, ?_, fun hnone => absurd (hnone.symm.trans hr) (by simp)⟩
    have hs := u.toSome_suffix x 0x49 k 0 (field j 32 32) [src]
    rw [e] at hs
    exact hs
  · exact ⟨u.fab, u.out, rfl, List.suffix_rfl, fun _ => hu⟩

/-- START, every participant armed with one digest: it goes to each with the launch count and the policy (R115, R133). -/
theorem State.tryStart_starts {s : State} {x : Nat} (hst : (s.ctx x).st = .armed) (hstarted : (s.ctx x).coord.started = false)
    (hm : s.mayIssue x = true) (hcount : (s.ctx x).participants ≤ (s.ctx x).coord.armed.length) (hheld : s.fcHeld = true)
    (hrestore : (s.ctx x).coord.restore = none) (hdigest : ∀ e ∈ (s.ctx x).coord.armed, e.2 = descDigest (s.ctx x).desc) :
    ((s.tryStart x).ctx x).coord.started = true ∧ ((s.tryStart x).ctx x).coord.step = (s.ctx x).firstStep ∧
      ((s.tryStart x).ctx x).coord.launch = s.launchCount 0 ∧ ((s.tryStart x).ctx x).coord.deadline = s.launchCount 0 + (s.ctx x).dOffset ∧
      ∀ e ∈ (s.ctx x).coord.armed, ctrlSent s (s.tryStart x) e.1 0x02 (s.ctx x).firstStep 0
        (field (s.launchCount 0) 64 0 + field (s.jobPolicy x) 8 64 + field (s.ctx x).coord.epoch 32 160) := by
  unfold State.tryStart
  extract_lets c o ready own l pol loci u v
  have hready : ready = true := by
    unfold ready
    rw [show o.restore = none from hrestore]
  have hgo : ¬(c.st ≠ .armed ∨ o.started = true ∨ (!s.mayIssue x) = true ∨ o.armed.length < c.participants ∨ (!s.fcHeld) = true ∨
      (!ready) = true) := by
    rw [show c.st = .armed from hst, show o.started = false from hstarted, hm, hheld, hready]
    have := Nat.not_lt.2 hcount
    simp [o, c, this]
  rw [if_neg hgo]
  have hfind : o.armed.find? (fun e => e.2 != own) = none :=
    List.find?_eq_none.2 fun e he => by simpa using hdigest e he
  rw [hfind]
  dsimp only
  refine ⟨?_, ?_, ?_, ?_, fun e he => ?_⟩
  · rw [State.ctx_updCoord_self]
  · rw [State.ctx_updCoord_self]
  · rw [State.ctx_updCoord_self]
  · rw [State.ctx_updCoord_self]
  · have hu : u.ctx x = { c with pmap := loci, index := loci } := State.ctx_updCtx_self _ _ _
    have hsent := u.toAll_sent x 0x02 c.firstStep 0 (field l 64 0 + field pol 8 64) [] (l := e.1)
      (by rw [hu]; exact List.mem_map_of_mem he)
    rw [hu] at hsent
    have hout : s.out <:+ u.out := List.suffix_rfl
    have hv : ctrlSent s v e.1 0x02 c.firstStep 0 (field l 64 0 + field pol 8 64 + field o.epoch 32 160) := hsent.before hout
    have hw := hv.mono (v.sendPmap_suffix x)
    generalize v.sendPmap x = w at hw ⊢
    exact hw.mono List.suffix_rfl

/-! ### A loop that notes the same thing of each context -/

/-- Noting once what noting twice does not change: each context listed has it noted, the others are as they were. -/
theorem forEach_updCoord_idem {f : Coord → Coord} (hf : ∀ o, f (f o) = f o) (l : List Nat) (s : State) (y : Nat) :
    ((forEach l s (fun s x => s.updCoord x f)).ctx y).coord = if y ∈ l then f (s.ctx y).coord else (s.ctx y).coord := by
  unfold forEach
  induction l generalizing s with
  | nil => rfl
  | cons a l ih =>
    rw [List.foldl_cons, ih]
    by_cases hy : y = a
    · rw [hy, State.ctx_updCoord_self, if_pos List.mem_cons_self]
      split
      · exact hf _
      · rfl
    · rw [State.ctx_updCoord_ne _ _ hy]
      simp only [List.mem_cons, hy, false_or]

/-- A host loss is noted of a job neither held nor with one noted (R133). -/
def Coord.noteHostLoss (stamp : Nat) (o : Coord) : Coord := if o.held || o.hostLoss.isSome then o else { o with hostLoss := some stamp }

theorem Coord.noteHostLoss_idem (stamp : Nat) (o : Coord) : (o.noteHostLoss stamp).noteHostLoss stamp = o.noteHostLoss stamp := by
  by_cases h : (o.held || o.hostLoss.isSome) = true
  · have hn : o.noteHostLoss stamp = o := if_pos h
    rw [hn, hn]
  · have hn : o.noteHostLoss stamp = { o with hostLoss := some stamp } := if_neg h
    rw [hn]
    exact if_pos (Bool.or_true _)

/-! ### The clauses of the life of a job -/

/-- A state with no early report kept. -/
def State.noEarly (s : State) : State := s.updFab (fun f => { f with early := [] })

theorem State.noEarly_ctx (s : State) (y : Nat) : s.noEarly.ctx y = s.ctx y := rfl

theorem State.noEarly_fields (s : State) : s.noEarly.out = s.out ∧ s.noEarly.mem = s.mem ∧ s.noEarly.cfg = s.cfg ∧
    s.noEarly.fcHeld = s.fcHeld ∧ s.noEarly.notStarted = s.notStarted ∧ s.noEarly.launchCount 0 = s.launchCount 0 := ⟨rfl, rfl, rfl, rfl, rfl, rfl⟩

theorem State.noEarly_mayIssue (s : State) (x : Nat) : s.noEarly.mayIssue x = s.mayIssue x := rfl

theorem effArmed_one {s : State} {h : Hdr} {digest : Nat} (he : s.fab.early = []) :
    effArmed h digest s = s.noEarly.armedFrom h.src digest := by
  unfold effArmed
  rw [he, List.nil_append, forEach_one]
  rfl

theorem State.atEffect_notStarted (s : State) (h : Hdr) : (s.atEffect h).notStarted = s.notStarted := by
  unfold State.notStarted
  simp only [State.atEffect_liveCtxs, State.atEffect_ctx_st, State.atEffect_ctx_coord]

/-- The state an ARMED is judged on. -/
def State.armedOn (s : State) (h : Hdr) : State := (s.atEffect h).noEarly

theorem State.armedOn_ctx (s : State) (h : Hdr) (y : Nat) : (s.armedOn h).ctx y = (s.atEffect h).ctx y := State.noEarly_ctx _ _

theorem State.armedOn_out (s : State) (h : Hdr) : (s.armedOn h).out = ackOfMsg h :: s.out :=
  (State.noEarly_fields _).1.trans (s.atEffect_out h)

theorem State.armedOn_mem (s : State) (h : Hdr) : (s.armedOn h).mem = s.mem := (State.noEarly_fields _).2.1.trans (s.atEffect_mem h)

theorem State.armedOn_cfg (s : State) (h : Hdr) : (s.armedOn h).cfg = s.cfg := (State.noEarly_fields _).2.2.1.trans (s.atEffect_cfg h)

theorem State.armedOn_fcHeld (s : State) (h : Hdr) : (s.armedOn h).fcHeld = s.fcHeld :=
  (State.noEarly_fields _).2.2.2.1.trans (s.atEffect_fcHeld h)

theorem State.armedOn_notStarted (s : State) (h : Hdr) : (s.armedOn h).notStarted = s.notStarted :=
  (State.noEarly_fields _).2.2.2.2.1.trans (s.atEffect_notStarted h)

theorem State.armedOn_launchCount (s : State) (h : Hdr) : (s.armedOn h).launchCount 0 = (s.atEffect h).launchCount 0 :=
  (State.noEarly_fields _).2.2.2.2.2

/-- ARMED from a participant while the job has room for it. -/
theorem armed_notes {s : State} {h : Hdr} {digest x : Nat} (htakes : s.takes h = true) (hone : s.notStarted = [x])
    (hroom : (s.ctx x).coord.armed.length < (s.ctx x).participants) (hearly : s.fab.early = []) :
    ∃ f o, execArmed h digest s = .next ((((s.armedOn h).noteArmed x h.src digest).withSent f o).tryStart x) ∧
      (s.armedOn h).out <:+ o ∧ ((s.ctx x).coord.restore = none → f = (s.armedOn h).fab ∧ o = (s.armedOn h).out) := by
  have hroom' : ((s.armedOn h).ctx x).coord.armed.length < ((s.armedOn h).ctx x).participants := by
    rw [s.armedOn_ctx, s.atEffect_ctx_coord, sans_eq Ctx.participants (fun _ => rfl) (s.atEffect_ctx h x)]
    exact hroom
  obtain ⟨f, o, e, hs, hnone⟩ := State.armedFrom_notes (s := s.armedOn h) (src := h.src) (digest := digest) (x := x)
    ((s.armedOn_notStarted h).trans hone) hroom'
  rw [s.armedOn_ctx, s.atEffect_ctx_coord] at hnone
  refine ⟨f, o, ?_, hs, hnone⟩
  unfold execArmed
  rw [State.ctrlIn_takes _ _ htakes, effArmed_one ((s.atEffect_early h).trans hearly), ← State.armedOn, e]

theorem State.withSent_ctx (s : State) (f : Fab) (o : List Emit) (y : Nat) : (s.withSent f o).ctx y = s.ctx y := rfl

theorem State.withSent_self (s : State) : s.withSent s.fab s.out = s := rfl

theorem State.withSent_mem (s : State) (f : Fab) (o : List Emit) : (s.withSent f o).mem = s.mem := rfl

theorem State.noteArmed_launchCount (s : State) (x src digest n : Nat) : (s.noteArmed x src digest).launchCount n = s.launchCount n := rfl

theorem State.noteArmed_kept (s : State) (x src digest : Nat) : (s.noteArmed x src digest).mem = s.mem ∧
    (s.noteArmed x src digest).cfg = s.cfg ∧ (s.noteArmed x src digest).fcHeld = s.fcHeld := ⟨rfl, rfl, rfl⟩

theorem State.noteArmed_mayIssue (s : State) (x src digest : Nat) : (s.noteArmed x src digest).mayIssue x = s.mayIssue x :=
  State.updCoord_mayIssue rfl rfl rfl rfl

theorem State.noteArmed_ctx_ne {x y : Nat} (s : State) (src digest : Nat) (h : y ≠ x) : (s.noteArmed x src digest).ctx y = s.ctx y :=
  State.ctx_updCoord_ne _ _ h

/-- The policy of a job is read of its context and of the configuration alone. -/
theorem State.jobPolicy_congr {s t : State} {x : Nat} (hset : (t.ctx x).policySet = (s.ctx x).policySet)
    (hdesc : (t.ctx x).descPolicy = (s.ctx x).descPolicy) (hcfg : t.cfg = s.cfg) : t.jobPolicy x = s.jobPolicy x := by
  unfold State.jobPolicy
  dsimp only
  rw [hset, hdesc, hcfg]

theorem State.notStarted_st {s : State} {x : Nat} (h : s.notStarted = [x]) : (s.ctx x).st = .armed ∧ (s.ctx x).coord.started = false := by
  have hx : x ∈ s.notStarted := by rw [h]; exact List.mem_singleton_self x
  have hp := (List.mem_filter.1 hx).2
  simp only [Bool.and_eq_true, beq_iff_eq, Bool.not_eq_true'] at hp
  exact ⟨hp.1.1, hp.2⟩

theorem State.armedOn_jobPolicy (s : State) (h : Hdr) (x digest : Nat) :
    ((s.armedOn h).noteArmed x h.src digest).jobPolicy x = s.jobPolicy x := by
  have hc := State.noteArmed_ctx (s.armedOn h) x h.src digest
  rw [s.armedOn_ctx] at hc
  refine State.jobPolicy_congr ?_ ?_ (((s.armedOn h).noteArmed_kept x h.src digest).2.1.trans (s.armedOn_cfg h))
  · rw [hc]
    exact s.atEffect_ctx_policySet h x
  · have hd : ∀ (c : Ctx) (o : Coord), ({ c with coord := o } : Ctx).descPolicy = c.descPolicy := fun _ _ => rfl
    rw [hc, hd]
    exact sans_eq Ctx.descPolicy (fun _ => rfl) (s.atEffect_ctx h x)

theorem Ctx.dOffset_coord (c : Ctx) (o : Coord) : ({ c with coord := o } : Ctx).dOffset = c.dOffset := rfl

/-- The last ARMED: START to every participant (R113, R115, R133). -/
theorem armed_starts {s : State} {h : Hdr} {digest x : Nat} (htakes : s.takes h = true) (hone : s.notStarted = [x])
    (hroom : (s.ctx x).coord.armed.length < (s.ctx x).participants) (hearly : s.fab.early = []) (hrestore : (s.ctx x).coord.restore = none)
    (hheld : s.fcHeld = true) (hm : (s.atEffect h).mayIssue x = true)
    (hcount : (s.ctx x).participants ≤ (KMap.put (s.ctx x).coord.armed h.src digest).length)
    (hdigest : ∀ e ∈ KMap.put (s.ctx x).coord.armed h.src digest, e.2 = descDigest (s.ctx x).desc) :
    ∃ t, execArmed h digest s = .next t ∧ (t.ctx x).coord.started = true ∧ (t.ctx x).coord.step = (s.ctx x).firstStep ∧
      (t.ctx x).coord.launch = (s.atEffect h).launchCount 0 ∧ (t.ctx x).coord.deadline = (s.atEffect h).launchCount 0 + (s.ctx x).dOffset ∧
      (∀ e ∈ KMap.put (s.ctx x).coord.armed h.src digest, ctrlSent s t e.1 0x02 (s.ctx x).firstStep 0
        (field ((s.atEffect h).launchCount 0) 64 0 + field (s.jobPolicy x) 8 64 + field (s.ctx x).coord.epoch 32 160)) := by
  obtain ⟨f, o, e, -, hnone⟩ := armed_notes (digest := digest) htakes hone hroom hearly
  obtain ⟨hf, ho⟩ := hnone hrestore
  obtain ⟨hst, hstarted⟩ := State.notStarted_st hone
  have hself : ((s.armedOn h).noteArmed x h.src digest).withSent f o = (s.armedOn h).noteArmed x h.src digest := by
    rw [hf, ho, ← ((s.armedOn h).noteArmed_fields x h.src digest).1, ← ((s.armedOn h).noteArmed_fields x h.src digest).2,
      State.withSent_self]
  rw [hself] at e
  have hpolicy := s.armedOn_jobPolicy h x digest
  have hctx := (s.armedOn h).noteArmed_ctx x h.src digest
  rw [s.armedOn_ctx] at hctx
  have hlaunch : ((s.armedOn h).noteArmed x h.src digest).launchCount 0 = (s.atEffect h).launchCount 0 :=
    (State.noteArmed_launchCount _ _ _ _ _).trans (s.armedOn_launchCount h)
  have hfc : ((s.armedOn h).noteArmed x h.src digest).fcHeld = true :=
    ((s.armedOn h).noteArmed_kept x h.src digest).2.2.trans ((s.armedOn_fcHeld h).trans hheld)
  have hmay : ((s.armedOn h).noteArmed x h.src digest).mayIssue x = true :=
    (State.noteArmed_mayIssue _ _ _ _).trans ((State.noEarly_mayIssue _ _).trans hm)
  have hout : s.out <:+ ((s.armedOn h).noteArmed x h.src digest).out := by
    rw [((s.armedOn h).noteArmed_fields x h.src digest).2, s.armedOn_out]
    exact ⟨[ackOfMsg h], rfl⟩
  generalize (s.armedOn h).noteArmed x h.src digest = v at e hpolicy hctx hlaunch hfc hmay hout
  have hcs : (v.ctx x).st = (s.ctx x).st := by rw [hctx]; exact s.atEffect_ctx_st h x
  have hdesc : (v.ctx x).desc = (s.ctx x).desc := by rw [hctx]; exact s.atEffect_ctx_desc h x
  have hparts : (v.ctx x).participants = (s.ctx x).participants := congrArg (fun d => leAt d 8 4) hdesc
  have hfirst : (v.ctx x).firstStep = (s.ctx x).firstStep := congrArg (fun d => leAt d 20 6) hdesc
  have hoff : (v.ctx x).dOffset = (s.ctx x).dOffset :=
    (congrArg Ctx.dOffset hctx).trans ((Ctx.dOffset_coord _ _).trans (sans_eq Ctx.dOffset (fun _ => rfl) (s.atEffect_ctx h x)))
  have hco : (v.ctx x).coord = { (s.ctx x).coord with armed := KMap.put (s.ctx x).coord.armed h.src digest } := by
    rw [hctx, s.atEffect_ctx_coord]
  have harmed : (v.ctx x).coord.armed = KMap.put (s.ctx x).coord.armed h.src digest := by rw [hco]
  have hepoch : (v.ctx x).coord.epoch = (s.ctx x).coord.epoch := by rw [hco]
  have hbegun : (v.ctx x).coord.started = false := by
    rw [hco]
    exact hstarted
  have hnew : (v.ctx x).coord.restore = none := by
    rw [hco]
    exact hrestore
  rw [← harmed, ← hdesc] at hdigest
  rw [← harmed, ← hparts] at hcount
  obtain ⟨h1, h2, h3, h4, hsent⟩ := State.tryStart_starts (s := v) (x := x) (hcs.trans hst)
    hbegun hmay hcount hfc hnew hdigest
  rw [hlaunch] at h3 h4 hsent
  rw [hfirst, hpolicy, harmed, hepoch] at hsent
  exact ⟨_, e, h1, h2.trans hfirst, h3, by rw [h4, hoff], fun d hd => (hsent d hd).before hout⟩

/-- T_d drops the limiters of the domain's modules and keeps the others (R158). -/
theorem drainStart_drops {s : State} {x d : Nat} (hd : (s.ctx x).drainAt = some d) : ∃ t, execDrainStart x s = .next t ∧
    (∀ e ∈ t.fab.limiters, e.1 / 8 ∉ (s.ctx x).pmap) ∧ (∀ e ∈ s.fab.limiters, e.1 / 8 ∉ (s.ctx x).pmap → e ∈ t.fab.limiters) ∧
    t.ctxs = s.ctxs ∧ t.mem = s.mem ∧ t.out = s.out := by
  obtain ⟨m, ea⟩ := s.advanceTo_fields d
  unfold execDrainStart
  dsimp only
  rw [hd]
  dsimp only
  rw [ea]
  refine ⟨_, rfl, fun e he => ?_, fun e he hne => ?_, rfl, rfl, rfl⟩
  · simpa using (List.mem_filter.1 he).2
  · exact List.mem_filter.2 ⟨he, by simpa using hne⟩

/-- The end of the drain empties the context and tells the coordinator (R158). -/
theorem drainEnd_empties {s : State} {x d : Nat} (hd : (s.ctx x).drainAt = some d) (hst : (s.ctx x).st ≠ .empty)
    (hrep : ∀ r ∈ s.recov.repeats, r.ctx ≠ x) : ∃ t, execDrainEnd x s = .next t ∧ t.ctx x = Ctx.reset ∧
    ctrlSent s t (s.ctx x).coordLocus 0x0B 0 0 0 ∧ (∀ y, y ≠ x → t.ctx y = s.ctx y) ∧ t.mem = s.mem := by
  obtain ⟨m, ea⟩ := s.advanceTo_fields (d + s.cfg.fabMaxAge)
  have e : execDrainEnd x s = .next (((s.advanceTo (d + s.cfg.fabMaxAge)).sendCtrl (s.ctx x).coordLocus 0x0B 0 0 0).emptyCtx x) := by
    unfold execDrainEnd
    dsimp only
    rw [hd]
  have hsent := (s.advanceTo (d + s.cfg.fabMaxAge)).sendCtrl_sent (s.ctx x).coordLocus 0x0B 0 0 0 []
  have hctx : ∀ y, ((s.advanceTo (d + s.cfg.fabMaxAge)).sendCtrl (s.ctx x).coordLocus 0x0B 0 0 0).ctx y = s.ctx y := fun y => by
    rw [State.ctx_of_sendCtrl, ea]
    rfl
  have hrec : ((s.advanceTo (d + s.cfg.fabMaxAge)).sendCtrl (s.ctx x).coordLocus 0x0B 0 0 0).recov = s.recov := by
    rw [State.sendCtrl_recov, ea]
  have hmem : ((s.advanceTo (d + s.cfg.fabMaxAge)).sendCtrl (s.ctx x).coordLocus 0x0B 0 0 0).mem = s.mem := by
    rw [State.sendCtrl_mem, ea]
  have hout : s.out <:+ (s.advanceTo (d + s.cfg.fabMaxAge)).out := ⟨[], (congrArg State.out ea).symm⟩
  have hsent := hsent.before hout
  generalize (s.advanceTo (d + s.cfg.fabMaxAge)).sendCtrl (s.ctx x).coordLocus 0x0B 0 0 0 = v at e hsent hctx hrec hmem
  have hst' : (v.ctx x).st ≠ .empty := by rw [hctx]; exact hst
  obtain ⟨hothers, hm, -, -⟩ := State.emptyCtx_quiet (s := v) hst' (by rw [hrec]; exact hrep)
  exact ⟨_, e, v.emptyCtx_ctx x hst', hsent.mono (v.emptyCtx_keeps (pw := false) x (Keeps.refl false v)).sent,
    fun y hy => (hothers y hy).trans (hctx y), hm.trans hmem⟩

/-- A host loss is noted of every job of the sender that this module coordinates and that may note it (R133, R134). -/
theorem hostLoss_notes {s : State} {h : Hdr} (tick : Nat) (htakes : s.takes h = true) : ∃ t, execHostLoss h tick s = .next t ∧ t.mem = s.mem ∧
    (∀ x ∈ s.liveCtxs, (s.ctx x).coord.active = true → h.src ∈ (s.ctx x).pmap → (s.ctx x).coord.held = false → (s.ctx x).coord.hostLoss = none →
      (t.ctx x).coord.hostLoss = some h.stamp) ∧
    (∀ x, (s.ctx x).coord.active = false ∨ (s.ctx x).coord.held = true ∨ (s.ctx x).coord.hostLoss ≠ none → (t.ctx x).coord = (s.ctx x).coord) := by
  have hmem : (effHostLoss h (s.atEffect h)).mem = s.mem := by
    unfold effHostLoss
    exact (forEach_keeps_reading (fun v => v.mem) (fun v a => v.updCoord_mem a _) _ _).trans (s.atEffect_mem h)
  have e : execHostLoss h tick s = .next (effHostLoss h (s.atEffect h)) := by
    unfold execHostLoss
    rw [State.ctrlIn_takes _ _ htakes]
  have hnoted : ∀ y, ((effHostLoss h (s.atEffect h)).ctx y).coord = if y ∈ s.liveCtxs.filter (fun x => (s.ctx x).coord.active &&
      ((s.ctx x).pmap.contains h.src || h.src == s.locus || (KMap.find (s.ctx x).coord.armed h.src).isSome)) then
        (s.ctx y).coord.noteHostLoss h.stamp else (s.ctx y).coord := fun y => by
    have := forEach_updCoord_idem (Coord.noteHostLoss_idem h.stamp) ((s.atEffect h).liveCtxs.filter (fun x =>
      ((s.atEffect h).ctx x).coord.active && (((s.atEffect h).ctx x).pmap.contains h.src || h.src == (s.atEffect h).locus ||
        (KMap.find ((s.atEffect h).ctx x).coord.armed h.src).isSome))) (s.atEffect h) y
    simp only [State.atEffect_liveCtxs, State.atEffect_ctx_coord, State.atEffect_ctx_pmap, State.atEffect_locus] at this
    rw [← this]
    unfold effHostLoss
    simp only [State.atEffect_liveCtxs, State.atEffect_ctx_coord, State.atEffect_ctx_pmap, State.atEffect_locus]
    rfl
  refine ⟨_, e, hmem, fun x hx hactive hpart hheld hnone => ?_, fun x hx => ?_⟩
  · rw [hnoted, if_pos (List.mem_filter.2 ⟨hx, by simp [hactive, hpart]⟩), Coord.noteHostLoss, hheld, hnone]
    rfl
  · rw [hnoted]
    split
    · next hmemb =>
      have hact : (s.ctx x).coord.active = true := by
        have := (List.mem_filter.1 hmemb).2
        rw [Bool.and_eq_true] at this
        exact this.1
      refine if_pos ?_
      rcases hx with hx | hx | hx
      · rw [hact] at hx
        cases hx
      · rw [hx, Bool.true_or]
      · rw [Option.isSome_iff_ne_none.2 hx, Bool.or_true]
    · rfl

/-- Settles O26, event by event. -/
theorem jobsStartDrainAndLoseTheirHost : Obligations.JobsStartDrainAndLoseTheirHost := by
  unfold Obligations.JobsStartDrainAndLoseTheirHost
  refine ⟨?armed, ?starts, ?drainStart, ?drainEnd, ?noDrain, ?drained, ?hostLoss⟩
  case armed =>
    intro s h digest x htakes hone hroom hearly
    obtain ⟨f, o, e, -, -⟩ := armed_notes (digest := digest) htakes hone hroom hearly
    have hstep := (((s.armedOn h).noteArmed x h.src digest).withSent f o).tryStart_step x
    have hco : ((((s.armedOn h).noteArmed x h.src digest).withSent f o).ctx x).coord.armed =
        KMap.put (s.ctx x).coord.armed h.src digest := by
      rw [State.withSent_ctx, State.noteArmed_ctx, s.armedOn_ctx, s.atEffect_ctx_coord]
    have harmed := (lasting_eq Coord.armed (fun _ => rfl) hstep.lasting).trans hco
    refine ⟨_, e, ?_, fun l hl => ?_, fun y hy => ?_, ?_, ?_⟩
    · rw [harmed]
      exact KMap.find_put_self _ _ _
    · rw [harmed]
      exact (KMap.find_put _ _ _ _).trans (if_neg hl)
    · rw [hstep.others y hy, State.withSent_ctx, State.noteArmed_ctx_ne _ _ _ hy, s.armedOn_ctx, s.atEffect_ctx_coord]
    · rw [hstep.st, State.withSent_ctx, State.noteArmed_ctx, s.armedOn_ctx]
      exact (s.atEffect_ctx_st h x).trans (State.notStarted_st hone).1
    · rw [hstep.mem, State.withSent_mem, ((s.armedOn h).noteArmed_kept x h.src digest).1, s.armedOn_mem]
  case starts =>
    intro s h digest x l htakes hone hroom hearly hrestore hheld hm hcount hdigest hl
    rw [hl]
    exact armed_starts htakes hone hroom hearly hrestore hheld hm hcount hdigest
  case drainStart =>
    intro s x d hd
    exact drainStart_drops hd
  case drainEnd =>
    intro s x d hd hst hrep
    exact drainEnd_empties hd hst hrep
  case noDrain =>
    intro s x hd
    have e1 : execDrainStart x s = .next s := by
      unfold execDrainStart
      dsimp only
      rw [hd]
    have e2 : execDrainEnd x s = .next s := by
      unfold execDrainEnd
      dsimp only
      rw [hd]
    exact ⟨e1, e2⟩
  case drained =>
    intro s h x htakes hx
    have e : execDrained h s = .next ((s.atEffect h).updCoord x (fun o => { o with drained := insertAsc h.src o.drained })) := by
      unfold execDrained
      rw [State.ctrlIn_takes _ _ htakes]
      unfold effDrained
      rw [s.atEffect_coordCtx, hx]
    refine ⟨_, e, ?_, fun y hy => ?_, s.atEffect_mem h⟩
    · rw [State.ctx_updCoord_self]
      exact mem_insertAsc.2 (.inl rfl)
    · rw [State.ctx_updCoord_ne _ _ hy, s.atEffect_ctx_coord]
  case hostLoss =>
    intro s h tick htakes
    exact hostLoss_notes tick htakes

end Sys2Proof.Machine
end

section
/-!
Holding, resuming and tearing down a context (05 R112, R133, 06 R158).
-/
namespace Sys2Proof.Machine

-- Proofs elaborated one after another keep the whole text within the memory its compile is given.
set_option Elab.async false

/-! ### What waits for a boundary -/

/-- CTX_HOLD of a RUNNING job waits for the boundary at its coordinator. -/
theorem ctxHold_waits {s : State} {n : Nat} {a : Staged} (hx : s.executes n 0x12 a) (hc : a.e.ctx < 16)
    (hst : (s.ctx a.e.ctx).st = .running) (hact : (s.ctx a.e.ctx).coord.active = true) :
    exec (.ctxHold n) s = .next (s.updCtx a.e.ctx (fun c =>
      { c with holdRings := c.holdRings ++ [n], coord := { c.coord with holdReq := true } })) := by
  refine exec_waits hx ?_
  simp only [if_neg (Nat.not_le.2 hc), hst, hact, ne_eq, not_true_eq_false, if_false, Bool.not_true, Bool.false_eq_true]

/-- CTX_TEARDOWN of a RUNNING job waits for the boundary at its coordinator. -/
theorem ctxTeardown_waits {s : State} {n : Nat} {a : Staged} (hx : s.executes n 0x14 a) (hc : a.e.ctx < 16)
    (hst : (s.ctx a.e.ctx).st = .running) (hact : (s.ctx a.e.ctx).coord.active = true) :
    exec (.ctxTeardown n) s = .next (s.updCtx a.e.ctx (fun c =>
      { c with tearRings := c.tearRings ++ [n], coord := { c.coord with tearReq := true } })) := by
  refine exec_waits hx ?_
  simp only [if_neg (Nat.not_le.2 hc), hst, hact, Bool.not_true, Bool.false_eq_true, if_false]

/-! ### What completes at once -/

/-- CTX_RESUME of a HELD job completes with the launch count that RESUME carries. -/
theorem ctxResume_completes {s : State} {n : Nat} {a : Staged} (hx : s.executes n 0x13 a) (hc : a.e.ctx < 16)
    (hst : (s.ctx a.e.ctx).st = .held) (hact : (s.ctx a.e.ctx).coord.active = true) :
    exec (.ctxResume n) s = .next ((s.resumeJob a.e.ctx).2.complete n a 0 (s.launchCount (s.holdFloor a.e.ctx))) := by
  refine exec_completes hx ?_
  simp only [if_neg (Nat.not_le.2 hc), hst, hact, ne_eq, not_true_eq_false, if_false, Bool.not_true, Bool.false_eq_true]
  rfl

/-- CTX_TEARDOWN of a context that has not started empties it. -/
theorem ctxTeardown_empties {s : State} {n : Nat} {a : Staged} (hx : s.executes n 0x14 a) (hc : a.e.ctx < 16)
    (hst : (s.ctx a.e.ctx).st = .loading ∨ (s.ctx a.e.ctx).st = .loaded ∨ (s.ctx a.e.ctx).st = .armed) :
    exec (.ctxTeardown n) s = .next ((s.emptyCtx a.e.ctx).complete n a 0 0) := by
  refine exec_completes hx ?_
  rcases hst with hst | hst | hst <;> simp only [if_neg (Nat.not_le.2 hc), hst, stOk]

/-- CTX_TEARDOWN of a HELD job drains it. -/
theorem ctxTeardown_drains {s : State} {n : Nat} {a : Staged} (hx : s.executes n 0x14 a) (hc : a.e.ctx < 16)
    (hst : (s.ctx a.e.ctx).st = .held) (hact : (s.ctx a.e.ctx).coord.active = true) :
    exec (.ctxTeardown n) s = .next ((s.drainJob a.e.ctx).complete n a 0 0) := by
  refine exec_completes hx ?_
  simp only [if_neg (Nat.not_le.2 hc), hst, hact, Bool.not_true, Bool.false_eq_true, if_false, stOk]

/-! ### Their effects -/

/-- RESUME goes to every participant for the step after the last committed, at the next attempt where a step was held. -/
theorem State.resumeJob_sends (s : State) (x : Nat) {l : Nat} (hl : l ∈ (s.ctx x).pmap) :
    ctrlSent s (s.resumeJob x).2 l 0x08 ((s.ctx x).committed.elim (s.ctx x).firstStep nextStep)
      (if (s.ctx x).coord.stepHeld.isSome then ((s.ctx x).attempt + 1) % 16 else 0)
      (s.launchCount (s.holdFloor x) + field (s.ctx x).coord.epoch 32 160) := by
  unfold State.resumeJob
  dsimp only
  have h := fun n k p => s.toAll_sent x 0x08 n k p [] hl
  cases hcom : (s.ctx x).committed <;> exact (h _ _ _).mono List.suffix_rfl

/-- A job resumed: its coordinator alone takes notice. -/
theorem State.resumeJob_fields (s : State) (x : Nat) : (s.resumeJob x).2.mbx = s.mbx ∧ (s.resumeJob x).2.mem = s.mem ∧
    (s.resumeJob x).1 = s.launchCount (s.holdFloor x) ∧ ∀ y, y ≠ x → (s.resumeJob x).2.ctx y = s.ctx y := by
  unfold State.resumeJob
  extract_lets c l n k v
  obtain ⟨f, o, e⟩ := s.toAll_fields x 0x08 n k l []
  have hv : v = { s with fab := f, out := o } := e
  clear_value v
  subst hv
  exact ⟨rfl, rfl, rfl, fun y hy => State.ctx_updCoord_ne _ _ hy⟩

/-- DRAIN goes to every participant with T_d, and the context stays as it was. -/
theorem State.drainJob_drains (s : State) (x : Nat) : (s.drainJob x).mbx = s.mbx ∧ s.out <:+ (s.drainJob x).out ∧
    ((s.drainJob x).ctx x).st = (s.ctx x).st ∧
    ∀ l ∈ (s.ctx x).pmap, ctrlSent s (s.drainJob x) l 0x0A 0 0 (s.launchCount 0 + field (s.ctx x).coord.epoch 32 160) := by
  have hsent := fun l hl => s.toAll_sent x 0x0A 0 0 (s.launchCount 0) [] (l := l) hl
  have hout := s.toAll_suffix x 0x0A 0 0 (s.launchCount 0) []
  obtain ⟨f, o, e⟩ := s.toAll_fields x 0x0A 0 0 (s.launchCount 0) []
  have hst : ((s.toAll x 0x0A 0 0 (s.launchCount 0)).ctx x).st = (s.ctx x).st := by rw [e]; rfl
  have hm : (s.toAll x 0x0A 0 0 (s.launchCount 0)).mbx = s.mbx := by rw [e]
  unfold State.drainJob
  dsimp only
  generalize s.toAll x 0x0A 0 0 (s.launchCount 0) = v at hsent hout hst hm ⊢
  refine ⟨hm, hout, ?_, fun l hl => (hsent l hl).mono List.suffix_rfl⟩
  rw [State.ctx_updCoord_self]
  exact hst

/-- A context with nothing that waits is emptied, and the command completes on its own pair. -/
theorem State.emptyCtx_completes {s : State} {n x : Nat} (a : Staged) (hst : (s.ctx x).st ≠ .empty) (hw : s.nothingWaits x) :
    completed s ((s.emptyCtx x).complete n a 0 0) n a 0 0 ∧ ((s.emptyCtx x).complete n a 0 0).ctx x = Ctx.reset ∧
      (∀ p ∈ maskParts (s.ctx x).mask, ((s.emptyCtx x).complete n a 0 0).dom p = .off) ∧
      (∀ y, y ≠ x → ((s.emptyCtx x).complete n a 0 0).ctx y = s.ctx y) ∧ ((s.emptyCtx x).complete n a 0 0).mem = s.mem := by
  obtain ⟨hrep, hhold, htear, hacks⟩ := hw
  obtain ⟨hothers, hmem, hflash, hdom⟩ := State.emptyCtx_quiet hst hrep
  have hnot : n ∉ (s.ctx x).waiting := by
    unfold Ctx.waiting
    rw [hhold, htear, hacks]
    exact List.not_mem_nil
  have hpair := State.emptyCtx_pair s x hnot (by rw [hflash])
  refine ⟨completed_of_pair hpair (s.emptyCtx_keeps (pw := false) x (Keeps.refl false s)).sent a 0 0, ?_, fun p hp => ?_,
    fun y hy => ?_, ?_⟩
  · rw [State.complete_ctx]
    exact s.emptyCtx_ctx x hst
  · rw [State.dom, State.complete_pwr]
    exact hdom p hp
  · rw [State.complete_ctx]
    exact hothers y hy
  · rw [State.complete_mem]
    exact hmem

/-- Settles O13, command by command. -/
theorem ctxControlCompletes : Obligations.CtxControlCompletes := by
  unfold Obligations.CtxControlCompletes
  refine ⟨?hold, ?resume, ?empties, ?waits, ?drains⟩
  case hold =>
    intro s n a hx hc hst hact
    refine ⟨_, ctxHold_waits hx hc hst hact, ?_, ?_, hx.2.1, rfl, fun y hy => State.ctx_updCtx_ne _ _ hy, rfl⟩
    · rw [State.ctx_updCtx_self]
    · rw [State.ctx_updCtx_self]
  case resume =>
    intro s n a hx hc hst hact
    obtain ⟨hm, hmem, hl, hothers⟩ := s.resumeJob_fields a.e.ctx
    obtain ⟨hheld, hlaunch, hout, -⟩ := s.resumeJob_resumes a.e.ctx
    refine ⟨_, ctxResume_completes hx hc hst hact, completed_of hm hout n a 0 _, ?_, ?_,
      fun l hl => (s.resumeJob_sends a.e.ctx hl).mono (State.complete_suffix _ n a 0 _), fun y hy => ?_, ?_⟩
    · rw [State.complete_ctx]
      exact hheld
    · rw [State.complete_ctx, hlaunch, hl]
    · rw [State.complete_ctx]
      exact hothers y hy
    · rw [State.complete_mem]
      exact hmem
  case empties =>
    intro s n a hx hc hst hw
    have hne : (s.ctx a.e.ctx).st ≠ .empty := by rcases hst with h | h | h <;> simp [h]
    exact ⟨_, ctxTeardown_empties hx hc hst, State.emptyCtx_completes a hne hw⟩
  case waits =>
    intro s n a hx hc hst hact
    refine ⟨_, ctxTeardown_waits hx hc hst hact, ?_, ?_, hx.2.1, rfl⟩
    · rw [State.ctx_updCtx_self]
    · rw [State.ctx_updCtx_self]
  case drains =>
    intro s n a hx hc hst hact
    obtain ⟨hm, hout, hkept, hsent⟩ := s.drainJob_drains a.e.ctx
    refine ⟨_, ctxTeardown_drains hx hc hst hact, completed_of hm hout n a 0 0,
      fun l hl => (hsent l hl).mono (State.complete_suffix _ n a 0 0), ?_⟩
    rw [State.complete_ctx]
    exact hkept.trans hst

end Sys2Proof.Machine
end

section
/-!
What the shared operations of a step's life come to when no action waits for the boundary: the boundary itself, the discard, the
launch count, and the state a served message acts on (11 R275, 12 R307, 01 R21).
-/
namespace Sys2Proof.Machine

-- Proofs elaborated one after another keep the whole text within the memory its compile is given.
set_option Elab.async false

/-! ### A boundary with nothing due -/

/-- No action waits for the step boundary, and no live configuration does. -/
def State.calm (s : State) : Prop := s.recov.pending = [] ∧ (∀ e ∈ s.clus, e.2.toFence = []) ∧ s.id.liveWaiting = none

theorem State.calm_of {s t : State} (h : s.calm) (hr : t.recov.pending = s.recov.pending) (hc : t.clus = s.clus) (hi : t.id = s.id) : t.calm := by
  obtain ⟨hp, hf, hl⟩ := h
  exact ⟨hr.trans hp, by rw [hc]; exact hf, by rw [hi]; exact hl⟩

theorem State.updRecov_same {s : State} {f : Recov → Recov} (h : f s.recov = s.recov) : s.updRecov f = s := by
  unfold State.updRecov
  rw [h]

/-- A boundary at which nothing is due only settles the break of the die ring. -/
theorem State.boundary_calm {s : State} (x : Nat) (h : s.calm) :
    s.boundary x = s.updFab (fun f => { f with dieBreak := f.dieBreakPending.orElse (fun _ => f.dieBreak), dieBreakPending := none }) := by
  obtain ⟨hp, hf, hl⟩ := h
  have hclus : s.clus.filter (fun e => inMask (s.ctx x).mask (clusterPart e.1) && !e.2.toFence.isEmpty) = [] :=
    List.filter_eq_nil_iff.2 fun e he => by simp [hf e he]
  have hdrop : ∀ (r : Nat) (us : List Nat), s.updRecov (fun q => { q with pending := q.pending.filter (fun a => !(a.rank == r && us.contains a.unit)) }) = s :=
    fun r us => State.updRecov_same (by rw [hp]; cases e : s.recov with | mk => rw [e] at hp; subst hp; rfl)
  unfold State.boundary
  dsimp only
  rw [hclus]
  simp only [forEach, List.foldl_nil, hp, List.filter_nil, List.map_nil, hdrop]
  unfold State.applyLive
  rw [State.updFab_id, hl]

/-- With no repeat outstanding there is none to settle. -/
theorem State.settleRepeats_none {s : State} (x : Nat) (ran : Bool) (h : s.recov.repeats = []) : s.settleRepeats x ran = s := by
  unfold State.settleRepeats
  dsimp only
  rw [h, List.filter_nil, State.updRecov_same (by rw [h]; cases e : s.recov with | mk => rw [e] at h; subst h; rfl)]
  rfl

/-! ### The discard of a step -/

/-- What the discard leaves of a context. -/
def Ctx.discarded (c : Ctx) : Ctx :=
  { c with
    pend := [], exec := Exec.reset, confirmed := false, faulted := false,
    gey := { c.gey with imgPending := [], streamAcks := [], partner := c.gey.partner.map (fun p => { p with pending := [] }) },
    dumps := c.dumps.map (fun d => { d with captured := false, bytesWritten := 0, overflow := false }) }

theorem State.discard_ctxs (s : State) (x : Nat) : (s.discard x).ctxs = (s.updCtx x Ctx.discarded).ctxs := by
  unfold State.discard
  extract_lets u v
  have only : ∀ ps, Foot (131072 ||| 256 ||| 512) ps → Only ps v ((((v.idleClusters (v.ctx x).mask).reloadImages x).closeStepRecords x)) :=
    fun ps hps => State.closeStepRecords_only x (Foot.sub (by decide) hps) (State.reloadImages_only x (Foot.sub (by decide) hps)
      (State.idleClusters_only _ (Foot.sub (by decide) hps) (Only.refl ps v)))
  exact (only _ (Foot.sub (by decide) (Foot.refl _))).ctxs_eq

theorem State.discard_ctx_self (s : State) (x : Nat) : (s.discard x).ctx x = (s.ctx x).discarded := by
  rw [State.ctx, State.discard_ctxs, ← State.ctx, State.ctx_updCtx_self]

theorem State.discard_ctx_ne (s : State) {x y : Nat} (h : y ≠ x) : (s.discard x).ctx y = s.ctx y := by
  rw [State.ctx, State.discard_ctxs, ← State.ctx, State.ctx_updCtx_ne _ _ h]

theorem State.idleClusters_calm {s : State} (m : Nat) (h : s.calm) : (s.idleClusters m).calm := by
  obtain ⟨hp, hf, hl⟩ := h
  refine ⟨hp, fun e he => ?_, hl⟩
  obtain ⟨d, hd, rfl⟩ := List.mem_map.1 he
  split
  · exact hf d hd
  · exact hf d hd

theorem State.discard_calm {s : State} (x : Nat) (h : s.calm) : (s.discard x).calm := by
  unfold State.discard
  extract_lets u v
  have only : ∀ ps, Foot (131072 ||| 256) ps → Only ps (v.idleClusters (v.ctx x).mask)
      ((((v.idleClusters (v.ctx x).mask).reloadImages x).closeStepRecords x)) :=
    fun ps hps => State.closeStepRecords_only x (Foot.sub (by decide) hps) (State.reloadImages_only x (Foot.sub (by decide) hps)
      (Only.refl ps _))
  have hv : v.calm := h
  exact State.calm_of (State.idleClusters_calm (v.ctx x).mask hv) (congrArg Recov.pending (only _ (Foot.sub (by decide) (Foot.refl _))).recov_eq)
    (only _ (Foot.sub (by decide) (Foot.refl _))).clus_eq (only _ (Foot.sub (by decide) (Foot.refl _))).id_eq

/-! ### A launch count set -/

/-- The launch count set stands, and nothing is confirmed that was not. -/
theorem State.setLaunch_sets (s : State) (x l : Nat) : ((s.setLaunch x l).ctx x).launch = some l ∧
    ((s.ctx x).confirmed = false → ((s.setLaunch x l).ctx x).confirmed = false) := by
  unfold State.setLaunch
  extract_lets u
  have hu : u.ctx x = { s.ctx x with launch := some l, launched := false } := State.ctx_updCtx_self _ _ _
  have hl : ((u.launchStep x).ctx x).launch = (u.ctx x).launch :=
    (State.launchStep_only x (Foot.sub (by decide) (Foot.refl _)) (Only.refl _ u)).ctx_launch_eq x
  have hc : (u.ctx x).confirmed = false → ((u.launchStep x).ctx x).confirmed = false := fun hf => by
    unfold State.launchStep
    extract_lets c
    split
    · exact hf
    · extract_lets late off w z
      have hw : (w.ctx x).confirmed = false := by
        unfold w
        rw [State.ctx_updCtx_self]
      have hz : (z.ctx x).confirmed = false := by
        unfold z
        split
        · rw [record_ctx]
          exact hw
        · exact hw
      split
      · rw [record_ctx]
        exact hz
      · exact hz
  split
  · exact ⟨by rw [hl, hu], fun hf => hc (by rw [hu]; exact hf)⟩
  · exact ⟨by rw [hu], fun hf => by rw [hu]; exact hf⟩

/-! ### The gate -/

theorem State.forEach_setDom_dom (s : State) (l : List Nat) (d : DomSt) {p : Nat} (hp : p ∈ l ∨ s.dom p = d) :
    (forEach l s (fun s p => s.setDom p d)).dom p = d := by
  unfold forEach
  induction l generalizing s with
  | nil => exact hp.resolve_left List.not_mem_nil
  | cons a l ih =>
    refine ih _ ?_
    by_cases e : p = a
    · exact .inr (by rw [e, State.dom_setDom_self])
    · exact hp.imp (fun h => (List.mem_cons.1 h).resolve_left e) (fun h => by rw [State.dom_setDom_ne _ _ e, h])

/-- The domains of a context's partitions are gated. -/
theorem State.gate_dom (s : State) (x : Nat) {p : Nat} (hp : p ∈ maskParts (s.ctx x).mask) : (s.gate x).dom p = .gated :=
  s.forEach_setDom_dom _ _ (.inl hp)

/-! ### What a served message finds -/

/-- A reading of contexts that takes no notice of the reasons, the coordinator or the epoch is as before a served message. -/
theorem State.adopting_reads {α : Type} (s : State) (h : Hdr) (e x y : Nat) (π : Ctx → α) (hr : ∀ c : Ctx, π c.sansReasons = π c)
    (hπ : ∀ (c : Ctx) o a l, π { c with coord := o, adopted := a, coordLocus := l } = π c) : π ((s.adopting h e x).ctx y) = π (s.ctx y) := by
  have hat : π ((s.atEffect h).ctx y) = π (s.ctx y) := sans_eq π hr (s.atEffect_ctx h y)
  by_cases hy : y = x
  · subst hy
    obtain ⟨o, hc⟩ := s.adopting_ctx_self h e y
    rw [hc, hπ, hat]
  · rw [s.adopting_ctx_ne h e hy, hat]

theorem State.adopting_parts (s : State) (h : Hdr) (e x : Nat) : (s.adopting h e x).recov = s.recov ∧ (s.adopting h e x).clus = s.clus ∧
    (s.adopting h e x).id = s.id ∧ (s.adopting h e x).cfg = s.cfg ∧ (s.adopting h e x).locus = s.locus := by
  obtain ⟨c, p, eq⟩ := s.adopting_fields h e x
  rw [eq]
  exact ⟨s.atEffect_recov h, s.atEffect_clus h, s.atEffect_id h, s.atEffect_cfg h, s.atEffect_locus h⟩

theorem State.quiet.calm {s : State} (h : s.quiet) : s.calm := ⟨h.1, h.2.2.1, h.2.2.2⟩

theorem State.quiet.adopting {s : State} (hq : s.quiet) (h : Hdr) (e x : Nat) :
    (s.adopting h e x).calm ∧ (s.adopting h e x).recov.repeats = [] := by
  obtain ⟨hr, hc, hi, -, -⟩ := s.adopting_parts h e x
  exact ⟨State.calm_of hq.calm (congrArg Recov.pending hr) hc hi, by rw [hr]; exact hq.2.1⟩

end Sys2Proof.Machine
end

section
/-!
What a participant does with START, PMAP, RESUME, STEP_HOLD and DRAIN (05 R113 to R115, 06 R150, R158, 11 R281).
-/
namespace Sys2Proof.Machine

-- Proofs elaborated one after another keep the whole text within the memory its compile is given.
set_option Elab.async false

/-! ### START -/

/-- A context started: RUNNING at its step, with the step before it committed. -/
def Ctx.begun (c : Ctx) (policy step : Nat) : Ctx :=
  { c with st := .running, policy, step, attempt := 0, launched := false, reasons := 0, committed := some (prevStep step) }

/-- What the life of a step changes between a context begun and its launch. -/
theorem State.begun_only {u : State} {x n l0 t0 launch : Nat} (hu : (u.fresh.2.fresh.2.addRecord x n l0 t0).calm) :
    ∀ ps, Foot 81704304439787390032 ps → Only ps u ((((u.fresh.2.fresh.2.addRecord x n l0 t0).boundary x).plan x launch).setLaunch x launch) :=
  fun ps hps => by
    rw [State.boundary_calm x hu]
    exact State.setLaunch_only x _ (Foot.sub (by decide) hps) (State.plan_only x _ (Foot.sub (by decide) hps)
      (State.updFab_only _ (Foot.sub (by decide) hps) (State.addRecord_only x _ _ _ (Foot.sub (by decide) hps)
        (State.fresh_only (Foot.sub (by decide) hps) (State.fresh_only (Foot.sub (by decide) hps) (Only.refl ps u))))))

theorem State.addRecord_calm {u : State} (h : u.calm) (x n l t : Nat) : (u.addRecord x n l t).calm := by
  have only := State.addRecord_only (ps := 7493989779948699712) (s0 := u) x n l t (Foot.refl _) (Only.refl _ u)
  exact State.calm_of h (congrArg Recov.pending (Only.weaken (Foot.sub (by decide) (Foot.refl _)) only).recov_eq)
    (Only.weaken (Foot.sub (by decide) (Foot.refl _)) only).clus_eq (Only.weaken (Foot.sub (by decide) (Foot.refl _)) only).id_eq

/-- START puts an ARMED context to run at its step, waiting for its launch. -/
theorem start_runs {s : State} {h : Hdr} {epoch x : Nat} (launch policy : Nat) (hs : s.serves h epoch x) (hst : (s.ctx x).st = .armed)
    (hq : s.quiet) : ∃ t, execStart h launch policy epoch s = .next t ∧ (t.ctx x).launch = some launch ∧
      ∀ ps, Foot 81704304439787390032 ps → Only ps ((s.adopting h epoch x).updCtx x (fun c => c.begun policy h.step)) t := by
  have hst' : ((s.adopting h epoch x).ctx x).st = .armed := by
    rw [s.adopting_reads h epoch x x Ctx.st (fun _ => rfl) (fun _ _ _ _ => rfl), hst]
  have hcalm : ((s.adopting h epoch x).updCtx x (fun c => c.begun policy h.step)).fresh.2.fresh.2.calm := (hq.adopting h epoch x).1
  have e : execStart h launch policy epoch s = .next (effStart h launch policy epoch (s.atEffect h)) :=
    congrArg Host.Outcome.next (State.ctrlIn_takes _ _ hs.1)
  rw [e, effStart, State.onJob_serves hs]
  dsimp only
  rw [if_neg (Classical.not_not.2 hst')]
  exact ⟨_, rfl, (State.setLaunch_sets _ x launch).1, State.begun_only (State.addRecord_calm hcalm _ _ _ _)⟩

/-! ### PMAP -/

theorem mem_foldl_insertAsc (y : Nat) (l m : List Nat) : y ∈ l.foldl (fun m a => insertAsc a m) m ↔ y ∈ l ∨ y ∈ m := by
  induction l generalizing m with
  | nil => simp
  | cons a l ih =>
    rw [List.foldl_cons, ih, mem_insertAsc, List.mem_cons, or_left_comm, or_assoc]

/-- The loci of one part of the bitmap of participants. -/
theorem mem_pmapPart (l part bitmap : Nat) : l ∈ (bitList bitmap 8192).map (· + 8192 * part) ↔
    l / 8192 = part ∧ bitmap.testBit (l % 8192) = true := by
  unfold bitList
  rw [List.mem_map]
  constructor
  · rintro ⟨i, hi, rfl⟩
    obtain ⟨hlt, hbit⟩ := List.mem_filter.1 hi
    have hlt := List.mem_range.1 hlt
    refine ⟨by omega, ?_⟩
    rwa [show (i + 8192 * part) % 8192 = i by omega]
  · rintro ⟨rfl, hbit⟩
    exact ⟨l % 8192, List.mem_filter.2 ⟨List.mem_range.2 (Nat.mod_lt _ (by decide)), hbit⟩, Nat.mod_add_div l 8192⟩

/-! ### RESUME -/

/-- A context resumed: RUNNING at its step and attempt, with nothing confirmed and no fault. -/
def Ctx.resumed (c : Ctx) (step attempt : Nat) : Ctx :=
  { c with st := .running, step, attempt := attempt % 16, launched := false, confirmed := false, faulted := false,
           reasons := if attempt = 0 then 0 else 2 ^ 5 }

/-- What a launch planned after a calm boundary changes, and the count that stands. -/
theorem State.relaunch_only {u : State} (hu : u.calm) (x launch : Nat) :
    (∀ ps, Foot 74210314659826107472 ps → Only ps u (((u.boundary x).plan x launch).setLaunch x launch)) ∧
      ((((u.boundary x).plan x launch).setLaunch x launch).ctx x).launch = some launch ∧
      ((u.ctx x).confirmed = false → ((((u.boundary x).plan x launch).setLaunch x launch).ctx x).confirmed = false) := by
  rw [State.boundary_calm x hu]
  have only : ∀ ps, Foot 288230376164557888 ps → Only ps u ((u.updFab (fun f =>
      { f with dieBreak := f.dieBreakPending.orElse (fun _ => f.dieBreak), dieBreakPending := none })).plan x launch) :=
    fun ps hps => State.plan_only x _ (Foot.sub (by decide) hps) (State.updFab_only _ (Foot.sub (by decide) hps) (Only.refl ps u))
  obtain ⟨hl, hc⟩ := State.setLaunch_sets ((u.updFab (fun f =>
      { f with dieBreak := f.dieBreakPending.orElse (fun _ => f.dieBreak), dieBreakPending := none })).plan x launch) x launch
  exact ⟨fun ps hps => State.setLaunch_only x _ (Foot.sub (by decide) hps) (only ps (Foot.sub (by decide) hps)), hl,
    fun hf => hc (((only _ (Foot.sub (by decide) (Foot.refl _))).ctx_confirmed_eq x).trans hf)⟩

/-- RESUME puts a HELD context to run at its step, waiting for its launch. -/
theorem resume_runs {s : State} {h : Hdr} {epoch x : Nat} (launch : Nat) (hs : s.serves h epoch x) (hst : (s.ctx x).st = .held)
    (hq : s.quiet) : ∃ t, execResume h launch epoch s = .next t ∧ (t.ctx x).launch = some launch ∧ (t.ctx x).confirmed = false ∧
      ∀ ps, Foot 74210314659826107472 ps → Only ps ((s.adopting h epoch x).updCtx x (fun c => c.resumed h.step h.attempt)) t := by
  have hst' : ((s.adopting h epoch x).ctx x).st = .held := by
    rw [s.adopting_reads h epoch x x Ctx.st (fun _ => rfl) (fun _ _ _ _ => rfl), hst]
  have hcalm : ((s.adopting h epoch x).updCtx x (fun c => c.resumed h.step h.attempt)).calm := (hq.adopting h epoch x).1
  have hgo : ¬ (!(((s.adopting h epoch x).ctx x).st == .held ||
      (((s.adopting h epoch x).ctx x).st == .running && ((s.adopting h epoch x).ctx x).launch.isNone))) = true := by simp [hst']
  obtain ⟨only, hl, hc⟩ := State.relaunch_only hcalm x launch
  have e : execResume h launch epoch s = .next (effResume h launch epoch (s.atEffect h)) :=
    congrArg Host.Outcome.next (State.ctrlIn_takes _ _ hs.1)
  rw [e, effResume, State.onJob_serves hs]
  dsimp only
  rw [if_neg hgo]
  exact ⟨_, rfl, hl, hc (by rw [State.ctx_updCtx_self]; rfl), only⟩

/-! ### STEP_HOLD -/

/-- A context held before a step, its pending copy discarded. -/
def Ctx.heldAt (c : Ctx) (step attempt : Nat) : Ctx :=
  { c with st := .held, step, attempt := attempt % 16, launch := none, launched := false }

/-- The state of a module whose context is held before a step. -/
def State.holding (s : State) (x : Nat) (h : Hdr) (reason : Nat) : State :=
  ((((s.discard x).bump .recHold 0).record { code := 0x0400 + reason, sev := 2, ctx := x, step := h.step, attempt := h.attempt, data := [h.src, 0] }).gate x).updCtx x
    (fun c => c.heldAt h.step h.attempt)

theorem State.holding_only (s : State) (x : Nat) (h : Hdr) (reason : Nat) : ∀ ps, Foot 6684688 ps → Only ps (s.discard x)
    ((((s.discard x).bump .recHold 0).record { code := 0x0400 + reason, sev := 2, ctx := x, step := h.step, attempt := h.attempt, data := [h.src, 0] }).gate x) :=
  fun ps hps => State.gate_only x (Foot.sub (by decide) hps) (State.record_only _ (Foot.sub (by decide) hps)
    (State.bump_only _ _ _ (Foot.sub (by decide) hps) (Only.refl ps _)))

theorem State.holding_ctx_self (s : State) (x : Nat) (h : Hdr) (reason : Nat) :
    (s.holding x h reason).ctx x = (s.ctx x).discarded.heldAt h.step h.attempt := by
  unfold State.holding
  rw [State.ctx_updCtx_self, (s.holding_only x h reason _ (Foot.sub (by decide) (Foot.refl _))).ctx_eq, State.discard_ctx_self]

theorem State.holding_ctx_ne (s : State) {x y : Nat} (h : Hdr) (reason : Nat) (hy : y ≠ x) : (s.holding x h reason).ctx y = s.ctx y := by
  unfold State.holding
  rw [State.ctx_updCtx_ne _ _ hy, (s.holding_only x h reason _ (Foot.sub (by decide) (Foot.refl _))).ctx_eq, State.discard_ctx_ne _ hy]

theorem State.holding_calm {s : State} (hs : s.calm) (x : Nat) (h : Hdr) (reason : Nat) : (s.holding x h reason).calm := by
  have only := s.holding_only x h reason
  exact State.calm_of (State.discard_calm x hs) (congrArg Recov.pending (only _ (Foot.sub (by decide) (Foot.refl _))).recov_eq)
    (only _ (Foot.sub (by decide) (Foot.refl _))).clus_eq (only _ (Foot.sub (by decide) (Foot.refl _))).id_eq

theorem State.holding_dom {s : State} {x p : Nat} (h : Hdr) (reason : Nat) (hp : p ∈ maskParts (s.ctx x).mask) :
    (s.holding x h reason).dom p = .gated := by
  unfold State.holding
  rw [State.dom_of_updCtx]
  refine State.gate_dom _ x ?_
  rw [State.ctx_of_record, State.ctx_of_bump, State.discard_ctx_self]
  exact hp

/-- STEP_HOLD discards the pending copy of a RUNNING context, gates its domains and holds it before the step. -/
theorem stepHold_holds {s : State} {h : Hdr} {epoch x : Nat} (reason : Nat) (hs : s.serves h epoch x) (hst : (s.ctx x).st = .running)
    (hq : s.quiet) : ∃ t, execStepHold h reason epoch s = .next t ∧
      ∀ ps, Foot 1235931852938548348000 ps → Only ps ((s.adopting h epoch x).holding x h reason) t := by
  have hst' : ((s.adopting h epoch x).ctx x).st = .running := by
    rw [s.adopting_reads h epoch x x Ctx.st (fun _ => rfl) (fun _ _ _ _ => rfl), hst]
  obtain ⟨hcalm, hrep⟩ := hq.adopting h epoch x
  have e : execStepHold h reason epoch s = .next (effStepHold h reason epoch (s.atEffect h)) :=
    congrArg Host.Outcome.next (State.ctrlIn_takes _ _ hs.1)
  rw [e, effStepHold, State.onJob_serves hs]
  dsimp only
  rw [if_neg (Classical.not_not.2 hst'), State.settleRepeats_none x _ hrep]
  refine ⟨_, rfl, fun ps hps => ?_⟩
  change Only ps _ ((((s.adopting h epoch x).holding x h reason).boundary x).boundaryRings x (prevStep h.step))
  rw [State.boundary_calm x (State.holding_calm hcalm x h reason)]
  exact State.boundaryRings_only x _ (Foot.sub (by decide) hps) (State.updFab_only _ (Foot.sub (by decide) hps) (Only.refl ps _))

/-! ### DRAIN -/

/-- The earliest of the drain counts given. -/
def earliestDrain (td : Nat) (d : Option Nat) : Option Nat := some (match d with | some t => min t td | none => td)

/-- A context that drains from the earliest count given. -/
def Ctx.draining (c : Ctx) (td : Nat) : Ctx := { c with st := .draining, drainAt := earliestDrain td c.drainAt }

/-- A context with one part of its bitmap of participants taken; the first whole map fixes the index table. -/
def Ctx.withPart (c : Ctx) (part bitmap : Nat) : Ctx :=
  let fresh := (bitList bitmap 8192).map (· + 8192 * part)
  let others := c.pmap.filter (fun l => l / 8192 != part)
  let m := fresh.foldl (fun m l => insertAsc l m) others
  let parts := insertAsc part c.pmapParts
  { c with pmap := m, pmapParts := parts, index := if 16 ≤ parts.length && c.index.isEmpty then m else c.index }

theorem Ctx.mem_withPart (c : Ctx) (part bitmap l : Nat) : l ∈ (c.withPart part bitmap).pmap ↔
    (l / 8192 = part ∧ bitmap.testBit (l % 8192) = true) ∨ (l ∈ c.pmap ∧ l / 8192 ≠ part) := by
  unfold Ctx.withPart
  dsimp only
  rw [mem_foldl_insertAsc, mem_pmapPart, List.mem_filter, bne_iff_ne]

/-- Settles O27, message by message. -/
theorem participantFollowsTheCoordinator : Obligations.ParticipantFollowsTheCoordinator := by
  unfold Obligations.ParticipantFollowsTheCoordinator
  refine ⟨?start, ?pmap, ?resume, ?hold, ?drain⟩
  case start =>
    intro s h launch policy epoch x hs hst hq
    obtain ⟨t, e, hlaunch, only⟩ := start_runs launch policy hs hst hq
    have hself : ((s.adopting h epoch x).updCtx x (fun c => c.begun policy h.step)).ctx x = ((s.adopting h epoch x).ctx x).begun policy h.step :=
      State.ctx_updCtx_self _ _ _
    have hne : ∀ y, y ≠ x → ((s.adopting h epoch x).updCtx x (fun c => c.begun policy h.step)).ctx y = (s.adopting h epoch x).ctx y :=
      fun y hy => State.ctx_updCtx_ne _ _ hy
    have hst' := fun y => (only _ (Foot.sub (by decide) (Foot.refl _))).ctx_st_eq y
    have hstep := fun y => (only _ (Foot.sub (by decide) (Foot.refl _))).ctx_step_eq y
    refine ⟨t, e, (hst' x).trans (by rw [hself]; rfl), ((only _ (Foot.sub (by decide) (Foot.refl _))).ctx_policy_eq x).trans (by rw [hself]; rfl),
      (hstep x).trans (by rw [hself]; rfl), ((only _ (Foot.sub (by decide) (Foot.refl _))).ctx_attempt_eq x).trans (by rw [hself]; rfl),
      ((only _ (Foot.sub (by decide) (Foot.refl _))).ctx_committed_eq x).trans (by rw [hself]; rfl), hlaunch, fun y hy => ⟨?_, ?_⟩,
      (only _ (Foot.sub (by decide) (Foot.refl _))).mem_eq.trans (s.adopting_mem h epoch x)⟩
    · rw [hst', hne y hy]
      exact s.adopting_reads h epoch x y Ctx.st (fun _ => rfl) (fun _ _ _ _ => rfl)
    · rw [hstep, hne y hy]
      exact s.adopting_reads h epoch x y Ctx.step (fun _ => rfl) (fun _ _ _ _ => rfl)
  case pmap =>
    intro s h part bitmap epoch x hs
    have e : execPmap h part bitmap epoch s = .next (effPmap h part bitmap epoch (s.atEffect h)) :=
      congrArg Host.Outcome.next (State.ctrlIn_takes _ _ hs.1)
    have hpmap := fun y => s.adopting_reads h epoch x y Ctx.pmap (fun _ => rfl) (fun _ _ _ _ => rfl)
    refine ⟨(s.adopting h epoch x).updCtx x (fun c => c.withPart part bitmap), e.trans ?_, fun l => ?_, fun y hy => ?_, s.adopting_mem h epoch x⟩
    · rw [effPmap, State.onJob_serves hs]
      rfl
    · rw [State.ctx_updCtx_self, Ctx.mem_withPart, hpmap]
    · rw [State.ctx_updCtx_ne _ _ hy, hpmap]
  case resume =>
    intro s h launch epoch x hs hst hq
    obtain ⟨t, e, hlaunch, hconf, only⟩ := resume_runs launch hs hst hq
    have hself : ((s.adopting h epoch x).updCtx x (fun c => c.resumed h.step h.attempt)).ctx x = ((s.adopting h epoch x).ctx x).resumed h.step h.attempt :=
      State.ctx_updCtx_self _ _ _
    refine ⟨t, e, ((only _ (Foot.sub (by decide) (Foot.refl _))).ctx_st_eq x).trans (by rw [hself]; rfl),
      ((only _ (Foot.sub (by decide) (Foot.refl _))).ctx_step_eq x).trans (by rw [hself]; rfl),
      ((only _ (Foot.sub (by decide) (Foot.refl _))).ctx_attempt_eq x).trans (by rw [hself]; rfl), hlaunch, hconf,
      ((only _ (Foot.sub (by decide) (Foot.refl _))).ctx_faulted_eq x).trans (by rw [hself]; rfl),
      ((only _ (Foot.sub (by decide) (Foot.refl _))).ctx_pend_eq x).trans ?_,
      (only _ (Foot.sub (by decide) (Foot.refl _))).mem_eq.trans (s.adopting_mem h epoch x)⟩
    rw [hself]
    exact s.adopting_reads h epoch x x Ctx.pend (fun _ => rfl) (fun _ _ _ _ => rfl)
  case hold =>
    intro s h reason epoch x hs hst hq
    obtain ⟨t, e, only⟩ := stepHold_holds reason hs hst hq
    have hself := (s.adopting h epoch x).holding_ctx_self x h reason
    have hst' := fun y => (only _ (Foot.sub (by decide) (Foot.refl _))).ctx_st_eq y
    have hpend := fun y => (only _ (Foot.sub (by decide) (Foot.refl _))).ctx_pend_eq y
    refine ⟨t, e, (hst' x).trans (by rw [hself]; rfl), ((only _ (Foot.sub (by decide) (Foot.refl _))).ctx_step_eq x).trans (by rw [hself]; rfl),
      ((only _ (Foot.sub (by decide) (Foot.refl _))).ctx_launch_eq x).trans (by rw [hself]; rfl),
      ((only _ (Foot.sub (by decide) (Foot.refl _))).ctx_launched_eq x).trans (by rw [hself]; rfl),
      (hpend x).trans (by rw [hself]; rfl), ((only _ (Foot.sub (by decide) (Foot.refl _))).ctx_committed_eq x).trans ?_, fun p hp => ?_,
      fun y hy => ⟨?_, ?_⟩⟩
    · rw [hself]
      exact s.adopting_reads h epoch x x Ctx.committed (fun _ => rfl) (fun _ _ _ _ => rfl)
    · rw [State.dom, (only _ (Foot.sub (by decide) (Foot.refl _))).pwr_eq]
      refine State.holding_dom h reason ?_
      rw [s.adopting_reads h epoch x x Ctx.mask (fun _ => rfl) (fun _ _ _ _ => rfl)]
      exact hp
    · rw [hst', State.holding_ctx_ne _ h reason hy]
      exact s.adopting_reads h epoch x y Ctx.st (fun _ => rfl) (fun _ _ _ _ => rfl)
    · rw [hpend, State.holding_ctx_ne _ h reason hy]
      exact s.adopting_reads h epoch x y Ctx.pend (fun _ => rfl) (fun _ _ _ _ => rfl)
  case drain =>
    intro s h td epoch x hs
    have e : execDrain h td epoch s = .next (effDrain h td epoch (s.atEffect h)) := congrArg Host.Outcome.next (State.ctrlIn_takes _ _ hs.1)
    have hat := fun y => s.adopting_reads h epoch x y Ctx.drainAt (fun _ => rfl) (fun _ _ _ _ => rfl)
    refine ⟨(s.adopting h epoch x).updCtx x (fun c => c.draining td), e.trans ?_, ?_, ?_, fun y hy => ⟨?_, ?_⟩, s.adopting_mem h epoch x⟩
    · rw [effDrain, State.onJob_serves hs]
      rfl
    · rw [State.ctx_updCtx_self]
      rfl
    · rw [State.ctx_updCtx_self]
      exact congrArg (earliestDrain td) (hat x)
    · rw [State.ctx_updCtx_ne _ _ hy, hat]
    · rw [State.ctx_updCtx_ne _ _ hy]
      exact s.adopting_reads h epoch x y Ctx.st (fun _ => rfl) (fun _ _ _ _ => rfl)

end Sys2Proof.Machine
end

section
/-!
Re-execution and the loss of a module at a participant (01 R25, R26, 12 R307, R312, R313).
-/
namespace Sys2Proof.Machine

-- Proofs elaborated one after another keep the whole text within the memory its compile is given.
set_option Elab.async false

/-! ### REEXEC -/

/-- A context whose step is to run again, its attempt given. -/
def Ctx.again (c : Ctx) (step attempt : Nat) : Ctx := { c with step, attempt := attempt % 16, reasons := 2 ^ 5, launched := false }

theorem Ctx.again_st (c : Ctx) (step attempt : Nat) : (c.discarded.again step attempt).st = c.st := rfl

theorem Ctx.again_committed (c : Ctx) (step attempt : Nat) : (c.discarded.again step attempt).committed = c.committed := rfl

/-- The state of a module whose pending copy is discarded for another attempt. -/
def State.retrying (s : State) (x : Nat) (h : Hdr) : State :=
  (((s.discard x).bump .recL1 0).record { code := 0x0301, sev := 0, ctx := x, step := h.step, attempt := h.attempt, data := [x, 1] }).updCtx x
    (fun c => c.again h.step h.attempt)

theorem State.retrying_only (s : State) (x : Nat) (h : Hdr) : ∀ ps, Foot 6422544 ps → Only ps (s.discard x)
    (((s.discard x).bump .recL1 0).record { code := 0x0301, sev := 0, ctx := x, step := h.step, attempt := h.attempt, data := [x, 1] }) :=
  fun ps hps => State.record_only _ (Foot.sub (by decide) hps) (State.bump_only _ _ _ (Foot.sub (by decide) hps) (Only.refl ps _))

theorem State.retrying_ctx_self (s : State) (x : Nat) (h : Hdr) : (s.retrying x h).ctx x = (s.ctx x).discarded.again h.step h.attempt := by
  unfold State.retrying
  rw [State.ctx_updCtx_self, (s.retrying_only x h _ (Foot.sub (by decide) (Foot.refl _))).ctx_eq, State.discard_ctx_self]

theorem State.retrying_ctx_ne (s : State) {x y : Nat} (h : Hdr) (hy : y ≠ x) : (s.retrying x h).ctx y = s.ctx y := by
  unfold State.retrying
  rw [State.ctx_updCtx_ne _ _ hy, (s.retrying_only x h _ (Foot.sub (by decide) (Foot.refl _))).ctx_eq, State.discard_ctx_ne _ hy]

theorem State.retrying_calm {s : State} (hs : s.calm) (x : Nat) (h : Hdr) : (s.retrying x h).calm := by
  have only := s.retrying_only x h
  exact State.calm_of (State.discard_calm x hs) (congrArg Recov.pending (only _ (Foot.sub (by decide) (Foot.refl _))).recov_eq)
    (only _ (Foot.sub (by decide) (Foot.refl _))).clus_eq (only _ (Foot.sub (by decide) (Foot.refl _))).id_eq

/-- REEXEC discards what is pending and waits for the new launch. -/
theorem reexec_retries {s : State} {h : Hdr} {epoch x launch : Nat} (hs : s.serves h epoch x) (hst : (s.ctx x).st = .running)
    (hcom : (s.ctx x).committed ≠ some h.step)
    (hnew : ¬((s.ctx x).step = h.step ∧ (s.ctx x).attempt = h.attempt ∧ (s.ctx x).launch = some launch)) (hq : s.quiet) :
    ∃ t, execReexec h launch epoch s = .next t ∧ (t.ctx x).launch = some launch ∧ (t.ctx x).confirmed = false ∧
      ∀ ps, Foot 74210314659817719120 ps → Only ps ((s.adopting h epoch x).retrying x h) t := by
  have hread := fun {α : Type} (π : Ctx → α) => s.adopting_reads h epoch x x π
  have hgo : ¬(((s.adopting h epoch x).ctx x).st ≠ .running ∨ ((s.adopting h epoch x).ctx x).committed = some h.step ∨
      (((s.adopting h epoch x).ctx x).step = h.step ∧ ((s.adopting h epoch x).ctx x).attempt = h.attempt ∧
        ((s.adopting h epoch x).ctx x).launch = some launch)) := by
    rw [hread Ctx.st (fun _ => rfl) (fun _ _ _ _ => rfl), hread Ctx.committed (fun _ => rfl) (fun _ _ _ _ => rfl),
      hread Ctx.step (fun _ => rfl) (fun _ _ _ _ => rfl), hread Ctx.attempt (fun _ => rfl) (fun _ _ _ _ => rfl),
      hread Ctx.launch (fun _ => rfl) (fun _ _ _ _ => rfl)]
    exact fun h => h.elim (fun h => h hst) (fun h => h.elim hcom hnew)
  obtain ⟨hcalm, hrep⟩ := hq.adopting h epoch x
  have e : execReexec h launch epoch s = .next (effReexec h launch epoch (s.atEffect h)) :=
    congrArg Host.Outcome.next (State.ctrlIn_takes _ _ hs.1)
  rw [e, effReexec, State.onJob_serves hs]
  dsimp only
  rw [if_neg hgo, State.settleRepeats_none x _ hrep]
  change ∃ t, Host.Outcome.next (((((s.adopting h epoch x).retrying x h).boundary x).reloadImages x).setLaunch x launch) = .next t ∧ _
  have hself := (s.adopting h epoch x).retrying_ctx_self x h
  have hcalm := State.retrying_calm hcalm x h
  generalize (s.adopting h epoch x).retrying x h = v at hself hcalm ⊢
  rw [State.boundary_calm x hcalm]
  have only : ∀ ps, Foot (1024 ||| 256) ps → Only ps v ((v.updFab (fun f =>
      { f with dieBreak := f.dieBreakPending.orElse (fun _ => f.dieBreak), dieBreakPending := none })).reloadImages x) :=
    fun ps hps => State.reloadImages_only x (Foot.sub (by decide) hps) (State.updFab_only _ (Foot.sub (by decide) hps) (Only.refl ps v))
  generalize (v.updFab (fun f =>
      { f with dieBreak := f.dieBreakPending.orElse (fun _ => f.dieBreak), dieBreakPending := none })).reloadImages x = w at only ⊢
  obtain ⟨hl, hc⟩ := w.setLaunch_sets x launch
  refine ⟨_, rfl, hl, hc ?_, fun ps hps => State.setLaunch_only x _ (Foot.sub (by decide) hps) (only ps (Foot.sub (by decide) hps))⟩
  rw [(only _ (Foot.sub (by decide) (Foot.refl _))).ctx_confirmed_eq, hself]
  rfl

/-! ### MODULE_LOST -/

/-- A job's context is at least ARMED. -/
theorem State.jobCtx_armed {s : State} {src x : Nat} (h : s.jobCtx src = some x) : 3 ≤ (s.ctx x).st.code := by
  have hmem : x ∈ s.liveCtxs.filter (fun x => decide (3 ≤ (s.ctx x).st.code)) := by
    unfold State.jobCtx State.ctxFor at h
    dsimp only at h
    cases hf : (s.liveCtxs.filter (fun x => decide (3 ≤ (s.ctx x).st.code))).find?
      (fun x => (s.ctx x).coordLocus == src || (s.ctx x).pmap.contains src) with
    | some y =>
      rw [hf] at h
      cases h
      exact List.mem_of_find?_eq_some hf
    | none =>
      rw [hf] at h
      exact List.mem_of_head? h
  exact of_decide_eq_true (List.mem_filter.1 hmem).2

theorem State.jobCtx_live {s : State} {src x : Nat} (h : s.jobCtx src = some x) : (s.ctx x).st ≠ .empty := fun e => by
  have := State.jobCtx_armed h
  rw [e] at this
  exact absurd this (by decide)

/-- The state a loss is noted in. -/
def State.recordLost (s : State) (x : Nat) (h : Hdr) (lost spare : Nat) : State :=
  s.record { code := 0x0420, sev := 2, ctx := x, step := h.step, attempt := h.attempt, data := [lost, spare] }

theorem State.recordLost_kept (s : State) (x : Nat) (h : Hdr) (lost spare : Nat) : (∀ y, (s.recordLost x h lost spare).ctx y = s.ctx y) ∧
    (s.recordLost x h lost spare).locus = s.locus ∧ (s.recordLost x h lost spare).mem = s.mem := ⟨fun _ => rfl, rfl, rfl⟩

/-- A spare's context in the lost module's place, before a step and waiting for its copy. -/
def Ctx.takingPlace (c : Ctx) (held : Bool) (lost spare step attempt loc : Nat) : Ctx :=
  let d := c.substitute lost spare
  { d with st := if held then .held else .running, committed := some (prevStep step), step, attempt := attempt % 16,
           launch := none, launched := false, gey := { c.gey with takeStart := some loc, bound := false } }

/-- MODULE_LOST naming this module as the spare. -/
theorem moduleLost_spare {s : State} {h : Hdr} {lost epoch x : Nat} (hs : s.serves h epoch x) (hl : lost ≠ s.locus)
    (hst : (s.ctx x).st = .armed) : ∃ t held loc, execModuleLost h lost s.locus epoch s = .next t ∧ t.mem = s.mem ∧
      t.ctx x = ((s.adopting h epoch x).ctx x).takingPlace held lost s.locus h.step h.attempt loc := by
  have hst' : ((s.adopting h epoch x).ctx x).st = .armed := by
    rw [s.adopting_reads h epoch x x Ctx.st (fun _ => rfl) (fun _ _ _ _ => rfl), hst]
  have hloc := (s.adopting_parts h epoch x).2.2.2.2
  have hmem := s.adopting_mem h epoch x
  have e : execModuleLost h lost s.locus epoch s = .next (effModuleLost h lost s.locus epoch (s.atEffect h)) :=
    congrArg Host.Outcome.next (State.ctrlIn_takes _ _ hs.1)
  rw [e, effModuleLost, State.onJob_serves hs]
  generalize s.adopting h epoch x = v at hst' hloc hmem ⊢
  extract_lets c w held u
  obtain ⟨hctx, hwloc, hwmem⟩ := v.recordLost_kept x h lost s.locus
  have hw : w.locus = s.locus := hwloc.trans hloc
  rw [if_neg (by rw [hw]; exact hl), if_pos hw.symm, if_neg (Classical.not_not.2 hst')]
  have only := fun ps (hps : Foot 25166848 ps) => State.noticeReady_only (s := u) x hps (Only.refl ps u)
  refine ⟨_, held.1, w.time.loc, rfl, (only _ (Foot.sub (by decide) (Foot.refl _))).mem_eq.trans (hwmem.trans hmem), ?_⟩
  rw [(only _ (Foot.sub (by decide) (Foot.refl _))).ctx_eq]
  unfold u
  rw [State.ctx_updCtx_self]
  exact congrArg (fun c => Ctx.takingPlace c held.1 lost s.locus h.step h.attempt w.time.loc) (hctx x)

/-- A participant's context after a loss: the pending step discarded, the spare in the lost module's place, as its partner and, where the
lost module was its buddy, as its buddy. -/
def Ctx.replacing (c : Ctx) (lost spare : Nat) : Ctx :=
  { c.discarded.substitute lost spare with launch := none, launched := false, gey := { c.discarded.gey with
      partner := c.discarded.gey.partner.map (fun p => if p.locus = lost then { p with locus := spare } else p) } }

theorem Ctx.replacing_st (c : Ctx) (lost spare : Nat) : (c.replacing lost spare).st = c.st := rfl

theorem Ctx.replacing_pmap (c : Ctx) (lost spare : Nat) :
    (c.replacing lost spare).pmap = insertAsc spare (c.pmap.filter (· != lost)) := rfl

/-- Settling with the spare named where the lost module was the buddy: its bind is asked for. -/
def GeyCtx.rebinding (g : GeyCtx) (spare loc : Nat) : GeyCtx := { g with buddy := spare, bound := false, buddyValid := false, bindSince := some loc }

/-- The state after a loss at a participant, before a new buddy is bound. -/
def State.replacing (s : State) (x : Nat) (h : Hdr) (lost spare : Nat) : State :=
  (((s.recordLost x h lost spare).discard x).updCtx x (fun c => { c.substitute lost spare with launch := none, launched := false })).updGey x
    (fun g => { g with partner := g.partner.map (fun p => if p.locus = lost then { p with locus := spare } else p) })

theorem State.replacing_ctx_self (s : State) (x : Nat) (h : Hdr) (lost spare : Nat) :
    (s.replacing x h lost spare).ctx x = (s.ctx x).replacing lost spare := by
  unfold State.replacing
  rw [State.ctx_updGey_self, State.ctx_updCtx_self, State.discard_ctx_self, (s.recordLost_kept x h lost spare).1]
  rfl

theorem State.replacing_ctx_ne (s : State) {x y : Nat} (h : Hdr) (lost spare : Nat) (hy : y ≠ x) :
    (s.replacing x h lost spare).ctx y = s.ctx y := by
  unfold State.replacing
  rw [State.updGey, State.ctx_updCtx_ne _ _ hy, State.ctx_updCtx_ne _ _ hy, State.discard_ctx_ne _ hy, (s.recordLost_kept x h lost spare).1]

/-- The bind asked for only touches what Geyser keeps of the bind. -/
theorem State.bind_gey (s : State) (x : Nat) : ((s.bind x).ctx x).gey.buddy = (s.ctx x).gey.buddy ∧
    ((s.bind x).ctx x).gey.bound = (s.ctx x).gey.bound := by
  unfold State.bind
  dsimp only
  split
  · rw [State.ctx_updGey_self]
    exact ⟨rfl, rfl⟩
  · rw [State.ctx_of_sendCtrl]
    exact ⟨rfl, rfl⟩

/-- MODULE_LOST naming two other modules: the pending step is discarded, and the spare is named, as the buddy too where the buddy was lost. -/
theorem moduleLost_other {s : State} {h : Hdr} {lost spare epoch x : Nat} (hs : s.serves h epoch x) (hl : lost ≠ s.locus) (hsp : spare ≠ s.locus) :
    ∃ t, execModuleLost h lost spare epoch s = .next t ∧
      (∀ ps, Foot 590295810358730818624 ps → Only ps ((s.adopting h epoch x).replacing x h lost spare) t) ∧
      (∀ y, y ≠ x → (t.ctx y).pend = ((s.adopting h epoch x).ctx y).pend) ∧
      (((s.adopting h epoch x).ctx x).gey.buddy = lost → (t.ctx x).gey.buddy = spare ∧ (t.ctx x).gey.bound = false) := by
  have hloc := (s.adopting_parts h epoch x).2.2.2.2
  have e : execModuleLost h lost spare epoch s = .next (effModuleLost h lost spare epoch (s.atEffect h)) :=
    congrArg Host.Outcome.next (State.ctrlIn_takes _ _ hs.1)
  rw [e, effModuleLost, State.onJob_serves hs]
  generalize s.adopting h epoch x = v at hloc ⊢
  extract_lets c w
  have hw : w.locus = s.locus := (v.recordLost_kept x h lost spare).2.1.trans hloc
  rw [if_neg (by rw [hw]; exact hl), if_neg (by rw [hw]; exact hsp)]
  change ∃ t, Host.Outcome.next (if c.gey.buddy = lost then
    (((v.replacing x h lost spare).updGey x (fun g => g.rebinding spare (v.replacing x h lost spare).time.loc)).bind x).noticeReady x
    else v.replacing x h lost spare) = .next t ∧ _
  have hne := fun y (hy : y ≠ x) => v.replacing_ctx_ne h lost spare hy
  generalize v.replacing x h lost spare = u at hne ⊢
  split
  · next hb =>
    have only : ∀ ps, Foot 590295810358730818624 ps → Only ps u
        (((u.updGey x (fun g => g.rebinding spare u.time.loc)).bind x).noticeReady x) := fun ps hps =>
      State.noticeReady_only x (Foot.sub (by decide) hps) (State.bind_only x (Foot.sub (by decide) hps)
        (State.updGey_only x _ (Foot.sub (by decide) hps) (Only.refl ps u)))
    refine ⟨_, rfl, only, fun y hy => ?_, fun _ => ?_⟩
    · rw [(only _ (Foot.sub (by decide) (Foot.refl _))).ctx_pend_eq, hne y hy]
    · have hgey := (State.noticeReady_only (s := (u.updGey x (fun g => g.rebinding spare u.time.loc)).bind x) x
        (Foot.sub (by decide) (Foot.refl _)) (Only.refl _ _)).ctx_gey_eq x
      obtain ⟨hbuddy, hbound⟩ := (u.updGey x (fun g => g.rebinding spare u.time.loc)).bind_gey x
      rw [hgey, hbuddy, hbound, State.ctx_updGey_self]
      exact ⟨rfl, rfl⟩
  · next hb =>
    exact ⟨_, rfl, fun ps _ => Only.refl ps u, fun y hy => by rw [hne y hy], fun h => absurd h hb⟩

/-- After REEXEC the step waits for its launch with the new attempt, nothing pending, and the other contexts are as they were. -/
theorem reexec_again {s : State} {h : Hdr} {launch epoch x : Nat} (hs : s.serves h epoch x) (hst : (s.ctx x).st = .running)
    (hcom : (s.ctx x).committed ≠ some h.step)
    (hnew : ¬((s.ctx x).step = h.step ∧ (s.ctx x).attempt = h.attempt ∧ (s.ctx x).launch = some launch)) (hq : s.quiet) :
    ∃ t, execReexec h launch epoch s = .next t ∧ (t.ctx x).step = h.step ∧ (t.ctx x).attempt = h.attempt % 16 ∧
      (t.ctx x).launch = some launch ∧ (t.ctx x).pend = [] ∧ (t.ctx x).confirmed = false ∧ (t.ctx x).faulted = false ∧
      (t.ctx x).committed = (s.ctx x).committed ∧ (t.ctx x).st = .running ∧
      (∀ y, y ≠ x → (t.ctx y).pend = (s.ctx y).pend ∧ (t.ctx y).step = (s.ctx y).step) := by
  obtain ⟨t, e, hlaunch, hconf, only⟩ := reexec_retries hs hst hcom hnew hq
  have hself := (s.adopting h epoch x).retrying_ctx_self x h
  have hpend := fun y => (only _ (Foot.sub (by decide) (Foot.refl _))).ctx_pend_eq y
  have hstep := fun y => (only _ (Foot.sub (by decide) (Foot.refl _))).ctx_step_eq y
  refine ⟨t, e, (hstep x).trans (by rw [hself]; rfl), ((only _ (Foot.sub (by decide) (Foot.refl _))).ctx_attempt_eq x).trans (by rw [hself]; rfl),
    hlaunch, (hpend x).trans (by rw [hself]; rfl), hconf,
    ((only _ (Foot.sub (by decide) (Foot.refl _))).ctx_faulted_eq x).trans (by rw [hself]; rfl),
    ((only _ (Foot.sub (by decide) (Foot.refl _))).ctx_committed_eq x).trans ?_,
    ((only _ (Foot.sub (by decide) (Foot.refl _))).ctx_st_eq x).trans ?_, fun y hy => ⟨?_, ?_⟩⟩
  · rw [hself, Ctx.again_committed]
    exact s.adopting_reads h epoch x x Ctx.committed (fun _ => rfl) (fun _ _ _ _ => rfl)
  · rw [hself, Ctx.again_st, s.adopting_reads h epoch x x Ctx.st (fun _ => rfl) (fun _ _ _ _ => rfl)]
    exact hst
  · rw [hpend, State.retrying_ctx_ne _ h hy]
    exact s.adopting_reads h epoch x y Ctx.pend (fun _ => rfl) (fun _ _ _ _ => rfl)
  · rw [hstep, State.retrying_ctx_ne _ h hy]
    exact s.adopting_reads h epoch x y Ctx.step (fun _ => rfl) (fun _ _ _ _ => rfl)

/-- REEXEC of a step committed does nothing more than be heard. -/
theorem reexec_committed {s : State} {h : Hdr} {epoch x : Nat} (launch : Nat) (hs : s.serves h epoch x) (hcom : (s.ctx x).committed = some h.step) :
    execReexec h launch epoch s = .next (s.adopting h epoch x) := by
  have e : execReexec h launch epoch s = .next (effReexec h launch epoch (s.atEffect h)) :=
    congrArg Host.Outcome.next (State.ctrlIn_takes _ _ hs.1)
  rw [e, effReexec, State.onJob_serves hs]
  refine congrArg Host.Outcome.next (if_pos (.inr (.inl ?_)))
  exact (s.adopting_reads h epoch x x Ctx.committed (fun _ => rfl) (fun _ _ _ _ => rfl)).trans hcom

/-- MODULE_LOST naming this module as lost empties the context. -/
theorem moduleLost_self {s : State} {h : Hdr} {epoch x : Nat} (spare : Nat) (hs : s.serves h epoch x) :
    ∃ t, execModuleLost h s.locus spare epoch s = .next t ∧ t.ctx x = Ctx.reset := by
  have hlive : ((s.adopting h epoch x).ctx x).st ≠ .empty := by
    rw [s.adopting_reads h epoch x x Ctx.st (fun _ => rfl) (fun _ _ _ _ => rfl)]
    exact State.jobCtx_live hs.2.1
  have e : execModuleLost h s.locus spare epoch s = .next (effModuleLost h s.locus spare epoch (s.atEffect h)) :=
    congrArg Host.Outcome.next (State.ctrlIn_takes _ _ hs.1)
  obtain ⟨hctx, hloc, -⟩ := (s.adopting h epoch x).recordLost_kept x h s.locus spare
  refine ⟨((s.adopting h epoch x).recordLost x h s.locus spare).emptyCtx x, e.trans ?_, State.emptyCtx_ctx _ x (by rw [hctx]; exact hlive)⟩
  rw [effModuleLost, State.onJob_serves hs]
  exact congrArg Host.Outcome.next (if_pos (hloc.trans (s.adopting_parts h epoch x).2.2.2.2).symm)

/-- The spare named stands RUNNING or HELD before the step. -/
theorem moduleLost_spare_fields {s : State} {h : Hdr} {lost epoch x : Nat} (hs : s.serves h epoch x) (hl : lost ≠ s.locus)
    (hst : (s.ctx x).st = .armed) : ∃ t, execModuleLost h lost s.locus epoch s = .next t ∧ ((t.ctx x).st = .running ∨ (t.ctx x).st = .held) ∧
      (t.ctx x).step = h.step ∧ (t.ctx x).committed = some (prevStep h.step) ∧ (t.ctx x).launch = none ∧ (t.ctx x).gey.bound = false ∧
      (t.ctx x).pmap = insertAsc s.locus ((s.ctx x).pmap.filter (· != lost)) ∧ t.mem = s.mem := by
  obtain ⟨t, held, loc, e, hmem, hctx⟩ := moduleLost_spare hs hl hst
  refine ⟨t, e, ?_, ?_, ?_, ?_, ?_, ?_, hmem⟩
  · rw [hctx]
    cases held
    · exact .inl rfl
    · exact .inr rfl
  · rw [hctx]
    rfl
  · rw [hctx]
    rfl
  · rw [hctx]
    rfl
  · rw [hctx]
    rfl
  · rw [hctx, ← s.adopting_reads h epoch x x Ctx.pmap (fun _ => rfl) (fun _ _ _ _ => rfl)]
    rfl

/-- The other participants discard the step and name the spare. -/
theorem moduleLost_other_fields {s : State} {h : Hdr} {lost spare epoch x : Nat} (hs : s.serves h epoch x) (hl : lost ≠ s.locus)
    (hsp : spare ≠ s.locus) : ∃ t, execModuleLost h lost spare epoch s = .next t ∧ (t.ctx x).pend = [] ∧ (t.ctx x).st = (s.ctx x).st ∧
      (t.ctx x).pmap = insertAsc spare ((s.ctx x).pmap.filter (· != lost)) ∧ (∀ y, y ≠ x → (t.ctx y).pend = (s.ctx y).pend) ∧
      ((s.ctx x).gey.buddy = lost → (t.ctx x).gey.buddy = spare ∧ (t.ctx x).gey.bound = false) := by
  obtain ⟨t, e, only, hne, hbuddy⟩ := moduleLost_other hs hl hsp
  have hself := (s.adopting h epoch x).replacing_ctx_self x h lost spare
  refine ⟨t, e, ((only _ (Foot.sub (by decide) (Foot.refl _))).ctx_pend_eq x).trans (by rw [hself]; rfl),
    ((only _ (Foot.sub (by decide) (Foot.refl _))).ctx_st_eq x).trans ?_,
    ((only _ (Foot.sub (by decide) (Foot.refl _))).ctx_pmap_eq x).trans ?_, fun y hy => ?_, fun hb => hbuddy ?_⟩
  · rw [hself, Ctx.replacing_st]
    exact s.adopting_reads h epoch x x Ctx.st (fun _ => rfl) (fun _ _ _ _ => rfl)
  · rw [hself, Ctx.replacing_pmap, s.adopting_reads h epoch x x Ctx.pmap (fun _ => rfl) (fun _ _ _ _ => rfl)]
  · rw [hne y hy]
    exact s.adopting_reads h epoch x y Ctx.pend (fun _ => rfl) (fun _ _ _ _ => rfl)
  · rw [s.adopting_reads h epoch x x Ctx.gey (fun _ => rfl) (fun _ _ _ _ => rfl)]
    exact hb

/-- Settles O20, message by message. -/
theorem reexecutionAndLoss : Obligations.ReexecutionAndLoss := by
  unfold Obligations.ReexecutionAndLoss
  refine ⟨?again, ?done, ?lostSelf, ?spare, ?other⟩
  case again =>
    intro s h launch epoch x hs hst hcom hnew hq
    exact reexec_again hs hst hcom hnew hq
  case done =>
    intro s h launch epoch x hs hcom
    have hread := fun {α : Type} (π : Ctx → α) => s.adopting_reads h epoch x x π
    exact ⟨_, reexec_committed launch hs hcom, hread Ctx.step (fun _ => rfl) (fun _ _ _ _ => rfl),
      hread Ctx.attempt (fun _ => rfl) (fun _ _ _ _ => rfl), hread Ctx.pend (fun _ => rfl) (fun _ _ _ _ => rfl), s.adopting_mem h epoch x⟩
  case lostSelf =>
    intro s h spare epoch x hs
    exact moduleLost_self spare hs
  case spare =>
    intro s h lost epoch x hs hl hst
    exact moduleLost_spare_fields hs hl hst
  case other =>
    intro s h lost spare epoch x hs hl hsp
    exact moduleLost_other_fields hs hl hsp

end Sys2Proof.Machine
end

section
/-!
COMMIT at a participant: the pending copy is the committed copy, and no other byte changes (01 R23, 12 R307).
-/
namespace Sys2Proof.Machine

-- Proofs elaborated one after another keep the whole text within the memory its compile is given.
set_option Elab.async false

/-! ### The pending copy becomes the committed one -/

/-- A pending block written with its check. -/
def State.writePending (s : State) (e : Nat × PBlock) : State :=
  (s.writeBytes e.1 e.2.bytes).setCheck e.1 { mass := e.2.check / 2 ^ 32, crc := e.2.check % 2 ^ 32, poison := false, invalid := false }

theorem State.writePending_byte (s : State) (e : Nat × PBlock) (q : Nat) : (s.writePending e).byte q = (s.writeBytes e.1 e.2.bytes).byte q := rfl

theorem State.writePending_wf {s : State} (e : Nat × PBlock) (h : Memory.wf s.mem = true) : Memory.wf (s.writePending e).mem = true :=
  State.wf_writeBytes h e.1 e.2.bytes

theorem State.writePending_ctxs (s : State) (e : Nat × PBlock) : (s.writePending e).ctxs = s.ctxs := rfl

theorem State.writePending_outside {s : State} {e : Nat × PBlock} {q : Nat} (h : Memory.wf s.mem = true)
    (hq : q < e.1 ∨ e.1 + e.2.bytes.length ≤ q) : (s.writePending e).byte q = s.byte q := by
  rw [State.writePending_byte, State.byte_writeBytes h]
  split
  · rw [List.getElem?_eq_none (by omega)]
    rfl
  · rfl

theorem State.writePending_inside {s : State} {e : Nat × PBlock} {q : Nat} (h : Memory.wf s.mem = true) (hl : e.1 ≤ q)
    (hq : q < e.1 + e.2.bytes.length) : (s.writePending e).byte q = e.2.bytes.getD (q - e.1) 0#8 := by
  have hlt : q - e.1 < e.2.bytes.length := by omega
  rw [State.writePending_byte, State.byte_writeBytes h, if_pos hl, List.getD_eq_getElem?_getD, List.getElem?_eq_getElem hlt]
  rfl

theorem forEach_writePending_outside {q : Nat} (l : KMap PBlock) (s : State) (h : Memory.wf s.mem = true)
    (hq : ∀ e ∈ l, q < e.1 ∨ e.1 + e.2.bytes.length ≤ q) : (forEach l s State.writePending).byte q = s.byte q := by
  unfold forEach
  induction l generalizing s with
  | nil => rfl
  | cons e l ih =>
    rw [List.foldl_cons, ih _ (State.writePending_wf e h) fun d hd => hq d (List.mem_cons_of_mem _ hd)]
    exact State.writePending_outside h (hq e List.mem_cons_self)

/-- Committing the slots writes the pending blocks and changes the context's Geyser state alone. -/
theorem State.commitSlots_fields (s : State) (x : Nat) : ∃ g : Ctx → GeyCtx, s.commitSlots x =
    (forEach (s.ctx x).pend s State.writePending).updCtx x (fun c => { c with pend := [], gey := g c }) := by
  unfold State.commitSlots
  extract_lets c key pinned u
  exact ⟨_, rfl⟩

theorem State.commitSlots_ctx_self (s : State) (x : Nat) : ∃ g, (s.commitSlots x).ctx x = { s.ctx x with pend := [], gey := g } := by
  obtain ⟨g, e⟩ := s.commitSlots_fields x
  have hctxs := forEach_keeps_reading (fun v => v.ctxs) (fun v e => v.writePending_ctxs e) (s.ctx x).pend s
  rw [e, State.ctx_updCtx_self, State.ctx, hctxs, ← State.ctx]
  exact ⟨_, rfl⟩

theorem State.commitSlots_ctx_ne (s : State) {x y : Nat} (hy : y ≠ x) : (s.commitSlots x).ctx y = s.ctx y := by
  obtain ⟨g, e⟩ := s.commitSlots_fields x
  have hctxs := forEach_keeps_reading (fun v => v.ctxs) (fun v e => v.writePending_ctxs e) (s.ctx x).pend s
  rw [e, State.ctx_updCtx_ne _ _ hy, State.ctx, hctxs, ← State.ctx]

theorem State.commitSlots_outside {s : State} {x q : Nat} (h : Memory.wf s.mem = true)
    (hq : ∀ e ∈ (s.ctx x).pend, q < e.1 ∨ e.1 + e.2.bytes.length ≤ q) : (s.commitSlots x).byte q = s.byte q := by
  obtain ⟨g, e⟩ := s.commitSlots_fields x
  rw [e, State.byte_of_updCtx]
  exact forEach_writePending_outside _ s h hq

theorem State.commitSlots_inside {s : State} {x q : Nat} {e : Nat × PBlock} (h : Memory.wf s.mem = true) (hp : (s.ctx x).pend = [e])
    (hl : e.1 ≤ q) (hq : q < e.1 + e.2.bytes.length) : (s.commitSlots x).byte q = e.2.bytes.getD (q - e.1) 0#8 := by
  obtain ⟨g, eq⟩ := s.commitSlots_fields x
  rw [eq, State.byte_of_updCtx, hp, forEach_one]
  exact State.writePending_inside h hl hq

/-! ### The work of a commit -/

theorem State.dumpsDone_none {s : State} {x : Nat} (n : Nat) (h : (s.ctx x).dumps = []) :
    ∀ ps, Foot 295147905179352825920 ps → Only ps s (s.dumpsDone x n) := fun ps hps => by
  unfold State.dumpsDone
  dsimp only
  rw [h, List.filter_nil, forEach_none]
  exact State.updCtx_only (a := 295147905179352825856) hps (fun c q hq => by cases q <;> first | rfl | cases hq) (Only.refl ps s)

/-- The charge and the record of the step at a commit. -/
def State.recorded (s : State) (x : Nat) (c : Ctx) (h : Hdr) : State :=
  ((s.powerCommit x).ageDirected c.mask).addRecord x h.step (c.launch.getD 0) h.stamp

theorem State.recorded_only (s : State) (x : Nat) (c : Ctx) (h : Hdr) :
    ∀ ps, Foot (15073296 ||| 4096 ||| 7493989779948699712) ps → Only ps s (s.recorded x c h) := fun ps hps =>
  State.addRecord_only x _ _ _ (Foot.sub (by decide) hps) (State.ageDirected_only _ (Foot.sub (by decide) hps)
    (State.powerCommit_only x (Foot.sub (by decide) hps) (Only.refl ps s)))

theorem State.recorded_calm {s : State} (x : Nat) (c : Ctx) (h : Hdr) (hs : s.calm) : (s.recorded x c h).calm := by
  have only := s.recorded_only x c h
  have hp : (s.powerCommit x).recov = s.recov := (State.powerCommit_only x (Foot.sub (by decide) (Foot.refl _)) (Only.refl _ s)).recov_eq
  have hr : (s.recorded x c h).recov = ((s.powerCommit x).ageDirected c.mask).recov :=
    (State.addRecord_only x _ _ _ (Foot.sub (by decide) (Foot.refl _)) (Only.refl _ _)).recov_eq
  have ha : ((s.powerCommit x).ageDirected c.mask).recov.pending = (s.powerCommit x).recov.pending := rfl
  exact State.calm_of hs (by rw [hr, ha, hp]) (only _ (Foot.sub (by decide) (Foot.refl _))).clus_eq
    (only _ (Foot.sub (by decide) (Foot.refl _))).id_eq

/-- The record of the step, its charge and its dumps at a commit. -/
def State.closing (s : State) (x : Nat) (c : Ctx) (h : Hdr) : State := ((s.recorded x c h).dumpsDone x h.step).closeStepRecords x

theorem State.closing_after {s : State} {x : Nat} (c : Ctx) (h : Hdr) (hd : (s.ctx x).dumps = []) :
    ∀ ps, Foot (295147905179352825920 ||| 131072) ps → Only ps (s.recorded x c h) (s.closing x c h) := fun ps hps => by
  have hd' : ((s.recorded x c h).ctx x).dumps = [] :=
    ((s.recorded_only x c h _ (Foot.sub (by decide) (Foot.refl _))).ctx_dumps_eq x).trans hd
  exact State.closeStepRecords_only x (Foot.sub (by decide) hps) (State.dumpsDone_none h.step hd' ps (Foot.sub (by decide) hps))

theorem State.closing_only {s : State} {x : Nat} (c : Ctx) (h : Hdr) (hd : (s.ctx x).dumps = []) :
    ∀ ps, Foot 302641894959312408656 ps → Only ps s (s.closing x c h) := fun ps hps =>
  (s.recorded_only x c h ps (Foot.sub (by decide) hps)).trans (State.closing_after c h hd ps (Foot.sub (by decide) hps))

theorem State.closing_calm {s : State} {x : Nat} (c : Ctx) (h : Hdr) (hs : s.calm) (hd : (s.ctx x).dumps = []) : (s.closing x c h).calm := by
  have only := State.closing_after c h hd
  exact State.calm_of (State.recorded_calm x c h hs) (congrArg Recov.pending (only _ (Foot.sub (by decide) (Foot.refl _))).recov_eq)
    (only _ (Foot.sub (by decide) (Foot.refl _))).clus_eq (only _ (Foot.sub (by decide) (Foot.refl _))).id_eq

/-- A context gone on to the step after the one committed. -/
def Ctx.goneOn (c : Ctx) (h : Hdr) : Ctx :=
  { c with
    committed := some h.step, commitTick := h.stamp, commitAttempt := c.attempt, step := nextStep h.step, attempt := 0,
    launch := none, launched := false, confirmed := false, faulted := false, reasons := 0, exec := Exec.reset }

/-- What the boundary of a commit does before the context waits or is held. -/
def State.settled (s : State) (x : Nat) (c : Ctx) (h : Hdr) : State :=
  ((s.judgeWaiting c.domain h.step c.attempt).freeTelSlots c.domain (prevStep h.step)).boundary x

theorem State.settled_only {s : State} (x : Nat) (c : Ctx) (h : Hdr) (hs : s.calm) : ∀ ps, Foot 6489104 ps → Only ps s (s.settled x c h) := fun ps hps => by
  have only : ∀ ps, Foot (6488080 ||| 4259840) ps →
      Only ps s ((s.judgeWaiting c.domain h.step c.attempt).freeTelSlots c.domain (prevStep h.step)) := fun ps hps =>
    State.freeTelSlots_only _ _ (Foot.sub (by decide) hps) (State.judgeWaiting_only _ _ _ (Foot.sub (by decide) hps) (Only.refl ps s))
  have hc := State.calm_of hs (congrArg Recov.pending (only _ (Foot.sub (by decide) (Foot.refl _))).recov_eq)
    (only _ (Foot.sub (by decide) (Foot.refl _))).clus_eq (only _ (Foot.sub (by decide) (Foot.refl _))).id_eq
  unfold State.settled
  rw [State.boundary_calm x hc]
  exact State.updFab_only _ (Foot.sub (by decide) hps) (only ps (Foot.sub (by decide) hps))

/-- A context held at the boundary of a commit. -/
def State.heldAfter (s : State) (x n : Nat) : State := ((s.gate x).updCtx x (fun c => { c with st := .held })).boundaryRings x n

theorem State.heldAfter_only (s : State) (x n : Nat) : ∀ ps, Foot 1235931852942843577440 ps → Only ps s (s.heldAfter x n) := fun ps hps =>
  State.boundaryRings_only x n (Foot.sub (by decide) hps) (State.updCtx_only (a := 4294967296) (Foot.sub (by decide) hps)
    (fun c q hq => by cases q <;> first | rfl | cases hq) (State.gate_only x (Foot.sub (by decide) hps) (Only.refl ps s)))

theorem State.heldAfter_st (s : State) (x n : Nat) : ((s.heldAfter x n).ctx x).st = .held := by
  have only := fun ps (hps : Foot 1235931852938548348000 ps) => State.boundaryRings_only x n hps
    (Only.refl ps ((s.gate x).updCtx x (fun c => { c with st := .held })))
  rw [State.heldAfter, (only _ (Foot.sub (by decide) (Foot.refl _))).ctx_st_eq, State.ctx_updCtx_self]

theorem State.updCtx_calm {s : State} (hs : s.calm) (x : Nat) (f : Ctx → Ctx) : (s.updCtx x f).calm := hs

/-- The module after a commit, before the context waits for its next launch or is held. -/
def State.committing (s : State) (x : Nat) (h : Hdr) : State :=
  (((s.commitSlots x).closing x (s.ctx x) h).updCtx x (fun c => c.goneOn h)).settled x (s.ctx x) h

theorem State.commitSlots_calm {s : State} (x : Nat) (hs : s.calm) : (s.commitSlots x).calm := by
  have only := State.commitSlots_only x (Foot.refl _) (Only.refl _ s)
  exact State.calm_of hs (congrArg Recov.pending (Only.weaken (Foot.sub (by decide) (Foot.refl _)) only).recov_eq)
    (Only.weaken (Foot.sub (by decide) (Foot.refl _)) only).clus_eq (Only.weaken (Foot.sub (by decide) (Foot.refl _)) only).id_eq

section
variable {s : State} {x : Nat} {h : Hdr} (hs : s.calm) (hd : (s.ctx x).dumps = [])
include hs hd

theorem State.committing_frames : (∀ ps, Foot 302641894959312408656 ps → Only ps (s.commitSlots x) ((s.commitSlots x).closing x (s.ctx x) h)) ∧
    (∀ ps, Foot 6489104 ps → Only ps (((s.commitSlots x).closing x (s.ctx x) h).updCtx x (fun c => c.goneOn h)) (s.committing x h)) := by
  obtain ⟨g, hself⟩ := s.commitSlots_ctx_self x
  have hd' : ((s.commitSlots x).ctx x).dumps = [] := by
    rw [hself]
    exact hd
  have hcalm : (((s.commitSlots x).closing x (s.ctx x) h).updCtx x (fun c => c.goneOn h)).calm :=
    State.updCtx_calm (State.closing_calm (s.ctx x) h (State.commitSlots_calm x hs) hd') x _
  exact ⟨State.closing_only (s.ctx x) h hd', State.settled_only x (s.ctx x) h hcalm⟩

/-- The context after a commit. -/
theorem State.committing_ctx_self : ∃ c : Ctx, (s.committing x h).ctx x = c.goneOn h ∧ c.pend = [] ∧ c.st = (s.ctx x).st := by
  obtain ⟨only, after⟩ := State.committing_frames (h := h) hs hd
  obtain ⟨g, hself⟩ := s.commitSlots_ctx_self x
  refine ⟨((s.commitSlots x).closing x (s.ctx x) h).ctx x, ?_, ?_, ?_⟩
  · rw [(after _ (Foot.sub (by decide) (Foot.refl _))).ctx_eq, State.ctx_updCtx_self]
  · rw [(only _ (Foot.sub (by decide) (Foot.refl _))).ctx_pend_eq, hself]
  · rw [(only _ (Foot.sub (by decide) (Foot.refl _))).ctx_st_eq, hself]

theorem State.committing_ctx_ne {y : Nat} (hy : y ≠ x) : ((s.committing x h).ctx y).pend = (s.ctx y).pend ∧
    ((s.committing x h).ctx y).committed = (s.ctx y).committed := by
  obtain ⟨only, after⟩ := State.committing_frames (h := h) hs hd
  rw [(after _ (Foot.sub (by decide) (Foot.refl _))).ctx_eq, State.ctx_updCtx_ne _ _ hy, ← s.commitSlots_ctx_ne hy]
  exact ⟨(only _ (Foot.sub (by decide) (Foot.refl _))).ctx_pend_eq y, (only _ (Foot.sub (by decide) (Foot.refl _))).ctx_committed_eq y⟩

theorem State.committing_byte (q : Nat) : (s.committing x h).byte q = (s.commitSlots x).byte q := by
  obtain ⟨only, after⟩ := State.committing_frames (h := h) hs hd
  rw [(after _ (Foot.sub (by decide) (Foot.refl _))).byte_eq, State.byte_of_updCtx]
  exact (only _ (Foot.sub (by decide) (Foot.refl _))).byte_eq q

end

/-- COMMIT of the step a RUNNING context is at. -/
theorem commit_commits {s : State} {h : Hdr} {launch epoch x : Nat} (hold : Bool) (hs : s.serves h epoch x) (hst : (s.ctx x).st = .running)
    (hcom : (s.ctx x).committed ≠ some h.step) (hstep : (s.ctx x).step = h.step) : execCommit h launch hold epoch s = .next
      (if hold then ((s.adopting h epoch x).committing x h).heldAfter x h.step
        else (((s.adopting h epoch x).committing x h).plan x launch).setLaunch x launch) := by
  have hread := fun {α : Type} (π : Ctx → α) => s.adopting_reads h epoch x x π
  have hgo : ¬(((s.adopting h epoch x).ctx x).st ≠ .running ∨ ((s.adopting h epoch x).ctx x).committed = some h.step ∨
      ((s.adopting h epoch x).ctx x).step ≠ h.step) := by
    rw [hread Ctx.st (fun _ => rfl) (fun _ _ _ _ => rfl), hread Ctx.committed (fun _ => rfl) (fun _ _ _ _ => rfl),
      hread Ctx.step (fun _ => rfl) (fun _ _ _ _ => rfl)]
    exact fun h => h.elim (fun h => h hst) (fun h => h.elim hcom (fun h => h hstep))
  have e : execCommit h launch hold epoch s = .next (effCommit h launch hold epoch (s.atEffect h)) :=
    congrArg Host.Outcome.next (State.ctrlIn_takes _ _ hs.1)
  rw [e, effCommit, State.onJob_serves hs]
  exact congrArg Host.Outcome.next (if_neg hgo)

/-- What follows a commit keeps: every byte, what is pending and committed, the step, and nothing confirmed. -/
theorem commit_follows (s : State) (x launch n : Nat) (hold : Bool) (t : State)
    (ht : t = if hold then s.heldAfter x n else (s.plan x launch).setLaunch x launch) :
    (∀ ps, Foot 1310142167602661033072 ps → Only ps s t) ∧ ((s.ctx x).confirmed = false → (t.ctx x).confirmed = false) ∧
      (hold = true → (t.ctx x).st = .held ∧ (t.ctx x).launch = (s.ctx x).launch) ∧
      (hold = false → (t.ctx x).st = (s.ctx x).st ∧ (t.ctx x).launch = some launch) := by
  cases hold
  · have plan := fun ps (hps : Foot 288230376164556864 ps) => State.plan_only x launch hps (Only.refl ps s)
    obtain ⟨hl, hc⟩ := (s.plan x launch).setLaunch_sets x launch
    have only : ∀ ps, Foot (288230376164556864 ||| 74210314659817717840) ps → Only ps s ((s.plan x launch).setLaunch x launch) :=
      fun ps hps => State.setLaunch_only x launch (Foot.sub (by decide) hps) (plan ps (Foot.sub (by decide) hps))
    rw [if_neg Bool.false_ne_true] at ht
    subst ht
    exact ⟨fun ps hps => only ps (Foot.sub (by decide) hps),
      fun hf => hc (((plan _ (Foot.sub (by decide) (Foot.refl _))).ctx_confirmed_eq x).trans hf), fun h => absurd h Bool.false_ne_true,
      fun _ => ⟨(only _ (Foot.sub (by decide) (Foot.refl _))).ctx_st_eq x, hl⟩⟩
  · rw [if_pos rfl] at ht
    subst ht
    have only := s.heldAfter_only x n
    exact ⟨fun ps hps => only ps (Foot.sub (by decide) hps),
      fun hf => ((only _ (Foot.sub (by decide) (Foot.refl _))).ctx_confirmed_eq x).trans hf,
      fun _ => ⟨s.heldAfter_st x n, (only _ (Foot.sub (by decide) (Foot.refl _))).ctx_launch_eq x⟩, fun h => absurd h.symm Bool.false_ne_true⟩

/-- Settles O19: the slots committed (`State.commitSlots_inside`, `State.commitSlots_outside`), then the frames of what follows. -/
theorem commitSwitchesTheCopy : Obligations.CommitSwitchesTheCopy := by
  unfold Obligations.CommitSwitchesTheCopy
  intro s h launch hold epoch x hs hst hcom hstep hdumps hq hwf
  have hread := fun {α : Type} (π : Ctx → α) y => s.adopting_reads h epoch x y π
  have hcalm := (hq.adopting h epoch x).1
  have hd : ((s.adopting h epoch x).ctx x).dumps = [] := (hread Ctx.dumps x (fun _ => rfl) (fun _ _ _ _ => rfl)).trans hdumps
  have hst' : ((s.adopting h epoch x).ctx x).st = .running := (hread Ctx.st x (fun _ => rfl) (fun _ _ _ _ => rfl)).trans hst
  have hpend := fun y => hread Ctx.pend y (fun _ => rfl) (fun _ _ _ _ => rfl)
  have hcommitted := fun y => hread Ctx.committed y (fun _ => rfl) (fun _ _ _ _ => rfl)
  have hmem := s.adopting_mem h epoch x
  have hbyte : ∀ q, (s.adopting h epoch x).byte q = s.byte q := fun q => by rw [State.byte, State.byte, hmem]
  have hwf' : Memory.wf (s.adopting h epoch x).mem = true := by rw [hmem]; exact hwf
  have e := commit_commits (launch := launch) hold hs hst hcom hstep
  generalize s.adopting h epoch x = v at hcalm hd hst' hpend hcommitted hbyte hwf' e
  obtain ⟨c, hself, hcp, hcst⟩ := State.committing_ctx_self (h := h) hcalm hd
  have hne := fun y (hy : y ≠ x) => State.committing_ctx_ne (h := h) hcalm hd hy
  have hb := State.committing_byte (h := h) hcalm hd
  have hconf : ((v.committing x h).ctx x).confirmed = false := by rw [hself]; rfl
  have hstv : ((v.committing x h).ctx x).st = .running := by rw [hself]; exact hcst.trans hst'
  have hnone : ((v.committing x h).ctx x).launch = none := by rw [hself]; rfl
  obtain ⟨only, hc, hheld, hgo⟩ := commit_follows (v.committing x h) x launch h.step hold _ rfl
  refine ⟨_, e, ((only _ (Foot.sub (by decide) (Foot.refl _))).ctx_committed_eq x).trans (by rw [hself]; rfl),
    ((only _ (Foot.sub (by decide) (Foot.refl _))).ctx_commitTick_eq x).trans (by rw [hself]; rfl),
    ((only _ (Foot.sub (by decide) (Foot.refl _))).ctx_step_eq x).trans (by rw [hself]; rfl),
    ((only _ (Foot.sub (by decide) (Foot.refl _))).ctx_attempt_eq x).trans (by rw [hself]; rfl),
    ((only _ (Foot.sub (by decide) (Foot.refl _))).ctx_pend_eq x).trans (by rw [hself]; exact hcp), hc hconf,
    fun hh _ => ⟨(hheld hh).1, (hheld hh).2.trans hnone⟩, fun hh => ⟨(hgo hh).1.trans hstv, (hgo hh).2⟩, fun y hy => ⟨?_, ?_⟩,
    fun q hout => ?_, fun d hp q hl hq => ?_⟩
  · rw [(only _ (Foot.sub (by decide) (Foot.refl _))).ctx_pend_eq, (hne y hy).1, hpend]
  · rw [(only _ (Foot.sub (by decide) (Foot.refl _))).ctx_committed_eq, (hne y hy).2, hcommitted]
  · rw [(only _ (Foot.sub (by decide) (Foot.refl _))).byte_eq, hb, State.commitSlots_outside hwf' (by rw [hpend]; exact hout), hbyte]
  · rw [(only _ (Foot.sub (by decide) (Foot.refl _))).byte_eq, hb, State.commitSlots_inside hwf' ((hpend x).trans hp) hl hq]

end Sys2Proof.Machine
end

section
/-!
Blocks copied to another module as BULK: what leaves, what is awaited, and what stays (12 R309, R310).
-/
namespace Sys2Proof.Machine

-- Proofs elaborated one after another keep the whole text within the memory its compile is given.
set_option Elab.async false

/-! ### One block -/

theorem blockSent.mono {s t u : State} {x dst step tid a c : Nat} {bs : List Byte} (h : blockSent s t x dst step tid a c bs)
    (k : t.out <:+ u.out) : blockSent s u x dst step tid a c bs := fun i hi => by
  obtain ⟨q, ack, hs⟩ := h i hi
  exact ⟨q, ack, hs.mono k⟩

theorem blockSent.before {s t u : State} {x dst step tid a c : Nat} {bs : List Byte} (h : blockSent t u x dst step tid a c bs)
    (k : s.out <:+ t.out) (hd : (t.ctx x).domain = (s.ctx x).domain) : blockSent s u x dst step tid a c bs := fun i hi => by
  obtain ⟨q, ack, hs⟩ := h i hi
  rw [hd] at hs
  exact ⟨q, ack, hs.before k⟩

/-- A loop sends what each of its rounds sends. -/
theorem forEach_sentBetween {α : Type} {f : State → α → State} {P : State → Prop} (hf : ∀ u a, u.out <:+ (f u a).out)
    (hP : ∀ u a, P u → P (f u a)) {l : List α} {a : α} (ha : a ∈ l) {s : State} (hs : P s) {e : Emit}
    (h : ∀ u, P u → sentBetween u (f u a) e) : sentBetween s (forEach l s f) e := by
  induction l generalizing s with
  | nil => cases ha
  | cons b l ih =>
    rcases List.mem_cons.1 ha with rfl | hl
    · exact (h s hs).mono (forEach_suffix hf l (f s a))
    · exact (ih hl (hP s b hs)).before (hf s b)

/-- One packet of a block. -/
def State.emitPart (x dst : Nat) (bulk : Bool) (tid a c : Nat) (bs : List Byte) (step attempt q : Nat) (ack : Bool) (s : State) (i : Nat) : State :=
  s.emit (.data dst (addrPart a) (s.ctx x).domain step (attempt % 16) ((q + i) % 2 ^ 32)
    { bulk, tensorId := tid, addr := a, check := c, part := i, ackReq := ack, payload := slice bs (1024 * i) 1024 })

theorem State.emit_suffix (s : State) (e : Emit) : s.out <:+ (s.emit e).out := ⟨[e], rfl⟩

theorem State.emit_ctr (s : State) (e : Emit) (k : Ctr) (i : Nat) : (s.emit e).ctr k i = s.ctr k i := rfl

/-- A block is sent as its four packets. -/
theorem State.sendBlock_eq (s : State) (x dst : Nat) (bulk : Bool) (tid a c : Nat) (bs : List Byte) (step attempt : Nat) (ack : Bool) :
    ∃ g : Fab → Fab, s.sendBlock x dst bulk tid a c bs step attempt ack = forEach (List.range 4) ((s.meter x dst (if bulk then 5 else 4)).updFab g)
      (State.emitPart x dst bulk tid a c bs step attempt s.fab.dataSeq ack) := ⟨_, rfl⟩

/-- What a block sent leaves of every context but its reasons. -/
theorem State.sendBlock_frame (s : State) (x dst : Nat) (bulk : Bool) (tid a c : Nat) (bs : List Byte) (step attempt : Nat) (ack : Bool) :
    ∀ ps, Foot 288230376181072960 ps → Only ps s (s.sendBlock x dst bulk tid a c bs step attempt ack) := fun ps hps =>
  State.sendBlock_only x dst bulk tid a c bs step attempt ack hps (Only.refl ps s)

theorem State.sendBlock_suffix (s : State) (x dst : Nat) (bulk : Bool) (tid a c : Nat) (bs : List Byte) (step attempt : Nat) (ack : Bool) :
    s.out <:+ (s.sendBlock x dst bulk tid a c bs step attempt ack).out :=
  (State.sendBlock_keeps (pw := false) x dst bulk tid a c bs step attempt ack (Keeps.refl false s)).sent

theorem State.sendBlock_sent (s : State) (x dst : Nat) (tid a c : Nat) (bs : List Byte) (step : Nat) (ack : Bool) :
    blockSent s (s.sendBlock x dst true tid a c bs step 0 ack) x dst step tid a c bs := fun i hi => by
  obtain ⟨g, e⟩ := s.sendBlock_eq x dst true tid a c bs step 0 ack
  have only : ∀ ps, Foot 288230376172684352 ps → Only ps s ((s.meter x dst (if true then 5 else 4)).updFab g) := fun ps hps =>
    State.updFab_only _ (Foot.sub (by decide) hps) (State.meter_only x dst _ (Foot.sub (by decide) hps) (Only.refl ps s))
  rw [e]
  generalize (s.meter x dst (if true then 5 else 4)).updFab g = u at only ⊢
  have hd : (u.ctx x).domain = (s.ctx x).domain :=
    congrArg (fun d => leAt d 4 2) ((only _ (Foot.sub (by decide) (Foot.refl _))).ctx_desc_eq x)
  have hout : u.out = s.out := (only _ (Foot.sub (by decide) (Foot.refl _))).out_eq
  refine ⟨(s.fab.dataSeq + i) % 2 ^ 32, ack, sentBetween.before (t := u) ?_ ⟨[], hout.symm⟩⟩
  refine forEach_sentBetween (P := fun v => (v.ctx x).domain = (s.ctx x).domain) (fun v j => v.emit_suffix _) (fun v j h => h)
    (List.mem_range.2 hi) hd (fun v hv => ?_)
  rw [← hv]
  exact v.emit_sent _

/-- A counter that no packet counts is as before. -/
theorem State.sendBlock_ctr (s : State) (x dst : Nat) (bulk : Bool) (tid a c : Nat) (bs : List Byte) (step attempt : Nat) (ack : Bool)
    {k : Ctr} {i : Nat} (hk : k ≠ .fabLimited) (hi : i < 2 ^ 24) : (s.sendBlock x dst bulk tid a c bs step attempt ack).ctr k i = s.ctr k i := by
  obtain ⟨g, e⟩ := s.sendBlock_eq x dst bulk tid a c bs step attempt ack
  have hu : ∀ v : State, (v.updFab g).ctr k i = v.ctr k i := fun _ => rfl
  rw [e, forEach_keeps_reading (fun v => v.ctr k i) (f := State.emitPart x dst bulk tid a c bs step attempt s.fab.dataSeq ack) (fun v j => v.emit_ctr _ k i)
    (List.range 4), hu]
  unfold State.meter
  split
  · rfl
  · extract_lets v h
    split
    · rfl
    · split
      · exact State.ctr_bump_ne _ 1 (by decide) hi (.inl hk)
      · rfl

/-! ### Blocks one after another -/

abbrev CopyBlock := Nat × Nat × Nat × Nat × List Byte

/-- One block of a copy: ACK_REQ on every 64th and on the last of `n`. -/
def State.copyStep (x dst step attempt n : Nat) (acc : State × List Nat) (e : CopyBlock × Nat) : State × List Nat :=
  ((if addrLevel e.1.2.2.1 = 0 then acc.1.geySlots (addrPart e.1.2.2.1) 1 else acc.1).sendBlock x dst true e.1.1 e.1.2.2.1 e.1.2.2.2.1 e.1.2.2.2.2
      step attempt ((e.2 + 1) % 64 == 0 || e.2 + 1 == n),
    if (e.2 + 1) % 64 == 0 || e.2 + 1 == n then acc.2 ++ [acc.1.fab.dataSeq] else acc.2)

theorem State.sendCopy_eq (s : State) (x dst step attempt : Nat) (l : List CopyBlock) :
    s.sendCopy x dst step attempt l = l.zipIdx.foldl (State.copyStep x dst step attempt l.length) (s, []) := rfl

/-- The slots counted before a block of HBM change nothing of what the copy relies on. -/
theorem State.copySlots_fields (s : State) (a : Nat) : ∃ m, (if addrLevel a = 0 then s.geySlots (addrPart a) 1 else s) = { s with ctrs := m } := by
  split
  · exact ⟨_, rfl⟩
  · exact ⟨s.ctrs, rfl⟩

theorem State.copyStep_sends (x dst step n : Nat) (acc : State × List Nat) (e : CopyBlock × Nat) :
    acc.1.out <:+ (State.copyStep x dst step 0 n acc e).1.out ∧
    ((State.copyStep x dst step 0 n acc e).1.ctx x).domain = (acc.1.ctx x).domain ∧
    blockSent acc.1 (State.copyStep x dst step 0 n acc e).1 x dst step e.1.1 e.1.2.2.1 e.1.2.2.2.1 e.1.2.2.2.2 := by
  obtain ⟨m, hm⟩ := acc.1.copySlots_fields e.1.2.2.1
  unfold State.copyStep
  dsimp only
  rw [hm]
  refine ⟨State.sendBlock_suffix { acc.1 with ctrs := m } .., ?_, ?_⟩
  · exact congrArg (fun d => leAt d 4 2) ((State.sendBlock_frame { acc.1 with ctrs := m } x dst true _ _ _ _ _ _ _ _
      (Foot.sub (by decide) (Foot.refl _))).ctx_desc_eq x)
  · exact blockSent.before (State.sendBlock_sent { acc.1 with ctrs := m } x dst _ _ _ _ step _) List.suffix_rfl rfl

theorem copySteps_send (x dst step n : Nat) (l : List (CopyBlock × Nat)) (acc : State × List Nat) :
    acc.1.out <:+ (l.foldl (State.copyStep x dst step 0 n) acc).1.out ∧
    ((l.foldl (State.copyStep x dst step 0 n) acc).1.ctx x).domain = (acc.1.ctx x).domain ∧
    ∀ e ∈ l, blockSent acc.1 (l.foldl (State.copyStep x dst step 0 n) acc).1 x dst step e.1.1 e.1.2.2.1 e.1.2.2.2.1 e.1.2.2.2.2 := by
  induction l generalizing acc with
  | nil => exact ⟨List.suffix_rfl, rfl, fun e he => absurd he List.not_mem_nil⟩
  | cons b l ih =>
    obtain ⟨hout, hd, hb⟩ := State.copyStep_sends x dst step n acc b
    obtain ⟨hout', hd', hl⟩ := ih (State.copyStep x dst step 0 n acc b)
    refine ⟨hout.trans hout', hd'.trans hd, fun e he => ?_⟩
    rcases List.mem_cons.1 he with rfl | he
    · exact hb.mono hout'
    · exact (hl e he).before hout hd

/-- Every block of a copy leaves. -/
theorem State.sendCopy_sent (s : State) (x dst step : Nat) (l : List CopyBlock) {b : CopyBlock} (hb : b ∈ l) :
    blockSent s (s.sendCopy x dst step 0 l).1 x dst step b.1 b.2.2.1 b.2.2.2.1 b.2.2.2.2 := by
  obtain ⟨i, hi, rfl⟩ := List.mem_iff_getElem.1 hb
  rw [State.sendCopy_eq]
  exact (copySteps_send x dst step l.length l.zipIdx (s, [])).2.2 (l[i], i) (List.mk_mem_zipIdx_iff_getElem?.2 (List.getElem?_eq_getElem hi))

theorem State.sendCopy_suffix (s : State) (x dst step attempt : Nat) (l : List CopyBlock) : s.out <:+ (s.sendCopy x dst step attempt l).1.out :=
  (State.sendCopy_keeps (pw := false) x dst step attempt l (Keeps.refl false s)).sent

theorem State.sendCopy_frame (s : State) (x dst step attempt : Nat) (l : List CopyBlock) :
    ∀ ps, Foot 288230376181072960 ps → Only ps s (s.sendCopy x dst step attempt l).1 := fun ps hps =>
  State.sendCopy_only x dst step attempt l hps (Only.refl ps s)

theorem copySteps_acks (x dst step attempt n : Nat) (l : List (CopyBlock × Nat)) (acc : State × List Nat)
    (h : acc.2 ≠ [] ∨ ∃ e ∈ l, e.2 + 1 = n) : (l.foldl (State.copyStep x dst step attempt n) acc).2 ≠ [] := by
  induction l generalizing acc with
  | nil => exact h.resolve_right (fun ⟨e, he, _⟩ => absurd he List.not_mem_nil)
  | cons b l ih =>
    refine ih _ ?_
    rcases h with h | ⟨e, he, hn⟩
    · refine .inl ?_
      unfold State.copyStep
      dsimp only
      split
      · exact List.append_ne_nil_of_right_ne_nil _ (List.cons_ne_nil _ _)
      · exact h
    · rcases List.mem_cons.1 he with rfl | he
      · refine .inl ?_
        have hlast : ((e.2 + 1) % 64 == 0 || e.2 + 1 == n) = true := by rw [hn, beq_self_eq_true, Bool.or_true]
        unfold State.copyStep
        dsimp only
        rw [if_pos hlast]
        exact List.append_ne_nil_of_right_ne_nil _ (List.cons_ne_nil _ _)
      · exact .inr ⟨e, he, hn⟩

/-- A copy awaits an acknowledgement exactly when it holds a block. -/
theorem State.sendCopy_acks (s : State) (x dst step attempt : Nat) (l : List CopyBlock) :
    (s.sendCopy x dst step attempt l).2.isEmpty = l.isEmpty := by
  cases l with
  | nil => rfl
  | cons b l =>
    have hlen : (b :: l).length - 1 < (b :: l).length := Nat.sub_lt (Nat.succ_pos _) Nat.one_pos
    have hne := copySteps_acks x dst step attempt (b :: l).length (b :: l).zipIdx (s, [])
      (.inr ⟨((b :: l)[(b :: l).length - 1], (b :: l).length - 1), List.mk_mem_zipIdx_iff_getElem?.2 (List.getElem?_eq_getElem hlen),
        Nat.sub_add_cancel (Nat.succ_pos _)⟩)
    rw [State.sendCopy_eq]
    exact List.isEmpty_eq_false_iff.2 hne

theorem addrPart_lt (a : Nat) : addrPart a < 16 := by
  unfold addrPart bitsOf
  split <;> omega

/-- A counter that no copy counts is as before. -/
theorem State.sendCopy_ctr (s : State) (x dst step attempt : Nat) (l : List CopyBlock) {k : Ctr} {i : Nat} (hk : k ≠ .fabLimited)
    (hg : k ≠ .hbmGeySlots) (hi : i < 2 ^ 24) : (s.sendCopy x dst step attempt l).1.ctr k i = s.ctr k i := by
  have hstep : ∀ (n : Nat) (acc : State × List Nat) e, (State.copyStep x dst step attempt n acc e).1.ctr k i = acc.1.ctr k i := fun n acc e => by
    unfold State.copyStep
    dsimp only
    rw [State.sendBlock_ctr _ _ _ _ _ _ _ _ _ _ _ hk hi]
    split
    · exact State.ctr_bump_ne _ _ (Nat.lt_trans (addrPart_lt _) (by decide)) hi (.inl hg)
    · rfl
  have hall : ∀ (n : Nat) (m : List (CopyBlock × Nat)) (acc : State × List Nat),
      (m.foldl (State.copyStep x dst step attempt n) acc).1.ctr k i = acc.1.ctr k i := fun n m => by
    induction m with
    | nil => exact fun _ => rfl
    | cons e m ih => exact fun acc => (ih _).trans (hstep n acc e)
  exact hall l.length l.zipIdx (s, [])

/-! ### The seed of a buddy -/

/-- The committed content of the protected blocks is read of memory, the program and the committed images alone. -/
theorem State.protectedBlocks_congr {s t : State} {x : Nat} (keep : Nat → Bool) (hm : t.mem = s.mem) (hp : (t.ctx x).prog = (s.ctx x).prog)
    (hg : (t.ctx x).gey.imgCommitted = (s.ctx x).gey.imgCommitted) : t.protectedBlocks x keep = s.protectedBlocks x keep := by
  have hc : ∀ a, t.checkAt a = s.checkAt a := fun a => by rw [State.checkAt, State.checkAt, hm]
  have hb : ∀ a, t.readBytes a 4096 = s.readBytes a 4096 := fun a => by simp only [State.readBytes, State.byte, hm]
  simp only [State.protectedBlocks, Ctx.persistent, Ctx.imageKeys, Ctx.image, hp, hg, hc, hb]

/-- A seed sends every block named, and is valid at once where there is none. -/
theorem State.seed_seeds (s : State) (x : Nat) (keep : Nat → Bool) :
    ((s.seed x keep).ctx x).gey.buddyValid = (s.protectedBlocks x keep).isEmpty ∧
    (∀ b ∈ s.protectedBlocks x keep, blockSent s (s.seed x keep) x (s.ctx x).gey.buddy (s.ctx x).lastStep b.1 b.2.2.1 b.2.2.2.1 b.2.2.2.2) ∧
    ((s.seed x keep).ctx x).gey.bound = (s.ctx x).gey.bound ∧ ((s.seed x keep).ctx x).gey.bindSince = (s.ctx x).gey.bindSince ∧
    (s.seed x keep).mem = s.mem ∧ s.out <:+ (s.seed x keep).out ∧
    ∀ k i, k ≠ .fabLimited → k ≠ .hbmGeySlots → i < 2 ^ 24 → (s.seed x keep).ctr k i = s.ctr k i := by
  have hsent := fun b hb => s.sendCopy_sent x (s.ctx x).gey.buddy (s.ctx x).lastStep (s.protectedBlocks x keep) (b := b) hb
  have hacks := s.sendCopy_acks x (s.ctx x).gey.buddy (s.ctx x).lastStep 0 (s.protectedBlocks x keep)
  have hframe := s.sendCopy_frame x (s.ctx x).gey.buddy (s.ctx x).lastStep 0 (s.protectedBlocks x keep)
  have hout := s.sendCopy_suffix x (s.ctx x).gey.buddy (s.ctx x).lastStep 0 (s.protectedBlocks x keep)
  have hctr := fun k i (hk : k ≠ .fabLimited) hg hi => s.sendCopy_ctr x (s.ctx x).gey.buddy (s.ctx x).lastStep 0 (s.protectedBlocks x keep)
    (k := k) (i := i) hk hg hi
  unfold State.seed
  dsimp only
  generalize s.sendCopy x (s.ctx x).gey.buddy (s.ctx x).lastStep 0 (s.protectedBlocks x keep) = r at hsent hacks hframe hout hctr ⊢
  have hgey := (hframe _ (Foot.sub (by decide) (Foot.refl _))).ctx_gey_eq x
  refine ⟨?_, fun b hb => (hsent b hb).mono List.suffix_rfl, ?_, ?_, (hframe _ (Foot.sub (by decide) (Foot.refl _))).mem_eq, hout, hctr⟩
  · rw [State.ctx_updGey_self]
    exact hacks
  · rw [State.ctx_updGey_self, hgey]
  · rw [State.ctx_updGey_self, hgey]

end Sys2Proof.Machine
end

section
/-!
Binding and seeding the buddy's copy (12 R309).
-/
namespace Sys2Proof.Machine

-- Proofs elaborated one after another keep the whole text within the memory its compile is given.
set_option Elab.async false

theorem State.atEffect_jobById (s : State) (h : Hdr) (j : Nat) : (s.atEffect h).jobById j = s.jobById j := by
  have hid : ∀ x, ((s.atEffect h).ctx x).jobId = (s.ctx x).jobId := fun x => congrArg (fun d => leAt d 0 4) (s.atEffect_ctx_desc h x)
  simp only [State.jobById, State.atEffect_liveCtxs, State.atEffect_ctx_st, hid]

theorem State.atEffect_suffix (s : State) (h : Hdr) : s.out <:+ (s.atEffect h).out := by
  rw [State.atEffect_out]
  exact ⟨[ackOfMsg h], rfl⟩

/-! ### GEY_BIND at the module named -/

/-- A bind that no other partner's copy stands against is accepted. -/
theorem geyBind_accepts {s : State} {h : Hdr} {j x : Nat} (ht : s.takes h = true) (hj : s.jobById j = some x) (hsrc : h.src ≠ s.locus)
    (hp : (s.ctx x).gey.partner = none) : execGeyBind h j s = .next (((s.atEffect h).updGey x (fun g =>
      { g with partner := some { locus := h.src, committed := [], pending := [], seeded := false, withheld := [] } })).sendCtrl h.src 0x41 0 0
        (b2n true + field j 32 32)) := by
  have hp' : ((s.atEffect h).ctx x).gey.partner = none := by rw [s.atEffect_ctx_gey, hp]
  unfold execGeyBind
  rw [State.ctrlIn_takes _ _ ht]
  unfold effGeyBind
  extract_lets other answer
  rw [s.atEffect_jobById, hj]
  dsimp only
  rw [if_neg (fun h => h.elim (fun h => hsrc (h.trans (s.atEffect_locus _))) (fun h => by simp [other, hp] at h)), hp']
  rfl

/-- A bind against another partner's copy is refused. -/
theorem geyBind_refuses {s : State} {h : Hdr} {j x : Nat} {p : Partner} (ht : s.takes h = true) (hj : s.jobById j = some x)
    (hp : (s.ctx x).gey.partner = some p) (hne : p.locus ≠ h.src) :
    execGeyBind h j s = .next ((s.atEffect h).sendCtrl h.src 0x41 0 0 (b2n false + field j 32 32)) := by
  have hp' : ((s.atEffect h).ctx x).gey.partner = some p := by rw [s.atEffect_ctx_gey, hp]
  unfold execGeyBind
  rw [State.ctrlIn_takes _ _ ht]
  unfold effGeyBind
  extract_lets other answer
  rw [s.atEffect_jobById, hj]
  dsimp only
  rw [if_pos (.inr (by simp [other, hp, hne]))]

/-! ### The reply -/

/-- An accepted bind is followed by the seed. -/
theorem geyBindReply_seeds {s : State} {h : Hdr} {j x : Nat} (ht : s.takes h = true) (hj : s.jobById j = some x)
    (hb : (s.ctx x).gey.bound = false) (hbuddy : (s.ctx x).gey.buddy = h.src) : execGeyBindReply h true j s =
      .next (((s.atEffect h).updGey x (fun g => { g with bound := true, bindSince := none })).seed x (fun _ => true)) := by
  have hgo : ¬(!true || ((s.atEffect h).ctx x).gey.bound || ((s.atEffect h).ctx x).gey.buddy != h.src) = true := by
    rw [s.atEffect_ctx_gey, hb, hbuddy]
    simp
  unfold execGeyBindReply
  rw [State.ctrlIn_takes _ _ ht]
  unfold effGeyBindReply
  rw [s.atEffect_jobById, hj]
  exact congrArg Host.Outcome.next (if_neg hgo)

/-- A refused bind changes nothing. -/
theorem geyBindReply_refused {s : State} {h : Hdr} {j : Nat} (ht : s.takes h = true) :
    execGeyBindReply h false j s = .next (s.atEffect h) := by
  unfold execGeyBindReply
  rw [State.ctrlIn_takes _ _ ht]
  unfold effGeyBindReply
  split
  · rfl
  · exact congrArg Host.Outcome.next (if_pos rfl)

/-- What the seed finds after an accepted bind. -/
theorem State.bound_reads (s : State) (h : Hdr) (x : Nat) {u : State}
    (hu : u = (s.atEffect h).updGey x (fun g => { g with bound := true, bindSince := none })) :
    u.protectedBlocks x (fun _ => true) = s.protectedBlocks x (fun _ => true) ∧ (u.ctx x).gey.buddy = (s.ctx x).gey.buddy ∧
    (u.ctx x).lastStep = (s.ctx x).lastStep ∧ (u.ctx x).domain = (s.ctx x).domain ∧ (u.ctx x).gey.bound = true ∧ (u.ctx x).gey.bindSince = none ∧
    s.out <:+ u.out ∧ u.mem = s.mem := by
  have hctx : u.ctx x = { (s.atEffect h).ctx x with gey := { (s.ctx x).gey with bound := true, bindSince := none } } := by
    rw [hu, State.ctx_updGey_self, s.atEffect_ctx_gey]
  have hmem : u.mem = s.mem := by
    rw [hu]
    exact s.atEffect_mem h
  have hout : s.out <:+ u.out := by
    rw [hu]
    exact s.atEffect_suffix h
  have hdesc : (u.ctx x).desc = (s.ctx x).desc := by
    rw [hctx]
    exact s.atEffect_ctx_desc h x
  have hcom : (u.ctx x).committed = (s.ctx x).committed := by
    rw [hctx]
    exact s.atEffect_ctx_committed h x
  have hgey : (u.ctx x).gey = { (s.ctx x).gey with bound := true, bindSince := none } := by rw [hctx]
  have hprog : (u.ctx x).prog = (s.ctx x).prog := by
    rw [hctx]
    exact s.atEffect_ctx_prog h x
  refine ⟨State.protectedBlocks_congr _ hmem hprog (by rw [hgey]), by rw [hgey], ?_, congrArg (fun d => leAt d 4 2) hdesc, by rw [hgey],
    by rw [hgey], hout, hmem⟩
  simp only [Ctx.lastStep, Ctx.firstStep, hcom, hdesc]

/-! ### The bind repeated -/

/-- A bind not accepted is repeated, and noted after its time. -/
theorem geyBind_waits {s : State} {x : Nat} (hst : (s.ctx x).st ≠ .empty) (hb : (s.ctx x).gey.bound = false)
    (hsince : (s.ctx x).gey.bindSince ≠ none) (hbuddy : (s.ctx x).gey.buddy ≠ s.locus) :
    execGeyBindRetry x s = .next (s.sendCtrl (s.ctx x).gey.buddy 0x40 0 0 (field (s.ctx x).jobId 32 32)) ∧
    execGeyBindTimeout x s = .next (s.setEvt .geyStatus 0 28) := by
  have hgo : ¬((s.ctx x).st = .empty ∨ (s.ctx x).gey.bound = true ∨ (s.ctx x).gey.bindSince.isNone = true ∨ (s.ctx x).gey.buddy = s.locus) := by
    simp [hst, hb, hsince, hbuddy]
  have hbind : s.bind x = s.sendCtrl (s.ctx x).gey.buddy 0x40 0 0 (field (s.ctx x).jobId 32 32) := if_neg hbuddy
  exact ⟨congrArg Host.Outcome.next ((if_neg hgo).trans hbind), congrArg Host.Outcome.next (if_neg hgo)⟩

/-- Settles O43, message by message. -/
theorem bindsAndSeedsComplete : Obligations.BindsAndSeedsComplete := by
  unfold Obligations.BindsAndSeedsComplete
  refine ⟨?accepts, ?refuses, ?seeds, ?refused, ?waits, ?bound⟩
  case accepts =>
    intro s h j x ht hj hsrc hp
    refine ⟨_, geyBind_accepts ht hj hsrc hp, ?_, ?_, ?_⟩
    · rw [State.ctx_of_sendCtrl, State.ctx_updGey_self]
    · exact (State.sendCtrl_sent _ _ _ _ _ _ _).before (s.atEffect_suffix h)
    · rw [State.sendCtrl_mem]
      exact s.atEffect_mem h
  case refuses =>
    intro s h j x p ht hj hp hne
    refine ⟨_, geyBind_refuses ht hj hp hne, fun y => ?_, ?_, ?_⟩
    · rw [State.ctx_of_sendCtrl, s.atEffect_ctx_gey]
    · exact (State.sendCtrl_sent _ _ _ _ _ _ _).before (s.atEffect_suffix h)
    · rw [State.sendCtrl_mem, s.atEffect_mem]
  case seeds =>
    intro s h j x ht hj hb hbuddy
    have e := geyBindReply_seeds ht hj hb hbuddy
    obtain ⟨hblocks, hbud, hstep, hdom, hbound, hsince, hout, hmem⟩ := s.bound_reads h x rfl
    generalize (s.atEffect h).updGey x (fun g => { g with bound := true, bindSince := none }) = u at e hblocks hbud hstep hdom hbound hsince hout hmem
    obtain ⟨hvalid, hsent, hkeepb, hkeeps, hkeepm, -, -⟩ := u.seed_seeds x (fun _ => true)
    rw [hblocks, hbud, hbuddy, hstep] at hsent
    rw [hblocks] at hvalid
    exact ⟨_, e, hkeepb.trans hbound, hkeeps.trans hsince, hvalid, fun b hbl => (hsent b hbl).before hout hdom, hkeepm.trans hmem⟩
  case refused =>
    intro s h j ht
    exact ⟨_, geyBindReply_refused ht, fun y => s.atEffect_ctx_gey h y, s.atEffect_mem h⟩
  case waits =>
    intro s x hst hb hsince hbuddy
    obtain ⟨hretry, htimeout⟩ := geyBind_waits hst hb hsince hbuddy
    refine ⟨⟨_, hretry, State.sendCtrl_sent _ _ _ _ _ _ _, State.sendCtrl_ctxs _ _ _ _ _ _ _⟩, _, htimeout, s.setEvt_bit .geyStatus 0 28, ?_, ?_⟩
    · exact (State.setEvt_only .geyStatus 0 28 (Foot.sub (by decide) (Foot.refl _)) (Only.refl _ s)).ctxs_eq
    · exact (State.setEvt_only .geyStatus 0 28 (Foot.sub (by decide) (Foot.refl _)) (Only.refl _ s)).out_eq
  case bound =>
    intro s x hb
    exact ⟨congrArg Host.Outcome.next (if_pos (.inr (.inl hb))), congrArg Host.Outcome.next (if_pos (.inr (.inl hb)))⟩

end Sys2Proof.Machine
end

section
/-!
Spares kept, copies taken over, reseeded and fetched (11 R280, 12 R312 to R316).
-/
namespace Sys2Proof.Machine

-- Proofs elaborated one after another keep the whole text within the memory its compile is given.
set_option Elab.async false

/-! ### Counters through a message -/

theorem State.updCtx_ctr (s : State) (x : Nat) (f : Ctx → Ctx) (k : Ctr) (i : Nat) : (s.updCtx x f).ctr k i = s.ctr k i := rfl

theorem State.markLate_ctr (s : State) {k : Ctr} {i : Nat} (hk : k ≠ .detLateRelease) (hi : i < 2 ^ 24) : s.markLate.ctr k i = s.ctr k i := by
  unfold State.markLate
  rw [forEach_keeps_reading (fun v => v.ctr k i) (fun v x => v.updCtx_ctr x _ k i)]
  exact State.ctr_bump_ne _ 1 (by decide) hi (.inl hk)

/-- A counter that no arrival counts is as before a message. -/
theorem State.atEffect_ctr (s : State) (h : Hdr) {k : Ctr} {i : Nat} (hk : k ≠ .detLateRelease) (hi : i < 2 ^ 24) :
    (s.atEffect h).ctr k i = s.ctr k i := by
  obtain ⟨m, f, e⟩ := s.arrival_fields h
  unfold State.atEffect State.when
  dsimp only
  rw [e]
  split
  · exact State.markLate_ctr _ hk hi
  · rfl

theorem State.adopting_ctr (s : State) (h : Hdr) (e x : Nat) {k : Ctr} {i : Nat} (hk : k ≠ .detLateRelease) (hi : i < 2 ^ 24) :
    (s.adopting h e x).ctr k i = s.ctr k i := by
  obtain ⟨c, p, eq⟩ := s.adopting_fields h e x
  rw [eq]
  exact s.atEffect_ctr h hk hi

/-! ### Taking a copy over -/

theorem Ctx.copyBlocks_congr {c d : Ctx} (m : KMap PBlock) (h : c.prog = d.prog) : c.copyBlocks m = d.copyBlocks m := by
  simp only [Ctx.copyBlocks, Ctx.tensor, h]

/-- The holder's state once a copy has gone to the spare. -/
def State.taken (s : State) (x lost spare step : Nat) (p : Partner) (blocks : List CopyBlock) : State :=
  let u := s.updGey x (fun g => { g with partner := some { p with locus := spare, pending := [] } })
  let r := u.sendCopy x spare step 0 blocks
  (r.1.updGey x (fun g => { g with takeSend := if r.2.isEmpty then none else some (lost, spare), takeAcks := r.2 })).bump .geyTakeover 0

theorem geyTake_takes {s : State} {h : Hdr} {lost spare epoch x : Nat} {p : Partner} (hs : s.serves h epoch x)
    (hp : (s.ctx x).gey.partner = some p) (hl : p.locus = lost) : execGeyTake h lost spare epoch s =
      .next ((s.adopting h epoch x).taken x lost spare h.step p ((s.ctx x).copyBlocks p.committed)) := by
  have hp' : ((s.adopting h epoch x).ctx x).gey.partner = some p := by
    rw [s.adopting_reads h epoch x x Ctx.gey (fun _ => rfl) (fun _ _ _ _ => rfl), hp]
  have hc := Ctx.copyBlocks_congr p.committed (s.adopting_reads h epoch x x Ctx.prog (fun _ => rfl) (fun _ _ _ _ => rfl))
  have e : execGeyTake h lost spare epoch s = .next (effGeyTake h lost spare epoch (s.atEffect h)) :=
    congrArg Host.Outcome.next (State.ctrlIn_takes _ _ hs.1)
  rw [e, effGeyTake, State.onJob_serves hs, ← hc]
  dsimp only
  rw [hp']
  exact congrArg Host.Outcome.next (if_neg (fun h => h.1 hl))

/-- What a copy taken over leaves and sends. -/
theorem State.taken_sends (s : State) (x lost spare step : Nat) (p : Partner) (blocks : List CopyBlock) :
    ((s.taken x lost spare step p blocks).ctx x).gey.partner = some { p with locus := spare, pending := [] } ∧
    ((s.taken x lost spare step p blocks).ctx x).gey.takeSend = (if blocks.isEmpty then none else some (lost, spare)) ∧
    (s.taken x lost spare step p blocks).ctr .geyTakeover 0 = satAdd 16 (s.ctr .geyTakeover 0) 1 ∧
    (∀ b ∈ blocks, blockSent s (s.taken x lost spare step p blocks) x spare step b.1 b.2.2.1 b.2.2.2.1 b.2.2.2.2) ∧
    (s.taken x lost spare step p blocks).mem = s.mem := by
  unfold State.taken
  extract_lets u r
  have hself : (u.ctx x).gey.partner = some { p with locus := spare, pending := [] } := by
    unfold u
    rw [State.ctx_updGey_self]
  have hdom : (u.ctx x).domain = (s.ctx x).domain := by
    unfold u
    rw [State.ctx_updGey_self]
    rfl
  have hu : s.out <:+ u.out ∧ u.mem = s.mem ∧ u.ctr .geyTakeover 0 = s.ctr .geyTakeover 0 := ⟨List.suffix_rfl, rfl, rfl⟩
  clear_value u
  have hsent := fun b hb => u.sendCopy_sent x spare step blocks (b := b) hb
  have hacks := u.sendCopy_acks x spare step 0 blocks
  have hframe := u.sendCopy_frame x spare step 0 blocks
  have hctr := u.sendCopy_ctr x spare step 0 blocks (k := .geyTakeover) (i := 0) (by decide) (by decide) (by decide)
  change r.2.isEmpty = blocks.isEmpty at hacks
  change r.1.ctr .geyTakeover 0 = _ at hctr
  change ∀ ps, Foot _ ps → Only ps u r.1 at hframe
  change ∀ b, b ∈ blocks → blockSent u r.1 x spare step b.1 b.2.2.1 b.2.2.2.1 b.2.2.2.2 at hsent
  clear_value r
  refine ⟨?_, ?_, ?_, fun b hb => ((hsent b hb).before hu.1 hdom).mono List.suffix_rfl,
    (hframe _ (Foot.sub (by decide) (Foot.refl _))).mem_eq.trans hu.2.1⟩
  · rw [State.ctx_of_bump, State.ctx_updGey_self, (hframe _ (Foot.sub (by decide) (Foot.refl _))).ctx_gey_eq]
    exact hself
  · rw [State.ctx_of_bump, State.ctx_updGey_self, hacks]
  · rw [State.ctr_bump_self, ← hu.2.2, ← hctr]
    rfl

theorem Ctx.copyBlocks_isEmpty (c : Ctx) (m : KMap PBlock) : (c.copyBlocks m).isEmpty = m.isEmpty := by
  cases m <;> rfl

/-! ### The copy is whole -/

/-- A context whose copy is whole. -/
def Ctx.copied (c : Ctx) (sum : Nat) : Ctx :=
  { c with stateSum := sum, gey := { c.gey with
      buddy := c.gey.takingFrom.getD c.gey.buddy, bound := true, buddyValid := true, takeStart := none, takingFrom := none, bindSince := none } }

/-- The near stores reloaded from a whole copy, and a copy that took long noted. -/
def State.copyIn (s : State) (x t0 : Nat) : State :=
  let u := (s.reloadImages x).bump .geyTakeover 0
  if 8000000000 < u.time.loc - t0 then u.setEvt .geyStatus 0 25 else u

theorem State.copyIn_kept (s : State) (x t0 : Nat) : (∀ y, (s.copyIn x t0).ctx y = s.ctx y) ∧ (s.copyIn x t0).out = s.out ∧
    (8000000000 < s.time.loc - t0 → ((s.copyIn x t0).evBits .geyStatus 0).testBit 25 = true) := by
  have only : ∀ ps, Foot (256 ||| 4194304) ps → Only ps s ((s.reloadImages x).bump .geyTakeover 0) := fun ps hps =>
    State.bump_only _ _ _ (Foot.sub (by decide) hps) (State.reloadImages_only x (Foot.sub (by decide) hps) (Only.refl ps s))
  unfold State.copyIn
  generalize (s.reloadImages x).bump .geyTakeover 0 = u at only ⊢
  have onlyW : ∀ ps, Foot (256 ||| 4194304 ||| 6422544) ps → Only ps s (if 8000000000 < u.time.loc - t0 then u.setEvt .geyStatus 0 25 else u) :=
    fun ps hps => Only.ite (fun _ => State.setEvt_only _ _ _ (Foot.sub (by decide) hps) (only ps (Foot.sub (by decide) hps)))
      (fun _ => only ps (Foot.sub (by decide) hps))
  refine ⟨(onlyW _ (Foot.sub (by decide) (Foot.refl _))).ctx_eq, (onlyW _ (Foot.sub (by decide) (Foot.refl _))).out_eq, fun h => ?_⟩
  dsimp only
  rw [(only _ (Foot.sub (by decide) (Foot.refl _))).time_eq, if_pos h]
  exact u.setEvt_bit .geyStatus 0 25

/-- The copy is whole: the coordinator is told, and a copy that took long is noted. -/
theorem takeCopyComplete_tells {s : State} {x t0 : Nat} (ht : (s.ctx x).gey.takeStart = some t0) : ∃ sum, execTakeCopyComplete x s =
      .next (((s.copyIn x t0).updCtx x (fun c => c.copied sum)).sendCtrl (s.ctx x).coordLocus 0x44 (s.ctx x).lastStep 0 (field sum 64 64)) := by
  have hctx := (s.copyIn_kept x t0).1 x
  have e : execTakeCopyComplete x s = .next (((s.copyIn x t0).updCtx x (fun c => c.copied ((s.copyIn x t0).stateSum x))).sendCtrl
      (((s.copyIn x t0).updCtx x (fun c => c.copied ((s.copyIn x t0).stateSum x))).ctx x).coordLocus 0x44
      (((s.copyIn x t0).updCtx x (fun c => c.copied ((s.copyIn x t0).stateSum x))).ctx x).lastStep 0 (field ((s.copyIn x t0).stateSum x) 64 64)) := by
    unfold execTakeCopyComplete
    rw [ht]
    rfl
  refine ⟨(s.copyIn x t0).stateSum x, ?_⟩
  rw [e, State.ctx_updCtx_self, hctx]
  rfl

/-! ### Reseeds and fetches -/

/-- A reseed seeds the partitions named again. -/
theorem geyReseed_seeds {s : State} {h : Hdr} {x : Nat} (mask : Nat) (ht : s.takes h = true) (hlive : s.liveCtxs = [x])
    (hbuddy : (s.ctx x).gey.buddy = h.src) (hst : 3 ≤ (s.ctx x).st.code) :
    execGeyReseed h mask s = .next (((s.atEffect h).bump .geyReseed 0).seed x (fun p => mask.testBit p)) ∧
    ((s.atEffect h).bump .geyReseed 0).ctr .geyReseed 0 = satAdd 16 (s.ctr .geyReseed 0) 1 ∧
    ((s.atEffect h).bump .geyReseed 0).protectedBlocks x (fun p => mask.testBit p) = s.protectedBlocks x (fun p => mask.testBit p) ∧
    (((s.atEffect h).bump .geyReseed 0).ctx x).gey.buddy = h.src ∧
    (((s.atEffect h).bump .geyReseed 0).ctx x).lastStep = (s.ctx x).lastStep ∧
    (((s.atEffect h).bump .geyReseed 0).ctx x).domain = (s.ctx x).domain ∧
    s.out <:+ ((s.atEffect h).bump .geyReseed 0).out ∧ ((s.atEffect h).bump .geyReseed 0).mem = s.mem := by
  have hfind : (s.atEffect h).liveCtxs.find? (fun x => ((s.atEffect h).ctx x).gey.buddy == h.src && decide (3 ≤ ((s.atEffect h).ctx x).st.code)) =
      some x := by
    simp only [s.atEffect_liveCtxs, hlive, s.atEffect_ctx_gey, s.atEffect_ctx_st, List.find?_singleton]
    simp [hbuddy, hst]
  have e : execGeyReseed h mask s = .next (effGeyReseed h mask (s.atEffect h)) := congrArg Host.Outcome.next (State.ctrlIn_takes _ _ ht)
  refine ⟨?_, ?_, ?_, ?_, ?_, ?_, s.atEffect_suffix h, s.atEffect_mem h⟩
  · rw [e, effGeyReseed, hfind]
  · rw [State.ctr_bump_self, s.atEffect_ctr h (by decide) (by decide)]
    rfl
  · refine State.protectedBlocks_congr _ (s.atEffect_mem h) (s.atEffect_ctx_prog h x) ?_
    rw [State.ctx_of_bump, s.atEffect_ctx_gey]
  · rw [State.ctx_of_bump, s.atEffect_ctx_gey, hbuddy]
  · rw [State.ctx_of_bump]
    exact sans_eq Ctx.lastStep (fun _ => rfl) (s.atEffect_ctx h x)
  · rw [State.ctx_of_bump]
    exact sans_eq Ctx.domain (fun _ => rfl) (s.atEffect_ctx h x)

/-- The block of a partner's copy held for a module. -/
def State.heldFor (s : State) (x src key : Nat) : Option PBlock := match (s.ctx x).gey.partner with
    | some p => if p.locus = src then KMap.find p.committed key else none
    | none => none

/-- A fetch of a block held is answered with it. -/
theorem geyFetch_answers {s : State} {h : Hdr} {tensorId block x : Nat} {p : Partner} {b : PBlock} (ht : s.takes h = true)
    (hlive : s.liveCtxs = [x]) (hp : (s.ctx x).gey.partner = some p) (hl : p.locus = h.src)
    (hb : KMap.find p.committed (blockKey tensorId block) = some b) : execGeyFetch h tensorId block s =
      .next ((s.atEffect h).sendCopy x h.src h.step 0 ((s.ctx x).copyBlocks [(blockKey tensorId block, b)])).1 := by
  have hheld : (s.atEffect h).heldFor x h.src (blockKey tensorId block) = some b := by
    unfold State.heldFor
    rw [s.atEffect_ctx_gey, hp]
    exact (if_pos hl).trans hb
  have hfind : (s.atEffect h).liveCtxs.find? (fun x => ((s.atEffect h).heldFor x h.src (blockKey tensorId block)).isSome) = some x := by
    rw [s.atEffect_liveCtxs, hlive, List.find?_singleton, hheld]
    rfl
  have e : execGeyFetch h tensorId block s = .next (effGeyFetch h tensorId block (s.atEffect h)) :=
    congrArg Host.Outcome.next (State.ctrlIn_takes _ _ ht)
  have hc := Ctx.copyBlocks_congr [(blockKey tensorId block, b)] (s.atEffect_ctx_prog h x)
  refine e.trans (congrArg Host.Outcome.next ?_)
  rw [← hc]
  change (match (s.atEffect h).liveCtxs.find? (fun x => ((s.atEffect h).heldFor x h.src (blockKey tensorId block)).isSome) with
      | none => s.atEffect h
      | some x => match (s.atEffect h).heldFor x h.src (blockKey tensorId block) with
        | none => s.atEffect h
        | some b => ((s.atEffect h).sendCopy x h.src h.step 0 (((s.atEffect h).ctx x).copyBlocks [(blockKey tensorId block, b)])).1) = _
  rw [hfind]
  dsimp only
  rw [hheld]

/-- Settles O44, message by message. -/
theorem copiesAreTakenReseededAndFetched : Obligations.CopiesAreTakenReseededAndFetched := by
  unfold Obligations.CopiesAreTakenReseededAndFetched
  refine ⟨?spare, ?take, ?notHeld, ?whole, ?noTake, ?takeDone, ?reseed, ?fetch, ?noCopy⟩
  case spare =>
    intro s h j x ht hj hsp
    have e : execGeySpareReady h j s = .next ((s.atEffect h).updCoord x (fun o =>
        if o.spares.contains h.src then o else { o with spares := o.spares ++ [h.src] })) := by
      unfold execGeySpareReady
      rw [State.ctrlIn_takes _ _ ht]
      unfold effGeySpareReady
      rw [s.atEffect_jobById, hj]
    refine ⟨_, e, ?_, fun y hy => ?_, s.atEffect_mem h⟩
    · rw [State.ctx_updCoord_self, s.atEffect_ctx_coord, if_neg (fun h => hsp (List.contains_iff_mem.1 h))]
    · rw [State.ctx_updCoord_ne _ _ hy, s.atEffect_ctx_coord]
  case take =>
    intro s h lost spare epoch x p hs hp hl
    obtain ⟨hpart, hsend, hctr, hsent, hmem⟩ := (s.adopting h epoch x).taken_sends x lost spare h.step p ((s.ctx x).copyBlocks p.committed)
    have hdom : ((s.adopting h epoch x).ctx x).domain = (s.ctx x).domain :=
      congrArg (fun d => leAt d 4 2) (s.adopting_reads h epoch x x Ctx.desc (fun _ => rfl) (fun _ _ _ _ => rfl))
    rw [s.adopting_ctr h epoch x (by decide) (by decide)] at hctr
    rw [Ctx.copyBlocks_isEmpty] at hsend
    exact ⟨_, geyTake_takes hs hp hl, hpart, hsend, hctr, fun b hb => (hsent b hb).before (s.adopting_suffix h epoch x) hdom,
      hmem.trans (s.adopting_mem h epoch x)⟩
  case notHeld =>
    intro s h lost spare epoch x p hs hp hl hsp
    have hgey := s.adopting_reads h epoch x x Ctx.gey (fun _ => rfl) (fun _ _ _ _ => rfl)
    have hp' : ((s.adopting h epoch x).ctx x).gey.partner = some p := by rw [hgey, hp]
    have e : execGeyTake h lost spare epoch s = .next (effGeyTake h lost spare epoch (s.atEffect h)) :=
      congrArg Host.Outcome.next (State.ctrlIn_takes _ _ hs.1)
    refine ⟨s.adopting h epoch x, e.trans ?_, hgey, s.adopting_mem h epoch x⟩
    rw [effGeyTake, State.onJob_serves hs]
    dsimp only
    rw [hp']
    exact congrArg Host.Outcome.next (if_pos ⟨hl, hsp⟩)
  case whole =>
    intro s x t0 ht
    obtain ⟨sum, e⟩ := takeCopyComplete_tells ht
    obtain ⟨hctx, hout, hslow⟩ := s.copyIn_kept x t0
    generalize s.copyIn x t0 = u at e hctx hout hslow
    have hself : ((u.updCtx x (fun c => c.copied sum)).sendCtrl (s.ctx x).coordLocus 0x44 (s.ctx x).lastStep 0 (field sum 64 64)).ctx x =
        (s.ctx x).copied sum := by
      rw [State.ctx_of_sendCtrl, State.ctx_updCtx_self, hctx]
    refine ⟨_, e, by rw [hself]; rfl, by rw [hself]; rfl, by rw [hself]; rfl, by rw [hself]; rfl, ?_, fun hs => ?_, fun y hy => ?_⟩
    · rw [hself]
      exact (State.sendCtrl_sent _ _ _ _ _ _ _).before ⟨[], hout.symm⟩
    · exact hslow hs
    · rw [State.ctx_of_sendCtrl, State.ctx_updCtx_ne _ _ hy, hctx]
  case noTake =>
    intro s x ht
    change execTakeCopyComplete x s = _
    unfold execTakeCopyComplete
    rw [ht]
  case takeDone =>
    intro s h sum x ht hx
    have e : execGeyTakeDone h sum s = .next ((s.atEffect h).updCoord x (fun o => { o with taking := o.taking.filter (fun e => e.2 != h.src) })) := by
      unfold execGeyTakeDone
      rw [State.ctrlIn_takes _ _ ht]
      unfold effGeyTakeDone
      rw [s.atEffect_coordCtx, hx]
    refine ⟨_, e, ?_, fun y hy => ?_, s.atEffect_mem h⟩
    · rw [State.ctx_updCoord_self, s.atEffect_ctx_coord]
    · rw [State.ctx_updCoord_ne _ _ hy, s.atEffect_ctx_coord]
  case reseed =>
    intro s h mask x ht hlive hbuddy hst
    obtain ⟨e, hctr, hblocks, hbud, hstep, hdom, hout, hmem⟩ := geyReseed_seeds mask ht hlive hbuddy hst
    generalize (s.atEffect h).bump .geyReseed 0 = u at e hctr hblocks hbud hstep hdom hout hmem
    obtain ⟨hvalid, hsent, -, -, hkeepm, -, hkeepc⟩ := u.seed_seeds x (fun p => mask.testBit p)
    rw [hblocks, hbud, hstep] at hsent
    rw [hblocks] at hvalid
    exact ⟨_, e, (hkeepc .geyReseed 0 (by decide) (by decide) (by decide)).trans hctr, hvalid, fun b hb => (hsent b hb).before hout hdom,
      hkeepm.trans hmem⟩
  case fetch =>
    intro s h tensorId block x p b ht hlive hp hl hb
    have hframe := (s.atEffect h).sendCopy_frame x h.src h.step 0 ((s.ctx x).copyBlocks [(blockKey tensorId block, b)])
    have hdom : ((s.atEffect h).ctx x).domain = (s.ctx x).domain := congrArg (fun d => leAt d 4 2) (s.atEffect_ctx_desc h x)
    refine ⟨_, geyFetch_answers ht hlive hp hl hb, fun e he => ?_, fun y => ?_, ?_⟩
    · have hsent := ((s.atEffect h).sendCopy_sent x h.src h.step _ he).before (s.atEffect_suffix h) hdom
      rwa [List.mem_singleton.1 he] at hsent ⊢
    · rw [(hframe _ (Foot.sub (by decide) (Foot.refl _))).ctx_gey_eq, s.atEffect_ctx_gey]
    · rw [(hframe _ (Foot.sub (by decide) (Foot.refl _))).mem_eq, s.atEffect_mem]
  case noCopy =>
    intro s h tensorId block ht hnone
    have e : execGeyFetch h tensorId block s = .next (effGeyFetch h tensorId block (s.atEffect h)) :=
      congrArg Host.Outcome.next (State.ctrlIn_takes _ _ ht)
    refine ⟨s.atEffect h, e.trans ?_, fun y => s.atEffect_ctx_gey h y, s.atEffect_mem h⟩
    have hheld : ∀ x, (s.atEffect h).heldFor x h.src (blockKey tensorId block) = none := fun x => by
      unfold State.heldFor
      rw [s.atEffect_ctx_gey, hnone]
    have hfind : (s.atEffect h).liveCtxs.find? (fun x => ((s.atEffect h).heldFor x h.src (blockKey tensorId block)).isSome) = none :=
      List.find?_eq_none.2 fun x _ => by simp [hheld x]
    change Host.Outcome.next (match (s.atEffect h).liveCtxs.find? (fun x => ((s.atEffect h).heldFor x h.src (blockKey tensorId block)).isSome) with
      | none => s.atEffect h
      | some x => match (s.atEffect h).heldFor x h.src (blockKey tensorId block) with
        | none => s.atEffect h
        | some b => ((s.atEffect h).sendCopy x h.src h.step 0 (((s.atEffect h).ctx x).copyBlocks [(blockKey tensorId block, b)])).1) = _
    rw [hfind]

end Sys2Proof.Machine
end

section
/-!
Shard transfers that read, and the timeouts of every transfer (12 R325, R327 to R329).
-/
namespace Sys2Proof.Machine

-- Proofs elaborated one after another keep the whole text within the memory its compile is given.
set_option Elab.async false

/-! ### A transfer changed -/

theorem find_mapAt {h q : Nat} (m : KMap Xfer) (f : Xfer → Xfer) :
    KMap.find (m.map (fun e => if e.1 = h then (h, f e.2) else e)) q = if q = h then (KMap.find m q).map f else KMap.find m q := by
  induction m with
  | nil => simp [KMap.find]
  | cons e m ih =>
    rw [List.map_cons]
    by_cases he : e.1 = h
    · rw [if_pos he, KMap.find, ih]
      by_cases hq : q = h
      · rw [if_pos hq, if_pos hq, KMap.find, if_pos (hq.trans he.symm)]
        rfl
      · rw [if_neg hq, if_neg hq, if_neg hq, KMap.find, if_neg (fun h => hq (h.trans he))]
    · rw [if_neg he, KMap.find, KMap.find, ih]
      by_cases hq : q = e.1
      · rw [if_pos hq, if_pos hq, if_neg (fun h => he (hq.symm.trans h))]
      · rw [if_neg hq, if_neg hq]

theorem State.updXfer_find {s : State} {h : Nat} {v : Xfer} (f : Xfer → Xfer) (hv : KMap.find s.gey.xfers h = some v) :
    KMap.find (s.updXfer h f).gey.xfers h = some (f v) := by
  change KMap.find (s.gey.xfers.map (fun e => if e.1 = h then (h, f e.2) else e)) h = _
  rw [find_mapAt, if_pos rfl, hv]
  rfl

theorem State.updXfer_frame (s : State) (h : Nat) (f : Xfer → Xfer) : ∀ ps, Foot 32768 ps → Only ps s (s.updXfer h f) :=
  fun ps hps => State.updXfer_only h f hps (Only.refl ps s)

/-! ### Datagrams -/

theorem State.shardSend_frame (s : State) (h : Nat) (v : Xfer) (type offset status : Nat) (payload : List Byte) :
    ∀ ps, Foot 8388608 ps → Only ps s (s.shardSend h v type offset status payload) :=
  fun ps hps => State.shardSend_only h v type offset status payload hps (Only.refl ps s)

theorem State.shardSend_gey (s : State) (h : Nat) (v : Xfer) (type offset status : Nat) (payload : List Byte) :
    (s.shardSend h v type offset status payload).gey = s.gey :=
  (s.shardSend_frame h v type offset status payload _ (Foot.sub (by decide) (Foot.refl _))).gey_eq

theorem State.shardSend_ctxs (s : State) (h : Nat) (v : Xfer) (type offset status : Nat) (payload : List Byte) :
    (s.shardSend h v type offset status payload).ctxs = s.ctxs :=
  (s.shardSend_frame h v type offset status payload _ (Foot.sub (by decide) (Foot.refl _))).ctxs_eq

theorem State.shardSend_sent (s : State) (h : Nat) (v : Xfer) (type offset : Nat) (payload : List Byte) :
    shardSent s (s.shardSend h v type offset 0 payload) h v type offset payload := fun p hp => by
  unfold State.shardSend
  rw [hp]
  exact s.emit_sent _

/-- A datagram sent after work that leaves the ports and the configuration alone. -/
theorem shardSent.before {s t u : State} {h type offset : Nat} {v : Xfer} {payload : List Byte} (hs : shardSent t u h v type offset payload)
    (ho : s.out <:+ t.out) (hcfg : t.cfg = s.cfg) (hports : t.ports = s.ports) : shardSent s u h v type offset payload := fun p hp => by
  have hrole : t.rolePort 0 = some p := by
    have hport : ∀ k, t.port k = s.port k := fun k => by rw [State.port, State.port, hports]
    rw [← hp]
    simp only [State.rolePort, hcfg, hport]
  have := (hs p hrole).before ho
  rwa [hcfg] at this

/-- A transfer open is what a datagram of version 1 acts on. -/
theorem State.onXfer_open {s : State} {m : ShardMsg} {v : Xfer} (hv : KMap.find s.gey.xfers m.handle = some v) (hm : m.version = 1)
    (f : Xfer → State → State) : s.onXfer m f = f v s := by
  unfold State.onXfer
  rw [hv]
  exact if_pos hm

/-! ### FETCH_REPLY -/

/-- The object's length and digest taken. -/
def Xfer.fetched (v : Xfer) (payload : List Byte) : Xfer :=
  { v with phase := 1, total := beNat (slice payload 0 8), timeouts := 0, digest := if v.shard = 0xFFFFFFFF then slice payload 8 32 else v.digest }

theorem fetchReply_opens {s : State} {m : ShardMsg} {v : Xfer} (hv : KMap.find s.gey.xfers m.handle = some v) (hm : m.version = 1)
    (hw : v.writing = false) (hp : v.phase = 0) (hst : m.status = 0) :
    execFetchReply m s = .next (s.updXfer m.handle (fun w => w.fetched m.payload)) := by
  unfold execFetchReply
  rw [State.onXfer_open hv hm, hw, hp, hst]
  rfl

/-- With one gateway and that one tried, no other is next. -/
theorem State.nextGateway_one {s : State} {g : Nat} {l : List Nat} (h : s.cfg.geyGwCount = 1) : s.nextGateway g (0 :: l) = none := by
  unfold State.nextGateway
  rw [h]
  dsimp only
  exact List.find?_eq_none.2 fun k hk => by
    obtain ⟨i, -, rfl⟩ := List.mem_map.1 hk
    simp [Nat.mod_one]

/-- The end of a restore tells the coordinator. -/
theorem State.restoreEnd_ends {s : State} {x : Nat} {r : RestoreRun} (status : Nat) (hst : status ≠ 0) (hr : (s.ctx x).gey.restore = some r) :
    ((s.restoreEnd x status 0).ctx x).gey.restore = none ∧ (s.restoreEnd x status 0).mem = s.mem ∧
    ctrlSent s (s.restoreEnd x status 0) (s.ctx x).coordLocus 0x4A r.step 0 (field status 8 0 + field 0 64 64) := by
  unfold State.restoreEnd
  extract_lets k u v
  have hk : k = r.step := by
    unfold k
    rw [hr]
    rfl
  have hu : u.ctx x = s.ctx x ∧ u.out = s.out ∧ u.mem = s.mem := ⟨rfl, rfl, rfl⟩
  clear_value u
  have hv : v.ctx x = { s.ctx x with gey := { (s.ctx x).gey with restore := none } } := by
    unfold v
    rw [State.ctx_updGey_self, hu.1, if_neg hst]
  have hvm : v.mem = s.mem := hu.2.2
  have hvo : v.out = s.out := hu.2.1
  clear_value v
  refine ⟨?_, ?_, ?_⟩
  · rw [State.ctx_of_sendCtrl, hv]
  · rw [State.sendCtrl_mem, hvm]
  · rw [hk, hv]
    exact (State.sendCtrl_sent _ _ _ _ _ _ _).before ⟨[], hvo.symm⟩

/-- The last gateway without the object ends the restore. -/
theorem State.nextSource_ends {s : State} {h : Nat} {v : Xfer} {r : RestoreRun} {status : Nat} (hst : status ≠ 0)
    (hr : (s.ctx v.ctx).gey.restore = some r) (hc : s.cfg.geyGwCount = 1) (hg : v.gateway = 0) :
    ((s.nextSource h v status).ctx v.ctx).gey.restore = none ∧ (s.nextSource h v status).mem = s.mem ∧
    ctrlSent s (s.nextSource h v status) (s.ctx v.ctx).coordLocus 0x4A r.step 0 (field status 8 0 + field 0 64 64) := by
  unfold State.nextSource
  have hu : (s.endXfer h).ctx v.ctx = s.ctx v.ctx ∧ (s.endXfer h).cfg = s.cfg ∧ (s.endXfer h).out = s.out ∧ (s.endXfer h).mem = s.mem :=
    ⟨rfl, rfl, rfl, rfl⟩
  generalize s.endXfer h = u at hu ⊢
  obtain ⟨hctx, hcfg, hout, hmem⟩ := hu
  dsimp only
  rw [hctx, hr]
  dsimp only
  rw [hg]
  generalize (if v.shard = 0xFFFFFFFF then r.tried else KMap.getD r.triedBy v.shard []) = l
  generalize (if v.shard = 0xFFFFFFFF then 0 + 1 else 0) = g
  have hnext : (u.updGey v.ctx (fun g => { g with restore := some (if v.shard = 0xFFFFFFFF then { r with tried := 0 :: l }
      else { r with triedBy := KMap.put r.triedBy v.shard (0 :: l) }) })).nextGateway g (0 :: l) = none :=
    State.nextGateway_one (by rw [← hc, ← hcfg]; rfl)
  rw [hnext]
  dsimp only
  have hrest : ∃ r', (if v.shard = 0xFFFFFFFF then { r with tried := 0 :: l } else { r with triedBy := KMap.put r.triedBy v.shard (0 :: l) }) = r' ∧
      r'.step = r.step := by
    split
    · exact ⟨_, rfl, rfl⟩
    · exact ⟨_, rfl, rfl⟩
  obtain ⟨r', he, hstep⟩ := hrest
  rw [he]
  obtain ⟨h1, h2, h3⟩ := State.restoreEnd_ends (s := u.updGey v.ctx (fun g => { g with restore := some r' })) (x := v.ctx) (r := r') status hst
    (by rw [State.ctx_updGey_self])
  rw [State.ctx_updGey_self, hctx, hstep] at h3
  exact ⟨h1, h2.trans hmem, h3.before ⟨[], hout.symm⟩⟩

/-! ### DATA -/

/-- Data in order kept, `n` datagrams since the last DACK. -/
def Xfer.withObject (v : Xfer) (obj : List Byte) (n : Nat) : Xfer :=
  { v with object := obj, timeouts := 0, sinceDack := if n = 16 then 0 else n }

/-- Data in order, more of it to come: kept, and acknowledged after every 16 datagrams. -/
theorem shardData_keeps {s : State} {m : ShardMsg} {v : Xfer} (hv : KMap.find s.gey.xfers m.handle = some v) (hm : m.version = 1)
    (hw : v.writing = false) (hp : v.phase = 1) (ho : m.offset = v.object.length) (hl : v.object.length + m.payload.length < v.total) :
    execShardData m s = .next (if v.sinceDack + 1 = 16 then
      (s.updXfer m.handle (fun w => w.withObject (v.object ++ m.payload) (v.sinceDack + 1))).shardSend m.handle v 4
        (v.object.length + m.payload.length) 0 []
      else s.updXfer m.handle (fun w => w.withObject (v.object ++ m.payload) (v.sinceDack + 1))) := by
  have hlen : (v.object ++ m.payload).length = v.object.length + m.payload.length := List.length_append
  have hgo : ¬ (v.writing || v.phase != 1) = true := by rw [hw, hp]; decide
  have hmore : ¬ v.total ≤ v.object.length + m.payload.length := Nat.not_le.2 hl
  unfold execShardData
  rw [State.onXfer_open hv hm]
  dsimp only
  rw [if_neg hgo, if_neg (Classical.not_not.2 ho), hlen, if_pos hl]
  exact congrArg Host.Outcome.next (ite_congr (propext ⟨fun h => h.resolve_right hmore, Or.inl⟩) (fun _ => rfl) fun _ => rfl)

/-- Data out of order is asked for again. -/
theorem shardData_asks {s : State} {m : ShardMsg} {v : Xfer} (hv : KMap.find s.gey.xfers m.handle = some v) (hm : m.version = 1)
    (hw : v.writing = false) (hp : v.phase = 1) (ho : m.offset ≠ v.object.length) :
    execShardData m s = .next (s.shardSend m.handle v 4 v.object.length 0 []) := by
  have hgo : ¬ (v.writing || v.phase != 1) = true := by rw [hw, hp]; decide
  unfold execShardData
  rw [State.onXfer_open hv hm]
  exact congrArg Host.Outcome.next ((if_neg hgo).trans (if_pos ho))

/-- The timer of a reading transfer sends a DACK. -/
theorem dackTimer_sends {s : State} {h : Nat} {v : Xfer} (hv : KMap.find s.gey.xfers h = some v) (hw : v.writing = false) (hp : v.phase = 1) :
    execDackTimer h s = .next ((s.updXfer h (fun w => { w with sinceDack := 0 })).shardSend h v 4 v.object.length 0 []) := by
  have hgo : ¬ (v.writing = true ∨ v.phase ≠ 1) := by simp [hw, hp]
  unfold execDackTimer
  rw [hv]
  exact congrArg Host.Outcome.next (if_neg hgo)

/-! ### Timeouts -/

/-- Two transfers that differ in the bytes sent alone. -/
def Xfer.sameButSent (v w : Xfer) : Prop := w = { v with sent := w.sent }

/-- Data pumped out changes the bytes sent of its transfer alone. -/
theorem State.pump_find (n h : Nat) {s : State} {v : Xfer} (hv : KMap.find s.gey.xfers h = some v) :
    ∃ w, KMap.find (State.pump n s h).gey.xfers h = some w ∧ v.sameButSent w := by
  induction n generalizing s v with
  | zero => exact ⟨v, hv, rfl⟩
  | succ n ih =>
    unfold State.pump
    rw [hv]
    dsimp only
    split
    · exact ⟨v, hv, rfl⟩
    · generalize slice v.object v.sent 8192 = d
      have hg : ((s.shardSend h v 3 v.sent 0 d).bump .geyCkptBytes 0 d.length).gey = s.gey := s.shardSend_gey h v 3 v.sent 0 d
      obtain ⟨w, hw, he⟩ := ih (State.updXfer_find (s := (s.shardSend h v 3 v.sent 0 d).bump .geyCkptBytes 0 d.length)
        (fun v => { v with sent := v.sent + d.length }) (by rw [hg]; exact hv))
      exact ⟨w, hw, he⟩

theorem State.pump_ctr (n h : Nat) (s : State) {k : Ctr} {i : Nat} (hk : k ≠ .geyCkptBytes) (hi : i < 2 ^ 24) :
    (State.pump n s h).ctr k i = s.ctr k i := by
  induction n generalizing s with
  | zero => rfl
  | succ n ih =>
    unfold State.pump
    split
    · rfl
    · next v hv =>
      split
      · rfl
      · generalize slice v.object v.sent 8192 = d
        have hsend : (s.shardSend h v 3 v.sent 0 d).ctrs = s.ctrs :=
          (s.shardSend_frame h v 3 v.sent 0 d _ (Foot.sub (by decide) (Foot.refl _))).ctrs_eq
        have hupd : ∀ u : State, (u.updXfer h (fun v => { v with sent := v.sent + d.length })).ctr k i = u.ctr k i := fun _ => rfl
        rw [ih, hupd, State.ctr_bump_ne _ _ (by decide) hi (.inl hk), State.ctr, State.ctr, hsend]

theorem State.shardOpen_gey (s : State) (h : Nat) (v : Xfer) : (s.shardOpen h v).gey = s.gey :=
  (State.shardOpen_only h v (Foot.sub (by decide) (Foot.refl _)) (Only.refl _ s)).gey_eq

theorem State.shardOpen_ctrs (s : State) (h : Nat) (v : Xfer) : (s.shardOpen h v).ctrs = s.ctrs :=
  (State.shardOpen_only h v (Foot.sub (by decide) (Foot.refl _)) (Only.refl _ s)).ctrs_eq

theorem State.shardSend_ctrs (s : State) (h : Nat) (v : Xfer) (type offset status : Nat) (payload : List Byte) :
    (s.shardSend h v type offset status payload).ctrs = s.ctrs :=
  (s.shardSend_frame h v type offset status payload _ (Foot.sub (by decide) (Foot.refl _))).ctrs_eq

/-- Sending again what a timeout names changes the bytes sent of the transfer alone, and counts. -/
theorem State.resend_again {s : State} {h : Nat} {v w : Xfer} (hw : KMap.find s.gey.xfers h = some w) :
    (∃ w', KMap.find (s.resend h v).gey.xfers h = some w' ∧ ∃ n, w' = { w with sent := n }) ∧
    (s.resend h v).ctr .geyRetx 0 = satAdd 32 (s.ctr .geyRetx 0) (if v.phase = 1 ∧ v.writing = true then ceilDiv (v.sent - v.acked) 8192 else 1) := by
  unfold State.resend
  extract_lets u
  have hu : u.ctr .geyRetx 0 = satAdd 32 (s.ctr .geyRetx 0) (if v.phase = 1 ∧ v.writing = true then ceilDiv (v.sent - v.acked) 8192 else 1) :=
    State.ctr_bump_self _ _ _ _
  have hg : KMap.find u.gey.xfers h = some w := hw
  clear_value u
  have hsend : ∀ type off payload, (∃ w', KMap.find (u.shardSend h v type off 0 payload).gey.xfers h = some w' ∧ ∃ n, w' = { w with sent := n }) ∧
      (u.shardSend h v type off 0 payload).ctr .geyRetx 0 = u.ctr .geyRetx 0 := fun type off payload =>
    ⟨⟨w, by rw [State.shardSend_gey]; exact hg, w.sent, rfl⟩, by rw [State.ctr, State.shardSend_ctrs]; rfl⟩
  rw [← hu]
  split
  · exact ⟨⟨w, by rw [State.shardOpen_gey]; exact hg, w.sent, rfl⟩, by rw [State.ctr, State.shardOpen_ctrs]; rfl⟩
  · split
    · obtain ⟨w', hf, he⟩ := State.pump_find 4096 h (State.updXfer_find (fun v => { v with sent := v.acked }) hg)
      exact ⟨⟨w', hf, w'.sent, he⟩, State.pump_ctr 4096 h _ (by decide) (by decide)⟩
    · exact hsend 4 v.object.length []
  · exact hsend 5 v.total (sha256 v.object)
  · exact ⟨⟨w, hg, w.sent, rfl⟩, rfl⟩

/-- A timeout before the twelfth doubles the time and sends again. -/
theorem shardRto_doubles {s : State} {h : Nat} {v : Xfer} (hv : KMap.find s.gey.xfers h = some v) (hp : v.phase ≤ 2) (ht : v.timeouts < 11) :
    execShardRto h s = .next ((s.updXfer h (fun v => { v with timeouts := v.timeouts + 1, rtoUs := min 64000 (2 * v.rtoUs) })).resend h v) := by
  unfold execShardRto
  rw [hv]
  exact congrArg Host.Outcome.next ((if_neg (by omega)).trans (if_pos (by omega)))

/-- The module once a gateway is marked down. -/
def State.gatewayDown (s : State) (g : Nat) : State :=
  ((s.updGeyser (fun y => { y with gwDown := insertAsc g y.gwDown })).bump .geyGwFail 0).setEvt .geyStatus 0 26

theorem State.gatewayDown_marks (s : State) (g : Nat) : g ∈ (s.gatewayDown g).gey.gwDown ∧
    (s.gatewayDown g).ctr .geyGwFail 0 = satAdd 16 (s.ctr .geyGwFail 0) 1 ∧ ((s.gatewayDown g).evBits .geyStatus 0).testBit 26 = true ∧
    (s.gatewayDown g).mem = s.mem := by
  unfold State.gatewayDown
  have hctr : ((s.updGeyser (fun y => { y with gwDown := insertAsc g y.gwDown })).bump .geyGwFail 0).ctr .geyGwFail 0 =
      satAdd 16 (s.ctr .geyGwFail 0) 1 := State.ctr_bump_self _ _ _ _
  have hgey : g ∈ ((s.updGeyser (fun y => { y with gwDown := insertAsc g y.gwDown })).bump .geyGwFail 0).gey.gwDown := mem_insertAsc.2 (.inl rfl)
  have hmem : ((s.updGeyser (fun y => { y with gwDown := insertAsc g y.gwDown })).bump .geyGwFail 0).mem = s.mem := rfl
  generalize (s.updGeyser (fun y => { y with gwDown := insertAsc g y.gwDown })).bump .geyGwFail 0 = u at hctr hgey hmem ⊢
  have only := fun ps (hps : Foot 6422544 ps) => State.setEvt_only .geyStatus 0 26 hps (Only.refl ps u)
  refine ⟨?_, ?_, u.setEvt_bit .geyStatus 0 26, ?_⟩
  · rw [(only _ (Foot.sub (by decide) (Foot.refl _))).gey_eq]
    exact hgey
  · rw [State.setEvt_ctr u .geyStatus 0 26 (by decide) (by decide)]
    exact hctr
  · rw [(only _ (Foot.sub (by decide) (Foot.refl _))).mem_eq]
    exact hmem

theorem State.startXfer_gwDown (s : State) (v : Xfer) : (s.startXfer v).gey.gwDown = s.gey.gwDown := by
  unfold State.startXfer
  dsimp only
  rw [State.shardOpen_gey]
  rfl

theorem State.moveXfer_gwDown (s : State) (h : Nat) (v : Xfer) (g : Nat) : (s.moveXfer h v g).gey.gwDown = s.gey.gwDown := by
  unfold State.moveXfer
  extract_lets u
  have hu : u.gey = s.gey := by
    unfold u
    split <;> rfl
  have hend : ∀ w : State, (w.endXfer h).gey.gwDown = w.gey.gwDown := fun _ => rfl
  rw [State.startXfer_gwDown, hend, hu]

/-- The twelfth timeout in a row marks the gateway down. -/
theorem shardRto_marks {s : State} {h : Nat} {v : Xfer} (hv : KMap.find s.gey.xfers h = some v) (hp : v.phase ≤ 2) (ht : 11 ≤ v.timeouts) :
    ∃ t, execShardRto h s = .next t ∧ (∀ ps, Foot 590295810358714073152 ps → Only ps (s.gatewayDown v.gateway) t) ∧
      t.gey.gwDown = (s.gatewayDown v.gateway).gey.gwDown := by
  have e : execShardRto h s = .next (((s.gatewayDown v.gateway).nextGateway (v.gateway + 1) [v.gateway]).elim
      ((s.gatewayDown v.gateway).updXfer h (fun v => { v with phase := 4 })) ((s.gatewayDown v.gateway).moveXfer h v)) := by
    unfold execShardRto
    rw [hv]
    refine congrArg Host.Outcome.next ((if_neg (by omega)).trans ((if_neg (by omega)).trans ?_))

    unfold State.gatewayDown
    dsimp only
    split
    · next g hg => rw [hg]; rfl
    · next hg => rw [hg]; rfl
  rw [e]
  generalize s.gatewayDown v.gateway = u
  cases u.nextGateway (v.gateway + 1) [v.gateway] with
  | some g => exact ⟨_, rfl, fun ps hps => State.moveXfer_only h v g hps (Only.refl ps u), u.moveXfer_gwDown h v g⟩
  | none => exact ⟨u.updXfer h (fun v => { v with phase := 4 }), rfl, fun ps hps => State.updXfer_only h _ (Foot.sub (by decide) hps) (Only.refl ps u), rfl⟩

/-! ### A gateway up again -/

/-- What checkpoints opened leave: a reading of the module that transfers started, slots counted and a context's Geyser state do not touch. -/
theorem State.feedCkpt_reads {α : Type} (π : State → α) (hb : ∀ u p n, π (State.geySlots u p n) = π u) (hg : ∀ u x f, π (State.updGey u x f) = π u)
    (hs : ∀ u v, π (State.startXfer u v) = π u) (n : Nat) (s : State) (x : Nat) : π (State.feedCkpt n s x) = π s := by
  induction n generalizing s with
  | zero => rfl
  | succ n ih =>
    unfold State.feedCkpt
    dsimp only
    split
    · rfl
    · next k hk =>
      split
      · rfl
      · split
        · split
          · rfl
          · rw [ih, hs, hg, hb]
        · split
          · rfl
          · split
            · rw [hg]
            · rw [ih, hs, hg]

theorem State.startXfer_mem (s : State) (v : Xfer) : (s.startXfer v).mem = s.mem :=
  (State.startXfer_only v (Foot.sub (by decide) (Foot.refl _)) (Only.refl _ s)).mem_eq

theorem State.moveXfer_mem (s : State) (h : Nat) (v : Xfer) (g : Nat) : (s.moveXfer h v g).mem = s.mem :=
  (State.moveXfer_only h v g (Foot.sub (by decide) (Foot.refl _)) (Only.refl _ s)).mem_eq

/-- A gateway up again: no longer marked down, and memory is as it was. -/
theorem gwDownExpiry_clears (s : State) (g : Nat) : ∃ t, execGwDownExpiry g s = .next t ∧ t.gey.gwDown = s.gey.gwDown.erase g ∧ t.mem = s.mem := by
  have hdown := fun (u : State) x => State.feedCkpt_reads (fun v => v.gey.gwDown) (fun _ _ _ => rfl) (fun _ _ _ => rfl)
    (fun u v => u.startXfer_gwDown v) 80 u x
  have hmem := fun (u : State) x => State.feedCkpt_reads (fun v => v.mem) (fun _ _ _ => rfl) (fun _ _ _ => rfl)
    (fun u v => u.startXfer_mem v) 80 u x
  unfold execGwDownExpiry
  refine ⟨_, rfl, ?_, ?_⟩
  · exact (forEach_keeps_reading (fun v => v.gey.gwDown) hdown _ _).trans
      (forEach_keeps_reading (fun v => v.gey.gwDown) (fun v (e : Nat × Xfer) => v.moveXfer_gwDown e.1 e.2 g) _ _)
  · exact (forEach_keeps_reading (fun v => v.mem) hmem _ _).trans
      (forEach_keeps_reading (fun v => v.mem) (fun v (e : Nat × Xfer) => v.moveXfer_mem e.1 e.2 g) _ _)

/-- Settles O47, event by event. -/
theorem readingTransfersComplete : Obligations.ReadingTransfersComplete := by
  unfold Obligations.ReadingTransfersComplete
  refine ⟨?opens, ?ends, ?keeps, ?asks, ?timer, ?doubles, ?marks, ?idle, ?unknown, ?up⟩
  case opens =>
    intro s m v hv hm hw hp hst
    exact ⟨_, fetchReply_opens hv hm hw hp hst, ⟨_, State.updXfer_find _ hv, rfl, rfl⟩, rfl, rfl⟩
  case ends =>
    intro s m v r hv hm hw hp hst hr hc hg
    obtain ⟨h1, h2, h3⟩ := State.nextSource_ends (h := m.handle) (v := v) (status := 1) (by decide) hr hc hg
    have hgo : ¬ (v.writing || v.phase != 0) = true := by rw [hw, hp]; decide
    refine ⟨s.nextSource m.handle v 1, ?_, h1, h3, h2⟩
    change execFetchReply m s = _
    unfold execFetchReply
    rw [State.onXfer_open hv hm]
    exact congrArg Host.Outcome.next ((if_neg hgo).trans (if_pos hst))
  case keeps =>
    intro s m v hv hm hw hp ho hl
    have hfind := State.updXfer_find (fun w => w.withObject (v.object ++ m.payload) (v.sinceDack + 1)) hv
    have hframe := s.updXfer_frame m.handle (fun w => w.withObject (v.object ++ m.payload) (v.sinceDack + 1))
    have e := shardData_keeps hv hm hw hp ho hl
    generalize s.updXfer m.handle (fun w => w.withObject (v.object ++ m.payload) (v.sinceDack + 1)) = u at hfind hframe e
    have hctxs : u.ctxs = s.ctxs := (hframe _ (Foot.sub (by decide) (Foot.refl _))).ctxs_eq
    refine ⟨_, e, ?_, fun h15 => ?_, ?_⟩
    · refine ⟨v.withObject (v.object ++ m.payload) (v.sinceDack + 1), ?_, rfl, hp⟩
      split
      · rw [State.shardSend_gey]
        exact hfind
      · exact hfind
    · rw [if_pos (by omega)]
      exact (State.shardSend_sent u m.handle v 4 _ []).before ⟨[], ((hframe _ (Foot.sub (by decide) (Foot.refl _))).out_eq).symm⟩
        (hframe _ (Foot.sub (by decide) (Foot.refl _))).cfg_eq (hframe _ (Foot.sub (by decide) (Foot.refl _))).ports_eq
    · split
      · rw [State.shardSend_ctxs]
        exact hctxs
      · exact hctxs
  case asks =>
    intro s m v hv hm hw hp ho
    exact ⟨_, shardData_asks hv hm hw hp ho, s.shardSend_sent m.handle v 4 _ [], s.shardSend_gey m.handle v 4 _ 0 [],
      s.shardSend_ctxs m.handle v 4 _ 0 []⟩
  case timer =>
    intro s h v hv hw hp
    refine ⟨_, dackTimer_sends hv hw hp, (State.shardSend_sent _ h v 4 _ []).before List.suffix_rfl rfl rfl, ?_, ?_⟩
    · refine ⟨{ v with sinceDack := 0 }, ?_, rfl, rfl⟩
      rw [State.shardSend_gey]
      exact State.updXfer_find (fun w => { w with sinceDack := 0 }) hv
    · rw [State.shardSend_ctxs]
      rfl
  case doubles =>
    intro s h v hv hp ht
    have hfind := State.updXfer_find (fun v => { v with timeouts := v.timeouts + 1, rtoUs := min 64000 (2 * v.rtoUs) }) hv
    have hframe := s.updXfer_frame h (fun v => { v with timeouts := v.timeouts + 1, rtoUs := min 64000 (2 * v.rtoUs) })
    have e := shardRto_doubles hv hp ht
    generalize s.updXfer h (fun v => { v with timeouts := v.timeouts + 1, rtoUs := min 64000 (2 * v.rtoUs) }) = u at hfind hframe e
    obtain ⟨⟨w, hw, n, he⟩, hctr⟩ := State.resend_again (v := v) hfind
    have hkept : u.ctr .geyRetx 0 = s.ctr .geyRetx 0 := by
      rw [State.ctr, State.ctr, (hframe _ (Foot.sub (by decide) (Foot.refl _))).ctrs_eq]
    rw [hkept] at hctr
    refine ⟨_, e, ⟨w, hw, ?_, ?_, ?_⟩, hctr, ?_⟩
    · rw [he]
    · rw [he]
    · rw [he]
    · exact (State.resend_only h v (Foot.sub (by decide) (Foot.refl _)) (Only.refl _ u)).ctxs_eq.trans
        (hframe _ (Foot.sub (by decide) (Foot.refl _))).ctxs_eq
  case marks =>
    intro s h v hv hp ht
    obtain ⟨t, e, only, hdown⟩ := shardRto_marks hv hp ht
    obtain ⟨hin, hctr, hbit, hmem⟩ := s.gatewayDown_marks v.gateway
    refine ⟨t, e, by rw [hdown]; exact hin, ?_, ?_, (only _ (Foot.sub (by decide) (Foot.refl _))).mem_eq.trans hmem⟩
    · rw [State.ctr, (only _ (Foot.sub (by decide) (Foot.refl _))).ctrs_eq]
      exact hctr
    · rw [State.evBits, (only _ (Foot.sub (by decide) (Foot.refl _))).evts_eq]
      exact hbit
  case idle =>
    intro s h v hv hp
    change execShardRto h s = _
    unfold execShardRto
    rw [hv]
    exact congrArg Host.Outcome.next (if_pos hp)
  case unknown =>
    intro s h hv
    refine ⟨?_, ?_, ?_⟩
    · change execShardRto h s = _
      unfold execShardRto
      rw [hv]
    · change execDackTimer h s = _
      unfold execDackTimer
      rw [hv]
    · change execBusyRetryDelayExpiry h s = _
      unfold execBusyRetryDelayExpiry
      rw [hv]
  case up =>
    intro s g
    exact gwDownExpiry_clears s g

end Sys2Proof.Machine
end

section
/-!
TENSOR_WRITE, TENSOR_READ and DUMP_REQUEST (05 R130, R311, 09 R243 to R245).
-/
namespace Sys2Proof.Machine

-- Proofs elaborated one after another keep the whole text within the memory its compile is given.
set_option Elab.async false

/-! ### Bytes stored -/

/-- Bytes written are stored, and no others change. -/
theorem State.writeBytes_stored {s : State} (h : Memory.wf s.mem = true) (a : Nat) (bs : List Byte) : bytesStored s (s.writeBytes a bs) a bs := fun q => by
  rw [State.byte_writeBytes h]
  by_cases hl : a ≤ q
  · by_cases hq : q < a + bs.length
    · have hlt : q - a < bs.length := by omega
      rw [if_pos hl, if_pos ⟨hl, hq⟩, List.getD_eq_getElem?_getD, List.getElem?_eq_getElem hlt]
      rfl
    · rw [if_pos hl, if_neg (fun h => hq h.2), List.getElem?_eq_none (by omega)]
      rfl
  · rw [if_neg hl, if_neg (fun h => hl h.1)]

/-- Two stores side by side are one. -/
theorem bytesStored.append {s t u : State} {a : Nat} {bs cs : List Byte} (h : bytesStored s t a bs) (k : bytesStored t u (a + bs.length) cs) :
    bytesStored s u a (bs ++ cs) := fun q => by
  have hlen : (bs ++ cs).length = bs.length + cs.length := List.length_append
  rw [k q, h q, hlen]
  by_cases h1 : a + bs.length ≤ q
  · have hsub : q - (a + bs.length) = q - a - bs.length := by omega
    have hnot : ¬ (a ≤ q ∧ q < a + bs.length) := by omega
    have hright : (bs ++ cs).getD (q - a) 0#8 = cs.getD (q - a - bs.length) 0#8 := by
      rw [List.getD_eq_getElem?_getD, List.getElem?_append_right (by omega), List.getD_eq_getElem?_getD]
    have hrange : (a + bs.length ≤ q ∧ q < a + bs.length + cs.length) ↔ (a ≤ q ∧ q < a + (bs.length + cs.length)) := by omega
    rw [if_neg hnot, hright, hsub]
    exact ite_congr (propext hrange) (fun _ => rfl) fun _ => rfl
  · rw [if_neg (fun h => h1 h.1)]
    by_cases h2 : a ≤ q
    · have hleft : (bs ++ cs).getD (q - a) 0#8 = bs.getD (q - a) 0#8 := by
        rw [List.getD_eq_getElem?_getD, List.getElem?_append_left (by omega), List.getD_eq_getElem?_getD]
      rw [if_pos ⟨h2, by omega⟩, if_pos ⟨h2, by omega⟩, hleft]
    · rw [if_neg (fun h => h2 h.1), if_neg (fun h => h2 h.1)]

theorem bytesStored.nil (s : State) (a : Nat) : bytesStored s s a [] := fun q => by
  rw [if_neg (by simp)]

/-- Work that leaves the bytes alone stores nothing more. -/
theorem bytesStored.then {s t u : State} {a : Nat} {bs : List Byte} (h : bytesStored s t a bs) (k : ∀ q, u.byte q = t.byte q) :
    bytesStored s u a bs := fun q => (k q).trans (h q)

theorem bytesStored.after {s t u : State} {a : Nat} {bs : List Byte} (h : bytesStored t u a bs) (k : ∀ q, t.byte q = s.byte q) :
    bytesStored s u a bs := fun q => by
  rw [← k q]
  exact h q

/-! ### TENSOR_WRITE -/

theorem State.pends_idle {s : State} {x : Nat} (a : Nat) (h : (s.ctx x).st ≠ .running) : s.pends x a = false := by
  unfold State.pends
  dsimp only
  rw [show ((s.ctx x).st == .running) = false from beq_false_of_ne h, Bool.false_and]

theorem blockOf_aligned {a : Nat} (h : a % 4096 = 0) : blockOf a = a := by
  unfold blockOf
  omega

/-- A whole block written outside a running step is stored in the committed copy. -/
theorem State.writeBlock_stored {s : State} {x a : Nat} {bs : List Byte} (hst : (s.ctx x).st ≠ .running) (ha : a % 4096 = 0)
    (hwf : Memory.wf s.mem = true) : bytesStored s (s.writeBlock x a bs) a bs ∧ Memory.wf (s.writeBlock x a bs).mem = true ∧
    (s.writeBlock x a bs).ctxs = s.ctxs := by
  have e : s.writeBlock x a bs = (s.writeBytes a bs).setCheck a (freshCheck ((s.ctx x).codeAt a) bs) := by
    unfold State.writeBlock
    dsimp only
    rw [s.pends_idle a hst, blockOf_aligned ha]
    rfl
  rw [e]
  exact ⟨bytesStored.then (s.writeBytes_stored hwf a bs) (fun _ => rfl), State.wf_writeBytes hwf a bs, rfl⟩

/-- One block of a TENSOR_WRITE: stored, and sent to the buddy where it has to be. -/
def State.hostWriteBlock (s : State) (x : Nat) (t : Tensor) (b : Nat) (bs : List Byte) : State :=
  let u := s.writeBlock x (t.blockAddr b) bs
  if t.persistent && ((u.ctx x).st == .armed || (u.ctx x).st == .held) && (u.ctx x).gey.bound then
    u.sendBlock x (u.ctx x).gey.buddy true t.tensorId (t.blockAddr b) (u.checkAt (t.blockAddr b)).value bs (u.ctx x).lastStep 0 true
  else u

theorem State.hostWriteBlocks_succ (s : State) (x : Nat) (t : Tensor) (b n : Nat) (bs : List Byte) :
    s.hostWriteBlocks x t b (n + 1) bs = (s.hostWriteBlock x t b (bs.take 4096)).hostWriteBlocks x t (b + 1) n (bs.drop 4096) := rfl

theorem State.hostWriteBlock_stores {s : State} {x b : Nat} {t : Tensor} {bs : List Byte} (hst : (s.ctx x).st ≠ .running) (hb : t.base % 4096 = 0)
    (hwf : Memory.wf s.mem = true) : bytesStored s (s.hostWriteBlock x t b bs) (t.blockAddr b) bs ∧
    Memory.wf (s.hostWriteBlock x t b bs).mem = true ∧ ((s.hostWriteBlock x t b bs).ctx x).st = (s.ctx x).st := by
  have ha : t.blockAddr b % 4096 = 0 := by
    unfold Tensor.blockAddr
    omega
  obtain ⟨hstored, hw, hctxs⟩ := State.writeBlock_stored (bs := bs) hst ha hwf
  have hctx : ((s.writeBlock x (t.blockAddr b) bs).ctx x).st = (s.ctx x).st := by rw [State.ctx, hctxs]; rfl
  unfold State.hostWriteBlock
  generalize s.writeBlock x (t.blockAddr b) bs = u at hstored hw hctx ⊢
  dsimp only
  split
  · have hframe := u.sendBlock_frame x (u.ctx x).gey.buddy true t.tensorId (t.blockAddr b) (u.checkAt (t.blockAddr b)).value bs (u.ctx x).lastStep 0 true
    have hmem := (hframe _ (Foot.sub (by decide) (Foot.refl _))).mem_eq
    exact ⟨hstored.then (hframe _ (Foot.sub (by decide) (Foot.refl _))).byte_eq, by rw [hmem]; exact hw,
      ((hframe _ (Foot.sub (by decide) (Foot.refl _))).ctx_st_eq x).trans hctx⟩
  · exact ⟨hstored, hw, hctx⟩

/-- The blocks of a TENSOR_WRITE store the payload. -/
theorem State.hostWriteBlocks_stores {x : Nat} {t : Tensor} (hb : t.base % 4096 = 0) (n : Nat) {s : State} (b : Nat) {bs : List Byte}
    (hst : (s.ctx x).st ≠ .running) (hwf : Memory.wf s.mem = true) (hlen : bs.length = 4096 * n) :
    bytesStored s (s.hostWriteBlocks x t b n bs) (t.blockAddr b) bs := by
  induction n generalizing s b bs with
  | zero =>
    have hnil : bs = [] := List.eq_nil_of_length_eq_zero hlen
    rw [hnil]
    exact bytesStored.nil s _
  | succ n ih =>
    obtain ⟨hstored, hw, hs⟩ := State.hostWriteBlock_stores (b := b) (bs := bs.take 4096) hst hb hwf
    have htake : (bs.take 4096).length = 4096 := by rw [List.length_take]; omega
    have hnext : t.blockAddr b + (bs.take 4096).length = t.blockAddr (b + 1) := by
      unfold Tensor.blockAddr
      omega
    have hrest := ih (s := s.hostWriteBlock x t b (bs.take 4096)) (b + 1) (bs := bs.drop 4096) (by rw [hs]; exact hst) hw
      (by rw [List.length_drop]; omega)
    rw [← hnext] at hrest
    rw [State.hostWriteBlocks_succ]
    have := hstored.append hrest
    rwa [List.take_append_drop] at this

/-- A TENSOR_WRITE of whole blocks, before it completes or waits. -/
def State.hostWritten (s : State) (x : Nat) (t : Tensor) (b n : Nat) (bs : List Byte) : State :=
  (s.hostWriteBlocks x t b n bs).updCtx x (fun c => { c with hostWrite := true })

/-- The blocks of a TENSOR_WRITE wait for the buddy's acknowledgement. -/
def State.awaitBuddy (s : State) (x q n ring : Nat) : State :=
  s.updGey x (fun g => { g with writeAcks := g.writeAcks ++ (List.range n).map (fun i => ((q + 4 * i) % 2 ^ 32, ring)) })

/-- The tensor of a transfer inside its blocks. -/
theorem transferOf_inside {c : Ctx} {t first n : Nat} {d : Tensor} (ht : c.tensor t = some d) (hio : d.hostIo = true) (hin : first + n ≤ d.blocks) :
    transferOf c t first n = some (d, true) := by
  unfold transferOf
  rw [ht]
  dsimp only
  rw [if_pos hio, decide_eq_true hin]

theorem tensorWrite_writes {s : State} {n k : Nat} {a : Staged} {d : Tensor} (hx : s.executes n 0x20 a) (hc : a.e.ctx < 16)
    (hst : (s.ctx a.e.ctx).st = .loaded ∨ (s.ctx a.e.ctx).st = .armed ∨ (s.ctx a.e.ctx).st = .held)
    (ht : (s.ctx a.e.ctx).tensor (a.par 32 4) = some d) (hio : d.hostIo = true) (hlen : a.payload.length = 4096 * k)
    (hin : a.par 36 4 + k ≤ d.blocks) : exec (.tensorWrite n) s =
      if (d.persistent && ((s.ctx a.e.ctx).st == .armed || (s.ctx a.e.ctx).st == .held) && (s.ctx a.e.ctx).gey.bound && decide (0 < k)) = true then
        .next ((s.hostWritten a.e.ctx d (a.par 36 4) k a.payload).awaitBuddy a.e.ctx s.fab.dataSeq k n)
      else .next ((s.hostWritten a.e.ctx d (a.par 36 4) k a.payload).complete n a 0 k) := by
  have hk : a.payload.length / 4096 = k := by rw [hlen]; omega
  have hgo : ¬ (!((s.ctx a.e.ctx).st == .loaded || (s.ctx a.e.ctx).st == .armed || (s.ctx a.e.ctx).st == .held)) = true := by
    rcases hst with h | h | h <;> rw [h] <;> decide
  have htr := transferOf_inside ht hio hin
  by_cases hwait : (d.persistent && ((s.ctx a.e.ctx).st == .armed || (s.ctx a.e.ctx).st == .held) && (s.ctx a.e.ctx).gey.bound && decide (0 < k)) = true
  · rw [if_pos hwait]
    refine exec_waits hx ?_
    simp only [if_neg (Nat.not_le.2 hc), if_neg hgo, hk, htr]
    exact if_pos hwait
  · rw [if_neg hwait]
    refine exec_completes hx ?_
    simp only [if_neg (Nat.not_le.2 hc), if_neg hgo, hk, htr]
    exact if_neg hwait

/-! ### TENSOR_READ -/

/-- A block of the committed copy whose record is good is read as it is. -/
theorem State.readBlock_good {s : State} {x a : Nat} (unit opId layer : Nat) (hp : KMap.find (s.ctx x).pend (blockOf a) = none) (hpoison : (s.checkAt a).poison = false)
    (hf : (s.checkAt a).fails ((s.ctx x).codeAt a) (s.readBytes (blockOf a) 4096) = 0) :
    s.readBlock x a unit opId layer .good = (some (s.readBytes (blockOf a) 4096), s) := by
  have hb : s.blockBytes x a = s.readBytes (blockOf a) 4096 := by
    unfold State.blockBytes
    rw [hp]
  have hr : s.blockRecord x a = s.checkAt a := by
    unfold State.blockRecord
    rw [hp]
  unfold State.readBlock
  dsimp only
  rw [hb, hr, hpoison, hf]
  rfl

/-- Blocks whose records are good are read one after another. -/
theorem State.hostReadBlocks_good {s : State} {x : Nat} {t : Tensor} (hp : (s.ctx x).pend = []) (n b : Nat)
    (hgood : ∀ i, b ≤ i → i < b + n → (s.checkAt (t.blockAddr i)).poison = false ∧
      (s.checkAt (t.blockAddr i)).fails ((s.ctx x).codeAt (t.blockAddr i)) (s.readBytes (blockOf (t.blockAddr i)) 4096) = 0) :
    s.hostReadBlocks x t b n .good =
      (some ((List.range n).map (fun i => s.readBytes (blockOf (t.blockAddr (b + i))) 4096)).flatten, s) := by
  induction n generalizing b with
  | zero => rfl
  | succ n ih =>
    obtain ⟨hpoison, hf⟩ := hgood b (Nat.le_refl b) (by omega)
    have hrest := ih (b + 1) fun i hi hlt => hgood i (by omega) (by omega)
    have hfind : KMap.find (s.ctx x).pend (blockOf (t.blockAddr b)) = none := by rw [hp]; rfl
    rw [State.hostReadBlocks, State.readBlock_good 7 0 0 hfind hpoison hf]
    dsimp only
    rw [hrest, List.range_succ_eq_map, List.map_cons, List.map_map, List.flatten_cons]
    simp only [Option.map_some, Function.comp_def, Nat.add_zero, Nat.add_assoc, Nat.add_comm 1, Nat.succ_eq_add_one]

/-- What the host reads while a step may run: the committed copy, the pending slots untouched. -/
theorem State.hostRead_good {s : State} {x : Nat} {t : Tensor} (b n : Nat)
    (hgood : ∀ i, b ≤ i → i < b + n → (s.checkAt (t.blockAddr i)).poison = false ∧
      (s.checkAt (t.blockAddr i)).fails ((s.ctx x).codeAt (t.blockAddr i)) (s.readBytes (blockOf (t.blockAddr i)) 4096) = 0) :
    s.hostRead x t b n .good = (some ((List.range n).map (fun i => s.readBytes (blockOf (t.blockAddr (b + i))) 4096)).flatten,
      (s.updCtx x (fun c => { c with pend := [] })).updCtx x (fun c => { c with pend := (s.ctx x).pend })) := by
  have hcode : ∀ i, ((s.updCtx x (fun c => { c with pend := [] })).ctx x).codeAt i = (s.ctx x).codeAt i := fun i => by
    rw [State.ctx_updCtx_self]
    rfl
  have h := State.hostReadBlocks_good (s := s.updCtx x (fun c => { c with pend := [] })) (x := x) (t := t) (by rw [State.ctx_updCtx_self]) n b
    fun i hi hlt => by
      rw [hcode]
      exact hgood i hi hlt
  unfold State.hostRead
  dsimp only
  rw [h]
  rfl

/-- The read of a running step is noted at its boundary, and the pending slots stand aside and come back. -/
def State.committedRead (s : State) (x : Nat) : State :=
  let u := if (s.ctx x).st = .running then s.updCtx x (fun c => { c with reasons := setBit c.reasons 7 true }) else s
  (u.updCtx x (fun c => { c with pend := [] })).updCtx x (fun c => { c with pend := (u.ctx x).pend })

theorem tensorRead_reads {s : State} {n : Nat} {a : Staged} {d : Tensor} (hx : s.executes n 0x21 a) (hc : a.e.ctx < 16)
    (hst : (s.ctx a.e.ctx).st = .loaded ∨ (s.ctx a.e.ctx).st = .armed ∨ (s.ctx a.e.ctx).st = .held ∨
      ((s.ctx a.e.ctx).st = .running ∧ d.persistent = true))
    (ht : (s.ctx a.e.ctx).tensor (a.par 32 4) = some d) (hio : d.hostIo = true) (hin : a.par 36 4 + a.e.payloadLen / 4096 ≤ d.blocks)
    (hgood : ∀ b, a.par 36 4 ≤ b → b < a.par 36 4 + a.e.payloadLen / 4096 → (s.checkAt (d.blockAddr b)).poison = false ∧
      (s.checkAt (d.blockAddr b)).fails ((s.ctx a.e.ctx).codeAt (d.blockAddr b)) (s.readBytes (blockOf (d.blockAddr b)) 4096) = 0) :
    exec (.tensorRead n .good) s = .next (((s.committedRead a.e.ctx).hostPayload a
      (((List.range (a.e.payloadLen / 4096)).map (fun i => s.readBytes (blockOf (d.blockAddr (a.par 36 4 + i))) 4096)).flatten)).complete n a 0
        (a.e.payloadLen / 4096)) := by
  have hgo : ¬ (!((s.ctx a.e.ctx).st == .loaded || (s.ctx a.e.ctx).st == .armed || (s.ctx a.e.ctx).st == .held ||
      (s.ctx a.e.ctx).st == .running)) = true := by
    rcases hst with h | h | h | ⟨h, -⟩ <;> rw [h] <;> decide
  have hrun : ¬ ((s.ctx a.e.ctx).st = .running ∧ (!d.persistent) = true) := by
    rintro ⟨h, hp⟩
    rcases hst with k | k | k | ⟨-, k⟩
    · cases k.symm.trans h
    · cases k.symm.trans h
    · cases k.symm.trans h
    · rw [k] at hp
      cases hp
  have htr := transferOf_inside ht hio hin
  refine exec_completes hx ?_
  simp only [if_neg (Nat.not_le.2 hc), if_neg hgo, htr, if_neg hrun]
  by_cases hr : (s.ctx a.e.ctx).st = .running
  · have hcode : ∀ i, ((s.updCtx a.e.ctx (fun c => { c with reasons := setBit c.reasons 7 true })).ctx a.e.ctx).codeAt i =
        (s.ctx a.e.ctx).codeAt i := fun i => by
      rw [State.ctx_updCtx_self]
      rfl
    have hread := State.hostRead_good (s := s.updCtx a.e.ctx (fun c => { c with reasons := setBit c.reasons 7 true })) (x := a.e.ctx) (t := d)
      (a.par 36 4) (a.e.payloadLen / 4096) fun i hi hlt => by
        rw [hcode]
        exact hgood i hi hlt
    unfold State.committedRead
    simp only [if_pos hr, hread]
    rfl
  · have hread := State.hostRead_good (s := s) (x := a.e.ctx) (t := d) (a.par 36 4) (a.e.payloadLen / 4096) hgood
    unfold State.committedRead
    simp only [if_neg hr, hread]
    rfl

/-- The read changes only its own context, and leaves its pending slots. -/
theorem State.committedRead_parts (s : State) (x : Nat) : (s.committedRead x).mbx = s.mbx ∧ (s.committedRead x).mem = s.mem ∧
    (s.committedRead x).out = s.out ∧ ((s.committedRead x).ctx x).pend = (s.ctx x).pend ∧
    ∀ y, y ≠ x → (s.committedRead x).ctx y = s.ctx y := by
  unfold State.committedRead
  by_cases hr : (s.ctx x).st = .running
  · simp only [if_pos hr]
    refine ⟨rfl, rfl, rfl, ?_, fun y hy => ?_⟩
    · rw [State.ctx_updCtx_self]
      dsimp only
      rw [State.ctx_updCtx_self]
    · rw [State.ctx_updCtx_ne _ _ hy, State.ctx_updCtx_ne _ _ hy, State.ctx_updCtx_ne _ _ hy]
  · simp only [if_neg hr]
    refine ⟨rfl, rfl, rfl, ?_, fun y hy => ?_⟩
    · rw [State.ctx_updCtx_self]
    · rw [State.ctx_updCtx_ne _ _ hy, State.ctx_updCtx_ne _ _ hy]

theorem tensorRead_completes {s : State} {n : Nat} {a : Staged} {d : Tensor} (hx : s.executes n 0x21 a) (hc : a.e.ctx < 16)
    (hst : (s.ctx a.e.ctx).st = .loaded ∨ (s.ctx a.e.ctx).st = .armed ∨ (s.ctx a.e.ctx).st = .held ∨
      ((s.ctx a.e.ctx).st = .running ∧ d.persistent = true))
    (ht : (s.ctx a.e.ctx).tensor (a.par 32 4) = some d) (hio : d.hostIo = true) (hin : a.par 36 4 + a.e.payloadLen / 4096 ≤ d.blocks)
    (hgood : ∀ b, a.par 36 4 ≤ b → b < a.par 36 4 + a.e.payloadLen / 4096 → (s.checkAt (d.blockAddr b)).poison = false ∧
      (s.checkAt (d.blockAddr b)).fails ((s.ctx a.e.ctx).codeAt (d.blockAddr b)) (s.readBytes (blockOf (d.blockAddr b)) 4096) = 0) :
    ∃ t, exec (.tensorRead n .good) s = .next t ∧ completed s t n a 0 (a.e.payloadLen / 4096) ∧
      (s.mbx.linkUp = true ∧ s.mbx.busMaster = true ∧ s.mbx.hostLoss = false → sentBetween s t (.hostWrite a.e.payloadAddr
        (((List.range (a.e.payloadLen / 4096)).map (fun i => s.readBytes (blockOf (d.blockAddr (a.par 36 4 + i))) 4096)).flatten))) ∧
      (∀ y, y ≠ a.e.ctx → t.ctx y = s.ctx y) ∧ (t.ctx a.e.ctx).pend = (s.ctx a.e.ctx).pend ∧ t.mem = s.mem := by
  refine ⟨_, tensorRead_reads hx hc hst ht hio hin hgood, ?_⟩
  generalize ((List.range (a.e.payloadLen / 4096)).map (fun i => s.readBytes (blockOf (d.blockAddr (a.par 36 4 + i))) 4096)).flatten = bs
  obtain ⟨hmbx, hmem, hout, hpend, hctx⟩ := s.committedRead_parts a.e.ctx
  generalize s.committedRead a.e.ctx = u at hmbx hmem hout hpend hctx
  obtain ⟨o, e⟩ := u.hostPayload_fields a bs
  have hparts : (u.hostPayload a bs).mbx = u.mbx ∧ (u.hostPayload a bs).mem = u.mem ∧ ∀ y, (u.hostPayload a bs).ctx y = u.ctx y := by
    rw [e]
    exact ⟨rfl, rfl, fun _ => rfl⟩
  obtain ⟨hm, hmem', hctx'⟩ := hparts
  have hsuf : s.out <:+ (u.hostPayload a bs).out := hout ▸ u.hostPayload_suffix a bs
  refine ⟨completed_of (hm.trans hmbx) hsuf n a 0 _, fun hhost => ?_, fun y hy => ?_, ?_, ?_⟩
  · exact ((u.hostPayload_sent a bs (hmbx ▸ hhost)).before (hout ▸ List.suffix_rfl)).mono (State.complete_suffix _ n a 0 _)
  · rw [State.complete_ctx, hctx', hctx y hy]
  · rw [State.complete_ctx, hctx', hpend]
  · rw [State.complete_mem, hmem', hmem]

/-! ### DUMP_REQUEST -/

/-- The dump a request for the end of a step to come asks for. -/
def Staged.dump (a : Staged) (s : State) (bufs : List (Nat × Nat)) : Dump :=
  { handle := s.mbx.dumpSeq % 2 ^ 32, tensorId := a.par 32 4, step := a.par 36 6, afterOp := none, listAddr := a.par 48 8, buffers := bufs,
    bytesWritten := 0, overflow := false, captured := false, attempt := 0 }

/-- A dump is held with the next handle. -/
def State.holdDump (s : State) (x : Nat) (d : Dump) : State :=
  (s.updMbx (fun m => { m with dumpSeq := m.dumpSeq + 1 })).updCtx x (fun c => { c with dumps := c.dumps ++ [d] })

theorem dumpRequest_holds {s : State} {n : Nat} {a : Staged} {list : List Byte} {td : Tensor} {bufs : List (Nat × Nat)} (hx : s.executes n 0x30 a)
    (hc : a.e.ctx < 16) (hst : (s.ctx a.e.ctx).st = .loaded) (hstep : (s.ctx a.e.ctx).committed ≠ some (a.par 36 6))
    (ht : (s.ctx a.e.ctx).tensor (a.par 32 4) = some td) (hb : dumpBuffers list = some bufs) (hroom : (s.ctx a.e.ctx).dumps.length < 16)
    (hwhen : a.par 42 1 = 0) (hz : a.par 43 1 = 0) (hop : a.par 44 4 = 0) (hz' : a.par 56 8 = 0) (hl : a.par 48 8 % 4096 = 0) :
    exec (.dumpRequest n list) s = .next ((s.holdDump a.e.ctx (a.dump s bufs)).complete n a 0 (s.mbx.dumpSeq % 2 ^ 32)) := by
  have hserved : ((s.ctx a.e.ctx).committed == some (a.par 36 6)) = false := beq_false_of_ne hstep
  have hfull : decide (16 ≤ (s.ctx a.e.ctx).dumps.length) = false := decide_eq_false (Nat.not_le.2 hroom)
  refine exec_completes hx ?_
  simp only [if_neg (Nat.not_le.2 hc), hst, ht, hb, hserved, hfull, hwhen, hz, hop, hz', hl]
  rfl

theorem dumpRequest_completes {s : State} {n : Nat} {a : Staged} {list : List Byte} {td : Tensor} {bufs : List (Nat × Nat)}
    (hx : s.executes n 0x30 a) (hc : a.e.ctx < 16) (hst : (s.ctx a.e.ctx).st = .loaded) (hstep : (s.ctx a.e.ctx).committed ≠ some (a.par 36 6))
    (ht : (s.ctx a.e.ctx).tensor (a.par 32 4) = some td) (hb : dumpBuffers list = some bufs) (hroom : (s.ctx a.e.ctx).dumps.length < 16)
    (hwhen : a.par 42 1 = 0) (hz : a.par 43 1 = 0) (hop : a.par 44 4 = 0) (hz' : a.par 56 8 = 0) (hl : a.par 48 8 % 4096 = 0) :
    ∃ t, exec (.dumpRequest n list) s = .next t ∧ completed s t n a 0 (s.mbx.dumpSeq % 2 ^ 32) ∧ t.mbx.dumpSeq = s.mbx.dumpSeq + 1 ∧
      (∃ d : Dump, (t.ctx a.e.ctx).dumps = (s.ctx a.e.ctx).dumps ++ [d] ∧ d.handle = s.mbx.dumpSeq % 2 ^ 32 ∧ d.tensorId = a.par 32 4 ∧
        d.step = a.par 36 6 ∧ d.afterOp = none ∧ d.listAddr = a.par 48 8 ∧ d.buffers = bufs ∧ d.captured = false) ∧
      (∀ y, y ≠ a.e.ctx → t.ctx y = s.ctx y) ∧ t.mem = s.mem := by
  have hpair : samePair n s (s.holdDump a.e.ctx (a.dump s bufs)) := ⟨rfl, rfl, rfl, rfl⟩
  refine ⟨_, dumpRequest_holds hx hc hst hstep ht hb hroom hwhen hz hop hz' hl, completed_of_pair hpair List.suffix_rfl a 0 _, ?_,
    ⟨a.dump s bufs, ?_, rfl, rfl, rfl, rfl, rfl, rfl, rfl⟩, fun y hy => ?_, ?_⟩
  · rw [State.complete_mbx_dumpSeq]
    rfl
  · rw [State.complete_ctx, State.holdDump, State.ctx_updCtx_self]
    rfl
  · rw [State.complete_ctx, State.holdDump, State.ctx_updCtx_ne _ _ hy]
    rfl
  · rw [State.complete_mem]
    rfl

/-! ### The obligation -/

/-- What a TENSOR_WRITE leaves before it completes or waits. -/
theorem State.hostWritten_parts {s : State} {x b n : Nat} {t : Tensor} {bs : List Byte} (hst : (s.ctx x).st ≠ .running) (hb : t.base % 4096 = 0)
    (hwf : Memory.wf s.mem = true) (hlen : bs.length = 4096 * n) : bytesStored s (s.hostWritten x t b n bs) (t.blockAddr b) bs ∧
    ((s.hostWritten x t b n bs).ctx x).hostWrite = true ∧ (s.hostWritten x t b n bs).mbx = s.mbx ∧
    s.out <:+ (s.hostWritten x t b n bs).out := by
  have hmbx : (s.hostWriteBlocks x t b n bs).mbx = s.mbx :=
    (s.hostWriteBlocks_only x t b n bs (Foot.sub (by decide) (Foot.refl _)) (Only.refl _ s)).mbx_eq
  refine ⟨(State.hostWriteBlocks_stores hb n b hst hwf hlen).then fun _ => rfl, ?_, hmbx,
    (State.hostWriteBlocks_keeps (pw := false) x t b n bs (Keeps.refl _ s)).sent⟩
  rw [State.hostWritten, State.ctx_updCtx_self]

theorem tensorWrite_stores {s : State} {n k : Nat} {a : Staged} {d : Tensor} (hx : s.executes n 0x20 a) (hc : a.e.ctx < 16)
    (hst : (s.ctx a.e.ctx).st = .loaded ∨ (s.ctx a.e.ctx).st = .armed ∨ (s.ctx a.e.ctx).st = .held)
    (ht : (s.ctx a.e.ctx).tensor (a.par 32 4) = some d) (hio : d.hostIo = true) (hb : d.base % 4096 = 0) (hlen : a.payload.length = 4096 * k)
    (hin : a.par 36 4 + k ≤ d.blocks) (hwf : Memory.wf s.mem = true) :
    ∃ t, exec (.tensorWrite n) s = .next t ∧ (t.ctx a.e.ctx).hostWrite = true ∧
      (∀ q, t.byte q = if d.blockAddr (a.par 36 4) ≤ q ∧ q < d.blockAddr (a.par 36 4) + 4096 * k
        then a.payload.getD (q - d.blockAddr (a.par 36 4)) 0#8 else s.byte q) ∧
      ((s.ctx a.e.ctx).st = .loaded ∨ d.persistent = false ∨ (s.ctx a.e.ctx).gey.bound = false → completed s t n a 0 k) ∧
      ((s.ctx a.e.ctx).st ≠ .loaded → d.persistent = true → (s.ctx a.e.ctx).gey.bound = true → 0 < k → t.mbx = s.mbx) := by
  have hidle : (s.ctx a.e.ctx).st ≠ .running := by
    rcases hst with h | h | h <;> rw [h] <;> decide
  obtain ⟨hstored, hhost, hmbx, hsuf⟩ := State.hostWritten_parts (b := a.par 36 4) hidle hb hwf hlen
  have hbytes : ∀ t : State, (∀ q, t.byte q = (s.hostWritten a.e.ctx d (a.par 36 4) k a.payload).byte q) → ∀ q, t.byte q =
      if d.blockAddr (a.par 36 4) ≤ q ∧ q < d.blockAddr (a.par 36 4) + 4096 * k then a.payload.getD (q - d.blockAddr (a.par 36 4)) 0#8
      else s.byte q := fun t ht q => by
    rw [← hlen]
    exact hstored.then ht q
  rw [tensorWrite_writes hx hc hst ht hio hlen hin]
  split
  next hwait =>
    simp only [Bool.and_eq_true, Bool.or_eq_true, beq_iff_eq, decide_eq_true_eq] at hwait
    obtain ⟨⟨⟨hp, hs⟩, hbound⟩, -⟩ := hwait
    refine ⟨_, rfl, ?_, hbytes _ fun _ => rfl, ?_, fun _ _ _ _ => hmbx⟩
    · rw [State.awaitBuddy, State.ctx_updGey_self]
      exact hhost
    · rintro (h | h | h)
      · rw [h] at hs
        rcases hs with hs | hs <;> cases hs
      · cases hp.symm.trans h
      · cases hbound.symm.trans h
  next hno =>
    refine ⟨_, rfl, ?_, hbytes _ fun q => ?_, fun _ => completed_of hmbx hsuf n a 0 k, fun hs hp hbound hk => ?_⟩
    · rw [State.complete_ctx]
      exact hhost
    · rw [State.byte, State.complete_mem]
      rfl
    · refine absurd ?_ hno
      simp only [Bool.and_eq_true, Bool.or_eq_true, beq_iff_eq, decide_eq_true_eq]
      exact ⟨⟨⟨hp, hst.resolve_left hs⟩, hbound⟩, hk⟩

/-- Settles O14: a TENSOR_WRITE stores its blocks one after another (`State.hostWriteBlocks_stores`), a TENSOR_READ reads blocks whose records are
good (`tensorRead_completes`), a DUMP_REQUEST holds its dump (`dumpRequest_completes`). -/
theorem tensorTransfersAndDumpsComplete : Obligations.TensorTransfersAndDumpsComplete :=
  ⟨fun _ _ _ _ _ => tensorWrite_stores, fun _ _ _ _ => tensorRead_completes, fun _ _ _ _ _ _ => dumpRequest_completes⟩

end Sys2Proof.Machine
end

section
/-!
Containment: hangs, overrun bounds, refills and failed die links (11 R276 to R285).
-/
namespace Sys2Proof.Machine

-- Proofs elaborated one after another keep the whole text within the memory its compile is given.
set_option Elab.async false

/-! ### Fault reports -/

/-- The counters of a report. -/
def reportCtrs : List Ctr := [.detCheck, .detAnchor, .detSquare, .detShadow]

theorem State.countReport_ctr (s : State) (source : Nat) {c : Ctr} {i : Nat} (hc : c ∉ reportCtrs) (hi : i < 2 ^ 24) :
    (s.countReport source).ctr c i = s.ctr c i := by
  have hne : ∀ d ∈ reportCtrs, (s.bump d 0).ctr c i = s.ctr c i := fun d hd =>
    State.ctr_bump_ne _ _ (by decide) hi (.inl fun h => hc (h ▸ hd))
  unfold State.countReport
  split
  · exact hne _ (by decide)
  · exact hne _ (by decide)
  · exact hne _ (by decide)
  · exact hne _ (by decide)
  · exact hne _ (by decide)
  · exact hne _ (by decide)
  · rfl

theorem State.countReport_ctxs (s : State) (source : Nat) : (s.countReport source).ctxs = s.ctxs := by
  unfold State.countReport
  split <;> rfl

/-- A report counts its check and what recording counts. -/
theorem State.report_ctr (s : State) (x : Nat) (f : FaultParam) {c : Ctr} {i : Nat} (hc : c ∉ reportCtrs) (hr : c ∉ recorderCtrs) (hi : i < 2 ^ 24) :
    (s.report x f).ctr c i = s.ctr c i :=
  (State.countReport_ctr _ _ hc hi).trans (State.record_ctr _ _ hr hi)

theorem State.report_suffix (s : State) (x : Nat) (f : FaultParam) : s.out <:+ (s.report x f).out :=
  (State.report_keeps (pw := false) x f (Keeps.refl _ s)).sent

/-- The report goes to the coordinator of the context's job. -/
theorem State.report_sent (s : State) (x : Nat) (f : FaultParam) :
    ctrlSent s (s.report x f) (s.ctx x).coordLocus 0x05 (s.ctx x).step (s.ctx x).attempt f.pack := by
  have hout : ∀ u : State, (u.countReport f.source).out = u.out := fun u => by
    unfold State.countReport
    split <;> rfl
  unfold State.report
  extract_lets c u p v w y
  exact (y.sendCtrl_sent _ _ _ _ _ _).before ⟨[], (hout v).symm⟩

theorem State.report_ctx_self (s : State) (x : Nat) (f : FaultParam) : (s.report x f).ctx x = { s.ctx x with faulted := true } := by
  unfold State.report
  extract_lets c u p v w y
  have hw : w.ctx x = s.ctx x := by rw [State.ctx, State.countReport_ctxs]; rfl
  rw [State.ctx_of_sendCtrl, State.ctx_updCtx_self, hw]

theorem State.report_ctx_ne (s : State) {x y : Nat} (f : FaultParam) (h : y ≠ x) : (s.report x f).ctx y = s.ctx y := by
  unfold State.report
  extract_lets c u p v w z
  have hw : w.ctx y = s.ctx y := by rw [State.ctx, State.countReport_ctxs]; rfl
  rw [State.ctx_of_sendCtrl, State.ctx_updCtx_ne _ _ h, hw]

theorem State.report_dieBreak (s : State) (x : Nat) (f : FaultParam) : (s.report x f).fab.dieBreak = s.fab.dieBreak := by
  have hfab : ∀ u : State, (u.countReport f.source).fab = u.fab := fun u => by
    unfold State.countReport
    split <;> rfl
  unfold State.report
  extract_lets c u p v w y
  show ((v.countReport f.source).fab).dieBreak = _
  rw [hfab v]
  rfl

/-- What a report leaves of every context: all but its fault. -/
theorem State.report_keeps_ctx {α : Type} (π : Ctx → α) (hπ : ∀ (c : Ctx) b, π { c with faulted := b } = π c) (s : State) (x : Nat) (f : FaultParam)
    (y : Nat) : π ((s.report x f).ctx y) = π (s.ctx y) := by
  by_cases h : y = x
  · rw [h, s.report_ctx_self x f, hπ]
  · rw [s.report_ctx_ne f h]

/-! ### Reports of several contexts -/

/-- What a report to a coordinator names. -/
def Ctx.address (c : Ctx) : Nat × Nat × Nat := (c.coordLocus, c.step, c.attempt)

theorem Ctx.address_faulted (c : Ctx) (b : Bool) : ({ c with faulted := b } : Ctx).address = c.address := rfl

/-- Reports of the contexts of a list. -/
def State.reportAll (s : State) (l : List Nat) (f : FaultParam) : State := forEach l s (fun s x => s.report x f)

theorem State.reportAll_only (l : List Nat) (f : FaultParam) {ps : Nat} {s0 s : State} (hp : Foot 144115188090668112 ps) (h : Only ps s0 s) :
    Only ps s0 (s.reportAll l f) := forEach_only l h fun _ x hu => State.report_only x f hp hu

theorem State.reportAll_suffix (s : State) (l : List Nat) (f : FaultParam) : s.out <:+ (s.reportAll l f).out :=
  forEach_suffix (fun u x => u.report_suffix x f) l s

theorem State.reportAll_ctr (s : State) (l : List Nat) (f : FaultParam) {c : Ctr} {i : Nat} (hc : c ∉ reportCtrs) (hr : c ∉ recorderCtrs)
    (hi : i < 2 ^ 24) : (s.reportAll l f).ctr c i = s.ctr c i :=
  forEach_keeps_reading (fun u : State => u.ctr c i) (fun u x => u.report_ctr x f hc hr hi) l s

theorem State.reportAll_keeps_ctx {α : Type} (π : Ctx → α) (hπ : ∀ (c : Ctx) b, π { c with faulted := b } = π c) (s : State) (l : List Nat)
    (f : FaultParam) (y : Nat) : π ((s.reportAll l f).ctx y) = π (s.ctx y) :=
  forEach_keeps_reading (fun u : State => π (u.ctx y)) (fun u x => u.report_keeps_ctx π hπ x f y) l s

theorem State.reportAll_faulted (l : List Nat) (f : FaultParam) {y : Nat} (s : State) (h : y ∈ l ∨ (s.ctx y).faulted = true) :
    ((s.reportAll l f).ctx y).faulted = true := by
  induction l generalizing s with
  | nil => exact h.resolve_left (List.not_mem_nil)
  | cons x l ih =>
    refine ih (s.report x f) ?_
    by_cases hy : y = x
    · right
      rw [hy, s.report_ctx_self x f]
    · rw [s.report_ctx_ne f hy]
      exact h.imp_left fun hm => (List.mem_cons.1 hm).resolve_left hy

theorem State.reportAll_ctx_ne (l : List Nat) (f : FaultParam) {y : Nat} (s : State) (h : y ∉ l) : (s.reportAll l f).ctx y = s.ctx y := by
  induction l generalizing s with
  | nil => rfl
  | cons x l ih =>
    obtain ⟨hx, hl⟩ := not_or.1 (mt List.mem_cons.2 h)
    exact (ih (s.report x f) hl).trans (s.report_ctx_ne f hx)

/-! ### Hangs (R284, R285) -/

/-- A hang's report of one context; an action that loses no data leaves its step unharmed. -/
def State.hangNote (s : State) (f : FaultParam) (loses : Bool) (x : Nat) : State :=
  if loses then s.report x f else (s.report x f).updCtx x (fun c => { c with faulted := (s.ctx x).faulted })

theorem State.reportHang_eq {s : State} {u : HangUnit} {f : FaultParam} (loses : Bool) (h : hangReport u = some f) :
    s.reportHang u loses = forEach (s.servedBy u) s (fun s x => s.hangNote f loses x) := by
  unfold State.reportHang
  rw [h]
  rfl

theorem State.reportHang_loses {s : State} {u : HangUnit} {f : FaultParam} (h : hangReport u = some f) :
    s.reportHang u true = s.reportAll (s.servedBy u) f := State.reportHang_eq true h

theorem State.mem_servedBy {s : State} {u : HangUnit} {x : Nat} :
    x ∈ s.servedBy u ↔ x < 16 ∧ (s.ctx x).st = .running ∧ ∀ p, unitPart u = some p → inMask (s.ctx x).mask p = true := by
  unfold State.servedBy ctxIds
  rw [List.mem_filter, List.mem_range, Bool.and_eq_true, beq_iff_eq]
  cases unitPart u with
  | none => simp
  | some p => simp

/-- An action that loses no data leaves every context as it is. -/
theorem State.hangNote_harmless (s : State) (f : FaultParam) (x y : Nat) : (s.hangNote f false x).ctx y = s.ctx y := by
  unfold State.hangNote
  rw [if_neg (by decide)]
  by_cases h : y = x
  · rw [h, State.ctx_updCtx_self, s.report_ctx_self x f]
  · rw [State.ctx_updCtx_ne _ _ h, s.report_ctx_ne f h]

theorem State.hangNote_suffix (s : State) (f : FaultParam) (loses : Bool) (x : Nat) : s.out <:+ (s.hangNote f loses x).out := by
  unfold State.hangNote
  split
  · exact s.report_suffix x f
  · exact s.report_suffix x f

theorem State.hangNote_sent (s : State) (f : FaultParam) (loses : Bool) (x : Nat) :
    ctrlSent s (s.hangNote f loses x) (s.ctx x).coordLocus 0x05 (s.ctx x).step (s.ctx x).attempt f.pack := by
  unfold State.hangNote
  split
  · exact s.report_sent x f
  · exact s.report_sent x f

theorem State.hangNote_ctr (s : State) (f : FaultParam) (loses : Bool) (x : Nat) {c : Ctr} {i : Nat} (hc : c ∉ reportCtrs) (hr : c ∉ recorderCtrs)
    (hi : i < 2 ^ 24) : (s.hangNote f loses x).ctr c i = s.ctr c i := by
  unfold State.hangNote
  split
  · exact s.report_ctr x f hc hr hi
  · exact s.report_ctr x f hc hr hi

/-- A hang of a unit that has not reached the transients' limit counts one. -/
theorem State.hangTransient_once {s : State} {u : HangUnit} (hl : 1 < s.cfg.transientLimit)
    (hk : KMap.getD s.recov.transients (hangKey u) [] = []) :
    s.hangTransient u = (s.updRecov (fun r => { r with transients := KMap.put r.transients (hangKey u) [s.now] })).bump .detTransient 0 := by
  have hticks : pushTick (KMap.getD s.recov.transients (hangKey u) []) s.now s.cfg.transientWindow = [s.now] := by rw [hk]; rfl
  have hfew : decide (s.cfg.transientLimit ≤ [s.now].length) = false := decide_eq_false (Nat.not_le.2 hl)
  have hno : (s.countTransient (hangKey u)).1 = false := by
    unfold State.countTransient
    rw [hticks]
    exact hfew
  unfold State.hangTransient
  extract_lets t
  rw [if_pos (show (!t.1) = true by rw [show t.1 = false from hno]; rfl)]
  show (s.countTransient (hangKey u)).2 = _
  unfold State.countTransient
  rw [hticks]

/-- A unit whose limit brings no recovery action only counts. -/
theorem State.hangTransient_counts (s : State) {u : HangUnit} (hu : (∃ p, u = .port p) ∨ ∃ h c, u = .calCore h c) :
    ∃ q c, s.hangTransient u = { s with recov := q, ctrs := c } ∧ q.hangs = s.recov.hangs := by
  obtain ⟨p, rfl⟩ | ⟨h, c, rfl⟩ := hu
  · unfold State.hangTransient
    dsimp only
    split
    · exact ⟨_, _, rfl, rfl⟩
    · exact ⟨_, _, rfl, rfl⟩
  · unfold State.hangTransient
    dsimp only
    split
    · exact ⟨_, _, rfl, rfl⟩
    · exact ⟨_, _, rfl, rfl⟩

/-! ### Recovery actions (R272 to R276) -/

/-- An action under no key completed is carried out. -/
theorem State.recover_acts {s : State} (unit level p : Nat) (sq : Bool) (h : s.recov.completed = []) :
    ∃ c, s.recover unit level p sq = State.act 4 (s.updRecov (fun r => { r with completed := c })) unit level p sq := by
  unfold State.recover
  split
  · exact ⟨s.recov.completed, rfl⟩
  next k _ =>
    rw [h]
    exact ⟨_, rfl⟩

/-- A first action of its level is not escalated. -/
theorem State.act_first {s : State} (unit p : Nat) (sq : Bool) (hc : 1 < s.cfg.escalateCount) (ha : ∀ k, KMap.getD s.recov.actions k [] = []) :
    (∃ a, State.act 4 s unit 2 p sq = ((s.updRecov (fun r => { r with actions := a })).recordRecovery 2 unit).bump .recL2 0) ∧
    ∃ a, State.act 4 s unit 3 p sq = (((s.updRecov (fun r => { r with actions := a })).recordRecovery 3 unit).bump .recL3 0).partitionReset p := by
  have hfew : ∀ level, ¬ (s.cfg.escalateCount ≤ [s.now].length ∧ level ≤ 4) := fun level h => absurd h.1 (Nat.not_le.2 hc)
  have hticks : ∀ k, pushTick (KMap.getD s.recov.actions k []) s.now s.cfg.escalateWindow = [s.now] := fun k => by rw [ha]; rfl
  constructor
  · unfold State.act
    dsimp only
    rw [hticks]
    exact ⟨_, if_neg (hfew 2)⟩
  · unfold State.act
    dsimp only
    rw [hticks]
    exact ⟨_, if_neg (hfew 3)⟩

/-- The first level-2 action: counted and recorded. -/
theorem State.recover_two {s : State} (unit p : Nat) (sq : Bool) (h : s.recov.completed = []) (hc : 1 < s.cfg.escalateCount)
    (ha : ∀ k, KMap.getD s.recov.actions k [] = []) : ∃ q, s.recover unit 2 p sq = ((s.updRecov (fun _ => q)).recordRecovery 2 unit).bump .recL2 0 := by
  obtain ⟨c, hrec⟩ := s.recover_acts unit 2 p sq h
  obtain ⟨⟨a, hact⟩, -⟩ := State.act_first (s := s.updRecov (fun r => { r with completed := c })) unit p sq hc ha
  exact ⟨_, hrec.trans hact⟩

/-- The first level-3 action: counted and recorded, and the partition is reset. -/
theorem State.recover_three {s : State} (unit p : Nat) (sq : Bool) (h : s.recov.completed = []) (hc : 1 < s.cfg.escalateCount)
    (ha : ∀ k, KMap.getD s.recov.actions k [] = []) :
    ∃ q, s.recover unit 3 p sq = (((s.updRecov (fun _ => q)).recordRecovery 3 unit).bump .recL3 0).partitionReset p := by
  obtain ⟨c, hrec⟩ := s.recover_acts unit 3 p sq h
  obtain ⟨-, a, hact⟩ := State.act_first (s := s.updRecov (fun r => { r with completed := c })) unit p sq hc ha
  exact ⟨_, hrec.trans hact⟩

/-! ### Partition resets (R279) -/

/-- A partition reset clears the partition's bytes and no others. -/
theorem State.partitionReset_clears (s : State) (p a : Nat) : (s.partitionReset p).byte a = if addrPart a = p then 0#8 else s.byte a := by
  have hloop : (s.partitionReset p).byte a = (s.clearPartition p).byte a := by
    unfold State.partitionReset
    extract_lets u v owners
    refine Only.byte_eq (s := v) (forEach_only owners (Only.refl _ v) fun w x hw => ?_) a
    extract_lets c blocks w1 w2 w3 w4
    have h2 : Only 2361183241430561193727 v w2 := State.updMem_only (Foot.sub (by decide) (Foot.refl _)) (fun _ => rfl)
      (State.updCtx_only (a := 147573952589676412928) (Foot.sub (by decide) (Foot.refl _))
        (by with_unfolding_all (intro c q hq; cases q <;> first | rfl | cases hq)) hw)
    have h3 : Only 2361183241430561193727 v w3 :=
      Only.ite (fun _ => forEach_only blocks h2 fun _ b hu => State.fetchBlock_only x b.1 b.2 (Foot.sub (by decide) (Foot.refl _)) hu) fun _ => h2
    have h4 : Only 2361183241430561193727 v w4 := Only.ite (fun _ => State.noticeReady_only x (Foot.sub (by decide) (Foot.refl _)) h3) fun _ => h3
    split
    · exact h4
    · exact State.sendCtrl_only _ _ _ _ _ _ (Foot.sub (by decide) (Foot.refl _)) (State.updGey_only _ _ (Foot.sub (by decide) (Foot.refl _)) h4)
  have hfilter := Mem.readCell_filter (p := fun b => addrPart b != p) (m := s.mem.bytes) (a := a)
  rw [hloop, State.byte, State.clearPartition, State.updMem_mem, hfilter]
  by_cases h : addrPart a = p
  · rw [if_pos h, h, bne_self_eq_false, if_neg (by decide)]
    rfl
  · rw [if_neg h, if_pos (bne_iff_ne.2 h)]
    rfl

/-! ### The module is lost (R20, R26) -/

theorem State.selfLost_lost {s : State} (reason : Nat) (h : s.recov.lost = false) : (s.selfLost reason).recov.lost = true := by
  unfold State.selfLost
  rw [if_neg (by rw [h]; decide)]
  rfl

/-- The coordinator of every job the module takes part in hears of the loss. -/
theorem State.selfLost_tells {s : State} (reason : Nat) {x : Nat} (h : s.recov.lost = false) (hx : x < 16)
    (hst : (s.ctx x).st = .armed ∨ (s.ctx x).st = .running ∨ (s.ctx x).st = .held) :
    ctrlSent s (s.selfLost reason) (s.ctx x).coordLocus 0x66 (s.ctx x).step (s.ctx x).attempt reason := by
  unfold State.selfLost
  rw [if_neg (by rw [h]; decide)]
  extract_lets live u v
  have hlive : x ∈ live := by
    refine List.mem_filter.2 ⟨List.mem_range.2 hx, ?_⟩
    rcases hst with k | k | k <;> rw [k] <;> rfl
  refine forEach_ctrlSent_while (P := fun w : State => w.ctx x = s.ctx x) (fun w _ => State.sendCtrl_suffix w ..) (fun w _ hw => hw) hlive rfl
    fun w hw => ?_
  rw [hw]
  exact w.sendCtrl_sent _ _ _ _ _ _

/-! ### The clauses -/

theorem hang_runs {s : State} {u : HangUnit} (h : hasUnit u = true) : ∃ t, exec (.hangWindowExpiry u) s = .next t := by
  have hno : ¬ (!hasUnit u) = true := by rw [h]; decide
  exact ⟨_, if_neg hno⟩

/-- The hang is counted and noted, before it is reported. -/
def State.hangCounted (s : State) (hangs : KMap Nat) : State := (s.bump .recHang 0).updRecov (fun r => { r with hangs })

theorem hang_first {s : State} {u : HangUnit} (h : hasUnit u = true) (hnew : KMap.find s.recov.hangs (hangKey u) = none) :
    exec (.hangWindowExpiry u) s = .next ((((s.hangCounted (KMap.put s.recov.hangs (hangKey u) s.now)).reportHang u (losesData u)).hangTransient u).hangFirst u) := by
  show execHangWindowExpiry u s = _
  unfold execHangWindowExpiry
  rw [if_neg (by rw [h]; decide)]
  dsimp only
  rw [hnew]
  rfl

theorem hang_second {s : State} {u : HangUnit} {a : Nat} (h : hasUnit u = true) (hseen : KMap.find s.recov.hangs (hangKey u) = some a)
    (hnow : s.now ≤ a + hangWindow s.cfg u) :
    exec (.hangWindowExpiry u) s = .next ((((s.hangCounted (KMap.del s.recov.hangs (hangKey u))).reportHang u true).hangTransient u).hangSecond u) := by
  show execHangWindowExpiry u s = _
  unfold execHangWindowExpiry
  rw [if_neg (by rw [h]; decide)]
  dsimp only
  rw [hseen, if_pos (decide_eq_true hnow)]
  rfl

theorem State.reportHang_recov (s : State) (u : HangUnit) (b : Bool) : (s.reportHang u b).recov = s.recov :=
  (s.reportHang_only u b (Foot.sub (by decide) (Foot.refl _)) (Only.refl _ s)).recov_eq

theorem State.reportHang_cfg (s : State) (u : HangUnit) (b : Bool) : (s.reportHang u b).cfg = s.cfg :=
  (s.reportHang_only u b (Foot.sub (by decide) (Foot.refl _)) (Only.refl _ s)).cfg_eq

theorem State.reportHang_mem (s : State) (u : HangUnit) (b : Bool) : (s.reportHang u b).mem = s.mem :=
  (s.reportHang_only u b (Foot.sub (by decide) (Foot.refl _)) (Only.refl _ s)).mem_eq

/-- A crossing's hang is reported to every coordinator, and no step is harmed. -/
theorem hang_crossing {s : State} {d : Nat} (hd : d < 4) (hnew : KMap.find s.recov.hangs (hangKey (.crossing d)) = none)
    (hl : 1 < s.cfg.transientLimit) (hk : KMap.getD s.recov.transients (hangKey (.crossing d)) [] = []) :
    ∃ t, exec (.hangWindowExpiry (.crossing d)) s = .next t ∧
      t.ctr .recHang 0 = satAdd 32 (s.ctr .recHang 0) 1 ∧ KMap.find t.recov.hangs (hangKey (.crossing d)) = some s.now ∧
      (∀ x, x < 16 → (s.ctx x).st = .running → (t.ctx x).faulted = (s.ctx x).faulted ∧
        ctrlSent s t (s.ctx x).coordLocus 0x05 (s.ctx x).step (s.ctx x).attempt (FaultParam.of 4 0x31).pack) ∧ t.mem = s.mem := by
  refine ⟨_, hang_first (by unfold hasUnit; exact decide_eq_true hd) hnew, ?_⟩
  generalize hu : s.hangCounted (KMap.put s.recov.hangs (hangKey (.crossing d)) s.now) = u
  have hcfg : u.cfg = s.cfg := by rw [← hu]; rfl
  have htrans : u.recov.transients = s.recov.transients := by rw [← hu]; rfl
  have hhang : KMap.find u.recov.hangs (hangKey (.crossing d)) = some s.now := by
    rw [← hu]
    exact KMap.find_put_self ..
  have hctr : u.ctr .recHang 0 = satAdd 32 (s.ctr .recHang 0) 1 := by
    rw [← hu]
    exact s.ctr_bump_self .recHang 0 1
  have hctx : ∀ y, u.ctx y = s.ctx y := fun y => by rw [← hu]; rfl
  have hout : u.out = s.out := by rw [← hu]; rfl
  have hmem : u.mem = s.mem := by rw [← hu]; rfl
  clear hu
  have heq := State.reportHang_eq (s := u) (losesData (.crossing d)) (u := .crossing d) rfl
  have hsame : ∀ y, (u.reportHang (.crossing d) (losesData (.crossing d))).ctx y = u.ctx y := fun y => by
    rw [heq]
    exact forEach_keeps_reading (fun v : State => v.ctx y) (fun v x => v.hangNote_harmless _ x y) _ u
  have hsent : ∀ x, x < 16 → (s.ctx x).st = .running → ctrlSent u (u.reportHang (.crossing d) (losesData (.crossing d))) (s.ctx x).coordLocus 0x05
      (s.ctx x).step (s.ctx x).attempt (FaultParam.of 4 0x31).pack := fun x hx hst => by
    rw [heq]
    refine forEach_ctrlSent_while (P := fun v : State => v.ctx x = s.ctx x) (a := x) (fun v y => v.hangNote_suffix _ _ y)
      (fun v y hv => (v.hangNote_harmless _ y x).trans hv) (State.mem_servedBy.2 ⟨hx, (hctx x).symm ▸ hst, fun q h => by cases h⟩) (hctx x)
      fun v hv => ?_
    rw [← hv]
    exact v.hangNote_sent _ _ x
  have hrec : (u.reportHang (.crossing d) (losesData (.crossing d))).ctr .recHang 0 = u.ctr .recHang 0 := by
    rw [heq]
    exact forEach_keeps_reading (fun v : State => v.ctr .recHang 0) (fun v x => v.hangNote_ctr _ _ x (by decide) (by decide) (by decide)) _ u
  have hrecov := u.reportHang_recov (.crossing d) (losesData (.crossing d))
  have hcfg' := u.reportHang_cfg (.crossing d) (losesData (.crossing d))
  have hmem' := u.reportHang_mem (.crossing d) (losesData (.crossing d))
  generalize u.reportHang (.crossing d) (losesData (.crossing d)) = v at hsame hsent hrec hrecov hcfg' hmem' ⊢
  rw [State.hangTransient_once (s := v) (by rw [hcfg', hcfg]; exact hl) (by rw [hrecov, htrans]; exact hk)]
  refine ⟨?_, ?_, fun x hx hst => ⟨?_, ?_⟩, hmem'.trans hmem⟩
  · exact (State.ctr_bump_ne _ _ (by decide) (by decide) (.inl (by decide))).trans (hrec.trans hctr)
  · exact (congrArg (fun r : Recov => KMap.find r.hangs (hangKey (.crossing d))) hrecov).trans hhang
  · exact congrArg Ctx.faulted ((hsame x).trans (hctx x))
  · exact (hsent x hx hst).before (hout ▸ List.suffix_rfl)

/-- A hang of a partition's movers: level 2, and every step the partition serves is faulted. -/
theorem hang_dma {s : State} {p : Nat} (hp : p < 16) (hnew : KMap.find s.recov.hangs (hangKey (.dma p)) = none) (hl : 1 < s.cfg.transientLimit)
    (hc : 1 < s.cfg.escalateCount) (hk : KMap.getD s.recov.transients (hangKey (.dma p)) [] = [])
    (ha : ∀ k, KMap.getD s.recov.actions k [] = []) (hcomp : s.recov.completed = []) :
    ∃ t, exec (.hangWindowExpiry (.dma p)) s = .next t ∧ t.ctr .recL2 0 = satAdd 32 (s.ctr .recL2 0) 1 ∧ t.mem = s.mem ∧
      (∀ x, x < 16 → (s.ctx x).st = .running → inMask (s.ctx x).mask p = true → (t.ctx x).faulted = true) ∧
      (∀ x, (s.ctx x).st ≠ .running ∨ inMask (s.ctx x).mask p = false → t.ctx x = s.ctx x) := by
  refine ⟨_, hang_first (by unfold hasUnit; exact decide_eq_true hp) hnew, ?_⟩
  generalize hu : s.hangCounted (KMap.put s.recov.hangs (hangKey (.dma p)) s.now) = u
  have hcfg : u.cfg = s.cfg := by rw [← hu]; rfl
  have hrecu : u.recov.transients = s.recov.transients ∧ u.recov.actions = s.recov.actions ∧ u.recov.completed = s.recov.completed := by
    rw [← hu]
    exact ⟨rfl, rfl, rfl⟩
  obtain ⟨htrans, hact, hdone⟩ := hrecu
  have hctr : u.ctr .recL2 0 = s.ctr .recL2 0 := by
    rw [← hu]
    exact State.ctr_bump_ne _ _ (by decide) (by decide) (.inl (by decide))
  have hctx : ∀ y, u.ctx y = s.ctx y := fun y => by rw [← hu]; rfl
  have hmem : u.mem = s.mem := by rw [← hu]; rfl
  clear hu
  have heq := State.reportHang_loses (s := u) (u := .dma p) rfl
  have hon : ∀ x, x < 16 → (s.ctx x).st = .running → inMask (s.ctx x).mask p = true →
      ((u.reportHang (.dma p) (losesData (.dma p))).ctx x).faulted = true := fun x hx hst hm => by
    refine (congrArg (fun v : State => (v.ctx x).faulted) heq).trans (State.reportAll_faulted _ _ u (.inl (State.mem_servedBy.2 ⟨hx, ?_, ?_⟩)))
    · exact (hctx x).symm ▸ hst
    · rintro _ ⟨⟩
      exact (hctx x).symm ▸ hm
  have hoff : ∀ x, (s.ctx x).st ≠ .running ∨ inMask (s.ctx x).mask p = false →
      (u.reportHang (.dma p) (losesData (.dma p))).ctx x = u.ctx x := fun x hx => by
    refine (congrArg (fun v : State => v.ctx x) heq).trans (State.reportAll_ctx_ne _ _ u fun hin => ?_)
    obtain ⟨-, hst, hm⟩ := State.mem_servedBy.1 hin
    rw [hctx] at hst
    have hm := hm p rfl
    rw [hctx] at hm
    exact hx.elim (fun h => h hst) (fun h => by cases h.symm.trans hm)
  have hrec : (u.reportHang (.dma p) (losesData (.dma p))).ctr .recL2 0 = u.ctr .recL2 0 :=
    (congrArg (fun v : State => v.ctr .recL2 0) heq).trans (State.reportAll_ctr _ _ _ (by decide) (by decide) (by decide))
  have hrecov := u.reportHang_recov (.dma p) (losesData (.dma p))
  have hcfg' := u.reportHang_cfg (.dma p) (losesData (.dma p))
  have hmem' := u.reportHang_mem (.dma p) (losesData (.dma p))
  generalize u.reportHang (.dma p) (losesData (.dma p)) = v at hon hoff hrec hrecov hcfg' hmem' ⊢
  rw [State.hangTransient_once (s := v) (by rw [hcfg', hcfg]; exact hl) (by rw [hrecov, htrans]; exact hk)]
  generalize hw : (v.updRecov (fun r => { r with transients := KMap.put r.transients (hangKey (.dma p)) [v.now] })).bump .detTransient 0 = w
  have hwrec : w.recov.completed = [] ∧ ∀ k, KMap.getD w.recov.actions k [] = [] := by
    rw [← hw]
    exact ⟨(congrArg Recov.completed hrecov).trans (hdone.trans hcomp), fun k => by
      show KMap.getD v.recov.actions k [] = []
      rw [hrecov, hact]
      exact ha k⟩
  have hwcfg : w.cfg = s.cfg := by rw [← hw]; exact hcfg'.trans hcfg
  have hwctr : w.ctr .recL2 0 = s.ctr .recL2 0 := by
    rw [← hw]
    exact (State.ctr_bump_ne _ _ (by decide) (by decide) (.inl (by decide))).trans (hrec.trans hctr)
  have hwctx : ∀ y, w.ctx y = v.ctx y := fun y => by rw [← hw]; rfl
  have hwmem : w.mem = s.mem := by rw [← hw]; exact hmem'.trans hmem
  clear hw
  obtain ⟨q, hrecover⟩ := State.recover_two (s := w) (hangKey (.dma p)) p false hwrec.1 (by rw [hwcfg]; exact hc) hwrec.2
  have hfirst : w.hangFirst (.dma p) = ((w.updRecov (fun _ => q)).recordRecovery 2 (hangKey (.dma p))).bump .recL2 0 := hrecover
  rw [hfirst]
  refine ⟨?_, hwmem, fun x hx hst hm => ?_, fun x hx => ?_⟩
  · have hrr : ((w.updRecov (fun _ => q)).recordRecovery 2 (hangKey (.dma p))).ctr .recL2 0 = w.ctr .recL2 0 :=
      State.record_ctr _ _ (by decide) (by decide)
    rw [State.ctr_bump_self, hrr, hwctr]
    rfl
  · exact (congrArg Ctx.faulted (hwctx x)).trans (hon x hx hst hm)
  · exact (hwctx x).trans ((hoff x hx).trans (hctx x))

/-- A second window without progress on a port holds it. -/
theorem hang_port {s : State} {p a : Nat} (hp : p < 32) (hseen : KMap.find s.recov.hangs (hangKey (.port p)) = some a)
    (hnow : s.now ≤ a + hangWindow s.cfg (.port p)) : ∃ t, exec (.hangWindowExpiry (.port p)) s = .next t ∧ (t.port p).st = .held ∧
      KMap.find t.recov.hangs (hangKey (.port p)) = none ∧ t.mem = s.mem := by
  refine ⟨_, hang_second (by unfold hasUnit; exact decide_eq_true hp) hseen hnow, ?_⟩
  generalize hu : (s.hangCounted (KMap.del s.recov.hangs (hangKey (.port p)))).reportHang (.port p) true = u
  have hhang : KMap.find u.recov.hangs (hangKey (.port p)) = none := by
    rw [← hu, State.reportHang_recov]
    exact (KMap.find_del ..).trans (if_pos rfl)
  have hmem : u.mem = s.mem := by
    rw [← hu, State.reportHang_mem]
    rfl
  clear hu
  obtain ⟨q, c, hcount, hq⟩ := u.hangTransient_counts (u := .port p) (.inl ⟨p, rfl⟩)
  rw [hcount]
  generalize hw : ({ u with recov := q, ctrs := c } : State) = w
  have hwhang : KMap.find w.recov.hangs (hangKey (.port p)) = none := by
    rw [← hw]
    exact (congrArg (KMap.find · _) hq).trans hhang
  have hwmem : w.mem = s.mem := by rw [← hw]; exact hmem
  clear hw
  have honly : ∀ ps, Foot (144115188090670160 ||| 12585984 ||| 6422545) ps → Only ps w (w.hangSecond (.port p)) := fun ps hps =>
    State.reselect_only _ (Foot.sub (by decide) hps) (State.noteBundle_only _ (Foot.sub (by decide) hps)
      (State.updPort_only _ _ (Foot.sub (by decide) hps) (State.loseFlits_only _ (Foot.sub (by decide) hps) (Only.refl ps w))))
  refine ⟨?_, ?_, ?_⟩
  · have hst : ∀ v : State, SamePorts Port.st v (v.noteBundle (w.port p).dir).reselect := fun v =>
      ((v.noteBundle_flow _).of_flow fun _ => rfl).trans (.of_ports (State.reselect_ports _ _))
    have := hst ((w.loseFlits p).updPort p (fun q => { q with st := .held, heldAt := some w.time.loc, width := 0, req := none })) p
    rw [State.port_updPort_self] at this
    exact this
  · rw [(honly _ (Foot.sub (by decide) (Foot.refl _))).recov_eq]
    exact hwhang
  · rw [(honly _ (Foot.sub (by decide) (Foot.refl _))).mem_eq]
    exact hwmem

/-- A half that owns the module releases it. -/
theorem State.calRelease_owner {s : State} {h : Nat} (ho : s.cal.owner = some h) : (s.calRelease h).cal.owner = none := by
  unfold State.calRelease
  extract_lets u t l fence v w
  have hu : ¬ u.cal.owner ≠ some h := by
    have : u.cal.owner = s.cal.owner := by
      show (if h = 0 then { s.cal with okA := false } else { s.cal with okB := false }).owner = _
      split <;> rfl
    rw [this, ho]
    exact fun k => k rfl
  have hv : v.cal.owner = none := by
    show (if h = 0 then _ else _ : Cal).owner = none
    split <;> rfl
  rw [if_neg hu]
  split
  · exact hv
  · exact hv

/-- A hang of a Caldera core: the half that owns the module releases it. -/
theorem hang_calCore {s : State} {h c : Nat} (hh : h < 2) (hc : c < 4) (hnew : KMap.find s.recov.hangs (hangKey (.calCore h c)) = none)
    (ho : s.cal.owner = some h) : ∃ t, exec (.hangWindowExpiry (.calCore h c)) s = .next t ∧ t.cal.owner = none ∧ t.ctxs = s.ctxs ∧ t.mem = s.mem := by
  refine ⟨_, hang_first (Bool.and_eq_true_iff.2 ⟨decide_eq_true hh, decide_eq_true hc⟩) hnew, ?_⟩
  generalize hu : s.hangCounted (KMap.put s.recov.hangs (hangKey (.calCore h c)) s.now) = u
  have hparts : u.cal = s.cal ∧ u.ctxs = s.ctxs ∧ u.mem = s.mem := by
    rw [← hu]
    exact ⟨rfl, rfl, rfl⟩
  obtain ⟨hcal, hctxs, hmem⟩ := hparts
  clear hu
  obtain ⟨q, k, hcount, -⟩ := u.hangTransient_counts (u := .calCore h c) (.inr ⟨h, c, rfl⟩)
  have hrep : (u.reportHang (.calCore h c) (losesData (.calCore h c))) = u := rfl
  rw [hrep, hcount]
  have honly : ∀ v : State, (v.calRelease h).ctxs = v.ctxs ∧ (v.calRelease h).mem = v.mem := fun v =>
    ⟨(v.calRelease_only h (Foot.sub (by decide) (Foot.refl _)) (Only.refl _ v)).ctxs_eq,
      (v.calRelease_only h (Foot.sub (by decide) (Foot.refl _)) (Only.refl _ v)).mem_eq⟩
  refine ⟨State.calRelease_owner (s := { u with recov := q, ctrs := k }) (hcal ▸ ho), ?_, ?_⟩
  · exact (honly { u with recov := q, ctrs := k }).1.trans hctxs
  · exact (honly { u with recov := q, ctrs := k }).2.trans hmem

/-- An overrun action of level 2 becomes a partition reset. -/
theorem bound_overrun {s : State} {p : Nat} (hp : p < 16) (hc : 1 < s.cfg.escalateCount) (ha : ∀ k, KMap.getD s.recov.actions k [] = [])
    (hcomp : s.recov.completed = []) : ∃ t, exec (.actionBoundExpiry (.dma p) 2) s = .next t ∧ t.ctr .recL3 0 = satAdd 16 (s.ctr .recL3 0) 1 ∧
      (∀ a, t.byte a = if addrPart a = p then 0#8 else s.byte a) ∧ (∀ x, (t.ctx x).st = (s.ctx x).st) := by
  obtain ⟨q, hrec⟩ := State.recover_three (s := s) (hangKey (.dma p)) p false hcomp hc ha
  have hexec : exec (.actionBoundExpiry (.dma p) 2) s = .next (s.recover (hangKey (.dma p)) 3 p false) := by
    show execActionBoundExpiry (.dma p) 2 s = _
    unfold execActionBoundExpiry
    rw [if_neg (by rw [show hasUnit (.dma p) = true from decide_eq_true hp]; decide)]
    rfl
  rw [hexec, hrec]
  refine ⟨_, rfl, ?_, fun a => State.partitionReset_clears _ p a, fun x => ?_⟩
  · rw [State.ctr, (State.partitionReset_only p (Foot.sub (by decide) (Foot.refl _)) (Only.refl _ _)).ctrs_eq, ← State.ctr, State.ctr_bump_self]
    have hrr : ((s.updRecov (fun _ => q)).recordRecovery 3 (hangKey (.dma p))).ctr .recL3 0 = s.ctr .recL3 0 :=
      State.record_ctr _ _ (by decide) (by decide)
    rw [hrr]
    rfl
  · exact (State.partitionReset_only p (Foot.sub (by decide) (Foot.refl _)) (Only.refl _ _)).ctx_st_eq x

/-- What a failed die link orders: a broken ring at the boundary, or the module's loss. -/
theorem dieLink_fails {s : State} {pos : Nat} (hp : pos < 4) (hnew : s.recov.dieLinks.contains pos = false) :
    ∃ l f, exec (.dieLinkFail pos) s = .next (if s.recov.dieLinks.isEmpty = true
      then ((s.updRecov (fun r => { r with dieLinks := insertAsc pos r.dieLinks })).reportAll l f).updFab (fun f => { f with dieBreakPending := some pos })
      else ((s.updRecov (fun r => { r with dieLinks := insertAsc pos r.dieLinks })).reportAll l f).selfLost 4) ∧
      ∀ x, x < 16 → (s.ctx x).st = .running → x ∈ l := by
  refine ⟨ctxIds.filter (fun x => (s.ctx x).st == .running), { FaultParam.of 4 0x31 with detail := 36 + pos }, ?_, fun x hx hst => ?_⟩
  · show execDieLinkFail pos s = _
    unfold execDieLinkFail
    rw [if_neg (Nat.not_le.2 hp), if_neg (by rw [hnew]; decide)]
    rfl
  · exact List.mem_filter.2 ⟨List.mem_range.2 hx, by rw [hst]; rfl⟩

theorem dieLink_first {s : State} {pos : Nat} (hp : pos < 4) (hnone : s.recov.dieLinks = []) : ∃ t, exec (.dieLinkFail pos) s = .next t ∧
    t.recov.dieLinks = [pos] ∧ t.fab.dieBreakPending = some pos ∧ t.fab.dieBreak = s.fab.dieBreak ∧ t.recov.lost = s.recov.lost ∧
    (∀ x, x < 16 → (s.ctx x).st = .running → (t.ctx x).faulted = true) ∧ t.mem = s.mem := by
  obtain ⟨l, f, hexec, hall⟩ := dieLink_fails (s := s) hp (by rw [hnone]; rfl)
  rw [hexec, if_pos (by rw [hnone]; rfl)]
  generalize hu : s.updRecov (fun r => { r with dieLinks := insertAsc pos r.dieLinks }) = u
  have hrecu : u.recov.dieLinks = [pos] ∧ u.recov.lost = s.recov.lost ∧ u.fab = s.fab ∧ u.mem = s.mem := by
    rw [← hu]
    exact ⟨congrArg (insertAsc pos) hnone, rfl, rfl, rfl⟩
  obtain ⟨hlinks, hlost, hfab, hmem⟩ := hrecu
  clear hu
  have hrecov : (u.reportAll l f).recov = u.recov := (State.reportAll_only l f (Foot.sub (by decide) (Foot.refl _)) (Only.refl _ u)).recov_eq
  have hmem' : (u.reportAll l f).mem = u.mem := (State.reportAll_only l f (Foot.sub (by decide) (Foot.refl _)) (Only.refl _ u)).mem_eq
  have hbreak : (u.reportAll l f).fab.dieBreak = u.fab.dieBreak :=
    forEach_keeps_reading (fun v : State => v.fab.dieBreak) (fun v x => v.report_dieBreak x f) l u
  refine ⟨_, rfl, ?_, rfl, ?_, ?_, fun x hx hst => ?_, ?_⟩
  · exact (congrArg Recov.dieLinks hrecov).trans hlinks
  · exact hbreak.trans (congrArg Fab.dieBreak hfab)
  · exact (congrArg Recov.lost hrecov).trans hlost
  · exact State.reportAll_faulted l f u (.inl (hall x hx hst))
  · exact hmem'.trans hmem

theorem dieLink_second {s : State} {pos n : Nat} (hp : pos < 4) (hone : s.recov.dieLinks = [n]) (hne : n ≠ pos) (hl : s.recov.lost = false) :
    ∃ t, exec (.dieLinkFail pos) s = .next t ∧ t.recov.lost = true ∧
      (∀ x, x < 16 → (s.ctx x).st = .armed ∨ (s.ctx x).st = .running ∨ (s.ctx x).st = .held →
      ctrlSent s t (s.ctx x).coordLocus 0x66 (s.ctx x).step (s.ctx x).attempt 4) := by
  obtain ⟨l, f, hexec, -⟩ := dieLink_fails (s := s) hp (by rw [hone]; simpa using hne.symm)
  rw [hexec, if_neg (by rw [hone]; exact Bool.false_ne_true)]
  generalize hu : s.updRecov (fun r => { r with dieLinks := insertAsc pos r.dieLinks }) = u
  have hrecu : u.recov.lost = s.recov.lost ∧ u.ctxs = s.ctxs ∧ u.out = s.out := by
    rw [← hu]
    exact ⟨rfl, rfl, rfl⟩
  obtain ⟨hlost, hctxs, hout⟩ := hrecu
  clear hu
  have hctx : ∀ y, u.ctx y = s.ctx y := fun y => by rw [State.ctx, hctxs]; rfl
  have hrecov : (u.reportAll l f).recov = u.recov := (State.reportAll_only l f (Foot.sub (by decide) (Foot.refl _)) (Only.refl _ u)).recov_eq
  have hlost' : (u.reportAll l f).recov.lost = false := (congrArg Recov.lost hrecov).trans (hlost.trans hl)
  refine ⟨_, rfl, State.selfLost_lost 4 hlost', fun x hx hst => ?_⟩
  have haddr := State.reportAll_keeps_ctx Ctx.address Ctx.address_faulted u l f x
  have hstu : ((u.reportAll l f).ctx x).st = (s.ctx x).st :=
    (State.reportAll_keeps_ctx Ctx.st (fun _ _ => rfl) u l f x).trans (congrArg Ctx.st (hctx x))
  have htell := State.selfLost_tells (s := u.reportAll l f) 4 hlost' hx (hstu.symm ▸ hst)
  rw [hctx] at haddr
  obtain ⟨hcl, hrest⟩ := Prod.mk.inj haddr
  obtain ⟨hstep, hatt⟩ := Prod.mk.inj hrest
  rw [hcl, hstep, hatt] at htell
  exact htell.before (hout ▸ u.reportAll_suffix l f)

/-- Settles O39: a hang is counted and reported before its row's action (`hang_first`, `hang_second`), an overrun bound brings the partition reset
(`State.partitionReset_clears`), a failed die link the broken ring or the module's loss (`dieLink_fails`). -/
theorem faultsAreContained : Obligations.FaultsAreContained := by
  refine ⟨fun _ _ => hang_runs, fun _ _ => hang_crossing, fun _ _ => hang_dma, fun _ _ _ => hang_port, fun _ _ _ => hang_calCore,
    fun _ _ => bound_overrun, ?level, ?refilled, ?refilling, fun _ _ => dieLink_first, fun _ _ _ => dieLink_second⟩
  case level =>
    intro s u level hu hlevel
    show execActionBoundExpiry u level s = _
    unfold execActionBoundExpiry
    rw [if_neg (by rw [hu]; decide)]
    exact congrArg Host.Outcome.next (if_pos hlevel)
  case refilled =>
    intro s p hp hfind
    refine ⟨s.updMem (fun m => { m with refill := KMap.del m.refill p }), ?_, (KMap.find_del ..).trans (if_pos rfl), rfl⟩
    show execPartitionRefillDone p s = _
    unfold execPartitionRefillDone
    rw [if_neg (Nat.not_le.2 hp), hfind]
    rfl
  case refilling =>
    intro s p hp hfind
    show execPartitionRefillDone p s = _
    unfold execPartitionRefillDone
    rw [if_neg (Nat.not_le.2 hp)]
    split
    next h => exact absurd h hfind
    next => rfl

end Sys2Proof.Machine
end

section
/-!
The Crossings and DATA packets (06 R139 to R165).
-/
namespace Sys2Proof.Machine

-- Proofs elaborated one after another keep the whole text within the memory its compile is given.
set_option Elab.async false

/-! ### Outputs with nothing waiting -/

/-- Noting how long packets wait changes only when their waits began. -/
theorem State.noteStall_fields (s : State) (die out : Nat) :
    ∃ m c, s.noteStall die out = { s with fab := { s.fab with stallSince := m }, ctrs := c } := by
  unfold State.noteStall
  extract_lets k any
  split
  · split
    · exact ⟨_, s.ctrs, rfl⟩
    · exact ⟨s.fab.stallSince, s.ctrs, rfl⟩
  · split
    · exact ⟨s.fab.stallSince, s.ctrs, rfl⟩
    · split
      · exact ⟨_, _, rfl⟩
      · exact ⟨_, s.ctrs, rfl⟩

/-- With nothing waiting there is nothing to grant. -/
theorem State.drainOut_idle {s : State} (h : s.fab.waits = []) (die out : Nat) : s.drainOut die out = s.noteStall die out := by
  have hq : s.queueFor die out = [] := by
    unfold State.queueFor
    rw [h]
    rfl
  unfold State.drainOut
  rw [h]
  unfold List.length State.drain
  rw [hq]
  rfl

/-- What looking at every output leaves when nothing waits. -/
structure Idle (s t : State) : Prop where
  waits : t.fab.waits = s.fab.waits
  breaks : t.fab.breaks = s.fab.breaks

theorem Idle.trans {s t u : State} (h : Idle s t) (k : Idle t u) : Idle s u := ⟨k.waits.trans h.waits, k.breaks.trans h.breaks⟩

theorem State.drainOut_leaves {s : State} (h : s.fab.waits = []) (die out : Nat) : Idle s (s.drainOut die out) := by
  obtain ⟨m, c, e⟩ := s.noteStall_fields die out
  rw [State.drainOut_idle h, e]
  exact ⟨rfl, rfl⟩

/-- A loop whose rounds leave an idle Crossing leaves it. -/
theorem forEach_idle {f : State → Nat → State} (hf : ∀ u a, u.fab.waits = [] → Idle u (f u a)) (l : List Nat) {s : State} (h : s.fab.waits = []) :
    Idle s (forEach l s f) := by
  induction l generalizing s with
  | nil => exact ⟨rfl, rfl⟩
  | cons a l ih => exact (hf s a h).trans (ih ((hf s a h).waits.trans h))

theorem State.drainAll_leaves {s : State} (h : s.fab.waits = []) : Idle s s.drainAll :=
  forEach_idle (fun _ die hu => forEach_idle (fun _ out hv => State.drainOut_leaves hv die out) _ hu) _ h

/-! ### PACKET_FORWARD (R139 to R147) -/

theorem forward_good {s : State} {die now : Nat} {header : BitVec 512} (hd : die < 4) (hg : hdrGood header.toNat = true)
    (hv : hdrTv header.toNat = false) : exec (.packetForward die 34 header now) s = .next (
      if (!(s.advanceTo now).fab.waits.any (fun e => e.1 == die && e.2.1 == 34 && hdrVc e.2.2.1 == hdrVc header.toNat)) = true ∧
        (s.advanceTo now).mayGrant die 34 header.toNat ((s.advanceTo now).hop die header.toNat) = true then
        ((s.advanceTo now).grant die 34 header.toNat ((s.advanceTo now).hop die header.toNat)).drainOut die ((s.advanceTo now).hop die header.toNat).out
      else (((s.advanceTo now).updFab (fun f => { f with waits := f.waits ++ [(die, 34, header.toNat, now)] })).updOut die
        ((s.advanceTo now).hop die header.toNat).out (hdrVc header.toNat) (fun o => { o with waiting := some (o.waiting.getD (hdrLen header.toNat)) })).noteStall
          die ((s.advanceTo now).hop die header.toNat).out) := by
  have hport : ¬ (34 < 32) := by decide
  have hin : ¬ (35 ≤ 34 ∨ (34 < 32 ∧ 34 / 8 ≠ die)) := by omega
  show execPacketForward die 34 header now s = _
  unfold execPacketForward
  rw [if_neg (Nat.not_le.2 hd), if_neg hin]
  simp only [hport, false_and, if_false, hg, hv, Bool.not_true, Bool.false_eq_true]
  split
  · rfl
  · rfl

theorem forward_delivers {s : State} {die now : Nat} {header : BitVec 512} (hd : die < 4) (hg : hdrGood header.toNat = true)
    (hv : hdrTv header.toNat = false) (hw : s.fab.waits = []) (hh : (s.advanceTo now).hop die header.toNat = .deliver) :
    ∃ t, exec (.packetForward die 34 header now) s = .next t ∧
      sentBetween s t (.forward die 10 header) ∧ t.ctxs = s.ctxs ∧ t.mem = s.mem ∧ t.ports = s.ports := by
  obtain ⟨m, e⟩ := s.advanceTo_fields now
  rw [forward_good hd hg hv, hh, e]
  have hidle : (!s.fab.waits.any (fun e => e.1 == die && e.2.1 == 34 && hdrVc e.2.2.1 == hdrVc header.toNat)) = true := by rw [hw]; rfl
  rw [if_pos ⟨hidle, rfl⟩]
  generalize hu : ({ s with time := m } : State) = u
  have hgrant : u.grant die 34 header.toNat .deliver = u.emit (.forward die 10 header) := by
    have : u.grant die 34 header.toNat .deliver = u.emit (.forward die 10 (BitVec.ofNat 512 header.toNat)) := rfl
    rw [this, BitVec.ofNat_toNat, BitVec.setWidth_eq]
  have huw : (u.emit (.forward die 10 header)).fab.waits = [] := by rw [← hu]; exact hw
  obtain ⟨k, c, hstall⟩ := (u.emit (.forward die 10 header)).noteStall_fields die 10
  rw [hgrant]
  show ∃ t, Host.Outcome.next ((u.emit (.forward die 10 header)).drainOut die 10) = .next t ∧ _
  rw [State.drainOut_idle huw, hstall, ← hu]
  exact ⟨_, rfl, s.emit_sent _, rfl, rfl, rfl⟩

theorem forward_keeps {s : State} {die now : Nat} {header : BitVec 512} (hd : die < 4) (hg : hdrGood header.toNat = true)
    (hv : hdrTv header.toNat = false)
    (hno : (s.advanceTo now).mayGrant die 34 header.toNat ((s.advanceTo now).hop die header.toNat) = false) :
    ∃ t, exec (.packetForward die 34 header now) s = .next t ∧ t.fab.waits = s.fab.waits ++ [(die, 34, header.toNat, now)] ∧ t.out = s.out ∧
      t.ctxs = s.ctxs ∧ t.mem = s.mem := by
  obtain ⟨m, e⟩ := s.advanceTo_fields now
  rw [forward_good hd hg hv, if_neg (fun h => by rw [hno] at h; cases h.2)]
  generalize (s.advanceTo now).hop die header.toNat = hop
  rw [e]
  generalize hu : ((({ s with time := m } : State).updFab (fun f => { f with waits := f.waits ++ [(die, 34, header.toNat, now)] })).updOut die
    hop.out (hdrVc header.toNat) (fun o => { o with waiting := some (o.waiting.getD (hdrLen header.toNat)) })) = u
  have hparts : u.fab.waits = s.fab.waits ++ [(die, 34, header.toNat, now)] ∧ u.out = s.out ∧ u.ctxs = s.ctxs ∧ u.mem = s.mem := by
    rw [← hu]
    exact ⟨rfl, rfl, rfl, rfl⟩
  obtain ⟨k, c, hstall⟩ := u.noteStall_fields die hop.out
  rw [hstall]
  exact ⟨_, rfl, hparts⟩

/-- A header that fails its check is counted, and no report goes with no step running. -/
theorem forward_bad {s : State} {die now : Nat} {header : BitVec 512} (hd : die < 4) (hg : hdrGood header.toNat = false)
    (hx : ∀ x, (s.ctx x).st ≠ .running) : ∃ t, exec (.packetForward die 34 header now) s = .next t ∧
      t.ctr .fabHdr 0 = satAdd 16 (s.ctr .fabHdr 0) 1 ∧ t.out = s.out := by
  obtain ⟨m, e⟩ := s.advanceTo_fields now
  have hport : ¬ (34 < 32) := by decide
  have hin : ¬ (35 ≤ 34 ∨ (34 < 32 ∧ 34 / 8 ≠ die)) := by omega
  have hexec : exec (.packetForward die 34 header now) s =
      .next ((((s.advanceTo now).freeInput die 34 (hdrVc header.toNat) (hdrLen header.toNat + 1)).bump .fabHdr 0).reportLink 0x30 (inputIndex die 34)) := by
    show execPacketForward die 34 header now s = _
    unfold execPacketForward
    rw [if_neg (Nat.not_le.2 hd), if_neg hin]
    simp only [hport, false_and, if_false, hg, Bool.not_false, if_true]
  have hnone : ctxIds.filter (fun x => (s.ctx x).st == .running) = [] := by
    rw [List.filter_eq_nil_iff]
    exact fun x _ h => hx x (beq_iff_eq.1 h)
  have hfree : ∀ u : State, u.freeInput die 34 (hdrVc header.toNat) (hdrLen header.toNat + 1) = u := fun _ => rfl
  have hlink : ∀ u : State, u.ctxs = s.ctxs → u.reportLink 0x30 (inputIndex die 34) = u := fun u hu => by
    have hctx : ∀ y, u.ctx y = s.ctx y := fun y => by rw [State.ctx, hu]; rfl
    unfold State.reportLink
    simp only [hctx]
    rw [hnone]
    rfl
  rw [hexec, hfree, hlink _ (by rw [e]; rfl), e]
  exact ⟨_, rfl, State.ctr_bump_self .., rfl⟩

/-! ### Reservations (R147) -/

theorem outKey_inj {die out vc d o v : Nat} (ho : out < 16) (hv : vc < 8) (ho' : o < 16) (hv' : v < 8) (h : outKey d o v = outKey die out vc) :
    (d, o, v) = (die, out, vc) := by
  unfold outKey at h
  have h1 : d = die := by omega
  have h2 : o = out := by omega
  have h3 : v = vc := by omega
  rw [h1, h2, h3]

theorem State.outVc_updOut_self (s : State) (die out vc : Nat) (f : OutVc → OutVc) : (s.updOut die out vc f).outVc die out vc = f (s.outVc die out vc) :=
  KMap.getD_put_self ..

theorem State.outVc_updOut_ne (s : State) {die out vc d o v : Nat} (f : OutVc → OutVc) (h : outKey d o v ≠ outKey die out vc) :
    (s.updOut die out vc f).outVc d o v = s.outVc d o v := (KMap.getD_put ..).trans (if_neg h)

theorem State.noteStall_outVc (s : State) (die out d o v : Nat) : (s.noteStall die out).outVc d o v = s.outVc d o v := by
  obtain ⟨m, c, e⟩ := s.noteStall_fields die out
  rw [e]
  rfl

theorem reserve_starts {s : State} {die out vc : Nat} (hd : die < 4) (ho : out < 10) (hv : vc < 8) (hw : (s.outVc die out vc).waiting ≠ none)
    (hr : (s.outVc die out vc).reserved = false) (hc : (s.outVc die out vc).coolUntil ≤ s.time.loc) :
    ∃ t, exec (.crossingReserve die out vc) s = .next t ∧
      t.outVc die out vc = { s.outVc die out vc with reserved := true } ∧
      (∀ d o v, o < 16 → v < 8 → (d, o, v) ≠ (die, out, vc) → t.outVc d o v = s.outVc d o v) ∧ t.out = s.out := by
  have hgo : ¬ ((s.outVc die out vc).waiting.isNone = true ∨ (s.outVc die out vc).reserved = true ∨ s.time.loc < (s.outVc die out vc).coolUntil) := by
    rw [Option.isNone_iff_eq_none, hr]
    rintro (h | h | h)
    · exact hw h
    · cases h
    · omega
  refine ⟨s.updOut die out vc (fun o => { o with reserved := true }), ?_, s.outVc_updOut_self .., fun d o v ho' hv' hne => ?_, rfl⟩
  · show execCrossingReserve die out vc s = _
    unfold execCrossingReserve
    rw [if_neg (by omega)]
    exact congrArg Host.Outcome.next (if_neg hgo)
  · exact s.outVc_updOut_ne _ fun h => hne (outKey_inj (by omega) hv ho' hv' h)

theorem reserve_lapses {s : State} {die out vc : Nat} (hd : die < 4) (ho : out < 10) (hv : vc < 8) (hr : (s.outVc die out vc).reserved = true)
    (hw : s.fab.waits = []) : ∃ t, exec (.crossingReserveEnd die out vc) s = .next t ∧ (t.outVc die out vc).reserved = false ∧
      (t.outVc die out vc).coolUntil = s.time.loc + 5243 ∧ t.out = s.out := by
  have hexec : exec (.crossingReserveEnd die out vc) s =
      .next ((s.updOut die out vc (fun o => { o with reserved := false, coolUntil := s.time.loc + 5243 })).drainOut die out) := by
    show execCrossingReserveEnd die out vc s = _
    unfold execCrossingReserveEnd
    rw [if_neg (by omega)]
    exact congrArg Host.Outcome.next (if_neg (by rw [hr]; decide))
  have hself := s.outVc_updOut_self die out vc (fun o => { o with reserved := false, coolUntil := s.time.loc + 5243 })
  rw [hexec]
  generalize hu : s.updOut die out vc (fun o => { o with reserved := false, coolUntil := s.time.loc + 5243 }) = u at hself
  have huw : u.fab.waits = [] := by rw [← hu]; exact hw
  have huo : u.out = s.out := by rw [← hu]; rfl
  have hout := (u.noteStall_outVc die out die out vc).trans hself
  obtain ⟨m, c, e⟩ := u.noteStall_fields die out
  rw [State.drainOut_idle huw]
  exact ⟨_, rfl, by rw [hout], by rw [hout], (congrArg State.out e).trans huo⟩

/-! ### Route breaks (R164, R165) -/

theorem State.atEffect_orders (s : State) (h : Hdr) : (s.atEffect h).fab.orders = s.fab.orders := by
  obtain ⟨m, ea⟩ := s.advanceTo_fields h.stamp
  have hdup : ((s.advanceTo h.stamp).dupCheck h).2.fab.orders = s.fab.orders := by
    rw [ea]
    unfold State.dupCheck
    dsimp only
    split
    · rfl
    · split
      · split
        · rfl
        · rfl
      · split
        · rfl
        · rfl
  unfold State.atEffect
  generalize ((s.advanceTo h.stamp).dupCheck h).2 = u at hdup
  extract_lets v
  unfold State.when
  split
  · obtain ⟨k, c, e⟩ := v.markLate_fields
    rw [e]
    exact hdup
  · exact hdup

theorem routeBreak_kept {s : State} {h : Hdr} {dim after eff : Nat} {isBreak : Bool} (ht : s.takes h = true)
    (hnew : ∀ q ∈ s.fab.orders, ¬(q.dim = dim % 4 ∧ q.after = after ∧ q.isBreak = isBreak)) :
    ∃ t, exec (.routeBreak h dim after isBreak eff) s = .next t ∧
      t.fab.orders = s.fab.orders ++ [{ dim := dim % 4, after, isBreak, effective := eff }] ∧ t.mem = s.mem := by
  have hgate : exec (.routeBreak h dim after isBreak eff) s = .next (effRouteBreak dim after isBreak eff (s.atEffect h)) :=
    congrArg Host.Outcome.next (State.ctrlIn_takes _ _ ht)
  have hmem := s.atEffect_mem h
  have horders := s.atEffect_orders h
  have hany : (s.fab.orders.any (fun q => q.dim == dim % 4 && q.after == after && q.isBreak == isBreak)) = false := by
    rw [List.any_eq_false]
    intro q hq hb
    simp only [Bool.and_eq_true, beq_iff_eq] at hb
    exact hnew q hq ⟨hb.1.1, hb.1.2, hb.2⟩
  rw [hgate]
  generalize s.atEffect h = u at hmem horders ⊢
  unfold effRouteBreak
  dsimp only
  rw [horders, hany, if_neg Bool.false_ne_true]
  refine ⟨_, rfl, ?_, hmem⟩
  show u.fab.orders ++ _ = _
  rw [horders]

theorem State.countReport_evts (s : State) (source : Nat) : (s.countReport source).evts = s.evts := by
  unfold State.countReport
  split <;> rfl

/-- Reports take no event bit back. -/
theorem State.report_bit {s : State} {r : Reg} {i b : Nat} (x : Nat) (f : FaultParam) (h : (s.evBits r i).testBit b = true) :
    ((s.report x f).evBits r i).testBit b = true := by
  unfold State.report
  extract_lets c u p v w y
  have hv : (v.evBits r i).testBit b = true := State.record_bit _ h
  have hw : w.evBits r i = v.evBits r i := by rw [State.evBits, State.countReport_evts]; rfl
  show (w.evBits r i).testBit b = true
  rw [hw]
  exact hv

theorem State.reportAll_bit (l : List Nat) (f : FaultParam) {r : Reg} {i b : Nat} {s : State} (h : (s.evBits r i).testBit b = true) :
    ((s.reportAll l f).evBits r i).testBit b = true := by
  induction l generalizing s with
  | nil => exact h
  | cons x l ih => exact ih (s.report_bit x f h)

theorem State.report_route (s : State) (x : Nat) (f : FaultParam) : Idle s (s.report x f) := by
  have hfab : ∀ u : State, (u.countReport f.source).fab = u.fab := fun u => by
    unfold State.countReport
    split <;> rfl
  unfold State.report
  extract_lets c u p v w y
  have hv : w.fab = s.fab := hfab v
  constructor
  · show w.fab.waits = s.fab.waits
    rw [hv]
  · show w.fab.breaks = s.fab.breaks
    rw [hv]

theorem State.reportAll_route (s : State) (l : List Nat) (f : FaultParam) : Idle s (s.reportAll l f) := by
  induction l generalizing s with
  | nil => exact ⟨rfl, rfl⟩
  | cons x l ih => exact (s.report_route x f).trans (ih (s.report x f))

theorem routeBreak_effective {s : State} {dim : Nat} {o : BreakOrder} (hd : dim < 4)
    (hfind : s.fab.orders.find? (fun o => o.dim == dim) = some o) (hb : o.isBreak = true) (hl : s.isLine dim = false) (hw : s.fab.waits = []) :
    ∃ t, exec (.routeBreakEffective dim) s = .next t ∧ KMap.find t.fab.breaks dim = some o.after ∧ (t.evBits .avenue dim).testBit 30 = true ∧
      (∀ x, x < 16 → (s.ctx x).st = .running → (t.ctx x).faulted = true) := by
  have hexec : exec (.routeBreakEffective dim) s = .next (((((s.updFab (fun f => { f with orders := f.orders.erase o })).updFab
      (fun f => { f with breaks := KMap.put f.breaks dim o.after })).setEvt .avenue dim 30).reportLink 0x32 dim).drainAll) := by
    show execRouteBreakEffective dim s = _
    unfold execRouteBreakEffective
    rw [if_neg (Nat.not_le.2 hd), hfind]
    have hline : ¬ ((s.updFab (fun f => { f with orders := f.orders.erase o })).isLine dim = true ∧
        (s.updFab (fun f => { f with orders := f.orders.erase o })).brk dim ≠ o.after) := fun h => by
      have : s.isLine dim = true := h.1
      cases this.symm.trans hl
    dsimp only
    rw [if_neg (by rw [hb]; decide), if_neg hline]
  rw [hexec]
  generalize hu : (s.updFab (fun f => { f with orders := f.orders.erase o })).updFab (fun f => { f with breaks := KMap.put f.breaks dim o.after }) = u
  have hparts : u.fab.waits = [] ∧ KMap.find u.fab.breaks dim = some o.after ∧ ∀ y, u.ctx y = s.ctx y := by
    rw [← hu]
    exact ⟨hw, KMap.find_put_self .., fun _ => rfl⟩
  obtain ⟨huw, hub, huc⟩ := hparts
  clear hu
  have hv : (u.setEvt .avenue dim 30).fab = u.fab :=
    (State.setEvt_only .avenue dim 30 (Foot.sub (by decide) (Foot.refl _)) (Only.refl _ u)).fab_eq
  have hvc : ∀ y, (u.setEvt .avenue dim 30).ctx y = u.ctx y :=
    (State.setEvt_only .avenue dim 30 (Foot.sub (by decide) (Foot.refl _)) (Only.refl _ u)).ctx_eq
  have hbit : ((u.setEvt .avenue dim 30).evBits .avenue dim).testBit 30 = true := State.setEvt_bit u .avenue dim 30
  generalize u.setEvt .avenue dim 30 = v at hv hvc hbit
  have hlink : v.reportLink 0x32 dim = v.reportAll (ctxIds.filter (fun x => (v.ctx x).st == .running)) { FaultParam.of 4 0x32 with detail := dim } := rfl
  have hroute := v.reportAll_route (ctxIds.filter (fun x => (v.ctx x).st == .running)) { FaultParam.of 4 0x32 with detail := dim }
  have hidle := State.drainAll_leaves (hroute.waits.trans ((congrArg Fab.waits hv).trans huw))
  have hdrain : ∀ w : State, w.drainAll.evts = w.evts ∧ ∀ y, w.drainAll.ctx y = w.ctx y := fun w =>
    ⟨(State.drainAll_only (Foot.sub (by decide) (Foot.refl _)) (Only.refl _ w)).evts_eq,
      (State.drainAll_only (Foot.sub (by decide) (Foot.refl _)) (Only.refl _ w)).ctx_eq⟩
  rw [hlink]
  refine ⟨_, rfl, ?_, ?_, fun x hx hst => ?_⟩
  · rw [hidle.breaks, hroute.breaks, hv]
    exact hub
  · rw [State.evBits, (hdrain _).1]
    exact State.reportAll_bit _ _ hbit
  · rw [(hdrain _).2]
    refine State.reportAll_faulted _ _ v (.inl (List.mem_filter.2 ⟨List.mem_range.2 hx, ?_⟩))
    rw [hvc, huc, hst]
    rfl

/-! ### DATA packets (R152, R156, R160) -/

/-- Whether a running step holds a block back as pending. -/
def Ctx.pendsAt (c : Ctx) (a : Nat) : Bool := (c.st == .running) && (c.tensorAt a).elim false (fun t => t.1.persistent)

theorem State.pends_eq (s : State) (x a : Nat) : s.pends x a = (s.ctx x).pendsAt a := by
  unfold State.pends Ctx.pendsAt
  dsimp only
  cases (s.ctx x).tensorAt a with
  | none => rfl
  | some t => rfl

/-- The state a part of a block is kept on: time at its stamp, a late arrival noted. -/
def State.partArrival (s : State) (h : Hdr) : State := (s.advanceTo h.stamp).when ((s.advanceTo h.stamp).lateRelease h) State.markLate

theorem State.partArrival_parts (s : State) (h : Hdr) : (s.partArrival h).fab = s.fab ∧ (s.partArrival h).mem = s.mem ∧
    (s.partArrival h).out = s.out ∧ ∀ x, ((s.partArrival h).ctx x).sansReasons = (s.ctx x).sansReasons := by
  obtain ⟨m, e⟩ := s.advanceTo_fields h.stamp
  unfold State.partArrival State.when
  rw [e]
  split
  · obtain ⟨k, c, hl⟩ := State.markLate_fields { s with time := m }
    have hctx := State.markLate_ctx { s with time := m }
    rw [hl] at hctx ⊢
    exact ⟨rfl, rfl, rfl, hctx⟩
  · exact ⟨rfl, rfl, rfl, fun _ => rfl⟩

/-- A packet for the running step of a context, at the endpoint of its partition. -/
structure State.AtEndpoint (s : State) (h : Hdr) (d : DataPart) (x : Nat) : Prop where
  run : (s.advanceTo h.stamp).inRun = true
  young : (s.advanceTo h.stamp).tooOld h = false
  unmarked : h.cm = false
  domain : s.domainCtx h.domain = some x
  running : (s.ctx x).st = .running
  inside : addrOk d.addr = true
  mine : inMask (s.ctx x).mask (addrPart d.addr) = true
  endpoint : h.dstEp = addrPart d.addr
  data : d.bulk = false
  executing : (s.ctx x).executing h.step h.attempt = true

/-- Up to the assembly of its block a packet for the running step changes nothing else. -/
theorem dataPacket_reaches {s : State} {h : Hdr} {d : DataPart} {rd : ReadOutcome} {x : Nat} (g : s.AtEndpoint h d x) :
    (((s.partArrival h).assemble h d).2 = none → exec (.dataPacket h d rd) s = .next ((s.partArrival h).assemble h d).1) ∧
    ∀ bytes ack, ((s.partArrival h).assemble h d).2 = some (bytes, ack) →
      ({ mass := d.check / 2 ^ 32, crc := d.check % 2 ^ 32, poison := false, invalid := false } : BlockCheck).fails ((s.ctx x).codeOf d.tensorId)
        (arrived rd bytes) = 0 →
      exec (.dataPacket h d rd) s = .next (if ack = true then
        (((s.partArrival h).assemble h d).1.writeBlock x d.addr (arrived rd bytes)).ackData h h.srcEp h.step h.seq
        else ((s.partArrival h).assemble h d).1.writeBlock x d.addr (arrived rd bytes)) := by
  obtain ⟨hrun, hyoung, hcm, hdom, hst, haddr, hmask, hep, hbulk, hexec⟩ := g
  have hmark : ∀ (u : State) v, u.marked h v = u := fun u v => by
    unfold State.marked
    rw [hcm]
    rfl
  have hctx : ∀ y, (s.advanceTo h.stamp).ctx y = s.ctx y := (s.advanceTo_only h.stamp (Foot.sub (by decide) (Foot.refl _)) (Only.refl _ s)).ctx_eq
  have hdom' : (s.advanceTo h.stamp).domainCtx h.domain = some x := by
    rw [State.domainCtx]
    simp only [hctx]
    exact hdom
  have hdrain : ¬ (s.ctx x).st = .draining := by rw [hst]; decide
  have hplace : ¬ ((!addrOk d.addr) = true ∨ (!inMask (s.ctx x).mask (addrPart d.addr)) = true ∨ h.dstEp ≠ addrPart d.addr) := by
    rw [haddr, hmask, hep]
    simp
  have hstep : ¬ (!d.bulk && !(s.ctx x).executing h.step h.attempt) = true := by
    rw [hexec, hbulk]
    decide
  have key : exec (.dataPacket h d rd) s = execDataPacket h d rd s := rfl
  rw [key]
  constructor
  · intro hnone
    unfold execDataPacket
    dsimp only
    rw [if_neg (by rw [hrun]; decide), if_neg (by rw [hyoung]; decide), hmark, hdom']
    dsimp only
    rw [hctx, if_neg hdrain, if_neg hplace, if_neg hstep]
    unfold State.partArrival at hnone ⊢
    rw [hnone]
  · intro bytes ack hsome hf
    unfold execDataPacket
    dsimp only
    rw [if_neg (by rw [hrun]; decide), if_neg (by rw [hyoung]; decide), hmark, hdom']
    dsimp only
    rw [hctx, if_neg hdrain, if_neg hplace, if_neg hstep]
    unfold State.partArrival at hsome ⊢
    rw [hsome]
    dsimp only
    rw [if_pos hf, if_neg (by rw [hbulk]; decide)]

/-- A block of which one part has come. -/
def partBegun (h : Hdr) (d : DataPart) : Reasm :=
  { src := h.src, tensorId := d.tensorId, addr := d.addr, step := h.step, attempt := h.attempt, bulk := d.bulk, check := d.check,
    ackReq := d.ackReq, parts := [(d.part % 4, fitBytes 1024 d.payload)] }

/-- The first part of a block is kept. -/
theorem State.assemble_first {s : State} {h : Hdr} {d : DataPart} (hr : s.fab.reasm = []) :
    s.assemble h d = (s.updFab (fun f => { f with reasm := [partBegun h d] }), none) := by
  unfold State.assemble
  rw [hr]
  rfl

/-- The last part of a block completes it. -/
theorem State.assemble_last {s : State} {h : Hdr} {d : DataPart} {r : Reasm} {p₀ p₁ p₂ : List Byte} (hr : s.fab.reasm = [r]) (hsrc : r.src = h.src)
    (ht : r.tensorId = d.tensorId) (ha : r.addr = d.addr) (hs : r.step = h.step) (hat : r.attempt = h.attempt) (hb : r.bulk = d.bulk)
    (hp : r.parts = [(0, p₀), (1, p₁), (2, p₂)]) (hd : d.part = 3) :
    s.assemble h d = (s.updFab (fun f => { f with reasm := [] }),
      some (p₀ ++ (p₁ ++ (p₂ ++ fitBytes 1024 d.payload)), r.ackReq || d.ackReq)) := by
  have hmine : (r.src == h.src && r.tensorId == d.tensorId && r.addr == d.addr && r.step == h.step && r.attempt == h.attempt && r.bulk == d.bulk) = true := by
    rw [hsrc, ht, ha, hs, hat, hb]
    simp
  have hput : KMap.put r.parts (d.part % 4) (fitBytes 1024 d.payload) = [(0, p₀), (1, p₁), (2, p₂), (3, fitBytes 1024 d.payload)] := by
    rw [hp, hd]
    rfl
  have hfind : [r].find? (fun r => r.src == h.src && r.tensorId == d.tensorId && r.addr == d.addr && r.step == h.step && r.attempt == h.attempt &&
      r.bulk == d.bulk) = some r := List.find?_cons_of_pos hmine
  have hrest : [r].filter (fun r => !(r.src == h.src && r.tensorId == d.tensorId && r.addr == d.addr && r.step == h.step && r.attempt == h.attempt &&
      r.bulk == d.bulk)) = [] := List.filter_cons_of_neg (by rw [hmine]; decide)
  have hflat : ([(0, p₀), (1, p₁), (2, p₂), (3, fitBytes 1024 d.payload)].map (·.2)).flatten = p₀ ++ (p₁ ++ (p₂ ++ fitBytes 1024 d.payload)) := by
    simp
  unfold State.assemble
  extract_lets mine q q' others
  have hq : q = r := by
    show (s.fab.reasm.find? mine).getD _ = r
    rw [hr, hfind]
    rfl
  have hparts : q'.parts = [(0, p₀), (1, p₁), (2, p₂), (3, fitBytes 1024 d.payload)] := (congrArg (fun v : Reasm => KMap.put v.parts _ _) hq).trans hput
  have hack : q'.ackReq = (r.ackReq || d.ackReq) := congrArg (fun v : Reasm => v.ackReq || d.ackReq) hq
  have hothers : others = [] := (congrArg (List.filter _) hr).trans hrest
  rw [if_pos (by rw [hparts]; rfl), hparts, hack, hothers, hflat]

theorem dataPacket_keepsPart {s : State} {h : Hdr} {d : DataPart} {rd : ReadOutcome} {x : Nat} (g : s.AtEndpoint h d x) (hr : s.fab.reasm = []) :
    ∃ t, exec (.dataPacket h d rd) s = .next t ∧
      (∃ r, t.fab.reasm = [r] ∧ r.parts = [(d.part % 4, fitBytes 1024 d.payload)] ∧ r.src = h.src ∧ r.addr = d.addr ∧ r.tensorId = d.tensorId) ∧
      t.mem = s.mem ∧ t.out = s.out := by
  obtain ⟨hfab, hmem, hout, -⟩ := s.partArrival_parts h
  have hreach := (dataPacket_reaches (rd := rd) g).1
  have hasm := State.assemble_first (s := s.partArrival h) (h := h) (d := d) (hfab ▸ hr)
  rw [hasm] at hreach
  exact ⟨_, hreach rfl, ⟨_, rfl, rfl, rfl, rfl, rfl⟩, hmem, hout⟩

/-- A block that no pending slot holds back is written to the committed copy. -/
theorem State.writeBlock_committed {s : State} {x a : Nat} (h : s.pends x a = false) (bs : List Byte) (hwf : Memory.wf s.mem = true) :
    bytesStored s (s.writeBlock x a bs) (blockOf a) bs ∧ (s.writeBlock x a bs).fab = s.fab ∧ (s.writeBlock x a bs).out = s.out := by
  have e : s.writeBlock x a bs = (s.writeBytes (blockOf a) bs).setCheck a (freshCheck ((s.ctx x).codeAt a) bs) := by
    unfold State.writeBlock
    dsimp only
    rw [h]
    rfl
  rw [e]
  exact ⟨(s.writeBytes_stored hwf (blockOf a) bs).then fun _ => rfl, rfl, rfl⟩

/-- The ACK of a block's packet goes to its sender. -/
theorem State.ackData_sent {s : State} (w : State) (hs : s.out <:+ w.out) (h : Hdr) :
    respSent s (w.ackData h h.srcEp h.step h.seq) h.src h.srcEp 0x01 h.step (field h.seq 32 0) := by
  obtain ⟨e, hsent⟩ := w.sendResp_sent h.src h.srcEp 0x01 h.step (field h.seq 32 0) (w.echoing h.src)
  exact ⟨e, hsent.before hs⟩

theorem dataPacket_writesBlock {s : State} {h : Hdr} {d : DataPart} {x : Nat} {r : Reasm} {p₀ p₁ p₂ : List Byte} (g : s.AtEndpoint h d x)
    (hr : s.fab.reasm = [r]) (hsrc : r.src = h.src) (ht : r.tensorId = d.tensorId) (ha : r.addr = d.addr) (hs : r.step = h.step)
    (hat : r.attempt = h.attempt) (hb : r.bulk = false) (hp : r.parts = [(0, p₀), (1, p₁), (2, p₂)]) (hd : d.part = 3)
    (hpend : s.pends x d.addr = false) (hwf : Memory.wf s.mem = true)
    (hf : ({ mass := d.check / 2 ^ 32, crc := d.check % 2 ^ 32, poison := false, invalid := false } : BlockCheck).fails ((s.ctx x).codeOf d.tensorId)
      (p₀ ++ (p₁ ++ (p₂ ++ fitBytes 1024 d.payload))) = 0) :
    ∃ t, exec (.dataPacket h d .good) s = .next t ∧ bytesStored s t (blockOf d.addr) (p₀ ++ (p₁ ++ (p₂ ++ fitBytes 1024 d.payload))) ∧
      t.fab.reasm = [] ∧ ((r.ackReq || d.ackReq) = true → respSent s t h.src h.srcEp 0x01 h.step (field h.seq 32 0)) ∧
      ((r.ackReq || d.ackReq) = false → t.out = s.out) := by
  obtain ⟨hfab, hmem, hout, hctx⟩ := s.partArrival_parts h
  have hasm := State.assemble_last (s := s.partArrival h) (h := h) (hfab ▸ hr) hsrc ht ha hs hat (hb.trans g.data.symm) hp hd
  have hreach := (dataPacket_reaches (rd := .good) g).2 _ _ (congrArg Prod.snd hasm) hf
  rw [hasm] at hreach
  have hpend' : (s.partArrival h).pends x d.addr = false := by
    rw [State.pends_eq, ← hpend, State.pends_eq]
    exact sans_eq (fun c : Ctx => c.pendsAt d.addr) (fun _ => rfl) (hctx x)
  generalize s.partArrival h = u at hfab hmem hout hreach hpend'
  obtain ⟨hstored, hfabw, hkept⟩ := State.writeBlock_committed (s := u.updFab (fun f => { f with reasm := [] })) (x := x) hpend'
    (p₀ ++ (p₁ ++ (p₂ ++ fitBytes 1024 d.payload))) (by rw [State.updFab_mem, hmem]; exact hwf)
  have hbytes := hstored.after (s := s) fun q => congrArg (fun m : Mem => Mem.readCell m.bytes q) hmem
  have hsent : s.out <:+ ((u.updFab (fun f => { f with reasm := [] })).writeBlock x d.addr (p₀ ++ (p₁ ++ (p₂ ++ fitBytes 1024 d.payload)))).out :=
    ⟨[], (hkept.trans hout).symm⟩
  have hplain : arrived .good (p₀ ++ (p₁ ++ (p₂ ++ fitBytes 1024 d.payload))) = p₀ ++ (p₁ ++ (p₂ ++ fitBytes 1024 d.payload)) := rfl
  have hreasm := congrArg Fab.reasm hfabw
  rw [hplain] at hreach
  dsimp only at hreach
  refine ⟨_, hreach, ?_⟩
  generalize p₀ ++ (p₁ ++ (p₂ ++ fitBytes 1024 d.payload)) = bs at hbytes hreasm hkept hsent ⊢
  generalize (u.updFab (fun f => { f with reasm := [] })).writeBlock x d.addr bs = w at hbytes hreasm hkept hsent ⊢
  cases hk : r.ackReq || d.ackReq with
  | false =>
    rw [if_neg Bool.false_ne_true]
    exact ⟨hbytes, hreasm, fun k => (nomatch k), fun _ => hkept.trans hout⟩
  | true =>
    rw [if_pos rfl]
    exact ⟨hbytes.then fun _ => rfl, hreasm, fun _ => State.ackData_sent w hsent h, fun k => (nomatch k)⟩

/-- A packet of a domain the module takes no part in changes neither memory nor a context. -/
theorem dataPacket_foreign {s : State} {h : Hdr} {d : DataPart} {rd : ReadOutcome} (hrun : (s.advanceTo h.stamp).inRun = true)
    (hdom : s.domainCtx h.domain = none) : ∃ t, exec (.dataPacket h d rd) s = .next t ∧ t.mem = s.mem ∧ t.ctxs = s.ctxs := by
  have honly : ∀ ps, Foot 1 ps → Only ps s (s.advanceTo h.stamp) := fun ps hps => s.advanceTo_only h.stamp hps (Only.refl ps s)
  have hctx : ∀ y, (s.advanceTo h.stamp).ctx y = s.ctx y := (honly _ (Foot.sub (by decide) (Foot.refl _))).ctx_eq
  have hmem : (s.advanceTo h.stamp).mem = s.mem := (honly _ (Foot.sub (by decide) (Foot.refl _))).mem_eq
  have hctxs : (s.advanceTo h.stamp).ctxs = s.ctxs := (honly _ (Foot.sub (by decide) (Foot.refl _))).ctxs_eq
  have hdom' : (s.advanceTo h.stamp).domainCtx h.domain = none := by
    rw [State.domainCtx]
    simp only [hctx]
    exact hdom
  have hmark : ∀ (u : State) v, (u.marked h v).mem = u.mem ∧ (u.marked h v).ctxs = u.ctxs ∧ (u.marked h v).domainCtx h.domain = u.domainCtx h.domain :=
    fun u v => ⟨(u.marked_only h v (Foot.sub (by decide) (Foot.refl _)) (Only.refl _ u)).mem_eq, by
      have := (u.marked_only h v (Foot.sub (by decide) (Foot.refl _)) (Only.refl _ u)).ctxs_eq
      have hx : ∀ y, (u.marked h v).ctx y = u.ctx y := fun y => by rw [State.ctx, this]; rfl
      refine ⟨this, ?_⟩
      unfold State.domainCtx
      simp only [hx]⟩
  show ∃ t, execDataPacket h d rd s = .next t ∧ _
  unfold execDataPacket
  dsimp only
  rw [if_neg (by rw [hrun]; decide)]
  split
  · exact ⟨_, rfl, hmem, hctxs⟩
  · obtain ⟨hm, hc, hd⟩ := hmark (s.advanceTo h.stamp) (if d.bulk = true then 5 else 4)
    rw [hd, hdom']
    exact ⟨_, rfl, hm.trans hmem, hc.trans hctxs⟩

/-- Settles O29: with nothing waiting an output only notes it (`State.drainOut_idle`), and a packet for the running step reaches the assembly of its
block (`dataPacket_reaches`). -/
theorem crossingsAndDataPackets : Obligations.CrossingsAndDataPackets := by
  refine ⟨fun _ _ _ _ => forward_delivers, fun _ _ _ _ => forward_keeps, fun _ _ _ _ => forward_bad, fun _ _ _ _ => reserve_starts,
    fun _ _ _ _ => reserve_lapses, fun _ _ _ _ _ _ => routeBreak_kept, fun _ _ _ => routeBreak_effective, ?part, ?block,
    fun _ _ _ _ => dataPacket_foreign⟩
  case part =>
    intro s h d rd x hrun hold hcm hdom hst haddr hmask hep hbulk hexec hr
    exact dataPacket_keepsPart ⟨hrun, hold, hcm, hdom, hst, haddr, hmask, hep, hbulk, hexec⟩ hr
  case block =>
    intro s h d x r p₀ p₁ p₂ hrun hold hcm hdom hst haddr hmask hep hbulk hexec hr hsrc ht ha hs hat hb hp hd hpend hwf hf
    exact dataPacket_writesBlock ⟨hrun, hold, hcm, hdom, hst, haddr, hmask, hep, hbulk, hexec⟩ hr hsrc ht ha hs hat hb hp hd hpend hwf hf

end Sys2Proof.Machine
end

section
/-!
Operators, waits and the window adder (05 R120; 03 R43, R75 to R77, R85, R89).
-/
namespace Sys2Proof.Machine

-- Proofs elaborated one after another keep the whole text within the memory its compile is given.
set_option Elab.async false

/-! ### Commands of a core -/

/-- A command of a core that carries its operator's running work does it, and is one more retired. -/
theorem State.onCore_runs {s : State} {c : CoreCmd} {o : OpDesc} (h : s.runsOn c o) (f : Ctx → OpDesc → State → State) :
    s.onCore c f = .next ((f (s.ctx c.ctx) o s).bump .retired (physCore (coreCluster c.core) c.slot)) := by
  obtain ⟨hx, hslot, hcore, hop, hst, hl, hin, hcar⟩ := h
  have hunits : ¬ (16 ≤ c.ctx ∨ slotsPerCluster ≤ c.slot ∨ 2 ^ 20 ≤ c.core) := by
    rintro (h | h | h)
    · exact absurd hx (Nat.not_lt.2 h)
    · exact absurd hslot (Nat.not_lt.2 h)
    · exact absurd hcore (Nat.not_lt.2 h)
  have hgo : ¬ ((s.ctx c.ctx).st ≠ .running ∨ (!(s.ctx c.ctx).launched) = true ∨ (!o.clusters.contains (coreCluster c.core)) = true ∨
      (!s.carries c.core c.slot) = true) := by
    rw [hst, hl, hcar, List.contains_iff_mem.2 hin]
    simp
  unfold State.onCore
  rw [if_neg hunits]
  dsimp only
  rw [hop]
  exact congrArg Host.Outcome.next (if_neg hgo)

theorem onCluster_runs {x g : Nat} (hx : x < 16) (hg : g < numClusters) (t : State) : onCluster x g t = .next t := if_pos ⟨hx, hg⟩

/-! ### Starting and batches (R75, R76, R120) -/

/-- The contexts and clusters an operator's beginning leaves. -/
theorem State.beginOp_parts (s : State) (x opId unit g : Nat) : g ∈ KMap.getD ((s.beginOp x opId unit g).ctx x).exec.started opId [] ∧
    (unit = 1 → ((s.beginOp x opId unit g).cluster g).arrayOp = some (x, opId)) ∧
    (unit = 2 → ((s.beginOp x opId unit g).cluster g).vectorOp = some (x, opId)) ∧
    ((s.beginOp x opId unit g).cluster g).queue = (s.cluster g).queue ∧ (∀ y, y ≠ x → (s.beginOp x opId unit g).ctx y = s.ctx y) ∧
    ∀ k, k ≠ g → (s.beginOp x opId unit g).cluster k = s.cluster k := by
  unfold State.beginOp
  refine ⟨?_, fun h => ?_, fun h => ?_, ?_, fun y hy => ?_, fun k hk => ?_⟩
  · rw [State.ctx_of_updCluster, State.ctx_updExec_self]
    dsimp only [KMap.upd]
    rw [KMap.getD_put_self]
    exact mem_insertAsc.2 (.inl rfl)
  · rw [State.cluster_updCluster_self]
    exact if_pos h
  · rw [State.cluster_updCluster_self]
    exact if_pos h
  · rw [State.cluster_updCluster_self]
    rfl
  · rw [State.ctx_of_updCluster, State.ctx_updExec_ne _ _ hy]
  · rw [State.cluster_updCluster_ne _ _ hk]
    rfl

theorem operatorStart_begins {s : State} {x opId g : Nat} {o : OpDesc} (hx : x < 16) (hg : g < numClusters) (hop : (s.ctx x).op opId = some o)
    (hst : (s.ctx x).st = .running) (hl : (s.ctx x).launched = true) (hin : g ∈ o.clusters) (hdeps : (s.ctx x).depsMet opId = true)
    (hnew : (KMap.getD (s.ctx x).exec.started opId []).contains g = false) (hq : (s.cluster g).queue = []) (hb : o.batchable = false)
    (ha : o.unitOf = 1 → (s.cluster g).arrayOp = none) (hv : o.unitOf = 2 → (s.cluster g).vectorOp = none) :
    exec (.operatorStart x opId g) s = .next (s.beginOp x opId o.unitOf g) := by
  have hfree : (o.unitOf == 1 && !o.batchable && (s.cluster g).arrayOp.isSome || o.unitOf == 2 && (s.cluster g).vectorOp.isSome) = false := by
    rw [Bool.or_eq_false_iff]
    constructor
    · by_cases h : o.unitOf = 1
      · rw [ha h, Option.isSome_none, Bool.and_false]
      · rw [beq_false_of_ne h, Bool.false_and, Bool.false_and]
    · by_cases h : o.unitOf = 2
      · rw [hv h, Option.isSome_none, Bool.and_false]
      · rw [beq_false_of_ne h, Bool.false_and]
  show onCluster x g _ = _
  rw [onCluster_runs hx hg]
  dsimp only
  rw [hop]
  dsimp only
  rw [hfree, hnew, hq, hst, hl, List.contains_iff_mem.2 hin, hdeps, hb, if_neg (fun h => by cases h), if_neg (fun h => by cases h)]

/-- An operator has completed on a cluster, which is free of it. -/
def State.freeCluster (s : State) (x opId g : Nat) : State :=
  (s.updExec x (fun e => { e with done := KMap.upd e.done opId [] (insertAsc g) })).updCluster g (fun q => { q with
    arrayOp := if q.arrayOp = some (x, opId) then none else q.arrayOp
    vectorOp := if q.vectorOp = some (x, opId) then none else q.vectorOp })

theorem State.freeCluster_done (s : State) (x opId g : Nat) :
    KMap.getD ((s.freeCluster x opId g).ctx x).exec.done opId [] = insertAsc g (KMap.getD (s.ctx x).exec.done opId []) := by
  unfold State.freeCluster
  rw [State.ctx_of_updCluster, State.ctx_updExec_self]
  exact KMap.getD_put_self ..

theorem State.freeCluster_op (s : State) (x opId g : Nat) : ((s.freeCluster x opId g).ctx x).op opId = (s.ctx x).op opId := by
  unfold State.freeCluster
  rw [State.ctx_of_updCluster, State.ctx_updExec_self]
  rfl

/-- While another of its clusters has not completed an operator is not done. -/
theorem State.freeCluster_undone {s : State} {x opId g : Nat} {o : OpDesc} (hop : (s.ctx x).op opId = some o)
    (hother : ∃ k ∈ o.clusters, k ≠ g ∧ k ∉ KMap.getD (s.ctx x).exec.done opId []) : ((s.freeCluster x opId g).ctx x).opDone opId = false := by
  obtain ⟨k, hk, hkg, hknot⟩ := hother
  unfold Ctx.opDone
  rw [s.freeCluster_op, hop]
  dsimp only
  rw [s.freeCluster_done, List.all_eq_false]
  refine ⟨k, hk, fun h => ?_⟩
  rcases mem_insertAsc.1 (List.contains_iff_mem.1 h) with h | h
  · exact hkg h
  · exact hknot h

/-- A completion on one cluster while another has not completed only frees the cluster. -/
theorem operatorComplete_frees {s : State} {x opId g : Nat} {o : OpDesc} (hx : x < 16) (hg : g < numClusters) (hop : (s.ctx x).op opId = some o)
    (hst : (s.ctx x).st = .running) (hl : (s.ctx x).launched = true) (hstart : (KMap.getD (s.ctx x).exec.started opId []).contains g = true)
    (hdone : (KMap.getD (s.ctx x).exec.done opId []).contains g = false)
    (hother : ∃ k ∈ o.clusters, k ≠ g ∧ k ∉ KMap.getD (s.ctx x).exec.done opId []) (hq : ∀ q ∈ (s.cluster g).queue, ¬(q.ctx = x ∧ q.opId = opId)) :
    exec (.operatorComplete x opId g []) s = .next (s.freeCluster x opId g) := by
  have hqueue : (s.cluster g).queue.any (fun q => q.ctx == x && q.opId == opId) = false := by
    rw [List.any_eq_false]
    intro q hmem hb
    rw [Bool.and_eq_true, beq_iff_eq, beq_iff_eq] at hb
    exact hq q hmem hb
  have hundone := State.freeCluster_undone (g := g) hop hother
  show onCluster x g _ = _
  rw [onCluster_runs hx hg]
  dsimp only
  rw [hop]
  dsimp only
  rw [hst, hl, hstart, hdone, hqueue, if_neg (by decide)]
  exact congrArg Host.Outcome.next (if_pos (show (!((s.freeCluster x opId g).ctx x).opDone opId) = true by rw [hundone]; rfl))

theorem operatorComplete_leaves {s : State} (x opId g : Nat) : g ∈ KMap.getD ((s.freeCluster x opId g).ctx x).exec.done opId [] ∧
    ((s.freeCluster x opId g).cluster g).arrayOp ≠ some (x, opId) ∧ ((s.freeCluster x opId g).cluster g).vectorOp ≠ some (x, opId) ∧
    ∀ y, y ≠ x → (s.freeCluster x opId g).ctx y = s.ctx y := by
  have hfree : ∀ a : Option (Nat × Nat), (if a = some (x, opId) then none else a) ≠ some (x, opId) := fun a => by
    split
    · exact nofun
    next h => exact h
  refine ⟨?_, ?_, ?_, fun y hy => ?_⟩
  · rw [s.freeCluster_done]
    exact mem_insertAsc.2 (.inl rfl)
  · unfold State.freeCluster
    rw [State.cluster_updCluster_self]
    exact hfree _
  · unfold State.freeCluster
    rw [State.cluster_updCluster_self]
    exact hfree _
  · unfold State.freeCluster
    rw [State.ctx_of_updCluster, State.ctx_updExec_ne _ _ hy]

/-- The batch of a queue's only request is launched. -/
theorem batchWait_launches {s : State} {g : Nat} {r : ThinReq} (hg : g < numClusters) (hq : (s.cluster g).queue = [r]) :
    exec (.batchWaitExpiry g) s = .next ((s.updCluster g (fun c => { c with queue := c.queue.filter (fun q => !(q == r || s.sharesPass r q)) })).beginOp
      r.ctx r.opId 1 g) := by
  have hmine : (r == r || s.sharesPass r r) = true := by rw [beq_self_eq_true, Bool.true_or]
  have hbatch : [r].filter (fun q => q == r || s.sharesPass r q) = [r] := List.filter_cons_of_pos hmine
  show onCluster 0 g _ = _
  rw [onCluster_runs (by decide) hg]
  unfold State.launchBatch
  rw [hq]
  dsimp only
  unfold State.launchBatchOf
  extract_lets mine batch t
  have hb : batch = [r] := (congrArg (List.filter mine) hq).trans hbatch
  rw [hb]
  rfl

theorem batchWait_empties {s : State} {g : Nat} {r : ThinReq} (hg : g < numClusters) (hq : (s.cluster g).queue = [r]) :
    ∃ t, exec (.batchWaitExpiry g) s = .next t ∧ (t.cluster g).queue = [] ∧
    g ∈ KMap.getD (t.ctx r.ctx).exec.started r.opId [] ∧ (t.cluster g).arrayOp = some (r.ctx, r.opId) ∧ t.mem = s.mem := by
  refine ⟨_, batchWait_launches hg hq, ?_⟩
  have hmine : (r == r || s.sharesPass r r) = true := by rw [beq_self_eq_true, Bool.true_or]
  have hqueue : ((s.updCluster g (fun c => { c with queue := c.queue.filter (fun q => !(q == r || s.sharesPass r q)) })).cluster g).queue = [] := by
    rw [State.cluster_updCluster_self, hq]
    have hgone : ¬ (!(r == r || s.sharesPass r r)) = true := by rw [hmine]; decide
    exact List.filter_cons_of_neg (p := fun q => !(q == r || s.sharesPass r q)) hgone
  have hmem : (s.updCluster g (fun c => { c with queue := c.queue.filter (fun q => !(q == r || s.sharesPass r q)) })).mem = s.mem := rfl
  generalize s.updCluster g (fun c => { c with queue := c.queue.filter (fun q => !(q == r || s.sharesPass r q)) }) = u at hqueue hmem
  obtain ⟨hstart, harray, -, hkeep, -, -⟩ := u.beginOp_parts r.ctx r.opId 1 g
  exact ⟨hkeep.trans hqueue, hstart, harray rfl,
    ((u.beginOp_only r.ctx r.opId 1 g (Foot.sub (by decide) (Foot.refl _)) (Only.refl _ u)).mem_eq).trans hmem⟩

/-! ### Barriers (R89) -/

/-- Releasing a barrier changes nothing of who has arrived. -/
theorem State.tryRelease_arrived (s : State) (x barrier y : Nat) : ((s.tryRelease x barrier).ctx y).exec.arrived = (s.ctx y).exec.arrived := by
  have hrel : ∀ (u : State) f, (∀ e : Exec, (f e).arrived = e.arrived) → ((u.updExec x f).ctx y).exec.arrived = (u.ctx y).exec.arrived := fun u f hf => by
    by_cases h : y = x
    · rw [h, State.ctx_updExec_self]
      exact hf _
    · rw [State.ctx_updExec_ne _ _ h]
  unfold State.tryRelease
  extract_lets c
  split
  · rfl
  · split
    · rfl
    · have hlate : ∀ (v : State) g b, (v.countLate g b).ctx y = v.ctx y := fun v g b =>
        (v.countLate_only g b (Foot.sub (by decide) (Foot.refl _)) (Only.refl _ v)).ctx_eq y
      rw [forEach_keeps_reading (fun v : State => v.ctx y) (fun v g => hlate v g _)]
      exact hrel s _ fun _ => rfl

/-- A core's arrival at a barrier is recorded. -/
theorem wait_arrives {s : State} {c : CoreCmd} {o : OpDesc} {b : Nat} (h : s.runsOn c o) : ∃ t, exec (.wait c b) s = .next t ∧
    c.core % 256 ∈ KMap.getD (t.ctx c.ctx).exec.arrived (4096 * b + coreCluster c.core) [] ∧ t.mem = s.mem := by
  have hmem : OnlyO 2361183241430561193599 s (execWait c b s) := execWait_only c b (Foot.sub (by decide) (Foot.refl _)) (Only.refl _ s)
  show ∃ t, execWait c b s = .next t ∧ _
  unfold execWait at hmem ⊢
  rw [State.onCore_runs h] at hmem ⊢
  refine ⟨_, rfl, ?_, (hmem _ rfl).mem_eq⟩
  rw [State.ctx_of_bump]
  dsimp only
  rw [State.tryRelease_arrived, State.ctx_of_updCluster, State.ctx_updExec_self]
  dsimp only [KMap.upd]
  rw [KMap.getD_put_self]
  exact mem_insertAsc.2 (.inl rfl)

/-! ### The window adder (R43) -/

/-- A part of a tile row that is not the last keeps its sums. -/
theorem State.adderRow_more {s : State} {c : CoreCmd} {k : Ctx} {o : OpDesc} {row col parts n : Nat} {ws : List (Nat × Window)}
    (hnew : KMap.find (s.ctx c.ctx).exec.adder (adderKey (coreCluster c.core) c.opId row col) = none) (hp : 1 < parts) :
    s.adderRow c k o row col parts n ws =
      s.updExec c.ctx (fun e => { e with adder := KMap.put e.adder (adderKey (coreCluster c.core) c.opId row col) (1, ws) }) := by
  have hold : KMap.getD (s.ctx c.ctx).exec.adder (adderKey (coreCluster c.core) c.opId row col) (0, []) = (0, []) := by
    unfold KMap.getD
    rw [hnew]
    rfl
  unfold State.adderRow
  dsimp only
  rw [hold]
  exact if_pos hp

theorem send_keepsPart {s : State} {c : CoreCmd} {o : OpDesc} {row col parts n : Nat} {w : Window} (h : s.runsOn c o)
    (hraw : KMap.find (s.ctx c.ctx).exec.raw c.core = some [(0, 0, w)])
    (hnew : KMap.find (s.ctx c.ctx).exec.adder (adderKey (coreCluster c.core) c.opId row col) = none) (hp : 1 < parts) :
    ∃ t, exec (.send c (.adder row col parts n)) s = .next t ∧ KMap.find (t.ctx c.ctx).exec.raw c.core = none ∧
      KMap.find (t.ctx c.ctx).exec.adder (adderKey (coreCluster c.core) c.opId row col) = some (1, [(0, w)]) ∧ t.mem = s.mem ∧ t.out = s.out := by
  have hget : KMap.getD (s.ctx c.ctx).exec.raw c.core [] = [(0, 0, w)] := by
    unfold KMap.getD
    rw [hraw]
    rfl
  have hcleared : ∀ f : Exec → Exec, (∀ e, (f e).adder = e.adder) →
      KMap.find ((s.updExec c.ctx f).ctx c.ctx).exec.adder (adderKey (coreCluster c.core) c.opId row col) = none := fun f hf => by
    rw [State.ctx_updExec_self]
    exact (congrArg (KMap.find · _) (hf _)).trans hnew
  show ∃ t, execSend c (.adder row col parts n) s = .next t ∧ _
  unfold execSend
  rw [State.onCore_runs h]
  dsimp only
  rw [hget]
  refine ⟨_, congrArg (fun u : State => Host.Outcome.next (u.bump .retired (physCore (coreCluster c.core) c.slot)))
    (State.adderRow_more (ws := [(0, w)]) (s := s.updExec c.ctx (fun e => { e with raw := KMap.del e.raw c.core })) (hcleared _ fun _ => rfl) hp), ?_, ?_, rfl, rfl⟩
  · rw [State.ctx_of_bump, State.ctx_updExec_self, State.ctx_updExec_self]
    exact KMap.find_del_self ..
  · rw [State.ctx_of_bump, State.ctx_updExec_self]
    exact KMap.find_put_self ..

/-- Settles O24: each command, its conditions met, is one known change of the cluster and the attempt (`operatorStart_begins`,
`operatorComplete_frees`, `batchWait_launches`, `State.adderRow_more`). -/
theorem operatorsAndSendComplete : Obligations.OperatorsAndSendComplete := by
  refine ⟨?start, ?complete, ?stream, fun _ _ _ => batchWait_empties, fun _ _ _ _ => wait_arrives, fun _ _ _ _ _ _ _ _ => send_keepsPart⟩
  case start =>
    intro s x opId o g hx hg hop hst hl hin hdeps hnew hq hb ha hv
    obtain ⟨hstart, harray, hvector, -, hctx, hcluster⟩ := s.beginOp_parts x opId o.unitOf g
    exact ⟨_, operatorStart_begins hx hg hop hst hl hin hdeps hnew hq hb ha hv, hstart, harray, hvector, hctx, hcluster, rfl, rfl⟩
  case complete =>
    intro s x opId o g hx hg hop hst hl hstart hdone hother hq
    obtain ⟨hin, harray, hvector, hctx⟩ := operatorComplete_leaves (s := s) x opId g
    exact ⟨_, operatorComplete_frees hx hg hop hst hl hstart hdone hother hq, hin, harray, hvector, hctx, rfl, rfl⟩
  case stream =>
    intro s g opId hg hstream
    refine ⟨_, onCluster_runs (by decide) hg _, ?_, fun k hk => State.cluster_updCluster_ne _ _ hk⟩
    rw [State.cluster_updCluster_self]
    exact if_pos hstream

end Sys2Proof.Machine
end

section
/-!
Data movement: VEC, MOVE and DMA (03 R80, 04 R90 to R97).
-/
namespace Sys2Proof.Machine

-- Proofs elaborated one after another keep the whole text within the memory its compile is given.
set_option Elab.async false

/-! ### The near store (R101) -/

/-- With no word POISON a write to the near store stores its bytes. -/
theorem State.writeNear_stores {s : State} (a : Nat) (bs : List Byte) (hp : s.mem.nsPoison = []) (hwf : Memory.wf s.mem = true) :
    bytesStored s (s.writeNear a bs) a bs ∧ (s.writeNear a bs).out = s.out := by
  have hkept : bs.zipIdx.map (fun e => if s.mem.nsPoison.contains ((a + e.2) / 8 * 8) &&
      !(decide (a ≤ (a + e.2) / 8 * 8) && decide ((a + e.2) / 8 * 8 + 8 ≤ a + bs.length)) then s.byte (a + e.2) else e.1) = bs := by
    have hfst : bs.zipIdx.map Prod.fst = bs := List.zipIdx_map_fst 0 bs
    rw [hp]
    exact hfst
  unfold State.writeNear
  dsimp only
  rw [hkept]
  exact ⟨(s.writeBytes_stored hwf a bs).then fun _ => rfl, rfl⟩

/-- With no word POISON a near-store read is good. -/
theorem State.readRange_near {s : State} {x a n unit opId layer : Nat} (hl : addrLevel a = 2) (hp : s.mem.nsPoison = []) :
    s.readRange x a n unit opId layer .good = (some (s.readBytes a n), s) := by
  have hnear : s.nearPoison a n = false := by
    unfold State.nearPoison
    rw [hp]
    rfl
  unfold State.readRange State.nearRead
  rw [if_pos hl]
  dsimp only
  rw [hnear]
  rfl

/-! ### Blocks of far store and HBM (R95 to R97) -/

/-- A whole block at its own address is one piece. -/
theorem pieces_block {a : Nat} (h : a % 4096 = 0) : pieces 3 a 4096 = [(a, 4096)] := by
  have hm : min 4096 (4096 - a % 4096) = 4096 := by omega
  unfold pieces
  rw [if_neg (by decide)]
  dsimp only
  rw [hm]
  rfl

/-- Foreground slots are counted: memory, contexts and what was sent are as they were. -/
theorem State.fgSlots_parts (s : State) (a n : Nat) : (s.fgSlots a n).mem = s.mem ∧ (s.fgSlots a n).ctxs = s.ctxs ∧ (s.fgSlots a n).out = s.out := by
  unfold State.fgSlots
  split
  · exact ⟨rfl, rfl, rfl⟩
  · exact ⟨rfl, rfl, rfl⟩

theorem State.readBytes_of_mem {s u : State} (h : u.mem = s.mem) (a n : Nat) : u.readBytes a n = s.readBytes a n := by
  unfold State.readBytes State.byte
  rw [h]

theorem State.checkAt_of_mem {s u : State} (h : u.mem = s.mem) (a : Nat) : u.checkAt a = s.checkAt a := by
  unfold State.checkAt
  rw [h]

theorem State.ctx_of_ctxs {s u : State} (h : u.ctxs = s.ctxs) (x : Nat) : u.ctx x = s.ctx x := by
  unfold State.ctx
  rw [h]

theorem State.readBytes_length (s : State) (a n : Nat) : (s.readBytes a n).length = n := by
  unfold State.readBytes
  rw [List.length_map, List.length_range]

theorem slice_whole {l : List Byte} {n : Nat} (h : l.length = n) : slice l 0 n = l := by
  unfold slice
  rw [List.drop_zero, List.take_of_length_le (Nat.le_of_eq h)]

/-- A whole block whose record is good is read as it is. -/
theorem State.readRange_block {s : State} {x a unit opId layer : Nat} (hl : addrLevel a < 2) (ha : a % 4096 = 0)
    (hp : KMap.find (s.ctx x).pend a = none) (hpoison : (s.checkAt a).poison = false)
    (hf : (s.checkAt a).fails ((s.ctx x).codeAt a) (s.readBytes a 4096) = 0) :
    s.readRange x a 4096 unit opId layer .good = (some (s.readBytes a 4096), s.fgSlots a 4096) := by
  obtain ⟨hmem, hctxs, -⟩ := s.fgSlots_parts a 4096
  have hb : blockOf a = a := blockOf_aligned ha
  have hlevel : ¬ addrLevel a = 2 := by omega
  unfold State.readRange
  rw [if_neg hlevel, show 4096 / 4096 + 2 = 3 from rfl, pieces_block ha]
  generalize s.fgSlots a 4096 = u at hmem hctxs ⊢
  have hbytes := State.readBytes_of_mem hmem a 4096
  have hread := State.readBlock_good (s := u) (x := x) (a := a) unit opId layer (by rw [hb, State.ctx_of_ctxs hctxs]; exact hp)
    (by rw [State.checkAt_of_mem hmem]; exact hpoison)
    (by rw [hb, State.checkAt_of_mem hmem, State.ctx_of_ctxs hctxs, hbytes]; exact hf)
  rw [hb, hbytes] at hread
  have hlen := s.readBytes_length a 4096
  generalize s.readBytes a 4096 = bs at hread hlen
  rw [List.foldl_cons, List.foldl_nil]
  dsimp only
  rw [if_pos rfl, hread, ha]
  dsimp only
  rw [List.nil_append, slice_whole hlen]

/-- A check record is no byte of the memory it covers. -/
theorem State.setCheck_byte (s : State) (a : Nat) (c : BlockCheck) (q : Nat) : (s.setCheck a c).byte q = s.byte q := rfl

theorem State.setCheck_out (s : State) (a : Nat) (bs : List Byte) (b : Nat) (c : BlockCheck) : ((s.writeBytes a bs).setCheck b c).out = s.out := rfl

theorem State.setCheck_checkAt (s : State) (a : Nat) (c : BlockCheck) : (s.setCheck a c).checkAt a = c := KMap.getD_put_self ..

/-- A whole block outside the pending ones is written with a fresh check. -/
theorem State.writeRange_block {s : State} {x a opId layer : Nat} {bs : List Byte} (hl : addrLevel a < 2) (ha : a % 4096 = 0) (hlen : bs.length = 4096)
    (hp : s.pends x a = false) : s.writeRange x a opId layer bs =
      ((s.fgSlots a 4096).writeBytes a bs).setCheck a (freshCheck ((s.ctx x).codeAt a) bs) := by
  obtain ⟨-, hctxs, -⟩ := s.fgSlots_parts a 4096
  have hlevel : ¬ addrLevel a = 2 := by omega
  unfold State.writeRange
  rw [if_neg hlevel, hlen, show 4096 / 4096 + 2 = 3 from rfl, pieces_block ha]
  generalize s.fgSlots a 4096 = u at hctxs ⊢
  have hpend : u.pends x a = false := by rw [State.pends_eq, State.ctx_of_ctxs hctxs, ← State.pends_eq]; exact hp
  rw [forEach_one, Nat.sub_self, slice_whole hlen]
  unfold State.writePart
  dsimp only
  rw [if_pos ⟨ha, hlen⟩]
  unfold State.writeBlock
  dsimp only
  rw [hpend, if_neg Bool.false_ne_true, blockOf_aligned ha, State.ctx_of_ctxs hctxs]

/-! ### Transfers (R91, R92) -/

theorem State.transfer_runs {s : State} {x src dst n unit opId layer : Nat} {bs : List Byte} {u : State} (hsrc : s.rangeOk src n = true)
    (hdst : s.rangeOk dst n = true) (hread : s.readRange x src n unit opId layer .good = (some bs, u)) :
    s.transfer x src dst n unit opId layer .good = u.writeRange x dst opId layer bs := by
  unfold State.transfer
  rw [hsrc, hdst, hread]
  rfl

/-- An address outside the regions transfers nothing: the status and the report say so. -/
theorem State.addrErr_reports (s : State) (x opId layer a : Nat) : (s.addrErr x opId layer a).mem = s.mem ∧
    ((s.addrErr x opId layer a).ctx x).faulted = true ∧
    (KMap.getD ((s.addrErr x opId layer a).ctx x).exec.status opId {}).addrErr = true ∧
    ctrlSent s (s.addrErr x opId layer a) (s.ctx x).coordLocus 0x05 (s.ctx x).step (s.ctx x).attempt
      ({ FaultParam.of 5 0x40 with addr := a, opId, layer } : FaultParam).pack := by
  unfold State.addrErr
  have hctx : (s.addStatus x opId { addrErr := true }).ctx x = { s.ctx x with exec := { (s.ctx x).exec with
      status := KMap.upd (s.ctx x).exec.status opId {} (fun u => u.or { addrErr := true }) } } := State.ctx_updExec_self ..
  have hstatus : (KMap.getD ((s.addStatus x opId { addrErr := true }).ctx x).exec.status opId {}).addrErr = true := by
    rw [hctx]
    dsimp only [KMap.upd]
    rw [KMap.getD_put_self]
    exact Bool.or_true _
  have haddr : ((s.addStatus x opId { addrErr := true }).ctx x).address = (s.ctx x).address := by rw [hctx]; rfl
  have hmem : (s.addStatus x opId { addrErr := true }).mem = s.mem := rfl
  have hout : (s.addStatus x opId { addrErr := true }).out = s.out := rfl
  generalize s.addStatus x opId { addrErr := true } = u at hstatus haddr hmem hout
  obtain ⟨hcl, hrest⟩ := Prod.mk.inj haddr
  obtain ⟨hstep, hatt⟩ := Prod.mk.inj hrest
  have hself := u.report_ctx_self x { FaultParam.of 5 0x40 with addr := a, opId, layer }
  have hsent := u.report_sent x { FaultParam.of 5 0x40 with addr := a, opId, layer }
  rw [hcl, hstep, hatt] at hsent
  refine ⟨?_, ?_, ?_, hsent.before (hout ▸ List.suffix_rfl)⟩
  · exact ((u.report_only x _ (Foot.sub (by decide) (Foot.refl _)) (Only.refl _ u)).mem_eq).trans hmem
  · rw [hself]
  · rw [hself]
    exact hstatus

/-! ### The clauses -/

theorem vec_stores {s : State} {c : CoreCmd} {o : OpDesc} {first nearOff : Nat} {ins : List (List InElem)} {vs : List (Val × Bool)} {bs : List Byte}
    (h : s.runsOn c o) (hvals : vecValues (s.ctx c.ctx) o first ins = some vs) (hmx : isMx o.outFormat = false)
    (hbs : bs = packElems o.outFormat (vs.zipIdx.map (fun e => (convOut o.outFormat
      (rmodeOf o.round (s.ctx c.ctx).seed (s.ctx c.ctx).step o.output (first + e.2)) o.infMode e.1.1).1)))
    (hfit : nearOff + bs.length ≤ nearSize) (hp : s.mem.nsPoison = []) (hwf : Memory.wf s.mem = true) :
    ∃ t, exec (.vec c first ins nearOff) s = .next t ∧ bytesStored s t (nearAddr c.core nearOff) bs ∧ t.out = s.out := by
  have hpack : ∀ (f : Nat → RMode), packElems o.outFormat ((vs.zipIdx.map (fun e => convOut o.outFormat (f e.2) o.infMode e.1.1)).map (·.1)) =
      packElems o.outFormat (vs.zipIdx.map (fun e => (convOut o.outFormat (f e.2) o.infMode e.1.1).1)) := fun f => by
    rw [List.map_map]
    rfl
  have hpacked := (hpack fun i => rmodeOf o.round (s.ctx c.ctx).seed (s.ctx c.ctx).step o.output (first + i)).trans hbs.symm
  have hstore : ∃ ovf, s.vecStore c (s.ctx c.ctx) o first nearOff vs =
      ((s.addStatus c.ctx c.opId { ovf }).bump .vecResults (coreCluster c.core) vs.length).writeNear (nearAddr c.core nearOff) bs := by
    unfold State.vecStore
    extract_lets code mode qs es r u
    have hr : r.1 = bs := by
      show (if isMx code = true then _ else _ : List Byte × Bool).1 = bs
      rw [if_neg (by rw [show isMx code = false from hmx]; decide)]
      exact hpacked
    rw [hr, if_neg (Nat.not_lt.2 hfit)]
    exact ⟨_, rfl⟩
  show ∃ t, execVec c first ins nearOff s = .next t ∧ _
  unfold execVec
  rw [State.onCore_runs h]
  dsimp only
  rw [hvals]
  dsimp only
  obtain ⟨ovf, e⟩ := hstore
  rw [e]
  obtain ⟨hstored, hout⟩ := State.writeNear_stores (s := (s.addStatus c.ctx c.opId { ovf }).bump .vecResults (coreCluster c.core) vs.length)
    (nearAddr c.core nearOff) bs hp hwf
  exact ⟨_, rfl, (hstored.after fun _ => rfl).then fun _ => rfl, hout⟩

theorem move_copies {s : State} {c : CoreCmd} {o : OpDesc} {src dst len : Nat} (h : s.runsOn c o) (hsrc : s.rangeOk src len = true)
    (hdst : s.rangeOk dst len = true) (hls : addrLevel src = 2) (hld : addrLevel dst = 2) (hp : s.mem.nsPoison = [])
    (hwf : Memory.wf s.mem = true) :
    ∃ t, exec (.move c src dst len .good) s = .next t ∧ bytesStored s t dst (s.readBytes src len) ∧ t.out = s.out := by
  have hmove : s.transfer c.ctx src dst len 0 c.opId o.layer .good = s.writeNear dst (s.readBytes src len) := by
    rw [State.transfer_runs hsrc hdst (State.readRange_near hls hp), State.writeRange, if_pos hld]
  obtain ⟨hstored, hout⟩ := State.writeNear_stores dst (s.readBytes src len) hp hwf
  show ∃ t, execMove c src dst len .good s = .next t ∧ _
  unfold execMove
  rw [State.onCore_runs h, hmove]
  exact ⟨_, rfl, hstored.then fun _ => rfl, hout⟩

theorem dma_runs {s : State} {x opId : Nat} {o : OpDesc} (src dst len : Nat) (rd : ReadOutcome) (hx : x < 16) (hop : (s.ctx x).op opId = some o)
    (hst : (s.ctx x).st = .running) (hl : (s.ctx x).launched = true) :
    exec (.dma x opId src dst len rd) s = .next (s.transfer x src dst len 3 opId o.layer rd) := by
  show execDma x opId src dst len rd s = _
  unfold execDma
  rw [if_neg (Nat.not_le.2 hx)]
  dsimp only
  rw [hop]
  exact congrArg Host.Outcome.next (if_pos ⟨hst, hl⟩)

theorem dma_copies {s : State} {x opId src dst : Nat} {o : OpDesc} (hx : x < 16) (hop : (s.ctx x).op opId = some o)
    (hst : (s.ctx x).st = .running) (hl : (s.ctx x).launched = true) (hsrc : s.rangeOk src 4096 = true) (hdst : s.rangeOk dst 4096 = true)
    (hls : addrLevel src < 2) (hld : addrLevel dst < 2) (has : src % 4096 = 0) (had : dst % 4096 = 0)
    (hfind : KMap.find (s.ctx x).pend src = none) (hpend : s.pends x dst = false) (hpoison : (s.checkAt src).poison = false)
    (hf : (s.checkAt src).fails ((s.ctx x).codeAt src) (s.readBytes src 4096) = 0) (hwf : Memory.wf s.mem = true) :
    ∃ t, exec (.dma x opId src dst 4096 .good) s = .next t ∧ bytesStored s t dst (s.readBytes src 4096) ∧ t.out = s.out ∧
      t.checkAt dst = freshCheck ((s.ctx x).codeAt dst) (s.readBytes src 4096) := by
  have hread := State.readRange_block (unit := 3) (opId := opId) (layer := o.layer) hls has hfind hpoison hf
  obtain ⟨hmem, hctxs, hout⟩ := s.fgSlots_parts src 4096
  have hlen := s.readBytes_length src 4096
  rw [dma_runs src dst 4096 .good hx hop hst hl, State.transfer_runs hsrc hdst hread]
  generalize s.readBytes src 4096 = bs at hlen
  generalize s.fgSlots src 4096 = u at hmem hctxs hout
  have hpend' : u.pends x dst = false := by rw [State.pends_eq, State.ctx_of_ctxs hctxs, ← State.pends_eq]; exact hpend
  rw [State.writeRange_block hld had hlen hpend', State.ctx_of_ctxs hctxs]
  obtain ⟨hmem', -, hout'⟩ := u.fgSlots_parts dst 4096
  generalize u.fgSlots dst 4096 = v at hmem' hout'
  have hbyte : ∀ q, v.byte q = s.byte q := fun q => by rw [State.byte, hmem', hmem]; rfl
  have hstored := State.writeBytes_stored (s := v) (by rw [hmem', hmem]; exact hwf) dst bs
  exact ⟨_, rfl, (hstored.after hbyte).then (State.setCheck_byte _ dst _), (State.setCheck_out ..).trans (hout'.trans hout), State.setCheck_checkAt ..⟩

/-- Settles O23: a good range is read as it is and written where it goes (`State.writeNear_stores`, `State.readRange_block`,
`State.writeRange_block`), a bad one only reported (`State.addrErr_reports`). -/
theorem dataMovementCompletes : Obligations.DataMovementCompletes := by
  refine ⟨fun _ _ _ _ _ _ _ _ => vec_stores, fun _ _ _ _ _ _ => move_copies, fun _ _ _ _ _ _ => dma_copies, ?outside⟩
  case outside =>
    intro s x opId o src dst len rd hx hop hst hl hbad
    have herr : s.transfer x src dst len 3 opId o.layer rd = s.addrErr x opId o.layer src := by
      unfold State.transfer
      rw [hbad]
      rfl
    exact ⟨_, (dma_runs src dst len rd hx hop hst hl).trans (congrArg Host.Outcome.next herr), s.addrErr_reports x opId o.layer src⟩

end Sys2Proof.Machine
end
